-- ==== Sys2Proof/Word.lean ====
section
/-! DEFINITION. Sys2Proof/Word.lean: the words of the machine, bit ranges of a word, byte strings, and tables. -/

namespace Sys2Proof

/-- A 32-bit register word (R11). -/
abbrev Word := BitVec 32

/-- One byte. -/
abbrev Byte := BitVec 8

/-- A bit range [hi:lo] of a register (R4). -/
structure BitRange where
  hi : Nat
  lo : Nat
deriving DecidableEq, Repr

/-- A string of bytes, each a number below 256, in the order they are sent or stored. -/
abbrev Bytes := List Nat

/-- A table with a default: sparse data by key, in rising order of key, no entry equal to the default of its key. -/
abbrev Tbl (α : Type) := List (Nat × α)

end Sys2Proof
end

