-- ==== Sys2Proof/Syntax.lean ====
section
/-! DEFINITION. Sys2Proof/Syntax.lean: the commands of the block, one constructor per row of spec/opcode_table.json.
The table gives no operands; the operands here are what the rule of the row needs from outside: which register, port, slot
or channel, what arrived, what a medium, an analog part or a far end answered. -/

namespace Sys2Proof


/-- The commands the block takes: one constructor per row of the table of operations and events. -/
inductive Instr where
  /-- REGISTER_WRITE (R15). A write to a register that has no row of its own takes effect under the access codes of its fields. -/
  | registerWrite (init off v x : Nat)
  /-- UNASSIGNED_ACCESS (R11). An access to an unassigned offset, narrower than allowed or misaligned, reads 0 or is ignored, and is counted in CHIP_BADREG_CNT and recorded in CHIP_BADREG_LAST. -/
  | unassignedAccess (init off size : Nat) (write : Bool)
  /-- CELL_ERROR (R21). A cell finds a bit error, corrects and counts a single-bit error, and raises a block error on an uncorrectable error or 16 corrections within 1 s. -/
  | cellError (path slot : Nat) (ue never : Bool)
  /-- BLOCK_RETRY (R22). A retry of a failing operation completes; success ends the error with a record, and failure of the third attempt reports the block. -/
  | blockRetry (path : Nat) (good : Bool)
  /-- HANDSHAKE_TIMEOUT (R22). A handshake left unacknowledged for 2^10 ticks is a block error that is never retried. -/
  | handshakeTimeout (path : Nat)
  /-- SUBSTITUTION_COMPLETE (R71). The spare is restored or re-pricked, connected to the pin set and released, and S0_ACT and S0_FOR are set. -/
  | substitutionComplete (n : Nat) (bad : Bool)
  /-- PACE_WINDOW_END (R35). At the end of each 2^16-tick window a region publishes its pace in CHIP_PACE_r and lowers PACE_LOW. -/
  | paceWindowEnd (r count ref : Nat)
  /-- GOVERNOR_PERIOD_END (R37). At the end of an evaluation period the governor compares the lowest pace with the target and steps VSET up or down. -/
  | governorPeriodEnd (ack : Option Nat)
  /-- GOVERNOR_SETTLE_END (R37). After the settle time the governor reads READ_VOUT and may take its next step. -/
  | governorSettleEnd (raw : Nat) (ack : Bool)
  /-- CLOCK_LOSS (R43). A clock domain loses its clock; its FIFOs are discarded and its blocks reported, except the time base, which switches both clocks to the RTC. -/
  | clockLoss (loss : Nat × Nat)
  /-- TIME_BASE_RETURN (R43). The time base returns, and the accumulator runs from the TCXO with the held servo correction, without a step. -/
  | timeBaseReturn
  /-- FRAME_COMMIT (R45). A frame is committed once its counter is updated, its record is staged and, in a pair, its mirror is confirmed. -/
  | frameCommit (slot : Nat)
  /-- LOADER_LOAD (R55). START with OP 0 loads a pricking into a blank block or region. -/
  | loaderLoad (force : Bool)
  /-- LOADER_REPRICK_BLOCK (R58). START with OP 1 begins a live re-pricking of one block at the Verify phase. -/
  | loaderReprickBlock (force : Bool)
  /-- LOADER_RESTORE_PIN_SET (R66). START with OP 2 drains the spare and returns a port's pin set to its repaired block. -/
  | loaderRestorePinSet (force : Bool)
  /-- LOADER_REPRICK_REGION (R67). START with OP 3 re-pricks every block of a region one at a time, spares last. -/
  | loaderReprickRegion (force : Bool)
  /-- LOADER_ABORT (R62). ABORT during Verify or Drain resumes the block as it was with ERR 11, and is ignored from Isolate on. -/
  | loaderAbort
  /-- LOADER_VERIFY_DONE (R55). The pricking checks end; a failure sets FAIL with its error, and success starts Drain. -/
  | loaderVerifyDone (err : Bool)
  /-- LOADER_DRAIN_END (R59). The drain ends when the block is empty or DRAIN_TO expires, and the block is isolated. -/
  | loaderDrainEnd
  /-- LOADER_WRITE_DONE (R56). The frames have been written, with each block rechecked against its verified CRC and hash, and self-test starts. -/
  | loaderWriteDone (err : Bool)
  /-- LOADER_SELF_TEST_DONE (R64). Self-test ends; success restores registers from the shadow and releases the block, and failure sets ERR 8 and quarantines it. -/
  | loaderSelfTestDone (fail : Bool)
  /-- SPARE_SELF_TEST (R73). Every 2^32 ticks the loader self-tests each idle spare and quarantines one that fails. -/
  | spareSelfTest (r x : Nat) (fail : Bool)
  /-- READBACK_START (R74). START in UPD_PRK_RB_SEL begins a structure readback of a block. -/
  | readbackStart (path : Nat)
  /-- READBACK_DONE (R74). The readback fills the RB identity, version and hash registers and clears BUSY. -/
  | readbackDone
  /-- LINE_PREAMBLE_DETECT (R80). A line receiver detects a preamble and finds the start of the header. -/
  | linePreambleDetect (port first : Nat) (words : List Nat)
  /-- LINE_HEADER_RECEIVE (R83). A line header is decoded and accepted, or rejected and counted in HDR_BAD_CNT. -/
  | lineHeaderReceive (port : Nat) (rest : List (Nat × List Nat))
  /-- LINE_SYMBOL_RECEIVE (R97). A received payload symbol is marked for impulses, demodulated and stored as soft values. -/
  | lineSymbolReceive (port first : Nat) (words after : List Nat)
  /-- LINE_FRAME_DECODE (R99). After the last payload symbol the frame is decoded and its outcome and PSDU pass to the MAC. -/
  | lineFrameDecode (port : Nat) (rest : List (Nat × List Nat)) (carriers : List Nat) (snr : List Int) (level : Nat)
  /-- LINE_RX_DEADLINE_MISS (R105). A symbol's soft values miss DL_RX, so the symbol is erased and PACE_SHORT_CNT incremented. -/
  | lineRxDeadlineMiss (port : Nat)
  /-- LINE_TX_DEADLINE_MISS (R106). A transmit symbol is not ready DL_TX before its slot, so a payload symbol goes as zeros or a header miss ends the transmission. -/
  | lineTxDeadlineMiss (port sym : Nat)
  /-- LANE_ALIGNED (R103). A receive lane finds 32 valid words including align words, and LINK is set. -/
  | laneAligned (lane : Nat × List Nat)
  /-- LANE_LOSS (R103). A lane with 4 bad words in 16 is lost, LANE_LOSS_CNT is incremented and samples are flagged. -/
  | laneLoss (port : Nat) (words : List Nat)
  /-- CONTENTION_SLOT (R116). An idle slot passes in a round and backoffs in the current window count down. -/
  | contentionSlot (port : Nat)
  /-- LINE_TX_END (R104). The last payload symbol is sent, TX_EN falls after TXEN_LAG and the response slot is reserved. -/
  | lineTxEnd (port first : Nat)
  /-- RESPONSE_SEND (R113). ACK_GAP after a frame the link receiver sends an ACK or NACK. -/
  | responseSend (port : Nat)
  /-- RESPONSE_WINDOW_END (R119). ACK_GAP + ACK_DET passes with no matching response, counting a failed attempt and freeing the medium. -/
  | responseWindowEnd (port : Nat)
  /-- LINE_SCHEDULED_LAUNCH (R118). A SCHED packet launches at schedule count T, or late with outcome 5 if the medium is busy. -/
  | lineScheduledLaunch (port : Nat)
  /-- REASSEMBLY_TIMEOUT (R129). REASM_TO passes on an incomplete message, its slot is freed and REASM_TO_CNT incremented. -/
  | reassemblyTimeout (port src seq : Nat)
  /-- LINE_TX_PACKET_TAKE (R133). The line MAC takes a prefixed packet from the transmit bobbin queue and queues its frame or frames. -/
  | lineTxPacketTake (port : Nat)
  /-- AIR_CYCLE_START (R145). An air cycle begins at its TAI-aligned instant and CYCLE_NO advances. -/
  | airCycleStart (port : Nat) (receiving : Bool)
  /-- AIR_BACKOFF_EXPIRE (R149). A station's random backoff within its region ends and CCA begins. -/
  | airBackoffExpire (port : Nat)
  /-- AIR_CCA_DONE (R149). CCA ends; an idle medium starts transmission, and a busy one increments counters and backs off again or fails. -/
  | airCcaDone (port : Nat) (power : Int) (receiving : Bool)
  /-- AIR_ENH_ACK_SEND (R150). An Enh-Ack starts ACK_GAP after a unicast frame. -/
  | airEnhAckSend (port : Nat)
  /-- AIR_ACK_TIMEOUT (R150). No matching Enh-Ack arrives within ACK_GAP + ACK_WAIT, TX_NOACK_CNT is incremented and the attempt is retried or dropped. -/
  | airAckTimeout (port : Nat)
  /-- AIR_SCHEDULED_LAUNCH (R151). A SCHED packet launches at T without CCA, or late with outcome 5. -/
  | airScheduledLaunch (port : Nat) (receiving : Bool)
  /-- AIR_FRAME_RECEIVE (R142). An air frame is received, filtered by format and PAN ID, and handled by type. -/
  | airFrameReceive (port : Nat) (psdu : Bytes) (fcs2 phr : Bool) (mcs : Option Nat) (snr : Nat × Nat) (level : Nat)
  /-- FLOOD_RELAY_SEND (R167). After its random delay, a member port rebroadcasts a flood with TTL − 1 and AGE updated. -/
  | floodRelaySend (cca : Nat × Int × Bool)
  /-- AIR_RX_DEADLINE_MISS (R141). An I/Q block misses its receive deadline and is treated as erased. -/
  | airRxDeadlineMiss (port : Nat)
  /-- AIR_TX_DEADLINE_MISS (R141). A transmit block is not ready at its slot, so the frame ends and the attempt fails. -/
  | airTxDeadlineMiss (port : Nat)
  /-- RENDEZVOUS_WINDOW_OPEN (R156). A rendezvous window opens for a sleeping meter with width set by STATE and G. -/
  | rendezvousWindowOpen (port addr : Nat)
  /-- RENDEZVOUS_WINDOW_END (R158). A window closes without contact, a miss is counted and STATE escalates. -/
  | rendezvousWindowEnd (port addr tx : Nat)
  /-- WAKE_TRAIN_START (R159). A wake-up train begins WUT_LEN before the target rendezvous. -/
  | wakeTrainStart (port addr : Nat)
  /-- WAKE_FRAME_SEND (R159). Every WUT_GAP a wake-up frame with RDV_MS is sent. -/
  | wakeFrameSend (port : Nat)
  /-- MEMBER_BEACON_MISS (R163). A member's beacon window passes without a valid beacon and MISSED is incremented. -/
  | memberBeaconMiss (port : Nat)
  /-- MEMBER_SEARCH_ROUND (R163). A search round ends without a beacon and the listening window doubles. -/
  | memberSearchRound (port : Nat)
  /-- MEMBER_SCAN_TIMEOUT (R163). SCAN_LEN of continuous listening passes without a beacon and an error record is written. -/
  | memberScanTimeout (port : Nat)
  /-- AIR_TX_PACKET_TAKE (R169). The air MAC takes a prefixed packet from the transmit queue and queues or holds its frame. -/
  | airTxPacketTake (port : Nat)
  /-- PORT_BOB_RX_READ (R176). A read of PORT_BOB_RX pops the next word of the oldest whole packet, or sets UNDERRUN. -/
  | portBobRxRead (port : Nat)
  /-- PORT_BOB_TX_WRITE (R177). A write to PORT_BOB_TX pushes one transmit word, or is discarded with OVERFLOW. -/
  | portBobTxWrite (port value : Nat)
  /-- PORT_ENABLE (R181). EN written 1 publishes PORT_TIMING and starts lane alignment or cascade bring-up. -/
  | portEnable (port : Nat)
  /-- PORT_DISABLE (R181). EN written 0 cuts a transmission, keeps the queues and clears LINK. -/
  | portDisable (port : Nat)
  /-- PORT_RX_RESET (R181). RX_RESET empties the receive queue and counts dropped packets. -/
  | portRxReset (port : Nat)
  /-- PORT_TX_RESET (R181). TX_RESET empties the transmit queue and completes its packets with status 7. -/
  | portTxReset (port : Nat)
  /-- PORT_RX_SINK_OFF (R176). RX_SINK written 0 after a partial read discards the rest of that packet. -/
  | portRxSinkOff (port : Nat)
  /-- DESC_FETCH (R184). The mover reads the descriptor at CONS and stops on OWN = 0 or an unreadable descriptor. -/
  | descFetch (port errs : Nat)
  /-- DESC_COPY (R184). When chunks are free, the mover copies the packet into the transmit queue and advances CONS. -/
  | descCopy (port : Nat) (err : Bool)
  /-- DESC_COMPLETE (R184). When a packet's outcome is known, its descriptor is written back with OWN 0, STATUS and TIME. -/
  | descComplete (port index code : Nat)
  /-- CAS_COMMA_ALIGN (R193). The cascade receiver finds the comma boundary and enters STATE 2. -/
  | casCommaAlign (port : Nat)
  /-- CAS_HELLO_TIMER (R193). Every 512 ticks in STATE 2 the port sends HELLO. -/
  | casHelloTimer (port : Nat)
  /-- CAS_HELLO_RECEIVE (R193). A valid HELLO brings the link up, or in STATE 3 restarts the counts. -/
  | casHelloReceive (port : Nat) (codes : List Nat)
  /-- CAS_LINK_DOWN (R193). Code violations or 2^10 ticks without a comma take the link down. -/
  | casLinkDown (port viol : Nat) (down : Bool)
  /-- CAS_FRAME_RECEIVE (R194). A cascade frame ends and is discarded, consumed or placed in the receive queue. -/
  | casFrameReceive (port sof : Nat) (codes : List Nat) (stop : Nat)
  /-- CAS_CREDIT_RECEIVE (R192). A CREDIT sequence updates ADV unless its CRC-8 is bad. -/
  | casCreditReceive (port lo hi crc : Nat)
  /-- CAS_CREDIT_SEND (R192). The receiver sends CREDIT after a change, or every 512 ticks. -/
  | casCreditSend (port : Nat)
  /-- CAS_FRAME_SEND (R192). With enough credit, the sender starts a CTYPE 0–2 frame and grows USED. -/
  | casFrameSend (port : Nat)
  /-- CAS_COMMIT_TIMEOUT (R195). No RESULT within COMMIT_TO triggers a resend, or status 3 after the last one. -/
  | casCommitTimeout (port cseq : Nat)
  /-- CAS_RESULT_SEND (R196). A RESULT frame is sent at ACK_BATCH entries or ACK_DELAY after the oldest. -/
  | casResultSend (port : Nat)
  /-- INTAKE_GRANT (R200). A free lane of a pool takes the next packet, entry or protect request by round robin. -/
  | intakeGrant (l : Nat) (err : Bool)
  /-- KEY_DERIVE_DONE (R212). A derivation engine completes a key after a cache miss and fills the cache. -/
  | keyDeriveDone
  /-- LANE_PASS_DONE (R215). A lane pass over a frame ends with the ordered checks applied, accepting or rejecting the frame. -/
  | lanePassDone (l : Nat) (err : Bool)
  /-- FW_RING_WRITE (R220). When the firmware ring has room, an entry is written and PROD advanced. -/
  | fwRingWrite
  /-- SLOT_READ (R205). OP 1 copies a slot entry into INK_SLOT_DATA. -/
  | slotRead (slot : Nat) (err : Bool)
  /-- SLOT_WRITE (R205). OP 2 writes the firmware-owned bytes of a slot entry. -/
  | slotWrite (slot : Nat) (err : Bool)
  /-- SLOT_WRITE_CTR (R205). OP 3 writes the entry with its counters, sets FRESH and clears the extended record head. -/
  | slotWriteCtr (slot : Nat) (err : Bool)
  /-- SLOT_ROLL (R205). OP 4 advances GEN and sets PREV_OK. -/
  | slotRoll (slot : Nat) (err : Bool)
  /-- SLOT_CLEAR (R205). OP 5 zeroes the entry and removes it from both lookup tables. -/
  | slotClear (slot : Nat) (err : Bool)
  /-- SLOT_OP_COMPLETE (R205). A slot operation completes after any wait for the slot's frame and sets DONE or ERR. -/
  | slotOpComplete
  /-- INTAKE_ENABLE (R225). EN written 1 checks the areas against DRAM and starts the table rebuild. -/
  | intakeEnable
  /-- INTAKE_DISABLE (R225). EN written 0 stops new grants, and IDLE is set when none remain. -/
  | intakeDisable
  /-- TABLE_REBUILD_DONE (R206). Both lookup tables have been rebuilt from MSM and intake may grant. -/
  | tableRebuildDone
  /-- KEY_CACHE_FLUSH (R213). FLUSH invalidates the whole derived-key cache. -/
  | keyCacheFlush
  /-- KEY_CACHE_FLUSH_DONE (R213). Cache storage has been cleared and BUSY clears. -/
  | keyCacheFlushDone
  /-- MENDER_BATCH (R227). A Mender unit takes a plaintext batch and bypasses it or validates, estimates and records it. -/
  | menderBatch (u : Nat) (ue : Bool)
  /-- MENDER_BATCH_DONE (R247). The unit finishes its batch and makes its records, state and shadow entries visible for commit. -/
  | menderBatchDone (u : Nat)
  /-- CLASS_SELECT (R232). A write of MND_CLASS_SEL loads a class's live record into the staging buffer. -/
  | classSelect (cls w : Nat)
  /-- CLASS_DATA_ACCESS (R232). An access to MND_CLASS_DATA reads or writes a staging word and advances WORD. -/
  | classDataAccess (wr : Option Nat)
  /-- CLASS_COMMIT (R232). COMMIT validates the staging buffer and waits for a gap between batches, or sets REFUSED. -/
  | classCommit
  /-- CLASS_INSTALL (R232). Between two batches the staged class replaces the live record and BUSY clears. -/
  | classInstall
  /-- FREEZE_DUE (R257). At T_L − PREP_MS the Darner publishes the launch data and sets FREEZE_DUE. -/
  | freezeDue
  /-- FREEZE_CAPTURE (R257). At T_C collection opens, the totaliser is latched and the next freeze is scheduled. -/
  | freezeCapture
  /-- FREEZE_CLOSE (R270). At T_C + COLLECT_S the freeze closes and each node is judged, balanced and reported. -/
  | freezeClose
  /-- DARNER_SNAPSHOT (R267). A snapshot record is classed as duplicate, future, in time or late and applied. -/
  | darnerSnapshot
  /-- DARNER_ENABLE (R257). EN written 1 starts freeze scheduling once TAI is valid. -/
  | darnerEnable
  /-- DARNER_DISABLE (R276). EN written 0 stops freeze scheduling. -/
  | darnerDisable
  /-- STORE_START (R309). EN written 1 starts the store at PHASE 1. -/
  | storeStart (absent : Nat)
  /-- STORE_RESTORE_DONE (R309). Anchor, replay, resolve and table handover end and the store reaches PHASE 6. -/
  | storeRestoreDone
  /-- STORE_STOP (R318). EN written 0 stops the store after a flush. -/
  | storeStop
  /-- RECORD_UNIT_PROGRAM (R289). A record unit at 170 records or UNIT_WAIT after its first is programmed and STO_REC_HEAD advances. -/
  | recordUnitProgram
  /-- NAND_PROGRAM_DONE (R290). A page program completes; with parity the stripe's units leave staging. -/
  | nandProgramDone (d b p : Nat) (fail : Bool)
  /-- NAND_READ_DONE (R296). A codeword read completes and is retried or rebuilt on a decode failure. -/
  | nandReadDone (loc corr : Nat) (bad retry rebuilt : Bool)
  /-- NAND_ERASE_DONE (R302). An erase completes; the last erase of a source journals DONE and frees it. -/
  | nandEraseDone (d : Nat) (fail : Bool)
  /-- GC_START (R300). Free superblocks below GC_START start relocation of the chosen source. -/
  | gcStart
  /-- RELOC_COPY_DONE (R302). The copy of a source's units ends and the target's last stripe is closed. -/
  | relocCopyDone
  /-- RELOC_VERIFY_DONE (R302). The target's readback verify ends and the INTENT entry is journalled. -/
  | relocVerifyDone (bad : Option Nat)
  /-- RELOC_INTENT_DONE (R302). INTENT has good program status, so the map moves and the source erases begin. -/
  | relocIntentDone
  /-- FOLD_START (R293). SLC use above FOLD_PCT or 2^20 idle ticks starts folding of the oldest SLC superblock. -/
  | foldStart (idle : Bool)
  /-- WEAR_LEVEL_MOVE (R299). An erase-count spread above WL_SPREAD moves the coldest superblock. -/
  | wearLevelMove
  /-- CHECKPOINT_START (R307). A checkpoint pass starts on time, journal size or FORCE. -/
  | checkpointStart
  /-- CHECKPOINT_DONE (R307). The pass writes its root, journals CKPT and sets CKPT_DONE. -/
  | checkpointDone
  /-- STORE_FLUSH_DONE (R311). The power-fail flush ends with SHUT and PHASE 8. -/
  | storeFlushDone
  /-- CHANNEL_EVACUATE (R314). EVAC begins evacuation of a channel, or is refused with REFUSE. -/
  | channelEvacuate (c : Nat)
  /-- EVACUATION_DONE (R314). Relocation ends, the channel is powered off and EVAC_DONE set. -/
  | evacuationDone
  /-- CHANNEL_REJOIN (R315). REJOIN powers a replacement channel and waits 10 ms. -/
  | channelRejoin (c : Nat)
  /-- REJOIN_DONE (R315). The new dies are identified and erased and CHAN state 1 is journalled. -/
  | rejoinDone (match_ : Bool) (bad : List (Nat × Nat))
  /-- RING_READ (R316). A READ descriptor reads fine units of a partition into DRAM. -/
  | ringRead (k : Nat) (err : Bool)
  /-- RING_WRITE (R317). A WRITE descriptor stages units and journals MAP entries. -/
  | ringWrite (k : Nat) (err : Bool)
  /-- RING_TRIM (R317). A TRIM descriptor trims units, refused on partition 0. -/
  | ringTrim (k : Nat)
  /-- RING_FLUSH (R317). A FLUSH descriptor completes once earlier writes are programmed. -/
  | ringFlush (k : Nat)
  /-- REC_TAIL_WRITE (R318). A forward write of STO_REC_TAIL trims record units. -/
  | recTailWrite (pos : Nat)
  /-- MODULATOR_FAULT (R320). A bitstream without transitions for 6.4 µs faults its channel. -/
  | modulatorFault (c : Nat)
  /-- MODULATOR_FAULT_CLEAR (R320). 4,000 good samples clear a channel fault. -/
  | modulatorFaultClear (c : Nat)
  /-- METROLOGY_SAMPLE (R322). Each 250 µs sample integrates energy into the accumulators. -/
  | metrologySample (v amps q : List Int) (n : Int)
  /-- METROLOGY_BLOCK_PUBLISH (R323). Every 800 samples the block's measurements are published and BLK_SEQ increments. -/
  | metrologyBlockPublish (freq : Nat)
  /-- SEAL_OPENED (R327). SEAL_N goes high; without a session it logs a tamper. -/
  | sealOpened
  /-- SEAL_CLOSED (R330). SEAL_N goes low and closes any open session. -/
  | sealClosed
  /-- SEAL_SPEND (R328). SPEND opens a seal session by spending an unseal count. -/
  | sealSpend
  /-- SEAL_END (R330). END closes the seal session. -/
  | sealEnd
  /-- CAL_COMMIT (R329). COMMIT writes the staging calibration set, logs it and installs it. -/
  | calCommit (fail : Bool)
  /-- SESSION_TIMEOUT (R330). SESSION_TO after opening closes the session. -/
  | sessionTimeout
  /-- CAL_DATA_ACCESS (R329). A TOT_CAL_DATA access reads or writes a staging or live word and advances WORD. -/
  | calDataAccess (wr : Option Nat)
  /-- TOT_ENABLE (R332). EN written 1 starts metrology if the live set is the committed one. -/
  | totEnable
  /-- PCAL_LOAD (R337). LOAD checks a passive calendar and writes it to the legal mirror. -/
  | pcalLoad (err : Bool)
  /-- PCAL_CANCEL (R337). CANCEL discards the passive calendar. -/
  | pcalCancel
  /-- TAI_MINUTE_BOUNDARY (R341). At each whole TAI minute the due totaliser steps are taken in order. -/
  | taiMinuteBoundary
  /-- BILLING_FORCE (R340). FORCE applies a forced billing boundary at the present minute. -/
  | billingForce
  /-- STATE_RECORD_PERIODIC (R334). Every 3,600 s a totaliser state record of KIND 1 is written. -/
  | stateRecordPeriodic
  /-- TOT_RESTORATION (R343). At the first valid sample after an outage, the cut sub-interval closes and missed boundaries apply. -/
  | totRestoration
  /-- BILL_SNAP (R338). SNAP copies the selected billing set into the read buffer. -/
  | billSnap
  /-- BILL_DATA_READ (R338). A TOT_BILL_DATA read returns a word and advances WORD. -/
  | billDataRead
  /-- TAI_SET (R355). SET applies the staged time, absolute or relative. -/
  | taiSet (rel : Bool)
  /-- LEAP_SECOND (R352). At LEAP_AT, CUR takes NEXT and LEAP is set. -/
  | leapSecond
  /-- CMP_FIRE (R356). A comparator fires, sets its event and output and advances in periodic mode. -/
  | cmpFire (k : Nat)
  /-- CMP_OUTPUT_END (R356). WIDTH ticks after firing, the event output falls. -/
  | cmpOutputEnd (b : Nat)
  /-- PPS_OUT_PULSE (R357). PPS_OUT rises at each whole TAI second. -/
  | ppsOutPulse
  /-- PPS_IN_EDGE (R362). A PPS_IN edge gives a servo sample or is discarded as bad. -/
  | ppsInEdge (sub : Nat)
  /-- PTP_OFFSET_WRITE (R362). A write of TU_OFS_IN gives a PTP servo sample. -/
  | ptpOffsetWrite (v : Nat)
  /-- PAIR_TIME_SAMPLE (R362). A pair-link time exchange gives a standby's servo sample. -/
  | pairTimeSample (v : Nat)
  /-- HOLDOVER_TIMEOUT (R365). HOLD_S without a sample enters holdover. -/
  | holdoverTimeout
  /-- RTC_RELOAD (R366). At each whole second the RTC is reloaded from valid TAI. -/
  | rtcReload
  /-- SCHED_READ (R350). A read of TU_SCHED latches the TAI registers. -/
  | schedRead
  /-- TXTS_POP (R361). A read of TU_TXTS_u_1 pops a transmit timestamp. -/
  | txtsPop (u : Nat)
  /-- AFE_ADJ_STORE (R359). WR stores a port's AFE delays. -/
  | afeAdjStore (port tx rx : Nat)
  /-- SERVO_SRC_CHANGE (R363). A change of SRC restarts the servo with first := 1. -/
  | servoSrcChange (src : Nat)
  /-- UPLINK_RX_FRAME (R371). An uplink frame is written into receive descriptors, or dropped at entry. -/
  | uplinkRxFrame (u : Nat) (b : Bytes) (vlan status flags : Nat)
  /-- UPLINK_TX_DESC (R371). A transmit descriptor is sent with its offloads. -/
  | uplinkTxDesc (u : Nat)
  /-- SESSION_OPEN (R377). OPEN starts a record-engine session. -/
  | sessionOpen (n : Nat)
  /-- SESSION_RESUME (R378). RESUME restarts a stopped session. -/
  | sessionResume (n : Nat)
  /-- SESSION_CLOSE (R378). CLOSE sets STATE 0 and ERR 7. -/
  | sessionClose (n : Nat)
  /-- SESSION_SYNC (R377). SYNC writes back all engine fields. -/
  | sessionSync (n : Nat)
  /-- SESSION_DOORBELL (R378). A doorbell tells the engine of new RX_WR or TX_RD. -/
  | sessionDoorbell (n which v : Nat)
  /-- TLS_RECORD_RECEIVE (R378). The engine decrypts a record and parses its messages, stopping the session on error. -/
  | tlsRecordReceive (n : Nat)
  /-- TLS_RECORD_TRANSMIT (R378). The engine closes and encrypts a transmit record. -/
  | tlsRecordTransmit (n : Nat)
  /-- RESULT_MESSAGE_SEND (R381). A RESULT message is sent at 64 entries or 1 ms. -/
  | resultMessageSend (n : Nat)
  /-- BATCH_CLOSE (R384). An export batch closes and partner state is saved. -/
  | batchClose (k : Nat)
  /-- BATCH_SEND (R385). A durable batch is sent within the window. -/
  | batchSend (k : Nat)
  /-- DAY_BOUNDARY (R388). At a TAI day boundary batches close with DAYCLOSE and manifests are signed. -/
  | dayBoundary
  /-- MANIFEST_SIGNED (R388). The hoop signs a manifest and MANIFEST_READY is raised. -/
  | manifestSigned (k : Nat)
  /-- HANDSHAKE_SIGN (R376). The hoop signs a CertificateVerify with the identity key. -/
  | handshakeSign (n : Nat) (content : Bytes)
  /-- ROLE_BIND (R376). The hoop checks the peer and writes its role into UPL_ROLE_j. -/
  | roleBind (n r : Nat) (good : Bool)
  /-- COSEM_REQUEST (R393). A COSEM request is checked against role rights and applied. -/
  | cosemRequest (n w carrier : Nat) (items : List (Nat × Nat × Nat × Nat))
  /-- SHUTTLE_GO (R396). GO starts an idle channel at its active pointer. -/
  | shuttleGo (c : Nat)
  /-- SHUTTLE_ABORT (R396). ABORT makes a channel idle. -/
  | shuttleAbort (c : Nat)
  /-- SHUTTLE_ARM (R396). ARM arms an idle channel on its trigger. -/
  | shuttleArm (c trig : Nat)
  /-- SHUTTLE_TRIGGER_START (R396). An armed channel's trigger event starts it and is consumed. -/
  | shuttleTriggerStart (c : Nat)
  /-- SHUTTLE_DISABLE (R396). EN written 0 aborts every channel. -/
  | shuttleDisable
  /-- END (R404). END sets its events and re-arms or idles the channel. -/
  | shuttleEnd (c : Nat)
  /-- MOVE (R400). MOVE copies LEN bytes between spaces. -/
  | move (c : Nat)
  /-- MOVEC (R402). MOVEC copies and checks data with CRC-32C or SHA-256. -/
  | movec (c : Nat)
  /-- LOOP (R403). LOOP counts and jumps back. -/
  | loop (c : Nat)
  /-- WAIT (R398). WAIT holds until its event is set. -/
  | wait (c : Nat)
  /-- WAIT_TIMEOUT (R404). A WAIT's TIMEOUT passes and gives ERR 4. -/
  | waitTimeout (c : Nat)
  /-- SIGNAL (R404). SIGNAL sets its event and optionally IRQ. -/
  | signal (c : Nat)
  /-- STAMP (R404). STAMP writes the schedule count. -/
  | stamp (c : Nat)
  /-- PROG_WRITE (R406). A PROG write sets the active or shadow pointer. -/
  | progWrite (c v : Nat)
  /-- SHUTTLE_BUS_ERROR (R409). A failed access stops the engine and logs the error. -/
  | shuttleBusError (kind space addr : Nat) (write : Bool)
  /-- SHUTTLE_RESUME (R410). RESUME re-executes stopped instructions. -/
  | shuttleResume
  /-- EVENT_SET (R398). SHU_EVT_CMD sets an event flag. -/
  | eventSet (e : Nat)
  /-- EVENT_CLEAR (R398). SHU_EVT_CMD clears an event flag. -/
  | eventClear (e : Nat)
  /-- INT_CLAIM (R413). A read of INT_CLAIM_t claims the best eligible source. -/
  | intClaim (t init : Nat)
  /-- INT_COMPLETE (R415). A write of INT_COMPLETE_t pops the stack top. -/
  | intComplete (t init v : Nat)
  /-- INT_FLUSH (R416). FLUSH empties a target's stack. -/
  | intFlush (t init : Nat)
  /-- HOLD_OFF_EXPIRE (R418). A group's hold-off timer reaches 0. -/
  | holdOffExpire (g : Nat)
  /-- CORE_WAKE (R419). A core in WFI wakes on a pending source. -/
  | coreWake (t : Nat) (wfi : Bool)
  /-- INT_SW_SET (R411). INT_SW sets a software source's latch. -/
  | intSwSet (n : Nat)
  /-- INT_SW_CLEAR (R411). INT_SW clears a software source's latch. -/
  | intSwClear (n : Nat)
  /-- NDL_INFO (R432). INFO returns a slot's attributes and uses left. -/
  | ndlInfo (slot : Nat)
  /-- NDL_GENERATE (R432). GENERATE creates a random key. -/
  | ndlGenerate (slot : Nat)
  /-- NDL_UNWRAP (R432). UNWRAP decrypts a blob into a slot. -/
  | ndlUnwrap (slot param : Nat)
  /-- NDL_DESTROY (R434). DESTROY overwrites and empties a slot. -/
  | ndlDestroy (slot : Nat) (bad : Bool)
  /-- NDL_SIGN (R432). SIGN signs a message with slot 8. -/
  | ndlSign (slot : Nat)
  /-- NDL_HMAC (R432). HMAC computes a tag. -/
  | ndlHmac (slot : Nat)
  /-- NDL_QUOTE (R439). QUOTE builds a signed or HMAC attestation quote. -/
  | ndlQuote (param : Nat)
  /-- NDL_PUBKEY (R432). PUBKEY returns slot 8's or 11's public key. -/
  | ndlPubkey (slot : Nat)
  /-- NDL_DECAP (R432). DECAP installs an ML-KEM shared secret. -/
  | ndlDecap (slot : Nat)
  /-- NDL_OP_COMPLETE (R432). A Needlecase operation completes with DONE or ERR. -/
  | ndlOpComplete (vaultFail bad : Bool)
  /-- VAULT_ERASE_DONE (R438). The older vault block has been erased and VAULT_BUSY clears. -/
  | vaultEraseDone
  /-- CNT_DOMAIN_IDENTITY (R444). A domain identity change destroys slots, erases the vault and rederives keys. -/
  | cntDomainIdentity
  /-- CNT_ROLLBACK_FLOOR (R443). A floor change programs STEPS entries. -/
  | cntRollbackFloor (kind steps : Nat)
  /-- CNT_PAIR_ROLE_LOCK (R442). A pair role lock is programmed. -/
  | cntPairRoleLock (role : Nat)
  /-- CNT_DEBUG_OPEN (R445). Debug open flushes keys and opens JTAG debug. -/
  | cntDebugOpen
  /-- CNT_CHANGE_DONE (R443). Programming ends, is read back and CNT_DONE set. -/
  | cntChangeDone (fail : Bool)
  /-- CHANGE_LOG_RECONCILE (R446). At PHASE 6 missing log records are appended with RECOVERED. -/
  | changeLogReconcile
  /-- UPD_VERIFY (R454). VERIFY checks a staging slot's set. -/
  | updVerify (stg : Nat) (err : Bool)
  /-- UPD_ACTIVATE_LIVE (R458). ACTIVATE live copies and activates a set kind by kind. -/
  | updActivateLive (stg : Nat)
  /-- UPD_ACTIVATE_NEXT_START (R458). ACTIVATE at next start copies a set and sets it to trial. -/
  | updActivateNextStart (stg : Nat)
  /-- UPD_STEP_DONE (R458). An update step completes and the next begins, or the activation fails. -/
  | updStepDone (err item : Nat) (bad : Bool)
  /-- UPD_COMMIT (R460). COMMIT makes the trial slot active. -/
  | updCommit (fail : Bool)
  /-- UPD_REVERT (R460). REVERT abandons a trial. -/
  | updRevert (bad : Bool)
  /-- UPD_RECOVERY_REQUEST (R457). OP 6 sets RCV_REQ for the next start. -/
  | updRecoveryRequest
  /-- TRIAL_TIMEOUT (R460). TRIAL_S without COMMIT reverts the trial. -/
  | trialTimeout (bad : Bool)
  /-- STITCH_OFFER (R462). A STITCH OFFER is received and staged. -/
  | stitchOffer (port : Nat) (b : Bytes)
  /-- STITCH_REQUEST (R462). A STITCH REQUEST is answered with blocks. -/
  | stitchRequest (port : Nat) (b : Bytes)
  /-- STITCH_BLOCK (R462). A STITCH BLOCK is kept if its CRC checks. -/
  | stitchBlock (port : Nat) (b : Bytes)
  /-- STITCH_DONE (R461). A STITCH DONE reports a verified set. -/
  | stitchDone
  /-- STITCH_ABORT (R461). A STITCH ABORT reports an error. -/
  | stitchAbort
  /-- UART_DATA_FRAME (R466). A recovery UART DATA frame is stored and answered ACK or NAK. -/
  | uartDataFrame (b : Bytes)
  /-- UART_END_FRAME (R466). A recovery UART END frame completes delivery. -/
  | uartEndFrame (b : Bytes) (bad : Bool)
  /-- UART_RX_TIMEOUT (R466). 100 ms without a byte resynchronises on 0xA5. -/
  | uartRxTimeout
  /-- RCV_GO (R467). UPD_RCV_CTL GO checks, copies and trials the recovery set. -/
  | rcvGo (init len : Nat) (bad : Bool)
  /-- SAMPLER_REPORT (R476). A report enters the Sampler FIFO stamped with OPSEC and PCC. -/
  | samplerReport (code sev path : Nat) (data : List Nat)
  /-- SAMPLER_FIFO_TAKE (R471). The Sampler takes a FIFO entry and records or absorbs it. -/
  | samplerFifoTake
  /-- SAMPLER_LOST_SYNTH (R476). At 128 or fewer entries a synthesized lost record is placed. -/
  | samplerLostSynth
  /-- MIRROR_UNIT_WRITE (R475). A full or changed mirror unit is written to NAND. -/
  | mirrorUnitWrite
  /-- SAMPLER_SW_RECORD (R479). SMP_SW_CMD GO writes a firmware record. -/
  | samplerSwRecord (init sev code : Nat)
  /-- SAMPLER_CLEAR (R474). CLEAR empties the on-chip log. -/
  | samplerClear
  /-- SAMPLER_RD_SEL (R474). A write of SMP_RD_SEL copies a slot to the read buffer. -/
  | samplerRdSel (slot w : Nat)
  /-- SAMPLER_RD_DATA (R474). A read of SMP_RD_DATA advances WORD. -/
  | samplerRdData
  /-- HOOP_WATCHDOG_EXPIRE (R480). The hoop watchdog expires and starts ladder step 2. -/
  | hoopWatchdogExpire
  /-- FIELD_WATCHDOG_EXPIRE (R480). The field watchdog expires and starts step 1 on CO. -/
  | fieldWatchdogExpire
  /-- HOOP_WDOG_KICK (R480). ACT 0 kicks the hoop watchdog. -/
  | hoopWdogKick (init key : Nat)
  /-- FIELD_WDOG_KICK (R480). ACT 1 kicks the field watchdog. -/
  | fieldWdogKick (init key : Nat)
  /-- LADDER_STEP_REQUEST (R480). ACT 2–4 from the hoop takes that ladder step. -/
  | ladderStepRequest (init key act : Nat)
  /-- REGION_RESET_DONE (R482). Step 1 restores state and resumes grants. -/
  | regionResetDone (fail : Bool)
  /-- POWER_CYCLE_TIMEOUT (R484). VCORE still present 2 s after the request resets as PONRST_N. -/
  | powerCycleTimeout (clk : Nat) (v : Option Nat)
  /-- CYCLES_RESET (R485). 3,600 s without a ladder step returns CYCLES to 0. -/
  | cyclesReset
  /-- PAIR_STATUS_SEND (R488). Every 2^10 ticks each device sends STATUS. -/
  | pairStatusSend
  /-- PAIR_MESSAGE_RECEIVE (R488). A pair-link message is received in MSEQ order and handled. -/
  | pairMessageReceive (b : Bytes)
  /-- MIRROR_TIMEOUT (R489). A missing CONFIRM after MIRROR_TO is a link loss. -/
  | mirrorTimeout
  /-- PAIR_YIELD (R490). The device yields, sends RELEASE and releases PAIR_HOLD_N. -/
  | pairYield
  /-- PAIR_SENSE_STABLE (R491). PAIR_SENSE_N high for 1 ms lets an eligible device drive PAIR_HOLD_N. -/
  | pairSenseStable
  /-- TAKEOVER_SAMPLE (R491). 1 ms after holding, PAIR_SENSE_N is sampled. -/
  | takeoverSample (low : Bool)
  /-- PAIR_STATUS_TIMEOUT (R493). 5 ms without STATUS holds commits or enters ALONE. -/
  | pairStatusTimeout
  /-- WITNESS_INSTALL (R492). A write of WIT_EXP installs a witness grant. -/
  | witnessInstall (exp : Nat)
  /-- WITNESS_WAIT_EXPIRE (R493). No grant within 1 s makes the device STALE. -/
  | witnessWaitExpire
  /-- WITNESS_EXPIRE (R493). WIT_EXP passes in ALONE and the device becomes STALE. -/
  | witnessExpire
  /-- BOTH_HOLDING (R493). Both holding for 2 ms makes role B release. -/
  | bothHolding
  /-- PAIR_START_TIMEOUT (R487). 10 s in START ends the wait for partner STATUS. -/
  | pairStartTimeout
  /-- RESYNC_START (R494). A STALE or new device enters SYNC and the active begins bulk transfer. -/
  | resyncStart
  /-- RESYNC_PHASE_DONE (R494). A resynchronisation phase ends and the next begins. -/
  | resyncPhaseDone
  /-- PONRST_RISE (R502). PONRST_N rises and the device starts in order. -/
  | ponrstRise (away clk : Nat) (v : Option Nat) (rcv : Bool)
  /-- PONRST_FALL (R504). PONRST_N low puts the balls in reset state. -/
  | ponrstFall
  /-- WARM_RESET (R506). A WARM_N low of 1 µs or more resets the device except kept state. -/
  | warmReset (v : Option Nat) (rcv : Bool)
  /-- PFAIL_FALL (R507). PFAIL_N falls and the hold-up actions start. -/
  | pfailFall (erasing : Nat)
  /-- PFAIL_RISE (R508). PFAIL_N rises again and the store and totaliser resume. -/
  | pfailRise
  /-- CLOCK_RESTORED (R41). A clock domain other than the time base gets its clock back, and its PRESENT bit in CHIP_CLK_STAT is set again. -/
  | clockRestored (d : Nat)
  /-- UPLINK_LINK_CHANGE (R370). An uplink, the PCIe link or a pair-link lane comes up or goes down, changing UPL_STAT and raising LINK_CHANGE. -/
  | uplinkLinkChange (link : Nat) (up : Bool) (width gen : Nat)
  /-- VBAT_DIP (R366). VBAT falls out of range and returns, which clears RTC_OK and loses the RTC's time. -/
  | vbatDip
  /-- PAIR_EN_WRITE (R487). A write of EN in SMP_PAIR_CTL moves the pair state from OFF to START, or back to OFF. -/
  | pairEnWrite (en : Bool)
  /-- BOOT_PFAIL_HOLD_END (R508). After a start with PFAIL_N low, PFAIL_N has been high for 100 ms and the boot ROM goes on to choose its slot. -/
  | bootPfailHoldEnd
  /-- INTERCONNECT_ERROR (R478). The chip interconnect reports an error, which sets the chip bit of CHIP_ERR_STAT, writes record 0x0005 of severity 7 and starts ladder step 2. -/
  | interconnectError (addr init : Nat)
  /-- PPS_OUT_FALL (R357). PPS_WIDTH ms after a PPS_OUT pulse rises, PPS_OUT falls. -/
  | ppsOutFall
  /-- AIR_TX_END (R140). An air frame's last sample is sent, TX_EN falls after 20 µs, the Enh-Ack wait or the outcome of a broadcast follows, and an align burst may be sent. -/
  | airTxEnd (port : Nat)
  /-- MSIX_UNMASK (R417). The host clears the MSI-X function or vector mask, and the vector sends its pending message if it still has an eligible source. -/
  | msixUnmask (v : Nat)
deriving DecidableEq, Repr

end Sys2Proof
end

