-- ==== Sys2Proof/Decode.lean ====
section
/-! DEFINITION. Sys2Proof/Decode.lean: commands that a word spells. The table gives no row any bits, so no word spells one. -/

namespace Sys2Proof

/-- The command that the table's bits spell: none, since no row of the table has bits. -/
def decodeTableWord (_nbits _w : Nat) : Option Instr := none

end Sys2Proof
end

