-- ==== Sys2Proof/Machine/Base.lean ====
section
/-! DEFINITION. Sys2Proof/Machine/Base.lean: tables with a default, bit ranges of words, byte strings, checks.
Everything here is arithmetic on plain data; nothing knows the State. -/

namespace Sys2Proof.Machine

/-! ## Tables with a default (`Tbl`): register file, memories, per-index state. -/

/-- What a table holds at k: the first entry with key k, else the default of k. -/
def tget {α : Type} (d : Nat → α) (t : Tbl α) (k : Nat) : α :=
  match t with
  | [] => d k
  | (j, v) :: r => if j = k then v else tget d r k

/-- Put v at k, keeping keys in rising order. -/
def tput {α : Type} (t : Tbl α) (k : Nat) (v : α) : Tbl α :=
  match t with
  | [] => [(k, v)]
  | (j, w) :: r => if k < j then (k, v) :: (j, w) :: r else if k = j then (k, v) :: r else (j, w) :: tput r k v

/-- Take every entry with key k out. -/
def tdel {α : Type} (t : Tbl α) (k : Nat) : Tbl α := t.filter (fun e => decide (e.1 ≠ k))

/-- Write v at k in canonical form: writing the default of k takes the entry out. -/
def tset {α : Type} [DecidableEq α] (d : Nat → α) (t : Tbl α) (k : Nat) (v : α) : Tbl α :=
  if v = d k then tdel t k else tput t k v

/-- Change the value at k by f. -/
def tmod {α : Type} [DecidableEq α] (d : Nat → α) (t : Tbl α) (k : Nat) (f : α → α) : Tbl α :=
  tset d t k (f (tget d t k))

/-- The canonical form: keys strictly rising, and no entry equal to the default of its key. -/
abbrev Canon {α : Type} (d : Nat → α) (t : Tbl α) : Prop :=
  (t.map (·.1)).Pairwise (· < ·) ∧ ∀ e ∈ t, e.2 ≠ d e.1

/-! ## Bit ranges of a word. -/

/-- Width of a bit range. -/
abbrev bwidth (f : BitRange) : Nat := f.hi + 1 - f.lo

/-- The number that field f of word w holds. -/
def fget (f : BitRange) (w : Word) : Nat := w.toNat / 2 ^ f.lo % 2 ^ bwidth f

/-- Word w with v (modulo the field's width) in field f. -/
def fput (f : BitRange) (w : Word) (v : Nat) : Word :=
  let m : Nat := (2 ^ bwidth f - 1) * 2 ^ f.lo
  (w &&& ~~~ (BitVec.ofNat 32 m)) ||| BitVec.ofNat 32 (v % 2 ^ bwidth f * 2 ^ f.lo)

/-- Bit i of a word. -/
def bit (w : Word) (i : Nat) : Bool := w.getLsbD i

/-- Word w with bit i set to b. -/
def setBit (w : Word) (i : Nat) (b : Bool) : Word := fput ⟨i, i⟩ w b.toNat

/-- v as a 32-bit word. -/
abbrev word (v : Nat) : Word := BitVec.ofNat 32 v

/-! ## Numbers and byte strings (R5: little-endian unless a chapter says otherwise). -/

/-- The low n bytes of v, lowest first. -/
def bytesLE (n v : Nat) : Bytes := (List.range n).map (fun i => v / 256 ^ i % 256)

/-- The low n bytes of v, highest first. -/
def bytesBE (n v : Nat) : Bytes := (bytesLE n v).reverse

/-- The number that bytes spell, lowest first. -/
def leNat (b : Bytes) : Nat := b.foldr (fun x a => x % 256 + 256 * a) 0

/-- The number that bytes spell, highest first. -/
def beNat (b : Bytes) : Nat := b.foldl (fun a x => 256 * a + x % 256) 0

/-- len bytes from offset off. -/
def slice (b : Bytes) (off len : Nat) : Bytes := (b.drop off).take len

/-- Byte at offset o, 0 past the end. -/
def u8 (b : Bytes) (o : Nat) : Nat := b.getD o 0 % 256

/-- 16-bit little-endian field at offset o. -/
def u16 (b : Bytes) (o : Nat) : Nat := u8 b o + 256 * u8 b (o + 1)

/-- 24-bit little-endian field at offset o. -/
def u24 (b : Bytes) (o : Nat) : Nat := u16 b o + 65536 * u8 b (o + 2)

/-- 32-bit little-endian field at offset o. -/
def u32 (b : Bytes) (o : Nat) : Nat := u16 b o + 65536 * u16 b (o + 2)

/-- n-byte little-endian field at offset o. -/
def un (b : Bytes) (o n : Nat) : Nat := (List.range n).foldr (fun i a => u8 b (o + i) + 256 * a) 0

/-- 16-bit big-endian field at offset o. -/
def u16be (b : Bytes) (o : Nat) : Nat := 256 * u8 b o + u8 b (o + 1)

/-- n-byte big-endian field at offset o. -/
def unbe (b : Bytes) (o n : Nat) : Nat := (List.range n).foldl (fun a i => 256 * a + u8 b (o + i)) 0

/-- b with bytes c laid over it from offset o; b keeps its length. -/
def overlay (b : Bytes) (o : Nat) (c : Bytes) : Bytes :=
  b.take o ++ (c.take (b.length - o)) ++ b.drop (o + c.length)

/-- b cut or padded with zeros to n bytes. -/
def padTo (n : Nat) (b : Bytes) : Bytes := b.take n ++ List.replicate (n - b.length) 0

/-- v as a two's complement number of w bits. -/
def signed (w v : Nat) : Int :=
  if v % 2 ^ w < 2 ^ (w - 1) then (v % 2 ^ w : Nat) else (v % 2 ^ w : Nat) - (2 ^ w : Nat)

/-- The w-bit two's complement code of i. -/
def unsigned (w : Nat) (i : Int) : Nat := (i % (2 ^ w : Nat)).toNat

/-- i clamped to lo … hi. -/
def clampI (lo hi i : Int) : Int := max lo (min hi i)

/-- Division rounded to nearest, halves up. -/
def divRound (a b : Nat) : Nat := (2 * a + b) / (2 * b)

/-- The 32-bit counter v plus n, saturating (R522 and the counters' rules). -/
def sat32 (v n : Nat) : Nat := min (v + n) 0xFFFFFFFF

/-- R8: a comparison "at time T" fires when now − T, modulo 2^32 and signed, is 0 or greater. -/
def fired (now t : Nat) : Bool := decide ((now + 2 ^ 32 - t % 2 ^ 32) % 2 ^ 32 < 2 ^ 31)

/-- List l with f applied at index i. -/
def modAt {α : Type} (l : List α) (i : Nat) (f : α → α) : List α :=
  match l, i with
  | [], _ => []
  | a :: r, 0 => f a :: r
  | a :: r, n + 1 => a :: modAt r n f

/-- The first element of l that p holds of, with its index counted from i. -/
def findIdxFrom {α : Type} (p : α → Bool) (l : List α) (i : Nat) : Option (Nat × α) :=
  match l with
  | [] => none
  | a :: r => if p a then some (i, a) else findIdxFrom p r (i + 1)

/-- 1 for true, 0 for false. -/
abbrev b2n (b : Bool) : Nat := b.toNat

/-! ## Cyclic checks. -/

/-- One bit step of a CRC shifted towards its high bit. -/
def crcStepHi (w poly c : Nat) : Nat :=
  if c / 2 ^ (w - 1) % 2 = 1 then (c * 2 % 2 ^ w) ^^^ poly else c * 2 % 2 ^ w

/-- One byte of a CRC shifted towards its high bit. -/
def crcByteHi (w poly c x : Nat) : Nat :=
  (List.range 8).foldl (fun a _ => crcStepHi w poly a) (c ^^^ (x % 256 * 2 ^ (w - 8)))

/-- A CRC of w bits, high bit first, with polynomial poly and start value init. -/
def crcHi (w poly init : Nat) (b : Bytes) : Nat := b.foldl (crcByteHi w poly) init

/-- One bit step of a CRC shifted towards its low bit; poly is the reflected polynomial. -/
def crcStepLo (poly c : Nat) : Nat := if c % 2 = 1 then (c / 2) ^^^ poly else c / 2

/-- One byte of a reflected CRC. -/
def crcByteLo (poly c x : Nat) : Nat :=
  (List.range 8).foldl (fun a _ => crcStepLo poly a) (c ^^^ (x % 256))

/-- A reflected CRC with reflected polynomial poly, start value init and final exclusive-or fin. -/
def crcLo (poly init fin : Nat) (b : Bytes) : Nat := (b.foldl (crcByteLo poly) init) ^^^ fin

/-- CRC-32C (Castagnoli), reflected, as the spec's 32-bit checks use it. -/
def crc32c (b : Bytes) : Nat := crcLo 0x82F63B78 0xFFFFFFFF 0xFFFFFFFF b

/-- CRC-16 with polynomial 0x1021 and start value 0xFFFF, high bit first. -/
def crc16 (b : Bytes) : Nat := crcHi 16 0x1021 0xFFFF b

/-- CRC-8 with polynomial 0x07 and start value 0xFF, high bit first. -/
def crc8 (b : Bytes) : Nat := crcHi 8 0x07 0xFF b

end Sys2Proof.Machine
end

