-- ==== Sys2Proof/Machine/Code8b.lean ====
section
/-! DEFINITION. Sys2Proof/Machine/Code8b.lean: the 8b/10b code of IEEE 802.3 Clause 36 (R188) and the sequences of a cascade link
(R189). A character is a number: the byte, and 256 more for a special character K. Its code group is 10 bits, first bit highest. The
spec names the standard's tables without giving them (PRESUMED, log entry 184). -/

namespace Sys2Proof.Machine

/-- K28.5, D16.2 and the other characters of R189. -/
abbrev kIdle : List Nat := [0x1BC, 0x050]
abbrev kSof : Nat := 0x1FB
abbrev kEof : Nat := 0x1FD
abbrev kAbort : Nat := 0x1FE
abbrev kSkip : Nat := 0x11C
abbrev kCredit : Nat := 0x13C

/-- Ones in the low 6 bits of v. -/
def ones6 (v : Nat) : Nat := v % 2 + v / 2 % 2 + v / 4 % 2 + v / 8 % 2 + v / 16 % 2 + v / 32 % 2

/-- 5b/6b sub-blocks of D.0 to D.31 at negative running disparity. -/
def sub6 : List Nat := [
  0b100111, 0b011101, 0b101101, 0b110001, 0b110101, 0b101001, 0b011001, 0b111000,
  0b111001, 0b100101, 0b010101, 0b110100, 0b001101, 0b101100, 0b011100, 0b010111,
  0b011011, 0b100011, 0b010011, 0b110010, 0b001011, 0b101010, 0b011010, 0b111010,
  0b110011, 0b100110, 0b010110, 0b110110, 0b001110, 0b101110, 0b011110, 0b101011]

/-- 3b/4b sub-blocks of D.x.0 to D.x.7 and of K.x.0 to K.x.7 at negative running disparity. -/
def sub4D : List Nat := [0b1011, 0b1001, 0b0101, 0b1100, 0b1101, 0b1010, 0b0110, 0b1110]
def sub4K : List Nat := [0b1011, 0b0110, 0b1010, 0b1100, 0b1101, 0b0101, 0b1001, 0b0111]

/-- The first sub-block of a character and the running disparity after it; `pos` is the one before. -/
def code6 (pos : Bool) (c : Nat) : Nat × Bool :=
  let v := if c / 256 = 1 ∧ c % 32 = 28 then 0b001111 else sub6.getD (c % 32) 0
  (if pos ∧ (ones6 v ≠ 3 ∨ v = 0b111000) then 63 - v else v, if ones6 v = 3 then pos else !pos)

/-- The second sub-block of a character, and the disparity after it. -/
def code4 (pos : Bool) (c : Nat) : Nat × Bool :=
  let x := c % 32
  let y := c / 32 % 8
  let alt := y = 7 ∧ (if pos then x = 11 ∨ x = 13 ∨ x = 14 else x = 17 ∨ x = 18 ∨ x = 20)
  let v := if c / 256 = 1 then sub4K.getD y 0 else if alt then 0b0111 else sub4D.getD y 0
  (if pos ∧ (c / 256 = 1 ∨ ones6 v ≠ 2 ∨ y = 3) then 15 - v else v, if ones6 v = 2 then pos else !pos)

/-- Code group of a character, and the running disparity after it. -/
def codeOf (pos : Bool) (c : Nat) : Nat × Bool :=
  let a := code6 pos c
  let b := code4 a.2 c
  (16 * a.1 + b.1, b.2)

/-- The special characters that the code has. -/
abbrev specials : List Nat := [0x11C, 0x13C, 0x15C, 0x17C, 0x19C, 0x1BC, 0x1DC, 0x1FC, 0x1F7, 0x1FB, 0x1FD, 0x1FE]

/-- The character of a code group at a running disparity; none is an invalid code or a disparity error. -/
def charOf (pos : Bool) (g : Nat) : Option Nat := (specials ++ List.range 256).find? (fun c => decide ((codeOf pos c).1 = g))

/-- Running disparity after a code group that no character has: as its own bits lean. -/
def leans (pos : Bool) (g : Nat) : Bool :=
  let n := ones6 g + ones6 (g / 64)
  if n = 5 then pos else decide (5 < n)

/-- Characters of code groups, in order. -/
def charsOf (pos : Bool) (l : List Nat) : List (Option Nat) :=
  match l with
  | [] => []
  | g :: r => match charOf pos g with
    | some c => some c :: charsOf (codeOf pos c).2 r
    | none => none :: charsOf (leans pos g) r

/-- Code groups of characters sent at a disparity, `n` characters after the last SKIP: a SKIP goes in before it would be the 1,024th
since. Answers also the disparity and the count after them. -/
def codesOf (pos : Bool) (n : Nat) (l : List Nat) : List Nat × Bool × Nat :=
  match l with
  | [] => ([], pos, n)
  | c :: r =>
    let k := decide (1023 ≤ n)
    let a := codeOf pos kSkip
    let b := codeOf (if k then a.2 else pos) c
    let z := codesOf b.2 (if k then 1 else n + 1) r
    ((if k then [a.1] else []) ++ b.1 :: z.1, z.2)

/-- What a receiver makes of a frame's characters: its bytes, the CREDIT sequences within it, its code violations, and whether it ended
in EOF (R189, R190, R194). -/
structure CasIn where
  bytes : Bytes := []
  credits : List (Nat × Nat × Nat) := []
  viol : Nat := 0
  ended : Bool := false
deriving DecidableEq, Repr

/-- Read a frame's characters, SKIP taken out, up to EOF or to a character that ends it otherwise. -/
def casParse (l : List (Option Nat)) : CasIn :=
  match l with
  | [] => {}
  | none :: r => let x := casParse r; { x with viol := x.viol + 1 }
  | some 0x13C :: some a :: some b :: some d :: r => let x := casParse r; { x with credits := (a, b, d) :: x.credits }
  | some c :: r =>
    if c < 256 then let x := casParse r; { x with bytes := c :: x.bytes }
    else if c = kSof then casParse r
    else { ended := decide (c = kEof) }

/-- Read a frame from its code groups, SOF first; the form of SOF tells the running disparity. -/
def casRead (l : List Nat) : CasIn :=
  casParse ((charsOf (decide (l.head? = some (codeOf true kSof).1)) l).filter (fun c => decide (c ≠ some kSkip)))

/-- Characters of a frame on the link: IDLE, SOF, its bytes with the CRC, EOF. -/
def casChars (f : Bytes) : List Nat := kIdle ++ [kSof] ++ f ++ bytesLE 4 (crc32c f) ++ [kEof]

end Sys2Proof.Machine
end

