-- ==== Sys2Proof/Config.lean ====
section
/-! DEFINITION. Sys2Proof/Config.lean: what an implementation fixes, and the free values. -/

namespace Sys2Proof.Config

/-- Free value: the n-th value that the spec leaves open or to chance (log entry 3). The machine counts its draws in
`State.draws`; nothing can be proved of a draw but what its use imposes. -/
opaque freeValue : Nat → Nat

/-- Free value: the 12-bit sample and the flag (bit 12) that a receiver takes from the i-th bad word of a sample slot, at its
d-th draw (R101, log entry 167). -/
opaque badWord : Nat → Nat → Nat

/-- Check bits of the SEC-DED code over bits [34:0] of a bobbin word (R173); the spec does not give the code (log entry 183). -/
opaque eccOf : Nat → Nat

/-- The 240 check bytes of the BCH code over the data and metadata of a codeword (R282); the spec gives neither its field polynomial
nor its bit order (log entry 189). -/
opaque bchOf : Bytes → Bytes

/-- SLH-DSA-SHA2 signature of a message under a signing seed (FIPS 205); uninterpreted, log entry 7. -/
opaque slhSign : Bytes → Bytes → Bytes

/-- SLH-DSA-SHA2 public key of a signing seed (FIPS 205); uninterpreted, log entry 7. -/
opaque slhPublic : Bytes → Bytes

/-- SLH-DSA-SHA2-128s verification: public key, message, signature (FIPS 205); uninterpreted, log entry 7. -/
opaque slhVerify : Bytes → Bytes → Bytes → Bool

/-- ML-KEM-768 decapsulation: decapsulation key seed and ciphertext to shared secret (FIPS 203); uninterpreted, log entry 7. -/
opaque kemDecap : Bytes → Bytes → Bytes

/-- ML-KEM-768 encapsulation key of a seed (FIPS 203); uninterpreted, log entry 7. -/
opaque kemPublic : Bytes → Bytes

/-- DRAM address at which the field image lies: somewhere in the field firmware area of R33, which the spec does not place
(log entry 111). -/
opaque fieldBase : Nat

end Sys2Proof.Config
end

