-- ==== Sys2Proof/Machine/Crypto.lean ====
section
/-! DEFINITION. Sys2Proof/Machine/Crypto.lean: the published algorithms the spec names, on byte strings.
AES-128 (FIPS 197), AES-CMAC (RFC 4493), AES-GCM (SP 800-38D), SHA-256 (FIPS 180-4), HMAC (FIPS 198-1).
The spec names these standards and does not print them: their steps are PRESUMED from the standards themselves, log entry 7. -/

namespace Sys2Proof.Machine

/-! ## AES-128. -/

/-- Doubling in the AES field. -/
def aesX (a : Nat) : Nat := if a < 128 then 2 * a else (2 * a) % 256 ^^^ 0x1B

/-- Product in the AES field. -/
def aesMul (a b : Nat) : Nat :=
  ((List.range 8).foldl
    (fun (s : Nat × Nat) i => (if b / 2 ^ i % 2 = 1 then s.1 ^^^ s.2 else s.1, aesX s.2)) (0, a)).1

/-- Inverse in the AES field: a to the power 254 (0 for 0). -/
def aesInv (a : Nat) : Nat :=
  let a2 := aesMul a a
  let a4 := aesMul a2 a2
  let a8 := aesMul a4 a4
  let a16 := aesMul a8 a8
  let a32 := aesMul a16 a16
  let a64 := aesMul a32 a32
  let a128 := aesMul a64 a64
  aesMul a128 (aesMul a64 (aesMul a32 (aesMul a16 (aesMul a8 (aesMul a4 a2)))))

/-- Rotation of a byte to the left. -/
def rotl8 (x n : Nat) : Nat := (x * 2 ^ n % 256) ||| (x / 2 ^ (8 - n))

/-- The AES S-box. -/
def aesSub (a : Nat) : Nat :=
  let b := aesInv (a % 256)
  b ^^^ rotl8 b 1 ^^^ rotl8 b 2 ^^^ rotl8 b 3 ^^^ rotl8 b 4 ^^^ 0x63

/-- Exclusive-or of two byte strings, as long as the shorter. -/
def xorBytes (a b : Bytes) : Bytes := List.zipWith (fun x y => (x ^^^ y)) a b

/-- One step of the key schedule: the next round key of a 16-byte round key. -/
def aesNextKey (rcon : Nat) (k : Bytes) : Bytes :=
  let t := [aesSub (u8 k 13) ^^^ rcon, aesSub (u8 k 14), aesSub (u8 k 15), aesSub (u8 k 12)]
  let w0 := xorBytes (slice k 0 4) t
  let w1 := xorBytes (slice k 4 4) w0
  let w2 := xorBytes (slice k 8 4) w1
  let w3 := xorBytes (slice k 12 4) w2
  w0 ++ w1 ++ w2 ++ w3

/-- ShiftRows on a 16-byte state in column order. -/
def aesShiftRows (s : Bytes) : Bytes := (List.range 16).map (fun i => u8 s ((i + 4 * (i % 4)) % 16))

/-- MixColumns on one column. -/
def aesMixCol (c : Bytes) : Bytes :=
  let a := u8 c 0
  let b := u8 c 1
  let d := u8 c 2
  let e := u8 c 3
  [aesX a ^^^ (aesX b ^^^ b) ^^^ d ^^^ e, a ^^^ aesX b ^^^ (aesX d ^^^ d) ^^^ e,
   a ^^^ b ^^^ aesX d ^^^ (aesX e ^^^ e), (aesX a ^^^ a) ^^^ b ^^^ d ^^^ aesX e]

/-- MixColumns on a state. -/
def aesMix (s : Bytes) : Bytes :=
  aesMixCol (slice s 0 4) ++ aesMixCol (slice s 4 4) ++ aesMixCol (slice s 8 4) ++ aesMixCol (slice s 12 4)

/-- AES-128 encryption of one 16-byte block. -/
def aes128 (key block : Bytes) : Bytes :=
  let r := [0x01, 0x02, 0x04, 0x08, 0x10, 0x20, 0x40, 0x80, 0x1B].foldl
    (fun (s : Bytes × Bytes) rcon =>
      let k := aesNextKey rcon s.2
      (xorBytes (aesMix (aesShiftRows (s.1.map aesSub))) k, k))
    (xorBytes (padTo 16 block) (padTo 16 key), padTo 16 key)
  xorBytes (aesShiftRows (r.1.map aesSub)) (aesNextKey 0x36 r.2)

/-- One word of the AES-256 key schedule; words newest first. -/
def aesNextWord (ws : List Bytes) : List Bytes :=
  let n := ws.length
  let t := ws.getD 0 []
  let u := if n % 8 = 0 then
      xorBytes [aesSub (u8 t 1), aesSub (u8 t 2), aesSub (u8 t 3), aesSub (u8 t 0)] [2 ^ (n / 8 - 1), 0, 0, 0]
    else if n % 8 = 4 then t.map aesSub
    else t
  xorBytes (ws.getD 7 []) u :: ws

/-- The 15 round keys of AES-256. -/
def aesKeys256 (key : Bytes) : List Bytes :=
  let k := padTo 32 key
  let w0 := (List.range 8).foldl (fun a i => slice k (4 * i) 4 :: a) []
  let ws := ((List.range 52).foldl (fun a _ => aesNextWord a) w0).reverse
  (List.range 15).map (fun i => (slice2 ws (4 * i)).flatten)
where
  /-- Four words from index i. -/
  slice2 (l : List Bytes) (i : Nat) : List Bytes := (l.drop i).take 4

/-- AES-256 encryption of one 16-byte block. -/
def aes256 (key block : Bytes) : Bytes :=
  let ks := aesKeys256 key
  let x := ((ks.drop 1).take 13).foldl (fun s k => xorBytes (aesMix (aesShiftRows (s.map aesSub))) k)
    (xorBytes (padTo 16 block) (ks.getD 0 []))
  xorBytes (aesShiftRows (x.map aesSub)) (ks.getD 14 [])

/-- AES encryption of one block under a key of 32 bytes (AES-256), else of 16 bytes (AES-128). -/
def aesBlock (key block : Bytes) : Bytes := if key.length = 32 then aes256 key block else aes128 key block

/-- b in pieces of n bytes, the last perhaps shorter; fuel bounds the number of pieces. -/
def chunksOf (n : Nat) (b : Bytes) (fuel : Nat) : List Bytes :=
  match fuel with
  | 0 => []
  | k + 1 => if b.isEmpty then [] else b.take n :: chunksOf n (b.drop n) k

/-! ## AES-CMAC (RFC 4493). -/

/-- Doubling of a 16-byte string in the CMAC field. -/
def cmacDbl (b : Bytes) : Bytes :=
  let v := beNat b
  bytesBE 16 (if v < 2 ^ 127 then 2 * v else (2 * v) % 2 ^ 128 ^^^ 0x87)

/-- AES-CMAC of a message. -/
def cmac (key msg : Bytes) : Bytes :=
  let k1 := cmacDbl (aesBlock key (List.replicate 16 0))
  let k2 := cmacDbl k1
  let full := !msg.isEmpty && decide (msg.length % 16 = 0)
  let nb := if full then msg.length / 16 - 1 else msg.length / 16
  let lastB := msg.drop (16 * nb)
  let last := if full then xorBytes lastB k1 else xorBytes (padTo 16 (lastB ++ [0x80])) k2
  let x := (chunksOf 16 (msg.take (16 * nb)) (msg.length + 1)).foldl (fun c m => aesBlock key (xorBytes c m))
    (List.replicate 16 0)
  aesBlock key (xorBytes x last)

/-! ## AES-GCM (SP 800-38D) with a 12-byte initialization vector. -/

/-- Product in the GCM field, on 128-bit numbers with bit 0 of the standard as the high bit. -/
def gcmMul (x y : Nat) : Nat :=
  ((List.range 128).foldl
    (fun (s : Nat × Nat) i =>
      (if x / 2 ^ (127 - i) % 2 = 1 then s.1 ^^^ s.2 else s.1,
       if s.2 % 2 = 1 then s.2 / 2 ^^^ 0xE1000000000000000000000000000000 else s.2 / 2)) (0, y)).1

/-- GHASH of byte strings, each padded to whole blocks. -/
def ghash (h : Nat) (aad ct : Bytes) : Nat :=
  let f := fun (a : Nat) (m : Bytes) => gcmMul (a ^^^ beNat (padTo 16 m)) h
  let a := (chunksOf 16 aad (aad.length + 1)).foldl f 0
  let c := (chunksOf 16 ct (ct.length + 1)).foldl f a
  gcmMul (c ^^^ (aad.length * 8 * 2 ^ 64 + ct.length * 8)) h

/-- The key stream of GCM from counter block 2 on, applied to a string. -/
def gcmCtr (key iv data : Bytes) : Bytes :=
  ((chunksOf 16 data (data.length + 1)).foldl
    (fun (s : Bytes × Nat) m => (s.1 ++ xorBytes m (aesBlock key (padTo 12 iv ++ bytesBE 4 s.2)), s.2 + 1)) ([], 2)).1

/-- The 16-byte GCM tag of associated data and ciphertext. -/
def gcmTag (key iv aad ct : Bytes) : Bytes :=
  let h := beNat (aesBlock key (List.replicate 16 0))
  xorBytes (bytesBE 16 (ghash h aad ct)) (aesBlock key (padTo 12 iv ++ bytesBE 4 1))

/-- GCM encryption: ciphertext and tag cut to n bytes. -/
def gcmSeal (n : Nat) (key iv aad pt : Bytes) : Bytes × Bytes :=
  let ct := gcmCtr key iv pt
  (ct, (gcmTag key iv aad ct).take n)

/-- GCM decryption: the plaintext when the n-byte tag checks. -/
def gcmOpen (n : Nat) (key iv aad ct tag : Bytes) : Option Bytes :=
  if (gcmTag key iv aad ct).take n = tag then some (gcmCtr key iv ct) else none

/-! ## SHA-256 and HMAC-SHA-256. -/

/-- The eight 32-bit words of a 256-bit number, highest first. -/
def words8 (x : Nat) : List Nat := [224, 192, 160, 128, 96, 64, 32, 0].map (fun i => x / 2 ^ i % 2 ^ 32)

/-- Round constants, eight to a number. -/
def shaK : List Nat := [
  0x428a2f9871374491b5c0fbcfe9b5dba53956c25b59f111f1923f82a4ab1c5ed5,
  0xd807aa9812835b01243185be550c7dc372be5d7480deb1fe9bdc06a7c19bf174,
  0xe49b69c1efbe47860fc19dc6240ca1cc2de92c6f4a7484aa5cb0a9dc76f988da,
  0x983e5152a831c66db00327c8bf597fc7c6e00bf3d5a7914706ca635114292967,
  0x27b70a852e1b21384d2c6dfc53380d13650a7354766a0abb81c2c92e92722c85,
  0xa2bfe8a1a81a664bc24b8b70c76c51a3d192e819d6990624f40e3585106aa070,
  0x19a4c1161e376c082748774c34b0bcb5391c0cb34ed8aa4a5b9cca4f682e6ff3,
  0x748f82ee78a5636f84c878148cc7020890befffaa4506cebbef9a3f7c67178f2].flatMap words8

/-- The hash value that a message starts from. -/
abbrev shaInit : List Nat := words8 0x6a09e667bb67ae853c6ef372a54ff53a510e527f9b05688c1f83d9ab5be0cd19

/-- Exclusive-or of a 32-bit number turned to the right by each of some counts. -/
def turns (x : Nat) (l : List Nat) : Nat := l.foldl (fun a n => a ^^^ (x / 2 ^ n + x % 2 ^ n * 2 ^ (32 - n))) 0

/-- The last 16 words of the message schedule move on by one. -/
def shaNext (w : List Nat) : List Nat :=
  let a := w.getD 1 0
  let b := w.getD 14 0
  w.drop 1 ++ [(w.getD 0 0 + (turns a [7, 18] ^^^ a / 8) + w.getD 9 0 + (turns b [17, 19] ^^^ b / 1024)) % 2 ^ 32]

/-- A block under way: the eight working words, and the 16 schedule words from the present round on. -/
structure ShaRun where
  v : List Nat
  w : List Nat

/-- One round with constant k. Where a bit of e is 1 the bit of f counts, else that of g; of a, b and c the majority counts. -/
def shaRound (r : ShaRun) (k : Nat) : ShaRun :=
  let x := fun i => r.v.getD i 0
  let pick := x 6 ^^^ (x 4 &&& (x 5 ^^^ x 6))
  let most := (x 0 &&& (x 1 ||| x 2)) ||| (x 1 &&& x 2)
  let p := x 7 + turns (x 4) [6, 11, 25] + pick + k + r.w.getD 0 0
  { v := (p + turns (x 0) [2, 13, 22] + most) % 2 ^ 32 :: r.v.take 3 ++ (x 3 + p) % 2 ^ 32 :: (r.v.drop 4).take 3, w := shaNext r.w }

/-- The hash value after a block of 64 bytes. -/
def shaBlock (st : List Nat) (m : Bytes) : List Nat :=
  let r := shaK.foldl shaRound { v := st, w := words8 (beNat (m.take 32)) ++ words8 (beNat (m.drop 32)) }
  List.zipWith (fun x y => (x + y) % 2 ^ 32) st r.v

/-- SHA-256 of a byte string. -/
def sha256 (b : Bytes) : Bytes :=
  let whole := b ++ 0x80 :: List.replicate ((119 - b.length % 64) % 64) 0 ++ bytesBE 8 (8 * b.length)
  ((chunksOf 64 whole (whole.length + 1)).foldl shaBlock shaInit).flatMap (bytesBE 4)

/-- HMAC-SHA-256. -/
def hmac (key msg : Bytes) : Bytes :=
  let k := padTo 64 (if 64 < key.length then sha256 key else key)
  sha256 (k.map (· ^^^ 0x5C) ++ sha256 (k.map (· ^^^ 0x36) ++ msg))

end Sys2Proof.Machine
end

