-- ==== Sys2Proof/Machine/RegMap.lean ====
section
/-! DEFINITION. Sys2Proof/Machine/RegMap.lean: the register window, register by register.
For every register of the spec: its key (its window offset), its fields with their bit ranges, access codes and reset
values, in one table per block (R10), and a name for each register and each field.
The personality parameter blocks of one port share their window offsets (R136, R171, R197), so each personality has keys
of its own, above the window (line +0x1000000, air +0x2000000, cascade +0x3000000).
Plain counters that the spec gives without a field table are listed with one field COUNT. -/

namespace Sys2Proof.Machine

/-- Access codes of R15. `cnt0`: RW counter cleared by writing 0 (R522). `rwhGo`, `rwlGo`: a hoop-only or seal-locked
field whose 1 starts an action (R521). `rwhRing0`: RWH for ring 0, RW for ring 1 (R318). `rwLock`: RW, RWH while LOCK = 1
(R421). -/
inductive Acc where
  | ro | rw | w1c | w1s | wo | rwh | rwhGo | rws | rwl | rwlGo | cnt0 | rwhRing0 | rwLock
deriving DecidableEq, Repr

/-- One field: bits [hi:lo], its access code and its reset value. -/
structure FieldSpec where
  hi : Nat
  lo : Nat
  acc : Acc
  rst : Nat
deriving DecidableEq, Repr

/-- A register or an array of registers: first offset, stride, number, and the fields of each. -/
structure RegSpec where
  base : Nat
  stride : Nat
  count : Nat
  fields : List FieldSpec
deriving DecidableEq, Repr

/-! Keys of registers. The index of a register array counts modulo the smallest power of two that covers the array. -/

namespace Reg

/-- First key of port n's common registers (R10). -/
abbrev portBase (n : Nat) : Nat := 0x100000 + n * 0x1000
/-- First key of port n's line parameter block (R136), less 0x100. -/
abbrev lnBase (n : Nat) : Nat := 0x1100000 + n * 0x1000
/-- First key of port n's air parameter block (R171), less 0x100. -/
abbrev airBase (n : Nat) : Nat := 0x2100000 + n * 0x1000
/-- First key of port n's cascade parameter block (R197), less 0x100. -/
abbrev casBase (n : Nat) : Nat := 0x3100000 + n * 0x1000


abbrev CHIP_ID : Nat := 0x000000
abbrev CHIP_REGION_STAT : Nat := 0x000004
abbrev CHIP_ERR_STAT : Nat := 0x000008
abbrev CHIP_ERR_EN : Nat := 0x00000C
abbrev CHIP_BADREG_CNT : Nat := 0x000010
abbrev CHIP_BADREG_LAST : Nat := 0x000014
abbrev CHIP_FW_VIOL_CNT : Nat := 0x000018
abbrev CHIP_FW_LAST : Nat := 0x00001C
abbrev CHIP_CLK_STAT : Nat := 0x000020
abbrev CHIP_CLK_LOSS : Nat := 0x000024
abbrev CHIP_QUAR (r : Nat) : Nat := 0x000040 + 4 * (r % 16)
abbrev CHIP_SPARE_MAP (r : Nat) : Nat := 0x000080 + 4 * (r % 16)
abbrev CHIP_CE (r : Nat) : Nat := 0x0000C0 + 4 * (r % 16)
abbrev CHIP_PACE (r : Nat) : Nat := 0x000100 + 4 * (r % 16)
abbrev CHIP_GOV_CTL : Nat := 0x000200
abbrev CHIP_GOV_LIM : Nat := 0x000204
abbrev CHIP_GOV_STEP : Nat := 0x000208
abbrev CHIP_GOV_STAT : Nat := 0x00020C
abbrev CHIP_GOV_PMB : Nat := 0x000210
abbrev CHIP_RECOV_STAT : Nat := 0x000300

abbrev UPD_PRK_CTL : Nat := 0x0B0800
abbrev UPD_PRK_TARGET : Nat := 0x0B0804
abbrev UPD_PRK_SRC_LO : Nat := 0x0B0808
abbrev UPD_PRK_SRC_HI : Nat := 0x0B080C
abbrev UPD_PRK_LEN : Nat := 0x0B0810
abbrev UPD_PRK_DRAIN_TO : Nat := 0x0B0814
abbrev UPD_PRK_STAT : Nat := 0x0B0818
abbrev UPD_PRK_LAST : Nat := 0x0B081C
abbrev UPD_PRK_DRAIN_STAT : Nat := 0x0B0820
abbrev UPD_PRK_SPARE_STAT : Nat := 0x0B0824
abbrev UPD_PRK_RB_SEL : Nat := 0x0B0830
abbrev UPD_PRK_RB_ID : Nat := 0x0B0834
abbrev UPD_PRK_RB_VER : Nat := 0x0B0838
abbrev UPD_PRK_RB_INFO : Nat := 0x0B083C
abbrev UPD_PRK_RB_HASH (k : Nat) : Nat := 0x0B0840 + 4 * (k % 8)
abbrev UPD_CTL : Nat := 0x0B0000
abbrev UPD_STAT : Nat := 0x0B0004
abbrev UPD_SLOT_STAT : Nat := 0x0B0008
abbrev UPD_TRIAL : Nat := 0x0B000C
abbrev UPD_RUN_VER (k : Nat) : Nat := 0x0B0010 + 4 * (k % 2)
abbrev UPD_RCV_CTL : Nat := 0x0B0020
abbrev UPD_RCV_STAT : Nat := 0x0B0024
abbrev UPD_INT_STAT : Nat := 0x0B0028
abbrev UPD_INT_EN : Nat := 0x0B002C

abbrev PORT_LN_CFG (n : Nat) : Nat := lnBase n + 0x100
abbrev PORT_LN_TX (n : Nat) : Nat := lnBase n + 0x104
abbrev PORT_LN_RXT (n : Nat) : Nat := lnBase n + 0x108
abbrev PORT_LN_IMP (n : Nat) : Nat := lnBase n + 0x10C
abbrev PORT_LN_DL (n : Nat) : Nat := lnBase n + 0x110
abbrev PORT_LN_NOTCH (n w : Nat) : Nat := lnBase n + 0x114 + 4 * w
abbrev PORT_LN_ACC_T (n : Nat) : Nat := lnBase n + 0x178
abbrev PORT_LN_ACC_W (n : Nat) : Nat := lnBase n + 0x17C
abbrev PORT_LN_ACK_T (n : Nat) : Nat := lnBase n + 0x180
abbrev PORT_LN_RETRY (n : Nat) : Nat := lnBase n + 0x184
abbrev PORT_LN_SEG (n : Nat) : Nat := lnBase n + 0x188
abbrev PORT_LN_LT_LO (n : Nat) : Nat := lnBase n + 0x18C
abbrev PORT_LN_LT_HI (n : Nat) : Nat := lnBase n + 0x190
abbrev PORT_LN_TM_SEL (n : Nat) : Nat := lnBase n + 0x194
abbrev PORT_LN_TM_DATA (n : Nat) : Nat := lnBase n + 0x198
abbrev PORT_LN_TM_USE (n : Nat) : Nat := lnBase n + 0x19C
abbrev PORT_LN_FLOOD (n : Nat) : Nat := lnBase n + 0x1D8
abbrev PORT_LN_FRAME_OK_CNT (n : Nat) : Nat := lnBase n + 0x14C
abbrev PORT_LN_HDR_BAD_CNT (n : Nat) : Nat := lnBase n + 0x150
abbrev PORT_LN_RS_CORR_CNT (n : Nat) : Nat := lnBase n + 0x154
abbrev PORT_LN_RS_FAIL_CNT (n : Nat) : Nat := lnBase n + 0x158
abbrev PORT_LN_IMP_BLANK_CNT (n : Nat) : Nat := lnBase n + 0x15C
abbrev PORT_LN_SYM_ERASED_CNT (n : Nat) : Nat := lnBase n + 0x160
abbrev PORT_LN_PACE_SHORT_CNT (n : Nat) : Nat := lnBase n + 0x164
abbrev PORT_LN_CH_STEP_CNT (n : Nat) : Nat := lnBase n + 0x168
abbrev PORT_LN_CLIP_CNT (n : Nat) : Nat := lnBase n + 0x16C
abbrev PORT_LN_LANE_LOSS_CNT (n : Nat) : Nat := lnBase n + 0x170
abbrev PORT_LN_LANE_ERR_CNT (n : Nat) : Nat := lnBase n + 0x174
abbrev PORT_LN_TX_FRAME_CNT (n : Nat) : Nat := lnBase n + 0x1A0
abbrev PORT_LN_TX_ACKED_CNT (n : Nat) : Nat := lnBase n + 0x1A4
abbrev PORT_LN_TX_NOACK_CNT (n : Nat) : Nat := lnBase n + 0x1A8
abbrev PORT_LN_TX_NACK_CNT (n : Nat) : Nat := lnBase n + 0x1AC
abbrev PORT_LN_TX_DROP_CNT (n : Nat) : Nat := lnBase n + 0x1B0
abbrev PORT_LN_RX_DUP_CNT (n : Nat) : Nat := lnBase n + 0x1B4
abbrev PORT_LN_MHCS_BAD_CNT (n : Nat) : Nat := lnBase n + 0x1B8
abbrev PORT_LN_FCS_BAD_CNT (n : Nat) : Nat := lnBase n + 0x1BC
abbrev PORT_LN_REASM_TO_CNT (n : Nat) : Nat := lnBase n + 0x1C0
abbrev PORT_LN_DEFER_CNT (n : Nat) : Nat := lnBase n + 0x1C4
abbrev PORT_LN_TM_SENT_CNT (n : Nat) : Nat := lnBase n + 0x1C8
abbrev PORT_LN_ROUTE_ERR_CNT (n : Nat) : Nat := lnBase n + 0x1CC
abbrev PORT_LN_LAUNCH_LATE_CNT (n : Nat) : Nat := lnBase n + 0x1D0
abbrev PORT_LN_OVERHEARD_CNT (n : Nat) : Nat := lnBase n + 0x1D4
abbrev PORT_LN_FLOOD_TX_CNT (n : Nat) : Nat := lnBase n + 0x1DC
abbrev PORT_LN_FLOOD_SEEN_CNT (n : Nat) : Nat := lnBase n + 0x1E0
abbrev PORT_LN_FLOOD_EVICT_CNT (n : Nat) : Nat := lnBase n + 0x1E4

abbrev PORT_AIR_CFG (n : Nat) : Nat := airBase n + 0x100
abbrev PORT_AIR_CYC (n : Nat) : Nat := airBase n + 0x104
abbrev PORT_AIR_BCN_OFS (n : Nat) : Nat := airBase n + 0x108
abbrev PORT_AIR_CSMA (n : Nat) : Nat := airBase n + 0x10C
abbrev PORT_AIR_TIMING (n : Nat) : Nat := airBase n + 0x110
abbrev PORT_AIR_ACK (n : Nat) : Nat := airBase n + 0x114
abbrev PORT_AIR_GUARD (n : Nat) : Nat := airBase n + 0x118
abbrev PORT_AIR_WAKE (n : Nat) : Nat := airBase n + 0x11C
abbrev PORT_AIR_MEMBER (n : Nat) : Nat := airBase n + 0x120
abbrev PORT_AIR_FLOOD (n : Nat) : Nat := airBase n + 0x124
abbrev PORT_AIR_LT_LO (n : Nat) : Nat := airBase n + 0x128
abbrev PORT_AIR_LT_HI (n : Nat) : Nat := airBase n + 0x12C
abbrev PORT_AIR_RDV_LO (n : Nat) : Nat := airBase n + 0x130
abbrev PORT_AIR_RDV_HI (n : Nat) : Nat := airBase n + 0x134
abbrev PORT_AIR_SYNC_STAT (n : Nat) : Nat := airBase n + 0x138
abbrev PORT_AIR_ESC (n : Nat) : Nat := airBase n + 0x13C
abbrev PORT_AIR_SELF (n : Nat) : Nat := airBase n + 0x140
abbrev PORT_AIR_CYCLE_NO (n : Nat) : Nat := airBase n + 0x144
abbrev PORT_AIR_TX_FRAME_CNT (n : Nat) : Nat := airBase n + 0x148
abbrev PORT_AIR_TX_ACKED_CNT (n : Nat) : Nat := airBase n + 0x14C
abbrev PORT_AIR_TX_NOACK_CNT (n : Nat) : Nat := airBase n + 0x150
abbrev PORT_AIR_TX_DROP_CNT (n : Nat) : Nat := airBase n + 0x154
abbrev PORT_AIR_CCA_BUSY_CNT (n : Nat) : Nat := airBase n + 0x158
abbrev PORT_AIR_CSMA_FAIL_CNT (n : Nat) : Nat := airBase n + 0x15C
abbrev PORT_AIR_RX_OK_CNT (n : Nat) : Nat := airBase n + 0x160
abbrev PORT_AIR_PHR_BAD_CNT (n : Nat) : Nat := airBase n + 0x164
abbrev PORT_AIR_FCS_BAD_CNT (n : Nat) : Nat := airBase n + 0x168
abbrev PORT_AIR_FORMAT_BAD_CNT (n : Nat) : Nat := airBase n + 0x16C
abbrev PORT_AIR_RX_DUP_CNT (n : Nat) : Nat := airBase n + 0x170
abbrev PORT_AIR_BCN_TX_CNT (n : Nat) : Nat := airBase n + 0x174
abbrev PORT_AIR_BCN_MISS_CNT (n : Nat) : Nat := airBase n + 0x178
abbrev PORT_AIR_RDV_MISS_CNT (n : Nat) : Nat := airBase n + 0x17C
abbrev PORT_AIR_RDV_BLOCKED_CNT (n : Nat) : Nat := airBase n + 0x180
abbrev PORT_AIR_WUT_SENT_CNT (n : Nat) : Nat := airBase n + 0x184
abbrev PORT_AIR_UNREACH_CNT (n : Nat) : Nat := airBase n + 0x188
abbrev PORT_AIR_FLOOD_TX_CNT (n : Nat) : Nat := airBase n + 0x18C
abbrev PORT_AIR_FLOOD_RELAY_CNT (n : Nat) : Nat := airBase n + 0x190
abbrev PORT_AIR_FLOOD_SEEN_CNT (n : Nat) : Nat := airBase n + 0x194
abbrev PORT_AIR_FLOOD_EVICT_CNT (n : Nat) : Nat := airBase n + 0x198
abbrev PORT_AIR_LAUNCH_LATE_CNT (n : Nat) : Nat := airBase n + 0x19C
abbrev PORT_AIR_PACE_SHORT_CNT (n : Nat) : Nat := airBase n + 0x1A0
abbrev PORT_AIR_LANE_LOSS_CNT (n : Nat) : Nat := airBase n + 0x1A4
abbrev PORT_AIR_LANE_ERR_CNT (n : Nat) : Nat := airBase n + 0x1A8

abbrev PORT_ID (n : Nat) : Nat := portBase n + 0x000
abbrev PORT_CTL (n : Nat) : Nat := portBase n + 0x004
abbrev PORT_STAT (n : Nat) : Nat := portBase n + 0x008
abbrev PORT_PERSONA (n : Nat) : Nat := portBase n + 0x00C
abbrev PORT_INT_STAT (n : Nat) : Nat := portBase n + 0x010
abbrev PORT_INT_EN (n : Nat) : Nat := portBase n + 0x014
abbrev PORT_BOB_RX (n : Nat) : Nat := portBase n + 0x018
abbrev PORT_BOB_TX (n : Nat) : Nat := portBase n + 0x01C
abbrev PORT_LINK_Q (n : Nat) : Nat := portBase n + 0x020
abbrev PORT_TIMING (n : Nat) : Nat := portBase n + 0x024
abbrev PORT_DESC_BASE (n : Nat) : Nat := portBase n + 0x028
abbrev PORT_DESC_HEAD (n : Nat) : Nat := portBase n + 0x02C

abbrev PORT_CAS_CFG (n : Nat) : Nat := casBase n + 0x100
abbrev PORT_CAS_STAT (n : Nat) : Nat := casBase n + 0x104
abbrev PORT_CAS_ACK (n : Nat) : Nat := casBase n + 0x108
abbrev PORT_CAS_TX_FRAME_CNT (n : Nat) : Nat := casBase n + 0x110
abbrev PORT_CAS_RX_FRAME_CNT (n : Nat) : Nat := casBase n + 0x114
abbrev PORT_CAS_BAD_CNT (n : Nat) : Nat := casBase n + 0x118
abbrev PORT_CAS_CV_CNT (n : Nat) : Nat := casBase n + 0x11C
abbrev PORT_CAS_RESEND_CNT (n : Nat) : Nat := casBase n + 0x120
abbrev PORT_CAS_COMMIT_CNT (n : Nat) : Nat := casBase n + 0x124
abbrev PORT_CAS_REJECT_CNT (n : Nat) : Nat := casBase n + 0x128
abbrev PORT_CAS_LINK_DOWN_CNT (n : Nat) : Nat := casBase n + 0x12C

abbrev INK_CTL : Nat := 0x060000
abbrev INK_STAT : Nat := 0x060004
abbrev INK_POOL : Nat := 0x060008
abbrev INK_SLOT_CMD : Nat := 0x060010
abbrev INK_SLOT_STAT : Nat := 0x060014
abbrev INK_TBL_LO : Nat := 0x060018
abbrev INK_TBL_HI : Nat := 0x06001C
abbrev INK_XREC_LO : Nat := 0x060020
abbrev INK_XREC_HI : Nat := 0x060024
abbrev INK_OWN_TITLE_LO : Nat := 0x060028
abbrev INK_OWN_TITLE_HI : Nat := 0x06002C
abbrev INK_KC_CTL : Nat := 0x060030
abbrev INK_KC_HIT_CNT : Nat := 0x060034
abbrev INK_KC_MISS_CNT : Nat := 0x060038
abbrev INK_RATE : Nat := 0x06003C
abbrev INK_SLOT_DATA (k : Nat) : Nat := 0x060040 + 4 * (k % 8)
abbrev INK_GRACE_END (d : Nat) : Nat := 0x060060 + 4 * (d % 8)
abbrev INK_FW_BASE_LO : Nat := 0x060080
abbrev INK_FW_BASE_HI : Nat := 0x060084
abbrev INK_FW_HEAD : Nat := 0x060088
abbrev INK_PROT_BASE_LO : Nat := 0x060090
abbrev INK_PROT_BASE_HI : Nat := 0x060094
abbrev INK_PROT_HEAD : Nat := 0x060098
abbrev INK_ING (q : Nat) : Nat := 0x0600C0 + 4 * (q % 16)
abbrev MND_CTL : Nat := 0x060800
abbrev MND_STAT : Nat := 0x060804
abbrev MND_STATE_LO : Nat := 0x060808
abbrev MND_STATE_HI : Nat := 0x06080C
abbrev MND_SHADOW_LO : Nat := 0x060810
abbrev MND_SHADOW_HI : Nat := 0x060814
abbrev MND_CAL_LO : Nat := 0x060818
abbrev MND_CAL_HI : Nat := 0x06081C
abbrev MND_CLASS_SEL : Nat := 0x060820
abbrev MND_CLASS_DATA : Nat := 0x060824
abbrev INK_ACCEPT_CNT : Nat := 0x060100
abbrev INK_FORMAT_CNT : Nat := 0x060104
abbrev INK_SC_CNT : Nat := 0x060108
abbrev INK_UNKNOWN_CNT : Nat := 0x06010C
abbrev INK_TBLERR_CNT : Nat := 0x060110
abbrev INK_SLOTCRC_CNT : Nat := 0x060114
abbrev INK_INACTIVE_CNT : Nat := 0x060118
abbrev INK_HOLD_CNT : Nat := 0x06011C
abbrev INK_TITLE_CNT : Nat := 0x060120
abbrev INK_NOKEY_CNT : Nat := 0x060124
abbrev INK_REPLAY_CNT : Nat := 0x060128
abbrev INK_OLD_CNT : Nat := 0x06012C
abbrev INK_AUTH_CNT : Nat := 0x060130
abbrev INK_REORDER_CNT : Nat := 0x060134
abbrev INK_PREV_GEN_CNT : Nat := 0x060138
abbrev INK_DUP_CNT : Nat := 0x06013C
abbrev INK_FW_STALL_CNT : Nat := 0x060140
abbrev INK_COPY_DROP_CNT : Nat := 0x060144
abbrev INK_PROT_CNT : Nat := 0x060148
abbrev INK_FW_TRUNC_CNT : Nat := 0x06014C
abbrev MND_BLOCK_CNT : Nat := 0x060900
abbrev MND_RECORD_CNT : Nat := 0x060904
abbrev MND_BYPASS_CNT : Nat := 0x060908
abbrev MND_FORMAT_CNT : Nat := 0x06090C
abbrev MND_TIME_CNT : Nat := 0x060910
abbrev MND_MISSING_CNT : Nat := 0x060914
abbrev MND_MSTAT_CNT : Nat := 0x060918
abbrev MND_HIGH_CNT : Nat := 0x06091C
abbrev MND_SPIKE_CNT : Nat := 0x060920
abbrev MND_ZERO_CNT : Nat := 0x060924
abbrev MND_SUM_CNT : Nat := 0x060928
abbrev MND_CONT_CNT : Nat := 0x06092C
abbrev MND_GAP_CNT : Nat := 0x060930
abbrev MND_GAP_LONG_CNT : Nat := 0x060934
abbrev MND_EST_CNT : Nat := 0x060938
abbrev MND_UNEST_CNT : Nat := 0x06093C
abbrev MND_DUP_CNT : Nat := 0x060940
abbrev MND_LATE_CNT : Nat := 0x060944
abbrev MND_REPLACE_CNT : Nat := 0x060948
abbrev MND_STATECRC_CNT : Nat := 0x06094C
abbrev MND_SHADOW_SKIP_CNT : Nat := 0x060950
abbrev MND_SHADOW_LATE_CNT : Nat := 0x060954
abbrev MND_BILL_CNT : Nat := 0x060958

abbrev DRN_CTL : Nat := 0x070000
abbrev DRN_STAT : Nat := 0x070004
abbrev DRN_FRZ_CTL : Nat := 0x070008
abbrev DRN_FRZ_COLLECT : Nat := 0x07000C
abbrev DRN_FRZ_NEXT_ID : Nat := 0x070010
abbrev DRN_FRZ_LAUNCH : Nat := 0x070014
abbrev DRN_FRZ_FDELAY : Nat := 0x070018
abbrev DRN_FRZ_CUR : Nat := 0x07001C
abbrev DRN_TOPO_LO : Nat := 0x070020
abbrev DRN_TOPO_HI : Nat := 0x070024
abbrev DRN_HIST_LO : Nat := 0x070028
abbrev DRN_HIST_HI : Nat := 0x07002C
abbrev DRN_CUSUM : Nat := 0x070030
abbrev DRN_SUSP : Nat := 0x070034
abbrev DRN_BAL_PROD : Nat := 0x070038
abbrev DRN_SUSP_PROD : Nat := 0x07003C
abbrev DRN_INT_STAT : Nat := 0x070040
abbrev DRN_INT_EN : Nat := 0x070044
abbrev DRN_ALARM_LAST : Nat := 0x070048
abbrev DRN_SNAP_CNT : Nat := 0x070100
abbrev DRN_LATE_CNT : Nat := 0x070104
abbrev DRN_DUP_CNT : Nat := 0x070108
abbrev DRN_FUTURE_CNT : Nat := 0x07010C
abbrev DRN_IGNORED_CNT : Nat := 0x070110
abbrev DRN_INVALID_CNT : Nat := 0x070114
abbrev DRN_GAP_CNT : Nat := 0x070118
abbrev DRN_NODE_OK_CNT : Nat := 0x07011C
abbrev DRN_NODE_INC_CNT : Nat := 0x070120
abbrev DRN_ALARM_CNT : Nat := 0x070124
abbrev DRN_SUSPECT_CNT : Nat := 0x070128

abbrev STO_CTL : Nat := 0x090000
abbrev STO_STAT : Nat := 0x090004
abbrev STO_NAND : Nat := 0x090008
abbrev STO_GEOM : Nat := 0x09000C
abbrev STO_DIE_STAT : Nat := 0x090010
abbrev STO_CH_CTL : Nat := 0x090014
abbrev STO_LOGICAL : Nat := 0x090018
abbrev STO_DIRTY : Nat := 0x09001C
abbrev STO_PART_BASE (k : Nat) : Nat := 0x090020 + 8 * (k % 8)
abbrev STO_PART_SIZE (k : Nat) : Nat := 0x090024 + 8 * (k % 8)
abbrev STO_CKPT : Nat := 0x090048
abbrev STO_GC_CTL : Nat := 0x09004C
abbrev STO_GC_W : Nat := 0x090050
abbrev STO_WL : Nat := 0x090054
abbrev STO_SLC : Nat := 0x090058
abbrev STO_EC : Nat := 0x09005C
abbrev STO_REC_HEAD : Nat := 0x090060
abbrev STO_REC_TAIL : Nat := 0x090064
abbrev STO_STAGE_LO : Nat := 0x090068
abbrev STO_STAGE_HI : Nat := 0x09006C
abbrev STO_RING_LO (k : Nat) : Nat := 0x090070 + 12 * (k % 2)
abbrev STO_RING_HI (k : Nat) : Nat := 0x090074 + 12 * (k % 2)
abbrev STO_RING_HEAD (k : Nat) : Nat := 0x090078 + 12 * (k % 2)
abbrev STO_INT_STAT : Nat := 0x090088
abbrev STO_INT_EN : Nat := 0x09008C
abbrev STO_HOST_UNITS_CNT : Nat := 0x090100
abbrev STO_GC_UNITS_CNT : Nat := 0x090104
abbrev STO_FOLD_UNITS_CNT : Nat := 0x090108
abbrev STO_ERASE_CNT : Nat := 0x09010C
abbrev STO_ECC_CORR_CNT : Nat := 0x090110
abbrev STO_RETRY_CNT : Nat := 0x090114
abbrev STO_REBUILD_CNT : Nat := 0x090118
abbrev STO_LOST_CNT : Nat := 0x09011C
abbrev STO_PROG_FAIL_CNT : Nat := 0x090120
abbrev STO_ERASE_FAIL_CNT : Nat := 0x090124
abbrev STO_VERIFY_FAIL_CNT : Nat := 0x090128
abbrev STO_GC_RESUME_CNT : Nat := 0x09012C
abbrev STO_WL_MOVE_CNT : Nat := 0x090130
abbrev STO_PAD_UNITS_CNT : Nat := 0x090134
abbrev STO_FLUSH_CNT : Nat := 0x090138
abbrev STO_REC_TRIM_CNT : Nat := 0x09013C
abbrev STO_DRAM_CE_CNT : Nat := 0x090140
abbrev STO_DRAM_UE_CNT : Nat := 0x090144

abbrev TOT_CTL : Nat := 0x080000
abbrev TOT_STAT : Nat := 0x080004
abbrev TOT_SEAL_CTL : Nat := 0x080008
abbrev TOT_SEAL_STAT : Nat := 0x08000C
abbrev TOT_CAL_SEL : Nat := 0x080010
abbrev TOT_CAL_DATA : Nat := 0x080014
abbrev TOT_DEM : Nat := 0x080018
abbrev TOT_BILL_CTL : Nat := 0x08001C
abbrev TOT_BILL_SEL : Nat := 0x080020
abbrev TOT_BILL_DATA : Nat := 0x080024
abbrev TOT_PCAL_LO : Nat := 0x080028
abbrev TOT_PCAL_HI : Nat := 0x08002C
abbrev TOT_PCAL_CTL : Nat := 0x080030
abbrev TOT_RATE : Nat := 0x080034
abbrev TOT_LATCH_WH : Nat := 0x080038
abbrev TOT_LATCH_STAT : Nat := 0x08003C
abbrev TOT_INST (k : Nat) : Nat := 0x080040 + 4 * (k % 16)
abbrev TOT_INT_STAT : Nat := 0x080080
abbrev TOT_INT_EN : Nat := 0x080084
abbrev TOT_EVT_PROD : Nat := 0x080088
abbrev TOT_ACAL_ID : Nat := 0x08008C
abbrev TOT_MOD_FAULT_CNT : Nat := 0x080100
abbrev TOT_OUTAGE_CNT : Nat := 0x080104
abbrev TOT_TSTEP_CNT : Nat := 0x080108
abbrev TOT_LATE_SWITCH_CNT : Nat := 0x08010C
abbrev TOT_REFUSE_CNT : Nat := 0x080110
abbrev TOT_BILL_CNT : Nat := 0x080114
abbrev TOT_TAMPER_CNT : Nat := 0x080118

abbrev TU_CTL : Nat := 0x020000
abbrev TU_STAT : Nat := 0x020004
abbrev TU_SCHED : Nat := 0x020008
abbrev TU_TAI_NS : Nat := 0x02000C
abbrev TU_TAI_S_LO : Nat := 0x020010
abbrev TU_TAI_S_HI : Nat := 0x020014
abbrev TU_UTC : Nat := 0x020018
abbrev TU_LEAP_AT : Nat := 0x02001C
abbrev TU_SERVO : Nat := 0x020030
abbrev TU_GAIN : Nat := 0x020034
abbrev TU_OFS_IN : Nat := 0x020038
abbrev TU_SERVO_STAT : Nat := 0x02003C
abbrev TU_FREQ : Nat := 0x020040
abbrev TU_SRC_CFG : Nat := 0x020044
abbrev TU_UPL_ADJ (u : Nat) : Nat := 0x020050 + 4 * (u % 2)
abbrev TU_AFE_ADJ : Nat := 0x020058
abbrev TU_TXTS_0 (u : Nat) : Nat := 0x020060 + 8 * (u % 2)
abbrev TU_TXTS_1 (u : Nat) : Nat := 0x020064 + 8 * (u % 2)
abbrev TU_INT_STAT : Nat := 0x020080
abbrev TU_INT_EN : Nat := 0x020084
abbrev TU_CMP_T (k : Nat) : Nat := 0x020100 + 16 * (k % 8)
abbrev TU_CMP_PER (k : Nat) : Nat := 0x020104 + 16 * (k % 8)
abbrev TU_CMP_CTL (k : Nat) : Nat := 0x020108 + 16 * (k % 8)
abbrev TU_STEP_CNT : Nat := 0x020180
abbrev TU_SAMPLE_CNT : Nat := 0x020184
abbrev TU_SRC_LOSS_CNT : Nat := 0x020188
abbrev TU_PPS_BAD_CNT : Nat := 0x02018C
abbrev TU_TXTS_DROP_CNT : Nat := 0x020190
abbrev TU_SET_CNT : Nat := 0x020194

abbrev UPL_CTL : Nat := 0x0A0000
abbrev UPL_STAT : Nat := 0x0A0004
abbrev UPL_RXR (u : Nat) : Nat := 0x0A0010 + 16 * (u % 2)
abbrev UPL_TXR (u : Nat) : Nat := 0x0A0018 + 16 * (u % 2)
abbrev UPL_RXH (u : Nat) : Nat := 0x0A0014 + 16 * (u % 2)
abbrev UPL_TXH (u : Nat) : Nat := 0x0A001C + 16 * (u % 2)
abbrev UPL_SESS_BASE : Nat := 0x0A0040
abbrev UPL_SESS_CMD : Nat := 0x0A0044
abbrev UPL_SESS_STAT : Nat := 0x0A0048
abbrev UPL_DOORBELL : Nat := 0x0A004C
abbrev UPL_EXC (j : Nat) : Nat := 0x0A0050 + 4 * (j % 2)
abbrev UPL_ROLE (j : Nat) : Nat := 0x0A0060 + 4 * (j % 8)
abbrev UPL_EXP_CTL : Nat := 0x0A0080
abbrev UPL_PART_CFG (k : Nat) : Nat := 0x0A0090 + 8 * (k % 4)
abbrev UPL_PART_POS (k : Nat) : Nat := 0x0A0094 + 8 * (k % 4)
abbrev UPL_INT_STAT : Nat := 0x0A00C0
abbrev UPL_INT_EN : Nat := 0x0A00C4
abbrev UPL_ING_MSG_CNT : Nat := 0x0A0100
abbrev UPL_RESULT_CNT : Nat := 0x0A0104
abbrev UPL_BATCH_CNT : Nat := 0x0A0108
abbrev UPL_BATCH_RESEND_CNT : Nat := 0x0A010C
abbrev UPL_MANIFEST_CNT : Nat := 0x0A0110
abbrev UPL_REC_AUTH_CNT : Nat := 0x0A0114
abbrev UPL_SESS_ERR_CNT : Nat := 0x0A0118
abbrev UPL_CONFLICT_CNT : Nat := 0x0A011C
abbrev UPL_DENIED_CNT : Nat := 0x0A0120
abbrev UPL_RX_DROP_0_CNT : Nat := 0x0A0124
abbrev UPL_RX_DROP_1_CNT : Nat := 0x0A0128

abbrev INT_CTL : Nat := 0x010000
abbrev INT_SRC_SEL : Nat := 0x010004
abbrev INT_SRC_CFG : Nat := 0x010008
abbrev INT_SW : Nat := 0x01000C
abbrev INT_PEND (w : Nat) : Nat := 0x010040 + 4 * (w % 16)
abbrev INT_CLAIMED (w : Nat) : Nat := 0x010080 + 4 * (w % 16)
abbrev INT_HOLD (g : Nat) : Nat := 0x010100 + 4 * (g % 32)
abbrev INT_TGT_CTL (t : Nat) : Nat := 0x010200 + 16 * (t % 32)
abbrev INT_TGT_STAT (t : Nat) : Nat := 0x010204 + 16 * (t % 32)
abbrev INT_CLAIM (t : Nat) : Nat := 0x010208 + 16 * (t % 32)
abbrev INT_COMPLETE (t : Nat) : Nat := 0x01020C + 16 * (t % 32)

abbrev SHU_CTL : Nat := 0x030000
abbrev SHU_STAT : Nat := 0x030004
abbrev SHU_ERR_LO : Nat := 0x030008
abbrev SHU_ERR_HI : Nat := 0x03000C
abbrev SHU_EVT (i : Nat) : Nat := 0x030010 + 4 * (i % 4)
abbrev SHU_EVT_CMD : Nat := 0x03001C
abbrev SHU_CH_CTL (c : Nat) : Nat := 0x030100 + 32 * (c % 32)
abbrev SHU_CH_STAT (c : Nat) : Nat := 0x030104 + 32 * (c % 32)
abbrev SHU_CH_PROG (c : Nat) : Nat := 0x030108 + 32 * (c % 32)
abbrev SHU_CH_PC (c : Nat) : Nat := 0x03010C + 32 * (c % 32)
abbrev SHU_CH_CHK (c : Nat) : Nat := 0x030110 + 32 * (c % 32)
abbrev SHU_EVT_LOST_CNT : Nat := 0x030020
abbrev SHU_BUSERR_CNT : Nat := 0x030024

abbrev NDL_CMD : Nat := 0x050000
abbrev NDL_STAT : Nat := 0x050004
abbrev NDL_ATTR : Nat := 0x050008
abbrev NDL_COUNT : Nat := 0x05000C
abbrev NDL_BUF_LO : Nat := 0x050010
abbrev NDL_BUF_HI : Nat := 0x050014
abbrev NDL_LEN : Nat := 0x050018
abbrev NDL_INT_STAT : Nat := 0x05001C
abbrev NDL_INT_EN : Nat := 0x050020
abbrev NDL_DATA (k : Nat) : Nat := 0x050040 + 4 * (k % 16)
abbrev NDL_CNT_CMD : Nat := 0x050100
abbrev NDL_CNT_STAT : Nat := 0x050104
abbrev NDL_CNT_ARG (k : Nat) : Nat := 0x050110 + 4 * (k % 4)
abbrev NDL_ID (k : Nat) : Nat := 0x050800 + 4 * (k % 4)
abbrev NDL_CNT_LEFT : Nat := 0x050810
abbrev NDL_CNT_FLOOR : Nat := 0x050814
abbrev NDL_CNT_DOMAIN (k : Nat) : Nat := 0x050818 + 4 * (k % 4)
abbrev NDL_KEYID_LO : Nat := 0x050828
abbrev NDL_KEYID_HI : Nat := 0x05082C
abbrev NDL_CNT_LOG_PROD : Nat := 0x050830
abbrev NDL_VKEY (k : Nat) : Nat := 0x050840 + 4 * (k % 8)

abbrev SMP_CTL : Nat := 0x040000
abbrev SMP_STAT : Nat := 0x040004
abbrev SMP_SEQ : Nat := 0x040008
abbrev SMP_MIRROR : Nat := 0x04000C
abbrev SMP_RD_SEL : Nat := 0x040010
abbrev SMP_RD_DATA : Nat := 0x040014
abbrev SMP_SW_CMD : Nat := 0x040018
abbrev SMP_SW_DATA (k : Nat) : Nat := 0x04001C + 4 * (k % 4)
abbrev SMP_OPSEC : Nat := 0x040030
abbrev SMP_PCC : Nat := 0x040034
abbrev SMP_INT_STAT : Nat := 0x040038
abbrev SMP_INT_EN : Nat := 0x04003C
abbrev SMP_RCV_CTL : Nat := 0x040100
abbrev SMP_RCV_STAT : Nat := 0x040104
abbrev SMP_RCV_WDOG : Nat := 0x040108
abbrev SMP_PAIR_CTL : Nat := 0x040200
abbrev SMP_PAIR_STAT : Nat := 0x040204
abbrev SMP_PAIR_EPOCH : Nat := 0x040208
abbrev SMP_PAIR_WIT_EP : Nat := 0x04020C
abbrev SMP_PAIR_WIT_EXP : Nat := 0x040210
abbrev SMP_PAIR_SYNC : Nat := 0x040214
abbrev SMP_LOST_CNT_0 : Nat := 0x040040
abbrev SMP_LOST_CNT_1 : Nat := 0x040044
abbrev SMP_LOST_CNT_2 : Nat := 0x040048
abbrev SMP_LOST_CNT_3 : Nat := 0x04004C
abbrev SMP_LOST_CNT_4 : Nat := 0x040050
abbrev SMP_LOST_CNT_5 : Nat := 0x040054
abbrev SMP_LOST_CNT_6 : Nat := 0x040058
abbrev SMP_LOST_CNT_7 : Nat := 0x04005C
abbrev SMP_DROP_CNT : Nat := 0x040060
abbrev SMP_MIRROR_GAP_CNT : Nat := 0x040064

/-- Registers of the chip block, part 0. -/
def chipTable0 : List RegSpec := [
  ⟨0x0, 4, 1, [⟨31, 16, .ro, 0x1064⟩, ⟨15, 12, .ro, 1⟩, ⟨7, 4, .ro, 1⟩, ⟨3, 0, .ro, 0⟩]⟩,
  ⟨0x4, 4, 1, [⟨17, 16, .ro, 0⟩, ⟨15, 14, .ro, 0⟩, ⟨13, 12, .ro, 0⟩, ⟨11, 10, .ro, 0⟩, ⟨9, 8, .ro, 0⟩, ⟨7, 6, .ro, 0⟩, ⟨5, 4, .ro, 0⟩, ⟨3, 2, .ro, 0⟩, ⟨1, 0, .ro, 0⟩]⟩,
  ⟨0x8, 4, 1, [⟨9, 1, .w1c, 0⟩, ⟨0, 0, .w1c, 0⟩]⟩,
  ⟨0xC, 4, 1, [⟨9, 0, .rw, 0x3ff⟩]⟩,
  ⟨0x10, 4, 1, [⟨31, 0, .ro, 0⟩]⟩,
  ⟨0x14, 4, 1, [⟨31, 28, .ro, 0⟩, ⟨27, 27, .ro, 0⟩, ⟨20, 0, .ro, 0⟩]⟩,
  ⟨0x18, 4, 1, [⟨31, 0, .ro, 0⟩]⟩,
  ⟨0x1C, 4, 1, [⟨31, 28, .ro, 0⟩, ⟨27, 24, .ro, 0⟩, ⟨23, 23, .ro, 0⟩, ⟨22, 0, .ro, 0⟩]⟩,
  ⟨0x20, 4, 1, [⟨13, 0, .ro, 0⟩]⟩,
  ⟨0x24, 4, 1, [⟨13, 0, .w1c, 0⟩]⟩,
  ⟨0x44, 4, 9, [⟨31, 0, .ro, 0⟩]⟩,
  ⟨0x84, 4, 9, [⟨23, 23, .ro, 0⟩, ⟨21, 16, .ro, 0⟩, ⟨15, 15, .ro, 0⟩, ⟨13, 8, .ro, 0⟩, ⟨7, 7, .ro, 0⟩, ⟨5, 0, .ro, 0⟩]⟩,
  ⟨0xC4, 4, 9, [⟨31, 0, .ro, 0⟩]⟩,
  ⟨0x104, 4, 9, [⟨31, 16, .rw, 0xffff⟩, ⟨15, 0, .ro, 0⟩]⟩,
  ⟨0x200, 4, 1, [⟨31, 31, .rw, 1⟩, ⟨30, 30, .rw, 0⟩, ⟨29, 24, .rw, 8⟩, ⟨23, 16, .rw, 0x11⟩, ⟨15, 0, .rw, 0x1000⟩]⟩,
  ⟨0x204, 4, 1, [⟨31, 16, .rwh, 0x384⟩, ⟨15, 0, .rwh, 0x28a⟩]⟩,
  ⟨0x208, 4, 1, [⟨31, 20, .rw, 0x400⟩, ⟨15, 8, .rw, 0xa⟩, ⟨7, 0, .rw, 5⟩]⟩,
  ⟨0x20C, 4, 1, [⟨31, 16, .ro, 0x320⟩, ⟨15, 12, .ro, 0⟩, ⟨3, 3, .ro, 0⟩, ⟨2, 2, .ro, 0⟩, ⟨1, 1, .ro, 0⟩, ⟨0, 0, .ro, 0⟩]⟩,
  ⟨0x210, 4, 1, [⟨15, 8, .rwh, 0⟩, ⟨6, 0, .rwh, 0x40⟩]⟩,
  ⟨0x300, 4, 1, [⟨31, 16, .ro, 0⟩, ⟨3, 0, .ro, 0⟩]⟩]

/-- The registers of the chip block. -/
def chipTable : List RegSpec :=
  chipTable0

/-- Registers of the upd block, part 0. -/
def updTable0 : List RegSpec := [
  ⟨0xB0800, 4, 1, [⟨31, 31, .rwhGo, 0⟩, ⟨30, 30, .rwhGo, 0⟩, ⟨8, 8, .rwh, 0⟩, ⟨3, 0, .rwh, 0⟩]⟩,
  ⟨0xB0804, 4, 1, [⟨15, 0, .rwh, 0⟩]⟩,
  ⟨0xB0808, 4, 1, [⟨31, 12, .rwh, 0⟩]⟩,
  ⟨0xB080C, 4, 1, [⟨31, 31, .rwh, 0⟩, ⟨30, 0, .rwh, 0⟩]⟩,
  ⟨0xB0810, 4, 1, [⟨12, 0, .rwh, 0⟩]⟩,
  ⟨0xB0814, 4, 1, [⟨23, 0, .rwh, 0x147b⟩]⟩,
  ⟨0xB0818, 4, 1, [⟨31, 31, .w1c, 0⟩, ⟨30, 30, .w1c, 0⟩, ⟨29, 29, .ro, 0⟩, ⟨28, 28, .w1c, 0⟩, ⟨27, 16, .ro, 0⟩, ⟨11, 8, .ro, 0⟩, ⟨3, 0, .ro, 0⟩]⟩,
  ⟨0xB081C, 4, 1, [⟨31, 0, .ro, 0⟩]⟩,
  ⟨0xB0820, 4, 1, [⟨31, 24, .ro, 0⟩, ⟨23, 16, .ro, 0⟩, ⟨15, 8, .ro, 0⟩, ⟨7, 0, .ro, 0⟩]⟩,
  ⟨0xB0824, 4, 1, [⟨31, 31, .ro, 0⟩, ⟨30, 28, .ro, 0⟩, ⟨23, 23, .ro, 0⟩, ⟨22, 20, .ro, 0⟩, ⟨15, 15, .ro, 0⟩, ⟨14, 12, .ro, 0⟩, ⟨7, 7, .ro, 0⟩, ⟨6, 4, .ro, 0⟩]⟩,
  ⟨0xB0830, 4, 1, [⟨31, 31, .w1s, 0⟩, ⟨30, 30, .ro, 0⟩, ⟨15, 0, .rw, 0⟩]⟩,
  ⟨0xB0834, 4, 1, [⟨31, 0, .ro, 0⟩]⟩,
  ⟨0xB0838, 4, 1, [⟨31, 24, .ro, 0⟩, ⟨23, 16, .ro, 0⟩, ⟨15, 0, .ro, 0⟩]⟩,
  ⟨0xB083C, 4, 1, [⟨31, 31, .ro, 0⟩, ⟨10, 8, .ro, 0⟩, ⟨3, 0, .ro, 0⟩]⟩,
  ⟨0xB0840, 4, 8, [⟨31, 0, .ro, 0⟩]⟩,
  ⟨0xB0000, 4, 1, [⟨31, 31, .rwhGo, 0⟩, ⟨8, 8, .rwh, 0⟩, ⟨3, 0, .rwh, 0⟩]⟩,
  ⟨0xB0004, 4, 1, [⟨31, 31, .w1c, 0⟩, ⟨30, 30, .w1c, 0⟩, ⟨29, 29, .ro, 0⟩, ⟨27, 24, .ro, 0⟩, ⟨15, 12, .ro, 0⟩, ⟨5, 0, .ro, 0⟩]⟩,
  ⟨0xB0008, 4, 1, [⟨31, 28, .ro, 0⟩, ⟨27, 24, .ro, 0⟩, ⟨23, 20, .ro, 0⟩, ⟨19, 16, .ro, 0⟩, ⟨15, 15, .ro, 0⟩, ⟨14, 12, .ro, 0⟩, ⟨0, 0, .ro, 0⟩]⟩,
  ⟨0xB000C, 4, 1, [⟨31, 16, .rwh, 0x258⟩, ⟨3, 0, .rwh, 3⟩]⟩,
  ⟨0xB0010, 4, 2, [⟨31, 0, .ro, 0⟩]⟩]

/-- Registers of the upd block, part 1. -/
def updTable1 : List RegSpec := [
  ⟨0xB0020, 4, 1, [⟨31, 31, .w1s, 0⟩, ⟨24, 0, .rw, 0⟩]⟩,
  ⟨0xB0024, 4, 1, [⟨31, 31, .ro, 0⟩, ⟨30, 30, .ro, 0⟩, ⟨29, 28, .ro, 0⟩, ⟨15, 12, .ro, 0⟩]⟩,
  ⟨0xB0028, 4, 1, [⟨2, 2, .w1c, 0⟩, ⟨1, 1, .w1c, 0⟩, ⟨0, 0, .w1c, 0⟩]⟩,
  ⟨0xB002C, 4, 1, [⟨2, 0, .rwh, 0⟩]⟩]

/-- The registers of the upd block. -/
def updTable : List RegSpec :=
  updTable0 ++ updTable1

/-- Registers of the ln block, part 0. -/
def lnTable0 : List RegSpec := [
  ⟨0x100, 4, 1, [⟨31, 24, .rw, 0x80⟩, ⟨23, 16, .rw, 0x80⟩, ⟨15, 8, .rw, 6⟩, ⟨0, 0, .rw, 0⟩]⟩,
  ⟨0x104, 4, 1, [⟨26, 16, .rw, 0x200⟩, ⟨9, 0, .rw, 0x64⟩]⟩,
  ⟨0x108, 4, 1, [⟨25, 16, .rw, 0x64⟩, ⟨7, 0, .rw, 0x14⟩]⟩,
  ⟨0x10C, 4, 1, [⟨31, 20, .rw, 0x708⟩, ⟨17, 9, .rw, 0x50⟩, ⟨7, 0, .rw, 0x28⟩]⟩,
  ⟨0x110, 4, 1, [⟨26, 16, .rw, 0⟩, ⟨11, 0, .rw, 0x5e6⟩]⟩,
  ⟨0x114, 4, 14, [⟨31, 0, .rw, 0⟩]⟩,
  ⟨0x178, 4, 1, [⟨31, 16, .rw, 0xa00⟩, ⟨15, 0, .rw, 0xb40⟩]⟩,
  ⟨0x17C, 4, 1, [⟨31, 24, .rw, 2⟩, ⟨23, 16, .rw, 4⟩, ⟨15, 8, .rw, 8⟩, ⟨7, 0, .rw, 8⟩]⟩,
  ⟨0x180, 4, 1, [⟨31, 16, .rw, 0xbb8⟩, ⟨15, 0, .rw, 0x1b58⟩]⟩,
  ⟨0x184, 4, 1, [⟨31, 24, .rw, 0x40⟩, ⟨23, 16, .rw, 4⟩, ⟨15, 8, .rw, 2⟩, ⟨7, 0, .rw, 1⟩]⟩,
  ⟨0x188, 4, 1, [⟨31, 23, .rw, 0x80⟩, ⟨22, 14, .rw, 0x180⟩, ⟨13, 8, .rw, 0xa⟩, ⟨5, 0, .rw, 8⟩]⟩,
  ⟨0x18C, 4, 1, [⟨31, 12, .rw, 0⟩, ⟨0, 0, .rw, 0⟩]⟩,
  ⟨0x190, 4, 1, [⟨31, 0, .rw, 0⟩]⟩,
  ⟨0x194, 4, 1, [⟨8, 8, .rw, 0⟩, ⟨7, 4, .rw, 0⟩, ⟨3, 0, .rw, 0⟩]⟩,
  ⟨0x198, 4, 1, [⟨31, 0, .ro, 0⟩]⟩,
  ⟨0x19C, 4, 1, [⟨29, 16, .rw, 0⟩, ⟨15, 1, .ro, 0⟩]⟩,
  ⟨0x1D8, 4, 1, [⟨31, 16, .rw, 0⟩, ⟨15, 12, .rw, 0xf⟩]⟩,
  ⟨0x14C, 4, 1, [⟨31, 0, .cnt0, 0⟩]⟩,
  ⟨0x150, 4, 1, [⟨31, 0, .cnt0, 0⟩]⟩,
  ⟨0x154, 4, 1, [⟨31, 0, .cnt0, 0⟩]⟩]

/-- Registers of the ln block, part 1. -/
def lnTable1 : List RegSpec := [
  ⟨0x158, 4, 1, [⟨31, 0, .cnt0, 0⟩]⟩,
  ⟨0x15C, 4, 1, [⟨31, 0, .cnt0, 0⟩]⟩,
  ⟨0x160, 4, 1, [⟨31, 0, .cnt0, 0⟩]⟩,
  ⟨0x164, 4, 1, [⟨31, 0, .cnt0, 0⟩]⟩,
  ⟨0x168, 4, 1, [⟨31, 0, .cnt0, 0⟩]⟩,
  ⟨0x16C, 4, 1, [⟨31, 0, .cnt0, 0⟩]⟩,
  ⟨0x170, 4, 1, [⟨31, 0, .cnt0, 0⟩]⟩,
  ⟨0x174, 4, 1, [⟨31, 0, .cnt0, 0⟩]⟩,
  ⟨0x1A0, 4, 1, [⟨31, 0, .cnt0, 0⟩]⟩,
  ⟨0x1A4, 4, 1, [⟨31, 0, .cnt0, 0⟩]⟩,
  ⟨0x1A8, 4, 1, [⟨31, 0, .cnt0, 0⟩]⟩,
  ⟨0x1AC, 4, 1, [⟨31, 0, .cnt0, 0⟩]⟩,
  ⟨0x1B0, 4, 1, [⟨31, 0, .cnt0, 0⟩]⟩,
  ⟨0x1B4, 4, 1, [⟨31, 0, .cnt0, 0⟩]⟩,
  ⟨0x1B8, 4, 1, [⟨31, 0, .cnt0, 0⟩]⟩,
  ⟨0x1BC, 4, 1, [⟨31, 0, .cnt0, 0⟩]⟩,
  ⟨0x1C0, 4, 1, [⟨31, 0, .cnt0, 0⟩]⟩,
  ⟨0x1C4, 4, 1, [⟨31, 0, .cnt0, 0⟩]⟩,
  ⟨0x1C8, 4, 1, [⟨31, 0, .cnt0, 0⟩]⟩,
  ⟨0x1CC, 4, 1, [⟨31, 0, .cnt0, 0⟩]⟩]

/-- Registers of the ln block, part 2. -/
def lnTable2 : List RegSpec := [
  ⟨0x1D0, 4, 1, [⟨31, 0, .cnt0, 0⟩]⟩,
  ⟨0x1D4, 4, 1, [⟨31, 0, .cnt0, 0⟩]⟩,
  ⟨0x1DC, 4, 1, [⟨31, 0, .cnt0, 0⟩]⟩,
  ⟨0x1E0, 4, 1, [⟨31, 0, .cnt0, 0⟩]⟩,
  ⟨0x1E4, 4, 1, [⟨31, 0, .cnt0, 0⟩]⟩]

/-- The registers of the ln block. -/
def lnTable : List RegSpec :=
  lnTable0 ++ lnTable1 ++ lnTable2

/-- Registers of the air block, part 0. -/
def airTable0 : List RegSpec := [
  ⟨0x100, 4, 1, [⟨31, 16, .rw, 0⟩, ⟨15, 12, .rw, 0⟩, ⟨11, 8, .rw, 0⟩, ⟨3, 3, .rw, 0⟩, ⟨2, 2, .rw, 1⟩, ⟨1, 1, .rw, 0⟩]⟩,
  ⟨0x104, 4, 1, [⟨28, 24, .rw, 0x14⟩, ⟨19, 16, .rw, 3⟩, ⟨13, 8, .rw, 0x10⟩]⟩,
  ⟨0x108, 4, 1, [⟨21, 0, .rw, 0⟩]⟩,
  ⟨0x10C, 4, 1, [⟨27, 24, .rw, 4⟩, ⟨23, 20, .rw, 7⟩, ⟨19, 16, .rw, 0⟩, ⟨15, 12, .rw, 2⟩, ⟨11, 8, .rw, 3⟩, ⟨7, 4, .rw, 4⟩, ⟨3, 0, .rw, 3⟩]⟩,
  ⟨0x110, 4, 1, [⟨31, 20, .rw, 0x400⟩, ⟨19, 8, .rw, 0xa0⟩, ⟨7, 0, .rw, 0xce⟩]⟩,
  ⟨0x114, 4, 1, [⟨31, 16, .rw, 0x3e8⟩, ⟨15, 0, .rw, 0xbb8⟩]⟩,
  ⟨0x118, 4, 1, [⟨31, 20, .rw, 0x3e8⟩, ⟨19, 12, .rw, 0x1e⟩, ⟨11, 0, .rw, 0x7d0⟩]⟩,
  ⟨0x11C, 4, 1, [⟨27, 24, .rw, 0xc⟩, ⟨23, 16, .rw, 0x64⟩, ⟨15, 0, .rw, 0x1f4⟩]⟩,
  ⟨0x120, 4, 1, [⟨31, 16, .rw, 0x3c⟩, ⟨15, 0, .rw, 0x7d0⟩]⟩,
  ⟨0x124, 4, 1, [⟨31, 16, .rw, 0⟩, ⟨15, 12, .rw, 0xf⟩, ⟨7, 0, .rw, 8⟩]⟩,
  ⟨0x128, 4, 1, [⟨31, 12, .rw, 0⟩, ⟨0, 0, .rw, 0⟩]⟩,
  ⟨0x12C, 4, 1, [⟨31, 0, .rw, 0⟩]⟩,
  ⟨0x130, 4, 1, [⟨31, 12, .rw, 0⟩, ⟨0, 0, .rw, 0⟩]⟩,
  ⟨0x134, 4, 1, [⟨31, 0, .rw, 0⟩]⟩,
  ⟨0x138, 4, 1, [⟨31, 30, .ro, 0⟩, ⟨29, 28, .ro, 0⟩, ⟨27, 24, .ro, 0⟩, ⟨23, 0, .ro, 0⟩]⟩,
  ⟨0x13C, 4, 1, [⟨31, 30, .ro, 0⟩, ⟨29, 16, .ro, 0⟩, ⟨15, 0, .ro, 0⟩]⟩,
  ⟨0x140, 4, 1, [⟨13, 0, .rw, 0x3ffe⟩]⟩,
  ⟨0x144, 4, 1, [⟨31, 0, .ro, 0⟩]⟩,
  ⟨0x148, 4, 1, [⟨31, 0, .cnt0, 0⟩]⟩,
  ⟨0x14C, 4, 1, [⟨31, 0, .cnt0, 0⟩]⟩]

/-- Registers of the air block, part 1. -/
def airTable1 : List RegSpec := [
  ⟨0x150, 4, 1, [⟨31, 0, .cnt0, 0⟩]⟩,
  ⟨0x154, 4, 1, [⟨31, 0, .cnt0, 0⟩]⟩,
  ⟨0x158, 4, 1, [⟨31, 0, .cnt0, 0⟩]⟩,
  ⟨0x15C, 4, 1, [⟨31, 0, .cnt0, 0⟩]⟩,
  ⟨0x160, 4, 1, [⟨31, 0, .cnt0, 0⟩]⟩,
  ⟨0x164, 4, 1, [⟨31, 0, .cnt0, 0⟩]⟩,
  ⟨0x168, 4, 1, [⟨31, 0, .cnt0, 0⟩]⟩,
  ⟨0x16C, 4, 1, [⟨31, 0, .cnt0, 0⟩]⟩,
  ⟨0x170, 4, 1, [⟨31, 0, .cnt0, 0⟩]⟩,
  ⟨0x174, 4, 1, [⟨31, 0, .cnt0, 0⟩]⟩,
  ⟨0x178, 4, 1, [⟨31, 0, .cnt0, 0⟩]⟩,
  ⟨0x17C, 4, 1, [⟨31, 0, .cnt0, 0⟩]⟩,
  ⟨0x180, 4, 1, [⟨31, 0, .cnt0, 0⟩]⟩,
  ⟨0x184, 4, 1, [⟨31, 0, .cnt0, 0⟩]⟩,
  ⟨0x188, 4, 1, [⟨31, 0, .cnt0, 0⟩]⟩,
  ⟨0x18C, 4, 1, [⟨31, 0, .cnt0, 0⟩]⟩,
  ⟨0x190, 4, 1, [⟨31, 0, .cnt0, 0⟩]⟩,
  ⟨0x194, 4, 1, [⟨31, 0, .cnt0, 0⟩]⟩,
  ⟨0x198, 4, 1, [⟨31, 0, .cnt0, 0⟩]⟩,
  ⟨0x19C, 4, 1, [⟨31, 0, .cnt0, 0⟩]⟩]

/-- Registers of the air block, part 2. -/
def airTable2 : List RegSpec := [
  ⟨0x1A0, 4, 1, [⟨31, 0, .cnt0, 0⟩]⟩,
  ⟨0x1A4, 4, 1, [⟨31, 0, .cnt0, 0⟩]⟩,
  ⟨0x1A8, 4, 1, [⟨31, 0, .cnt0, 0⟩]⟩]

/-- The registers of the air block. -/
def airTable : List RegSpec :=
  airTable0 ++ airTable1 ++ airTable2

/-- Registers of the port block, part 0. -/
def portTable0 : List RegSpec := [
  ⟨0x0, 4, 1, [⟨31, 26, .ro, 0⟩, ⟨25, 24, .ro, 0⟩, ⟨21, 16, .ro, 0⟩, ⟨7, 0, .ro, 1⟩]⟩,
  ⟨0x4, 4, 1, [⟨31, 31, .rw, 0⟩, ⟨30, 30, .rw, 0⟩, ⟨29, 29, .rw, 0⟩, ⟨28, 28, .rw, 0⟩, ⟨27, 27, .w1s, 0⟩, ⟨26, 25, .rw, 0⟩, ⟨24, 24, .w1s, 0⟩, ⟨23, 23, .w1s, 0⟩, ⟨15, 8, .rw, 0x18⟩]⟩,
  ⟨0x8, 4, 1, [⟨31, 24, .ro, 0⟩, ⟨23, 23, .ro, 0⟩, ⟨22, 21, .ro, 0⟩, ⟨20, 20, .ro, 0⟩, ⟨19, 19, .ro, 0⟩, ⟨17, 12, .ro, 0⟩, ⟨11, 6, .ro, 0⟩, ⟨5, 0, .ro, 0⟩]⟩,
  ⟨0xC, 4, 1, [⟨31, 24, .ro, 0⟩, ⟨23, 16, .ro, 0⟩, ⟨11, 8, .ro, 0⟩, ⟨7, 7, .ro, 0⟩, ⟨2, 0, .ro, 0⟩]⟩,
  ⟨0x10, 4, 1, [⟨11, 11, .w1c, 0⟩, ⟨10, 10, .w1c, 0⟩, ⟨9, 9, .w1c, 0⟩, ⟨8, 8, .w1c, 0⟩, ⟨7, 7, .w1c, 0⟩, ⟨6, 6, .w1c, 0⟩, ⟨5, 5, .w1c, 0⟩, ⟨4, 4, .w1c, 0⟩, ⟨3, 3, .w1c, 0⟩, ⟨2, 2, .w1c, 0⟩, ⟨1, 1, .w1c, 0⟩, ⟨0, 0, .w1c, 0⟩]⟩,
  ⟨0x14, 4, 1, [⟨11, 0, .rw, 0⟩]⟩,
  ⟨0x18, 4, 1, [⟨31, 0, .ro, 0⟩]⟩,
  ⟨0x1C, 4, 1, [⟨31, 0, .wo, 0⟩]⟩,
  ⟨0x20, 4, 1, [⟨31, 24, .ro, 0⟩, ⟨23, 16, .ro, 0⟩, ⟨15, 15, .ro, 0⟩, ⟨13, 0, .ro, 0⟩]⟩,
  ⟨0x24, 4, 1, [⟨31, 16, .ro, 0⟩, ⟨15, 0, .ro, 0⟩]⟩,
  ⟨0x28, 4, 1, [⟨31, 8, .rw, 0⟩, ⟨3, 0, .rw, 4⟩]⟩,
  ⟨0x2C, 4, 1, [⟨27, 16, .rw, 0⟩, ⟨11, 0, .ro, 0⟩]⟩]

/-- The registers of the port block. -/
def portTable : List RegSpec :=
  portTable0

/-- Registers of the cas block, part 0. -/
def casTable0 : List RegSpec := [
  ⟨0x100, 4, 1, [⟨31, 20, .rw, 0⟩, ⟨19, 16, .rw, 3⟩, ⟨15, 0, .rw, 0x32⟩]⟩,
  ⟨0x104, 4, 1, [⟨31, 30, .ro, 0⟩, ⟨27, 16, .ro, 0⟩, ⟨11, 0, .ro, 0⟩]⟩,
  ⟨0x108, 4, 1, [⟨31, 16, .rw, 0x64⟩, ⟨7, 0, .rw, 0x10⟩]⟩,
  ⟨0x110, 4, 1, [⟨31, 0, .cnt0, 0⟩]⟩,
  ⟨0x114, 4, 1, [⟨31, 0, .cnt0, 0⟩]⟩,
  ⟨0x118, 4, 1, [⟨31, 0, .cnt0, 0⟩]⟩,
  ⟨0x11C, 4, 1, [⟨31, 0, .cnt0, 0⟩]⟩,
  ⟨0x120, 4, 1, [⟨31, 0, .cnt0, 0⟩]⟩,
  ⟨0x124, 4, 1, [⟨31, 0, .cnt0, 0⟩]⟩,
  ⟨0x128, 4, 1, [⟨31, 0, .cnt0, 0⟩]⟩,
  ⟨0x12C, 4, 1, [⟨31, 0, .cnt0, 0⟩]⟩]

/-- The registers of the cas block. -/
def casTable : List RegSpec :=
  casTable0

/-- Registers of the ink block, part 0. -/
def inkTable0 : List RegSpec := [
  ⟨0x60000, 4, 1, [⟨31, 31, .rw, 0⟩, ⟨30, 30, .rw, 0⟩, ⟨29, 29, .rw, 1⟩, ⟨13, 8, .rw, 0x10⟩, ⟨7, 4, .rw, 4⟩]⟩,
  ⟨0x60004, 4, 1, [⟨31, 31, .ro, 0⟩, ⟨30, 30, .ro, 0⟩, ⟨29, 29, .ro, 0⟩, ⟨28, 28, .ro, 0⟩, ⟨27, 27, .ro, 0⟩, ⟨26, 26, .ro, 0⟩, ⟨25, 25, .ro, 0⟩, ⟨12, 0, .ro, 0⟩]⟩,
  ⟨0x60008, 4, 1, [⟨17, 0, .ro, 0⟩]⟩,
  ⟨0x60010, 4, 1, [⟨31, 31, .w1s, 0⟩, ⟨30, 30, .ro, 0⟩, ⟨26, 24, .rw, 0⟩, ⟨19, 0, .rw, 0⟩]⟩,
  ⟨0x60014, 4, 1, [⟨31, 31, .w1c, 0⟩, ⟨30, 30, .w1c, 0⟩, ⟨3, 0, .ro, 0⟩]⟩,
  ⟨0x60018, 4, 1, [⟨31, 12, .rw, 0⟩]⟩,
  ⟨0x6001C, 4, 1, [⟨31, 0, .rw, 0⟩]⟩,
  ⟨0x60020, 4, 1, [⟨31, 12, .rw, 0⟩]⟩,
  ⟨0x60024, 4, 1, [⟨31, 0, .rw, 0⟩]⟩,
  ⟨0x60028, 4, 1, [⟨31, 0, .rwh, 0⟩]⟩,
  ⟨0x6002C, 4, 1, [⟨31, 0, .rwh, 0⟩]⟩,
  ⟨0x60030, 4, 1, [⟨31, 31, .w1s, 0⟩, ⟨30, 30, .ro, 0⟩]⟩,
  ⟨0x60034, 4, 1, [⟨31, 0, .cnt0, 0⟩]⟩,
  ⟨0x60038, 4, 1, [⟨31, 0, .cnt0, 0⟩]⟩,
  ⟨0x6003C, 4, 1, [⟨31, 0, .ro, 0⟩]⟩,
  ⟨0x60040, 4, 8, [⟨31, 0, .rw, 0⟩]⟩,
  ⟨0x60060, 4, 8, [⟨31, 0, .rw, 0⟩]⟩,
  ⟨0x60080, 4, 1, [⟨31, 13, .rw, 0⟩, ⟨3, 0, .rw, 0xa⟩]⟩,
  ⟨0x60084, 4, 1, [⟨31, 0, .rw, 0⟩]⟩,
  ⟨0x60088, 4, 1, [⟨30, 16, .ro, 0⟩, ⟨14, 0, .rw, 0⟩]⟩]

/-- Registers of the ink block, part 1. -/
def inkTable1 : List RegSpec := [
  ⟨0x60090, 4, 1, [⟨31, 12, .rw, 0⟩, ⟨3, 0, .rw, 8⟩]⟩,
  ⟨0x60094, 4, 1, [⟨31, 0, .rw, 0⟩]⟩,
  ⟨0x60098, 4, 1, [⟨27, 16, .rw, 0⟩, ⟨11, 0, .ro, 0⟩]⟩,
  ⟨0x600C0, 4, 16, [⟨31, 28, .rw, 1⟩, ⟨23, 16, .cnt0, 0⟩, ⟨10, 0, .ro, 0⟩]⟩,
  ⟨0x60800, 4, 1, [⟨31, 31, .rw, 0⟩, ⟨30, 30, .rw, 1⟩, ⟨15, 8, .rw, 2⟩]⟩,
  ⟨0x60804, 4, 1, [⟨31, 31, .ro, 1⟩, ⟨8, 0, .ro, 0⟩]⟩,
  ⟨0x60808, 4, 1, [⟨31, 12, .rw, 0⟩]⟩,
  ⟨0x6080C, 4, 1, [⟨31, 0, .rw, 0⟩]⟩,
  ⟨0x60810, 4, 1, [⟨31, 12, .rw, 0⟩]⟩,
  ⟨0x60814, 4, 1, [⟨31, 0, .rw, 0⟩]⟩,
  ⟨0x60818, 4, 1, [⟨31, 16, .rw, 0⟩]⟩,
  ⟨0x6081C, 4, 1, [⟨31, 0, .rw, 0⟩]⟩,
  ⟨0x60820, 4, 1, [⟨31, 31, .w1s, 0⟩, ⟨30, 30, .ro, 0⟩, ⟨29, 29, .w1c, 0⟩, ⟨15, 8, .rw, 0⟩, ⟨4, 0, .rw, 0⟩]⟩,
  ⟨0x60824, 4, 1, [⟨31, 0, .rw, 0⟩]⟩,
  ⟨0x60100, 4, 1, [⟨31, 0, .cnt0, 0⟩]⟩,
  ⟨0x60104, 4, 1, [⟨31, 0, .cnt0, 0⟩]⟩,
  ⟨0x60108, 4, 1, [⟨31, 0, .cnt0, 0⟩]⟩,
  ⟨0x6010C, 4, 1, [⟨31, 0, .cnt0, 0⟩]⟩,
  ⟨0x60110, 4, 1, [⟨31, 0, .cnt0, 0⟩]⟩,
  ⟨0x60114, 4, 1, [⟨31, 0, .cnt0, 0⟩]⟩]

/-- Registers of the ink block, part 2. -/
def inkTable2 : List RegSpec := [
  ⟨0x60118, 4, 1, [⟨31, 0, .cnt0, 0⟩]⟩,
  ⟨0x6011C, 4, 1, [⟨31, 0, .cnt0, 0⟩]⟩,
  ⟨0x60120, 4, 1, [⟨31, 0, .cnt0, 0⟩]⟩,
  ⟨0x60124, 4, 1, [⟨31, 0, .cnt0, 0⟩]⟩,
  ⟨0x60128, 4, 1, [⟨31, 0, .cnt0, 0⟩]⟩,
  ⟨0x6012C, 4, 1, [⟨31, 0, .cnt0, 0⟩]⟩,
  ⟨0x60130, 4, 1, [⟨31, 0, .cnt0, 0⟩]⟩,
  ⟨0x60134, 4, 1, [⟨31, 0, .cnt0, 0⟩]⟩,
  ⟨0x60138, 4, 1, [⟨31, 0, .cnt0, 0⟩]⟩,
  ⟨0x6013C, 4, 1, [⟨31, 0, .cnt0, 0⟩]⟩,
  ⟨0x60140, 4, 1, [⟨31, 0, .cnt0, 0⟩]⟩,
  ⟨0x60144, 4, 1, [⟨31, 0, .cnt0, 0⟩]⟩,
  ⟨0x60148, 4, 1, [⟨31, 0, .cnt0, 0⟩]⟩,
  ⟨0x6014C, 4, 1, [⟨31, 0, .cnt0, 0⟩]⟩,
  ⟨0x60900, 4, 1, [⟨31, 0, .cnt0, 0⟩]⟩,
  ⟨0x60904, 4, 1, [⟨31, 0, .cnt0, 0⟩]⟩,
  ⟨0x60908, 4, 1, [⟨31, 0, .cnt0, 0⟩]⟩,
  ⟨0x6090C, 4, 1, [⟨31, 0, .cnt0, 0⟩]⟩,
  ⟨0x60910, 4, 1, [⟨31, 0, .cnt0, 0⟩]⟩,
  ⟨0x60914, 4, 1, [⟨31, 0, .cnt0, 0⟩]⟩]

/-- Registers of the ink block, part 3. -/
def inkTable3 : List RegSpec := [
  ⟨0x60918, 4, 1, [⟨31, 0, .cnt0, 0⟩]⟩,
  ⟨0x6091C, 4, 1, [⟨31, 0, .cnt0, 0⟩]⟩,
  ⟨0x60920, 4, 1, [⟨31, 0, .cnt0, 0⟩]⟩,
  ⟨0x60924, 4, 1, [⟨31, 0, .cnt0, 0⟩]⟩,
  ⟨0x60928, 4, 1, [⟨31, 0, .cnt0, 0⟩]⟩,
  ⟨0x6092C, 4, 1, [⟨31, 0, .cnt0, 0⟩]⟩,
  ⟨0x60930, 4, 1, [⟨31, 0, .cnt0, 0⟩]⟩,
  ⟨0x60934, 4, 1, [⟨31, 0, .cnt0, 0⟩]⟩,
  ⟨0x60938, 4, 1, [⟨31, 0, .cnt0, 0⟩]⟩,
  ⟨0x6093C, 4, 1, [⟨31, 0, .cnt0, 0⟩]⟩,
  ⟨0x60940, 4, 1, [⟨31, 0, .cnt0, 0⟩]⟩,
  ⟨0x60944, 4, 1, [⟨31, 0, .cnt0, 0⟩]⟩,
  ⟨0x60948, 4, 1, [⟨31, 0, .cnt0, 0⟩]⟩,
  ⟨0x6094C, 4, 1, [⟨31, 0, .cnt0, 0⟩]⟩,
  ⟨0x60950, 4, 1, [⟨31, 0, .cnt0, 0⟩]⟩,
  ⟨0x60954, 4, 1, [⟨31, 0, .cnt0, 0⟩]⟩,
  ⟨0x60958, 4, 1, [⟨31, 0, .cnt0, 0⟩]⟩]

/-- The registers of the ink block. -/
def inkTable : List RegSpec :=
  inkTable0 ++ inkTable1 ++ inkTable2 ++ inkTable3

/-- Registers of the drn block, part 0. -/
def drnTable0 : List RegSpec := [
  ⟨0x70000, 4, 1, [⟨31, 31, .rw, 0⟩]⟩,
  ⟨0x70004, 4, 1, [⟨31, 31, .ro, 1⟩, ⟨30, 30, .ro, 0⟩, ⟨29, 29, .ro, 0⟩, ⟨28, 28, .ro, 0⟩]⟩,
  ⟨0x70008, 4, 1, [⟨31, 24, .rw, 0xf⟩, ⟨23, 16, .rw, 0x1e⟩, ⟨15, 0, .rw, 0x7d0⟩]⟩,
  ⟨0x7000C, 4, 1, [⟨31, 16, .rw, 0x258⟩, ⟨15, 8, .rw, 0x78⟩, ⟨3, 0, .rw, 1⟩]⟩,
  ⟨0x70010, 4, 1, [⟨31, 0, .ro, 0⟩]⟩,
  ⟨0x70014, 4, 1, [⟨31, 0, .ro, 0⟩]⟩,
  ⟨0x70018, 4, 1, [⟨31, 0, .ro, 0⟩]⟩,
  ⟨0x7001C, 4, 1, [⟨31, 0, .ro, 0⟩]⟩,
  ⟨0x70020, 4, 1, [⟨31, 12, .rw, 0⟩]⟩,
  ⟨0x70024, 4, 1, [⟨31, 0, .rw, 0⟩]⟩,
  ⟨0x70028, 4, 1, [⟨31, 12, .rw, 0⟩]⟩,
  ⟨0x7002C, 4, 1, [⟨31, 0, .rw, 0⟩]⟩,
  ⟨0x70030, 4, 1, [⟨31, 16, .rw, 0x52⟩, ⟨15, 0, .rw, 0x800⟩]⟩,
  ⟨0x70034, 4, 1, [⟨31, 16, .rw, 0x8000⟩, ⟨15, 0, .rw, 0x1f4⟩]⟩,
  ⟨0x70038, 4, 1, [⟨31, 0, .ro, 0⟩]⟩,
  ⟨0x7003C, 4, 1, [⟨31, 0, .ro, 0⟩]⟩,
  ⟨0x70040, 4, 1, [⟨5, 5, .w1c, 0⟩, ⟨4, 4, .w1c, 0⟩, ⟨3, 3, .w1c, 0⟩, ⟨2, 2, .w1c, 0⟩, ⟨1, 1, .w1c, 0⟩, ⟨0, 0, .w1c, 0⟩]⟩,
  ⟨0x70044, 4, 1, [⟨5, 0, .rw, 0⟩]⟩,
  ⟨0x70048, 4, 1, [⟨31, 30, .ro, 0⟩, ⟨15, 0, .ro, 0⟩]⟩,
  ⟨0x70100, 4, 1, [⟨31, 0, .cnt0, 0⟩]⟩]

/-- Registers of the drn block, part 1. -/
def drnTable1 : List RegSpec := [
  ⟨0x70104, 4, 1, [⟨31, 0, .cnt0, 0⟩]⟩,
  ⟨0x70108, 4, 1, [⟨31, 0, .cnt0, 0⟩]⟩,
  ⟨0x7010C, 4, 1, [⟨31, 0, .cnt0, 0⟩]⟩,
  ⟨0x70110, 4, 1, [⟨31, 0, .cnt0, 0⟩]⟩,
  ⟨0x70114, 4, 1, [⟨31, 0, .cnt0, 0⟩]⟩,
  ⟨0x70118, 4, 1, [⟨31, 0, .cnt0, 0⟩]⟩,
  ⟨0x7011C, 4, 1, [⟨31, 0, .cnt0, 0⟩]⟩,
  ⟨0x70120, 4, 1, [⟨31, 0, .cnt0, 0⟩]⟩,
  ⟨0x70124, 4, 1, [⟨31, 0, .cnt0, 0⟩]⟩,
  ⟨0x70128, 4, 1, [⟨31, 0, .cnt0, 0⟩]⟩]

/-- The registers of the drn block. -/
def drnTable : List RegSpec :=
  drnTable0 ++ drnTable1

/-- Registers of the sto block, part 0. -/
def stoTable0 : List RegSpec := [
  ⟨0x90000, 4, 1, [⟨31, 31, .rwh, 0⟩, ⟨30, 30, .rw, 0⟩]⟩,
  ⟨0x90004, 4, 1, [⟨31, 28, .ro, 0⟩, ⟨27, 27, .ro, 0⟩, ⟨26, 26, .ro, 0⟩, ⟨25, 25, .ro, 0⟩, ⟨24, 24, .ro, 0⟩, ⟨15, 0, .ro, 0⟩]⟩,
  ⟨0x90008, 4, 1, [⟨31, 30, .ro, 3⟩, ⟨27, 24, .ro, 8⟩, ⟨15, 0, .ro, 0x200⟩]⟩,
  ⟨0x9000C, 4, 1, [⟨31, 16, .ro, 0x800⟩, ⟨15, 0, .ro, 0x400⟩]⟩,
  ⟨0x90010, 4, 1, [⟨31, 30, .ro, 0⟩, ⟨29, 28, .ro, 0⟩, ⟨27, 26, .ro, 0⟩, ⟨25, 24, .ro, 0⟩, ⟨23, 22, .ro, 0⟩, ⟨21, 20, .ro, 0⟩, ⟨19, 18, .ro, 0⟩, ⟨17, 16, .ro, 0⟩, ⟨15, 14, .ro, 0⟩, ⟨13, 12, .ro, 0⟩, ⟨11, 10, .ro, 0⟩, ⟨9, 8, .ro, 0⟩, ⟨7, 6, .ro, 0⟩, ⟨5, 4, .ro, 0⟩, ⟨3, 2, .ro, 0⟩, ⟨1, 0, .ro, 0⟩]⟩,
  ⟨0x90014, 4, 1, [⟨31, 31, .rwhGo, 0⟩, ⟨30, 30, .rwhGo, 0⟩, ⟨29, 29, .rwh, 0⟩, ⟨10, 8, .ro, 0⟩, ⟨7, 4, .ro, 0⟩, ⟨3, 0, .ro, 0⟩]⟩,
  ⟨0x90018, 4, 1, [⟨19, 0, .ro, 0⟩]⟩,
  ⟨0x9001C, 4, 1, [⟨31, 24, .rw, 8⟩, ⟨23, 16, .rw, 0x64⟩, ⟨15, 0, .ro, 0⟩]⟩,
  ⟨0x90020, 8, 5, [⟨19, 0, .rwh, 0⟩]⟩,
  ⟨0x90024, 8, 5, [⟨19, 0, .rwh, 0⟩]⟩,
  ⟨0x90048, 4, 1, [⟨31, 24, .rw, 0x10⟩, ⟨23, 12, .rw, 0x12c⟩, ⟨0, 0, .w1s, 0⟩]⟩,
  ⟨0x9004C, 4, 1, [⟨31, 24, .rw, 0x18⟩, ⟨23, 16, .rw, 0x28⟩, ⟨15, 8, .rw, 8⟩, ⟨7, 0, .rw, 0x28⟩]⟩,
  ⟨0x90050, 4, 1, [⟨31, 24, .rw, 0x10⟩, ⟨23, 16, .rw, 1⟩, ⟨15, 8, .rw, 2⟩]⟩,
  ⟨0x90054, 4, 1, [⟨31, 16, .rw, 0xc8⟩, ⟨15, 0, .ro, 0⟩]⟩,
  ⟨0x90058, 4, 1, [⟨31, 24, .rw, 8⟩, ⟨23, 16, .rw, 0x4b⟩, ⟨9, 0, .ro, 0⟩]⟩,
  ⟨0x9005C, 4, 1, [⟨31, 16, .ro, 0⟩, ⟨15, 0, .ro, 0⟩]⟩,
  ⟨0x90060, 4, 1, [⟨31, 0, .ro, 0⟩]⟩,
  ⟨0x90064, 4, 1, [⟨31, 0, .rw, 0⟩]⟩,
  ⟨0x90068, 4, 1, [⟨31, 20, .rw, 0⟩]⟩,
  ⟨0x9006C, 4, 1, [⟨31, 0, .rw, 0⟩]⟩]

/-- Registers of the sto block, part 1. -/
def stoTable1 : List RegSpec := [
  ⟨0x90070, 12, 2, [⟨31, 12, .rwhRing0, 0⟩, ⟨3, 0, .rwhRing0, 6⟩]⟩,
  ⟨0x90074, 12, 2, [⟨31, 0, .rwhRing0, 0⟩]⟩,
  ⟨0x90078, 12, 2, [⟨27, 16, .rwhRing0, 0⟩, ⟨11, 0, .ro, 0⟩]⟩,
  ⟨0x90088, 4, 1, [⟨7, 7, .w1c, 0⟩, ⟨6, 6, .w1c, 0⟩, ⟨5, 5, .w1c, 0⟩, ⟨4, 4, .w1c, 0⟩, ⟨3, 3, .w1c, 0⟩, ⟨2, 2, .w1c, 0⟩, ⟨1, 1, .w1c, 0⟩, ⟨0, 0, .w1c, 0⟩]⟩,
  ⟨0x9008C, 4, 1, [⟨7, 0, .rw, 0⟩]⟩,
  ⟨0x90100, 4, 1, [⟨31, 0, .cnt0, 0⟩]⟩,
  ⟨0x90104, 4, 1, [⟨31, 0, .cnt0, 0⟩]⟩,
  ⟨0x90108, 4, 1, [⟨31, 0, .cnt0, 0⟩]⟩,
  ⟨0x9010C, 4, 1, [⟨31, 0, .cnt0, 0⟩]⟩,
  ⟨0x90110, 4, 1, [⟨31, 0, .cnt0, 0⟩]⟩,
  ⟨0x90114, 4, 1, [⟨31, 0, .cnt0, 0⟩]⟩,
  ⟨0x90118, 4, 1, [⟨31, 0, .cnt0, 0⟩]⟩,
  ⟨0x9011C, 4, 1, [⟨31, 0, .cnt0, 0⟩]⟩,
  ⟨0x90120, 4, 1, [⟨31, 0, .cnt0, 0⟩]⟩,
  ⟨0x90124, 4, 1, [⟨31, 0, .cnt0, 0⟩]⟩,
  ⟨0x90128, 4, 1, [⟨31, 0, .cnt0, 0⟩]⟩,
  ⟨0x9012C, 4, 1, [⟨31, 0, .cnt0, 0⟩]⟩,
  ⟨0x90130, 4, 1, [⟨31, 0, .cnt0, 0⟩]⟩,
  ⟨0x90134, 4, 1, [⟨31, 0, .cnt0, 0⟩]⟩,
  ⟨0x90138, 4, 1, [⟨31, 0, .cnt0, 0⟩]⟩]

/-- Registers of the sto block, part 2. -/
def stoTable2 : List RegSpec := [
  ⟨0x9013C, 4, 1, [⟨31, 0, .cnt0, 0⟩]⟩,
  ⟨0x90140, 4, 1, [⟨31, 0, .cnt0, 0⟩]⟩,
  ⟨0x90144, 4, 1, [⟨31, 0, .cnt0, 0⟩]⟩]

/-- The registers of the sto block. -/
def stoTable : List RegSpec :=
  stoTable0 ++ stoTable1 ++ stoTable2

/-- Registers of the tot block, part 0. -/
def totTable0 : List RegSpec := [
  ⟨0x80000, 4, 1, [⟨31, 31, .rwh, 0⟩]⟩,
  ⟨0x80004, 4, 1, [⟨31, 31, .ro, 0⟩, ⟨30, 30, .ro, 0⟩, ⟨29, 29, .ro, 0⟩, ⟨28, 28, .ro, 0⟩, ⟨27, 27, .ro, 0⟩, ⟨26, 26, .ro, 0⟩, ⟨22, 16, .ro, 0⟩]⟩,
  ⟨0x80008, 4, 1, [⟨31, 31, .rwhGo, 0⟩, ⟨30, 30, .rwhGo, 0⟩, ⟨29, 29, .rwlGo, 0⟩, ⟨15, 0, .rwh, 0xe10⟩]⟩,
  ⟨0x8000C, 4, 1, [⟨31, 27, .ro, 0⟩, ⟨26, 16, .ro, 0⟩, ⟨15, 12, .ro, 0⟩, ⟨11, 0, .ro, 0⟩]⟩,
  ⟨0x80010, 4, 1, [⟨31, 31, .rw, 0⟩, ⟨4, 0, .rw, 0⟩]⟩,
  ⟨0x80014, 4, 1, [⟨31, 0, .rwl, 0⟩]⟩,
  ⟨0x80018, 4, 1, [⟨31, 31, .rwh, 0⟩, ⟨30, 30, .ro, 0⟩, ⟨15, 8, .rwh, 1⟩, ⟨7, 0, .rwh, 0xf⟩]⟩,
  ⟨0x8001C, 4, 1, [⟨31, 31, .rwhGo, 0⟩, ⟨15, 0, .ro, 0⟩]⟩,
  ⟨0x80020, 4, 1, [⟨31, 31, .w1s, 0⟩, ⟨8, 8, .rw, 0⟩, ⟨5, 0, .rw, 0⟩]⟩,
  ⟨0x80024, 4, 1, [⟨31, 0, .ro, 0⟩]⟩,
  ⟨0x80028, 4, 1, [⟨31, 14, .rwh, 0⟩]⟩,
  ⟨0x8002C, 4, 1, [⟨31, 0, .rwh, 0⟩]⟩,
  ⟨0x80030, 4, 1, [⟨31, 31, .rwhGo, 0⟩, ⟨30, 30, .rwhGo, 0⟩, ⟨29, 29, .ro, 0⟩, ⟨23, 20, .ro, 0⟩]⟩,
  ⟨0x80034, 4, 1, [⟨13, 12, .ro, 0⟩, ⟨11, 11, .ro, 0⟩, ⟨7, 3, .ro, 0⟩, ⟨2, 0, .ro, 0⟩]⟩,
  ⟨0x80038, 4, 1, [⟨31, 0, .ro, 0⟩]⟩,
  ⟨0x8003C, 4, 1, [⟨31, 31, .ro, 0⟩]⟩,
  ⟨0x80040, 4, 16, [⟨31, 0, .ro, 0⟩]⟩,
  ⟨0x80080, 4, 1, [⟨7, 7, .w1c, 0⟩, ⟨6, 6, .w1c, 0⟩, ⟨5, 5, .w1c, 0⟩, ⟨4, 4, .w1c, 0⟩, ⟨3, 3, .w1c, 0⟩, ⟨2, 2, .w1c, 0⟩, ⟨1, 1, .w1c, 0⟩, ⟨0, 0, .w1c, 0⟩]⟩,
  ⟨0x80084, 4, 1, [⟨7, 0, .rw, 0⟩]⟩,
  ⟨0x80088, 4, 1, [⟨31, 0, .ro, 0⟩]⟩]

/-- Registers of the tot block, part 1. -/
def totTable1 : List RegSpec := [
  ⟨0x8008C, 4, 1, [⟨31, 0, .ro, 0⟩]⟩,
  ⟨0x80100, 4, 1, [⟨31, 0, .ro, 0⟩]⟩,
  ⟨0x80104, 4, 1, [⟨31, 0, .ro, 0⟩]⟩,
  ⟨0x80108, 4, 1, [⟨31, 0, .ro, 0⟩]⟩,
  ⟨0x8010C, 4, 1, [⟨31, 0, .ro, 0⟩]⟩,
  ⟨0x80110, 4, 1, [⟨31, 0, .ro, 0⟩]⟩,
  ⟨0x80114, 4, 1, [⟨31, 0, .ro, 0⟩]⟩,
  ⟨0x80118, 4, 1, [⟨31, 0, .ro, 0⟩]⟩]

/-- The registers of the tot block. -/
def totTable : List RegSpec :=
  totTable0 ++ totTable1

/-- Registers of the tu block, part 0. -/
def tuTable0 : List RegSpec := [
  ⟨0x20000, 4, 1, [⟨31, 31, .w1s, 0⟩, ⟨30, 30, .rws, 0⟩, ⟨29, 29, .rws, 1⟩, ⟨15, 8, .rws, 0⟩]⟩,
  ⟨0x20004, 4, 1, [⟨31, 31, .ro, 0⟩, ⟨30, 28, .ro, 0⟩, ⟨27, 27, .ro, 0⟩, ⟨26, 26, .ro, 0⟩, ⟨25, 25, .ro, 0⟩]⟩,
  ⟨0x20008, 4, 1, [⟨31, 0, .ro, 0⟩]⟩,
  ⟨0x2000C, 4, 1, [⟨29, 0, .rw, 0⟩]⟩,
  ⟨0x20010, 4, 1, [⟨31, 0, .rw, 0⟩]⟩,
  ⟨0x20014, 4, 1, [⟨15, 0, .rw, 0⟩]⟩,
  ⟨0x20018, 4, 1, [⟨31, 16, .rws, 0x25⟩, ⟨15, 0, .rws, 0x25⟩]⟩,
  ⟨0x2001C, 4, 1, [⟨31, 0, .rws, 0⟩]⟩,
  ⟨0x20030, 4, 1, [⟨31, 30, .rws, 0⟩, ⟨29, 29, .rws, 1⟩, ⟨27, 20, .rws, 0x64⟩, ⟨19, 10, .rws, 0x3e8⟩, ⟨9, 0, .rws, 0x3e8⟩]⟩,
  ⟨0x20034, 4, 1, [⟨31, 16, .rws, 0xb333⟩, ⟨15, 0, .rws, 0x4ccd⟩]⟩,
  ⟨0x20038, 4, 1, [⟨31, 0, .wo, 0⟩]⟩,
  ⟨0x2003C, 4, 1, [⟨31, 30, .ro, 0⟩, ⟨27, 24, .ro, 0⟩, ⟨23, 0, .ro, 0⟩]⟩,
  ⟨0x20040, 4, 1, [⟨31, 0, .ro, 0⟩]⟩,
  ⟨0x20044, 4, 1, [⟨31, 31, .rws, 0⟩, ⟨30, 30, .rws, 0⟩, ⟨29, 24, .rws, 8⟩, ⟨23, 16, .rws, 0x64⟩, ⟨15, 0, .rws, 0⟩]⟩,
  ⟨0x20050, 4, 2, [⟨31, 16, .rws, 0⟩, ⟨15, 0, .rws, 0⟩]⟩,
  ⟨0x20058, 4, 1, [⟨31, 26, .rw, 0⟩, ⟨25, 25, .w1s, 0⟩, ⟨23, 12, .rws, 0⟩, ⟨11, 0, .rws, 0⟩]⟩,
  ⟨0x20060, 8, 2, [⟨31, 16, .ro, 0⟩, ⟨15, 12, .ro, 0⟩, ⟨11, 11, .ro, 0⟩, ⟨7, 0, .ro, 0⟩]⟩,
  ⟨0x20064, 8, 2, [⟨31, 30, .ro, 0⟩, ⟨29, 0, .ro, 0⟩]⟩,
  ⟨0x20080, 4, 1, [⟨16, 16, .w1c, 0⟩, ⟨15, 15, .w1c, 0⟩, ⟨14, 14, .w1c, 0⟩, ⟨13, 13, .w1c, 0⟩, ⟨12, 12, .w1c, 0⟩, ⟨11, 11, .w1c, 0⟩, ⟨10, 10, .w1c, 0⟩, ⟨9, 9, .w1c, 0⟩, ⟨8, 8, .w1c, 0⟩, ⟨7, 0, .w1c, 0⟩]⟩,
  ⟨0x20084, 4, 1, [⟨16, 0, .rw, 0⟩]⟩]

/-- Registers of the tu block, part 1. -/
def tuTable1 : List RegSpec := [
  ⟨0x20100, 16, 8, [⟨31, 0, .rw, 0⟩]⟩,
  ⟨0x20104, 16, 8, [⟨31, 0, .rw, 0⟩]⟩,
  ⟨0x20108, 16, 8, [⟨31, 31, .rw, 0⟩, ⟨30, 30, .rw, 0⟩, ⟨29, 28, .rw, 0⟩, ⟨15, 0, .rw, 0x40⟩]⟩,
  ⟨0x20180, 4, 1, [⟨31, 0, .cnt0, 0⟩]⟩,
  ⟨0x20184, 4, 1, [⟨31, 0, .cnt0, 0⟩]⟩,
  ⟨0x20188, 4, 1, [⟨31, 0, .cnt0, 0⟩]⟩,
  ⟨0x2018C, 4, 1, [⟨31, 0, .cnt0, 0⟩]⟩,
  ⟨0x20190, 4, 1, [⟨31, 0, .cnt0, 0⟩]⟩,
  ⟨0x20194, 4, 1, [⟨31, 0, .cnt0, 0⟩]⟩]

/-- The registers of the tu block. -/
def tuTable : List RegSpec :=
  tuTable0 ++ tuTable1

/-- Registers of the upl block, part 0. -/
def uplTable0 : List RegSpec := [
  ⟨0xA0000, 4, 1, [⟨31, 31, .rw, 0⟩, ⟨8, 8, .rw, 1⟩, ⟨1, 1, .rw, 0⟩, ⟨0, 0, .rw, 0⟩]⟩,
  ⟨0xA0004, 4, 1, [⟨31, 31, .ro, 0⟩, ⟨30, 30, .ro, 0⟩, ⟨29, 29, .ro, 0⟩, ⟨28, 28, .ro, 0⟩, ⟨27, 27, .ro, 0⟩, ⟨26, 24, .ro, 0⟩, ⟨23, 20, .ro, 0⟩, ⟨19, 16, .ro, 0⟩, ⟨15, 15, .ro, 0⟩]⟩,
  ⟨0xA0010, 16, 2, [⟨31, 8, .rw, 0⟩, ⟨3, 0, .rw, 8⟩]⟩,
  ⟨0xA0018, 16, 2, [⟨31, 8, .rw, 0⟩, ⟨3, 0, .rw, 8⟩]⟩,
  ⟨0xA0014, 16, 2, [⟨27, 16, .rw, 0⟩, ⟨11, 0, .ro, 0⟩]⟩,
  ⟨0xA001C, 16, 2, [⟨27, 16, .rw, 0⟩, ⟨11, 0, .ro, 0⟩]⟩,
  ⟨0xA0040, 4, 1, [⟨31, 8, .rw, 0⟩]⟩,
  ⟨0xA0044, 4, 1, [⟨31, 31, .w1s, 0⟩, ⟨30, 30, .ro, 0⟩, ⟨26, 24, .rw, 0⟩, ⟨5, 0, .rw, 0⟩]⟩,
  ⟨0xA0048, 4, 1, [⟨31, 31, .w1c, 0⟩, ⟨30, 30, .w1c, 0⟩, ⟨3, 0, .ro, 0⟩]⟩,
  ⟨0xA004C, 4, 1, [⟨31, 31, .wo, 0⟩, ⟨29, 24, .wo, 0⟩, ⟨23, 0, .wo, 0⟩]⟩,
  ⟨0xA0050, 4, 2, [⟨31, 0, .w1c, 0⟩]⟩,
  ⟨0xA0060, 4, 8, [⟨31, 28, .rwh, 7⟩, ⟨27, 24, .rwh, 7⟩, ⟨23, 20, .rwh, 7⟩, ⟨19, 16, .rwh, 7⟩, ⟨15, 12, .rwh, 7⟩, ⟨11, 8, .rwh, 7⟩, ⟨7, 4, .rwh, 7⟩, ⟨3, 0, .rwh, 7⟩]⟩,
  ⟨0xA0080, 4, 1, [⟨31, 20, .rw, 0x800⟩, ⟨19, 4, .rw, 0x3e8⟩, ⟨0, 0, .rw, 1⟩]⟩,
  ⟨0xA0090, 8, 4, [⟨31, 31, .rwh, 0⟩, ⟨30, 27, .rwh, 0xf⟩, ⟨23, 22, .rwh, 0⟩, ⟨21, 16, .rwh, 0⟩, ⟨15, 8, .rwh, 8⟩]⟩,
  ⟨0xA0094, 8, 4, [⟨31, 0, .ro, 0⟩]⟩,
  ⟨0xA00C0, 4, 1, [⟨10, 10, .w1c, 0⟩, ⟨9, 9, .w1c, 0⟩, ⟨8, 8, .w1c, 0⟩, ⟨7, 7, .w1c, 0⟩, ⟨6, 6, .w1c, 0⟩, ⟨5, 5, .w1c, 0⟩, ⟨4, 4, .w1c, 0⟩, ⟨3, 3, .w1c, 0⟩, ⟨2, 2, .w1c, 0⟩, ⟨1, 1, .w1c, 0⟩, ⟨0, 0, .w1c, 0⟩]⟩,
  ⟨0xA00C4, 4, 1, [⟨10, 0, .rw, 0⟩]⟩,
  ⟨0xA0100, 4, 1, [⟨31, 0, .cnt0, 0⟩]⟩,
  ⟨0xA0104, 4, 1, [⟨31, 0, .cnt0, 0⟩]⟩,
  ⟨0xA0108, 4, 1, [⟨31, 0, .cnt0, 0⟩]⟩]

/-- Registers of the upl block, part 1. -/
def uplTable1 : List RegSpec := [
  ⟨0xA010C, 4, 1, [⟨31, 0, .cnt0, 0⟩]⟩,
  ⟨0xA0110, 4, 1, [⟨31, 0, .cnt0, 0⟩]⟩,
  ⟨0xA0114, 4, 1, [⟨31, 0, .cnt0, 0⟩]⟩,
  ⟨0xA0118, 4, 1, [⟨31, 0, .cnt0, 0⟩]⟩,
  ⟨0xA011C, 4, 1, [⟨31, 0, .cnt0, 0⟩]⟩,
  ⟨0xA0120, 4, 1, [⟨31, 0, .cnt0, 0⟩]⟩,
  ⟨0xA0124, 4, 1, [⟨31, 0, .cnt0, 0⟩]⟩,
  ⟨0xA0128, 4, 1, [⟨31, 0, .cnt0, 0⟩]⟩]

/-- The registers of the upl block. -/
def uplTable : List RegSpec :=
  uplTable0 ++ uplTable1

/-- Registers of the int block, part 0. -/
def intTable0 : List RegSpec := [
  ⟨0x10000, 4, 1, [⟨31, 31, .rwh, 0⟩]⟩,
  ⟨0x10004, 4, 1, [⟨8, 0, .rw, 0⟩]⟩,
  ⟨0x10008, 4, 1, [⟨31, 31, .rwLock, 0⟩, ⟨30, 30, .rwh, 0⟩, ⟨29, 29, .ro, 0⟩, ⟨28, 28, .ro, 0⟩, ⟨27, 24, .rwLock, 0⟩, ⟨20, 0, .rwLock, 0⟩]⟩,
  ⟨0x1000C, 4, 1, [⟨31, 31, .wo, 0⟩, ⟨8, 0, .wo, 0⟩]⟩,
  ⟨0x10040, 4, 16, [⟨31, 0, .ro, 0⟩]⟩,
  ⟨0x10080, 4, 16, [⟨31, 0, .ro, 0⟩]⟩,
  ⟨0x10100, 4, 32, [⟨31, 16, .ro, 0⟩, ⟨15, 0, .rw, 0⟩]⟩,
  ⟨0x10200, 16, 21, [⟨31, 31, .rw, 1⟩, ⟨30, 30, .w1s, 0⟩]⟩,
  ⟨0x10204, 16, 21, [⟨31, 31, .w1c, 0⟩, ⟨30, 30, .ro, 0⟩, ⟨29, 29, .ro, 0⟩, ⟨25, 16, .ro, 0x3ff⟩, ⟨15, 12, .ro, 0⟩, ⟨4, 0, .ro, 0⟩]⟩,
  ⟨0x10208, 16, 21, [⟨19, 16, .ro, 0⟩, ⟨9, 0, .ro, 0x3ff⟩]⟩,
  ⟨0x1020C, 16, 21, [⟨9, 0, .wo, 0⟩]⟩]

/-- The registers of the int block. -/
def intTable : List RegSpec :=
  intTable0

/-- Registers of the shu block, part 0. -/
def shuTable0 : List RegSpec := [
  ⟨0x30000, 4, 1, [⟨31, 31, .rw, 0⟩, ⟨30, 30, .w1s, 0⟩]⟩,
  ⟨0x30004, 4, 1, [⟨31, 31, .ro, 0⟩, ⟨13, 8, .ro, 0⟩, ⟨5, 0, .ro, 0⟩]⟩,
  ⟨0x30008, 4, 1, [⟨31, 0, .ro, 0⟩]⟩,
  ⟨0x3000C, 4, 1, [⟨31, 28, .ro, 0⟩, ⟨27, 27, .ro, 0⟩, ⟨26, 24, .ro, 0⟩, ⟨3, 0, .ro, 0⟩]⟩,
  ⟨0x30010, 4, 3, [⟨31, 0, .ro, 0⟩]⟩,
  ⟨0x3001C, 4, 1, [⟨31, 31, .wo, 0⟩, ⟨6, 0, .wo, 0⟩]⟩,
  ⟨0x30100, 32, 32, [⟨31, 31, .w1s, 0⟩, ⟨30, 30, .w1s, 0⟩, ⟨29, 29, .rw, 0⟩, ⟨23, 16, .rw, 0xff⟩]⟩,
  ⟨0x30104, 32, 32, [⟨31, 31, .w1c, 0⟩, ⟨30, 30, .ro, 0⟩, ⟨29, 29, .ro, 0⟩, ⟨28, 26, .ro, 0⟩, ⟨25, 23, .ro, 0⟩, ⟨15, 8, .ro, 0⟩]⟩,
  ⟨0x30108, 32, 32, [⟨31, 0, .rw, 0⟩]⟩,
  ⟨0x3010C, 32, 32, [⟨31, 0, .ro, 0⟩]⟩,
  ⟨0x30110, 32, 32, [⟨31, 0, .ro, 0⟩]⟩,
  ⟨0x30020, 4, 1, [⟨31, 0, .cnt0, 0⟩]⟩,
  ⟨0x30024, 4, 1, [⟨31, 0, .cnt0, 0⟩]⟩]

/-- The registers of the shu block. -/
def shuTable : List RegSpec :=
  shuTable0

/-- Registers of the ndl block, part 0. -/
def ndlTable0 : List RegSpec := [
  ⟨0x50000, 4, 1, [⟨31, 31, .rwhGo, 0⟩, ⟨30, 30, .ro, 0⟩, ⟨28, 25, .rwh, 0⟩, ⟨24, 16, .rwh, 0⟩, ⟨8, 0, .rwh, 0⟩]⟩,
  ⟨0x50004, 4, 1, [⟨31, 31, .w1c, 0⟩, ⟨30, 30, .w1c, 0⟩, ⟨29, 29, .ro, 0⟩, ⟨3, 0, .ro, 0⟩]⟩,
  ⟨0x50008, 4, 1, [⟨31, 0, .rwh, 0⟩]⟩,
  ⟨0x5000C, 4, 1, [⟨23, 0, .rwh, 0⟩]⟩,
  ⟨0x50010, 4, 1, [⟨31, 4, .rwh, 0⟩]⟩,
  ⟨0x50014, 4, 1, [⟨3, 0, .rwh, 0⟩]⟩,
  ⟨0x50018, 4, 1, [⟨16, 0, .rwh, 0⟩]⟩,
  ⟨0x5001C, 4, 1, [⟨3, 3, .w1c, 0⟩, ⟨2, 2, .w1c, 0⟩, ⟨1, 1, .w1c, 0⟩, ⟨0, 0, .w1c, 0⟩]⟩,
  ⟨0x50020, 4, 1, [⟨3, 0, .rwh, 0⟩]⟩,
  ⟨0x50040, 4, 16, [⟨31, 0, .rwh, 0⟩]⟩,
  ⟨0x50100, 4, 1, [⟨31, 31, .rwhGo, 0⟩, ⟨30, 30, .ro, 0⟩, ⟨27, 24, .rwh, 0⟩, ⟨9, 8, .rwh, 0⟩, ⟨7, 0, .rwh, 0⟩]⟩,
  ⟨0x50104, 4, 1, [⟨31, 31, .w1c, 0⟩, ⟨30, 30, .w1c, 0⟩, ⟨3, 0, .ro, 0⟩]⟩,
  ⟨0x50110, 4, 4, [⟨31, 0, .rwh, 0⟩]⟩,
  ⟨0x50800, 4, 4, [⟨31, 0, .ro, 0⟩]⟩,
  ⟨0x50810, 4, 1, [⟨31, 27, .ro, 0⟩, ⟨26, 24, .ro, 0⟩, ⟨23, 22, .ro, 0⟩, ⟨21, 20, .ro, 0⟩, ⟨19, 18, .ro, 0⟩, ⟨17, 17, .ro, 0⟩, ⟨16, 16, .ro, 0⟩]⟩,
  ⟨0x50814, 4, 1, [⟨31, 24, .ro, 0⟩, ⟨23, 16, .ro, 0⟩, ⟨15, 8, .ro, 0⟩, ⟨7, 0, .ro, 0⟩]⟩,
  ⟨0x50818, 4, 4, [⟨31, 0, .ro, 0⟩]⟩,
  ⟨0x50828, 4, 1, [⟨31, 0, .ro, 0⟩]⟩,
  ⟨0x5082C, 4, 1, [⟨31, 0, .ro, 0⟩]⟩,
  ⟨0x50830, 4, 1, [⟨9, 0, .ro, 0⟩]⟩]

/-- Registers of the ndl block, part 1. -/
def ndlTable1 : List RegSpec := [
  ⟨0x50840, 4, 8, [⟨31, 0, .ro, 0⟩]⟩]

/-- The registers of the ndl block. -/
def ndlTable : List RegSpec :=
  ndlTable0 ++ ndlTable1

/-- Registers of the smp block, part 0. -/
def smpTable0 : List RegSpec := [
  ⟨0x40000, 4, 1, [⟨31, 31, .rwh, 0⟩, ⟨30, 30, .rwh, 1⟩, ⟨29, 27, .rw, 1⟩, ⟨26, 24, .rw, 4⟩, ⟨23, 23, .rwhGo, 0⟩, ⟨15, 0, .rw, 0x3c⟩]⟩,
  ⟨0x40004, 4, 1, [⟨31, 31, .ro, 0⟩, ⟨30, 30, .ro, 0⟩, ⟨29, 29, .ro, 0⟩, ⟨27, 19, .ro, 0⟩, ⟨13, 0, .ro, 0⟩]⟩,
  ⟨0x40008, 4, 1, [⟨31, 0, .ro, 0⟩]⟩,
  ⟨0x4000C, 4, 1, [⟨31, 0, .ro, 0⟩]⟩,
  ⟨0x40010, 4, 1, [⟨15, 3, .rw, 0⟩, ⟨2, 0, .rw, 0⟩]⟩,
  ⟨0x40014, 4, 1, [⟨31, 0, .ro, 0⟩]⟩,
  ⟨0x40018, 4, 1, [⟨31, 31, .w1s, 0⟩, ⟨30, 28, .wo, 0⟩, ⟨15, 0, .wo, 0⟩]⟩,
  ⟨0x4001C, 4, 4, [⟨31, 0, .rw, 0⟩]⟩,
  ⟨0x40030, 4, 1, [⟨31, 0, .ro, 0⟩]⟩,
  ⟨0x40034, 4, 1, [⟨31, 24, .ro, 0⟩, ⟨23, 0, .ro, 0⟩]⟩,
  ⟨0x40038, 4, 1, [⟨6, 6, .w1c, 0⟩, ⟨5, 5, .w1c, 0⟩, ⟨4, 4, .w1c, 0⟩, ⟨3, 3, .w1c, 0⟩, ⟨2, 2, .w1c, 0⟩, ⟨1, 1, .w1c, 0⟩, ⟨0, 0, .w1c, 0⟩]⟩,
  ⟨0x4003C, 4, 1, [⟨6, 0, .rw, 0⟩]⟩,
  ⟨0x40100, 4, 1, [⟨31, 16, .rwh, 0x258⟩, ⟨15, 8, .rwh, 0x1e⟩, ⟨7, 0, .rwh, 0x1e⟩]⟩,
  ⟨0x40104, 4, 1, [⟨31, 28, .ro, 0⟩, ⟨27, 26, .ro, 0⟩, ⟨23, 16, .ro, 0⟩, ⟨15, 0, .ro, 0⟩]⟩,
  ⟨0x40108, 4, 1, [⟨31, 16, .wo, 0⟩, ⟨2, 0, .wo, 0⟩]⟩,
  ⟨0x40200, 4, 1, [⟨31, 31, .rwh, 0⟩, ⟨30, 30, .rwhGo, 0⟩, ⟨23, 16, .rwh, 2⟩, ⟨15, 0, .rwh, 0x3e8⟩]⟩,
  ⟨0x40204, 4, 1, [⟨31, 28, .ro, 0⟩, ⟨27, 27, .ro, 0⟩, ⟨26, 26, .ro, 0⟩, ⟨25, 25, .ro, 0⟩, ⟨24, 24, .ro, 0⟩, ⟨23, 23, .ro, 0⟩, ⟨22, 22, .ro, 0⟩, ⟨21, 20, .ro, 0⟩, ⟨19, 16, .ro, 0⟩, ⟨15, 0, .ro, 0⟩]⟩,
  ⟨0x40208, 4, 1, [⟨31, 0, .ro, 0⟩]⟩,
  ⟨0x4020C, 4, 1, [⟨31, 0, .rwh, 0⟩]⟩,
  ⟨0x40210, 4, 1, [⟨31, 0, .rwh, 0⟩]⟩]

/-- Registers of the smp block, part 1. -/
def smpTable1 : List RegSpec := [
  ⟨0x40214, 4, 1, [⟨31, 28, .ro, 0⟩, ⟨27, 0, .ro, 0⟩]⟩,
  ⟨0x40040, 4, 1, [⟨31, 0, .cnt0, 0⟩]⟩,
  ⟨0x40044, 4, 1, [⟨31, 0, .cnt0, 0⟩]⟩,
  ⟨0x40048, 4, 1, [⟨31, 0, .cnt0, 0⟩]⟩,
  ⟨0x4004C, 4, 1, [⟨31, 0, .cnt0, 0⟩]⟩,
  ⟨0x40050, 4, 1, [⟨31, 0, .cnt0, 0⟩]⟩,
  ⟨0x40054, 4, 1, [⟨31, 0, .cnt0, 0⟩]⟩,
  ⟨0x40058, 4, 1, [⟨31, 0, .cnt0, 0⟩]⟩,
  ⟨0x4005C, 4, 1, [⟨31, 0, .cnt0, 0⟩]⟩,
  ⟨0x40060, 4, 1, [⟨31, 0, .cnt0, 0⟩]⟩,
  ⟨0x40064, 4, 1, [⟨31, 0, .cnt0, 0⟩]⟩]

/-- The registers of the smp block. -/
def smpTable : List RegSpec :=
  smpTable0 ++ smpTable1

/-- The table and the offset in it of a key. -/
def tableOf (key : Nat) : List RegSpec × Nat :=
  if key < 0x100000 then
    match key / 0x10000 with
    | 0x0 => (chipTable, key)
    | 0x1 => (intTable, key)
    | 0x2 => (tuTable, key)
    | 0x3 => (shuTable, key)
    | 0x4 => (smpTable, key)
    | 0x5 => (ndlTable, key)
    | 0x6 => (inkTable, key)
    | 0x7 => (drnTable, key)
    | 0x8 => (totTable, key)
    | 0x9 => (stoTable, key)
    | 0xA => (uplTable, key)
    | _ => (updTable, key)
  else
    match (key - 0x100000) / 0x40000, key % 0x1000 with
    | 0, o => (portTable, o)
    | 0x40, o => (lnTable, o)
    | 0x80, o => (airTable, o)
    | 0xC0, o => (casTable, o)
    | _, _ => ([], key)

/-- Does a row hold the register at offset o? -/
def holds (r : RegSpec) (o : Nat) : Bool :=
  decide (r.base ≤ o) && decide ((o - r.base) % r.stride = 0) && decide ((o - r.base) / r.stride < r.count)

/-- The row of a key; none at an unassigned offset (R11). -/
def specOf (key : Nat) : Option RegSpec :=
  let t := tableOf key
  t.1.find? (fun r => holds r t.2)

/-- The word that a list of fields spells at reset. -/
def fieldsReset (l : List FieldSpec) : Nat :=
  l.foldl (fun a f => a + f.rst * 2 ^ f.lo) 0

/-- What a register reads after PONRST_N (R14). PORT_ID names its port, group and block (R187). -/
def resetOf (key : Nat) : Word :=
  match specOf key with
  | none => 0
  | some r =>
    if 0x100000 ≤ key ∧ key < 0x140000 ∧ key % 0x1000 = 0 then
      let n := (key - 0x100000) / 0x1000
      BitVec.ofNat 32 (fieldsReset r.fields + n * 2 ^ 26 + n / 16 * 2 ^ 24 + n % 16 * 2 ^ 16)
    else BitVec.ofNat 32 (fieldsReset r.fields)

end Reg

namespace Fld

abbrev CHIP_ID_PART : BitRange := ⟨31, 16⟩
abbrev CHIP_ID_GRADE : BitRange := ⟨15, 12⟩
abbrev CHIP_ID_STEP_MAJOR : BitRange := ⟨7, 4⟩
abbrev CHIP_ID_STEP_MINOR : BitRange := ⟨3, 0⟩
abbrev CHIP_REGION_STAT_STATE_9 : BitRange := ⟨17, 16⟩
abbrev CHIP_REGION_STAT_STATE_8 : BitRange := ⟨15, 14⟩
abbrev CHIP_REGION_STAT_STATE_7 : BitRange := ⟨13, 12⟩
abbrev CHIP_REGION_STAT_STATE_6 : BitRange := ⟨11, 10⟩
abbrev CHIP_REGION_STAT_STATE_5 : BitRange := ⟨9, 8⟩
abbrev CHIP_REGION_STAT_STATE_4 : BitRange := ⟨7, 6⟩
abbrev CHIP_REGION_STAT_STATE_3 : BitRange := ⟨5, 4⟩
abbrev CHIP_REGION_STAT_STATE_2 : BitRange := ⟨3, 2⟩
abbrev CHIP_REGION_STAT_STATE_1 : BitRange := ⟨1, 0⟩
abbrev CHIP_ERR_STAT_REGION : BitRange := ⟨9, 1⟩
abbrev CHIP_ERR_STAT_CHIP : BitRange := ⟨0, 0⟩
abbrev CHIP_ERR_EN_EN : BitRange := ⟨9, 0⟩
abbrev CHIP_BADREG_LAST_INITIATOR : BitRange := ⟨31, 28⟩
abbrev CHIP_BADREG_LAST_WRITE : BitRange := ⟨27, 27⟩
abbrev CHIP_BADREG_LAST_OFFSET : BitRange := ⟨20, 0⟩
abbrev CHIP_FW_LAST_INITIATOR : BitRange := ⟨31, 28⟩
abbrev CHIP_FW_LAST_REGION : BitRange := ⟨27, 24⟩
abbrev CHIP_FW_LAST_MEM : BitRange := ⟨23, 23⟩
abbrev CHIP_FW_LAST_ADDRESS : BitRange := ⟨22, 0⟩
abbrev CHIP_CLK_STAT_PRESENT : BitRange := ⟨13, 0⟩
abbrev CHIP_CLK_LOSS_LOST : BitRange := ⟨13, 0⟩
abbrev CHIP_QUAR_BLOCK : BitRange := ⟨31, 0⟩
abbrev CHIP_SPARE_MAP_S2_ACT : BitRange := ⟨23, 23⟩
abbrev CHIP_SPARE_MAP_S2_FOR : BitRange := ⟨21, 16⟩
abbrev CHIP_SPARE_MAP_S1_ACT : BitRange := ⟨15, 15⟩
abbrev CHIP_SPARE_MAP_S1_FOR : BitRange := ⟨13, 8⟩
abbrev CHIP_SPARE_MAP_S0_ACT : BitRange := ⟨7, 7⟩
abbrev CHIP_SPARE_MAP_S0_FOR : BitRange := ⟨5, 0⟩
abbrev CHIP_PACE_PACE_LOW : BitRange := ⟨31, 16⟩
abbrev CHIP_PACE_PACE : BitRange := ⟨15, 0⟩
abbrev CHIP_GOV_CTL_EN : BitRange := ⟨31, 31⟩
abbrev CHIP_GOV_CTL_HOLD : BitRange := ⟨30, 30⟩
abbrev CHIP_GOV_CTL_HYST : BitRange := ⟨29, 24⟩
abbrev CHIP_GOV_CTL_PERIOD_LOG2 : BitRange := ⟨23, 16⟩
abbrev CHIP_GOV_CTL_TARGET : BitRange := ⟨15, 0⟩
abbrev CHIP_GOV_LIM_VMAX_MV : BitRange := ⟨31, 16⟩
abbrev CHIP_GOV_LIM_VMIN_MV : BitRange := ⟨15, 0⟩
abbrev CHIP_GOV_STEP_SETTLE : BitRange := ⟨31, 20⟩
abbrev CHIP_GOV_STEP_UP_MV : BitRange := ⟨15, 8⟩
abbrev CHIP_GOV_STEP_DOWN_MV : BitRange := ⟨7, 0⟩
abbrev CHIP_GOV_STAT_VSET_MV : BitRange := ⟨31, 16⟩
abbrev CHIP_GOV_STAT_LOW_REGION : BitRange := ⟨15, 12⟩
abbrev CHIP_GOV_STAT_AT_VMAX : BitRange := ⟨3, 3⟩
abbrev CHIP_GOV_STAT_AT_VMIN : BitRange := ⟨2, 2⟩
abbrev CHIP_GOV_STAT_PMBUS_ERR : BitRange := ⟨1, 1⟩
abbrev CHIP_GOV_STAT_MODE_ERR : BitRange := ⟨0, 0⟩
abbrev CHIP_GOV_PMB_PAGE : BitRange := ⟨15, 8⟩
abbrev CHIP_GOV_PMB_ADDR : BitRange := ⟨6, 0⟩
abbrev CHIP_RECOV_STAT_LAST_CODE : BitRange := ⟨31, 16⟩
abbrev CHIP_RECOV_STAT_STEP : BitRange := ⟨3, 0⟩
abbrev UPD_PRK_CTL_START : BitRange := ⟨31, 31⟩
abbrev UPD_PRK_CTL_ABORT : BitRange := ⟨30, 30⟩
abbrev UPD_PRK_CTL_FORCE : BitRange := ⟨8, 8⟩
abbrev UPD_PRK_CTL_OP : BitRange := ⟨3, 0⟩
abbrev UPD_PRK_TARGET_PATH : BitRange := ⟨15, 0⟩
abbrev UPD_PRK_SRC_LO_ADDR_LO : BitRange := ⟨31, 12⟩
abbrev UPD_PRK_SRC_HI_SPACE : BitRange := ⟨31, 31⟩
abbrev UPD_PRK_SRC_HI_ADDR_HI : BitRange := ⟨30, 0⟩
abbrev UPD_PRK_LEN_BLOCKS : BitRange := ⟨12, 0⟩
abbrev UPD_PRK_DRAIN_TO_TICKS : BitRange := ⟨23, 0⟩
abbrev UPD_PRK_STAT_DONE : BitRange := ⟨31, 31⟩
abbrev UPD_PRK_STAT_FAIL : BitRange := ⟨30, 30⟩
abbrev UPD_PRK_STAT_BUSY : BitRange := ⟨29, 29⟩
abbrev UPD_PRK_STAT_REFUSED : BitRange := ⟨28, 28⟩
abbrev UPD_PRK_STAT_ERR_BLK : BitRange := ⟨27, 16⟩
abbrev UPD_PRK_STAT_ERR : BitRange := ⟨11, 8⟩
abbrev UPD_PRK_STAT_STATE : BitRange := ⟨3, 0⟩
abbrev UPD_PRK_LAST_TICKS : BitRange := ⟨31, 0⟩
abbrev UPD_PRK_DRAIN_STAT_RX_PASSED : BitRange := ⟨31, 24⟩
abbrev UPD_PRK_DRAIN_STAT_RX_DISCARDED : BitRange := ⟨23, 16⟩
abbrev UPD_PRK_DRAIN_STAT_TX_KEPT : BitRange := ⟨15, 8⟩
abbrev UPD_PRK_DRAIN_STAT_TX_RETURNED : BitRange := ⟨7, 0⟩
abbrev UPD_PRK_SPARE_STAT_IDLE_3 : BitRange := ⟨31, 31⟩
abbrev UPD_PRK_SPARE_STAT_PERSONA_3 : BitRange := ⟨30, 28⟩
abbrev UPD_PRK_SPARE_STAT_IDLE_2 : BitRange := ⟨23, 23⟩
abbrev UPD_PRK_SPARE_STAT_PERSONA_2 : BitRange := ⟨22, 20⟩
abbrev UPD_PRK_SPARE_STAT_IDLE_1 : BitRange := ⟨15, 15⟩
abbrev UPD_PRK_SPARE_STAT_PERSONA_1 : BitRange := ⟨14, 12⟩
abbrev UPD_PRK_SPARE_STAT_IDLE_0 : BitRange := ⟨7, 7⟩
abbrev UPD_PRK_SPARE_STAT_PERSONA_0 : BitRange := ⟨6, 4⟩
abbrev UPD_PRK_RB_SEL_START : BitRange := ⟨31, 31⟩
abbrev UPD_PRK_RB_SEL_BUSY : BitRange := ⟨30, 30⟩
abbrev UPD_PRK_RB_SEL_PATH : BitRange := ⟨15, 0⟩
abbrev UPD_PRK_RB_ID_STRUCT_ID : BitRange := ⟨31, 0⟩
abbrev UPD_PRK_RB_VER_MAJOR : BitRange := ⟨31, 24⟩
abbrev UPD_PRK_RB_VER_MINOR : BitRange := ⟨23, 16⟩
abbrev UPD_PRK_RB_VER_PATCH : BitRange := ⟨15, 0⟩
abbrev UPD_PRK_RB_INFO_VALID : BitRange := ⟨31, 31⟩
abbrev UPD_PRK_RB_INFO_PERSONA : BitRange := ⟨10, 8⟩
abbrev UPD_PRK_RB_INFO_KIND : BitRange := ⟨3, 0⟩
abbrev UPD_PRK_RB_HASH_HASH : BitRange := ⟨31, 0⟩
abbrev UPD_CTL_GO : BitRange := ⟨31, 31⟩
abbrev UPD_CTL_STG : BitRange := ⟨8, 8⟩
abbrev UPD_CTL_OP : BitRange := ⟨3, 0⟩
abbrev UPD_STAT_DONE : BitRange := ⟨31, 31⟩
abbrev UPD_STAT_FAIL : BitRange := ⟨30, 30⟩
abbrev UPD_STAT_BUSY : BitRange := ⟨29, 29⟩
abbrev UPD_STAT_STEP : BitRange := ⟨27, 24⟩
abbrev UPD_STAT_ERR : BitRange := ⟨15, 12⟩
abbrev UPD_STAT_ERR_ITEM : BitRange := ⟨5, 0⟩
abbrev UPD_SLOT_STAT_A_STATE : BitRange := ⟨31, 28⟩
abbrev UPD_SLOT_STAT_A_TRIES : BitRange := ⟨27, 24⟩
abbrev UPD_SLOT_STAT_B_STATE : BitRange := ⟨23, 20⟩
abbrev UPD_SLOT_STAT_B_TRIES : BitRange := ⟨19, 16⟩
abbrev UPD_SLOT_STAT_BOOTED : BitRange := ⟨15, 15⟩
abbrev UPD_SLOT_STAT_REASON : BitRange := ⟨14, 12⟩
abbrev UPD_SLOT_STAT_RCV_REQ : BitRange := ⟨0, 0⟩
abbrev UPD_TRIAL_TRIAL_S : BitRange := ⟨31, 16⟩
abbrev UPD_TRIAL_TRIES : BitRange := ⟨3, 0⟩
abbrev UPD_RUN_VER_VERSION : BitRange := ⟨31, 0⟩
abbrev UPD_RCV_CTL_GO : BitRange := ⟨31, 31⟩
abbrev UPD_RCV_CTL_LEN : BitRange := ⟨24, 0⟩
abbrev UPD_RCV_STAT_MODE : BitRange := ⟨31, 31⟩
abbrev UPD_RCV_STAT_DONE : BitRange := ⟨30, 30⟩
abbrev UPD_RCV_STAT_PATH : BitRange := ⟨29, 28⟩
abbrev UPD_RCV_STAT_RESULT : BitRange := ⟨15, 12⟩
abbrev UPD_INT_STAT_TRIAL : BitRange := ⟨2, 2⟩
abbrev UPD_INT_STAT_FAIL : BitRange := ⟨1, 1⟩
abbrev UPD_INT_STAT_DONE : BitRange := ⟨0, 0⟩
abbrev UPD_INT_EN_EN : BitRange := ⟨2, 0⟩
abbrev PORT_LN_CFG_DET_THR : BitRange := ⟨31, 24⟩
abbrev PORT_LN_CFG_STEP_THR : BitRange := ⟨23, 16⟩
abbrev PORT_LN_CFG_TM_MARGIN : BitRange := ⟨15, 8⟩
abbrev PORT_LN_CFG_PLAN : BitRange := ⟨0, 0⟩
abbrev PORT_LN_TX_TX_RMS : BitRange := ⟨26, 16⟩
abbrev PORT_LN_TX_TXEN_LEAD : BitRange := ⟨9, 0⟩
abbrev PORT_LN_RXT_RX_HOLDOFF : BitRange := ⟨25, 16⟩
abbrev PORT_LN_RXT_TXEN_LAG : BitRange := ⟨7, 0⟩
abbrev PORT_LN_IMP_IMP_THR : BitRange := ⟨31, 20⟩
abbrev PORT_LN_IMP_IMP_BLANK : BitRange := ⟨17, 9⟩
abbrev PORT_LN_IMP_IMP_GUARD : BitRange := ⟨7, 0⟩
abbrev PORT_LN_DL_DL_TX : BitRange := ⟨26, 16⟩
abbrev PORT_LN_DL_DL_RX : BitRange := ⟨11, 0⟩
abbrev PORT_LN_NOTCH_NOTCH : BitRange := ⟨31, 0⟩
abbrev PORT_LN_ACC_T_SLOT : BitRange := ⟨31, 16⟩
abbrev PORT_LN_ACC_T_IFS : BitRange := ⟨15, 0⟩
abbrev PORT_LN_ACC_W_NSLOT_3 : BitRange := ⟨31, 24⟩
abbrev PORT_LN_ACC_W_NSLOT_2 : BitRange := ⟨23, 16⟩
abbrev PORT_LN_ACC_W_NSLOT_1 : BitRange := ⟨15, 8⟩
abbrev PORT_LN_ACC_W_NSLOT_0 : BitRange := ⟨7, 0⟩
abbrev PORT_LN_ACK_T_ACK_GAP : BitRange := ⟨31, 16⟩
abbrev PORT_LN_ACK_T_ACK_DET : BitRange := ⟨15, 0⟩
abbrev PORT_LN_RETRY_CW_MAX : BitRange := ⟨31, 24⟩
abbrev PORT_LN_RETRY_MAX_RETRY : BitRange := ⟨23, 16⟩
abbrev PORT_LN_RETRY_FALLBACK_AFTER : BitRange := ⟨15, 8⟩
abbrev PORT_LN_RETRY_RSP_REP : BitRange := ⟨7, 0⟩
abbrev PORT_LN_SEG_SEG_NSYM : BitRange := ⟨31, 23⟩
abbrev PORT_LN_SEG_ILV_MAX : BitRange := ⟨22, 14⟩
abbrev PORT_LN_SEG_REASM_TO : BitRange := ⟨13, 8⟩
abbrev PORT_LN_SEG_DUP_LIFE : BitRange := ⟨5, 0⟩
abbrev PORT_LN_LT_LO_ADDR_LO : BitRange := ⟨31, 12⟩
abbrev PORT_LN_LT_LO_EN : BitRange := ⟨0, 0⟩
abbrev PORT_LN_LT_HI_ADDR_HI : BitRange := ⟨31, 0⟩
abbrev PORT_LN_TM_SEL_SIDE : BitRange := ⟨8, 8⟩
abbrev PORT_LN_TM_SEL_TMI : BitRange := ⟨7, 4⟩
abbrev PORT_LN_TM_SEL_WORD : BitRange := ⟨3, 0⟩
abbrev PORT_LN_TM_DATA_DATA : BitRange := ⟨31, 0⟩
abbrev PORT_LN_TM_USE_PEER : BitRange := ⟨29, 16⟩
abbrev PORT_LN_TM_USE_USED : BitRange := ⟨15, 1⟩
abbrev PORT_LN_FLOOD_ORIGIN : BitRange := ⟨31, 16⟩
abbrev PORT_LN_FLOOD_FLOOD_TTL : BitRange := ⟨15, 12⟩
abbrev PORT_AIR_CFG_PAN_ID : BitRange := ⟨31, 16⟩
abbrev PORT_AIR_CFG_PHY_MODE : BitRange := ⟨15, 12⟩
abbrev PORT_AIR_CFG_MCS : BitRange := ⟨11, 8⟩
abbrev PORT_AIR_CFG_FCS2 : BitRange := ⟨3, 3⟩
abbrev PORT_AIR_CFG_WHITEN : BitRange := ⟨2, 2⟩
abbrev PORT_AIR_CFG_ADMIT_OPEN : BitRange := ⟨1, 1⟩
abbrev PORT_AIR_CYC_CYC_LOG2 : BitRange := ⟨28, 24⟩
abbrev PORT_AIR_CYC_NB : BitRange := ⟨19, 16⟩
abbrev PORT_AIR_CYC_NR : BitRange := ⟨13, 8⟩
abbrev PORT_AIR_BCN_OFS_OFS : BitRange := ⟨21, 0⟩
abbrev PORT_AIR_CSMA_MAX_CSMA : BitRange := ⟨27, 24⟩
abbrev PORT_AIR_CSMA_MAX_BE : BitRange := ⟨23, 20⟩
abbrev PORT_AIR_CSMA_MIN_BE_3 : BitRange := ⟨19, 16⟩
abbrev PORT_AIR_CSMA_MIN_BE_2 : BitRange := ⟨15, 12⟩
abbrev PORT_AIR_CSMA_MIN_BE_1 : BitRange := ⟨11, 8⟩
abbrev PORT_AIR_CSMA_MIN_BE_0 : BitRange := ⟨7, 4⟩
abbrev PORT_AIR_CSMA_MAX_RETRY : BitRange := ⟨3, 0⟩
abbrev PORT_AIR_TIMING_BO_UNIT : BitRange := ⟨31, 20⟩
abbrev PORT_AIR_TIMING_CCA_TIME : BitRange := ⟨19, 8⟩
abbrev PORT_AIR_TIMING_ED_THR : BitRange := ⟨7, 0⟩
abbrev PORT_AIR_ACK_ACK_GAP : BitRange := ⟨31, 16⟩
abbrev PORT_AIR_ACK_ACK_WAIT : BitRange := ⟨15, 0⟩
abbrev PORT_AIR_GUARD_GMAX : BitRange := ⟨31, 20⟩
abbrev PORT_AIR_GUARD_DRIFT : BitRange := ⟨19, 12⟩
abbrev PORT_AIR_GUARD_G0 : BitRange := ⟨11, 0⟩
abbrev PORT_AIR_WAKE_WUT_LEN : BitRange := ⟨27, 24⟩
abbrev PORT_AIR_WAKE_TXEN_LEAD : BitRange := ⟨23, 16⟩
abbrev PORT_AIR_WAKE_WUT_GAP : BitRange := ⟨15, 0⟩
abbrev PORT_AIR_MEMBER_SCAN_LEN : BitRange := ⟨31, 16⟩
abbrev PORT_AIR_MEMBER_MBR_WIN : BitRange := ⟨15, 0⟩
abbrev PORT_AIR_FLOOD_ORIGIN : BitRange := ⟨31, 16⟩
abbrev PORT_AIR_FLOOD_FLOOD_TTL : BitRange := ⟨15, 12⟩
abbrev PORT_AIR_FLOOD_FLOOD_JIT : BitRange := ⟨7, 0⟩
abbrev PORT_AIR_LT_LO_ADDR_LO : BitRange := ⟨31, 12⟩
abbrev PORT_AIR_LT_LO_EN : BitRange := ⟨0, 0⟩
abbrev PORT_AIR_LT_HI_ADDR_HI : BitRange := ⟨31, 0⟩
abbrev PORT_AIR_RDV_LO_ADDR_LO : BitRange := ⟨31, 12⟩
abbrev PORT_AIR_RDV_LO_EN : BitRange := ⟨0, 0⟩
abbrev PORT_AIR_RDV_HI_ADDR_HI : BitRange := ⟨31, 0⟩
abbrev PORT_AIR_SYNC_STAT_STATE : BitRange := ⟨31, 30⟩
abbrev PORT_AIR_SYNC_STAT_MISSED : BitRange := ⟨29, 28⟩
abbrev PORT_AIR_SYNC_STAT_ROUND : BitRange := ⟨27, 24⟩
abbrev PORT_AIR_SYNC_STAT_LOST_S : BitRange := ⟨23, 0⟩
abbrev PORT_AIR_ESC_STEP : BitRange := ⟨31, 30⟩
abbrev PORT_AIR_ESC_ADDR : BitRange := ⟨29, 16⟩
abbrev PORT_AIR_ESC_ELAPSED_S : BitRange := ⟨15, 0⟩
abbrev PORT_AIR_SELF_ADDR : BitRange := ⟨13, 0⟩
abbrev PORT_AIR_CYCLE_NO_CYCLE_NO : BitRange := ⟨31, 0⟩
abbrev PORT_ID_PORT : BitRange := ⟨31, 26⟩
abbrev PORT_ID_GROUP : BitRange := ⟨25, 24⟩
abbrev PORT_ID_BLOCK : BitRange := ⟨21, 16⟩
abbrev PORT_ID_HWREV : BitRange := ⟨7, 0⟩
abbrev PORT_CTL_EN : BitRange := ⟨31, 31⟩
abbrev PORT_CTL_RX_SINK : BitRange := ⟨30, 30⟩
abbrev PORT_CTL_LOOP : BitRange := ⟨29, 29⟩
abbrev PORT_CTL_DESC_EN : BitRange := ⟨28, 28⟩
abbrev PORT_CTL_TX_EOP : BitRange := ⟨27, 27⟩
abbrev PORT_CTL_TX_NB : BitRange := ⟨26, 25⟩
abbrev PORT_CTL_RX_RESET : BitRange := ⟨24, 24⟩
abbrev PORT_CTL_TX_RESET : BitRange := ⟨23, 23⟩
abbrev PORT_CTL_PARK_MAX : BitRange := ⟨15, 8⟩
abbrev PORT_STAT_RX_DROP : BitRange := ⟨31, 24⟩
abbrev PORT_STAT_RX_EOP : BitRange := ⟨23, 23⟩
abbrev PORT_STAT_RX_NB : BitRange := ⟨22, 21⟩
abbrev PORT_STAT_LINK : BitRange := ⟨20, 20⟩
abbrev PORT_STAT_TX_ACTIVE : BitRange := ⟨19, 19⟩
abbrev PORT_STAT_RX_PKTS : BitRange := ⟨17, 12⟩
abbrev PORT_STAT_TX_PKTS : BitRange := ⟨11, 6⟩
abbrev PORT_STAT_TX_FREE : BitRange := ⟨5, 0⟩
abbrev PORT_PERSONA_MAJOR : BitRange := ⟨31, 24⟩
abbrev PORT_PERSONA_MINOR : BitRange := ⟨23, 16⟩
abbrev PORT_PERSONA_PLAN : BitRange := ⟨11, 8⟩
abbrev PORT_PERSONA_SPARE : BitRange := ⟨7, 7⟩
abbrev PORT_PERSONA_PERSONA : BitRange := ⟨2, 0⟩
abbrev PORT_INT_STAT_LAUNCH_LATE : BitRange := ⟨11, 11⟩
abbrev PORT_INT_STAT_DESC_ERR : BitRange := ⟨10, 10⟩
abbrev PORT_INT_STAT_SYNC_LOST : BitRange := ⟨9, 9⟩
abbrev PORT_INT_STAT_ESCALATION : BitRange := ⟨8, 8⟩
abbrev PORT_INT_STAT_LINK_LOSS : BitRange := ⟨7, 7⟩
abbrev PORT_INT_STAT_SHORTFALL : BitRange := ⟨6, 6⟩
abbrev PORT_INT_STAT_PTR_FAULT : BitRange := ⟨5, 5⟩
abbrev PORT_INT_STAT_RX_DROP : BitRange := ⟨4, 4⟩
abbrev PORT_INT_STAT_OVERFLOW : BitRange := ⟨3, 3⟩
abbrev PORT_INT_STAT_UNDERRUN : BitRange := ⟨2, 2⟩
abbrev PORT_INT_STAT_TX_DONE : BitRange := ⟨1, 1⟩
abbrev PORT_INT_STAT_RX_PKT : BitRange := ⟨0, 0⟩
abbrev PORT_INT_EN_EN : BitRange := ⟨11, 0⟩
abbrev PORT_BOB_RX_DATA : BitRange := ⟨31, 0⟩
abbrev PORT_BOB_TX_DATA : BitRange := ⟨31, 0⟩
abbrev PORT_LINK_Q_SNR_LAST : BitRange := ⟨31, 24⟩
abbrev PORT_LINK_Q_LEVEL_LAST : BitRange := ⟨23, 16⟩
abbrev PORT_LINK_Q_VALID : BitRange := ⟨15, 15⟩
abbrev PORT_LINK_Q_LINK_SRC : BitRange := ⟨13, 0⟩
abbrev PORT_TIMING_TX_LAT_NS : BitRange := ⟨31, 16⟩
abbrev PORT_TIMING_RX_LAT_NS : BitRange := ⟨15, 0⟩
abbrev PORT_DESC_BASE_ADDR : BitRange := ⟨31, 8⟩
abbrev PORT_DESC_BASE_RING_LOG2 : BitRange := ⟨3, 0⟩
abbrev PORT_DESC_HEAD_PROD : BitRange := ⟨27, 16⟩
abbrev PORT_DESC_HEAD_CONS : BitRange := ⟨11, 0⟩
abbrev PORT_CAS_CFG_DEV_INDEX : BitRange := ⟨31, 20⟩
abbrev PORT_CAS_CFG_MAX_RESEND : BitRange := ⟨19, 16⟩
abbrev PORT_CAS_CFG_COMMIT_TO : BitRange := ⟨15, 0⟩
abbrev PORT_CAS_STAT_STATE : BitRange := ⟨31, 30⟩
abbrev PORT_CAS_STAT_REMOTE : BitRange := ⟨27, 16⟩
abbrev PORT_CAS_STAT_CREDIT : BitRange := ⟨11, 0⟩
abbrev PORT_CAS_ACK_ACK_DELAY : BitRange := ⟨31, 16⟩
abbrev PORT_CAS_ACK_ACK_BATCH : BitRange := ⟨7, 0⟩
abbrev INK_CTL_EN : BitRange := ⟨31, 31⟩
abbrev INK_CTL_REJ_COPY : BitRange := ⟨30, 30⟩
abbrev INK_CTL_SLOTS20 : BitRange := ⟨29, 29⟩
abbrev INK_CTL_REORDER_W : BitRange := ⟨13, 8⟩
abbrev INK_CTL_CAS_WEIGHT : BitRange := ⟨7, 4⟩
abbrev INK_STAT_RESTORED : BitRange := ⟨31, 31⟩
abbrev INK_STAT_IDLE : BitRange := ⟨30, 30⟩
abbrev INK_STAT_POOL_EMPTY_PORT : BitRange := ⟨29, 29⟩
abbrev INK_STAT_POOL_EMPTY_ING : BitRange := ⟨28, 28⟩
abbrev INK_STAT_FW_FULL : BitRange := ⟨27, 27⟩
abbrev INK_STAT_HOLD_FULL : BitRange := ⟨26, 26⟩
abbrev INK_STAT_CFG_ERR : BitRange := ⟨25, 25⟩
abbrev INK_STAT_HOLD_USED : BitRange := ⟨12, 0⟩
abbrev INK_POOL_ING : BitRange := ⟨17, 0⟩
abbrev INK_SLOT_CMD_GO : BitRange := ⟨31, 31⟩
abbrev INK_SLOT_CMD_BUSY : BitRange := ⟨30, 30⟩
abbrev INK_SLOT_CMD_OP : BitRange := ⟨26, 24⟩
abbrev INK_SLOT_CMD_SLOT : BitRange := ⟨19, 0⟩
abbrev INK_SLOT_STAT_DONE : BitRange := ⟨31, 31⟩
abbrev INK_SLOT_STAT_ERR : BitRange := ⟨30, 30⟩
abbrev INK_SLOT_STAT_CODE : BitRange := ⟨3, 0⟩
abbrev INK_TBL_LO_ADDR_LO : BitRange := ⟨31, 12⟩
abbrev INK_TBL_HI_ADDR_HI : BitRange := ⟨31, 0⟩
abbrev INK_XREC_LO_ADDR_LO : BitRange := ⟨31, 12⟩
abbrev INK_XREC_HI_ADDR_HI : BitRange := ⟨31, 0⟩
abbrev INK_OWN_TITLE_LO_TITLE_LO : BitRange := ⟨31, 0⟩
abbrev INK_OWN_TITLE_HI_TITLE_HI : BitRange := ⟨31, 0⟩
abbrev INK_KC_CTL_FLUSH : BitRange := ⟨31, 31⟩
abbrev INK_KC_CTL_BUSY : BitRange := ⟨30, 30⟩
abbrev INK_RATE_FRAMES : BitRange := ⟨31, 0⟩
abbrev INK_SLOT_DATA_DATA : BitRange := ⟨31, 0⟩
abbrev INK_GRACE_END_END_S : BitRange := ⟨31, 0⟩
abbrev INK_FW_BASE_LO_ADDR_LO : BitRange := ⟨31, 13⟩
abbrev INK_FW_BASE_LO_RING_LOG2 : BitRange := ⟨3, 0⟩
abbrev INK_FW_BASE_HI_ADDR_HI : BitRange := ⟨31, 0⟩
abbrev INK_FW_HEAD_PROD : BitRange := ⟨30, 16⟩
abbrev INK_FW_HEAD_CONS : BitRange := ⟨14, 0⟩
abbrev INK_PROT_BASE_LO_ADDR_LO : BitRange := ⟨31, 12⟩
abbrev INK_PROT_BASE_LO_PRING_LOG2 : BitRange := ⟨3, 0⟩
abbrev INK_PROT_BASE_HI_ADDR_HI : BitRange := ⟨31, 0⟩
abbrev INK_PROT_HEAD_PROD : BitRange := ⟨27, 16⟩
abbrev INK_PROT_HEAD_CONS : BitRange := ⟨11, 0⟩
abbrev INK_ING_WEIGHT : BitRange := ⟨31, 28⟩
abbrev INK_ING_DROP : BitRange := ⟨23, 16⟩
abbrev INK_ING_LEVEL : BitRange := ⟨10, 0⟩
abbrev MND_CTL_EN : BitRange := ⟨31, 31⟩
abbrev MND_CTL_SHADOW_EN : BitRange := ⟨30, 30⟩
abbrev MND_CTL_TIME_FUT : BitRange := ⟨15, 8⟩
abbrev MND_STAT_IDLE : BitRange := ⟨31, 31⟩
abbrev MND_STAT_UNITS : BitRange := ⟨8, 0⟩
abbrev MND_STATE_LO_ADDR_LO : BitRange := ⟨31, 12⟩
abbrev MND_STATE_HI_ADDR_HI : BitRange := ⟨31, 0⟩
abbrev MND_SHADOW_LO_ADDR_LO : BitRange := ⟨31, 12⟩
abbrev MND_SHADOW_HI_ADDR_HI : BitRange := ⟨31, 0⟩
abbrev MND_CAL_LO_ADDR_LO : BitRange := ⟨31, 16⟩
abbrev MND_CAL_HI_ADDR_HI : BitRange := ⟨31, 0⟩
abbrev MND_CLASS_SEL_COMMIT : BitRange := ⟨31, 31⟩
abbrev MND_CLASS_SEL_BUSY : BitRange := ⟨30, 30⟩
abbrev MND_CLASS_SEL_REFUSED : BitRange := ⟨29, 29⟩
abbrev MND_CLASS_SEL_CLASS : BitRange := ⟨15, 8⟩
abbrev MND_CLASS_SEL_WORD : BitRange := ⟨4, 0⟩
abbrev MND_CLASS_DATA_DATA : BitRange := ⟨31, 0⟩
abbrev DRN_CTL_EN : BitRange := ⟨31, 31⟩
abbrev DRN_STAT_IDLE : BitRange := ⟨31, 31⟩
abbrev DRN_STAT_COLLECTING : BitRange := ⟨30, 30⟩
abbrev DRN_STAT_WAIT_TAI : BitRange := ⟨29, 29⟩
abbrev DRN_STAT_RESTORED : BitRange := ⟨28, 28⟩
abbrev DRN_FRZ_CTL_PERIOD_MIN : BitRange := ⟨31, 24⟩
abbrev DRN_FRZ_CTL_LEAD_S : BitRange := ⟨23, 16⟩
abbrev DRN_FRZ_CTL_PREP_MS : BitRange := ⟨15, 0⟩
abbrev DRN_FRZ_COLLECT_COLLECT_S : BitRange := ⟨31, 16⟩
abbrev DRN_FRZ_COLLECT_ANS_WIN : BitRange := ⟨15, 8⟩
abbrev DRN_FRZ_COLLECT_CHMASK : BitRange := ⟨3, 0⟩
abbrev DRN_FRZ_NEXT_ID_FREEZE_ID : BitRange := ⟨31, 0⟩
abbrev DRN_FRZ_LAUNCH_T_L : BitRange := ⟨31, 0⟩
abbrev DRN_FRZ_FDELAY_FDELAY : BitRange := ⟨31, 0⟩
abbrev DRN_FRZ_CUR_FREEZE_ID : BitRange := ⟨31, 0⟩
abbrev DRN_TOPO_LO_ADDR_LO : BitRange := ⟨31, 12⟩
abbrev DRN_TOPO_HI_ADDR_HI : BitRange := ⟨31, 0⟩
abbrev DRN_HIST_LO_ADDR_LO : BitRange := ⟨31, 12⟩
abbrev DRN_HIST_HI_ADDR_HI : BitRange := ⟨31, 0⟩
abbrev DRN_CUSUM_K : BitRange := ⟨31, 16⟩
abbrev DRN_CUSUM_H : BitRange := ⟨15, 0⟩
abbrev DRN_SUSP_SUSP_THR : BitRange := ⟨31, 16⟩
abbrev DRN_SUSP_R_MIN : BitRange := ⟨15, 0⟩
abbrev DRN_INT_STAT_SUSPECT : BitRange := ⟨5, 5⟩
abbrev DRN_INT_STAT_ALARM_EXCESS : BitRange := ⟨4, 4⟩
abbrev DRN_INT_STAT_ALARM_LOSS : BitRange := ⟨3, 3⟩
abbrev DRN_INT_STAT_LATE : BitRange := ⟨2, 2⟩
abbrev DRN_INT_STAT_CLOSED : BitRange := ⟨1, 1⟩
abbrev DRN_INT_STAT_FREEZE_DUE : BitRange := ⟨0, 0⟩
abbrev DRN_INT_EN_EN : BitRange := ⟨5, 0⟩
abbrev DRN_ALARM_LAST_KIND : BitRange := ⟨31, 30⟩
abbrev DRN_ALARM_LAST_NODE : BitRange := ⟨15, 0⟩
abbrev STO_CTL_EN : BitRange := ⟨31, 31⟩
abbrev STO_CTL_GC_HOLD : BitRange := ⟨30, 30⟩
abbrev STO_STAT_PHASE : BitRange := ⟨31, 28⟩
abbrev STO_STAT_UNCLEAN : BitRange := ⟨27, 27⟩
abbrev STO_STAT_NOPARITY : BitRange := ⟨26, 26⟩
abbrev STO_STAT_FULL : BitRange := ⟨25, 25⟩
abbrev STO_STAT_CFG_ERR : BitRange := ⟨24, 24⟩
abbrev STO_STAT_FREE_SB : BitRange := ⟨15, 0⟩
abbrev STO_NAND_CH_PRESENT : BitRange := ⟨31, 30⟩
abbrev STO_NAND_DIES : BitRange := ⟨27, 24⟩
abbrev STO_NAND_SLC_PAGES : BitRange := ⟨15, 0⟩
abbrev STO_GEOM_BLOCKS : BitRange := ⟨31, 16⟩
abbrev STO_GEOM_PAGES : BitRange := ⟨15, 0⟩
abbrev STO_DIE_STAT_DIE_15 : BitRange := ⟨31, 30⟩
abbrev STO_DIE_STAT_DIE_14 : BitRange := ⟨29, 28⟩
abbrev STO_DIE_STAT_DIE_13 : BitRange := ⟨27, 26⟩
abbrev STO_DIE_STAT_DIE_12 : BitRange := ⟨25, 24⟩
abbrev STO_DIE_STAT_DIE_11 : BitRange := ⟨23, 22⟩
abbrev STO_DIE_STAT_DIE_10 : BitRange := ⟨21, 20⟩
abbrev STO_DIE_STAT_DIE_9 : BitRange := ⟨19, 18⟩
abbrev STO_DIE_STAT_DIE_8 : BitRange := ⟨17, 16⟩
abbrev STO_DIE_STAT_DIE_7 : BitRange := ⟨15, 14⟩
abbrev STO_DIE_STAT_DIE_6 : BitRange := ⟨13, 12⟩
abbrev STO_DIE_STAT_DIE_5 : BitRange := ⟨11, 10⟩
abbrev STO_DIE_STAT_DIE_4 : BitRange := ⟨9, 8⟩
abbrev STO_DIE_STAT_DIE_3 : BitRange := ⟨7, 6⟩
abbrev STO_DIE_STAT_DIE_2 : BitRange := ⟨5, 4⟩
abbrev STO_DIE_STAT_DIE_1 : BitRange := ⟨3, 2⟩
abbrev STO_DIE_STAT_DIE_0 : BitRange := ⟨1, 0⟩
abbrev STO_CH_CTL_EVAC : BitRange := ⟨31, 31⟩
abbrev STO_CH_CTL_REJOIN : BitRange := ⟨30, 30⟩
abbrev STO_CH_CTL_CH : BitRange := ⟨29, 29⟩
abbrev STO_CH_CTL_REFUSE : BitRange := ⟨10, 8⟩
abbrev STO_CH_CTL_STATE_1 : BitRange := ⟨7, 4⟩
abbrev STO_CH_CTL_STATE_0 : BitRange := ⟨3, 0⟩
abbrev STO_LOGICAL_COARSE : BitRange := ⟨19, 0⟩
abbrev STO_DIRTY_DIRTY_MAX : BitRange := ⟨31, 24⟩
abbrev STO_DIRTY_UNIT_WAIT : BitRange := ⟨23, 16⟩
abbrev STO_DIRTY_DIRTY_KIB : BitRange := ⟨15, 0⟩
abbrev STO_PART_BASE_BASE : BitRange := ⟨19, 0⟩
abbrev STO_PART_SIZE_SIZE : BitRange := ⟨19, 0⟩
abbrev STO_CKPT_JRNL_MAX : BitRange := ⟨31, 24⟩
abbrev STO_CKPT_CKPT_S : BitRange := ⟨23, 12⟩
abbrev STO_CKPT_FORCE : BitRange := ⟨0, 0⟩
abbrev STO_GC_CTL_GC_START : BitRange := ⟨31, 24⟩
abbrev STO_GC_CTL_GC_STOP : BitRange := ⟨23, 16⟩
abbrev STO_GC_CTL_GC_URGENT : BitRange := ⟨15, 8⟩
abbrev STO_GC_CTL_VERIFY_BITS : BitRange := ⟨7, 0⟩
abbrev STO_GC_W_W_INV : BitRange := ⟨31, 24⟩
abbrev STO_GC_W_W_AGE : BitRange := ⟨23, 16⟩
abbrev STO_GC_W_W_WEAR : BitRange := ⟨15, 8⟩
abbrev STO_WL_WL_SPREAD : BitRange := ⟨31, 16⟩
abbrev STO_WL_SPREAD : BitRange := ⟨15, 0⟩
abbrev STO_SLC_SLC_PCT : BitRange := ⟨31, 24⟩
abbrev STO_SLC_FOLD_PCT : BitRange := ⟨23, 16⟩
abbrev STO_SLC_SLC_USED_PM : BitRange := ⟨9, 0⟩
abbrev STO_EC_EC_MAX : BitRange := ⟨31, 16⟩
abbrev STO_EC_EC_MIN : BitRange := ⟨15, 0⟩
abbrev STO_REC_HEAD_POS : BitRange := ⟨31, 0⟩
abbrev STO_REC_TAIL_POS : BitRange := ⟨31, 0⟩
abbrev STO_STAGE_LO_ADDR_LO : BitRange := ⟨31, 20⟩
abbrev STO_STAGE_HI_ADDR_HI : BitRange := ⟨31, 0⟩
abbrev STO_RING_LO_ADDR_LO : BitRange := ⟨31, 12⟩
abbrev STO_RING_LO_RING_LOG2 : BitRange := ⟨3, 0⟩
abbrev STO_RING_HI_ADDR_HI : BitRange := ⟨31, 0⟩
abbrev STO_RING_HEAD_PROD : BitRange := ⟨27, 16⟩
abbrev STO_RING_HEAD_CONS : BitRange := ⟨11, 0⟩
abbrev STO_INT_STAT_CMD_DONE_1 : BitRange := ⟨7, 7⟩
abbrev STO_INT_STAT_CMD_DONE_0 : BitRange := ⟨6, 6⟩
abbrev STO_INT_STAT_CKPT_DONE : BitRange := ⟨5, 5⟩
abbrev STO_INT_STAT_EVAC_DONE : BitRange := ⟨4, 4⟩
abbrev STO_INT_STAT_DIE_RETIRED : BitRange := ⟨3, 3⟩
abbrev STO_INT_STAT_LOST : BitRange := ⟨2, 2⟩
abbrev STO_INT_STAT_LOW_FREE : BitRange := ⟨1, 1⟩
abbrev STO_INT_STAT_READY : BitRange := ⟨0, 0⟩
abbrev STO_INT_EN_EN : BitRange := ⟨7, 0⟩
abbrev TOT_CTL_EN : BitRange := ⟨31, 31⟩
abbrev TOT_STAT_E_VALID : BitRange := ⟨31, 31⟩
abbrev TOT_STAT_SEAL_OPEN : BitRange := ⟨30, 30⟩
abbrev TOT_STAT_SESSION : BitRange := ⟨29, 29⟩
abbrev TOT_STAT_LOG_FULL : BitRange := ⟨28, 28⟩
abbrev TOT_STAT_RESTORED : BitRange := ⟨27, 27⟩
abbrev TOT_STAT_TAI_OK : BitRange := ⟨26, 26⟩
abbrev TOT_STAT_CH_FAULT : BitRange := ⟨22, 16⟩
abbrev TOT_SEAL_CTL_SPEND : BitRange := ⟨31, 31⟩
abbrev TOT_SEAL_CTL_END : BitRange := ⟨30, 30⟩
abbrev TOT_SEAL_CTL_COMMIT : BitRange := ⟨29, 29⟩
abbrev TOT_SEAL_CTL_SESSION_TO : BitRange := ⟨15, 0⟩
abbrev TOT_SEAL_STAT_UNSEAL_LEFT : BitRange := ⟨31, 27⟩
abbrev TOT_SEAL_STAT_LOG_USED : BitRange := ⟨26, 16⟩
abbrev TOT_SEAL_STAT_ERR : BitRange := ⟨15, 12⟩
abbrev TOT_SEAL_STAT_LEFT_MIN : BitRange := ⟨11, 0⟩
abbrev TOT_CAL_SEL_TARGET : BitRange := ⟨31, 31⟩
abbrev TOT_CAL_SEL_WORD : BitRange := ⟨4, 0⟩
abbrev TOT_CAL_DATA_DATA : BitRange := ⟨31, 0⟩
abbrev TOT_DEM_SLIDE : BitRange := ⟨31, 31⟩
abbrev TOT_DEM_PENDING : BitRange := ⟨30, 30⟩
abbrev TOT_DEM_DEM_N : BitRange := ⟨15, 8⟩
abbrev TOT_DEM_DEM_SUB : BitRange := ⟨7, 0⟩
abbrev TOT_BILL_CTL_FORCE : BitRange := ⟨31, 31⟩
abbrev TOT_BILL_CTL_BILL_SEQ : BitRange := ⟨15, 0⟩
abbrev TOT_BILL_SEL_SNAP : BitRange := ⟨31, 31⟩
abbrev TOT_BILL_SEL_SET : BitRange := ⟨8, 8⟩
abbrev TOT_BILL_SEL_WORD : BitRange := ⟨5, 0⟩
abbrev TOT_BILL_DATA_DATA : BitRange := ⟨31, 0⟩
abbrev TOT_PCAL_LO_ADDR_LO : BitRange := ⟨31, 14⟩
abbrev TOT_PCAL_HI_ADDR_HI : BitRange := ⟨31, 0⟩
abbrev TOT_PCAL_CTL_LOAD : BitRange := ⟨31, 31⟩
abbrev TOT_PCAL_CTL_CANCEL : BitRange := ⟨30, 30⟩
abbrev TOT_PCAL_CTL_PRESENT : BitRange := ⟨29, 29⟩
abbrev TOT_PCAL_CTL_STATUS : BitRange := ⟨23, 20⟩
abbrev TOT_RATE_SEASON : BitRange := ⟨13, 12⟩
abbrev TOT_RATE_SPECIAL : BitRange := ⟨11, 11⟩
abbrev TOT_RATE_PROFILE : BitRange := ⟨7, 3⟩
abbrev TOT_RATE_RATE : BitRange := ⟨2, 0⟩
abbrev TOT_LATCH_WH_WH : BitRange := ⟨31, 0⟩
abbrev TOT_LATCH_STAT_VALID : BitRange := ⟨31, 31⟩
abbrev TOT_INST_VALUE : BitRange := ⟨31, 0⟩
abbrev TOT_INT_STAT_SEAL_OPENED : BitRange := ⟨7, 7⟩
abbrev TOT_INT_STAT_LOG_FULL : BitRange := ⟨6, 6⟩
abbrev TOT_INT_STAT_CH_FAULT : BitRange := ⟨5, 5⟩
abbrev TOT_INT_STAT_TSTEP : BitRange := ⟨4, 4⟩
abbrev TOT_INT_STAT_LATE_SWITCH : BitRange := ⟨3, 3⟩
abbrev TOT_INT_STAT_BILL_RESET : BitRange := ⟨2, 2⟩
abbrev TOT_INT_STAT_SESSION : BitRange := ⟨1, 1⟩
abbrev TOT_INT_STAT_BLOCK : BitRange := ⟨0, 0⟩
abbrev TOT_INT_EN_EN : BitRange := ⟨7, 0⟩
abbrev TOT_ACAL_ID_CAL_ID : BitRange := ⟨31, 0⟩
abbrev TU_CTL_SET : BitRange := ⟨31, 31⟩
abbrev TU_CTL_REL : BitRange := ⟨30, 30⟩
abbrev TU_CTL_RTC_VALID : BitRange := ⟨29, 29⟩
abbrev TU_CTL_RTC_TRIM : BitRange := ⟨15, 8⟩
abbrev TU_STAT_TAI_VALID : BitRange := ⟨31, 31⟩
abbrev TU_STAT_QUAL : BitRange := ⟨30, 28⟩
abbrev TU_STAT_RTC_OK : BitRange := ⟨27, 27⟩
abbrev TU_STAT_TB_LOST : BitRange := ⟨26, 26⟩
abbrev TU_STAT_LEAP_PEND : BitRange := ⟨25, 25⟩
abbrev TU_TAI_NS_NS : BitRange := ⟨29, 0⟩
abbrev TU_TAI_S_LO_SEC_LO : BitRange := ⟨31, 0⟩
abbrev TU_TAI_S_HI_SEC_HI : BitRange := ⟨15, 0⟩
abbrev TU_UTC_NEXT : BitRange := ⟨31, 16⟩
abbrev TU_UTC_CUR : BitRange := ⟨15, 0⟩
abbrev TU_LEAP_AT_SEC : BitRange := ⟨31, 0⟩
abbrev TU_SERVO_SRC : BitRange := ⟨31, 30⟩
abbrev TU_SERVO_STEP_EN : BitRange := ⟨29, 29⟩
abbrev TU_SERVO_FMAX_PPM : BitRange := ⟨27, 20⟩
abbrev TU_SERVO_LOCK_NS : BitRange := ⟨19, 10⟩
abbrev TU_SERVO_STEP_US : BitRange := ⟨9, 0⟩
abbrev TU_GAIN_KP : BitRange := ⟨31, 16⟩
abbrev TU_GAIN_KI : BitRange := ⟨15, 0⟩
abbrev TU_OFS_IN_THETA : BitRange := ⟨31, 0⟩
abbrev TU_SERVO_STAT_STATE : BitRange := ⟨31, 30⟩
abbrev TU_SERVO_STAT_GOOD : BitRange := ⟨27, 24⟩
abbrev TU_SERVO_STAT_LAST_OFS : BitRange := ⟨23, 0⟩
abbrev TU_FREQ_CORR : BitRange := ⟨31, 0⟩
abbrev TU_SRC_CFG_PPS_POL : BitRange := ⟨31, 31⟩
abbrev TU_SRC_CFG_PPS_OUT_EN : BitRange := ⟨30, 30⟩
abbrev TU_SRC_CFG_HOLD_S : BitRange := ⟨29, 24⟩
abbrev TU_SRC_CFG_PPS_WIDTH : BitRange := ⟨23, 16⟩
abbrev TU_SRC_CFG_PPS_DELAY : BitRange := ⟨15, 0⟩
abbrev TU_UPL_ADJ_TX_ADJ : BitRange := ⟨31, 16⟩
abbrev TU_UPL_ADJ_RX_ADJ : BitRange := ⟨15, 0⟩
abbrev TU_AFE_ADJ_PORT : BitRange := ⟨31, 26⟩
abbrev TU_AFE_ADJ_WR : BitRange := ⟨25, 25⟩
abbrev TU_AFE_ADJ_TX_ADJ : BitRange := ⟨23, 12⟩
abbrev TU_AFE_ADJ_RX_ADJ : BitRange := ⟨11, 0⟩
abbrev TU_TXTS_0_SEQ_ID : BitRange := ⟨31, 16⟩
abbrev TU_TXTS_0_MSG_TYPE : BitRange := ⟨15, 12⟩
abbrev TU_TXTS_0_VALID : BitRange := ⟨11, 11⟩
abbrev TU_TXTS_0_DOMAIN : BitRange := ⟨7, 0⟩
abbrev TU_TXTS_1_SEC_LOW : BitRange := ⟨31, 30⟩
abbrev TU_TXTS_1_NS : BitRange := ⟨29, 0⟩
abbrev TU_INT_STAT_TB_LOST : BitRange := ⟨16, 16⟩
abbrev TU_INT_STAT_TXTS_OVF : BitRange := ⟨15, 15⟩
abbrev TU_INT_STAT_TXTS_B : BitRange := ⟨14, 14⟩
abbrev TU_INT_STAT_TXTS_A : BitRange := ⟨13, 13⟩
abbrev TU_INT_STAT_LEAP : BitRange := ⟨12, 12⟩
abbrev TU_INT_STAT_PPS_BAD : BitRange := ⟨11, 11⟩
abbrev TU_INT_STAT_HOLDOVER : BitRange := ⟨10, 10⟩
abbrev TU_INT_STAT_LOCK : BitRange := ⟨9, 9⟩
abbrev TU_INT_STAT_STEP : BitRange := ⟨8, 8⟩
abbrev TU_INT_STAT_CMP : BitRange := ⟨7, 0⟩
abbrev TU_INT_EN_EN : BitRange := ⟨16, 0⟩
abbrev TU_CMP_T_T : BitRange := ⟨31, 0⟩
abbrev TU_CMP_PER_PER : BitRange := ⟨31, 0⟩
abbrev TU_CMP_CTL_EN : BitRange := ⟨31, 31⟩
abbrev TU_CMP_CTL_PERIODIC : BitRange := ⟨30, 30⟩
abbrev TU_CMP_CTL_OUT : BitRange := ⟨29, 28⟩
abbrev TU_CMP_CTL_WIDTH : BitRange := ⟨15, 0⟩
abbrev UPL_CTL_EN : BitRange := ⟨31, 31⟩
abbrev UPL_CTL_PAUSE_RX : BitRange := ⟨8, 8⟩
abbrev UPL_CTL_MAC_EN_B : BitRange := ⟨1, 1⟩
abbrev UPL_CTL_MAC_EN_A : BitRange := ⟨0, 0⟩
abbrev UPL_STAT_A_UP : BitRange := ⟨31, 31⟩
abbrev UPL_STAT_A_MODE : BitRange := ⟨30, 30⟩
abbrev UPL_STAT_B_UP : BitRange := ⟨29, 29⟩
abbrev UPL_STAT_B_MODE : BitRange := ⟨28, 28⟩
abbrev UPL_STAT_PCIE_UP : BitRange := ⟨27, 27⟩
abbrev UPL_STAT_PCIE_WIDTH : BitRange := ⟨26, 24⟩
abbrev UPL_STAT_PCIE_GEN : BitRange := ⟨23, 20⟩
abbrev UPL_STAT_PAIR_LANES : BitRange := ⟨19, 16⟩
abbrev UPL_STAT_PAIR_UP : BitRange := ⟨15, 15⟩
abbrev UPL_RXR_ADDR : BitRange := ⟨31, 8⟩
abbrev UPL_RXR_RING_LOG2 : BitRange := ⟨3, 0⟩
abbrev UPL_TXR_ADDR : BitRange := ⟨31, 8⟩
abbrev UPL_TXR_RING_LOG2 : BitRange := ⟨3, 0⟩
abbrev UPL_RXH_PROD : BitRange := ⟨27, 16⟩
abbrev UPL_RXH_CONS : BitRange := ⟨11, 0⟩
abbrev UPL_TXH_PROD : BitRange := ⟨27, 16⟩
abbrev UPL_TXH_CONS : BitRange := ⟨11, 0⟩
abbrev UPL_SESS_BASE_ADDR : BitRange := ⟨31, 8⟩
abbrev UPL_SESS_CMD_GO : BitRange := ⟨31, 31⟩
abbrev UPL_SESS_CMD_BUSY : BitRange := ⟨30, 30⟩
abbrev UPL_SESS_CMD_OP : BitRange := ⟨26, 24⟩
abbrev UPL_SESS_CMD_SESSION : BitRange := ⟨5, 0⟩
abbrev UPL_SESS_STAT_DONE : BitRange := ⟨31, 31⟩
abbrev UPL_SESS_STAT_ERR : BitRange := ⟨30, 30⟩
abbrev UPL_SESS_STAT_CODE : BitRange := ⟨3, 0⟩
abbrev UPL_DOORBELL_WHICH : BitRange := ⟨31, 31⟩
abbrev UPL_DOORBELL_SESSION : BitRange := ⟨29, 24⟩
abbrev UPL_DOORBELL_VALUE : BitRange := ⟨23, 0⟩
abbrev UPL_EXC_STOPPED : BitRange := ⟨31, 0⟩
abbrev UPL_ROLE_ROLE_7 : BitRange := ⟨31, 28⟩
abbrev UPL_ROLE_ROLE_6 : BitRange := ⟨27, 24⟩
abbrev UPL_ROLE_ROLE_5 : BitRange := ⟨23, 20⟩
abbrev UPL_ROLE_ROLE_4 : BitRange := ⟨19, 16⟩
abbrev UPL_ROLE_ROLE_3 : BitRange := ⟨15, 12⟩
abbrev UPL_ROLE_ROLE_2 : BitRange := ⟨11, 8⟩
abbrev UPL_ROLE_ROLE_1 : BitRange := ⟨7, 4⟩
abbrev UPL_ROLE_ROLE_0 : BitRange := ⟨3, 0⟩
abbrev UPL_EXP_CTL_BATCH_MAX : BitRange := ⟨31, 20⟩
abbrev UPL_EXP_CTL_BATCH_WAIT : BitRange := ⟨19, 4⟩
abbrev UPL_EXP_CTL_MANIFEST_EN : BitRange := ⟨0, 0⟩
abbrev UPL_PART_CFG_EN : BitRange := ⟨31, 31⟩
abbrev UPL_PART_CFG_KINDS : BitRange := ⟨30, 27⟩
abbrev UPL_PART_CFG_UPLINK : BitRange := ⟨23, 22⟩
abbrev UPL_PART_CFG_SESSION : BitRange := ⟨21, 16⟩
abbrev UPL_PART_CFG_WINDOW : BitRange := ⟨15, 8⟩
abbrev UPL_PART_POS_POS : BitRange := ⟨31, 0⟩
abbrev UPL_INT_STAT_CONFLICT : BitRange := ⟨10, 10⟩
abbrev UPL_INT_STAT_TX_DONE_B : BitRange := ⟨9, 9⟩
abbrev UPL_INT_STAT_TX_DONE_A : BitRange := ⟨8, 8⟩
abbrev UPL_INT_STAT_RX_DONE_B : BitRange := ⟨7, 7⟩
abbrev UPL_INT_STAT_RX_DONE_A : BitRange := ⟨6, 6⟩
abbrev UPL_INT_STAT_PART_REFUSED : BitRange := ⟨5, 5⟩
abbrev UPL_INT_STAT_LINK_CHANGE : BitRange := ⟨4, 4⟩
abbrev UPL_INT_STAT_MANIFEST_READY : BitRange := ⟨3, 3⟩
abbrev UPL_INT_STAT_GAP : BitRange := ⟨2, 2⟩
abbrev UPL_INT_STAT_KEY_LIMIT : BitRange := ⟨1, 1⟩
abbrev UPL_INT_STAT_SESS_EXC : BitRange := ⟨0, 0⟩
abbrev UPL_INT_EN_EN : BitRange := ⟨10, 0⟩
abbrev INT_CTL_EN : BitRange := ⟨31, 31⟩
abbrev INT_SRC_SEL_SRC : BitRange := ⟨8, 0⟩
abbrev INT_SRC_CFG_EN : BitRange := ⟨31, 31⟩
abbrev INT_SRC_CFG_LOCK : BitRange := ⟨30, 30⟩
abbrev INT_SRC_CFG_PEND : BitRange := ⟨29, 29⟩
abbrev INT_SRC_CFG_CLAIMED : BitRange := ⟨28, 28⟩
abbrev INT_SRC_CFG_PRI : BitRange := ⟨27, 24⟩
abbrev INT_SRC_CFG_TARGETS : BitRange := ⟨20, 0⟩
abbrev INT_SW_CLR : BitRange := ⟨31, 31⟩
abbrev INT_SW_SRC : BitRange := ⟨8, 0⟩
abbrev INT_PEND_PEND : BitRange := ⟨31, 0⟩
abbrev INT_CLAIMED_CLAIMED : BitRange := ⟨31, 0⟩
abbrev INT_HOLD_REMAIN : BitRange := ⟨31, 16⟩
abbrev INT_HOLD_HOLD : BitRange := ⟨15, 0⟩
abbrev INT_TGT_CTL_MASK : BitRange := ⟨31, 31⟩
abbrev INT_TGT_CTL_FLUSH : BitRange := ⟨30, 30⟩
abbrev INT_TGT_STAT_STACK_FAULT : BitRange := ⟨31, 31⟩
abbrev INT_TGT_STAT_SLEEP : BitRange := ⟨30, 30⟩
abbrev INT_TGT_STAT_LINE : BitRange := ⟨29, 29⟩
abbrev INT_TGT_STAT_TOP_SRC : BitRange := ⟨25, 16⟩
abbrev INT_TGT_STAT_TOP_PRI : BitRange := ⟨15, 12⟩
abbrev INT_TGT_STAT_DEPTH : BitRange := ⟨4, 0⟩
abbrev INT_CLAIM_PRI : BitRange := ⟨19, 16⟩
abbrev INT_CLAIM_SRC : BitRange := ⟨9, 0⟩
abbrev INT_COMPLETE_SRC : BitRange := ⟨9, 0⟩
abbrev SHU_CTL_EN : BitRange := ⟨31, 31⟩
abbrev SHU_CTL_RESUME : BitRange := ⟨30, 30⟩
abbrev SHU_STAT_BUSERR : BitRange := ⟨31, 31⟩
abbrev SHU_STAT_STOPPED : BitRange := ⟨13, 8⟩
abbrev SHU_STAT_ACTIVE : BitRange := ⟨5, 0⟩
abbrev SHU_ERR_LO_ADDR_LO : BitRange := ⟨31, 0⟩
abbrev SHU_ERR_HI_SPACE : BitRange := ⟨31, 28⟩
abbrev SHU_ERR_HI_WRITE : BitRange := ⟨27, 27⟩
abbrev SHU_ERR_HI_KIND : BitRange := ⟨26, 24⟩
abbrev SHU_ERR_HI_ADDR_HI : BitRange := ⟨3, 0⟩
abbrev SHU_EVT_FLAGS : BitRange := ⟨31, 0⟩
abbrev SHU_EVT_CMD_CLR : BitRange := ⟨31, 31⟩
abbrev SHU_EVT_CMD_EVENT : BitRange := ⟨6, 0⟩
abbrev SHU_CH_CTL_GO : BitRange := ⟨31, 31⟩
abbrev SHU_CH_CTL_ABORT : BitRange := ⟨30, 30⟩
abbrev SHU_CH_CTL_ARM : BitRange := ⟨29, 29⟩
abbrev SHU_CH_CTL_TRIG : BitRange := ⟨23, 16⟩
abbrev SHU_CH_STAT_IRQ : BitRange := ⟨31, 31⟩
abbrev SHU_CH_STAT_SHADOW_VALID : BitRange := ⟨30, 30⟩
abbrev SHU_CH_STAT_SHADOW_LATE : BitRange := ⟨29, 29⟩
abbrev SHU_CH_STAT_STATE : BitRange := ⟨28, 26⟩
abbrev SHU_CH_STAT_ERR : BitRange := ⟨25, 23⟩
abbrev SHU_CH_STAT_HANDOVER : BitRange := ⟨15, 8⟩
abbrev SHU_CH_PROG_ADDR : BitRange := ⟨31, 0⟩
abbrev SHU_CH_PC_ADDR : BitRange := ⟨31, 0⟩
abbrev SHU_CH_CHK_VALUE : BitRange := ⟨31, 0⟩
abbrev NDL_CMD_GO : BitRange := ⟨31, 31⟩
abbrev NDL_CMD_BUSY : BitRange := ⟨30, 30⟩
abbrev NDL_CMD_OP : BitRange := ⟨28, 25⟩
abbrev NDL_CMD_SLOT : BitRange := ⟨24, 16⟩
abbrev NDL_CMD_PARAM : BitRange := ⟨8, 0⟩
abbrev NDL_STAT_DONE : BitRange := ⟨31, 31⟩
abbrev NDL_STAT_ERR : BitRange := ⟨30, 30⟩
abbrev NDL_STAT_VAULT_BUSY : BitRange := ⟨29, 29⟩
abbrev NDL_STAT_CODE : BitRange := ⟨3, 0⟩
abbrev NDL_ATTR_ATTR : BitRange := ⟨31, 0⟩
abbrev NDL_COUNT_COUNT : BitRange := ⟨23, 0⟩
abbrev NDL_BUF_LO_ADDR_LO : BitRange := ⟨31, 4⟩
abbrev NDL_BUF_HI_ADDR_HI : BitRange := ⟨3, 0⟩
abbrev NDL_LEN_LEN : BitRange := ⟨16, 0⟩
abbrev NDL_INT_STAT_ALARM : BitRange := ⟨3, 3⟩
abbrev NDL_INT_STAT_CNT_DONE : BitRange := ⟨2, 2⟩
abbrev NDL_INT_STAT_FAIL : BitRange := ⟨1, 1⟩
abbrev NDL_INT_STAT_DONE : BitRange := ⟨0, 0⟩
abbrev NDL_INT_EN_EN : BitRange := ⟨3, 0⟩
abbrev NDL_DATA_DATA : BitRange := ⟨31, 0⟩
abbrev NDL_CNT_CMD_GO : BitRange := ⟨31, 31⟩
abbrev NDL_CNT_CMD_BUSY : BitRange := ⟨30, 30⟩
abbrev NDL_CNT_CMD_SETTING : BitRange := ⟨27, 24⟩
abbrev NDL_CNT_CMD_KIND : BitRange := ⟨9, 8⟩
abbrev NDL_CNT_CMD_VALUE : BitRange := ⟨7, 0⟩
abbrev NDL_CNT_STAT_DONE : BitRange := ⟨31, 31⟩
abbrev NDL_CNT_STAT_ERR : BitRange := ⟨30, 30⟩
abbrev NDL_CNT_STAT_CODE : BitRange := ⟨3, 0⟩
abbrev NDL_CNT_ARG_DATA : BitRange := ⟨31, 0⟩
abbrev NDL_ID_IDENT : BitRange := ⟨31, 0⟩
abbrev NDL_CNT_LEFT_UNSEAL_LEFT : BitRange := ⟨31, 27⟩
abbrev NDL_CNT_LEFT_DOMAIN_LEFT : BitRange := ⟨26, 24⟩
abbrev NDL_CNT_LEFT_PAIR_LEFT : BitRange := ⟨23, 22⟩
abbrev NDL_CNT_LEFT_DEBUG_LEFT : BitRange := ⟨21, 20⟩
abbrev NDL_CNT_LEFT_PAIR_ROLE : BitRange := ⟨19, 18⟩
abbrev NDL_CNT_LEFT_DEBUG_OPEN : BitRange := ⟨17, 17⟩
abbrev NDL_CNT_LEFT_DEBUG_EVER : BitRange := ⟨16, 16⟩
abbrev NDL_CNT_FLOOR_PERSONA : BitRange := ⟨31, 24⟩
abbrev NDL_CNT_FLOOR_REGION : BitRange := ⟨23, 16⟩
abbrev NDL_CNT_FLOOR_FIELD : BitRange := ⟨15, 8⟩
abbrev NDL_CNT_FLOOR_HOOP : BitRange := ⟨7, 0⟩
abbrev NDL_CNT_DOMAIN_DOMAIN : BitRange := ⟨31, 0⟩
abbrev NDL_KEYID_LO_KEYID_LO : BitRange := ⟨31, 0⟩
abbrev NDL_KEYID_HI_KEYID_HI : BitRange := ⟨31, 0⟩
abbrev NDL_CNT_LOG_PROD_COUNT : BitRange := ⟨9, 0⟩
abbrev NDL_VKEY_VKEY : BitRange := ⟨31, 0⟩
abbrev SMP_CTL_STOP_FULL : BitRange := ⟨31, 31⟩
abbrev SMP_CTL_MIRROR_EN : BitRange := ⟨30, 30⟩
abbrev SMP_CTL_MIN_SEV : BitRange := ⟨29, 27⟩
abbrev SMP_CTL_IRQ_SEV : BitRange := ⟨26, 24⟩
abbrev SMP_CTL_CLEAR : BitRange := ⟨23, 23⟩
abbrev SMP_CTL_REPEAT_WIN : BitRange := ⟨15, 0⟩
abbrev SMP_STAT_FULL : BitRange := ⟨31, 31⟩
abbrev SMP_STAT_MIRRORING : BitRange := ⟨30, 30⟩
abbrev SMP_STAT_PROVISIONAL : BitRange := ⟨29, 29⟩
abbrev SMP_STAT_FIFO_LEVEL : BitRange := ⟨27, 19⟩
abbrev SMP_STAT_USED : BitRange := ⟨13, 0⟩
abbrev SMP_SEQ_NEXT : BitRange := ⟨31, 0⟩
abbrev SMP_MIRROR_NEXT : BitRange := ⟨31, 0⟩
abbrev SMP_RD_SEL_SLOT : BitRange := ⟨15, 3⟩
abbrev SMP_RD_SEL_WORD : BitRange := ⟨2, 0⟩
abbrev SMP_RD_DATA_DATA : BitRange := ⟨31, 0⟩
abbrev SMP_SW_CMD_GO : BitRange := ⟨31, 31⟩
abbrev SMP_SW_CMD_SEV : BitRange := ⟨30, 28⟩
abbrev SMP_SW_CMD_CODE : BitRange := ⟨15, 0⟩
abbrev SMP_SW_DATA_DATA : BitRange := ⟨31, 0⟩
abbrev SMP_OPSEC_LO : BitRange := ⟨31, 0⟩
abbrev SMP_PCC_OPSEC_HI : BitRange := ⟨31, 24⟩
abbrev SMP_PCC_PCC : BitRange := ⟨23, 0⟩
abbrev SMP_INT_STAT_SW_REFUSED : BitRange := ⟨6, 6⟩
abbrev SMP_INT_STAT_WIT_NEED : BitRange := ⟨5, 5⟩
abbrev SMP_INT_STAT_PAIR_STATE : BitRange := ⟨4, 4⟩
abbrev SMP_INT_STAT_RCV_STEP : BitRange := ⟨3, 3⟩
abbrev SMP_INT_STAT_FULL : BitRange := ⟨2, 2⟩
abbrev SMP_INT_STAT_LOST : BitRange := ⟨1, 1⟩
abbrev SMP_INT_STAT_SEV_HIGH : BitRange := ⟨0, 0⟩
abbrev SMP_INT_EN_EN : BitRange := ⟨6, 0⟩
abbrev SMP_RCV_CTL_ESC_WIN : BitRange := ⟨31, 16⟩
abbrev SMP_RCV_CTL_HWDOG_S : BitRange := ⟨15, 8⟩
abbrev SMP_RCV_CTL_FWDOG_S : BitRange := ⟨7, 0⟩
abbrev SMP_RCV_STAT_LAST_STEP : BitRange := ⟨31, 28⟩
abbrev SMP_RCV_STAT_CYCLES : BitRange := ⟨27, 26⟩
abbrev SMP_RCV_STAT_WARM_CNT : BitRange := ⟨23, 16⟩
abbrev SMP_RCV_STAT_ESC_LEFT : BitRange := ⟨15, 0⟩
abbrev SMP_RCV_WDOG_KEY : BitRange := ⟨31, 16⟩
abbrev SMP_RCV_WDOG_ACT : BitRange := ⟨2, 0⟩
abbrev SMP_PAIR_CTL_EN : BitRange := ⟨31, 31⟩
abbrev SMP_PAIR_CTL_YIELD : BitRange := ⟨30, 30⟩
abbrev SMP_PAIR_CTL_MIRROR_TO : BitRange := ⟨23, 16⟩
abbrev SMP_PAIR_CTL_RESYNC_MBPS : BitRange := ⟨15, 0⟩
abbrev SMP_PAIR_STAT_STATE : BitRange := ⟨31, 28⟩
abbrev SMP_PAIR_STAT_SENSE : BitRange := ⟨27, 27⟩
abbrev SMP_PAIR_STAT_HOLD : BitRange := ⟨26, 26⟩
abbrev SMP_PAIR_STAT_LINK : BitRange := ⟨25, 25⟩
abbrev SMP_PAIR_STAT_PEER_ACTIVE : BitRange := ⟨24, 24⟩
abbrev SMP_PAIR_STAT_HIST_PENDING : BitRange := ⟨23, 23⟩
abbrev SMP_PAIR_STAT_STRUCT_DIFF : BitRange := ⟨22, 22⟩
abbrev SMP_PAIR_STAT_ROLE : BitRange := ⟨21, 20⟩
abbrev SMP_PAIR_STAT_REASON : BitRange := ⟨19, 16⟩
abbrev SMP_PAIR_STAT_TAKE_MS : BitRange := ⟨15, 0⟩
abbrev SMP_PAIR_EPOCH_EPOCH : BitRange := ⟨31, 0⟩
abbrev SMP_PAIR_WIT_EP_EP : BitRange := ⟨31, 0⟩
abbrev SMP_PAIR_WIT_EXP_EXP : BitRange := ⟨31, 0⟩
abbrev SMP_PAIR_SYNC_PHASE : BitRange := ⟨31, 28⟩
abbrev SMP_PAIR_SYNC_MIB : BitRange := ⟨27, 0⟩

end Fld

end Sys2Proof.Machine
end

