-- ==== Sys2Proof/Machine/State.lean ====
section
/-! DEFINITION. Sys2Proof/Machine/State.lean: the state of the block, the reasons it can stop, and reset.
One structure per part of the chip. Registers live in one file, `regs`, keyed as Machine/RegMap.lean names them; a
register field whose value is that of another part of the state is computed where it is read (Machine/RegView.lean).
Fields marked MODEL are the model's own and stand for nothing the spec names. -/

namespace Sys2Proof.Machine

/-- Why a step can stop with a fault. No meaning raises one: the spec gives every command an effect. Safe. -/
inductive Fault where
  /-- Kept for an access that the spec says cannot exist. Raised by no meaning. -/
  | impossible (why : String)
deriving DecidableEq, Repr

/-- Why a step can refuse a command. -/
inductive Refusal where
  /-- A command without a meaning; raised by exec's arm of that command. Safe: the machine stops where the hardware goes on. -/
  | notModelled (mnemonic : String)
deriving DecidableEq, Repr

/-- MODEL: what the block sends to the outside. -/
inductive Out where
  /-- 16-bit words on a port's transmit lane: an align burst, or a line transmission from its first sample slot on (R78–R94,
  R101–R104). -/
  | lane (port : Nat) (words : List Nat)
  /-- A frame on an air port: the PHR fields (R137), and the PSDU as the modulator takes it, whitened if the PHR says so. -/
  | air (port phr : Nat) (bytes : Bytes)
  /-- 8b/10b code groups on a cascade port, in the order sent (R188, R189). -/
  | cascade (port : Nat) (codes : List Nat)
  /-- A PMBus write of a command word (R38). -/
  | pmbus (addr page cmd value : Nat)
  /-- A frame on an uplink. -/
  | uplink (u : Nat) (bytes : Bytes)
  /-- A handshake signature that the hoop hands to field firmware for a session (R376). -/
  | signature (session : Nat) (bytes : Bytes)
  /-- The result of one item of a COSEM request on a session, with the octets that a read answers (R391–R394). -/
  | cosem (session result : Nat) (value : Bytes)
  /-- A pair-link message. -/
  | pair (type : Nat) (bytes : Bytes)
  /-- Bytes on the recovery UART. -/
  | uart (bytes : Bytes)
  /-- An MSI-X message of a vector. -/
  | msix (vector : Nat)
  /-- A chain-stitch message to a neighbour. -/
  | stitch (port type : Nat) (bytes : Bytes)
  /-- The raw image of a page that a NAND die took: its four codewords (R282). -/
  | nand (die block page : Nat) (bytes : Bytes)
deriving DecidableEq, Repr


/-- What a pricking built into a block (R49, R52): kind 0 = blank, 2 = region, 3 = personality. -/
structure Built where
  kind : Nat := 0
  persona : Nat := 0
  structId : Nat := 0
  version : Nat := 0
  hash : Bytes := []
deriving DecidableEq, Repr

/-- A container of the running set (R449, R450): what its header and manifest say. -/
structure RunCont where
  kind : Nat
  persona : Nat := 0
  target : Nat := 0xFFFF
  structId : Nat := 0
  version : Nat := 0
  svn : Nat := 0
  hash : Bytes := []
  /-- RAISE_FLOOR. -/
  raise : Bool := false
  /-- MIN and MAX for each kind 0–3. -/
  ranges : List (Nat × Nat) := []
  /-- SHA-256 over its frames as stored, which a readback of what it builds gives (R52, R74). -/
  cells : Bytes := []
  /-- Data of its frames of TYPE 2 and 3 (R53). -/
  maps : Bytes := []
deriving DecidableEq, Repr

/-- The loader's operation under way (R58, R66, R67): OP, the block being worked on, blocks still to do, what it will hold,
schedule count at the start of Drain, and what the block held before. -/
structure LoadJob where
  op : Nat
  region : Nat
  block : Nat
  rest : List Nat := []
  force : Bool := false
  src : Nat := 0
  nor : Bool := false
  len : Nat := 0
  built : Built := {}
  /-- Schedule count from which UPD_PRK_LAST counts. -/
  drain0 : Nat := 0
  /-- Region pricking: the structure drawn for it (log entry 112). -/
  set : Nat := 0
  /-- Hashes of the container blocks as verified (R56). -/
  seen : List Bytes := []
  /-- The container as verified: what the running set takes up when the operation completes. -/
  cont : Option RunCont := none
  /-- Crossbar maps and sharing tables of a region pricking, which take effect with the last Release (R67). -/
  maps : Bytes := []
  /-- Schedule count at Isolate. -/
  iso0 : Nat := 0
deriving DecidableEq, Repr

/-- A spare taking over a port's pin set (R70): port, and whether the loader must re-prick the spare first. -/
structure Subst where
  port : Nat
  loader : Bool
  since : Nat
deriving DecidableEq, Repr

/-- An error that a block has latched (R22): path of the cell, path of the block, and attempts made. -/
structure CellErr where
  path : Nat
  block : Nat
  attempts : Nat := 1
deriving DecidableEq, Repr

/-- The fabric and the loader, less what their registers hold. -/
structure FabState where
  /-- A pace shortfall was reported in the governor's present period (R37). -/
  shortfall : Bool := false
  /-- Lowest pace of each region in the governor's present period, 0 for none. -/
  low : Tbl Nat := []
  /-- The governor waits for the settle time to end; VOUT_MODE as read since release from reset, none until a read of it is
  acknowledged. -/
  settling : Bool := false
  vmode : Option Nat := none
  /-- Corrections of a cell within the last second: schedule counts by path (R21). -/
  ces : Tbl (List Nat) := []
  /-- Latched block errors whose outcome is not yet known, oldest first (R22). -/
  errs : List CellErr := []
  /-- What is pricked, by block path. -/
  built : Tbl Built := []
  /-- What the cells of a block hold where that is not what it last served with: the pricking of an operation that failed once it had
  written, and whether only part of it was written (R74). -/
  cells : Tbl (Built × Bool) := []
  /-- Parity engine that is the spare (R19, R50). -/
  paritySpare : Nat := 6
  /-- Crossbar maps and sharing tables in force by region: the data of the frames of TYPE 2 and 3 as stored (R53, R67). -/
  maps : Tbl Bytes := []
  /-- The loader's shadow of the writable registers of ports and parameter blocks, by register key (R63). -/
  shadow : Tbl Word := []
  /-- Items of crossing FIFOs discarded at the loss of a clock, by clock domain (R43). -/
  fifoLost : Tbl Nat := []
  /-- The loader's operation under way (R57). -/
  job : Option LoadJob := none
  /-- Substitutions under way, oldest first. -/
  substs : List Subst := []
  /-- Readback under way. -/
  readback : Option Nat := none
deriving DecidableEq, Repr


/-- A tone map or advice (R95, R131). -/
structure ToneMap where
  tmi : Nat := 0
  mode : Nat := 0
  code : Nat := 0
  rep : Nat := 0
  /-- In 0.5 dB units. -/
  margin : Int := 0
  /-- Bit c set: carrier of plan index c is active. -/
  mask : Nat := 0
deriving DecidableEq, Repr

/-- A complex number in fixed point with 40 fraction bits: the value of a carrier, or a channel estimate (log entry 168). -/
structure Cx where
  re : Int
  im : Int
deriving DecidableEq, Repr

/-- Line parameters in force for the frame being received (R108). -/
structure LinePar where
  thr : Nat := 2048
  guard : Nat := 0
  blank : Nat := 0
  stepThr : Nat := 255
  margin : Nat := 0
deriving DecidableEq, Repr

/-- A frame that a line port is receiving (R80–R100): phase 0 = none, 1 = header, 2 = payload, 3 = ignoring the medium. -/
structure LineRx where
  phase : Nat := 0
  /-- Parameters in force for the frame; its header word. -/
  par : LinePar := {}
  hdr : Nat := 0
  /-- Symbols received so far: of the header in phase 1, of the payload in phase 2. -/
  sym : Nat := 0
  /-- The symbol before was erased. -/
  prevErased : Bool := false
  /-- Values of the carriers in the symbol before, by plan index: the phase reference of modes 0 and 1 and of the header. -/
  ref : Tbl Cx := []
  /-- Soft values of the 108 coded header bits, summed over their copies (R82). -/
  head : List Int := []
  /-- Channel estimates Hc by plan index (R100). -/
  hc : Tbl Cx := []
  /-- Channel steps declared in this frame; symbols of the refresh left; carriers not yet refreshed since the last step. -/
  steps : Nat := 0
  refresh : Nat := 0
  stale : List Nat := []
  /-- The deinterleaving store: soft value and erasure of each position of the present interleaver block (R92). -/
  store : List (Int × Bool) := []
  /-- Soft values and erasures of the frame's earlier blocks, deinterleaved. -/
  coded : List (Int × Bool) := []
  /-- Schedule count at which the frame that a failed header describes ends, if its length can be trusted (R83). -/
  until' : Option Nat := none
deriving DecidableEq, Repr

/-- A transmit packet in the hands of a line MAC (R116–R128, R133). -/
structure LineJob where
  id : Nat := 0
  prefixBytes : Bytes := []
  segs : List Bytes := []
  seg : Nat := 0
  seq : Nat := 0
  route : Nat := 1
  usedAlt : Bool := false
  attempt : Nat := 1
  b : Nat := 0
  cw : Nat := 1
  late : Bool := false
  /-- Frame type: 0 = data, 4 = flood, 5 = admission. -/
  type : Nat := 0
deriving DecidableEq, Repr

/-- What is on the wire of a line port: a packet, or a response when there is none. -/
structure LineTx where
  id : Option Nat := none
  ack : Bool := false
  /-- Header word, PSDU, and the mask of the tone map in use, if any. -/
  hdr : Nat := 0
  psdu : Bytes := []
  mask : Option Nat := none
  /-- Parameters in force for the frame: TX_RMS, TXEN_LEAD, TXEN_LAG, RX_HOLDOFF (R108). -/
  rms : Nat := 512
  lead : Nat := 0
  lag : Nat := 0
  holdoff : Nat := 0
  /-- Payload symbols that missed their deadline (R106). -/
  missed : List Nat := []
  /-- Schedule count at which TX_EN rose. -/
  start : Nat := 0
deriving DecidableEq, Repr

/-- A reassembly slot (R129): segments by SEG_IDX, and the reception prefix of the last segment. -/
structure ReasmSlot where
  src : Nat
  seq : Nat
  last : Nat
  segs : Tbl Bytes
  started : Nat
deriving DecidableEq, Repr

/-- A response owed (R113): type, SEQ, SEG_IDX, SNR code, station answered. -/
structure LineResp where
  type : Nat
  seq : Nat
  seg : Nat
  snr : Nat
  dst : Nat
deriving DecidableEq, Repr

/-- The line personality's own state. -/
structure LineState where
  /-- The frame being received; what is on the wire. -/
  rx : LineRx := {}
  tx : Option LineTx := none
  /-- Packets that contend, oldest first, and packets waiting for their launch instant. -/
  jobs : List LineJob := []
  sched : List LineJob := []
  /-- The packet that waits for a response. -/
  await : Option Nat := none
  /-- The medium is reserved for a response slot. -/
  reserved : Bool := false
  /-- TX_EN fell at the first schedule count; the receive path ignores its lane for so many ticks after (R104). -/
  deaf : Option (Nat × Nat) := none
  /-- Slots of the present round that have passed. -/
  slot : Nat := 0
  /-- Schedule count at which the medium became idle, while the IFS after it may still run. -/
  idleAt : Option Nat := none
  /-- Admission requests handed on by a station that wait for their answer: the station and the joiner's system title (R132). -/
  admits : List (Nat × Bytes) := []
  /-- The response that the port owes (R113). -/
  resp : Option LineResp := none
  /-- SNR estimates in 1/512 dB by sender × 1,024 + plan index (R96). -/
  snr : Tbl Int := []
  /-- The 15 receive maps (R130) and the maps that stations gave this device (R131). -/
  maps : Tbl ToneMap := []
  peers : Tbl ToneMap := []
  /-- Last assignment made to each sender, and assignments still to send. -/
  given : Tbl ToneMap := []
  offers : Tbl ToneMap := []
  /-- Reassembly slots (R129). -/
  reasm : List ReasmSlot := []
deriving DecidableEq, Repr


/-- A transmit packet in the hands of an air MAC (R149–R151, R169): phase 0 = backoff, 1 = CCA, 2 = on the air,
3 = waits for its Enh-Ack, 4 = waits for its launch instant or, a downlink, for the Enh-Ack to end, 5 = a downlink that waits
for the meter's next contact. -/
structure AirJob where
  id : Nat := 0
  prefixBytes : Bytes := []
  body : Bytes := []
  type : Nat := 0
  seq : Nat := 0
  mseq : Nat := 0
  route : Nat := 1
  attempt : Nat := 1
  be : Nat := 0
  nbTry : Nat := 0
  backoff : Nat := 0
  phase : Nat := 0
  late : Bool := false
  /-- Downlink inside a rendezvous exchange, with more packets held behind it. -/
  down : Bool := false
  pending : Bool := false
deriving DecidableEq, Repr

/-- An open rendezvous window (R156): G in µs, and in ticks of TAI its start, T_r and its end. -/
structure RdvWindow where
  addr : Nat
  g : Nat
  opens : Nat
  tr : Nat
  closes : Nat
  contact : Bool
deriving DecidableEq, Repr

/-- A flood that a member port will relay (R167, R168): the air header's SEQ and ORIG, its body, its receive reference instant, the
schedule count at which its delay ends, and the R149 procedure: BE, NB_TRY, attempt. -/
structure Relay where
  body : Bytes
  orig : Nat
  seq : Nat
  since : Nat
  due : Nat
  be : Nat := 0
  nbTry : Nat := 0
  attempt : Nat := 1
deriving DecidableEq, Repr

/-- The air and air-member personalities' own state. -/
structure AirState where
  /-- Schedule count at the start of the present cycle. -/
  cyc0 : Nat := 0
  /-- Packets under way, oldest first, and packets waiting for their launch instant. -/
  jobs : List AirJob := []
  sched : List AirJob := []
  /-- Registers in force for the present cycle, since it began or the port was enabled (R171). -/
  live : Tbl Word := []
  /-- On the air: 1 = the packet named, 4 = Enh-Ack to the address named, 5 = beacon, 6 = wake-up frame, 7 = relayed flood. -/
  tx : Option (Nat × Nat) := none
  /-- Enh-Ack owed: destination, sequence number, Frame Pending. -/
  ack : Option (Nat × Nat × Bool) := none
  /-- MAC sequence number of the next frame. -/
  macSeq : Nat := 0
  /-- Open rendezvous windows (R156). -/
  windows : List RdvWindow := []
  /-- Wake-up train under way: meter and T_r in ticks of TAI. -/
  train : Option (Nat × Nat) := none
  /-- Floods that a member has still to pass on (R167). -/
  relays : List Relay := []
  /-- Cycle parameters taken from the parent's beacons: CYC_LOG2, NB, NR. -/
  parent : Nat × Nat × Nat := (20, 3, 16)
  /-- ADMIT_OPEN of the parent's last beacon, and the schedule count at which its SFD ended (R154, R162). -/
  admitOpen : Bool := false
  bcnAt : Nat := 0
  /-- TAI at the loss of sync, and whether SCAN_LEN has passed without a beacon since. -/
  lostAt : Nat := 0
  scanned : Bool := false
  /-- System title of the admission request sent. -/
  title : Bytes := []
deriving DecidableEq, Repr


/-- A packet in a receive bobbin queue: its bytes, and the words that software has read of it (R176). -/
structure RxPkt where
  bytes : Bytes := []
  read : Nat := 0
deriving DecidableEq, Repr

/-- A whole packet in a transmit bobbin queue (R177, R178, R184). -/
structure TxPkt where
  id : Nat := 0
  bytes : Bytes := []
  /-- Descriptor index of a mover packet. -/
  desc : Option Nat := none
  /-- The MAC has taken it: its outcome is not yet known. -/
  taken : Bool := false
  /-- Held: for a sleeping meter, or sent on a cascade port and awaiting its result. -/
  held : Bool := false
  /-- Cascade: CSEQ given, and resends made for want of a result. -/
  cseq : Option Nat := none
  resends : Nat := 0
  /-- A resend is due. -/
  again : Bool := false
deriving DecidableEq, Repr

/-- Read pointer, write pointer and packet count of a bobbin queue (R179). The spec gives no chunk numbers and no widths: pointers are
word positions within a block's 3,840 words, counted modulo 2^12 (DESIGN CHOICE, log entry 183). -/
structure QPtr where
  rd : BitVec 12 := 0
  wr : BitVec 12 := 0
  count : BitVec 6 := 0
deriving DecidableEq, Repr

/-- Both copies of a queue's pointers: A in the control cell, B bitwise inverted in an SRAM cell (R179). -/
structure QCopies where
  a : QPtr := {}
  b : QPtr := { rd := 0xFFF, wr := 0xFFF, count := 0x3F }
deriving DecidableEq, Repr

/-- A frame on the wire of a cascade port: its characters, how many the lane has carried, and the schedule count at its start. -/
structure CasTx where
  chars : List Nat
  sent : Nat := 0
  start : Nat := 0
deriving DecidableEq, Repr

/-- The cascade personality's own state (R188–R196), less what PORT_CAS_STAT holds. -/
structure CasState where
  /-- Running disparity of what is sent, and characters since the last SKIP (R188, R189). -/
  pos : Bool := false
  skip : Nat := 0
  /-- The frame on the wire; chunks sent, counted as the partner counts (R192). -/
  tx : Option CasTx := none
  used : Nat := 0
  /-- Partner's cumulative count, as last received. -/
  advP : Nat := 0
  /-- Own cumulative count. -/
  adv : Nat := 0
  /-- CSEQ of the next frame (R190). -/
  nextSeq : Nat := 0
  /-- RESULT entries waiting, oldest first: CSEQ, RES, and its schedule count while that is less than 1 s back. -/
  results : List (Nat × Nat × Option Nat) := []
  /-- Last 64 CSEQs of CTYPE 1 and 2 delivered, newest first. -/
  delivered : List Nat := []
  /-- A CREDIT is owed. -/
  credit : Bool := false
  /-- Schedule counts of the code violations of the last 2^20 ticks, at most 255, newest first. -/
  viol : List Nat := []
deriving DecidableEq, Repr

/-- One port (R172–R186): queues, mover and personality. -/
structure PortState where
  /-- Receive queue and transmit queue, oldest first. -/
  rxq : List RxPkt := []
  txq : List TxPkt := []
  /-- Transmit packet being written word by word: its bytes, and whether it is marked bad. -/
  txOpen : Bytes := []
  txBad : Bool := false
  /-- Pointers of the two queues. -/
  rxPtr : QCopies := {}
  txPtr : QCopies := {}
  /-- Schedule count of the last pointer mismatch, while it is less than 1 s old; whether the block has found one. -/
  lastMis : Option Nat := none
  mis : Bool := false
  /-- Value of the last successful PORT_BOB_RX read. -/
  lastRx : Word := 0
  /-- Descriptor fetched and waiting for room. -/
  desc : Option Bytes := none
  /-- The model's number of the next transmit packet. -/
  nextId : Nat := 0
  /-- The last outcome that the port's MAC reported, with the TAG of its packet (R133, R134). -/
  outcome : Option (Nat × Nat) := none
  /-- Starts of frame ignored during a drain (R59). -/
  ignored : Nat := 0
  /-- TX_EN, and an align burst owed (R103). -/
  txen : Bool := false
  burst : Bool := false
  /-- Originator's sequence number and flood sequence number; the spec gives neither a first value, and both start at 0 (DESIGN CHOICE, log
  entry 50). -/
  seq : Nat := 0
  fseq : Nat := 0
  /-- Duplicate cache (R121): key and schedule count, newest first. -/
  dups : List ((Nat × Nat × Nat × Nat) × Nat) := []
  /-- Seen cache of floods (R167): origin, FSEQ and schedule count, newest first. -/
  seen : List ((Nat × Nat) × Nat) := []
  /-- Each personality's own state: line; air; cascade. -/
  line : LineState := {}
  air : AirState := {}
  cas : CasState := {}
deriving DecidableEq, Repr


/-- A meter frame inside intake (R198–R203). -/
structure IFrame where
  /-- The meter frame. -/
  bytes : Bytes := []
  /-- 0 = direct port, 1 = cascade port, 2 = ingest queue. -/
  kind : Nat := 0
  /-- Port or queue number. -/
  src : Nat := 0
  /-- Network address of a direct port's frame. -/
  naddr : Nat := 0
  /-- Cascade or ingest ORIGIN, or the R135 prefix bytes 0–3. -/
  origin : Nat := 0
  /-- CSEQ or TAG. -/
  ref : Nat := 0
  /-- RESEND flag of the cascade or ingest frame. -/
  resend : Bool := false
  /-- Uplink session of an ingest entry. -/
  session : Nat := 0
  /-- Schedule count at the arbiter's grant. -/
  rxTime : Nat := 0
  /-- Slot found by lookup. -/
  slot : Option Nat := none
  /-- The lookup met an uncorrectable DRAM error (code 4). -/
  tblErr : Bool := false
  /-- Generations already tried and failed; the generation now tried and its key, once known (R216). -/
  tried : List Nat := []
  gen : Nat := 0
  key : Option Bytes := none
deriving DecidableEq, Repr

/-- What a lane works on: a frame, or a protect request (R221): descriptor index, descriptor, and its key once known. -/
inductive LaneJob where
  | frame (f : IFrame)
  | protect (idx : Nat) (desc : Bytes) (gen : Nat) (key : Option Bytes)
deriving DecidableEq, Repr

/-- A verified frame between its lane and its commit (R45, R218). -/
structure CFrame where
  fr : IFrame
  slot : Nat
  ctr : Nat
  gen : Nat
  /-- Verified under the previous generation. -/
  prev : Bool
  /-- The decrypted APDU. -/
  plain : Bytes
  /-- 0 = waits for the Mender, 1 = waits for the firmware ring, 2 = its record is in staging or its ring entry written. -/
  stage : Nat := 0
  /-- Log position of the batch's last record, 0xFFFF_FFFF for none (R306). -/
  recPos : Nat := 0xFFFFFFFF
  /-- New Mender state entry and changed shadow entry, to journal with the commit (R247). -/
  mst : Option Bytes := none
  shd : Option Bytes := none
  /-- Interval records of its batch. -/
  recs : List Bytes := []
  /-- Pair: MSEQ of its COMMIT message, 0 for none (R489). -/
  mseq : Nat := 0
deriving DecidableEq, Repr

/-- An entry of the derived-key cache (R211). -/
structure KeyEnt where
  slot : Nat
  gen : Nat
  domain : Nat
  /-- False = AKEY, true = TKEY. -/
  dir : Bool
  /-- CRC-32C of STITLE. -/
  tcrc : Nat
  /-- The derived key. -/
  key : Bytes
deriving DecidableEq, Repr

/-- Work waiting for the firmware ring (R220): kind, code, slot word, origin, source, counter, receive time, reference
and data. -/
structure FwItem where
  kind : Nat
  code : Nat := 0
  slotw : Nat := 0
  origin : Nat := 0
  source : Nat := 0
  fctr : Nat := 0
  rxTime : Nat := 0
  ref : Nat := 0
  data : Bytes := []
  /-- Slot whose frame this entry completes (R218). -/
  forSlot : Option Nat := none
  /-- This wait has been counted in INK_FW_STALL_CNT. -/
  stalled : Bool := false
deriving DecidableEq, Repr

/-- A slot operation as taken at GO (R205): OP, slot, DATA, whether a lookup table read is uncorrectable, and its refusal
code (0 = accepted) once executed, with the entry that READ copies. -/
structure SlotOp where
  op : Nat
  slot : Nat
  data : Bytes
  tblErr : Bool := false
  code : Option Nat := none
  entry : Bytes := []
deriving DecidableEq, Repr

/-- Intake. -/
structure InkState where
  /-- Ingest queues: entries of header and frame (R199). -/
  ingq : Tbl (List Bytes) := []
  /-- The arbiter's own queue: frames passed on by a drain or returned by a lane, and what the hold list has released (R24, R59, R70,
  R201). -/
  back : List LaneJob := []
  /-- Lanes 0–17: what each holds, oldest first, at most two (R200, and the worked example of R27). -/
  lanes : Tbl (List LaneJob) := []
  /-- Slot hold list, oldest first (R201). -/
  holds : List LaneJob := []
  /-- Frames verified and not yet committed. -/
  commits : List CFrame := []
  /-- Firmware ring work, oldest first. -/
  fwq : List FwItem := []
  /-- Derived-key cache, most recently used first (R211). -/
  kc : List KeyEnt := []
  /-- Derivations running (R212), oldest first: the entry without its key, and the title. -/
  deriv : List (KeyEnt × Bytes) := []
  /-- Round robin: last port served, whether the port pool's next grant goes to a protect request, ingest position and
  grants left at it. -/
  rrPort : Nat := 63
  rrProt : Bool := false
  rrIng : Nat := 0
  rrLeft : Nat := 0
  /-- Slots whose MSM entry holds an uncorrectable error (R215). -/
  ue : List Nat := []
  /-- Slot operation under way. -/
  op : Option SlotOp := none
  /-- Frames committed in the present window of 2^20 ticks. -/
  rate : Nat := 0
  /-- A table rebuild is running (R206). -/
  rebuilding : Bool := false
  /-- A protect descriptor with IRQ = 1 has completed since the last write of INK_PROT_HEAD (R411, source 7). -/
  protIrq : Bool := false
deriving DecidableEq, Repr


/-- A batch that a Mender unit has worked out and not yet made visible (R248): slot, records, new state entry, changed shadow
entry, what the counters gain, and whether the state entry was bad (R234). -/
structure MndJob where
  slot : Nat
  recs : List Bytes := []
  mst : Bytes := []
  shd : Option Bytes := none
  cnts : List (Nat × Nat) := []
  crcBad : Bool := false
deriving DecidableEq, Repr

/-- The Mender. -/
structure MndState where
  /-- Class records, 256 of 128 bytes; an unlisted one is zero (R231). -/
  classes : Tbl Bytes := []
  /-- Staging buffer of R232. -/
  staging : Bytes := List.replicate 128 0
  /-- A validated staging buffer waits for a gap between batches: class and record. -/
  install : Option (Nat × Bytes) := none
  /-- Batch under way in each unit 18–26. -/
  jobs : Tbl (Option MndJob) := []
deriving DecidableEq, Repr



/-- A collection entry (R266). -/
structure DrnColl where
  down : Nat := 0
  up : Nat := 0
  answered : Nat := 0
  gen : Nat := 0
  upSeen : Bool := false
  inv : Bool := false
  gap : Bool := false
deriving DecidableEq, Repr

/-- The Darner. -/
structure DrnState where
  /-- Interval records handed over and not yet classed (R249). -/
  inq : List Bytes := []
  /-- Freeze chosen: FREEZE_ID (R257 step 1). -/
  plan : Option Nat := none
  /-- Freeze fixed at FREEZE_DUE: FREEZE_ID, schedule count of T_C, and whether TAI has stepped since. -/
  fixed : Option (Nat × Nat × Bool) := none
  /-- Collection entries by node, and STEPPED of the freeze in collection. -/
  coll : Tbl DrnColl := []
  stepped : Bool := false
  /-- TAI day of the last checkpoint handed to the store (R277). -/
  day : Nat := 0
deriving DecidableEq, Repr



/-- A fine unit in a superblock (R283): its metadata, its data, and whether its page has been programmed. -/
structure SUnit where
  lua : Nat := 0
  dseq : Nat := 0
  kind : Nat := 4
  copy : Bool := false
  srcSb : Nat := 0xFFFF
  data : Bytes := []
  /-- The page has been programmed with good status; until then the unit is only in staging. -/
  prog : Bool := false
  /-- The codeword no longer decodes. -/
  bad : Bool := false
deriving DecidableEq, Repr

/-- A superblock (R284, R285): state 0 = free, 1 = open, 2 = closed, 3 = retired. -/
structure SBlk where
  state : Nat := 0
  /-- 0 = record, 1 = general, 2 = relocation, 3 = system, 4 = flush. -/
  stream : Nat := 0
  slc : Bool := false
  mask : Nat := 0
  nopar : Bool := false
  /-- Next offset to write. -/
  next : Nat := 0
  /-- Order and time (operating seconds) of closing. -/
  closedNo : Nat := 0
  closedAt : Nat := 0
  /-- Queued for relocation ahead of score order (R296, R303). -/
  queued : Bool := false
  /-- Left alone until this operating second (R303). -/
  leave : Nat := 0
deriving DecidableEq, Repr

/-- A journal entry (R306). -/
inductive JEntry where
  | commit (ctr : Bytes) (recPos : Nat) (mst shd : Option Bytes)
  | slot (n : Nat) (entry : Bytes)
  | map (lua loc : Nat)
  | intent (iseq s t t0 t1 : Nat)
  /-- The new erase counts of the source's blocks follow, in die order. -/
  | done (iseq s : Nat) (ecs : List Nat)
  | opened (sb stream : Nat) (slc : Bool) (mask : Nat)
  | bad (die block reason : Nat)
  | trim (part first count : Nat)
  | lost (part fine : Nat)
  /-- Pass, JSEQ at its start, and location number of the root. -/
  | ckpt (pass start root : Nat)
  /-- Contents of the Darner's checkpoint, and its location number. -/
  | darner (cells : List (Nat × Nat)) (loc : Nat)
  | chan (c st : Nat)
  | shut
deriving DecidableEq, Repr

/-- The relocation under way (R302): phase 1 = copying, 2 = verifying, 3 = waiting for INTENT, 4 = erasing. -/
structure Reloc where
  src : Nat
  tgt : Nat
  t0 : Nat
  t1 : Nat
  phase : Nat
  iseq : Nat
  /-- 0 = collection, 1 = fold, 2 = wear levelling, 3 = rebuild, 4 = evacuation. -/
  why : Nat
  fails : Nat
  /-- Dies of the source still to be erased. -/
  erasing : Nat
  /-- The copies made are only part of the source's units, for want of room in the target (log entry 90). -/
  part : Bool := false
deriving DecidableEq, Repr

/-- What a checkpoint holds (R307). A map value is a location + 1, 0 for unmapped, 1 more than 2^32 for lost. -/
structure Ckpt where
  pass : Nat := 0
  start : Nat := 0
  map : Tbl Nat := []
  /-- Superblocks; erase counts by die and block; bad blocks as die and block; meter slot memory. -/
  sbs : Tbl SBlk := []
  ecs : Tbl Nat := []
  badBlks : List (Nat × Nat) := []
  msm : Tbl Bytes := []
  /-- Bytes 0–15 of the extended records, the Mender state and shadow tables: area 0–2, offset in the area, byte. -/
  cells : List (Nat × Nat × Nat) := []
  /-- STO_REC_HEAD; STO_REC_TAIL. -/
  recHead : Nat := 0
  recTail : Nat := 0
  /-- Location number of its root. -/
  root : Nat := 0
  /-- DSEQ of the next data unit. -/
  dseq : Nat := 0
deriving DecidableEq, Repr

/-- The newest anchor of a channel (R308): where it lies, and what it holds; `die` is die + 1, 0 for no anchor. -/
structure Anchor where
  die : Nat := 0
  blk : Nat := 0
  page : Nat := 0
  aseq : Nat := 0
  /-- Location number of the checkpoint root, and start JSEQ. -/
  root : Nat := 0
  start : Nat := 0
  /-- STO_GEOM and STO_DIE_STAT. -/
  geom : Nat := 0
  dies : Nat := 0
deriving DecidableEq, Repr

/-- The store. `units`, `jlog`, `ck`, `anchors`, `ecs`, `badBlks`, `darner` and `chans` are in NAND and survive loss of power. -/
structure StoState where
  /-- Units by location; journal units by JSEQ; the newest complete checkpoint. -/
  units : Tbl SUnit := []
  jlog : List (Nat × List JEntry) := []
  ck : Option Ckpt := none
  /-- The newest anchor of each channel. -/
  anchors : Tbl Anchor := []
  /-- Erase counts by die and block; bad blocks as die and block. -/
  ecs : Tbl Nat := []
  badBlks : List (Nat × Nat) := []
  /-- Last Darner checkpoint: offset from DRN_HIST and byte of what it held (R277). -/
  darner : List (Nat × Nat) := []
  /-- Working tables: superblocks; the unit map, a location + 1. -/
  sbs : Tbl SBlk := []
  map : Tbl Nat := []
  /-- Coarse units with a fine map and the index of that map, least recently used first (R287, R288). -/
  fmaps : List (Nat × Nat) := []
  /-- Stripes whose parity page is programmed: superblock × 2,048 + stripe. -/
  parity : Tbl Nat := []
  /-- Journal entries that no closed unit holds yet. -/
  jpend : List JEntry := []
  /-- JSEQ of the next journal unit; DSEQ of the next data unit; number of the next relocation; ASEQ of the last anchor; number of the
  next superblock closed. -/
  jseq : Nat := 1
  dseq : Nat := 0
  iseq : Nat := 0
  aseq : Nat := 0
  closeNo : Nat := 0
  /-- The record unit being filled: records of 24 bytes, and TAI seconds of the first. -/
  recs : List Bytes := []
  firstTai : Nat := 0
  /-- The relocation under way. -/
  reloc : Option Reloc := none
  /-- Collection has started and not yet reached GC_STOP (R300). -/
  gcOn : Bool := false
  /-- Checkpoint pass in progress: pass number and start JSEQ. -/
  pass : Option (Nat × Nat) := none
  /-- Number of the last checkpoint pass. -/
  passNo : Nat := 0
  /-- Channel being evacuated; channel being rejoined. -/
  evac : Option Nat := none
  rejoin : Option Nat := none
  /-- State of channel 0 and 1 as STO_CH_CTL codes it, as the last CHAN entry left it. -/
  chans : Tbl Nat := []
deriving DecidableEq, Repr


/-- A measurement block in progress (R323): samples taken, sums of squares of voltages and currents, and of powers. -/
structure TotBlk where
  n : Nat := 0
  v2 : List Nat := [0, 0, 0]
  i2 : List Nat := [0, 0, 0, 0]
  p : List Int := [0, 0, 0]
  q : List Int := [0, 0, 0]
deriving DecidableEq, Repr

/-- What the totaliser was doing when it last stopped (R342, R343): TAI second of the record, and its
KIND. -/
structure TotCut where
  sec : Nat
  kind : Nat
deriving DecidableEq, Repr

/-- The totaliser, less what its registers hold. -/
structure TotState where
  /-- Accumulators in mWh or mvarh (R334): A+, A−, R1–R4, A+ L1–L3, A− L1–L3; and what each holds below 1, in units of
  1 ÷ (14,400 × 1,000 × 2^78). -/
  acc : List Nat := List.replicate 12 0
  rem : List Nat := List.replicate 12 0
  /-- Current billing set, less what follows from the accumulators (R338). -/
  flags : Nat := 0
  startMin : Nat := 0
  tou : List Nat := List.replicate 32 0
  mdW : Nat := 0
  mdEnd : Nat := 0
  /-- Previous billing set, 256 bytes. -/
  prev : Bytes := List.replicate 256 0
  /-- Sub-interval in progress: start (TAI minutes), A+ so far (mWh), irregular. -/
  subStart : Nat := 0
  subE : Nat := 0
  subIrr : Bool := false
  /-- Sub-intervals completed in the present demand window, up to 15. -/
  winCnt : Nat := 0
  /-- A+ of the last 15 sub-intervals, newest first, and whether each was irregular. -/
  ring : List (Nat × Bool) := List.replicate 15 (0, false)
  /-- Minute of the last billing reset; number of the last state record saved. -/
  lastB : Nat := 0
  saveSeq : Nat := 0
  /-- TOT_DEM value waiting for the next billing reset. -/
  dem : Option Word := none
  /-- Measurement block, and current RMS below START_MA in the previous block, by phase. -/
  blk : TotBlk := {}
  low : List Bool := [false, false, false]
  /-- Samples since EN was set or the last fault cleared, up to 8,000 (R324). -/
  good : Nat := 0
  /-- Integration has stopped for a power failure (R342). -/
  stopped : Bool := false
  /-- A restoration is due (R343): none once done. -/
  cut : Option TotCut := none
  /-- The first start without any state record is still to open its sub-interval. -/
  fresh : Bool := true
  /-- Calibration: live and staging sets, 128 bytes each. -/
  live : Bytes := List.replicate 128 0
  staging : Bytes := List.replicate 128 0
  /-- Operating second at which the session opened. -/
  sessAt : Nat := 0
  /-- SHA-256 of the last legal log record, zeros before the first, and CAL_CRC_NEW of the last TYPE 2 record. -/
  logHash : Bytes := List.replicate 32 0
  calCrc : Option Nat := none
  /-- Active and passive calendars. -/
  acal : Bytes := []
  pcal : Bytes := []
  /-- Read buffer of TOT_BILL_DATA. -/
  billBuf : Bytes := List.replicate 256 0
  /-- Metrology event records written since first start; how it outlives a reset is not stated (log entry 85). -/
  evtTotal : Nat := 0
  /-- Metrology events that wait for the store. -/
  evq : List Bytes := []
deriving DecidableEq, Repr



/-- The Time Unit (R349–R366), less what its registers hold. -/
structure TimeState where
  /-- Schedule count, modulo 2^32. -/
  sched : Nat := 0
  /-- TAI since its epoch in units of 2^−32 s. -/
  tai : Nat := 0
  /-- TAI latched by a read of TU_SCHED: seconds and ns. -/
  latS : Nat := 0
  latNs : Nat := 0
  /-- AFE delays by port: TX_ADJ × 4,096 + RX_ADJ (R369). -/
  afe : Tbl Nat := []
  /-- Servo (R364): i and f in 1/256 ppb, first sample due, schedule count of the last sample. -/
  i : Int := 0
  f : Int := 0
  first : Bool := true
  lastSmp : Option Nat := none
  /-- Stamp of the last PPS_IN edge, in ns of TAI. -/
  lastPps : Option Nat := none
  /-- Transmit stamps waiting, by uplink: words 0 and 1 (R361). -/
  txtsA : List (Nat × Nat) := []
  txtsB : List (Nat × Nat) := []
  /-- Levels of EVT_OUT_0, EVT_OUT_1 and PPS_OUT, and which comparator holds an EVT_OUT ball high. -/
  evt0 : Option Nat := none
  evt1 : Option Nat := none
  pps : Bool := false
  /-- Schedule count of the last PPS_OUT pulse (R354). -/
  lastPulse : Option Nat := none

deriving DecidableEq, Repr


/-- A record-engine session as the engine holds it (R377): its context's fields, plaintext received and not yet taken as
messages, messages waiting to be closed into records, and the schedule count at which the last record was decrypted. -/
structure USess where
  /-- 0 = closed, 1 = open, 2 = stopped. -/
  st : Nat := 0
  /-- Kind; uplink; binding; error; ring size as a power of 2. -/
  kind : Nat := 0
  uplink : Nat := 0
  bind : Nat := 0
  err : Nat := 0
  ringLog : Nat := 12
  /-- Receive ring base; transmit ring base; receive write position; receive read position; transmit write position; transmit read
  position; receive sequence number; transmit sequence number. -/
  rxBase : Nat := 0
  txBase : Nat := 0
  rxWr : Nat := 0
  rxRd : Nat := 0
  txWr : Nat := 0
  txRd : Nat := 0
  rxSeq : Nat := 0
  txSeq : Nat := 0
  /-- Receive key; receive IV; transmit key; transmit IV. -/
  rxKey : Bytes := []
  rxIv : Bytes := []
  txKey : Bytes := []
  txIv : Bytes := []
  /-- Plaintext not yet taken as messages; schedule count of the last record decrypted; messages to be closed into records. -/
  inBuf : Bytes := []
  rxAt : Nat := 0
  outBuf : Bytes := []
deriving DecidableEq, Repr

/-- A section of a batch (R383): kind 1–4, first and last position. -/
structure USect where
  kind : Nat
  first : Nat
  last : Nat
deriving DecidableEq, Repr

/-- An unacknowledged batch of a partner (R384, R385). -/
structure UBatch where
  bseq : Nat
  /-- GAP and DAYCLOSE bits of FLAGS. -/
  flags : Nat
  /-- CREATED_S; sections. -/
  created : Nat
  sects : List USect
  /-- It has been sent; it has been sent and no resend is due. -/
  sent : Bool := false
  out : Bool := false
deriving DecidableEq, Repr

/-- A manifest body of 128 bytes (R387, R388): its day, whether the hoop has signed it since the restart, and whether it has
been sent on the present session. -/
structure UManifest where
  day : Nat
  body : Bytes
  signed : Bool := false
  sent : Bool := false
deriving DecidableEq, Repr

/-- A partner's export state (R386). -/
structure UPart where
  /-- Next position of each kind 1–4. -/
  pos : List Nat := [0, 0, 0, 0]
  /-- BSEQ of the next batch; batches not acknowledged. -/
  bseq : Nat := 1
  batches : List UBatch := []
  /-- Running hash, batches, first and last BSEQ, and records of each kind, of the day. -/
  day : Nat := 0
  dayHash : Bytes := List.replicate 32 0
  nbatch : Nat := 0
  firstB : Nat := 0
  lastB : Nat := 0
  /-- Records of each kind of the day; manifests not acknowledged. -/
  nrec : List Nat := [0, 0, 0, 0]
  manifests : List UManifest := []
  /-- SHA-256 of the previous manifest, signature included. -/
  prev : Bytes := List.replicate 32 0
  /-- First record log position not yet acknowledged. -/
  ackPos : Nat := 0
deriving DecidableEq, Repr

/-- The uplinks, sessions and partners. -/
structure UplState where
  /-- Results of R217 waiting to be returned: session and 8-byte entry, oldest first. -/
  results : List (Nat × Bytes) := []
  /-- Record-engine sessions 0–63. -/
  sess : Tbl USess := []
  /-- Partners 0–3. -/
  parts : Tbl UPart := []
  /-- Schedule count + 1 until which a received PAUSE holds uplink 0 or 1, 0 for none (R370). -/
  pause : Tbl Nat := []
deriving DecidableEq, Repr



/-- A Shuttle channel (R396–R408), less what its registers hold. Addresses are bits [35:4]. -/
structure ShuChan where
  /-- Active and shadow pointers. -/
  active : Nat := 0
  shadow : Nat := 0
  /-- A hand-over is in progress: an END or LOOP was fetched and no instruction since (R407). -/
  handing : Bool := false
  /-- Loop counter: the LOOP instruction that owns it, and its value (R403). -/
  loop : Option (Nat × Nat) := none
  /-- Running check value: ALG, and the data it covers (R402). -/
  chk : Option (Nat × Bytes) := none
  /-- Port whose transmit packet the channel holds open (R401). -/
  openPort : Option Nat := none
deriving DecidableEq, Repr

/-- The Shuttle: channels, and its SRAM byte by byte; an unlisted byte reads 0 (log entry 96). -/
structure ShuState where
  chans : Tbl ShuChan := []
  sram : Tbl Byte := []
deriving DecidableEq, Repr

/-- Gathering (R411–R419). -/
structure IntState where
  /-- EN, LOCK, PRI and TARGETS of each source, as INT_SRC_CFG places them. -/
  cfg : Tbl Word := []
  /-- Latches of the software sources. -/
  latch : List Nat := []
  /-- Stack of each target, top first: source and priority. -/
  stks : Tbl (List (Nat × Nat)) := []
  /-- Ticks left of each group's hold-off. -/
  hold : Tbl Nat := []
  /-- MSI-X vectors that last had an eligible source, and those whose pending bit is set. -/
  up : List Nat := []
  msixPend : List Nat := []
  /-- MSI-X function mask, and vectors masked by the host; PCI Express resets the vector masks to 1 (log entry 97). -/
  fnMask : Bool := false
  vecMask : List Nat := List.range 16
  /-- Cores in WFI, by target code 0–4. -/
  sleep : List Nat := []
deriving DecidableEq, Repr



/-- A Needlecase slot (R429, R430). -/
structure NdlSlot where
  attr : Nat := 0
  key : Bytes := []
  count : Nat := 0
  /-- The slot failed its overwrite check (R434). -/
  broken : Bool := false
deriving DecidableEq, Repr

/-- A Needlecase operation under way (R431–R438): its code once started, what it leaves in its result registers or buffer
(`res` at `addr`), the slot to destroy when it completes (R433), whether it writes the vault, and the former contents of the slots that
it changed, for a vault write that fails. -/
structure NdlOp where
  op : Nat
  slot : Nat
  code : Nat := 0
  res : Bytes := []
  addr : Nat := 0
  spent : Option Nat := none
  vault : Bool := false
  undo : List (Nat × NdlSlot) := []
deriving DecidableEq, Repr

/-- A counted change under way (R443): setting, image kind, value, and the new DOMAIN_ID. -/
structure CntOp where
  setting : Nat
  kind : Nat := 0
  value : Nat := 0
  arg : Bytes := []
deriving DecidableEq, Repr

/-- The hoop trust domain. -/
structure HoopState where
  /-- Needlecase, 512 slots. -/
  slots : Tbl NdlSlot := []
  /-- The operation under way. -/
  op : Option NdlOp := none
  /-- First NOR page of the vault block being erased (R438). -/
  vaultBusy : Option Nat := none
  /-- Debug is open until PONRST_N (R445). -/
  debugOpen : Bool := false
  /-- The device root secret (R427). -/
  drs : Bytes := List.replicate 32 0
  /-- OTP (R442): entries programmed of the domain identity; its value. -/
  domainUsed : Nat := 0
  domainId : Bytes := List.replicate 16 0
  /-- OTP (R442): entries programmed of each floor; the floors. -/
  floorUsed : List Nat := [0, 0, 0, 0]
  floors : List Nat := [0, 0, 0, 0]
  /-- OTP (R442): entries programmed of the pair role; the role. -/
  pairUsed : Nat := 0
  pairRole : Nat := 0
  /-- OTP (R442): entries programmed of debug; of unsealing. -/
  debugUsed : Nat := 0
  unsealUsed : Nat := 0
  /-- The counted change under way. -/
  cnt : Option CntOp := none
  /-- The identity CRC failed at the last release from reset (R441). -/
  idBad : Bool := false
  /-- Hoop SRAM, byte by byte; an unlisted byte reads 0. -/
  sram : Tbl Byte := []
deriving DecidableEq, Repr



/-- An activation under way (R458): OP, staging slot, running set at its start, and kinds already activated, latest first. -/
structure UpdJob where
  op : Nat
  stg : Nat
  old : List RunCont := []
  done : List Nat := []
deriving DecidableEq, Repr

/-- A set that a neighbour offers (R462): port, staging slot, set header, and units of the slot held. -/
structure Stitch where
  port : Nat
  stg : Nat
  header : Bytes
  got : List Nat := []
deriving DecidableEq, Repr

/-- Updating and booting. -/
structure UpdState where
  /-- The running set. -/
  run : List RunCont := []
  /-- Staging slots verified since they were last written (R454). -/
  verified : List Nat := []
  /-- The activation under way. -/
  job : Option UpdJob := none
  /-- A set was activated live since the last start (R456). -/
  live : Bool := false
  /-- The slot in trial was activated live (R460). -/
  liveTrial : Bool := false
  /-- The set that ran before a live activation, for REVERT. -/
  old : List RunCont := []
  /-- The set that a neighbour offers. -/
  stitch : Option Stitch := none
  /-- The recovery UART discards bytes up to the next 0xA5 (R466). -/
  hunt : Bool := false
deriving DecidableEq, Repr


/-- What the always-on domain keeps on VBAT (R470, R480, R484, R366, R491). -/
structure AoState where
  /-- Operating seconds, 40 bits. -/
  opsec : Nat := 0
  /-- RTC periods below one operating second, 0–32,767, in units of 1/32 period (ticks). -/
  opsub : Nat := 0
  /-- Power-cycle count. -/
  pcc : Nat := 0
  /-- Sequence number of the next Sampler record. -/
  seq : Nat := 0
  /-- Pair epoch. -/
  epoch : Nat := 0
  /-- Last ladder step taken. -/
  lastStep : Nat := 0
  /-- Consecutive step-3 power cycles. -/
  cycles : Nat := 0
  /-- Step-2 restarts. -/
  warmCnt : Nat := 0
  /-- RTC seconds since the end of the last ladder step, saturating at the longest window, 7,200 s; none before a first step
  (R480). -/
  escAgo : Option Nat := none
  /-- PWR_CYCLE_REQ_N driven low (R484). -/
  pwrReq : Bool := false
  /-- The restart that ends step 3 or 4 is still to come (R480). -/
  stepOpen : Bool := false
  /-- The RTC: TAI in units of 2^−15 s, as last reloaded, plus the time since. -/
  rtc : Nat := 0
  /-- RTC_TRIM as the RTC goes by it, and the correction gathered since the last whole period, in units of 2^−15 s ÷ 4,000,000
  (R43, R366). -/
  trim : Int := 0
  trimAcc : Int := 0
  /-- RTC_OK of R366. -/
  rtcOk : Bool := false
  /-- Level of SEAL_N after debouncing, and an opening seen while the device had no power, not yet recorded (R327). -/
  sealOpen : Bool := false
  sealLate : Bool := false
deriving DecidableEq, Repr

/-- A report in the Sampler's intake FIFO (R469, R476). -/
structure SmpEntry where
  code : Nat
  sev : Nat
  opsec : Nat
  pcc : Nat
  path : Nat
  data : Bytes
deriving DecidableEq, Repr

/-- A record of the on-chip log (R469); code 0 is an empty slot. -/
structure SmpRec where
  code : Nat := 0
  sev : Nat := 0
  rep : Nat := 0
  opsec : Nat := 0
  pcc : Nat := 0
  path : Nat := 0
  data : Bytes := []
  /-- The whole sequence number, of which SEQ16 is the low half. -/
  seq : Nat := 0
deriving DecidableEq, Repr

/-- The tally of lost reports (R476). -/
structure SmpTally where
  total : Nat := 0
  high : Nat := 0
  atHigh : Nat := 0
  opsec : Nat := 0
deriving DecidableEq, Repr

/-- The Sampler. -/
structure SmpState where
  fifo : List SmpEntry := []
  tally : SmpTally := {}
  /-- The on-chip log, 8,192 slots. -/
  slots : Tbl SmpRec := []
  /-- Slot of the most recent record written. -/
  last : Option Nat := none
  /-- The open mirror unit has changed since it was last written (R475). -/
  dirty : Bool := false
  /-- Read buffer of SMP_RD_SEL. -/
  rdBuf : Bytes := []
deriving DecidableEq, Repr

/-- The recovery ladder's own state (R480–R485). -/
structure LadderState where
  /-- Region that step 1 is resetting, 0 for none; it gets no grants. -/
  region : Nat := 0
  /-- The boot ROM has started a hoop image: the hoop watchdog counts. -/
  hoopRun : Bool := false
  /-- The field cores are out of reset: the field watchdog counts. -/
  fieldRun : Bool := false
  /-- Seconds left on the hoop watchdog. -/
  hwd : Nat := 0
  /-- Seconds left on the field watchdog. -/
  fwd : Nat := 0
  /-- Seconds since the last ladder step, up to 3,600 (R485). -/
  sinceStep : Nat := 0
deriving DecidableEq, Repr

/-- The pair link and takeover (R486–R494), less what SMP_PAIR_STAT and SMP_PAIR_SYNC hold. -/
structure PairState where
  /-- Highest MSEQ sent. -/
  txSeq : Nat := 0
  /-- Highest MSEQ received in order. -/
  rxSeq : Nat := 0
  /-- Highest MSEQ that the partner has confirmed. -/
  confirmed : Nat := 0
  /-- The partner's STATE, role, STO_REC_HEAD and digest of its last STATUS. -/
  peerState : Nat := 0
  peerRole : Nat := 0
  peerHead : Nat := 0
  peerDigest : Nat := 0
  /-- The partner has sent RELEASE since this device last became active, or before. -/
  released : Bool := false
  /-- Why a takeover is under way (REASON of R495), 0 for none. -/
  taking : Nat := 0
  /-- No commit is taken: waiting for a grant (R493) or yielding. -/
  held : Bool := false
  /-- A grant was installed since WIT_NEED was set, and its expiry stands in SMP_PAIR_WIT_EXP. -/
  granted : Bool := false
  /-- Messages sent and not yet confirmed: MSEQ, TYPE, BODY. -/
  sent : List (Nat × Nat × Bytes) := []
  /-- Slots updated by a live message during resynchronisation: their BULK entries are discarded. -/
  live : List Nat := []
  /-- The partner's EPOCH, as its last message carried it. -/
  peerEpoch : Nat := 0
  /-- Schedule count of the event that lets this device take over (TAKE_MS of R495). -/
  since : Nat := 0
  /-- JSEQ of the first journal unit of the present epoch. -/
  epochJ : Nat := 0
  /-- Bytes of BULK sent or received in the present phase of R494. -/
  bulk : Nat := 0
  /-- The device released to its keeper with the link down, and has still to send it the COMMITs of its epoch (R493). -/
  owes : Bool := false
deriving DecidableEq, Repr


/-- Pins and the start (R502–R508). -/
structure PinState where
  /-- PONRST_N is low: the device is held in reset. -/
  reset : Bool := false
  /-- PFAIL_N is low. -/
  pfail : Bool := false
  /-- BOOT_RCV_N is low. -/
  rcv : Bool := false
  /-- The boot ROM waits until PFAIL_N has been high for 100 ms (R508), and what it then carries on with: the start
  cause, whether a trial slot was just given up, and whether this is the restart of R467. -/
  bootWait : Option (Nat × Bool × Bool) := none
  /-- Levels of NAND0_PWR_EN and NAND1_PWR_EN (R505). -/
  nandPwr : List Bool := [false, false]
  /-- Since PONRST_N rose, the enables have been driven as the ST region pricking marks its channels (R505). -/
  nandSet : Bool := false
deriving DecidableEq, Repr

/-- The state of the block. -/
structure State where
  /-- Commands waiting, first in first out. -/
  pending : List Instr := []
  /-- The register file (R10–R15), less what other fields hold. -/
  regs : Tbl Word := []
  /-- External DRAM (R33), byte by byte; an unlisted byte reads 0 (log entry 4). -/
  dram : Tbl Byte := []
  /-- The fabric and the loader. -/
  fab : FabState := {}
  /-- Bytes of DRAM fitted to the board, less inline ECC (R33, R34); 4 GiB less 1/16 at reset (log entry 60). -/
  dramFit : Nat := 0xF0000000
  /-- Ports 0–63. -/
  ports : Tbl PortState := []
  /-- Intake. -/
  ink : InkState := {}
  /-- The Mender. -/
  mnd : MndState := {}
  /-- The Darner. -/
  drn : DrnState := {}
  /-- The store. -/
  sto : StoState := {}
  /-- Meter slot memory: 32-byte entries by slot number (R204); an unlisted slot is a cleared entry. -/
  msm : Tbl Bytes := []
  /-- The totaliser. -/
  tot : TotState := {}
  /-- The Time Unit. -/
  time : TimeState := {}
  /-- The uplinks. -/
  upl : UplState := {}
  /-- The Shuttle. -/
  shu : ShuState := {}
  /-- Gathering. -/
  intr : IntState := {}
  /-- The hoop trust domain. -/
  hoop : HoopState := {}
  /-- Updating and booting. -/
  upd : UpdState := {}
  /-- SPI NOR in pages of 4 KiB; an unlisted page is erased (log entry 5). -/
  nor : Tbl Bytes := []
  /-- While the time base is lost: what the NOR held when it was lost, since what was written after that waits (R43). -/
  norHeld : Option (Tbl Bytes) := none
  /-- The always-on domain (VBAT). -/
  ao : AoState := {}
  /-- The Sampler. -/
  smp : SmpState := {}
  /-- The recovery ladder. -/
  ladder : LadderState := {}
  /-- The pair. -/
  pair : PairState := {}
  /-- Pins and the start. -/
  pins : PinState := {}
  /-- MODEL: the word the last read command returned. -/
  busData : Word := 0
  /-- MODEL: what the block has sent on its links and pins, newest last. -/
  out : List Out := []
  /-- MODEL: number of free values drawn so far. -/
  draws : Nat := 0
deriving DecidableEq, Repr

/-- The machine right after reset: every register at its reset value, nothing listed anywhere, no command waiting. -/
def State.reset : State := {}

end Sys2Proof.Machine
end

