-- ==== Sys2Proof/Machine/Ops.lean ====
section
/-! DEFINITION. Sys2Proof/Machine/Ops.lean: the named operations on registers, memory, outputs and free values. -/

namespace Sys2Proof.Machine

/-! ## Registers. -/

/-- The word stored for a register key. -/
def State.raw (s : State) (k : Nat) : Word := tget Reg.resetOf s.regs k

/-- Store a word at a register key. -/
def State.wr (s : State) (k : Nat) (w : Word) : State := { s with regs := tset Reg.resetOf s.regs k w }

/-- Store a number at a register key. -/
def State.wrN (s : State) (k v : Nat) : State := s.wr k (word v)

/-- A register's word as a number. -/
def State.num (s : State) (k : Nat) : Nat := (s.raw k).toNat

/-- Field of a register. -/
def State.getF (s : State) (k : Nat) (f : BitRange) : Nat := fget f (s.raw k)

/-- ESC_LEFT: seconds until ESC_WIN after the end of the last ladder step (R480). -/
def State.escLeft (s : State) : Nat :=
  match s.ao.escAgo with
  | none => 0
  | some n => s.getF Reg.SMP_RCV_CTL Fld.SMP_RCV_CTL_ESC_WIN - n

/-- Is a one-bit field 1? -/
def State.isF (s : State) (k : Nat) (f : BitRange) : Bool := decide (s.getF k f = 1)

/-- The time base is lost (R43). -/
def State.tbLost (s : State) : Bool := s.isF Reg.TU_STAT Fld.TU_STAT_TB_LOST

/-- Put v in a field of a register. -/
def State.setF (s : State) (k : Nat) (f : BitRange) (v : Nat) : State := s.wr k (fput f (s.raw k) v)

/-- Set a field of a register to 1. -/
def State.raiseF (s : State) (k : Nat) (f : BitRange) : State := s.setF k f 1

/-- Set bit b of a register. -/
def State.raiseBit (s : State) (k b : Nat) : State := s.wr k (setBit (s.raw k) b true)

/-- Add n to a saturating 32-bit counter. -/
def State.bumpN (s : State) (k n : Nat) : State := s.wrN k (sat32 (s.num k) n)

/-- Add 1 to a saturating 32-bit counter. -/
def State.bump (s : State) (k : Nat) : State := s.bumpN k 1

/-- Add 1 to a counter field, saturating at all ones. -/
def State.bumpF (s : State) (k : Nat) (f : BitRange) : State :=
  s.setF k f (min (s.getF k f + 1) (2 ^ bwidth f - 1))

/-! ## DRAM. An unlisted byte reads 0 (log entry 4). -/

/-- One byte of DRAM. -/
def State.rdByte (s : State) (a : Nat) : Nat := (tget (fun _ => (0 : Byte)) s.dram a).toNat

/-- n bytes of DRAM from address a. -/
def State.rdMem (s : State) (a n : Nat) : Bytes := (List.range n).map (fun i => s.rdByte (a + i))

/-- DRAM with bytes b written from address a. -/
def dramPut (m : Tbl Byte) (a : Nat) (b : Bytes) : Tbl Byte :=
  match b with
  | [] => m
  | x :: r => dramPut (tset (fun _ => (0 : Byte)) m a (BitVec.ofNat 8 x)) (a + 1) r

/-- Write bytes b to DRAM from address a. -/
def State.wrMem (s : State) (a : Nat) (b : Bytes) : State := { s with dram := dramPut s.dram a b }

/-- A 64-bit address from a LO register (its low bits masked off below bit lo) and a HI register. -/
def State.addr64 (s : State) (klo khi lo : Nat) : Nat :=
  s.num klo / 2 ^ lo * 2 ^ lo + s.num khi * 2 ^ 32

/-! ## Outputs, read data, free values. -/

/-- Send something out. -/
def State.emit (s : State) (o : Out) : State := { s with out := s.out ++ [o] }

/-- Change the always-on domain. -/
def State.aoMod (s : State) (f : AoState → AoState) : State := { s with ao := f s.ao }

/-- Answer a read with a word. -/
def State.answer (s : State) (w : Word) : State := { s with busData := w }

/-- The next free value below n (0 when n is 0). -/
def State.drawn (s : State) (n : Nat) : Nat := Config.freeValue s.draws % n

/-- Count one draw. -/
def State.draw (s : State) : State := { s with draws := s.draws + 1 }

/-- Apply f when c holds. -/
def State.when (s : State) (c : Bool) (f : State → State) : State := if c then f s else s

/-- Apply f to every element of a list in order. -/
def State.each {α : Type} (s : State) (l : List α) (f : α → State → State) : State := l.foldl (fun t a => f a t) s

/-- The outcome of a command: the next state. -/
abbrev ok (s : State) : Host.Outcome State Fault Refusal := .next s

/-- The state after an operation. -/
def State.did (s : State) (f : State → Host.Outcome State Fault Refusal) : State :=
  match f s with
  | .next t => t
  | .fault _ => s
  | .refused _ => s

/-! ## Places (R18). -/

/-- Hierarchy path of region r, block b, cell c. -/
def pathOf (r b c : Nat) : Nat := r * 0x1000 + b * 0x40 + c

/-- Path of the whole of block b of region r. -/
def blockPath (r b : Nat) : Nat := pathOf r b 0x3F

/-- Path of the whole of region r. -/
def regionPath (r : Nat) : Nat := r * 0x1000 + 0xFFF

/-- Region code of port n's group. -/
def portRegion (n : Nat) : Nat := 1 + n / 16

/-! ## Reports to the Sampler (R470, R476). -/

/-- A report as the FIFO holds it: stamped with OPSEC and PCC, which are provisional while PROVISIONAL is 1 (R470). -/
def State.entry (s : State) (code sev path : Nat) (data : Bytes) : SmpEntry := {
  code := code, sev := sev, opsec := s.ao.opsec,
  pcc := if s.isF Reg.SMP_STAT Fld.SMP_STAT_PROVISIONAL then 0xFFFFFF else s.ao.pcc,
  path := path, data := padTo 14 data }

/-- A report enters the Sampler's FIFO, or is lost and tallied when 256 entries wait. -/
def State.report (s : State) (code sev path : Nat) (data : Bytes) : State :=
  if s.smp.fifo.length < 256 then { s with smp := { s.smp with fifo := s.smp.fifo ++ [s.entry code sev path data] } }
  else
    let t := s.smp.tally
    let t' : SmpTally := {
      total := t.total + 1,
      high := if t.total = 0 then sev else max t.high sev,
      atHigh := if t.total = 0 ∨ t.high < sev then 1 else if t.high = sev then t.atHigh + 1 else t.atHigh,
      opsec := if t.total = 0 then s.ao.opsec else t.opsec }
    { s with smp := { s.smp with tally := t' } }.bump (0x040040 + 4 * (sev % 8))

end Sys2Proof.Machine
end

