-- ==== Sys2Proof/Machine/Dsp.lean ====
section
/-! DEFINITION. Sys2Proof/Machine/Dsp.lean: arithmetic of the line waveform in fixed point (R78, R93, R100; log entry 168) and
the words of the sample lanes (R101, R102). Nothing here knows the State. -/

namespace Sys2Proof.Machine

/-! ## Complex numbers with 40 fraction bits. -/

/-- The unit of the fixed-point scale. -/
abbrev unit40 : Int := 2 ^ 40

/-- A value of twice the scale, brought back to it. -/
def down40 (v : Int) : Int := v / unit40

/-- Sum. -/
def Cx.plus (a b : Cx) : Cx := ⟨a.re + b.re, a.im + b.im⟩

/-- Difference. -/
def Cx.minus (a b : Cx) : Cx := ⟨a.re - b.re, a.im - b.im⟩

/-- Product. -/
def Cx.times (a b : Cx) : Cx := ⟨down40 (a.re * b.re - a.im * b.im), down40 (a.re * b.im + a.im * b.re)⟩

/-- Conjugate. -/
def Cx.conj (a : Cx) : Cx := ⟨a.re, -a.im⟩

/-- Negative. -/
def Cx.neg (a : Cx) : Cx := ⟨-a.re, -a.im⟩

/-- a × p ÷ q. -/
def Cx.frac (a : Cx) (p q : Int) : Cx := ⟨a.re * p / q, a.im * p / q⟩

/-- Integer square root by bits: the largest r below 2^k with r² ≤ n, built from bit k − 1 down. -/
def isqrtFrom (n k r : Nat) : Nat :=
  match k with
  | 0 => r
  | j + 1 => isqrtFrom n j (if (r + 2 ^ j) * (r + 2 ^ j) ≤ n then r + 2 ^ j else r)

/-- Integer square root of a number below 2^128. -/
def isqrt (n : Nat) : Nat := isqrtFrom n 64 0

/-- Square of the magnitude, at twice the scale. -/
def Cx.power (a : Cx) : Int := a.re * a.re + a.im * a.im

/-- Sum of a list. -/
def cxSum (l : List Cx) : Cx := l.foldl Cx.plus ⟨0, 0⟩

/-- π × 2^40, to the nearest integer. -/
def pi40 : Int := 3454217652358

/-- Terms of Taylor's series from term i on: t is the present term, x2 the square of the argument; k bounds them. -/
def series (x2 t i : Int) (k : Nat) : Int :=
  match k with
  | 0 => 0
  | j + 1 => t + series x2 (-(down40 (t * x2)) / (i * (i + 1))) (i + 2) j

/-- exp(j × 2π × p ÷ q). -/
def cis (p q : Nat) : Cx :=
  let r : Int := (p % q : Nat)
  let x := 2 * pi40 * (if (q : Int) < 2 * r then r - q else r) / q
  let x2 := down40 (x * x)
  ⟨series x2 unit40 1 16, series x2 x 2 16⟩

/-- exp(j × 2π × n ÷ N) for n = 0 … N − 1. -/
def turnsOf (n : Nat) : Array Cx := ((List.range n).map (fun i => cis i n)).toArray

/-- Σ Re(X_k × exp(j × 2π × k × n ÷ N)) for n = 0 … N − 1, over carriers with values (R78). -/
def synth (n : Nat) (xs : List (Nat × Cx)) : List Int :=
  let w := turnsOf n
  (List.range n).map (fun i => (xs.map (fun e => (e.2.times (w.getD (e.1 * i % n) ⟨0, 0⟩)).re)).sum)

/-- Σ x[n] × exp(−j × 2π × k × n ÷ N): the value that carrier k shows. -/
def analyse (w : Array Cx) (n : Nat) (xs : List Int) (k : Nat) : Cx :=
  cxSum (xs.zipIdx.map (fun e => let t := w.getD (k * e.2 % n) ⟨0, 0⟩; ⟨e.1 * t.re, -(e.1 * t.im)⟩))

/-! ## Lane words (R101). -/

/-- A word with the parity bit that makes its number of ones even. -/
def withPar (w : Nat) : Nat := 2 * w + ((List.range 16).filter (fun i => w.testBit i)).length % 2

/-- The word of a sample; the transmit lane's FLAG is 0. -/
def sampleWord (v : Int) : Nat := withPar ((0b10 * 4096 + unsigned 12 v) * 2)

/-- The word of a control code. -/
def controlWord (code : Nat) : Nat := withPar ((0b01 * 4096 + code % 64 * 64) * 2)

/-- Idle and align words. -/
abbrev idleWord : Nat := controlWord 0
abbrev alignWord : Nat := controlWord 0x2A

/-- TYPE of a word. -/
def wordType (w : Nat) : Nat := w / 2 ^ 14 % 4

/-- Is a word's TYPE valid and its parity even? -/
def wordGood (w : Nat) : Bool :=
  (decide (wordType w = 1) || decide (wordType w = 2)) && decide (((List.range 16).filter (fun i => w.testBit i)).length % 2 = 0)

/-- Is a word a control word whose code is neither idle nor align? -/
def wordOdd (w : Nat) : Bool :=
  wordGood w && decide (wordType w = 1) && decide (w / 256 % 64 ≠ 0) && decide (w / 256 % 64 ≠ 0x2A)

/-- Is word index i a sample slot, in group clock plan 1 (L26) or 2 (M64) (R102)? -/
def slotAt (plan : Nat) (fcc : Bool) (i : Nat) : Bool :=
  if plan = 1 then fcc || decide (i % 4 = 0)
  else if fcc then decide (i % 5 = 0) || decide (i % 5 = 3) else decide (i % 10 = 0)

/-- Place in the pattern of a sample slot with word index i: the pattern has one slot, but for FCC in M64, which has two (R102). -/
def slotFrom (plan : Nat) (fcc : Bool) (i : Nat) : Nat := if plan ≠ 1 ∧ fcc = true ∧ i % 5 = 3 then 3 else 0

/-- Words that k sample periods take, from a slot at place i of the pattern. -/
def wordsOf (plan : Nat) (fcc : Bool) (i k : Nat) : Nat :=
  if plan = 1 then (if fcc then k else 4 * k) else if fcc then (if i = 3 then 5 * k / 2 else (5 * k + 1) / 2) else 10 * k

/-- Samples on a transmit lane from word index i on, k words: each in its slot, idle words between (R102). -/
def laneOut (plan : Nat) (fcc : Bool) (i k : Nat) (xs : List Int) : List Nat :=
  match k with
  | 0 => []
  | j + 1 =>
    if slotAt plan fcc i then
      match xs with
      | [] => idleWord :: laneOut plan fcc (i + 1) j []
      | x :: r => sampleWord x :: laneOut plan fcc (i + 1) j r
    else idleWord :: laneOut plan fcc (i + 1) j xs

/-- Samples that words of a receive lane carry, from word index i on; each with its FLAG and its place among the words. A bad
word in a sample slot gives a free value. -/
def laneIn (plan : Nat) (fcc : Bool) (d i : Nat) (l : List Nat) : List (Nat × Int × Bool) :=
  (l.zipIdx.filter (fun e => slotAt plan fcc (i + e.2))).map (fun e =>
    if wordGood e.1 ∧ wordType e.1 = 2 then (e.2, signed 12 (e.1 / 4 % 4096), e.1.testBit 1)
    else (e.2, signed 12 (Config.badWord d e.2 % 4096), decide (Config.badWord d e.2 / 4096 % 2 = 1)))

/-- Has a lane's last 32 words what alignment takes: all good, at least 8 of them align words (R103)? -/
def alignedBy (l : List Nat) : Bool :=
  let t := l.drop (l.length - 32)
  decide (t.length = 32) && t.all wordGood && decide (8 ≤ (t.filter (fun w => decide (w = alignWord))).length)

/-- Are 4 of a lane's last 16 words bad (R103)? -/
def lostBy (l : List Nat) : Bool := decide (4 ≤ ((l.drop (l.length - 16)).filter (fun w => !wordGood w)).length)

end Sys2Proof.Machine
end

