-- ==== Sys2Proof/Machine/Wenros.lean ====
section
/-! DEFINITION. Sys2Proof/Machine/Wenros.lean: the Wenros line waveform as arithmetic (R76–R98): header word, symbol count,
coding chain and its decoders, interleaver, pilots, carrier values, the samples of a frame, tone-map choice. Nothing here knows the
State. -/

namespace Sys2Proof.Machine

/-- Header fields (R81). -/
structure LineHdr where
  mode : Nat
  code : Nat
  rep : Nat
  tmi : Nat
  ilv : Nat
  len : Nat
deriving DecidableEq, Repr

/-- Bits of a number, highest first. -/
def bitsHi (w v : Nat) : List Bool := (List.range w).map (fun i => v.testBit (w - 1 - i))

/-- CRC-16 over the 32 header bits H[47:16], bit 47 first (R81). -/
def hcrc (h : Nat) : Nat := crc16 (bytesBE 4 (h / 2 ^ 16 % 2 ^ 32))

/-- The 48-bit header word. -/
def hdrWord (x : LineHdr) : Nat :=
  let hi := ((((x.mode * 4 + x.code) * 4 + x.rep) * 16 + x.tmi) * 512 + x.ilv) * 2048 + x.len
  let h := hi * 2 ^ 17
  h + hcrc h

/-- Fields of a header word. -/
def hdrOf (h : Nat) : LineHdr :=
  { mode := h / 2 ^ 45 % 8, code := h / 2 ^ 43 % 4, rep := h / 2 ^ 41 % 4, tmi := h / 2 ^ 37 % 16,
    ilv := h / 2 ^ 28 % 512, len := h / 2 ^ 17 % 2048 }

/-- Bits per carrier of a mode (R89). -/
def modeBits (mode : Nat) : Nat :=
  match mode with
  | 0 | 2 => 1
  | 1 | 3 => 2
  | 4 => 3
  | _ => 4

/-- Coded bits that a payload symbol carries with A active carriers (R89). -/
def symBits (mode a : Nat) : Nat := (if mode ≤ 1 then a else 7 * a / 8) * modeBits mode

/-- Repetition factor (R88). -/
def repFactor (rep : Nat) : Nat := if rep = 0 then 1 else if rep = 1 then 4 else 8

/-- Reed-Solomon blocks of a PSDU (R86). -/
def rsBlocks (len : Nat) : Nat := (len + 238) / 239

/-- Bytes into the convolutional encoder: parity is added in normal mode only. -/
def codedBytes (rep len : Nat) : Nat := if rep = 0 then len + 16 * rsBlocks len else len

/-- Coded bits of n input bits at a rate (R90). -/
def codedBits (code n : Nat) : Nat :=
  match code with
  | 0 => 2 * n
  | 1 => n + (n + 1) / 2
  | _ => n + (n + 2) / 3

/-- NSYM (R90). -/
def nsymOf (x : LineHdr) (q : Nat) : Nat :=
  let t := codedBits x.code (8 * codedBytes x.rep x.len + 6) * repFactor x.rep
  if q = 0 then 0 else (t + q - 1) / q

/-! ## Coding chain. -/

/-- The scrambler of R85 over a bit string, from a state. -/
def scrambleFrom (st : Nat) (l : List Bool) : List Bool :=
  match l with
  | [] => []
  | d :: r =>
    let fb := (st / 64 + st / 8) % 2
    (d != decide (fb = 1)) :: scrambleFrom ((st * 2 + fb) % 128) r

/-- Bits of bytes, least significant first (R84). -/
def bitsOf (b : Bytes) : List Bool := b.flatMap (fun x => (List.range 8).map (fun i => x.testBit i))

/-- Bytes of bits. -/
def bytesOfBits (l : List Bool) : Bytes :=
  (List.range (l.length / 8)).map (fun i => (List.range 8).foldr (fun j a => (l.getD (8 * i + j) false).toNat + 2 * a) 0)

/-- Multiply by α in GF(2^8) with x^8 + x^4 + x^3 + x^2 + 1 (R86). -/
def rsAlpha (a : Nat) : Nat := if a < 128 then 2 * a else (2 * a % 256) ^^^ 0x1D

/-- Product in that field. -/
def rsMul (a b : Nat) : Nat :=
  ((List.range 8).foldl (fun (p : Nat × Nat) i => (if b.testBit i then p.1 ^^^ p.2 else p.1, rsAlpha p.2)) (0, a)).1

/-- The generator's coefficients below x^16, highest first: product of (x − α^i), i = 0 … 15. -/
def rsGen : Bytes :=
  ((List.range 16).foldl (fun (p : Bytes × Nat) _ =>
    (List.zipWith (· ^^^ ·) (p.1 ++ [0]) (0 :: p.1.map (rsMul p.2)), rsAlpha p.2)) ([1], 1)).1.tail

/-- The 16 parity bytes of a block. -/
def rsParity (b : Bytes) : Bytes :=
  b.foldl (fun st x =>
    let f := (st.headD 0) ^^^ x
    List.zipWith (· ^^^ ·) (st.tail ++ [0]) (rsGen.map (rsMul f))) (List.replicate 16 0)

/-- Lengths of the blocks that a PSDU of len bytes is split into (R86). -/
def rsLens (len : Nat) : List Nat :=
  let b := rsBlocks len
  (List.range b).map (fun i => len / b + (if i < len - b * (len / b) then 1 else 0))

/-- Blocks of a byte string by their lengths. -/
def splitLens (l : List Nat) (b : Bytes) : List Bytes :=
  match l with
  | [] => []
  | n :: r => b.take n :: splitLens r (b.drop n)

/-- Every block followed by its parity. -/
def rsEncode (b : Bytes) : Bytes := (splitLens (rsLens b.length) b).flatMap (fun x => x ++ rsParity x)

/-- Outputs A and B of the encoder of R87 for each input bit; the register holds the last six bits. -/
def convPairs (reg : Nat) (l : List Bool) : List (Bool × Bool) :=
  match l with
  | [] => []
  | d :: r =>
    let w := reg + 64 * d.toNat
    let par := fun m => decide (((List.range 7).filter (fun i => (w &&& m).testBit i)).length % 2 = 1)
    (par 0o133, par 0o171) :: convPairs (w / 2) r

/-- Puncturing (R87); i is the index of the input bit. -/
def puncture (code i : Nat) (l : List (Bool × Bool)) : List Bool :=
  match l with
  | [] => []
  | (a, b) :: r =>
    (match code, (if code = 1 then i % 2 else i % 3) with
      | 0, _ => [a, b]
      | 1, 0 => [a, b]
      | 1, _ => [a]
      | _, 0 => [a, b]
      | _, 1 => [a]
      | _, _ => [b]) ++ puncture code (i + 1) r

/-- Coded and repeated payload bits with the fill of R90. -/
def payloadBits (x : LineHdr) (psdu : Bytes) (q : Nat) : List Bool :=
  let sc := scrambleFrom 127 (bitsOf psdu)
  let by' := if x.rep = 0 then bitsOf (rsEncode (bytesOfBits sc)) else sc
  let cv := puncture x.code 0 (convPairs 0 (by' ++ List.replicate 6 false))
  let rp := cv.flatMap (fun b => List.replicate (repFactor x.rep) b)
  let total := nsymOf x q * q
  let fill := (scrambleFrom 127 (bitsOf psdu ++ List.replicate (total - rp.length) false)).drop (8 * psdu.length)
  rp ++ fill

/-- aj of R91: the smallest integer from c on that is coprime to m. -/
def coprimeFrom (m c k : Nat) : Nat :=
  match k with
  | 0 => c
  | j + 1 => if Nat.gcd c m = 1 then c else coprimeFrom m (c + 1) j

/-- Symbols in interleaver block j. -/
def ilvSyms (nsym ilv j : Nat) : Nat := min ilv (nsym - j * ilv)

/-- Payload symbol and bit offset that coded bit k of the payload goes to (R91). -/
def ilvPlace (nsym ilv q k : Nat) : Nat × Nat :=
  let j := k / (ilv * q)
  let m := ilvSyms nsym ilv j * q
  let a := coprimeFrom m (q + 1) m
  let p := (a * (k % (ilv * q))) % m
  (j * ilv + p / q, p % q)

/-- Interleaved payload bits in the order in which the symbols carry them. -/
def ilvBits (nsym ilv q : Nat) (l : List Bool) : List Bool :=
  let placed := (List.range l.length).map (fun k => (let (s, u) := ilvPlace nsym ilv q k; s * q + u, l.getD k false))
  (placed.foldl (fun (t : Tbl Bool) e => tput t e.1 e.2) []).map (·.2)

/-- The 108 coded header bits (R82). -/
def hdrBits (h : Nat) : List Bool :=
  (convPairs 0 (bitsHi 48 h ++ List.replicate 6 false)).flatMap (fun p => [p.1, p.2])

/-- The pilot generator's bits (R94): scrambler outputs fed with zeros. -/
def pilotBits (n : Nat) : List Bool := scrambleFrom 127 (List.replicate n false)

/-- Is list index i a pilot in payload symbol s (R94)? -/
def isPilot (i s : Nat) : Bool := decide ((i + 7 * s) % 8 = 0)

/-! ## Carrier values (R80–R82, R91, R93, R94). -/

/-- A band plan with the notches of a port (R76): FFT size, lowest carrier index, carriers in the plan, and the plan indices of the
non-notched ones in ascending order. -/
structure LinePlan where
  n : Nat
  kmin : Nat
  nc : Nat
  cs : List Nat

/-- The plan that PLAN selects, with the carriers that are not notched. -/
def planOf (fcc : Bool) (cs : List Nat) : LinePlan := if fcc then ⟨2048, 192, 424, cs⟩ else ⟨512, 52, 64, cs⟩

/-- Values of carriers, by plan index. -/
abbrev Carriers := List (Nat × Cx)

/-- The lead symbol: P_c on every non-notched carrier (R80). -/
def leadValues (p : LinePlan) : Carriers := p.cs.map (fun c => (c, cis (c * c) (2 * p.nc)))

/-- The turn symbol: −P_c. -/
def turnValues (p : LinePlan) : Carriers := (leadValues p).map (fun e => (e.1, e.2.neg))

/-- Header symbols from symbol h on, k of them, each DBPSK to the one before it (R82). -/
def headValues (bits : Array Bool) (h k : Nat) (prev : Carriers) : List Carriers :=
  match k with
  | 0 => []
  | j + 1 =>
    let x := prev.zipIdx.map (fun e =>
      (e.1.1, if bits.getD ((h * prev.length + e.2) % 108) false then e.1.2.neg else e.1.2))
    x :: headValues bits (h + 1) j x

/-- Amplitudes 1 ÷ √2 and 1 ÷ √10. -/
abbrev amp2 : Int := 777472127994
abbrev amp10 : Int := 347696105761

/-- Amplitude of two bits of 16QAM, times √10. -/
def pamLevel (b0 b1 : Bool) : Int :=
  match b0, b1 with
  | false, false => -3
  | false, true => -1
  | true, true => 1
  | true, false => 3

/-- What the bits b0 b1 … of a carrier stand for: the phase change in modes 0 and 1, else the constellation point (R93). -/
def carrierPoint (mode : Nat) (b : List Bool) : Cx :=
  let b0 := b.getD 0 false
  let b1 := b.getD 1 false
  let sgn := fun (x : Bool) => if x then -amp2 else amp2
  match mode with
  | 0 | 2 => if b0 then ⟨-unit40, 0⟩ else ⟨unit40, 0⟩
  | 1 => if b0 then (if b1 then ⟨-unit40, 0⟩ else ⟨0, -unit40⟩) else (if b1 then ⟨0, unit40⟩ else ⟨unit40, 0⟩)
  | 3 => ⟨sgn b0, sgn b1⟩
  | 4 =>
    let v := 4 * b0.toNat + 2 * b1.toNat + (b.getD 2 false).toNat
    cis (([0, 1, 3, 2, 7, 6, 4, 5] : List Nat).getD v 0) 8
  | _ => ⟨pamLevel b0 b1 * amp10, pamLevel (b.getD 2 false) (b.getD 3 false) * amp10⟩

/-- Pilots of symbol s among a active carriers, and pilots of all symbols before it (R94). -/
def pilotsIn (a s : Nat) : Nat := ((List.range a).filter (fun i => isPilot i s)).length
def pilotsBefore (a s : Nat) : Nat := ((List.range s).map (pilotsIn a)).sum

/-- Is list index i a pilot in symbol s of a frame of this mode? -/
def pilotAt (mode i s : Nat) : Bool := decide (2 ≤ mode) && isPilot i s

/-- Values of a payload symbol's active carriers from list index i on: `bits` are the symbol's bits and d its first data carrier
still to fill, `pil` the pilot bits and p the next of them (R91, R93, R94). -/
def payValues (mode s : Nat) (bits pil : Array Bool) (i d p : Nat) (act : List Nat) (prev : Carriers) : Carriers :=
  match act with
  | [] => []
  | c :: r =>
    if pilotAt mode i s then
      (c, if pil.getD p false then ⟨-unit40, 0⟩ else ⟨unit40, 0⟩) :: payValues mode s bits pil (i + 1) d (p + 1) r prev
    else
      let m := modeBits mode
      let x := carrierPoint mode ((List.range m).map (fun j => bits.getD (d * m + j) false))
      (c, if mode ≤ 1 then (tget (fun _ => ⟨0, 0⟩) prev c).times x else x) :: payValues mode s bits pil (i + 1) (d + 1) p r prev

/-- Payload symbols from symbol s on, k of them. -/
def paySymbols (mode q : Nat) (bits pil : Array Bool) (act : List Nat) (s k : Nat) (prev : Carriers) : List Carriers :=
  match k with
  | 0 => []
  | j + 1 =>
    let x := payValues mode s (bits.extract (s * q) (s * q + q)) pil 0 0 (pilotsBefore act.length s) act prev
    x :: paySymbols mode q bits pil act (s + 1) j x

/-! ## Samples of a frame (R78, R79, R106). -/

/-- G with 40 fraction bits: a payload symbol of a unit-power carriers then has RMS TX_RMS (R78). -/
def gainOf (rms a : Nat) : Int := (isqrt (2 * rms * rms * 2 ^ 80 / max 1 a) : Nat)

/-- A symbol's samples before clipping, with its cyclic prefix or without. -/
def symSamples (p : LinePlan) (g : Int) (cp : Bool) (xs : Carriers) : List Int :=
  let x := (synth p.n (xs.map (fun e => (p.kmin + e.1, e.2)))).map (fun v => (g * v + 2 ^ 79) / 2 ^ 80)
  if cp then x.drop (p.n - p.n / 8) ++ x else x

/-- Samples of a frame, before clipping: lead, turn, header and payload symbols; a payload symbol in `missed` is zeros. -/
def frameSamples (p : LinePlan) (act : List Nat) (rms hdr : Nat) (psdu : Bytes) (missed : List Nat) : List Int :=
  let x := hdrOf hdr
  let q := symBits x.mode act.length
  let nsym := nsymOf x q
  let g := gainOf rms act.length
  let head := headValues (hdrBits hdr).toArray 0 4 (turnValues p)
  let bits := (ilvBits nsym x.ilv q (payloadBits x psdu q)).toArray
  let pay := paySymbols x.mode q bits (pilotBits (pilotsBefore act.length nsym)).toArray act 0 nsym (head.getD 3 [])
  let lead := symSamples p g false (leadValues p)
  (List.range 8).flatMap (fun _ => lead) ++ (List.range 2).flatMap (fun _ => symSamples p g false (turnValues p)) ++
    head.flatMap (symSamples p g true) ++
    pay.zipIdx.flatMap (fun e => if missed.contains e.2 then List.replicate (p.n / 8 + p.n) 0 else symSamples p g true e.1)

/-- Samples of a frame's preamble and of its first h header symbols. -/
def headSamples (p : LinePlan) (h : Nat) : Nat := 10 * p.n + h * (p.n / 8 + p.n)

/-- A sample as it is sent. -/
def clipSample (v : Int) : Int := clampI (-2047) 2047 v

/-- Samples that are clipped. -/
def clipsIn (l : List Int) : Nat := (l.filter (fun v => decide (clipSample v ≠ v))).length

/-! ## Impulse marks (R97). -/

/-- Samples with a mark on each that lies within g of a flagged one. -/
def markSamples (g : Nat) (l : List (Int × Bool)) : List (Int × Bool) :=
  let pos := (l.zipIdx.filter (fun e => e.1.2)).map (·.2)
  l.zipIdx.map (fun e => (e.1.1, pos.any (fun p => decide (p ≤ e.2 + g) && decide (e.2 ≤ p + g))))

/-- Flag samples by their size (R97 step 1). -/
def flagSamples (thr : Nat) (l : List (Int × Bool)) : List (Int × Bool) :=
  l.map (fun e => (e.1, e.2 || decide (thr ≤ e.1.natAbs ∧ thr ≠ 2048) || decide (e.1 = -2048)))

/-- Marked samples of a list. -/
def marksIn (l : List (Int × Bool)) : Nat := (l.filter (·.2)).length

/-- Samples with the marked ones set to 0. -/
def blankSamples (l : List (Int × Bool)) : List Int := l.map (fun e => if e.2 then 0 else e.1)

/-! ## Preamble (R80, R100). -/

/-- Correlation of a period with the lead symbol, and the energies of both, marked samples left out. -/
def corrOf (lead : List Int) (l : List (Int × Bool)) : Int × Int × Int :=
  (List.zip lead l).foldl (fun a e =>
    if e.2.2 then a else (a.1 + e.1 * e.2.1, a.2.1 + e.1 * e.1, a.2.2 + e.2.1 * e.2.1)) (0, 0, 0)

/-- Does a normalised correlation reach thr ÷ 256? -/
def corrReaches (thr : Nat) (c : Int × Int × Int) : Bool :=
  decide (0 < c.1) && decide ((thr : Int) * thr * c.2.1 * c.2.2 ≤ 65536 * c.1 * c.1)

/-- Correlations of the ten periods of a preamble. -/
def preambleCorrs (p : LinePlan) (l : List (Int × Bool)) : List (Int × Int × Int) :=
  let lead := synth p.n ((leadValues p).map (fun e => (p.kmin + e.1, e.2)))
  (List.range 10).map (fun i => corrOf lead ((l.drop (i * p.n)).take p.n))

/-- What the carriers of a plan show in the useful part of a symbol. -/
def carriersOf (p : LinePlan) (cs : List Nat) (xs : List Int) : Carriers :=
  let w := turnsOf p.n
  cs.map (fun c => (c, analyse w p.n xs (p.kmin + c)))

/-- Channel estimates at the start: the mean of Y ÷ P_c over the periods that are not erased, the turn symbols negated (R100). -/
def startEst (p : LinePlan) (good : List (Nat × List Int)) : Carriers :=
  let ys := good.map (fun e => (carriersOf p p.cs e.2).map (fun y => if e.1 < 8 then y else (y.1, y.2.neg)))
  (leadValues p).map (fun e =>
    (e.1, ((cxSum (ys.map (fun y => tget (fun _ => ⟨0, 0⟩) y e.1))).times e.2.conj).frac 1 (max 1 good.length : Nat)))

/-! ## Soft values (R82, R93, R100; log entry 169). -/

/-- Soft values of a carrier's bits: y was received, h is its reference or channel estimate; positive for 0. -/
def softBits (mode : Nat) (y h : Cx) : List Int :=
  let m := modeBits mode
  let d := (List.range (2 ^ m)).map (fun v => (v, down40 (y.minus (h.times (carrierPoint mode (bitsHi m v)))).power))
  let least := fun (l : List (Nat × Int)) => (l.map (·.2)).foldl min (((l.map (·.2)).headD 0))
  (List.range m).map (fun j =>
    least (d.filter (fun e => e.1.testBit (m - 1 - j))) - least (d.filter (fun e => !e.1.testBit (m - 1 - j))))

/-- Half of a soft value. -/
def halfSoft (v : Int) : Int := Int.tdiv v 2

/-- Add a header symbol's soft values to the sums of the 108 coded bits (R82). -/
def headAdd (h : Nat) (ys ref : Carriers) (half : Bool) (sums : List Int) : List Int :=
  let l := ys.zipIdx.map (fun e =>
    let v := (softBits 0 e.1.2 (tget (fun _ => ⟨0, 0⟩) ref e.1.1)).headD 0
    ((h * ys.length + e.2) % 108, if half then halfSoft v else v))
  (List.range 108).map (fun i => sums.getD i 0 + ((l.filter (fun e => decide (e.1 = i))).map (·.2)).sum)

/-- Put a symbol's values into the deinterleaving store; a full block moves on, deinterleaved (R91, R92). -/
def LineRx.push (r : LineRx) (nsym ilv q : Nat) (l : List (Int × Bool)) : LineRx :=
  let st := r.store ++ l
  let j := r.sym / max 1 ilv
  let m := ilvSyms nsym ilv j * q
  if m ≤ st.length then
    let a := coprimeFrom m (q + 1) m
    let t := st.toArray
    { r with store := [], coded := r.coded ++ (List.range m).map (fun i => t.getD (a * i % max 1 m) (0, true)), sym := r.sym + 1 }
  else { r with store := st, sym := r.sym + 1 }

/-! ## Decoders (R82, R84–R88, R98, R99). -/

/-- Add the soft values of the F copies of each bit; a bit is erased if every copy is (R88, R98). -/
def addCopies (f : Nat) (l : List (Int × Bool)) (k : Nat) : List (Int × Bool) :=
  match k with
  | 0 => []
  | j + 1 =>
    let c := l.take f
    ((c.map (·.1)).sum, c.all (·.2)) :: addCopies f (l.drop f) j

/-- First coded bit of encoder input bit i, after puncturing, and how many it sends (R87). -/
def codedAt (code i : Nat) : Nat × Nat :=
  match code with
  | 0 => (2 * i, 2)
  | 1 => (i / 2 * 3 + (if i % 2 = 0 then 0 else 2), if i % 2 = 0 then 2 else 1)
  | _ => (i / 3 * 4 + (if i % 3 = 0 then 0 else i % 3 + 1), if i % 3 = 0 then 2 else 1)

/-- Soft values of outputs A and B of input bit i, 0 for what is not sent. -/
def softPair (code : Nat) (soft : Array Int) (i : Nat) : Int × Int :=
  let (a, k) := codedAt code i
  if k = 2 then (soft.getD a 0, soft.getD (a + 1) 0)
  else if code = 2 ∧ i % 3 = 2 then (0, soft.getD a 0)
  else (soft.getD a 0, 0)

/-- A path of the decoder: its measure and its bits, last first. -/
abbrev Path := Int × List Bool

/-- The better of two paths; the first on a tie. -/
def betterPath (a b : Option Path) : Option Path :=
  match a, b with
  | none, y => y
  | x, none => x
  | some x, some y => if x.1 < y.1 then some y else some x

/-- A path into state reg of the encoder's register goes on with input bit d; s: the soft values of its outputs A and B. -/
def extendPath (s : Int × Int) (d : Bool) (reg : Nat) (p : Option Path) : Option Path :=
  p.map (fun p =>
    let o := (convPairs reg [d]).headD (false, false)
    (p.1 + (if o.1 then -s.1 else s.1) + (if o.2 then -s.2 else s.2), d :: p.2))

/-- Paths that go on with input bit d: those into states reg and reg + 1, next to each other, meet in one state. -/
def joinPaths (s : Int × Int) (d : Bool) (reg : Nat) (ps : List (Option Path)) : List (Option Path) :=
  match ps with
  | a :: b :: r => betterPath (extendPath s d reg a) (extendPath s d (reg + 1) b) :: joinPaths s d (reg + 2) r
  | _ => []

/-- One step of the decoder over the 64 states of the encoder's register, in order: the input bit enters at the top. -/
def viterbiStep (ps : List (Option Path)) (s : Int × Int) : List (Option Path) :=
  joinPaths s false 0 ps ++ joinPaths s true 0 ps

/-- The input bits of the path of greatest measure from state 0 to state 0 (R87; log entry 169). -/
def viterbi (l : List (Int × Int)) : List Bool :=
  match (l.foldl viterbiStep (some (0, []) :: List.replicate 63 none)).headD none with
  | none => []
  | some p => p.2.reverse

/-- Bits as a number, highest first. -/
def natOfBits (l : List Bool) : Nat := l.foldl (fun a b => 2 * a + b.toNat) 0

/-- The header word that sums of soft values decode to (R82). -/
def headDecode (sums : List Int) : Nat :=
  let a := sums.toArray
  natOfBits ((viterbi ((List.range 54).map (softPair 0 a))).take 48)

/-- α to the power i. -/
def rsExp (i : Nat) : Nat := (List.range (i % 255)).foldl (fun a _ => rsAlpha a) 1

/-- Inverse in GF(2^8): the 254th power. -/
def rsInv (a : Nat) : Nat := (List.range 253).foldl (fun p _ => rsMul p a) a

/-- Value of a polynomial, coefficients lowest first. -/
def rsEval (p : List Nat) (x : Nat) : Nat := p.foldr (fun c a => c ^^^ rsMul x a) 0

/-- Sum of two polynomials. -/
def rsAdd (a b : List Nat) : List Nat := (List.range (max a.length b.length)).map (fun i => a.getD i 0 ^^^ b.getD i 0)

/-- Product of two polynomials. -/
def rsTimes (a b : List Nat) : List Nat :=
  match a with
  | [] => []
  | x :: r => rsAdd (b.map (rsMul x)) (0 :: rsTimes r b)

/-- The 16 syndromes of a block. -/
def rsSyndromes (b : Bytes) : List Nat := (List.range 16).map (fun i => b.foldl (fun a x => rsMul a (rsExp i) ^^^ x) 0)

/-- Degree of a polynomial. -/
def rsDegree (p : List Nat) : Nat := p.length - 1 - (p.reverse.takeWhile (· = 0)).length

/-- Locator of errors and erasures, from syndrome k on (Berlekamp and Massey), f erasures being known; j bounds the steps. -/
def rsLocator (syn : List Nat) (f k j : Nat) (lam b : List Nat) (l : Nat) : List Nat :=
  match j with
  | 0 => lam
  | i + 1 =>
    let d := ((List.range (k + 1)).map (fun t => rsMul (lam.getD t 0) (syn.getD (k - t) 0))).foldl (· ^^^ ·) 0
    if d = 0 then rsLocator syn f (k + 1) i lam (0 :: b) l
    else
      let t := rsAdd lam (0 :: b.map (rsMul d))
      if 2 * l ≤ k + f then rsLocator syn f (k + 1) i t (lam.map (rsMul (rsInv d))) (k + 1 + f - l)
      else rsLocator syn f (k + 1) i t (0 :: b) l

/-- Decode a block with erasures at given bytes: the corrected block and how many bytes changed; none where 2e + f > 16 or no code
word is found (R86). -/
def rsDecode (b : Bytes) (er : List Nat) : Option (Bytes × Nat) :=
  if 16 < er.length then none
  else
    let n := b.length
    let syn := rsSyndromes b
    let gam := er.foldl (fun p i => rsTimes p [1, rsExp (n - 1 - i)]) [1]
    let lam := rsLocator syn er.length er.length (16 - er.length) gam gam er.length
    let om := (rsTimes syn lam).take 16
    let drv := lam.zipIdx.map (fun e => if e.2 % 2 = 1 then e.1 else 0)
    let bad := (List.range n).filter (fun i => decide (rsEval lam (rsInv (rsExp (n - 1 - i))) = 0))
    let fixed := b.zipIdx.map (fun e =>
      if bad.contains e.2 then
        let x := rsInv (rsExp (n - 1 - e.2))
        e.1 ^^^ rsMul (rsEval om x) (rsInv (rsEval drv x))
      else e.1)
    if 2 * rsDegree lam ≤ 16 + er.length ∧ bad.length = rsDegree lam ∧ (rsSyndromes fixed).all (· = 0) then
      some (fixed, ((List.zip b fixed).filter (fun e => decide (e.1 ≠ e.2))).length)
    else none

/-- Is encoder byte k flagged as an erasure (R98)? `er` says of each coded bit whether it was erased. -/
def byteErased (code : Nat) (er : Array Bool) (k : Nat) : Bool :=
  let cb := (List.range 8).flatMap (fun i => let (a, c) := codedAt code (8 * k + i); (List.range c).map (fun j => er.getD (a + j) false))
  decide (cb.length ≤ 2 * (cb.filter id).length)

/-- Decode the blocks of a normal-mode frame: data bytes, corrected bytes and whether every block decodes; a block that fails gives its
bytes as they came. -/
def rsBlocksDecode (lens : List Nat) (b : Bytes) (er : List Bool) : Bytes × Nat × Bool :=
  match lens with
  | [] => ([], 0, true)
  | n :: r =>
    let blk := b.take (n + 16)
    let e := ((er.take (n + 16)).zipIdx.filter (·.1)).map (·.2)
    let (rest, c, good) := rsBlocksDecode r (b.drop (n + 16)) (er.drop (n + 16))
    match rsDecode blk e with
    | some (x, k) => (x.take n ++ rest, c + k, good)
    | none => (blk.take n ++ rest, c, false)

/-- What the decoder makes of a frame's soft values: the PSDU, the status of R99 and the bytes corrected. -/
def frameDecode (x : LineHdr) (coded : List (Int × Bool)) : Bytes × Nat × Nat :=
  let nb := codedBytes x.rep x.len
  let bits := addCopies (repFactor x.rep) coded (codedBits x.code (8 * nb + 6))
  let soft := (bits.map (·.1)).toArray
  let by' := bytesOfBits ((viterbi ((List.range (8 * nb + 6)).map (softPair x.code soft))).take (8 * nb))
  let plain := fun (b : Bytes) => bytesOfBits (scrambleFrom 127 (bitsOf b))
  if x.rep ≠ 0 then (plain by', 3, 0)
  else
    let er := (bits.map (·.2)).toArray
    let (b, c, good) := rsBlocksDecode (rsLens x.len) by' ((List.range nb).map (byteErased x.code er))
    (plain b, if good then (if c = 0 then 0 else 1) else 2, if good then c else 0)

/-! ## Tone-map choice (R96). SNR in 1/512 dB. -/

/-- A candidate: mode, code, required SNR in dB. -/
def toneCands : List (Nat × Nat × Nat) :=
  [(0, 0, 4), (1, 0, 8), (2, 0, 2), (3, 0, 5), (3, 2, 8), (4, 1, 11), (4, 2, 13), (5, 0, 11), (5, 2, 16)]

/-- Twelve times the code rate. -/
def rate12 (code : Nat) : Nat := if code = 0 then 6 else if code = 1 then 8 else 9

/-- Insert a carrier in order of rising SNR. -/
def snrInsert (e : Nat × Int) (l : List (Nat × Int)) : List (Nat × Int) :=
  match l with
  | [] => [e]
  | a :: r => if e.2 ≤ a.2 then e :: a :: r else a :: snrInsert e r

/-- Carriers in order of rising SNR. -/
def snrSort (l : List (Nat × Int)) : List (Nat × Int) := l.foldr snrInsert []

/-- The carriers a candidate would use: those that meet requirement + margin, cut to a multiple of 8 in coherent modes; of carriers of
equal SNR the lowest index goes first (DESIGN CHOICE, log entry 176). -/
def candAct (snr : List (Nat × Int)) (margin : Nat) (c : Nat × Nat × Nat) : List (Nat × Int) :=
  let need : Int := (c.2.2 * 512 + margin * 256 : Nat)
  let act := snrSort (snr.filter (fun e => decide (need ≤ e.2)))
  if c.1 ≤ 1 then act else act.drop (act.length % 8)

/-- Rate of a candidate on n carriers, times 12. -/
def candRate (c : Nat × Nat × Nat) (n : Nat) : Nat := symBits c.1 n * rate12 c.2.1

/-- The best candidate that has 32 carriers: highest rate, on a tie the lower requirement. -/
def bestCand (snr : List (Nat × Int)) (margin : Nat) : Option ((Nat × Nat × Nat) × List (Nat × Int)) :=
  toneCands.foldl (fun best c =>
    let act := candAct snr margin c
    if act.length < 32 then best
    else
      match best with
      | none => some (c, act)
      | some (b, ba) =>
        let r := candRate c act.length
        let rb := candRate b ba.length
        if rb < r ∨ (r = rb ∧ c.2.2 < b.2.2) then some (c, act) else best) none

/-- Mean of SNR values, in 1/512 dB. -/
def snrMean (l : List (Nat × Int)) : Int := if l.isEmpty then 0 else Int.tdiv (l.map (·.2)).sum l.length

/-- An SNR in 0.5 dB units, as an 8-bit signed code. -/
def snrCode (v : Int) : Nat := unsigned 8 (clampI (-128) 127 (v / 256))

end Sys2Proof.Machine
end

