-- ==== Sys2Proof/Machine/LineWave.lean ====
section
/-! DEFINITION. Sys2Proof/Machine/LineWave.lean: what a line port's parameters make of the waveform (R76–R78), and what it puts on
its transmit lane (R78, R101–R106). -/

namespace Sys2Proof.Machine

/-- Ticks that µ microseconds take, rounded up. -/
def usTicks (u : Nat) : Nat := (u * 2 ^ 20 + 999999) / 1000000

/-- Is the FCC plan selected? -/
def State.lnFcc (s : State) (n : Nat) : Bool := s.isF (Reg.PORT_LN_CFG n) Fld.PORT_LN_CFG_PLAN

/-- Carriers in the plan (R76). -/
def State.lnNc (s : State) (n : Nat) : Nat := if s.lnFcc n then 424 else 64

/-- Is carrier c notched? -/
def State.lnNotched (s : State) (n c : Nat) : Bool := bit (s.raw (Reg.PORT_LN_NOTCH n (c / 32))) (c % 32)

/-- Plan indices of the non-notched carriers. -/
def State.lnCarriers (s : State) (n : Nat) : List Nat := (List.range (s.lnNc n)).filter (fun c => !s.lnNotched n c)

/-- The plan and its carriers (R76). -/
def State.lnPlan (s : State) (n : Nat) : LinePlan := planOf (s.lnFcc n) (s.lnCarriers n)

/-- Active carriers: all non-notched ones, or those set in a mask (R89). -/
def State.lnActs (s : State) (n : Nat) (mask : Option Nat) : List Nat :=
  match mask with
  | none => s.lnCarriers n
  | some m => (s.lnCarriers n).filter (fun c => m.testBit c)

/-- Number of active carriers. -/
def State.lnActive (s : State) (n : Nat) (mask : Option Nat) : Nat := (s.lnActs n mask).length

/-- Samples in u µs of a port's plan. -/
def State.lnSamples (s : State) (n u : Nat) : Nat := if s.lnFcc n then u * 8 / 5 else u * 2 / 5

/-- Clock plan of a port's group: 1 = L26, 2 = M64 (R102). -/
def State.lnLane (s : State) (n : Nat) : Nat := s.getF (Reg.PORT_PERSONA n) Fld.PORT_PERSONA_PLAN

/-- Samples of a transmission before clipping: zeros while TX_EN leads, then the frame (R78, R104). -/
def State.lnWave (s : State) (n : Nat) (x : LineTx) : List Int :=
  List.replicate (s.lnSamples n x.lead) 0 ++ frameSamples (s.lnPlan n) (s.lnActs n x.mask) x.rms x.hdr x.psdu x.missed

/-- The lane carries samples of a transmission from word index i on, clipped, then idle words until TX_EN falls `lag` µs later (R78, R102,
R104; log entry 170). -/
def State.lnEmit (s : State) (n i : Nat) (xs : List Int) (lag : Nat) : State :=
  let i := slotFrom (s.lnLane n) (s.lnFcc n) i
  let w := wordsOf (s.lnLane n) (s.lnFcc n) i
  (s.emit (.lane n (laneOut (s.lnLane n) (s.lnFcc n) i (w xs.length) (xs.map clipSample) ++
    List.replicate (w (s.lnSamples n lag)) idleWord))).bumpN (Reg.PORT_LN_CLIP_CNT n) (clipsIn xs)

/-- Samples of a transmission that have gone out by now, when it is cut off (R59, R179, R181). -/
def State.lnSent (s : State) (n : Nat) (x : LineTx) : Nat :=
  (s.time.sched + 2 ^ 32 - x.start) % 2 ^ 32 * (if s.lnFcc n then 1600000 else 400000) / 2 ^ 20

/-- The next symbol boundary of a transmission from sample k on (R59). -/
def State.lnBoundary (s : State) (n : Nat) (x : LineTx) (k : Nat) : Nat :=
  let p := s.lnPlan n
  let z := s.lnSamples n x.lead
  if k ≤ z then z
  else if k ≤ z + headSamples p 0 then z + (k - z + p.n - 1) / p.n * p.n
  else
    let y := p.n / 8 + p.n
    z + headSamples p 0 + (k - z - headSamples p 0 + y - 1) / y * y

end Sys2Proof.Machine
end

