-- ==== Sys2Proof/Machine/PortCore.lean ====
section
/-! DEFINITION. Sys2Proof/Machine/PortCore.lean: a port block's queues, mover write-back and pins (chapter "Port blocks,
bobbin queues and the cascade personality"), without what follows from a pointer mismatch. -/

namespace Sys2Proof.Machine

/-- Default of the port table. -/
abbrev portDflt : Nat → PortState := fun _ => {}

/-- Port n. -/
def State.port (s : State) (n : Nat) : PortState := tget portDflt s.ports n

/-- Change port n. -/
def State.portMod (s : State) (n : Nat) (f : PortState → PortState) : State :=
  { s with ports := tmod portDflt s.ports n f }

/-- Schedule count now (R349). -/
def State.now (s : State) : Nat := s.time.sched

/-- TAI seconds now. -/
def State.taiSec (s : State) : Nat := s.time.tai / 2 ^ 32

/-- Nanoseconds of the TAI second now. -/
def State.taiNs (s : State) : Nat := s.time.tai % 2 ^ 32 * 1000000000 / 2 ^ 32

/-- PERSONA of a port: 0 = none, 1 = line, 2 = air, 3 = air-member, 4 = cascade. -/
def State.persona (s : State) (n : Nat) : Nat := s.getF (Reg.PORT_PERSONA n) Fld.PORT_PERSONA_PERSONA

/-- Is block b of region r quarantined (R23)? -/
def State.quar (s : State) (r b : Nat) : Bool := bit (s.raw (Reg.CHIP_QUAR r)) b

/-- What a block holds. -/
def State.builtAt (s : State) (path : Nat) : Built := tget (fun _ => ({} : Built)) s.fab.built path

/-- Is block b of region r pricked (R51)? -/
def State.exists_ (s : State) (r b : Nat) : Bool := decide ((s.builtAt (blockPath r b)).kind ≠ 0)

/-- STATE of the loader (R58). -/
def State.prkState (s : State) : Nat := s.getF Reg.UPD_PRK_STAT Fld.UPD_PRK_STAT_STATE

/-- Does the loader work on block b of region r, at STATE lo or later? -/
def State.loading (s : State) (r b lo : Nat) : Bool :=
  match s.fab.job with
  | none => false
  | some j => decide (j.region = r ∧ j.block = b ∧ lo ≤ s.prkState)

/-- Does block b of region r get no grants: quarantined, isolated by the loader, or in a region that the ladder resets (R23,
R58, R482)? -/
def State.noGrant (s : State) (r b : Nat) : Bool := s.quar r b || s.loading r b 3 || decide (s.ladder.region = r)

/-- Does block b of region r take no new work: it gets no grants, or is being drained (R58)? -/
def State.noNew (s : State) (r b : Nat) : Bool := s.noGrant r b || s.loading r b 2

/-- Block number that carries port n: the group's spare, block 16, or the port's own block (R19, R70). -/
def State.portBlk (s : State) (n : Nat) : Nat := if s.isF (Reg.PORT_PERSONA n) Fld.PORT_PERSONA_SPARE then 16 else n % 16

/-- Does the block that carries port n work, with the group's pin crossbar and sample clock interface (R19)? -/
def State.portLive (s : State) (n : Nat) : Bool :=
  !s.noGrant (portRegion n) (s.portBlk n) && !s.quar (portRegion n) 17 && !s.quar (portRegion n) 18

/-- Is the block that carries port n drained: it starts no new reception and no new transmission (R59)? -/
def State.portDrain (s : State) (n : Nat) : Bool := s.loading (portRegion n) (s.portBlk n) 2

/-- EN of a port as written. -/
def State.portEnBit (s : State) (n : Nat) : Bool := s.isF (Reg.PORT_CTL n) Fld.PORT_CTL_EN

/-- A port is enabled, and the block that carries it works. -/
def State.portEn (s : State) (n : Nat) : Bool := s.portEnBit n && s.portLive n

/-- LINK of a port. -/
def State.portLink (s : State) (n : Nat) : Bool := s.isF (Reg.PORT_STAT n) Fld.PORT_STAT_LINK

/-- LOOP of a port. -/
def State.portLoop (s : State) (n : Nat) : Bool := s.isF (Reg.PORT_CTL n) Fld.PORT_CTL_LOOP

/-- Air registers whose values take effect at the next cycle (R171). -/
def airKeys (n : Nat) : List Nat :=
  [Reg.PORT_AIR_BCN_OFS n, Reg.PORT_AIR_CSMA n, Reg.PORT_AIR_TIMING n, Reg.PORT_AIR_ACK n, Reg.PORT_AIR_GUARD n, Reg.PORT_AIR_WAKE n,
    Reg.PORT_AIR_MEMBER n, Reg.PORT_AIR_FLOOD n, Reg.PORT_AIR_LT_LO n, Reg.PORT_AIR_LT_HI n, Reg.PORT_AIR_RDV_LO n, Reg.PORT_AIR_RDV_HI n]

/-- The word of an air register that is in force. -/
def State.airW (s : State) (n k : Nat) : Word := tget s.raw (s.port n).air.live k

/-- A field of an air register that is in force. -/
def State.airF (s : State) (n k : Nat) (f : BitRange) : Nat := fget f (s.airW n k)

/-- The registers as they stand come into force. -/
def State.airTake (s : State) (n : Nat) : State :=
  s.portMod n (fun p => { p with air := { p.air with live := (airKeys n).map (fun k => (k, s.raw k)) } })

/-- Path of the block that carries port n: the group's spare, block 16, or the port's own block (R19, R70). -/
def State.portPath (s : State) (n : Nat) : Nat :=
  blockPath (portRegion n) (s.portBlk n)

/-- Set bit b of PORT_INT_STAT. -/
def State.portInt (s : State) (n b : Nat) : State := s.raiseBit (Reg.PORT_INT_STAT n) b

/-! ## Chunks (R172). -/

/-- Chunks of 256 bytes that n bytes take. -/
def chunks (n : Nat) : Nat := (n + 255) / 256

/-- Chunks in the receive queue; a chunk that software has read empty is free again (R176). -/
def rxUsed (p : PortState) : Nat := (p.rxq.map (fun k => chunks k.bytes.length - k.read / 64)).sum

/-- Chunks in the transmit queue. -/
def txUsed (p : PortState) : Nat := (p.txq.map (fun k => chunks k.bytes.length)).sum + chunks p.txOpen.length

/-- Shared chunks free on a line or air port. -/
def sharedFree (p : PortState) : Nat := 28 - (rxUsed p - 16) - (txUsed p - 16)

/-- Chunks free to the receive queue. -/
def State.rxFree (s : State) (n : Nat) : Nat :=
  let p := s.port n
  match s.persona n with
  | 0 => 0
  | 4 => 36 - rxUsed p
  | _ => (16 - rxUsed p) + sharedFree p

/-- TX_FREE: chunks free to the transmit queue. -/
def State.txFree (s : State) (n : Nat) : Nat :=
  let p := s.port n
  match s.persona n with
  | 0 => 0
  | 4 => 24 - txUsed p
  | _ => (16 - txUsed p) + sharedFree p

/-- Longest transmit packet of a personality (R182). -/
def State.txLimit (s : State) (n : Nat) : Nat := if s.persona n = 4 then 6144 else 11264

/-! ## Words and pointers of a queue (R173, R179). -/

/-- Words that n bytes take. -/
def wordCount (n : Nat) : Nat := (n + 3) / 4

/-- Word k of a packet as the bobbin store holds it: DATA, NB, EOP and the check bits (R173). -/
def bobWord (b : Bytes) (k : Nat) : Nat :=
  let last := decide (b.length ≤ 4 * (k + 1))
  let w := leNat (slice b (4 * k) 4) + (if last then b.length % 4 else 0) * 2 ^ 32 + last.toNat * 2 ^ 34
  w + Config.eccOf w % 2 ^ 7 * 2 ^ 35

/-- Pointers bitwise inverted. -/
def QPtr.inv (p : QPtr) : QPtr := { rd := ~~~ p.rd, wr := ~~~ p.wr, count := ~~~ p.count }

/-- w words and k packets are pushed. -/
def QPtr.push (w k : Nat) (p : QPtr) : QPtr := { p with wr := p.wr + BitVec.ofNat 12 w, count := p.count + BitVec.ofNat 6 k }

/-- w words and k packets are popped. -/
def QPtr.pop (w k : Nat) (p : QPtr) : QPtr := { p with rd := p.rd + BitVec.ofNat 12 w, count := p.count - BitVec.ofNat 6 k }

/-- Both copies are updated. -/
def QCopies.step (f : QPtr → QPtr) (q : QCopies) : QCopies := { a := f q.a, b := (f q.b.inv).inv }

/-- Do the copies agree? -/
def QCopies.same (q : QCopies) : Bool := decide (q.b = q.a.inv)

/-- Pointers of a queue of port n. -/
def State.ptrs (s : State) (n : Nat) (tx : Bool) : QCopies := if tx then (s.port n).txPtr else (s.port n).rxPtr

/-! ## Receive queue. -/

/-- Count a dropped receive packet (R174, R181). -/
def State.rxDrop (s : State) (n : Nat) : State :=
  (s.bumpF (Reg.PORT_STAT n) Fld.PORT_STAT_RX_DROP).raiseF (Reg.PORT_INT_STAT n) Fld.PORT_INT_STAT_RX_DROP

/-- Is there room for a receive packet of len bytes? -/
def State.rxRoom (s : State) (n len : Nat) : Bool := decide (chunks len ≤ s.rxFree n)

/-- A packet enters the receive queue whole, or is dropped (R174). -/
def State.rxEnter (s : State) (n : Nat) (b : Bytes) : State :=
  if s.rxRoom n b.length then
    (s.portMod n (fun p => { p with rxq := p.rxq ++ [{ bytes := b }], rxPtr := p.rxPtr.step (QPtr.push (wordCount b.length) 1) })).when
      (s.isF (Reg.PORT_CTL n) Fld.PORT_CTL_RX_SINK)
      (fun t => t.raiseF (Reg.PORT_INT_STAT n) Fld.PORT_INT_STAT_RX_PKT)
  else s.rxDrop n

/-- Chunks were freed in a cascade receive queue: ADV grows and a CREDIT is owed (R192). -/
def State.creditFreed (s : State) (n k : Nat) : State :=
  if s.persona n = 4 ∧ k ≠ 0 then
    s.portMod n (fun p => { p with cas := { p.cas with adv := (p.cas.adv + k) % 4096, credit := true } })
  else s

/-- The oldest receive packet leaves its queue. -/
def State.rxPop (s : State) (n : Nat) : State :=
  match (s.port n).rxq with
  | [] => s
  | k :: r => (s.portMod n (fun p => { p with rxq := r, rxPtr := p.rxPtr.step (QPtr.pop (wordCount k.bytes.length - k.read) 1) })).creditFreed n
    (chunks k.bytes.length - k.read / 64)

/-- Every chunk of the receive queue returns to the pool. -/
def State.rxClear (s : State) (n : Nat) : State :=
  (s.portMod n (fun p => { p with rxq := [], rxPtr := {} })).creditFreed n (rxUsed (s.port n))

/-! ## Transmit queue and descriptors. -/

/-- Address of descriptor i of a port's ring (R183). -/
def State.descAddr (s : State) (n i : Nat) : Nat :=
  s.getF (Reg.PORT_DESC_BASE n) Fld.PORT_DESC_BASE_ADDR * 4096 + 16 * i

/-- Write a completed descriptor back: OWN = 0 with IRQ unchanged, STATUS, TIME; TX_DONE if IRQ = 1 (R184). -/
def State.descDone (s : State) (n i code : Nat) : State :=
  let a := s.descAddr n i
  let irq := s.rdByte (a + 10) / 64 % 2
  (s.wrMem (a + 10) ([irq * 64, code % 16] ++ bytesLE 4 s.now)).when (decide (irq = 1))
    (fun t => t.raiseF (Reg.PORT_INT_STAT n) Fld.PORT_INT_STAT_TX_DONE)

/-- The packet with number id. -/
def PortState.pkt (p : PortState) (id : Nat) : Option TxPkt := p.txq.find? (fun k => decide (k.id = id))

/-- A packet's outcome is known: it leaves the queue, its TAG is returned with the code (R133, R134, R169; log entry 171), and its
descriptor, if any, is written back. -/
def State.txDone (s : State) (n id code : Nat) : State :=
  match (s.port n).pkt id with
  | none => s
  | some k =>
    let t := s.portMod n (fun p => { p with
      txq := p.txq.filter (fun x => decide (x.id ≠ id))
      txPtr := p.txPtr.step (QPtr.pop (wordCount k.bytes.length) 1)
      outcome := if s.persona n = 4 then p.outcome else some (code, u16 k.bytes 6) })
    match k.desc with
    | none => t
    | some i => t.descDone n i code

/-- Change packet id. -/
def State.txMod (s : State) (n id : Nat) (f : TxPkt → TxPkt) : State :=
  s.portMod n (fun p => { p with txq := p.txq.map (fun k => if k.id = id then f k else k) })

/-- A whole packet enters the transmit queue; the words of a packet without a descriptor came in one by one. -/
def State.txEnter (s : State) (n : Nat) (b : Bytes) (desc : Option Nat) : State :=
  s.portMod n (fun p => { p with
    txq := p.txq ++ [{ id := p.nextId, bytes := b, desc := desc }], nextId := p.nextId + 1
    txPtr := p.txPtr.step (QPtr.push (if desc.isSome then wordCount b.length else 0) 1) })

/-- Bytes of a packet are written to the transmit queue, in whole words but for its last (R177). -/
def State.txWords (s : State) (n : Nat) (b : Bytes) : State :=
  s.portMod n (fun p => { p with txOpen := p.txOpen ++ b, txPtr := p.txPtr.step (QPtr.push (wordCount b.length) 0) })

/-- What was written of a packet is taken out again (R177, R401). -/
def State.txUndo (s : State) (n : Nat) : State :=
  s.portMod n (fun p => { p with
    txOpen := [], txBad := false
    txPtr := p.txPtr.step (fun q => { q with wr := q.wr - BitVec.ofNat 12 (wordCount p.txOpen.length) }) })

/-- The MAC lets go of everything it holds of the transmit queue. -/
def macDrop (p : PortState) : PortState :=
  { p with
    txen := false
    line := { p.line with tx := none, jobs := [], sched := [], await := none, reserved := false }
    air := { p.air with tx := none, jobs := [], sched := [] }
    cas := { p.cas with tx := none } }

/-- TX_EN of a line port falls with what is on the wire cut off at sample k: the lane has carried so much (R104, R106). -/
def State.lineStop (s : State) (n : Nat) (at' : LineTx → Nat) : State :=
  match (s.port n).line.tx with
  | none => s
  | some x =>
    (s.lnEmit n 0 ((s.lnWave n x).take (at' x)) 0).portMod n (fun p => { p with
      line := { p.line with tx := none, deaf := some (s.now, usTicks x.holdoff), idleAt := some s.now } })

/-- Empty the transmit queue: every packet completes with a code; words of an unfinished packet go too. -/
def State.txClear (s : State) (n code : Nat) : State :=
  let s := s.lineStop n (s.lnSent n)
  let t := s.each ((s.port n).txq.map (·.id)) (fun id u => u.txDone n id code)
  (t.portMod n (fun p => { macDrop p with txOpen := [], txBad := false, txPtr := {} })).setF (Reg.PORT_STAT n) Fld.PORT_STAT_TX_ACTIVE 0

/-- TX_EN falls. -/
def State.txOff (s : State) (n : Nat) : State :=
  (s.portMod n (fun p => { p with txen := false })).setF (Reg.PORT_STAT n) Fld.PORT_STAT_TX_ACTIVE 0

/-- TX_EN rises and a transmission starts. -/
def State.txOn (s : State) (n : Nat) : State :=
  (s.portMod n (fun p => { p with txen := true })).setF (Reg.PORT_STAT n) Fld.PORT_STAT_TX_ACTIVE 1

/-! ### The cascade lane (R188, R189; log entry 185). -/

/-- Change the cascade state of a port. -/
def State.casMod (s : State) (n : Nat) (f : CasState → CasState) : State :=
  s.portMod n (fun p => { p with cas := f p.cas })

/-- Characters go out on a cascade lane. -/
def State.casPut (s : State) (n : Nat) (l : List Nat) : State :=
  let c := (s.port n).cas
  let z := codesOf c.pos c.skip l
  if l.isEmpty then s else (s.emit (.cascade n z.1)).casMod n (fun c => { c with pos := z.2.1, skip := z.2.2 })

/-- Characters per second of a cascade lane: a tenth of the plan's line rate (R188). -/
def State.casRate (s : State) (n : Nat) : Nat :=
  match s.getF (Reg.PORT_PERSONA n) Fld.PORT_PERSONA_PLAN with
  | 1 => 2560000
  | 2 => 6400000
  | _ => 10000000

/-- Characters of a frame that the lane has carried by now. -/
def State.casSent (s : State) (n : Nat) (x : CasTx) : Nat :=
  min x.chars.length (max x.sent ((s.now + 2 ^ 32 - x.start) % 2 ^ 32 * s.casRate n / 2 ^ 20))

/-- Is a frame on the wire of a cascade port? -/
def State.casActive (s : State) (n : Nat) : Bool := (s.port n).cas.tx.any (fun x => decide (s.casSent n x < x.chars.length))

/-- The frame on the wire goes out up to its character k; after its last it is no longer on the wire. -/
def State.casUpTo (s : State) (n : Nat) (x : CasTx) (k : Nat) : State :=
  (s.casPut n ((x.chars.take k).drop x.sent)).casMod n (fun c => { c with
    tx := if x.chars.length ≤ k then none else some { x with sent := k } })

/-- What the lane has carried by now goes out. -/
def State.casRun (s : State) (n : Nat) : State :=
  match (s.port n).cas.tx with
  | none => s
  | some x => s.casUpTo n x (s.casSent n x)

/-- The frame on the wire goes out to its end. -/
def State.casFlush (s : State) (n : Nat) : State :=
  match (s.port n).cas.tx with
  | none => s
  | some x => s.casUpTo n x x.chars.length

/-- A frame on the wire is cut off with ABORT (R179, R189). -/
def State.casAbort (s : State) (n : Nat) : State :=
  let t := s.casRun n
  if (t.port n).cas.tx.isSome then (t.casPut n [kAbort]).casMod n (fun c => { c with tx := none }) else t

/-- Cut off the transmission in progress; its packet stays in the queue with its attempt count (R179, R181). A cascade
port sends ABORT. -/
def State.txCut (s : State) (n : Nat) : State :=
  let t := (s.lineStop n (s.lnSent n)).casAbort n
  (t.portMod n (fun q => { q with
    txen := false
    line := { q.line with tx := none, await := none, reserved := false }
    air := { q.air with
      tx := none
      jobs := q.air.jobs.map (fun j => if j.phase = 2 ∨ j.phase = 3 then { j with phase := 0 } else j) } })).setF
      (Reg.PORT_STAT n) Fld.PORT_STAT_TX_ACTIVE 0

/-- The align burst owed goes out once TX_EN is low (R103). -/
def State.alignBurst (s : State) (n : Nat) : State :=
  if (s.port n).burst && !(s.port n).txen && s.portEn n then
    (s.portMod n (fun p => { p with burst := false })).emit (.lane n (List.replicate 256 alignWord))
  else s

/-- A pace shortfall of a port (R107): the port's event, the governor's count, a Sampler record. -/
def State.shortfall (s : State) (n : Nat) : State :=
  ({ s with fab := { s.fab with shortfall := true } }.raiseF (Reg.PORT_INT_STAT n) Fld.PORT_INT_STAT_SHORTFALL).report
    (portRegion n * 0x1000 + 0x100) 2 (s.portPath n) [n]

/-! ## Caches that line and air share. -/

/-- Is a key in the duplicate cache and still alive? Life in ticks. -/
def dupHit (p : PortState) (now life : Nat) (k : Nat × Nat × Nat × Nat) : Bool :=
  p.dups.any (fun e => decide (e.1 = k) && decide ((now + 2 ^ 32 - e.2) % 2 ^ 32 < life))

/-- Put a key in the duplicate cache of 256 entries (R121). -/
def dupAdd (p : PortState) (now : Nat) (k : Nat × Nat × Nat × Nat) : PortState :=
  { p with dups := ((k, now) :: p.dups.filter (fun e => decide (e.1 ≠ k))).take 256 }

/-- Ticks of the 64 s life of a seen-cache entry (R167). -/
abbrev seenLife : Nat := 64 * 2 ^ 20

/-- Entries of the seen cache still alive. -/
def seenLive (p : PortState) (now : Nat) : List ((Nat × Nat) × Nat) :=
  p.seen.filter (fun e => decide ((now + 2 ^ 32 - e.2) % 2 ^ 32 < seenLife))

end Sys2Proof.Machine
end

