-- ==== Sys2Proof/Machine/Bus.lean ====
section
/-! DEFINITION. Sys2Proof/Machine/Bus.lean: who may reach what, refused accesses and accesses to unassigned offsets
(R10, R11, R29, R30). -/

namespace Sys2Proof.Machine

/-- Is an initiator the hoop core or the pricking loader (R30)? -/
def isHoop (init : Nat) : Bool := decide (init = 0 ∨ init = 10)

/-- Region code of the block that owns a window offset (R10, and the register headers). -/
def offRegion (off : Nat) : Nat :=
  if 0x100000 ≤ off then (if off < 0x140000 then portRegion ((off - 0x100000) / 0x1000) else 0)
  else match off / 0x10000 with
    | 1 => 7 | 2 => 9 | 3 => 7 | 4 => 7 | 5 => 8 | 6 => 5 | 7 => 5 | 8 => 8 | 9 => 6 | 10 => 9 | 11 => 8 | _ => 0

/-- A firewall refuses an access: counted, recorded in CHIP_FW_LAST, and a Sampler record (R30). -/
def State.fwRefuse (s : State) (init region : Nat) (mem : Bool) (addr : Nat) : State :=
  let w := (init % 16) * 2 ^ 28 + (region % 16) * 2 ^ 24 + mem.toNat * 2 ^ 23 + addr % 2 ^ 23
  ((s.bump Reg.CHIP_FW_VIOL_CNT).wrN Reg.CHIP_FW_LAST w).report 0x0003 3 (regionPath region) (bytesLE 4 w)

/-- A refused access to a register. -/
def State.fwReg (s : State) (init off : Nat) : State := s.fwRefuse init (offRegion off) false off

/-- An access to an unassigned offset is counted and recorded (R11). -/
def State.badReg (s : State) (init : Nat) (write : Bool) (off : Nat) : State :=
  (s.bump Reg.CHIP_BADREG_CNT).wrN Reg.CHIP_BADREG_LAST
    ((init % 16) * 2 ^ 28 + write.toNat * 2 ^ 27 + off % 2 ^ 21)

/-- A write to the register at an offset of a block that a pricking may leave out: where it is not built, the write is an access to an
unassigned offset (R50, R51). Such a command does not say who writes, so the INITIATOR recorded is open (log entry 166). -/
def State.onBlock (s : State) (there : Bool) (off : Nat) (f : Host.Outcome State Fault Refusal) : Host.Outcome State Fault Refusal :=
  if there then f else ok (s.draw.badReg (s.drawn 16) true off)

/-- A write to a register of port n. -/
def State.onPort (s : State) (n off : Nat) (f : Host.Outcome State Fault Refusal) : Host.Outcome State Fault Refusal :=
  s.onBlock (s.exists_ (portRegion n) (n % 16)) off f

/-- Does a Mender unit exist, and with it the Mender's registers? -/
def State.menderThere (s : State) : Bool := (List.range 9).any (fun i => s.exists_ 5 (18 + i))

/-- A write to a register of the Mender. -/
def State.onMender (s : State) (off : Nat) (f : Host.Outcome State Fault Refusal) : Host.Outcome State Fault Refusal :=
  s.onBlock s.menderThere off f

/-- A write to a register of the totaliser. -/
def State.onTot (s : State) (off : Nat) (f : Host.Outcome State Fault Refusal) : Host.Outcome State Fault Refusal :=
  s.onBlock (s.exists_ 8 3) off f

end Sys2Proof.Machine
end

