-- ==== Sys2Proof/Machine/PortPass.lean ====
section
/-! DEFINITION. Sys2Proof/Machine/PortPass.lean: what a packet of a receive queue becomes when intake has it: a frame for a lane,
or an entry of the firmware ring (R135, R175, R191, R196, R220). -/

namespace Sys2Proof.Machine

/-- Change intake. -/
def State.inkMod (s : State) (f : InkState → InkState) : State := { s with ink := f s.ink }

/-- Entries of the ring. -/
def State.fwSize (s : State) : Nat := 2 ^ s.getF Reg.INK_FW_BASE_LO Fld.INK_FW_BASE_LO_RING_LOG2

/-- Is the ring full? -/
def State.fwFull (s : State) : Bool :=
  decide ((s.getF Reg.INK_FW_HEAD Fld.INK_FW_HEAD_PROD + 2 ^ 15 - s.getF Reg.INK_FW_HEAD Fld.INK_FW_HEAD_CONS) % 2 ^ 15 =
    s.fwSize)

/-- While the ring is full, each item that waits counts once, and rejected-frame copies are dropped (R215, R220). -/
def State.fwStall (s : State) : State :=
  if s.fwFull then
    let copies := (s.ink.fwq.filter (fun x => decide (x.kind = 6))).length
    let waits := (s.ink.fwq.filter (fun x => decide (x.kind ≠ 6) && !x.stalled)).length
    (((s.inkMod (fun i => { i with
      fwq := (i.fwq.filter (fun x => decide (x.kind ≠ 6))).map (fun x => { x with stalled := true }) })).bumpN
      Reg.INK_COPY_DROP_CNT copies).bumpN Reg.INK_FW_STALL_CNT waits)
  else s

/-- Hand the ring an item. -/
def State.fwPush (s : State) (x : FwItem) : State := (s.inkMod (fun i => { i with fwq := i.fwq ++ [x] })).fwStall


/-- Code violations of the last 2^20 ticks, as LEVEL_LAST shows them on a cascade port. -/
def State.casViol (s : State) (n : Nat) : List Nat :=
  (s.port n).cas.viol.filter (fun x => decide ((s.now + 2 ^ 32 - x) % 2 ^ 32 < 2 ^ 20))

/-- k code violations are seen now. -/
def State.casViolAdd (s : State) (n k : Nat) : State :=
  if k = 0 then s else s.casMod n (fun c => { c with viol := (List.replicate (min k 255) s.now ++ s.casViol n).take 255 })

/-- Is a schedule count less than k ticks back? -/
def State.within (s : State) (k x : Nat) : Bool := decide ((s.now + 2 ^ 32 - x) % 2 ^ 32 < k)

/-- What port n holds for a time only is forgotten once that has passed: code violations, a mismatch, the age of a RESULT entry and a frame on
a cascade lane after 1 s, entries of the
duplicate and seen caches after 64 s, longer than any life a register can set, and what a line port knows of its medium (R104, R115,
R121, R167, R180, R197). -/
def State.portOld (s : State) (n : Nat) : State :=
  (s.casRun n).portMod n (fun p => { p with
    cas := { p.cas with
      viol := p.cas.viol.filter (s.within (2 ^ 20))
      results := p.cas.results.map (fun e => (e.1, e.2.1, e.2.2.filter (s.within (2 ^ 20)))) }
    lastMis := p.lastMis.filter (s.within (2 ^ 20))
    line := { p.line with
      deaf := p.line.deaf.filter (fun e => s.within (2 ^ 20) e.1)
      idleAt := p.line.idleAt.filter (s.within (2 ^ 20))
      rx := if p.line.rx.until'.any (fired s.now) then {} else p.line.rx }
    dups := p.dups.filter (fun e => s.within (2 ^ 26) e.2)
    seen := p.seen.filter (fun e => s.within (2 ^ 26) e.2) })

/-- What ports and cells hold for a time only is forgotten, once a second, long before the schedule count comes round (R8). -/
def State.forget (s : State) : State :=
  let t := s.each (s.ports.map (·.1)) (fun n t => t.portOld n)
  { t with fab := { t.fab with ces := (t.fab.ces.map (fun e => (e.1, e.2.filter (s.within (2 ^ 20))))).filter (fun e => decide (e.2 ≠ [])) } }

/-- Ticks of TAI since its epoch (R145). -/
def State.taiTick (s : State) : Nat := s.time.tai / 2 ^ 12

/-- After a TAI step a port keeps the rendezvous windows that the instant now lies in; another is lost, which is no miss, and so is a
train whose T_r has passed (R145). -/
def State.airStep (s : State) (n : Nat) : State :=
  s.portMod n (fun p => { p with air := { p.air with
    windows := p.air.windows.filter (fun w => decide (w.opens ≤ s.taiTick ∧ s.taiTick < w.closes))
    train := p.air.train.filter (fun t => decide (s.taiTick < t.2)) } })

/-- A RESULT entry is owed. -/
def State.casResult (s : State) (n cseq res : Nat) : State :=
  s.casMod n (fun c => { c with results := c.results ++ [(cseq, res, some s.now)] })

/-- Is a cascade packet of CTYPE 1 or 2 a resend of one of the last 64 delivered (R196)? -/
def State.casSeen (s : State) (n : Nat) (b : Bytes) : Bool :=
  decide (u8 b 0 ≠ 0) && decide (u8 b 1 % 2 = 1) && (s.port n).cas.delivered.contains (u32 b 4)

/-- Frame inside a port's packet: its prefix is the R135 prefix, or a cascade header. -/
def State.portFrame (s : State) (n : Nat) (b : Bytes) : IFrame :=
  if s.persona n = 4 then
    { bytes := b.drop 12, kind := 1, src := n, origin := u32 b 8, ref := u32 b 4, resend := decide (u8 b 1 % 2 = 1),
      rxTime := s.now }
  else
    { bytes := b.drop 8, kind := 0, src := n, naddr := n * 16384 + u16 b 0 % 2 ^ 14, origin := u32 b 0, rxTime := s.now }

/-- A cascade packet of CTYPE 1 or 2 has been taken whole: it is answered RES 0 and remembered (R196). -/
def State.casTaken (s : State) (n cseq : Nat) : State :=
  (s.casResult n cseq 0).casMod n (fun c => { c with delivered := (cseq :: c.delivered).take 64 })

/-- What a whole packet of port n becomes: a frame for a lane, or work for the firmware ring. -/
def State.packetIn (s : State) (n : Nat) (b : Bytes) : State × Option IFrame :=
  if s.persona n = 4 then
    if u8 b 0 = 0 then (s, some (s.portFrame n b))
    else if s.casSeen n b then (s.casResult n (u32 b 4) 0, none)
    else
      let x : FwItem := {
        kind := 3 + u8 b 0, origin := u32 b 8, source := n, rxTime := s.now, ref := u32 b 4, data := b.drop 12 }
      ((s.fwPush x).casTaken n (u32 b 4), none)
  else if u16 b 0 / 2 ^ 14 = 0 then (s, some (s.portFrame n b))
  else
    let x : FwItem := {
      kind := u16 b 0 / 2 ^ 14, origin := u32 b 0, source := n, rxTime := s.now, data := (b.drop 8).take (u16 b 6) }
    (s.fwPush x, none)

/-- Every whole packet of port n's receive queue passes to intake, in order; k bounds them (R59, R70). -/
def State.passAll (s : State) (n k : Nat) : State :=
  match k, (s.port n).rxq with
  | 0, _ => s
  | _, [] => s
  | j + 1, p :: _ =>
    let (t, f) := (s.rxPop n).packetIn n p.bytes
    (match f with
      | none => t
      | some x => t.inkMod (fun i => { i with back := i.back ++ [LaneJob.frame x] })).passAll n j

end Sys2Proof.Machine
end

