-- ==== Sys2Proof/Machine/FabricCore.lean ====
section
/-! DEFINITION. Sys2Proof/Machine/FabricCore.lean: reports of failed blocks to their region arbiter, quarantine and the choice
of a spare (R22, R23, R25–R27), without the disposal of a block's work and the recovery ladder. -/

namespace Sys2Proof.Machine

/-- Change the fabric's state. -/
def State.fabMod (s : State) (f : FabState → FabState) : State := { s with fab := f s.fab }

/-- The loader's shadow takes up what register k of a port holds after an accepted write (R63). -/
def State.shade (s : State) (k : Nat) : State :=
  s.fabMod (fun f => { f with shadow := tset Reg.resetOf f.shadow k (s.raw k) })

/-- The record of a latched error once its outcome is known (R22, R478). -/
def State.errRecord (s : State) (r b c attempts : Nat) (good : Bool) : State :=
  s.report (r * 0x1000 + 1) 3 (pathOf r b c) [b, c, attempts, good.toNat]

/-! ## Region state and spares (R19, R25, R48). -/

/-- STATE_r: 0 = normal, 1 = spare in use, 2 = degraded, 3 = failed. -/
def State.regionState (s : State) (r : Nat) : Nat := s.getF Reg.CHIP_REGION_STAT ⟨2 * r - 1, 2 * r - 2⟩

/-- Set STATE_r. -/
def State.setRegion (s : State) (r v : Nat) : State := s.setF Reg.CHIP_REGION_STAT ⟨2 * r - 1, 2 * r - 2⟩ v

/-- Spares of a region in their order: block numbers. The parity engine that is the spare is the one the region pricking names. -/
def State.sparesOf (s : State) (r : Nat) : List Nat :=
  if 1 ≤ r ∧ r ≤ 4 then [16] else if r = 5 then [16, 17, 26] else if r = 6 then [s.fab.paritySpare] else []

/-- Index of a spare in its region. -/
def State.spareIdx (s : State) (r b : Nat) : Nat := (s.sparesOf r).findIdx (fun x => decide (x = b))

/-- ACT and FOR of spare i of region r. -/
def State.spareAct (s : State) (r i : Nat) : Bool := bit (s.raw (Reg.CHIP_SPARE_MAP r)) (8 * i + 7)

/-- Block that spare i of region r replaces. -/
def State.spareFor (s : State) (r i : Nat) : Nat := s.getF (Reg.CHIP_SPARE_MAP r) ⟨8 * i + 5, 8 * i⟩

/-- Spare i of region r comes to stand for block b, or for none. -/
def State.spareSet (s : State) (r i : Nat) (act : Bool) (b : Nat) : State :=
  (s.setF (Reg.CHIP_SPARE_MAP r) ⟨8 * i + 7, 8 * i + 7⟩ act.toNat).setF (Reg.CHIP_SPARE_MAP r) ⟨8 * i + 5, 8 * i⟩ (if act then b else 0)

/-- Are two blocks of a region of one kind, so that one can replace the other? -/
def sameKind (r a b : Nat) : Bool :=
  if 1 ≤ r ∧ r ≤ 4 then decide (a ≤ 16 ∧ b ≤ 16)
  else if r = 5 then decide (a ≤ 17 ∧ b ≤ 17) || decide (18 ≤ a ∧ a ≤ 26 ∧ 18 ≤ b ∧ b ≤ 26)
  else if r = 6 then decide ((a = 5 ∨ a = 6) ∧ (b = 5 ∨ b = 6))
  else false

/-- Is spare block b of region r idle: in service, in place of no block, and not being written by the loader? A port group's spare is
idle as UPD_PRK_SPARE_STAT shows, with no substitution under way. -/
def State.spareIdle (s : State) (r b : Nat) : Bool :=
  !s.quar r b && !s.spareAct r (s.spareIdx r b) && !s.loading r b 3 &&
    (decide (4 < r) || (bit (s.raw Reg.UPD_PRK_SPARE_STAT) (8 * (r - 1) + 7) && !s.fab.substs.any (fun x => decide (portRegion x.port = r))))

/-- The next idle spare that can replace block b of region r. -/
def State.spareNext (s : State) (r b : Nat) : Option Nat :=
  (s.sparesOf r).find? (fun x => sameKind r x b && decide (x ≠ b) && s.spareIdle r x)

/-- Essential blocks (R27). -/
def essential (r b : Nat) : Bool :=
  match r with
  | 5 => decide (27 ≤ b ∧ b ≤ 29)
  | 6 => decide (b = 0)
  | 7 => decide (b = 6)
  | 8 => decide (b = 0)
  | 9 => decide (b = 2)
  | _ => false

/-- Does the group's spare already hold the personality and version of port n, as the readback information has them (R70)? -/
def State.spareSuits (s : State) (n : Nat) : Bool :=
  let a := tget (fun _ => ({} : Built)) s.fab.built (blockPath (portRegion n) 16)
  let b := tget (fun _ => ({} : Built)) s.fab.built (blockPath (portRegion n) (n % 16))
  decide (a.persona = b.persona ∧ a.version = b.version)

/-! ## The loader's end of an operation (R55, R58). -/

/-- BUSY and STATE while no loader operation runs: 7 while a substitution does. -/
def State.prkIdle (s : State) : State :=
  let sub := !s.fab.substs.isEmpty
  (s.setF Reg.UPD_PRK_STAT Fld.UPD_PRK_STAT_BUSY sub.toNat).setF Reg.UPD_PRK_STAT Fld.UPD_PRK_STAT_STATE (if sub then 7 else 0)

/-- The loader's operation ends. -/
def State.prkEnd (s : State) : State := (s.fabMod (fun f => { f with job := none })).prkIdle

/-- The loader's operation fails with ERR and ERR_BLK. -/
def State.prkFail (s : State) (err blk : Nat) : State :=
  (((s.raiseF Reg.UPD_PRK_STAT Fld.UPD_PRK_STAT_FAIL).setF Reg.UPD_PRK_STAT Fld.UPD_PRK_STAT_ERR err).setF Reg.UPD_PRK_STAT
    Fld.UPD_PRK_STAT_ERR_BLK blk).prkEnd

/-- Add n to a count of UPD_PRK_DRAIN_STAT. -/
def State.drainCount (s : State) (f : BitRange) (n : Nat) : State :=
  s.setF Reg.UPD_PRK_DRAIN_STAT f (min 255 (s.getF Reg.UPD_PRK_DRAIN_STAT f + n))

/-- A reception of port n that lasted d ticks ends. While the port's block is drained or isolated, one that began before the drain is
kept if it ends before Isolate and else discarded; one that began in the drain is ignored, its start counted (R59). Answers the state and
whether it is kept. -/
def State.rxDrain (s : State) (n d : Nat) : State × Bool :=
  match s.fab.job with
  | none => (s, true)
  | some j =>
    if s.loading (portRegion n) (s.portBlk n) 2 then
      let iso := s.loading (portRegion n) (s.portBlk n) 3
      if (s.now + 2 ^ 32 - j.drain0) % 2 ^ 32 < d then
        (s.when iso (fun t => t.drainCount Fld.UPD_PRK_DRAIN_STAT_RX_DISCARDED 1), !iso)
      else (s.when (!iso || decide ((s.now + 2 ^ 32 - j.iso0) % 2 ^ 32 < d)) (fun t =>
        t.portMod n (fun p => { p with ignored := p.ignored + 1 })), false)
    else (s, true)

/-! ## Substitution begins (R70 steps 1 and 2). -/

/-- The receive queue of a failed port block f is dealt with, and its transmit queue returned. A block that has found a mismatch, now
or before, loses its receive queue, with the record of R179 step 4. How far back "already" reaches the spec does not say: any mismatch
since reset or since the port's last substitution counts, a re-pricking between them notwithstanding (DESIGN CHOICE, log entry 157). -/
def State.substQueues (s : State) (n : Nat) : State :=
  let p := s.port n
  let t :=
    if !p.rxPtr.same || p.mis then
      (s.rxClear n).report (portRegion n * 0x1000 + 0x101) 4 (blockPath (portRegion n) (n % 16))
        [0, p.rxPtr.a.count.toNat, p.rxPtr.b.inv.count.toNat]
    else if s.isF (Reg.PORT_CTL n) Fld.PORT_CTL_RX_SINK then
      match p.rxq with
      | k :: _ => if k.read = 0 then s else (s.rxPop n).bumpF (Reg.PORT_STAT n) Fld.PORT_STAT_RX_DROP
      | [] => s
    else (s.passAll n p.rxq.length).drainCount Fld.UPD_PRK_DRAIN_STAT_RX_PASSED p.rxq.length
  let t := t.portMod n (fun q => { q with lastMis := none, mis := false })
  (t.drainCount Fld.UPD_PRK_DRAIN_STAT_TX_RETURNED (t.port n).txq.length).txClear n 7

/-- A substitution that needs the loader takes it from an operation in Verify or Drain (R72). -/
def State.preempt (s : State) (needs : Bool) : State :=
  if needs && s.fab.job.isSome && decide (s.prkState ≤ 2) then s.prkFail 12 0 else s

/-- The substitution of port n's pin set begins: TX_EN is low already. -/
def State.substBegin (s : State) (n : Nat) : State :=
  let needs := !s.spareSuits n
  let t := ((s.preempt needs).wrN Reg.UPD_PRK_DRAIN_STAT 0).substQueues n
  let t := t.fabMod (fun f => { f with substs := f.substs ++ [{ port := n, loader := needs, since := s.now }] })
  if t.fab.job.isNone then t.prkIdle else t

/-- A spare comes in for block b: at once in IN and ST; a port group's substitution begins (R23 step 4, R70). A spare lane
joins the pool of the lane it replaces (R200). Records carry the path p of the block that failed (log entry 143). -/
def State.spareIn (s : State) (r b x p : Nat) : State :=
  if r ≤ 4 then s.substBegin (16 * (r - 1) + b)
  else
    let t := (s.spareSet r (s.spareIdx r x) true b).report (r * 0x1000 + 3) 3 p [x, b]
    let t := t.setRegion r (max 1 (t.regionState r))
    if r = 5 ∧ x ≤ 17 then t.wr Reg.INK_POOL (setBit (t.raw Reg.INK_POOL) x (bit (t.raw Reg.INK_POOL) b)) else t

/-- Block b has failed at path p, and no idle spare is left: the region is degraded, or failed when the block is essential (R25,
R27). -/
def State.noSpare (s : State) (r b p : Nat) : State :=
  if essential r b then (s.setRegion r 3).report (r * 0x1000 + 5) 6 p [b]
  else (s.setRegion r (max 2 (s.regionState r))).report (r * 0x1000 + 4) 5 p [b]

/-- The loader's operation on block b of region r is abandoned, since the block failed (R25). -/
def State.prkBlockFail (s : State) (r b : Nat) : State :=
  match s.fab.job with
  | some j => if j.region = r ∧ j.block = b then s.prkFail 9 0 else s
  | none => s

/-- Steps 3–5 of R23 for block b of region r, with the failing cell c: quarantine, spare, ERR_STAT and record. A spare that
stood in for a block leaves it to the next idle spare; an idle spare that fails changes no region state (R25). A block that is
quarantined already stays so. -/
def State.quarantine (s : State) (r b c : Nat) : State :=
  if s.quar r b then s.prkBlockFail r b
  else
    let s := s.prkBlockFail r b
    let spare := (s.sparesOf r).contains b
    let act := spare && s.spareAct r (s.spareIdx r b)
    let x := s.spareFor r (s.spareIdx r b)
    let t := (s.raiseBit (Reg.CHIP_QUAR r) b).when act (fun u => u.spareSet r (s.spareIdx r b) false 0)
    let t := t.when (act && decide (r = 5 ∧ b ≤ 17)) (fun u => u.wr Reg.INK_POOL (setBit (u.raw Reg.INK_POOL) b false))
    let t := t.when (decide (1 ≤ r ∧ r ≤ 4 ∧ b = 16)) (fun u =>
      u.wr Reg.UPD_PRK_SPARE_STAT (setBit (u.raw Reg.UPD_PRK_SPARE_STAT) (8 * (r - 1) + 7) false))
    let target := if act then some x else if spare then none else some b
    let t := match target with
      | none => t
      | some y => match t.spareNext r y with
        | some z => t.spareIn r y z (pathOf r b c)
        | none => t.noSpare r b (pathOf r b c)
    (t.raiseBit Reg.CHIP_ERR_STAT r).report (r * 0x1000 + 2) 4 (pathOf r b c) [b]

/-- A port's block stops: TX_EN low, receptions dropped, its lanes down; its queues keep what they hold (R24, R70 step 1). -/
def State.portHalt (s : State) (n : Nat) : State :=
  ((s.txCut n).portMod n (fun p => { p with line := { p.line with rx := {} } })).setF (Reg.PORT_STAT n) Fld.PORT_STAT_LINK 0

/-- The port whose pin set block b of port group region r carries. -/
def State.carried (s : State) (r b : Nat) : Option Nat :=
  if b < 16 then (if s.isF (Reg.PORT_PERSONA (16 * (r - 1) + b)) Fld.PORT_PERSONA_SPARE then none else some (16 * (r - 1) + b))
  else if b = 16 ∧ s.spareAct r 0 then some (16 * (r - 1) + s.spareFor r 0)
  else none

/-- A port block is reported to its region arbiter. A spare that fails while it takes over leaves its block without one. -/
def State.portReport (s : State) (r b c : Nat) : State :=
  let p := s.carried r b
  let t := match p with
    | none => s
    | some n => s.portHalt n
  let t := t.quarantine r b c
  if b = 16 then
    let lost := t.fab.substs.find? (fun x => decide (portRegion x.port = r))
    let t := t.fabMod (fun f => { f with substs := f.substs.filter (fun x => decide (portRegion x.port ≠ r)) })
    let t := if t.fab.job.isNone then t.prkIdle else t
    let t := match p with
      | none => t
      | some n => t.setF (Reg.PORT_PERSONA n) Fld.PORT_PERSONA_SPARE 0
    match lost with
    | none => t
    | some _ => t.noSpare r b (pathOf r b c)
  else t

/-- A port block's error that is never retried: its record, and the report (R22). -/
def State.neverRetried (s : State) (path : Nat) : State :=
  let r := path / 0x1000
  let b := path / 64 % 64
  (s.errRecord r b (path % 64) 1 false).portReport r b (path % 64)

end Sys2Proof.Machine
end

