-- ==== Sys2Proof/Machine/Bobbin.lean ====
section
/-! DEFINITION. Sys2Proof/Machine/Bobbin.lean: the commands of a port's queues and descriptor mover (R172–R187). -/

namespace Sys2Proof.Machine

/-! ## Pointer copies (R179, R180). -/

/-- Steps 1–5 of R179 after copies A and B of a queue's pointers were found to differ; a second mismatch within 1 s is a
block error that is never retried. -/
def State.ptrFault (s : State) (n : Nat) (tx : Bool) : State :=
  let p := s.port n
  let q := s.ptrs n tx
  let t := if tx then (s.txCut n).txClear n 9 else s.rxClear n
  let u := (t.raiseF (Reg.PORT_INT_STAT n) Fld.PORT_INT_STAT_PTR_FAULT).report (portRegion n * 0x1000 + 0x101) 4
    (s.portPath n) [tx.toNat, q.a.count.toNat, q.b.inv.count.toNat]
  let again := match p.lastMis with
    | none => false
    | some x => decide ((s.now + 2 ^ 32 - x) % 2 ^ 32 < 2 ^ 20)
  (u.portMod n (fun q => { q with lastMis := some s.now, mis := true })).when again (fun v => v.neverRetried (s.portPath n))

/-- Compare the copies of a queue, as every push and pop does. -/
def State.ptrCheck (s : State) (n : Nat) (tx : Bool) : State :=
  if (s.ptrs n tx).same then s else s.ptrFault n tx

/-- A packet's outcome is known: it is popped, after the comparison of the copies. -/
def State.txEnd (s : State) (n id code : Nat) : State := (s.ptrCheck n true).txDone n id code

/-- A packet enters the receive queue, or is dropped, after the comparison of the copies. A packet whose entry shows the mismatch
that quarantines the block is lost with it. -/
def State.rxPush (s : State) (n : Nat) (b : Bytes) : State :=
  let t := s.ptrCheck n false
  if s.portLive n && !t.portLive n then t else t.rxEnter n b

/-! ## Loopback (R185). -/

/-- With LOOP = 1 and EN = 1, whole transmit packets return into the receive queue; k bounds them. -/
def State.loopRun (s : State) (n k : Nat) : State :=
  match k with
  | 0 => s
  | m + 1 =>
    if s.portLoop n && s.portEn n then
      match (s.port n).txq with
      | [] => s
      | q :: _ => (((s.rxPush n q.bytes).txEnd n q.id (if s.rxRoom n q.bytes.length then 1 else 3))).loopRun n m
    else s

/-- A whole packet enters the transmit queue, and loops back if LOOP is set. -/
def State.txPush (s : State) (n : Nat) (b : Bytes) (desc : Option Nat) : State :=
  ((s.ptrCheck n true).txEnter n b desc).loopRun n 64

/-! ## Words. -/

/-- PORT_BOB_RX_READ: the next word of the oldest whole packet (R176). -/
def execPortBobRxRead (n : Nat) (s : State) : Host.Outcome State Fault Refusal :=
  if !s.exists_ (portRegion n) (n % 16) then ok (s.answer 0) else
  let s := if s.isF (Reg.PORT_CTL n) Fld.PORT_CTL_RX_SINK && !(s.port n).rxq.isEmpty then s.ptrCheck n false else s
  match (s.port n).rxq, s.isF (Reg.PORT_CTL n) Fld.PORT_CTL_RX_SINK with
  | k :: r, true =>
    let x := bobWord k.bytes k.read
    let last := decide (x / 2 ^ 34 % 2 = 1)
    let w := word x
    let t := ((s.setF (Reg.PORT_STAT n) Fld.PORT_STAT_RX_EOP (x / 2 ^ 34 % 2)).setF (Reg.PORT_STAT n) Fld.PORT_STAT_RX_NB
      (x / 2 ^ 32 % 4)).answer w
    let u := t.portMod n (fun p => { p with
      lastRx := w
      rxPtr := p.rxPtr.step (QPtr.pop 1 last.toNat)
      rxq := if last then r else { k with read := k.read + 1 } :: r })
    ok (u.creditFreed n (if last ∨ (k.read + 1) % 64 = 0 then 1 else 0))
  | _, _ => ok ((s.answer (s.port n).lastRx).raiseF (Reg.PORT_INT_STAT n) Fld.PORT_INT_STAT_UNDERRUN)

/-- The word ends its packet: it enters the queue, or is removed if it is marked bad. -/
def State.txWordEnd (s : State) (n : Nat) : State :=
  let p := s.port n
  if p.txBad then s.txUndo n else (s.portMod n (fun q => { q with txOpen := [] })).txPush n p.txOpen none

/-- PORT_BOB_TX_WRITE: one transmit word (R177). -/
def execPortBobTxWrite (n v : Nat) (s : State) : Host.Outcome State Fault Refusal :=
  s.onPort n (Reg.PORT_BOB_TX n) <|
  let eop := s.isF (Reg.PORT_CTL n) Fld.PORT_CTL_TX_EOP
  let nb := s.getF (Reg.PORT_CTL n) Fld.PORT_CTL_TX_NB
  let t := s.setF (Reg.PORT_CTL n) Fld.PORT_CTL_TX_EOP 0
  if s.isF (Reg.PORT_CTL n) Fld.PORT_CTL_DESC_EN then ok (t.raiseF (Reg.PORT_INT_STAT n) Fld.PORT_INT_STAT_OVERFLOW)
  else
    let t := t.ptrCheck n true
    let full := decide ((t.port n).txOpen.length % 256 = 0 ∧ t.txFree n = 0)
    let b := bytesLE (if eop ∧ nb ≠ 0 then nb else 4) v
    let u := if full then
        (t.portMod n (fun p => { p with txBad := true })).raiseF (Reg.PORT_INT_STAT n) Fld.PORT_INT_STAT_OVERFLOW
      else t.txWords n b
    ok (if eop then u.txWordEnd n else u)

/-! ## Enable, disable, reset (R181). -/

/-- TX_LAT_NS and RX_LAT_NS of a port's personality, plan and mode (R187). -/
def State.latency (s : State) (n : Nat) : Nat × Nat :=
  let plan := s.getF (Reg.PORT_PERSONA n) Fld.PORT_PERSONA_PLAN
  match s.persona n with
  | 0 => (0, 0)
  | 1 =>
    if s.isF (Reg.PORT_LN_CFG n) Fld.PORT_LN_CFG_PLAN then (if plan = 1 then (1250, 1875) else (750, 1000))
    else if plan = 1 then (3750, 5000) else (3000, 4250)
  | 4 => if plan = 3 then (120, 410) else if plan = 2 then (190, 640) else (470, 1600)
  | _ =>
    let m := s.getF (Reg.PORT_AIR_CFG n) Fld.PORT_AIR_CFG_PHY_MODE
    if m = 2 ∨ m = 3 then (1000, 1250) else (1500, 2250)

/-- STATE of PORT_CAS_STAT. -/
def State.casState (s : State) (n : Nat) : Nat := s.getF (Reg.PORT_CAS_STAT n) Fld.PORT_CAS_STAT_STATE

/-- Set STATE of PORT_CAS_STAT. -/
def State.setCasState (s : State) (n v : Nat) : State := s.setF (Reg.PORT_CAS_STAT n) Fld.PORT_CAS_STAT_STATE v

/-- A cascade link goes down (R193 step 4); with EN = 1 it goes on to STATE 1 and IDLE. -/
def State.casDown (s : State) (n : Nat) : State :=
  if s.casState n = 0 then s
  else
    let t := ((((s.setCasState n 0).setF (Reg.PORT_STAT n) Fld.PORT_STAT_LINK 0).raiseF (Reg.PORT_INT_STAT n)
      Fld.PORT_INT_STAT_LINK_LOSS).bump (Reg.PORT_CAS_LINK_DOWN_CNT n)).report (portRegion n * 0x1000 + 0x102) 3
      (s.portPath n) [n]
    t.when (t.portEn n) (fun u => (u.setCasState n 1).casPut n kIdle)

/-- What follows EN going from 0 to 1. -/
def State.portUp (s : State) (n : Nat) : State :=
  let (tx, rx) := s.latency n
  let t := (s.setF (Reg.PORT_TIMING n) Fld.PORT_TIMING_TX_LAT_NS tx).setF (Reg.PORT_TIMING n) Fld.PORT_TIMING_RX_LAT_NS rx
  match s.persona n, s.portLoop n with
  | 0, _ => t
  | _, true => t.loopRun n 64
  | 4, false =>
    (((t.setCasState n 1).portMod n (fun p => { p with txen := true, cas := { p.cas with nextSeq := 0, pos := false, skip := 0 } }))).casPut n kIdle
  | k, false =>
    (((t.when (decide (k = 2 ∨ k = 3)) (fun u => u.airTake n)).when (decide (k = 3 ∧ t.getF (Reg.PORT_AIR_SYNC_STAT n) Fld.PORT_AIR_SYNC_STAT_STATE = 0)) (fun u =>
      u.setF (Reg.PORT_AIR_SYNC_STAT n) Fld.PORT_AIR_SYNC_STAT_STATE 1)).portMod n (fun p => { p with
      burst := true, line := { p.line with rx := {}, slot := 0, idleAt := some s.now } })).alignBurst n

/-- What follows EN going from 1 to 0. -/
def State.portDown (s : State) (n : Nat) : State :=
  let t := s.txCut n
  if t.persona n = 4 then t.casDown n
  else (t.setF (Reg.PORT_STAT n) Fld.PORT_STAT_LINK 0).portMod n (fun p => { p with
    line := { p.line with rx := {} }, air := { p.air with live := [] } })

/-- PORT_ENABLE: EN written 1. -/
def execPortEnable (n : Nat) (s : State) : Host.Outcome State Fault Refusal :=
  s.onPort n (Reg.PORT_CTL n) (if s.portEnBit n then ok s else ok (((s.raiseF (Reg.PORT_CTL n) Fld.PORT_CTL_EN).shade (Reg.PORT_CTL n)).portUp n))

/-- PORT_DISABLE: EN written 0. -/
def execPortDisable (n : Nat) (s : State) : Host.Outcome State Fault Refusal :=
  s.onPort n (Reg.PORT_CTL n) (if s.portEnBit n then ok (((s.setF (Reg.PORT_CTL n) Fld.PORT_CTL_EN 0).shade (Reg.PORT_CTL n)).portDown n) else ok s)

/-- PORT_RX_RESET: the receive queue is emptied, and its packets are counted as dropped. -/
def execPortRxReset (n : Nat) (s : State) : Host.Outcome State Fault Refusal :=
  s.onPort n (Reg.PORT_CTL n) (ok ((s.each (s.port n).rxq (fun _ t => t.rxDrop n)).rxClear n))

/-- PORT_TX_RESET: the transmit queue is emptied, and its packets complete with status 7. -/
def execPortTxReset (n : Nat) (s : State) : Host.Outcome State Fault Refusal := s.onPort n (Reg.PORT_CTL n) (ok (s.txClear n 7))

/-- What follows RX_SINK going from 1 to 0: the rest of a packet that software has begun to read is discarded (R176). -/
def State.sinkOff (s : State) (n : Nat) : State :=
  match (s.port n).rxq with
  | [] => s
  | k :: _ =>
    if k.read = 0 then s
    else
      let t := s.ptrCheck n false
      if (t.port n).rxq.isEmpty then t else (t.rxPop n).bumpF (Reg.PORT_STAT n) Fld.PORT_STAT_RX_DROP

/-- PORT_RX_SINK_OFF: RX_SINK written 0. -/
def execPortRxSinkOff (n : Nat) (s : State) : Host.Outcome State Fault Refusal :=
  s.onPort n (Reg.PORT_CTL n) (ok (((s.setF (Reg.PORT_CTL n) Fld.PORT_CTL_RX_SINK 0).shade (Reg.PORT_CTL n)).sinkOff n))

/-! ## Descriptor mover (R182–R185). -/

/-- Index of the next descriptor to fetch. -/
def State.cons (s : State) (n : Nat) : Nat := s.getF (Reg.PORT_DESC_HEAD n) Fld.PORT_DESC_HEAD_CONS

/-- CONS advances, modulo the ring. -/
def State.consNext (s : State) (n : Nat) : State :=
  s.setF (Reg.PORT_DESC_HEAD n) Fld.PORT_DESC_HEAD_CONS
    ((s.cons n + 1) % 2 ^ s.getF (Reg.PORT_DESC_BASE n) Fld.PORT_DESC_BASE_RING_LOG2)

/-- The mover stops on a descriptor it does not own or could not read. -/
def State.descStop (s : State) (n : Nat) : State :=
  (s.setF (Reg.PORT_CTL n) Fld.PORT_CTL_DESC_EN 0).raiseF (Reg.PORT_INT_STAT n) Fld.PORT_INT_STAT_DESC_ERR

/-- DESC_FETCH: steps 1–2 of R184; `errs` is how many of the reads found an uncorrectable error. -/
def execDescFetch (n errs : Nat) (s : State) : Host.Outcome State Fault Refusal :=
  let prod := s.getF (Reg.PORT_DESC_HEAD n) Fld.PORT_DESC_HEAD_PROD
  if s.isF (Reg.PORT_CTL n) Fld.PORT_CTL_DESC_EN && decide (s.cons n ≠ prod) && (s.port n).desc.isNone then
    let d := s.rdMem (s.descAddr n (s.cons n)) 16
    if 2 ≤ errs ∨ u8 d 10 / 128 = 0 then ok (s.descStop n)
    else if u16 d 8 = 0 ∨ s.txLimit n < u16 d 8 then ok ((s.descDone n (s.cons n) 11).consNext n)
    else ok (s.portMod n (fun p => { p with desc := some d }))
  else ok s

/-- DESC_COPY: steps 3–4 of R184, once chunks are free; `err` says that a buffer read was uncorrectable. -/
def execDescCopy (n : Nat) (err : Bool) (s : State) : Host.Outcome State Fault Refusal :=
  match (s.port n).desc with
  | none => ok s
  | some d =>
    if s.txFree n < chunks (u16 d 8) then ok s
    else
      let t := s.portMod n (fun p => { p with desc := none })
      if err then ok ((t.descDone n (s.cons n) 10).consNext n)
      else ok ((t.txPush n (s.rdMem (un d 0 8 % 2 ^ 36) (u16 d 8)) (some (s.cons n))).consNext n)

/-- DESC_COMPLETE: the outcome of the packet of descriptor i is known. -/
def execDescComplete (n i code : Nat) (s : State) : Host.Outcome State Fault Refusal :=
  match (s.port n).txq.find? (fun k => decide (k.desc = some i)) with
  | none => ok s
  | some k => if code ≤ 11 then ok (s.txEnd n k.id code) else ok s

end Sys2Proof.Machine
end

