-- ==== Sys2Proof/Machine/PairCore.lean ====
section
/-! DEFINITION. Sys2Proof/Machine/PairCore.lean: the pair's gate and its outgoing messages (R486–R489), which intake, the
store, the Sampler and exports use. -/

namespace Sys2Proof.Machine

/-- STATE of SMP_PAIR_STAT (R487). -/
def State.pairState (s : State) : Nat := s.getF Reg.SMP_PAIR_STAT Fld.SMP_PAIR_STAT_STATE

/-- PFAIL_N is low and there is nothing more to flush: the device only holds, with every TX_EN low (R507, R508; log entry 131). -/
def State.pfailHeld (s : State) : Bool := s.pins.pfail && decide (s.getF Reg.STO_STAT Fld.STO_STAT_PHASE ≠ 7)

/-- Does the hardware gate let this device transmit and answer? In a pair only while it drives PAIR_HOLD_N low (R486), and not while
it holds for a power failure. -/
def State.mayTransmit (s : State) : Bool :=
  !s.pfailHeld && (decide (s.pairState = 0) || s.isF Reg.SMP_PAIR_STAT Fld.SMP_PAIR_STAT_HOLD)

/-- Every TX_EN goes low, which cuts transmissions in progress off (R507). -/
def State.txenLow (s : State) : State := s.each (List.range 64) (fun n t => if (t.port n).txen then t.txCut n else t)

/-- Is a standby's delivery to intake and its Darner held off (R487)? Only an active device, one alone, or one outside a pair
works. -/
def State.pairWorks (s : State) : Bool := decide (s.pairState = 0 ∨ s.pairState = 4 ∨ s.pairState = 5)

/-- Change the pair's own state. -/
def State.pairMod (s : State) (f : PairState → PairState) : State := { s with pair := f s.pair }

/-- The bytes of a pair-link message (R488). -/
def pairMsg (type epoch mseq : Nat) (body : Bytes) : Bytes :=
  let m := [type, 0] ++ bytesLE 2 body.length ++ bytesLE 4 epoch ++ bytesLE 8 mseq ++ body
  m ++ bytesLE 4 (crc32c m)

/-- A message goes out on the pair link under the next MSEQ; it is kept for a resend until it is confirmed, or 4,096 others have gone
out since (log entry 114). -/
def State.pairSend (s : State) (type : Nat) (body : Bytes) : State :=
  let q := s.pair.txSeq + 1
  (s.pairMod (fun p => { p with txSeq := q, sent := (p.sent ++ [(q, type, body)]).drop (p.sent.length - 4095) })).emit
    (.pair type (pairMsg type s.ao.epoch q body))

/-- Does this device mirror its commits now? It is active with the link up, and the partner is a standby or syncing (R489,
R494 step 1). -/
def State.mirroring (s : State) : Bool :=
  decide (s.pairState = 4) && s.isF Reg.SMP_PAIR_STAT Fld.SMP_PAIR_STAT_LINK &&
    decide (s.pair.peerState = 2 ∨ s.pair.peerState = 3)

/-- Send a message to the partner if this device mirrors. -/
def State.mirror (s : State) (type : Nat) (body : Bytes) : State := if s.mirroring then s.pairSend type body else s

/-- Must a commit wait for CONFIRM (R489)? While the partner is STANDBY. -/
def State.mustConfirm (s : State) : Bool := s.mirroring && decide (s.pair.peerState = 3)

/-- Body of a journal COMMIT entry, header included (R306). -/
def commitEntry (ctr : Bytes) (recPos : Nat) (mst shd : Option Bytes) : Bytes :=
  let p := ctr ++ bytesLE 4 recPos ++ (mst.getD []) ++ (shd.getD [])
  [1, b2n mst.isSome + 2 * b2n shd.isSome] ++ bytesLE 2 (4 + p.length) ++ p

/-- Body of a journal SLOT entry, header included (R306). -/
def slotEntry (slot : Nat) (e : Bytes) : Bytes := [2, 0] ++ bytesLE 2 40 ++ bytesLE 4 slot ++ e

end Sys2Proof.Machine
end

