-- ==== Sys2Proof/Machine/Cascade.lean ====
section
/-! DEFINITION. Sys2Proof/Machine/Cascade.lean: the cascade personality (R188–R197). -/

namespace Sys2Proof.Machine

/-- Frame bytes without the CRC (R190). -/
def casFrame (ctype flags cseq origin : Nat) (body : Bytes) : Bytes :=
  [ctype, flags] ++ bytesLE 2 body.length ++ bytesLE 4 cseq ++ bytesLE 4 origin ++ body

/-- A frame with its CRC goes on the wire, behind the one before it. -/
def State.casEmit (s : State) (n : Nat) (f : Bytes) : State :=
  (((s.casRun n).casFlush n).casMod n (fun c => { c with tx := some { chars := casChars f, start := s.now } })).bump
    (Reg.PORT_CAS_TX_FRAME_CNT n)

/-- Credit available (R192). -/
def State.casCredit (s : State) (n : Nat) : Nat :=
  let c := (s.port n).cas
  (c.advP + 4096 - c.used % 4096) % 4096

/-- HELLO goes out (R191). -/
def State.casHello (s : State) (n : Nat) : State :=
  s.casEmit n (casFrame 4 0 0 0 (bytesLE 2 (s.getF (Reg.PORT_CAS_CFG n) Fld.PORT_CAS_CFG_DEV_INDEX) ++ [1, 0, 0, 0, 0, 0]))

/-- A CREDIT sequence with the full cumulative count goes out, inside a frame where one is on the wire (R189). -/
def State.casCreditOut (s : State) (n : Nat) : State :=
  let b := bytesLE 2 (s.port n).cas.adv
  ((s.casRun n).casPut n (kCredit :: b ++ [crc8 b])).casMod n (fun c => { c with credit := false })

/-- Start a frame that the transmit queue holds, if credit covers it; a resend carries RESEND = 1 (R192, R195). -/
def State.casStart (s : State) (n : Nat) (k : TxPkt) (resend : Bool) : State :=
  let need := chunks k.bytes.length
  if s.casState n = 3 ∧ need ≤ s.casCredit n ∧ s.mayTransmit then
    let q := k.cseq.getD (s.port n).cas.nextSeq
    let f := overlay (overlay k.bytes 1 [resend.toNat]) 4 (bytesLE 4 q)
    let t := (s.casEmit n f).casMod n (fun c => { c with
      used := (c.used + need) % 4096
      nextSeq := if k.cseq.isNone then (c.nextSeq + 1) % 2 ^ 32 else c.nextSeq })
    (t.txMod n k.id (fun x => { x with taken := true, held := true, cseq := some q, again := false })).when resend
      (fun u => u.bump (Reg.PORT_CAS_RESEND_CNT n))
  else if resend then s.txMod n k.id (fun x => { x with again := true })
  else s

/-- Every frame still awaiting a result is resent (R195). -/
def State.casResendAll (s : State) (n : Nat) : State :=
  s.each ((s.port n).txq.filter (·.held)) (fun k t => t.casStart n k true)

/-- A valid HELLO in STATE 2 or 3: both counts restart together (R193 steps 3 and 5). -/
def State.casHelloIn (s : State) (n dev : Nat) : State :=
  let up := decide (s.casState n = 2)
  let t := (s.casMod n (fun c => { c with used := 0, advP := 0, adv := s.rxFree n })).casHello n
  let u := (t.casCreditOut n).setF (Reg.PORT_CAS_STAT n) Fld.PORT_CAS_STAT_REMOTE dev
  let v := (u.setF (Reg.PORT_LINK_Q n) Fld.PORT_LINK_Q_LINK_SRC dev).raiseF (Reg.PORT_LINK_Q n) Fld.PORT_LINK_Q_VALID
  (if up then (v.setCasState n 3).raiseF (Reg.PORT_STAT n) Fld.PORT_STAT_LINK else v).casResendAll n

/-- CAS_COMMA_ALIGN: STATE 1 to 2. -/
def execCasCommaAlign (n : Nat) (s : State) : Host.Outcome State Fault Refusal :=
  if s.persona n = 4 ∧ s.portEn n ∧ s.casState n = 1 then ok (s.setCasState n 2) else ok s

/-- CAS_HELLO_TIMER: HELLO every 512 ticks in STATE 2. -/
def execCasHelloTimer (n : Nat) (s : State) : Host.Outcome State Fault Refusal :=
  if s.persona n = 4 ∧ s.casState n = 2 then ok (s.casHello n) else ok s

/-- CAS_LINK_DOWN: `viol` code violations outside a frame; `down` says that 8 now lie within 256 characters, or that 2^10 ticks have
passed without a comma (log entry 150). -/
def execCasLinkDown (n viol : Nat) (down : Bool) (s : State) : Host.Outcome State Fault Refusal :=
  if s.persona n = 4 ∧ s.portEn n then ok ((s.casViolAdd n viol).when down (fun t => t.casDown n)) else ok s

/-- A frame's LEN and CRC agree with its bytes (R194). -/
def casGood (b : Bytes) : Bool :=
  decide (16 ≤ b.length) && decide (b.length = 16 + u16 b 2) && decide (u16 b 2 ≤ 5120) &&
    decide (u32 b (b.length - 4) = crc32c (b.take (b.length - 4)))

/-- One entry of a received RESULT (R195). -/
def State.casResultIn (s : State) (n cseq res : Nat) : State :=
  let t := if res = 0 then s.bump (Reg.PORT_CAS_COMMIT_CNT n) else if res = 1 then s.bump (Reg.PORT_CAS_REJECT_CNT n) else s
  match (s.port n).txq.find? (fun k => decide (k.cseq = some cseq)) with
  | none => t
  | some k =>
    match res with
    | 0 => t.txEnd n k.id 0
    | 1 => t.txEnd n k.id 4
    | 2 => t.casStart n k true
    | _ => t

/-- Entries of a RESULT body: 5 bytes each. -/
def casEntries (b : Bytes) (k : Nat) : List (Nat × Nat) := (List.range k).map (fun i => (u32 b (5 * i), u8 b (5 * i + 4)))

/-- A good frame at the receiver (R191). -/
def State.casTake (s : State) (n : Nat) (b : Bytes) : State :=
  let body := slice b 12 (u16 b 2)
  let cseq := u32 b 4
  let up := decide (s.casState n = 3)
  let cnt := s.bump (Reg.PORT_CAS_RX_FRAME_CNT n)
  match u8 b 0 with
  | 4 =>
    if body.length = 8 ∧ u8 body 2 = 1 ∧ 2 ≤ s.casState n then cnt.casHelloIn n (u16 body 0 % 4096)
    else cnt
  | 3 => if up then cnt.each (casEntries body (body.length / 5)) (fun e t => t.casResultIn n e.1 e.2) else cnt
  | 0 | 1 | 2 =>
    if !up then cnt
    else if s.casSeen n b then cnt.casResult n cseq 0
    else if (cnt.ptrCheck n false).rxRoom n (12 + body.length) then cnt.rxPush n (b.take (12 + body.length))
    else ((cnt.ptrCheck n false).rxDrop n).casResult n cseq 2
  | _ => s.bump (Reg.PORT_CAS_BAD_CNT n)

/-- A CREDIT sequence arrives; one with a bad CRC-8 is ignored (R192). -/
def State.casCreditIn (s : State) (n lo hi crc : Nat) : State :=
  if crc % 256 = crc8 [lo % 256, hi % 256] then s.casMod n (fun c => { c with advP := lo % 256 + hi % 16 * 256 }) else s

/-- A frame is discarded, or taken (R191, R194). -/
def State.casJudge (s : State) (n : Nat) (x : CasIn) : State :=
  if x.viol ≠ 0 then (s.casViolAdd n x.viol).bump (Reg.PORT_CAS_CV_CNT n)
  else if !x.ended || !casGood x.bytes then s.bump (Reg.PORT_CAS_BAD_CNT n)
  else s.casTake n x.bytes

/-- Ticks that k characters take on the lane, rounded up. -/
def State.casTicks (s : State) (n k : Nat) : Nat := (k * 2 ^ 20 + s.casRate n - 1) / s.casRate n

/-- A frame ends on a cascade lane: its code groups from SOF on, to EOF or ABORT. CREDIT sequences within it count, whatever becomes of
the frame (R189); a drain takes it only as R59 says. -/
def State.casFrameIn (s : State) (n : Nat) (codes : List Nat) : State :=
  if s.persona n = 4 ∧ s.portEn n ∧ 2 ≤ s.casState n then
    let x := casRead codes
    let t := s.each x.credits (fun e t => t.casCreditIn n e.1 e.2.1 e.2.2)
    let (u, keep) := t.rxDrain n (s.casTicks n codes.length)
    if keep then u.casJudge n x else u
  else s

/-- CAS_FRAME_RECEIVE: a frame ends: its SOF, its other code groups, and the one that ended it. -/
def execCasFrameReceive (n sof : Nat) (codes : List Nat) (stop : Nat) (s : State) : Host.Outcome State Fault Refusal :=
  ok (s.casFrameIn n (sof :: codes ++ [stop]))

/-- CAS_HELLO_RECEIVE: a frame ends that is a HELLO. -/
def execCasHelloReceive (n : Nat) (codes : List Nat) (s : State) : Host.Outcome State Fault Refusal :=
  if u8 (casRead codes).bytes 0 = 4 then ok (s.casFrameIn n codes) else ok s

/-- CAS_CREDIT_RECEIVE: the two data bytes and the CRC-8 of a CREDIT sequence (R192). -/
def execCasCreditReceive (n lo hi crc : Nat) (s : State) : Host.Outcome State Fault Refusal :=
  if s.persona n = 4 ∧ 2 ≤ s.casState n then ok (s.casCreditIn n lo hi crc) else ok s

/-- CAS_CREDIT_SEND: CREDIT after a change, or every 512 ticks. -/
def execCasCreditSend (n : Nat) (s : State) : Host.Outcome State Fault Refusal :=
  if s.persona n = 4 ∧ s.casState n = 3 then ok (s.casCreditOut n) else ok s

/-- Is a transmit packet refused at the cascade (R190)? -/
def casRefused (b : Bytes) : Bool :=
  decide (b.length < 12) || decide (5120 < u16 b 2) || decide (u8 b 0 = 3) || decide (u8 b 0 = 4) || decide (b.length ≠ 12 + u16 b 2)

/-- Do RESULT entries make a frame that waits: ACK_BATCH of them, or ACK_DELAY since the oldest (R196)? -/
def State.casDue (s : State) (n : Nat) : Bool :=
  match (s.port n).cas.results with
  | [] => false
  | e :: r =>
    decide (s.getF (Reg.PORT_CAS_ACK n) Fld.PORT_CAS_ACK_ACK_BATCH ≤ r.length + 1) ||
      !e.2.2.any (s.within (usTicks (s.getF (Reg.PORT_CAS_ACK n) Fld.PORT_CAS_ACK_ACK_DELAY)))

/-- A RESULT frame that waits goes out, with at most ACK_BATCH entries (R191, R196). -/
def State.casResultOut (s : State) (n : Nat) : State :=
  let r := (s.port n).cas.results
  let k := s.getF (Reg.PORT_CAS_ACK n) Fld.PORT_CAS_ACK_ACK_BATCH
  if s.persona n = 4 ∧ s.casState n = 3 ∧ s.casDue n ∧ s.mayTransmit then
    (s.casEmit n (casFrame 3 0 0 0 ((r.take k).flatMap (fun e => bytesLE 4 e.1 ++ [e.2.1])))).casMod n
      (fun c => { c with results := r.drop k })
  else s

/-- CAS_FRAME_SEND: at a frame boundary a waiting RESULT frame goes first; then the oldest frame due is started when credit covers it, a
resend before others (R192). -/
def execCasFrameSend (n : Nat) (s : State) : Host.Outcome State Fault Refusal :=
  if s.persona n = 4 ∧ s.portEn n ∧ !s.portLoop n ∧ s.portDrain n = false then
    let s := (s.ptrCheck n true).casResultOut n
    match (s.port n).txq.find? (fun k => k.again || !k.taken) with
    | none => ok s
    | some k => if !k.taken && casRefused k.bytes then ok (s.txEnd n k.id 4) else ok (s.casStart n k k.again)
  else ok s

/-- CAS_COMMIT_TIMEOUT: no RESULT for a CSEQ within COMMIT_TO (R195). -/
def execCasCommitTimeout (n cseq : Nat) (s : State) : Host.Outcome State Fault Refusal :=
  match (s.port n).txq.find? (fun k => k.held && decide (k.cseq = some cseq)) with
  | none => ok s
  | some k =>
    if k.resends < s.getF (Reg.PORT_CAS_CFG n) Fld.PORT_CAS_CFG_MAX_RESEND then
      ok ((s.txMod n k.id (fun x => { x with resends := x.resends + 1 })).casStart n { k with resends := k.resends + 1 } true)
    else ok (s.txEnd n k.id 3)

/-- CAS_RESULT_SEND: a RESULT frame that waits goes out (R196). -/
def execCasResultSend (n : Nat) (s : State) : Host.Outcome State Fault Refusal := ok (s.casResultOut n)

end Sys2Proof.Machine
end

