-- ==== Sys2Proof/Machine/LineMac.lean ====
section
/-! DEFINITION. Sys2Proof/Machine/LineMac.lean: medium sharing, repeaters, retries, tone-map exchange and the port
interface of a line port (R110–R136), and the floods that line and air ports share (R165–R168). -/

namespace Sys2Proof.Machine

/-! ## Time conversions. -/

/-- TAI seconds and nanoseconds d ns from now. -/
def State.taiAfter (s : State) (d : Nat) : Nat × Nat :=
  let t := s.taiNs + d
  (s.taiSec + t / 1000000000, t % 1000000000)

/-- Transmit correction of a port's stamps in ns: TX_LAT_NS + TX_ADJ (R359). -/
def State.txCorr (s : State) (n : Nat) : Nat :=
  s.getF (Reg.PORT_TIMING n) Fld.PORT_TIMING_TX_LAT_NS + 16 * (tget (fun _ => 0) s.time.afe n / 4096)

/-! ## Line parameters. -/

/-- Change the line state of a port. -/
def State.lnMod (s : State) (n : Nat) (f : LineState → LineState) : State :=
  s.portMod n (fun p => { p with line := f p.line })

/-- Line state of a port. -/
def State.ln (s : State) (n : Nat) : LineState := (s.port n).line

/-- ILV that the device uses (R114). -/
def State.lnIlv (s : State) (n nsym q : Nat) : Nat :=
  min nsym (min (if q = 0 then 384 else 24576 / q) (s.getF (Reg.PORT_LN_SEG n) Fld.PORT_LN_SEG_ILV_MAX))

/-- Duration of a frame of nsym payload symbols, in µs (R79). -/
def lineUs (nsym : Nat) : Nat := 18560 + 1440 * nsym

/-! ## Frames (R110). -/

/-- The header of a MAC frame up to MHCS. -/
def lineHead (fc seq src dst nhop hidx : Nat) (route : List Nat) (seg : Option (Nat × Nat)) : Bytes :=
  let h := [fc, seq % 256] ++ bytesLE 2 (src % 0x4000) ++ bytesLE 2 (dst % 0x4000) ++ [nhop * 32 + hidx * 4] ++
    (route.take nhop).flatMap (bytesLE 2) ++
    (match seg with
      | none => []
      | some (i, last) => bytesLE 2 (i * 4096 + last * 256))
  h ++ [crc8 h]

/-- A whole MAC frame. -/
def lineFrame (head body : Bytes) : Bytes := head ++ body ++ bytesLE 4 (crc32c (head ++ body))

/-- Length of a received frame's header, MHCS included. -/
def lineHeadLen (b : Bytes) : Nat := 8 + 2 * (u8 b 6 / 32) + (if u8 b 0 / 2 % 2 = 1 then 2 else 0)

/-- Relay i of a frame's route. -/
def routeAt (b : Bytes) (i : Nat) : Nat := u16 b (7 + 2 * i) % 0x4000

/-- Link sender and link receiver (R111); o is where SRC, DST, RT and ROUTE stand apart from their line places. -/
def linkOf (b : Bytes) : Nat × Nat :=
  let nhop := u8 b 6 / 32
  let hidx := u8 b 6 / 4 % 8
  (if hidx = 0 then u16 b 2 % 0x4000 else routeAt b (hidx - 1), if hidx < nhop then routeAt b hidx else u16 b 4 % 0x4000)

/-- Does the FCS check? -/
def fcsGood (b : Bytes) : Bool :=
  decide (4 < b.length) && decide (u32 b (b.length - 4) = crc32c (b.take (b.length - 4)))

/-! ## Link table (R124, R170). -/

/-- Address of a link table, if the device maintains it. -/
def State.ltBase (s : State) (n : Nat) : Option Nat :=
  let (lo, hi) := if s.persona n = 1 then (s.raw (Reg.PORT_LN_LT_LO n), s.raw (Reg.PORT_LN_LT_HI n))
    else (s.airW n (Reg.PORT_AIR_LT_LO n), s.airW n (Reg.PORT_AIR_LT_HI n))
  if bit lo 0 then some (lo.toNat / 2 ^ 12 * 2 ^ 12 + hi.toNat * 2 ^ 32) else none

/-- Entry of a short address, all zeros when the table is not maintained. -/
def State.ltGet (s : State) (n a : Nat) : Bytes :=
  match s.ltBase n with
  | none => List.replicate 16 0
  | some b => s.rdMem (b + 16 * (a % 0x4000)) 16

/-- Write an entry as one burst: created if not VALID, changed by f, GEN counted. -/
def State.ltMod (s : State) (n a : Nat) (f : Bool → Bytes → Bytes) : State :=
  match s.ltBase n with
  | none => s
  | some b =>
    let e := s.rdMem (b + 16 * (a % 0x4000)) 16
    let fresh := decide (u8 e 1 / 128 = 0)
    let e' := if fresh then bytesLE 2 (a % 0x4000 + 0x8000) ++ [0, 0, 128, 0, 0, u8 e 7] ++ List.replicate 8 0 else e
    let g := f fresh e'
    s.wrMem (b + 16 * (a % 0x4000)) (overlay g 7 [(u8 e 7 + 1) % 256])

/-- A frame was heard from station a: mean and lowest SNR codes, bytes 5 or 6 as `info` lays them. An eighth of a difference is
truncated toward zero (DESIGN CHOICE, log entry 173). -/
def State.ltHeard (s : State) (n a mean low : Nat) (info : Bytes → Bytes) : State :=
  s.ltMod n a (fun fresh e =>
    let old := signed 8 (u8 e 2)
    let m := if fresh ∨ un e 12 4 = 0 then signed 8 mean else old + Int.tdiv (signed 8 mean - old) 8
    info (overlay (overlay e 2 [unsigned 8 m, low % 256]) 12 (bytesLE 4 s.taiSec)))

/-- PDR after an attempt. -/
def ltPdr (e : Bytes) (good : Bool) : Bytes :=
  let p : Int := u8 e 4
  overlay e 4 [unsigned 8 (p + Int.tdiv (255 * (good.toNat : Int) - p) 8)]

/-- An attempt of this device to station a that asked for an ACK ended, with a matching ACK or not. -/
def State.ltTried (s : State) (n a : Nat) (good : Bool) : State :=
  s.ltMod n a (fun _ e =>
    let o := if good then 8 else 10
    overlay (ltPdr e good) o (bytesLE 2 (min (u16 e o + 1) 0xFFFF)))

/-- An attempt of this device to station a that asked for no ACK ended: no matching ACK came, and none failed to come. Nothing is
kept of a broadcast (log entry 172). -/
def State.ltSent (s : State) (n a : Nat) : State := if a = 0x3FFF then s else s.ltMod n a (fun _ e => ltPdr e false)

/-- Set a nibble pair of byte 5. -/
def ltTm (e : Bytes) (rx tx : Option Nat) : Bytes :=
  overlay e 5 [rx.getD (u8 e 5 / 16) * 16 + tx.getD (u8 e 5 % 16)]

/-! ## Settings of an attempt (R114, R120). -/

/-- MODE, CODE, REP, TMI and mask for a frame to a station on attempt k. -/
def State.lnSettings (s : State) (n dst k : Nat) : LineHdr × Option Nat :=
  let fb := s.getF (Reg.PORT_LN_RETRY n) Fld.PORT_LN_RETRY_FALLBACK_AFTER
  let z : LineHdr := { mode := 0, code := 0, rep := 0, tmi := 0, ilv := 1, len := 1 }
  if fb = 0 ∨ k ≤ fb then
    match (s.ln n).peers.find? (fun e => decide (e.1 = dst)) with
    | none => (z, none)
    | some (_, m) => ({ z with mode := m.mode, code := m.code, rep := m.rep, tmi := m.tmi }, if m.tmi = 0 then none else some m.mask)
  else if k ≤ 2 * fb then ({ z with rep := 1 }, none)
  else ({ z with rep := 2 }, none)

/-- The physical header of a frame of len bytes with given settings, and its Q. -/
def State.lnHdr (s : State) (n : Nat) (x : LineHdr × Option Nat) (len : Nat) : LineHdr × Nat :=
  let q := symBits x.1.mode (s.lnActive n x.2)
  let h := { x.1 with len := len }
  ({ h with ilv := max 1 (s.lnIlv n (nsymOf h q) q) }, q)

/-- What a transmission holds of its frame, with the parameters in force for it (R108). -/
def State.lnTxOf (s : State) (n : Nat) (x : LineHdr × Option Nat) (psdu : Bytes) (tx : LineTx) : LineTx :=
  { tx with
    hdr := hdrWord (s.lnHdr n x psdu.length).1
    psdu := psdu
    mask := x.2
    rms := s.getF (Reg.PORT_LN_TX n) Fld.PORT_LN_TX_TX_RMS
    lead := s.getF (Reg.PORT_LN_TX n) Fld.PORT_LN_TX_TXEN_LEAD
    lag := s.getF (Reg.PORT_LN_RXT n) Fld.PORT_LN_RXT_TXEN_LAG
    holdoff := s.getF (Reg.PORT_LN_RXT n) Fld.PORT_LN_RXT_RX_HOLDOFF
    missed := []
    start := s.now }

/-- A frame goes on the wire: TX_EN, TX_ACTIVE, TX_FRAME_CNT. What the lane carries is put out when the transmission ends. -/
def State.lnSend (s : State) (n : Nat) (x : LineHdr × Option Nat) (psdu : Bytes) (tx : LineTx) : State :=
  ((s.txOn n).bump (Reg.PORT_LN_TX_FRAME_CNT n)).lnMod n (fun l => { l with tx := some (s.lnTxOf n x psdu tx), slot := 0 })

/-! ## Floods (R165–R168, R259, R260, R367, R368). -/

/-- Is a flood (origin, FSEQ) in the seen cache, or the port's own? Otherwise it is put there (R167). -/
def State.floodSeen (s : State) (n origin fseq : Nat) : Bool :=
  (seenLive (s.port n) s.now).any (fun e => decide (e.1 = (origin, fseq)))

/-- Put a flood in the seen cache of 4,096 entries; an entry pushed out is counted. -/
def State.floodNote (s : State) (n origin fseq evict : Nat) : State :=
  let live := seenLive (s.port n) s.now
  (s.portMod n (fun p => { p with seen := ((origin, fseq), s.now) :: live.take 4095 })).when (decide (4096 ≤ live.length))
    (fun t => t.bump evict)

/-- ORIGIN and FLOOD_TTL of a port. -/
def State.floodId (s : State) (n : Nat) : Nat × Nat :=
  if s.persona n = 1 then (s.getF (Reg.PORT_LN_FLOOD n) Fld.PORT_LN_FLOOD_ORIGIN, s.getF (Reg.PORT_LN_FLOOD n) Fld.PORT_LN_FLOOD_FLOOD_TTL)
  else (s.airF n (Reg.PORT_AIR_FLOOD n) Fld.PORT_AIR_FLOOD_ORIGIN, s.airF n (Reg.PORT_AIR_FLOOD n) Fld.PORT_AIR_FLOOD_FLOOD_TTL)

/-- Counters of floods sent, seen and evicted of a port. -/
def State.floodCnt (s : State) (n : Nat) : Nat × Nat × Nat :=
  if s.persona n = 1 then (Reg.PORT_LN_FLOOD_TX_CNT n, Reg.PORT_LN_FLOOD_SEEN_CNT n, Reg.PORT_LN_FLOOD_EVICT_CNT n)
  else (Reg.PORT_AIR_FLOOD_TX_CNT n, Reg.PORT_AIR_FLOOD_SEEN_CNT n, Reg.PORT_AIR_FLOOD_EVICT_CNT n)

/-- The device originates a flood: TTL, ORIGIN, FSEQ and AGE = 0 in its header, its key in the seen cache, FLOOD_TX_CNT
(R166). FKIND and FBODY stay as field firmware gave them (log entry 40). -/
def State.floodOut (s : State) (n : Nat) (body : Bytes) : State × Bytes :=
  let (origin, ttl) := s.floodId n
  let q := (s.port n).fseq
  let b := [ttl * 16 + u8 body 0 % 16, ttl * 16] ++ bytesLE 2 origin ++ bytesLE 4 q ++ bytesLE 4 0 ++ body.drop 12
  let t := (s.portMod n (fun p => { p with fseq := (q + 1) % 2 ^ 32 })).floodNote n origin q (s.floodCnt n).2.2
  (t.bump (s.floodCnt n).1, b)

/-- A flood body as it is sent: a time flood carries TAI and TQUAL at its reference instant, ref ns after now (R368); a late
Freeze flood has FDELAY reduced by the lateness, none if too little is left (R260). -/
def State.floodFill (s : State) (ref : Nat) (late : Nat) (b : Bytes) : Option Bytes :=
  match u8 b 0 % 16 with
  | 0 =>
    let (sec, ns) := s.taiAfter ref
    some (overlay (overlay (overlay b 12 (bytesLE 6 sec)) 18 (bytesLE 4 ns)) 30 [s.getF Reg.TU_STAT Fld.TU_STAT_QUAL])
  | 1 =>
    let d := u32 b 16
    if late = 0 then some b else if d < late + 2 ^ 18 then none else some (overlay b 16 (bytesLE 4 (d - late)))
  | _ => some b

/-! ## Packets of the transmit queue (R116, R127, R133). -/

/-- Class of a packet. -/
def pktClass (p : Bytes) : Nat := u8 p 0 % 4

/-- Is a prefix flag set: 2 = ACK_REQ, 3 = ALT, 4 = SCHED, 5 = FLOOD? -/
def pktFlag (p : Bytes) (i : Nat) : Bool := (u8 p 0).testBit i

/-- Route r of a prefix: its relays; a flood goes with NHOP 0 (R133). -/
def pktRoute (p : Bytes) (r : Nat) : List Nat :=
  if pktFlag p 5 then [] else
  (List.range (u8 p (3 + r) % 8)).map (fun i => u16 p (8 + 14 * (r - 1) + 2 * i) % 0x4000)

/-- Final destination. -/
def pktDst (p : Bytes) : Nat := u16 p 2 % 0x4000

/-- Link receiver on route r. -/
def pktLink (p : Bytes) (r : Nat) : Nat := (pktRoute p r).headD (pktDst p)

/-- Is an acknowledgement asked on route r? Always over relays (R111), never of a flood. -/
def pktAck (p : Bytes) (r : Nat) : Bool := !pktFlag p 5 && (pktFlag p 2 || !(pktRoute p r).isEmpty)

/-- Is a prefix valid? -/
def pktGood (p : Bytes) : Bool :=
  decide (40 ≤ p.length) && decide (u8 p 0 < 64) && decide (u8 p 3 < 64) &&
    (!pktFlag p 5 || (decide (pktDst p = 0x3FFF) && decide (52 ≤ p.length)))

/-- Smallest number of segments, from g on, that meets LEN and SEG_NSYM at the settings of attempt 1 (R127); 17 for none. -/
def State.segCount (s : State) (n : Nat) (x : LineHdr × Option Nat) (head len g k : Nat) : Nat :=
  match k with
  | 0 => 17
  | j + 1 =>
    let body := (len + g - 1) / g
    let total := head + (if g = 1 then 0 else 2) + body + 5
    let (h, q) := s.lnHdr n x total
    if total ≤ 2047 ∧ q ≠ 0 ∧ nsymOf h q ≤ s.getF (Reg.PORT_LN_SEG n) Fld.PORT_LN_SEG_SEG_NSYM then g
    else s.segCount n x head len (g + 1) j

/-- A byte string in pieces of size m; k bounds them. -/
def pieces (m : Nat) (b : Bytes) (k : Nat) : List Bytes :=
  match k with
  | 0 => []
  | j + 1 => if b.length ≤ m then [b] else b.take m :: pieces m (b.drop m) j

/-- Draw a backoff below cw. -/
def State.lnBackoff (s : State) (j : LineJob) : State × LineJob := (s.draw, { j with b := s.drawn j.cw })

/-- NSLOT of a class. -/
def State.nslot (s : State) (n p : Nat) : Nat := s.getF (Reg.PORT_LN_ACC_W n) ⟨8 * p + 7, 8 * p⟩

/-- Is a packet the answer to an admission request, which goes as TYPE 5: to DST 0x3FFE, or 10 bytes to the station that handed on the
request of that system title (R132; log entry 43)? -/
def State.lnAdmit (s : State) (n : Nat) (p body : Bytes) : Bool :=
  decide (pktDst p = 0x3FFE) || (decide (body.length = 10) && (s.ln n).admits.contains (pktDst p, body.take 8))

/-- The line MAC takes packet k: it is refused, waits for its launch instant, or contends. -/
def State.lnTake (s : State) (n : Nat) (k : TxPkt) : State :=
  let p := k.bytes
  let body := p.drop 40
  let x := s.lnSettings n (pktLink p 1) 1
  let g := s.segCount n x (7 + 2 * (pktRoute p 1).length) body.length 1 16
  if !pktGood p ∨ 8192 < body.length ∨ 16 < g then s.txEnd n k.id 4
  else
    let flood := pktFlag p 5
    let (t, body) := if flood then s.floodOut n body else (s, body)
    let q := (t.port n).seq
    let adm := t.lnAdmit n p body
    let j : LineJob := {
      id := k.id, prefixBytes := p.take 40, segs := pieces (max 1 ((body.length + g - 1) / g)) body 16, seq := q,
      cw := max 1 (t.nslot n (pktClass p)), type := if flood then 4 else if adm then 5 else 0 }
    let u := (t.portMod n (fun x => { x with
      seq := (q + 1) % 256
      line := { x.line with admits := if adm then x.line.admits.filter (fun e => decide (e ≠ (pktDst p, body.take 8))) else x.line.admits }
      })).txMod n k.id (fun x => { x with taken := true })
    if pktFlag p 4 then u.lnMod n (fun l => { l with sched := l.sched ++ [j] })
    else
      let (v, j) := u.lnBackoff j
      v.lnMod n (fun l => { l with jobs := l.jobs ++ [j] })

/-- LINE_TX_PACKET_TAKE: the oldest packet not yet taken, when nothing contends or it is a scheduled one (R133, R178). -/
def execLineTxPacketTake (n : Nat) (s : State) : Host.Outcome State Fault Refusal :=
  if s.persona n = 1 ∧ s.portEn n ∧ !s.portLoop n then
    let s := s.ptrCheck n true
    match (s.port n).txq.find? (fun k => !k.taken) with
    | none => ok s
    | some k => if (s.ln n).jobs.isEmpty || pktFlag k.bytes 4 then ok (s.lnTake n k) else ok s
  else ok s

/-! ## Attempts and outcomes (R116–R120, R126, R128, R134). -/

/-- The job of packet id. -/
def LineState.job (l : LineState) (id : Nat) : Option LineJob := l.jobs.find? (fun j => decide (j.id = id))

/-- Change the job of packet id. -/
def State.lnJob (s : State) (n : Nat) (j : LineJob) : State :=
  s.lnMod n (fun l => { l with jobs := l.jobs.map (fun x => if x.id = j.id then j else x) })

/-- A packet's outcome: late launches show 5 in place of 0, 1 and 2 (R134). -/
def State.lnDone (s : State) (n : Nat) (j : LineJob) (code : Nat) : State :=
  ((s.lnMod n (fun l => { l with
      jobs := l.jobs.filter (fun x => decide (x.id ≠ j.id))
      sched := l.sched.filter (fun x => decide (x.id ≠ j.id)) })).txEnd n j.id
    (if j.late ∧ code ≤ 2 then 5 else code)).when (decide (code = 3)) (fun t => t.bump (Reg.PORT_LN_TX_DROP_CNT n))

/-- The MAC frame of a job's present segment; none when a late Freeze flood cannot be sent any more. A scheduled frame's first sample
follows TXEN_LEAD after the command that starts it; a contended one's starts with its slot (R116, R118). -/
def State.lnFrameOf (s : State) (n : Nat) (j : LineJob) : Option Bytes :=
  let p := j.prefixBytes
  let r := pktRoute p j.route
  let many := decide (1 < j.segs.length)
  let fc := j.type * 32 + (pktAck p j.route).toNat * 16 + pktClass p * 4 + many.toNat * 2
  let head := lineHead fc j.seq 0 (pktDst p) r.length 0 r (if many then some (j.seg, j.segs.length - 1) else none)
  let body := j.segs.getD j.seg []
  if j.type = 4 then
    let lead := if pktFlag p 4 then s.getF (Reg.PORT_LN_TX n) Fld.PORT_LN_TX_TXEN_LEAD else 0
    let late := if j.late then (s.now + usTicks lead + 2 ^ 32 - u32 p 36) % 2 ^ 32 else 0
    (s.floodFill (18560000 + 1000 * lead + s.txCorr n) late body).map (lineFrame head)
  else some (lineFrame head body)

/-- Send a job's present segment. -/
def State.lnStart (s : State) (n : Nat) (j : LineJob) : State :=
  match s.lnFrameOf n j with
  | none => s.lnDone n j 3
  | some f =>
    s.lnSend n (s.lnSettings n (pktLink j.prefixBytes j.route) j.attempt) f
      { id := some j.id, ack := pktAck j.prefixBytes j.route }

/-- A segment got through: the next one contends, or the packet is complete. -/
def State.lnSegDone (s : State) (n : Nat) (j : LineJob) (code : Nat) : State :=
  if j.seg + 1 < j.segs.length then
    let (t, j) := s.lnBackoff { j with seg := j.seg + 1, attempt := 1, route := 1, cw := max 1 (s.nslot n (pktClass j.prefixBytes)) }
    t.lnJob n j
  else s.lnDone n j code

/-- Retry limit of a packet. -/
def State.lnLimit (s : State) (n : Nat) (j : LineJob) : Nat :=
  if u8 j.prefixBytes 1 = 0 then s.getF (Reg.PORT_LN_RETRY n) Fld.PORT_LN_RETRY_MAX_RETRY else u8 j.prefixBytes 1

/-- A failed attempt: a retry, route 2, or failure on every route (R120, R126). -/
def State.lnFail (s : State) (n : Nat) (j : LineJob) : State :=
  let cw := min (2 * j.cw) (s.getF (Reg.PORT_LN_RETRY n) Fld.PORT_LN_RETRY_CW_MAX)
  let t := s.ltTried n (pktLink j.prefixBytes j.route) false
  if j.attempt ≤ s.lnLimit n j then
    let (u, j) := t.lnBackoff { j with attempt := j.attempt + 1, cw := cw }
    u.lnJob n j
  else if j.route = 1 ∧ pktFlag j.prefixBytes 3 then
    let (u, j) := t.lnBackoff { j with attempt := 1, cw := cw, route := 2 }
    u.lnJob n j
  else t.lnDone n j 3

/-- The packet that waits for a response got none that matches. -/
def State.lnMissed (s : State) (n : Nat) : State :=
  match (s.ln n).await with
  | none => s
  | some id =>
    let t := (s.lnMod n (fun l => { l with await := none })).bump (Reg.PORT_LN_TX_NOACK_CNT n)
    match (s.ln n).job id with
    | none => t
    | some j => t.lnFail n j

/-- Window class of slot k of a round (R115): 3, 2, 1 or 0. -/
def State.lnWindow (s : State) (n k : Nat) : Nat :=
  if k < s.nslot n 3 then 3
  else if k < s.nslot n 3 + s.nslot n 2 then 2
  else if k < s.nslot n 3 + s.nslot n 2 + s.nslot n 1 then 1 else 0

/-- Slots of a round. -/
def State.lnRound (s : State) (n : Nat) : Nat := s.nslot n 3 + s.nslot n 2 + s.nslot n 1 + s.nslot n 0

/-- Would a contended frame of job j and its response slot reach into a scheduled launch (R118)? -/
def State.lnProtected (s : State) (n : Nat) (j : LineJob) : Bool :=
  let len := 12 + 2 * (pktRoute j.prefixBytes j.route).length + (if 1 < j.segs.length then 2 else 0) + (j.segs.getD j.seg []).length
  let (h, q) := s.lnHdr n (s.lnSettings n (pktLink j.prefixBytes j.route) j.attempt) len
  let us := lineUs (nsymOf h q) + s.getF (Reg.PORT_LN_ACK_T n) Fld.PORT_LN_ACK_T_ACK_GAP +
    s.getF (Reg.PORT_LN_ACK_T n) Fld.PORT_LN_ACK_T_ACK_DET + s.getF (Reg.PORT_LN_TX n) Fld.PORT_LN_TX_TXEN_LEAD
  (s.ln n).sched.any (fun x => x.late || fired (s.now + usTicks us) (u32 x.prefixBytes 36))

/-- Does the MAC of a line port work: the port is enabled and not looped back (R181, R187)? -/
def State.lnOn (s : State) (n : Nat) : Bool := decide (s.persona n = 1) && s.portEn n && !s.portLoop n

/-- Does a reception keep the medium busy? After a header that failed, until the frame it describes has ended, if its length can be
trusted (R83). -/
def LineRx.busy (r : LineRx) (now : Nat) : Bool :=
  match r.phase with
  | 0 => false
  | 3 => !r.until'.all (fired now)
  | _ => true

/-- Is the medium idle as far as the port knows? -/
def State.lnIdle (s : State) (n : Nat) : Bool :=
  let l := s.ln n
  l.tx.isNone && !l.reserved && !l.rx.busy s.now && l.resp.isNone

/-- Is the round past its IFS (R115)? -/
def State.lnInRound (s : State) (n : Nat) : Bool :=
  decide (0 < (s.ln n).slot) || (s.ln n).idleAt.all (fun t => fired s.now (t + usTicks (s.getF (Reg.PORT_LN_ACC_T n) Fld.PORT_LN_ACC_T_IFS)))

/-- The medium becomes busy: the round ends. Packets that count down in the present window, but for packet `but`, keep their backoff and
are counted (R116). -/
def State.lnDefer (s : State) (n : Nat) (but : Option Nat) : State :=
  let w := s.lnWindow n (s.ln n).slot
  let cut := (s.ln n).jobs.filter (fun j => decide (pktClass j.prefixBytes = w) && decide (0 < j.b) && decide (some j.id ≠ but))
  (s.lnMod n (fun l => { l with slot := 0, idleAt := some s.now })).when (s.lnInRound n) (fun t =>
    t.bumpN (Reg.PORT_LN_DEFER_CNT n) cut.length)

/-- May the port start a transmission of its own (R59, R488)? -/
def State.lnMay (s : State) (n : Nat) : Bool := s.lnOn n && s.lnIdle n && s.mayTransmit && !s.portDrain n

/-- CONTENTION_SLOT: the next slot of the round comes. A packet whose backoff is 0 in its window starts; otherwise the slot
passes idle and backoffs of its window's class count down (R116). -/
def execContentionSlot (n : Nat) (s : State) : Host.Outcome State Fault Refusal :=
  if s.lnOn n && s.lnIdle n then
    let w := s.lnWindow n (s.ln n).slot
    match (s.ln n).jobs.find? (fun j => decide (j.b = 0) && decide (pktClass j.prefixBytes = w) && !s.lnProtected n j && s.lnMay n) with
    | some j => ok ((s.lnDefer n (some j.id)).lnStart n j)
    | none => ok (s.lnMod n (fun l => { l with
        rx := {}
        slot := if l.slot + 1 < s.lnRound n then l.slot + 1 else 0
        idleAt := none
        jobs := l.jobs.map (fun j => if pktClass j.prefixBytes = w then { j with b := j.b - 1 } else j) }))
  else ok s

/-- TX_EN falls at the end of a transmission of which the lane carried samples xs from word index i on; an align burst owed follows (R103,
R104). -/
def State.lnFall (s : State) (n : Nat) (x : LineTx) (i : Nat) (xs : List Int) : State :=
  let t := ((s.lnEmit n i xs x.lag).txOff n).alignBurst n
  t.lnMod n (fun l => { l with tx := none, slot := 0, deaf := some (s.now, usTicks x.holdoff), idleAt := some s.now })

/-- LINE_TX_END: the last payload symbol is sent and TX_EN falls, TXEN_LAG after it; the medium is reserved for the response asked. The
lane's word index at the first sample was `first` (R78, R102, R104, R117). -/
def execLineTxEnd (n first : Nat) (s : State) : Host.Outcome State Fault Refusal :=
  match (s.ln n).tx with
  | none => ok s
  | some x =>
    let u := (s.lnFall n x first (s.lnWave n x)).lnMod n (fun l => { l with
      reserved := x.ack, await := if x.ack then x.id else none })
    match x.id.bind (s.ln n).job with
    | none => ok u
    | some j => if x.ack then ok u else ok ((u.ltSent n (pktLink j.prefixBytes j.route)).lnSegDone n j 1)

/-- RESPONSE_WINDOW_END: ACK_GAP + ACK_DET passes with no matching response; the medium is free. A preamble detected by then holds it for
its own frame (R117, R119). -/
def execResponseWindowEnd (n : Nat) (s : State) : Host.Outcome State Fault Refusal :=
  if s.persona n = 1 ∧ (s.ln n).rx.phase ≠ 1 ∧ (s.ln n).rx.phase ≠ 2 then
    ok ((s.lnMod n (fun l => { l with reserved := false, slot := 0, idleAt := some s.now })).lnMissed n)
  else ok s

/-- The scheduled packet of lowest T (R118). -/
def State.lnNextSched (s : State) (n : Nat) : Option LineJob :=
  (s.ln n).sched.foldl (fun best j =>
    match best with
    | none => some j
    | some b => if (u32 j.prefixBytes 36 + 2 ^ 32 + 2 ^ 31 - s.now) % 2 ^ 32 < (u32 b.prefixBytes 36 + 2 ^ 32 + 2 ^ 31 - s.now) % 2 ^ 32
      then some j else some b) none

/-- Schedule count at which TX_EN of a scheduled packet rises: T − TXEN_LEAD (R118). -/
def State.lnDue (s : State) (n : Nat) (j : LineJob) : Nat :=
  u32 j.prefixBytes 36 + 2 ^ 32 - usTicks (s.getF (Reg.PORT_LN_TX n) Fld.PORT_LN_TX_TXEN_LEAD)

/-- Scheduled packet j is late: counted once (R118). -/
def State.lnLate (s : State) (n : Nat) (j : LineJob) : State :=
  if j.late then s
  else ((s.lnMod n (fun l => { l with sched := l.sched.map (fun x => if x.id = j.id then { x with late := true } else x) })).bump
    (Reg.PORT_LN_LAUNCH_LATE_CNT n)).raiseF (Reg.PORT_INT_STAT n) Fld.PORT_INT_STAT_LAUNCH_LATE

/-- LINE_SCHEDULED_LAUNCH: T − TXEN_LEAD of the next scheduled packet has come, or the medium is idle again after a late one. At
T − TXEN_LEAD with the medium idle it is sent on time; when that instant has passed, or with the medium busy, it is late, and goes
once the medium is idle (R118; log entry 174). -/
def execLineScheduledLaunch (n : Nat) (s : State) : Host.Outcome State Fault Refusal :=
  match s.lnNextSched n with
  | none => ok s
  | some j =>
    if !s.lnOn n || !fired s.now (s.lnDue n j) then ok s
    else
      let late := j.late || !s.lnMay n || decide (s.now % 2 ^ 32 ≠ s.lnDue n j % 2 ^ 32)
      let t := s.when late (fun t => t.lnLate n j)
      if s.lnMay n then
        let k := { j with late := late }
        ok (((t.lnDefer n none).lnMod n (fun l => { l with
          sched := l.sched.filter (fun x => decide (x.id ≠ j.id))
          jobs := l.jobs ++ [k] })).lnStart n k)
      else ok t

/-! ## Reception (R112, R113, R119, R121, R124, R126, R129–R132, R135). -/

/-- The reception prefix and its body (R135). -/
def rxPacket (src kind link snr info : Nat) (body : Bytes) : Bytes :=
  bytesLE 2 (src % 0x4000 + kind * 0x4000) ++ bytesLE 2 link ++ [snr % 256, info] ++ bytesLE 2 body.length ++ body

/-- INFO byte. -/
def rxInfo (status nhop cls : Nat) (reasm : Bool) : Nat := status % 4 + nhop * 4 + reasm.toNat * 32 + cls * 64

/-- Once all segments of a slot are held its message is answered and the other slots stay; until then the slots are `kept`, this one
among them (R129). -/
def State.reasmKeep (s : State) (n : Nat) (kept others : List ReasmSlot) (x : ReasmSlot) : State × Option Bytes :=
  let put := fun (l : List ReasmSlot) => s.lnMod n (fun y => { y with reasm := l })
  if x.segs.length = x.last + 1 then (put others, some (x.segs.flatMap (·.2))) else (put kept, none)

/-- Place a segment in a reassembly slot (R129). Answers the state, and the message once it is whole. -/
def State.reasmPut (s : State) (n src seq idx last : Nat) (body : Bytes) : State × Option Bytes :=
  let rs := (s.ln n).reasm
  let same := fun (x : ReasmSlot) => decide (x.src = src) && decide (x.seq = seq)
  let fresh : ReasmSlot := { src := src, seq := seq, last := last, segs := [(idx, body)], started := s.now }
  match rs.find? same with
  | none =>
    if rs.length < 8 ∨ last = 0 then s.reasmKeep n (rs ++ [fresh]) rs fresh
    else (s.bump (Reg.PORT_LN_REASM_TO_CNT n)).reasmKeep n (rs.drop 1 ++ [fresh]) (rs.drop 1) fresh
  | some x =>
    let others := rs.filter (fun y => !same y)
    if x.last ≠ last then s.reasmKeep n (others ++ [fresh]) others fresh
    else
      let y := { x with segs := tput x.segs idx body }
      s.reasmKeep n (rs.map (fun z => if same z then y else z)) others y

/-- An admission request that a station handed on is remembered until its answer comes by, 64 of them at most (R132; log entry 43). -/
def State.lnAsked (s : State) (n src : Nat) (title : Bytes) : State :=
  s.lnMod n (fun l => { l with admits := ((src, title) :: l.admits.filter (fun e => decide (e ≠ (src, title)))).take 64 })

/-- Deliver a new frame addressed to the device. -/
def State.lnDeliver (s : State) (n : Nat) (b : Bytes) (status snr : Nat) : State :=
  let type := u8 b 0 / 32
  let hl := lineHeadLen b
  let body := (b.take (b.length - 4)).drop hl
  let src := u16 b 2 % 0x4000
  let cls := u8 b 0 / 4 % 4
  let nhop := u8 b 6 / 32
  let link := (linkOf b).1
  let kind := if type = 5 then 1 else if type = 6 then 2 else 0
  let s := s.when (decide (type = 6)) (fun t => t.bump (Reg.PORT_LN_ROUTE_ERR_CNT n))
  let s := s.when (decide (type = 5 ∧ body.length = 8 ∧ src ≠ 0x3FFE)) (fun t => t.lnAsked n src body)
  if u8 b 0 / 2 % 2 = 1 then
    let si := u16 b (hl - 3)
    match s.reasmPut n src (u8 b 1) (si / 4096) (si / 256 % 16) body with
    | (t, none) => t
    | (t, some m) => t.rxPush n (rxPacket src kind link snr (rxInfo status nhop cls true) m)
  else s.rxPush n (rxPacket src kind link snr (rxInfo status nhop cls false) body)

/-- A flood received on a line port: counted as seen, or noted; never delivered or relayed (R136, R167). -/
def State.lnFlood (s : State) (n : Nat) (body : Bytes) : State :=
  let key := (u16 body 2, u32 body 4)
  if key.1 = (s.floodId n).1 ∨ s.floodSeen n key.1 key.2 then s.bump (s.floodCnt n).2.1
  else s.floodNote n key.1 key.2 (s.floodCnt n).2.2

/-- The tone-map element of a response (R131). -/
def tmeBytes (fcc : Bool) (m : ToneMap) : Bytes :=
  let ml := if m.tmi = 0 then 0 else if fcc then 53 else 8
  [m.tmi, m.mode + m.code * 8 + m.rep * 32, unsigned 8 m.margin, ml] ++ bytesLE ml m.mask

/-- The map that a tone-map element gives. -/
def tmeMap (b : Bytes) : ToneMap :=
  { tmi := u8 b 0 % 16, mode := u8 b 1 % 8, code := u8 b 1 / 8 % 4, rep := u8 b 1 / 32 % 4, margin := signed 8 (u8 b 2),
    mask := un b 4 (u8 b 3) }

/-- A response with a good FCS: a tone-map element addressed to the device is stored; a match ends the wait (R119, R131). The response
slot is over (R117). -/
def State.lnResponse (s : State) (n : Nat) (b : Bytes) : State :=
  let s := s.lnMod n (fun l => { l with reserved := false })
  let frm := u16 b 4 % 0x4000
  let mine := decide (u16 b 6 % 0x4000 = 0)
  let s := s.when (mine && (u8 b 0).testBit 4) (fun t =>
    let m := tmeMap (b.drop 8)
    (t.lnMod n (fun l => { l with peers := tput l.peers frm m })).ltMod n frm (fun _ e => ltTm e none (some m.tmi)))
  match (s.ln n).await.bind (s.ln n).job with
  | none => s
  | some j =>
    if mine ∧ frm = pktLink j.prefixBytes j.route ∧ u8 b 1 = j.seq ∧ u8 b 2 / 16 = (if 1 < j.segs.length then j.seg else 0) then
      let t := s.lnMod n (fun l => { l with await := none, reserved := false })
      if u8 b 0 / 32 = 1 then
        let j := { j with usedAlt := j.usedAlt || decide (j.route = 2) }
        (((t.bump (Reg.PORT_LN_TX_ACKED_CNT n)).ltTried n frm true).lnJob n j).lnSegDone n j (if j.usedAlt then 2 else 0)
      else (t.bump (Reg.PORT_LN_TX_NACK_CNT n)).lnFail n j
    else s.lnMissed n

/-- The TMI that station a references: the TMI_RX of its link-table entry, if it was heard within 3,600 s (R130). -/
def State.lnRefers (s : State) (n a : Nat) : Option Nat :=
  let r := s.ltGet n a
  if u8 r 1 / 128 = 1 ∧ (s.taiSec + 2 ^ 32 - u32 r 12) % 2 ^ 32 ≤ 3600 then some (u8 r 5 / 16) else none

/-- Is map t referenced by any station of the link table (R130)? -/
def State.lnReferenced (s : State) (n t : Nat) : Bool :=
  (s.ltBase n).isSome && (List.range 0x4000).any (fun a => decide (s.lnRefers n a = some t))

/-- The map or advice that station a references. Without a link table, the one last given to it (log entry 175). -/
def State.lnInUse (s : State) (n a : Nat) : Option ToneMap :=
  let l := s.ln n
  let given := (l.given.find? (fun e => decide (e.1 = a))).map (·.2)
  if (s.ltBase n).isNone then given
  else match s.lnRefers n a with
    | none => none
    | some 0 => given.filter (fun m => decide (m.tmi = 0))
    | some t => (l.maps.find? (fun e => decide (e.1 = t))).map (·.2)

/-- Carriers of a mask that are not notched. -/
def State.lnMask (s : State) (n mask : Nat) : Nat := ((s.lnCarriers n).filter (fun c => mask.testBit c)).foldl (fun a c => a + 2 ^ c) 0

/-- Requirement of a mode and rate in dB (R96). -/
def needOf (mode code : Nat) : Nat :=
  match toneCands.find? (fun c => decide (c.1 = mode) && decide (c.2.1 = code)) with
  | none => 0
  | some c => c.2.2

/-- The device assigns station a a TMI for an offered map (R130) and owes it the assignment (R131). -/
def State.lnAssign (s : State) (n a : Nat) (m : ToneMap) (snr : List (Nat × Int)) : State :=
  let l := s.ln n
  let need : Int := (needOf m.mode m.code * 512 + l.rx.par.margin * 256 : Nat)
  let meets := fun (x : ToneMap) => (s.lnCarriers n).all (fun c => !x.mask.testBit c || snr.any (fun e => decide (e.1 = c) && decide (need ≤ e.2)))
  let free := if m.tmi = 0 then none else ((List.range 15).map (· + 1)).find? (fun t => !s.lnReferenced n t)
  let best := if m.tmi = 0 then none else (l.maps.map (·.2)).foldl (fun b x =>
      if meets x then
        match b with
        | none => some x
        | some y => if symBits y.mode (s.lnActive n (some y.mask)) * rate12 y.code < symBits x.mode (s.lnActive n (some x.mask)) * rate12 x.code
          then some x else some y
      else b) (none : Option ToneMap)
  let pick : ToneMap :=
    match (l.maps.find? (fun e => decide (m.tmi ≠ 0) && decide (e.2.mode = m.mode) && decide (e.2.code = m.code) && decide (e.2.mask = m.mask))), free, best with
    | some e, _, _ => e.2
    | none, some t, _ => { m with tmi := t }
    | none, none, some x => x
    | none, none, none => { m with tmi := 0 }
  let isNew := decide (m.tmi ≠ 0) && decide (pick.tmi ≠ 0) && decide (l.maps.find? (fun e => decide (e.1 = pick.tmi)) ≠ some (pick.tmi, pick))
  (s.lnMod n (fun x => { x with
      maps := if isNew then tput x.maps pick.tmi pick else x.maps
      given := tput x.given a pick
      offers := tput x.offers a pick })).ltMod n a (fun _ e => ltTm e (some pick.tmi) none)

/-- SNR estimates of station a on the plan's carriers. -/
def State.lnSnr (s : State) (n a : Nat) : List (Nat × Int) :=
  ((s.ln n).snr.filter (fun e => decide (e.1 / 1024 = a) && !s.lnNotched n (e.1 % 1024))).map (fun e => (e.1 % 1024, e.2))

/-- The map that the estimates of a station give (R96); TMI 1 stands for a number still to be assigned. Of an even number of carriers
the upper of the two middle values is the median (DESIGN CHOICE, log entry 176). -/
def State.lnMapOf (s : State) (n : Nat) (snr : List (Nat × Int)) : ToneMap :=
  let margin := (s.ln n).rx.par.margin
  let low := fun (l : List (Nat × Int)) => (snrSort l).headD (0, 0)
  match bestCand snr margin with
  | some (c, act) =>
    { tmi := 1, mode := c.1, code := c.2.1, mask := act.foldl (fun a e => a + 2 ^ e.1) 0,
      margin := (low act).2 / 256 - (2 * c.2.2 + margin : Nat) }
  | none =>
    let med := ((snrSort snr).getD (snr.length / 2) (0, 0)).2
    { tmi := 0, mode := 0, code := 0, rep := if 0 ≤ med then 1 else 2, margin := (low snr).2 / 256 - (8 + margin : Nat) }

/-- Is a new map the one in use? -/
def mapSame (g : Option ToneMap) (m : ToneMap) : Bool :=
  match g with
  | none => false
  | some x => decide (x.mode = m.mode) && decide (x.code = m.code) && decide (x.rep = m.rep) && decide (x.mask = m.mask)

/-- TONE_MAP_GENERATE: the frame's SNR values update or, after a channel step, replace the estimates of station a; a map
that differs from the one it references is assigned (R96, R130). A station's first frame gives its first estimates, and an eighth of a
difference is truncated toward zero (DESIGN CHOICE, log entry 176). -/
def State.lnEstimate (s : State) (n a : Nat) (snr : List (Nat × Int)) : State :=
  let step := decide (0 < (s.ln n).rx.steps)
  let t := s.lnMod n (fun l => { l with
    snr := snr.foldl (fun m e =>
      let k := a * 1024 + e.1
      match m.find? (fun x => decide (x.1 = k)) with
      | none => tput m k e.2
      | some (_, old) => tput m k (if step then e.2 else old + Int.tdiv (e.2 - old) 8)) l.snr })
  if snr.isEmpty then s
  else
    let est := t.lnSnr n a
    let m := t.lnMapOf n est
    if mapSame (t.lnInUse n a) m then t else t.lnAssign n a m est

/-- A response is owed for a frame (R113). -/
def State.lnOwe (s : State) (n : Nat) (b : Bytes) (good : Bool) (snr : Nat) : State :=
  if u8 b 0 / 16 % 2 = 1 then
    let seg := if u8 b 0 / 2 % 2 = 1 then u16 b (lineHeadLen b - 3) / 4096 else 0
    s.lnMod n (fun l => { l with
      resp := some { type := if good then 1 else 2, seq := u8 b 1, seg := seg, snr := snr, dst := (linkOf b).1 } })
  else s

/-- LINE_MAC_RECEIVE: the decoder's bytes with their status reach the MAC (R112). -/
def State.lnReceive (s : State) (n : Nat) (b : Bytes) (status : Nat) (snr : List (Nat × Int)) (level : Nat) : State :=
  let type := u8 b 0 / 32
  let good := fcsGood b && decide (status ≠ 2)
  let mean := snrCode (snrMean snr)
  let low := snrCode ((snrSort snr).headD (0, 0)).2
  if type = 1 ∨ type = 2 then
    if good then ((s.lnEstimate n (u16 b 4 % 0x4000) snr).lnResponse n b)
    else ((s.lnMod n (fun l => { l with reserved := false })).bump (Reg.PORT_LN_FCS_BAD_CNT n)).lnMissed n
  else
    let s := s.lnMissed n
    let hl := lineHeadLen b
    let mhcs := decide (hl + 4 ≤ b.length ∧ u8 b (hl - 1) = crc8 (b.take (hl - 1)))
    if type = 3 ∨ type = 7 ∨ mhcs = false then
      (s.lnMod n (fun l => { l with reserved := !mhcs })).bump (Reg.PORT_LN_MHCS_BAD_CNT n)
    else
      let (frm, dst) := linkOf b
      let h := hdrOf (s.ln n).rx.hdr
      let s := (s.lnEstimate n frm snr).ltHeard n frm mean low (fun e =>
        if good then overlay e 6 [h.mode + h.code * 8 + h.rep * 32] else e)
      let s := s.lnMod n (fun l => { l with reserved := (u8 b 0).testBit 4 })
      let s := s.when good (fun t => (((t.setF (Reg.PORT_LINK_Q n) Fld.PORT_LINK_Q_SNR_LAST mean).setF (Reg.PORT_LINK_Q n)
        Fld.PORT_LINK_Q_LEVEL_LAST level).setF (Reg.PORT_LINK_Q n) Fld.PORT_LINK_Q_LINK_SRC frm).raiseF (Reg.PORT_LINK_Q n) Fld.PORT_LINK_Q_VALID)
      let s := s.when (!good) (fun t => t.bump (Reg.PORT_LN_FCS_BAD_CNT n))
      if type = 4 then s.when good (fun t => t.lnFlood n ((b.take (b.length - 4)).drop hl))
      else if dst ≠ 0 ∨ u8 b 6 / 4 % 8 ≠ u8 b 6 / 32 then s.bump (Reg.PORT_LN_OVERHEARD_CNT n)
      else
        let s := s.lnOwe n b good mean
        if !good then s
        else
          let seg := if u8 b 0 / 2 % 2 = 1 then u16 b (hl - 3) / 4096 else 0
          let key := (u16 b 2 % 0x4000, u16 b 4 % 0x4000, u8 b 1, seg)
          if dupHit (s.port n) s.now (s.getF (Reg.PORT_LN_SEG n) Fld.PORT_LN_SEG_DUP_LIFE * 2 ^ 20) key then s.bump (Reg.PORT_LN_RX_DUP_CNT n)
          else (s.portMod n (fun p => dupAdd p s.now key)).lnDeliver n b status mean

/-- RESPONSE_SEND: ACK_GAP after a frame, the response owed goes out with any assignment for its station (R113, R114, R131). -/
def execResponseSend (n : Nat) (s : State) : Host.Outcome State Fault Refusal :=
  match (s.ln n).resp with
  | none => ok s
  | some r =>
    let t := s.lnMod n (fun l => { l with resp := none })
    if !s.lnOn n || !s.mayTransmit || s.portDrain n || (s.ln n).tx.isSome then ok t
    else
      let offer := (s.ln n).offers.find? (fun e => decide (e.1 = r.dst))
      let tme := match offer with
        | none => []
        | some (_, m) => tmeBytes (s.lnFcc n) m
      let b := [r.type * 32 + (if offer.isSome then 16 else 0), r.seq, r.seg * 16, r.snr] ++ bytesLE 2 0 ++ bytesLE 2 r.dst ++ tme
      let rep := s.getF (Reg.PORT_LN_RETRY n) Fld.PORT_LN_RETRY_RSP_REP
      let u := t.lnSend n ({ mode := 0, code := 0, rep := rep, tmi := 0, ilv := 1, len := 1 }, none) (b ++ bytesLE 4 (crc32c b)) {}
      ok ((u.lnMod n (fun l => { l with offers := l.offers.filter (fun e => decide (e.1 ≠ r.dst)) })).when offer.isSome
        (fun v => v.bump (Reg.PORT_LN_TM_SENT_CNT n)))

/-- REASSEMBLY_TIMEOUT: REASM_TO passes on an incomplete message of an originator (R129). -/
def execReassemblyTimeout (n src seq : Nat) (s : State) : Host.Outcome State Fault Refusal :=
  if (s.ln n).reasm.any (fun x => decide (x.src = src) && decide (x.seq = seq)) then
    ok ((s.lnMod n (fun l => { l with reasm := l.reasm.filter (fun x => !(decide (x.src = src) && decide (x.seq = seq))) })).bump
      (Reg.PORT_LN_REASM_TO_CNT n))
  else ok s

end Sys2Proof.Machine
end

