-- ==== Sys2Proof/Machine/LinePhy.lean ====
section
/-! DEFINITION. Sys2Proof/Machine/LinePhy.lean: the commands of the line physical layer (R76–R109). What the receive lane brings arrives
as words with the index of the first; SNR and level measurements arrive as operands. -/

namespace Sys2Proof.Machine

/-- Does the receive path of a line port attend to its lane: not while TX_EN is high or for RX_HOLDOFF after it falls (R104), nor with
LOOP = 1 (R187)? -/
def State.lnHears (s : State) (n : Nat) : Bool :=
  s.lnOn n && !(s.port n).txen && (s.ln n).deaf.all (fun e => !s.within e.2 e.1)

/-! ## Lane words (R101–R103). -/

/-- Count the unknown control codes among words of a receive lane (R101). -/
def State.laneErr (s : State) (n : Nat) (l : List Nat) : State :=
  s.bumpN (if s.persona n = 1 then Reg.PORT_LN_LANE_ERR_CNT n else Reg.PORT_AIR_LANE_ERR_CNT n) (l.filter wordOdd).length

/-- Samples that words of a line port's lane carry, each with its place; flagged while the lane is lost (R103). -/
def State.lnIn (s : State) (n i : Nat) (l : List Nat) : List (Nat × Int × Bool) :=
  (laneIn (s.lnLane n) (s.lnFcc n) s.draws i l).map (fun e => (e.1, e.2.1, e.2.2 || !s.portLink n))

/-- Line parameters as they stand, for a frame that begins (R108). -/
def State.lnPar (s : State) (n : Nat) : LinePar := {
  thr := s.getF (Reg.PORT_LN_IMP n) Fld.PORT_LN_IMP_IMP_THR
  guard := s.lnSamples n (s.getF (Reg.PORT_LN_IMP n) Fld.PORT_LN_IMP_IMP_GUARD)
  blank := s.lnSamples n (s.getF (Reg.PORT_LN_IMP n) Fld.PORT_LN_IMP_IMP_BLANK)
  stepThr := s.getF (Reg.PORT_LN_CFG n) Fld.PORT_LN_CFG_STEP_THR
  margin := s.getF (Reg.PORT_LN_CFG n) Fld.PORT_LN_CFG_TM_MARGIN }

/-! ## Preamble (R80, R97, R100). -/

/-- A preamble is detected: its header comes, with the channel estimates at the start, the second turn symbol as phase reference, and
its blanked and erased symbols counted (R80, R82, R97, R100; log entry 177). -/
def State.lnDetected (s : State) (n : Nat) (l : List (Int × Bool)) : State :=
  let p := s.lnPlan n
  let par := s.lnPar n
  let per := (List.range 10).map (fun i => (i, (l.drop (i * p.n)).take p.n))
  let marks := per.map (fun e => marksIn e.2)
  let good := (per.filter (fun e => decide (marksIn e.2 ≤ par.blank))).map (fun e => (e.1, blankSamples e.2))
  ((s.lnMod n (fun x => { x with rx := {
      phase := 1, par := par, hc := startEst p good, ref := carriersOf p p.cs (blankSamples ((l.drop (9 * p.n)).take p.n)),
      head := List.replicate 108 0 } })).bumpN (Reg.PORT_LN_SYM_ERASED_CNT n) (marks.filter (fun w => decide (par.blank < w))).length).bumpN
    (Reg.PORT_LN_IMP_BLANK_CNT n) (marks.filter (fun w => decide (1 ≤ w ∧ w ≤ par.blank))).length

/-- LINE_PREAMBLE_DETECT: `words`, the first of index `first`, hold ten symbol periods in which the receiver looks for a preamble. Four of
the eight lead periods must reach DET_THR, and both turn periods correlate with the other sign (R80, R97; log entry 177); one is enough
for carrier sense. A port that is drained ignores the frame and counts it (R59). -/
def execLinePreambleDetect (n first : Nat) (words : List Nat) (s : State) : Host.Outcome State Fault Refusal :=
  if s.lnHears n && !(decide ((s.ln n).rx.phase = 3) && (s.ln n).rx.busy s.now) then
    let par := s.lnPar n
    let l := markSamples par.guard (flagSamples par.thr ((s.lnIn n first words).map (·.2)))
    let cs := preambleCorrs (s.lnPlan n) l
    let hits := ((cs.take 8).filter (corrReaches (s.getF (Reg.PORT_LN_CFG n) Fld.PORT_LN_CFG_DET_THR))).length
    let t := (s.laneErr n words).draw
    if hits = 0 then ok t
    else
      let t := t.lnDefer n none
      if hits < 4 ∨ !(cs.drop 8).all (fun c => decide (c.1 < 0)) then ok t
      else if s.portDrain n then ok (t.portMod n (fun p => { p with ignored := p.ignored + 1 }))
      else ok (t.lnDetected n l)
  else ok s

/-! ## Header (R82, R83). -/

/-- Mask of a received map: none for TMI 0, no answer for a map the port does not hold. -/
def State.lnMapFor (s : State) (n tmi : Nat) : Option (Option Nat) :=
  if tmi = 0 then some none else ((s.ln n).maps.find? (fun e => decide (e.1 = tmi))).map (fun e => some e.2.mask)

/-- Is a header acceptable (R83)? -/
def State.lnHdrGood (s : State) (n h : Nat) : Bool :=
  let x := hdrOf h
  match s.lnMapFor n x.tmi with
  | none => false
  | some m =>
    let a := s.lnActive n m
    let q := symBits x.mode a
    decide (h % 2 ^ 16 = hcrc h) && decide (x.mode ≤ 5) && decide (x.code ≤ 2) && decide (x.rep ≤ 2) &&
      (decide (x.rep = 0) || ((decide (x.mode = 0) || decide (x.mode = 2)) && decide (x.code = 0))) &&
      (decide (x.mode ≤ 1) || decide (a % 8 = 0)) && decide (1 ≤ x.ilv) && decide (x.ilv ≤ 384) && decide (x.ilv * q ≤ 24576) &&
      decide (1 ≤ x.len)

/-- Payload symbols of the frame that a header describes, if its length can be trusted: the CRC checks, its fields are valid, and the port
holds its tone map (R83; log entry 178). -/
def State.lnImplied (s : State) (n h : Nat) : Option Nat :=
  let x := hdrOf h
  match s.lnMapFor n x.tmi with
  | none => none
  | some m =>
    let q := symBits x.mode (s.lnActive n m)
    if h % 2 ^ 16 = hcrc h ∧ x.mode ≤ 5 ∧ x.code ≤ 2 ∧ x.rep ≤ 2 ∧ 1 ≤ x.len ∧ q ≠ 0 then some (nsymOf x q) else none

/-- Active carriers, Q and NSYM of the frame being received. -/
def State.lnRxActs (s : State) (n h : Nat) : List Nat := s.lnActs n ((s.lnMapFor n (hdrOf h).tmi).getD none)

/-- Q of an accepted header. -/
def State.lnRxQ (s : State) (n h : Nat) : Nat := symBits (hdrOf h).mode (s.lnRxActs n h).length

/-- A header failed: counted, the medium ignored until the frame it describes has ended or the next preamble comes, and no response to a
packet that waits (R83, R117, R119). -/
def State.lnHdrBad (s : State) (n hd : Nat) : State :=
  let len := s.lnImplied n hd
  let fin := len.map (fun k => s.now + usTicks (1440 * k))
  ((s.lnMod n (fun l => { l with
    rx := { phase := 3, until' := fin }, slot := 0, idleAt := some (fin.getD s.now), reserved := len.isSome })).bump
      (Reg.PORT_LN_HDR_BAD_CNT n)).lnMissed n


/-! ## Symbols (R93, R97, R100). -/

/-- Demodulate a header symbol (R82). -/
def LineRx.headSym (r : LineRx) (p : LinePlan) (xs : List Int) (half : Bool) : LineRx :=
  let ys := carriersOf p p.cs xs
  { r with head := headAdd r.sym ys r.ref half r.head, ref := ys, prevErased := false, sym := r.sym + 1 }

/-- Erase a symbol: its soft values are 0. It keeps its carriers as a reference if they were demodulated, takes up one symbol of a refresh
and updates no estimate (R93, R97, R100). -/
def LineRx.erase (r : LineRx) (q nsym : Nat) (ref : Carriers) : LineRx :=
  if r.phase = 1 then { r with ref := ref, prevErased := true, sym := r.sym + 1 }
  else { (r.push nsym (hdrOf r.hdr).ilv q (List.replicate q (0, true))) with ref := ref, prevErased := true, refresh := r.refresh - 1 }

/-- Demodulate a payload symbol of modes 0 and 1: each carrier against the symbol before, which must not have been erased (R93). -/
def LineRx.diffSym (r : LineRx) (p : LinePlan) (act : List Nat) (q nsym : Nat) (xs : List Int) (half : Bool) : LineRx :=
  let x := hdrOf r.hdr
  let ys := carriersOf p act xs
  let soft := ys.flatMap (fun y => softBits x.mode y.2 (tget (fun _ => ⟨0, 0⟩) r.ref y.1))
  let l := soft.map (fun v => if r.prevErased then (0, true) else (if half then halfSoft v else v, false))
  { (r.push nsym x.ilv q l) with ref := ys, prevErased := false }

/-- Estimate of a carrier by interpolation in k between the pilots next to it, or the nearest pilot at a band edge (R100 step 3). -/
def interpolate (pil : Carriers) (c : Nat) : Cx :=
  match (pil.filter (fun e => decide (e.1 ≤ c))).getLast?, (pil.filter (fun e => decide (c ≤ e.1))).head? with
  | some a, some b => if b.1 ≤ a.1 then a.2 else a.2.plus ((b.2.minus a.2).frac (c - a.1 : Nat) (b.1 - a.1 : Nat))
  | some a, none => a.2
  | none, some b => b.2
  | none, none => ⟨0, 0⟩

/-- Does a pilot disagree with its estimate: |Y ÷ pilot − Hc| > STEP_THR ÷ 256 × |Hc|? -/
def pilotOff (thr : Nat) (y h : Cx) : Bool := decide ((thr : Int) * thr * h.power < 65536 * (y.minus h).power)

/-- Channel estimates after a symbol's pilots, and whether they declare a step (R100 steps 2–4). -/
def LineRx.track (r : LineRx) (act : List Nat) (pil : Carriers) : LineRx :=
  let hc := fun (c : Nat) => tget (fun _ => (⟨0, 0⟩ : Cx)) r.hc c
  if pil.length < 4 * (pil.filter (fun e => pilotOff r.par.stepThr e.2 (hc e.1))).length then
    { r with
      hc := act.map (fun c => (c, interpolate pil c)), steps := r.steps + 1, refresh := 7
      stale := act.filter (fun c => !(pil.map (·.1)).contains c) }
  else
    let new := fun (e : Nat × Cx) => if 0 < r.refresh then e.2 else (hc e.1).plus ((e.2.minus (hc e.1)).frac 1 4)
    { r with
      hc := pil.foldl (fun t e => tput t e.1 (new e)) r.hc, refresh := r.refresh - 1
      stale := r.stale.filter (fun c => !(pil.map (·.1)).contains c) }

/-- Demodulate a payload symbol of modes 2–5: pilots first, then the data carriers with the estimates they leave (R94, R100). In the
symbols of a refresh the soft values of carriers not yet refreshed are halved. -/
def LineRx.cohSym (r : LineRx) (p : LinePlan) (act : List Nat) (q nsym : Nat) (xs : List Int) (half : Bool) : LineRx :=
  let x := hdrOf r.hdr
  let ys := carriersOf p act xs
  let b := (pilotBits (pilotsBefore act.length (r.sym + 1))).drop (pilotsBefore act.length r.sym)
  let pil := (List.zip (ys.zipIdx.filter (fun e => isPilot e.2 r.sym)) b).map (fun e =>
    (e.1.1.1, if e.2 then e.1.1.2.neg else e.1.1.2))
  let t := r.track act pil
  let data := (ys.zipIdx.filter (fun e => !isPilot e.2 r.sym)).map (·.1)
  let l := data.flatMap (fun y =>
    let v := softBits x.mode y.2 (tget (fun _ => ⟨0, 0⟩) t.hc y.1)
    let v := if half then v.map halfSoft else v
    (if 0 < r.refresh ∧ t.stale.contains y.1 then v.map halfSoft else v).map (fun u => (u, false)))
  { (t.push nsym x.ilv q l) with prevErased := false }

/-- A symbol's useful part is demodulated with its marked samples at 0. -/
def LineRx.symbol (r : LineRx) (p : LinePlan) (act : List Nat) (q nsym : Nat) (xs : List Int) (half : Bool) : LineRx :=
  if r.phase = 1 then r.headSym p xs half
  else if (hdrOf r.hdr).mode ≤ 1 then r.diffSym p act q nsym xs half
  else r.cohSym p act q nsym xs half

/-- Is a symbol of the frame still to come? -/
def State.lnSymDue (s : State) (n : Nat) : Bool :=
  let r := (s.ln n).rx
  s.lnHears n && ((decide (r.phase = 1) && decide (r.sym < 4)) ||
    (decide (r.phase = 2) && decide (r.sym < nsymOf (hdrOf r.hdr) (s.lnRxQ n r.hdr))))

/-- Erase the present symbol of the frame, with the carriers that it showed, if any (R97 step 6). -/
def State.lnErase (s : State) (n : Nat) (ref : Carriers) : State :=
  let r := (s.ln n).rx
  let q := s.lnRxQ n r.hdr
  (s.lnMod n (fun l => { l with rx := r.erase q (nsymOf (hdrOf r.hdr) q) ref })).bump (Reg.PORT_LN_SYM_ERASED_CNT n)

/-- A symbol of the frame is received: `words`, the first of index `first`, hold IMP_GUARD of samples, the symbol with its cyclic prefix,
and IMP_GUARD of samples again (R97, R100; log entry 179). -/
def State.lnSymbol (s : State) (n first : Nat) (words : List Nat) : State :=
  if s.lnSymDue n then
    let r := (s.ln n).rx
    let p := s.lnPlan n
    let ins := s.lnIn n first words
    let cp := r.par.guard + p.n / 8
    let place := fun (i : Nat) => (ins.map (·.1)).getD i words.length
    let own := (words.take (place (cp + p.n))).drop (place r.par.guard)
    let l := ((markSamples r.par.guard (flagSamples r.par.thr (ins.map (·.2)))).drop cp).take p.n
    let w := marksIn l
    let act := s.lnRxActs n r.hdr
    let q := s.lnRxQ n r.hdr
    let t := (s.laneErr n own).draw
    if r.par.blank < w then t.lnErase n (carriersOf p (if r.phase = 1 then p.cs else act) (blankSamples l))
    else
      let r' := r.symbol p act q (nsymOf (hdrOf r.hdr) q) (blankSamples l) (decide (0 < w))
      ((t.lnMod n (fun x => { x with rx := r' })).when (decide (0 < w)) (fun u => u.bump (Reg.PORT_LN_IMP_BLANK_CNT n))).bumpN
        (Reg.PORT_LN_CH_STEP_CNT n) (r'.steps - r.steps)
  else s

/-- Symbols of one part of the frame, header or payload, in order: index of the first word, and words. -/
def State.lnSymbols (s : State) (n : Nat) (l : List (Nat × List Nat)) : State := s.each l (fun e t => t.lnSymbol n e.1 e.2)

/-- LINE_SYMBOL_RECEIVE: a symbol is received, with the words of IMP_GUARD of samples after it apart. Header symbols may come this way too
(log entry 179). -/
def execLineSymbolReceive (n first : Nat) (words after : List Nat) (s : State) : Host.Outcome State Fault Refusal :=
  ok (s.lnSymbol n first (words ++ after))

/-- LINE_RX_DEADLINE_MISS: the present symbol's soft values miss DL_RX (R105). -/
def execLineRxDeadlineMiss (n : Nat) (s : State) : Host.Outcome State Fault Refusal :=
  if s.lnSymDue n then ok (((s.lnErase n []).bump (Reg.PORT_LN_PACE_SHORT_CNT n)).shortfall n) else ok s

/-- LINE_TX_DEADLINE_MISS: symbol k, counted from the first of the four header symbols on, is not ready DL_TX before its slot. A payload
symbol goes as zeros; a header symbol ends the transmission after itself, sent as zeros, and the frame comes back as not sent (R106; log
entry 180). -/
def execLineTxDeadlineMiss (n k : Nat) (s : State) : Host.Outcome State Fault Refusal :=
  match (s.ln n).tx with
  | none => ok s
  | some x =>
    if k < 4 then
      let p := s.lnPlan n
      let z := s.lnSamples n x.lead
      let xs := (s.lnWave n x).take (z + headSamples p k) ++ List.replicate (p.n / 8 + p.n) 0
      let u := (s.lnFall n x 0 xs).shortfall n
      match x.id.bind (s.ln n).job with
      | none => ok u
      | some j => ok (u.lnFail n j)
    else
      ok (((s.lnMod n (fun l => { l with tx := some { x with missed := (k - 4) :: x.missed } })).bump (Reg.PORT_LN_PACE_SHORT_CNT n)).shortfall n)

/-! ## Decode (R82, R83, R99). -/

/-- LINE_HEADER_RECEIVE: `rest` brings the header symbols that no other row has brought; when the four are in, the sums of their soft values
are decoded (R82, R83). -/
def execLineHeaderReceive (n : Nat) (rest : List (Nat × List Nat)) (s : State) : Host.Outcome State Fault Refusal :=
  let t := if (s.ln n).rx.phase = 1 then s.lnSymbols n rest else s
  let r := (t.ln n).rx
  if t.lnHears n ∧ r.phase = 1 ∧ 4 ≤ r.sym then
    let h := headDecode r.head
    if t.lnHdrGood n h then ok (t.lnMod n (fun l => { l with rx := { r with phase := 2, hdr := h, sym := 0 } }))
    else ok (t.lnHdrBad n h)
  else ok t

/-- LINE_FRAME_DECODE: after the last payload symbol, of which `rest` brings those that no other row has brought, the soft values are
decoded; `snr` is the frame's SNR in 1/512 dB on `carriers`, plan indices, and `level` its mean power code, as they are measured (R96,
R99; log entry 169). -/
def execLineFrameDecode (n : Nat) (rest : List (Nat × List Nat)) (carriers : List Nat) (snr : List Int) (level : Nat) (s : State) :
    Host.Outcome State Fault Refusal :=
  let s := if (s.ln n).rx.phase = 2 then s.lnSymbols n rest else s
  let r := (s.ln n).rx
  let x := hdrOf r.hdr
  if s.lnHears n ∧ r.phase = 2 ∧ nsymOf x (s.lnRxQ n r.hdr) ≤ r.sym then
    let (bytes, st, c) := frameDecode x r.coded
    let t := if st = 2 then s.bump (Reg.PORT_LN_RS_FAIL_CNT n)
      else (s.bump (Reg.PORT_LN_FRAME_OK_CNT n)).when (decide (st = 1)) (fun t => t.bumpN (Reg.PORT_LN_RS_CORR_CNT n) c)
    let u := t.lnReceive n bytes st (List.zip carriers snr) level
    ok (u.lnMod n (fun l => { l with rx := {}, slot := 0, idleAt := some s.now }))
  else ok s

/-! ## Alignment (R101, R103). -/

/-- Does a port use sample lanes? -/
def State.laneUser (s : State) (n : Nat) : Bool := s.portEn n && !s.portLoop n && decide (1 ≤ s.persona n) && decide (s.persona n ≤ 3)

/-- LANE_ALIGNED: of the words that a port's receive lane brings at one bit offset the last 32 are valid and at least 8 of them are align
words. -/
def execLaneAligned (lane : Nat × List Nat) (s : State) : Host.Outcome State Fault Refusal :=
  let (n, words) := lane
  if s.laneUser n && alignedBy words then
    ok (((s.laneErr n words).raiseF (Reg.PORT_STAT n) Fld.PORT_STAT_LINK).alignBurst n)
  else ok s

/-- LANE_LOSS: of the last 16 of `words` 4 are bad; the next align burst follows as soon as TX_EN is low. -/
def execLaneLoss (n : Nat) (words : List Nat) (s : State) : Host.Outcome State Fault Refusal :=
  if s.laneUser n && s.portLink n && lostBy words then
    let t := ((((s.laneErr n words).setF (Reg.PORT_STAT n) Fld.PORT_STAT_LINK 0).raiseF (Reg.PORT_INT_STAT n) Fld.PORT_INT_STAT_LINK_LOSS).bump
      (if s.persona n = 1 then Reg.PORT_LN_LANE_LOSS_CNT n else Reg.PORT_AIR_LANE_LOSS_CNT n))
    ok (((t.report (portRegion n * 0x1000 + 0x102) 3 (s.portPath n) [n]).portMod n (fun p => { p with burst := true })).alignBurst n)
  else ok s

end Sys2Proof.Machine
end

