-- ==== Sys2Proof/Machine/Air.lean ====
section
/-! DEFINITION. Sys2Proof/Machine/Air.lean: the air and air-member personalities (R137–R171). -/

namespace Sys2Proof.Machine

/-! ## Parameters. -/

/-- Air state of a port. -/
def State.ar (s : State) (n : Nat) : AirState := (s.port n).air

/-- Change the air state of a port. -/
def State.arMod (s : State) (n : Nat) (f : AirState → AirState) : State := s.portMod n (fun p => { p with air := f p.air })

/-- Is the port an air or air-member port and enabled? -/
def State.airOn (s : State) (n : Nat) : Bool :=
  (decide (s.persona n = 2) || decide (s.persona n = 3)) && s.portEn n && !s.portLoop n

/-- CYC_LOG2, NB and NR: its own in a coordinator port, the parent's in a member port (R162). -/
def State.airCyc (s : State) (n : Nat) : Nat × Nat × Nat :=
  if s.persona n = 3 then (s.ar n).parent
  else (s.getF (Reg.PORT_AIR_CYC n) Fld.PORT_AIR_CYC_CYC_LOG2, s.getF (Reg.PORT_AIR_CYC n) Fld.PORT_AIR_CYC_NB,
    s.getF (Reg.PORT_AIR_CYC n) Fld.PORT_AIR_CYC_NR)

/-- Own short address: 0 in a coordinator port, SELF in a member port. -/
def State.airSelf (s : State) (n : Nat) : Nat := if s.persona n = 3 then s.getF (Reg.PORT_AIR_SELF n) Fld.PORT_AIR_SELF_ADDR else 0

/-- STATE of PORT_AIR_SYNC_STAT. -/
def State.airSync (s : State) (n : Nat) : Nat := s.getF (Reg.PORT_AIR_SYNC_STAT n) Fld.PORT_AIR_SYNC_STAT_STATE

/-- May the port start a transmission other than an Enh-Ack: a coordinator, or a member in sync (R162, R164), with no Enh-Ack owed
(R148)? -/
def State.airMay (s : State) (n : Nat) : Bool :=
  s.airOn n && s.mayTransmit && !s.portDrain n && (s.ar n).tx.isNone && (s.ar n).ack.isNone && (decide (s.persona n = 2) || decide (s.airSync n = 2))

/-- TXEN_LEAD in µs. -/
def State.airLead (s : State) (n : Nat) : Nat := s.airF n (Reg.PORT_AIR_WAKE n) Fld.PORT_AIR_WAKE_TXEN_LEAD

/-- Schedule count at which TX_EN of a scheduled packet rises: T − TXEN_LEAD (R151). -/
def State.arDueAt (s : State) (n : Nat) (j : AirJob) : Nat := u32 j.prefixBytes 36 + 2 ^ 32 - usTicks (s.airLead n)

/-- Is a scheduled launch due, or late (R148)? -/
def State.arDue (s : State) (n : Nat) : Bool := (s.ar n).sched.any (fun j => fired s.now (s.arDueAt n j))

/-- Wake-up train under way: it ends at its T_r (R159). -/
def State.trainOn (s : State) (n : Nat) : Option (Nat × Nat) := (s.ar n).train.filter (fun t => decide (s.taiTick < t.2))

/-- May the port start a wake-up frame or what goes after one: no launch due, no downlink waiting, no rendezvous window open (R148)? -/
def State.airLow (s : State) (n : Nat) : Bool :=
  s.airMay n && !s.arDue n && (s.ar n).windows.isEmpty && !(s.ar n).jobs.any (fun j => j.down && decide (j.phase = 4))

/-- Rates of the FSK modes in kb/s (R137). -/
def fskRate (mode : Nat) : Nat :=
  match mode with
  | 0 => 50
  | 1 => 100
  | 2 => 150
  | _ => 200

/-- Bits of an OFDM symbol of options 3 and 4 (IEEE 802.15.4-2020; log entry 52). -/
def ofdmBits (opt4 : Bool) (mcs : Nat) : Nat :=
  if opt4 then [6, 6, 6, 12, 18, 24, 36].getD mcs 36 else [6, 6, 12, 24, 36, 48, 72].getD mcs 72

/-- Preamble and SFD, and the whole frame of len PSDU octets, in ns. -/
def State.airNs (s : State) (n len : Nat) : Nat × Nat :=
  let m := s.getF (Reg.PORT_AIR_CFG n) Fld.PORT_AIR_CFG_PHY_MODE
  if m ≤ 3 then (80000000 / fskRate m, 8000000 * (12 + len) / fskRate m)
  else
    let b := ofdmBits (decide (m = 5)) (s.getF (Reg.PORT_AIR_CFG n) Fld.PORT_AIR_CFG_MCS)
    (720000, 120000 * (12 + (8 * len + 6 + b - 1) / b))

/-! ## MAC frames (R142, R143). -/

/-- The FCS of a frame: 4 or 2 octets. -/
def airFcs (two : Bool) (b : Bytes) : Bytes :=
  if two then bytesLE 2 (crcLo 0x8408 0 0 b) else bytesLE 4 (crcLo 0xEDB88320 0xFFFFFFFF 0xFFFFFFFF (padTo (max 4 b.length) b))

/-- Frame control of version 0b10. -/
def airFc (type : Nat) (pend ar comp : Bool) (dm sm : Nat) : Nat :=
  type + pend.toNat * 16 + ar.toNat * 32 + comp.toNat * 64 + dm * 1024 + 2 * 4096 + sm * 16384

/-- PAN_ID. -/
def State.pan (s : State) (n : Nat) : Nat := s.getF (Reg.PORT_AIR_CFG n) Fld.PORT_AIR_CFG_PAN_ID

/-- The PN9 sequence x^9 + x^5 + 1 that whitens a FSK PSDU, from all ones, first bit first (IEEE 802.15.4; log entry 52). -/
def pn9 (st k : Nat) : List Bool :=
  match k with
  | 0 => []
  | j + 1 => decide (st % 2 = 1) :: pn9 (st / 2 + (st + st / 2 ^ 5) % 2 * 2 ^ 8) j

/-- A PSDU whitened, each octet least significant bit first. -/
def whitened (b : Bytes) : Bytes :=
  bytesOfBits (List.zipWith (· != ·) (bitsOf b) (pn9 0x1FF (8 * b.length)))

/-- PHR fields of a PSDU of len octets: in FSK the FCS type, whitening and the length as the 16-bit PHR lays them, in OFDM rate and length
(IEEE 802.15.4; log entry 52). -/
def State.airPhr (s : State) (n len : Nat) : Nat :=
  let f := fun (r : BitRange) => s.getF (Reg.PORT_AIR_CFG n) r
  if f Fld.PORT_AIR_CFG_PHY_MODE ≤ 3 then
    f Fld.PORT_AIR_CFG_FCS2 * 2 ^ 12 + f Fld.PORT_AIR_CFG_WHITEN * 2 ^ 11 + len
  else f Fld.PORT_AIR_CFG_MCS * 2 ^ 11 + len

/-- What leaves the port for a MAC frame: PHR fields and the PSDU with its FCS, whitened in FSK modes as WHITEN says (R137). -/
def State.airOut (s : State) (n : Nat) (b : Bytes) : Out :=
  let p := b ++ airFcs (s.isF (Reg.PORT_AIR_CFG n) Fld.PORT_AIR_CFG_FCS2) b
  let w := decide (s.getF (Reg.PORT_AIR_CFG n) Fld.PORT_AIR_CFG_PHY_MODE ≤ 3) && s.isF (Reg.PORT_AIR_CFG n) Fld.PORT_AIR_CFG_WHITEN
  .air n (s.airPhr n p.length) (if w then whitened p else p)

/-- A frame with its FCS goes on the air. -/
def State.airSend (s : State) (n : Nat) (b : Bytes) (kind id : Nat) : State :=
  (((s.txOn n).emit (s.airOut n b)).bump (Reg.PORT_AIR_TX_FRAME_CNT n)).arMod n (fun a => { a with tx := some (kind, id) })

/-- A data frame: MAC header to a short address, short source, then the payload. -/
def State.airData (s : State) (n : Nat) (pend ar : Bool) (seq dst : Nat) (payload : Bytes) : Bytes :=
  bytesLE 2 (airFc 1 pend ar true 2 2) ++ [seq % 256] ++ bytesLE 2 (s.pan n) ++ bytesLE 2 dst ++ bytesLE 2 (s.airSelf n) ++ payload

/-- The Wenros air header (R143). -/
def airHead (type cls seq orig final nhop : Nat) (route : List Nat) : Bytes :=
  [type * 32 + cls * 8, seq % 256] ++ bytesLE 2 orig ++ bytesLE 2 final ++ [nhop * 32] ++ (route.take nhop).flatMap (bytesLE 2)

/-! ## Cycle (R145–R148, R152, R153). -/

/-- The cycle that TAI is in, and ticks of TAI at its start: aligned to TAI in a coordinator port, the parent's in a member port. -/
def State.airCycle (s : State) (n : Nat) : Nat × Nat :=
  if s.persona n = 3 then (s.num (Reg.PORT_AIR_CYCLE_NO n), s.taiTick - (s.now + 2 ^ 32 - (s.ar n).cyc0) % 2 ^ 32)
  else
    let ofs := s.airF n (Reg.PORT_AIR_BCN_OFS n) Fld.PORT_AIR_BCN_OFS_OFS
    let k := (s.taiTick - ofs) / 2 ^ (s.airCyc n).1
    (k, k * 2 ^ (s.airCyc n).1 + ofs)

/-- CYCLE_NO of the cycle that TAI is in. -/
def State.cycleNo (s : State) (n : Nat) : Nat := (s.airCycle n).1 % 2 ^ 32

/-- Ticks of a slot. -/
def State.airSlot (s : State) (n : Nat) : Nat := 2 ^ (s.airCyc n).1 / 64

/-- Ticks since the cycle began. -/
def State.airPos (s : State) (n : Nat) : Nat := (s.now + 2 ^ 32 - (s.ar n).cyc0) % 2 ^ 32

/-- RDV_MS of a train to T_r, in a frame whose SFD ends d ticks from now: whole milliseconds (R159). -/
def State.rdvMs (s : State) (d tr : Nat) : Nat := (tr - s.taiTick - d) * 1000 / 2 ^ 20

/-- Ticks of preamble and SFD. -/
def State.airShr (s : State) (n : Nat) : Nat := usTicks ((s.airNs n 0).1 / 1000)

/-- Will the broadcast slots of a cycle that starts now carry a flood: one of class 3 that contends, or one whose launch falls in them
(R146, R152)? -/
def State.floodNow (s : State) (n : Nat) : Bool :=
  let nb := (s.airCyc n).2.1
  let d := fun (j : AirJob) => (u32 j.prefixBytes 36 + 2 ^ 32 - s.now) % 2 ^ 32
  decide (0 < nb) && ((s.ar n).jobs.any (fun j => decide (j.type = 4) && decide (pktClass j.prefixBytes = 3)) ||
    (s.ar n).sched.any (fun j => decide (j.type = 4) && decide (s.airSlot n ≤ d j) && decide (d j < (nb + 1) * s.airSlot n)))

/-- The beacon body (R152); LOAD has no register: a free value (log entry 53). -/
def State.beaconBody (s : State) (n : Nat) : Bytes :=
  let train := s.trainOn n
  let flood := s.floodNow n
  let (sec, ns) := s.taiAfter ((s.airNs n 0).1 + s.txCorr n)
  let (c, nb, nr) := s.airCyc n
  [1, (s.isF (Reg.PORT_AIR_CFG n) Fld.PORT_AIR_CFG_ADMIT_OPEN).toNat + 2 * (s.isF Reg.TU_STAT Fld.TU_STAT_TAI_VALID).toNat +
      4 * train.isSome.toNat + 8 * flood.toNat, 0, c, nb, nr] ++ bytesLE 4 (s.cycleNo n) ++ bytesLE 6 sec ++ bytesLE 4 ns ++
    bytesLE 2 (s.drawn 0x4000) ++
    (match train with
      | none => []
      | some (m, tr) => bytesLE 2 m ++ bytesLE 2 (s.rdvMs (s.airShr n) tr))

/-- What is on the air is cut off for the beacon: its packet keeps its attempt count, and a downlink waits for the meter's next contact
(R148; log entry 181). -/
def State.beaconCut (s : State) (n : Nat) : State :=
  s.arMod n (fun a => { a with
    tx := none
    jobs := a.jobs.map (fun j => if j.phase = 2 then { j with phase := if j.down then 5 else 0 } else j) })

/-- AIR_CYCLE_START: a cycle begins, and registers written since the last one come into force (R145, R171). A coordinator port sends its
beacon, abandoning a reception in progress (R148, R152). -/
def execAirCycleStart (n : Nat) (receiving : Bool) (s : State) : Host.Outcome State Fault Refusal :=
  if s.airOn n then
    let s := s.airTake n
    let no := if s.persona n = 2 then s.cycleNo n else (s.num (Reg.PORT_AIR_CYCLE_NO n) + 1) % 2 ^ 32
    let t := (s.wrN (Reg.PORT_AIR_CYCLE_NO n) no).arMod n (fun a => { a with cyc0 := s.now })
    if s.persona n = 2 ∧ s.mayTransmit ∧ s.portDrain n = false then
      let t := t.beaconCut n
      let body := t.beaconBody n
      let b := bytesLE 2 (airFc 0 false false false 0 2) ++ [no % 256] ++ bytesLE 2 (t.pan n) ++ bytesLE 2 0 ++ body
      ok ((((t.draw).airSend n b 5 0).bump (Reg.PORT_AIR_BCN_TX_CNT n)).when receiving (fun u => u.bump (Reg.PORT_AIR_PHR_BAD_CNT n)))
    else ok t
  else ok s

/-! ## Packets (R149–R151, R157, R169). -/

/-- The job of packet id. -/
def AirState.job (a : AirState) (id : Nat) : Option AirJob := a.jobs.find? (fun j => decide (j.id = id))

/-- Change a job. -/
def State.arJob (s : State) (n : Nat) (j : AirJob) : State :=
  s.arMod n (fun a => { a with jobs := a.jobs.map (fun x => if x.id = j.id then j else x) })

/-- A packet's outcome (R134, R169). -/
def State.arDone (s : State) (n : Nat) (j : AirJob) (code : Nat) : State :=
  ((s.arMod n (fun a => { a with
      jobs := a.jobs.filter (fun x => decide (x.id ≠ j.id))
      sched := a.sched.filter (fun x => decide (x.id ≠ j.id)) })).txEnd n j.id
    (if j.late ∧ code ≤ 2 then 5 else code)).when (decide (code = 3)) (fun t => t.bump (Reg.PORT_AIR_TX_DROP_CNT n))

/-- MIN_BE of a class. -/
def State.minBe (s : State) (n p : Nat) : Nat := s.airF n (Reg.PORT_AIR_CSMA n) ⟨4 * p + 7, 4 * p + 4⟩

/-- A fresh R149 procedure for a job. -/
def State.csma (s : State) (n : Nat) (j : AirJob) : State × AirJob :=
  let be := s.minBe n (pktClass j.prefixBytes)
  (s.draw, { j with be := be, nbTry := 0, backoff := s.drawn (2 ^ be), phase := 0 })

/-- Is a job's frame answered by an Enh-Ack? Every frame but a flood is unicast. -/
def airUnicast (j : AirJob) : Bool := decide (j.type ≠ 4)

/-- Is a job the admission request of a member that has no address yet (R154)? -/
def State.airAdmits (s : State) (n : Nat) (j : AirJob) : Bool := decide (s.persona n = 3) && decide (j.type = 5)

/-- The frame of a job; none when a late Freeze flood cannot be sent any more. Its first sample follows TXEN_LEAD after TX_EN rises. -/
def State.airFrame (s : State) (n : Nat) (j : AirJob) : Option Bytes :=
  let p := j.prefixBytes
  let r := pktRoute p j.route
  let adm := s.airAdmits n j
  let h := airHead j.type (pktClass p) j.seq (s.airSelf n) (if adm then 0 else pktDst p) r.length r
  if j.type = 4 then
    let late := if j.late then (s.now + usTicks (s.airLead n) + 2 ^ 32 - u32 p 36) % 2 ^ 32 else 0
    (s.floodFill (1000 * s.airLead n + (s.airNs n 0).1 + s.txCorr n) late j.body).map (fun b =>
      s.airData n false false j.mseq 0xFFFF (h ++ b))
  else if adm then
    some (bytesLE 2 (airFc 1 false true true 2 3) ++ [j.mseq % 256] ++ bytesLE 2 (s.pan n) ++ bytesLE 2 0 ++ padTo 8 j.body ++ h ++ j.body)
  else some (s.airData n j.pending true j.mseq (pktLink p j.route) (h ++ j.body))

/-- Send a job's frame. -/
def State.airStart (s : State) (n : Nat) (j : AirJob) : State :=
  let q := (s.ar n).macSeq
  let j := { j with mseq := q, phase := 2 }
  match s.airFrame n j with
  | none => s.arDone n j 3
  | some f => ((s.arMod n (fun a => { a with macSeq := (q + 1) % 256 })).arJob n j).airSend n f 1 j.id

/-- Address of a meter's rendezvous entry (R155). -/
def State.rdvAt (s : State) (n a : Nat) : Nat :=
  (s.airW n (Reg.PORT_AIR_RDV_LO n)).toNat / 2 ^ 12 * 2 ^ 12 + (s.airW n (Reg.PORT_AIR_RDV_HI n)).toNat * 2 ^ 32 + 16 * (a % 0x4000)

/-- The rendezvous entry of a meter, if rendezvous handling is on and the entry is VALID (R155). -/
def State.rdvEntry (s : State) (n a : Nat) : Option Bytes :=
  if bit (s.airW n (Reg.PORT_AIR_RDV_LO n)) 0 then
    let e := s.rdMem (s.rdvAt n a) 16
    if u8 e 1 / 128 = 1 then some e else none
  else none

/-- Write a rendezvous entry as one burst. -/
def State.rdvPut (s : State) (n a : Nat) (e : Bytes) : State := s.wrMem (s.rdvAt n a) e

/-- Does a meter sleep? -/
def State.sleeps (s : State) (n a : Nat) : Bool :=
  match s.rdvEntry n a with
  | none => false
  | some e => decide (0 < u8 e 2)

/-- Packets held for a meter, oldest first. -/
def State.heldFor (s : State) (n a : Nat) : List TxPkt :=
  (s.port n).txq.filter (fun k => k.held && decide (pktDst k.bytes = a))

/-- Chunks that held packets take. -/
def State.parked (s : State) (n : Nat) : Nat := (((s.port n).txq.filter (·.held)).map (fun k => chunks k.bytes.length)).sum

/-- A job for packet k. A joiner's admission request goes in class 0 (R154). -/
def State.arJobOf (s : State) (n : Nat) (k : TxPkt) : State × AirJob :=
  let flood := pktFlag k.bytes 5
  let (t, body) := if flood then s.floodOut n (k.bytes.drop 40) else (s, k.bytes.drop 40)
  let q := (t.port n).seq
  let type := if flood then 4 else if pktDst k.bytes = 0x3FFE ∨ (t.persona n = 3 ∧ t.airSelf n = 0x3FFE) then 5 else 0
  let adm := decide (t.persona n = 3 ∧ type = 5)
  let u := (t.portMod n (fun p => { p with seq := (q + 1) % 256 })).when adm (fun v => v.arMod n (fun a => { a with title := body.take 8 }))
  let p := k.bytes.take 40
  (u, { id := k.id, prefixBytes := if adm then overlay p 0 [u8 p 0 / 4 * 4] else p, body := body, type := type, seq := q })

/-- AIR_TX_PACKET_TAKE: the oldest packet not yet taken is refused, held for a sleeping meter, put aside for its launch
instant, or contends (R149, R157, R169, R178). -/
def execAirTxPacketTake (n : Nat) (s : State) : Host.Outcome State Fault Refusal :=
  if s.airOn n ∧ (s.persona n = 2 ∨ s.airSync n = 2) then
    let s := s.ptrCheck n true
    match (s.port n).txq.find? (fun k => !k.taken) with
    | none => ok s
    | some k =>
      if !pktGood k.bytes ∨ 1940 < k.bytes.length then ok (s.txEnd n k.id 4)
      else if !pktFlag k.bytes 5 && s.sleeps n (pktDst k.bytes) then
        if s.parked n + chunks k.bytes.length ≤ s.getF (Reg.PORT_CTL n) Fld.PORT_CTL_PARK_MAX then
          ok (s.txMod n k.id (fun x => { x with taken := true, held := true }))
        else ok (s.txEnd n k.id 8)
      else if pktFlag k.bytes 4 then
        let (t, j) := s.arJobOf n k
        ok ((t.txMod n k.id (fun x => { x with taken := true })).arMod n (fun a => { a with sched := a.sched ++ [{ j with phase := 4 }] }))
      else if (s.ar n).jobs.any (fun j => !j.down) then ok s
      else
        let (t, j) := s.arJobOf n k
        let (u, j) := t.csma n j
        ok ((u.txMod n k.id (fun x => { x with taken := true })).arMod n (fun a => { a with jobs := a.jobs ++ [j] }))
  else ok s

/-- Retry limit of a packet (R150). -/
def State.arLimit (s : State) (n : Nat) (j : AirJob) : Nat :=
  if u8 j.prefixBytes 1 = 0 then s.airF n (Reg.PORT_AIR_CSMA n) Fld.PORT_AIR_CSMA_MAX_RETRY else u8 j.prefixBytes 1

/-- A failed attempt: a retry from a fresh procedure, route 2, or a drop; a downlink packet waits, held, for the meter's next
contact (R150, R157). A member that has lost sync keeps the packet with its attempt count (R164). -/
def State.arFail (s : State) (n : Nat) (j : AirJob) : State :=
  let t := s.ltTried n (pktLink j.prefixBytes j.route) false
  if s.persona n = 3 ∧ s.airSync n = 3 then s.arJob n { j with phase := 0 }
  else if j.attempt ≤ s.arLimit n j then
    if j.down then t.arJob n { j with attempt := j.attempt + 1, phase := 5 }
    else
      let (u, j) := t.csma n { j with attempt := j.attempt + 1 }
      u.arJob n j
  else if j.route = 1 ∧ pktFlag j.prefixBytes 3 ∧ !j.down then
    let (u, j) := t.csma n { j with attempt := 1, route := 2 }
    u.arJob n j
  else t.arDone n j 3

/-- AIR_BACKOFF_EXPIRE: the backoff of the contending packet ends and CCA begins (R149). -/
def execAirBackoffExpire (n : Nat) (s : State) : Host.Outcome State Fault Refusal :=
  match (s.ar n).jobs.find? (fun j => decide (j.phase = 0) && !j.down) with
  | none => ok s
  | some j => if s.airOn n && s.airMay n then ok (s.arJob n { j with phase := 1 }) else ok s

/-- Does a frame of len octets, FCS included, with its Enh-Ack lie inside the broadcast region from now on, or inside the contention
region (R146, R149)? -/
def State.airRoom (s : State) (n len : Nat) : Bool × Bool :=
  let (_, nb, nr) := s.airCyc n
  let us := s.airLead n + (s.airNs n len).2 / 1000 + s.airF n (Reg.PORT_AIR_ACK n) Fld.PORT_AIR_ACK_ACK_GAP +
    s.airF n (Reg.PORT_AIR_ACK n) Fld.PORT_AIR_ACK_ACK_WAIT
  let p := s.airPos n
  let e := p + usTicks us
  let g := s.airSlot n
  (decide (g ≤ p) && decide (e ≤ (nb + 1) * g), decide ((nb + 1) * g ≤ p) && decide (e ≤ (64 - nr) * g))

/-- Octets of the FCS that the port sends. -/
def State.fcsLen (s : State) (n : Nat) : Nat := if s.isF (Reg.PORT_AIR_CFG n) Fld.PORT_AIR_CFG_FCS2 then 2 else 4

/-- May a job's frame start now: it fits its region, of class 3 the broadcast one too; no train is under way; and a joiner's request only
while the parent admits (R146, R148, R149, R154)? -/
def State.airFits (s : State) (n : Nat) (j : AirJob) : Bool :=
  let (bc, co) := s.airRoom n (((s.airFrame n j).getD []).length + s.fcsLen n)
  ((bc && decide (pktClass j.prefixBytes = 3)) || co) && (s.trainOn n).isNone && (!s.airAdmits n j || (s.ar n).admitOpen)

/-- Is the medium busy by CCA (R149)? -/
def State.ccaBusy (s : State) (n : Nat) (power : Int) (receiving : Bool) : Bool :=
  decide (signed 8 (s.airF n (Reg.PORT_AIR_TIMING n) Fld.PORT_AIR_TIMING_ED_THR) ≤ power) || receiving

/-- AIR_CCA_DONE: mean power in dB relative to full scale, and whether a frame was being received (R149). A member that has lost sync
meanwhile makes no CCA (R164). -/
def execAirCcaDone (n : Nat) (power : Int) (receiving : Bool) (s : State) : Host.Outcome State Fault Refusal :=
  match (s.ar n).jobs.find? (fun j => decide (j.phase = 1)) with
  | none => ok s
  | some j =>
    if s.persona n = 3 ∧ s.airSync n = 3 then ok (s.arJob n { j with phase := 0 })
    else if s.ccaBusy n power receiving then
      let t := s.bump (Reg.PORT_AIR_CCA_BUSY_CNT n)
      if s.airF n (Reg.PORT_AIR_CSMA n) Fld.PORT_AIR_CSMA_MAX_CSMA < j.nbTry + 1 then
        ok ((t.bump (Reg.PORT_AIR_CSMA_FAIL_CNT n)).arFail n j)
      else
        let be := min (j.be + 1) (s.airF n (Reg.PORT_AIR_CSMA n) Fld.PORT_AIR_CSMA_MAX_BE)
        ok (t.draw.arJob n { j with nbTry := j.nbTry + 1, be := be, backoff := t.drawn (2 ^ be), phase := 0 })
    else if s.airFits n j && s.airLow n then ok (s.airStart n j)
    else ok (s.arJob n { j with phase := 0 })

/-- Start the oldest packet held for a meter: it has just been heard (R157). -/
def State.downStart (s : State) (n a : Nat) : State :=
  match s.heldFor n a with
  | [] => s
  | k :: more =>
    match (s.ar n).job k.id with
    | some j => s.arJob n { j with pending := !more.isEmpty, phase := 4 }
    | none =>
      let (t, j) := s.arJobOf n k
      t.arMod n (fun x => { x with jobs := x.jobs ++ [{ j with down := true, pending := !more.isEmpty, phase := 4 }] })

/-- AIR_ENH_ACK_SEND: the Enh-Ack owed goes out ACK_GAP after the frame it answers; it waits for a beacon on the air (R148, R150). -/
def execAirEnhAckSend (n : Nat) (s : State) : Host.Outcome State Fault Refusal :=
  match (s.ar n).ack with
  | none => ok s
  | some (dst, seq, pend) =>
    let t := s.arMod n (fun a => { a with ack := none })
    if !s.airOn n || !s.mayTransmit || s.portDrain n then ok t
    else if (s.ar n).tx.isSome then ok s
    else ok (t.airSend n (bytesLE 2 (airFc 2 pend false true 2 0) ++ [seq % 256] ++ bytesLE 2 dst) 4 dst)

/-- The downlink that waits for the Enh-Ack to meter a to end. -/
def State.downNext (s : State) (n a : Nat) : Option AirJob :=
  (s.ar n).jobs.find? (fun j => j.down && decide (j.phase = 4) && decide (pktDst j.prefixBytes = a))

/-- AIR_TX_END: a frame's last sample is sent and TX_EN falls after 20 µs; the Enh-Ack wait or the outcome of a broadcast
follows; after an Enh-Ack the downlink to its meter that is due is sent, or waits for the next contact if a launch goes first (R140, R148,
R150, R157). -/
def execAirTxEnd (n : Nat) (s : State) : Host.Outcome State Fault Refusal :=
  match (s.ar n).tx with
  | none => ok s
  | some (kind, id) =>
    let t := ((s.arMod n (fun a => { a with tx := none })).txOff n).alignBurst n
    match kind with
    | 1 =>
      match (s.ar n).job id with
      | none => ok t
      | some j => if airUnicast j then ok (t.arJob n { j with phase := 3 }) else ok (t.arDone n j 1)
    | 4 =>
      match s.downNext n id with
      | none => ok t
      | some j => ok (if t.airMay n && !t.arDue n then t.airStart n j else t.arJob n { j with phase := 5 })
    | _ => ok t

/-- AIR_ACK_TIMEOUT: no matching Enh-Ack within ACK_GAP + ACK_WAIT (R150). -/
def execAirAckTimeout (n : Nat) (s : State) : Host.Outcome State Fault Refusal :=
  match (s.ar n).jobs.find? (fun j => decide (j.phase = 3)) with
  | none => ok s
  | some j => ok ((s.bump (Reg.PORT_AIR_TX_NOACK_CNT n)).arFail n j)

/-- The scheduled packet of lowest T (R151). -/
def State.arNextSched (s : State) (n : Nat) : Option AirJob :=
  (s.ar n).sched.foldl (fun best j =>
    match best with
    | none => some j
    | some b => if (u32 j.prefixBytes 36 + 2 ^ 32 + 2 ^ 31 - s.now) % 2 ^ 32 < (u32 b.prefixBytes 36 + 2 ^ 32 + 2 ^ 31 - s.now) % 2 ^ 32
      then some j else some b) none

/-- Scheduled packet j is late: counted once (R151). -/
def State.arLate (s : State) (n : Nat) (j : AirJob) : State :=
  if j.late then s
  else ((s.arMod n (fun a => { a with sched := a.sched.map (fun x => if x.id = j.id then { x with late := true } else x) })).bump
    (Reg.PORT_AIR_LAUNCH_LATE_CNT n)).raiseF (Reg.PORT_INT_STAT n) Fld.PORT_INT_STAT_LAUNCH_LATE

/-- AIR_SCHEDULED_LAUNCH: T − TXEN_LEAD of the first scheduled packet has come, or the port is free after a late one. At that instant a free
port outside slot 0 sends it without CCA; when it has passed, or the port is not free, it is late, and goes once the port is free (R151;
log entry 174). -/
def execAirScheduledLaunch (n : Nat) (receiving : Bool) (s : State) : Host.Outcome State Fault Refusal :=
  match s.arNextSched n with
  | none => ok s
  | some j =>
    if !s.airOn n || !fired s.now (s.arDueAt n j) then ok s
    else
      let free := s.airMay n && !receiving && decide (s.airSlot n ≤ s.airPos n + usTicks (s.airLead n))
      let late := j.late || !free || decide (s.now % 2 ^ 32 ≠ s.arDueAt n j % 2 ^ 32)
      let t := s.when late (fun t => t.arLate n j)
      if free then
        let k := { j with late := late }
        ok ((t.arMod n (fun a => { a with sched := a.sched.filter (fun x => decide (x.id ≠ j.id)), jobs := a.jobs ++ [k] })).airStart n k)
      else ok t

/-- AIR_RX_DEADLINE_MISS: an I/Q block misses its deadline and counts as erased (R141). -/
def execAirRxDeadlineMiss (n : Nat) (s : State) : Host.Outcome State Fault Refusal :=
  if s.airOn n then ok ((s.bump (Reg.PORT_AIR_PACE_SHORT_CNT n)).shortfall n) else ok s

/-- AIR_TX_DEADLINE_MISS: the frame ends at once and the attempt fails (R141). -/
def execAirTxDeadlineMiss (n : Nat) (s : State) : Host.Outcome State Fault Refusal :=
  match (s.ar n).tx with
  | none => ok s
  | some (_, id) =>
    let t := (((((s.arMod n (fun a => { a with tx := none })).txOff n).alignBurst n).bump (Reg.PORT_AIR_PACE_SHORT_CNT n)).shortfall n)
    match (s.ar n).jobs.find? (fun j => decide (j.phase = 2) && decide (j.id = id)) with
    | none => ok t
    | some j => ok (t.arFail n j)

/-! ## Sleeping meters (R155–R161). -/

/-- A step of the escalation: PORT_AIR_ESC, the port's event, a Sampler record (R158). -/
def State.escalate (s : State) (n a step first : Nat) : State :=
  let el := min ((s.taiSec + 2 ^ 32 - first) % 2 ^ 32) 0xFFFF
  let t := ((s.setF (Reg.PORT_AIR_ESC n) Fld.PORT_AIR_ESC_STEP step).setF (Reg.PORT_AIR_ESC n) Fld.PORT_AIR_ESC_ADDR a).setF
    (Reg.PORT_AIR_ESC n) Fld.PORT_AIR_ESC_ELAPSED_S el
  (t.raiseF (Reg.PORT_INT_STAT n) Fld.PORT_INT_STAT_ESCALATION).report (portRegion n * 0x1000 + 0x103) (if step = 3 then 3 else 2)
    (s.portPath n) ([n] ++ bytesLE 2 a ++ [step] ++ bytesLE 2 el)

/-- A contact with a sleeping meter (R156). -/
def State.contact (s : State) (n a : Nat) : State :=
  match s.rdvEntry n a with
  | none => s
  | some e =>
    if u8 e 2 = 0 then s
    else
      let t := (s.rdvPut n a (overlay (overlay e 6 [0, 0]) 8 (bytesLE 4 s.taiSec))).arMod n (fun x => { x with
        windows := x.windows.map (fun w => if w.addr = a then { w with contact := true } else w) })
      if u8 e 6 % 4 = 0 then t else t.escalate n a 0 (u32 e 12)

/-- G of R156 for an interval of dt ticks, in whole µs. -/
def State.rdvG (s : State) (n dt : Nat) : Nat :=
  s.airF n (Reg.PORT_AIR_GUARD n) Fld.PORT_AIR_GUARD_G0 + 2 * s.airF n (Reg.PORT_AIR_GUARD n) Fld.PORT_AIR_GUARD_DRIFT * dt / 2 ^ 20

/-- GMAX in µs. -/
def State.gmax (s : State) (n : Nat) : Nat := 1000 * s.airF n (Reg.PORT_AIR_GUARD n) Fld.PORT_AIR_GUARD_GMAX

/-- Ticks from a meter's last contact to instant t of TAI. -/
def sinceContact (e : Bytes) (t : Nat) : Nat := (t + 2 ^ 52 - u32 e 8 * 2 ^ 20) % 2 ^ 52

/-- Ticks of a meter's wake period. -/
def State.rdvPeriod (s : State) (n : Nat) (e : Bytes) : Nat := 2 ^ (u8 e 2) * 2 ^ (s.airCyc n).1

/-- The first rendezvous time T_r of a meter from instant t of TAI on: the start of slot SLOT in a cycle that PHASE selects (R155). -/
def State.rdvTr (s : State) (n : Nat) (e : Bytes) (t : Nat) : Nat :=
  let (k, z) := s.airCycle n
  let m := 2 ^ (u8 e 2)
  let w := s.rdvPeriod n e
  let x := z + (u16 e 4 % m + m - k % m) % m * 2 ^ (s.airCyc n).1 + u8 e 3 * s.airSlot n
  x + (t + w - 1 - x) / w * w

/-- Does a meter's rendezvous at T_r call for a wake-up train? -/
def State.rdvTrain (s : State) (n : Nat) (e : Bytes) (tr : Nat) : Bool :=
  decide (u8 e 6 % 4 = 2) || (decide (u8 e 6 % 4 = 0) && decide (s.gmax n < s.rdvG n (sinceContact e tr)))

/-- G of a meter's window around T_r: none in STATE 3, and none where a train that the rendezvous calls for did not run (R156, R159). -/
def State.rdvWidth (s : State) (n a : Nat) (e : Bytes) (tr : Nat) : Option Nat :=
  if u8 e 6 % 4 = 3 then none
  else if s.rdvTrain n e tr then
    if (s.ar n).train = some (a, tr) then some (s.rdvG n (s.airF n (Reg.PORT_AIR_WAKE n) Fld.PORT_AIR_WAKE_WUT_LEN * 2 ^ 20)) else none
  else some (if u8 e 6 % 4 = 1 then s.gmax n else s.rdvG n (sinceContact e tr))

/-- RENDEZVOUS_WINDOW_OPEN: T_r − G of a meter's rendezvous has come (R156). After a train the window follows only the train
that ran for this meter; a train put off moves the rendezvous (R159). -/
def execRendezvousWindowOpen (n a : Nat) (s : State) : Host.Outcome State Fault Refusal :=
  match s.rdvEntry n a with
  | none => ok s
  | some e =>
    let tr := s.rdvTr n e s.taiTick
    match s.rdvWidth n a e tr with
    | none => ok s
    | some g =>
      if !s.airOn n ∨ u8 e 2 = 0 ∨ s.taiTick + usTicks g < tr then ok s
      else
        ok (s.arMod n (fun x => { x with
          windows := x.windows.filter (fun w => decide (w.addr ≠ a)) ++
            [{ addr := a, g := g, opens := tr - usTicks g, tr := tr, closes := tr + usTicks g + s.airShr n + 1, contact := false }] }))

/-- A rendezvous at T_r missed (R158). -/
def State.rdvMiss (s : State) (n a : Nat) (e : Bytes) (tr : Nat) : State :=
  let st := u8 e 6 % 4
  let first := if st = 0 then s.taiSec % 2 ^ 32 else u32 e 12
  let next := sinceContact e (tr + s.rdvPeriod n e)
  let st' := if st = 0 then (if s.rdvG n next ≤ s.gmax n then 1 else 2) else st + 1
  let e' := overlay (overlay e 6 [st', min (u8 e 7 + 1) 255]) 12 (bytesLE 4 first)
  let t := ((s.bump (Reg.PORT_AIR_RDV_MISS_CNT n)).rdvPut n a e').when (decide (st' = 3)) (fun u =>
    (u.each (u.heldFor n a) (fun k v => (v.arMod n (fun x => { x with jobs := x.jobs.filter (fun y => decide (y.id ≠ k.id)) })).txEnd n k.id 6)).bump
      (Reg.PORT_AIR_UNREACH_CNT n))
  t.escalate n a st' first

/-- RENDEZVOUS_WINDOW_END: the window closes; `tx` is how long the port itself transmitted in it, in µs (R158, R161). -/
def execRendezvousWindowEnd (n a tx : Nat) (s : State) : Host.Outcome State Fault Refusal :=
  match (s.ar n).windows.find? (fun w => decide (w.addr = a)) with
  | none => ok s
  | some w =>
    let t := s.arMod n (fun x => { x with windows := x.windows.filter (fun y => decide (y.addr ≠ a)) })
    if 2 * w.g + (s.airNs n 0).1 / 1000 < 4 * tx then ok (t.bump (Reg.PORT_AIR_RDV_BLOCKED_CNT n))
    else if w.contact then ok t
    else
      match s.rdvEntry n a with
      | none => ok t
      | some e => if u8 e 6 % 4 = 3 then ok t else ok (t.rdvMiss n a e w.tr)

/-- WAKE_TRAIN_START: WUT_LEN before a rendezvous that calls for a train; one train at a time (R159). A start up to a slot late is on time
(DESIGN CHOICE, log entry 182). -/
def execWakeTrainStart (n a : Nat) (s : State) : Host.Outcome State Fault Refusal :=
  match s.rdvEntry n a, s.trainOn n with
  | some e, none =>
    let len := s.airF n (Reg.PORT_AIR_WAKE n) Fld.PORT_AIR_WAKE_WUT_LEN * 2 ^ 20
    let tr := s.rdvTr n e (s.taiTick + len - s.airSlot n)
    if s.airOn n ∧ 0 < u8 e 2 ∧ u8 e 6 % 4 ≠ 3 ∧ tr ≤ s.taiTick + len ∧ s.rdvTrain n e tr then
      ok ((s.arMod n (fun x => { x with train := some (a, tr) })).bump (Reg.PORT_AIR_WUT_SENT_CNT n))
    else ok s
  | _, _ => ok s

/-- WAKE_FRAME_SEND: a wake-up frame to the meter's short address (R159, R160; log entry 54); in slot 0 the train gives way to the
beacon. -/
def execWakeFrameSend (n : Nat) (s : State) : Host.Outcome State Fault Refusal :=
  match s.trainOn n with
  | none => ok s
  | some (a, tr) =>
    if s.airLow n && decide (s.airSlot n ≤ s.airPos n) then
      let q := (s.ar n).macSeq
      let ms := s.rdvMs (usTicks (s.airLead n) + s.airShr n) tr
      ok ((s.arMod n (fun x => { x with macSeq := (q + 1) % 256 })).airSend n (s.airData n false false q a ([7 * 32] ++ bytesLE 2 ms)) 6 0)
    else ok s

/-! ## Members (R162–R164). -/

/-- Sampler record of a member's sync (R163). -/
def State.syncReport (s : State) (n sev : Nat) : State :=
  s.report (portRegion n * 0x1000 + 0x104) sev (s.portPath n)
    ([n, s.airSync n] ++ bytesLE 3 (s.getF (Reg.PORT_AIR_SYNC_STAT n) Fld.PORT_AIR_SYNC_STAT_LOST_S))

/-- MEMBER_BEACON_MISS: a cycle without a valid parent beacon in its window. -/
def execMemberBeaconMiss (n : Nat) (s : State) : Host.Outcome State Fault Refusal :=
  if s.airOn n ∧ s.persona n = 3 ∧ s.airSync n = 2 then
    let k := s.getF (Reg.PORT_AIR_SYNC_STAT n) Fld.PORT_AIR_SYNC_STAT_MISSED + 1
    let t := (s.bump (Reg.PORT_AIR_BCN_MISS_CNT n)).setF (Reg.PORT_AIR_SYNC_STAT n) Fld.PORT_AIR_SYNC_STAT_MISSED (min k 3)
    if k < 3 then ok t
    else
      let u := ((t.setF (Reg.PORT_AIR_SYNC_STAT n) Fld.PORT_AIR_SYNC_STAT_STATE 3).setF (Reg.PORT_AIR_SYNC_STAT n)
        Fld.PORT_AIR_SYNC_STAT_ROUND 1).raiseF (Reg.PORT_INT_STAT n) Fld.PORT_INT_STAT_SYNC_LOST
      ok ((u.arMod n (fun a => { a with lostAt := s.time.tai, scanned := false })).syncReport n 3)
  else ok s

/-- Half width in ticks of a member's window around an expected beacon: MBR_WIN, in search round k MBR_WIN × 2^k (R162, R163). -/
def State.beaconWin (s : State) (n : Nat) : Nat :=
  usTicks (s.airF n (Reg.PORT_AIR_MEMBER n) Fld.PORT_AIR_MEMBER_MBR_WIN *
    2 ^ s.getF (Reg.PORT_AIR_SYNC_STAT n) Fld.PORT_AIR_SYNC_STAT_ROUND)

/-- Does a member port listen continuously: not yet synchronised, or its window spans a cycle (R163)? -/
def State.beaconAlways (s : State) (n : Nat) : Bool := decide (s.airSync n < 2) || decide (2 ^ (s.airCyc n).1 / 2 ≤ s.beaconWin n)

/-- MEMBER_SEARCH_ROUND: a search round ends without a beacon; the window doubles until it spans half a cycle. -/
def execMemberSearchRound (n : Nat) (s : State) : Host.Outcome State Fault Refusal :=
  if s.airOn n ∧ s.persona n = 3 ∧ s.airSync n = 3 then
    let k := s.getF (Reg.PORT_AIR_SYNC_STAT n) Fld.PORT_AIR_SYNC_STAT_ROUND
    let t := s.bump (Reg.PORT_AIR_BCN_MISS_CNT n)
    if s.beaconAlways n then ok t
    else ok (t.setF (Reg.PORT_AIR_SYNC_STAT n) Fld.PORT_AIR_SYNC_STAT_ROUND (min (k + 1) 15))
  else ok s

/-- MEMBER_SCAN_TIMEOUT: SCAN_LEN of continuous listening passes without a beacon; one record in a search. -/
def execMemberScanTimeout (n : Nat) (s : State) : Host.Outcome State Fault Refusal :=
  if s.airOn n ∧ s.persona n = 3 ∧ s.airSync n = 3 ∧ s.beaconAlways n ∧ (s.ar n).scanned = false then
    ok ((s.arMod n (fun a => { a with scanned := true })).syncReport n 4)
  else ok s

/-- Does a beacon whose SFD ended at schedule count t lie in the member's window: within its half width of the last beacon's SFD end plus
whole cycles (R162)? -/
def State.beaconDue (s : State) (n t : Nat) : Bool :=
  let c := 2 ^ (s.airCyc n).1
  let d := (t + 2 ^ 32 - (s.ar n).bcnAt) % c
  s.beaconAlways n || decide (d ≤ s.beaconWin n) || decide (c - d ≤ s.beaconWin n)

/-- A valid parent beacon, whose SFD ended at schedule count t (R162, R163). -/
def State.beaconIn (s : State) (n t : Nat) (b : Bytes) : State :=
  let lost := decide (s.airSync n = 3)
  let t := (s.arMod n (fun a => { a with
    parent := (u8 b 3 % 32, u8 b 4, u8 b 5), admitOpen := (u8 b 1).testBit 0, bcnAt := t, cyc0 := (t + 2 ^ 32 - s.airShr n) % 2 ^ 32 })).wrN
      (Reg.PORT_AIR_CYCLE_NO n) (u32 b 6)
  let u := ((t.setF (Reg.PORT_AIR_SYNC_STAT n) Fld.PORT_AIR_SYNC_STAT_STATE 2).setF (Reg.PORT_AIR_SYNC_STAT n)
    Fld.PORT_AIR_SYNC_STAT_MISSED 0).setF (Reg.PORT_AIR_SYNC_STAT n) Fld.PORT_AIR_SYNC_STAT_ROUND 0
  if lost then
    (u.setF (Reg.PORT_AIR_SYNC_STAT n) Fld.PORT_AIR_SYNC_STAT_LOST_S (min ((s.time.tai - (s.ar n).lostAt) / 2 ^ 32) 0xFFFFFF)).syncReport n 2
  else u

/-! ## Reception (R137, R138, R142–R144, R150, R154, R156, R157, R165–R170). -/

/-- Length of the header IEs from offset o, and of the payload IEs that follow; k bounds them. -/
def ieSkip (b : Bytes) (o : Nat) (payload : Bool) (k : Nat) : Nat :=
  match k with
  | 0 => o
  | j + 1 =>
    if b.length < o + 2 then o
    else
      let d := u16 b o
      if payload then (if d / 2048 % 16 = 15 then o + 2 + d % 2048 else ieSkip b (o + 2 + d % 2048) true j)
      else
        let id := d / 128 % 256
        let o' := o + 2 + d % 128
        if id = 0x7E then ieSkip b o' true j else if id = 0x7F then o' else ieSkip b o' false j

/-- A received MAC frame, taken apart. -/
structure AirMac where
  type : Nat
  pend : Bool
  ar : Bool
  seq : Nat
  pan : Option Nat
  dst : Option Nat
  src : Option Nat
  payload : Bytes
deriving DecidableEq, Repr

/-- Take a frame apart (IEEE 802.15.4-2020 general MAC frame); none for an unsupported format (R138). The short address of
an extended source is taken as 0x3FFE, the address of a station that has none (R132); an extended destination is no short address. -/
def airParse (b : Bytes) : Option AirMac :=
  let fc := u16 b 0
  let type := fc % 8
  let dm := fc / 1024 % 4
  let sm := fc / 16384
  let comp := decide (fc / 64 % 2 = 1)
  if b.length < 3 ∨ fc / 4096 % 4 ≠ 2 ∨ fc / 8 % 2 = 1 ∨ 2 < type ∨ fc / 256 % 2 = 1 ∨ dm = 1 ∨ sm = 1 then none
  else
    let dpan := if dm = 0 then decide (sm = 0) && comp else if sm = 0 ∨ (dm = 3 ∧ sm = 3) then !comp else true
    let spanOnly := decide (dm = 0) && decide (sm ≠ 0) && !comp
    let both := decide (dm ≠ 0) && decide (sm ≠ 0) && !comp && !(decide (dm = 3) && decide (sm = 3))
    let o1 := 3 + (if dpan then 2 else 0)
    let o2 := o1 + (if dm = 2 then 2 else if dm = 3 then 8 else 0)
    let o3 := o2 + (if spanOnly || both then 2 else 0)
    let o4 := o3 + (if sm = 2 then 2 else if sm = 3 then 8 else 0)
    let o5 := if fc / 512 % 2 = 1 then ieSkip b o4 false 64 else o4
    some {
      type := type, pend := decide (fc / 16 % 2 = 1), ar := decide (fc / 32 % 2 = 1), seq := u8 b 2
      pan := if dpan then some (u16 b 3) else if spanOnly then some (u16 b o2) else none
      dst := if dm = 2 then some (u16 b o1) else if dm = 3 then some (2 ^ 16 + un b o1 8) else none
      src := if sm = 2 then some (u16 b o3) else if sm = 3 then some 0x3FFE else none
      payload := b.drop o5 }

/-- An Enh-Ack arrives while a frame waits for its own: it must match in sequence number and destination, or the frame is not
acknowledged (R150). -/
def State.airAcked (s : State) (n seq : Nat) (mine : Bool) : State :=
  match (s.ar n).jobs.find? (fun j => decide (j.phase = 3)) with
  | none => s
  | some j =>
    if j.mseq ≠ seq ∨ mine = false then (s.bump (Reg.PORT_AIR_TX_NOACK_CNT n)).arFail n j
    else
      let t := (s.bump (Reg.PORT_AIR_TX_ACKED_CNT n)).ltTried n (pktLink j.prefixBytes j.route) true
      let u := t.arDone n j (if j.route = 2 then 2 else 0)
      if j.down then
        let a := pktDst j.prefixBytes
        let v := u.downStart n a
        match v.downNext n a with
        | none => v
        | some x => if v.airMay n && !v.arDue n then v.airStart n x else v.arJob n { x with phase := 5 }
      else u

/-- A flood on an air port, from link sender frm, whose SFD ended at schedule count t (R167): a member delivers it with KIND 3 and will
relay it after a delay of up to FLOOD_JIT backoff periods. -/
def State.airFlood (s : State) (n : Nat) (p : Bytes) (frm snr t : Nat) : State :=
  let nhop := u8 p 6 / 32
  let body := p.drop (7 + 2 * nhop)
  let key := (u16 body 2, u32 body 4)
  if key.1 = (s.floodId n).1 ∨ s.floodSeen n key.1 key.2 then s.bump (s.floodCnt n).2.1
  else
    let u := s.floodNote n key.1 key.2 (s.floodCnt n).2.2
    if u.persona n = 3 then
      let u := u.rxPush n (rxPacket (u16 p 2) 3 frm snr (rxInfo 0 nhop (u8 p 0 / 8 % 4) false) body)
      let most := s.airF n (Reg.PORT_AIR_FLOOD n) Fld.PORT_AIR_FLOOD_FLOOD_JIT * s.airF n (Reg.PORT_AIR_TIMING n) Fld.PORT_AIR_TIMING_BO_UNIT
      let r : Relay := { body := body, orig := u16 p 2 % 0x4000, seq := u8 p 1, since := t, due := (s.now + u.drawn (most + 1)) % 2 ^ 32, be := s.minBe n 3 }
      u.when (decide (2 ≤ u8 body 0 / 16)) (fun v => v.draw.arMod n (fun a => { a with relays := a.relays ++ [r] }))
    else u

/-- A data frame for this port, from link sender frm, whose SFD ended at schedule count t. A unicast frame that the port receives as a relay
it never acts on (R123). -/
def State.airDataIn (s : State) (n : Nat) (m : AirMac) (frm snr t : Nat) : State :=
  let p := m.payload
  let type := u8 p 0 / 32
  let nhop := u8 p 6 / 32
  if type = 4 then s.airFlood n p frm snr t
  else if type = 7 then s
  else if 1 ≤ type ∧ type ≤ 3 then s.bump (Reg.PORT_AIR_FORMAT_BAD_CNT n)
  else if 7 ≤ p.length ∧ u8 p 6 / 4 % 8 ≠ nhop then s
  else
    let s := s.when m.ar (fun t => (t.arMod n (fun a => { a with
      ack := some (frm, m.seq, s.sleeps n frm && !(s.heldFor n frm).isEmpty) })).when (s.sleeps n frm) (fun u => u.downStart n frm))
    if p.length < 7 + 2 * nhop then s
    else
      let body := p.drop (7 + 2 * nhop)
      let s := s.when (decide (s.persona n = 3) && decide (type = 5) && decide (10 ≤ body.length) && decide (body.take 8 = (s.ar n).title)) (fun t =>
        t.setF (Reg.PORT_AIR_SELF n) Fld.PORT_AIR_SELF_ADDR (u16 body 8 % 0x4000))
      let key := (u16 p 2 % 0x4000, u16 p 4 % 0x4000, u8 p 1, 0)
      if dupHit (s.port n) s.now (8 * 2 ^ 20) key then s.bump (Reg.PORT_AIR_RX_DUP_CNT n)
      else
        let u := s.portMod n (fun q => dupAdd q s.now key)
        u.rxPush n (rxPacket (u16 p 2) (if type = 5 then 1 else if type = 6 then 2 else 0) frm snr (rxInfo 0 nhop (u8 p 0 / 8 % 4) false) body)

/-- AIR_FRAME_RECEIVE: `psdu` with its FCS of 2 or 4 octets, at the end of the frame; `phr` says that the PHR was bad; `mcs` is the MCS of
the PHR, none for a frame that used a feature of R138; `snr` holds the mean and the lowest SNR code, `level` the mean power code. -/
def execAirFrameReceive (n : Nat) (psdu : Bytes) (fcs2 phr : Bool) (mcs : Option Nat) (snr : Nat × Nat) (level : Nat) (s : State) :
    Host.Outcome State Fault Refusal :=
  let (shr, dur) := s.airNs n psdu.length
  let (t, keep) := s.rxDrain n (usTicks (dur / 1000))
  if keep = false then ok (if 2 ≤ s.persona n ∧ s.persona n ≤ 3 ∧ s.portEnBit n then t else s)
  else if !s.airOn n ∨ (s.port n).txen then ok s
  else if phr then ok (s.bump (Reg.PORT_AIR_PHR_BAD_CNT n))
  else if mcs = none then ok (s.bump (Reg.PORT_AIR_FORMAT_BAD_CNT n))
  else
    let sfd := (s.now + 2 ^ 32 - usTicks ((dur - shr) / 1000)) % 2 ^ 32
    let k := if fcs2 then 2 else 4
    let b := psdu.take (psdu.length - k)
    if psdu.length < k + 3 ∨ psdu.drop (psdu.length - k) ≠ airFcs fcs2 b then ok (s.bump (Reg.PORT_AIR_FCS_BAD_CNT n))
    else
      match airParse b with
      | none => ok (s.bump (Reg.PORT_AIR_FORMAT_BAD_CNT n))
      | some m =>
        if m.pan.isSome ∧ m.pan ≠ some (s.pan n) then ok s
        else
          let frm := m.src.getD 0x3FFE % 0x4000
          let cfg := s.raw (Reg.PORT_AIR_CFG n)
          let s := s.bump (Reg.PORT_AIR_RX_OK_CNT n)
          let s := if m.src.isSome ∧ m.type ≠ 2 then
              (((((s.ltHeard n frm snr.1 snr.2 (fun e =>
                overlay e 5 [fget Fld.PORT_AIR_CFG_PHY_MODE cfg + mcs.getD 0 % 16 * 16, level % 256])).contact n frm).setF
                (Reg.PORT_LINK_Q n) Fld.PORT_LINK_Q_SNR_LAST snr.1).setF (Reg.PORT_LINK_Q n) Fld.PORT_LINK_Q_LEVEL_LAST level).setF
                (Reg.PORT_LINK_Q n) Fld.PORT_LINK_Q_LINK_SRC frm).raiseF (Reg.PORT_LINK_Q n) Fld.PORT_LINK_Q_VALID
            else s
          match m.type with
          | 0 =>
            if s.persona n = 3 ∧ m.src = some 0 ∧ 22 ≤ m.payload.length ∧ u8 m.payload 0 = 1 ∧ s.beaconDue n sfd then
              ok (s.beaconIn n sfd m.payload)
            else ok s
          | 2 => ok (s.airAcked n m.seq (decide (m.dst = some (s.airSelf n))))
          | _ => if m.dst = some (s.airSelf n) ∨ m.dst = some 0xFFFF then ok (s.airDataIn n m frm snr.1 sfd) else ok s

/-- The frame of a relayed flood: TTL − 1, and AGE grown by the time from the end of the SFD it came with to the end of its own, d ticks
from now (R167, R168). -/
def State.relayFrame (s : State) (n d : Nat) (r : Relay) : Bytes :=
  let age := (u32 r.body 8 + (s.now + d + 2 ^ 32 - r.since)) % 2 ^ 32
  s.airData n false false (s.ar n).macSeq 0xFFFF
    (airHead 4 3 r.seq r.orig 0x3FFF 0 [] ++ overlay (overlay r.body 0 [u8 r.body 0 - 16]) 8 (bytesLE 4 age))

/-- The CCA of a relay found the medium busy: a new backoff, or a failed attempt, or the last one (R149, R150). -/
def State.relayBusy (s : State) (n : Nat) (r : Relay) (rest : List Relay) : State :=
  let t := s.bump (Reg.PORT_AIR_CCA_BUSY_CNT n)
  let keep := fun (u : State) (x : Relay) => u.arMod n (fun a => { a with relays := x :: rest })
  let unit' := s.airF n (Reg.PORT_AIR_TIMING n) Fld.PORT_AIR_TIMING_BO_UNIT
  if s.airF n (Reg.PORT_AIR_CSMA n) Fld.PORT_AIR_CSMA_MAX_CSMA < r.nbTry + 1 then
    let t := t.bump (Reg.PORT_AIR_CSMA_FAIL_CNT n)
    if r.attempt ≤ s.airF n (Reg.PORT_AIR_CSMA n) Fld.PORT_AIR_CSMA_MAX_RETRY then
      keep t.draw { r with attempt := r.attempt + 1, nbTry := 0, be := s.minBe n 3, due := (s.now + unit' * t.drawn (2 ^ s.minBe n 3)) % 2 ^ 32 }
    else (t.bump (Reg.PORT_AIR_TX_DROP_CNT n)).arMod n (fun a => { a with relays := rest })
  else
    let be := min (r.be + 1) (s.airF n (Reg.PORT_AIR_CSMA n) Fld.PORT_AIR_CSMA_MAX_BE)
    keep t.draw { r with nbTry := r.nbTry + 1, be := be, due := (s.now + unit' * t.drawn (2 ^ be)) % 2 ^ 32 }

/-- FLOOD_RELAY_SEND: a member's delay, or backoff, before it rebroadcasts a flood has passed, and its port's CCA has measured a power, with
a frame being received or not. In the broadcast region, with the medium idle, the copy goes out; one that does not fit waits for the region
of the next cycle (R149, R167, R168). -/
def execFloodRelaySend (cca : Nat × Int × Bool) (s : State) : Host.Outcome State Fault Refusal :=
  let (n, power, receiving) := cca
  match (s.ar n).relays with
  | [] => ok s
  | r :: rest =>
    let f := s.relayFrame n (usTicks (s.airLead n) + s.airShr n) r
    if !(decide (s.persona n = 3) && fired s.now r.due && s.airLow n && (s.airRoom n (f.length + s.fcsLen n)).1) then ok s
    else if s.ccaBusy n power receiving then ok (s.relayBusy n r rest)
    else
      let t := s.arMod n (fun a => { a with relays := rest, macSeq := ((s.ar n).macSeq + 1) % 256 })
      ok ((t.airSend n f 7 0).bump (Reg.PORT_AIR_FLOOD_RELAY_CNT n))

end Sys2Proof.Machine
end

