-- ==== Sys2Proof/Machine/StoreCore.lean ====
section
/-! DEFINITION. Sys2Proof/Machine/StoreCore.lean: the store's working operations (chapter "Record store").
Superblocks, streams, placing units, the map and the journal. -/

namespace Sys2Proof.Machine

/-- Change the store. -/
def State.stoMod (s : State) (f : StoState → StoState) : State := { s with sto := f s.sto }

/-! ## Dies and superblocks (R284). -/

/-- State of die i in STO_DIE_STAT. -/
def State.dieState (s : State) (i : Nat) : Nat := s.getF Reg.STO_DIE_STAT ⟨2 * i + 1, 2 * i⟩

/-- Set the state of die i. -/
def State.setDie (s : State) (i v : Nat) : State := s.setF Reg.STO_DIE_STAT ⟨2 * i + 1, 2 * i⟩ v

/-- Is die i active and its channel not being evacuated? -/
def State.dieUsable (s : State) (i : Nat) : Bool :=
  decide (s.dieState i = 1) && decide (s.getF Reg.STO_CH_CTL (if i < 8 then Fld.STO_CH_CTL_STATE_0 else Fld.STO_CH_CTL_STATE_1) = 1)

/-- Dies set in a mask, lowest first. -/
def diesOf (mask : Nat) : List Nat := (List.range 16).filter (fun i => decide (mask / 2 ^ i % 2 = 1))

/-- Number of dies in a mask: W. -/
def maskW (mask : Nat) : Nat := (diesOf mask).length

/-- Active dies. -/
def State.activeDies (s : State) : List Nat := (List.range 16).filter (fun i => decide (s.dieState i = 1))

/-- Is block b of die d retired? -/
def State.blkBad (s : State) (d b : Nat) : Bool := s.sto.badBlks.contains (d, b)

/-- The die mask with which superblock b would be opened now. -/
def State.maskNow (s : State) (b : Nat) : Nat :=
  ((List.range 16).filter (fun i => s.dieUsable i && !s.blkBad i b)).foldl (fun a i => a + 2 ^ i) 0

/-- Pages per block in a superblock's mode (R294: native where the profile has no SLC sequence). -/
def State.sbPages (s : State) (slc : Bool) : Nat :=
  let p := s.getF Reg.STO_NAND Fld.STO_NAND_SLC_PAGES
  if slc && decide (p ≠ 0) then p else s.getF Reg.STO_GEOM Fld.STO_GEOM_PAGES

/-- Number of data dies of a superblock: D = W − 1, or W under NOPARITY. -/
def sbData (b : SBlk) : Nat := if b.nopar then maskW b.mask else maskW b.mask - 1

/-- Number of data slots of a superblock. -/
def State.sbCap (s : State) (b : SBlk) : Nat := sbData b * 4 * s.sbPages b.slc

/-- Default of the superblock table: free. -/
abbrev sbDflt : Nat → SBlk := fun _ => {}

/-- Superblock n. -/
def State.sb (s : State) (n : Nat) : SBlk := tget sbDflt s.sto.sbs n

/-- Change superblock n. -/
def State.sbMod (s : State) (n : Nat) (f : SBlk → SBlk) : State :=
  s.stoMod (fun t => { t with sbs := tmod sbDflt t.sbs n f })

/-- Superblocks not free, as listed. -/
def State.sbUsed (s : State) : List (Nat × SBlk) := s.sto.sbs.filter (fun e => decide (e.2.state ≠ 0))

/-- Number of free superblocks (R285): superblocks 2 up to BLOCKS − 1 that are neither open, closed nor retired. -/
def State.freeSb (s : State) : Nat := s.getF Reg.STO_GEOM Fld.STO_GEOM_BLOCKS - 2 - s.sbUsed.length

/-- First key at or after n that a rising list does not hold. -/
def firstGap (l : List Nat) (n : Nat) : Nat :=
  match l with
  | [] => n
  | k :: r => if k < n then firstGap r n else if k = n then firstGap r (n + 1) else n

/-- The free superblock that is opened next: the lowest-numbered (log entry 31). -/
def State.pickFree (s : State) : Nat := firstGap (s.sbUsed.map (·.1)) 2

/-- Erase count of block b of die d. -/
def State.ec (s : State) (d b : Nat) : Nat := tget (fun _ => 0) s.sto.ecs (d * 8192 + b)

/-- A superblock's erase count: the highest among its blocks on active dies (R298). -/
def State.sbEc (s : State) (b : Nat) : Nat := (s.activeDies.map (fun d => s.ec d b)).foldl max 0

/-- Superblocks over which EC_MIN and EC_MAX run: closed and free (R298). -/
def State.ecList (s : State) : List Nat :=
  ((List.range (s.getF Reg.STO_GEOM Fld.STO_GEOM_BLOCKS - 2)).map (· + 2)).filter
    (fun b => let st := (s.sb b).state; decide (st = 0) || decide (st = 2))

/-- EC_MAX. -/
def State.ecMax (s : State) : Nat := (s.ecList.map s.sbEc).foldl max 0

/-- EC_MIN. -/
def State.ecMin (s : State) : Nat :=
  match s.ecList.map s.sbEc with
  | [] => 0
  | a :: r => r.foldl min a

/-! ## Journal (R305, R306). -/

/-- Bytes of a journal entry, header included (R306). -/
def jlen (e : JEntry) : Nat :=
  match e with
  | .commit _ _ m h => 4 + 12 + 4 + (if m.isSome then 64 else 0) + (if h.isSome then 256 else 0)
  | .slot _ _ => 40
  | .map _ _ => 20
  | .intent _ _ _ _ _ => 20
  | .done _ _ l => 4 + 4 + 2 * l.length
  | .opened _ _ _ _ => 10
  | .bad _ _ _ => 12
  | .trim _ _ _ => 16
  | .lost _ _ => 12
  | .ckpt _ _ _ => 22
  | .darner _ _ => 10
  | .chan _ _ => 6
  | .shut => 4

/-- A location number's superblock (2 bytes) and offset (4 bytes). -/
def locBytes (l : Nat) : Bytes := bytesLE 2 (l / 2 ^ 17) ++ bytesLE 4 (l % 2 ^ 17)

/-- Value of a map entry whose unit is lost. -/
def lostMark : Nat := 2 ^ 40

/-- A fine entry (R287) of a map value: VALID, LOST and the location; the location of a lost unit is `old`'s. -/
def fineEntry (v old : Nat) : Nat :=
  if v = 0 then 0
  else if v = lostMark then 2 ^ 31 + 2 ^ 30 + (if old = 0 ∨ old = lostMark then 0 else old - 1)
  else 2 ^ 31 + (v - 1)

/-- Payload of a journal entry (R306). A MAP entry names a fine unit of its coarse unit (log entry 190). -/
def jPayload (e : JEntry) : Bytes :=
  match e with
  | .commit c p m h => padTo 12 c ++ bytesLE 4 p ++ (m.map (padTo 64)).getD [] ++ (h.map (padTo 256)).getD []
  | .slot n b => bytesLE 4 n ++ padTo 32 b
  | .map l v => [l / 2 ^ 29, 0, 0, 0] ++ bytesLE 4 (l % 2 ^ 29 / 256) ++ bytesLE 4 (l % 256) ++ bytesLE 4 (fineEntry v 0)
  | .intent i a b x y => bytesLE 4 i ++ bytesLE 2 a ++ bytesLE 2 b ++ bytesLE 4 x ++ bytesLE 4 y
  | .done i _ l => bytesLE 4 i ++ l.flatMap (bytesLE 2)
  | .opened b st slc m => bytesLE 2 b ++ [st, slc.toNat] ++ bytesLE 2 m
  | .bad d b r => [d, 0] ++ bytesLE 2 b ++ [r, 0, 0, 0]
  | .trim p f n => [p, 0, 0, 0] ++ bytesLE 4 f ++ bytesLE 4 n
  | .lost p f => [p, 0, 0, 0] ++ bytesLE 4 f
  | .ckpt p st root => bytesLE 4 p ++ bytesLE 8 st ++ locBytes root
  | .darner _ l => locBytes l
  | .chan c v => [c, v]
  | .shut => []

/-- TYPE and FLAGS of a journal entry (R306). -/
def jType (e : JEntry) : Nat × Nat :=
  match e with
  | .commit _ _ m h => (1, m.isSome.toNat + 2 * h.isSome.toNat)
  | .slot _ _ => (2, 0)
  | .map _ _ => (3, 1)
  | .intent _ _ _ _ _ => (4, 0)
  | .done _ _ _ => (5, 0)
  | .opened _ _ _ _ => (6, 0)
  | .bad _ _ _ => (7, 0)
  | .trim _ _ _ => (8, 0)
  | .lost _ _ => (9, 0)
  | .ckpt _ _ _ => (10, 0)
  | .darner _ _ => (11, 0)
  | .chan _ _ => (12, 0)
  | .shut => (13, 0)

/-- A journal entry as it is packed (R305). -/
def jBytes (e : JEntry) : Bytes := [(jType e).1, (jType e).2] ++ bytesLE 2 (jlen e) ++ jPayload e

/-- A journal unit (R305): number, pass and entries. -/
def jUnitBytes (jseq pass : Nat) (l : List JEntry) : Bytes :=
  let b := bytesLE 4 0x4C4E524A ++ bytesLE 2 1 ++ bytesLE 2 l.length ++ bytesLE 8 jseq ++ bytesLE 4 pass ++ List.replicate 8 0 ++
    padTo 4064 (l.flatMap jBytes)
  b ++ bytesLE 4 (crc32c b)

/-- Hand the journal an entry. -/
def State.jour (s : State) (e : JEntry) : State := s.stoMod (fun t => { t with jpend := t.jpend ++ [e] })

/-- The prefix of entries that one unit takes: 4,064 bytes, none crossing a unit. -/
def jUnit (l : List JEntry) (room : Nat) : List JEntry :=
  match l with
  | [] => []
  | e :: r => if jlen e ≤ room then e :: jUnit r (room - jlen e) else []

/-- Has the record unit at log position p been programmed, or was there none? (R290) -/
def State.recProgrammed (s : State) (p : Nat) : Bool :=
  if p = 0xFFFFFFFF then true
  else
    let size := s.getF (Reg.STO_PART_SIZE 0) Fld.STO_PART_SIZE_SIZE * 256
    let loc := tget (fun _ => 0) s.sto.map (if size = 0 then 0 else p % size)
    if loc = 0 then false else (tget (fun _ => ({} : SUnit)) s.sto.units (loc - 1)).prog

/-- Entries up to the first COMMIT whose record unit has not been programmed. -/
def State.jReady (s : State) (l : List JEntry) : List JEntry :=
  l.takeWhile (fun e => match e with
    | .commit _ p _ _ => s.recProgrammed p
    | _ => true)


/-! ## Units, streams and the map. -/

/-- LUA of a fine unit (R283). -/
def luaOf (part fine : Nat) : Nat := part * 2 ^ 29 + fine % 2 ^ 29

/-- A unit's location number: superblock and offset. -/
def locOf (sb off : Nat) : Nat := sb * 2 ^ 17 + off

/-- The unit at a location. -/
def State.unitAt (s : State) (loc : Nat) : SUnit := tget (fun _ => ({} : SUnit)) s.sto.units loc

/-- Map entry of a LUA: 0 unmapped, lostMark lost, otherwise location + 1. -/
def State.mapOf (s : State) (lua : Nat) : Nat := tget (fun _ => 0) s.sto.map lua

/-- Set a map entry alone, as for units of the system partition, which no coarse unit holds. -/
def State.mapRaw (s : State) (lua v : Nat) : State :=
  s.stoMod (fun t => { t with map := tset (fun _ => 0) t.map lua v })

/-- The superblock open for a stream. -/
def State.openSb (s : State) (stream : Nat) : Option Nat :=
  (s.sto.sbs.find? (fun e => decide (e.2.state = 1) && decide (e.2.stream = stream))).map (·.1)

/-- Number of superblocks in SLC mode of the record and general streams that hold data. -/
def State.slcUsed (s : State) : Nat :=
  (s.sto.sbs.filter (fun e => e.2.slc && decide (e.2.stream ≤ 1) && (decide (e.2.state = 1) || decide (e.2.state = 2)))).length

/-- N_SB of R286: usable superblocks, all block numbers less retired superblocks (log entry 32). -/
def State.nSb (s : State) : Nat :=
  s.getF Reg.STO_GEOM Fld.STO_GEOM_BLOCKS - (s.sto.sbs.filter (fun e => decide (e.2.state = 3))).length

/-- N_SLC of R286; 0 without an SLC sequence (R294). -/
def State.nSlc (s : State) : Nat :=
  if s.getF Reg.STO_NAND Fld.STO_NAND_SLC_PAGES = 0 then 0
  else s.nSb * s.getF Reg.STO_SLC Fld.STO_SLC_SLC_PCT / 100

/-- SLC_USED_PM: cache use per mille of N_SLC. -/
def State.slcUsedPm (s : State) : Nat := if s.nSlc = 0 then 0 else s.slcUsed * 1000 / s.nSlc

/-- Number of data dies of a full native superblock now. -/
def State.fullD (s : State) : Nat :=
  let w := s.activeDies.length
  if w < 3 then w else w - 1

/-- LOGICAL of R286. -/
def State.logical (s : State) : Nat :=
  let u := s.fullD * 4 * s.getF Reg.STO_GEOM Fld.STO_GEOM_PAGES
  (s.nSb - s.nSlc - 16) * u * 9 / 2560

/-- Does a stream open its next superblock in SLC mode (R285, R293)? -/
def State.streamSlc (s : State) (stream : Nat) : Bool :=
  match stream with
  | 0 | 1 =>
    decide (s.slcUsed < s.nSlc) && decide (s.slcUsedPm ≤ s.getF Reg.STO_SLC Fld.STO_SLC_FOLD_PCT * 10)
  | 2 => false
  | _ => decide (s.getF Reg.STO_NAND Fld.STO_NAND_SLC_PAGES ≠ 0)

/-- May a stream open a superblock? The record and general streams leave 4 free superblocks in reserve (R285). -/
def State.mayOpen (s : State) (stream : Nat) : Bool := decide ((if stream ≤ 1 then 4 else 0) < s.freeSb)

/-- Open superblock b for a stream, in a mode, with a mask; journal OPEN. LOW_FREE shows that the free superblocks fell below
GC_URGENT (R318). -/
def State.openAt (s : State) (b stream : Nat) (slc : Bool) (mask : Nat) : State :=
  let fewer := decide (s.activeDies.length < 3)
  let t := ((s.sbMod b (fun _ => { state := 1, stream := stream, slc := slc, mask := mask, nopar := fewer })).jour
    (.opened b stream slc mask)).when fewer (fun t => t.raiseF Reg.STO_STAT Fld.STO_STAT_NOPARITY)
  let urgent := s.getF Reg.STO_GC_CTL Fld.STO_GC_CTL_GC_URGENT
  t.when (decide (t.freeSb < urgent ∧ urgent ≤ s.freeSb)) (fun u => u.raiseF Reg.STO_INT_STAT Fld.STO_INT_STAT_LOW_FREE)

/-- Open the next superblock of a stream: a free one whose mask would hold fewer than 3 dies while 3 are active is
retired (R284); n bounds the search. -/
def State.openNext (s : State) (stream n : Nat) : State :=
  match n with
  | 0 => s
  | k + 1 =>
    if !s.mayOpen stream then s
    else
      let b := s.pickFree
      let m := s.maskNow b
      if maskW m < 3 ∧ 3 ≤ s.activeDies.length then (s.sbMod b (fun t => { t with state := 3 })).openNext stream k
      else s.openAt b stream (s.streamSlc stream) m

/-- Close a superblock. -/
def State.closeSb (s : State) (b : Nat) : State :=
  { s with sto := { s.sto with
      sbs := tmod sbDflt s.sto.sbs b (fun t => { t with state := 2, closedNo := s.sto.closeNo, closedAt := s.ao.opsec }),
      closeNo := s.sto.closeNo + 1 } }

/-- Put a unit at the next offset of a superblock. -/
def State.putAt (s : State) (b : Nat) (u : SUnit) : State :=
  let o := (s.sb b).next
  (s.sbMod b (fun t => { t with next := t.next + 1 })).stoMod
    (fun t => { t with units := tset (fun _ => ({} : SUnit)) t.units (locOf b o) u })

/-- A stream's open superblock with room, opened if need be. -/
def State.readySb (s : State) (stream : Nat) : State :=
  match s.openSb stream with
  | none => s.openNext stream 64
  | some b => if (s.sb b).next < s.sbCap (s.sb b) then s else (s.closeSb b).openNext stream 64

/-- Place a unit in a stream. Answers the state and the unit's location + 1, 0 when the stream is held; FULL shows a held
record or general stream (R285). -/
def State.place (s : State) (stream : Nat) (u : SUnit) : State × Nat :=
  let t := s.readySb stream
  match t.openSb stream with
  | none => (if stream ≤ 1 then t.setF Reg.STO_STAT Fld.STO_STAT_FULL 1 else t, 0)
  | some b => (t.putAt b u, locOf b (t.sb b).next + 1)

/-- Pads that close the last stripe of a superblock (R291). -/
def State.padCount (s : State) (b : Nat) : Nat :=
  let d := 4 * sbData (s.sb b)
  if d = 0 then 0 else (d - (s.sb b).next % d) % d

/-- Close the last stripe of superblock b: n pad units, then parity. -/
def State.padWith (s : State) (b n : Nat) : State :=
  match n with
  | 0 => s
  | k + 1 => ((s.putAt b { lua := luaOf 7 0, kind := 4, data := [], prog := true }).bump Reg.STO_PAD_UNITS_CNT).padWith b k

/-- Key of a stripe: superblock × 2,048 + stripe. -/
def stripeKey (b p : Nat) : Nat := b * 2048 + p

/-- Mark a stripe's parity page programmed (R290). -/
def State.parityDone (s : State) (b p : Nat) : State :=
  s.stoMod (fun t => { t with parity := tset (fun _ => 0) t.parity (stripeKey b p) 1 })

/-- Program every unit of superblock b placed so far, and the parity pages of its whole stripes. -/
def State.programSb (s : State) (b : Nat) : State :=
  let t := s.stoMod (fun t => { t with
    units := t.units.map (fun e => if e.1 / 2 ^ 17 = b then (e.1, { e.2 with prog := true }) else e) })
  let d := 4 * sbData (t.sb b)
  if d = 0 then t else t.each (List.range ((t.sb b).next / d)) (fun p u => u.parityDone b p)

/-- Close the last stripe early (R291): pads, then every page and its parity. -/
def State.stripeClose (s : State) (b : Nat) : State := (s.padWith b (s.padCount b)).programSb b

/-! ## The journal's units (R305) in the system stream. -/

/-- Place a unit of the system partition in the system stream, under a number of its own. Answers its location + 1, 0 when no superblock
is free. -/
def State.sysPut (s : State) (kind no : Nat) (data : Bytes) : State × Nat :=
  let (t, l) := s.place 3 { lua := luaOf 7 no, dseq := s.sto.dseq, kind := kind, data := data, prog := true }
  if l = 0 then (s, 0) else (t.mapRaw (luaOf 7 no) l, l)

/-- Units of the system partition whose numbers p picks become invalid. -/
def State.sysDrop (s : State) (p : Nat → Bool) : State :=
  s.stoMod (fun x => { x with map := x.map.filter (fun e => decide (e.1 < luaOf 7 0) || !p (e.1 - luaOf 7 0)) })

/-- One journal unit is programmed: as many ready entries as one unit takes. -/
def State.jProgram (s : State) : State :=
  let u := jUnit (s.jReady s.sto.jpend) 4064
  if u.isEmpty then s
  else
    let (t, l) := s.sysPut 2 (s.sto.jseq % 2 ^ 28) (jUnitBytes s.sto.jseq s.sto.passNo u)
    if l = 0 then s
    else t.stoMod (fun x => { x with jlog := x.jlog ++ [(x.jseq, u)], jseq := x.jseq + 1, jpend := x.jpend.drop u.length })

/-- All ready entries are programmed; n bounds the units. -/
def State.jDrain (s : State) (n : Nat) : State :=
  match n with
  | 0 => s
  | k + 1 => if (s.jReady s.sto.jpend).isEmpty then s else s.jProgram.jDrain k

/-! ## Fine maps (R287, R288). -/

/-- Does a coarse unit, of which a is the first unit, lie at 256 consecutive offsets of one superblock, in order? -/
def State.isCoarse (s : State) (a : Nat) : Bool :=
  let m := s.mapOf a
  decide (m ≠ 0 ∧ m ≠ lostMark) && (List.range 256).all (fun k => decide (s.mapOf (a + k) = m + k)) &&
    decide ((m - 1) / 2 ^ 17 = (m + 254) / 2 ^ 17)

/-- Has coarse unit cu a unit that is lost? -/
def State.hasLost (s : State) (cu : Nat) : Bool :=
  s.sto.map.any (fun e => decide (e.1 / 256 = cu ∧ e.2 = lostMark))

/-- Rewrite a coarse unit whole, in order, through the relocation stream; its fine map is free. The placing ends on a stripe
boundary, as a relocation does. -/
def State.compact (s : State) (cu : Nat) : State :=
  let room := match s.openSb 2 with
    | none => 0
    | some b => s.sbCap (s.sb b) - (s.sb b).next
  let t := if room < 256 then
      (match s.openSb 2 with
        | none => s
        | some b => s.closeSb b).openNext 2 64
    else s
  let t := t.each (List.range 256) (fun k u =>
    let lua := cu * 256 + k
    let old := u.mapOf lua
    let x : SUnit := if old = 0 ∨ old = lostMark then { lua := lua, kind := 0, data := List.replicate 4096 0, copy := true }
      else { u.unitAt (old - 1) with copy := true, srcSb := (old - 1) / 2 ^ 17 }
    let (v, l) := u.place 2 { x with prog := false }
    if l = 0 then v else (v.mapRaw lua l).jour (.map lua l))
  let t := match t.openSb 2 with
    | none => t
    | some b => t.stripeClose b
  t.stoMod (fun x => { x with fmaps := x.fmaps.filter (fun e => decide (e.1 ≠ cu)) })

/-- Base of the fine maps in DRAM. -/
def State.fmapA (s : State) (i : Nat) : Nat := s.addr64 Reg.STO_STAGE_LO Reg.STO_STAGE_HI 20 + 1024 * i

/-- The least number from i on, n tries at most, that a list does not hold. -/
def freeIdx (l : List Nat) (i n : Nat) : Nat :=
  match n with
  | 0 => i
  | k + 1 => if l.contains i then freeIdx l (i + 1) k else i

/-- Give coarse unit cu a fine map: the lowest free index (log entry 190); with none free the least recently used coarse unit is
compacted first. -/
def State.fmapNew (s : State) (cu : Nat) : State :=
  let t := if s.sto.fmaps.length < 65536 then s else
    match s.sto.fmaps.find? (fun e => !s.hasLost e.1) with
    | none => s
    | some e => s.compact e.1
  let i := freeIdx (t.sto.fmaps.map (·.2)) 0 (t.sto.fmaps.length + 1)
  (t.stoMod (fun x => { x with fmaps := x.fmaps ++ [(cu, i)] })).wrMem (t.fmapA i)
    ((List.range 256).flatMap (fun k => bytesLE 4 (fineEntry (t.mapOf (cu * 256 + k)) 0)))

/-- A unit of coarse unit cu was written: the coarse unit keeps, gets or gives up its fine map. `f` writes a kept map's entry. -/
def State.fmapSync (s : State) (cu : Nat) (f : Nat → State → State) : State :=
  let rest := s.sto.fmaps.filter (fun e => decide (e.1 ≠ cu))
  if s.isCoarse (cu * 256) || !s.sto.map.any (fun e => decide (e.1 / 256 = cu)) then s.stoMod (fun x => { x with fmaps := rest })
  else
    match s.sto.fmaps.find? (fun e => decide (e.1 = cu)) with
    | some e => f e.2 (s.stoMod (fun x => { x with fmaps := rest ++ [e] }))
    | none => s.fmapNew cu

/-- Set a map entry, and the fine map of its coarse unit with it. -/
def State.mapSet (s : State) (lua v : Nat) : State :=
  let old := s.mapOf lua
  (s.mapRaw lua v).fmapSync (lua / 256) (fun i t => t.wrMem (t.fmapA i + 4 * (lua % 256)) (bytesLE 4 (fineEntry v old)))

/-- Trim n fine units of a partition from `first`. -/
def State.trimUnits (s : State) (p first n : Nat) : State :=
  let l := luaOf p first
  let t := (s.stoMod (fun x => { x with map := x.map.filter (fun e => decide (e.1 < l ∨ l + n ≤ e.1)) })).jour (.trim p first n)
  t.each ((List.range ((l + n - 1) / 256 + 1 - l / 256)).map (· + l / 256)) (fun cu u =>
    u.fmapSync cu (fun i v => v.each ((List.range 256).filter (fun k => decide (l ≤ cu * 256 + k ∧ cu * 256 + k < l + n)))
      (fun k w => w.wrMem (w.fmapA i + 4 * k) [0, 0, 0, 0])))

/-! ## Raw pages (R282, R283, R295). -/

/-- Metadata of a fine unit (R283). -/
def unitMeta (u : SUnit) : Bytes :=
  let b := bytesLE 4 u.lua ++ bytesLE 6 u.dseq ++ [u.kind, u.copy.toNat] ++ bytesLE 2 (if u.copy then u.srcSb else 0xFFFF)
  b ++ bytesLE 2 (crc16 b)

/-- The codeword of a fine unit (R282). -/
def codeword (u : SUnit) : Bytes :=
  let b := padTo 4096 u.data ++ unitMeta u
  b ++ padTo 240 (Config.bchOf b)

/-- The data page of stripe p on the k-th data die of superblock b. -/
def State.dataPage (s : State) (b p k : Nat) : Bytes :=
  (List.range 4).flatMap (fun i => codeword (s.unitAt (locOf b ((p * sbData (s.sb b) + k) * 4 + i))))

/-- The page of stripe p that die d of superblock b holds: data, or for the highest die of the mask the XOR of the others (R284, R295). -/
def State.rawPage (s : State) (d b p : Nat) : Bytes :=
  let k := ((diesOf (s.sb b).mask).takeWhile (· ≠ d)).length
  if k < sbData (s.sb b) then s.dataPage b p k
  else ((List.range (sbData (s.sb b))).map (s.dataPage b p)).foldl (fun a c => List.zipWith (· ^^^ ·) a c) (List.replicate 17408 0)

/-! ## Units of a partition. -/

/-- Write one fine unit of a partition: a new data sequence, a place in the general stream, the map entry, a MAP journal
entry; an earlier LOST mark goes (R297, R317). -/
def State.storePut (s : State) (part fine : Nat) (data : Bytes) : State :=
  let u : SUnit := { lua := luaOf part fine, dseq := s.sto.dseq, kind := 0, data := padTo 4096 data }
  let (t, loc) := s.place 1 u
  if loc = 0 then t
  else
    (((t.stoMod (fun x => { x with dseq := x.dseq + 1 })).mapSet (luaOf part fine) loc).jour
      (.map (luaOf part fine) loc)).bump Reg.STO_HOST_UNITS_CNT

/-- Read one fine unit of a partition: its data, zeros when unmapped or lost. -/
def State.storeGet (s : State) (part fine : Nat) : Bytes :=
  let m := s.mapOf (luaOf part fine)
  if m = 0 ∨ m = lostMark then List.replicate 4096 0 else (s.unitAt (m - 1)).data

/-- Size of partition k in fine units. -/
def State.partUnits (s : State) (k : Nat) : Nat := s.getF (Reg.STO_PART_SIZE k) Fld.STO_PART_SIZE_SIZE * 256

/-- PHASE of STO_STAT. -/
def State.phase (s : State) : Nat := s.getF Reg.STO_STAT Fld.STO_STAT_PHASE

/-- Set PHASE. -/
def State.setPhase (s : State) (v : Nat) : State := s.setF Reg.STO_STAT Fld.STO_STAT_PHASE v

/-! ## Records (R289, R290). -/

/-- Committed bytes not yet programmed, in KiB: record units, the one being filled, journal entries (R290). -/
def State.dirtyKiB (s : State) : Nat :=
  4 * (s.sto.units.filter (fun e => decide (e.2.kind = 1) && !e.2.prog)).length + (if s.sto.recs.isEmpty then 0 else 4) +
    (s.sto.jpend.foldl (fun a e => a + jlen e) 0) / 1024

/-- Does the record writer take a new batch? (R290, R318) -/
def State.recReady (s : State) : Bool :=
  decide (s.dirtyKiB < s.getF Reg.STO_DIRTY Fld.STO_DIRTY_DIRTY_MAX * 1024) &&
    !decide ((s.num Reg.STO_REC_HEAD + 2 ^ 32 - s.num Reg.STO_REC_TAIL) % 2 ^ 32 = s.partUnits 0 ∧ s.partUnits 0 ≠ 0)

/-- The record unit that holds the records gathered so far (R289). -/
def recUnit (recs : List Bytes) (tai : Nat) : Bytes :=
  let body := padTo 4080 (recs.map (padTo 24)).flatten
  bytesLE 2 recs.length ++ [0, 0] ++ bytesLE 4 tai ++ bytesLE 4 (crc32c body) ++ [0, 0, 0, 0] ++ body

/-- The record writer programs the unit being filled into the record stream, and STO_REC_HEAD advances; while HEAD − TAIL
fills the partition the stream holds with FULL set (R318). -/
def State.recUnitPut (s : State) (stream : Nat) : State :=
  if s.sto.recs.isEmpty then s
  else if (s.num Reg.STO_REC_HEAD + 2 ^ 32 - s.num Reg.STO_REC_TAIL) % 2 ^ 32 = s.partUnits 0 ∧ s.partUnits 0 ≠ 0 then
    s.setF Reg.STO_STAT Fld.STO_STAT_FULL 1
  else
    let pos := s.num Reg.STO_REC_HEAD
    let fine := if s.partUnits 0 = 0 then 0 else pos % s.partUnits 0
    let u : SUnit := { lua := luaOf 0 fine, dseq := s.sto.dseq, kind := 1, data := recUnit s.sto.recs s.sto.firstTai }
    let (t, loc) := s.place stream u
    if loc = 0 then t
    else
      (((t.stoMod (fun x => { x with dseq := x.dseq + 1, recs := [] })).mapSet (luaOf 0 fine) loc).jour
        (.map (luaOf 0 fine) loc)).wrN Reg.STO_REC_HEAD ((pos + 1) % 2 ^ 32)

/-- Place one 24-byte record in staging; a full unit of 170 records goes to the record stream (R289). The answer's second
part is the log position of the unit that holds the record. -/
def State.recAdd (s : State) (tai : Nat) (r : Bytes) : State × Nat :=
  let t := s.stoMod (fun x => { x with recs := x.recs ++ [r], firstTai := if x.recs.isEmpty then tai % 2 ^ 32 else x.firstTai })
  (if 170 ≤ t.sto.recs.length then t.recUnitPut 0 else t, s.num Reg.STO_REC_HEAD)

/-- Every unit and journal entry written so far is programmed (R317, FLUSH). -/
def State.sync (s : State) : State :=
  let t := s.recUnitPut 0
  let u := t.each (t.sto.sbs.filter (fun e => decide (e.2.state = 1))) (fun e x => x.programSb e.1)
  u.jDrain (u.sto.jpend.length + 1)

/-! ## Flush (R311). -/

/-- Steps 1–2 of the flush: relocation and checkpoint work stop, and every dirty record unit is programmed into a flush
superblock, padded; `erasing` is the mask of dies still erasing. -/
def State.flushStart (s : State) (erasing : Nat) : State :=
  if s.phase = 6 then
    let t := (s.setPhase 7).stoMod (fun x => { x with pass := none })
    let b := t.pickFree
    let m := ((diesOf (t.maskNow b)).filter (fun i => decide (erasing / 2 ^ i % 2 = 0))).foldl (fun a i => a + 2 ^ i) 0
    let u := t.openAt b 4 (decide (t.getF Reg.STO_NAND Fld.STO_NAND_SLC_PAGES ≠ 0)) m
    let dirty := u.sto.units.filter (fun e => decide (e.2.kind = 1) && !e.2.prog)
    let v := u.each dirty (fun e x =>
      let loc := locOf b (x.sb b).next
      if x.mapOf e.2.lua = e.1 + 1 then
        (((x.putAt b e.2).mapSet e.2.lua (loc + 1)).jour (.map e.2.lua (loc + 1)))
      else x)
    ((v.recUnitPut 4).stripeClose b)
  else s

/-- Step 3: the remaining journal entries are programmed, ending with SHUT. -/
def State.flushJournal (s : State) : State := (s.jour .shut).jDrain (s.sto.jpend.length + 1)

end Sys2Proof.Machine
end

