-- ==== Sys2Proof/Machine/IntakeCore.lean ====
section
/-! DEFINITION. Sys2Proof/Machine/IntakeCore.lean: meter slot memory, lookup tables, derived keys, the firmware ring's queue
and the slots in process (chapter "Intake"), which the fabric, Needlecase, the store and the pair use too. -/

namespace Sys2Proof.Machine

/-! ## Meter slot memory (R204). -/

/-- An entry after CLEAR: 30 zero bytes and their CRC-16. -/
def msmClear : Bytes := List.replicate 30 0 ++ [0x45, 0x2A]

/-- Entry of slot n. -/
def State.msmAt (s : State) (n : Nat) : Bytes := tget (fun _ => msmClear) s.msm n

/-- Bytes 0–29 with their SCRC. -/
def withScrc (e : Bytes) : Bytes := padTo 30 e ++ bytesLE 2 (crc16 (padTo 30 e))

/-- Write the entry of slot n; SCRC is recomputed. -/
def State.msmPut (s : State) (n : Nat) (e : Bytes) : State :=
  { s with msm := tset (fun _ => msmClear) s.msm n (withScrc e) }

/-- SCRC checks. -/
def scrcOk (e : Bytes) : Bool := decide (u16 e 30 = crc16 (e.take 30))

/-- System title. -/
abbrev msmTitle (e : Bytes) : Bytes := slice e 0 8
/-- Receive counter L. -/
abbrev msmRx (e : Bytes) : Nat := u32 e 8
/-- Transmit counter. -/
abbrev msmTx (e : Bytes) : Nat := u32 e 12
/-- Network address. -/
abbrev msmNaddr (e : Bytes) : Nat := u24 e 16 % 2 ^ 20
/-- DIRECT. -/
abbrev msmDirect (e : Bytes) : Bool := decide (u24 e 16 / 2 ^ 23 = 1)
/-- GEN. -/
abbrev msmGen (e : Bytes) : Nat := u8 e 19 % 16
/-- DOMAIN. -/
abbrev msmDomain (e : Bytes) : Nat := u8 e 19 / 16 % 8
/-- ACTIVE. -/
abbrev msmActive (e : Bytes) : Bool := decide (u8 e 19 / 128 = 1)
/-- CLASS. -/
abbrev msmClass (e : Bytes) : Nat := u16 e 24 % 256
/-- NODE. -/
abbrev msmNode (e : Bytes) : Nat := u16 e 26
/-- ROLE. -/
abbrev msmRole (e : Bytes) : Nat := u8 e 28
/-- PREV_OK. -/
abbrev msmPrevOk (e : Bytes) : Bool := decide (u8 e 29 % 2 = 1)
/-- FRESH. -/
abbrev msmFresh (e : Bytes) : Bool := decide (u8 e 29 / 2 % 2 = 1)
/-- HOLD. -/
abbrev msmHold (e : Bytes) : Bool := decide (u8 e 29 / 4 % 2 = 1)
/-- FW. -/
abbrev msmFw (e : Bytes) : Bool := decide (u8 e 29 / 8 % 2 = 1)

/-- The configured slot count. -/
def State.slotCount (s : State) : Nat := if s.isF Reg.INK_CTL Fld.INK_CTL_SLOTS20 then 2 ^ 20 else 2 ^ 19

/-- Address of slot n's extended record (R207). -/
def State.xrecA (s : State) (n : Nat) : Nat := s.addr64 Reg.INK_XREC_LO Reg.INK_XREC_HI 12 + 256 * n

/-- Bytes 0–15 of slot n's extended record. -/
def State.xrec (s : State) (n : Nat) : Bytes := s.rdMem (s.xrecA n) 16

/-! ## Lookup tables (R206). -/

/-- Base of the tables. -/
def State.tblA (s : State) : Nat := s.addr64 Reg.INK_TBL_LO Reg.INK_TBL_HI 12

/-- A 4-byte word of DRAM. -/
def State.rd32 (s : State) (a : Nat) : Nat := u32 (s.rdMem a 4) 0

/-- Write a 4-byte word of DRAM. -/
def State.wr32 (s : State) (a v : Nat) : State := s.wrMem a (bytesLE 4 v)

/-- The four buckets of a title, entry by entry: addresses of 32 entries. -/
def State.titleCells (s : State) (title : Bytes) : List Nat :=
  let nb := s.slotCount / 4
  let h := crc32c title
  (List.range 32).map (fun i => s.tblA + 0x400000 + 32 * ((h + i / 8) % nb) + 4 * (i % 8))

/-- Entry word of a title and slot. -/
def titleWord (title : Bytes) (slot : Nat) : Nat := 2 ^ 31 + crc32c title / 2 ^ 20 % 2 ^ 11 * 2 ^ 20 + slot

/-- Slots whose entry lies in a title's buckets with its TAG, and whose title in MSM is that title. -/
def State.titleHits (s : State) (title : Bytes) : List Nat :=
  (s.titleCells title).filterMap (fun a =>
    let w := s.rd32 a
    let n := w % 2 ^ 20
    if w = titleWord title n ∧ msmTitle (s.msmAt n) = title then some n else none)

/-- The slot of a title: the first full match that is active, else the first. -/
def State.lookupTitle (s : State) (title : Bytes) : Option Nat :=
  let h := s.titleHits title
  match h.find? (fun n => msmActive (s.msmAt n)) with
  | some n => some n
  | none => h.head?

/-- The slot of a network address. -/
def State.lookupAddr (s : State) (naddr : Nat) : Option Nat :=
  let w := s.rd32 (s.tblA + 4 * (naddr % 2 ^ 20))
  if w / 2 ^ 31 = 1 then some (w % 2 ^ 20) else none

/-- The first free entry of a title's buckets. -/
def State.titleFree (s : State) (title : Bytes) : Option Nat :=
  (s.titleCells title).find? (fun a => decide (s.rd32 a / 2 ^ 31 = 0))

/-- The entry that slot n has in a title's buckets. -/
def State.titleEntry (s : State) (title : Bytes) (n : Nat) : Option Nat :=
  (s.titleCells title).find? (fun a => decide (s.rd32 a = titleWord title n))

/-- Take slot n out of the title table. -/
def State.titleDrop (s : State) (title : Bytes) (n : Nat) : State :=
  match s.titleEntry title n with
  | none => s
  | some a => s.wr32 a 0

/-- Give slot n an entry for a title, unless it has one; none is free in the four buckets: unchanged. -/
def State.titlePlace (s : State) (title : Bytes) (n : Nat) : State :=
  match s.titleEntry title n with
  | some _ => s
  | none =>
    match s.titleFree title with
    | none => s
    | some a => s.wr32 a (titleWord title n)

/-- Set the address index entry. -/
def State.addrSet (s : State) (naddr w : Nat) : State := s.wr32 (s.tblA + 4 * (naddr % 2 ^ 20)) w

/-- Slot n gives up its address index entry. -/
def State.addrDrop (s : State) (e : Bytes) (n : Nat) : State :=
  if msmDirect e ∧ s.lookupAddr (msmNaddr e) = some n then s.addrSet (msmNaddr e) 0 else s

/-- Slot n, just written with entry e, takes its address's index entry unless another active slot holds it. -/
def State.addrTake (s : State) (e : Bytes) (n : Nat) : State :=
  if msmDirect e then
    match s.lookupAddr (msmNaddr e) with
    | some m => if m ≠ n ∧ msmActive (s.msmAt m) then s else s.addrSet (msmNaddr e) (2 ^ 31 + n)
    | none => s.addrSet (msmNaddr e) (2 ^ 31 + n)
  else s

/-- One slot of a rebuild: an inactive slot takes an address only if none holds it. -/
def State.rebuildSlot (s : State) (n : Nat) (e : Bytes) : State :=
  let t := match s.titleFree (msmTitle e) with
    | none => s.report 0x5104 4 (blockPath 5 27) (bytesLE 4 n)
    | some a => s.wr32 a (titleWord (msmTitle e) n)
  if msmDirect e then
    match t.lookupAddr (msmNaddr e) with
    | none => t.addrSet (msmNaddr e) (2 ^ 31 + n)
    | some m =>
      if msmActive e && !msmActive (t.msmAt m) then t.addrSet (msmNaddr e) (2 ^ 31 + n) else t
  else t

/-- DRAM without the bytes from a to b − 1. -/
def dramCut (m : Tbl Byte) (a b : Nat) : Tbl Byte := m.filter (fun e => decide (e.1 < a ∨ b ≤ e.1))

/-- Rebuild both tables from MSM, slots in ascending number. -/
def State.rebuild (s : State) : State :=
  let t := { s with dram := dramCut s.dram s.tblA (s.tblA + 0x400000 + 8 * s.slotCount) }
  t.each (t.msm.filter (fun e => decide (e.1 < t.slotCount))) (fun e u => u.rebuildSlot e.1 e.2)

/-! ## Derived keys (R209–R213). -/

/-- Attribute bit b of Needlecase slot n. -/
def State.ndlBit (s : State) (n b : Nat) : Bool :=
  decide ((tget (fun _ => ({} : NdlSlot)) s.hoop.slots n).attr / 2 ^ b % 2 = 1)

/-- The domain master key of domain d, if it is usable (R210, R431): slot d holds an AES-128 key with DERIVE, and debug is
closed. -/
def State.dmk (s : State) (d : Nat) : Option Bytes :=
  let k := tget (fun _ => ({} : NdlSlot)) s.hoop.slots d
  if s.ndlBit d 31 && s.ndlBit d 7 && !k.broken && !s.hoop.debugOpen && decide (k.attr / 2 ^ 28 % 8 = 1) then some (k.key.take 16)
  else none

/-- The 22-byte derivation input. -/
def derivInput (dir : Bool) (title : Bytes) (gen : Nat) : Bytes :=
  [0, 0, 0, 1, if dir then 0x54 else 0x41, 0x4B, 0x45, 0x59, 0] ++ title ++ [gen, 0, 0, 0, 0x80]

/-- Set of the derived-key cache that an entry belongs to (R211). -/
def kcSet (k : KeyEnt) : Nat :=
  ((k.slot % 2 ^ 14) ^^^ (k.gen * 1024) ^^^ (k.dir.toNat * 8192)) % 16384

/-- Do two entries carry the same tag? -/
def kcSame (a b : KeyEnt) : Bool := decide ({ a with key := [] } = { b with key := [] })

/-- The tag of a slot's key as the slot's entry now stands (R211). -/
def State.keyTag (s : State) (slot gen : Nat) (dir : Bool) : KeyEnt :=
  let e := s.msmAt slot
  { slot := slot, gen := gen, domain := msmDomain e, dir := dir, tcrc := crc32c (msmTitle e), key := [] }

/-- The cache entry of a tag; while the storage is being cleared every lookup misses (R213). -/
def State.kcHit (s : State) (k : KeyEnt) : Option KeyEnt :=
  if s.isF Reg.INK_KC_CTL Fld.INK_KC_CTL_BUSY then none else s.ink.kc.find? (kcSame k)

/-- Does a derivation run for a tag? -/
def State.derivRuns (s : State) (k : KeyEnt) : Bool := s.ink.deriv.any (fun d => kcSame k d.1)

/-- A key for slot, generation and direction: from the cache (R211), or by a derivation that starts or already runs
(R212). -/
def State.keyAsk (s : State) (slot gen : Nat) (dir : Bool) : State × Option Bytes :=
  let k := s.keyTag slot gen dir
  match s.kcHit k with
  | some h =>
    ((s.inkMod (fun i => { i with kc := h :: i.kc.filter (fun x => !kcSame k x) })).bump Reg.INK_KC_HIT_CNT, some h.key)
  | none =>
    ((s.when (!s.derivRuns k) (fun t => t.inkMod (fun i => { i with
      deriv := i.deriv ++ [(k, msmTitle (s.msmAt slot))] }))).bump Reg.INK_KC_MISS_CNT, none)

/-- Put a key in its set of 4 ways, in place of the least recently used. -/
def kcFill (kc : List KeyEnt) (k : KeyEnt) : List KeyEnt :=
  let rest := kc.filter (fun x => !kcSame k x)
  let mine := rest.filter (fun x => decide (kcSet x = kcSet k))
  k :: (match mine[3]? with
    | none => rest
    | some old => rest.filter (fun x => !decide (x = old)))


/-- Invalidate a slot's entries; ROLL keeps those of the previous generation (R205). -/
def State.kcSlot (s : State) (slot : Nat) (keep : Option Nat) : State :=
  s.inkMod (fun i => { i with kc := i.kc.filter (fun k => decide (k.slot ≠ slot) || decide (keep = some k.gen)) })

/-! ## Slots in process (R201). -/

/-- Slot that a lane's job works on. -/
def jobSlot (j : LaneJob) : Option Nat :=
  match j with
  | .frame f => f.slot
  | .protect _ d _ _ => some (u32 d 0 % 2 ^ 20)

/-- A job without its key: it is derived again (R213). -/
def jobBare (j : LaneJob) : LaneJob :=
  match j with
  | .frame f => .frame { f with key := none }
  | .protect i d g _ => .protect i d g none

/-- Jobs in lanes of the slots that p holds of lose their keys. -/
def State.lanesBare (s : State) (p : Nat → Bool) : State :=
  s.inkMod (fun i => { i with lanes := i.lanes.map (fun e => (e.1, e.2.map (fun j => if (jobSlot j).any p then jobBare j else j))) })

/-- Invalidate every cache entry of a domain (R213, R436). -/
def State.kcDrop (s : State) (d : Nat) : State :=
  s.inkMod (fun i => { i with kc := i.kc.filter (fun k => decide (k.domain ≠ d)) })

/-- Invalidate every cache entry of a domain, and the keys of it that lanes hold (R213). -/
def State.kcDomain (s : State) (d : Nat) : State := (s.kcDrop d).lanesBare (fun n => decide (msmDomain (s.msmAt n) = d))

/-- Jobs of lane l. -/
def State.laneJobs (s : State) (l : Nat) : List LaneJob := tget (fun _ => []) s.ink.lanes l

/-- Set the jobs of lane l. -/
def State.setLane (s : State) (l : Nat) (j : List LaneJob) : State :=
  s.inkMod (fun i => { i with lanes := tset (fun _ => []) i.lanes l j })

/-- Is a frame or a protect request of slot n between lookup and its end? -/
def State.slotBusy (s : State) (n : Nat) : Bool :=
  s.ink.lanes.any (fun e => e.2.any (fun j => decide (jobSlot j = some n))) ||
    s.ink.commits.any (fun c => decide (c.slot = n))

/-- Does the slot operation under way hold slot n's next frame back? -/
def State.opHolds (s : State) (n : Nat) : Bool :=
  match s.ink.op with
  | none => false
  | some o => decide (o.slot = n)

/-- The first job held for slot n goes to the head of the arbiter's queue when nothing of the slot is in process. -/
def State.releaseHold (s : State) (n : Nat) : State :=
  if s.slotBusy n || s.opHolds n then s
  else
    match s.ink.holds.find? (fun j => decide (jobSlot j = some n)) with
    | none => s
    | some f => s.inkMod (fun i => { i with holds := i.holds.erase f, back := f :: i.back })

/-- Is intake idle (R225): EN = 0 and no frame in process? -/
def State.inkIdle (s : State) : Bool :=
  !s.isF Reg.INK_CTL Fld.INK_CTL_EN && s.ink.lanes.isEmpty && s.ink.commits.isEmpty && s.ink.holds.isEmpty &&
    s.ink.back.isEmpty

/-- The frames of lane l return to the head of the arbiter's queue; its protect request is fetched again (R24, R59). -/
def State.laneReturn (s : State) (l : Nat) : State :=
  let fs := (s.laneJobs l).filterMap (fun j => match j with
    | .frame f => some (.frame { f with gen := 0, key := none, tried := [] })
    | .protect _ _ _ _ => none)
  (s.setLane l []).inkMod (fun i => { i with back := fs ++ i.back })

/-! ## Firmware ring (R220). -/

/-! ## Ingest queues (R199). -/

/-- Units of 64 bytes that an entry takes. -/
def ingUnits (e : Bytes) : Nat := (e.length + 63) / 64

/-- Entries of queue q. -/
def State.ingq (s : State) (q : Nat) : List Bytes := tget (fun _ => []) s.ink.ingq q

/-- LEVEL of queue q. -/
def State.ingLevel (s : State) (q : Nat) : Nat := ((s.ingq q).map ingUnits).sum

/-- An entry enters queue q whole, or is dropped and counted. -/
def State.ingEnter (s : State) (q : Nat) (e : Bytes) : State :=
  if s.ingLevel q + ingUnits e ≤ 1024 then s.inkMod (fun i => { i with ingq := tset (fun _ => []) i.ingq q (s.ingq q ++ [e]) })
  else s.bumpF (Reg.INK_ING q) Fld.INK_ING_DROP

/-! ## Commit effects on MSM (R208, R214), which the journal's replay and the standby use too. -/

/-- RX_WIN after counter c is accepted at L with window win (R214). -/
def winNext (fresh : Bool) (l c win : Nat) : Nat :=
  if fresh then 1
  else if l < c then (if 32 ≤ c - l then 1 else (win * 2 ^ (c - l) + 1) % 2 ^ 32)
  else win ||| 2 ^ (l - c)

/-- The slot's counters and extended record after a frame with counter c under generation g at TAI second tai. -/
def State.counterUpdate (s : State) (slot c g tai : Nat) : State :=
  let e := s.msmAt slot
  let x := s.xrec slot
  let adv := msmFresh e || decide (msmRx e < c)
  let e1 := overlay e 8 (bytesLE 4 (if adv then c else msmRx e))
  let e2 := overlay e1 20 (bytesLE 4 tai)
  let e3 := overlay e2 29 [u8 e 29 - (if msmFresh e then 2 else 0)]
  let x1 := overlay x 0 (bytesLE 4 (winNext (msmFresh e) (msmRx e) c (u32 x 0)))
  let x2 := overlay x1 7 [if adv then g else u8 x 7]
  let x3 := overlay x2 12 (bytesLE 4 (sat32 (u32 x 12) 1))
  ((s.msmPut slot e3).wrMem (s.xrecA slot) x3).when (!adv) (fun t => t.bump Reg.INK_REORDER_CNT)

/-- The 12-byte counter-journal entry (R208). -/
def ctrEntry (slot g c tai : Nat) : Bytes := bytesLE 4 (slot + g * 2 ^ 20) ++ bytesLE 4 c ++ bytesLE 4 tai

/-- Address of slot n's Mender state entry (R233). -/
def State.mstA (s : State) (n : Nat) : Nat := s.addr64 Reg.MND_STATE_LO Reg.MND_STATE_HI 12 + 64 * n

/-- Address of slot n's shadow entry (R250). -/
def State.shdA (s : State) (n : Nat) : Nat := s.addr64 Reg.MND_SHADOW_LO Reg.MND_SHADOW_HI 12 + 256 * n

/-- A state entry of zeros with its CRC (R233, R234). -/
def mstZero : Bytes := List.replicate 62 0 ++ [0xDB, 0xC9]

/-- A shadow entry of zeros with its CRC (R250). -/
def shdZero : Bytes := List.replicate 254 0 ++ [0x2D, 0x59]

/-! ## Slot operations (R205). -/

/-- Refusal code of an operation, 0 if it is accepted; checked in the order 6, 4, 7, 5, 1, 2, 3 (log entry 61). -/
def State.slotCheck (s : State) (o : SlotOp) (e' : Bytes) : Nat :=
  if o.op = 0 ∨ 5 < o.op then 6
  else if s.slotCount ≤ o.slot then 4
  else if s.ink.ue.contains o.slot ∧ (o.op = 1 ∨ o.op = 2 ∨ o.op = 4) then 7
  else if o.tblErr then 5
  else if o.op = 2 ∨ o.op = 3 then
    if msmActive e' ∧ s.msm.any (fun x => decide (x.1 ≠ o.slot ∧ msmActive x.2 ∧ msmTitle x.2 = msmTitle e')) then 1
    else if msmDirect e' ∧
        s.msm.any (fun x => decide (x.1 ≠ o.slot ∧ msmActive x.2 ∧ msmDirect x.2 ∧ msmNaddr x.2 = msmNaddr e')) then 2
    else if (s.titleEntry (msmTitle e') o.slot).isNone ∧ (s.titleFree (msmTitle e')).isNone then 3
    else 0
  else 0

/-- The entry that an operation leaves; the firmware writes every byte but 8–15, 20–23 and FLAGS bits 0–1. -/
def slotResult (o : SlotOp) (e : Bytes) (bad : Bool) : Bytes :=
  let f := u8 o.data 29 / 4 % 64 * 4
  match o.op with
  | 2 => overlay (overlay (overlay (padTo 32 o.data) 8 (slice e 8 8)) 20 (slice e 20 4)) 29 [f + u8 e 29 % 4]
  | 3 => overlay (overlay (padTo 32 o.data) 20 (if bad then [0, 0, 0, 0] else slice e 20 4)) 29 [f + 2]
  | 4 => overlay (overlay e 19 [u8 e 19 / 16 * 16 + (msmGen e + 1) % 16]) 29 [u8 e 29 / 2 * 2 + 1]
  | 5 => List.replicate 32 0
  | _ => e

/-- Reserved bits of an entry read 0: NADDR [22:20], CLASS [15:8], ROLE [7:5], FLAGS [7:4]. -/
def slotTrim (e : Bytes) : Bytes :=
  overlay (overlay (overlay (overlay e 18 [u8 e 18 / 128 * 128 + u8 e 18 % 16]) 25 [0]) 28 [u8 e 28 % 32]) 29 [u8 e 29 % 16]

/-- The effect of an accepted writing operation: MSM, tables, key cache, extended record, Mender entries (R234), journal and
mirror. -/
def State.slotWrite (s : State) (o : SlotOp) (e' : Bytes) : State :=
  let e := s.msmAt o.slot
  let n := o.slot
  let t := s.msmPut n e'
  let t := (t.addrDrop e n).when (decide (msmTitle e ≠ msmTitle e' ∨ o.op = 5)) (fun u => u.titleDrop (msmTitle e) n)
  let t := if o.op = 5 then t else (t.titlePlace (msmTitle e') n).addrTake e' n
  let t := t.when (decide (msmTitle e ≠ msmTitle e' ∨ msmGen e ≠ msmGen e' ∨ msmDomain e ≠ msmDomain e'))
    (fun u => u.kcSlot n (if o.op = 4 then some (msmGen e) else none))
  let t := t.when (decide (o.op = 3 ∨ o.op = 5)) (fun u =>
    ((u.wrMem (u.mstA n) mstZero).wrMem (u.shdA n) shdZero).inkMod (fun i => { i with
      ue := i.ue.filter (fun k => decide (k ≠ n)) }))
  let t := t.when (decide (o.op = 3)) (fun u => u.wrMem (u.xrecA n) [0, 0, 0, 0])
  (t.jour (.slot n (t.msmAt n))).mirror 3 (slotEntry n (t.msmAt n))

/-- Execute an operation once no frame of its slot is in process. -/
def State.slotExec (s : State) : State :=
  match s.ink.op with
  | none => s
  | some o =>
    if o.code.isSome || s.slotBusy o.slot then s
    else
      let e := s.msmAt o.slot
      let e' := slotTrim (slotResult o e (s.ink.ue.contains o.slot))
      let c := s.slotCheck o e'
      let t := if c = 0 ∧ o.op ≠ 1 then s.slotWrite o e' else s
      t.inkMod (fun i => { i with op := some { o with code := some c, entry := e } })

end Sys2Proof.Machine
end

