-- ==== Sys2Proof/Machine/Calendar.lean ====
section
/-! DEFINITION. Sys2Proof/Machine/Calendar.lean: the activity calendar (R335, R336) and its billing boundaries (R340), used by
the totaliser and by shadow billing. Dates count from 1970-01-01 (log entry 62). -/

namespace Sys2Proof.Machine

/-! ## Dates. -/

/-- Days from 1970-01-01 to year y, month m, day d of the Gregorian calendar. -/
def daysOf (y m d : Int) : Int :=
  let y' := if m ≤ 2 then y - 1 else y
  let era := Int.fdiv y' 400
  let yoe := y' - era * 400
  let mp := Int.fmod (m + 9) 12
  let doy := Int.fdiv (153 * mp + 2) 5 + d - 1
  let doe := yoe * 365 + Int.fdiv yoe 4 - Int.fdiv yoe 100 + doy
  era * 146097 + doe - 719468

/-- Year, month and day of a day number. -/
def dateOf (n : Int) : Int × Int × Int :=
  let z := n + 719468
  let era := Int.fdiv z 146097
  let doe := z - era * 146097
  let yoe := Int.fdiv (doe - Int.fdiv doe 1460 + Int.fdiv doe 36524 - Int.fdiv doe 146096) 365
  let doy := doe - (365 * yoe + Int.fdiv yoe 4 - Int.fdiv yoe 100)
  let mp := Int.fdiv (5 * doy + 2) 153
  let d := doy - Int.fdiv (153 * mp + 2) 5 + 1
  let m := if mp < 10 then mp + 3 else mp - 9
  (yoe + era * 400 + (if m ≤ 2 then 1 else 0), m, d)

/-- Weekday of a day number, Monday = 1. -/
def weekday (n : Int) : Nat := (Int.fmod (n + 3) 7).toNat + 1

/-- Days of a month. -/
def monthDays (y m : Int) : Int := if m = 12 then 31 else daysOf y (m + 1) 1 - daysOf y m 1

/-! ## Fields of a calendar (R335). -/

/-- NSEASON. -/
abbrev calSeasons (c : Bytes) : Nat := u8 c 6
/-- NWEEK. -/
abbrev calWeeks (c : Bytes) : Nat := u8 c 7
/-- NDAY. -/
abbrev calDays (c : Bytes) : Nat := u8 c 8
/-- BILL_KIND. -/
abbrev calBillKind (c : Bytes) : Nat := u8 c 9
/-- NSPEC. -/
abbrev calSpecs (c : Bytes) : Nat := u16 c 10
/-- ACT_TIME in TAI seconds. -/
abbrev calAct (c : Bytes) : Nat := un c 36 6
/-- CAL_ID. -/
abbrev calId (c : Bytes) : Nat := u32 c 32
/-- Offset of season i. -/
abbrev calSeasonAt (i : Nat) : Nat := 48 + 8 * i
/-- Offset of day profile i. -/
abbrev calDayAt (i : Nat) : Nat := 144 + 68 * i
/-- Offset of special entry i. -/
abbrev calSpecAt (i : Nat) : Nat := 2320 + 8 * i

/-- Are bytes a to b − 1 all 0? -/
def zeros (c : Bytes) (a b : Nat) : Bool := (slice c a (b - a)).all (fun x => decide (x = 0))

/-- Is a month and day in range? -/
def mdOk (m d : Nat) : Bool := decide (1 ≤ m ∧ m ≤ 12 ∧ 1 ≤ d ∧ (d : Int) ≤ monthDays 2000 m)

/-- Is a DST rule in range? -/
def dstOk (c : Bytes) (o : Nat) : Bool :=
  decide (1 ≤ u8 c o ∧ u8 c o ≤ 12 ∧ 1 ≤ u8 c (o + 1) ∧ u8 c (o + 1) ≤ 5 ∧ 1 ≤ u8 c (o + 2) ∧ u8 c (o + 2) ≤ 7) &&
    decide (u8 c (o + 3) = 0 ∧ u16 c (o + 4) ≤ 1439)

/-- Is day profile i valid: 1–16 points, the first at minute 0, ascending, rates 0–7? -/
def profOk (c : Bytes) (i : Nat) : Bool :=
  let o := calDayAt i
  let k := u8 c o
  decide (1 ≤ k ∧ k ≤ 16) && zeros c (o + 1) (o + 4) && decide (u16 c (o + 4) = 0) &&
    (List.range k).all (fun j => decide (u16 c (o + 4 + 4 * j) ≤ 1439 ∧ u8 c (o + 6 + 4 * j) ≤ 7 ∧ u8 c (o + 7 + 4 * j) = 0)) &&
    (List.range (k - 1)).all (fun j => decide (u16 c (o + 4 + 4 * j) < u16 c (o + 8 + 4 * j))) && zeros c (o + 4 + 4 * k) (o + 68)

/-- Validity of a calendar (R335). -/
def calOk (c : Bytes) : Bool :=
  let tz := signed 16 (u16 c 16)
  decide (10516 ≤ c.length ∧ u32 c 0 = 0x4C435441 ∧ u16 c 4 = 1 ∧ u32 c 10512 = crc32c (c.take 10512)) &&
    decide (1 ≤ calSeasons c ∧ calSeasons c ≤ 4 ∧ 1 ≤ calWeeks c ∧ calWeeks c ≤ 8 ∧ 1 ≤ calDays c ∧ calDays c ≤ 32) &&
    decide (calBillKind c ≤ 2 ∧ calSpecs c ≤ 1024 ∧ u8 c 13 ≤ 120 ∧ u16 c 14 ≤ 1439 ∧ -720 ≤ tz ∧ tz ≤ 840) &&
    (match calBillKind c with
      | 1 => decide (1 ≤ u8 c 12 ∧ u8 c 12 ≤ 28)
      | 2 => decide (1 ≤ u8 c 12 ∧ u8 c 12 ≤ 7)
      | _ => true) &&
    (decide (u8 c 13 = 0) || (dstOk c 18 && dstOk c 24)) && zeros c 30 32 && zeros c 42 48 &&
    (List.range (calSeasons c)).all (fun i =>
      let o := calSeasonAt i
      mdOk (u8 c o) (u8 c (o + 1)) && decide (u8 c (o + 2) < calWeeks c) && zeros c (o + 3) (o + 8)) &&
    (List.range (calSeasons c - 1)).all (fun i =>
      decide (u8 c (calSeasonAt i) * 32 + u8 c (calSeasonAt i + 1) < u8 c (calSeasonAt (i + 1)) * 32 + u8 c (calSeasonAt (i + 1) + 1))) &&
    zeros c (calSeasonAt (calSeasons c)) 80 &&
    (List.range (calWeeks c)).all (fun i =>
      (List.range 7).all (fun d => decide (u8 c (80 + 8 * i + d) < calDays c)) && decide (u8 c (87 + 8 * i) = 0)) &&
    zeros c (80 + 8 * calWeeks c) 144 && (List.range (calDays c)).all (profOk c) && zeros c (calDayAt (calDays c)) 2320 &&
    (List.range (calSpecs c)).all (fun i =>
      let o := calSpecAt i
      mdOk (u8 c (o + 2)) (u8 c (o + 3)) && decide (u8 c (o + 4) < calDays c) && zeros c (o + 5) (o + 8)) &&
    zeros c (calSpecAt (calSpecs c)) 10512

/-! ## Evaluation (R336). -/

/-- Local standard time, in minutes, of TAI minute t with TAI − UTC = off seconds. -/
def calStd (c : Bytes) (off : Nat) (t : Int) : Int := Int.fdiv (60 * t - off) 60 + signed 16 (u16 c 16)

/-- Local standard minute of a DST rule at offset o in year y. -/
def dstAt (c : Bytes) (o : Nat) (y : Int) : Int :=
  let m : Int := u8 c o
  let first := daysOf y m 1
  let d0 := Int.fmod ((u8 c (o + 2) : Int) - weekday first) 7
  let d1 := d0 + 7 * ((u8 c (o + 1) : Int) - 1)
  let d := if monthDays y m ≤ d1 then d1 - 7 else d1
  (first + d) * 1440 + u16 c (o + 4)

/-- Is summer time in force at a local standard minute? -/
def dstOn (c : Bytes) (std : Int) : Bool :=
  let (y, _, _) := dateOf (Int.fdiv std 1440)
  let a := dstAt c 18 y
  let b := dstAt c 24 y
  decide (u8 c 13 ≠ 0) && (if a ≤ b then decide (a ≤ std ∧ std < b) else decide (a ≤ std ∨ std < b))

/-- Local minute at a local standard minute. -/
def localOf (c : Bytes) (std : Int) : Int := if dstOn c std then std + u8 c 13 else std

/-- Season index of a month and day: the latest start at or before it, the last season if none. -/
def seasonOf (c : Bytes) (m d : Int) : Nat :=
  let n := calSeasons c
  match ((List.range n).filter (fun i => decide ((u8 c (calSeasonAt i) : Int) * 32 + u8 c (calSeasonAt i + 1) ≤ m * 32 + d))).getLast? with
  | some i => i
  | none => n - 1

/-- The special entry for a date with year code k. -/
def specOf (c : Bytes) (k : Nat) (m d : Int) : Option Nat :=
  ((List.range (calSpecs c)).find? (fun i =>
    let o := calSpecAt i
    decide (u16 c o = k ∧ (u8 c (o + 2) : Int) = m ∧ (u8 c (o + 3) : Int) = d))).map (fun i => u8 c (calSpecAt i + 4))

/-- Season, rate, day profile, and whether a special entry gave the profile, for the minute after TAI minute t. -/
def calEval (c : Bytes) (off : Nat) (t : Int) : Nat × Nat × Nat × Bool :=
  let loc := localOf c (calStd c off t)
  let dn := Int.fdiv loc 1440
  let m := (Int.fmod loc 1440).toNat
  let (y, mo, d) := dateOf dn
  let season := seasonOf c mo d
  let spec := match specOf c y.toNat mo d with
    | some p => some p
    | none => specOf c 0xFFFF mo d
  let prof := spec.getD (u8 c (80 + 8 * u8 c (calSeasonAt season + 2) + (weekday dn - 1)))
  let o := calDayAt prof
  let pts := (List.range (u8 c o)).filter (fun j => decide (u16 c (o + 4 + 4 * j) ≤ m))
  (season, u8 c (o + 6 + 4 * (pts.getLast?.getD 0)) % 8, prof, spec.isSome)

/-! ## Billing boundaries (R340). -/

/-- The first TAI minute at which local time has reached local minute l. -/
def calReach (c : Bytes) (off : Nat) (l : Int) : Int :=
  let ofs := u8 c 13
  let first := ((List.range (ofs + 1)).find? (fun i => decide (l ≤ localOf c (l - ofs + i)))).getD ofs
  l - ofs + first - calStd c off 0

/-- Local billing minutes around a local day, oldest first. -/
def billLocals (c : Bytes) (dn : Int) : List Int :=
  let (y, m, _) := dateOf dn
  let bm : Int := u16 c 14
  match calBillKind c with
  | 1 =>
    (List.range 4).map (fun i =>
      let k : Int := m - 2 + i
      daysOf (y + Int.fdiv k 12) (Int.fmod k 12 + 1) (u8 c 12) * 1440 + bm)
  | 2 =>
    (List.range 4).map (fun i => (dn - weekday dn + u8 c 12 + 7 * ((i : Int) - 1)) * 1440 + bm)
  | _ => []

/-- The first calendar billing boundary after TAI minute t, if the calendar gives one. -/
def nextBill (c : Bytes) (off : Nat) (t : Nat) : Option Nat :=
  let dn := Int.fdiv (localOf c (calStd c off t)) 1440
  ((billLocals c dn).map (calReach c off)).find? (fun b => decide ((t : Int) < b)) |>.map Int.toNat

end Sys2Proof.Machine
end

