-- ==== Sys2Proof/Machine/TotCore.lean ====
section
/-! DEFINITION. Sys2Proof/Machine/TotCore.lean: the totaliser's energy, demand, billing and time (chapter "Totaliser
metrology, the seal and billing registers"), which the Darner, the Time Unit and the power pins use too. -/

namespace Sys2Proof.Machine

/-- Change the totaliser. -/
def State.totMod (s : State) (f : TotState → TotState) : State := { s with tot := f s.tot }

/-- Is metrology running (EN of TOT_CTL)? -/
def State.totEn (s : State) : Bool := s.isF Reg.TOT_CTL Fld.TOT_CTL_EN

/-- E_VALID. -/
def State.eValid (s : State) : Bool := s.isF Reg.TOT_STAT Fld.TOT_STAT_E_VALID

/-- Is a seal session open? -/
def State.session (s : State) : Bool := s.isF Reg.TOT_STAT Fld.TOT_STAT_SESSION

/-- E_VALID as R324 gives it, put in TOT_STAT. -/
def State.totValid (s : State) : State :=
  s.setF Reg.TOT_STAT Fld.TOT_STAT_E_VALID (decide (s.totEn = true ∧ 8000 ≤ s.tot.good ∧
    s.getF Reg.TOT_STAT Fld.TOT_STAT_CH_FAULT = 0 ∧ s.session = false ∧ s.tot.stopped = false)).toNat

/-- Present TAI minute. -/
def State.taiMin (s : State) : Nat := s.taiSec / 60

/-- Is TAI valid? -/
def State.taiValid (s : State) : Bool := s.isF Reg.TU_STAT Fld.TU_STAT_TAI_VALID

/-- TAI − UTC in seconds. -/
def State.utcOff (s : State) : Nat := s.getF Reg.TU_UTC Fld.TU_UTC_CUR

/-- Accumulator k in whole Wh or varh. -/
def accWh (t : TotState) (k : Nat) : Nat := t.acc.getD k 0 / 1000 % 2 ^ 64

/-- BILL_SEQ. -/
def State.billSeq (s : State) : Nat := s.getF Reg.TOT_BILL_CTL Fld.TOT_BILL_CTL_BILL_SEQ

/-- The current billing set (R338). -/
def State.billSet (s : State) : Bytes :=
  let t := s.tot
  let w := fun k => bytesLE 8 (accWh t k)
  let b := bytesLE 2 s.billSeq ++ bytesLE 2 t.flags ++ bytesLE 4 t.startMin ++ bytesLE 4 0 ++ w 0 ++ w 1 ++ w 2 ++ w 3 ++ w 4 ++
    w 5 ++ t.tou.flatMap (bytesLE 4) ++ bytesLE 4 t.mdW ++ bytesLE 4 t.mdEnd ++ w 6 ++ w 7 ++ w 8 ++ w 9 ++ w 10 ++ w 11 ++
    List.replicate 8 0
  b ++ bytesLE 4 (crc32c b)

/-! ## Legal mirror: partition 3 of the store (R333). -/

/-- Write bytes at an offset of a fine unit of partition 3. -/
def State.legalPut (s : State) (fine off : Nat) (b : Bytes) : State := s.storePut 3 fine (overlay (s.storeGet 3 fine) off b)

/-- Can the mirror be written now: the store is at PHASE 6, or flushing? -/
def State.legalOpen (s : State) : Bool := decide (s.phase = 6 ∨ s.phase = 7)

/-- Write one metrology event record at the log's next place. -/
def State.evtPut (s : State) (b : Bytes) : State :=
  let p := s.tot.evtTotal
  ((s.legalPut (32 + p % 4096 / 256) (16 * (p % 256)) b).totMod (fun t => { t with evtTotal := p + 1 })).wrN
    Reg.TOT_EVT_PROD (p + 1)

/-- A metrology event (R345); until the store can take it, it waits. -/
def State.totEvt (s : State) (kind eflags data : Nat) : State :=
  let b := bytesLE 4 s.taiSec ++ [kind, eflags] ++ bytesLE 2 s.billSeq ++ bytesLE 4 data
  let r := b ++ bytesLE 4 (crc32c b)
  if s.legalOpen then s.evtPut r else s.totMod (fun t => { t with evq := t.evq ++ [r] })

/-- Events that waited enter the mirror. -/
def State.evtDrain (s : State) : State :=
  if s.legalOpen then (s.totMod (fun t => { t with evq := [] })).each s.tot.evq (fun r u => u.evtPut r) else s

/-- Write a state record of a KIND (R334). -/
def State.stateRec (s : State) (kind : Nat) : State :=
  let t := s.tot
  let seq := t.saveSeq + 1
  let b0 := bytesLE 4 0x53544F54 ++ bytesLE 8 seq ++ [kind, s.session.toNat + 2 * s.taiValid.toNat, 0, 0] ++ bytesLE 8 s.taiSec ++
    bytesLE 4 s.taiNs ++ bytesLE 4 (u32 t.live 124) ++ s.billSet ++ t.prev ++ t.acc.flatMap (bytesLE 8) ++ bytesLE 4 t.subStart ++
    bytesLE 8 t.subE ++ [t.subIrr.toNat, t.winCnt, 0, 0] ++ t.ring.flatMap (fun r => bytesLE 8 r.1) ++ bytesLE 4 t.lastB ++
    [s.getF Reg.TOT_RATE Fld.TOT_RATE_RATE, s.getF Reg.TOT_RATE Fld.TOT_RATE_SEASON, 0, 0] ++ bytesLE 4 (s.num Reg.TOT_ACAL_ID)
  let b := padTo 4092 b0
  (s.totMod (fun x => { x with saveSeq := seq })).when s.legalOpen (fun u =>
    u.legalPut (18 + seq % 2) 0 (b ++ bytesLE 4 (crc32c b)))

/-! ## Demand (R339). -/

/-- DEM_SUB in force. -/
def State.demSub (s : State) : Nat := s.getF Reg.TOT_DEM Fld.TOT_DEM_DEM_SUB

/-- DEM_N in force. -/
def State.demN (s : State) : Nat := s.getF Reg.TOT_DEM Fld.TOT_DEM_DEM_N

/-- The end of the sub-interval in progress: the next multiple of DEM_SUB after its start. -/
def State.subEnd (s : State) : Nat := (s.tot.subStart / s.demSub + 1) * s.demSub

/-- The sub-interval in progress closes at minute e and its windows are evaluated; `irr` makes it irregular. A demand that
does not fit 32 bits is a free value. -/
def State.subClose (s : State) (e : Nat) (irr : Bool) : State :=
  let t := s.tot
  let ring := ((t.subE, t.subIrr || irr) :: t.ring).take 15
  let cnt := min (t.winCnt + 1) 15
  let n := s.demN
  let t1 := { t with ring := ring, winCnt := cnt, subE := 0, subIrr := false }
  let due := s.isF Reg.TOT_DEM Fld.TOT_DEM_SLIDE || decide (e % (n * s.demSub) = 0)
  let tot : Nat := ((ring.take n).map (·.1)).sum
  let d := tot * 60 / (1000 * n * s.demSub)
  if due && decide (n ≤ cnt ∧ t.mdW < d) then
    let f := (ring.take n).any (·.2)
    { s with
      tot := { t1 with mdW := if d < 2 ^ 32 then d else s.drawn (2 ^ 32), mdEnd := e, flags := t.flags / 2 * 2 + f.toNat }
      draws := s.draws + 1 }
  else { s with tot := t1 }

/-- Open a sub-interval at minute m. -/
def State.subOpen (s : State) (m : Nat) (irr : Bool) : State :=
  s.totMod (fun t => { t with subStart := m, subE := 0, subIrr := irr })

/-! ## Billing (R340). -/

/-- Bit b of BFLAGS set. -/
def State.billFlag (s : State) (b : Nat) : State := s.totMod (fun t => { t with flags := t.flags ||| 2 ^ b })

/-- Apply a billing boundary B (minute b). -/
def State.billAt (s : State) (b : Nat) (forced : Bool) : State :=
  let body := putLEBill (s.billSet.take 252) b
  let prev := body ++ bytesLE 4 (crc32c body)
  let n := s.getF Reg.TOT_BILL_CTL Fld.TOT_BILL_CTL_BILL_SEQ
  let t := s.totMod (fun x => { x with prev := prev })
  let t := t.when t.legalOpen (fun u => u.legalPut (64 + n % 256 / 16) (256 * (n % 16)) prev)
  let t := t.stateRec 3
  let t := (t.setF Reg.TOT_BILL_CTL Fld.TOT_BILL_CTL_BILL_SEQ (n + 1)).totMod (fun x => { x with
    startMin := b, flags := if forced then 32 else 0, mdW := 0, mdEnd := 0, lastB := b, winCnt := 0, dem := none })
  let t := match s.tot.dem with
    | none => t
    | some w => t.wr Reg.TOT_DEM w
  ((t.bump Reg.TOT_BILL_CNT).raiseF Reg.TOT_INT_STAT Fld.TOT_INT_STAT_BILL_RESET).totEvt 5 0 b
where
  /-- The set with END_MIN. -/
  putLEBill (c : Bytes) (b : Nat) : Bytes := overlay c 8 (bytesLE 4 b)

/-- Calendar boundaries after minute a up to minute b, at most k of them. -/
def billsBetween (cal : Bytes) (off a b k : Nat) : List Nat :=
  match k with
  | 0 => []
  | n + 1 =>
    match nextBill cal off a with
    | none => []
    | some m => if m ≤ b then m :: billsBetween cal off m b n else []

/-- Apply the calendar boundaries after minute a up to minute b, in order, those not after LAST_B left out. -/
def State.billsDue (s : State) (a b : Nat) : State :=
  s.each (billsBetween s.tot.acal s.utcOff (max a s.tot.lastB) b 4096) (fun m t => if t.tot.lastB < m then t.billAt m false else t)

/-! ## Calendar (R336, R337). -/

/-- Write a calendar to its area of the mirror: four fine units from `fine`. -/
def State.calPut (s : State) (fine : Nat) (c : Bytes) : State :=
  s.when s.legalOpen (fun t => t.each (List.range 4) (fun i u => u.storePut 3 (fine + i) (padTo 4096 (slice c (4096 * i) 4096))))

/-- The passive calendar becomes active; `late` marks its event. -/
def State.calActivate (s : State) (late : Bool) : State :=
  let c := s.tot.pcal
  let t := ((((s.totMod (fun x => { x with acal := c, pcal := [] })).calPut 20 c).calPut 24 []).wrN Reg.TOT_ACAL_ID (calId c)).setF
    Reg.TOT_PCAL_CTL Fld.TOT_PCAL_CTL_PRESENT 0
  t.totEvt 6 late.toNat (calId c)

/-- Is a passive calendar due at TAI minute m? -/
def State.calDue (s : State) (m : Nat) : Bool :=
  s.isF Reg.TOT_PCAL_CTL Fld.TOT_PCAL_CTL_PRESENT && decide (calAct s.tot.pcal ≤ 60 * m)

/-- Set the season and rate for the minute after m; without an active calendar RATE stays 0. -/
def State.rateSet (s : State) (m : Nat) : State :=
  if s.num Reg.TOT_ACAL_ID = 0 ∨ s.tot.acal = [] then s
  else
    let (sea, rate, prof, spec) := calEval s.tot.acal s.utcOff m
    (((s.setF Reg.TOT_RATE Fld.TOT_RATE_SEASON sea).setF Reg.TOT_RATE Fld.TOT_RATE_RATE rate).setF Reg.TOT_RATE
      Fld.TOT_RATE_PROFILE prof).setF Reg.TOT_RATE Fld.TOT_RATE_SPECIAL spec.toNat

/-- The season and rate in force. -/
def State.rateNow (s : State) : Nat × Nat :=
  (s.getF Reg.TOT_RATE Fld.TOT_RATE_SEASON, s.getF Reg.TOT_RATE Fld.TOT_RATE_RATE)

/-- TAI_MINUTE_BOUNDARY: the steps due at minute m, in the order of R341. A switch writes a metrology event of kind 4. -/
def State.totMinute (s : State) (m : Nat) : State :=
  let last := decide (s.demSub ≠ 0 ∧ m % s.demSub = 0)
  let t := s.when last (fun u => u.subClose m false)
  let t := t.billsDue (m - 1) m
  let t := t.when (t.calDue m) (fun u => u.calActivate false)
  let u := t.rateSet m
  let u := u.when (decide (u.rateNow ≠ t.rateNow)) (fun v => v.totEvt 4 0 m)
  u.when last (fun v => v.subOpen m false)

/-! ## Energy (R322). -/

/-- Units of a remainder that make 1 mWh. -/
abbrev mwhUnit : Nat := 14400 * 1000 * 2 ^ 78

/-- Add energy e, in units of `mwhUnit`⁻¹ mWh, to accumulator k. -/
def accAdd (t : TotState) (k e : Nat) : TotState :=
  let x := t.rem.getD k 0 + e
  { t with acc := t.acc.set k (t.acc.getD k 0 + x / mwhUnit), rem := t.rem.set k (x % mwhUnit) }

/-- One sample's energy: powers per phase and in total, in units of 1 ÷ (1,000 × 2^78) W or var. -/
def State.integrate (s : State) (p q : List Int) : State :=
  let pt : Int := p.foldl (· + ·) 0
  let qt : Int := q.foldl (· + ·) 0
  let a0 := s.tot.acc.getD 0 0
  let quad := if 0 ≤ pt then (if 0 ≤ qt then 2 else 5) else if 0 ≤ qt then 3 else 4
  let t1 := accAdd s.tot (if 0 ≤ pt then 0 else 1) pt.natAbs
  let t2 := accAdd t1 quad qt.natAbs
  let t3 := (List.range 3).foldl (fun t i =>
    let x := p.getD i 0
    accAdd t (if 0 ≤ x then 6 + i else 9 + i) x.natAbs) t2
  let a1 := t3.acc.getD 0 0
  let (sea, rate) := s.rateNow
  let k := 8 * (sea % 4) + rate
  { s with tot := { t3 with
      subE := t3.subE + (a1 - a0)
      tou := t3.tou.set k ((t3.tou.getD k 0 + (a1 / 1000 - a0 / 1000)) % 2 ^ 32) } }

/-! ## Latch, time steps, power failure. -/

/-- The Darner's latch at T_C (R346). -/
def State.totLatch (s : State) : State :=
  (s.wrN Reg.TOT_LATCH_WH (accWh s.tot 0)).setF Reg.TOT_LATCH_STAT Fld.TOT_LATCH_STAT_VALID s.eValid.toNat

/-- A time step, forward or not, of `sec` seconds from TAI minute m0 to the present one (R344). -/
def State.totStep (s : State) (m0 : Nat) (fwd : Bool) (sec : Int) : State :=
  if s.totEn && s.tot.cut.isNone then
    let m1 := s.taiMin
    let t := (s.subClose m0 true).totMod (fun x => { x with winCnt := 0 })
    let t := t.when fwd (fun u => (u.billsDue m0 m1).when (u.calDue m1) (fun v => v.calActivate false))
    let t := t.rateSet m1
    let d := clampI (-2147483648) 2147483647 sec
    let t := ((((t.totEvt 3 0 (unsigned 32 d)).billFlag 1).bump Reg.TOT_TSTEP_CNT).raiseF Reg.TOT_INT_STAT
      Fld.TOT_INT_STAT_TSTEP).report 0x8106 2 (blockPath 8 3) (bytesLE 4 (unsigned 32 d))
    t.subOpen m1 true
  else s

/-- A session ends: staging is discarded. -/
def State.sessionDrop (s : State) : State :=
  if s.session then
    (((s.setF Reg.TOT_STAT Fld.TOT_STAT_SESSION 0).totMod (fun t => { t with staging := List.replicate 128 0 })).raiseF
      Reg.TOT_INT_STAT Fld.TOT_INT_STAT_SESSION).totValid
  else s

/-- PFAIL_N falls (R342): integration stops, and the hoop stages a state record of KIND 2 and an event of kind 1. An open session
closes; its record follows at the next start (R330). -/
def State.totPfail (s : State) : State :=
  if s.totEn && !s.tot.stopped then
    let t := (s.totMod (fun x => { x with stopped := true, cut := some ⟨s.taiSec, 2⟩ })).totValid
    ((t.stateRec 2).totEvt 1 0 0).sessionDrop
  else s.sessionDrop

end Sys2Proof.Machine
end

