-- ==== Sys2Proof/Machine/Darner.lean ====
section
/-! DEFINITION. Sys2Proof/Machine/Darner.lean: the Darner (R256–R279): freezes, collection, balances and suspicion. -/

namespace Sys2Proof.Machine

/-- Change the Darner. -/
def State.drnMod (s : State) (f : DrnState → DrnState) : State := { s with drn := f s.drn }

/-- PERIOD_MIN. -/
def State.period (s : State) : Nat := s.getF Reg.DRN_FRZ_CTL Fld.DRN_FRZ_CTL_PERIOD_MIN

/-- A freeze is in collection. -/
def State.collecting (s : State) : Bool := s.isF Reg.DRN_STAT Fld.DRN_STAT_COLLECTING

/-- Does the Darner run: EN = 1, its state restored, and this device not a standby (R277, R487)? -/
def State.drnRuns (s : State) : Bool :=
  s.isF Reg.DRN_CTL Fld.DRN_CTL_EN && s.isF Reg.DRN_STAT Fld.DRN_STAT_RESTORED && s.pairWorks && !s.noNew 5 30

/-! ## Schedule (R257). -/

/-- The earliest multiple of PERIOD_MIN minutes at least LEAD_S + PREP_MS + 1 s ahead. -/
def State.freezeId (s : State) : Nat :=
  let lead := 1000 * s.getF Reg.DRN_FRZ_CTL Fld.DRN_FRZ_CTL_LEAD_S + s.getF Reg.DRN_FRZ_CTL Fld.DRN_FRZ_CTL_PREP_MS + 1000
  let u := s.time.tai * 1000 + lead * 2 ^ 32
  let per := s.period * 60000 * 2 ^ 32
  if per = 0 then 0 else (u + per - 1) / per * s.period

/-- Schedule count of TAI minute m, from the present relation of TAI and the schedule count: the first at or after it
(R349). -/
def State.schedOf (s : State) (m : Nat) : Nat :=
  ((s.now : Int) + Int.fdiv ((m : Int) * 60 * 2 ^ 32 - s.time.tai + 4095) (2 ^ 12) : Int) % (2 ^ 32 : Int) |>.toNat

/-- Choose the next freeze, if the Darner runs and TAI is valid. -/
def State.drnPlan (s : State) : State :=
  let go := s.drnRuns && s.taiValid
  (s.drnMod (fun d => { d with plan := if go then some s.freezeId else none })).setF Reg.DRN_STAT Fld.DRN_STAT_WAIT_TAI
    (s.isF Reg.DRN_CTL Fld.DRN_CTL_EN && !s.taiValid).toNat

/-- A TAI step (R257): a fixed freeze and one in collection are marked STEPPED; one not yet fixed is chosen anew. -/
def State.drnStep (s : State) : State :=
  let t := s.drnMod (fun d => { d with
    fixed := d.fixed.map (fun f => (f.1, f.2.1, true)), stepped := d.stepped || s.collecting })
  if s.drn.fixed.isSome then t else t.drnPlan

/-- FREEZE_DUE: step 3 of R257. -/
def execFreezeDue (s : State) : Host.Outcome State Fault Refusal :=
  if s.drnRuns && s.taiValid && s.drn.fixed.isNone then
    let f := s.drn.plan.getD s.freezeId
    let tc := s.schedOf f
    let lead := s.getF Reg.DRN_FRZ_CTL Fld.DRN_FRZ_CTL_LEAD_S * 2 ^ 20
    ok (((((s.drnMod (fun d => { d with plan := none, fixed := some (f, tc, false) })).wrN Reg.DRN_FRZ_NEXT_ID f).wrN
      Reg.DRN_FRZ_LAUNCH ((tc + 2 ^ 32 - lead) % 2 ^ 32)).wrN Reg.DRN_FRZ_FDELAY lead).raiseF Reg.DRN_INT_STAT
      Fld.DRN_INT_STAT_FREEZE_DUE)
  else ok s

/-! ## Topology and node state (R263, R274). -/

/-- Base of the topology table. -/
def State.topoA (s : State) : Nat := s.addr64 Reg.DRN_TOPO_LO Reg.DRN_TOPO_HI 12

/-- Bytes 0–31 of node n's entry. -/
def State.topo (s : State) (n : Nat) : Bytes := s.rdMem (s.topoA + 256 * n) 32

/-- Nodes with VALID = 1, ascending: an unlisted byte of DRAM reads 0. -/
def State.validNodes (s : State) : List Nat :=
  s.dram.filterMap (fun e =>
    if s.topoA ≤ e.1 ∧ e.1 < s.topoA + 2 ^ 24 ∧ (e.1 - s.topoA) % 256 = 0 ∧ e.2.toNat % 2 = 1 then some ((e.1 - s.topoA) / 256)
    else none)

/-- SOURCE of an entry. -/
abbrev topoSource (e : Bytes) : Nat := u8 e 0 / 2 % 4
/-- PARENT. -/
abbrev topoParent (e : Bytes) : Nat := u16 e 2
/-- UP_SLOT. -/
abbrev topoUp (e : Bytes) : Nat := u32 e 4 % 2 ^ 20
/-- TOPO_GEN. -/
abbrev topoGen (e : Bytes) : Nat := u16 e 10

/-- A field of an entry, or a register's default where it is 0. -/
def orDef (v d : Nat) : Nat := if v = 0 then d else v

/-- Base of the history area. -/
def State.histA (s : State) : Nat := s.addr64 Reg.DRN_HIST_LO Reg.DRN_HIST_HI 12

/-- Address of slot n's meter state. -/
def State.mtrA (s : State) (n : Nat) : Nat := s.histA + 32 * n

/-- Address of node n's node state. -/
def State.nodA (s : State) (n : Nat) : Nat := s.histA + 0x2000000 + 64 * n

/-- A state entry of `len` bytes with its CRC. -/
def withCrc (len : Nat) (b : Bytes) : Bytes := padTo (len - 2) b ++ bytesLE 2 (crc16 (padTo (len - 2) b))

/-- Read a state entry; one whose CRC fails is taken as zeroed, with a Sampler record. -/
def State.drnRead (s : State) (a len idx kind : Nat) : State × Bytes :=
  let b := s.rdMem a len
  if u16 b (len - 2) = crc16 (b.take (len - 2)) then (s, b)
  else (s.report 0x5103 3 (blockPath 5 30) (bytesLE 4 idx ++ [kind]), List.replicate len 0)

/-- Write a state entry. -/
def State.drnWrite (s : State) (a len : Nat) (b : Bytes) : State := s.wrMem a (withCrc len b)

/-! ## Collection (R266, R269). -/

/-- Collection entry of node n. -/
def State.coll (s : State) (n : Nat) : DrnColl := tget (fun _ => ({} : DrnColl)) s.drn.coll n

/-- Change node n's collection entry. -/
def State.collMod (s : State) (n : Nat) (f : DrnColl → DrnColl) : State :=
  s.drnMod (fun d => { d with coll := tmod (fun _ => ({} : DrnColl)) d.coll n f })

/-- The totaliser's reading enters a node with SOURCE = 1 at T_C (R269). -/
def State.totUp (s : State) (f n : Nat) : State :=
  let v := s.num Reg.TOT_LATCH_WH
  let (t, b) := s.drnRead (s.nodA n) 64 n 1
  let t := if u32 b 20 = f - s.period then
      t.collMod n (fun c => { c with up := (v + 2 ^ 32 - u32 b 16) % 2 ^ 32, upSeen := true })
    else t
  t.drnWrite (t.nodA n) 64 (overlay b 16 (bytesLE 4 v ++ bytesLE 4 f))

/-- FREEZE_CAPTURE: collection opens at T_C (R257 step 4, R266, R269, R346). -/
def execFreezeCapture (s : State) : Host.Outcome State Fault Refusal :=
  match s.drn.fixed with
  | none => ok s
  | some (f, _, st) =>
    let t := (s.totLatch.wrN Reg.DRN_FRZ_CUR f).setF Reg.DRN_STAT Fld.DRN_STAT_COLLECTING 1
    let t := t.drnMod (fun d => { d with fixed := none, coll := [], stepped := st })
    let t := t.each t.validNodes (fun n u => u.collMod n (fun c => { c with gen := topoGen (u.topo n) }))
    let t := if t.isF Reg.TOT_LATCH_STAT Fld.TOT_LATCH_STAT_VALID then
        t.each (t.validNodes.filter (fun n => decide (topoSource (t.topo n) = 1))) (fun n u => u.totUp f n)
      else t
    ok t.drnPlan

/-! ## Meters (R264, R267, R268). -/

/-- Where a slot's snapshot counts: its node's upstream, and the nodes it is downstream of (R264). -/
def State.places (s : State) (slot : Nat) : Option Nat × List Nat :=
  let e := s.msmAt slot
  let n := msmNode e
  let t := s.topo n
  match msmRole e / 4 % 4 with
  | 1 =>
    if topoSource t = 2 ∧ topoUp t = slot then (some n, if topoParent t = 0xFFFF then [] else [topoParent t]) else (none, [])
  | 3 => (none, [])
  | _ => (none, [n])

/-- A sum that does not fit 32 bits is a free value. -/
def State.add32 (s : State) (a b : Nat) : State × Nat :=
  if a + b < 2 ^ 32 then (s, a + b) else (s.draw, s.drawn (2 ^ 32))

/-- Node n has one more answer; a count that does not fit its 16 bits is a free value. -/
def State.collAns (s : State) (n : Nat) : State :=
  let a := (s.coll n).answered + 1
  let (t, v) := if a < 65536 then (s, a) else (s.draw, s.drawn 65536)
  t.collMod n (fun c => { c with answered := v })

/-- Add a delta to the collection. -/
def State.collAdd (s : State) (slot e : Nat) : State :=
  let (up, downs) := s.places slot
  let t := match up with
    | some n => s.collMod n (fun c => { c with up := e, upSeen := true })
    | none => s
  t.each downs (fun n u =>
    let (v, d) := u.add32 (u.coll n).down e
    (v.collMod n (fun c => { c with down := d })).collAns n)

/-- Mark an invalid (or gapped) snapshot in the collection. -/
def State.collBad (s : State) (slot : Nat) (gap : Bool) : State :=
  let (up, downs) := s.places slot
  let t := s.each downs (fun n u => u.collAns n)
  t.each (up.toList ++ downs) (fun n u => u.collMod n (fun c => if gap then { c with gap := true } else { c with inv := true }))

/-- Write a suspicion record (R275). -/
def State.suspRec (s : State) (slot node score lastId mean drop res kind : Nat) : State :=
  let p := s.num Reg.DRN_SUSP_PROD
  (s.wrMem (s.histA + 292 * 2 ^ 20 + 32 * (p % 2 ^ 18)) (padTo 32 (bytesLE 4 slot ++ bytesLE 2 node ++ bytesLE 2 score ++
    bytesLE 4 lastId ++ bytesLE 4 mean ++ bytesLE 4 drop ++ bytesLE 4 res ++ [kind]))).wrN Reg.DRN_SUSP_PROD (p + 1)

/-- The score step of R268: the meter state after it. -/
def State.scoreStep (s : State) (slot f : Nat) (b : Bytes) : State × Bytes :=
  let e := s.msmAt slot
  let role := msmRole e / 4 % 4
  let (t, nb) := s.drnRead (s.nodA (msmNode e)) 64 (msmNode e) 1
  let prevOk := decide (u8 b 18 / 4 % 2 = 1 ∧ u32 b 4 = f - s.period)
  if prevOk && decide (u32 nb 8 = u32 b 4 ∧ 0 < u32 nb 12 ∧ (role = 0 ∨ role = 2)) then
    let res := u32 nb 12
    let w := 4096 * min (u32 b 12) res / res
    let sc := min (u16 b 16 - u16 b 16 / 64 + w) 65535
    let thr := orDef (u16 (s.topo (msmNode e)) 28) (s.getF Reg.DRN_SUSP Fld.DRN_SUSP_SUSP_THR)
    let sus := decide (u8 b 18 / 2 % 2 = 1)
    let b1 := overlay b 16 (bytesLE 2 sc)
    if thr ≤ sc ∧ !sus then
      ((((t.suspRec slot (msmNode e) sc (u32 nb 8) (u32 b 8) (u32 b 12) res 1).raiseF Reg.DRN_INT_STAT
        Fld.DRN_INT_STAT_SUSPECT).bump Reg.DRN_SUSPECT_CNT), overlay b1 18 [u8 b 18 + 2])
    else if sc < thr / 2 + thr % 2 ∧ sus then
      (t.suspRec slot (msmNode e) sc (u32 nb 8) (u32 b 8) (u32 b 12) res 0, overlay b1 18 [u8 b 18 - 2])
    else (t, b1)
  else (t, b)

/-- The meter update of R268 for a snapshot reading v of freeze f; `open_` says that it counts in the collection. -/
def State.meterUpdate (s : State) (slot f v : Nat) (valid open_ : Bool) (b0 : Bytes) : State :=
  let (t, b) := s.scoreStep slot f b0
  let a := t.mtrA slot
  let fl := u8 b 18
  if !valid then
    ((t.drnWrite a 32 (overlay b 18 [fl - (if fl / 4 % 2 = 1 then 4 else 0)])).bump Reg.DRN_INVALID_CNT).when open_
      (fun u => u.collBad slot false)
  else
    let prevOk := decide (fl / 4 % 2 = 1 ∧ u32 b 4 = f - s.period)
    let fl' := fl + (if fl / 4 % 2 = 1 then 0 else 4)
    if prevOk then
      let e : Nat := (v + 2 ^ 32 - u32 b 0) % 2 ^ 32
      let mean : Nat := u32 b 8
      let b1 := if fl % 2 = 1 then
          overlay b 8 (bytesLE 4 ((mean : Int) + Int.tdiv ((e : Int) - mean) 16).toNat ++ bytesLE 4 (mean - e))
        else overlay (overlay b 8 (bytesLE 4 e ++ bytesLE 4 0)) 18 [fl + 1]
      let fl2 := if fl % 2 = 1 then fl' else fl' + 1
      (t.drnWrite a 32 (overlay (overlay b1 0 (bytesLE 4 v ++ bytesLE 4 f)) 18 [fl2])).when open_ (fun u => u.collAdd slot e)
    else
      ((t.drnWrite a 32 (overlay (overlay b 0 (bytesLE 4 v ++ bytesLE 4 f)) 18 [fl'])).bump Reg.DRN_GAP_CNT).when open_
        (fun u => u.collBad slot true)

/-- Class a snapshot record (R264, R267); EN schedules freezes and classes nothing (log entry 146). -/
def State.snap (s : State) (r : Bytes) : State :=
  let slot := u32 r 0 % 2 ^ 20
  let f := u32 r 4
  let v := u32 r 8
  let valid := decide (u8 r 23 / 16 % 4 = 0)
  let c := s.num Reg.DRN_FRZ_CUR
  let t := s.bump Reg.DRN_SNAP_CNT
  if !(t.pairWorks && !t.noNew 5 30) then t
  else if msmRole (t.msmAt slot) / 16 % 2 = 0 then t.bump Reg.DRN_IGNORED_CNT
  else
    let (t, b) := t.drnRead (t.mtrA slot) 32 slot 0
    if u8 b 18 / 4 % 2 = 1 ∧ f ≤ u32 b 4 then t.bump Reg.DRN_DUP_CNT
    else if c < f then t.bump Reg.DRN_FUTURE_CNT
    else if f = c ∧ t.collecting then t.meterUpdate slot f v valid true b
    else
      ((t.bump Reg.DRN_LATE_CNT).raiseF Reg.DRN_INT_STAT Fld.DRN_INT_STAT_LATE).meterUpdate slot f v valid false b

/-- DARNER_SNAPSHOT: the oldest snapshot record handed over is classed; interval records before it are ignored. -/
def execDarnerSnapshot (s : State) : Host.Outcome State Fault Refusal :=
  let q := s.drn.inq.dropWhile (fun r => decide (u8 r 23 / 64 ≠ 1))
  match q with
  | [] => ok (s.drnMod (fun d => { d with inq := [] }))
  | r :: rest => ok ((s.drnMod (fun d => { d with inq := rest })).snap r)

/-! ## Close (R270–R272). -/

/-- The first REASON that applies to a node (R270). -/
def judgeNode (e : Bytes) (c : DrnColl) (cut : Bool) : Nat :=
  if topoGen e ≠ c.gen then 5
  else if cut then 7
  else if topoSource e = 0 ∨ !c.upSeen then 4
  else if u16 e 8 < c.answered then 6
  else if c.answered < u16 e 8 then 1
  else if c.inv then 2
  else if c.gap then 3
  else 0

/-- L_tech (R271). -/
def lTech (e : Bytes) (up per : Nat) : Nat :=
  u32 e 12 * per / 1000 + (if per = 0 then 0 else (u32 e 16 * (up * up)) % 2 ^ 64 / (per * 2 ^ 30))

/-- ρ (R271). -/
def rho (r : Int) (up : Nat) : Int := if up = 0 then 0 else clampI (-4096) 4096 (Int.tdiv (r * 4096) up)

/-- One CUSUM step (R272). -/
def cusum (x : Nat) (d : Int) (k : Nat) : Nat := (min (max 0 ((x : Int) + d - k)) 65535).toNat

/-- A CUSUM's latch: new latch, and whether it is raised now. -/
def latchStep (x h : Nat) (l : Bool) : Bool × Bool :=
  if x = 0 then (false, false) else if h ≤ x ∧ !l then (true, true) else (l, false)

/-- An alarm of a kind (1 = loss, 2 = excess) at node n. -/
def State.drnAlarm (s : State) (n kind : Nat) : State :=
  (((s.raiseF Reg.DRN_INT_STAT (if kind = 1 then Fld.DRN_INT_STAT_ALARM_LOSS else Fld.DRN_INT_STAT_ALARM_EXCESS)).setF
    Reg.DRN_ALARM_LAST Fld.DRN_ALARM_LAST_KIND kind).setF Reg.DRN_ALARM_LAST Fld.DRN_ALARM_LAST_NODE n |>.report 0x5102 3
    (blockPath 5 30) (bytesLE 2 n ++ [kind])).bump Reg.DRN_ALARM_CNT

/-- Judge, balance and report one node (R270 steps 2–5). -/
def State.closeNode (s : State) (f : Nat) (cut : Bool) (n : Nat) : State :=
  let e := s.topo n
  let c := s.coll n
  let reason := judgeNode e c cut
  let (t, b) := s.drnRead (s.nodA n) 64 n 1
  let done := decide (reason = 0)
  let up := if c.upSeen then c.up else 0
  let lt := lTech e c.up s.period
  let r := clampI (-2147483648) 2147483647 ((c.up : Int) - c.down - lt)
  let k := orDef (u16 e 20) (s.getF Reg.DRN_CUSUM Fld.DRN_CUSUM_K)
  let h := orDef (u16 e 22) (s.getF Reg.DRN_CUSUM Fld.DRN_CUSUM_H)
  let rmin := orDef (u32 e 24) (s.getF Reg.DRN_SUSP Fld.DRN_SUSP_R_MIN)
  let sp := if done then cusum (u16 b 0) (rho r c.up) k else u16 b 0
  let sn := if done then cusum (u16 b 2) (-(rho r c.up)) k else u16 b 2
  let (l1, a1) := if done then latchStep sp h (decide (u8 b 4 % 2 = 1)) else (decide (u8 b 4 % 2 = 1), false)
  let (l2, a2) := if done then latchStep sn h (decide (u8 b 4 / 2 % 2 = 1)) else (decide (u8 b 4 / 2 % 2 = 1), false)
  let b1 := overlay (overlay b 0 (bytesLE 2 sp ++ bytesLE 2 sn ++ [l1.toNat + 2 * l2.toNat])) 8
    (bytesLE 4 f ++ bytesLE 4 (if done ∧ (rmin : Int) ≤ r then r.toNat else 0))
  let t := (t.drnWrite (t.nodA n) 64 b1).bump (if done then Reg.DRN_NODE_OK_CNT else Reg.DRN_NODE_INC_CNT)
  let t := (t.when a1 (fun u => u.drnAlarm n 1)).when a2 (fun u => u.drnAlarm n 2)
  let (t, ltv) := if lt < 2 ^ 32 then (t, lt) else (t.draw, t.drawn (2 ^ 32))
  let rec_ := bytesLE 2 n ++ [done.toNat + 2 * reason + 16 * s.drn.stepped.toNat + 32 * a1.toNat + 64 * a2.toNat, 0] ++ bytesLE 4 f ++
    bytesLE 4 up ++ bytesLE 4 c.down ++ bytesLE 4 (if done then ltv else 0) ++ bytesLE 4 (if done then unsigned 32 r else 0) ++
    bytesLE 2 sp ++ bytesLE 2 sn ++ bytesLE 2 c.answered ++ bytesLE 2 (u16 e 8)
  let p := t.num Reg.DRN_BAL_PROD
  let size := if t.isF Reg.INK_CTL Fld.INK_CTL_SLOTS20 then 2 ^ 23 else 2 ^ 22
  (t.wrMem (t.histA + 36 * 2 ^ 20 + 32 * (p % size)) rec_).wrN Reg.DRN_BAL_PROD (p + 1)

/-- The state areas go to the store as one opaque checkpoint at the first close after a TAI day boundary (R277). -/
def State.drnCkpt (s : State) : State :=
  let day := s.taiSec / 86400
  if s.drn.day < day then
    let a := s.histA
    let cells := s.dram.filterMap (fun e => if a ≤ e.1 ∧ e.1 < a + 36 * 2 ^ 20 then some (e.1 - a, e.2.toNat) else none)
    let (t, l) := ((s.drnMod (fun d => { d with day := day })).sysDrop (fun n => decide (2 ^ 28 + 2 ^ 27 ≤ n))).sysPut 3 (2 ^ 28 + 2 ^ 27 + day % 2 ^ 27) []
    t.jour (.darner cells (l - 1))
  else s

/-- Close the freeze in collection (R270); `cut` says that it was cut short (R276). -/
def State.freezeClose (s : State) (cut : Bool) : State :=
  if s.collecting then
    let f := s.num Reg.DRN_FRZ_CUR
    let t := s.setF Reg.DRN_STAT Fld.DRN_STAT_COLLECTING 0
    let t := t.each (t.validNodes.filter (fun n => decide (u8 (t.topo n) 0 / 8 % 2 = 1))) (fun n u => u.closeNode f cut n)
    (t.raiseF Reg.DRN_INT_STAT Fld.DRN_INT_STAT_CLOSED).drnCkpt
  else s

/-- FREEZE_CLOSE. -/
def execFreezeClose (s : State) : Host.Outcome State Fault Refusal := ok (s.freezeClose false)

/-! ## Enable and disable. -/

/-- EN written 1. -/
def State.drnEnable (s : State) : State :=
  if s.isF Reg.DRN_CTL Fld.DRN_CTL_EN then s
  else ((s.raiseF Reg.DRN_CTL Fld.DRN_CTL_EN).setF Reg.DRN_STAT Fld.DRN_STAT_IDLE 0).drnPlan

/-- A collection is cut, and no further freeze is scheduled (R276). -/
def State.drnCut (s : State) : State :=
  (s.freezeClose true).drnMod (fun d => { d with plan := none, fixed := none })

/-- EN written 0. -/
def State.drnDisable (s : State) : State :=
  (((s.setF Reg.DRN_CTL Fld.DRN_CTL_EN 0).drnCut).setF Reg.DRN_STAT Fld.DRN_STAT_IDLE 1).setF Reg.DRN_STAT
    Fld.DRN_STAT_WAIT_TAI 0

/-- DARNER_ENABLE. -/
def execDarnerEnable (s : State) : Host.Outcome State Fault Refusal := s.onBlock (s.exists_ 5 30) Reg.DRN_CTL (ok s.drnEnable)

/-- DARNER_DISABLE. -/
def execDarnerDisable (s : State) : Host.Outcome State Fault Refusal := s.onBlock (s.exists_ 5 30) Reg.DRN_CTL (ok s.drnDisable)

end Sys2Proof.Machine
end

