-- ==== Sys2Proof/Machine/HoopCore.lean ====
section
/-! DEFINITION. Sys2Proof/Machine/HoopCore.lean: NOR pages, derived device keys, Needlecase slots, the vault, OTP counts and
the change log (chapter "Hoop trust domain"), which the totaliser, the updater and the start use too. -/

namespace Sys2Proof.Machine

/-! ## Boot NOR in pages of 4 KiB (R455, R510). -/

/-- An erased page. -/
def norBlank : Bytes := List.replicate 4096 255

/-- Page p of the NOR. -/
def State.norPage (s : State) (p : Nat) : Bytes := tget (fun _ => norBlank) s.nor p

/-- Program page p. -/
def State.norPut (s : State) (p : Nat) (b : Bytes) : State :=
  { s with nor := tset (fun _ => norBlank) s.nor p (b ++ List.replicate (4096 - b.length) 255) }

/-- Erase n pages from page p. -/
def State.norErase (s : State) (p n : Nat) : State :=
  { s with nor := s.nor.filter (fun e => decide (e.1 < p ∨ p + n ≤ e.1)) }

/-! ## Device keys (R427, R428). -/

/-- Change the hoop. -/
def State.hoopMod (s : State) (f : HoopState → HoopState) : State := { s with hoop := f s.hoop }

/-- A key of n bytes from DRS under a label and the domain identity. -/
def State.drsKey (s : State) (label : Bytes) (n : Nat) : Bytes :=
  ((List.range ((n + 15) / 16)).flatMap (fun i =>
    cmac s.hoop.drs (bytesBE 4 (i + 1) ++ label ++ [0] ++ s.hoop.domainId ++ bytesBE 4 (8 * n)))).take n

/-- n bytes from the device's random generator: free values. -/
def State.random (s : State) (n : Nat) : State × Bytes := (s.draw, bytesLE n (s.drawn (256 ^ n)))

/-! ## Slots (R429, R430). -/

/-- Slot n. -/
def State.ndl (s : State) (n : Nat) : NdlSlot := tget (fun _ => ({} : NdlSlot)) s.hoop.slots n

/-- Set slot n. -/
def State.ndlPut (s : State) (n : Nat) (k : NdlSlot) : State :=
  s.hoopMod (fun h => { h with slots := tset (fun _ => ({} : NdlSlot)) h.slots n k })

/-- KIND of an attribute word. -/
def attrKind (a : Nat) : Nat := a / 2 ^ 28 % 8

/-- Bit b of an attribute word. -/
def attrBit (a b : Nat) : Bool := decide (a / 2 ^ b % 2 = 1)

/-- Key bytes of a KIND, 0 for none. -/
def kindLen (k : Nat) : Nat :=
  match k with
  | 1 => 16
  | 2 | 3 | 6 => 32
  | 4 => 48
  | 5 => 64
  | _ => 0

/-- Use bits that suit a KIND (log entry 80). -/
def kindUses (k : Nat) : Nat :=
  match k with
  | 1 => 0x80
  | 2 => 0x40
  | 3 => 0x12
  | 4 => 0x20
  | 5 => 0x04
  | 6 => 0x08
  | _ => 0

/-- The attribute word as a slot keeps it: VALID and FIXED are not taken from the writer, reserved bits are 0. -/
def attrTaken (a : Nat) : Nat := a % 2 ^ 32 &&& 0x700700FE

/-- May attribute word a, with use limit cnt, be loaded in slot n (R430, R432)? -/
def attrOk (n a cnt : Nat) : Bool :=
  let uses := a &&& 0xFE
  decide (1 ≤ attrKind a ∧ attrKind a ≤ 6) && !(attrBit a 18 && attrBit a 17) && !(attrBit a 16 && attrBit a 7) &&
    (!attrBit a 7 || decide (n < 8)) && decide (uses &&& (0xFE - (kindUses (attrKind a) &&& 0xFE)) = 0) &&
    (!attrBit a 18 || decide (n ≤ 10)) && (!attrBit a 16 || decide (0 < cnt)) && (decide (8 ≤ n) || decide (a = 0x10040080))

/-- Slot contents for a load. -/
def ndlLoad (a cnt : Nat) (key : Bytes) : NdlSlot :=
  { attr := 2 ^ 31 + a, key := key, count := if attrBit a 16 then cnt % 2 ^ 24 else 0 }

/-- Empty slot n by overwriting it; `bad` says that a readback differs, which breaks the slot (R434). -/
def State.ndlWipe (s : State) (n : Nat) (bad : Bool) : State :=
  let t := s.when (decide (n < 8)) (fun u => u.kcDomain n)
  if bad then
    ((t.ndlPut n { broken := true }).raiseF Reg.NDL_INT_STAT Fld.NDL_INT_STAT_ALARM).report 0x8103 6 (blockPath 8 1)
      ([1] ++ bytesLE 2 n)
  else t.ndlPut n {}

/-- Slots 8, 11 and 12 and NDL_KEYID (R428, R429). -/
def State.deviceKeys (s : State) : State :=
  let seed := s.drsKey [0x49, 0x44, 0x53, 0x47] 48
  let pub := Config.slhPublic seed
  let kid := (sha256 pub).take 8
  let vkey := (List.range 8).flatMap (fun k => bytesLE 4 (s.num (Reg.NDL_VKEY k)))
  ((((s.ndlPut 8 { attr := 0xC0080020, key := seed }).ndlPut 11
    { attr := 0xD0080004, key := s.drsKey [0x54, 0x52, 0x4E, 0x53] 64 }).ndlPut 12 { attr := 0xE0080008, key := vkey }).wrN
    Reg.NDL_KEYID_LO (u32 kid 0)).wrN Reg.NDL_KEYID_HI (u32 kid 4)

/-! ## Vault (R437, R438). -/

/-- First NOR pages of the two vault blocks. -/
abbrev vaultPage (i : Nat) : Nat := if i = 0 then 0x3FE0 else 0x3FF0

/-- Vault key. -/
def State.vaultKey (s : State) : Bytes := s.drsKey [0x56, 0x4C, 0x54, 0x4B] 32

/-- The persistent slots, ascending. -/
def State.persist (s : State) : List (Nat × NdlSlot) :=
  s.hoop.slots.filter (fun e => attrBit e.2.attr 31 && attrBit e.2.attr 18 && decide (e.1 ≤ 10))

/-- A vault copy of the persistent slots. -/
def State.vaultCopy (s : State) (vseq : Nat) (iv : Bytes) : Bytes :=
  let rs := s.persist
  let pt := rs.flatMap (fun e => bytesLE 2 e.1 ++ [0, 0] ++ bytesLE 4 e.2.attr ++ bytesLE 4 e.2.count ++ [0, 0, 0, 0] ++
    padTo 64 e.2.key)
  let hd := bytesLE 4 0x544C5656 ++ bytesLE 2 1 ++ bytesLE 2 rs.length ++ bytesLE 8 vseq ++ padTo 12 iv ++ [0, 0, 0, 0]
  let (ct, tag) := gcmSeal 16 s.vaultKey iv hd pt
  let b := hd ++ ct ++ tag
  b ++ bytesLE 4 (crc32c b)

/-- Does the copy of block i check as to magic, version, count and CRC? -/
def State.vaultCrc (s : State) (i : Nat) : Bool :=
  let b := s.norPage (vaultPage i)
  let n := u16 b 6
  decide (u32 b 0 = 0x544C5656 ∧ u16 b 4 = 1 ∧ n ≤ 11 ∧ u32 b (48 + 80 * n) = crc32c (b.take (48 + 80 * n)))

/-- VSEQ of the copy of block i. -/
def State.vseq (s : State) (i : Nat) : Nat := un (s.norPage (vaultPage i)) 8 8

/-- The records of block i's copy, if CRC and tag check. -/
def State.vaultOpen (s : State) (i : Nat) : Option Bytes :=
  let b := s.norPage (vaultPage i)
  let n := u16 b 6
  if s.vaultCrc i then gcmOpen 16 s.vaultKey (slice b 16 12) (b.take 32) (slice b 32 (80 * n)) (slice b (32 + 80 * n) 16)
  else none

/-- The block that holds the valid copy of the highest VSEQ. -/
def State.vaultBest (s : State) : Option Nat :=
  let a := (s.vaultOpen 0).isSome
  let b := (s.vaultOpen 1).isSome
  if a && (!b || decide (s.vseq 1 ≤ s.vseq 0)) then some 0 else if b then some 1 else none

/-- Write a new vault copy and start the erase of the older block. -/
def State.vaultWrite (s : State) : State :=
  let (t, iv) := s.random 12
  match s.vaultBest with
  | none => (t.norErase (vaultPage 0) 16).norPut (vaultPage 0) (t.vaultCopy 1 iv)
  | some i =>
    let j := 1 - i
    (((t.norErase (vaultPage j) 16).norPut (vaultPage j) (t.vaultCopy (s.vseq i + 1) iv)).hoopMod (fun h => { h with
      vaultBusy := some (vaultPage i) })).setF Reg.NDL_STAT Fld.NDL_STAT_VAULT_BUSY 1

/-- Put the records of a vault copy into their slots. -/
def State.vaultRecs (s : State) (r : Bytes) (k : Nat) : State :=
  match k with
  | 0 => s
  | n + 1 =>
    let t := s.vaultRecs r n
    let b := slice r (80 * n) 80
    let a := u32 b 4
    if u16 b 0 ≤ 10 ∧ (t.ndl (u16 b 0)).broken = false then
      t.ndlPut (u16 b 0) { attr := a, key := (slice b 16 64).take (kindLen (attrKind a)), count := u32 b 8 }
    else t

/-- The vault is loaded at the start, and the other copy erased (R435, R438), but nothing is written to the NOR while PFAIL_N is low
(R508). -/
def State.vaultLoad (s : State) : State :=
  match s.vaultBest with
  | none => s.report 0x8104 5 (blockPath 8 1) []
  | some i =>
    let r := (s.vaultOpen i).getD []
    (s.when (!s.pins.pfail) (fun t => t.norErase (vaultPage (1 - i)) 16)).vaultRecs r (r.length / 80)

/-! ## Counted settings (R442). -/

/-- Limit of a setting. -/
def cntLimit (setting : Nat) : Nat :=
  match setting with
  | 1 => 4
  | 2 => 64
  | 3 => 2
  | 4 => 3
  | 5 => 16
  | _ => 0

/-- Entries programmed of a setting; `kind` tells floors apart. -/
def State.cntUsed (s : State) (setting kind : Nat) : Nat :=
  match setting with
  | 1 => s.hoop.domainUsed
  | 2 => s.hoop.floorUsed.getD kind 0
  | 3 => s.hoop.pairUsed
  | 4 => s.hoop.debugUsed
  | 5 => s.hoop.unsealUsed
  | _ => 0

/-- Count left. -/
def State.cntLeft (s : State) (setting kind : Nat) : Nat := cntLimit setting - s.cntUsed setting kind

/-- Rollback floor of an image kind. -/
def State.floor (s : State) (kind : Nat) : Nat := s.hoop.floors.getD kind 0

/-! ## Change log: fine units 4–7 of partition 4 (R446). -/

/-- Record i of the change log. -/
def State.chgAt (s : State) (i : Nat) : Bytes := slice (s.storeGet 4 (4 + i / 128)) (32 * (i % 128)) 32

/-- Is record i present? -/
def State.chgOk (s : State) (i : Nat) : Bool :=
  let b := s.chgAt i
  decide (u16 b 0 = i ∧ 1 ≤ u8 b 2 ∧ u8 b 2 ≤ 5 ∧ u32 b 28 = crc32c (b.take 28))

/-- Records in the log, counted up to the first that is absent. -/
def State.chgCount (s : State) : Nat := ((List.range 512).takeWhile s.chgOk).length

/-- Append a change-log record; the store can take it from PHASE 6 on. -/
def State.chgAppend (s : State) (setting flags left value kind : Nat) : State :=
  let n := s.getF Reg.NDL_CNT_LOG_PROD Fld.NDL_CNT_LOG_PROD_COUNT
  if s.legalOpen && decide (n < 512) then
    let prev := if n = 0 then List.replicate 8 0 else (sha256 (s.chgAt (n - 1))).take 8
    let b := bytesLE 2 n ++ [setting, flags, left, value, kind, 0] ++ bytesLE 6 s.taiSec ++ [0, 0] ++ bytesLE 3 s.ao.pcc ++ [0] ++
      prev
    let r := b ++ bytesLE 4 (crc32c b)
    (s.storePut 4 (4 + n / 128) (overlay (s.storeGet 4 (4 + n / 128)) (32 * (n % 128)) r)).setF Reg.NDL_CNT_LOG_PROD
      Fld.NDL_CNT_LOG_PROD_COUNT (n + 1)
  else s

/-- The record, the notice and the log of an accepted change (R443 step 4). -/
def State.cntLog (s : State) (setting flags value kind : Nat) : State :=
  let left := s.cntLeft setting kind
  (s.chgAppend setting flags left value kind).report 0x8105 2 (blockPath 8 2) [setting, left]

/-- Spend one unseal count for the totaliser (R328, R446). -/
def State.unsealSpend (s : State) : State :=
  (s.hoopMod (fun h => { h with unsealUsed := h.unsealUsed + 1 })).cntLog 5 0 0 0

/-- Raise a rollback floor by steps (R443, R460): entries programmed, `fail` = the readback failed. -/
def State.floorRaise (s : State) (kind steps : Nat) (fail : Bool) : State :=
  s.hoopMod (fun h => { h with
    floorUsed := h.floorUsed.set kind (h.floorUsed.getD kind 0 + steps)
    floors := if fail then h.floors else h.floors.set kind (h.floors.getD kind 0 + steps) })

/-! ## The start's part (R424, R435, R441). -/

/-- The identity image in bytes. -/
def State.identity (s : State) : Bytes := (List.range 4).flatMap (fun k => bytesLE 4 (s.num (Reg.NDL_ID k)))

/-- The hoop at a release from reset: SRAM zeroed, expired and volatile slots destroyed, the vault loaded, device keys derived,
the identity CRC checked. `pon` tells PONRST_N from a warm reset. While debug is open the vault and the keys are withheld
(R445). -/
def State.hoopStart (s : State) (pon : Bool) : State :=
  let t := s.hoopMod (fun h => { h with
    sram := [], op := none, cnt := none
    debugOpen := h.debugOpen && !pon
    slots := h.slots.filter (fun e => decide (e.1 < 16) && !attrBit e.2.attr 17 || e.2.broken) })
  let t := if t.hoop.debugOpen then t else (t.when pon (fun u => u.hoopMod (fun h => { h with slots := [] }))).vaultLoad.deviceKeys
  let bad := decide (u16 t.identity 14 ≠ crc16 (t.identity.take 14))
  (t.hoopMod (fun h => { h with idBad := bad, vaultBusy := none })).when bad
    (fun u => u.report 0x8103 6 (blockPath 8 1) [2, 0, 0])

end Sys2Proof.Machine
end

