-- ==== Sys2Proof/Machine/Hoop.lean ====
section
/-! DEFINITION. Sys2Proof/Machine/Hoop.lean: Needlecase operations and counted settings (chapter "Hoop trust domain, Needlecase,
identity and counted settings"). -/

namespace Sys2Proof.Machine

/-! ## Needlecase operations (R432). -/

/-- Address of the buffer. -/
def State.ndlBuf (s : State) : Nat :=
  s.getF Reg.NDL_BUF_LO Fld.NDL_BUF_LO_ADDR_LO * 16 + s.getF Reg.NDL_BUF_HI Fld.NDL_BUF_HI_ADDR_HI * 2 ^ 32

/-- Does the buffer have n bytes of DRAM? -/
def State.ndlRoom (s : State) (n : Nat) : Bool := decide (s.ndlBuf + n ≤ s.dramFit)

/-- LEN. -/
def State.ndlLen (s : State) : Nat := s.getF Reg.NDL_LEN Fld.NDL_LEN_LEN

/-- Why slot n may not be used with use bit b: 0 = it may (R430, R433, R434). -/
def State.ndlUse (s : State) (n b : Nat) : Nat :=
  let k := s.ndl n
  if k.broken then 11
  else if !attrBit k.attr 31 then 2
  else if !attrBit k.attr b then 5
  else if attrBit k.attr 16 ∧ k.count = 0 then 6
  else 0

/-- One use of slot n: a limited slot's counter falls. -/
def State.ndlSpend (s : State) (n : Nat) : State :=
  let k := s.ndl n
  if attrBit k.attr 16 then s.ndlPut n { k with count := k.count - 1 } else s

/-- Slot to destroy when the use completes: its counter has come to 0. -/
def State.ndlSpent (s : State) (n : Nat) : Option Nat :=
  let k := s.ndl n
  if attrBit k.attr 16 ∧ k.count = 0 then some n else none

/-- Is slot n, about to be used, to be destroyed in the vault too: a persistent slot at its last use (R433, R434)? -/
def State.ndlLastUse (s : State) (n : Nat) : Bool :=
  attrBit (s.ndl n).attr 16 && attrBit (s.ndl n).attr 18 && decide ((s.ndl n).count = 1)

/-- Is debug open, or being opened (R445)? From its first step on, every operation but INFO is refused (log entry 198). -/
def State.ndlDebug (s : State) : Bool := s.hoop.debugOpen || s.hoop.cnt.any (fun c => decide (c.setting = 4))

/-- Start an operation: GO is ignored while BUSY; a code from `chk` refuses it; otherwise `run` gives the state and the
operation under way. `vault` is whether it writes the vault, which PFAIL_N low refuses (code 13). -/
def State.ndlGo (s : State) (op slot param chk : Nat) (vault : Bool) (run : State → State × NdlOp) : State :=
  if s.isF Reg.NDL_CMD Fld.NDL_CMD_BUSY || s.noGrant 8 1 then s
  else
    let t := (((s.setF Reg.NDL_CMD Fld.NDL_CMD_OP op).setF Reg.NDL_CMD Fld.NDL_CMD_SLOT slot).setF Reg.NDL_CMD
      Fld.NDL_CMD_PARAM param).setF Reg.NDL_CMD Fld.NDL_CMD_BUSY 1
    let code := if s.ndlDebug ∧ op ≠ 1 then 9 else if vault ∧ s.pins.pfail then 13 else chk
    if code ≠ 0 then t.hoopMod (fun h => { h with op := some { op := op, slot := slot % 512, code := code } })
    else
      let (u, o) := run t
      u.hoopMod (fun h => { h with op := some o })

/-- An operation that OP does not name: code 1. -/
def State.ndlBadOp (s : State) (op slot param : Nat) : State := s.ndlGo op slot param 1 false (fun t => (t, { op := op, slot := slot }))

/-- NDL_INFO. -/
def execNdlInfo (slot : Nat) (s : State) : Host.Outcome State Fault Refusal :=
  let n := slot % 512
  ok (s.ndlGo 1 n 0 0 false (fun t =>
    (t, { op := 1, slot := n, res := bytesLE 4 (t.ndl n).attr ++ bytesLE 4 (t.ndl n).count })))

/-- Why a new key may not go into slot n with attribute word a: 0 = it may. `general` is for GENERATE and DECAP. -/
def State.ndlTarget (s : State) (n a cnt : Nat) (general : Bool) : Nat :=
  let k := s.ndl n
  if n = 8 ∨ n = 11 ∨ n = 12 then 12
  else if (13 ≤ n ∧ n ≤ 15) ∨ (general ∧ n < 16) then 5
  else if k.broken then 11
  else if attrBit k.attr 31 ∧ (general ∨ 8 ≤ n) then 3
  else if !attrOk n a cnt then 4
  else 0

/-- NDL_GENERATE: a random key of KIND. -/
def execNdlGenerate (slot : Nat) (s : State) : Host.Outcome State Fault Refusal :=
  let n := slot % 512
  let a := attrTaken (s.num Reg.NDL_ATTR)
  let cnt := s.getF Reg.NDL_COUNT Fld.NDL_COUNT_COUNT
  ok (s.ndlGo 2 n 0 (s.ndlTarget n a cnt true) false (fun t =>
    let (u, key) := t.random (kindLen (attrKind a))
    (u.ndlPut n (ndlLoad a cnt key), { op := 2, slot := n })))

/-- NDL_UNWRAP: a blob is decrypted into a slot; a DMK load invalidates its domain's cache entries before it installs the key, and a
lane that has fetched its key finishes its frame with it (R436). -/
def execNdlUnwrap (slot param : Nat) (s : State) : Host.Outcome State Fault Refusal :=
  let n := slot % 512
  let w := param % 512
  let a := attrTaken (s.num Reg.NDL_ATTR)
  let cnt := s.getF Reg.NDL_COUNT Fld.NDL_COUNT_COUNT
  let kl := kindLen (attrKind a)
  let blob := s.rdMem s.ndlBuf (28 + kl)
  let pt := gcmOpen 16 (s.ndl w).key (blob.take 12) (bytesLE 4 a) (slice blob 12 kl) (slice blob (12 + kl) 16)
  let tgt := s.ndlTarget n a cnt false
  let use := s.ndlUse w 6
  let chk := if tgt ≠ 0 then tgt else if use ≠ 0 then use else if attrKind a = 5 then 4
    else if s.ndlLen ≠ 28 + kl ∨ !s.ndlRoom (28 + kl) then 8 else if pt.isNone then 7 else 0
  let vault := attrBit a 18 || s.ndlLastUse w
  ok (s.ndlGo 3 n w chk vault (fun t =>
    let u := t.when (decide (n < 8)) (fun x => x.kcDrop n)
    let v := (u.ndlSpend w).ndlPut n (ndlLoad a cnt (pt.getD []))
    (v, { op := 3, slot := n, spent := v.ndlSpent w, vault := vault, undo := [(w, s.ndl w), (n, s.ndl n)] })))

/-- NDL_DESTROY: the slot is overwritten and emptied; `bad` says that a readback differs (R434). -/
def execNdlDestroy (slot : Nat) (bad : Bool) (s : State) : Host.Outcome State Fault Refusal :=
  let n := slot % 512
  let k := s.ndl n
  let chk := if k.broken then 11 else if attrBit k.attr 19 ∨ n = 8 ∨ n = 11 ∨ n = 12 then 12
    else if !attrBit k.attr 31 then 2 else 0
  let vault := attrBit k.attr 18
  ok (s.ndlGo 4 n 0 chk vault (fun t =>
    (t.ndlWipe n bad, { op := 4, slot := n, vault := vault, undo := if bad then [] else [(n, k)] })))

/-- NDL_SIGN: slot 8 signs a message; the signature follows it in the buffer. -/
def execNdlSign (slot : Nat) (s : State) : Host.Outcome State Fault Refusal :=
  let n := slot % 512
  let len := s.ndlLen
  let use := if n ≠ 8 then 5 else s.ndlUse n 5
  let chk := if use ≠ 0 then use else if len = 0 ∨ 65536 < len ∨ !s.ndlRoom (len + 17088) then 8 else 0
  ok (s.ndlGo 5 n 0 chk false (fun t =>
    (t, { op := 5, slot := n, addr := s.ndlBuf + len,
          res := padTo 17088 (Config.slhSign (s.ndl n).key (s.rdMem s.ndlBuf len)) })))

/-- NDL_HMAC: a tag over the data at the buffer. -/
def execNdlHmac (slot : Nat) (s : State) : Host.Outcome State Fault Refusal :=
  let n := slot % 512
  let use := s.ndlUse n 4
  let chk := if use ≠ 0 then use else if !s.ndlRoom s.ndlLen then 8 else 0
  ok (s.ndlGo 6 n 0 chk (s.ndlLastUse n) (fun t =>
    let u := t.ndlSpend n
    (u, { op := 6, slot := n, res := hmac (s.ndl n).key (s.rdMem s.ndlBuf s.ndlLen), spent := u.ndlSpent n,
          vault := s.ndlLastUse n, undo := [(n, s.ndl n)] })))

/-! ## Attestation (R439). -/

/-- The running container of a kind 0 or 1. -/
def State.runOf (s : State) (kind : Nat) : RunCont := (s.upd.run.find? (fun c => decide (c.kind = kind))).getD { kind := kind }

/-- STRUCT_DIGEST: every pricked block's hash in ascending path. -/
def State.structDigest (s : State) : Bytes := sha256 (s.fab.built.flatMap (fun e => e.2.hash))

/-- The 256-byte body of a quote. -/
def State.quoteBody (s : State) (nonce : Bytes) (len : Nat) : Bytes :=
  let fl := s.hoop.debugOpen.toNat + 2 * (decide (0 < s.hoop.debugUsed)).toNat + 4 * s.ao.sealOpen.toNat + 8 * s.session.toNat +
    16 * (decide (s.getF Reg.CHIP_ID Fld.CHIP_ID_GRADE = 1)).toNat
  padTo 256 (bytesLE 4 0x51544341 ++ bytesLE 2 1 ++ [fl, s.hoop.pairRole] ++ bytesLE 4 (s.num Reg.INK_OWN_TITLE_LO) ++
    bytesLE 4 (s.num Reg.INK_OWN_TITLE_HI) ++ (if s.hoop.idBad then List.replicate 16 0 else s.identity) ++ s.hoop.domainId ++
    [len, s.cntLeft 5 0, s.cntLeft 1 0, s.cntLeft 4 0] ++ (List.range 4).map s.floor ++ bytesLE 6 s.taiSec ++ [s.cntLeft 3 0, 0] ++
    padTo 32 (nonce.take len) ++ bytesLE 4 s.ao.pcc ++ bytesLE 4 (u32 s.tot.live 124) ++ bytesLE 4 (s.runOf 0).version ++
    bytesLE 4 (s.runOf 1).version ++ padTo 32 (s.runOf 0).hash ++ padTo 32 (s.runOf 1).hash ++ s.structDigest ++
    bytesLE 4 (s.num Reg.NDL_KEYID_LO) ++ bytesLE 4 (s.num Reg.NDL_KEYID_HI) ++ sha256 (Config.kemPublic (s.ndl 11).key))

/-- A quote over a nonce of len bytes: signed by slot 8. -/
def State.quoteSigned (s : State) (nonce : Bytes) (len : Nat) : Bytes :=
  let b := s.quoteBody nonce len
  b ++ padTo 17088 (Config.slhSign (s.ndl 8).key b)

/-- The nonce window NDL_DATA. -/
def State.ndlData (s : State) (words : Nat) : Bytes := (List.range words).flatMap (fun k => bytesLE 4 (s.num (Reg.NDL_DATA k)))

/-- NDL_QUOTE: a signed quote, or one under an ATTEST slot. -/
def execNdlQuote (param : Nat) (s : State) : Host.Outcome State Fault Refusal :=
  let w := param % 512
  let len := s.ndlLen
  let signed := decide (w = 0x1FF)
  let use := if signed then s.ndlUse 8 5 else s.ndlUse w 1
  let chk := if use ≠ 0 then use else if 32 < len ∨ !s.ndlRoom (if signed then 17344 else 288) then 8 else 0
  ok (s.ndlGo 7 0 w chk (!signed && s.ndlLastUse w) (fun t =>
    if signed then (t, { op := 7, slot := 0, addr := s.ndlBuf, res := s.quoteSigned (s.ndlData 8) len })
    else
      let u := t.ndlSpend w
      let b := s.quoteBody (s.ndlData 8) len
      (u, { op := 7, slot := 0, addr := s.ndlBuf, res := b ++ hmac (s.ndl w).key b, spent := u.ndlSpent w,
            vault := s.ndlLastUse w, undo := [(w, s.ndl w)] })))

/-- NDL_PUBKEY: slot 8's or 11's public key. -/
def execNdlPubkey (slot : Nat) (s : State) : Host.Outcome State Fault Refusal :=
  let n := slot % 512
  let len := if n = 8 then 32 else 1184
  let chk := if n ≠ 8 ∧ n ≠ 11 then 5 else if !s.ndlRoom len then 8 else 0
  ok (s.ndlGo 8 n 0 chk false (fun t =>
    (t, { op := 8, slot := n, addr := s.ndlBuf,
          res := padTo len (if n = 8 then Config.slhPublic (s.ndl 8).key else Config.kemPublic (s.ndl 11).key) })))

/-- NDL_DECAP: an ML-KEM shared secret becomes an AES-256 key in a general slot. -/
def execNdlDecap (slot : Nat) (s : State) : Host.Outcome State Fault Refusal :=
  let n := slot % 512
  let a := attrTaken (s.num Reg.NDL_ATTR)
  let cnt := s.getF Reg.NDL_COUNT Fld.NDL_COUNT_COUNT
  let tgt := s.ndlTarget n a cnt true
  let chk := if tgt ≠ 0 then tgt else if attrKind a ≠ 2 then 4 else if !s.ndlRoom 1088 then 8 else 0
  ok (s.ndlGo 9 n 0 chk false (fun t =>
    (t.ndlPut n (ndlLoad a cnt (padTo 32 (Config.kemDecap (s.ndl 11).key (s.rdMem s.ndlBuf 1088)))), { op := 9, slot := n })))

/-- An operation ends with ERR and a code. -/
def State.ndlFail (s : State) (code : Nat) : State :=
  ((s.raiseF Reg.NDL_STAT Fld.NDL_STAT_ERR).setF Reg.NDL_STAT Fld.NDL_STAT_CODE code).raiseF Reg.NDL_INT_STAT
    Fld.NDL_INT_STAT_FAIL

/-- An operation ends with DONE. -/
def State.ndlOk (s : State) : State :=
  ((s.raiseF Reg.NDL_STAT Fld.NDL_STAT_DONE).setF Reg.NDL_STAT Fld.NDL_STAT_CODE 0).raiseF Reg.NDL_INT_STAT
    Fld.NDL_INT_STAT_DONE

/-- The results of an operation go to their registers or to the buffer. -/
def State.ndlResult (s : State) (o : NdlOp) : State :=
  match o.op with
  | 1 => (s.wrN Reg.NDL_ATTR (u32 o.res 0)).wrN Reg.NDL_COUNT (u32 o.res 4)
  | 6 => s.each (List.range 8) (fun k t => t.wrN (Reg.NDL_DATA k) (u32 o.res (4 * k)))
  | _ => if o.res.isEmpty then s else s.wrMem o.addr o.res

/-- NDL_OP_COMPLETE: the operation under way ends. One that writes the vault waits for a vault erase to end, and for a lost time base to
return (R43); `vaultFail` says
that the vault copy could not be written, `bad` that a spent slot's overwrite reads back wrong. -/
def execNdlOpComplete (vaultFail bad : Bool) (s : State) : Host.Outcome State Fault Refusal :=
  match s.hoop.op with
  | none => ok s
  | some o =>
    let t := (s.hoopMod (fun h => { h with op := none })).setF Reg.NDL_CMD Fld.NDL_CMD_BUSY 0
    if o.code ≠ 0 then ok (t.ndlFail o.code)
    else if o.vault ∧ (s.hoop.vaultBusy.isSome ∨ s.tbLost) then ok s
    else if o.vault ∧ vaultFail then ok ((t.each o.undo (fun e u => u.ndlPut e.1 e.2)).ndlFail 10)
    else
      let u := t.ndlResult o
      let v := match o.spent with
        | none => u
        | some n => u.ndlWipe n bad
      ok (v.when o.vault State.vaultWrite).ndlOk

/-- VAULT_ERASE_DONE: the older vault block is blank. The erase waits while the time base is lost (R43). -/
def execVaultEraseDone (s : State) : Host.Outcome State Fault Refusal :=
  match s.hoop.vaultBusy with
  | none => ok s
  | some p => ok (if s.tbLost then s else ((s.norErase p 16).hoopMod (fun h => { h with vaultBusy := none })).setF Reg.NDL_STAT
      Fld.NDL_STAT_VAULT_BUSY 0)

/-! ## Counted settings (R442–R445). -/

/-- A counted change ends refused or failed. -/
def State.cntFail (s : State) (code : Nat) : State :=
  ((s.raiseF Reg.NDL_CNT_STAT Fld.NDL_CNT_STAT_ERR).setF Reg.NDL_CNT_STAT Fld.NDL_CNT_STAT_CODE code).raiseF Reg.NDL_INT_STAT
    Fld.NDL_INT_STAT_CNT_DONE

/-- Start a counted change: GO is ignored while BUSY; the refusals of R443 step 1 in the order of their codes, then `run`. -/
def State.cntGo (s : State) (c : CntOp) (need : Nat) (valid grade : Bool) (run : State → State) : State :=
  if s.isF Reg.NDL_CNT_CMD Fld.NDL_CNT_CMD_BUSY || s.noGrant 8 2 then s
  else
    let t := ((s.setF Reg.NDL_CNT_CMD Fld.NDL_CNT_CMD_SETTING c.setting).setF Reg.NDL_CNT_CMD Fld.NDL_CNT_CMD_KIND
      c.kind).setF Reg.NDL_CNT_CMD Fld.NDL_CNT_CMD_VALUE c.value
    if c.setting = 0 ∨ 4 < c.setting then t.cntFail 6
    else if s.cntLeft c.setting c.kind < need then t.cntFail 1
    else if !valid then t.cntFail 2
    else if !grade then (t.cntFail 3).report 0x0007 3 0x0FFF []
    else if s.pins.pfail then t.cntFail 4
    else ((run t).hoopMod (fun h => { h with cnt := some c })).setF Reg.NDL_CNT_CMD Fld.NDL_CNT_CMD_BUSY 1

/-- Entries that a change programs. -/
def CntOp.need (c : CntOp) : Nat := if c.setting = 2 then c.value else 1

/-- CNT_DOMAIN_IDENTITY: every slot that is not FIXED is destroyed and both vault blocks are erased before the new identity is
programmed (R444). -/
def execCntDomainIdentity (s : State) : Host.Outcome State Fault Refusal :=
  let id := (List.range 4).flatMap (fun k => bytesLE 4 (s.num (Reg.NDL_CNT_ARG k)))
  ok (s.cntGo { setting := 1, arg := id } 1 (decide (id ≠ List.replicate 16 0 ∧ id ≠ s.hoop.domainId)) true (fun t =>
    let u := t.each ((t.hoop.slots.filter (fun e => !attrBit e.2.attr 19 && !e.2.broken)).map (·.1)) (fun n x => x.ndlWipe n false)
    (((u.inkMod (fun i => { i with kc := [] })).norErase (vaultPage 0) 16).norErase (vaultPage 1) 16)))

/-- CNT_ROLLBACK_FLOOR. -/
def execCntRollbackFloor (kind steps : Nat) (s : State) : Host.Outcome State Fault Refusal :=
  ok (s.cntGo { setting := 2, kind := kind % 4, value := steps % 256 } (steps % 256)
    (decide (1 ≤ steps % 256 ∧ steps % 256 ≤ 64)) true (fun t => t))

/-- CNT_PAIR_ROLE_LOCK. -/
def execCntPairRoleLock (role : Nat) (s : State) : Host.Outcome State Fault Refusal :=
  ok (s.cntGo { setting := 3, value := role % 256 } 1 (decide (role % 256 ≤ 3))
    (decide (s.getF Reg.CHIP_ID Fld.CHIP_ID_GRADE = 1)) (fun t => t))

/-- CNT_DEBUG_OPEN: the derived-key cache, running derivations and lanes' keys are abandoned and every slot is overwritten before
the count is programmed (R445). A Needlecase operation under way, other than INFO, ends with code 9, and the vault stays as it is (log
entry 198). -/
def execCntDebugOpen (s : State) : Host.Outcome State Fault Refusal :=
  ok (s.cntGo { setting := 4 } 1 true true (fun t =>
    (t.inkMod (fun i => { i with
      kc := [], deriv := []
      lanes := i.lanes.map (fun e => (e.1, e.2.map (fun j => match j with
        | .frame f => .frame { f with key := none }
        | .protect a d g _ => .protect a d g none))) })).hoopMod (fun h => { h with
          slots := h.slots.filter (fun e => e.2.broken)
          op := h.op.map (fun o => if o.op = 1 ∨ o.code ≠ 0 then o else { o with code := 9 }) })))

/-- The values that a programmed change leaves; `fail` spends the count alone. -/
def State.cntProgram (s : State) (c : CntOp) (fail : Bool) : State :=
  match c.setting with
  | 1 =>
    let t := s.hoopMod (fun h => { h with domainUsed := h.domainUsed + 1, domainId := if fail then h.domainId else c.arg })
    if fail || s.hoop.debugOpen then t else t.deviceKeys
  | 2 => s.floorRaise c.kind c.value fail
  | 3 => s.hoopMod (fun h => { h with pairUsed := h.pairUsed + 1, pairRole := if fail then h.pairRole else c.value })
  | 4 => s.hoopMod (fun h => { h with debugUsed := h.debugUsed + 1, debugOpen := h.debugOpen || !fail })
  | _ => s

/-- CNT_CHANGE_DONE: the entries are programmed and read back; `fail` says that the readback failed (R443 steps 3–5). A COMMIT may
have raised the same floor meanwhile (R460): where too little count is left by now, the change is refused with code 1. -/
def execCntChangeDone (fail : Bool) (s : State) : Host.Outcome State Fault Refusal :=
  match s.hoop.cnt with
  | none => ok s
  | some c =>
    let t := (s.hoopMod (fun h => { h with cnt := none })).setF Reg.NDL_CNT_CMD Fld.NDL_CNT_CMD_BUSY 0
    if s.cntLeft c.setting c.kind < c.need then ok (t.cntFail 1) else
    let t := t.cntProgram c fail
    let v := if c.setting = 2 ∨ c.setting = 3 then c.value else 0
    let k := if c.setting = 2 then c.kind else 0
    if fail then
      ok (((t.chgAppend c.setting 2 (t.cntLeft c.setting c.kind) v k).report 0x8103 6 (blockPath 8 2)
        ([3] ++ bytesLE 2 c.setting)).cntFail 5)
    else
      ok ((((t.cntLog c.setting 0 v k).raiseF Reg.NDL_CNT_STAT Fld.NDL_CNT_STAT_DONE).setF Reg.NDL_CNT_STAT
        Fld.NDL_CNT_STAT_CODE 0).raiseF Reg.NDL_INT_STAT Fld.NDL_INT_STAT_CNT_DONE)

/-- Entries of a setting that the change log holds. -/
def State.chgLogged (s : State) (setting kind : Nat) : Nat :=
  ((List.range s.chgCount).map (fun i =>
    let b := s.chgAt i
    if u8 b 2 = setting ∧ u8 b 6 = kind then (if setting = 2 then u8 b 5 else 1) else 0)).sum

/-- Append the records that the log lacks of a setting, one per entry (R446). -/
def State.chgRecover (s : State) (setting kind : Nat) : State :=
  let have_ := s.chgLogged setting kind
  s.each (List.range (s.cntUsed setting kind - have_)) (fun i t =>
    t.chgAppend setting 1 (cntLimit setting - (have_ + i + 1)) (if setting = 2 then 1 else if setting = 3 then t.hoop.pairRole else 0)
      kind)

/-- CHANGE_LOG_RECONCILE: at PHASE 6 NDL_CNT_LOG_PROD is set from the log, and missing records are appended (R446). -/
def execChangeLogReconcile (s : State) : Host.Outcome State Fault Refusal :=
  if s.phase = 6 then
    let t := s.setF Reg.NDL_CNT_LOG_PROD Fld.NDL_CNT_LOG_PROD_COUNT s.chgCount
    ok (t.each [(1, 0), (2, 0), (2, 1), (2, 2), (2, 3), (3, 0), (4, 0), (5, 0)] (fun c u => u.chgRecover c.1 c.2))
  else ok s

/-! ## What the hoop's read-only registers show. -/

/-- NDL_CNT_LEFT. -/
def State.cntLeftWord (s : State) : Word :=
  word (s.cntLeft 5 0 * 2 ^ 27 + s.cntLeft 1 0 * 2 ^ 24 + s.cntLeft 3 0 * 2 ^ 22 + s.cntLeft 4 0 * 2 ^ 20 +
    s.hoop.pairRole % 4 * 2 ^ 18 + s.hoop.debugOpen.toNat * 2 ^ 17 + (decide (0 < s.hoop.debugUsed)).toNat * 2 ^ 16)

/-- NDL_CNT_FLOOR. -/
def State.cntFloorWord (s : State) : Word :=
  word (s.floor 3 * 2 ^ 24 + s.floor 2 * 2 ^ 16 + s.floor 1 * 2 ^ 8 + s.floor 0)

/-- NDL_CNT_DOMAIN_k. -/
def State.cntDomainWord (s : State) (k : Nat) : Word := word (u32 s.hoop.domainId (4 * k))

end Sys2Proof.Machine
end

