-- ==== Sys2Proof/Machine/Intake.lean ====
section
/-! DEFINITION. Sys2Proof/Machine/Intake.lean: the commands of intake (R198–R226). -/

namespace Sys2Proof.Machine

/-! ## Sources and the arbiter (R198–R201). -/

/-- Must work bound for the firmware ring wait at its source? -/
def State.fwBlocked (s : State) : Bool := s.fwFull && !s.ink.fwq.isEmpty

/-- Does intake take port n's packets (R198)? -/
def State.portTaken (s : State) (n : Nat) : Bool :=
  decide (s.persona n ≠ 0) && s.portEn n && !s.isF (Reg.PORT_CTL n) Fld.PORT_CTL_RX_SINK

/-- Needs the oldest packet of port n a lane, if there is one: KIND 0, or CTYPE 0 of a cascade port (R198)? -/
def State.needsLane (s : State) (n : Nat) : Option Bool :=
  (s.port n).rxq.head?.map (fun k => if s.persona n = 4 then decide (u8 k.bytes 0 = 0) else decide (u16 k.bytes 0 / 2 ^ 14 = 0))

/-- Has port n a packet for a lane that intake may take now (R175, R198)? -/
def State.portReady (s : State) (n : Nat) : Bool := s.portTaken n && decide (s.needsLane n = some true)

/-- Has port n a packet that goes straight to the firmware ring now (R198)? -/
def State.ringReady (s : State) (n : Nat) : Bool := s.portTaken n && decide (s.needsLane n = some false) && !s.fwBlocked

/-- Is a line, air or air-member port ready? -/
def State.directReady (s : State) (n : Nat) : Bool := s.portReady n && decide (s.persona n ≠ 4)

/-- Grants per round of ingest position p: cascade port p, or queue p − 64 (R200). -/
def State.ingWeight (s : State) (p : Nat) : Nat :=
  if p < 64 then s.getF Reg.INK_CTL Fld.INK_CTL_CAS_WEIGHT else s.getF (Reg.INK_ING (p - 64)) Fld.INK_ING_WEIGHT

/-- Has ingest position p work and weight? -/
def State.ingReady (s : State) (p : Nat) : Bool :=
  if p < 64 then s.portReady p && decide (s.persona p = 4)
  else decide (0 < s.ingWeight p) && !(s.ingq (p - 64)).isEmpty

/-- The next of m positions after k, in rotation, that p holds of. -/
def rotNext (m k : Nat) (p : Nat → Bool) : Option Nat := ((List.range m).map (fun i => (k + 1 + i) % m)).find? p

/-- Frame inside an ingest entry (R199). -/
def State.ingFrame (s : State) (q : Nat) (e : Bytes) : IFrame :=
  { bytes := (e.drop 16).take (u16 e 0), kind := 2, src := 64 + q, origin := u32 e 4, ref := u32 e 12,
    resend := decide (u8 e 2 % 2 = 1), session := u8 e 3 % 64, rxTime := s.now }

/-- Take the oldest packet of port n, after the comparison of its pointers (R179). A packet that needs no lane goes to the
firmware ring's queue. -/
def State.takePort (s : State) (n : Nat) : State × Option IFrame :=
  let t := s.ptrCheck n false
  match (t.port n).rxq with
  | [] => (t, none)
  | k :: _ => (t.rxPop n).packetIn n k.bytes

/-- Take the oldest entry of queue q. -/
def State.takeIng (s : State) (q : Nat) : State × Option IFrame :=
  match s.ingq q with
  | [] => (s, none)
  | e :: r => (s.inkMod (fun i => { i with ingq := tset (fun _ => []) i.ingq q r }), some (s.ingFrame q e))

/-- Packets of port n that need no lane go straight to the firmware ring, at most k of them (R198). -/
def State.ringPass (s : State) (n k : Nat) : State :=
  match k with
  | 0 => s
  | j + 1 => if s.ringReady n then (s.takePort n).1.ringPass n j else s

/-- Every port's work that needs no lane goes straight to the firmware ring. -/
def State.ringPassAll (s : State) : State := s.each (List.range 64) (fun n t => t.ringPass n (t.port n).rxq.length)

/-- Does a returned or released job belong to the ingest pool? -/
def jobIng (j : LaneJob) : Bool :=
  match j with
  | .frame f => decide (f.kind ≠ 0)
  | .protect _ _ _ _ => false

/-- Port pool: the next port in round robin. -/
def State.nextPort (s : State) : Option Nat := rotNext 64 s.ink.rrPort s.directReady

/-- Ingest pool: the position served next, with the grants left at it after this one. -/
def State.nextIng (s : State) : Option (Nat × Nat) :=
  if s.ink.rrLeft ≠ 0 ∧ s.ingReady s.ink.rrIng then some (s.ink.rrIng, s.ink.rrLeft - 1)
  else (rotNext 80 s.ink.rrIng s.ingReady).map (fun p => (p, s.ingWeight p - 1))

/-! ## Slot lookup, the key, and the lane. -/

/-- The slot of a frame: by network address from a direct port, else by title (R206, R215). -/
def State.frameSlot (s : State) (f : IFrame) : Option Nat :=
  if f.kind = 0 then s.lookupAddr f.naddr else s.lookupTitle (padTo 8 (slice f.bytes 2 8))

/-- Is domain d's grace window open (R216)? -/
def State.graceOpen (s : State) (d : Nat) : Bool :=
  let g := s.num (Reg.INK_GRACE_END d)
  decide (g ≠ 0) && !fired (s.taiSec % 2 ^ 32) g

/-- May generation g verify a frame of a slot with entry e? -/
def State.genAllowed (s : State) (e : Bytes) (g : Nat) : Bool :=
  decide (g = msmGen e) || (decide (g = (msmGen e + 15) % 16) && msmPrevOk e && s.graceOpen (msmDomain e))

/-- Generations that a lane tries, in order: LAST_GEN, then the other allowed one (R216). -/
def State.gens (s : State) (slot : Nat) : List Nat :=
  let e := s.msmAt slot
  let last := u8 (s.xrec slot) 7 % 16
  (last :: [msmGen e, (msmGen e + 15) % 16].filter (fun g => decide (g ≠ last))).filter (s.genAllowed e)

/-- Ask for the key of the next generation to try, if the domain has a master key. -/
def State.frameKey (s : State) (f : IFrame) : State × IFrame :=
  match f.slot with
  | none => (s, f)
  | some n =>
    match (s.gens n).find? (fun g => !f.tried.contains g), s.dmk (msmDomain (s.msmAt n)) with
    | some g, some _ =>
      let (t, k) := s.keyAsk n g false
      (t, { f with gen := g, key := k })
    | _, _ => (s, f)

/-- A frame enters lane l. -/
def State.laneTake (s : State) (l : Nat) (f : IFrame) : State :=
  let (t, g) := s.frameKey f
  t.setLane l (t.laneJobs l ++ [.frame g])

/-- What the arbiter granted before a job it takes now: all that it holds and has back, or, where the job comes from its own queue, what
stands there before it. -/
def State.ahead (s : State) (old : Option LaneJob) : List LaneJob :=
  match old with
  | none => s.ink.back ++ s.ink.holds
  | some j => s.ink.back.takeWhile (fun x => decide (x ≠ j))

/-- Must a job of slot n wait behind what was granted before it (R201)? -/
def State.mustHold (s : State) (n : Nat) (ahead : List LaneJob) : Bool :=
  s.slotBusy n || s.opHolds n || ahead.any (fun j => decide (jobSlot j = some n))

/-- Put a job in the hold list: one from the arbiter's own queue before the later ones of its slot. A full list leaves everything as it was
in s. -/
def State.holdPut (s t : State) (j : LaneJob) (old : Bool) : State :=
  if 4096 ≤ t.ink.holds.length then s
  else t.inkMod (fun i => { i with holds := if old then j :: i.holds else i.holds ++ [j] })

/-- A frame just taken is looked up and goes to lane l or to the hold list. -/
def State.grantFrame (s t : State) (l : Nat) (f : IFrame) (err : Bool) (old : Option LaneJob) : State :=
  let g := { f with slot := t.frameSlot f, tblErr := err }
  match g.slot with
  | none => t.laneTake l g
  | some n => if t.mustHold n (s.ahead old) then s.holdPut t (.frame g) old.isSome else t.laneTake l g

/-! ## Protect requests (R221). -/

/-- Address of protect descriptor i. -/
def State.protA (s : State) (i : Nat) : Nat := s.addr64 Reg.INK_PROT_BASE_LO Reg.INK_PROT_BASE_HI 12 + 32 * i

/-- The index of the next protect descriptor, if firmware has made one ready. -/
def State.protReady (s : State) : Option Nat :=
  let c := s.getF Reg.INK_PROT_HEAD Fld.INK_PROT_HEAD_CONS
  if c ≠ s.getF Reg.INK_PROT_HEAD Fld.INK_PROT_HEAD_PROD ∧ s.rdByte (s.protA c + 6) / 128 = 1 then some c else none

/-- A key for a protect request of slot n, if the domain has a master key (R222). -/
def State.protKey (s : State) (n g : Nat) : State × Option Bytes :=
  match s.dmk (msmDomain (s.msmAt n)) with
  | some _ => s.keyAsk n g true
  | none => (s, none)

/-- A protect request just taken goes to lane l or to the hold list, as a frame of its slot does (R201, R222). -/
def State.grantProt (s t : State) (l i : Nat) (d : Bytes) (old : Option LaneJob) : State :=
  let n := u32 d 0 % 2 ^ 20
  let g := msmGen (t.msmAt n)
  if t.mustHold n (s.ahead old) then s.holdPut t (.protect i d g none) old.isSome
  else
    let (u, k) := t.protKey n g
    u.setLane l (u.laneJobs l ++ [.protect i d g k])

/-- The next protect request is taken from its ring, at index i (R221). -/
def State.grantProtect (s : State) (l i : Nat) : State :=
  let t := (s.setF Reg.INK_PROT_HEAD Fld.INK_PROT_HEAD_CONS
    ((i + 1) % 2 ^ s.getF Reg.INK_PROT_BASE_LO Fld.INK_PROT_BASE_LO_PRING_LOG2)).inkMod (fun x => { x with rrProt := false })
  s.grantProt t l i (s.rdMem (s.protA i) 32) none

/-- A job of the arbiter's own queue is granted to lane l. -/
def State.grantBack (s : State) (l : Nat) (j : LaneJob) (err : Bool) : State :=
  let t := s.inkMod (fun i => { i with back := i.back.erase j })
  match j with
  | .frame f => s.grantFrame t l f err (some j)
  | .protect i d _ _ => s.grantProt t l i d (some j)

/-- A grant to lane l of the port pool: returned jobs first; ports in round robin; port frames and protect requests
alternate while both wait (R200). -/
def State.grantPort (s : State) (l : Nat) (err : Bool) : State :=
  match s.ink.back.find? (fun j => !jobIng j) with
  | some j => s.grantBack l j err
  | none =>
    match s.nextPort, s.protReady with
    | none, none => s
    | none, some i => s.grantProtect l i
    | some n, p =>
      match p, s.ink.rrProt with
      | some i, true => s.grantProtect l i
      | _, _ =>
        let (t, f) := s.takePort n
        let t := t.inkMod (fun x => { x with rrPort := n, rrProt := p.isSome })
        match f with
        | none => t
        | some f => s.grantFrame t l f err none

/-- A grant to lane l of the ingest pool (R200). -/
def State.grantIng (s : State) (l : Nat) (err : Bool) : State :=
  match s.ink.back.find? jobIng with
  | some j => s.grantBack l j err
  | none =>
    match s.nextIng with
    | none => s
    | some (p, k) =>
      let (t, f) := if p < 64 then s.takePort p else s.takeIng (p - 64)
      let t := t.inkMod (fun x => { x with rrIng := p, rrLeft := k })
      match f with
      | none => t
      | some f => s.grantFrame t l f err none

/-- Block that a lane's spare stands for, and whether lane l is in service: 0–15 unless quarantined, a spare while it
stands in for a block (R20, R200). -/
def State.laneServes (s : State) (l : Nat) : Bool :=
  s.exists_ 5 l && !s.noNew 5 l && (decide (l < 16) ||
    (decide (l = 16) && s.isF (Reg.CHIP_SPARE_MAP 5) Fld.CHIP_SPARE_MAP_S0_ACT) ||
    (decide (l = 17) && s.isF (Reg.CHIP_SPARE_MAP 5) Fld.CHIP_SPARE_MAP_S1_ACT))

/-- Does the arbiter grant now (R225, R206, R482, R487)? -/
def State.inkGrants (s : State) : Bool :=
  s.isF Reg.INK_CTL Fld.INK_CTL_EN && !s.ink.rebuilding && s.pairWorks && !s.noNew 5 27

/-- INTAKE_GRANT: what needs no lane goes straight to the firmware ring; then lane l, if it has room, takes the next work of its pool. `err`
says that a lookup table read found an uncorrectable error. -/
def execIntakeGrant (l : Nat) (err : Bool) (s : State) : Host.Outcome State Fault Refusal :=
  if s.inkGrants then
    let t := s.ringPassAll
    if t.laneServes l && decide ((t.laneJobs l).length < 2) then
      ok (if bit (t.raw Reg.INK_POOL) l then t.grantIng l err else t.grantPort l err)
    else ok t
  else ok s

/-- The tag of the key that a job waits for. -/
def State.jobTag (s : State) (j : LaneJob) : Option KeyEnt :=
  match j with
  | .frame f => if f.key = none then f.slot.map (fun n => s.keyTag n f.gen false) else none
  | .protect _ d g none => some (s.keyTag (u32 d 0 % 2 ^ 20) g true)
  | .protect _ _ _ (some _) => none

/-- Give a key just derived to a job if it waits for exactly it (R212). -/
def State.jobKey (s : State) (k : KeyEnt) (j : LaneJob) : LaneJob :=
  if (s.jobTag j).any (kcSame k) then
    match j with
    | .frame f => .frame { f with key := some k.key }
    | .protect i d g _ => .protect i d g (some k.key)
  else j

/-- KEY_DERIVE_DONE: the oldest derivation ends and its key fills the cache (R209, R211); a domain whose master key is no
longer usable gives none. -/
def execKeyDeriveDone (s : State) : Host.Outcome State Fault Refusal :=
  match s.ink.deriv, s.noGrant 5 28 with
  | [], _ => ok s
  | _, true => ok s
  | (k, title) :: r, false =>
    let t := s.inkMod (fun i => { i with deriv := r })
    match s.dmk k.domain with
    | none => ok t
    | some m =>
      let k' := { k with key := cmac m (derivInput k.dir title k.gen) }
      ok (t.inkMod (fun i => { i with
        kc := kcFill i.kc k'
        lanes := i.lanes.map (fun e => (e.1, e.2.map (s.jobKey k'))) }))

/-! ## Checks and results (R202, R203, R214–R217). -/

/-- The parts of a meter frame: SC, IC, BODY and GTAG; none where the layout of R202 fails. -/
def apdu (b : Bytes) : Option (Nat × Bytes × Bytes × Bytes) :=
  if 2048 < b.length ∨ u8 b 0 ≠ 0xDB ∨ u8 b 1 ≠ 8 ∨ b.length < 11 then none
  else
    let (n, h) := if u8 b 10 < 128 then (u8 b 10, 11)
      else if u8 b 10 = 0x81 then (u8 b 11, 12)
      else if u8 b 10 = 0x82 then (u16be b 11, 13)
      else (0, 0)
    let r := b.drop h
    if h = 0 ∨ n < 17 ∨ r.length ≠ n then none
    else some (u8 r 0, slice r 1 4, slice r 5 (n - 17), r.drop (n - 12))

/-- Frame counter of a frame, 0 where the layout fails. -/
def frameCtr (b : Bytes) : Nat :=
  match apdu b with
  | none => 0
  | some (_, ic, _, _) => beNat ic

/-- Replay rule: 0 = pass, 10 or 11 (R214). -/
def replay (fresh : Bool) (l c win w : Nat) : Nat :=
  if fresh then (if l ≤ c then 0 else 11)
  else if l < c then 0
  else if l - c < 32 ∧ win / 2 ^ (l - c) % 2 = 1 then 10
  else if w ≤ l - c then 11
  else 0

/-- Checks 1–11 of R215: the first code that fails, else 0. -/
def State.frameCheck (s : State) (f : IFrame) : Nat :=
  match apdu f.bytes with
  | none => 1
  | some (sc, ic, _, _) =>
    if sc ≠ 0x30 ∧ sc ≠ 0x10 then 2
    else
      match f.slot with
      | none => 3
      | some n =>
        let e := s.msmAt n
        if f.tblErr then 4
        else if s.ink.ue.contains n || !scrcOk e then 5
        else if !msmActive e then 6
        else if msmHold e then 7
        else if f.kind = 0 ∧ slice f.bytes 2 8 ≠ msmTitle e then 8
        else if (s.dmk (msmDomain e)).isNone then 9
        else replay (msmFresh e) (msmRx e) (beNat ic) (u32 (s.xrec n) 0) (s.getF Reg.INK_CTL Fld.INK_CTL_REORDER_W)

/-- Plaintext of a frame under key k, if its tag checks (R203). -/
def frameOpen (k b : Bytes) : Option Bytes :=
  match apdu b with
  | none => none
  | some (sc, ic, body, tag) =>
    let iv := slice b 2 8 ++ ic
    if sc = 0x30 then gcmOpen 12 k iv (sc :: k) body tag
    else (gcmOpen 12 k iv (sc :: k ++ body) [] tag).map (fun _ => body)

/-- A frame's result goes to its source (R217). -/
def State.result (s : State) (f : IFrame) (res code : Nat) : State :=
  match f.kind with
  | 1 => s.casResult f.src f.ref res
  | 2 => { s with upl := { s.upl with results := s.upl.results ++ [(f.session, bytesLE 4 f.ref ++ [res, code, 0, 0])] } }
  | _ => s

/-- The rejection is noted in the slot's extended record (R207). -/
def State.rejNote (s : State) (n code : Nat) : State :=
  let x := s.xrec n
  s.wrMem (s.xrecA n) (overlay (overlay (overlay x 4 (bytesLE 2 (min (u16 x 4 + 1) 0xFFFF))) 6 [code]) 8
    (bytesLE 4 s.taiSec))

/-- A rejected frame is copied to the firmware ring, or the copy is dropped (R215). -/
def State.rejCopy (s : State) (f : IFrame) (code : Nat) : State :=
  if s.isF Reg.INK_CTL Fld.INK_CTL_REJ_COPY then
    let x : FwItem := {
      kind := 6, code := code, slotw := f.slot.getD 0, origin := f.origin, source := f.src, fctr := frameCtr f.bytes,
      rxTime := f.rxTime, ref := f.ref, data := f.bytes }
    s.fwPush x
  else s

/-- What ends with a slot's frame: the operation that waits for it, and the next held frame. -/
def State.slotFree (s : State) (n : Option Nat) : State :=
  match n with
  | none => s
  | some n => s.slotExec.releaseHold n

/-- Reject a frame that has left its lane (R215, R217). -/
def State.reject (s : State) (l : Nat) (f : IFrame) (code : Nat) : State :=
  if code = 10 ∧ f.resend ∧ f.kind ≠ 0 then ((s.result f 0 0).bump Reg.INK_DUP_CNT).slotFree f.slot
  else
    let t := (s.bump (Reg.INK_FORMAT_CNT + 4 * ((code - 1) % 16))).result f 1 code
    let t := t.when (decide (code = 4 ∨ code = 5 ∨ code = 9)) (fun u =>
      u.report 0x5100 4 (blockPath 5 l) (bytesLE 4 (f.slot.getD 0) ++ [code]))
    let t := match f.slot with
      | some n => t.when (decide (8 ≤ code)) (fun u => u.rejNote n code)
      | none => t
    (t.rejCopy f code).slotFree f.slot

/-- Clear PREV_OK when its window has closed (R216). -/
def State.prevClear (s : State) (n : Nat) : State :=
  let e := s.msmAt n
  if msmPrevOk e && !s.graceOpen (msmDomain e) then s.msmPut n (overlay e 29 [u8 e 29 - 1]) else s

/-- SLOT word of a ring entry (R220). -/
def slotWord (n g : Nat) (prev : Bool) : Nat := n + g * 2 ^ 20 + prev.toNat * 2 ^ 24

/-- A ring item that carries a verified frame's plaintext (R218, R220). -/
def fwPlain (c : CFrame) : FwItem :=
  { kind := 0, slotw := slotWord c.slot c.gen c.prev, origin := c.fr.origin, source := c.fr.src, fctr := c.ctr,
    rxTime := c.fr.rxTime, ref := c.fr.ref, data := c.plain, forSlot := some c.slot }

/-- A verified frame goes to the Mender or to the firmware ring (R218). -/
def State.verified (s : State) (f : IFrame) (n g : Nat) (pt : Bytes) : State :=
  let e := s.msmAt n
  let toMender := decide (u8 pt 0 = 0x0F) && decide (0 < pt.length) && !msmFw e
  let c : CFrame := {
    fr := f, slot := n, ctr := frameCtr f.bytes, gen := g, prev := decide (g ≠ msmGen e), plain := pt,
    stage := if toMender then 0 else 1 }
  let t := s.inkMod (fun i => { i with commits := i.commits ++ [c] })
  if toMender then t else t.fwPush (fwPlain c)

/-- One pass of lane l over a frame ends. -/
def State.framePass (s : State) (l : Nat) (f : IFrame) (rest : List LaneJob) : State :=
  let out := s.setLane l rest
  let code := s.frameCheck f
  if code ≠ 0 then out.reject l f code
  else
    match f.slot, f.key with
    | some n, some k =>
      match frameOpen k f.bytes with
      | some pt => (out.prevClear n).verified f n f.gen pt
      | none =>
        let t := out.prevClear n
        let f' := { f with tried := f.gen :: f.tried, key := none }
        if (t.gens n).any (fun g => !f'.tried.contains g) then
          let (u, g) := t.frameKey f'
          u.setLane l (.frame g :: rest)
        else t.reject l f' 12
    | _, _ => s

/-- The APDU of a protect request (R202, R222). -/
def protApdu (title : Bytes) (sc c : Nat) (k pt : Bytes) : Bytes :=
  let ic := bytesBE 4 c
  let (body, tag) := if sc = 0x30 then gcmSeal 12 k (title ++ ic) (sc :: k) pt
    else (pt, (gcmSeal 12 k (title ++ ic) (sc :: k ++ pt) []).2)
  let n := 17 + body.length
  let len := if n < 128 then [n] else if n < 256 then [0x81, n] else 0x82 :: bytesBE 2 n
  [0xDB, 8] ++ title ++ len ++ [sc] ++ ic ++ body ++ tag

/-- Complete a protect descriptor: OWN = 0 and STATUS; with status 0 also OUT_LEN and FCTR (R221). -/
def State.protDone (s : State) (i : Nat) (d : Bytes) (st : Nat) (ol c : Nat) : State :=
  let d1 := overlay (overlay d 6 [u8 d 6 % 128, st]) 24 (bytesLE 2 ol ++ [0, 0] ++ bytesLE 4 c)
  (s.wrMem (s.protA i) (if st = 0 then d1 else overlay d 6 [u8 d 6 % 128, st])).when (decide (u8 d 6 / 64 % 2 = 1))
    (fun t => t.inkMod (fun x => { x with protIrq := true }))

/-- A lane's pass over a protect request ends (R222). -/
def State.protectPass (s : State) (i : Nat) (d : Bytes) (k : Option Bytes) (err : Bool) : State :=
  let n := u32 d 0 % 2 ^ 20
  let sc := u8 d 3
  let e := s.msmAt n
  let len := u16 d 4
  if s.slotCount ≤ n || s.ink.ue.contains n || !scrcOk e || !msmActive e || msmHold e then s.protDone i d 1 0 0
  else if sc ≠ 0x30 ∧ sc ≠ 0x10 then s.protDone i d 2 0 0
  else
    match s.dmk (msmDomain e), k with
    | some _, some k =>
      if len = 0 ∨ 2000 < len then s.protDone i d 4 0 0
      else if msmTx e = 0xFFFFFFFF then s.protDone i d 5 0 0
      else if err then s.protDone i d 6 0 0
      else
        let c := msmTx e + 1
        let title := bytesLE 4 (s.num Reg.INK_OWN_TITLE_LO) ++ bytesLE 4 (s.num Reg.INK_OWN_TITLE_HI)
        let a := protApdu title sc c k (s.rdMem (un d 8 8) len)
        (((s.wrMem (un d 16 8) a).msmPut n (overlay e 12 (bytesLE 4 c))).protDone i d 0 a.length c).bump Reg.INK_PROT_CNT
    | _, _ => s.protDone i d 3 0 0


/-- LANE_PASS_DONE: lane l's pass over its oldest job ends; a job whose key is still being derived has had no pass. `err`
says that a protect request's buffer could not be read or written. -/
def execLanePassDone (l : Nat) (err : Bool) (s : State) : Host.Outcome State Fault Refusal :=
  match s.laneJobs l with
  | [] => ok s
  | .frame f :: r =>
    if s.frameCheck f = 0 ∧ f.key = none then
      if s.derivRuns (s.keyTag (f.slot.getD 0) f.gen false) then ok s
      else
        let (t, g) := s.frameKey f
        ok (t.setLane l (.frame g :: r))
    else ok (s.framePass l f r)
  | .protect i d g k :: r =>
    let n := u32 d 0 % 2 ^ 20
    if k = none ∧ s.derivRuns (s.keyTag n g true) then ok s
    else if k = none ∧ (s.dmk (msmDomain (s.msmAt n))).isSome then
      let (t, x) := s.protKey n g
      ok (t.setLane l (.protect i d g x :: r))
    else ok (((s.setLane l r).protectPass i d k err).slotFree (some (u32 d 0 % 2 ^ 20)))

/-! ## Firmware ring and commit (R45, R208, R220). -/

/-- Bytes of a ring entry (R220). -/
def fwEntry (x : FwItem) : Bytes :=
  let data := x.data.take 8160
  [x.kind, x.code] ++ bytesLE 2 data.length ++ bytesLE 4 x.slotw ++ bytesLE 4 x.origin ++
    [x.source, (decide (8160 < x.data.length)).toNat, 0, 0] ++ bytesLE 4 x.fctr ++ bytesLE 4 x.rxTime ++
    bytesLE 8 x.ref ++ data

/-- A frame's record is staged, or its ring entry written: in a pair its COMMIT is mirrored, with the TAI second of the staging as CONTACT,
since the commit is still to come (R489; log entry 186). -/
def State.staged2 (s : State) (n : Nat) : State :=
  match s.ink.commits.find? (fun c => decide (c.slot = n)) with
  | none => s
  | some c =>
    let body := commitEntry (ctrEntry n c.gen c.ctr s.taiSec) c.recPos c.mst c.shd ++ c.recs.flatten
    let q := if s.mirroring then s.pair.txSeq + 1 else 0
    (s.mirror 2 body).inkMod (fun i => { i with
      commits := i.commits.map (fun x => if x.slot = n then { x with stage := 2, mseq := q } else x) })

/-- FW_RING_WRITE: with room in the ring, the oldest item is written and PROD advances. -/
def execFwRingWrite (s : State) : Host.Outcome State Fault Refusal :=
  match s.ink.fwq with
  | [] => ok s
  | x :: r =>
    if s.fwFull then ok s.fwStall
    else
      let p := s.getF Reg.INK_FW_HEAD Fld.INK_FW_HEAD_PROD
      let base := s.num Reg.INK_FW_BASE_LO / 2 ^ 13 * 2 ^ 13 + s.num Reg.INK_FW_BASE_HI * 2 ^ 32
      let t := (s.wrMem (base + 8192 * (p % s.fwSize)) (fwEntry x)).setF Reg.INK_FW_HEAD Fld.INK_FW_HEAD_PROD ((p + 1) % 2 ^ 15)
      let t := (t.inkMod (fun i => { i with fwq := r })).when (decide (8160 < x.data.length)) (fun u => u.bump Reg.INK_FW_TRUNC_CNT)
      ok ((match x.forSlot with
        | none => t
        | some n => t.staged2 n).fwStall)

/-- May a staged frame commit now: not while the store takes no batch, nor before the partner's CONFIRM covers it, nor while
the pair holds commits (R45, R489, R490, R493). -/
def State.mayCommit (s : State) (c : CFrame) : Bool :=
  decide (c.stage = 2) &&
    (if s.mustConfirm then decide (c.mseq ≠ 0 ∧ c.mseq ≤ s.pair.confirmed)
     else if s.pair.held then decide (c.mseq ≠ 0 ∧ c.mseq ≤ s.pair.confirmed) else true)

/-- FRAME_COMMIT: the frame of a slot commits, with the TAI second now as CONTACT (R45, R204, R208, R214). -/
def execFrameCommit (slot : Nat) (s : State) : Host.Outcome State Fault Refusal :=
  match s.ink.commits.find? (fun c => decide (c.slot = slot)) with
  | none => ok s
  | some c =>
    if s.mayCommit c then
      let t := (s.counterUpdate slot c.ctr c.gen s.taiSec).jour (.commit (ctrEntry slot c.gen c.ctr s.taiSec) c.recPos c.mst c.shd)
      let t := (t.bump Reg.INK_ACCEPT_CNT).when c.prev (fun u => u.bump Reg.INK_PREV_GEN_CNT)
      ok (((t.inkMod (fun i => { i with commits := i.commits.erase c, rate := i.rate + 1 })).result c.fr 0 0).slotFree (some slot))
    else if c.stage = 2 ∧ c.mseq = 0 ∧ s.mustConfirm then ok (s.staged2 slot)
    else ok s

/-! ## Slot operations (R205). -/

/-- INK_SLOT_DATA_0–7 as 32 bytes. -/
def State.slotData (s : State) : Bytes := (List.range 8).flatMap (fun k => bytesLE 4 (s.num (Reg.INK_SLOT_DATA k)))

/-- GO with OP and SLOT, DATA as it stands; ignored while BUSY. -/
def State.slotGo (s : State) (op slot : Nat) (err : Bool) : State :=
  if s.ink.op.isSome then s
  else
    let t := ((s.setF Reg.INK_SLOT_CMD Fld.INK_SLOT_CMD_OP op).setF Reg.INK_SLOT_CMD Fld.INK_SLOT_CMD_SLOT slot).raiseF
      Reg.INK_SLOT_CMD Fld.INK_SLOT_CMD_BUSY
    (t.inkMod (fun i => { i with op := some { op := op, slot := slot % 2 ^ 20, data := s.slotData, tblErr := err } })).slotExec

/-- SLOT_READ. -/
def execSlotRead (slot : Nat) (err : Bool) (s : State) : Host.Outcome State Fault Refusal := ok (s.slotGo 1 slot err)

/-- SLOT_WRITE. -/
def execSlotWrite (slot : Nat) (err : Bool) (s : State) : Host.Outcome State Fault Refusal := ok (s.slotGo 2 slot err)

/-- SLOT_WRITE_CTR. -/
def execSlotWriteCtr (slot : Nat) (err : Bool) (s : State) : Host.Outcome State Fault Refusal := ok (s.slotGo 3 slot err)

/-- SLOT_ROLL. -/
def execSlotRoll (slot : Nat) (err : Bool) (s : State) : Host.Outcome State Fault Refusal := ok (s.slotGo 4 slot err)

/-- SLOT_CLEAR. -/
def execSlotClear (slot : Nat) (err : Bool) (s : State) : Host.Outcome State Fault Refusal := ok (s.slotGo 5 slot err)

/-- Write 32 bytes to INK_SLOT_DATA_0–7. -/
def State.slotDataPut (s : State) (e : Bytes) : State :=
  s.each (List.range 8) (fun k t => t.wrN (Reg.INK_SLOT_DATA k) (u32 e (4 * k)))

/-- SLOT_OP_COMPLETE: the operation ends once it has been executed. -/
def execSlotOpComplete (s : State) : Host.Outcome State Fault Refusal :=
  let s := s.slotExec
  match s.ink.op with
  | none => ok s
  | some o =>
    match o.code with
    | none => ok s
    | some c =>
      let t := (s.inkMod (fun i => { i with op := none })).setF Reg.INK_SLOT_CMD Fld.INK_SLOT_CMD_BUSY 0
      let t := ((t.setF Reg.INK_SLOT_STAT Fld.INK_SLOT_STAT_DONE (decide (c = 0)).toNat).setF Reg.INK_SLOT_STAT
        Fld.INK_SLOT_STAT_ERR (decide (c ≠ 0)).toNat).setF Reg.INK_SLOT_STAT Fld.INK_SLOT_STAT_CODE c
      ok ((t.when (decide (c = 0 ∧ o.op = 1)) (fun u => u.slotDataPut o.entry)).releaseHold o.slot)

/-! ## Start and stop (R225), key cache (R213). -/

/-- Do the four areas lie within the DRAM fitted? -/
def State.inkAreas (s : State) : Bool :=
  let n := s.slotCount
  decide (s.tblA + 0x400000 + 8 * n ≤ s.dramFit) && decide (s.xrecA n ≤ s.dramFit) &&
    decide (s.num Reg.INK_FW_BASE_LO / 2 ^ 13 * 2 ^ 13 + s.num Reg.INK_FW_BASE_HI * 2 ^ 32 + 8192 * s.fwSize ≤ s.dramFit) &&
    decide (s.protA (2 ^ s.getF Reg.INK_PROT_BASE_LO Fld.INK_PROT_BASE_LO_PRING_LOG2) ≤ s.dramFit)

/-- EN written 1: every such write that finds RESTORED = 1 and the four areas in DRAM starts a rebuild of the tables (R206, R225). -/
def State.inkEnable (s : State) : State :=
  if !s.isF Reg.INK_STAT Fld.INK_STAT_RESTORED then s
  else if !s.inkAreas then s.setF Reg.INK_STAT Fld.INK_STAT_CFG_ERR 1
  else
    ((s.raiseF Reg.INK_CTL Fld.INK_CTL_EN).setF Reg.INK_STAT Fld.INK_STAT_CFG_ERR 0).inkMod (fun i => { i with rebuilding := true })

/-- INTAKE_ENABLE: EN written 1. -/
def execIntakeEnable (s : State) : Host.Outcome State Fault Refusal := ok s.inkEnable

/-- INTAKE_DISABLE: EN written 0. -/
def execIntakeDisable (s : State) : Host.Outcome State Fault Refusal := ok (s.setF Reg.INK_CTL Fld.INK_CTL_EN 0)

/-- TABLE_REBUILD_DONE: both tables stand rebuilt, and intake may grant. -/
def execTableRebuildDone (s : State) : Host.Outcome State Fault Refusal :=
  if s.ink.rebuilding then ok (s.rebuild.inkMod (fun i => { i with rebuilding := false })) else ok s

/-- KEY_CACHE_FLUSH: no lookup from now on hits an entry valid before, and a frame whose key is in a lane is derived again (R213). -/
def execKeyCacheFlush (s : State) : Host.Outcome State Fault Refusal :=
  ok (((s.inkMod (fun i => { i with kc := [] })).lanesBare (fun _ => true)).raiseF Reg.INK_KC_CTL Fld.INK_KC_CTL_BUSY)

/-- KEY_CACHE_FLUSH_DONE. -/
def execKeyCacheFlushDone (s : State) : Host.Outcome State Fault Refusal := ok (s.setF Reg.INK_KC_CTL Fld.INK_KC_CTL_BUSY 0)

end Sys2Proof.Machine
end

