-- ==== Sys2Proof/Machine/Container.lean ====
section
/-! DEFINITION. Sys2Proof/Machine/Container.lean: containers of prickings and images, manifests, set headers and the checks on
them (R52–R56, R448–R454). A source is given as the bytes of its 4 KiB blocks by block number. -/

namespace Sys2Proof.Machine

/-- A check that failed: ERR code and container block. -/
abbrev Failed : Type := Option (Nat × Nat)

/-- The first failure among checks. -/
def firstFail (l : List Failed) : Failed := l.findSome? (fun x => x)

/-! ## Header and manifest (R52, R449). -/

/-- KIND of a header. -/
abbrev hKind (h : Bytes) : Nat := u8 h 6
/-- PERSONA. -/
abbrev hPersona (h : Bytes) : Nat := u8 h 7
/-- TARGET. -/
abbrev hTarget (h : Bytes) : Nat := u16 h 8
/-- BLOCK_COUNT. -/
abbrev hBlocks (h : Bytes) : Nat := u32 h 12
/-- MANIFEST_BLK. -/
abbrev hManifest (h : Bytes) : Nat := u16 h 22
/-- SIG_BLK. -/
abbrev hSig (h : Bytes) : Nat := u16 h 24
/-- STRUCT_ID. -/
abbrev hStructId (h : Bytes) : Nat := u32 h 28
/-- VERSION. -/
abbrev hVersion (h : Bytes) : Nat := u32 h 32
/-- STRUCT_HASH. -/
abbrev hHash (h : Bytes) : Bytes := slice h 36 32

/-- Does a block's CRC-32C check? -/
def blkOk (b : Bytes) : Bool := decide (u32 b 4092 = crc32c (b.take 4092))

/-- Most blocks of a kind (R52, R448). -/
def kindBlocks (kind : Nat) : Nat := match kind with | 0 => 136 | 1 => 7300 | 2 => 4096 | _ => 128

/-- Hash of block j in the manifest (R449). -/
def manifestHash (rd : Nat → Bytes) (mb j : Nat) : Bytes :=
  if j < 123 then slice (rd mb) (128 + 32 * j) 32 else slice (rd (mb + 1 + (j - 123) / 127)) (32 * ((j - 123) % 127)) 32

/-- Check 1: MAGIC, FORMAT, KIND and BLOCK_COUNT, and the CRC of block 0. `kinds` are those allowed; `len` is the length given
with the source, 0 for none. -/
def check1 (rd : Nat → Bytes) (kinds : List Nat) (len : Nat) : Failed :=
  let h := rd 0
  if u32 h 0 = 0x4B435250 ∧ u16 h 4 = 1 ∧ kinds.contains (hKind h) ∧ hBlocks h = hSig h + 2 ∧ hBlocks h ≤ kindBlocks (hKind h) ∧
      1 ≤ hManifest h ∧ hManifest h < hSig h ∧ (len = 0 ∨ len = hBlocks h) ∧ blkOk h then none
  else some (1, 0)

/-- Check 2: the CRC of every block. -/
def check2 (rd : Nat → Bytes) : Failed :=
  ((List.range (hBlocks (rd 0))).find? (fun i => !blkOk (rd i))).map (fun i => (2, i))

/-- Check 3: the signature over blocks 0 to SIG_BLK − 1 (R54). -/
def check3 (rd : Nat → Bytes) (vkey : Bytes) : Failed :=
  let g := hSig (rd 0)
  let sig := (rd g).take 4092 ++ (rd (g + 1)).take 3764
  if Config.slhVerify vkey ((List.range g).flatMap rd) sig then none else some (4, g)

/-- Check 4: every block up to the manifest against its hash there, and the manifest header against the container header (R55,
R449). -/
def check4 (rd : Nat → Bytes) : Failed :=
  let h := rd 0
  let m := rd (hManifest h)
  if u32 m 0 ≠ 0x54464E4D ∨ u16 m 4 ≠ 1 ∨ u8 m 6 ≠ hKind h ∨ 64 < u8 m 7 ∨ u32 m 8 ≠ hVersion h ∨ u16 m 12 ≠ hManifest h ∨
      u32 m 16 ≠ hStructId h then some (3, hManifest h)
  else ((List.range (hManifest h)).find? (fun i => decide (sha256 (rd i) ≠ manifestHash rd (hManifest h) i))).map (fun i => (3, i))

/-- The payload of an image: blocks 1 to MANIFEST_BLK − 1, PAYLOAD_LEN bytes (R448). -/
def imagePayload (rd : Nat → Bytes) : Bytes :=
  let h := rd 0
  ((List.range (hManifest h - 1)).flatMap (fun i => (rd (i + 1)).take 4092)).take (u32 (rd (hManifest h)) 20)

/-- What R448 asks of images: sizes, PERSONA 0, TARGET 0xFFFF, and STRUCT_HASH over the payload (ERR 5). -/
def checkImage (rd : Nat → Bytes) : Failed :=
  let h := rd 0
  let m := rd (hManifest h)
  let n := u32 m 20
  if hKind h = 0 ∨ hKind h = 1 then
    if hPersona h = 0 ∧ hTarget h = 0xFFFF ∧ u32 h 16 = 0 ∧ n ≤ (hManifest h - 1) * 4092 ∧
        (if hKind h = 0 then n + u32 m 28 ≤ 524288 else n ≤ 29360128) ∧ hHash h = sha256 (imagePayload rd) then none
    else some (5, 0)
  else none

/-! ## Frames (R53). -/

/-- Frames of one block from offset o, each with its header; k bounds them. A frame never crosses the boundary of a container block nor
has LEN_WORDS above 1,021; should one be stored so, it is taken as the end of the block's frames (DESIGN CHOICE, log entry 158). -/
def blkFrames (b : Bytes) (o k : Nat) : List Bytes :=
  match k with
  | 0 => []
  | j + 1 =>
    let len := u16 b (o + 4)
    if len = 0 ∨ 4092 < o + 8 + 4 * len then [] else slice b o (8 + 4 * len) :: blkFrames b (o + 8 + 4 * len) j

/-- All frames of a container. -/
def contFrames (rd : Nat → Bytes) : List Bytes :=
  (List.range (hManifest (rd 0) - 1)).flatMap (fun i => blkFrames (rd (i + 1)) 0 512)

/-- STRUCT_HASH as a readback recomputes it: over all frames as stored (R52, R74). -/
def structHash (rd : Nat → Bytes) : Bytes := sha256 (contFrames rd).flatten

/-- Data of the crossbar maps and sharing tables of a container, in stored order (R53). -/
def contMaps (rd : Nat → Bytes) : Bytes := ((contFrames rd).filter (fun f => decide (2 ≤ u8 f 6))).flatMap (fun f => f.drop 8)

/-- Does a frame lie within its target: a personality pricking's PATH has bits [15:6] 0, a region pricking's its region; TYPE 2
belongs to port groups and TYPE 3 to IN (R53)? -/
def frameFits (kind region : Nat) (f : Bytes) : Bool :=
  let path := u16 f 0
  let type := u8 f 6
  if kind = 3 then decide (path < 64 ∧ type ≤ 1)
  else decide (path / 0x1000 = region) && (decide (type ≤ 1) || (decide (type = 2) && decide (1 ≤ region ∧ region ≤ 4)) ||
    (decide (type = 3) && decide (region = 5)))

/-- The first block whose frames leave the target (ERR 13). -/
def checkFrames (rd : Nat → Bytes) (region : Nat) : Failed :=
  let h := rd 0
  ((List.range (hManifest h - 1)).find? (fun i =>
    (blkFrames (rd (i + 1)) 0 512).any (fun f => !frameFits (hKind h) region f))).map (fun i => (13, i + 1))

/-! ## Sets (R450–R453). -/

/-- What a container says of itself for the rules of a set. -/
def contOf (rd : Nat → Bytes) : RunCont :=
  let h := rd 0
  let m := rd (hManifest h)
  { kind := hKind h, persona := hPersona h, target := hTarget h, structId := hStructId h, version := hVersion h, svn := u8 m 7
    hash := hHash h, raise := decide (u16 m 14 % 2 = 1)
    ranges := (List.range 4).map (fun k => (u32 m (32 + 8 * k), u32 m (36 + 8 * k)))
    cells := if 2 ≤ hKind h then structHash rd else [], maps := if hKind h = 2 then contMaps rd else [] }

/-- Does container x accept container y of another kind (R450)? -/
def accepts (x y : RunCont) : Bool :=
  let r := x.ranges.getD y.kind (0, 0)
  decide (x.kind = y.kind) || (decide (r.1 ≤ y.version) && decide (y.version ≤ r.2))

/-- Is a collection of containers compatible (R450)? -/
def compatible (l : List RunCont) : Bool := l.all (fun x => l.all (fun y => accepts x y))

/-- Do two containers hold the same place in a set? -/
def samePlace (x y : RunCont) : Bool := decide (x.kind = y.kind ∧ x.persona = y.persona ∧ x.target = y.target)

/-- A set with the new containers in place of those that hold the same places. -/
def inPlace (set new : List RunCont) : List RunCont := set.filter (fun x => !new.any (fun y => samePlace x y)) ++ new

/-- The activation order (R452): personality, region, field, hoop. -/
def actOrder : List Nat := [3, 2, 1, 0]

/-- New containers of a kind that differ in STRUCT_HASH from the running ones. -/
def changed (run new : List RunCont) (kind : Nat) : List RunCont :=
  new.filter (fun y => decide (y.kind = kind) && !run.any (fun x => samePlace x y && decide (x.hash = y.hash)))

/-- The kind at whose step the union U_j of R452 is not compatible, if any. -/
def unionFails (run new : List RunCont) : Option Nat :=
  (actOrder.foldl (fun (a : List RunCont × Option Nat) k =>
    let ch := changed run new k
    (inPlace a.1 ch, match a.2 with
      | some e => some e
      | none => if compatible (a.1 ++ ch) then none else some k)) (run, none)).2

/-- Entry i of a set header: KIND, PERSONA, TARGET, FIRST_UNIT, BLOCKS, STRUCT_ID. -/
def setEntry (h : Bytes) (i : Nat) : Bytes := slice h (64 + 16 * i) 16

/-- Entries of a set header. -/
def setEntries (h : Bytes) : List Bytes := (List.range (min (u16 h 6) 32)).map (setEntry h)

/-- Number of entries that p holds of. -/
def countEnt (h : Bytes) (p : Bytes → Bool) : Nat := ((setEntries h).filter p).length

/-- The set header's checks (R453, R454 step 1). -/
def setHeaderOk (h : Bytes) : Bool :=
  let es := setEntries h
  decide (u32 h 0 = 0x54455353 ∧ u16 h 4 = 1 ∧ 3 ≤ u16 h 6 ∧ u16 h 6 ≤ 32) && decide (u32 h 4092 = crc32c (h.take 4092)) &&
    decide (countEnt h (fun e => decide (u8 e 0 = 0)) = 1) && decide (countEnt h (fun e => decide (u8 e 0 = 1)) = 1) &&
    es.all (fun e => decide (u8 e 0 ≤ 3)) &&
    es.all (fun e => decide (u8 e 0 ≠ 2) || decide (countEnt h (fun x => decide (u8 x 0 = 2) && decide (u16 x 2 / 0x1000 = u16 e 2 / 0x1000)) = 1)) &&
    es.all (fun e => decide (u8 e 0 ≠ 3) || decide (countEnt h (fun x => decide (u8 x 0 = 3) && decide (u8 x 1 = u8 e 1)) = 1)) &&
    decide ((es.map (fun e => u8 e 0)).Pairwise (· ≤ ·))

/-- A container of a set: the blocks from FIRST_UNIT on of the source that holds the set. -/
def setCont (rd : Nat → Bytes) (e : Bytes) : Nat → Bytes := fun i => rd (u32 e 4 + i)

/-- Units that a set takes, its header included. -/
def setUnits (h : Bytes) : Nat := (setEntries h).foldl (fun a e => max a (u32 e 4 + u32 e 8)) 1

/-- SET_ID (R453). -/
def setId (h : Bytes) : Nat := leNat ((sha256 h).take 8)

/-- Checks 1–4 of R55 on one container, and R448 and R449. -/
def contChecks (rd : Nat → Bytes) (vkey : Bytes) (kinds : List Nat) (len : Nat) : Failed :=
  match check1 rd kinds len with
  | some e => some e
  | none => match check2 rd with
    | some e => some e
    | none => match check3 rd vkey with
      | some e => some e
      | none => match check4 rd with
        | some e => some e
        | none => checkImage rd

end Sys2Proof.Machine
end

