-- ==== Sys2Proof/Machine/BootCore.lean ====
section
/-! DEFINITION. Sys2Proof/Machine/BootCore.lean: the NOR directory and slots (R455, R456), the checks of a set (R454), and what
prickings build (R50, R51, R63). -/

namespace Sys2Proof.Machine

/-! ## Directory (R456). -/

/-- First page of directory copy i. -/
abbrev dirPage (i : Nat) : Nat := if i = 0 then 0 else 0x10

/-- Is a page a valid directory copy? -/
def dirOk (b : Bytes) : Bool := decide (u32 b 0 = 0x52494453 ∧ u16 b 4 = 1 ∧ u32 b 4092 = crc32c (b.take 4092))

/-- The valid copy of the highest DSEQ. -/
def State.dirBest (s : State) : Option Nat :=
  let a := dirOk (s.norPage (dirPage 0))
  let b := dirOk (s.norPage (dirPage 1))
  if a && (!b || decide (un (s.norPage (dirPage 1)) 8 8 ≤ un (s.norPage (dirPage 0)) 8 8)) then some 0
  else if b then some 1 else none

/-- The directory; both slots are empty where no copy is valid. -/
def State.dir (s : State) : Bytes :=
  match s.dirBest with
  | none => List.replicate 4096 0
  | some i => s.norPage (dirPage i)

/-- Write a changed directory: the copy that does not hold the highest valid DSEQ is written, and the other erased. -/
def State.dirWrite (s : State) (f : Bytes → Bytes) : State :=
  let b := s.dir
  let j := match s.dirBest with
    | none => 0
    | some i => 1 - i
  let h := bytesLE 4 0x52494453 ++ [1, 0, 0, 0] ++ bytesLE 8 (un b 8 8 + 1) ++ slice (f b) 16 4076
  ((s.norErase (dirPage j) 16).norPut (dirPage j) (h ++ bytesLE 4 (crc32c h))).norErase (dirPage (1 - j)) 16

/-- STATE of NOR slot i. -/
def State.slotSt (s : State) (i : Nat) : Nat := u8 s.dir (16 + 48 * i)

/-- TRIES of NOR slot i. -/
def State.slotTries (s : State) (i : Nat) : Nat := u8 s.dir (17 + 48 * i)

/-- The first NOR slot in a STATE. -/
def State.slotIn (s : State) (st : Nat) : Option Nat := [0, 1].find? (fun i => decide (s.slotSt i = st))

/-- NOR slot i goes to a STATE, with TRIES. -/
def State.slotSet (s : State) (i st tries : Nat) : State := s.dirWrite (fun b => overlay b (16 + 48 * i) [st, tries])

/-- RCV_REQ. -/
def State.rcvReq (s : State) : Bool := decide (u8 s.dir 112 = 1)

/-- Set RCV_REQ. -/
def State.setRcvReq (s : State) (v : Nat) : State := s.dirWrite (fun b => overlay b 112 [v])

/-- NOR slot booted. -/
def State.booted (s : State) : Nat := s.getF Reg.UPD_SLOT_STAT Fld.UPD_SLOT_STAT_BOOTED

/-! ## Slots of the NOR and sets (R453–R455). -/

/-- First page of NOR slot i. -/
abbrev norSlot (i : Nat) : Nat := if i = 0 then 0x20 else 0x2000

/-- Pages of a NOR slot. -/
abbrev norSlotPages : Nat := 8160

/-- Blocks of the set in NOR slot i. -/
def State.norRd (s : State) (i : Nat) : Nat → Bytes := fun j => s.norPage (norSlot i + j)

/-- Blocks of staging slot g (R453). -/
def State.stgRd (s : State) (g : Nat) : Nat → Bytes := fun j => s.storeGet 2 (g * (s.partUnits 2 / 2) + j)

/-- The pricking verification key. -/
def State.vkey (s : State) : Bytes := (List.range 8).flatMap (fun k => bytesLE 4 (s.num (Reg.NDL_VKEY k)))

/-- Containers of a set whose entries satisfy p. -/
def setConts (rd : Nat → Bytes) (p : Bytes → Bool) : List (Nat → Bytes) := ((setEntries (rd 0)).filter p).map (setCont rd)

/-- What the containers of a set say of themselves. -/
def setRun (rd : Nat → Bytes) : List RunCont := (setConts rd (fun _ => true)).map contOf

/-- Checks 1–4 of R55, R448 and R449 on the container of an entry, which is the one the entry names. -/
def State.entryCheck (s : State) (rd : Nat → Bytes) (e : Bytes) : Failed :=
  let c := setCont rd e
  match contChecks c s.vkey [u8 e 0] (u32 e 8) with
  | some x => some x
  | none =>
    if hPersona (c 0) = u8 e 1 ∧ hTarget (c 0) = u16 e 2 ∧ hStructId (c 0) = u32 e 12 then none else some (5, 0)

/-- Is a container at or above the floor of its kind (R451)? -/
def State.aboveFloor (s : State) (c : RunCont) : Bool := decide (s.floor c.kind ≤ c.svn)

/-- Is anything built in region r? -/
def State.regionThere (s : State) (r : Nat) : Bool := s.fab.built.any (fun e => decide (e.1 / 0x1000 = r))

/-- First entry of a set, with its index, that p holds of. -/
def setFind (rd : Nat → Bytes) (p : Bytes → Bool) : Option Nat :=
  (findIdxFrom p (setEntries (rd 0)) 0).map (·.1)

/-- R454 on a set: ERR and ERR_ITEM of the first check that fails. `run` is the running set, none in recovery (R467). -/
def State.setVerify (s : State) (rd : Nat → Bytes) (run : Option (List RunCont)) : Option (Nat × Nat) :=
  if !setHeaderOk (rd 0) then some (11, 0)
  else
    let es := setEntries (rd 0)
    match es.findSome? (fun e => s.entryCheck rd e) with
    | some x => some (x.1, (setFind rd (fun e => (s.entryCheck rd e).isSome)).getD 0)
    | none =>
      match setFind rd (fun e => !s.aboveFloor (contOf (setCont rd e))) with
      | some i => some (9, i)
      | none =>
        let bad := match run with
          | none => if compatible (setRun rd) then none else some 0
          | some r => match setFind rd (fun e => decide (u8 e 0 = 2) && !s.regionThere (u16 e 2 / 0x1000)) with
            | some i => some i
            | none => match unionFails r (setRun rd) with
              | none => none
              | some k => some ((setFind rd (fun e => decide (u8 e 0 = k))).getD 0)
        match bad with
        | some i => some (6, i)
        | none => if setUnits (rd 0) ≤ norSlotPages then none else some (12, 0)

/-! ## What prickings build (R49–R51). -/

/-- Blocks of region r. -/
def blocksOf (r : Nat) : Nat := if 1 ≤ r ∧ r ≤ 4 then 20 else match r with
  | 5 => 31
  | 6 => 8
  | 7 => 8
  | 8 => 7
  | 9 => 6
  | _ => 0

/-- Set what a block holds. -/
def State.build (s : State) (path : Nat) (b : Built) : State :=
  s.fabMod (fun f => { f with built := tset (fun _ => ({} : Built)) f.built path b, cells := tdel f.cells path })

/-- The identity that a container gives to what it builds. -/
def builtOf (c : RunCont) : Built :=
  { kind := c.kind, persona := c.persona, structId := c.structId, version := c.version, hash := c.cells }

/-- Does a group clock plan suit a personality (R102, R139, R188)? -/
def planSuits (plan persona : Nat) : Bool :=
  match persona with
  | 1 => decide (plan = 1 ∨ plan = 2)
  | 2 | 3 => decide (plan = 2)
  | 4 => decide (1 ≤ plan ∧ plan ≤ 3)
  | _ => false

/-- PLAN of port n's group. -/
def State.plan (s : State) (n : Nat) : Nat := s.getF (Reg.PORT_PERSONA n) Fld.PORT_PERSONA_PLAN

/-- Is k the key of a register in port n's window? -/
def ofPort (n k : Nat) : Bool := decide (k % 0x1000000 / 0x1000 = 0x100 + n)

/-- Is k the key of a register of port n's parameter block? -/
def ofParams (n k : Nat) : Bool := decide (0x1000000 ≤ k) && ofPort n k

/-- The parameter block of port n takes a pricking's defaults: the reset values, in the loader's shadow too. -/
def State.paramDefault (s : State) (n : Nat) : State :=
  { s with
    regs := s.regs.filter (fun e => !ofParams n e.1)
    fab := { s.fab with shadow := s.fab.shadow.filter (fun e => !ofParams n e.1) } }

/-- Is a field one that a write sets and that keeps what was written (R63)? -/
def keepsWrite (a : Acc) : Bool :=
  match a with
  | .rw | .rws | .rwh | .rwl | .rwhRing0 | .rwLock => true
  | _ => false

/-- Register k of a port as the loader's shadow has it: each writable field at the value last written, or at its reset value. -/
def State.shadowWord (s : State) (k : Nat) : Word :=
  let v := tget Reg.resetOf s.fab.shadow k
  match Reg.specOf k with
  | none => s.raw k
  | some r => (r.fields.filter (fun f => keepsWrite f.acc)).foldl (fun a f => fput ⟨f.hi, f.lo⟩ a (fget ⟨f.hi, f.lo⟩ v)) (s.raw k)


/-- Port n's registers and parameter block are restored from the shadow (R63). -/
def State.shadowBack (s : State) (n : Nat) : State :=
  let keys := ((s.regs.map (·.1) ++ s.fab.shadow.map (·.1)).filter (ofPort n)).eraseDups
  s.each keys (fun k t => t.wr k (t.shadowWord k))

/-- Port n's pin set comes to be carried by a block of a personality: PORT_PERSONA shows it, and another PERSONA than before
starts afresh with default parameters (R51, R63). -/
def State.portPersona (s : State) (n : Nat) (b : Built) : State :=
  let p := if b.kind = 3 then b.persona else 0
  let t := if s.persona n = p then s
    else (s.paramDefault n).portMod n (fun q => { q with line := {}, air := {}, cas := {}, dups := [], seen := [] })
  ((t.setF (Reg.PORT_PERSONA n) Fld.PORT_PERSONA_PERSONA p).setF (Reg.PORT_PERSONA n) Fld.PORT_PERSONA_MAJOR
    (if p = 0 then 0 else b.version / 2 ^ 24)).setF (Reg.PORT_PERSONA n) Fld.PORT_PERSONA_MINOR
    (if p = 0 then 0 else b.version / 2 ^ 16 % 256)

/-- UPD_PRK_SPARE_STAT of group g: IDLE and PERSONA. -/
def State.spareShow (s : State) (g : Nat) (idle : Bool) (persona : Nat) : State :=
  (s.setF Reg.UPD_PRK_SPARE_STAT ⟨8 * g + 7, 8 * g + 7⟩ idle.toNat).setF Reg.UPD_PRK_SPARE_STAT ⟨8 * g + 6, 8 * g + 4⟩ persona

/-- The running personality pricking of a PERSONA. -/
def State.runPersona (s : State) (p : Nat) : Option RunCont :=
  s.upd.run.find? (fun c => decide (c.kind = 3 ∧ c.persona = p))

/-- Can a region pricking leave block b of region r out (R50)? -/
def optional (r b : Nat) : Bool :=
  if 1 ≤ r ∧ r ≤ 4 then decide (b < 16)
  else match r with
    | 5 => decide ((18 ≤ b ∧ b ≤ 25) ∨ b = 30)
    | 7 => decide (1 ≤ b ∧ b ≤ 3)
    | 8 => decide (b = 3)
    | 9 => decide (b = 3 ∨ b = 4)
    | _ => false

/-- Which optional blocks of a region exist, drawn as x: Mender units and field cores are a number from the lowest up. -/
def present (r b x : Nat) : Bool :=
  if !optional r b then true
  else if r = 5 ∧ b ≠ 30 then decide (b - 18 < x % 9)
  else if r = 5 then decide (x / 9 % 2 = 1)
  else if r = 7 then decide (b ≤ x % 4)
  else decide (x / 2 ^ b % 2 = 1)

/-- The lane pools p with the bits of spare lanes 16 and 17 as they stand in for a lane of p (R200). -/
def State.poolSpares (s : State) (p : Nat) : Nat :=
  p + ([0, 1].filter (fun i => s.spareAct 5 i && decide (p / 2 ^ s.spareFor 5 i % 2 = 1))).foldl (fun a i => a + 2 ^ (16 + i)) 0

/-- The structural settings that a region pricking makes besides the blocks that exist, drawn as x (R50): the group clock plan,
the spare's standing personality, the lane pools, NAND channels and dies, the spare parity engine while no spare is in use, uplink
modes. Frame contents have no meaning given in the spec, so every setting is a free value (log entry 112). -/
def State.regionSet (s : State) (r x : Nat) : State :=
  if 1 ≤ r ∧ r ≤ 4 then
    let t := s.each (List.range 16) (fun k u => u.setF (Reg.PORT_PERSONA (16 * (r - 1) + k)) Fld.PORT_PERSONA_PLAN (x % 4))
    match if s.spareAct r 0 then none else s.runPersona (x / 4 % 5) with
    | some c => (t.build (blockPath r 16) (builtOf c)).spareShow (r - 1) true c.persona
    | none => if s.spareAct r 0 then t else t.spareShow (r - 1) true 0
  else match r with
    | 5 => s.wrN Reg.INK_POOL (s.poolSpares (x % 2 ^ 16))
    | 6 =>
      let t := if s.spareAct 6 0 then s else s.fabMod (fun f => { f with paritySpare := 5 + x / 24 % 2 })
      (t.setF Reg.STO_NAND Fld.STO_NAND_CH_PRESENT (x % 3 + 1)).setF Reg.STO_NAND Fld.STO_NAND_DIES (x / 3 % 8 + 1)
    | 9 => (s.setF Reg.UPL_STAT Fld.UPL_STAT_A_MODE (x % 2)).setF Reg.UPL_STAT Fld.UPL_STAT_B_MODE (x / 2 % 2)
    | _ => s

/-- Is a block that holds b part of the structure that container c gives its region: pricked, with a port's own personality left as
it is? -/
def State.keepsPersona (s : State) (r b : Nat) : Bool :=
  decide (1 ≤ r ∧ r ≤ 4 ∧ b < 16) && decide ((s.builtAt (blockPath r b)).kind = 3) &&
    planSuits (s.plan (16 * (r - 1) + b)) (s.builtAt (blockPath r b)).persona

/-- The crossbar maps and sharing tables of region r that come into force, all at once (R67). A crossbar map is the identity at load;
what its frames say the spec does not lay out, so the pin sets go on as they are (log entry 112). -/
def State.mapsSet (s : State) (r : Nat) (d : Bytes) : State := s.fabMod (fun f => { f with maps := tset (fun _ => []) f.maps r d })

/-- A region is pricked with container c: its blocks and settings (R50). -/
def State.regionBuild (s : State) (r : Nat) (c : RunCont) : State :=
  let x := s.drawn (2 ^ 32)
  let t := s.draw.each (List.range (blocksOf r)) (fun b u =>
    if present r b (x / 2 ^ 16) then u.build (blockPath r b) (builtOf c) else u.build (blockPath r b) {})
  (t.mapsSet r c.maps).regionSet r (x % 2 ^ 16)

/-! ## Field image and hoop image (R457, R458). -/

/-- The container of a kind in a set. -/
def setOne (rd : Nat → Bytes) (kind : Nat) : Nat → Bytes :=
  match (setConts rd (fun e => decide (u8 e 0 = kind))) with
  | [] => fun _ => []
  | c :: _ => c

/-- Hoop SRAM with a byte string from address 0, the rest zero. -/
def sramOf (b : Bytes) : Tbl Byte := dramPut [] 0 b

/-- The hoop image of a set is loaded into the zeroed hoop SRAM and started at ENTRY; the hoop watchdog is loaded (R457, R480). -/
def State.hoopImage (s : State) (rd : Nat → Bytes) : State :=
  let c := setOne rd 0
  let t := (s.hoopMod (fun h => { h with sram := sramOf (imagePayload c) })).wrN (Reg.UPD_RUN_VER 0) (hVersion (c 0))
  { t with ladder := { t.ladder with hoopRun := true, hwd := t.getF Reg.SMP_RCV_CTL Fld.SMP_RCV_CTL_HWDOG_S } }

/-- The field image of a set is loaded, and the field cores are released at ENTRY; the field watchdog is loaded (R458, R480). -/
def State.fieldImage (s : State) (rd : Nat → Bytes) : State :=
  let c := setOne rd 1
  let t := (s.wrMem Config.fieldBase (imagePayload c)).wrN (Reg.UPD_RUN_VER 1) (hVersion (c 0))
  { t with ladder := { t.ladder with fieldRun := true, fwd := t.getF Reg.SMP_RCV_CTL Fld.SMP_RCV_CTL_FWDOG_S } }

end Sys2Proof.Machine
end

