-- ==== Sys2Proof/Machine/ShuttleCore.lean ====
section
/-! DEFINITION. Sys2Proof/Machine/ShuttleCore.lean: the Shuttle's channels, events and stops (R396–R398, R401, R405–R410),
without its instructions. -/

namespace Sys2Proof.Machine

/-- Default of the channel table. -/
abbrev chanDflt : Nat → ShuChan := fun _ => {}

/-- Channel c. -/
def State.chan (s : State) (c : Nat) : ShuChan := tget chanDflt s.shu.chans c

/-- Change channel c. -/
def State.chanMod (s : State) (c : Nat) (f : ShuChan → ShuChan) : State :=
  { s with shu := { s.shu with chans := tmod chanDflt s.shu.chans c f } }

/-- STATE of channel c: 0 = idle, 1 = armed, 2 = running, 3 = waiting, 4 = stopped, 5 = error. -/
def State.chState (s : State) (c : Nat) : Nat := s.getF (Reg.SHU_CH_STAT c) Fld.SHU_CH_STAT_STATE

/-- Set STATE of channel c. -/
def State.setCh (s : State) (c v : Nat) : State := s.setF (Reg.SHU_CH_STAT c) Fld.SHU_CH_STAT_STATE v

/-- Address bits [35:4] of the instruction that channel c executes, or executes next. -/
def State.chPc (s : State) (c : Nat) : Nat := s.num (Reg.SHU_CH_PC c)

/-- Move channel c's PC. -/
def State.setPc (s : State) (c v : Nat) : State := s.wrN (Reg.SHU_CH_PC c) v

/-- The engine runs: EN = 1 and no bus error holds it. -/
def State.shuOn (s : State) : Bool := s.isF Reg.SHU_CTL Fld.SHU_CTL_EN && !s.isF Reg.SHU_STAT Fld.SHU_STAT_BUSERR && !s.noGrant 7 5

/-! ## Events (R398). -/

/-- Is event flag e set? -/
def State.event (s : State) (e : Nat) : Bool := bit (s.raw (Reg.SHU_EVT (e / 32))) (e % 32)

/-- Clear event flag e. -/
def State.eventClear (s : State) (e : Nat) : State :=
  s.wr (Reg.SHU_EVT (e / 32)) (setBit (s.raw (Reg.SHU_EVT (e / 32))) (e % 32) false)

/-- A producer sets event flag e; a flag already set counts as lost. -/
def State.eventSet (s : State) (e : Nat) : State :=
  if s.event e then s.bump Reg.SHU_EVT_LOST_CNT else s.raiseBit (Reg.SHU_EVT (e / 32)) (e % 32)

/-! ## Starting and stopping. -/

/-- Channel c's open packet is closed as bad, and the port removes it without sending it (R401). -/
def State.chClose (s : State) (c : Nat) : State :=
  match (s.chan c).openPort with
  | none => s
  | some p =>
    (s.chanMod c (fun k => { k with openPort := none })).txUndo p

/-- Channel c starts at its active pointer. -/
def State.chStart (s : State) (c : Nat) : State :=
  ((s.setCh c 2).setF (Reg.SHU_CH_STAT c) Fld.SHU_CH_STAT_ERR 0).setPc c (s.chan c).active

/-- Channel c becomes idle: its loop counter is idle, and the next start is at its active pointer (log entry 138). -/
def State.chIdle (s : State) (c : Nat) : State :=
  (((s.chClose c).setCh c 0).chanMod c (fun k => { k with loop := none })).setPc c (s.chan c).active

/-- An instruction error halts channel c with its PC left at the instruction (R405). -/
def State.chError (s : State) (c code : Nat) : State :=
  ((s.chClose c).setCh c 5).setF (Reg.SHU_CH_STAT c) Fld.SHU_CH_STAT_ERR code

/-- GO on channel c: an idle channel starts (R396). -/
def State.chGo (s : State) (c : Nat) : State := if c < 32 ∧ s.chState c = 0 then s.chStart c else s

/-- ABORT on channel c: it becomes idle (R396). -/
def State.chAbort (s : State) (c : Nat) : State := if c < 32 ∧ s.chState c ≠ 0 then s.chIdle c else s

/-- An idle channel with ARM = 1 becomes armed (R396). -/
def State.chArm (s : State) (c : Nat) : State :=
  if s.isF (Reg.SHU_CH_CTL c) Fld.SHU_CH_CTL_ARM ∧ s.chState c = 0 then s.setCh c 1 else s

/-- A write of a program pointer (R406, R408). -/
def State.progWrite (s : State) (c v : Nat) : State :=
  let late := (s.chan c).handing && decide (s.chState c ≠ 0 ∧ s.chState c ≠ 5)
  let t := (s.wrN (Reg.SHU_CH_PROG c) v).setF (Reg.SHU_CH_STAT c) Fld.SHU_CH_STAT_SHADOW_LATE late.toNat
  if s.chState c = 0 ∨ s.chState c = 5 then (t.chanMod c (fun k => { k with active := v % 2 ^ 32 })).setPc c v
  else (t.chanMod c (fun k => { k with shadow := v % 2 ^ 32 })).raiseF (Reg.SHU_CH_STAT c) Fld.SHU_CH_STAT_SHADOW_VALID

/-- EN of SHU_CTL is written 0: ABORT on every channel. -/
def State.shuOff (s : State) : State :=
  (s.setF Reg.SHU_CTL Fld.SHU_CTL_EN 0).each (List.range 32) (fun c t => t.chAbort c)

/-- A failed access stops the engine (R409); after the first, only the error registers and the counter change (R410). -/
def State.busError (s : State) (kind space addr : Nat) (write : Bool) : State :=
  let t := ((s.wrN Reg.SHU_ERR_LO (addr % 2 ^ 32)).wrN Reg.SHU_ERR_HI
    (space % 16 * 2 ^ 28 + write.toNat * 2 ^ 27 + kind % 8 * 2 ^ 24 + addr / 2 ^ 32 % 16)).bump Reg.SHU_BUSERR_CNT
  if s.isF Reg.SHU_STAT Fld.SHU_STAT_BUSERR then t
  else
    let u := t.each (List.range 32) (fun c v => if v.chState c = 2 ∨ v.chState c = 3 then (v.chClose c).setCh c 4 else v)
    (u.raiseF Reg.SHU_STAT Fld.SHU_STAT_BUSERR).report 0x7100 4 (blockPath 7 5)
      (bytesLE 4 (t.num Reg.SHU_ERR_LO) ++ bytesLE 4 (t.num Reg.SHU_ERR_HI))

/-- RESUME: stopped channels take their stopped instruction up again from its start (R410). -/
def State.shuResume (s : State) : State :=
  if s.isF Reg.SHU_STAT Fld.SHU_STAT_BUSERR then
    (s.setF Reg.SHU_STAT Fld.SHU_STAT_BUSERR 0).each (List.range 32) (fun c t => if t.chState c = 4 then t.setCh c 2 else t)
  else s

/-- Channels in one of two states, for SHU_STAT. -/
def State.chCount (s : State) (a b : Nat) : Nat :=
  ((List.range 32).filter (fun c => decide (s.chState c = a ∨ s.chState c = b))).length

end Sys2Proof.Machine
end

