-- ==== Sys2Proof/Machine/Gathering.lean ====
section
/-! DEFINITION. Sys2Proof/Machine/Gathering.lean: the interrupt controller (R411–R421). -/

namespace Sys2Proof.Machine

/-- Change Gathering's state. -/
def State.intMod (s : State) (f : IntState → IntState) : State := { s with intr := f s.intr }

/-- Does an enabled bit of a status register stand? -/
def State.intLevel (s : State) (stat en : Nat) : Bool := (s.raw stat &&& s.raw en) != 0

/-- Is STACK_FAULT set for target t? -/
def State.stackFault (s : State) (t : Nat) : Bool := s.isF (Reg.INT_TGT_STAT t) Fld.INT_TGT_STAT_STACK_FAULT

/-- Is source n asserted or latched (R411)? -/
def State.pend (s : State) (n : Nat) : Bool :=
  if 160 ≤ n then s.intr.latch.contains n
  else if 16 ≤ n ∧ n < 80 then s.intLevel (Reg.PORT_INT_STAT (n - 16)) (Reg.PORT_INT_EN (n - 16))
  else if 96 ≤ n ∧ n < 128 then
    s.isF (Reg.SHU_CH_STAT (n - 96)) Fld.SHU_CH_STAT_IRQ || decide (s.chState (n - 96) = 5)
  else match n with
    | 0 => s.intLevel Reg.CHIP_ERR_STAT Reg.CHIP_ERR_EN
    | 1 => s.isF Reg.UPD_PRK_STAT Fld.UPD_PRK_STAT_DONE || s.isF Reg.UPD_PRK_STAT Fld.UPD_PRK_STAT_FAIL
    | 2 => s.intLevel Reg.TU_INT_STAT Reg.TU_INT_EN
    | 3 => s.intLevel Reg.DRN_INT_STAT Reg.DRN_INT_EN
    | 4 => s.intLevel Reg.STO_INT_STAT Reg.STO_INT_EN
    | 5 => s.intLevel Reg.TOT_INT_STAT Reg.TOT_INT_EN
    | 6 => s.intLevel Reg.UPL_INT_STAT Reg.UPL_INT_EN
    | 7 => s.ink.protIrq
    | 8 => decide (s.getF Reg.INK_FW_HEAD Fld.INK_FW_HEAD_PROD ≠ s.getF Reg.INK_FW_HEAD Fld.INK_FW_HEAD_CONS)
    | 9 => s.isF Reg.SHU_STAT Fld.SHU_STAT_BUSERR
    | 10 => (List.range 21).any (fun t => s.stackFault t)
    | 128 => s.intLevel Reg.SMP_INT_STAT Reg.SMP_INT_EN
    | 144 => s.intLevel Reg.NDL_INT_STAT Reg.NDL_INT_EN
    | 148 => s.intLevel Reg.UPD_INT_STAT Reg.UPD_INT_EN
    | _ => false

/-- Configuration of source n. -/
def State.srcCfg (s : State) (n : Nat) : Word := tget (fun _ => (0 : Word)) s.intr.cfg n

/-- PRI of source n. -/
def State.srcPri (s : State) (n : Nat) : Nat := fget Fld.INT_SRC_CFG_PRI (s.srcCfg n)

/-- Stack of target t, top first. -/
def State.stack (s : State) (t : Nat) : List (Nat × Nat) := tget (fun _ => []) s.intr.stks t

/-- Has some target claimed source n? -/
def State.claimed (s : State) (n : Nat) : Bool := s.intr.stks.any (fun e => e.2.any (fun x => decide (x.1 = n)))

/-- Ticks left of group g's hold-off. -/
def State.holdLeft (s : State) (g : Nat) : Nat := tget (fun _ => 0) s.intr.hold g

/-- Is source n enabled, routed to target t, asserted or latched, unclaimed, and outside hold-off (R419)? -/
def State.waking (s : State) (t n : Nat) : Bool :=
  bit (s.srcCfg n) 31 && bit (s.srcCfg n) t && !s.claimed n && decide (s.holdLeft (n / 16) = 0) && s.pend n

/-- Is source n eligible for target t (R412)? -/
def State.eligible (s : State) (t n : Nat) : Bool :=
  s.isF Reg.INT_CTL Fld.INT_CTL_EN && s.waking t n &&
    (match s.stack t with
    | [] => true
    | top :: _ => decide (top.2 < s.srcPri n))

/-- The better of two sources: higher PRI, then lower number (R413). -/
def State.better (s : State) (a : Option Nat) (n : Nat) : Option Nat :=
  match a with
  | none => some n
  | some m => if s.srcPri m < s.srcPri n then some n else some m

/-- The eligible source of highest PRI for target t, the lowest numbered among equals. Only configured sources can be
enabled. -/
def State.best (s : State) (t : Nat) : Option Nat :=
  ((s.intr.cfg.map (·.1)).filter (fun n => s.eligible t n)).foldl (fun a n => s.better a n) none

/-- MASK of target t. -/
def State.tgtMask (s : State) (t : Nat) : Bool := s.isF (Reg.INT_TGT_CTL t) Fld.INT_TGT_CTL_MASK

/-- Level of target t's line, LINE of INT_TGT_t_STAT (R417). -/
def State.intLine (s : State) (t : Nat) : Bool := (s.best t).isSome && !s.tgtMask t

/-- Are vector v's messages withheld? -/
def State.withheld (s : State) (v : Nat) : Bool := s.intr.fnMask || s.intr.vecMask.contains v || s.tgtMask (5 + v)

/-- A message of vector v is sent, or its pending bit set. -/
def State.msixSend (s : State) (v : Nat) : State :=
  if s.withheld v then s.intMod (fun i => { i with msixPend := v :: i.msixPend.filter (fun x => decide (x ≠ v)) })
  else (s.intMod (fun i => { i with msixPend := i.msixPend.filter (fun x => decide (x ≠ v)) })).emit (.msix v)

/-- Vector v is looked at: a message when it has come to have an eligible source, and no pending bit while it has none; a
message withheld until now is sent once nothing withholds it. -/
def State.msixLook (s : State) (v : Nat) : State :=
  match s.best (5 + v), s.intr.up.contains v with
  | none, _ => s.intMod (fun i => { i with
      up := i.up.filter (fun x => decide (x ≠ v)), msixPend := i.msixPend.filter (fun x => decide (x ≠ v)) })
  | some _, false => (s.intMod (fun i => { i with up := v :: i.up })).msixSend v
  | some _, true => if s.intr.msixPend.contains v ∧ s.withheld v = false then s.msixSend v else s

/-- Every vector is looked at (log entry 75). -/
def State.msixAll (s : State) : State := if s.intr.cfg.isEmpty then s else s.each (List.range 16) (fun v t => t.msixLook v)

/-- May an initiator reach target t's registers? Those of target 0 are hoop-only (R420). -/
def tgtOpen (t init : Nat) : Bool := decide (t ≠ 0) || isHoop init

/-- INT_CLAIM: a read of INT_CLAIM_t by an initiator (R413, R420). -/
def execIntClaim (t init : Nat) (s : State) : Host.Outcome State Fault Refusal :=
  if 21 ≤ t then ok s
  else if !tgtOpen t init then ok ((s.fwReg init (Reg.INT_CLAIM t)).answer 0)
  else match s.best t with
    | none => ok (s.answer 0x3FF)
    | some n =>
      let pri := s.srcPri n
      let hold := s.getF (Reg.INT_HOLD (n / 16)) Fld.INT_HOLD_HOLD
      ok (((s.intMod (fun i => { i with
        latch := i.latch.filter (fun x => decide (x ≠ n))
        stks := tset (fun _ => []) i.stks t ((n, pri) :: s.stack t)
        hold := tset (fun _ => 0) i.hold (n / 16) hold })).answer (word (pri * 2 ^ 16 + n))).msixAll)

/-- A completion that does not match the top of target t's stack (R415). -/
def State.stackErr (s : State) (t v : Nat) : State :=
  (s.raiseF (Reg.INT_TGT_STAT t) Fld.INT_TGT_STAT_STACK_FAULT).report 0x7101 4 (blockPath 7 6) (t :: bytesLE 2 v)

/-- INT_COMPLETE: a write of a source number to INT_COMPLETE_t (R415, R417). -/
def execIntComplete (t init v : Nat) (s : State) : Host.Outcome State Fault Refusal :=
  let v := v % 1024
  if 21 ≤ t then ok s
  else if !tgtOpen t init then ok (s.fwReg init (Reg.INT_COMPLETE t))
  else if v = 0x3FF then ok s
  else match s.stack t with
    | [] => ok ((s.stackErr t v).msixAll)
    | top :: r =>
      if top.1 ≠ v then ok ((s.stackErr t v).msixAll)
      else
        let u := s.intMod (fun i => { i with stks := tset (fun _ => []) i.stks t r })
        let w := if 5 ≤ t ∧ (u.best t).isSome then
            (u.intMod (fun i => { i with up := (t - 5) :: i.up.filter (fun x => decide (x ≠ t - 5)) })).msixSend (t - 5)
          else u
        ok w.msixAll

/-- FLUSH of target t: its stack is emptied (R416). -/
def State.intFlush (s : State) (t : Nat) : State :=
  s.intMod (fun i => { i with stks := tset (fun _ => []) i.stks t [] })

/-- INT_FLUSH: FLUSH written in INT_TGT_t_CTL. -/
def execIntFlush (t init : Nat) (s : State) : Host.Outcome State Fault Refusal :=
  if 21 ≤ t then ok s
  else if !tgtOpen t init then ok (s.fwReg init (Reg.INT_TGT_CTL t))
  else ok (s.intFlush t).msixAll

/-- HOLD_OFF_EXPIRE: group g's hold-off timer reaches 0 (R418). -/
def execHoldOffExpire (g : Nat) (s : State) : Host.Outcome State Fault Refusal :=
  ok (s.intMod (fun i => { i with hold := tset (fun _ => 0) i.hold g 0 })).msixAll

/-- Does a sleeping core wake (R419)? -/
def State.wakes (s : State) (t : Nat) : Bool := s.intr.cfg.any (fun e => s.waking t e.1)

/-- CORE_WAKE: the core of target t wakes from WFI if a source waits for it; with `wfi` it executes WFI at this moment
(log entry 101). -/
def execCoreWake (t : Nat) (wfi : Bool) (s : State) : Host.Outcome State Fault Refusal :=
  if 5 ≤ t then ok s
  else
    let sl := s.intr.sleep.filter (fun x => decide (x ≠ t))
    let asleep := wfi || s.intr.sleep.contains t
    ok (s.intMod (fun i => { i with sleep := if asleep ∧ s.wakes t = false then t :: sl else sl }))

/-- INT_SW_SET: the latch of a software source is set (R411). -/
def execIntSwSet (n : Nat) (s : State) : Host.Outcome State Fault Refusal :=
  if 160 ≤ n ∧ n < 512 then
    ok (s.intMod (fun i => { i with latch := n :: i.latch.filter (fun x => decide (x ≠ n)) })).msixAll
  else ok s

/-- INT_SW_CLEAR: the latch of a software source is cleared (R411). -/
def execIntSwClear (n : Nat) (s : State) : Host.Outcome State Fault Refusal :=
  if 160 ≤ n ∧ n < 512 then ok (s.intMod (fun i => { i with latch := i.latch.filter (fun x => decide (x ≠ n)) })).msixAll
  else ok s

/-- MSIX_UNMASK: the host clears the mask of a vector, or the function mask for 16 and above (R417). -/
def execMsixUnmask (v : Nat) (s : State) : Host.Outcome State Fault Refusal :=
  ok (s.intMod (fun i => if v < 16 then { i with vecMask := i.vecMask.filter (fun x => decide (x ≠ v)) }
    else { i with fnMask := false })).msixAll

end Sys2Proof.Machine
end

