-- ==== Sys2Proof/Machine/TimeCore.lean ====
section
/-! DEFINITION. Sys2Proof/Machine/TimeCore.lean: steps of TAI, the servo, and the RTC (R353–R355, R362–R366). -/

namespace Sys2Proof.Machine

/-- Change the Time Unit's state. -/
def State.tuMod (s : State) (f : TimeState → TimeState) : State := { s with time := f s.time }

/-- TAI in ns. -/
def State.taiInNs (s : State) : Nat := s.time.tai * 1000000000 / 2 ^ 32

/-- QUAL of TU_STAT, as the servo and SET leave it. -/
def State.setQual (s : State) (q : Nat) : State := s.setF Reg.TU_STAT Fld.TU_STAT_QUAL q


/-- SRC of the servo. -/
def State.tuSrc (s : State) : Nat := s.getF Reg.TU_SERVO Fld.TU_SERVO_SRC

/-- STATE of the servo: 0 = free, 1 = acquire, 2 = locked, 3 = holdover. -/
def State.servo (s : State) : Nat := s.getF Reg.TU_SERVO_STAT Fld.TU_SERVO_STAT_STATE

/-- Set the servo's STATE. -/
def State.setServo (s : State) (v : Nat) : State := s.setF Reg.TU_SERVO_STAT Fld.TU_SERVO_STAT_STATE v

/-- Set GOOD. -/
def State.setGood (s : State) (v : Nat) : State := s.setF Reg.TU_SERVO_STAT Fld.TU_SERVO_STAT_GOOD v

/-- TAI becomes valid, if it was not: freeze scheduling may begin (R257). -/
def State.taiBecomesValid (s : State) : State :=
  if s.taiValid then s else (s.raiseF Reg.TU_STAT Fld.TU_STAT_TAI_VALID).drnPlan

/-- An integer near num ÷ den; which way an inexact quotient is rounded is not stated (log entry 104). -/
def State.near (s : State) (num : Int) (den : Nat) : Int × State :=
  if num % (den : Int) = 0 then (Int.fdiv num den, s) else (Int.fdiv num den + (s.drawn 2 : Nat), s.draw)

/-- A step of TAI by d units of 2^−32 s (R354). -/
def State.timeStep (s : State) (d : Int) : State :=
  let was := s.taiValid
  let m0 := s.taiMin
  let ns := clampI (-(2 ^ 63 : Nat)) ((2 ^ 63 - 1 : Nat)) (Int.tdiv (d * 1000000000) (2 ^ 32))
  let (sec, t) := s.near d (2 ^ 32)
  let t := t.tuMod (fun x => { x with
    tai := (x.tai + d).toNat, lastPps := x.lastPps.map (fun p => (p + ns).toNat) })
  let t := ((t.bump Reg.TU_STEP_CNT).raiseF Reg.TU_INT_STAT Fld.TU_INT_STAT_STEP).report 0x9100 2 (blockPath 9 2)
    (bytesLE 8 (unsigned 64 ns))
  let t := t.when was (fun u => u.totStep m0 (decide (0 ≤ d)) sec)
  (t.drnStep).each (List.range 64) (fun n u =>
    if u.persona n = 2 ∨ u.persona n = 3 then u.airStep n else u)

/-- TAI changes by d; a change below 1 ns is no step (R353). -/
def State.taiChange (s : State) (d : Int) : State :=
  if d.natAbs * 1000000000 < 2 ^ 32 then s.tuMod (fun x => { x with tai := (x.tai + d).toNat }) else s.timeStep d

/-- Seconds and ns in units of 2^−32 s: the first instant that reads as them. -/
def taiOf (sec ns : Nat) : Nat := sec * 2 ^ 32 + (ns * 2 ^ 32 + 999999999) / 1000000000

/-- fmax of R364 in 1/256 ppb. -/
def State.fmax (s : State) : Int := s.getF Reg.TU_SERVO Fld.TU_SERVO_FMAX_PPM * 1000 * 256

/-- The servo's STATE and QUAL after a sample with `good` samples in a row within LOCK_NS. -/
def State.servoGood (s : State) (good : Nat) : State :=
  let t := s.setGood good
  if good = 8 then
    (t.when (decide (s.servo ≠ 2)) (fun u => u.raiseF Reg.TU_INT_STAT Fld.TU_INT_STAT_LOCK)).setServo 2 |>.setQual 4
  else (t.setServo 1).setQual 3

/-- What the servo makes of a sample θ in ns with its interval τ in ticks (R364); `first` tells of the state before it. -/
def State.servoStep (s : State) (first : Bool) (th : Int) (tau : Nat) : State :=
  if s.getF Reg.TU_SERVO Fld.TU_SERVO_STEP_US * 1000 < th.natAbs ∧ (s.isF Reg.TU_SERVO Fld.TU_SERVO_STEP_EN ∨ first = true) then
    let (u, t) := s.near (-th * 2 ^ 32) 1000000000
    (t.servoGood 0).timeStep u
  else if first = true ∧ s.tuSrc = 1 then s.servoGood 0
  else
    let tau := max 1 tau
    let (di, t) := s.near (s.getF Reg.TU_GAIN Fld.TU_GAIN_KI * th * 4096) tau
    let i := clampI (-s.fmax) s.fmax (s.time.i + di)
    let (dp, t) := t.near (s.getF Reg.TU_GAIN Fld.TU_GAIN_KP * th * 4096) tau
    let f := clampI (-s.fmax) s.fmax (dp + i)
    let t := (t.tuMod (fun x => { x with i := i, f := f })).wrN Reg.TU_FREQ (unsigned 32 (-f))
    t.servoGood (if th.natAbs ≤ s.getF Reg.TU_SERVO Fld.TU_SERVO_LOCK_NS then
      min (s.getF Reg.TU_SERVO_STAT Fld.TU_SERVO_STAT_GOOD + 1) 8 else 0)

/-- A servo sample θ in ns with its interval τ in ticks (R364). -/
def State.servoSample (s : State) (th : Int) (tau : Nat) : State :=
  let t := (s.bump Reg.TU_SAMPLE_CNT).setF Reg.TU_SERVO_STAT Fld.TU_SERVO_STAT_LAST_OFS
    (unsigned 24 (clampI (-8388608) 8388607 th))
  ((t.tuMod (fun x => { x with first := false, lastSmp := some x.sched })).servoStep s.time.first th tau).taiBecomesValid

/-- The servo enters holdover: QUAL 5 and TU_FREQ := −i (R365). -/
def State.holdover (s : State) : State := ((s.setServo 3).setQual 5).wrN Reg.TU_FREQ (unsigned 32 (-s.time.i))

/-- May a standby's pair samples be taken: STATE 2 or 3 (R362)? -/
def State.pairSamples (s : State) : Bool := decide (s.getF Reg.SMP_PAIR_STAT Fld.SMP_PAIR_STAT_STATE = 2 ∨
  s.getF Reg.SMP_PAIR_STAT Fld.SMP_PAIR_STAT_STATE = 3)

/-- With SRC 3 and no samples to come, a servo that was acquiring or locked enters holdover at once (R362). -/
def State.pairHoldover (s : State) : State := if s.servo = 1 ∨ s.servo = 2 then s.holdover else s

/-- The pair's STATE has changed from `old`: what SRC 3 makes of it (R362). -/
def State.servoPair (s : State) (old : Nat) : State :=
  if s.tuSrc ≠ 3 then s
  else if s.pairSamples then
    (if old = 2 ∨ old = 3 then s else s.tuMod (fun x => { x with first := true }))
  else s.pairHoldover

/-- SRC has been changed (R363): the servo restarts. A SRC 3 that takes no sample leaves a free servo free and puts any
other in holdover (log entry 105). -/
def State.srcChanged (s : State) : State :=
  let t := s.tuMod (fun x => { x with first := true, lastSmp := none })
  if s.tuSrc = 0 then t.setServo 0
  else if s.tuSrc = 3 ∧ s.pairSamples = false then t.pairHoldover
  else (t.setServo 1).when (decide (s.getF Reg.TU_STAT Fld.TU_STAT_QUAL = 4 ∨ s.getF Reg.TU_STAT Fld.TU_STAT_QUAL = 5))
    (fun u => u.setQual 3)

/-- SET: the staged time is applied (R355). -/
def State.taiSet (s : State) : State :=
  let sec := s.num Reg.TU_TAI_S_LO + s.getF Reg.TU_TAI_S_HI Fld.TU_TAI_S_HI_SEC_HI * 2 ^ 32
  let ns := s.getF Reg.TU_TAI_NS Fld.TU_TAI_NS_NS
  let d : Int := if s.isF Reg.TU_CTL Fld.TU_CTL_REL then
      signed 48 sec * 2 ^ 32 + ((taiOf 0 ns : Nat) : Int) else (taiOf sec ns : Nat) - (s.time.tai : Int)
  let t := (s.taiChange d).taiBecomesValid
  (if s.tuSrc = 0 then t.setQual 2 else (t.setQual 3).tuMod (fun x => { x with first := true, lastSmp := none })).bump
    Reg.TU_SET_CNT

/-- The RTC is reloaded from valid TAI (R366). -/
def State.rtcReload (s : State) : State :=
  if s.taiValid ∧ s.tbLost = false then s.aoMod (fun a => { a with rtc := s.time.tai / 2 ^ 17, rtcOk := true }) else s

/-- A transmit stamp enters uplink u's FIFO, or is dropped (R361). -/
def State.txtsPush (s : State) (u w0 w1 : Nat) : State :=
  let q := if u = 0 then s.time.txtsA else s.time.txtsB
  if 64 ≤ q.length then (s.bump Reg.TU_TXTS_DROP_CNT).raiseF Reg.TU_INT_STAT Fld.TU_INT_STAT_TXTS_OVF
  else
    let t := s.tuMod (fun x => if u = 0 then { x with txtsA := x.txtsA ++ [(w0, w1)] } else { x with txtsB := x.txtsB ++ [(w0, w1)] })
    t.when q.isEmpty (fun v => v.raiseBit Reg.TU_INT_STAT (13 + u))

/-- Uplink u's FIFO of transmit stamps. -/
def State.txts (s : State) (u : Nat) : List (Nat × Nat) := if u = 0 then s.time.txtsA else s.time.txtsB

/-- A store of a port's AFE delays (R369). -/
def State.afeStore (s : State) (port tx rx : Nat) : State :=
  (s.setF Reg.TU_AFE_ADJ Fld.TU_AFE_ADJ_PORT port).tuMod (fun x => { x with
    afe := tset (fun _ => 0) x.afe (port % 64) (tx % 4096 * 4096 + rx % 4096) })

end Sys2Proof.Machine
end

