-- ==== Sys2Proof/Machine/PairMove.lean ====
section
/-! DEFINITION. Sys2Proof/Machine/PairMove.lean: changes of a pair's STATE, yielding and releasing (R487, R490, R493), which the
recovery ladder and the power pins use too. -/

namespace Sys2Proof.Machine

/-- Path of the pair link, block 3 of UP. -/
abbrev pairPath : Nat := blockPath 9 3

/-- HOLD: this device drives PAIR_HOLD_N low. -/
def State.pairHold (s : State) : Bool := s.isF Reg.SMP_PAIR_STAT Fld.SMP_PAIR_STAT_HOLD

/-- LINK: a STATUS was received within 5 ms. -/
def State.pairLink (s : State) : Bool := s.isF Reg.SMP_PAIR_STAT Fld.SMP_PAIR_STAT_LINK

/-- May this device take part in a pair: grade AF1064-BP and role A or B (R487, R491)? -/
def State.pairAble (s : State) : Bool :=
  decide (s.getF Reg.CHIP_ID Fld.CHIP_ID_GRADE = 1 ∧ (s.hoop.pairRole = 1 ∨ s.hoop.pairRole = 2))

/-- STATE becomes `new`: PAIR_STATE, record 0x9103 and what the servo makes of it. -/
def State.pairMove (s : State) (new : Nat) : State :=
  let old := s.pairState
  if old = new then s
  else
    let t := (s.setF Reg.SMP_PAIR_STAT Fld.SMP_PAIR_STAT_STATE new).raiseF Reg.SMP_INT_STAT Fld.SMP_INT_STAT_PAIR_STATE
    let act := decide ((new = 4 ∨ new = 5) ∧ old ≠ 4 ∧ old ≠ 5)
    (t.report 0x9103 (if act then 4 else 2) pairPath
      ([old, new, t.getF Reg.SMP_PAIR_STAT Fld.SMP_PAIR_STAT_REASON] ++ bytesLE 4 t.ao.epoch)).servoPair old

/-- The link starts anew: messages are numbered from 1 again, and what waited for confirmation is mirrored again once a partner
is there (R488). -/
def State.linkReset (s : State) : State :=
  (s.pairMod (fun p => { p with txSeq := 0, rxSeq := 0, confirmed := 0, sent := [] })).setF Reg.SMP_PAIR_STAT
    Fld.SMP_PAIR_STAT_LINK 0

/-- PAIR_HOLD_N is released and the device enters STALE. -/
def State.pairRelease (s : State) : State :=
  ((s.setF Reg.SMP_PAIR_STAT Fld.SMP_PAIR_STAT_HOLD 0).pairMod (fun p => { p with taking := 0 })).pairMove 6

/-- The 24-byte records that record unit p holds of a slot. -/
def State.slotRecs (s : State) (p slot : Nat) : Bytes :=
  let d := s.storeGet 0 (if s.partUnits 0 = 0 then 0 else p % s.partUnits 0)
  let rs := if p = s.num Reg.STO_REC_HEAD then s.sto.recs
    else (List.range (min (u16 d 0) 170)).map (fun i => slice d (16 + 24 * i) 24)
  (rs.filter (fun r => decide (u32 r 0 % 2 ^ 20 = slot))).flatten

/-- Bodies of the COMMIT messages journalled at the present epoch (R493). -/
def State.epochCommits (s : State) : List Bytes :=
  let es := (s.sto.jlog.filter (fun e => decide (s.pair.epochJ ≤ e.1))).flatMap (·.2) ++ s.sto.jpend
  es.filterMap (fun e => match e with
    | .commit ctr p mst shd => some (commitEntry ctr p mst shd ++
        (if p = 0xFFFFFFFF then [] else s.slotRecs p (u32 ctr 0 % 2 ^ 20)))
    | _ => none)

/-- A device that releases to a keeper sends it every COMMIT it journalled at an epoch the keeper lacks (R493). -/
def State.sendKeeper (s : State) : State :=
  if s.pair.peerEpoch = s.ao.epoch then s else s.each s.epochCommits (fun b t => t.pairSend 2 b)

/-- A holding device yields (R490): nothing more is taken to commit, RELEASE goes out, PAIR_HOLD_N is released. -/
def State.pairYield (s : State) : State :=
  if s.pairHold then
    ((s.pairMod (fun p => { p with held := true })).pairSend 8 (bytesLE 8 s.pair.confirmed)).pairRelease
  else s

/-- Cascade ports that are enabled send HELLO. -/
def State.pairHello (s : State) : State :=
  s.each (List.range 64) (fun n t => if t.persona n = 4 ∧ t.portEn n then t.casHello n else t)

/-- A witness grant is needed. -/
def State.witNeed (s : State) : State :=
  (s.pairMod (fun p => { p with granted := false })).raiseF Reg.SMP_INT_STAT Fld.SMP_INT_STAT_WIT_NEED

/-- The device becomes active for a REASON (R491): epoch, STATE 4 or 5, TAKE_MS, HELLO on its cascade ports. A fraction of a
millisecond may be rounded either way (log entry 110). -/
def State.pairActive (s : State) (reason : Nat) : State :=
  let r := s.near (((s.now + 2 ^ 32 - s.pair.since) % 2 ^ 32 * 1000 : Nat) : Int) (2 ^ 20)
  let t := r.2
  let e := if reason = 3 then t.num Reg.SMP_PAIR_WIT_EP else t.ao.epoch + 1
  let u := t.aoMod (fun a => { a with epoch := e % 2 ^ 32 })
  let u := (u.setF Reg.SMP_PAIR_STAT Fld.SMP_PAIR_STAT_REASON reason).setF Reg.SMP_PAIR_STAT Fld.SMP_PAIR_STAT_TAKE_MS
    (min r.1.toNat 65535)
  let u := u.pairMod (fun p => { p with taking := 0, held := false, released := decide (reason = 1), epochJ := u.sto.jseq })
  if u.pairLink then (u.pairMove 4).pairHello
  else ((u.pairMove 5).when (decide (reason ≠ 3)) State.witNeed).pairHello

/-! ## Loss of the link (R489, R493). -/

/-- No STATUS for 5 ms: LINK is 0, and an active device holds its commits or goes on alone. -/
def State.pairLost (s : State) : State :=
  let t := ((s.report 0x9104 3 pairPath []).linkReset).inkMod (fun i => { i with
    commits := i.commits.map (fun c => { c with mseq := 0 }) })
  let t := t.pairMod (fun p => { p with since := s.now })
  match s.pairState with
  | 4 => if s.pair.released then (t.pairMove 5).witNeed else (t.pairMod (fun p => { p with held := true })).witNeed
  | 2 => (t.setF Reg.SMP_PAIR_SYNC Fld.SMP_PAIR_SYNC_PHASE 0).pairMove 6
  | _ => t

/-- The pair link gives up what it has under way: the link is lost (log entry 156). -/
def State.pairAbandon (s : State) : State := if s.pairLink then s.pairLost else s

end Sys2Proof.Machine
end

