-- ==== Sys2Proof/Machine/Totaliser.lean ====
section
/-! DEFINITION. Sys2Proof/Machine/Totaliser.lean: metrology samples and blocks, faults, the seal and its sessions, calibration,
the calendar's load, restoration (chapter "Totaliser metrology, the seal and billing registers"). -/

namespace Sys2Proof.Machine

/-! ## Signal chain from stage 4 on (R321–R323). -/

/-- Word w of a calibration set. -/
def calWord (c : Bytes) (w : Nat) : Nat := u32 c (4 * w)

/-- Is a calibration set valid (R326)? -/
def calSetOk (c : Bytes) : Bool :=
  decide (calWord c 31 = crc32c (c.take 124)) &&
    [7, 8, 9].all (fun w => decide (-65536 ≤ signed 32 (calWord c w) ∧ signed 32 (calWord c w) ≤ 65536)) &&
    [10, 11, 12, 13, 14, 15].all (fun w => decide (-100000 ≤ signed 32 (calWord c w) ∧ signed 32 (calWord c w) ≤ 100000)) &&
    decide (1 ≤ calWord c 16 ∧ calWord c 16 ≤ 1000000 ∧ (calWord c 17 = 50 ∨ calWord c 17 = 60) ∧ calWord c 18 ≤ 1) &&
    ((List.range 12).all (fun i => decide (calWord c (19 + i) = 0)))

/-- Is channel c faulted? -/
def State.chFault (s : State) (c : Nat) : Bool := decide (s.getF Reg.TOT_STAT Fld.TOT_STAT_CH_FAULT / 2 ^ c % 2 = 1)

/-- WIRING = 1: only phase 1 is measured. -/
def State.single (s : State) : Bool := decide (calWord s.tot.live 18 = 1)

/-- Sample x of channel c of phase p as it enters stage 4: 0 while faulted, and 0 for an unmeasured phase. -/
def State.chanIn (s : State) (c p : Nat) (x : Int) : Int := if s.chFault c || (s.single && decide (p ≠ 0)) then 0 else x

/-- Power of phase p from voltage x and current y, with the offset word w, in units of 1 ÷ (1,000 × 2^78) W or var. -/
def State.phasePower (s : State) (p w : Nat) (x y : Int) : Int :=
  if s.tot.low.getD p false then 0
  else 1000 * x * y * calWord s.tot.live p * calWord s.tot.live (3 + p) + signed 32 (calWord s.tot.live w) * 2 ^ 78

/-- METROLOGY_SAMPLE: one sample of 4 kS/s. v, i and q are the voltages, the currents and the quadrature currents of the three
phases after stages 1–3, 5 and 6 of R321, n the neutral current, in converter units. -/
def execMetrologySample (v i q : List Int) (n : Int) (s : State) : Host.Outcome State Fault Refusal :=
  if s.totEn && !s.tot.stopped && !s.noNew 8 3 then
    let x := fun p => s.chanIn p p (v.getD p 0)
    let y := fun p => s.chanIn (3 + p) p (i.getD p 0)
    let z := fun p => s.chanIn (3 + p) p (q.getD p 0)
    let m := if s.chFault 6 then 0 else n
    let on := fun p => !(s.single && decide (p ≠ 0))
    let ps := (List.range 3).map (fun p => if on p then s.phasePower p (10 + p) (x p) (y p) else 0)
    let qs := (List.range 3).map (fun p => if on p then s.phasePower p (13 + p) (x p) (z p) else 0)
    let b := s.tot.blk
    let sq := fun (w : Int) => w.natAbs * w.natAbs
    let b' : TotBlk := {
      n := b.n + 1
      v2 := (List.range 3).map (fun p => b.v2.getD p 0 + sq (x p))
      i2 := (List.range 3).map (fun p => b.i2.getD p 0 + sq (y p)) ++ [b.i2.getD 3 0 + sq m]
      p := (List.range 3).map (fun k => b.p.getD k 0 + ps.getD k 0)
      q := (List.range 3).map (fun k => b.q.getD k 0 + qs.getD k 0) }
    let faulted := decide (s.getF Reg.TOT_STAT Fld.TOT_STAT_CH_FAULT ≠ 0)
    ok ((s.integrate ps qs).totMod (fun t => { t with
      blk := b', good := if faulted then 0 else min (t.good + 1) 8000 })).totValid
  else ok s

/-- RMS in thousandths of the unit, rounded down, from the sum of squares of 800 samples and the scale word. -/
def rmsMilli (sum scale : Nat) : Nat := isqrt (sum * (1000 * scale) * (1000 * scale) / (800 * 2 ^ 78))

/-- A published value, whose rounding the spec does not give: the value rounded down or one more (free). -/
def State.rounded (s : State) (k : Nat) (v : Int) : State :=
  (s.wrN (Reg.TOT_INST k) (unsigned 32 (v + s.drawn 2))).draw

/-- METROLOGY_BLOCK_PUBLISH: 800 samples are complete (R323). `freq` is the frequency measured from zero crossings, mHz. Apparent
power and the rounding are free values (log entry 86). -/
def execMetrologyBlockPublish (freq : Nat) (s : State) : Host.Outcome State Fault Refusal :=
  let b := s.tot.blk
  if s.totEn && decide (800 ≤ b.n) then
    let live := s.tot.live
    let vr := (List.range 3).map (fun p => (rmsMilli (b.v2.getD p 0) (calWord live p) : Int))
    let ir := (List.range 4).map (fun p => (rmsMilli (b.i2.getD p 0) (calWord live (3 + p)) : Int))
    let w := fun (x : Int) => Int.fdiv x (800 * 1000 * 2 ^ 78)
    let pw := b.p.map w
    let tot := [w (b.p.foldl (· + ·) 0), w (b.q.foldl (· + ·) 0)]
    let t := s.each ((vr ++ ir ++ pw ++ tot).zipIdx) (fun e u => u.rounded e.2 e.1)
    let va := t.drawn (2 ^ 32)
    let t := (t.wrN (Reg.TOT_INST 12) va).draw
    let p := signed 32 (t.num (Reg.TOT_INST 10))
    let pf : Int := if va = 0 then t.drawn 20001 - 10000 else Int.tdiv (p * 10000) va
    let t := (t.draw.wrN (Reg.TOT_INST 13) freq).wrN (Reg.TOT_INST 14) (unsigned 32 pf)
    let t := (t.wrN (Reg.TOT_INST 15) (t.num (Reg.TOT_INST 15) + 1)).totMod (fun x => { x with
      blk := {}
      low := (List.range 3).map (fun p => decide (ir.getD p 0 < calWord live 16)) })
    ok (t.raiseF Reg.TOT_INT_STAT Fld.TOT_INT_STAT_BLOCK)
  else ok s

/-! ## Modulator faults (R320). -/

/-- Channel c becomes faulted; unmeasured channels are not checked. -/
def State.modFault (s : State) (c : Nat) : State :=
  if 6 < c ∨ s.chFault c ∨ (s.single ∧ (c = 1 ∨ c = 2 ∨ c = 4 ∨ c = 5)) then s
  else
    let t := s.setF Reg.TOT_STAT Fld.TOT_STAT_CH_FAULT (s.getF Reg.TOT_STAT Fld.TOT_STAT_CH_FAULT + 2 ^ c)
    (((((t.bump Reg.TOT_MOD_FAULT_CNT).raiseF Reg.TOT_INT_STAT Fld.TOT_INT_STAT_CH_FAULT).totEvt 9 (2 * c) 0).report 0x8101 3
      (blockPath 8 3) [c]).totMod (fun x => { x with good := 0 })).totValid

/-- MODULATOR_FAULT: channel c has shown no transition for 6.4 µs. -/
def execModulatorFault (c : Nat) (s : State) : Host.Outcome State Fault Refusal := ok (s.modFault c)

/-- MODULATOR_FAULT_CLEAR: 4,000 good samples of channel c. -/
def execModulatorFaultClear (c : Nat) (s : State) : Host.Outcome State Fault Refusal :=
  if s.chFault c ∧ c ≤ 6 then
    ok (((s.setF Reg.TOT_STAT Fld.TOT_STAT_CH_FAULT (s.getF Reg.TOT_STAT Fld.TOT_STAT_CH_FAULT - 2 ^ c)).totMod
      (fun x => { x with good := 0 })).totValid)
  else ok s

/-! ## Legal log and sessions (R327–R331). -/

/-- LOG_USED. -/
def State.logUsed (s : State) : Nat := s.getF Reg.TOT_SEAL_STAT Fld.TOT_SEAL_STAT_LOG_USED

/-- Legal log record i. -/
def State.legalAt (s : State) (i : Nat) : Bytes := slice (s.storeGet 3 (i / 64)) (64 * (i % 64)) 64

/-- LOG_USED and LOG_FULL after a record. -/
def State.logCount (s : State) (n : Nat) : State :=
  let t := s.setF Reg.TOT_SEAL_STAT Fld.TOT_SEAL_STAT_LOG_USED n
  let full := decide (1022 ≤ n)
  (t.setF Reg.TOT_STAT Fld.TOT_STAT_LOG_FULL full.toNat).when (full && !s.isF Reg.TOT_STAT Fld.TOT_STAT_LOG_FULL)
    (fun u => u.raiseF Reg.TOT_INT_STAT Fld.TOT_INT_STAT_LOG_FULL)

/-- Append a legal log record. -/
def State.legalAppend (s : State) (type param old new : Nat) : State :=
  let n := s.logUsed
  if n < 1024 ∧ s.legalOpen then
    let b := bytesLE 2 n ++ [type, s.cntLeft 5 0] ++ bytesLE 6 s.taiSec ++ bytesLE 3 s.ao.pcc ++ [0, 0, 0] ++ bytesLE 4 param ++
      bytesLE 4 old ++ bytesLE 4 new ++ padTo 32 s.tot.logHash
    let r := b ++ bytesLE 4 (crc32c b)
    ((s.legalPut (n / 64) (64 * (n % 64)) r).totMod (fun t => { t with
      logHash := sha256 r, calCrc := if type = 2 then some new else t.calCrc })).logCount (n + 1)
  else s

/-- Word 31 of the live set. -/
def State.liveCrc (s : State) : Nat := calWord s.tot.live 31

/-- An open session closes with a record of a TYPE. -/
def State.sessionClose (s : State) (type : Nat) : State :=
  if s.session then (s.legalAppend type 0 s.liveCrc s.liveCrc).sessionDrop else s

/-- ERR of TOT_SEAL_STAT. -/
def State.sealErr (s : State) (e : Nat) : State := s.setF Reg.TOT_SEAL_STAT Fld.TOT_SEAL_STAT_ERR e

/-- A tamper is recorded (R327). -/
def State.tamper (s : State) : State :=
  (((s.totEvt 7 0 0).report 0x8100 5 (blockPath 8 3) []).bump Reg.TOT_TAMPER_CNT).raiseF Reg.TOT_INT_STAT
    Fld.TOT_INT_STAT_SEAL_OPENED

/-- SEAL_OPENED: SEAL_N has been high for 20 ms. While the device is held in reset the opening is kept for the next start. -/
def execSealOpened (s : State) : Host.Outcome State Fault Refusal :=
  if s.ao.sealOpen then ok s
  else if s.pins.reset then ok (s.aoMod (fun a => { a with sealOpen := true, sealLate := true }))
  else
    let t := (s.aoMod (fun a => { a with sealOpen := true })).setF Reg.TOT_STAT Fld.TOT_STAT_SEAL_OPEN 1
    ok (if s.session then t else t.tamper)

/-- SEAL_CLOSED: SEAL_N has been low for 20 ms; any open session closes. -/
def execSealClosed (s : State) : Host.Outcome State Fault Refusal :=
  if s.ao.sealOpen then
    let t := s.aoMod (fun a => { a with sealOpen := false })
    if s.pins.reset then ok t
    else ok (((t.setF Reg.TOT_STAT Fld.TOT_STAT_SEAL_OPEN 0).totEvt 8 0 0).sessionClose 3)
  else ok s

/-- Why a SPEND is refused, 0 = it is not (R328, R329). -/
def State.spendErr (s : State) : Nat :=
  if !s.ao.sealOpen then 1 else if s.session then 5 else if 1021 < s.logUsed then 3 else if s.phase ≠ 6 then 4
  else if s.cntLeft 5 0 = 0 then 2 else 0

/-- SEAL_SPEND: one unseal count opens a session (R328). -/
def execSealSpend (s : State) : Host.Outcome State Fault Refusal :=
  s.onTot Reg.TOT_SEAL_CTL <|
  if s.spendErr ≠ 0 then ok ((s.sealErr s.spendErr).bump Reg.TOT_REFUSE_CNT)
  else
    let t := (s.unsealSpend.sealErr 0).legalAppend 1 0 s.liveCrc s.liveCrc
    ok (((t.setF Reg.TOT_STAT Fld.TOT_STAT_SESSION 1).totMod (fun x => { x with staging := x.live, sessAt := s.ao.opsec })).raiseF
      Reg.TOT_INT_STAT Fld.TOT_INT_STAT_SESSION).totValid

/-- SEAL_END. -/
def execSealEnd (s : State) : Host.Outcome State Fault Refusal := s.onTot Reg.TOT_SEAL_CTL (ok (if s.session then s.sessionClose 4 else s.sealErr 7))

/-- SESSION_TIMEOUT: SESSION_TO seconds have passed since the session opened. -/
def execSessionTimeout (s : State) : Host.Outcome State Fault Refusal := ok (s.sessionClose 5)

/-- LEFT_MIN: whole minutes until SESSION_TO. -/
def State.sessLeft (s : State) : Nat :=
  if s.session then (s.tot.sessAt + s.getF Reg.TOT_SEAL_CTL Fld.TOT_SEAL_CTL_SESSION_TO - s.ao.opsec) / 60 else 0

/-! ## Calibration (R326, R329, R332). -/

/-- Words that differ between two sets, as a mask. -/
def calDiff (a b : Bytes) : Nat :=
  (List.range 32).foldl (fun m w => m + (if calWord a w = calWord b w then 0 else 2 ^ w)) 0

/-- Calibration slot (fine unit 16 or 17) that does not hold the live set. -/
def State.calOther (s : State) : Nat := if (s.storeGet 3 16).take 128 = s.tot.live then 17 else 16

/-- CAL_COMMIT: staging becomes the live set; `fail` says that a slot or log write failed (R329). -/
def execCalCommit (fail : Bool) (s : State) : Host.Outcome State Fault Refusal :=
  s.onTot Reg.TOT_SEAL_CTL <|
  if !s.session then ok ((s.fwReg 0 Reg.TOT_SEAL_CTL).sealErr 7)
  else if !calSetOk s.tot.staging then ok (s.sealErr 6)
  else if 1023 ≤ s.logUsed then ok (s.sealErr 3)
  else if fail ∨ !s.legalOpen then ok (s.sealErr 8)
  else
    let st := s.tot.staging
    let t := (s.legalPut s.calOther 0 st).sync
    let t := (t.legalAppend 2 (calDiff st s.tot.live) s.liveCrc (calWord st 31)).sync
    ok (((t.totMod (fun x => { x with live := st, subIrr := true })).billFlag 3).sealErr 0)

/-- CAL_DATA_ACCESS: a read of the selected calibration word, or the hoop's write of it. -/
def execCalDataAccess (wr : Option Nat) (s : State) : Host.Outcome State Fault Refusal :=
  if !s.exists_ 8 3 then (if wr.isSome then s.onTot Reg.TOT_CAL_DATA (ok s) else ok (s.answer 0)) else
  let live := s.isF Reg.TOT_CAL_SEL Fld.TOT_CAL_SEL_TARGET
  let w := s.getF Reg.TOT_CAL_SEL Fld.TOT_CAL_SEL_WORD
  let next := fun (u : State) => u.setF Reg.TOT_CAL_SEL Fld.TOT_CAL_SEL_WORD (w + 1)
  match wr with
  | none => ok (next (s.answer (word (calWord (if live then s.tot.live else s.tot.staging) w))))
  | some v =>
    if live then
      if s.totEn ∨ s.session then ok (next (s.sealErr 7))
      else ok (next (s.totMod (fun t => { t with live := overlay t.live (4 * w) (bytesLE 4 v) })))
    else if s.session then ok (next (s.totMod (fun t => { t with staging := overlay t.staging (4 * w) (bytesLE 4 v) })))
    else ok (next ((s.fwReg 0 Reg.TOT_CAL_DATA).sealErr 7))

/-- TOT_ENABLE: EN is set once, and only for the committed or the factory set (R332). The factory slot is slot A. -/
def execTotEnable (s : State) : Host.Outcome State Fault Refusal :=
  s.onTot Reg.TOT_CTL <|
  let want := s.tot.calCrc.getD (calWord (s.storeGet 3 16) 31)
  if s.totEn then ok s
  else if s.liveCrc ≠ crc32c (s.tot.live.take 124) ∨ s.liveCrc ≠ want then ok (s.bump Reg.TOT_REFUSE_CNT)
  else ok (((s.setF Reg.TOT_CTL Fld.TOT_CTL_EN 1).totMod (fun t => { t with
    good := 0, blk := {}, low := [false, false, false] })).totValid)

/-! ## Calendar and billing commands (R337, R338, R340). -/

/-- PCAL_LOAD: a passive calendar is read from DRAM; `err` says that the buffer could not be read. -/
def execPcalLoad (err : Bool) (s : State) : Host.Outcome State Fault Refusal :=
  s.onTot Reg.TOT_PCAL_CTL <|
  let a := s.addr64 Reg.TOT_PCAL_LO Reg.TOT_PCAL_HI 14
  let c := s.rdMem a 10516
  let st := if s.session then 4
    else if err ∨ s.dramFit < a + 10516 then 5
    else if u32 c 10512 ≠ crc32c (c.take 10512) then 1
    else if !calOk c then 2
    else if calAct c ≤ s.taiSec then 3
    else 0
  let t := s.setF Reg.TOT_PCAL_CTL Fld.TOT_PCAL_CTL_STATUS st
  if st ≠ 0 then ok ((t.bump Reg.TOT_REFUSE_CNT).totEvt 11 0 st)
  else ok (((t.totMod (fun x => { x with pcal := c })).calPut 24 c).setF Reg.TOT_PCAL_CTL Fld.TOT_PCAL_CTL_PRESENT 1)

/-- PCAL_CANCEL: the passive calendar is discarded. -/
def execPcalCancel (s : State) : Host.Outcome State Fault Refusal :=
  s.onTot Reg.TOT_PCAL_CTL (ok (((s.totMod (fun x => { x with pcal := [] })).calPut 24 []).setF Reg.TOT_PCAL_CTL Fld.TOT_PCAL_CTL_PRESENT 0))

/-- Does the totaliser take the minutes' steps now: running, restored, TAI valid? -/
def State.totRuns (s : State) : Bool :=
  s.totEn && !s.tot.stopped && s.tot.cut.isNone && !s.tot.fresh && s.taiValid

/-- TAI_MINUTE_BOUNDARY: TAI has reached a whole minute. -/
def execTaiMinuteBoundary (s : State) : Host.Outcome State Fault Refusal := ok (if s.totRuns then s.totMinute s.taiMin else s)

/-- BILLING_FORCE: a boundary at the present TAI minute (R340). -/
def execBillingForce (s : State) : Host.Outcome State Fault Refusal :=
  s.onTot Reg.TOT_BILL_CTL (ok (if s.taiMin ≤ s.tot.lastB ∨ !s.taiValid then s.bump Reg.TOT_REFUSE_CNT else s.billAt s.taiMin true))

/-- STATE_RECORD_PERIODIC: 3,600 s since the last periodic record. -/
def execStateRecordPeriodic (s : State) : Host.Outcome State Fault Refusal :=
  ok (if s.totEn && !s.tot.stopped && s.legalOpen then s.stateRec 1 else s)

/-- BILL_SNAP: the selected set goes to the read buffer. -/
def execBillSnap (s : State) : Host.Outcome State Fault Refusal :=
  s.onTot Reg.TOT_BILL_SEL (ok (s.totMod (fun t => { t with billBuf := if s.isF Reg.TOT_BILL_SEL Fld.TOT_BILL_SEL_SET then t.prev else s.billSet })))

/-- BILL_DATA_READ: a word of the read buffer; WORD advances. -/
def execBillDataRead (s : State) : Host.Outcome State Fault Refusal :=
  let w := s.getF Reg.TOT_BILL_SEL Fld.TOT_BILL_SEL_WORD
  ok ((s.answer (word (u32 s.tot.billBuf (4 * w)))).setF Reg.TOT_BILL_SEL Fld.TOT_BILL_SEL_WORD (w + 1))

/-! ## Start and restoration (R334, R343). -/

/-- The state record of unit u, if it checks. -/
def State.stateAt (s : State) (u : Nat) : Option Bytes :=
  let b := s.storeGet 3 u
  if u32 b 0 = 0x53544F54 ∧ u32 b 4092 = crc32c (b.take 4092) then some b else none

/-- The state record with the highest SAVE_SEQ. -/
def State.stateBest (s : State) : Option Bytes :=
  match s.stateAt 18, s.stateAt 19 with
  | some a, some b => some (if un a 4 8 < un b 4 8 then b else a)
  | some a, none => some a
  | none, r => r

/-- Take the state from a state record. -/
def State.stateLoad (s : State) (b : Bytes) : State :=
  let cur := slice b 32 256
  let u64s := fun (o n : Nat) => (List.range n).map (fun i => un b (o + 8 * i) 8)
  let t := s.totMod (fun t => { t with
    acc := u64s 544 12, flags := u16 cur 2, startMin := u32 cur 4
    tou := (List.range 32).map (fun i => u32 cur (60 + 4 * i))
    mdW := u32 cur 188, mdEnd := u32 cur 192, prev := slice b 288 256, subStart := u32 b 640, subE := un b 644 8
    subIrr := decide (u8 b 652 % 2 = 1), winCnt := u8 b 653, ring := (u64s 656 15).map (fun x => (x, false)), lastB := u32 b 776
    saveSeq := un b 4 8, cut := some ⟨un b 16 8, u8 b 12⟩, fresh := false })
  (((t.setF Reg.TOT_BILL_CTL Fld.TOT_BILL_CTL_BILL_SEQ (u16 cur 0)).setF Reg.TOT_RATE Fld.TOT_RATE_RATE (u8 b 780)).setF Reg.TOT_RATE
    Fld.TOT_RATE_SEASON (u8 b 781)).setF Reg.TOT_STAT Fld.TOT_STAT_RESTORED 1

/-- A calendar area of the mirror: its 10,516 bytes if they check, else nothing. -/
def State.calLoad (s : State) (fine : Nat) : Bytes :=
  let c := ((List.range 4).flatMap (fun i => s.storeGet 3 (fine + i))).take 10516
  if u32 c 10512 = crc32c (c.take 10512) ∧ u32 c 0 = 0x4C435441 then c else []

/-- Is legal log record i present? -/
def State.legalOk (s : State) (i : Nat) : Bool :=
  let b := s.legalAt i
  decide (u16 b 0 = i ∧ 1 ≤ u8 b 2 ∧ u8 b 2 ≤ 6 ∧ u32 b 60 = crc32c (b.take 60))

/-- The totaliser takes its state from the legal mirror once the store is ready (R330, R333, R334). -/
def State.totRestore (s : State) : State :=
  let n := ((List.range 1024).takeWhile s.legalOk).length
  let commits := (List.range n).filter (fun i => decide (u8 (s.legalAt i) 2 = 2))
  let t := s.totMod (fun t => { t with
    acal := s.calLoad 20, pcal := s.calLoad 24
    logHash := if n = 0 then List.replicate 32 0 else sha256 (s.legalAt (n - 1))
    calCrc := commits.getLast?.map (fun i => u32 (s.legalAt i) 24) })
  let t := ((t.logCount n).wrN Reg.TOT_ACAL_ID (if t.tot.acal.isEmpty then 0 else calId t.tot.acal)).setF Reg.TOT_PCAL_CTL
    Fld.TOT_PCAL_CTL_PRESENT (!t.tot.pcal.isEmpty).toNat
  let t := (t.wrN Reg.TOT_EVT_PROD t.tot.evtTotal).evtDrain
  let t := match t.stateBest with
    | none => t
    | some b => t.stateLoad b
  let last := if n = 0 then 0 else u8 (s.legalAt (n - 1)) 2
  t.when (decide (last = 1 ∨ last = 2)) (fun u =>
    let c := u32 (u.legalAt (n - 1)) 24
    u.legalAppend 6 0 c c)

/-- The minute from which the season and rate now in force have held, searched back k minutes from minute m. -/
def switchDue (cal : Bytes) (off m k : Nat) : Nat :=
  match k with
  | 0 => m
  | j + 1 =>
    let a := calEval cal off m
    let b := calEval cal off (m - 1 : Nat)
    if a.1 = b.1 ∧ a.2.1 = b.2.1 then switchDue cal off (m - 1) j else m

/-- TOT_RESTORATION: the first valid sample with TAI valid after an outage (R343). -/
def execTotRestoration (s : State) : Host.Outcome State Fault Refusal :=
  if !(s.eValid && s.taiValid) then ok s
  else
    let m := s.taiMin
    let openSub := fun (u : State) => u.subOpen (if u.demSub = 0 then m else m / u.demSub * u.demSub) true
    match s.tot.cut with
    | none => ok (if s.tot.fresh then openSub ((s.totMod (fun t => { t with fresh := false })).rateSet m) else s)
    | some c =>
      let t := (((s.totMod (fun x => { x with cut := none })).totEvt 2 0 (s.taiSec - c.sec)).bump Reg.TOT_OUTAGE_CNT).billFlag 2
      let t := (t.subClose t.subEnd true).totMod (fun x => { x with winCnt := 0 })
      let t := t.billsDue (c.sec / 60) m
      let t := t.when (t.calDue m) (fun u => u.calActivate true)
      let u := t.rateSet m
      let u := u.when (decide (u.rateNow ≠ s.rateNow)) (fun v =>
        ((v.totEvt 4 1 (switchDue v.tot.acal v.utcOff m (m - c.sec / 60))).bump Reg.TOT_LATE_SWITCH_CNT).raiseF Reg.TOT_INT_STAT
          Fld.TOT_INT_STAT_LATE_SWITCH)
      let u := openSub u
      ok (u.when (decide (c.kind ≠ 2)) (fun v => ((v.billFlag 4).totEvt 10 0 0).report 0x8102 5 (blockPath 8 3) []))

/-- PFAIL_N has risen again before power was lost: integration resumes as after an outage (R342). -/
def State.totPrise (s : State) : State := (s.totMod (fun t => { t with stopped := false })).totValid

end Sys2Proof.Machine
end

