-- ==== Sys2Proof/Machine/Boot.lean ====
section
/-! DEFINITION. Sys2Proof/Machine/Boot.lean: what a reset clears and keeps, the boot ROM's choice of a slot, and recovery mode
(R14, R351, R457, R465, R495, R502, R506, R508). -/

namespace Sys2Proof.Machine

/-! ## What a reset leaves (R14, R351, R495, R506). -/

/-- Is a register fused, or a clock monitor's, so that no reset changes it? -/
def fusedReg (k : Nat) : Bool :=
  decide (k = Reg.CHIP_ID) || (List.range 4).any (fun i => decide (k = Reg.NDL_ID i)) || (List.range 8).any (fun i => decide (k = Reg.NDL_VKEY i))

/-- Does a warm reset keep a register whole: the Sampler block but SMP_INT_EN, the servo's and TAI's status, the clock monitor? -/
def warmWhole (k : Nat) : Bool :=
  (decide (0x040000 ≤ k ∧ k < 0x050000) && decide (k ≠ Reg.SMP_INT_EN)) || decide (k = Reg.TU_STAT) || decide (k = Reg.TU_SERVO_STAT) ||
    decide (k = Reg.TU_FREQ) || decide (k = Reg.CHIP_CLK_STAT)

/-- What a register holds after a warm reset: fields coded RWS keep their values. -/
def warmWord (k : Nat) (w : Word) : Word :=
  match Reg.specOf k with
  | none => 0
  | some r => (r.fields.filter (fun f => decide (f.acc = .rws))).foldl
      (fun a f => fput ⟨f.hi, f.lo⟩ a (fget ⟨f.hi, f.lo⟩ w)) (Reg.resetOf k)

/-- The register file after a reset; `pon` tells PONRST_N from a warm reset. -/
def resetRegs (regs : Tbl Word) (pon : Bool) : Tbl Word :=
  regs.filterMap (fun e =>
    let w := if fusedReg e.1 then e.2
      else if pon then Reg.resetOf e.1
      else if warmWhole e.1 then e.2
      else warmWord e.1 e.2
    if w = Reg.resetOf e.1 then none else some (e.1, w))

/-- The store after a reset: what is in NAND is left (R310). -/
def stoKept (t : StoState) : StoState :=
  { units := t.units.filter (fun e => e.2.prog), jlog := t.jlog, ck := t.ck, anchors := t.anchors, ecs := t.ecs, badBlks := t.badBlks
    darner := t.darner, parity := t.parity, chans := t.chans }

/-- The Time Unit after a reset: a warm reset leaves the clocks running and keeps the servo and the stored delays (R351). -/
def timeKept (t : TimeState) (pon : Bool) : TimeState :=
  if pon then {} else { sched := t.sched, tai := t.tai, afe := t.afe, i := t.i, f := t.f, first := t.first, lastSmp := t.lastSmp
                        lastPps := t.lastPps, lastPulse := t.lastPulse }

/-- The device is reset: by PONRST_N, or as WARM_N does. -/
def State.resetTo (s : State) (pon : Bool) : State :=
  { s with
    regs := resetRegs s.regs pon
    dram := []
    fab := {}
    ports := []
    ink := {}
    mnd := {}
    drn := {}
    sto := stoKept s.sto
    msm := []
    tot := { evtTotal := s.tot.evtTotal }
    time := timeKept s.time pon
    upl := {}
    shu := {}
    intr := {}
    upd := {}
    nor := if pon then s.norHeld.getD s.nor else s.nor
    norHeld := if pon then none else s.norHeld
    smp := if pon then {} else { s.smp with dirty := true }
    ladder := { sinceStep := s.ladder.sinceStep }
    pair := { epochJ := s.pair.epochJ, owes := s.pair.owes, bulk := if pon then 0 else s.pair.bulk }
    pins := { s.pins with
      reset := false
      bootWait := none
      nandPwr := if pon then [false, false] else s.pins.nandPwr
      nandSet := s.pins.nandSet && !pon } }

/-- What a pair's STATE becomes by a warm reset: PAIR_HOLD_N is released; a device that was STALE or in conflict stays so, any
other starts again (log entry 113). -/
def State.pairRestart (s : State) : State :=
  let t := ((s.setF Reg.SMP_PAIR_STAT Fld.SMP_PAIR_STAT_HOLD 0).setF Reg.SMP_PAIR_STAT Fld.SMP_PAIR_STAT_LINK 0)
  if t.pairState = 0 ∨ 6 ≤ t.pairState then t else t.pairMove 1

/-- The seal at a start: SEAL_OPEN shows it, and an opening without power is a tamper (R327). -/
def State.sealStart (s : State) : State :=
  let t := s.setF Reg.TOT_STAT Fld.TOT_STAT_SEAL_OPEN s.ao.sealOpen.toNat
  (t.when t.ao.sealLate State.tamper).aoMod (fun a => { a with sealLate := false })

/-- TAI at a release from PONRST_N: from the RTC, if it holds a time (R366, R502). -/
def State.rtcLoad (s : State) : State :=
  if s.ao.rtcOk then
    (((s.tuMod (fun t => { t with tai := s.ao.rtc * 2 ^ 17 })).setQual 1).setF Reg.TU_STAT Fld.TU_STAT_TAI_VALID
      (s.getF Reg.TU_CTL Fld.TU_CTL_RTC_VALID))
  else s

/-! ## Boot (R457). -/

/-- Do the set header and the hoop image of NOR slot i check (R55 steps 1–4, R451)? -/
def State.hoopImageOk (s : State) (i : Nat) : Bool :=
  let rd := s.norRd i
  setHeaderOk (rd 0) && ((setEntries (rd 0)).filter (fun e => decide (u8 e 0 = 0))).all (fun e =>
    (s.entryCheck rd e).isNone && s.aboveFloor (contOf (setCont rd e)))

/-- Choose the slot to boot; `bad` says that a trial slot was found bad. Answers the slot and the REASON. n bounds the choices. -/
def State.bootChoose (s : State) (bad : Bool) (n : Nat) : State × Option (Nat × Nat) :=
  match n with
  | 0 => (s, none)
  | k + 1 =>
    match s.slotIn 3, s.slotIn 4, s.slotIn 5 with
    | some i, _, _ =>
      if s.slotTries i = 0 then (s.slotSet i 6 0).bootChoose true k
      else
        let t := s.slotSet i 3 (s.slotTries i - 1)
        if t.hoopImageOk i then (t, some (i, 1)) else (t.slotSet i 6 0).bootChoose true k
    | none, some i, _ => if s.hoopImageOk i then (s, some (i, if bad then 2 else 0)) else (s.slotSet i 6 0).bootChoose bad k
    | none, none, some i => if s.hoopImageOk i then (s, some (i, 3)) else (s.slotSet i 6 0).bootChoose bad k
    | none, none, none => (s, none)

/-- Do the prickings and the field image of NOR slot i check: R55 steps 1–5 and R451? -/
def State.restOk (s : State) (i : Nat) : Bool :=
  let rd := s.norRd i
  ((setEntries (rd 0)).filter (fun e => decide (u8 e 0 ≠ 0))).all (fun e =>
    let c := setCont rd e
    (s.entryCheck rd e).isNone && s.aboveFloor (contOf c) &&
      (decide (u8 e 0 = 1) || (checkFrames c (hTarget (c 0) / 0x1000)).isNone))

/-- Order of regions at a start and at an activation (R69, R458); HO is pricked by the boot ROM. -/
abbrev regionOrder : List Nat := [9, 6, 5, 7, 1, 2, 3, 4]

/-- Every port takes a personality of the set: which one the spec does not say, so each is a free value among those that suit the
clock plan, and none (log entry 112). -/
def State.portsPrick (s : State) : State :=
  s.each (List.range 64) (fun n t =>
    if t.exists_ (portRegion n) (n % 16) then
      let l := t.upd.run.filter (fun c => decide (c.kind = 3) && planSuits (t.plan n) c.persona)
      match l[t.drawn (l.length + 1)]? with
      | none => t.draw
      | some c => (t.draw.build (blockPath (portRegion n) (n % 16)) (builtOf c)).portPersona n (builtOf c)
    else t)

/-- NANDc_PWR_EN goes high for every channel that the pricking marks present; it keeps its state through a warm reset (R505). -/
def State.nandPower (s : State) : State :=
  if s.pins.nandSet then s
  else { s with pins := { s.pins with
    nandSet := true
    nandPwr := (List.range 2).map (fun c => decide (s.getF Reg.STO_NAND Fld.STO_NAND_CH_PRESENT / 2 ^ c % 2 = 1)) } }

/-- The regions and ports of the chosen slot are pricked and the field image is loaded (R69, R457). -/
def State.bootPrick (s : State) (i : Nat) : State :=
  let t := s.each regionOrder (fun r u => match u.upd.run.find? (fun c => decide (c.kind = 2 ∧ c.target / 0x1000 = r)) with
    | none => u
    | some c => u.regionBuild r c)
  ((t.portsPrick).nandPower).fieldImage (t.norRd i)

/-- HO as the boot ROM pricks it: from the slot's HO region pricking, or from its built-in structure. -/
def State.hoPrick (s : State) : State :=
  s.regionBuild 8 ((s.upd.run.find? (fun c => decide (c.kind = 2 ∧ c.target / 0x1000 = 8))).getD { kind := 2, target := 0x8FFF })

/-- Record 0x0008 of a start: its cause (1 = PONRST_N, 2 = WARM_N, 3 = ladder) and REASON. -/
def State.startRecord (s : State) (cause : Nat) : State :=
  s.report 0x0008 1 0x0FFF [cause, s.getF Reg.UPD_SLOT_STAT Fld.UPD_SLOT_STAT_REASON]

/-- The boot ROM enters recovery mode (R465); RCV_REQ is cleared in the directory. -/
def State.rcvEnter (s : State) (cause : Nat) : State :=
  let t := ((s.hoPrick).startRecord cause).setF Reg.UPD_RCV_STAT Fld.UPD_RCV_STAT_MODE 1
  if t.rcvReq then t.setRcvReq 0 else t

/-- The hoop's part of a release from reset. -/
def State.hoopUp (s : State) (pon : Bool) : State := (s.hoopStart pon).sealStart

/-- The governor reads VOUT_MODE; none = not acknowledged (R38). Until a read is acknowledged it knows no exponent, so it makes no
step, and reads again at the end of each period (DESIGN CHOICE, log entry 154). -/
def State.modeCheck (s : State) (v : Option Nat) : State :=
  let mv := bytesLE 2 (s.getF Reg.CHIP_GOV_STAT Fld.CHIP_GOV_STAT_VSET_MV)
  match v with
  | none => (s.raiseF Reg.CHIP_GOV_STAT Fld.CHIP_GOV_STAT_PMBUS_ERR).report 0x0004 3 0x0FFF (1 :: mv)
  | some m =>
    let t := (s.fabMod (fun f => { f with vmode := some m })).setF Reg.CHIP_GOV_STAT Fld.CHIP_GOV_STAT_PMBUS_ERR 0
    if m / 32 % 8 = 0 then t else (t.raiseF Reg.CHIP_GOV_STAT Fld.CHIP_GOV_STAT_MODE_ERR).report 0x0004 3 0x0FFF (2 :: mv)

/-- A restart as WARM_N does, up to the boot ROM; `v` is the answer to the governor's read of VOUT_MODE where the command that restarts
the device brings one. In a restart that the device makes itself the read is still to come (log entry 154). -/
def State.warmTo (s : State) (v : Option (Option Nat)) : State :=
  let t := s.resetTo false
  let t := match v with
    | none => t
    | some a => t.modeCheck a
  (t.pairRestart).hoopUp false

/-- The boot ROM starts (R457). `bad`: a trial slot was given up just before; `rcv`: this is the restart of R467. A slot whose
prickings or field image fail is set to bad, and the device restarts as WARM_N does; n bounds these restarts. -/
def State.boot (s : State) (cause : Nat) (bad rcv : Bool) (n : Nat) : State :=
  match n with
  | 0 => s.rcvEnter cause
  | k + 1 =>
    if s.rcvReq || s.pins.rcv then s.rcvEnter cause
    else
      match s.bootChoose bad 5 with
      | (t, none) => t.rcvEnter cause
      | (t, some (i, reason)) =>
        let u := (t.setF Reg.UPD_SLOT_STAT Fld.UPD_SLOT_STAT_BOOTED i).setF Reg.UPD_SLOT_STAT Fld.UPD_SLOT_STAT_REASON
          (if rcv then 4 else reason)
        let u := ({ u with upd := { u.upd with run := setRun (u.norRd i) } }.hoPrick.hoopImage (u.norRd i)).startRecord cause
        if u.restOk i then
          (u.bootPrick i).when (decide (u.slotSt i = 3)) (fun v => v.raiseF Reg.UPD_INT_STAT Fld.UPD_INT_STAT_TRIAL)
        else ((u.slotSet i 6 0).warmTo none).boot 2 (bad || decide (reason = 1)) false k

/-- The boot ROM starts, or, with PFAIL_N low, waits (R508). -/
def State.bootStart (s : State) (cause : Nat) (bad rcv : Bool) : State :=
  if s.pins.pfail then { s with pins := { s.pins with bootWait := some (cause, bad, rcv) } } else s.boot cause bad rcv 4

/-- A restart as WARM_N does, with its cause. -/
def State.warmRestart (s : State) (cause : Nat) (bad rcv : Bool) : State :=
  (s.warmTo none).bootStart cause bad rcv

end Sys2Proof.Machine
end

