-- ==== Sys2Proof/Machine/SamplerCore.lean ====
section
/-! DEFINITION. Sys2Proof/Machine/SamplerCore.lean: the Sampler's log, FIFO and NAND mirror (R469–R476), which the store's
restore, the ladder and the power pins use too. -/

namespace Sys2Proof.Machine

/-- Change the Sampler. -/
def State.smpMod (s : State) (f : SmpState → SmpState) : State := { s with smp := f s.smp }

/-- Default of the on-chip log: an empty slot. -/
abbrev recDflt : Nat → SmpRec := fun _ => {}

/-- Slot i of the on-chip log. -/
def State.smpSlot (s : State) (i : Nat) : SmpRec := tget recDflt s.smp.slots i

/-- Set slot i of the on-chip log. -/
def State.smpPut (s : State) (i : Nat) (r : SmpRec) : State := s.smpMod (fun p => { p with slots := tset recDflt p.slots i r })

/-- Slots in use. -/
def State.smpUsed (s : State) : Nat := (s.smp.slots.filter (fun e => decide (e.2.code ≠ 0))).length

/-- A record's 32 bytes (R469). -/
def smpBytes (r : SmpRec) : Bytes :=
  if r.code = 0 then List.replicate 32 0
  else
    let b := bytesLE 2 r.code ++ bytesLE 2 (r.sev % 8 * 8192 + r.rep % 8192) ++ bytesLE 5 r.opsec ++ bytesLE 3 r.pcc ++ bytesLE 2 r.path ++
      padTo 14 r.data ++ bytesLE 2 r.seq
    b ++ bytesLE 2 (crc16 b)

/-- Is the log mirrored now: MIRROR_EN = 1 and the store at PHASE 6? -/
def State.mirrorOn (s : State) : Bool := s.isF Reg.SMP_CTL Fld.SMP_CTL_MIRROR_EN && decide (s.phase = 6)

/-- First record not yet in NAND. -/
def State.mirrorNext (s : State) : Nat := s.num Reg.SMP_MIRROR

/-! ## Taking a report (R471, R472, R474). -/

/-- FULL is reached. -/
def State.smpFull (s : State) : State :=
  if s.isF Reg.SMP_STAT Fld.SMP_STAT_FULL then s
  else (s.setF Reg.SMP_STAT Fld.SMP_STAT_FULL 1).raiseF Reg.SMP_INT_STAT Fld.SMP_INT_STAT_FULL

/-- The slot a new record of a severity takes: the lowest-numbered empty one, else the one of lowest sequence number among those
of no greater severity, unless the log stops when full. -/
def State.smpPick (s : State) (sev : Nat) : Option Nat :=
  if s.smpUsed < 8192 then some (firstGap ((s.smp.slots.filter (fun e => decide (e.2.code ≠ 0))).map (·.1)) 0)
  else if s.isF Reg.SMP_CTL Fld.SMP_CTL_STOP_FULL then none
  else
    let l := s.smp.slots.filter (fun e => decide (e.2.sev ≤ sev))
    (l.foldl (fun a e => match a with
      | none => some e
      | some b => if e.2.seq < b.2.seq then some e else some b) none).map (·.1)

/-- An active device sends its partner the record of slot i as it is now (R488 TYPE 4). -/
def State.smpMirror (s : State) (i : Nat) : State := s.mirror 4 (smpBytes (s.smpSlot i) ++ bytesLE 4 (s.smpSlot i).seq)

/-- A new record takes a slot and the next sequence number, or is dropped. -/
def State.smpNew (s : State) (e : SmpEntry) : State :=
  match s.smpPick e.sev with
  | none => (s.bump Reg.SMP_DROP_CNT).when (s.isF Reg.SMP_CTL Fld.SMP_CTL_STOP_FULL) State.smpFull
  | some i =>
    let old := s.smpSlot i
    let r : SmpRec := { code := e.code, sev := e.sev, opsec := e.opsec, pcc := e.pcc, path := e.path, data := e.data, seq := s.ao.seq }
    let gap := decide (old.code ≠ 0 ∧ s.mirrorNext ≤ old.seq) && s.mirrorOn
    let t := (((s.aoMod (fun a => { a with seq := s.ao.seq + 1 })).smpPut i r).smpMod (fun p => { p with
      last := some i, dirty := p.dirty || s.mirrorOn })).smpMirror i
    (t.when gap (fun u => u.bump Reg.SMP_MIRROR_GAP_CNT)).when
      (t.isF Reg.SMP_CTL Fld.SMP_CTL_STOP_FULL && decide (8192 ≤ t.smpUsed)) State.smpFull

/-- Is an entry absorbed into the most recent record (R471)? -/
def State.absorbs (s : State) (e : SmpEntry) : Option Nat :=
  match s.smp.last with
  | none => none
  | some i =>
    let r := s.smpSlot i
    if r.code = e.code ∧ r.sev = e.sev ∧ r.path = e.path ∧ r.data = e.data ∧ r.rep < 8191 ∧
        e.opsec - r.opsec < s.getF Reg.SMP_CTL Fld.SMP_CTL_REPEAT_WIN then some i
    else none

/-- The Sampler takes an entry. -/
def State.smpTake (s : State) (e : SmpEntry) : State :=
  if e.sev < s.getF Reg.SMP_CTL Fld.SMP_CTL_MIN_SEV then s.bump (0x040040 + 4 * (e.sev % 8))
  else
    let t := s.when (decide (s.getF Reg.SMP_CTL Fld.SMP_CTL_IRQ_SEV ≤ e.sev)) (fun u =>
      u.raiseF Reg.SMP_INT_STAT Fld.SMP_INT_STAT_SEV_HIGH)
    match t.absorbs e with
    | some i => ((t.smpPut i { t.smpSlot i with rep := (t.smpSlot i).rep + 1 }).smpMod (fun p => { p with
        dirty := p.dirty || t.mirrorOn })).smpMirror i
    | none => t.smpNew e

/-! ## NAND mirror (R475). -/

/-- Fine unit of partition 1 that holds record number q. -/
def mirrorUnit (q : Nat) : Nat := q % 1048576 / 128

/-- The contents of the mirror unit of record q: records still on chip, and records already in NAND that belong to it. -/
def State.mirrorBytes (s : State) (q : Nat) : Bytes :=
  let first := q / 128 * 128
  let old := s.storeGet 1 (mirrorUnit q)
  (List.range 128).flatMap (fun k =>
    let b := slice old (32 * k) 32
    match s.smp.slots.find? (fun e => decide (e.2.code ≠ 0 ∧ e.2.seq = first + k)) with
    | some e => smpBytes e.2
    | none => if u16 b 0 ≠ 0 ∧ u16 b 28 = (first + k) % 65536 ∧ first + k < s.ao.seq then b else List.replicate 32 0)

/-- Every record before the next sequence number is written to NAND, unit by unit from the first not yet there; the open unit is
written too. n bounds the units. A unit that the store holds back stays to be written. -/
def State.mirrorWrite (s : State) (n : Nat) : State :=
  match n with
  | 0 => s
  | k + 1 =>
    let q := s.mirrorNext
    let t := s.storePut 1 (mirrorUnit q) (s.mirrorBytes q)
    if q < s.ao.seq ∧ t.sto.dseq ≠ s.sto.dseq then (t.wrN Reg.SMP_MIRROR (min s.ao.seq (q / 128 * 128 + 128))).mirrorWrite k
    else s

/-- The open unit and what precedes it goes to the store, if it changed. The unit that holds the last record is written again when
absorption changed it. -/
def State.mirrorFlush (s : State) : State :=
  if s.isF Reg.SMP_CTL Fld.SMP_CTL_MIRROR_EN && s.smp.dirty then
    let t := s.when (decide (s.ao.seq = s.mirrorNext ∧ 0 < s.ao.seq)) (fun u =>
      u.storePut 1 (mirrorUnit (u.ao.seq - 1)) (u.mirrorBytes (u.ao.seq - 1)))
    (t.mirrorWrite 8193).smpMod (fun p => { p with dirty := false })
  else s

/-! ## Numbering after VBAT was lost (R470). -/

/-- Record number q in the NAND log: SEQ16, OPSEC and PCC of each record found in partition 1, by unit and place. -/
def State.nandRecs (s : State) : List (Nat × Nat × Nat) :=
  (s.sto.map.filter (fun e => decide (e.1 / 2 ^ 29 = 1))).flatMap (fun e =>
    let b := s.storeGet 1 (e.1 % 2 ^ 29)
    (List.range 128).filterMap (fun k =>
      let r := slice b (32 * k) 32
      if u16 r 0 ≠ 0 ∧ u16 r 30 = crc16 (r.take 30) then some (e.1 % 2 ^ 29 * 128 + k, un r 4 5, un r 9 3) else none))

/-- The store has reached PHASE 6: provisional records are numbered after the newest record of the NAND log. Its place gives its
number modulo 1,048,576; the bits above are a free value (log entry 91). -/
def State.smpRestore (s : State) : State :=
  if s.isF Reg.SMP_STAT Fld.SMP_STAT_PROVISIONAL then
    let best := s.nandRecs.foldl (fun (a : Option (Nat × Nat × Nat)) r => match a with
      | none => some r
      | some b => if b.2.1 ≤ r.2.1 then some r else a) none
    let base := (best.map (fun r => r.2.1)).getD 0
    let pcc := match best with
      | none => s.ao.pcc
      | some r => (r.2.2 + 1) % 2 ^ 24
    let next := match best with
      | none => 0
      | some r => s.drawn 4096 * 2 ^ 20 + r.1 + 1
    let held := s.smp.slots.map (fun e => (e.1, { e.2 with
      seq := if e.2.code = 0 then e.2.seq else e.2.seq + next, opsec := if e.2.code = 0 then e.2.opsec else e.2.opsec + base
      pcc := if e.2.code = 0 then e.2.pcc else pcc }))
    let t := s.draw.smpMod (fun p => { p with
      slots := held, dirty := true
      fifo := p.fifo.map (fun e => { e with opsec := e.opsec + base, pcc := pcc }) })
    ((t.aoMod (fun a => { a with seq := t.ao.seq + next, opsec := (t.ao.opsec + base) % 2 ^ 40, pcc := pcc })).setF Reg.SMP_STAT
      Fld.SMP_STAT_PROVISIONAL 0).wrN Reg.SMP_MIRROR next
  else s.smpMod (fun p => { p with dirty := true })

end Sys2Proof.Machine
end

