-- ==== Sys2Proof/Machine/Sampler.lean ====
section
/-! DEFINITION. Sys2Proof/Machine/Sampler.lean: the Sampler's commands (R471–R476) but for those that may start the recovery
ladder. -/

namespace Sys2Proof.Machine

/-- SAMPLER_FIFO_TAKE: the Sampler takes the oldest entry. -/
def execSamplerFifoTake (s : State) : Host.Outcome State Fault Refusal :=
  match s.smp.fifo with
  | [] => ok s
  | e :: r => ok ((s.smpMod (fun p => { p with fifo := r })).smpTake e)

/-- SAMPLER_LOST_SYNTH: at 128 entries or fewer, one record tells of the losses; its place is reserved (R476). -/
def execSamplerLostSynth (s : State) : Host.Outcome State Fault Refusal :=
  let t := s.smp.tally
  if s.smp.fifo.length ≤ 128 ∧ 0 < t.total then
    let e : SmpEntry := {
      code := 1, sev := t.high, opsec := s.ao.opsec, pcc := if s.isF Reg.SMP_STAT Fld.SMP_STAT_PROVISIONAL then 0xFFFFFF else s.ao.pcc
      path := 0x71FF, data := bytesLE 4 t.total ++ [t.high, 0] ++ bytesLE 4 t.atHigh ++ bytesLE 4 t.opsec }
    ok ((s.smpMod (fun p => { p with fifo := p.fifo ++ [e], tally := {} })).raiseF Reg.SMP_INT_STAT Fld.SMP_INT_STAT_LOST)
  else ok s

/-- MIRROR_UNIT_WRITE: a full unit, or once a second the open unit that has changed, is written to NAND. -/
def execMirrorUnitWrite (s : State) : Host.Outcome State Fault Refusal := ok (if s.mirrorOn then s.mirrorFlush else s)

/-- SAMPLER_CLEAR: the on-chip log is emptied. Records not yet mirrored are missing from the NAND log. -/
def execSamplerClear (s : State) : Host.Outcome State Fault Refusal :=
  let lost := (s.smp.slots.filter (fun e => decide (e.2.code ≠ 0 ∧ s.mirrorNext ≤ e.2.seq))).length
  ok (((s.smpMod (fun p => { p with slots := [], last := none })).setF Reg.SMP_STAT Fld.SMP_STAT_FULL 0).bumpN Reg.SMP_MIRROR_GAP_CNT
    (if s.mirrorOn then lost else 0))

/-- SAMPLER_RD_SEL: a slot is copied whole to the read buffer. -/
def execSamplerRdSel (slot w : Nat) (s : State) : Host.Outcome State Fault Refusal :=
  ok (((s.setF Reg.SMP_RD_SEL Fld.SMP_RD_SEL_SLOT slot).setF Reg.SMP_RD_SEL Fld.SMP_RD_SEL_WORD w).smpMod (fun p => { p with
    rdBuf := smpBytes (s.smpSlot (slot % 8192)) }))

/-- SAMPLER_RD_DATA: a word of the read buffer; WORD advances. -/
def execSamplerRdData (s : State) : Host.Outcome State Fault Refusal :=
  let w := s.getF Reg.SMP_RD_SEL Fld.SMP_RD_SEL_WORD
  ok ((s.answer (word (u32 s.smp.rdBuf (4 * w)))).setF Reg.SMP_RD_SEL Fld.SMP_RD_SEL_WORD (w + 1))

end Sys2Proof.Machine
end

