-- ==== Sys2Proof/Machine/UplinkCore.lean ====
section
/-! DEFINITION. Sys2Proof/Machine/UplinkCore.lean: export partners and their state units, and record-engine sessions
(R377–R388), which the store, the ladder and the pair use. -/

namespace Sys2Proof.Machine

/-- Change the uplinks' state. -/
def State.uplMod (s : State) (f : UplState → UplState) : State := { s with upl := f s.upl }

/-- The record and export engines run. -/
def State.uplEn (s : State) : Bool := s.isF Reg.UPL_CTL Fld.UPL_CTL_EN

/-! ## Sessions. -/

/-- Session n. -/
def State.usess (s : State) (n : Nat) : USess := tget (fun _ => ({} : USess)) s.upl.sess n

/-- Change session n. -/
def State.sessMod (s : State) (n : Nat) (f : USess → USess) : State :=
  s.uplMod (fun u => { u with sess := tmod (fun _ => ({} : USess)) u.sess n f })

/-- Address of session n's context (R377). -/
def State.ctxA (s : State) (n : Nat) : Nat := s.getF Reg.UPL_SESS_BASE Fld.UPL_SESS_BASE_ADDR * 4096 + 128 * n

/-- The engine writes back all its fields of session n's context. -/
def State.ctxWrite (s : State) (n : Nat) : State :=
  let q := s.usess n
  let a := s.ctxA n
  ((((s.wrMem a [q.st]).wrMem (a + 4) [q.err]).wrMem (a + 28) (bytesLE 4 q.rxRd ++ bytesLE 4 q.txWr)).wrMem (a + 40)
    (bytesLE 8 q.rxSeq ++ bytesLE 8 q.txSeq))

/-- Role nibble of session n (R376). -/
def State.role (s : State) (n : Nat) : Nat := s.num (Reg.UPL_ROLE (n / 8)) / 16 ^ (n % 8) % 16

/-- Write the role nibble of session n. -/
def State.setRole (s : State) (n v : Nat) : State :=
  s.wr (Reg.UPL_ROLE (n / 8)) (fput ⟨4 * (n % 8) + 3, 4 * (n % 8)⟩ (s.raw (Reg.UPL_ROLE (n / 8))) v)

/-- A session stops with an ERR (R378). -/
def State.sessStop (s : State) (n e : Nat) : State :=
  let t := ((s.sessMod n (fun q => { q with st := 2, err := e })).raiseBit (Reg.UPL_EXC (n / 32)) (n % 32)).raiseF Reg.UPL_INT_STAT
    Fld.UPL_INT_STAT_SESS_EXC
  (t.when (decide (e = 2)) (fun u => (u.bump Reg.UPL_REC_AUTH_CNT).bump Reg.UPL_SESS_ERR_CNT)).ctxWrite n

/-- Session n closes: STATE 0 and ERR 7, partial messages and waiting results are discarded, and its role is none again. -/
def State.sessClose (s : State) (n : Nat) : State :=
  ((s.sessMod n (fun q => { q with st := 0, err := 7, inBuf := [], outBuf := [] })).uplMod (fun u => { u with
    results := u.results.filter (fun r => decide (r.1 ≠ n)) })).setRole n 7 |>.ctxWrite n

/-- Every record-engine session closes (R482). -/
def State.sessCloseAll (s : State) : State :=
  s.each (List.range 64) (fun n t => if (t.usess n).st = 0 then t else t.sessClose n)

/-- A message enters session n's transmit stream (R379). -/
def State.sessSay (s : State) (n type : Nat) (body : Bytes) : State :=
  s.sessMod n (fun q => { q with outBuf := q.outBuf ++ [type, 0, 0, 0] ++ bytesLE 4 body.length ++ body })

/-! ## Partners. -/

/-- Partner k. -/
def State.part (s : State) (k : Nat) : UPart := tget (fun _ => ({} : UPart)) s.upl.parts k

/-- Change partner k. -/
def State.partMod (s : State) (k : Nat) (f : UPart → UPart) : State :=
  s.uplMod (fun u => { u with parts := tmod (fun _ => ({} : UPart)) u.parts k f })

/-- EN of partner k. -/
def State.partEn (s : State) (k : Nat) : Bool := s.isF (Reg.UPL_PART_CFG k) Fld.UPL_PART_CFG_EN

/-- Position of kind j + 1 in a list of four. -/
def pos4 (l : List Nat) (j : Nat) : Nat := l.getD j 0

/-- A batch as 29 bytes of a partner's state unit. The manual names what the unit holds and not its layout; this one is the
model's (log entry 106). -/
def batchPack (b : UBatch) : Bytes :=
  let has := b.sects.foldl (fun a x => a ||| 2 ^ (x.kind + 3)) 0
  let one := fun (k : Nat) => match b.sects.find? (fun x => decide (x.kind = k)) with
    | none => List.replicate 6 0
    | some x => bytesLE 4 x.first ++ bytesLE 2 (x.last + 2 ^ 32 - x.first)
  [b.sent.toNat + b.flags % 8 / 2 * 2 + has] ++ bytesLE 4 b.created ++ one 1 ++ one 2 ++ one 3 ++ one 4

/-- The batch that 29 bytes stand for; `hi` is the high half of its creation time. -/
def batchUnpack (d : Bytes) (bseq hi : Nat) : UBatch :=
  let f := u8 d 0
  let ks := [1, 2, 3, 4].filter (fun k => decide (f / 2 ^ (k + 3) % 2 = 1))
  { bseq := bseq, flags := f % 8 / 2 * 2, created := u32 d 1 + hi * 2 ^ 32, sent := decide (f % 2 = 1)
    sects := ks.map (fun k =>
      let o := 5 + 6 * (k - 1)
      { kind := k, first := u32 d o, last := (u32 d o + u16 d (o + 4)) % 2 ^ 32 }) }

/-- A partner's state unit (R386), 4 KiB. -/
def partPack (p : UPart) : Bytes :=
  padTo 4096 ((p.pos.take 4).flatMap (bytesLE 4) ++ bytesLE 8 p.bseq ++ bytesLE 4 p.ackPos ++ bytesLE 4 p.day ++ padTo 32 p.dayHash ++
    bytesLE 4 p.nbatch ++ bytesLE 8 p.firstB ++ bytesLE 8 p.lastB ++ (p.nrec.take 4).flatMap (bytesLE 4) ++ padTo 32 p.prev ++
    [p.batches.length % 256, p.manifests.length % 256] ++ bytesLE 2 ((p.batches.getLast?.map (·.created)).getD 0 / 2 ^ 32) ++
    p.manifests.flatMap (fun m => padTo 128 m.body) ++ p.batches.flatMap batchPack)

/-- The partner that a state unit stands for; a unit never written is a partner never used. Kept manifests are signed again
(R388). -/
def partUnpack (d : Bytes) : UPart :=
  if un d 16 8 = 0 then {}
  else
    let nb := u8 d 132
    let nm := u8 d 133
    { pos := (List.range 4).map (fun i => u32 d (4 * i)), bseq := un d 16 8, ackPos := u32 d 24, day := u32 d 28
      dayHash := slice d 32 32, nbatch := u32 d 64, firstB := un d 68 8, lastB := un d 76 8
      nrec := (List.range 4).map (fun i => u32 d (84 + 4 * i)), prev := slice d 100 32
      manifests := (List.range nm).map (fun i => { day := u32 d (136 + 128 * i + 16), body := slice d (136 + 128 * i) 128 })
      batches := (List.range nb).map (fun i =>
        batchUnpack (slice d (136 + 128 * nm + 29 * i) 29) (un d 16 8 - nb + i) (u16 d 134)) }

/-- UPL_PART_k_POS shows the kind-1 position acknowledged. -/
def State.partShow (s : State) (k : Nat) : State := s.wrN (Reg.UPL_PART_POS k) (s.part k).ackPos

/-- Partner k's state goes to fine unit k of partition 4, and to a standby (R386, R488). -/
def State.partSave (s : State) (k : Nat) : State :=
  let b := overlay (partPack (s.part k)) 4095 [k]
  ((s.when (decide (s.phase = 6 ∨ s.phase = 7)) (fun t => t.storePut 4 k b)).partShow k).mirror 5 b

/-- The partners' state as partition 4 holds it: at start (R386). -/
def State.uplRestore (s : State) : State :=
  s.each [0, 1, 2, 3] (fun k t => (t.partMod k (fun _ => partUnpack (t.storeGet 4 k))).partShow k)

end Sys2Proof.Machine
end

