-- ==== Sys2Proof/Machine/Store.lean ====
section
/-! DEFINITION. Sys2Proof/Machine/Store.lean: starting and restoring the store, page events, relocation, checkpoints, channels and
the command rings (chapter "Record store: NAND translation, parity stripes and power-loss safety"). -/

namespace Sys2Proof.Machine

/-! ## Dies and layout (R281, R286, R308). -/

/-- State of channel c that the journal left: active unless it says otherwise. -/
def State.chanSt (s : State) (c : Nat) : Nat := tget (fun _ => 1) s.sto.chans c

/-- Is channel c present? -/
def State.chPresent (s : State) (c : Nat) : Bool := decide (s.getF Reg.STO_NAND Fld.STO_NAND_CH_PRESENT / 2 ^ c % 2 = 1)

/-- Set channel c's state in STO_CH_CTL. -/
def State.chShow (s : State) (c v : Nat) : State :=
  s.setF Reg.STO_CH_CTL (if c = 0 then Fld.STO_CH_CTL_STATE_0 else Fld.STO_CH_CTL_STATE_1) v

/-- Are all blocks of die i retired? -/
def State.dieGone (s : State) (i : Nat) : Bool :=
  decide (s.getF Reg.STO_GEOM Fld.STO_GEOM_BLOCKS ≤ (s.sto.badBlks.filter (fun e => decide (e.1 = i))).length)

/-- Identify die i; `gone` says that it does not answer or differs from the profile. -/
def State.dieIdentify (s : State) (i : Nat) (gone : Bool) : State :=
  let c := i / 8
  if !s.chPresent c || decide (s.getF Reg.STO_NAND Fld.STO_NAND_DIES ≤ i % 8) then s.setDie i 0
  else if s.chanSt c = 3 then s.setDie i 3
  else if gone then (s.setDie i 0).report 0x6100 4 (blockPath 6 (1 + c)) [i]
  else s.setDie i (if s.dieGone i then 2 else 1)

/-- Do the partitions not overlap and end within LOGICAL? -/
def State.layoutOk (s : State) : Bool :=
  let p := (List.range 5).map (fun k =>
    (s.getF (Reg.STO_PART_BASE k) Fld.STO_PART_BASE_BASE, s.getF (Reg.STO_PART_SIZE k) Fld.STO_PART_SIZE_SIZE))
  p.all (fun a => decide (a.1 + a.2 ≤ s.logical)) &&
    (List.range 5).all (fun i => (List.range 5).all (fun j =>
      let a := p.getD i (0, 0)
      let b := p.getD j (0, 0)
      decide (i = j) || decide (a.1 + a.2 ≤ b.1) || decide (b.1 + b.2 ≤ a.1)))

/-- The anchor die of channel c: its lowest active die whose blocks 0 and 1 are good. -/
def State.anchorDie (s : State) (c : Nat) : Option Nat :=
  ((List.range 8).map (· + 8 * c)).find? (fun i => decide (s.dieState i = 1) && !s.blkBad i 0 && !s.blkBad i 1)

/-- Erase blocks 0 and 1 of die d (R308). -/
def State.anchorErase (s : State) (d : Nat) (l : List Nat) : State :=
  s.each l (fun b t => (t.stoMod (fun x => { x with ecs := tmod (fun _ => 0) x.ecs (d * 8192 + b) (· + 1) })).bump Reg.STO_ERASE_CNT)

/-- Write channel c's anchor from the last CKPT: to the next free page of its anchor block, to the other block when that is full, which is
then erased, or on a new anchor die, whose two blocks are erased first (R308). -/
def State.anchorPut (s : State) (c : Nat) : State :=
  match s.anchorDie c with
  | none => s.stoMod (fun x => { x with anchors := tdel x.anchors c })
  | some d =>
    let a := tget (fun _ => ({} : Anchor)) s.sto.anchors c
    let k := s.sto.ck.getD {}
    let full := decide (s.sbPages true ≤ a.page + 1)
    let t := s.when (decide (a.die ≠ d + 1)) (fun u => u.anchorErase d [0, 1])
    let n : Anchor := { a with aseq := t.sto.aseq + 1, root := k.root, start := k.start, geom := t.num Reg.STO_GEOM, dies := t.num Reg.STO_DIE_STAT }
    let n := if a.die ≠ d + 1 then { n with die := d + 1, blk := 0, page := 0 }
      else if full then { n with blk := 1 - a.blk, page := 0 } else { n with page := a.page + 1 }
    (t.stoMod (fun x => { x with anchors := tset (fun _ => ({} : Anchor)) x.anchors c n, aseq := x.aseq + 1 })).when
      (decide (a.die = d + 1) && full) (fun u => u.anchorErase d [a.blk])

/-- Anchors are written: one on each channel that has an anchor die and is active (R308). -/
def State.anchorWrite (s : State) : State :=
  s.each [0, 1] (fun c t => if t.chanSt c = 1 then t.anchorPut c else t)

/-- The set of active dies may have changed: NOPARITY shows whether fewer than 3 are left (R284), and a channel whose anchor die is no
longer the one that holds its anchor gets a new one at once (R308). -/
def State.dieChange (s : State) : State :=
  (s.setF Reg.STO_STAT Fld.STO_STAT_NOPARITY (decide (s.activeDies.length < 3)).toNat).each [0, 1] (fun c t =>
    if decide (t.chanSt c = 1) && decide ((t.anchorDie c).map (· + 1) ≠ some (tget (fun _ => ({} : Anchor)) t.sto.anchors c).die) then
      t.anchorPut c
    else t)

/-- STORE_START: EN = 1 starts the store at PHASE 1. `absent` is the mask of dies that do not answer or differ from the profile. -/
def State.storeStart (s : State) (absent : Nat) : State :=
  if s.phase ≠ 0 then s
  else
    let t := s.raiseF Reg.STO_CTL Fld.STO_CTL_EN
    let t := t.each (List.range 16) (fun i u => u.dieIdentify i (decide (absent / 2 ^ i % 2 = 1)))
    let t := t.each [0, 1] (fun c u => u.chShow c (if u.chPresent c then u.chanSt c else 0))
    let t := t.setF Reg.STO_LOGICAL Fld.STO_LOGICAL_COARSE t.logical
    let t := t.setF Reg.STO_STAT Fld.STO_STAT_NOPARITY (decide (t.activeDies.length < 3)).toNat
    if !t.layoutOk || ((t.anchorDie 0).isNone && (t.anchorDie 1).isNone) then t.raiseF Reg.STO_STAT Fld.STO_STAT_CFG_ERR
    else
      let lim := if (List.range 2).all (fun c => t.chPresent c) then 5 else 2
      let slow := decide (t.getF Reg.STO_NAND Fld.STO_NAND_SLC_PAGES = 0) &&
        decide (lim < t.getF Reg.STO_DIRTY Fld.STO_DIRTY_DIRTY_MAX)
      ((t.setF Reg.STO_STAT Fld.STO_STAT_CFG_ERR 0).setPhase 1).when slow (fun u => u.setF Reg.STO_DIRTY Fld.STO_DIRTY_DIRTY_MAX lim)

/-- STORE_START. -/
def execStoreStart (absent : Nat) (s : State) : Host.Outcome State Fault Refusal := ok (s.storeStart absent)

/-! ## Replay (R309, R312). -/

/-- Write a DRAM cell of a checkpoint: area 0 = extended records, 1 = Mender state, 2 = shadow. -/
def State.cellPut (s : State) (c : Nat × Nat × Nat) : State :=
  let base := match c.1 with
    | 0 => s.xrecA 0
    | 1 => s.mstA 0
    | _ => s.shdA 0
  s.wrMem (base + c.2.1) [c.2.2]

/-- Has a COMMIT's counter already been applied (R309)? -/
def State.ctrApplied (s : State) (slot c : Nat) : Bool :=
  let e := s.msmAt slot
  let l := msmRx e
  !msmFresh e && (decide (c ≤ l ∧ l - c < 32 ∧ u32 (s.xrec slot) 0 / 2 ^ (l - c) % 2 = 1) || decide (c + 31 < l))

/-- Is the record unit of log position p found in NAND? -/
def State.recFound (s : State) (p : Nat) : Bool :=
  let n := s.partUnits 0
  s.sto.units.any (fun e => decide (e.2.kind = 1) && e.2.prog && decide (e.2.lua = luaOf 0 (if n = 0 then 0 else p % n)))

/-- What replay of the tables carries along: no later COMMIT is applied; the record head. -/
structure TabRun where
  stop : Bool := false
  head : Nat := 0
deriving DecidableEq, Repr

/-- One entry's effect on MSM, the extended records and the Mender tables. -/
def State.tabEntry (s : State) (r : TabRun) (e : JEntry) : State × TabRun :=
  match e with
  | .commit ctr p mst shd =>
    if r.stop then (s, r)
    else if p ≠ 0xFFFFFFFF ∧ !s.recFound p then (s, { r with stop := true })
    else
      let r' := if p = 0xFFFFFFFF then r else { r with head := (p + 1) % 2 ^ 32 }
      let slot := u32 ctr 0 % 2 ^ 20
      if s.ctrApplied slot (u32 ctr 4) then (s, r')
      else
        let n := s.num Reg.INK_REORDER_CNT
        let t := (s.counterUpdate slot (u32 ctr 4) (u32 ctr 0 / 2 ^ 20 % 16) (u32 ctr 8)).wrN Reg.INK_REORDER_CNT n
        let t := match mst with
          | none => t
          | some b => t.wrMem (t.mstA slot) b
        (match shd with
          | none => t
          | some b => t.wrMem (t.shdA slot) b, r')
  | .slot n b => ({ s with msm := tset (fun _ => msmClear) s.msm n b }, r)
  | _ => (s, r)

/-- MSM, the extended records and the Mender tables from the last checkpoint and the entries given. Answers the record head. -/
def State.tabRestore (s : State) (es : List JEntry) : State × TabRun :=
  let c := s.sto.ck.getD {}
  let t := { s with msm := c.msm }.each c.cells (fun x u => u.cellPut x)
  es.foldl (fun a e => a.1.tabEntry a.2 e) (t, { head := c.recHead })

/-- What replay of the map carries along: intents without DONE, and the record tail. -/
structure MapRun where
  intents : List (Nat × Nat × Nat × Nat × Nat) := []
  tail : Nat := 0
deriving DecidableEq, Repr

/-- One entry's effect on the map, superblocks and channels. -/
def mapEntry (t : StoState) (r : MapRun) (e : JEntry) : StoState × MapRun :=
  match e with
  | .map l v => ({ t with map := tset (fun _ => 0) t.map l v }, r)
  | .trim p f n =>
    if p = 0 then (t, { r with tail := (r.tail + n) % 2 ^ 32 })
    else ({ t with map := t.map.filter (fun x => decide (x.1 < luaOf p f ∨ luaOf p f + n ≤ x.1)) }, r)
  | .lost p f => ({ t with map := tset (fun _ => 0) t.map (luaOf p f) lostMark }, r)
  | .opened b st slc m =>
    ({ t with sbs := tset sbDflt t.sbs b { state := 1, stream := st, slc := slc, mask := m, nopar := decide (maskW m < 3) } }, r)
  | .intent i a b x y => ({ t with iseq := max t.iseq (i + 1) }, { r with intents := r.intents ++ [(i, a, b, x, y)] })
  | .done i a _ => ({ t with sbs := tdel t.sbs a }, { r with intents := r.intents.filter (fun x => decide (x.1 ≠ i)) })
  | .chan c v => ({ t with chans := tset (fun _ => 1) t.chans c v }, r)
  | .bad d b _ => ({ t with badBlks := if t.badBlks.contains (d, b) then t.badBlks else t.badBlks ++ [(d, b)] }, r)
  | _ => (t, r)

/-- Units of superblock b in offset order, with their locations. -/
def State.sbUnits (s : State) (b : Nat) : List (Nat × SUnit) := s.sto.units.filter (fun e => decide (e.1 / 2 ^ 17 = b))

/-- Take superblock b's units out and make it free. -/
def State.sbFree (s : State) (b : Nat) : State :=
  s.stoMod (fun t => { t with
    units := t.units.filter (fun e => decide (e.1 / 2 ^ 17 ≠ b)), sbs := tdel t.sbs b
    parity := t.parity.filter (fun e => decide (e.1 / 2048 ≠ b)) })

/-- Erase every block of a superblock that was built with a mask. -/
def State.sbErased (s : State) (b mask : Nat) : State :=
  (s.stoMod (fun t => { t with
    ecs := (diesOf mask).foldl (fun a d => tmod (fun _ => 0) a (d * 8192 + b) (· + 1)) t.ecs })).bumpN Reg.STO_ERASE_CNT (maskW mask)

/-- A unit is lost: LOST in the map, in the journal and in the log (R297). -/
def State.unitLost (s : State) (lua : Nat) : State :=
  ((((s.mapSet lua lostMark).jour (.lost (lua / 2 ^ 29) (lua % 2 ^ 29))).bump Reg.STO_LOST_CNT).raiseF Reg.STO_INT_STAT
    Fld.STO_INT_STAT_LOST).report 0x6101 4 (blockPath 6 0) ([lua / 2 ^ 29] ++ bytesLE 4 (lua % 2 ^ 29))

/-- Can the unit at a location be read: its codeword decodes? -/
def State.unitReads (s : State) (loc : Nat) : Bool := !(s.unitAt loc).bad

/-- Does a unit's stripe have its parity page? -/
def State.hasParity (s : State) (loc : Nat) : Bool :=
  let b := s.sb (loc / 2 ^ 17)
  let d := 4 * sbData b
  !b.nopar && decide (0 < d ∧ tget (fun _ => 0) s.sto.parity (stripeKey (loc / 2 ^ 17) (loc % 2 ^ 17 / d)) = 1)

/-- Complete an INTENT without DONE (R312). -/
def State.intentResolve (s : State) (x : Nat × Nat × Nat × Nat × Nat) : State :=
  let (i, src, tgt, t0, t1) := x
  let copies := (s.sbUnits tgt).filter (fun e =>
    e.2.copy && decide (e.2.srcSb = src ∧ t0 ≤ e.1 % 2 ^ 17 ∧ e.1 % 2 ^ 17 ≤ t1))
  let t := s.each copies (fun e u =>
    let m := u.mapOf e.2.lua
    if m = 0 ∨ m = lostMark ∨ (m - 1) / 2 ^ 17 ≠ src then u
    else if u.unitReads e.1 then u.mapSet e.2.lua (e.1 + 1)
    else if u.unitReads (m - 1) then
      let (v, l) := u.place 2 { u.unitAt (m - 1) with copy := true, srcSb := src, prog := true }
      if l = 0 then v else v.mapSet e.2.lua l
    else if u.hasParity e.1 then
      (u.stoMod (fun q => { q with units := tmod (fun _ => ({} : SUnit)) q.units e.1 (fun w => { w with bad := false }) })).mapSet
        e.2.lua (e.1 + 1)
    else u.unitLost e.2.lua)
  let m := (t.sb src).mask
  let u := t.sbErased src m
  ((u.sbFree src).jour (.done i src ((diesOf m).map (fun d => u.ec d src)))).bump Reg.STO_GC_RESUME_CNT

/-- Units of open superblocks in stripes without a parity page are copied into the relocation stream; then the superblock is closed. -/
def State.openResolve (s : State) (b : Nat) : State :=
  let x := s.sb b
  let live := (s.sbUnits b).filter (fun e => decide (s.mapOf e.2.lua = e.1 + 1) && !s.hasParity e.1)
  let t := s.closeSb b
  if x.nopar then t
  else
    t.each live (fun e u =>
      let (v, l) := u.place 2 { e.2 with copy := true, srcSb := b, prog := true }
      if l = 0 then v else (v.mapSet e.2.lua l).jour (.map e.2.lua l))

/-- The Darner's last checkpoint: that of the last DARNER entry programmed. -/
def State.darnerCells (s : State) : List (Nat × Nat) :=
  (s.sto.jlog.flatMap (·.2)).foldl (fun a e => match e with
    | .darner c _ => c
    | _ => a) s.sto.darner

/-- The Darner's state areas are restored (R277). -/
def State.drnRestore (s : State) : State :=
  let a := s.addr64 Reg.DRN_HIST_LO Reg.DRN_HIST_HI 12
  let t := { s with dram := dramCut s.dram a (a + 36 * 2 ^ 20) }.each s.darnerCells (fun c u => u.wrMem (a + c.1) [c.2])
  (t.raiseF Reg.DRN_STAT Fld.DRN_STAT_RESTORED).drnPlan

/-- The map after replay (R312): an entry whose location no longer holds its unit, since a relocation that has ended moved it, goes to
the copy that holds the unit's LUA; journal units from the start of the last pass on are found by their own numbers. -/
def State.mapSettle (s : State) (start : Nat) : State :=
  let t := s.each s.sto.map (fun e u =>
    if e.2 = lostMark ∨ (u.unitAt (e.2 - 1)).lua = e.1 then u
    else match u.sto.units.find? (fun x => decide (x.2.lua = e.1) && x.2.copy) with
      | none => u
      | some x => u.mapRaw e.1 (x.1 + 1))
  t.each (t.sto.units.filter (fun e => decide (e.2.kind = 2 ∧ start % 2 ^ 28 ≤ e.2.lua % 2 ^ 29))) (fun e u => u.mapRaw e.2.lua (e.1 + 1))

/-- Fine maps of the coarse units that need one, after replay. -/
def State.fmapRebuild (s : State) : State :=
  s.each (((s.sto.map.filter (fun e => decide (e.1 < 7 * 2 ^ 29))).map (·.1 / 256)).eraseDups) (fun cu t =>
    if t.isCoarse (cu * 256) then t else t.fmapNew cu)

/-- Anchor, replay and resolve: the store's working tables from NAND. -/
def State.storeReplay (s : State) : State :=
  let c := s.sto.ck.getD {}
  let units := s.sto.units.filter (fun e => e.2.prog)
  let js := s.sto.jlog.filter (fun u => decide (c.start ≤ u.1))
  let es := js.flatMap (·.2)
  let base : StoState := { s.sto with
    units := units, map := c.map, sbs := c.sbs, jpend := [], recs := [], reloc := none, pass := none, evac := none, rejoin := none
    fmaps := [], gcOn := false, passNo := c.pass
    dseq := units.foldl (fun a e => max a (e.2.dseq + 1)) c.dseq, jseq := (s.sto.jlog.map (·.1)).foldl max 0 + 1 }
  let (st, mr) := es.foldl (fun a e => mapEntry a.1 a.2 e) (base, { tail := c.recTail })
  let (t, tr) := { s with sto := st }.tabRestore es
  let n := t.partUnits 0
  let keep := fun (l : Nat) => decide (l / 2 ^ 29 ≠ 0 ∨ n = 0) ||
    decide ((l % 2 ^ 29 + n - mr.tail % n) % n < (tr.head + 2 ^ 32 - mr.tail) % 2 ^ 32)
  let t := ((t.stoMod (fun x => { x with map := x.map.filter (fun e => keep e.1) })).wrN Reg.STO_REC_HEAD tr.head).wrN Reg.STO_REC_TAIL
    mr.tail
  let t := t.stoMod (fun x => { x with sbs := x.sbs.map (fun e =>
    (e.1, { e.2 with next := (x.units.filter (fun u => decide (u.1 / 2 ^ 17 = e.1))).foldl (fun a u => max a (u.1 % 2 ^ 17 + 1)) 0 })) })
  let t := (t.mapSettle c.start).fmapRebuild
  let t := t.each mr.intents (fun x u => u.intentResolve x)
  let opens := (t.sto.sbs.filter (fun e => decide (e.2.state = 1))).map (·.1)
  let t := t.each opens (fun b u => u.openResolve b)
  let last := es.getLast?
  let unclean := !(s.sto.jlog.isEmpty) && !decide (last = some .shut)
  (t.setF Reg.STO_STAT Fld.STO_STAT_UNCLEAN unclean.toNat).when unclean (fun u =>
    u.report 0x6104 5 (blockPath 6 0) (bytesLE 8 (u.sto.jseq - 1)))

/-- STORE_RESTORE_DONE: the store reaches PHASE 6, hands over its tables, and whoever waited for it goes on. -/
def execStoreRestoreDone (s : State) : Host.Outcome State Fault Refusal :=
  if 1 ≤ s.phase ∧ s.phase ≤ 5 then
    let t := s.storeReplay
    let t := t.each [0, 1] (fun c u => (u.when (decide (u.chanSt c = 2)) (fun v =>
      v.stoMod (fun x => { x with evac := some c }))).chShow c (if u.chPresent c then u.chanSt c else 0))
    let t := ((t.setPhase 6).raiseF Reg.STO_INT_STAT Fld.STO_INT_STAT_READY).dieChange
    let t := (t.raiseF Reg.INK_STAT Fld.INK_STAT_RESTORED).drnRestore
    ok (t.smpRestore.totRestore.uplRestore)
  else ok s

/-- STORE_STOP: EN = 0 stops the store after a flush. -/
def execStoreStop (s : State) : Host.Outcome State Fault Refusal :=
  let t := s.setF Reg.STO_CTL Fld.STO_CTL_EN 0
  ok (if s.phase = 6 then ((t.flushStart 0).flushJournal).setPhase 0 else if s.phase = 0 then t else t.setPhase 0)

/-- RECORD_UNIT_PROGRAM: UNIT_WAIT after its first record, or at 170, the record unit goes to its stripe; the journal's open unit
follows. -/
def execRecordUnitProgram (s : State) : Host.Outcome State Fault Refusal := ok (if s.phase = 6 then (s.recUnitPut 0).jProgram else s)

/-! ## Retired blocks (R298, R303). -/

/-- Retire block b of die d, for reason 1 = erase, 2 = program, 3 = verify. -/
def State.blkRetire (s : State) (d b reason : Nat) : State :=
  if s.blkBad d b then s
  else
    let t := (s.stoMod (fun x => { x with badBlks := x.badBlks ++ [(d, b)] })).jour (.bad d b reason)
    (if t.dieGone d then (t.setDie d 2).raiseF Reg.STO_INT_STAT Fld.STO_INT_STAT_DIE_RETIRED else t).dieChange

/-- A page of a relocation target failed: R303. -/
def State.targetFail (s : State) (r : Reloc) : State :=
  let t := (s.closeSb r.tgt).sbMod r.tgt (fun b => { b with queued := true })
  if 2 ≤ r.fails then
    ((t.stoMod (fun x => { x with reloc := none })).sbMod r.src (fun b => { b with leave := s.ao.opsec + 4096 })).report 0x6103 5
      (blockPath 6 0) (bytesLE 2 r.src)
  else
    let u := t.openNext 2 64
    match u.openSb 2 with
    | none => u.stoMod (fun x => { x with reloc := none })
    | some b =>
      let o := (u.sb b).next
      u.stoMod (fun x => { x with reloc := some { r with tgt := b, t0 := o, t1 := o, phase := 1, fails := r.fails + 1, part := false } })

/-- Report of a program or verify failure. -/
def State.failRecord (s : State) (d b : Nat) : State := s.report 0x6102 3 (blockPath 6 (1 + d / 8)) ([d] ++ bytesLE 2 b)

/-- Units of page p of die d of superblock b. -/
def State.pageUnits (s : State) (d b p : Nat) : List (Nat × SUnit) :=
  let x := s.sb b
  let ds := diesOf x.mask
  let k := (ds.takeWhile (· ≠ d)).length
  let n := sbData x
  (s.sbUnits b).filter (fun e => decide (k < n ∧ e.1 % 2 ^ 17 / 4 = p * n + k))

/-- Is die d the parity die of superblock b? -/
def State.parityDie (s : State) (d b : Nat) : Bool :=
  let x := s.sb b
  !x.nopar && decide ((diesOf x.mask).getLast? = some d)

/-- A page of an open stripe failed outside a relocation: the superblock is closed and queued, and the page's units are written again
from staging (R290, R298). -/
def State.pageRewrite (s : State) (d b p : Nat) : State :=
  let x := s.sb b
  let us := s.pageUnits d b p
  let t := ((s.closeSb b).sbMod b (fun y => { y with queued := true })).stoMod (fun q => { q with
    units := q.units.map (fun e => if us.any (fun u => decide (u.1 = e.1)) then (e.1, { e.2 with bad := true }) else e) })
  t.each (us.filter (fun e => decide (s.mapOf e.2.lua = e.1 + 1))) (fun e u =>
    let (v, l) := u.place x.stream { e.2 with prog := false }
    if l = 0 then v else (v.mapSet e.2.lua l).jour (.map e.2.lua l))

/-- NAND_PROGRAM_DONE: page p of block b of die d has been programmed; `fail` says that it reports failure. -/
def execNandProgramDone (d b p : Nat) (fail : Bool) (s : State) : Host.Outcome State Fault Refusal :=
  let x := s.sb b
  if !(diesOf x.mask).contains d ∨ x.state = 0 then ok s
  else if fail then
    let t := ((s.blkRetire d b 2).bump Reg.STO_PROG_FAIL_CNT).failRecord d b
    match s.sto.reloc with
    | none => ok (t.pageRewrite d b p)
    | some r => if r.tgt = b ∧ r.phase ≤ 2 then ok (t.targetFail r) else ok (t.pageRewrite d b p)
  else
    let us := (s.pageUnits d b p).map (·.1)
    let t := s.stoMod (fun q => { q with units := q.units.map (fun e => if us.contains e.1 then (e.1, { e.2 with prog := true }) else e) })
    let t := (if s.parityDie d b then t.parityDone b p else t).emit (.nand d b p (s.rawPage d b p))
    ok (if t.phase = 6 then t.jDrain (t.sto.jpend.length) else t)

/-- NAND_READ_DONE: the codeword at location loc was read with `corr` bits corrected, or (`bad`) does not decode; then whether a
read-retry level recovers it, and whether the stripe's parity does (R296, R297). -/
def execNandReadDone (loc corr : Nat) (bad retry rebuilt : Bool) (s : State) : Host.Outcome State Fault Refusal :=
  if !bad then ok (if corr = 0 then s else s.bump Reg.STO_ECC_CORR_CNT)
  else
    let t := s.bump Reg.STO_RETRY_CNT
    if retry then ok t
    else if rebuilt ∧ s.hasParity loc then
      ok ((t.bump Reg.STO_REBUILD_CNT).sbMod (loc / 2 ^ 17) (fun b => { b with queued := true }))
    else
      let u := t.stoMod (fun q => { q with units := tmod (fun _ => ({} : SUnit)) q.units loc (fun w => { w with bad := true }) })
      let lua := (s.unitAt loc).lua
      ok (if s.mapOf lua = loc + 1 then u.unitLost lua else u)

/-! ## Relocation (R299–R304). -/

/-- Units of superblock b that the map points to, in offset order. -/
def State.validUnits (s : State) (b : Nat) : List (Nat × SUnit) :=
  (s.sbUnits b).filter (fun e => decide (s.mapOf e.2.lua = e.1 + 1))

/-- Start the relocation of superblock b into target superblock tgt. -/
def State.relocInto (s : State) (b tgt why : Nat) : State :=
  let o := (s.sb tgt).next
  s.stoMod (fun x => { x with reloc := some { src := b, tgt := tgt, t0 := o, t1 := o, phase := 1, iseq := 0, why := why, fails := 0, erasing := 0 } })

/-- Start the relocation of superblock b into the relocation stream (R302 step 1). -/
def State.relocStart (s : State) (b why : Nat) : State :=
  let t := s.readySb 2
  match t.openSb 2 with
  | none => s
  | some tgt => t.relocInto b tgt why

/-- Score of a closed superblock (R300). -/
def State.gcScore (s : State) (b : Nat) (x : SBlk) : Int :=
  let inv := x.next - (s.validUnits b).length
  let age := (s.ao.opsec - x.closedAt) / 3600
  let w := s.sbEc b - s.ecMin
  (s.getF Reg.STO_GC_W Fld.STO_GC_W_W_INV * (if x.next = 0 then 1000 else inv * 1000 / x.next) : Nat) +
    (s.getF Reg.STO_GC_W Fld.STO_GC_W_W_AGE * min age 1000 : Nat) - (s.getF Reg.STO_GC_W Fld.STO_GC_W_W_WEAR * min w 1000 : Nat)

/-- Closed superblocks that may be relocated now. -/
def State.closedSbs (s : State) : List (Nat × SBlk) :=
  s.sto.sbs.filter (fun e => decide (e.2.state = 2 ∧ e.2.leave ≤ s.ao.opsec))

/-- The element of greatest key, the first on a tie. -/
def argMax (l : List (Nat × Int)) : Option Nat :=
  (l.foldl (fun (a : Option (Nat × Int)) e => match a with
    | none => some e
    | some b => if b.2 < e.2 then some e else a) none).map (·.1)

/-- May collection take a superblock: a native one, or one of the system stream with no valid unit (log entry 191)? -/
def State.gcMay (s : State) (b : Nat) (x : SBlk) : Bool :=
  if x.stream = 3 then (s.validUnits b).isEmpty else !x.slc

/-- The next source: for an evacuation the superblock on its dies with fewest valid units, else a queued one, else the best score. -/
def State.gcSource (s : State) : Option (Nat × Nat) :=
  match s.closedSbs.find? (fun e => e.2.queued) with
  | some e => some (e.1, 3)
  | none =>
    match s.sto.evac with
    | some c =>
      (argMax ((s.closedSbs.filter (fun e => decide (e.2.mask / 2 ^ (8 * c) % 256 ≠ 0))).map (fun e =>
        (e.1, -((s.validUnits e.1).length : Int))))).map (fun b => (b, 4))
    | none => (argMax ((s.closedSbs.filter (fun e => s.gcMay e.1 e.2)).map (fun e => (e.1, s.gcScore e.1 e.2)))).map (fun b => (b, 0))

/-- May collection run now (R300)? -/
def State.gcDue (s : State) : Bool :=
  let f := s.freeSb
  decide (s.phase = 6) && s.sto.reloc.isNone && s.quar 6 0 == false &&
    (s.sto.evac.isSome || s.closedSbs.any (fun e => e.2.queued) ||
      ((s.sto.gcOn || decide (f < s.getF Reg.STO_GC_CTL Fld.STO_GC_CTL_GC_START)) &&
        (!s.isF Reg.STO_CTL Fld.STO_CTL_GC_HOLD || decide (f < s.getF Reg.STO_GC_CTL Fld.STO_GC_CTL_GC_URGENT))))

/-- Collection starts below GC_START and stops when the free superblocks reach GC_STOP (R300). -/
def State.gcTrack (s : State) : State :=
  s.stoMod (fun x => { x with gcOn := decide (s.freeSb < s.getF Reg.STO_GC_CTL Fld.STO_GC_CTL_GC_START) ||
    (x.gcOn && decide (s.freeSb < s.getF Reg.STO_GC_CTL Fld.STO_GC_CTL_GC_STOP)) })

/-- GC_START: relocation of the chosen source starts. -/
def execGcStart (s : State) : Host.Outcome State Fault Refusal :=
  if s.gcDue then
    match s.gcSource with
    | none => ok s
    | some (b, why) => ok (s.gcTrack.relocStart b why)
  else ok s

/-- FOLD_START: the SLC superblock closed earliest is folded; `idle` says that no unit has been written for 2^20 ticks (R293). -/
def execFoldStart (idle : Bool) (s : State) : Host.Outcome State Fault Refusal :=
  let due := idle || decide (s.getF Reg.STO_SLC Fld.STO_SLC_FOLD_PCT * 10 < s.slcUsedPm)
  if decide (s.phase = 6) && s.sto.reloc.isNone && due then
    match argMax ((s.closedSbs.filter (fun e => e.2.slc && decide (e.2.stream ≤ 1))).map (fun e => (e.1, -(e.2.closedNo : Int)))) with
    | none => ok s
    | some b => ok (s.relocStart b 1)
  else ok s

/-- WEAR_LEVEL_MOVE: the closed superblock of lowest erase count moves to the free superblock of the highest (R299). -/
def execWearLevelMove (s : State) : Host.Outcome State Fault Refusal :=
  if decide (s.phase = 6) && s.sto.reloc.isNone && decide (s.getF Reg.STO_WL Fld.STO_WL_WL_SPREAD < s.ecMax - s.ecMin) then
    let src := argMax (s.closedSbs.map (fun e => (e.1, -((s.sbEc e.1 * 2 ^ 32 + e.2.closedNo : Nat) : Int))))
    let free := ((List.range (s.getF Reg.STO_GEOM Fld.STO_GEOM_BLOCKS - 2)).map (· + 2)).filter (fun b => decide ((s.sb b).state = 0))
    match src, argMax (free.map (fun b => (b, (s.sbEc b : Int)))) with
    | some a, some b =>
      let t := match s.openSb 2 with
        | none => s
        | some o => s.closeSb o
      ok (((t.openAt b 2 false (t.maskNow b)).relocInto a b 2).bump Reg.STO_WL_MOVE_CNT)
    | _, _ => ok s
  else ok s

/-- RELOC_COPY_DONE: the source's mapped units stand in the target, whose last stripe is closed (R302 steps 2, 3). A unit that no
longer reads is lost and not copied (R304). Units for which the target has no room wait for another round. A target that has been closed
meanwhile, as an evacuation does (R314), takes no copies: the relocation starts again with another. -/
def execRelocCopyDone (s : State) : Host.Outcome State Fault Refusal :=
  match s.sto.reloc with
  | none => ok s
  | some r =>
    if r.phase ≠ 1 then ok s
    else if (s.sb r.tgt).state ≠ 1 then ok ((s.stoMod (fun x => { x with reloc := none })).relocStart r.src r.why)
    else
      let vs := s.validUnits r.src
      let room := s.sbCap (s.sb r.tgt) - (s.sb r.tgt).next
      let now := vs.take room
      let t := s.each now (fun e u =>
        if e.2.bad then u.unitLost e.2.lua
        else (u.putAt r.tgt { e.2 with copy := true, srcSb := r.src, prog := false }).bump
          (if r.why = 1 then Reg.STO_FOLD_UNITS_CNT else Reg.STO_GC_UNITS_CNT))
      let t := t.stripeClose r.tgt
      ok (t.stoMod (fun x => { x with reloc := some { r with
        t1 := (t.sb r.tgt).next - 1, phase := 2, part := decide (now.length < vs.length) } }))

/-- Copies of a relocation in its target. -/
def State.relocCopies (s : State) (r : Reloc) : List (Nat × SUnit) :=
  (s.sbUnits r.tgt).filter (fun e => e.2.copy && decide (e.2.srcSb = r.src ∧ r.t0 ≤ e.1 % 2 ^ 17 ∧ e.1 % 2 ^ 17 ≤ r.t1))

/-- Map entries that still point into the source move to their copies; `log` journals each. Units of the system partition have no
place in a fine map. -/
def State.relocMap (s : State) (r : Reloc) (log : Bool) : State :=
  s.each (s.relocCopies r) (fun e u =>
    let m := u.mapOf e.2.lua
    if m ≠ 0 ∧ m ≠ lostMark ∧ (m - 1) / 2 ^ 17 = r.src then
      (if e.2.lua / 2 ^ 29 = 7 then u.mapRaw e.2.lua (e.1 + 1)
        else (u.mapSet e.2.lua (e.1 + 1)).when log (fun v => v.jour (.map e.2.lua (e.1 + 1))))
    else u)

/-- RELOC_VERIFY_DONE: the target reads back; `bad` names the die of a page that fails to verify. Then INTENT is journalled. -/
def execRelocVerifyDone (bad : Option Nat) (s : State) : Host.Outcome State Fault Refusal :=
  match s.sto.reloc with
  | none => ok s
  | some r =>
    if r.phase ≠ 2 then ok s
    else
      match bad with
      | some d => ok ((((s.blkRetire d r.tgt 3).bump Reg.STO_VERIFY_FAIL_CNT).failRecord d r.tgt).targetFail r)
      | none =>
        if r.part then
          let t := (s.relocMap r true).closeSb r.tgt
          let t := t.stoMod (fun x => { x with reloc := none })
          ok (t.relocStart r.src r.why)
        else
          let i := s.sto.iseq
          ok ((s.stoMod (fun x => { x with iseq := i + 1, reloc := some { r with phase := 3, iseq := i } })).jour
            (.intent i r.src r.tgt r.t0 r.t1))

/-- RELOC_INTENT_DONE: INTENT is programmed, so the map moves and the source's erases begin (R302 steps 6, 7). -/
def execRelocIntentDone (s : State) : Host.Outcome State Fault Refusal :=
  match s.sto.reloc with
  | none => ok s
  | some r =>
    if r.phase ≠ 3 then ok s
    else
      let t := s.jDrain (s.sto.jpend.length + 1)
      if t.sto.jpend.contains (.intent r.iseq r.src r.tgt r.t0 r.t1) then ok t
      else ok ((t.relocMap r false).stoMod (fun x => { x with reloc := some { r with phase := 4, erasing := (t.sb r.src).mask } }))

/-- NAND_ERASE_DONE: a block of the source has been erased on die d; `fail` says that it reports failure. The last one journals DONE
and frees the source. -/
def execNandEraseDone (d : Nat) (fail : Bool) (s : State) : Host.Outcome State Fault Refusal :=
  match s.sto.reloc with
  | none => ok s
  | some r =>
    if r.phase ≠ 4 ∨ r.erasing / 2 ^ d % 2 = 0 then ok s
    else
      let t := (s.stoMod (fun x => { x with ecs := tmod (fun _ => 0) x.ecs (d * 8192 + r.src) (· + 1) })).bump Reg.STO_ERASE_CNT
      let t := t.when fail (fun u => (u.blkRetire d r.src 1).bump Reg.STO_ERASE_FAIL_CNT)
      let m := r.erasing - 2 ^ d
      let ecs := (diesOf (t.sb r.src).mask).map (fun i => t.ec i r.src)
      if m = 0 then ok (((((t.sbFree r.src).jour (.done r.iseq r.src ecs)).stoMod (fun x => { x with reloc := none })).setF Reg.STO_STAT
        Fld.STO_STAT_FULL 0).gcTrack)
      else ok (t.stoMod (fun x => { x with reloc := some { r with erasing := m } }))

/-! ## Checkpoints (R307, R308). -/

/-- Bytes of DRAM in a checkpoint: extended records 0–15, Mender state, shadow. -/
def State.ckptCells (s : State) : List (Nat × Nat × Nat) :=
  let n := s.slotCount
  let x := s.xrecA 0
  let m := s.mstA 0
  let h := s.shdA 0
  s.dram.filterMap (fun e =>
    if x ≤ e.1 ∧ e.1 < x + 256 * n ∧ (e.1 - x) % 256 < 16 then some (0, e.1 - x, e.2.toNat)
    else if m ≤ e.1 ∧ e.1 < m + 64 * n then some (1, e.1 - m, e.2.toNat)
    else if h ≤ e.1 ∧ e.1 < h + 256 * n then some (2, e.1 - h, e.2.toNat)
    else none)

/-- CHECKPOINT_START: a pass starts. -/
def execCheckpointStart (s : State) : Host.Outcome State Fault Refusal :=
  if s.phase = 6 ∧ s.sto.pass = none then
    ok (s.stoMod (fun x => { x with pass := some (x.passNo + 1, x.jseq), passNo := x.passNo + 1 }))
  else ok s

/-- Journal units before the start of a pass, and the roots of older passes, become invalid (R307). -/
def State.sysTrim (s : State) (start pass : Nat) : State :=
  s.sysDrop (fun n => decide (n < start % 2 ^ 28 ∨ (2 ^ 28 ≤ n ∧ n < 2 ^ 28 + pass)))

/-- A pass ends with the root at location root: its contents are in NAND, the units of older passes become invalid, the last stripe of the
system stream is closed (R291), and anchors are written. -/
def State.ckptDone (s : State) (pass start root : Nat) : State :=
  let s := s.sysTrim start pass
  let s := match s.openSb 3 with
    | none => s
    | some b => s.stripeClose b
  let c : Ckpt := { pass := pass, start := start, map := s.sto.map, sbs := s.sto.sbs, ecs := s.sto.ecs, badBlks := s.sto.badBlks, msm := s.msm,
                    cells := s.ckptCells, recHead := s.num Reg.STO_REC_HEAD, recTail := s.num Reg.STO_REC_TAIL, dseq := s.sto.dseq
                    root := root }
  let t := s.stoMod (fun x => { x with
    ck := some c, pass := none, darner := s.darnerCells, jlog := x.jlog.filter (fun u => decide (start ≤ u.1)) })
  (t.anchorWrite).raiseF Reg.STO_INT_STAT Fld.STO_INT_STAT_CKPT_DONE

/-- CHECKPOINT_DONE: the pass writes its root and CKPT; it waits while the journal before CKPT cannot be programmed yet. -/
def execCheckpointDone (s : State) : Host.Outcome State Fault Refusal :=
  match s.sto.pass with
  | none => ok s
  | some (p, st) =>
    if s.phase ≠ 6 then ok s
    else
      let (u, l) := s.sysPut 3 (2 ^ 28 + p) []
      let t := (u.jour (.ckpt p st (l - 1))).jDrain (u.sto.jpend.length + 2)
      if l ≠ 0 ∧ t.sto.jpend.isEmpty then ok (t.ckptDone p st (l - 1)) else ok s

/-! ## Flush (R311). -/

/-- STORE_FLUSH_DONE: the power-fail flush ends with SHUT and PHASE 8; with PFAIL_N high again the store resumes. -/
def execStoreFlushDone (s : State) : Host.Outcome State Fault Refusal :=
  if s.phase = 7 then
    let t := s.flushJournal.bump Reg.STO_FLUSH_CNT
    ok (if s.pins.pfail then (t.setPhase 8).txenLow else t.setPhase 6)
  else ok s

/-! ## Channels (R314, R315). -/

/-- Set CH and REFUSE of STO_CH_CTL. -/
def State.chRefuse (s : State) (c e : Nat) : State :=
  (s.setF Reg.STO_CH_CTL Fld.STO_CH_CTL_CH c).setF Reg.STO_CH_CTL Fld.STO_CH_CTL_REFUSE e

/-- Capacity in fine units that the other channel alone would give. -/
def State.otherCap (s : State) (c : Nat) : Nat :=
  let w := (s.activeDies.filter (fun d => decide (d / 8 ≠ c))).length
  let d := if w < 3 then w else w - 1
  (s.nSb - s.nSlc - 16) * (d * 4 * s.getF Reg.STO_GEOM Fld.STO_GEOM_PAGES) * 9 / 2560 * 256

/-- Journal a channel state. -/
def State.chanSet (s : State) (c v : Nat) : State :=
  ((s.stoMod (fun x => { x with chans := tset (fun _ => 1) x.chans c v })).jour (.chan c v)).chShow c v

/-- CHANNEL_EVACUATE: EVAC = 1. -/
def execChannelEvacuate (c : Nat) (s : State) : Host.Outcome State Fault Refusal :=
  let c := c % 2
  let valid := (s.sto.map.filter (fun e => decide (e.2 ≠ 0 ∧ e.2 ≠ lostMark))).length
  if s.sto.evac.isSome ∨ s.sto.rejoin.isSome then ok (s.chRefuse c 3)
  else if s.phase ≠ 6 ∨ s.chanSt 0 ≠ 1 ∨ s.chanSt 1 ≠ 1 ∨ !s.chPresent 0 ∨ !s.chPresent 1 then ok (s.chRefuse c 1)
  else if s.otherCap c * 85 < valid * 100 then ok (s.chRefuse c 2)
  else
    let t := ((s.chRefuse c 0).chanSet c 2).stoMod (fun x => { x with evac := some c })
    let opens := (t.sto.sbs.filter (fun e => decide (e.2.state = 1 ∧ e.2.mask / 2 ^ (8 * c) % 256 ≠ 0))).map (·.1)
    ok (t.each opens (fun b u => (u.stripeClose b).closeSb b))

/-- EVACUATION_DONE: no superblock holds a die of the channel; it is powered off. -/
def execEvacuationDone (s : State) : Host.Outcome State Fault Refusal :=
  match s.sto.evac with
  | none => ok s
  | some c =>
    if s.sto.reloc.isSome ∨ s.sto.sbs.any (fun e => decide (e.2.state ≠ 3 ∧ e.2.mask / 2 ^ (8 * c) % 256 ≠ 0)) then ok s
    else
      let (t, l) := (s.stoMod (fun x => { x with evac := none, passNo := x.passNo + 1 })).sysPut 3 (2 ^ 28 + s.sto.passNo + 1) []
      let t := (t.jour (.ckpt t.sto.passNo s.sto.jseq (l - 1))).ckptDone t.sto.passNo s.sto.jseq (l - 1)
      let t := t.chanSet c 3
      let t := (t.each ((List.range 8).map (· + 8 * c)) (fun i u => if u.dieState i = 0 then u else u.setDie i 3)).dieChange
      ok ({ t with pins := { t.pins with nandPwr := t.pins.nandPwr.set c false } }.raiseF Reg.STO_INT_STAT Fld.STO_INT_STAT_EVAC_DONE)

/-- CHANNEL_REJOIN: REJOIN = 1 powers the channel up. -/
def execChannelRejoin (c : Nat) (s : State) : Host.Outcome State Fault Refusal :=
  let c := c % 2
  if s.sto.evac.isSome ∨ s.sto.rejoin.isSome then ok (s.chRefuse c 3)
  else if s.chanSt c ≠ 3 then ok (s.chRefuse c 5)
  else
    let t := ((s.chRefuse c 0).stoMod (fun x => { x with rejoin := some c })).chShow c 4
    ok { t with pins := { t.pins with nandPwr := t.pins.nandPwr.set c true } }

/-- REJOIN_DONE: the new dies are identified and erased; `match_` says that all of them match the profile, `bad` lists their factory
bad blocks by die and block. -/
def execRejoinDone (match_ : Bool) (bad : List (Nat × Nat)) (s : State) : Host.Outcome State Fault Refusal :=
  match s.sto.rejoin with
  | none => ok s
  | some c =>
    let t := s.stoMod (fun x => { x with rejoin := none })
    if !match_ then
      let u := (t.chRefuse c 4).chShow c 3
      ok { u with pins := { u.pins with nandPwr := u.pins.nandPwr.set c false } }
    else
      let lo := s.ecMin
      let ds := (List.range (s.getF Reg.STO_NAND Fld.STO_NAND_DIES)).map (· + 8 * c)
      let mine := bad.filter (fun e => decide (e.1 / 8 = c))
      let t := t.stoMod (fun x => { x with
        ecs := ds.foldl (fun a d => (List.range (s.getF Reg.STO_GEOM Fld.STO_GEOM_BLOCKS)).foldl (fun a b =>
          tset (fun _ => 0) a (d * 8192 + b) lo) a) x.ecs
        badBlks := x.badBlks.filter (fun e => decide (e.1 / 8 ≠ c)) ++ mine })
      let t := t.each ds (fun i u => u.setDie i (if u.dieGone i then 2 else 1))
      let good := (ds.map (fun i => t.getF Reg.STO_GEOM Fld.STO_GEOM_BLOCKS - (t.sto.badBlks.filter (fun e => decide (e.1 = i))).length)).sum
      ok ((t.bumpN Reg.STO_ERASE_CNT good).chanSet c 1).dieChange

/-! ## Command rings (R316, R317). -/

/-- Ring k's CONS. -/
def State.ringCons (s : State) (k : Nat) : Nat := s.getF (Reg.STO_RING_HEAD k) Fld.STO_RING_HEAD_CONS

/-- Entries of ring k. -/
def State.ringSize (s : State) (k : Nat) : Nat := 2 ^ s.getF (Reg.STO_RING_LO k) Fld.STO_RING_LO_RING_LOG2

/-- Address of descriptor i of ring k. -/
def State.ringA (s : State) (k i : Nat) : Nat := s.addr64 (Reg.STO_RING_LO k) (Reg.STO_RING_HI k) 12 + 32 * (i % s.ringSize k)

/-- The descriptor that ring k's store side fetches next, if it owns it. -/
def State.ringNext (s : State) (k : Nat) : Option Bytes :=
  let c := s.ringCons k
  let d := s.rdMem (s.ringA k c) 32
  if c = s.getF (Reg.STO_RING_HEAD k) Fld.STO_RING_HEAD_PROD ∨ u8 d 2 / 128 = 0 then none else some d

/-- The descriptor just executed completes with a status. -/
def State.ringDone (s : State) (k st : Nat) : State :=
  let c := s.ringCons k
  let a := s.ringA k c
  let ctl := s.rdByte (a + 2) % 128
  ((((s.wrMem (a + 2) [ctl, st]).wrMem (a + 24) (bytesLE 4 s.now)).setF (Reg.STO_RING_HEAD k) Fld.STO_RING_HEAD_CONS
    ((c + 1) % s.ringSize k))).when (decide (ctl / 64 = 1)) (fun t => t.raiseBit Reg.STO_INT_STAT (6 + k))

/-- May ring k write partition p (R286)? -/
def ringWrites (k p : Nat) : Bool :=
  match p with
  | 2 | 4 => true
  | 3 => decide (k = 0)
  | _ => false

/-- Status that refuses a descriptor before its operation, 0 for none. `wr` tells a write or trim from a read. -/
def State.ringCheck (s : State) (k : Nat) (d : Bytes) (wr : Bool) : Nat :=
  let p := u8 d 1
  let first := u32 d 4
  let n := u32 d 8
  if s.phase ≠ 6 then 5
  else if 4 < p then 2
  else if wr && !ringWrites k p then 1
  else if n = 0 ∨ 65536 < n ∨ s.partUnits p < first + n then 2
  else 0

/-- Run ring k's next descriptor as operation op, if it is one. f answers the completion status, or none while the descriptor waits. -/
def State.ringRun (s : State) (k op : Nat) (f : Bytes → State → State × Option Nat) : State :=
  match s.ringNext k with
  | none => s
  | some d =>
    if u8 d 0 = 0 ∨ 4 < u8 d 0 then s.ringDone k 7
    else if u8 d 0 ≠ op then s
    else
      match f d s with
      | (t, some st) => t.ringDone k st
      | (t, none) => t

/-- RING_READ: ring k's READ descriptor; `err` says that the buffer could not be written. -/
def execRingRead (k : Nat) (err : Bool) (s : State) : Host.Outcome State Fault Refusal :=
  ok (s.ringRun (k % 2) 1 (fun d t =>
    let c := t.ringCheck (k % 2) d false
    let p := u8 d 1
    let a := un d 16 8
    if c ≠ 0 then (t, some c)
    else if err ∨ t.dramFit < a + 4096 * u32 d 8 then (t, some 4)
    else
      let l := (List.range (u32 d 8)).map (· + u32 d 4)
      let u := t.each l (fun f v => v.wrMem (a + 4096 * (f - u32 d 4)) (v.storeGet p f))
      (u, some (if l.any (fun f => decide (t.mapOf (luaOf p f) = lostMark)) then 3 else 0))))

/-- Would a write open a wide superblock while a channel is being evacuated or rejoined (status 6)? The general stream's superblock
still holds dies of that channel. -/
def State.ringConflict (s : State) : Bool :=
  match s.sto.evac with
  | none => false
  | some c => match s.openSb 1 with
    | none => false
    | some b => decide ((s.sb b).mask / 2 ^ (8 * c) % 256 ≠ 0)

/-- A write to partition 2 takes the verified mark from the staging slots it touches (R454). -/
def State.stagingTouched (s : State) (first n : Nat) : State :=
  let half := s.partUnits 2 / 2
  { s with upd := { s.upd with verified := s.upd.verified.filter (fun g => !decide (first < (g + 1) * half ∧ g * half < first + n)) } }

/-- RING_WRITE: ring k's WRITE descriptor. It waits while the general stream is held. -/
def execRingWrite (k : Nat) (err : Bool) (s : State) : Host.Outcome State Fault Refusal :=
  ok (s.ringRun (k % 2) 2 (fun d t =>
    let c := t.ringCheck (k % 2) d true
    let p := u8 d 1
    let a := un d 16 8
    if c ≠ 0 then (t, some c)
    else if err ∨ t.dramFit < a + 4096 * u32 d 8 then (t, some 4)
    else if t.ringConflict then (t, some 6)
    else
      let l := (List.range (u32 d 8)).map (· + u32 d 4)
      let u := t.each l (fun f v => v.storePut p f (t.rdMem (a + 4096 * (f - u32 d 4)) 4096))
      if u.sto.dseq ≠ t.sto.dseq + u32 d 8 then (t.setF Reg.STO_STAT Fld.STO_STAT_FULL 1, none)
      else (if p = 2 then u.stagingTouched (u32 d 4) (u32 d 8) else u, some 0)))

/-- RING_TRIM: ring k's TRIM descriptor. -/
def execRingTrim (k : Nat) (s : State) : Host.Outcome State Fault Refusal :=
  ok (s.ringRun (k % 2) 3 (fun d t =>
    let c := t.ringCheck (k % 2) d true
    if c ≠ 0 then (t, some c) else (t.trimUnits (u8 d 1) (u32 d 4) (u32 d 8), some 0)))

/-- RING_FLUSH: ring k's FLUSH descriptor completes once everything written before it is programmed. -/
def execRingFlush (k : Nat) (s : State) : Host.Outcome State Fault Refusal :=
  ok (s.ringRun (k % 2) 4 (fun _ t => if t.phase ≠ 6 then (t, some 5) else (t.sync, some 0)))

/-- REC_TAIL_WRITE: a forward write of STO_REC_TAIL, not past the head, trims the units passed. -/
def execRecTailWrite (pos : Nat) (s : State) : Host.Outcome State Fault Refusal :=
  let h := s.num Reg.STO_REC_HEAD
  let t := s.num Reg.STO_REC_TAIL
  let n := (pos % 2 ^ 32 + 2 ^ 32 - t) % 2 ^ 32
  let size := s.partUnits 0
  if n = 0 ∨ (h + 2 ^ 32 - t) % 2 ^ 32 < n then ok s
  else
    let m := if size = 0 then 0 else min n size
    let u := s.each (List.range m) (fun i v => v.mapSet (luaOf 0 ((t + i) % size)) 0)
    ok (((u.jour (.trim 0 (if size = 0 then 0 else t % size) n)).wrN Reg.STO_REC_TAIL pos).bumpN Reg.STO_REC_TRIM_CNT n |>.setF Reg.STO_STAT
      Fld.STO_STAT_FULL 0 |>.mirror 6 (bytesLE 4 pos))

end Sys2Proof.Machine
end

