-- ==== Sys2Proof/Machine/Ladder.lean ====
section
/-! DEFINITION. Sys2Proof/Machine/Ladder.lean: the recovery ladder, its watchdogs and the reports that may start it (R479–R485). -/

namespace Sys2Proof.Machine

/-! ## Steps 2–4 (R483–R485). -/

/-- The Sampler takes every report that waits, so that it lies in the log before the reset (R478). -/
def State.smpDrain (s : State) : State :=
  s.smp.fifo.foldl (fun t e => t.smpTake e) (s.smpMod (fun p => { p with fifo := [] }))

/-- Steps 1 and 2 of R483: the store flushes, if it is in service, with the Sampler's open unit in it. -/
def State.ladderFlush (s : State) : State :=
  let t := s.smpDrain
  if t.phase = 6 then ((t.mirrorFlush.flushStart 0).flushJournal).setPhase 8 else t

/-- Step 2: flush, then a reset as WARM_N does (R483). -/
def State.step2 (s : State) : State :=
  let t := s.ladderFlush
  (t.aoMod (fun a => { a with warmCnt := min (t.ao.warmCnt + 1) 255, escAgo := some 0 })).warmRestart 3
    false false

/-- Step 3: flush, then a power-cycle request (R484). -/
def State.step3 (s : State) : State :=
  let t := s.ladderFlush
  t.aoMod (fun a => { a with cycles := min (t.ao.cycles + 1) 3, pwrReq := true, stepOpen := true })

/-! ## Step 1 (R482). -/

/-- Region r is reset: its blocks' work is given up; nothing is granted to it until step 1 ends. Registers keep their values (log entry
119). -/
def State.regionReset (s : State) (r : Nat) : State :=
  let t := { s with ladder := { s.ladder with region := r } }
  let t := t.fabMod (fun f => { f with errs := f.errs.filter (fun e => decide (e.path / 0x1000 ≠ r)) })
  let t := t.setF (Reg.CHIP_PACE r) Fld.CHIP_PACE_PACE 0
  match r with
  | 5 =>
    let u := t.drnDisable
    { u with
      ink := { u.ink with lanes := [], back := [], holds := [], commits := [], kc := [], deriv := [], op := none, ue := [], rebuilding := false }
      mnd := { u.mnd with jobs := [], install := none }
      msm := [] }
  | 7 =>
    let u := t.each (List.range 32) (fun c v => v.chAbort c)
    { u with ladder := { u.ladder with fieldRun := false } }
  | 9 => (t.sessCloseAll.when (decide (t.num Reg.UPL_STAT &&& 0xA8000000 ≠ 0)) (fun u =>
      u.raiseF Reg.UPL_INT_STAT Fld.UPL_INT_STAT_LINK_CHANGE)).wrN Reg.UPL_STAT (t.num Reg.UPL_STAT &&& 0x50000000)
  | _ => t

/-- Every block of region r is re-pricked with what it holds: its quarantine ends, and its spares are idle again (R26, R482 step 2). -/
def State.regionFresh (s : State) (r : Nat) : State :=
  let t := ((s.wrN (Reg.CHIP_QUAR r) 0).wrN (Reg.CHIP_SPARE_MAP r) 0).setRegion r 0
  (t.when (decide (r = 5)) (fun u => u.wrN Reg.INK_POOL (u.num Reg.INK_POOL % 2 ^ 16))).each
    ((List.range (blocksOf r)).filter (fun b => s.exists_ r b)) (fun b u => u.build (blockPath r b) (u.builtAt (blockPath r b)))

/-- What step 1 restores before grants resume. -/
def State.regionRestore (s : State) (r : Nat) : State :=
  match r with
  | 5 =>
    if s.phase = 6 then
      let t := s.sync
      let es := (t.sto.jlog.filter (fun u => decide ((t.sto.ck.getD {}).start ≤ u.1))).flatMap (·.2)
      (t.tabRestore es).1.rebuild
    else s
  | 7 => (s.each [1, 2, 3, 4] (fun t u => u.intFlush t)).fieldImage (s.norRd s.booted)
  | _ => s

/-! ## Taking a step (R480, R481). -/

/-- A step's yield: an active device whose partner is a standby yields, and a standby becomes STALE. -/
def State.stepYield (s : State) : State :=
  if s.pairState = 4 ∧ s.pair.peerState = 3 then s.pairYield else if s.pairState = 3 then s.pairMove 6 else s

/-- Take a step, with its trigger code and, for step 1, its region. Record 0x0006 comes before any of the step's actions. -/
def State.ladderStep (s : State) (n region code : Nat) : State :=
  let step := if n = 3 ∧ 3 ≤ s.ao.cycles then 4 else n
  let path := if step = 1 then regionPath region else 0x0FFF
  let t := s.report 0x0006 5 path ([step, if step = 1 then region else 0] ++ bytesLE 2 code)
  let t := { t with ao := { t.ao with lastStep := step }, ladder := { t.ladder with sinceStep := 0 } }
  let t := ((t.setF Reg.CHIP_RECOV_STAT Fld.CHIP_RECOV_STAT_STEP step).setF Reg.CHIP_RECOV_STAT Fld.CHIP_RECOV_STAT_LAST_CODE code).raiseF
    Reg.SMP_INT_STAT Fld.SMP_INT_STAT_RCV_STEP
  let t := t.stepYield
  match step with
  | 1 => t.regionReset region
  | 2 => t.step2
  | 3 => t.step3
  | _ => (t.setRcvReq 1).step3

/-- A trigger with its own first step and, for step 1, its region. One that comes while a step runs, or within the escalation window
of the last, goes one step further (R480). -/
def State.ladderTrigger (s : State) (first region code : Nat) : State :=
  if s.getF Reg.CHIP_RECOV_STAT Fld.CHIP_RECOV_STAT_STEP ≠ 0 ∨ s.escLeft ≠ 0 ∨ s.ao.stepOpen then
    s.ladderStep (min 4 (max first (s.ao.lastStep + 1))) region code
  else s.ladderStep first region code

/-- A trigger for which the spec names no event code: the code is a free value (log entry 120). -/
def State.ladderPlain (s : State) (first region : Nat) : State := s.draw.ladderTrigger first region (s.drawn 65536)

/-- A region has failed (R27, R480). -/
def State.regionFailed (s : State) (r : Nat) : State :=
  let code := r * 0x1000 + 5
  match r with
  | 5 | 7 => s.ladderTrigger 1 r code
  | 6 | 8 => s.ladderTrigger 2 0 code
  | 9 => s.ladderTrigger 3 0 code
  | _ => s

/-- REGION_RESET_DONE: step 1 ends: the blocks are re-pricked, state is restored and grants resume; `fail` says that a re-pricking failed,
which escalates. -/
def execRegionResetDone (fail : Bool) (s : State) : Host.Outcome State Fault Refusal :=
  let r := s.ladder.region
  if r = 0 then ok s
  else if fail then ok (s.ladderTrigger 2 0 (r * 0x1000 + 5))
  else
    let t := (s.regionFresh r).regionRestore r
    let t := { t with ladder := { t.ladder with region := 0 }, ao := { t.ao with escAgo := some 0 } }
    ok (t.setF Reg.CHIP_RECOV_STAT Fld.CHIP_RECOV_STAT_STEP 0)

/-! ## Watchdogs and requests (R480). -/

/-- HOOP_WATCHDOG_EXPIRE: HWDOG_S seconds have passed without a kick. -/
def execHoopWatchdogExpire (s : State) : Host.Outcome State Fault Refusal :=
  if s.ladder.hoopRun && decide (s.getF Reg.SMP_RCV_CTL Fld.SMP_RCV_CTL_HWDOG_S ≠ 0 ∧ s.ladder.hwd = 0) then
    ok (({ s with ladder := { s.ladder with hoopRun := false } }.report 0x0009 7 0x803F []).ladderTrigger 2 0 0x0009)
  else ok s

/-- FIELD_WATCHDOG_EXPIRE: FWDOG_S seconds have passed without a kick while the field cores run. -/
def execFieldWatchdogExpire (s : State) : Host.Outcome State Fault Refusal :=
  if s.ladder.fieldRun && decide (s.getF Reg.SMP_RCV_CTL Fld.SMP_RCV_CTL_FWDOG_S ≠ 0 ∧ s.ladder.fwd = 0) then
    ok ({ s with ladder := { s.ladder with fieldRun := false } }.ladderPlain 1 7)
  else ok s

/-- A write of SMP_RCV_WDOG by an initiator: a wrong KEY is ignored; a hoop-only ACT from another initiator is refused. -/
def State.rcvWdog (s : State) (init key act : Nat) (f : State → State) : State :=
  if key ≠ 0x4B49 then s
  else if !isHoop init && decide (act = 0 ∨ (2 ≤ act ∧ act ≤ 4)) then s.fwReg init Reg.SMP_RCV_WDOG
  else f s

/-- ACT 0. -/
def State.hoopKick (s : State) (init key : Nat) : State := s.rcvWdog init key 0 (fun t =>
  { t with ladder := { t.ladder with hwd := t.getF Reg.SMP_RCV_CTL Fld.SMP_RCV_CTL_HWDOG_S } })

/-- ACT 1. -/
def State.fieldKick (s : State) (init key : Nat) : State := s.rcvWdog init key 1 (fun t =>
  { t with ladder := { t.ladder with fwd := t.getF Reg.SMP_RCV_CTL Fld.SMP_RCV_CTL_FWDOG_S } })

/-- ACT 2–4. -/
def State.stepAsk (s : State) (init key act : Nat) : State :=
  if 2 ≤ act ∧ act ≤ 4 then s.rcvWdog init key act (fun t => t.ladderPlain act 0) else s

/-- HOOP_WDOG_KICK. -/
def execHoopWdogKick (init key : Nat) (s : State) : Host.Outcome State Fault Refusal := ok (s.hoopKick init key)

/-- FIELD_WDOG_KICK. -/
def execFieldWdogKick (init key : Nat) (s : State) : Host.Outcome State Fault Refusal := ok (s.fieldKick init key)

/-- LADDER_STEP_REQUEST. -/
def execLadderStepRequest (init key act : Nat) (s : State) : Host.Outcome State Fault Refusal := ok (s.stepAsk init key act)

/-- CYCLES_RESET: 3,600 s without a ladder step (R485). -/
def execCyclesReset (s : State) : Host.Outcome State Fault Refusal :=
  ok (if 3600 ≤ s.ladder.sinceStep then s.aoMod (fun a => { a with cycles := 0 }) else s)

/-! ## Reports (R476, R479). -/

/-- A report of severity 7 starts the ladder at step 2. -/
def State.reportAct (s : State) (code sev path : Nat) (data : Bytes) : State :=
  (s.report code sev path data).when (decide (sev = 7)) (fun t => t.ladderTrigger 2 0 code)

/-- SAMPLER_REPORT: a block reports an event. -/
def execSamplerReport (code sev path : Nat) (data : List Nat) (s : State) : Host.Outcome State Fault Refusal :=
  ok (s.reportAct (code % 65536) (sev % 8) (path % 65536) data)

/-- SMP_SW_DATA_0–3 as the 14 bytes of DATA. -/
def State.swData (s : State) : Bytes := ((List.range 4).flatMap (fun k => bytesLE 4 (s.num (Reg.SMP_SW_DATA k)))).take 14

/-- A write of SMP_SW_CMD with GO (R479): field cores write codes 0x7800–0x7FFF, the hoop 0x8800–0x8FFF; any other is refused. -/
def State.swRecord (s : State) (init sev code : Nat) : State :=
  if 1 ≤ init ∧ init ≤ 4 ∧ 0x7800 ≤ code ∧ code ≤ 0x7FFF then s.reportAct code (sev % 8) (0x703F + 64 * (init - 1)) s.swData
  else if init = 0 ∧ 0x8800 ≤ code ∧ code ≤ 0x8FFF then s.reportAct code (sev % 8) 0x803F s.swData
  else s.raiseF Reg.SMP_INT_STAT Fld.SMP_INT_STAT_SW_REFUSED

/-- SAMPLER_SW_RECORD. -/
def execSamplerSwRecord (init sev code : Nat) (s : State) : Host.Outcome State Fault Refusal := ok (s.swRecord init sev code)

end Sys2Proof.Machine
end

