-- ==== Sys2Proof/Machine/Mender.lean ====
section
/-! DEFINITION. Sys2Proof/Machine/Mender.lean: the Mender (R227–R255). A batch is worked out whole when a unit takes it, and made
visible when the unit finishes (R248). -/

namespace Sys2Proof.Machine

/-- Change the Mender. -/
def State.mndMod (s : State) (f : MndState → MndState) : State := { s with mnd := f s.mnd }

/-! ## Plaintext (R228, R229). -/

/-- An A-XDR length at offset o: the length and where what it counts begins. -/
def axdr (b : Bytes) (o : Nat) : Option (Nat × Nat) :=
  if b.length ≤ o then none
  else if u8 b o < 128 then some (u8 b o, o + 1)
  else if u8 b o = 0x81 ∧ o + 1 < b.length then some (u8 b (o + 1), o + 2)
  else if u8 b o = 0x82 ∧ o + 2 < b.length then some (u16be b (o + 1), o + 3)
  else none

/-- The profile block of a well-formed notification (R228). -/
def notifBlock (b : Bytes) : Option Bytes :=
  let o := if u8 b 5 = 0 then 6 else 18
  if u8 b 0 = 0x0F ∧ 6 ≤ b.length ∧ (u8 b 5 = 0 ∨ u8 b 5 = 0x0C) ∧ o < b.length ∧ u8 b o = 9 then
    match axdr b (o + 1) with
    | some (n, p) => if (b.drop p).length = n then some (b.drop p) else none
    | none => none
  else none

/-- Channels present in a channel map, ascending. -/
def chans (m : Nat) : List Nat := (List.range 4).filter (fun k => decide (m / 2 ^ k % 2 = 1))

/-- Is bit set of class field? Class record fields (R231). -/
abbrev clsIvl (c : Bytes) : Nat := u8 c 0
/-- CHUSE. -/
abbrev clsChuse (c : Bytes) : Nat := u8 c 1 % 16
/-- Action of HIGH. -/
abbrev clsHigh (c : Bytes) : Nat := u8 c 2 % 4
/-- Action of SPIKE. -/
abbrev clsSpike (c : Bytes) : Nat := u8 c 2 / 4 % 4
/-- Action of MSTAT. -/
abbrev clsMstat (c : Bytes) : Nat := u8 c 2 / 16 % 4
/-- SUM on. -/
abbrev clsSum (c : Bytes) : Bool := decide (u8 c 2 / 64 % 2 = 1)
/-- CONT on. -/
abbrev clsCont (c : Bytes) : Bool := decide (u8 c 2 / 128 = 1)
/-- ZERO on. -/
abbrev clsZero (c : Bytes) : Bool := decide (u8 c 3 % 2 = 1)
/-- SHADOW. -/
abbrev clsShadow (c : Bytes) : Bool := decide (u8 c 3 / 2 % 2 = 1)
/-- CAL. -/
abbrev clsCal (c : Bytes) : Nat := u8 c 3 / 4 % 4
/-- DEM_SLIDE. -/
abbrev clsSlide (c : Bytes) : Bool := decide (u8 c 3 / 16 % 2 = 1)
/-- HI_LIMIT. -/
abbrev clsHi (c : Bytes) : Nat := u32 c 4
/-- DEM_N. -/
abbrev clsDemN (c : Bytes) : Nat := u8 c 20

/-- Validity of a class record (R231). -/
def clsOk (c : Bytes) : Bool :=
  decide (clsIvl c = 0 ∨ 60 % clsIvl c = 0) && decide (u8 c 1 < 16 ∧ clsHigh c ≠ 3 ∧ clsSpike c ≠ 3 ∧ clsMstat c ≠ 3) &&
    decide (u8 c 3 < 32 ∧ 4 ≤ u8 c 10 ∧ 1 ≤ u8 c 11 ∧ u8 c 14 ≤ 16 ∧ u8 c 15 ≤ 240) &&
    decide (1 ≤ clsDemN c ∧ clsDemN c ≤ 15 ∧ u8 c 21 = 0 ∧ u32 c 28 = 0)

/-- Does a block break R229 or R230? -/
def blockBad (c b : Bytes) : Bool :=
  let h := (chans (u8 b 2)).length
  let n := u16 b 8
  let prof := decide (u8 b 1 = 1)
  let len := 12 + (if prof then 8 * h else 0) + n * (1 + 4 * h)
  decide (b.length < 12 ∨ (u8 b 1 ≠ 1 ∧ u8 b 1 ≠ 2) ∨ u8 b 2 = 0 ∨ 15 < u8 b 2 ∨ u8 b 2 ||| clsChuse c ≠ clsChuse c) ||
    decide (clsIvl c = 0 ∨ u16 b 10 ≠ 0 ∨ b.length ≠ len) ||
    (if prof then decide (u8 b 3 ≠ clsIvl c ∨ u32 b 4 % clsIvl c ≠ 0 ∨ n = 0 ∨ 96 < n) else decide (u8 b 3 ≠ 0 ∨ n ≠ 1)) ||
    (List.range n).any (fun j => decide (15 < u8 b (12 + (if prof then 4 * h else 0) + j * (1 + 4 * h))))

/-! ## Slot state (R233). -/

/-- A state entry unpacked. -/
structure MSt where
  lastEnd : Nat := 0
  lastReg : List Nat := [0, 0, 0, 0]
  lastV : List Nat := [0, 0, 0, 0]
  mean : List Nat := [0, 0, 0, 0]
  est : Nat := 0
  zrun : Nat := 0
  regValid : Bool := false
  nsamp : Nat := 0

/-- Four 4-byte fields from offset o. -/
def four (b : Bytes) (o : Nat) : List Nat := (List.range 4).map (fun k => u32 b (o + 4 * k))

/-- Unpack a state entry. -/
def mstRead (b : Bytes) : MSt :=
  { lastEnd := u32 b 0, lastReg := four b 4, lastV := four b 20, mean := four b 36, est := un b 52 8, zrun := u8 b 60,
    regValid := decide (u8 b 61 % 2 = 1), nsamp := u8 b 61 / 2 % 16 }

/-- Pack a state entry with its CRC. -/
def mstBytes (m : MSt) : Bytes :=
  let b := bytesLE 4 m.lastEnd ++ m.lastReg.flatMap (bytesLE 4) ++ m.lastV.flatMap (bytesLE 4) ++ m.mean.flatMap (bytesLE 4) ++
    bytesLE 8 m.est ++ [m.zrun, m.regValid.toNat + 2 * m.nsamp]
  b ++ bytesLE 2 (crc16 b)

/-- Element k of a list of four. -/
def at4 (l : List Nat) (k : Nat) : Nat := l.getD k 0

/-- Division truncated toward zero. -/
def tdiv (a b : Int) : Int := Int.tdiv a b

/-! ## Value rules (R235). -/

/-- What the rules say of one value: to be estimated, VEE flags raised, counters that grow, and ZRUN after it. -/
structure Verdict where
  est : Bool := false
  vee : Nat := 0
  cnts : List Nat := []
  zrun : Nat := 0

/-- Add a failed rule: its flag and counter; action 2 sends the value to estimation. -/
def Verdict.fail (d : Verdict) (act bit cnt : Nat) : Verdict :=
  { d with est := decide (act = 2), vee := d.vee ||| 2 ^ bit, cnts := d.cnts ++ [cnt] }

/-- Apply rules while none has sent the value to estimation. -/
def Verdict.next (d : Verdict) (c : Bool) (act bit cnt : Nat) : Verdict :=
  if d.est || !c || decide (act = 0) then d else d.fail act bit cnt

/-- The value rules in order, on a value v of channel index k with STATUS st. -/
def judge (c : Bytes) (m : MSt) (st v k : Nat) : Verdict :=
  let z := if k = 0 then (if v = 0 then min (m.zrun + 1) 255 else 0) else m.zrun
  let d : Verdict := { zrun := z }
  if v = 0xFFFFFFFF then { d with est := true, cnts := [Reg.MND_MISSING_CNT] }
  else
    let d := d.next (decide (st / 4 % 4 ≠ 0)) (clsMstat c) 5 Reg.MND_MSTAT_CNT
    let d := d.next (decide (clsHi c < v)) (clsHigh c) 0 Reg.MND_HIGH_CNT
    let d := d.next (decide (8 ≤ m.nsamp ∧ u8 c 10 * max (at4 m.mean k / 16) (u16 c 8) / 4 < v)) (clsSpike c) 1 Reg.MND_SPIKE_CNT
    let d := d.next (clsZero c && decide (k = 0 ∧ v = 0 ∧ u8 c 11 ≤ z)) 1 4 Reg.MND_ZERO_CNT
    if !d.est ∧ st % 4 ≠ 0 then { d with vee := d.vee ||| 64 } else d

/-- MEAN16 and NSAMP after an accepted measured value (R233); a mean that no longer fits 32 bits is a free value. -/
def accept (m : MSt) (k v : Nat) (fv : Nat) : MSt :=
  let x : Int := at4 m.mean k
  let y := x + tdiv (16 * v - x) 16
  { m with
    mean := m.mean.set k (if y < 2 ^ 32 then y.toNat else fv % 2 ^ 32)
    nsamp := if k = 0 then min 15 (m.nsamp + 1) else m.nsamp }

/-! ## Interval records (R243–R246). -/

/-- A value of a record: value, source and method. -/
structure MVal where
  v : Nat := 0
  src : Nat := 0
  meth : Nat := 0

/-- A record before it is packed: END, VEE, values by channel (absent channels none), RKIND. -/
structure MRec where
  endMin : Nat
  vee : Nat := 0
  vals : List (Option MVal) := []
  kind : Nat := 0

/-- CH4D (R244). -/
def ch4d (c1 c4 : Nat) : Nat :=
  let d := signed 32 ((c4 + 2 ^ 32 - c1) % 2 ^ 32)
  if -32767 ≤ d ∧ d ≤ 32767 then unsigned 16 d else 0x8000

/-- Worst source of a record's channels; flags make a measured record measured and flagged. -/
def recSrc (r : MRec) : Nat :=
  let w := r.vals.foldl (fun a x => match x with
    | some y => max a y.src
    | none => a) 0
  if w = 0 ∧ r.vee % 128 ≠ 0 then 1 else w

/-- Method of the lowest-numbered estimated channel. -/
def recMeth (r : MRec) : Nat :=
  match r.vals.find? (fun x => match x with
    | some y => decide (y.src = 2)
    | none => false) with
  | some (some y) => y.meth
  | _ => 0

/-- Value of channel index k of a record, 0 if absent. -/
def recVal (r : MRec) (k : Nat) : Nat :=
  match r.vals.getD k none with
  | some y => y.v
  | none => 0

/-- The 24 bytes of a record. -/
def recBytes (slot g : Nat) (prev : Bool) (r : MRec) : Bytes :=
  let mask := ((List.range 4).map (fun k => if (r.vals.getD k none).isSome then 2 ^ k else 0)).sum
  bytesLE 4 (slot + mask * 2 ^ 20 + g * 2 ^ 24 + prev.toNat * 2 ^ 28) ++ bytesLE 4 r.endMin ++ bytesLE 4 (recVal r 0) ++
    bytesLE 4 (recVal r 1) ++ bytesLE 4 (recVal r 2) ++
    bytesLE 2 (if (r.vals.getD 3 none).isSome then ch4d (recVal r 0) (recVal r 3) else 0) ++
    [r.vee, r.kind * 64 + recSrc r * 16 + recMeth r]

/-! ## Estimation (R237–R239). -/

/-- W of R238: the truncated mean of the SHAPE entries that an interval overlaps. -/
def shapeW (c : Bytes) (e : Nat) : Nat :=
  let l := ((List.range 96).filter (fun i => (List.range (clsIvl c)).any (fun t =>
    decide ((e + 1440 - clsIvl c + t) % 1440 / 15 = i)))).map (fun i => u8 c (32 + i))
  l.sum / l.length

/-- Length of the run of values to estimate (none) that begins a list. -/
def runLen (l : List (Option Nat)) : Nat := (l.takeWhile (fun x => x.isNone)).length

/-- Values of a channel with every missing one filled by methods 1, 3 or none: `l` the accepted values and gaps, `i` index of
the head, `left` the accepted value before it, `pos` place in its run and `g` the run's length (0 outside one). -/
def fillRun (c : Bytes) (nsamp mean : Nat) (endOf : Nat → Nat) (after : Option Nat) (l : List (Option Nat)) (i : Nat)
    (left : Option Nat) (pos g : Nat) : List MVal :=
  match l with
  | [] => []
  | some v :: r => { v := v } :: fillRun c nsamp mean endOf after r (i + 1) (some v) 0 0
  | none :: r =>
    let g' := if g = 0 then 1 + runLen r else g
    let right := match r.drop (g' - pos - 1) with
      | [] => after
      | x :: _ => x
    let x : MVal := match left, right with
      | some a, some b =>
        if g' ≤ u8 c 14 then { v := ((a : Int) + tdiv (((b : Int) - a) * (pos + 1)) (g' + 1)).toNat, src := 2, meth := 1 }
        else if 8 ≤ nsamp then { v := mean * shapeW c (endOf i) / 2048, src := 2, meth := 3 } else { src := 3 }
      | _, _ => if 8 ≤ nsamp then { v := mean * shapeW c (endOf i) / 2048, src := 2, meth := 3 } else { src := 3 }
    x :: fillRun c nsamp mean endOf after r (i + 1) left (pos + 1) g'

/-- Method 2: R shared over the missing values in time order; j of them are left, and the last also takes the remainder. -/
def fillReg (q rem : Nat) (l : List (Option Nat)) (j : Nat) : List MVal :=
  match l with
  | [] => []
  | some v :: r => { v := v } :: fillReg q rem r j
  | none :: r => { v := q + (if j = 1 then rem else 0), src := 2, meth := 2 } :: fillReg q rem r (j - 1)

/-- The values of a channel after estimation, and whether the records estimated by methods 1 and 3 get SUM. -/
def estimate (c : Bytes) (nsamp mean : Nat) (endOf : Nat → Nat) (before after : Option Nat) (r : Option Int)
    (l : List (Option Nat)) : List MVal × Bool :=
  let m := (l.filter (fun x => x.isNone)).length
  match r with
  | some r =>
    if 0 ≤ r ∧ r ≤ clsHi c * m ∧ m ≠ 0 then (fillReg (r.toNat / m) (r.toNat % m) l m, false)
    else (fillRun c nsamp mean endOf after l 0 before 0 0, clsSum c && decide (m ≠ 0))
  | none => (fillRun c nsamp mean endOf after l 0 before 0 0, false)

/-- Counters of estimation: one per value by methods 1–3, one per value left missing. -/
def estCnts (l : List MVal) : List (Nat × Nat) :=
  [(Reg.MND_EST_CNT, (l.filter (fun x => decide (x.src = 2))).length),
    (Reg.MND_UNEST_CNT, (l.filter (fun x => decide (x.src = 3))).length)]

/-! ## A profile block (R235–R242). -/

/-- One entry of a block: END, STATUS, values of the present channels. -/
abbrev Entry := Nat × Nat × List Nat

/-- Entries of a block with h channels, from offset o, first END and interval length. -/
def entries (b : Bytes) (h o first ivl : Nat) : List Entry :=
  (List.range (u16 b 8)).map (fun j =>
    let p := o + j * (1 + 4 * h)
    (first + j * ivl, u8 b p, (List.range h).map (fun i => u32 b (p + 1 + 4 * i))))

/-- What judging a block gathers: slot state, per entry the flags and per channel the accepted value or none, counters. -/
structure Judged where
  m : MSt
  rows : List (Nat × Nat × List (Option Nat) × List Nat) := []
  cnts : List Nat := []

/-- Judge one entry's channels in order; `late` leaves the slot state as it is (R241). -/
def judgeEntry (c : Bytes) (late : Bool) (fv : Nat → Nat) (cs : List Nat) (e : Entry) (a : Judged) : Judged :=
  let r := (cs.zip e.2.2).foldl
    (fun (x : MSt × Nat × List (Option Nat) × List Nat × List Nat) (kv : Nat × Nat) =>
      let d := judge c x.1 e.2.1 kv.2 kv.1
      let m1 := if late then x.1 else { x.1 with zrun := d.zrun }
      let m2 := if d.est || late then m1 else accept m1 kv.1 kv.2 (fv (4 * a.rows.length + kv.1))
      (m2, x.2.1 ||| d.vee, x.2.2.1 ++ [if d.est then none else some kv.2],
        x.2.2.2.1 ++ [if d.est then 0 else d.vee], x.2.2.2.2 ++ d.cnts))
    (a.m, 0, [], [], [])
  { m := r.1, rows := a.rows ++ [(e.1, r.2.1, r.2.2.1, r.2.2.2.1)], cnts := a.cnts ++ r.2.2.2.2 }

/-- Values spread over the four channels. -/
def spread (cs : List Nat) (vs : List MVal) : List (Option MVal) :=
  (List.range 4).map (fun k =>
    match (cs.zip vs).find? (fun x => decide (x.1 = k)) with
    | some x => some x.2
    | none => none)

/-- Counters of a list of registers, one each. -/
def ones (l : List Nat) : List (Nat × Nat) := l.map (fun k => (k, 1))

/-- The late entries of a block (R241): records that replace earlier ones, EST_MAP after them, counters. -/
def lateEntries (c : Bytes) (m : MSt) (cs : List Nat) (l : List Entry) : List MRec × Nat × List (Nat × Nat) :=
  l.foldl (fun a e =>
    let ivl := clsIvl c
    let bitNo := (m.lastEnd - e.1) / ivl
    if e.1 + 64 * ivl ≤ m.lastEnd then (a.1, a.2.1, a.2.2 ++ [(Reg.MND_LATE_CNT, 1)])
    else if a.2.1 / 2 ^ bitNo % 2 = 0 then (a.1, a.2.1, a.2.2 ++ [(Reg.MND_DUP_CNT, 1)])
    else
      let j := judgeEntry c true (fun _ => 0) cs e { m := m }
      match j.rows with
      | [(_, vee, vs, _)] =>
        if vs.any (fun x => x.isNone) then (a.1, a.2.1, a.2.2 ++ ones j.cnts)
        else
          (a.1 ++ [{ endMin := e.1, vee := vee ||| 128, vals := spread cs (vs.map (fun x => { v := x.getD 0 })) }],
            a.2.1 - 2 ^ bitNo, a.2.2 ++ ones j.cnts ++ [(Reg.MND_REPLACE_CNT, 1)])
      | _ => a) ([], m.est, [])

/-- Column i of the judged rows: accepted values and gaps. -/
def column (rows : List (Nat × Nat × List (Option Nat) × List Nat)) (i : Nat) : List (Option Nat) :=
  rows.map (fun r => r.2.2.1.getD i none)

/-- Sum of the accepted values of a column. -/
def sumAcc (l : List (Option Nat)) : Nat := (l.map (fun x => x.getD 0)).sum

/-- Difference of two registers taken modulo 2^32, the shorter way round. -/
def regGap (a b : Nat) : Nat := min ((a + 2 ^ 32 - b) % 2 ^ 32) ((b + 2 ^ 32 - a) % 2 ^ 32)

/-- What a profile block gives: records, new slot state, counters. -/
structure MOut where
  gap : List MRec := []
  recs : List MRec := []
  m : MSt := {}
  cnts : List (Nat × Nat) := []

/-- Gap records (R240): `first` accepted value of each channel, `sreg` START_REG of each. -/
def gapFill (c : Bytes) (m0 m : MSt) (cs : List Nat) (g : Nat) (sreg : List Nat) (first : List (Option Nat)) :
    List MRec × List (Nat × Nat) :=
  let ivl := clsIvl c
  let endOf := fun i => m0.lastEnd + (i + 1) * ivl
  let cols := (List.range cs.length).map (fun i =>
    let k := cs.getD i 0
    let r : Option Int := if m0.regValid then some (((sreg.getD i 0) + 2 ^ 32 - at4 m0.lastReg k) % 2 ^ 32 : Nat) else none
    estimate c m.nsamp (at4 m.mean k) endOf (some (at4 m0.lastV k)) (first.getD i none) r (List.replicate g none))
  ((List.range g).map (fun j =>
      let vs := cols.map (fun x => x.1.getD j {})
      let sumFlag := cols.any (fun x => x.2 && (let y := x.1.getD j {}; decide (y.src = 2 ∧ y.meth ≠ 2)))
      { endMin := endOf j, vee := if sumFlag then 4 else 0, vals := spread cs vs }),
    cols.flatMap (fun x => estCnts x.1))

/-- A profile block worked out against the slot state; `cut` is the oldest END not dropped for age (R230). -/
def profile (c : Bytes) (m0 : MSt) (b : Bytes) (cut : Nat) (fv : Nat → Nat) : MOut :=
  let cs := chans (u8 b 2)
  let h := cs.length
  let ivl := clsIvl c
  let sreg := (List.range h).map (fun i => u32 b (12 + 4 * i))
  let ereg := (List.range h).map (fun i => u32 b (b.length - 4 * h + 4 * i))
  let all := entries b h (12 + 4 * h) (u32 b 4) ivl
  let kept := all.filter (fun e => decide (cut ≤ e.1))
  let late := kept.filter (fun e => decide (m0.lastEnd ≠ 0 ∧ e.1 ≤ m0.lastEnd))
  let new := kept.filter (fun e => !decide (m0.lastEnd ≠ 0 ∧ e.1 ≤ m0.lastEnd))
  let whole := decide (new.length = all.length)
  let (lrecs, est1, lcnts) := lateEntries c m0 cs late
  let j := new.foldl (fun a e => judgeEntry c false fv cs e a) { m := m0 }
  let cols := (List.range h).map (column j.rows)
  let diffs := (List.range h).map (fun i => (ereg.getD i 0 + 2 ^ 32 - sreg.getD i 0) % 2 ^ 32)
  let next := decide (u32 b 4 = m0.lastEnd + ivl)
  let sumBad := clsSum c && whole && (List.range h).any (fun i =>
    let col := cols.getD i []
    col.all (fun x => x.isSome) && decide (u16 c 12 < max (diffs.getD i 0) (sumAcc col) - min (diffs.getD i 0) (sumAcc col)))
  let contBad := clsCont c && m0.regValid && next && decide (new ≠ []) && (List.range h).any (fun i =>
    decide (u32 c 16 < regGap (sreg.getD i 0) (at4 m0.lastReg (cs.getD i 0))))
  let ests := (List.range h).map (fun i =>
    let k := cs.getD i 0
    let col := cols.getD i []
    let r : Option Int := if whole then some ((diffs.getD i 0 : Int) - sumAcc col) else none
    estimate c j.m.nsamp (at4 j.m.mean k) (fun n => (new.getD n (0, 0, [])).1) (if next then some (at4 m0.lastV k) else none)
      none r col)
  let brecs := (List.range new.length).map (fun n =>
    let row := j.rows.getD n (0, 0, [], [])
    let vs := (List.range h).map (fun i =>
      let x := (ests.getD i ([], false)).1.getD n {}
      if x.src = 0 ∧ row.2.2.2.getD i 0 ≠ 0 then { x with src := 1 } else x)
    let est := (List.range h).any (fun i =>
      let x := (ests.getD i ([], false)).1.getD n {}
      (ests.getD i ([], false)).2 && decide (x.src = 2))
    { endMin := row.1, vals := spread cs vs,
      vee := row.2.1 ||| (if sumBad || est then 4 else 0) ||| (if contBad && decide (n = 0) then 8 else 0) : MRec })
  let isGap := decide (m0.lastEnd ≠ 0 ∧ new ≠ [] ∧ m0.lastEnd + ivl < u32 b 4)
  let g := if isGap then (u32 b 4 - m0.lastEnd) / ivl - 1 else 0
  let short := decide (g * ivl ≤ u8 c 15 * 60)
  let firsts := cols.map (fun col => (col.find? (fun x => x.isSome)).getD none)
  let (grecs, gcnts) := if isGap && short then gapFill c m0 j.m cs g sreg firsts else ([], [])
  let est2 := if isGap && !short then 0 else est1
  let lastE := (new.getLast?.getD (0, 0, [])).1
  let adv := (lastE - m0.lastEnd) / ivl
  let bits := (grecs ++ brecs).foldl (fun a r =>
    if 2 ≤ recSrc r then a ||| 2 ^ ((lastE - r.endMin) / ivl) else a) (if m0.lastEnd = 0 then 0 else est2 * 2 ^ adv)
  let m' := if new = [] then { j.m with est := est2 }
    else
      { j.m with
        lastEnd := lastE
        est := bits % 2 ^ 64
        regValid := true
        lastReg := (cs.zip ereg).foldl (fun l x => l.set x.1 x.2) j.m.lastReg
        lastV := cs.foldl (fun l k => l.set k (recVal (brecs.getLast?.getD { endMin := 0 }) k)) j.m.lastV }
  { gap := grecs
    recs := lrecs ++ brecs
    m := m'
    cnts := [(Reg.MND_LATE_CNT, all.length - kept.length)] ++ lcnts ++ ones j.cnts ++ ests.flatMap (fun x => estCnts x.1) ++
      (if sumBad then [(Reg.MND_SUM_CNT, 1)] else []) ++ (if contBad then [(Reg.MND_CONT_CNT, 1)] else []) ++
      [(Reg.MND_GAP_CNT, g)] ++ (if isGap && !short then [(Reg.MND_GAP_LONG_CNT, 1)] else []) ++ gcnts }

/-- A Freeze snapshot: only MSTAT and IRREG (R246); it changes no slot state. -/
def snapshot (c b : Bytes) : MRec × List (Nat × Nat) :=
  let cs := chans (u8 b 2)
  let st := u8 b 12
  let ms := decide (clsMstat c ≠ 0 ∧ st / 4 % 4 ≠ 0)
  let vee := (if ms then 32 else 0) + (if st % 4 ≠ 0 then 64 else 0)
  ({ endMin := u32 b 4, vee := vee, kind := 1,
     vals := spread cs ((List.range cs.length).map (fun i => { v := u32 b (13 + 4 * i) })) },
    if ms then [(Reg.MND_MSTAT_CNT, cs.length)] else [])

/-! ## Shadow billing (R250–R253). -/

/-- A shadow entry as it is worked on, with what its counters gain. -/
structure Shd where
  b : Bytes
  cnts : List Nat := []

/-- Write a little-endian field. -/
def putLE (b : Bytes) (o n v : Nat) : Bytes := overlay b o (bytesLE n (v % 256 ^ n))

/-- The next boundary of a shadow entry: minute and sequence number (R253). -/
def shdBoundary (c cal : Bytes) (off : Nat) (b : Bytes) : Option (Nat × Nat) :=
  let seq := u16 b 0
  let force := if u32 c 24 ≠ 0 ∧ seq < u16 c 22 then some (u32 c 24, u16 c 22) else none
  match nextBill cal off (u32 b 168), force with
  | some n, some f => if f.1 < n then some f else some (n, seq + 1)
  | some n, none => some (n, seq + 1)
  | none, f => f

/-- Close the shadow period at boundary minute bm with sequence number q. -/
def shdClose (b : Bytes) (bm q : Nat) : Bytes :=
  let fl := u8 b 2 % 2
  let b1 := putLE (putLE b 160 4 (u32 b 152)) 164 4 (u32 b 156)
  let b2 := putLE (putLE b1 152 4 0) 156 4 0
  putLE (putLE (overlay b2 2 [fl * 2, u8 b 3 % 16]) 0 2 q) 168 4 bm

/-- Close every period that a record starting at minute st has passed. -/
def shdBounds (c cal : Bytes) (off st : Nat) (x : Shd) (k : Nat) : Shd :=
  match k with
  | 0 => x
  | n + 1 =>
    match shdBoundary c cal off x.b with
    | none => x
    | some (bm, q) =>
      if bm ≤ st ∧ u16 x.b 0 < q ∧ q < 65536 then
        shdBounds c cal off st { b := shdClose x.b bm q, cnts := x.cnts ++ [Reg.MND_BILL_CNT] } n
      else x

/-- A channel-1 energy enters the ring and the demand window is evaluated (R252); `est` tells whether the interval ending at
a minute was estimated. -/
def shdDemand (c : Bytes) (b : Bytes) (e v : Nat) (est : Nat → Bool) (fv : Nat) : Bytes :=
  let ivl := clsIvl c
  let n := clsDemN c
  let pos := u8 b 3 % 16
  let cnt := min (u8 b 3 / 16 + 1) 15
  let b1 := overlay (putLE b (172 + 4 * pos) 4 v) 3 [(pos + 1) % 15 + 16 * cnt]
  if n ≤ cnt ∧ (clsSlide c ∨ e % (n * ivl) = 0) then
    let tot := ((List.range n).map (fun i => u32 b1 (172 + 4 * ((pos + 15 - i) % 15)))).sum
    let d := tot * 60 / (n * ivl)
    if u32 b1 152 < d then
      let w := (List.range n).any (fun i => est (e - i * ivl))
      overlay (putLE (putLE b1 152 4 (if d < 2 ^ 32 then d else fv % 2 ^ 32)) 156 4 e) 2 [u8 b1 2 / 2 * 2 + w.toNat]
    else b1
  else b1

/-- Apply one record to a shadow entry (R251–R253). -/
def shdApply (c cal : Bytes) (off : Nat) (est : Nat → Bool) (fv : Nat) (x : Shd) (r : MRec) : Shd :=
  let ivl := clsIvl c
  if 128 ≤ r.vee then { x with cnts := x.cnts ++ [Reg.MND_SHADOW_SKIP_CNT] }
  else if recSrc r = 3 then { x with b := overlay x.b 3 [u8 x.b 3 % 16] }
  else
    let st := r.endMin - ivl
    let y := shdBounds c cal off st x 4096
    let old := decide (st < u32 y.b 168)
    let (sea, rate, _, _) := calEval cal off st
    let o := 8 + 4 * (8 * (sea % 4) + rate)
    let b1 := putLE y.b o 4 (u32 y.b o + recVal r 0)
    let b2 := (List.range 4).foldl (fun b k => putLE b (136 + 4 * k) 4 (u32 b (136 + 4 * k) + recVal r k)) b1
    let b3 := if u32 b2 4 + ivl = r.endMin then b2 else overlay b2 3 [u8 b2 3 % 16]
    let b4 := if old then b3 else shdDemand c b3 r.endMin (recVal r 0) est fv
    { b := putLE b4 4 4 r.endMin, cnts := y.cnts ++ (if old then [Reg.MND_SHADOW_LATE_CNT] else []) }

/-! ## Batches (R227, R247, R248). -/

/-- Class record n. -/
def State.clsAt (s : State) (n : Nat) : Bytes := tget (fun _ => List.replicate 128 0) s.mnd.classes n


/-- Shadow billing of a batch's records: the changed entry and counters; none where R250 keeps none. -/
def State.shadow (s : State) (slot : Nat) (c : Bytes) (m0 : MSt) (recs : List MRec) : Option Bytes × List (Nat × Nat) :=
  let role := msmRole (s.msmAt slot) / 4 % 4
  if s.isF Reg.MND_CTL Fld.MND_CTL_SHADOW_EN && decide (role = 0) && clsShadow c && !recs.isEmpty then
    let raw := s.rdMem (s.shdA slot) 256
    let b0 := if u16 raw 254 = crc16 (raw.take 254) then raw else shdZero
    let cal := s.rdMem (s.num Reg.MND_CAL_LO / 2 ^ 16 * 2 ^ 16 + s.num Reg.MND_CAL_HI * 2 ^ 32 + 0x4000 * clsCal c) 10516
    let est := fun e =>
      match recs.find? (fun r => decide (r.endMin = e)) with
      | some r => decide (2 ≤ recSrc r)
      | none => decide (e ≤ m0.lastEnd ∧ m0.est / 2 ^ ((m0.lastEnd - e) / clsIvl c) % 2 = 1)
    let x := recs.foldl (shdApply c cal s.utcOff est (Config.freeValue (s.draws + 500))) { b := b0 }
    if x.b = b0 ∧ x.cnts = [] then (none, [])
    else (some (x.b.take 254 ++ bytesLE 2 (crc16 (x.b.take 254))), ones x.cnts)
  else (none, [])

/-- The batch of a frame, worked out for its slot (block already found to be in order). -/
def State.batch (s : State) (f : CFrame) (b : Bytes) : MndJob :=
  let c := s.clsAt (msmClass (s.msmAt f.slot))
  let raw := s.rdMem (s.mstA f.slot) 64
  let bad := decide (u16 raw 62 ≠ crc16 (raw.take 62))
  let m0 := mstRead (if bad then mstZero else raw)
  let pack := recBytes f.slot f.gen f.prev
  let base := [(Reg.MND_BLOCK_CNT, 1)] ++ (if bad then [(Reg.MND_STATECRC_CNT, 1)] else [])
  if u8 b 1 = 2 then
    let (r, cn) := snapshot c b
    { slot := f.slot, recs := [pack r], mst := if bad then mstZero else raw, crcBad := bad,
      cnts := base ++ cn ++ [(Reg.MND_RECORD_CNT, 1)] }
  else
    let cut := if s.taiValid then s.taiMin - 172800 else 0
    let o := profile c m0 b cut (fun i => Config.freeValue (s.draws + i))
    let (sh, scn) := s.shadow f.slot c m0 (o.gap ++ o.recs)
    { slot := f.slot, recs := (o.gap ++ o.recs).map pack, mst := mstBytes o.m, shd := sh, crcBad := bad,
      cnts := base ++ o.cnts ++ scn ++ [(Reg.MND_RECORD_CNT, o.gap.length + o.recs.length)] }

/-- The Mender's counters lie in one block of the map. -/
def mndKey (k : Nat) : Nat := 0x060000 + k % 0x10000

/-- Which of the bypass cases of R227 a plaintext meets: its counter, or none and the block. -/
def State.bypass (s : State) (f : CFrame) : Nat ⊕ Bytes :=
  if !s.isF Reg.MND_CTL Fld.MND_CTL_EN then .inl Reg.MND_BYPASS_CNT
  else
    match notifBlock f.plain with
    | none => .inl Reg.MND_BYPASS_CNT
    | some b =>
      if b = [] ∨ u8 b 0 ≠ 1 then .inl Reg.MND_BYPASS_CNT
      else
        let c := s.clsAt (msmClass (s.msmAt f.slot))
        if blockBad c b then .inl Reg.MND_FORMAT_CNT
        else if u8 b 1 = 1 ∧ s.taiValid ∧
            s.taiMin + s.getF Reg.MND_CTL Fld.MND_CTL_TIME_FUT < u32 b 4 + (u16 b 8 - 1) * clsIvl c then
          .inl Reg.MND_TIME_CNT
        else .inr b

/-- Is Mender unit u in service (18–25, or the spare 26 while it stands in)? -/
def State.unitServes (s : State) (u : Nat) : Bool :=
  s.exists_ 5 u && !s.noNew 5 u && ((decide (18 ≤ u) && decide (u ≤ 25)) ||
    (decide (u = 26) && s.isF (Reg.CHIP_SPARE_MAP 5) Fld.CHIP_SPARE_MAP_S2_ACT))

/-- Job of unit u. -/
def State.mndJob (s : State) (u : Nat) : Option MndJob := tget (fun _ => none) s.mnd.jobs u

/-- MENDER_BATCH: unit u takes the oldest batch that waits; `ue` says that the slot's state entry could not be read. -/
def execMenderBatch (u : Nat) (ue : Bool) (s : State) : Host.Outcome State Fault Refusal :=
  let taken := s.mnd.jobs.filterMap (fun e => e.2.map (·.slot))
  match s.ink.commits.find? (fun c => decide (c.stage = 0) && !taken.contains c.slot) with
  | none => ok s
  | some f =>
    if !s.unitServes u || (s.mndJob u).isSome || decide (s.ladder.region = 5) then ok s
    else
      match s.bypass f with
      | .inl cnt =>
        let f' := { f with stage := 1 }
        ok (((s.bump (mndKey cnt)).inkMod (fun i => { i with commits := i.commits.map (fun c => if c.slot = f.slot then f' else c) })).fwPush
          (fwPlain f'))
      | .inr b =>
        let t := if ue then s.wrMem (s.mstA f.slot) (List.replicate 64 0) else s
        let j := t.batch f b
        ok ({ s with draws := s.draws + 512 }.mndMod (fun m => { m with jobs := tset (fun _ => none) m.jobs u (some j) }))

/-- Records of a batch enter staging in order; a snapshot goes on to the Darner's queue (R249). Answers the state and the log
position of the last record. -/
def State.stageRecs (s : State) (l : List Bytes) : State × Nat :=
  l.foldl (fun a r =>
    let (t, p) := a.1.recAdd a.1.taiSec r
    ({ t with drn := { t.drn with inq := t.drn.inq ++ [r] } }, p)) (s, 0xFFFFFFFF)

/-- A batch becomes visible (R247, R248): records, state entry, shadow entry, counters. -/
def State.batchShow (s : State) (u : Nat) (j : MndJob) : State :=
  let t := (j.cnts.foldl (fun a e => a.bumpN (mndKey e.1) e.2) s).when j.crcBad (fun v =>
    v.report 0x5101 3 (blockPath 5 u) (bytesLE 4 j.slot))
  let (t, pos) := t.stageRecs j.recs
  let t := t.wrMem (t.mstA j.slot) j.mst
  let t := match j.shd with
    | none => t
    | some b => t.wrMem (t.shdA j.slot) b
  let t := t.inkMod (fun i => { i with
    commits := i.commits.map (fun c =>
      if c.slot = j.slot then { c with recPos := pos, mst := some j.mst, shd := j.shd, recs := j.recs } else c) })
  (t.mndMod (fun m => { m with jobs := tset (fun _ => none) m.jobs u none })).staged2 j.slot

/-- MENDER_BATCH_DONE: unit u finishes its batch; the store takes it when it has room (R46, R290). -/
def execMenderBatchDone (u : Nat) (s : State) : Host.Outcome State Fault Refusal :=
  match s.mndJob u with
  | none => ok s
  | some j => if j.recs.isEmpty || s.recReady then ok (s.batchShow u j) else ok s

/-! ## Class records (R232). -/

/-- CLASS of MND_CLASS_SEL written: the class's live record enters the staging buffer. -/
def State.classSel (s : State) (cls w : Nat) : State :=
  if s.isF Reg.MND_CLASS_SEL Fld.MND_CLASS_SEL_BUSY then s
  else
    ((s.setF Reg.MND_CLASS_SEL Fld.MND_CLASS_SEL_CLASS cls).setF Reg.MND_CLASS_SEL Fld.MND_CLASS_SEL_WORD w).mndMod
      (fun m => { m with staging := s.clsAt (cls % 256) })

/-- CLASS_SELECT. -/
def execClassSelect (cls w : Nat) (s : State) : Host.Outcome State Fault Refusal := s.onMender Reg.MND_CLASS_SEL (ok (s.classSel cls w))

/-- WORD of MND_CLASS_SEL. -/
def State.classWord (s : State) : Nat := s.getF Reg.MND_CLASS_SEL Fld.MND_CLASS_SEL_WORD

/-- An access to MND_CLASS_DATA: a read (none) or a write; WORD advances. -/
def State.classData (s : State) (wr : Option Nat) : State :=
  let o := 4 * s.classWord
  let t := s.setF Reg.MND_CLASS_SEL Fld.MND_CLASS_SEL_WORD (s.classWord + 1)
  match wr with
  | none => t.answer (word (u32 s.mnd.staging o))
  | some v => t.mndMod (fun m => { m with staging := overlay m.staging o (bytesLE 4 v) })

/-- CLASS_DATA_ACCESS. -/
def execClassDataAccess (wr : Option Nat) (s : State) : Host.Outcome State Fault Refusal :=
  match wr with
  | none => ok (if s.menderThere then s.classData none else s.answer 0)
  | some _ => s.onMender Reg.MND_CLASS_DATA (ok (s.classData wr))

/-- COMMIT written 1: a valid staging buffer waits for a gap between batches; one that breaks R231 sets REFUSED. -/
def State.classCommit (s : State) : State :=
  if s.isF Reg.MND_CLASS_SEL Fld.MND_CLASS_SEL_BUSY then s
  else if clsOk s.mnd.staging then
    (s.raiseF Reg.MND_CLASS_SEL Fld.MND_CLASS_SEL_BUSY).mndMod (fun m => { m with
      install := some (s.getF Reg.MND_CLASS_SEL Fld.MND_CLASS_SEL_CLASS, m.staging) })
  else s.raiseF Reg.MND_CLASS_SEL Fld.MND_CLASS_SEL_REFUSED

/-- CLASS_COMMIT. -/
def execClassCommit (s : State) : Host.Outcome State Fault Refusal := s.onMender Reg.MND_CLASS_SEL (ok s.classCommit)

/-- CLASS_INSTALL: between two batches the staged record replaces the live one; REFUSED, which tells of the last commit, clears
(log entry 147). -/
def execClassInstall (s : State) : Host.Outcome State Fault Refusal :=
  match s.mnd.install with
  | none => ok s
  | some (n, c) =>
    ok (((s.mndMod (fun m => { m with
      install := none
      classes := tset (fun _ => List.replicate 128 0) m.classes n c })).setF Reg.MND_CLASS_SEL Fld.MND_CLASS_SEL_BUSY 0).setF
      Reg.MND_CLASS_SEL Fld.MND_CLASS_SEL_REFUSED 0)

end Sys2Proof.Machine
end

