-- ==== Sys2Proof/Machine/Time.lean ====
section
/-! DEFINITION. Sys2Proof/Machine/Time.lean: the Time Unit's commands (R349–R369). -/

namespace Sys2Proof.Machine

/-- TAI_SET: SET of TU_CTL, with REL as it stands in the same write. -/
def execTaiSet (rel : Bool) (s : State) : Host.Outcome State Fault Refusal :=
  ok (s.setF Reg.TU_CTL Fld.TU_CTL_REL rel.toNat).taiSet

/-- LEAP_SECOND: TAI reaches LEAP_AT (R352). -/
def execLeapSecond (s : State) : Host.Outcome State Fault Refusal :=
  let at_ := s.num Reg.TU_LEAP_AT
  if at_ ≠ 0 ∧ fired (s.taiSec % 2 ^ 32) at_ then
    ok (((s.setF Reg.TU_UTC Fld.TU_UTC_CUR (s.getF Reg.TU_UTC Fld.TU_UTC_NEXT)).wrN Reg.TU_LEAP_AT 0).raiseF Reg.TU_INT_STAT
      Fld.TU_INT_STAT_LEAP)
  else ok s

/-- The EVT_OUT ball b, 0 or 1, is driven high by comparator k, unless it is high already (R356). -/
def State.evtHigh (s : State) (b k : Nat) : State :=
  s.tuMod (fun x => if b = 0 then { x with evt0 := some (x.evt0.getD k) } else { x with evt1 := some (x.evt1.getD k) })

/-- CMP_FIRE: comparator k fires once the schedule count has reached its target (R356). -/
def execCmpFire (k : Nat) (s : State) : Host.Outcome State Fault Refusal :=
  if k < 8 ∧ s.isF (Reg.TU_CMP_CTL k) Fld.TU_CMP_CTL_EN ∧ fired s.now (s.num (Reg.TU_CMP_T k)) then
    let t := (s.raiseBit Reg.TU_INT_STAT k).eventSet (32 + k)
    let out := s.getF (Reg.TU_CMP_CTL k) Fld.TU_CMP_CTL_OUT
    let t := if out = 1 then t.evtHigh 0 k else if out = 2 then t.evtHigh 1 k else t
    ok (if s.isF (Reg.TU_CMP_CTL k) Fld.TU_CMP_CTL_PERIODIC then
        t.wrN (Reg.TU_CMP_T k) ((s.num (Reg.TU_CMP_T k) + s.num (Reg.TU_CMP_PER k)) % 2 ^ 32)
      else t.setF (Reg.TU_CMP_CTL k) Fld.TU_CMP_CTL_EN 0)
  else ok s

/-- CMP_OUTPUT_END: WIDTH ticks after the firing, EVT_OUT ball b falls. -/
def execCmpOutputEnd (b : Nat) (s : State) : Host.Outcome State Fault Refusal :=
  ok (s.tuMod (fun x => if b = 0 then { x with evt0 := none } else { x with evt1 := none }))

/-- PPS_OUT_PULSE: a whole TAI second; PPS_OUT rises if it is enabled, TAI is valid and the last pulse is at least 500 ms
back (R354, R357). -/
def execPpsOutPulse (s : State) : Host.Outcome State Fault Refusal :=
  let soon := match s.time.lastPulse with
    | none => false
    | some p => decide ((s.now + 2 ^ 32 - p) % 2 ^ 32 < 2 ^ 19)
  if s.isF Reg.TU_SRC_CFG Fld.TU_SRC_CFG_PPS_OUT_EN && s.taiValid && !soon then
    ok (s.tuMod (fun x => { x with pps := true, lastPulse := some x.sched }))
  else ok s

/-- PPS_OUT_FALL: PPS_WIDTH ms after its rise, PPS_OUT falls. -/
def execPpsOutFall (s : State) : Host.Outcome State Fault Refusal := ok (s.tuMod (fun x => { x with pps := false }))

/-- PPS_IN_EDGE: the active edge, `sub` ns after the present tick (R359, R362). -/
def execPpsInEdge (sub : Nat) (s : State) : Host.Outcome State Fault Refusal :=
  if s.tbLost then ok s
  else
    let x := s.taiInNs + sub
    let bad := match s.time.lastPps with
      | none => false
      | some p => decide (100000 < ((x : Int) - p - 1000000000).natAbs)
    let t := s.tuMod (fun v => { v with lastPps := some x })
    if s.tuSrc ≠ 2 then ok t
    else if bad then ok ((t.bump Reg.TU_PPS_BAD_CNT).raiseF Reg.TU_INT_STAT Fld.TU_INT_STAT_PPS_BAD)
    else
      let st : Int := (x : Int) - s.getF Reg.TU_SRC_CFG Fld.TU_SRC_CFG_PPS_DELAY
      let th := st - Int.fdiv (st + 500000000) 1000000000 * 1000000000
      ok (t.servoSample th (2 ^ 20))

/-- PTP_OFFSET_WRITE: a write of θ to TU_OFS_IN (R362). -/
def State.ptpOffset (s : State) (v : Nat) : State :=
  if s.tuSrc = 1 ∧ s.tbLost = false then
    s.servoSample (signed 32 v) (match s.time.lastSmp with
      | none => 1
      | some p => (s.now + 2 ^ 32 - p) % 2 ^ 32)
  else s

/-- PTP_OFFSET_WRITE. -/
def execPtpOffsetWrite (v : Nat) (s : State) : Host.Outcome State Fault Refusal := ok (s.ptpOffset v)

/-- PAIR_TIME_SAMPLE: a pair-link time exchange gives θ, signed 32 bits (R362). -/
def execPairTimeSample (v : Nat) (s : State) : Host.Outcome State Fault Refusal :=
  if s.tuSrc = 3 ∧ s.pairSamples ∧ s.tbLost = false then ok (s.servoSample (signed 32 v) (2 ^ 16)) else ok s

/-- HOLDOVER_TIMEOUT: HOLD_S seconds without a sample (R365). -/
def execHoldoverTimeout (s : State) : Host.Outcome State Fault Refusal :=
  if s.servo = 1 ∨ s.servo = 2 then
    ok ((s.holdover.bump Reg.TU_SRC_LOSS_CNT).raiseF Reg.TU_INT_STAT Fld.TU_INT_STAT_HOLDOVER)
  else ok s

/-- RTC_RELOAD: a whole TAI second (R366). -/
def execRtcReload (s : State) : Host.Outcome State Fault Refusal := ok s.rtcReload

/-- A read of TU_SCHED latches TAI (R350). -/
def State.schedRead (s : State) : State :=
  (s.tuMod (fun x => { x with latS := s.taiSec, latNs := s.taiNs })).answer (word s.now)

/-- SCHED_READ. -/
def execSchedRead (s : State) : Host.Outcome State Fault Refusal := ok s.schedRead

/-- A read of TU_TXTS_u_1 answers the head's word 1 and pops it (R361). -/
def State.txtsPop (s : State) (u : Nat) : State :=
  (s.answer (word (((s.txts u).headD (0, 0)).2))).tuMod (fun x =>
    if u = 0 then { x with txtsA := x.txtsA.drop 1 } else { x with txtsB := x.txtsB.drop 1 })

/-- TXTS_POP. -/
def execTxtsPop (u : Nat) (s : State) : Host.Outcome State Fault Refusal := ok (s.txtsPop u)

/-- AFE_ADJ_STORE: a write of TU_AFE_ADJ with WR = 1. -/
def execAfeAdjStore (port tx rx : Nat) (s : State) : Host.Outcome State Fault Refusal := ok (s.afeStore port tx rx)

/-- SERVO_SRC_CHANGE: SRC of TU_SERVO is written (R363). -/
def execServoSrcChange (src : Nat) (s : State) : Host.Outcome State Fault Refusal :=
  if src % 4 = s.tuSrc then ok s else ok (s.setF Reg.TU_SERVO Fld.TU_SERVO_SRC src).srcChanged

end Sys2Proof.Machine
end

