-- ==== Sys2Proof/Machine/Fabric.lean ====
section
/-! DEFINITION. Sys2Proof/Machine/Fabric.lean: cell and block errors, quarantine with the disposal of a block's work, pace and the
throughput governor, clock domains (R21–R27, R35–R43). -/

namespace Sys2Proof.Machine

/-! ## Disposal of work (R24, R60). -/

/-- The work of Needlecase is abandoned: its operation ends with an error, whose code the spec does not give. -/
def State.ndlAbandon (s : State) : State :=
  match s.hoop.op with
  | none => s
  | some _ => ((s.hoopMod (fun h => { h with op := none })).setF Reg.NDL_CMD Fld.NDL_CMD_BUSY 0).draw.ndlFail (s.drawn 16)

/-- The counted change under way is abandoned: it ends with an error, whose code the spec does not give. -/
def State.cntAbandon (s : State) : State :=
  match s.hoop.cnt with
  | none => s
  | some _ => ((s.hoopMod (fun h => { h with cnt := none })).setF Reg.NDL_CNT_CMD Fld.NDL_CNT_CMD_BUSY 0).draw.cntFail (s.drawn 16)

/-- A protect request in a lane is abandoned: its descriptor completes with an error, whose status the spec does not give. -/
def State.protAbandon (s : State) (l : Nat) : State :=
  s.each (s.laneJobs l) (fun j t => match j with
    | .protect i d _ _ => t.draw.protDone i d (1 + t.drawn 6) 0 0
    | .frame _ => t)

/-- The loader's operation is abandoned. -/
def State.prkAbandon (s : State) : State := if s.fab.job.isSome then s.prkFail 9 0 else s

/-- A slot operation under way is abandoned: it completes with an error, whose code the spec does not give. -/
def State.slotOpAbandon (s : State) : State :=
  match s.ink.op with
  | none => s
  | some o =>
    let t := (s.draw.inkMod (fun i => { i with op := none })).setF Reg.INK_SLOT_CMD Fld.INK_SLOT_CMD_BUSY 0
    (((t.setF Reg.INK_SLOT_STAT Fld.INK_SLOT_STAT_DONE 0).raiseF Reg.INK_SLOT_STAT Fld.INK_SLOT_STAT_ERR).setF Reg.INK_SLOT_STAT
      Fld.INK_SLOT_STAT_CODE (1 + s.drawn 15)).releaseHold o.slot

/-- The translation layer's work is abandoned: a relocation, whose source stays as it was, and a checkpoint pass. -/
def State.storeAbandon (s : State) : State := s.stoMod (fun x => { x with reloc := none, pass := none })

/-- The work in block b of region r, a port block or not, is disposed of. A block that is not listed holds none between commands. -/
def State.dispose (s : State) (r b : Nat) : State :=
  match r with
  | 6 => if b = 0 then s.storeAbandon else s
  | 5 =>
    if b ≤ 17 then (s.protAbandon b).laneReturn b
    else if b ≤ 26 then s.mndMod (fun m => { m with jobs := tset (fun _ => none) m.jobs b none })
    else if b = 28 then s.inkMod (fun i => { i with deriv := [] })
    else if b = 29 then s.slotOpAbandon
    else if b = 30 then (s.drnMod (fun d => { d with plan := none, fixed := none, coll := [] })).setF Reg.DRN_STAT Fld.DRN_STAT_COLLECTING 0
    else s
  | 7 => if b = 5 then s.each (List.range 32) (fun c t => t.chAbort c) else s
  | 8 =>
    if b = 1 then s.ndlAbandon else if b = 2 then s.cntAbandon else if b = 3 then s.totMod (fun t => { t with blk := {} })
    else if b = 4 then s.prkAbandon else s
  | 9 => if b = 3 then s.pairAbandon else if b = 5 then s.sessCloseAll else s
  | _ => s

/-! ## Reports (R22, R23, R27). -/

/-- Errors latched in a block that reports: their outcome is known now. -/
def State.errsEnd (s : State) (r b : Nat) : State :=
  let mine := s.fab.errs.filter (fun e => decide (e.block = blockPath r b))
  (s.each mine (fun e t => t.errRecord r b (e.path % 64) e.attempts false)).fabMod (fun f => { f with
    errs := f.errs.filter (fun e => decide (e.block ≠ blockPath r b)) })

/-- Block b of region r reports to its region arbiter, with the failing cell c: steps 1–5 of R23, and the ladder if the region fails
by it (R27). -/
def State.blockReport (s : State) (r b c : Nat) : State :=
  let s := s.errsEnd r b
  let t := if 1 ≤ r ∧ r ≤ 4 ∧ b ≤ 16 then s.portReport r b c else (s.dispose r b).quarantine r b c
  if t.regionState r = 3 ∧ (s.regionState r ≠ 3 ∨ (s.ladder.region = r ∧ essential r b)) then t.regionFailed r else t

/-- Can a cell or a block with this path err: is it built, and in service or being re-pricked (R25, R482)? -/
def State.mayErr (s : State) (path : Nat) : Bool :=
  let r := path / 0x1000
  let b := path / 64 % 64
  s.exists_ r b && (!s.quar r b || s.loading r b 3 || decide (s.ladder.region = r))

/-- An error that is never retried: its record, and the report. -/
def State.errNever (s : State) (path : Nat) : State :=
  (s.errRecord (path / 0x1000) (path / 64 % 64) (path % 64) 1 false).blockReport (path / 0x1000) (path / 64 % 64) (path % 64)

/-- A block latches an error of a cell; the failing operation was its first attempt. An error that is latched already stands beside
it, and each has its own record. -/
def State.errLatch (s : State) (path : Nat) : State :=
  s.fabMod (fun f => { f with errs := f.errs ++ [{ path := path, block := blockPath (path / 0x1000) (path / 64 % 64) }] })

/-- An uncorrectable error leaves the cell of a port block that holds the B copies with bits turned over: bit 0 of `x` names the
transmit queue, the rest the bits of its copy (R179; log entry 183). -/
def State.ptrUpset (s : State) (path x : Nat) : State :=
  match (List.range 64).find? (fun n => decide (s.portPath n / 64 = path / 64)) with
  | none => s
  | some n =>
    let turn (q : QCopies) : QCopies := { q with b := { rd := q.b.rd ^^^ BitVec.ofNat 12 (x / 2), wr := q.b.wr ^^^ BitVec.ofNat 12 (x / 2 ^ 13),
                                                        count := q.b.count ^^^ BitVec.ofNat 6 (x / 2 ^ 25) } }
    s.portMod n (fun p => if x % 2 = 1 then { p with txPtr := turn p.txPtr } else { p with rxPtr := turn p.rxPtr })

/-- Corrected and uncorrected errors in the DRAM controllers, blocks 3 and 4 of ST, appear among the store's counters. -/
def State.dramErr (s : State) (path : Nat) (ue : Bool) : State :=
  s.when (decide (path / 64 = 6 * 64 + 3 ∨ path / 64 = 6 * 64 + 4)) (fun t => t.bump (if ue then Reg.STO_DRAM_UE_CNT else Reg.STO_DRAM_CE_CNT))

/-- CELL_ERROR: the cell at `path` corrects a single-bit error, or, with `ue`, meets an uncorrectable one: of meter slot `slot` if it is
a bank of meter slot memory, with the bits `slot` of pointers turned over in a port block; `never` says that it is a parity error in
control state (R21, R22). -/
def execCellError (path slot : Nat) (ue never : Bool) (s : State) : Host.Outcome State Fault Refusal :=
  if !s.mayErr path then ok s
  else
  let s := s.dramErr path ue
  if ue then
    if path / 64 = 5 * 64 + 29 ∧ never = false then ok (s.inkMod (fun i => { i with ue := if i.ue.contains slot then i.ue else slot :: i.ue }))
    else if never then ok (s.errNever path)
    else ok ((s.ptrUpset path slot).errLatch path)
  else
    let t := s.bump (Reg.CHIP_CE (path / 0x1000))
    let l := s.now :: (tget (fun _ => []) s.fab.ces path).filter (fun x => decide ((s.now + 2 ^ 32 - x) % 2 ^ 32 < 2 ^ 20))
    let full := decide (16 ≤ l.length)
    let t := t.fabMod (fun f => { f with ces := tset (fun _ => []) f.ces path (if full then [] else l) })
    ok (t.when full (fun u => u.errLatch path))

/-- BLOCK_RETRY: a retry of the oldest failing operation of the cell at `path` ends, well or not (R22). -/
def execBlockRetry (path : Nat) (good : Bool) (s : State) : Host.Outcome State Fault Refusal :=
  match findIdxFrom (fun (e : CellErr) => decide (e.path = path)) s.fab.errs 0 with
  | none => ok s
  | some (i, e) =>
    let n := e.attempts + 1
    let r := path / 0x1000
    let b := path / 64 % 64
    let gone := s.fabMod (fun f => { f with errs := f.errs.eraseIdx i })
    if good then ok (gone.errRecord r b (path % 64) n true)
    else if 3 ≤ n then ok ((gone.errRecord r b (path % 64) 3 false).blockReport r b (path % 64))
    else ok (s.fabMod (fun f => { f with errs := f.errs.set i { e with attempts := n } }))

/-- HANDSHAKE_TIMEOUT: a handshake of the cell at `path` stayed unacknowledged for 2^10 ticks. -/
def execHandshakeTimeout (path : Nat) (s : State) : Host.Outcome State Fault Refusal := ok (if s.mayErr path then s.errNever path else s)

/-- INTERCONNECT_ERROR: the chip interconnect reports an error (R478). -/
def execInterconnectError (addr init : Nat) (s : State) : Host.Outcome State Fault Refusal :=
  ok ((s.raiseF Reg.CHIP_ERR_STAT Fld.CHIP_ERR_STAT_CHIP).reportAct 0x0005 7 0x0FFF (bytesLE 4 addr ++ [init % 16]))

/-! ## Pace (R35). -/

/-- PACE of region r. -/
def State.pace (s : State) (r : Nat) : Nat := s.getF (Reg.CHIP_PACE r) Fld.CHIP_PACE_PACE

/-- PACE_WINDOW_END: region r counted `count` completions against the reference count. The quotient may be rounded either way; one that
does not fit 4.12 is open (log entry 123). A region that the ladder resets has no window. -/
def execPaceWindowEnd (r count ref : Nat) (s : State) : Host.Outcome State Fault Refusal :=
  if 1 ≤ r ∧ r ≤ 9 ∧ ref ≠ 0 ∧ s.ladder.region ≠ r then
    let (v, t) := s.near ((count * 4096 : Nat) : Int) ref
    let (p, t) := if v.toNat < 65536 then (v.toNat, t) else (t.drawn 65536, t.draw)
    let low := t.getF (Reg.CHIP_PACE r) Fld.CHIP_PACE_PACE_LOW
    let u := (t.setF (Reg.CHIP_PACE r) Fld.CHIP_PACE_PACE p).setF (Reg.CHIP_PACE r) Fld.CHIP_PACE_PACE_LOW (min low p)
    let old := tget (fun _ => 0) u.fab.low r
    ok (u.fabMod (fun f => { f with low := tset (fun _ => 0) f.low r (if old = 0 then p else min old p) }))
  else ok s

/-! ## Throughput governor (R37–R40). -/

/-- VSET_MV. -/
def State.vset (s : State) : Nat := s.getF Reg.CHIP_GOV_STAT Fld.CHIP_GOV_STAT_VSET_MV

/-- The upper limit: VMAX_MV within R40. -/
def State.vmax (s : State) : Nat := min 900 (s.getF Reg.CHIP_GOV_LIM Fld.CHIP_GOV_LIM_VMAX_MV)

/-- The lower limit: VMIN_MV within R40. -/
def State.vmin (s : State) : Nat := max 650 (s.getF Reg.CHIP_GOV_LIM Fld.CHIP_GOV_LIM_VMIN_MV)

/-- A voltage brought within the limits; where they leave none, the present one stays (R40, log entry 151). -/
def State.govClamp (s : State) (v : Nat) : Nat := if s.vmin ≤ s.vmax then max s.vmin (min v s.vmax) else s.vset

/-- A step: 0 acts as 1, above 50 as 50. -/
def govMv (v : Nat) : Nat := max 1 (min 50 v)

/-- The exponent of VOUT_MODE. -/
def State.voutExp (s : State) : Int := signed 5 (s.fab.vmode.getD 0)

/-- VOUT_COMMAND for a voltage in mV. -/
def State.voutCmd (s : State) (mv : Nat) : Nat :=
  if s.voutExp < 0 then divRound (mv * 2 ^ (-s.voutExp).toNat) 1000 else divRound mv (1000 * 2 ^ s.voutExp.toNat)

/-- A failed PMBus transaction. -/
def State.pmbusFail (s : State) : State :=
  (s.raiseF Reg.CHIP_GOV_STAT Fld.CHIP_GOV_STAT_PMBUS_ERR).report 0x0004 3 0x0FFF (1 :: bytesLE 2 s.vset)

/-- The lowest pace of a region in the governor's period: of the windows that ended in it, else the present one (log entry 123). -/
def State.paceLow (s : State) (r : Nat) : Nat :=
  let l := tget (fun _ => 0) s.fab.low r
  if l = 0 then s.pace r else l

/-- The region with the lowest pace that is not 0, the lowest code first. -/
def State.lowRegion (s : State) : Option Nat :=
  (List.range' 1 9).foldl (fun a r =>
    if s.paceLow r = 0 then a
    else match a with
      | none => some r
      | some b => if s.paceLow r < s.paceLow b then some r else a) none

/-- The new VSET of R37. -/
def State.govNext (s : State) : Nat :=
  let low := s.lowRegion.map s.paceLow
  let target := s.getF Reg.CHIP_GOV_CTL Fld.CHIP_GOV_CTL_TARGET
  let hyst := s.getF Reg.CHIP_GOV_CTL Fld.CHIP_GOV_CTL_HYST
  if s.isF Reg.CHIP_GOV_CTL Fld.CHIP_GOV_CTL_HOLD then s.vset
  else if s.fab.shortfall || low.any (fun l => decide (l < target)) then
    s.govClamp (s.vset + govMv (s.getF Reg.CHIP_GOV_STEP Fld.CHIP_GOV_STEP_UP_MV))
  else if low.any (fun l => decide (target + hyst * 16 < l)) then
    s.govClamp (s.vset - govMv (s.getF Reg.CHIP_GOV_STEP Fld.CHIP_GOV_STEP_DOWN_MV))
  else s.vset

/-- What the governor gathered in a period is done with. -/
def State.govPeriod (s : State) : State := s.fabMod (fun f => { f with shortfall := false, low := [] })

/-- GOVERNOR_PERIOD_END: the governor evaluates and may step; `ack`: what the regulator answers to the transaction, none for no
acknowledge: to VOUT_COMMAND or, while no VOUT_MODE has been read, to the read of it, which the value then is. A stopped governor keeps
nothing of the period (R37). -/
def execGovernorPeriodEnd (ack : Option Nat) (s : State) : Host.Outcome State Fault Refusal :=
  if s.isF Reg.CHIP_GOV_CTL Fld.CHIP_GOV_CTL_EN = false ∨ s.isF Reg.CHIP_GOV_STAT Fld.CHIP_GOV_STAT_MODE_ERR then ok s.govPeriod
  else if s.fab.settling = false then
    let v := s.govNext
    let t := (s.setF Reg.CHIP_GOV_STAT Fld.CHIP_GOV_STAT_LOW_REGION (s.lowRegion.getD 0)).govPeriod
    if s.fab.vmode = none then ok (t.modeCheck (if s.tbLost then none else ack))
    else if v = s.vset then ok t
    else if s.tbLost then ok t.pmbusFail
    else
      let u := t.emit (.pmbus (s.getF Reg.CHIP_GOV_PMB Fld.CHIP_GOV_PMB_ADDR) (s.getF Reg.CHIP_GOV_PMB Fld.CHIP_GOV_PMB_PAGE) 0x21
        (s.voutCmd v))
      if ack.isSome then
        ok (((u.setF Reg.CHIP_GOV_STAT Fld.CHIP_GOV_STAT_VSET_MV v).setF Reg.CHIP_GOV_STAT Fld.CHIP_GOV_STAT_PMBUS_ERR 0).fabMod
          (fun f => { f with settling := true }))
      else ok u.pmbusFail
  else ok s

/-- Does READ_VOUT differ from the request by more than 10 mV? -/
def State.voutOff (s : State) (raw : Nat) : Bool :=
  let (x, k) : Int × Int := if s.voutExp < 0 then ((raw : Int) * 1000, 2 ^ (-s.voutExp).toNat) else ((raw : Int) * 1000 * 2 ^ s.voutExp.toNat, 1)
  decide (10 * k < x - s.vset * k ∨ 10 * k < s.vset * k - x)

/-- GOVERNOR_SETTLE_END: the settle time ends and READ_VOUT is read. -/
def execGovernorSettleEnd (raw : Nat) (ack : Bool) (s : State) : Host.Outcome State Fault Refusal :=
  if s.fab.settling then
    let t := s.fabMod (fun f => { f with settling := false })
    if !ack || s.tbLost || s.voutOff raw then ok t.pmbusFail else ok (t.setF Reg.CHIP_GOV_STAT Fld.CHIP_GOV_STAT_PMBUS_ERR 0)
  else ok s

/-! ## Clock domains (R41, R43). -/

/-- Blocks of a clock domain: region and block. A sample domain serves every port block of its group, the spare first, so that it
is brought in for none of the others (log entry 144). -/
def domainBlocks (d : Nat) : List (Nat × Nat) :=
  match d with
  | 2 | 3 | 4 | 5 => (16 :: List.range 16 ++ [18]).map (fun b => (d - 1, b))
  | 6 => [(9, 0)]
  | 7 => [(9, 1)]
  | 8 => [(9, 4)]
  | 9 => [(9, 3)]
  | 10 => [(6, 3), (6, 4)]
  | 11 => [(6, 1), (6, 2)]
  | 12 => [(8, 3)]
  | _ => []

/-- The boot NOR's contents are kept, since what it is given while the time base is lost does not reach it (R43). -/
def State.norHold (s : State) : State := if s.norHeld.isNone then { s with norHeld := some s.nor } else s

/-- CLOCK_LOSS: a clock domain loses its clock, with so many items in its crossing FIFOs, which are discarded and counted (log entry
155). TCK, domain 13, may stop freely. What the NOR is given to do after the time base is lost waits for its return. -/
def execClockLoss (loss : Nat × Nat) (s : State) : Host.Outcome State Fault Refusal :=
  let (d, items) := loss
  if d < 1 ∨ 14 < d ∨ d = 13 then ok s
  else
    let t := (s.wr Reg.CHIP_CLK_STAT (setBit (s.raw Reg.CHIP_CLK_STAT) (d - 1) false)).raiseBit Reg.CHIP_CLK_LOSS (d - 1)
    let t := t.fabMod (fun f => { f with fifoLost := tmod (fun _ => 0) f.fifoLost d (fun n => n + items) })
    let t := (t.raiseF Reg.CHIP_ERR_STAT Fld.CHIP_ERR_STAT_CHIP).report 0x0002 (if d = 1 then 6 else 4) 0x0FFF [d]
    if d = 1 then
      ok ((t.norHold.raiseF Reg.TU_STAT Fld.TU_STAT_TB_LOST).raiseF Reg.TU_INT_STAT Fld.TU_INT_STAT_TB_LOST)
    else
      let t := t.when (decide (d = 12)) (fun u => u.each (List.range 7) (fun c v => v.modFault c))
      ok (t.each (domainBlocks d) (fun x u => if u.mayErr (blockPath x.1 x.2) then u.errNever (blockPath x.1 x.2) else u))

/-- The bit of domain d in PRESENT is set. -/
def State.clockBack (s : State) (d : Nat) : State := s.wr Reg.CHIP_CLK_STAT (setBit (s.raw Reg.CHIP_CLK_STAT) (d - 1) true)

/-- TIME_BASE_RETURN: the accumulator runs from the TCXO again; both clocks go on from the values they have, and what the NOR was given
to do is done. -/
def execTimeBaseReturn (s : State) : Host.Outcome State Fault Refusal :=
  ok (if s.tbLost then { (s.setF Reg.TU_STAT Fld.TU_STAT_TB_LOST 0).clockBack 1 with norHeld := none } else s)

/-- CLOCK_RESTORED: clock domain d, not the time base, has its clock again. -/
def execClockRestored (d : Nat) (s : State) : Host.Outcome State Fault Refusal := ok (if 2 ≤ d ∧ d ≤ 14 then s.clockBack d else s)

end Sys2Proof.Machine
end

