-- ==== Sys2Proof/Machine/Loader.lean ====
section
/-! DEFINITION. Sys2Proof/Machine/Loader.lean: the pricking loader's operations, spare substitution and structure readback (R55–R74). -/

namespace Sys2Proof.Machine

/-! ## Source and checks (R52–R56). -/

/-- Block i of a container at a source address in DRAM or NOR. -/
def State.prkRd (s : State) (nor : Bool) (src : Nat) : Nat → Bytes :=
  fun i => if nor then s.norPage (src / 4096 + i) else s.rdMem (src + 4096 * i) 4096

/-- The container of a loader operation. -/
def State.jobRd (s : State) (j : LoadJob) : Nat → Bytes := s.prkRd j.nor j.src

/-- Does an operation wait for its source, the NOR, since the time base is lost (R43)? -/
def State.norWaits (s : State) (j : LoadJob) : Bool := j.nor && s.tbLost

/-- Does the source lie in the memory that holds it? -/
def State.srcThere (s : State) (j : LoadJob) : Bool :=
  decide (j.src + 4096 * j.len ≤ if j.nor then 0x4000000 else s.dramFit)

/-- Number of a block that can hold a personality: a port block or a spare. -/
def portBlock (r b : Nat) : Bool := decide (1 ≤ r ∧ r ≤ 4 ∧ b ≤ 16)

/-- Check 5: KIND, PERSONA and TARGET against the requested target, and the clock plan (ERR 5); frames within the target (ERR 13). -/
def State.check5 (s : State) (rd : Nat → Bytes) (r b : Nat) : Failed :=
  let h := rd 0
  let fits :=
    if hKind h = 3 then
      portBlock r b && decide (hTarget h = 0xFFFF ∧ 1 ≤ hPersona h ∧ hPersona h ≤ 4) && planSuits (s.plan (16 * (r - 1))) (hPersona h)
    else decide (hTarget h = regionPath r ∧ hPersona h = 0) && !portBlock r b && (decide (b = 63) || decide (b < blocksOf r))
  if fits then checkFrames rd r else some (5, 0)

/-- Every check of R55, with R451, on the source of an operation. -/
def State.prkCheck (s : State) (j : LoadJob) : Failed :=
  let rd := s.jobRd j
  match check1 rd [2, 3] 0 with
  | some e => some e
  | none =>
    if j.len ≠ hBlocks (rd 0) then some (1, 0)
    else match firstFail [check2 rd, check3 rd s.vkey, check4 rd] with
      | some e => some e
      | none =>
        let c := contOf rd
        if !s.aboveFloor c then some (9, 0)
        else match s.check5 rd j.region j.block with
          | some e => some e
          | none => if compatible (inPlace s.upd.run [c]) then none else some (6, 0)

/-! ## Traffic of a port block (R59, R62, R63). -/

/-- The MAC of port n starts afresh: its cells have been written anew; queues and descriptor ring stay. -/
def macFresh (p : PortState) : PortState :=
  { p with
    line := {}, air := {}, cas := {}, dups := [], seen := [], txen := false, burst := false
    txq := p.txq.map (fun k => { k with taken := false, held := k.held && k.cseq.isSome }) }

/-- Port n's pin set is connected to a block that holds b, its registers as the shadow has them; an enabled port starts (R58, R63). -/
def State.portRelease (s : State) (n : Nat) (b : Built) : State :=
  let t := ((s.portMod n macFresh).portPersona n b).shadowBack n
  let t := if t.persona n = 4 then t.setCasState n 0 else t
  if t.portEn n then t.portUp n else t

/-- The packet that port n's MAC has on the wire. -/
def State.onWire (s : State) (n : Nat) : Option Nat :=
  match ((s.port n).line.tx.bind (·.id)), (s.port n).air.tx with
  | some i, _ => some i
  | none, some (1, i) => some i
  | none, _ => none

/-- A packet cut off on the wire goes back to the head of its transmit queue (R59). -/
def State.wireFirst (s : State) (n : Nat) : State :=
  match s.onWire n with
  | none => s
  | some i => s.portMod n (fun p => { p with
      txq := p.txq.filter (fun k => decide (k.id = i)) ++ p.txq.filter (fun k => decide (k.id ≠ i)) })

/-- What begins with Drain: whole receive packets pass to intake. -/
def State.drainStart (s : State) (n : Nat) : State :=
  let s := s.ptrCheck n false
  let part := (s.port n).rxq.any (fun k => decide (k.read ≠ 0))
  if part then s
  else (s.passAll n (s.port n).rxq.length).drainCount Fld.UPD_PRK_DRAIN_STAT_RX_PASSED (s.port n).rxq.length

/-- What ends with Drain: a partial packet and a reception in progress are discarded, what is on the wire goes back to its queue, and
transmit packets are kept for the same PERSONA or returned for another. -/
def State.drainEnd (s : State) (n : Nat) (same : Bool) : State :=
  let part := (s.port n).rxq.any (fun k => decide (k.read ≠ 0))
  let t := (if part then (s.rxPop n).drainCount Fld.UPD_PRK_DRAIN_STAT_RX_DISCARDED 1 else s).drainStart n
  let t := t.when (decide ((s.port n).line.rx.phase = 1 ∨ (s.port n).line.rx.phase = 2)) (fun u => u.drainCount Fld.UPD_PRK_DRAIN_STAT_RX_DISCARDED 1)
  let t := (((t.wireFirst n).lineStop n (fun x => t.lnBoundary n x (t.lnSent n x))).casAbort n).portHalt n
  let k := (t.port n).txq.length
  if same then t.drainCount Fld.UPD_PRK_DRAIN_STAT_TX_KEPT k
  else (t.drainCount Fld.UPD_PRK_DRAIN_STAT_TX_RETURNED k).txClear n 7

/-! ## Start (R57, R65, R66). -/

/-- The port whose own block is block b of region r. -/
abbrev portOf (r b : Nat) : Nat := 16 * (r - 1) + b

/-- Is port block b without traffic, because the spare carries its pin set? -/
def State.off (s : State) (r b : Nat) : Bool :=
  decide (1 ≤ r ∧ r ≤ 4 ∧ b < 16) && s.isF (Reg.PORT_PERSONA (portOf r b)) Fld.PORT_PERSONA_SPARE

/-- Is a block blank, or without its pin set, so that it has nothing to drain (R65)? -/
def State.noDrain (s : State) (r b : Nat) : Bool := s.off r b || !s.exists_ r b

/-- Is the target of an operation refused with ERR 7 (R57)? A load goes into what is blank; a live re-pricking needs what is not. OP 2
on a port whose own block is still quarantined is no case that the spec refuses: it is taken, and the pin set goes back to a block that
gets no grants (DESIGN CHOICE, log entry 159). -/
def State.prkRefused (s : State) (op r b : Nat) (force : Bool) : Bool :=
  decide (3 < op ∨ r = 8) || (essential r b && !force && decide (op ≠ 2)) ||
    (decide (op = 2) && !s.off r b) ||
    (decide (op = 0) && (if b = 63 then s.regionThere r else s.exists_ r b && !(portBlock r b && decide ((s.builtAt (blockPath r b)).kind ≠ 3)))) ||
    (decide (op = 1) && !s.exists_ r b) || (decide (op = 3) && decide (b ≠ 63))

/-- STATE of the loader. -/
def State.setPrk (s : State) (v : Nat) : State := s.setF Reg.UPD_PRK_STAT Fld.UPD_PRK_STAT_STATE v

/-- Change the operation under way. -/
def State.jobMod (s : State) (f : LoadJob → LoadJob) : State := s.fabMod (fun x => { x with job := x.job.map f })

/-- START in UPD_PRK_CTL (R57). UPD_PRK_LAST counts from the start of Drain; a load has no Drain, and for it the count runs from START,
Verify included (DESIGN CHOICE, log entry 160). -/
def State.prkStart (s : State) (op : Nat) (force : Bool) : State :=
  let s := (s.setF Reg.UPD_PRK_CTL Fld.UPD_PRK_CTL_OP op).setF Reg.UPD_PRK_CTL Fld.UPD_PRK_CTL_FORCE force.toNat
  if s.noGrant 8 4 then s
  else if s.isF Reg.UPD_PRK_STAT Fld.UPD_PRK_STAT_BUSY then s.raiseF Reg.UPD_PRK_STAT Fld.UPD_PRK_STAT_REFUSED
  else
    let path := s.getF Reg.UPD_PRK_TARGET Fld.UPD_PRK_TARGET_PATH
    let r := path / 0x1000
    let b := path / 64 % 64
    let t := ((s.wrN Reg.UPD_PRK_DRAIN_STAT 0).setF Reg.UPD_PRK_STAT Fld.UPD_PRK_STAT_ERR 0).setF Reg.UPD_PRK_STAT
      Fld.UPD_PRK_STAT_ERR_BLK 0
    if s.prkRefused op r b force then t.prkFail 7 0
    else
      let j : LoadJob := {
        op := op, region := r, block := if op = 2 then 16 else b, rest := if op = 2 then [b] else [], force := force
        src := s.getF Reg.UPD_PRK_SRC_LO Fld.UPD_PRK_SRC_LO_ADDR_LO * 4096 + s.getF Reg.UPD_PRK_SRC_HI Fld.UPD_PRK_SRC_HI_ADDR_HI * 2 ^ 32
        nor := s.isF Reg.UPD_PRK_SRC_HI Fld.UPD_PRK_SRC_HI_SPACE, len := s.getF Reg.UPD_PRK_LEN Fld.UPD_PRK_LEN_BLOCKS
        drain0 := s.now }
      let t := (t.fabMod (fun f => { f with job := some j })).raiseF Reg.UPD_PRK_STAT Fld.UPD_PRK_STAT_BUSY
      if op = 2 then (t.setPrk 2).drainStart (portOf r b) else t.setPrk 1

/-- LOADER_LOAD: START with OP 0. -/
def execLoaderLoad (force : Bool) (s : State) : Host.Outcome State Fault Refusal := ok (s.prkStart 0 force)

/-- LOADER_REPRICK_BLOCK: START with OP 1. -/
def execLoaderReprickBlock (force : Bool) (s : State) : Host.Outcome State Fault Refusal := ok (s.prkStart 1 force)

/-- LOADER_RESTORE_PIN_SET: START with OP 2. -/
def execLoaderRestorePinSet (force : Bool) (s : State) : Host.Outcome State Fault Refusal := ok (s.prkStart 2 force)

/-- LOADER_REPRICK_REGION: START with OP 3. -/
def execLoaderReprickRegion (force : Bool) (s : State) : Host.Outcome State Fault Refusal := ok (s.prkStart 3 force)

/-- ABORT in UPD_PRK_CTL (R62): the block resumes as it was. -/
def State.prkAbort (s : State) : State :=
  if s.fab.job.isSome ∧ (s.prkState = 1 ∨ s.prkState = 2) then s.prkFail 11 0 else s

/-- LOADER_ABORT. -/
def execLoaderAbort (s : State) : Host.Outcome State Fault Refusal := ok s.prkAbort

/-! ## Phases (R58). -/

/-- The port that block b of region r carries, if any, and its traffic is drained. -/
def State.drainPort (s : State) (r b : Nat) : Option Nat := if portBlock r b then s.carried r b else none

/-- The loader takes an idle spare in hand: IDLE_g is 0 until its Release (R75). -/
def State.spareTaken (s : State) (r b : Nat) : State :=
  s.when (decide (1 ≤ r ∧ r ≤ 4 ∧ b = 16)) (fun t =>
    t.wr Reg.UPD_PRK_SPARE_STAT (setBit (t.raw Reg.UPD_PRK_SPARE_STAT) (8 * (r - 1) + 7) false))

/-- Work on a block begins: Drain, or Write where there is nothing to drain. -/
def State.blockStart (s : State) (r b : Nat) : State :=
  let t := s.jobMod (fun j => { j with block := b, drain0 := s.now, iso0 := s.now })
  if s.noDrain r b then (t.spareTaken r b).setPrk 4
  else match s.drainPort r b with
    | some n => (t.setPrk 2).drainStart n
    | none => t.setPrk 2

/-- LOADER_VERIFY_DONE: the checks of R55 end; `err`: the source could not be read. -/
def execLoaderVerifyDone (err : Bool) (s : State) : Host.Outcome State Fault Refusal :=
  match s.fab.job with
  | none => ok s
  | some j =>
    if s.prkState ≠ 1 ∨ s.norWaits j then ok s
    else if err || !s.srcThere j then ok (s.prkFail 10 0)
    else match s.prkCheck j with
      | some (e, blk) => ok (s.prkFail e blk)
      | none =>
        let rd := s.jobRd j
        let c := contOf rd
        let t := s.draw.jobMod (fun k => { k with
          built := builtOf c, cont := some c, maps := c.maps, set := s.drawn (2 ^ 32)
          seen := (List.range j.len).map (fun i => sha256 (rd i)) })
        if j.op = 0 then ok (t.setPrk 4)
        else if j.op = 3 then
          let bs := (List.range (blocksOf j.region)).filter (fun b => !(s.sparesOf j.region).contains b) ++ s.sparesOf j.region
          ok ((t.jobMod (fun k => { k with rest := bs.drop 1 })).blockStart j.region (bs.headD 0))
        else ok (t.blockStart j.region j.block)

/-- The pin set of port n goes back from the spare to its repaired block, and the spare is to be self-tested (R66). The phases that
STATE shows meanwhile the spec gives for a live re-pricking only: here 2 during the drain and 5 from then on (DESIGN CHOICE, log entry
161). -/
def State.pinBack (s : State) (r b : Nat) : State :=
  let n := portOf r b
  let own := s.builtAt (blockPath r b)
  let same := decide ((if own.kind = 3 then own.persona else 0) = s.persona n)
  let t := (s.drainEnd n same).setF (Reg.PORT_PERSONA n) Fld.PORT_PERSONA_SPARE 0
  (t.setPrk 5).portRelease n own

/-- LOADER_DRAIN_END: the block is empty, or DRAIN_TO has expired; it is isolated (R59, R60). -/
def execLoaderDrainEnd (s : State) : Host.Outcome State Fault Refusal :=
  match s.fab.job with
  | none => ok s
  | some j =>
    if s.prkState ≠ 2 then ok s
    else if j.op = 2 then ok (s.pinBack j.region (j.rest.headD 0))
    else
      let s := s.jobMod (fun k => { k with iso0 := s.now })
      match s.drainPort j.region j.block with
      | some n =>
        let same := decide (j.built.kind ≠ 3 ∨ j.built.persona = s.persona n)
        ok ((s.drainEnd n same).setPrk 3)
      | none =>
        ok ((if portBlock j.region j.block then s.spareTaken j.region j.block else s.dispose j.region j.block).setPrk 3)

/-- An operation fails once writing has begun: the cells hold what was written, whole (`torn` false) or in part, and the target is treated
as a block that failed during its own re-pricking, blank or not (R25, R56, R64). A region loaded whole has no bit in CHIP_QUAR_r: it
stays blank (log entry 162). -/
def State.jobFails (s : State) (j : LoadJob) (e blk : Nat) (torn : Bool) : State :=
  let t := (s.fabMod (fun f => { f with cells := tput f.cells (blockPath j.region j.block) (j.built, torn) })).prkFail e blk
  if j.block = 63 ∨ t.quar j.region j.block then t else t.blockReport j.region j.block 63

/-- LOADER_WRITE_DONE: the frames have been written, every block checked again as it was (R56); `err`: the source could not be read. -/
def execLoaderWriteDone (err : Bool) (s : State) : Host.Outcome State Fault Refusal :=
  match s.fab.job with
  | none => ok s
  | some j =>
    if (s.prkState ≠ 3 ∧ s.prkState ≠ 4) ∨ s.norWaits j then ok s
    else if err then ok (s.jobFails j 10 0 true)
    else match (List.range j.len).find? (fun i => decide (some (sha256 (s.jobRd j i)) ≠ j.seen[i]?)) with
      | some i => ok (s.jobFails j 14 i true)
      | none => ok (s.setPrk 5)

/-- STATE_r as the quarantined blocks and the spares in use make it (log entry 124). -/
def State.regionShow (s : State) (r : Nat) : State :=
  let bs := (List.range (blocksOf r)).filter (fun b => s.quar r b)
  let act := (List.range (s.sparesOf r).length).filter (fun i => s.spareAct r i)
  let bare := bs.filter (fun b => !(s.sparesOf r).contains b && !act.any (fun i => decide (s.spareFor r i = b)))
  s.setRegion r (if bs.any (essential r) then 3 else if bare ≠ [] then 2 else if act ≠ [] then 1 else 0)

/-- A block comes back into service with what was written (R58 Release, R65). -/
def State.blockRelease (s : State) (r b : Nat) (x : Built) : State :=
  let t := s.build (blockPath r b) x
  let t := if t.quar r b then (t.wr (Reg.CHIP_QUAR r) (setBit (t.raw (Reg.CHIP_QUAR r)) b false)).regionShow r else t
  if portBlock r b then
    match t.carried r b with
    | some n => t.portRelease n x
    | none => if b = 16 then t.spareShow (r - 1) true (if x.kind = 3 then x.persona else 0) else t
  else t

/-- What block b of a region that is pricked with the container of an operation comes to hold: a port keeps its own personality. -/
def State.regionBlock (s : State) (j : LoadJob) (b : Nat) : Built :=
  if !present j.region b (j.set / 2 ^ 16) then {}
  else if s.keepsPersona j.region b || (portBlock j.region b && decide (b = 16) && s.spareAct j.region 0) then s.builtAt (blockPath j.region b)
  else j.built

/-- The running set once container c has been put into use: c stands beside those of its place that a block still holds, and in
place of the others (R55). -/
def State.runTake (s : State) (c : RunCont) : List RunCont :=
  s.upd.run.filter (fun x => !samePlace x c || (decide (x ≠ c) && decide (x.kind = 3) &&
    s.fab.built.any (fun e => decide (e.2 = builtOf x)))) ++ [c]

/-- An operation has completed. -/
def State.prkDone (s : State) : State :=
  let t := match s.fab.job.bind (·.cont) with
    | none => s
    | some c => { s with upd := { s.upd with run := s.runTake c } }
  (t.prkEnd).raiseF Reg.UPD_PRK_STAT Fld.UPD_PRK_STAT_DONE

/-- The ticks of the last block operation. -/
def State.prkLast (s : State) (j : LoadJob) : State := s.wrN Reg.UPD_PRK_LAST ((s.now + 2 ^ 32 - j.drain0) % 2 ^ 32)

/-- LOADER_SELF_TEST_DONE: the self-test ends, well or not; Release follows, or the quarantine of the block (R58, R64–R67). -/
def execLoaderSelfTestDone (fail : Bool) (s : State) : Host.Outcome State Fault Refusal :=
  match s.fab.job with
  | none => ok s
  | some j =>
    let r := j.region
    if s.prkState ≠ 5 then ok s
    else if j.op = 2 then
      let t := (s.spareSet r 0 false 0).spareShow (r - 1) true (let x := s.builtAt (blockPath r 16); if x.kind = 3 then x.persona else 0)
      let t := (t.regionShow r).raiseBit Reg.CHIP_ERR_STAT r
      ok (if fail then (t.prkFail 8 0).blockReport r 16 63 else (t.prkLast j).prkDone)
    else if fail ∨ structHash (s.jobRd j) ≠ hHash (s.jobRd j 0) then ok (s.jobFails j 8 0 false)
    else
      let t := (s.setPrk 6).prkLast j
      match j.op with
      | 0 =>
        if j.block = 63 then ok ((t.regionBuild r (contOf (s.jobRd j))).prkDone)
        else ok ((t.blockRelease r j.block j.built).prkDone)
      | 1 => ok ((t.blockRelease r j.block j.built).prkDone)
      | _ =>
        let u := t.blockRelease r j.block (s.regionBlock j j.block)
        match j.rest with
        | b :: more => ok ((u.jobMod (fun k => { k with rest := more })).blockStart r b)
        | [] => ok (((u.mapsSet r j.maps).regionSet r (j.set % 2 ^ 16)).prkDone)

/-! ## Spares (R70–R73). -/

/-- The personality container for a block that held x, in a NOR slot (R64, R70, R456). -/
def State.contIn (s : State) (slot : Nat) (x : Built) : Option (Nat → Bytes) :=
  let rd := s.norRd slot
  if setHeaderOk (rd 0) then
    ((setConts rd (fun e => decide (u8 e 0 = 3 ∧ u8 e 1 = x.persona))).find? (fun c =>
      decide (hStructId (c 0) = x.structId ∧ hVersion (c 0) = x.version)))
  else none

/-- The container for a block that held x: from the slot booted; since a live activation, from whichever slot holds it. -/
def State.fetchCont (s : State) (x : Built) : Option (Nat → Bytes) :=
  match s.contIn s.booted x with
  | some c => some c
  | none => if s.upd.live || s.upd.job.isSome then s.contIn (1 - s.booted) x else none

/-- A container from the active slot under checks 1, 2 and 4 of R55, for a spare (R70). -/
def fetchOk (c : Nat → Bytes) : Bool := (check1 c [3] 0).isNone && (check2 c).isNone && (check4 c).isNone

/-- What the spare comes to hold for port block b of region r; none where the loader cannot make it so. -/
def State.spareMake (s : State) (x : Subst) (bad : Bool) : Option Built :=
  let old := s.builtAt (blockPath (portRegion x.port) (x.port % 16))
  if !x.loader then some (s.builtAt (blockPath (portRegion x.port) 16))
  else if old.kind ≠ 3 then some old
  else match s.fetchCont old with
    | some c => if fetchOk c && !bad then some (builtOf (contOf c)) else none
    | none => none

/-- SUBSTITUTION_COMPLETE: the spare of port n's group has been restored or re-pricked and takes the pin set (R70 steps 3 and 4);
`bad`: the re-pricking of the spare failed. A substitution that needs the loader waits for it (R72). -/
def execSubstitutionComplete (n : Nat) (bad : Bool) (s : State) : Host.Outcome State Fault Refusal :=
  match s.fab.substs.find? (fun x => decide (x.port = n)) with
  | none => ok s
  | some x =>
    if x.loader ∧ (s.fab.job.isSome ∨ s.tbLost) then ok s
    else
      let r := portRegion n
      match s.spareMake x bad with
      | none => ok (s.blockReport r 16 63)
      | some b =>
        let t := s.fabMod (fun f => { f with substs := f.substs.filter (fun y => decide (y.port ≠ n)) })
        let t := if t.fab.job.isNone then t.prkIdle else t
        let t := ((t.build (blockPath r 16) b).spareShow (r - 1) false (if b.kind = 3 then b.persona else 0)).spareSet r 0 true (n % 16)
        let t := ((t.raiseBit Reg.CHIP_ERR_STAT r).report (r * 0x1000 + 3) 3 (blockPath r (n % 16)) [16, n % 16]).setRegion r (max 1 (s.regionState r))
        ok ((t.setF (Reg.PORT_PERSONA n) Fld.PORT_PERSONA_SPARE 1).portRelease n b)

/-- SPARE_SELF_TEST: idle spare x of region r has been self-tested (R73). -/
def execSpareSelfTest (r x : Nat) (fail : Bool) (s : State) : Host.Outcome State Fault Refusal :=
  ok (if (s.sparesOf r).contains x && s.spareIdle r x && fail then s.blockReport r x 63 else s)

/-! ## Readback (R74). -/

/-- START in UPD_PRK_RB_SEL. -/
def State.readback (s : State) (path : Nat) : State :=
  if s.fab.readback.isSome then s
  else ((s.setF Reg.UPD_PRK_RB_SEL Fld.UPD_PRK_RB_SEL_PATH path).raiseF Reg.UPD_PRK_RB_SEL Fld.UPD_PRK_RB_SEL_BUSY).fabMod
    (fun f => { f with readback := some (path % 65536) })

/-- READBACK_START. -/
def execReadbackStart (path : Nat) (s : State) : Host.Outcome State Fault Refusal := ok (s.readback path)

/-- What the cells of the block at a path hold: what an operation left in them that failed, else what the block holds. -/
def State.cellsAt (s : State) (path : Nat) : Built × Bool := tget (fun p => (s.builtAt p, false)) s.fab.cells path

/-- READBACK_DONE. The hash is that of the frames in the cells; of cells written in part it is open, as the spec does not say what they
hold (log entry 163). -/
def execReadbackDone (s : State) : Host.Outcome State Fault Refusal :=
  match s.fab.readback with
  | none => ok s
  | some p =>
    let (b, torn) := s.cellsAt (p / 64 * 64 + 63)
    let (b, s) := if torn then ({ b with hash := bytesLE 32 (s.drawn (2 ^ 256)) }, s.draw) else (b, s)
    let t := ((s.fabMod (fun f => { f with readback := none })).setF Reg.UPD_PRK_RB_SEL Fld.UPD_PRK_RB_SEL_BUSY 0).wrN Reg.UPD_PRK_RB_ID b.structId
    let t := (t.wrN Reg.UPD_PRK_RB_VER b.version).wrN Reg.UPD_PRK_RB_INFO (if b.kind = 0 then 0 else 2 ^ 31 + b.persona * 256 + b.kind)
    ok (t.each (List.range 8) (fun k u => u.wrN (Reg.UPD_PRK_RB_HASH k) (u32 b.hash (4 * k))))

end Sys2Proof.Machine
end

