-- ==== Sys2Proof/Machine/Uplink.lean ====
section
/-! DEFINITION. Sys2Proof/Machine/Uplink.lean: sessions, the record engine, export batches and manifests (R374–R388). -/

namespace Sys2Proof.Machine

/-! ## Batches (R383–R386). -/

/-- Record size of a kind. -/
def recSize (kind : Nat) : Nat := if kind = 1 then 24 else if kind = 4 then 16 else 32

/-- End of a kind's source: positions below it exist (R384). -/
def State.srcEnd (s : State) (kind : Nat) : Nat :=
  s.num (match kind with | 1 => Reg.STO_REC_HEAD | 2 => Reg.DRN_BAL_PROD | 3 => Reg.DRN_SUSP_PROD | _ => Reg.TOT_EVT_PROD)

/-- Records that a ring source keeps. -/
def State.srcRing (s : State) (kind : Nat) : Nat :=
  if kind = 2 then (if s.isF Reg.INK_CTL Fld.INK_CTL_SLOTS20 then 2 ^ 23 else 2 ^ 22) else if kind = 3 then 2 ^ 18 else 4096

/-- Oldest retained position of a kind's source. -/
def State.srcOld (s : State) (kind : Nat) : Nat :=
  if kind = 1 then s.num Reg.STO_REC_TAIL else s.srcEnd kind - s.srcRing kind

/-- Is position p of a source no longer retained? -/
def State.srcLost (s : State) (kind p : Nat) : Bool :=
  let d := (s.srcOld kind + 2 ^ 32 - p) % 2 ^ 32
  decide (0 < d ∧ d < 2 ^ 31)

/-- The records at position p of a kind's source: those of a record unit for kind 1. -/
def State.srcRecs (s : State) (kind p : Nat) : Bytes :=
  match kind with
  | 1 =>
    let d := s.storeGet 0 (if s.partUnits 0 = 0 then 0 else p % s.partUnits 0)
    slice d 16 (24 * min (u16 d 0) 170)
  | 2 => s.rdMem (s.histA + 36 * 2 ^ 20 + 32 * (p % s.srcRing 2)) 32
  | 3 => s.rdMem (s.histA + 292 * 2 ^ 20 + 32 * (p % s.srcRing 3)) 32
  | _ => slice (s.storeGet 3 (32 + p % 4096 / 256)) (16 * (p % 256)) 16

/-- Positions from p on, at most n, until `room` records are reached: how many, and records left to take. -/
def State.srcTake (s : State) (kind p n room : Nat) : Nat × Nat :=
  match n with
  | 0 => (0, room)
  | k + 1 =>
    if room = 0 then (0, 0)
    else
      let r := s.srcTake kind ((p + 1) % 2 ^ 32) k (room - (s.srcRecs kind p).length / recSize kind)
      (r.1 + 1, r.2)

/-- A section of a batch, header and records; records lost since it was closed are left out. -/
def State.sectBytes (s : State) (x : USect) : Bytes :=
  let first := if s.srcLost x.kind x.first then s.srcOld x.kind else x.first
  let n := (x.last + 1 + 2 ^ 32 - first) % 2 ^ 32
  let recs := if n ≤ 4096 then (List.range n).flatMap (fun i => s.srcRecs x.kind ((first + i) % 2 ^ 32)) else []
  [x.kind, 0] ++ bytesLE 2 (recSize x.kind) ++ bytesLE 4 (recs.length / recSize x.kind) ++ bytesLE 4 first ++ bytesLE 4 x.last ++ recs

/-- A batch as it goes out (R383): HASH is taken with RESEND as 0. -/
def State.batchBytes (s : State) (k : Nat) (b : UBatch) (resend : Bool) : Bytes :=
  let gap := b.sects.any (fun x => s.srcLost x.kind x.first)
  let flags := if gap then b.flags ||| 2 else b.flags
  let body := b.sects.flatMap s.sectBytes
  let title := bytesLE 4 (s.num Reg.INK_OWN_TITLE_LO) ++ bytesLE 4 (s.num Reg.INK_OWN_TITLE_HI)
  let head := fun (f : Nat) => bytesLE 4 0x42544541 ++ bytesLE 2 1 ++ [k, f] ++ bytesLE 8 b.bseq ++ title ++ bytesLE 6 b.created ++
    [0, 0] ++ bytesLE 4 (96 + body.length) ++ bytesLE 4 (b.created / 86400) ++ [b.sects.length] ++ List.replicate 23 0
  head (flags + resend.toNat) ++ body ++ sha256 (head flags ++ body)

/-- The section of one kind that partner k's next batch would have, its records, and whether records were lost before it. -/
def State.sectNext (s : State) (k kind room : Nat) : Option USect × Nat × Bool :=
  let p0 := pos4 (s.part k).pos (kind - 1)
  let gap := s.srcLost kind p0
  let p := if gap then s.srcOld kind else p0
  let avail := min ((s.srcEnd kind + 2 ^ 32 - p) % 2 ^ 32) 4096
  let r := s.srcTake kind p avail room
  if r.1 = 0 then (none, room, false) else (some ⟨kind, p, (p + r.1 - 1) % 2 ^ 32⟩, r.2, gap)

/-- Records of a section now. -/
def State.sectCount (s : State) (x : USect) : Nat := u32 (s.sectBytes x) 4

/-- Partner k's open batch closes at `created`, with DAYCLOSE or not; nothing closes without records (R384). -/
def State.batchClose (s : State) (k created : Nat) (dayclose : Bool) : State :=
  let kinds := s.getF (Reg.UPL_PART_CFG k) Fld.UPL_PART_CFG_KINDS
  let (sects, _, gap) := ([1, 2, 3, 4].filter (fun j => decide (kinds / 2 ^ (j - 1) % 2 = 1))).foldl
    (fun (a : List USect × Nat × Bool) j =>
      let r := s.sectNext k j a.2.1
      (a.1 ++ r.1.toList, r.2.1, a.2.2 || r.2.2)) ([], s.getF Reg.UPL_EXP_CTL Fld.UPL_EXP_CTL_BATCH_MAX, false)
  if !s.partEn k || sects.isEmpty || !(decide (s.phase = 6 ∨ s.phase = 7)) then s
  else
    let p := s.part k
    let b : UBatch := {
      bseq := p.bseq, flags := 2 * gap.toNat + 4 * dayclose.toNat, created := created, sects := sects }
    let by_ := s.batchBytes k b false
    let day := created / 86400
    let p := if p.day = day then p else { p with
      day := day, dayHash := List.replicate 32 0, nbatch := 0, firstB := 0, lastB := 0, nrec := [0, 0, 0, 0] }
    let t := s.partMod k (fun _ => { p with
      bseq := p.bseq + 1, batches := p.batches ++ [b]
      pos := sects.foldl (fun l x => modAt l (x.kind - 1) (fun _ => (x.last + 1) % 2 ^ 32)) p.pos
      dayHash := sha256 (p.dayHash ++ slice by_ (by_.length - 32) 32), nbatch := p.nbatch + 1
      firstB := if p.nbatch = 0 then b.bseq else p.firstB, lastB := b.bseq
      nrec := sects.foldl (fun l x => modAt l (x.kind - 1) (fun c => c + s.sectCount x)) p.nrec })
    ((t.bump Reg.UPL_BATCH_CNT).when gap (fun u => u.raiseF Reg.UPL_INT_STAT Fld.UPL_INT_STAT_GAP)).partSave k

/-- BATCH_CLOSE: BATCH_MAX records are there, or BATCH_WAIT has passed since the first. -/
def execBatchClose (k : Nat) (s : State) : Host.Outcome State Fault Refusal :=
  ok (if k < 4 ∧ s.uplEn then s.batchClose k s.taiSec false else s)

/-- The session that carries partner k's export now, if it is open. -/
def State.expSess (s : State) (k : Nat) : Option Nat :=
  let n := s.getF (Reg.UPL_PART_CFG k) Fld.UPL_PART_CFG_SESSION
  let q := s.usess n
  if s.uplEn && s.partEn k && s.mayTransmit && decide (q.st = 1 ∧ q.kind = 1 ∧ q.bind = k) then some n else none

/-- A whole manifest: body and signature (R387). -/
def State.manifestBytes (s : State) (m : UManifest) : Bytes := m.body ++ padTo 17088 (Config.slhSign (s.ndl 8).key m.body)

/-- Signed manifests go out, each after the last batch of its day (R388). -/
def State.manifestSend (s : State) (k : Nat) : State :=
  match s.expSess k with
  | none => s
  | some n =>
    let p := s.part k
    let due := p.manifests.filter (fun m => m.signed && !m.sent &&
      p.batches.all (fun b => b.out || decide (m.day < b.created / 86400)))
    let t := s.each due (fun m u => (u.sessSay n 5 (s.manifestBytes m)).bump Reg.UPL_MANIFEST_CNT)
    if due.isEmpty then s
    else t.partMod k (fun x => { x with
      manifests := x.manifests.map (fun m => if due.any (fun d => decide (d.day = m.day)) then { m with sent := true } else m) })

/-- The first batch of partner k that is not on its way, within the window (R385). -/
def State.batchDue (s : State) (k : Nat) : Option UBatch :=
  ((s.part k).batches.take (s.getF (Reg.UPL_PART_CFG k) Fld.UPL_PART_CFG_WINDOW)).find? (fun b => !b.out)

/-- BATCH_SEND: the next batch of partner k goes out, durable and within the window. -/
def execBatchSend (k : Nat) (s : State) : Host.Outcome State Fault Refusal :=
  match s.expSess k, s.batchDue k with
  | some n, some b =>
    if s.phase = 6 ∨ s.phase = 7 then
      let t := s.sessSay n 3 (s.batchBytes k b b.sent)
      let t := t.partMod k (fun p => { p with
        batches := p.batches.map (fun x => if x.bseq = b.bseq then { x with sent := true, out := true } else x) })
      ok ((t.when b.sent (fun u => u.bump Reg.UPL_BATCH_RESEND_CNT)).manifestSend k)
    else ok s
  | _, _ => ok s

/-- Batches not yet acknowledged are due again: all, or those from a BSEQ on. -/
def State.batchAgain (s : State) (k fromSeq : Nat) : State :=
  s.partMod k (fun p => { p with
    batches := p.batches.map (fun b => if fromSeq ≤ b.bseq then { b with out := false } else b) })

/-- A BATCH_ACK from partner k (R385). -/
def State.batchAck (s : State) (k bseq status : Nat) : State :=
  let p := s.part k
  if !p.batches.any (fun b => decide (b.bseq = bseq) && b.sent) then s
  else match status with
    | 0 =>
      let acked := p.batches.filter (fun b => decide (b.bseq ≤ bseq))
      let pos := (acked.flatMap (·.sects)).foldl (fun a x => if x.kind = 1 then (x.last + 1) % 2 ^ 32 else a) p.ackPos
      (s.partMod k (fun x => { x with batches := x.batches.filter (fun b => decide (bseq < b.bseq)), ackPos := pos })).partSave k
    | 1 => s.batchAgain k bseq
    | _ =>
      ((s.setF (Reg.UPL_PART_CFG k) Fld.UPL_PART_CFG_EN 0).raiseF Reg.UPL_INT_STAT Fld.UPL_INT_STAT_PART_REFUSED).report 0x9101 3
        (blockPath 9 5) (k :: bytesLE 8 bseq)

/-- A MANIFEST_ACK from partner k (R388). -/
def State.manifestAck (s : State) (k day status : Nat) : State :=
  if status = 0 ∧ (s.part k).manifests.any (fun m => decide (m.day = day)) then
    (s.partMod k (fun p => { p with manifests := p.manifests.filter (fun m => decide (m.day ≠ day)) })).partSave k
  else s

/-- Body of partner k's manifest of a day (R387). -/
def State.manifestBody (s : State) (k day : Nat) : Bytes :=
  let p := s.part k
  let own := decide (p.day = day)
  let z := fun (v : Nat) => if own then v else 0
  bytesLE 4 0x4E4D4541 ++ bytesLE 2 1 ++ [k, 0] ++ bytesLE 4 (s.num Reg.INK_OWN_TITLE_LO) ++ bytesLE 4 (s.num Reg.INK_OWN_TITLE_HI) ++
    bytesLE 4 day ++ bytesLE 4 (z p.nbatch) ++ bytesLE 8 (z p.firstB) ++ bytesLE 8 (z p.lastB) ++
    (List.range 4).flatMap (fun j => bytesLE 4 (z (pos4 p.nrec j))) ++ (if own then padTo 32 p.dayHash else List.replicate 32 0) ++
    padTo 32 p.prev ++ bytesLE 4 (s.num Reg.NDL_KEYID_LO) ++ bytesLE 4 (s.num Reg.NDL_KEYID_HI)

/-- DAY_BOUNDARY: a TAI day ends (R384, R388): each enabled partner's open batch closes with DAYCLOSE, counted in the day
that ends (log entry 107), and its manifest waits for the hoop. -/
def execDayBoundary (s : State) : Host.Outcome State Fault Refusal :=
  if !s.taiValid || !s.uplEn then ok s
  else
    let day := s.taiSec / 86400 - 1
    ok (s.each ([0, 1, 2, 3].filter s.partEn) (fun k t =>
      let u := t.batchClose k (day * 86400 + 86399) true
      if u.isF Reg.UPL_EXP_CTL Fld.UPL_EXP_CTL_MANIFEST_EN then
        let m : UManifest := { day := day, body := u.manifestBody k day }
        (u.partMod k (fun p => { p with manifests := (p.manifests ++ [m]).drop (p.manifests.length + 1 - 16) })).partSave k
      else u))

/-- MANIFEST_SIGNED: the hoop signs partner k's oldest manifest not yet signed; PREV of the next is taken from the newest. -/
def execManifestSigned (k : Nat) (s : State) : Host.Outcome State Fault Refusal :=
  match (s.part k).manifests.find? (fun m => !m.signed) with
  | none => ok s
  | some m =>
    let newest := (s.part k).manifests.getLast?.map (·.day)
    let t := s.partMod k (fun p => { p with
      manifests := p.manifests.map (fun x => if x.day = m.day then { x with signed := true } else x)
      prev := if newest = some m.day then sha256 (s.manifestBytes m) else p.prev })
    ok (((t.partSave k).raiseF Reg.UPL_INT_STAT Fld.UPL_INT_STAT_MANIFEST_READY).manifestSend k)

/-! ## Session commands (R376–R378). -/

/-- An operation of UPL_SESS_CMD ends: 0 = done, otherwise a refusal code. -/
def State.sessEnd (s : State) (code : Nat) : State :=
  (s.setF Reg.UPL_SESS_STAT Fld.UPL_SESS_STAT_CODE code).raiseF Reg.UPL_SESS_STAT
    (if code = 0 then Fld.UPL_SESS_STAT_DONE else Fld.UPL_SESS_STAT_ERR)

/-- The session that a context stands for. -/
def ctxRead (d : Bytes) (q : USess) : USess :=
  { q with
    st := 1, err := 0, kind := u8 d 1, uplink := u8 d 2, bind := u8 d 3, ringLog := u8 d 5, rxBase := un d 8 8 % 2 ^ 36
    txBase := un d 16 8 % 2 ^ 36, rxWr := u32 d 24 % 2 ^ 24, rxRd := u32 d 28 % 2 ^ 24, txWr := u32 d 32 % 2 ^ 24
    txRd := u32 d 36 % 2 ^ 24, rxSeq := un d 40 8, txSeq := un d 48 8, rxKey := slice d 56 16, rxIv := slice d 72 12
    txKey := slice d 84 16, txIv := slice d 100 12 }

/-- Is a context valid: KIND, UPLINK, BIND and RING_LOG2 within their ranges? -/
def ctxGood (d : Bytes) : Bool :=
  decide (u8 d 1 ≤ 1 ∧ u8 d 2 ≤ 1 ∧ u8 d 3 < (if u8 d 1 = 0 then 16 else 4) ∧ 12 ≤ u8 d 5 ∧ u8 d 5 ≤ 23)

/-- A sequence number of session n has become `v`: KEY_LIMIT when it reaches 2^23; ERR 6 while either is at 2^24 (R378). -/
def State.keyLook (s : State) (n v : Nat) : State :=
  let q := s.usess n
  let t := s.when (decide (v = 2 ^ 23)) (fun u => u.raiseF Reg.UPL_INT_STAT Fld.UPL_INT_STAT_KEY_LIMIT)
  if q.st = 1 ∧ (2 ^ 24 ≤ q.rxSeq ∨ 2 ^ 24 ≤ q.txSeq) then t.sessStop n 6 else t

/-- Sessions open or stopped. -/
def State.sessOpenCount (s : State) : Nat := (s.upl.sess.filter (fun e => decide (e.2.st ≠ 0))).length

/-- SESSION_OPEN: OPEN of session n (R377, R382). An export session's partner gets everything unacknowledged again. -/
def execSessionOpen (n : Nat) (s : State) : Host.Outcome State Fault Refusal :=
  let n := n % 64
  let d := s.rdMem (s.ctxA n) 128
  let k := u8 d 3
  let code := if (s.usess n).st ≠ 0 then 3 else if !ctxGood d then 1 else if 32 ≤ s.sessOpenCount then 4
    else if s.role n = 7 then 5
    else if u8 d 1 = 1 ∧ (s.partEn k = false ∨ s.getF (Reg.UPL_PART_CFG k) Fld.UPL_PART_CFG_SESSION ≠ n) then 6 else 0
  if code ≠ 0 then ok (s.sessEnd code)
  else
    let t := ((s.sessMod n (fun _ => ctxRead d {})).ctxWrite n).sessEnd 0
    let t := if u8 d 1 = 1 then
        ((t.batchAgain k 0).partMod k (fun p => { p with manifests := p.manifests.map (fun m => { m with sent := false }) })).manifestSend k
      else t
    ok (t.keyLook n 0)

/-- SESSION_RESUME: RESUME of a stopped session, with its context read again. -/
def execSessionResume (n : Nat) (s : State) : Host.Outcome State Fault Refusal :=
  let n := n % 64
  let d := s.rdMem (s.ctxA n) 128
  if (s.usess n).st ≠ 2 then ok (s.sessEnd 2)
  else if !ctxGood d then ok (s.sessEnd 1)
  else ok ((((s.sessMod n (ctxRead d)).ctxWrite n).sessEnd 0).keyLook n 0)

/-- SESSION_CLOSE: CLOSE of session n. -/
def execSessionClose (n : Nat) (s : State) : Host.Outcome State Fault Refusal :=
  let n := n % 64
  if (s.usess n).st = 0 then ok (s.sessEnd 2) else ok ((s.sessClose n).sessEnd 0)

/-- SESSION_SYNC: all engine fields of session n are written back. -/
def execSessionSync (n : Nat) (s : State) : Host.Outcome State Fault Refusal :=
  let n := n % 64
  if (s.usess n).st = 0 then ok (s.sessEnd 2) else ok ((s.ctxWrite n).sessEnd 0)

/-- SESSION_DOORBELL: a new RX_WR (0) or TX_RD (1) of an open session. -/
def State.doorbell (s : State) (n which v : Nat) : State :=
  if (s.usess n).st = 1 then
    s.sessMod n (fun q => if which = 0 then { q with rxWr := v % 2 ^ 24 } else { q with txRd := v % 2 ^ 24 })
  else s

/-- SESSION_DOORBELL. -/
def execSessionDoorbell (n which v : Nat) (s : State) : Host.Outcome State Fault Refusal := ok (s.doorbell (n % 64) which v)

/-- HANDSHAKE_SIGN: the hoop signs the CertificateVerify content of session n with the identity key (R376). -/
def execHandshakeSign (n : Nat) (content : Bytes) (s : State) : Host.Outcome State Fault Refusal :=
  if (s.ndl 8).key.isEmpty then ok s else ok (s.emit (.signature n (Config.slhSign (s.ndl 8).key content)))

/-- ROLE_BIND: the hoop has checked session n's peer (`good`) and reads role ACPER-ROLE-r from its certificate (R376). -/
def execRoleBind (n r : Nat) (good : Bool) (s : State) : Host.Outcome State Fault Refusal :=
  if good ∧ r ≤ 5 ∧ n < 64 then ok (s.setRole n r) else ok s

/-! ## Record engine (R378–R381). -/

/-- The nonce of a record: IV exclusive-or sequence number (RFC 8446). -/
def recNonce (iv : Bytes) (seq : Nat) : Bytes := xorBytes (padTo 12 iv) ([0, 0, 0, 0] ++ bytesBE 8 seq)

/-- n bytes of a byte ring from an offset. -/
def State.ringRead (s : State) (base log off n : Nat) : Bytes :=
  (List.range n).map (fun i => s.rdByte (base + (off + i) % 2 ^ log))

/-- Write bytes to a byte ring at an offset. -/
def State.ringWrite (s : State) (base log off : Nat) (b : Bytes) : State :=
  let k := 2 ^ log - off % 2 ^ log
  (s.wrMem (base + off % 2 ^ log) (b.take k)).wrMem base (b.drop k)

/-- The inner plaintext and content type of a decrypted record: zeros after the type are padding. -/
def innerPlain (p : Bytes) : Bytes × Nat :=
  match p.reverse.dropWhile (fun x => decide (x = 0)) with
  | [] => ([], 0)
  | t :: r => (r.reverse, t)

/-- Does ingest back-pressure hold a session (R380)? -/
def State.ingHeld (s : State) (q : USess) : Bool := decide (q.kind = 0 ∧ 992 ≤ s.ingLevel q.bind)

/-- Lengths that a message type allows; none for a type that its session may not receive (R379). -/
def msgLen (kind type : Nat) : Option (Nat × Nat) :=
  match kind, type with
  | 0, 1 => some (13, 2060)
  | 1, 4 => some (16, 16)
  | 1, 6 => some (8, 8)
  | _, _ => none

/-- A whole message takes effect (R380, R385, R388). -/
def State.msgTake (s : State) (n type : Nat) (b : Bytes) : State :=
  let q := s.usess n
  match type with
  | 1 =>
    (s.ingEnter q.bind (bytesLE 2 (b.length - 12) ++ [u8 b 0 % 2, n] ++ slice b 4 4 ++ bytesLE 4 q.rxAt ++ slice b 8 4 ++ b.drop 12)).bump
      Reg.UPL_ING_MSG_CNT
  | 4 => if u8 b 8 ≤ 2 then s.batchAck q.bind (un b 0 8) (u8 b 8) else s.sessStop n 3
  | _ => if u8 b 4 ≤ 1 then s.manifestAck q.bind (u32 b 0) (u8 b 4) else s.sessStop n 3

/-- The message parser takes whole messages from what session n has received; k bounds them. -/
def State.msgParse (s : State) (n k : Nat) : State :=
  match k with
  | 0 => s
  | j + 1 =>
    let q := s.usess n
    if q.st ≠ 1 ∨ s.ingHeld q ∨ q.inBuf.length < 8 then s
    else
      let len := u32 q.inBuf 4
      match msgLen q.kind (u8 q.inBuf 0) with
      | none => s.sessStop n 4
      | some (lo, hi) =>
        if len < lo ∨ hi < len then s.sessStop n 3
        else if q.inBuf.length < 8 + len then s
        else ((s.sessMod n (fun x => { x with inBuf := x.inBuf.drop (8 + len) })).msgTake n (u8 q.inBuf 0)
          (slice q.inBuf 8 len)).msgParse n j

/-- A record of session n has been consumed: RX_RD and its sequence number advance, and are written back. -/
def State.recTaken (s : State) (n len : Nat) : State :=
  let t := s.sessMod n (fun q => { q with rxRd := (q.rxRd + len) % 2 ^ 24, rxSeq := q.rxSeq + 1 })
  let q := t.usess n
  ((t.wrMem (t.ctxA n + 28) (bytesLE 4 q.rxRd)).raiseBit Reg.UPL_INT_STAT (6 + q.uplink)).keyLook n q.rxSeq

/-- The next record of session n's receive ring, if it is whole, is decrypted (R378 step 2). -/
def State.recReceive (s : State) (n : Nat) : State :=
  let q := s.usess n
  let avail := (q.rxWr + 2 ^ 24 - q.rxRd) % 2 ^ 24
  if q.st ≠ 1 ∨ s.ingHeld q ∨ avail < 5 then s
  else
    let h := s.ringRead q.rxBase q.ringLog q.rxRd 5
    let len := u16be h 3
    if u8 h 0 ≠ 23 ∨ u16be h 1 ≠ 0x0303 ∨ 16640 < len then s.sessStop n 1
    else if avail < 5 + len then s
    else
      let c := s.ringRead q.rxBase q.ringLog (q.rxRd + 5) len
      match (if len < 16 then none else gcmOpen 16 q.rxKey (recNonce q.rxIv q.rxSeq) h (c.take (len - 16)) (c.drop (len - 16))) with
      | none => s.sessStop n 2
      | some p =>
        let (data, type) := innerPlain p
        if type ≠ 23 then s.sessStop n 5
        else (((s.sessMod n (fun x => { x with inBuf := x.inBuf ++ data, rxAt := s.now })).recTaken n (5 + len)).msgParse n
          (q.inBuf.length + data.length))

/-- TLS_RECORD_RECEIVE: the engine goes on with session n: messages held back, then the next record. -/
def execTlsRecordReceive (n : Nat) (s : State) : Host.Outcome State Fault Refusal :=
  if s.uplEn ∧ s.noGrant 9 5 = false ∧ n < 64 ∧ (s.usess n).st = 1 then ok ((s.msgParse n (s.usess n).inBuf.length).recReceive n) else ok s

/-- TLS_RECORD_TRANSMIT: a record of session n closes, with at most 16,384 bytes, and goes to the transmit ring (R378 step 3). -/
def execTlsRecordTransmit (n : Nat) (s : State) : Host.Outcome State Fault Refusal :=
  let q := s.usess n
  let p := q.outBuf.take 16384
  let len := p.length + 17
  if s.uplEn ∧ s.noGrant 9 5 = false ∧ n < 64 ∧ q.st = 1 ∧ q.outBuf ≠ [] ∧ 5 + len ≤ 2 ^ q.ringLog - (q.txWr + 2 ^ 24 - q.txRd) % 2 ^ 24 then
    let h := [23, 3, 3] ++ bytesBE 2 len
    let (ct, tag) := gcmSeal 16 q.txKey (recNonce q.txIv q.txSeq) h (p ++ [23])
    let t := (s.ringWrite q.txBase q.ringLog q.txWr (h ++ ct ++ tag)).sessMod n (fun x => { x with
      outBuf := x.outBuf.drop 16384, txWr := (x.txWr + 5 + len) % 2 ^ 24, txSeq := x.txSeq + 1 })
    ok (((t.wrMem (t.ctxA n + 32) (bytesLE 4 (t.usess n).txWr)).raiseBit Reg.UPL_INT_STAT (8 + q.uplink)).keyLook n (t.usess n).txSeq)
  else ok s

/-- RESULT_MESSAGE_SEND: 64 results wait for session n, or 1 ms has passed since the oldest (R381). Results of a closed
session are discarded. -/
def execResultMessageSend (n : Nat) (s : State) : Host.Outcome State Fault Refusal :=
  let mine := s.upl.results.filter (fun r => decide (r.1 = n))
  let rest := s.upl.results.filter (fun r => decide (r.1 ≠ n))
  let q := s.usess n
  if q.st = 0 then ok (s.uplMod (fun u => { u with results := rest }))
  else if mine.isEmpty ∨ q.st ≠ 1 ∨ q.kind ≠ 0 ∨ s.uplEn = false ∨ s.mayTransmit = false then ok s
  else ok (((s.uplMod (fun u => { u with results := rest ++ mine.drop 64 })).sessSay n 2 ((mine.take 64).flatMap (·.2))).bump
    Reg.UPL_RESULT_CNT)

end Sys2Proof.Machine
end

