-- ==== Sys2Proof/Machine/Pair.lean ====
section
/-! DEFINITION. Sys2Proof/Machine/Pair.lean: the pair link's messages, takeover, contention and resynchronisation (R486–R494), and the
links of the uplink region (R370, R373). -/

namespace Sys2Proof.Machine

/-- OTP role: 1 = A, 2 = B. -/
abbrev State.pairRole (s : State) : Nat := s.hoop.pairRole

/-- EN of SMP_PAIR_CTL. -/
def State.pairEn (s : State) : Bool := s.isF Reg.SMP_PAIR_CTL Fld.SMP_PAIR_CTL_EN

/-- SENSE: the partner holds. -/
def State.setSense (s : State) (b : Bool) : State := s.setF Reg.SMP_PAIR_STAT Fld.SMP_PAIR_STAT_SENSE b.toNat

/-- Does the partner's latest STATUS show it holding? -/
def State.peerHolds (s : State) : Bool := s.isF Reg.SMP_PAIR_STAT Fld.SMP_PAIR_STAT_PEER_ACTIVE

/-- WIT_EP. -/
abbrev State.witEp (s : State) : Nat := s.num Reg.SMP_PAIR_WIT_EP

/-- WIT_EXP lies ahead of TAI. -/
def State.witAhead (s : State) : Bool := !fired (s.taiSec % 2 ^ 32) (s.num Reg.SMP_PAIR_WIT_EXP)

/-! ## Outgoing STATUS (R488). -/

/-- PAIR_STATUS_SEND: 2^10 ticks have passed. -/
def execPairStatusSend (s : State) : Host.Outcome State Fault Refusal :=
  ok (if s.pairState = 0 ∨ s.noGrant 9 3 then s
    else s.pairSend 1 ([s.pairState, s.pairRole] ++ bytesLE 4 (s.num Reg.STO_REC_HEAD) ++ s.structDigest.take 8))

/-! ## Link loss and contention (R489, R493). -/

/-- A device that releases: its keeper is sent what it lacks, at once or when the link is up again. -/
def State.pairGiveUp (s : State) : State :=
  (if s.pairLink then s.sendKeeper else s.pairMod (fun p => { p with owes := true })).pairRelease

/-- PAIR_STATUS_TIMEOUT. -/
def execPairStatusTimeout (s : State) : Host.Outcome State Fault Refusal := ok (if s.pairLink then s.pairLost else s)

/-- Is a message of this TYPE one that the standby confirms (R489)? -/
def confirmed (type : Nat) : Bool := decide ((2 ≤ type ∧ type ≤ 6) ∨ type = 9)

/-- MIRROR_TIMEOUT: a confirmation is missing after MIRROR_TO. -/
def execMirrorTimeout (s : State) : Host.Outcome State Fault Refusal :=
  ok (if s.mustConfirm ∧ s.pair.sent.any (fun e => confirmed e.2.1) then s.pairLost else s)

/-- Both devices are active by STATUS. -/
def State.bothActive (s : State) : State :=
  if s.ao.epoch < s.pair.peerEpoch ∨ (s.ao.epoch = s.pair.peerEpoch ∧ s.pairRole = 2) then s.pairGiveUp else s

/-- BOTH_HOLDING: both have held for 2 ms. -/
def execBothHolding (s : State) : Host.Outcome State Fault Refusal :=
  if s.pairHold then ok (let t := s.setSense true; if s.pairRole = 2 then t.pairGiveUp else t) else ok s

/-! ## Incoming messages (R488, R489, R494). -/

/-- A resend is asked for from the missing MSEQ. How, the spec does not say: TYPE 0 in this model (log entry 114). -/
def State.pairAskResend (s : State) : State := s.emit (.pair 0 (pairMsg 0 s.ao.epoch 0 (bytesLE 8 (s.pair.rxSeq + 1))))

/-- Everything from an MSEQ on goes out again. -/
def State.pairResend (s : State) (frm : Nat) : State :=
  s.each (s.pair.sent.filter (fun e => decide (frm ≤ e.1))) (fun e t => t.emit (.pair e.2.1 (pairMsg e.2.1 t.ao.epoch e.1 e.2.2)))

/-- STATUS. -/
def State.statusIn (s : State) (b : Bytes) : State :=
  let st := u8 b 0
  let holds := decide (st = 4 ∨ st = 5)
  let t := s.setF Reg.SMP_PAIR_STAT Fld.SMP_PAIR_STAT_LINK 1
  let t := t.when (s.peerHolds && !holds) (fun u => u.pairMod (fun p => { p with since := s.now }))
  let t := (t.setF Reg.SMP_PAIR_STAT Fld.SMP_PAIR_STAT_PEER_ACTIVE holds.toNat).pairMod (fun p => { p with
    peerState := st, peerRole := u8 b 1, peerHead := u32 b 2, peerDigest := un b 6 8 })
  let diff := decide (slice b 6 8 ≠ s.structDigest.take 8)
  let t := t.when (diff && !s.isF Reg.SMP_PAIR_STAT Fld.SMP_PAIR_STAT_STRUCT_DIFF) (fun u => u.report 0x9105 2 pairPath (slice b 6 8))
  let t := t.setF Reg.SMP_PAIR_STAT Fld.SMP_PAIR_STAT_STRUCT_DIFF diff.toNat
  if u8 b 1 = s.pairRole then
    if s.pairState = 7 then t else ((t.setF Reg.SMP_PAIR_STAT Fld.SMP_PAIR_STAT_HOLD 0).pairMod (fun p => { p with taking := 0 })).pairMove 7
  else if (s.pairState = 4 ∨ s.pairState = 5) ∧ holds then t.bothActive
  else if s.pairState = 5 ∧ st = 2 then t.pairMove 4
  else t

/-- Slot n's entry as the active device has it now; lookup tables follow. -/
def State.slotIn_ (s : State) (n : Nat) (e' : Bytes) : State :=
  let e := s.msmAt n
  let t := { s with msm := tset (fun _ => msmClear) s.msm n e' }
  let t := (t.addrDrop e n).when (decide (msmTitle e ≠ msmTitle e' ∨ e' = msmClear)) (fun u => u.titleDrop (msmTitle e) n)
  let t := if e' = msmClear then t else (t.titlePlace (msmTitle e') n).addrTake e' n
  (t.kcSlot n none).jour (.slot n e')

/-- A slot has been updated by a live message during resynchronisation. -/
def State.liveSlot (s : State) (n : Nat) : State :=
  if s.pairState = 2 then s.pairMod (fun p => { p with live := if p.live.contains n then p.live else n :: p.live }) else s

/-- The 24-byte records of a byte string. -/
def recs24 (b : Bytes) : List Bytes := (List.range (b.length / 24)).map (fun i => slice b (24 * i) 24)

/-- COMMIT: records to the own log at REC_POS, the slot's counters and Mender tables under the skip rule of R309, the journal. -/
def State.commitIn (s : State) (b : Bytes) : State :=
  let ctr := slice b 4 12
  let pos := u32 b 16
  let m := decide (u8 b 1 % 2 = 1)
  let h := decide (u8 b 1 / 2 % 2 = 1)
  let mst := if m then some (slice b 20 64) else none
  let shd := if h then some (slice b (20 + 64 * m.toNat) 256) else none
  let rs := recs24 (b.drop (u16 b 2))
  let slot := u32 ctr 0 % 2 ^ 20
  if s.ctrApplied slot (u32 ctr 4) then s
  else
    let n := s.num Reg.INK_REORDER_CNT
    let t := (s.counterUpdate slot (u32 ctr 4) (u32 ctr 0 / 2 ^ 20 % 16) (u32 ctr 8)).wrN Reg.INK_REORDER_CNT n
    let t := match mst with
      | none => t
      | some x => t.wrMem (t.mstA slot) x
    let t := match shd with
      | none => t
      | some x => t.wrMem (t.shdA slot) x
    let (t, p) :=
      if pos = 0xFFFFFFFF ∨ rs = [] then (t, pos)
      else
        let u := if s.pairState ≤ 3 ∧ pos ≠ t.num Reg.STO_REC_HEAD then (t.recUnitPut 0).wrN Reg.STO_REC_HEAD pos else t
        rs.foldl (fun (a : State × Nat) r => a.1.recAdd (u32 ctr 8) r) (u, pos)
    (t.jour (.commit ctr p mst shd)).liveSlot slot

/-- SAMPLER: a record of the partner goes to partition 4 from fine unit 8,192, laid out as partition 1. -/
def State.samplerIn (s : State) (b : Bytes) : State :=
  let q := u32 b 32
  let u := 8192 + mirrorUnit q
  s.storePut 4 u (overlay (padTo 4096 (s.storeGet 4 u)) (32 * (q % 128)) (b.take 32))

/-- EXPORT: a partner's state unit. -/
def State.exportIn (s : State) (b : Bytes) : State :=
  let k := u8 b 4095 % 4
  ((s.partMod k (fun _ => partUnpack b)).when (decide (s.phase = 6 ∨ s.phase = 7)) (fun t => t.storePut 4 k b)).partShow k

/-- TAIL. -/
def State.tailIn (s : State) (pos : Nat) : State := s.did (execRecTailWrite pos)

/-- BULK, as this model lays a chunk out (log entry 114): area (1 byte), 3 bytes of 0, index (4 bytes), contents. An entry for a slot
that a live message has updated is discarded. -/
def State.bulkIn (s : State) (b : Bytes) : State :=
  let n := u32 b 4
  let d := b.drop 8
  let t := s.pairMod (fun p => { p with bulk := p.bulk + d.length })
  if u8 b 0 ≤ 3 ∧ s.pair.live.contains n then t
  else match u8 b 0 with
    | 0 => t.slotIn_ n (d.take 32)
    | 1 => t.wrMem (t.xrecA n) (d.take 16)
    | 2 => t.wrMem (t.mstA n) (d.take 64)
    | 3 => t.wrMem (t.shdA n) (d.take 256)
    | 4 => t.exportIn d
    | 5 => t.storePut 0 (if t.partUnits 0 = 0 then 0 else n % t.partUnits 0) d
    | _ => t

/-- CONFIRM of what this device holds. -/
def State.pairConfirm (s : State) : State := if s.pairState = 2 ∨ s.pairState = 3 then s.pairSend 7 (bytesLE 8 s.pair.rxSeq) else s

/-- A message taken in order is handled by its TYPE. -/
def State.pairHandle (s : State) (type : Nat) (b : Bytes) : State :=
  let follows := decide (s.pairState = 2 ∨ s.pairState = 3)
  let keeps := decide (s.pairState = 4 ∨ s.pairState = 5)
  match type with
  | 1 => s.statusIn b
  | 2 => if follows || keeps then (s.commitIn b).pairConfirm else s
  | 3 => if follows then ((s.slotIn_ (u32 b 4) (slice b 8 32)).liveSlot (u32 b 4)).pairConfirm else s
  | 4 => if follows then (s.samplerIn b).pairConfirm else s
  | 5 => if follows then (s.exportIn b).pairConfirm else s
  | 6 => if follows then (s.tailIn (u32 b 0)).pairConfirm else s
  | 7 =>
    let m := un b 0 8
    s.pairMod (fun p => { p with confirmed := max p.confirmed m, sent := p.sent.filter (fun e => decide (m < e.1)) })
  | 8 => (s.pairMod (fun p => { p with released := true, since := s.now, peerState := 6 })).setF Reg.SMP_PAIR_STAT
      Fld.SMP_PAIR_STAT_PEER_ACTIVE 0
  | 9 => if follows then (s.bulkIn b).pairConfirm else s
  | _ => s

/-- PAIR_MESSAGE_RECEIVE: a message arrives on the pair link. One with a bad check is dropped, as a gap then shows. -/
def execPairMessageReceive (b : Bytes) (s : State) : Host.Outcome State Fault Refusal :=
  let n := u16 b 2
  let q := un b 8 8
  if s.pairState = 0 ∨ s.noGrant 9 3 ∨ b.length ≠ 20 + n ∨ u32 b (16 + n) ≠ crc32c (b.take (16 + n)) then ok s
  else if u8 b 0 = 0 then ok (s.pairResend (un b 16 8))
  else
    let first := decide (u8 b 0 = 1) && !s.pairLink
    if !first && decide (q ≤ s.pair.rxSeq) then ok s
    else if !first && decide (q ≠ s.pair.rxSeq + 1) then ok s.pairAskResend
    else ok ((s.pairMod (fun p => { p with rxSeq := q, peerEpoch := u32 b 4 })).pairHandle (u8 b 0) (slice b 16 n))

/-! ## Becoming active (R487, R491, R492). -/

/-- Why this device may now take over, if PAIR_SENSE_N has been high for 1 ms (R491 condition 3). -/
def State.pairReason (s : State) : Nat :=
  if s.pairLink && decide (s.pairState = 3) && (s.pair.released || !s.peerHolds) then (if s.pair.released then 1 else 2)
  else if s.pairLink && decide (s.pairState = 1 ∧ s.pair.peerState = 1 ∧ s.pairRole = 1) && !s.peerHolds then 4
  else if !s.pairLink && decide (1 ≤ s.pairState ∧ s.pairState ≤ 3) && s.pair.granted && decide (s.ao.epoch < s.witEp) && s.witAhead then 3
  else 0

/-- PAIR_SENSE_STABLE: PAIR_SENSE_N has been high for 1 ms without a break. -/
def execPairSenseStable (s : State) : Host.Outcome State Fault Refusal :=
  let t := s.setSense false
  if s.pairEn && s.pairAble && !s.pairHold && decide (s.pair.taking = 0) && decide (s.pairReason ≠ 0) then
    ok ((t.setF Reg.SMP_PAIR_STAT Fld.SMP_PAIR_STAT_HOLD 1).pairMod (fun p => { p with taking := s.pairReason }))
  else ok t

/-- TAKEOVER_SAMPLE: 1 ms later PAIR_SENSE_N is sampled again. -/
def execTakeoverSample (low : Bool) (s : State) : Host.Outcome State Fault Refusal :=
  if s.pair.taking = 0 then ok s
  else if low then
    ok (((s.setSense true).setF Reg.SMP_PAIR_STAT Fld.SMP_PAIR_STAT_HOLD 0).pairMod (fun p => { p with taking := 0 }))
  else ok ((s.setSense false).pairActive s.pair.taking)

/-- A write of SMP_PAIR_WIT_EXP installs a grant; an active device that holds its commits goes on alone (R493). -/
def State.witInstall (s : State) (exp : Nat) : State :=
  let t := (s.wrN Reg.SMP_PAIR_WIT_EXP exp).pairMod (fun p => { p with since := s.now })
  match s.pairState with
  | 5 => if s.witEp = s.ao.epoch ∧ t.witAhead then t.pairMod (fun p => { p with granted := true }) else t
  | 4 =>
    if s.pair.held ∧ s.ao.epoch < s.witEp ∧ t.witAhead then
      (((t.aoMod (fun a => { a with epoch := s.witEp })).pairMod (fun p => { p with
        granted := true, held := false, epochJ := s.sto.jseq })).pairMove 5)
    else t
  | _ => t.pairMod (fun p => { p with granted := true })

/-- WITNESS_INSTALL. -/
def execWitnessInstall (exp : Nat) (s : State) : Host.Outcome State Fault Refusal := ok (s.witInstall exp)

/-- WITNESS_WAIT_EXPIRE: 1 s without a grant. -/
def execWitnessWaitExpire (s : State) : Host.Outcome State Fault Refusal :=
  if !s.pair.granted ∧ (s.pairState = 5 ∨ (s.pairState = 4 ∧ s.pair.held)) then ok s.pairGiveUp else ok s

/-- WITNESS_EXPIRE: WIT_EXP has passed in ALONE without renewal. -/
def execWitnessExpire (s : State) : Host.Outcome State Fault Refusal :=
  if s.pairState = 5 ∧ s.pair.granted ∧ s.witAhead = false then ok s.pairGiveUp else ok s

/-- YIELD is written (R490). -/
def execPairYield (s : State) : Host.Outcome State Fault Refusal := ok s.pairYield

/-- A write of EN (R487, R2). -/
def State.pairEnWrite (s : State) (en : Bool) : State :=
  let t := s.setF Reg.SMP_PAIR_CTL Fld.SMP_PAIR_CTL_EN en.toNat
  if en then
    if s.pairAble then (if s.pairState = 0 then t.pairMove 1 else t) else (t.report 0x0007 3 0x0FFF [])
  else ((t.setF Reg.SMP_PAIR_STAT Fld.SMP_PAIR_STAT_HOLD 0).pairMod (fun p => { p with taking := 0, held := false })).pairMove 0

/-- PAIR_EN_WRITE. -/
def execPairEnWrite (en : Bool) (s : State) : Host.Outcome State Fault Refusal := ok (s.pairEnWrite en)

/-- PAIR_START_TIMEOUT: 10 s in START without the partner's STATUS. The device waits for a grant (log entry 118). -/
def execPairStartTimeout (s : State) : Host.Outcome State Fault Refusal :=
  ok (if s.pairState = 1 ∧ s.pairLink = false then s.raiseF Reg.SMP_INT_STAT Fld.SMP_INT_STAT_WIT_NEED else s)

/-! ## Resynchronisation (R494). -/

/-- PHASE of SMP_PAIR_SYNC. -/
def State.syncPhase (s : State) : Nat := s.getF Reg.SMP_PAIR_SYNC Fld.SMP_PAIR_SYNC_PHASE

/-- A phase begins. -/
def State.syncAt (s : State) (p : Nat) : State :=
  (s.setF Reg.SMP_PAIR_SYNC Fld.SMP_PAIR_SYNC_PHASE p).pairMod (fun x => { x with bulk := 0 })

/-- Send a BULK chunk. -/
def State.bulkOut (s : State) (area n : Nat) (d : Bytes) : State :=
  (s.pairSend 9 ([area, 0, 0, 0] ++ bytesLE 4 n ++ d)).pairMod (fun p => { p with bulk := p.bulk + d.length })

/-- Phase 1: MSM, extended records, Mender state and shadow tables, export state. -/
def State.bulkTables (s : State) : State :=
  let t := s.each (List.range s.slotCount) (fun n t =>
    (((t.bulkOut 0 n (t.msmAt n)).bulkOut 1 n (t.rdMem (t.xrecA n) 16)).bulkOut 2 n (t.rdMem (t.mstA n) 64)).bulkOut 3 n (t.rdMem (t.shdA n) 256))
  t.each [0, 1, 2, 3] (fun k u => u.bulkOut 4 k (overlay (partPack (u.part k)) 4095 [k]))

/-- Record units from one position up to another. -/
def State.bulkRecs (s : State) (a b : Nat) : State :=
  s.each (List.range ((b + 2 ^ 32 - a) % 2 ^ 32)) (fun i t =>
    t.bulkOut 5 ((a + i) % 2 ^ 32) (t.storeGet 0 (if t.partUnits 0 = 0 then 0 else (a + i) % t.partUnits 0)))

/-- Lowest UPL_PART_k_POS of the partners with EN = 1, as a distance above the tail; none without one. -/
def State.lowPos (s : State) : Option Nat :=
  let tail := s.num Reg.STO_REC_TAIL
  ([0, 1, 2, 3].filter (fun k => s.partEn k)).foldl (fun a k =>
    let d := (s.num (Reg.UPL_PART_POS k) + 2 ^ 32 - tail) % 2 ^ 32
    match a with
    | none => some d
    | some e => some (min d e)) none

/-- RESYNC_START: a STALE or starting device with an active partner enters SYNC; an active device with a syncing partner begins the
bulk transfer. -/
def execResyncStart (s : State) : Host.Outcome State Fault Refusal :=
  if !s.pairLink then ok s
  else if (s.pairState = 6 ∨ s.pairState = 1) ∧ s.peerHolds then
    let t := s.when s.pair.owes State.sendKeeper
    ok ((((t.aoMod (fun a => { a with epoch := t.pair.peerEpoch })).pairMod (fun p => { p with
      live := [], released := false, owes := false, epochJ := t.sto.jseq })).pairMove 2).syncAt 1)
  else if s.pairState = 4 ∧ s.pair.peerState = 2 ∧ s.syncPhase = 0 then ok ((s.syncAt 1).bulkTables)
  else ok s

/-- RESYNC_PHASE_DONE: a phase ends and the next begins; with the end of phase 2 the syncing device is a standby. -/
def execResyncPhaseDone (s : State) : Host.Outcome State Fault Refusal :=
  let active := decide (s.pairState = 4)
  let head := s.num Reg.STO_REC_HEAD
  let tail := s.num Reg.STO_REC_TAIL
  let all := (head + 2 ^ 32 - tail) % 2 ^ 32
  let low := min all (s.lowPos.getD all)
  let pending (t : State) (v : Nat) : State := t.setF Reg.SMP_PAIR_STAT Fld.SMP_PAIR_STAT_HIST_PENDING v
  match s.syncPhase with
  | 1 => ok (let t := s.syncAt 2; if active then t.bulkRecs ((tail + low) % 2 ^ 32) head else t)
  | 2 =>
    let t := pending (s.syncAt 3) 1
    ok (if active then t.bulkRecs tail ((tail + low) % 2 ^ 32) else if s.pairState = 2 then t.pairMove 3 else t)
  | 3 => ok (pending (s.syncAt 0) 0)
  | _ => ok s

/-! ## Links (R370, R373). -/

/-- UPLINK_LINK_CHANGE: a link bit of UPL_STAT becomes `up`: link 0 = uplink A, 1 = uplink B, 2 = PCIe with its width and generation,
3 = the pair link, 4–7 = pair lanes 0–3. -/
def execUplinkLinkChange (link : Nat) (up : Bool) (width gen : Nat) (s : State) : Host.Outcome State Fault Refusal :=
  let v := up.toNat
  let t := match link with
    | 0 => s.setF Reg.UPL_STAT Fld.UPL_STAT_A_UP v
    | 1 => s.setF Reg.UPL_STAT Fld.UPL_STAT_B_UP v
    | 2 => ((s.setF Reg.UPL_STAT Fld.UPL_STAT_PCIE_UP v).setF Reg.UPL_STAT Fld.UPL_STAT_PCIE_WIDTH (if up then width else 0)).setF
        Reg.UPL_STAT Fld.UPL_STAT_PCIE_GEN (if up then gen else 0)
    | 3 => s.setF Reg.UPL_STAT Fld.UPL_STAT_PAIR_UP v
    | 4 | 5 | 6 | 7 => s.setF Reg.UPL_STAT ⟨16 + (link - 4), 16 + (link - 4)⟩ v
    | _ => s
  ok (if t.raw Reg.UPL_STAT = s.raw Reg.UPL_STAT then s else t.raiseF Reg.UPL_INT_STAT Fld.UPL_INT_STAT_LINK_CHANGE)

end Sys2Proof.Machine
end

