-- ==== Sys2Proof/Machine/Update.lean ====
section
/-! DEFINITION. Sys2Proof/Machine/Update.lean: verifying, activating, committing and reverting sets, chain-stitch relay and recovery mode
(R448–R468). -/

namespace Sys2Proof.Machine

/-- Change the update's state. -/
def State.updMod (s : State) (f : UpdState → UpdState) : State := { s with upd := f s.upd }

/-- STEP of UPD_STAT. -/
def State.updStep (s : State) : Nat := s.getF Reg.UPD_STAT Fld.UPD_STAT_STEP

/-- An operation ends: BUSY and STEP are 0. -/
def State.updIdle (s : State) : State :=
  ((s.updMod (fun u => { u with job := none })).setF Reg.UPD_STAT Fld.UPD_STAT_BUSY 0).setF Reg.UPD_STAT Fld.UPD_STAT_STEP 0

/-- An operation completes. -/
def State.updDone (s : State) : State :=
  (((s.updIdle).raiseF Reg.UPD_STAT Fld.UPD_STAT_DONE).setF Reg.UPD_STAT Fld.UPD_STAT_ERR 0).raiseF Reg.UPD_INT_STAT Fld.UPD_INT_STAT_DONE

/-- An operation fails, or is refused. -/
def State.updFail (s : State) (err item : Nat) : State :=
  ((((s.updIdle).raiseF Reg.UPD_STAT Fld.UPD_STAT_FAIL).setF Reg.UPD_STAT Fld.UPD_STAT_ERR err).setF Reg.UPD_STAT Fld.UPD_STAT_ERR_ITEM
    item).raiseF Reg.UPD_INT_STAT Fld.UPD_INT_STAT_FAIL

/-- GO with an operation: ignored while BUSY, and in recovery mode, where UPD_CTL does not act (R468). -/
def State.updGo (s : State) (op stg : Nat) (f : State → State) : State :=
  if s.isF Reg.UPD_STAT Fld.UPD_STAT_BUSY || s.isF Reg.UPD_RCV_STAT Fld.UPD_RCV_STAT_MODE then s
  else f ((s.setF Reg.UPD_CTL Fld.UPD_CTL_OP op).setF Reg.UPD_CTL Fld.UPD_CTL_STG stg)

/-! ## VERIFY (R454). -/

/-- VERIFY of staging slot g. -/
def State.updVerify (s : State) (g : Nat) (err : Bool) : State :=
  if err then s.updFail 10 0
  else match s.setVerify (s.stgRd g) (some s.upd.run) with
    | some (e, item) => s.updFail e item
    | none => (s.updMod (fun u => { u with verified := if u.verified.contains g then u.verified else g :: u.verified })).updDone

/-- UPD_VERIFY; `err`: the staging slot could not be read. -/
def execUpdVerify (stg : Nat) (err : Bool) (s : State) : Host.Outcome State Fault Refusal :=
  ok (s.updGo 1 (stg % 2) (fun t => t.updVerify (stg % 2) err))

/-! ## ACTIVATE (R458). -/

/-- The NOR slot not booted. -/
def State.spareSlot (s : State) : Nat := 1 - s.booted

/-- Does the set in a staging slot change HO? -/
def State.hoChanged (s : State) (g : Nat) : Bool :=
  (changed s.upd.run (setRun (s.stgRd g)) 2).any (fun c => decide (c.target / 0x1000 = 8))

/-- ACTIVATE: the copy begins. -/
def State.activate (s : State) (op g : Nat) : State :=
  if !s.upd.verified.contains g || s.session || decide (s.phase ≠ 6) || (s.slotIn 3).isSome || (decide (op = 2) && s.hoChanged g) then
    s.updFail 7 0
  else
    let i := s.spareSlot
    let t := (s.slotSet i 1 0).norErase (norSlot i) norSlotPages
    ((t.updMod (fun u => { u with job := some { op := op, stg := g, old := u.run } })).raiseF Reg.UPD_STAT Fld.UPD_STAT_BUSY).setF
      Reg.UPD_STAT Fld.UPD_STAT_STEP 2

/-- UPD_ACTIVATE_LIVE. -/
def execUpdActivateLive (stg : Nat) (s : State) : Host.Outcome State Fault Refusal := ok (s.updGo 2 (stg % 2) (fun t => t.activate 2 (stg % 2)))

/-- UPD_ACTIVATE_NEXT_START. -/
def execUpdActivateNextStart (stg : Nat) (s : State) : Host.Outcome State Fault Refusal :=
  ok (s.updGo 3 (stg % 2) (fun t => t.activate 3 (stg % 2)))

/-- Lowest SVN of the containers of a kind in a set; 0 for a kind without one. -/
def svnMin (run : List RunCont) (kind : Nat) : Nat :=
  match (run.filter (fun c => decide (c.kind = kind))).map (·.svn) with
  | [] => 0
  | a :: r => r.foldl min a

/-- A set is copied into NOR slot i, which becomes copied. -/
def State.slotCopy (s : State) (i : Nat) (rd : Nat → Bytes) : State :=
  let t := s.each (List.range (setUnits (rd 0))) (fun j u => u.norPut (norSlot i + j) (rd j))
  t.dirWrite (fun b => overlay b (16 + 48 * i) ([2, 0, 0, 0] ++ sha256 (rd 0) ++ (List.range 4).map (svnMin (setRun rd)) ++
    bytesLE 6 s.taiSec ++ [0, 0]))

/-- NOR slot i goes to trial. -/
def State.slotTrial (s : State) (i : Nat) : State :=
  (s.slotSet i 3 (s.getF Reg.UPD_TRIAL Fld.UPD_TRIAL_TRIES)).raiseF Reg.UPD_INT_STAT Fld.UPD_INT_STAT_TRIAL

/-- A block is re-pricked live with what x says, all phases after Verify (R58, R59). -/
def State.reprick (s : State) (r b : Nat) (x : Built) : State :=
  let t := if s.noDrain r b then s
    else match s.drainPort r b with
      | some n => (s.drainStart n).drainEnd n (decide (x.kind ≠ 3 ∨ x.persona = s.persona n))
      | none => if portBlock r b then s else s.dispose r b
  t.blockRelease r b x

/-- Ports whose carrying block holds a personality: the block's path, in rising port number, then the idle spares (R458 step 3). -/
def State.personaBlocks (s : State) (p : Nat) : List (Nat × Nat) :=
  ((List.range 64).filter (fun n => decide (s.persona n = p) && !s.quar (portRegion n) (s.portBlk n))).map (fun n => (portRegion n, s.portBlk n)) ++
    ([1, 2, 3, 4].filter (fun r => s.spareIdle r 16 && decide ((s.builtAt (blockPath r 16)).kind = 3 ∧ (s.builtAt (blockPath r 16)).persona = p))).map
      (fun r => (r, 16))

/-- A region is re-pricked live with container c (R67). -/
def State.regionLive (s : State) (r : Nat) (c : RunCont) : State :=
  let x := s.drawn (2 ^ 32)
  let j : LoadJob := { op := 3, region := r, block := 63, built := builtOf c, set := x }
  let bs := (List.range (blocksOf r)).filter (fun b => !(s.sparesOf r).contains b) ++ s.sparesOf r
  ((s.draw.each bs (fun b t => t.reprick r b (t.regionBlock j b))).mapsSet r c.maps).regionSet r (x % 2 ^ 16)

/-- The changed containers of a kind are put into use from a set in NOR (R458 steps 3–6). -/
def State.kindApply (s : State) (kind : Nat) (new : List RunCont) (rd : Nat → Bytes) : State :=
  let cs := changed s.upd.run new kind
  if cs.isEmpty then s
  else
    let t := match kind with
      | 3 => s.each cs (fun c u => u.each (u.personaBlocks c.persona) (fun x v => v.reprick x.1 x.2 (builtOf c)))
      | 2 => s.each regionOrder (fun r u => match cs.find? (fun (c : RunCont) => decide (c.target / 0x1000 = r)) with
          | none => u
          | some c => u.regionLive r c)
      | 1 => ({ s with ladder := { s.ladder with fieldRun := false } }.each [1, 2, 3, 4] (fun k u => u.intFlush k)).fieldImage rd
      | _ => s.hoopImage rd
    t.updMod (fun u => { u with run := inPlace u.run cs })

/-- STEP of a kind. -/
def kindStep (k : Nat) : Nat := 6 - k

/-- Kinds still to be activated after those of STEP n, in order, that change. -/
def State.nextKind (s : State) (new : List RunCont) (n : Nat) : Option Nat :=
  actOrder.find? (fun k => decide (n < kindStep k) && !(changed s.upd.run new k).isEmpty)

/-- The next step of a live activation begins, or it ends with the slot in trial. -/
def State.activateNext (s : State) (j : UpdJob) (n : Nat) : State :=
  match s.nextKind (setRun (s.norRd s.spareSlot)) n with
  | some k => s.setF Reg.UPD_STAT Fld.UPD_STAT_STEP (kindStep k)
  | none => ((s.slotTrial s.spareSlot).updMod (fun u => { u with live := true, liveTrial := true, old := j.old })).updDone

/-- The steps done are reverted: hoop, field, region, personality, with the containers of the booted slot (R459). -/
def State.revert (s : State) (old : List RunCont) : State :=
  ([0, 1, 2, 3].foldl (fun t k => t.kindApply k old (t.norRd t.booted)) s).updMod (fun u => { u with run := old })

/-- A revert that fails starts the ladder, at a step that the spec does not name (log entry 126). -/
def State.revertFailed (s : State) : State := s.draw.ladderPlain (2 + s.drawn 2) 0

/-- UPD_STEP_DONE: the step under way ends, with `err` 0 if well; `bad`: the revert of a failed step fails too. A slot whose copy fails
stays copying (log entry 127). -/
def execUpdStepDone (err item : Nat) (bad : Bool) (s : State) : Host.Outcome State Fault Refusal :=
  match s.upd.job with
  | none => ok s
  | some j =>
    let i := s.spareSlot
    if s.updStep = 2 ∧ s.tbLost then ok s
    else if s.updStep = 2 then
      let e := if err ≠ 0 then err else if s.upd.verified.contains j.stg then 0 else 14
      if e ≠ 0 then ok (s.updFail e item)
      else
        let t := s.slotCopy i (s.stgRd j.stg)
        if j.op = 3 then ok (((t.slotTrial i).updMod (fun u => { u with liveTrial := false })).updDone) else ok (t.activateNext j 2)
    else if err ≠ 0 then
      let t := s.revert j.old
      if bad then ok (((t.slotSet i 6 0).updFail err item).revertFailed) else ok ((t.slotSet i 6 0).updFail err item)
    else
      let k := 6 - s.updStep
      ok ((s.kindApply k (setRun (s.norRd i)) (s.norRd i)).activateNext j s.updStep)

/-! ## COMMIT, REVERT, recovery request (R460). -/

/-- The floor of a kind is raised to the lowest SVN of the trial set's containers, if all of them say so. -/
def State.floorUp (s : State) (run : List RunCont) (fail : Bool) (k : Nat) : State :=
  let cs := run.filter (fun c => decide (c.kind = k))
  let d := svnMin run k - s.floor k
  if cs.isEmpty || !cs.all (·.raise) || decide (d = 0) then s
  else if s.cntLeft 2 k < d then s.cntFail 1
  else if fail then (((s.floorRaise k d true).chgAppend 2 2 (s.cntLeft 2 k - d) d k).report 0x8103 6 (blockPath 8 2) [3, 2, 0]).cntFail 5
  else (s.floorRaise k d false).cntLog 2 0 d k

/-- COMMIT; `fail`: a floor's programming fails its readback. -/
def State.updCommit (s : State) (fail : Bool) : State :=
  match s.slotIn 3 with
  | none => s.updFail 7 0
  | some i =>
    let t := s.dirWrite (fun b => (if s.slotSt (1 - i) = 4 then fun x => overlay x (16 + 48 * (1 - i)) [5] else fun x => x)
      (overlay b (16 + 48 * i) [4, 0]))
    let run := setRun (t.norRd i)
    ((t.each [0, 1, 2, 3] (fun k u => u.floorUp run fail k)).updMod (fun u => { u with liveTrial := false, old := [] })).updDone

/-- UPD_COMMIT. -/
def execUpdCommit (fail : Bool) (s : State) : Host.Outcome State Fault Refusal := ok (s.updGo 4 0 (fun t => t.updCommit fail))

/-- The trial is given up: a live activation is reverted; a slot booted for trial is set to bad and the device restarts. A slot
whose trial has not begun is set to bad (log entry 127). -/
def State.trialEnd (s : State) (i : Nat) (bad : Bool) : State :=
  let t := s.slotSet i 6 0
  if s.upd.liveTrial then
    let u := ((t.revert s.upd.old).updMod (fun u => { u with liveTrial := false, old := [] })).updDone
    if bad then u.revertFailed else u
  else if s.booted = i then t.updDone.warmRestart 2 true false
  else t.updDone

/-- UPD_REVERT; `bad`: the revert fails. -/
def execUpdRevert (bad : Bool) (s : State) : Host.Outcome State Fault Refusal :=
  ok (s.updGo 5 0 (fun t => match t.slotIn 3 with
    | none => t.updFail 7 0
    | some i => t.trialEnd i bad))

/-- TRIAL_TIMEOUT: TRIAL_S seconds have passed since the trial began without COMMIT. -/
def execTrialTimeout (bad : Bool) (s : State) : Host.Outcome State Fault Refusal :=
  match s.slotIn 3 with
  | none => ok s
  | some i =>
    if s.upd.liveTrial ∨ s.booted = i then ok ((s.report 0x8107 4 (blockPath 8 0) [i]).trialEnd i bad) else ok s

/-- UPD_RECOVERY_REQUEST: OP 6. -/
def execUpdRecoveryRequest (s : State) : Host.Outcome State Fault Refusal := ok (s.updGo 6 0 (fun t => (t.setRcvReq 1).updDone))

/-- An operation code that UPD_CTL does not have. -/
def State.updBadOp (s : State) (op : Nat) : State := s.updGo op 0 (fun t => t.updFail 7 0)

/-! ## Chain-stitch relay (R461, R462). -/

/-- A STITCH body. -/
def stitchMsg (op code index : Nat) (set : Bytes) (first count : Nat) (data : Bytes) : Bytes :=
  [op, code] ++ bytesLE 2 index ++ padTo 8 set ++ bytesLE 4 first ++ bytesLE 4 count ++ data

/-- The SET_ID field of a body. -/
abbrev stitchId (b : Bytes) : Bytes := slice b 4 8

/-- SET_ID of a header as bytes. -/
def setIdB (h : Bytes) : Bytes := (sha256 h).take 8

/-- SET_ID of the running set: of the slot booted, or, after a live activation, of the other. -/
def State.runId (s : State) : Bytes := setIdB (s.norRd (if s.upd.live ∧ s.upd.run ≠ setRun (s.norRd s.booted) then s.spareSlot else s.booted) 0)

/-- Staging slots that hold a verified set of an identity. -/
def State.ownSet (s : State) (id : Bytes) : Option Nat := s.upd.verified.find? (fun g => decide (setIdB (s.stgRd g 0) = id))

/-- Send a STITCH message on a cascade port. -/
def State.stitchSay (s : State) (port op : Nat) (b : Bytes) : State := s.emit (.stitch port op b)

/-- REQUESTs for all blocks of every entry, in order, at most 4,096 blocks each. -/
def stitchAsks (h : Bytes) : List (Nat × Nat × Nat) :=
  (List.range (setEntries h).length).flatMap (fun i =>
    let n := u32 (setEntry h i) 8
    (List.range ((n + 4095) / 4096)).map (fun k => (i, 4096 * k, min 4096 (n - 4096 * k))))

/-- First fine unit of staging slot g in partition 2. -/
def State.stgUnit (s : State) (g : Nat) : Nat := g * (s.partUnits 2 / 2)

/-- STITCH_OFFER: an OFFER arrives on a cascade port. -/
def execStitchOffer (port : Nat) (b : Bytes) (s : State) : Host.Outcome State Fault Refusal :=
  let h := slice b 20 4096
  let id := stitchId b
  if u8 b 0 ≠ 1 ∨ b.length ≠ 4116 then ok s
  else if s.upd.job.isSome then ok (s.stitchSay port 5 (stitchMsg 5 7 0xFFFF id 0 0 []))
  else if id = s.runId ∨ (s.ownSet id).isSome ∨ u32 h 4092 ≠ crc32c (h.take 4092) then ok s
  else
    let g := if setIdB (s.stgRd 0 0) = s.runId then 1 else 0
    let t := (s.storePut 2 (s.stgUnit g) h).updMod (fun u => { u with
      verified := u.verified.filter (fun x => decide (x ≠ g)), stitch := some { port := port, stg := g, header := h } })
    ok (t.each (stitchAsks h) (fun x u => u.stitchSay port 2 (stitchMsg 2 0 x.1 id x.2.1 x.2.2 [])))

/-- STITCH_REQUEST: a REQUEST arrives; every block asked for that the set has is sent. -/
def execStitchRequest (port : Nat) (b : Bytes) (s : State) : Host.Outcome State Fault Refusal :=
  let id := stitchId b
  match s.ownSet id with
  | none => ok s
  | some g =>
    let h := s.stgRd g 0
    let i := u16 b 2
    let first := u32 b 12
    if u8 b 0 ≠ 2 ∨ u32 b 16 = 0 ∨ 4096 < u32 b 16 then ok s
    else if i = 0xFFFF then ok (s.stitchSay port 3 (stitchMsg 3 0 0xFFFF id 0 1 h))
    else
      let e := setEntry h i
      let n := if i < u16 h 6 then min (u32 b 16) (u32 e 8 - first) else 0
      ok (s.each (List.range n) (fun k t => t.stitchSay port 3 (stitchMsg 3 0 i id (first + k) 1 (s.stgRd g (u32 e 4 + first + k)))))

/-- STITCH_BLOCK: a BLOCK arrives; it is kept if its CRC-32C checks, and asked for again otherwise. -/
def execStitchBlock (port : Nat) (b : Bytes) (s : State) : Host.Outcome State Fault Refusal :=
  match s.upd.stitch with
  | none => ok s
  | some q =>
    let i := u16 b 2
    let e := setEntry q.header i
    let first := u32 b 12
    let d := slice b 20 4096
    if u8 b 0 ≠ 3 ∨ port ≠ q.port ∨ stitchId b ≠ setIdB q.header ∨ u16 q.header 6 ≤ i ∨ u32 e 8 ≤ first then ok s
    else if b.length ≠ 4116 ∨ !blkOk d then ok (s.stitchSay port 2 (stitchMsg 2 0 i (stitchId b) first 1 []))
    else
      let u := u32 e 4 + first
      ok ((s.storePut 2 (s.stgUnit q.stg + u) d).updMod (fun x => { x with
        verified := x.verified.filter (fun g => decide (g ≠ q.stg))
        stitch := some { q with got := if q.got.contains u then q.got else u :: q.got } }))

/-- Does this device hold every block of the set it receives? -/
def stitchWhole (q : Stitch) : Bool :=
  (setEntries q.header).all (fun e => (List.range (u32 e 8)).all (fun k => q.got.contains (u32 e 4 + k)))

/-- STITCH_DONE: every block is held, VERIFY passes, and DONE answers. -/
def execStitchDone (s : State) : Host.Outcome State Fault Refusal :=
  match s.upd.stitch with
  | none => ok s
  | some q =>
    if stitchWhole q ∧ s.upd.job.isNone ∧ s.setVerify (s.stgRd q.stg) (some s.upd.run) = none then
      ok (((s.updVerify q.stg false).updMod (fun u => { u with stitch := none })).stitchSay q.port 4
        (stitchMsg 4 0 0xFFFF (setIdB q.header) 0 0 []))
    else ok s

/-- STITCH_ABORT: an activation runs (code 7), or every block is held and VERIFY fails; ABORT answers. -/
def execStitchAbort (s : State) : Host.Outcome State Fault Refusal :=
  match s.upd.stitch with
  | none => ok s
  | some q =>
    let say (t : State) (code : Nat) : State := (t.updMod (fun u => { u with stitch := none })).stitchSay q.port 5
      (stitchMsg 5 code 0xFFFF (setIdB q.header) 0 0 [])
    if s.upd.job.isSome then ok (say s 7)
    else if stitchWhole q then
      match s.setVerify (s.stgRd q.stg) (some s.upd.run) with
      | some (e, _) => ok (say (s.updVerify q.stg false) e)
      | none => ok s
    else ok s

/-! ## ROM recovery (R465–R467). -/

/-- Recovery mode runs. -/
def State.rcvMode (s : State) : Bool := s.isF Reg.UPD_RCV_STAT Fld.UPD_RCV_STAT_MODE

/-- The result of a set that a path delivered. -/
def State.rcvResult (s : State) (path e : Nat) : State :=
  ((s.setF Reg.UPD_RCV_STAT Fld.UPD_RCV_STAT_PATH path).setF Reg.UPD_RCV_STAT Fld.UPD_RCV_STAT_RESULT e).raiseF Reg.UPD_RCV_STAT
    Fld.UPD_RCV_STAT_DONE

/-- Block i of a set of len bytes in DRAM from address 0. -/
def State.rcvRd (s : State) (len : Nat) : Nat → Bytes := fun i => padTo 4096 (s.rdMem (4096 * i) (min 4096 (len - 4096 * i)))

/-- R467: check, copy, trial, result, restart; `say` sends the RESULT frame of the UART; `bad`: the NOR write fails. -/
def State.rcvRun (s : State) (path len : Nat) (bad : Bool) (say : State → Nat → State) : State :=
  let rd := s.rcvRd len
  match s.setVerify rd none with
  | some (e, _) => say (s.rcvResult path e) e
  | none =>
    let i := if s.slotSt 0 = 4 then 1 else 0
    let t := (s.slotSet i 1 0).norErase (norSlot i) norSlotPages
    if bad then say (t.rcvResult path 13) 13
    else
      let u := ((t.slotCopy i rd).slotTrial i).rcvResult path 0
      ((say u 0).aoMod (fun a => { a with cycles := 0 })).warmRestart 2 false true

/-- RCV_GO: UPD_RCV_CTL is written with GO over PCIe or the pair link. -/
def execRcvGo (init len : Nat) (bad : Bool) (s : State) : Host.Outcome State Fault Refusal :=
  if s.rcvMode then
    ok ((s.setF Reg.UPD_RCV_CTL Fld.UPD_RCV_CTL_LEN len).rcvRun (if init = 8 then 3 else 1) (len % 2 ^ 25) bad (fun t _ => t))
  else ok s

/-- A frame of the recovery console. -/
def uartFrame (type seq off : Nat) : Bytes :=
  let m := [0xA5, type] ++ bytesLE 2 seq ++ bytesLE 4 off ++ [0, 0, 0, 0]
  m ++ bytesLE 4 (crc32c m)

/-- Does a frame's CRC check? -/
def uartGood (b : Bytes) : Bool :=
  let n := 12 + u16 b 8
  decide (u8 b 0 = 0xA5 ∧ u16 b 8 ≤ 4096 ∧ b.length = n + 4 ∧ u32 b n = crc32c (b.take n))

/-- Answer a frame. The OFFSET of ACK and NAK is not stated. -/
def State.uartSay (s : State) (type : Nat) (b : Bytes) : State := s.draw.emit (.uart (uartFrame type (u16 b 2) (s.drawn (2 ^ 32))))

/-- A frame with a bad CRC: NAK, and bytes are discarded up to the next 0xA5. -/
def State.uartBad (s : State) (b : Bytes) : State := (s.uartSay 0x82 b).updMod (fun u => { u with hunt := true })

/-- Does the recovery UART serve: in recovery mode, with its time base (R43)? -/
def State.uartOn (s : State) : Bool := s.rcvMode && !s.tbLost

/-- UART_DATA_FRAME: a frame of TYPE 1, or one with a bad CRC. -/
def execUartDataFrame (b : Bytes) (s : State) : Host.Outcome State Fault Refusal :=
  if !s.uartOn ∨ u8 b 0 ≠ 0xA5 then ok s
  else
    let t := s.updMod (fun u => { u with hunt := false })
    if !uartGood b then ok (t.uartBad b)
    else if u8 b 1 = 1 then ok ((t.wrMem (u32 b 4) (slice b 12 (u16 b 8))).uartSay 0x81 b)
    else ok s

/-- UART_END_FRAME: a frame of TYPE 2; delivery is complete. -/
def execUartEndFrame (b : Bytes) (bad : Bool) (s : State) : Host.Outcome State Fault Refusal :=
  if !s.uartOn ∨ u8 b 0 ≠ 0xA5 then ok s
  else
    let t := s.updMod (fun u => { u with hunt := false })
    if !uartGood b then ok (t.uartBad b)
    else if u8 b 1 = 2 then
      ok ((t.uartSay 0x81 b).rcvRun 2 (u32 b 4) bad (fun u e => u.emit (.uart (uartFrame 0x83 (u16 b 2) e))))
    else ok s

/-- UART_RX_TIMEOUT: 100 ms without a byte. -/
def execUartRxTimeout (s : State) : Host.Outcome State Fault Refusal := ok (if s.uartOn then s.updMod (fun u => { u with hunt := true }) else s)

end Sys2Proof.Machine
end

