-- ==== Sys2Proof/Machine/Package.lean ====
section
/-! DEFINITION. Sys2Proof/Machine/Package.lean: the reset, power-fail and backup-supply pins (R366, R457, R484, R501–R509). -/

namespace Sys2Proof.Machine

/-! ## PONRST_N (R502–R504). -/

/-- A release from PONRST_N, in the order of R502: clocks, power-cycle count, TAI from the RTC, the hoop's slots and SRAM, and then the
boot ROM. `clk` has bit d−1 set for each domain with its clock, `v` is VOUT_MODE as the governor reads it. A request of the ladder's
step 3 ends here; its escalation window runs from here (R480). -/
def State.ponRelease (s : State) (clk : Nat) (v : Option Nat) : State :=
  let ladder := s.ao.stepOpen
  let t := (s.resetTo true).setF Reg.CHIP_CLK_STAT Fld.CHIP_CLK_STAT_PRESENT clk
  let t := { t with ao := { t.ao with
    pcc := (t.ao.pcc + 1) % 2 ^ 24
    stepOpen := false
    escAgo := if ladder then some 0 else t.ao.escAgo } }
  let t := (t.rtcLoad).setF Reg.SMP_STAT Fld.SMP_STAT_PROVISIONAL (!t.ao.rtcOk).toNat
  ((t.modeCheck v).hoopUp true).bootStart (if ladder then 3 else 1) false false

/-- PONRST_RISE: PONRST_N rises. `away` is the number of RTC periods without power before it, during which the RTC and the
escalation window ran on VBAT alone; `rcv` tells that BOOT_RCV_N is low. -/
def execPonrstRise (away clk : Nat) (v : Option Nat) (rcv : Bool) (s : State) : Host.Outcome State Fault Refusal :=
  let t := { s with
    ao := { s.ao with
      rtc := if s.ao.rtcOk then s.ao.rtc + away + Int.toNat ((s.ao.trimAcc + s.ao.trim * away) / 4000000) else s.ao.rtc
      escAgo := s.ao.escAgo.map (fun n => min (n + away / 32768) 7200) }
    pins := { s.pins with rcv := rcv } }
  ok (t.ponRelease clk v)

/-- PONRST_FALL: the device is held in reset; every ball takes its state of R504, and PWR_CYCLE_REQ_N is released. -/
def execPonrstFall (s : State) : Host.Outcome State Fault Refusal :=
  let t := s.resetTo true
  ok { t with
    pins := { t.pins with reset := true }
    ao := { t.ao with pwrReq := false } }

/-- POWER_CYCLE_TIMEOUT: VCORE is still present 2 s after the request of step 3: the device resets itself as PONRST_N does, with the
request still driven (R484). -/
def execPowerCycleTimeout (clk : Nat) (v : Option Nat) (s : State) : Host.Outcome State Fault Refusal :=
  ok (if s.ao.pwrReq && s.ao.stepOpen && !s.pins.reset then s.ponRelease clk v else s)

/-! ## WARM_N (R506). -/

/-- WARM_RESET: a low of WARM_N that the filter passes, and its rise; ignored while PONRST_N is low (R502). -/
def execWarmReset (v : Option Nat) (rcv : Bool) (s : State) : Host.Outcome State Fault Refusal :=
  ok (if s.pins.reset then s
    else ({ s with pins := { s.pins with rcv := rcv } }.warmTo (some v)).bootStart 2 false false)

/-- BOOT_PFAIL_HOLD_END: PFAIL_N has been high for 100 ms, and the boot ROM that waited goes on (R508). -/
def execBootPfailHoldEnd (s : State) : Host.Outcome State Fault Refusal :=
  match s.pins.bootWait with
  | none => ok s
  | some (cause, bad, rcv) =>
    ok (if s.pins.pfail then s else ({ s with pins := { s.pins with bootWait := none } }).boot cause bad rcv 4)

/-! ## PFAIL_N (R507, R508). -/

/-- PFAIL_FALL: PFAIL_N falls. The pair device yields, the totaliser stops and stages its record, the Sampler hands its open unit
over, and the store flushes; `erasing` is the mask of dies that are erasing. An activation stops without a directory change
(R459). With the store not at PHASE 6 there is nothing to flush and the device only holds. -/
def execPfailFall (erasing : Nat) (s : State) : Host.Outcome State Fault Refusal :=
  if s.pins.pfail then ok s
  else
    let t := { s with pins := { s.pins with pfail := true } }
    let t := (t.pairYield).totPfail
    let t := t.when t.upd.job.isSome State.updIdle
    ok (if t.phase = 6 then (t.mirrorFlush).flushStart erasing else t.txenLow)

/-- PFAIL_RISE: PFAIL_N rises again. The store returns to PHASE 6 if its flush has ended, and the totaliser goes on as after an
outage; a pair device stays STALE. -/
def execPfailRise (s : State) : Host.Outcome State Fault Refusal :=
  if s.pins.pfail then
    let t := { s with pins := { s.pins with pfail := false } }
    ok ((t.when (decide (t.phase = 8)) (fun u => u.setPhase 6)).totPrise)
  else ok s

/-! ## VBAT (R366, R470). -/

/-- VBAT_DIP: VBAT leaves its range and returns: the RTC's time and everything kept on VBAT is lost (log entry 116). -/
def execVbatDip (s : State) : Host.Outcome State Fault Refusal :=
  ok { s with ao := { sealOpen := s.ao.sealOpen } }

end Sys2Proof.Machine
end

