-- ==== Sys2Proof/Machine/RegView.lean ====
section
/-! DEFINITION. Sys2Proof/Machine/RegView.lean: which register an offset names, and what each register reads (R10, R11, R14, R30,
R51, R187, R425). Fields that other parts of the state hold are laid over the stored word here. -/

namespace Sys2Proof.Machine

/-! ## Which register an offset names. -/

/-- The block that holds the registers at an offset below the port windows, as region and block; none for the chip's own. -/
def regBlock (off : Nat) : Option (Nat × Nat) :=
  match off / 0x10000 with
  | 1 => some (7, 6)
  | 2 => some (9, 2)
  | 3 => some (7, 5)
  | 4 => some (7, 7)
  | 5 => some (8, if off % 0x1000 < 0x100 ∨ 0x828 ≤ off % 0x1000 then 1 else 2)
  | 6 => some (5, 27)
  | 7 => some (5, 30)
  | 8 => some (8, 3)
  | 9 => some (6, 0)
  | 10 => some (9, if off < 0x0A0040 then (if off < 0x0A0010 then 5 else (off - 0x0A0010) / 16) else 5)
  | 11 => some (8, 4)
  | _ => none

/-- Does the block that holds an offset's registers exist (R51)? The Mender's registers exist while a Mender unit does. -/
def State.blockThere (s : State) (off : Nat) : Bool :=
  if 0x060800 ≤ off ∧ off < 0x061000 then s.menderThere
  else match regBlock off with
    | none => true
    | some (r, b) => s.exists_ r b

/-- The key of the register at a window offset: none where the offset is unassigned or its block is blank. The parameter block of a
port is that of its personality. -/
def State.regKey (s : State) (off : Nat) : Option Nat :=
  if off % 4 ≠ 0 then none
  else
    let k := if off < 0x100000 then (if s.blockThere off then off else 0xFFFFFFFF)
      else if 0x140000 ≤ off then 0xFFFFFFFF
      else
        let n := (off - 0x100000) / 0x1000
        let o := off % 0x1000
        if !s.exists_ (portRegion n) (n % 16) then 0xFFFFFFFF
        else if o < 0x100 then off
        else match s.persona n with
          | 1 => Reg.lnBase n + o
          | 2 | 3 => Reg.airBase n + o
          | 4 => Reg.casBase n + o
          | _ => 0xFFFFFFFF
    if k = 0xFFFFFFFF then none else (Reg.specOf k).map (fun _ => k)

/-- Is a register hoop-only as a whole, for reads too (R420, R425)? -/
def hoopWhole (k : Nat) : Bool := decide ((0x050000 ≤ k ∧ k < 0x050800) ∨ (0x010200 ≤ k ∧ k < 0x010210))

/-- In recovery mode only the recovery registers and CHIP_ID act for the PCIe host, and of the update block only they act
(R465, R468). -/
def State.rcvShuts (s : State) (init k : Nat) : Bool :=
  s.isF Reg.UPD_RCV_STAT Fld.UPD_RCV_STAT_MODE &&
    ((decide (0x0B0000 ≤ k ∧ k < 0x0C0000) && decide (k ≠ Reg.UPD_RCV_CTL ∧ k ≠ Reg.UPD_RCV_STAT)) ||
      (decide (init = 7) && decide (k ≠ Reg.CHIP_ID) && decide (k < 0x0B0000 ∨ 0x0C0000 ≤ k)))

/-! ## What registers read. -/

/-- A word with values laid over fields. -/
def flds (w : Word) (l : List (BitRange × Nat)) : Word := l.foldl (fun a e => fput e.1 a e.2) w

/-- Chip registers. -/
def State.viewChip (s : State) (k : Nat) (w : Word) : Word :=
  if k = Reg.CHIP_GOV_STAT then
    flds w [(Fld.CHIP_GOV_STAT_AT_VMAX, b2n (decide (s.vset = s.vmax))), (Fld.CHIP_GOV_STAT_AT_VMIN, b2n (decide (s.vset = s.vmin)))]
  else w

/-- Bits i of a word for which p holds of 32·j + i. -/
def wordBits (p : Nat → Bool) (j : Nat) : Word := word (((List.range 32).filter (fun i => p (32 * j + i))).foldl (fun a i => a + 2 ^ i) 0)

/-- The word of a target's status (R412–R416, R419). -/
def State.tgtStat (s : State) (t : Nat) (w : Word) : Word :=
  let top := (s.stack t).headD (0x3FF, 0)
  flds w [(Fld.INT_TGT_STAT_SLEEP, b2n (decide (t < 5) && s.intr.sleep.contains t)),
    (Fld.INT_TGT_STAT_LINE, b2n (s.intLine t)), (Fld.INT_TGT_STAT_TOP_SRC, top.1),
    (Fld.INT_TGT_STAT_TOP_PRI, top.2), (Fld.INT_TGT_STAT_DEPTH, (s.stack t).length)]

/-- Gathering registers. -/
def State.viewInt (s : State) (k : Nat) (w : Word) : Word :=
  let o := k % 0x10000
  if k = Reg.INT_SRC_CFG then
    let n := s.getF Reg.INT_SRC_SEL Fld.INT_SRC_SEL_SRC
    flds (s.srcCfg n) [(Fld.INT_SRC_CFG_PEND, b2n (s.pend n)), (Fld.INT_SRC_CFG_CLAIMED, b2n (s.claimed n))]
  else if 0x40 ≤ o ∧ o < 0x80 then wordBits s.pend ((o - 0x40) / 4)
  else if 0x80 ≤ o ∧ o < 0xC0 then wordBits s.claimed ((o - 0x80) / 4)
  else if 0x100 ≤ o ∧ o < 0x180 then flds w [(Fld.INT_HOLD_REMAIN, s.holdLeft ((o - 0x100) / 4))]
  else if 0x200 ≤ o ∧ o % 16 = 4 then s.tgtStat ((o - 0x200) / 16) w
  else w

/-- Time Unit registers. -/
def State.viewTime (s : State) (k : Nat) (w : Word) : Word :=
  let t := s.time
  if k = Reg.TU_STAT then
    flds w [(Fld.TU_STAT_RTC_OK, b2n s.ao.rtcOk), (Fld.TU_STAT_LEAP_PEND, b2n (decide (s.num Reg.TU_LEAP_AT ≠ 0))),
      (Fld.TU_STAT_QUAL, if s.tbLost then 5 else s.getF Reg.TU_STAT Fld.TU_STAT_QUAL)]
  else if k = Reg.TU_SCHED then word s.now
  else if k = Reg.TU_TAI_NS then word t.latNs
  else if k = Reg.TU_TAI_S_LO then word t.latS
  else if k = Reg.TU_TAI_S_HI then word (t.latS / 2 ^ 32 % 2 ^ 16)
  else if k = Reg.TU_AFE_ADJ then
    let v := tget (fun _ => 0) t.afe (s.getF Reg.TU_AFE_ADJ Fld.TU_AFE_ADJ_PORT)
    flds w [(Fld.TU_AFE_ADJ_TX_ADJ, v / 4096), (Fld.TU_AFE_ADJ_RX_ADJ, v % 4096)]
  else if k = 0x020060 then word ((s.txts 0).headD (0, 0)).1
  else if k = 0x020064 then word ((s.txts 0).headD (0, 0)).2
  else if k = 0x020068 then word ((s.txts 1).headD (0, 0)).1
  else if k = 0x02006C then word ((s.txts 1).headD (0, 0)).2
  else w

/-- Shuttle registers. -/
def State.viewShu (s : State) (k : Nat) (w : Word) : Word :=
  if k = Reg.SHU_STAT then flds w [(Fld.SHU_STAT_STOPPED, s.chCount 4 4), (Fld.SHU_STAT_ACTIVE, s.chCount 2 3)] else w

/-- Sampler, ladder and pair registers. -/
def State.viewSmp (s : State) (k : Nat) (w : Word) : Word :=
  if k = Reg.SMP_STAT then
    flds w [(Fld.SMP_STAT_MIRRORING, b2n s.mirrorOn), (Fld.SMP_STAT_FIFO_LEVEL, min s.smp.fifo.length 256), (Fld.SMP_STAT_USED, s.smpUsed)]
  else if k = Reg.SMP_SEQ then word s.ao.seq
  else if k = Reg.SMP_RD_DATA then word (u32 s.smp.rdBuf (4 * s.getF Reg.SMP_RD_SEL Fld.SMP_RD_SEL_WORD))
  else if k = Reg.SMP_OPSEC then word s.ao.opsec
  else if k = Reg.SMP_PCC then word (s.ao.opsec / 2 ^ 32 % 256 * 2 ^ 24 + s.ao.pcc % 2 ^ 24)
  else if k = Reg.SMP_RCV_STAT then
    flds w [(Fld.SMP_RCV_STAT_LAST_STEP, s.ao.lastStep), (Fld.SMP_RCV_STAT_CYCLES, s.ao.cycles),
      (Fld.SMP_RCV_STAT_WARM_CNT, s.ao.warmCnt), (Fld.SMP_RCV_STAT_ESC_LEFT, s.escLeft)]
  else if k = Reg.SMP_PAIR_STAT then flds w [(Fld.SMP_PAIR_STAT_ROLE, s.hoop.pairRole)]
  else if k = Reg.SMP_PAIR_EPOCH then word s.ao.epoch
  else if k = Reg.SMP_PAIR_SYNC then flds w [(Fld.SMP_PAIR_SYNC_MIB, s.pair.bulk / 2 ^ 20)]
  else w

/-- Counted settings as the hoop's registers show them. -/
def State.viewHoop (s : State) (k : Nat) (w : Word) : Word :=
  if k = Reg.NDL_CNT_LEFT then s.cntLeftWord
  else if k = Reg.NDL_CNT_FLOOR then s.cntFloorWord
  else if 0x050818 ≤ k ∧ k < 0x050828 then s.cntDomainWord ((k - 0x050818) / 4)
  else w

/-- Intake and Mender registers. -/
def State.viewInk (s : State) (k : Nat) (w : Word) : Word :=
  if k = Reg.INK_STAT then
    let pool := s.num Reg.INK_POOL
    let lanes := (List.range 18).filter (fun l => s.laneServes l)
    flds w [(Fld.INK_STAT_IDLE, b2n s.inkIdle),
      (Fld.INK_STAT_POOL_EMPTY_PORT, b2n (lanes.all (fun l => decide (pool / 2 ^ l % 2 = 1)))),
      (Fld.INK_STAT_POOL_EMPTY_ING, b2n (lanes.all (fun l => decide (pool / 2 ^ l % 2 = 0)))),
      (Fld.INK_STAT_FW_FULL, b2n s.fwFull), (Fld.INK_STAT_HOLD_FULL, b2n (decide (4096 ≤ s.ink.holds.length))),
      (Fld.INK_STAT_HOLD_USED, s.ink.holds.length)]
  else if 0x0600C0 ≤ k ∧ k < 0x060100 then flds w [(Fld.INK_ING_LEVEL, s.ingLevel ((k - 0x0600C0) / 4))]
  else if k = Reg.MND_STAT then
    let idle := !s.isF Reg.MND_CTL Fld.MND_CTL_EN && s.mnd.jobs.all (fun e => e.2.isNone)
    let units := ((List.range 9).filter (fun i => s.unitServes (18 + i))).foldl (fun a i => a + 2 ^ i) 0
    flds w [(Fld.MND_STAT_IDLE, b2n idle), (Fld.MND_STAT_UNITS, units)]
  else if k = Reg.MND_CLASS_DATA then word (u32 s.mnd.staging (4 * s.classWord))
  else w

/-- Totaliser registers. -/
def State.viewTot (s : State) (k : Nat) (w : Word) : Word :=
  if k = Reg.TOT_STAT then flds w [(Fld.TOT_STAT_TAI_OK, b2n s.taiValid)]
  else if k = Reg.TOT_SEAL_STAT then
    flds w [(Fld.TOT_SEAL_STAT_UNSEAL_LEFT, s.cntLeft 5 0), (Fld.TOT_SEAL_STAT_LEFT_MIN, s.sessLeft)]
  else if k = Reg.TOT_CAL_DATA then
    let c := if s.isF Reg.TOT_CAL_SEL Fld.TOT_CAL_SEL_TARGET then s.tot.live else s.tot.staging
    word (calWord c (s.getF Reg.TOT_CAL_SEL Fld.TOT_CAL_SEL_WORD))
  else if k = Reg.TOT_BILL_DATA then word (u32 s.tot.billBuf (4 * s.getF Reg.TOT_BILL_SEL Fld.TOT_BILL_SEL_WORD))
  else w

/-- Store registers. -/
def State.viewSto (s : State) (k : Nat) (w : Word) : Word :=
  if k = Reg.STO_STAT then flds w [(Fld.STO_STAT_FREE_SB, if s.phase = 0 then 0 else s.freeSb)]
  else if k = Reg.STO_DIRTY then flds w [(Fld.STO_DIRTY_DIRTY_KIB, s.dirtyKiB)]
  else if k = Reg.STO_WL then flds w [(Fld.STO_WL_SPREAD, s.ecMax - s.ecMin)]
  else if k = Reg.STO_SLC then flds w [(Fld.STO_SLC_SLC_USED_PM, s.slcUsedPm)]
  else if k = Reg.STO_EC then flds w [(Fld.STO_EC_EC_MAX, s.ecMax), (Fld.STO_EC_EC_MIN, s.ecMin)]
  else w

/-- Update registers. -/
def State.viewUpd (s : State) (k : Nat) (w : Word) : Word :=
  if k = Reg.UPD_SLOT_STAT then
    flds w [(Fld.UPD_SLOT_STAT_A_STATE, s.slotSt 0), (Fld.UPD_SLOT_STAT_A_TRIES, s.slotTries 0),
      (Fld.UPD_SLOT_STAT_B_STATE, s.slotSt 1), (Fld.UPD_SLOT_STAT_B_TRIES, s.slotTries 1),
      (Fld.UPD_SLOT_STAT_RCV_REQ, b2n s.rcvReq)]
  else w

/-- A tone map as the 64-byte record of R95, with the number of its active carriers; a map of TMI 0 is none. -/
def toneRec (plan act : Nat) (m : ToneMap) : Bytes :=
  if m.tmi = 0 then List.replicate 64 0
  else
    [m.tmi, plan, m.mode, m.code] ++ bytesLE 2 act ++ [unsigned 8 m.margin, 0] ++ bytesLE 53 m.mask ++ [0, 0, 0]

/-- Bits of PORT_LN_NOTCH_j that stand for carriers of the plan; the others are reserved (R13, R136). -/
def State.notchBits (s : State) (n j : Nat) : Nat := min 32 (s.lnNc n - 32 * j)

/-- Port registers, common and of the line, air and cascade personalities; o is the offset in the port's window. -/
def State.viewPort (s : State) (k : Nat) (w : Word) : Word :=
  let n := (k % 0x1000000 - 0x100000) / 0x1000
  if k = Reg.PORT_ID n then flds w [(Fld.PORT_ID_BLOCK, s.portBlk n)]
  else if k = Reg.PORT_STAT n then
    let p := s.port n
    if s.persona n = 0 then flds w [(Fld.PORT_STAT_RX_PKTS, 0), (Fld.PORT_STAT_TX_PKTS, 0), (Fld.PORT_STAT_TX_FREE, 0)]
    else
      let w := flds w [(Fld.PORT_STAT_RX_PKTS, p.rxq.length), (Fld.PORT_STAT_TX_PKTS, p.txq.length), (Fld.PORT_STAT_TX_FREE, s.txFree n)]
      if s.persona n = 4 then flds w [(Fld.PORT_STAT_TX_ACTIVE, (s.casActive n).toNat)] else w
  else if k = Reg.PORT_LN_TM_DATA n then
    let tmi := s.getF (Reg.PORT_LN_TM_SEL n) Fld.PORT_LN_TM_SEL_TMI
    let l := (s.port n).line
    let m := if s.isF (Reg.PORT_LN_TM_SEL n) Fld.PORT_LN_TM_SEL_SIDE
      then tget (fun _ => ({} : ToneMap)) l.peers (s.getF (Reg.PORT_LN_TM_USE n) Fld.PORT_LN_TM_USE_PEER)
      else tget (fun _ => ({} : ToneMap)) l.maps tmi
    let b := if m.tmi = tmi then toneRec (s.getF (Reg.PORT_LN_CFG n) Fld.PORT_LN_CFG_PLAN) (s.lnActive n (some m.mask)) m
      else List.replicate 64 0
    word (u32 b (4 * s.getF (Reg.PORT_LN_TM_SEL n) Fld.PORT_LN_TM_SEL_WORD))
  else if k = Reg.PORT_LN_TM_USE n then
    flds w [(Fld.PORT_LN_TM_USE_USED, ((List.range 15).filter (fun i => s.lnReferenced n (i + 1))).foldl (fun a i => a + 2 ^ i) 0)]
  else if s.persona n = 1 ∧ Reg.PORT_LN_NOTCH n 0 ≤ k ∧ k ≤ Reg.PORT_LN_NOTCH n 13 then
    word (w.toNat % 2 ^ s.notchBits n ((k - Reg.PORT_LN_NOTCH n 0) / 4))
  else if k = Reg.PORT_AIR_SELF n then flds w [(Fld.PORT_AIR_SELF_ADDR, s.airSelf n)]
  else if k = Reg.PORT_LINK_Q n ∧ s.persona n = 4 then flds w [(Fld.PORT_LINK_Q_LEVEL_LAST, (s.casViol n).length)]
  else if k = Reg.PORT_CAS_STAT n then flds w [(Fld.PORT_CAS_STAT_CREDIT, s.casCredit n)]
  else w

/-- What the register of key k reads; write-only fields and fields that only start an action are never stored, so they read 0. -/
def State.view (s : State) (k : Nat) : Word :=
  let w := s.raw k
  if 0x100000 ≤ k then s.viewPort k w
  else match k / 0x10000 with
    | 0 => s.viewChip k w
    | 1 => s.viewInt k w
    | 2 => s.viewTime k w
    | 3 => s.viewShu k w
    | 4 => s.viewSmp k w
    | 5 => s.viewHoop k w
    | 6 => s.viewInk k w
    | 8 => s.viewTot k w
    | 9 => s.viewSto k w
    | 11 => s.viewUpd k w
    | _ => w

end Sys2Proof.Machine
end

