-- ==== Sys2Proof/Machine/RegRange.lean ====
section
/-! DEFINITION. Sys2Proof/Machine/RegRange.lean: ranges and lists of register fields whose breach refuses a write whole (R523, and
the register tables), and fields and registers that take writes only under a condition. -/

namespace Sys2Proof.Machine

/-- Is a field within lo … hi? -/
def inR (w : Word) (f : BitRange) (lo hi : Nat) : Bool := decide (lo ≤ fget f w ∧ fget f w ≤ hi)

/-- Port registers: PORT_CTL (R187). -/
def rangePort (n k : Nat) (w : Word) : Bool :=
  if k = Reg.PORT_CTL n then inR w Fld.PORT_CTL_PARK_MAX 0 40
  else if k = Reg.PORT_DESC_BASE n then inR w Fld.PORT_DESC_BASE_RING_LOG2 4 12
  else true

/-- Line parameters (R108, R136). -/
def State.rangeLine (s : State) (n k : Nat) (w : Word) : Bool :=
  if k = Reg.PORT_LN_CFG n then
    inR w Fld.PORT_LN_CFG_DET_THR 32 255 && inR w Fld.PORT_LN_CFG_STEP_THR 32 255 && inR w Fld.PORT_LN_CFG_TM_MARGIN 0 20
  else if k = Reg.PORT_LN_TX n then inR w Fld.PORT_LN_TX_TX_RMS 64 1024 && inR w Fld.PORT_LN_TX_TXEN_LEAD 10 1000
  else if k = Reg.PORT_LN_RXT n then inR w Fld.PORT_LN_RXT_RX_HOLDOFF 0 1000 && inR w Fld.PORT_LN_RXT_TXEN_LAG 0 200
  else if k = Reg.PORT_LN_IMP n then
    inR w Fld.PORT_LN_IMP_IMP_THR 1 2048 && inR w Fld.PORT_LN_IMP_IMP_BLANK 0 400 && inR w Fld.PORT_LN_IMP_IMP_GUARD 0 200
  else if k = Reg.PORT_LN_DL n then inR w Fld.PORT_LN_DL_DL_TX 0 1510 && inR w Fld.PORT_LN_DL_DL_RX 1000 3020
  else if Reg.PORT_LN_NOTCH n 0 ≤ k ∧ k ≤ Reg.PORT_LN_NOTCH n 13 then
    let j := (k - Reg.PORT_LN_NOTCH n 0) / 4
    decide (32 ≤ ((List.range (s.lnNc n)).filter (fun c => if c / 32 = j then !bit w (c % 32) else !s.lnNotched n c)).length)
  else if k = Reg.PORT_LN_ACC_T n then
    inR w Fld.PORT_LN_ACC_T_SLOT 1600 10000 && inR w Fld.PORT_LN_ACC_T_IFS 1440 10000 &&
      decide (s.getF (Reg.PORT_LN_TX n) Fld.PORT_LN_TX_TXEN_LEAD + 1440 ≤ fget Fld.PORT_LN_ACC_T_SLOT w)
  else if k = Reg.PORT_LN_ACC_W n then
    inR w Fld.PORT_LN_ACC_W_NSLOT_3 1 32 && inR w Fld.PORT_LN_ACC_W_NSLOT_2 1 32 && inR w Fld.PORT_LN_ACC_W_NSLOT_1 1 32 &&
      inR w Fld.PORT_LN_ACC_W_NSLOT_0 1 32
  else if k = Reg.PORT_LN_ACK_T n then inR w Fld.PORT_LN_ACK_T_ACK_GAP 2500 10000 && inR w Fld.PORT_LN_ACK_T_ACK_DET 5500 20000
  else if k = Reg.PORT_LN_RETRY n then
    inR w Fld.PORT_LN_RETRY_CW_MAX 8 255 && inR w Fld.PORT_LN_RETRY_MAX_RETRY 0 15 && inR w Fld.PORT_LN_RETRY_FALLBACK_AFTER 0 15 &&
      inR w Fld.PORT_LN_RETRY_RSP_REP 1 2
  else if k = Reg.PORT_LN_SEG n then
    inR w Fld.PORT_LN_SEG_SEG_NSYM 16 384 && inR w Fld.PORT_LN_SEG_ILV_MAX 1 384 && inR w Fld.PORT_LN_SEG_REASM_TO 1 60 &&
      inR w Fld.PORT_LN_SEG_DUP_LIFE 1 60
  else if k = Reg.PORT_LN_TM_SEL n then inR w Fld.PORT_LN_TM_SEL_TMI 1 15
  else if k = Reg.PORT_LN_FLOOD n then inR w Fld.PORT_LN_FLOOD_FLOOD_TTL 1 15
  else true

/-- R147: with w in register k, does a coordinator's slot hold a whole beacon? -/
def State.beaconFits (s : State) (n k : Nat) (w : Word) : Bool :=
  let t := s.wr k w
  let ns := (t.airNs n (if t.isF (Reg.PORT_AIR_CFG n) Fld.PORT_AIR_CFG_FCS2 then 35 else 37)).2
  decide (s.persona n ≠ 2) || decide
    ((t.getF (Reg.PORT_AIR_WAKE n) Fld.PORT_AIR_WAKE_TXEN_LEAD * 1000 + ns) * 64 * 2 ^ 20 ≤
      2 ^ t.getF (Reg.PORT_AIR_CYC n) Fld.PORT_AIR_CYC_CYC_LOG2 * 1000000000)

/-- Air parameters (R147, R171). -/
def State.rangeAir (s : State) (n k : Nat) (w : Word) : Bool :=
  if k = Reg.PORT_AIR_CFG n then
    let p := fget Fld.PORT_AIR_CFG_PHY_MODE w
    decide (fget Fld.PORT_AIR_CFG_PAN_ID w ≠ 0xFFFF) && decide (p ≤ 5) && (decide (p ≠ 4) || inR w Fld.PORT_AIR_CFG_MCS 1 6) &&
      (decide (p ≠ 5) || inR w Fld.PORT_AIR_CFG_MCS 2 6) && s.beaconFits n k w
  else if k = Reg.PORT_AIR_CYC n then
    inR w Fld.PORT_AIR_CYC_CYC_LOG2 18 22 && inR w Fld.PORT_AIR_CYC_NB 0 8 && inR w Fld.PORT_AIR_CYC_NR 0 32 &&
      decide (fget Fld.PORT_AIR_CYC_NB w + fget Fld.PORT_AIR_CYC_NR w ≤ 56) && s.beaconFits n k w
  else if k = Reg.PORT_AIR_BCN_OFS n then
    decide (fget Fld.PORT_AIR_BCN_OFS_OFS w < 2 ^ s.getF (Reg.PORT_AIR_CYC n) Fld.PORT_AIR_CYC_CYC_LOG2)
  else if k = Reg.PORT_AIR_CSMA n then
    let m := fget Fld.PORT_AIR_CSMA_MAX_BE w
    inR w Fld.PORT_AIR_CSMA_MAX_CSMA 0 8 && inR w Fld.PORT_AIR_CSMA_MAX_BE 3 8 && inR w Fld.PORT_AIR_CSMA_MIN_BE_3 0 m &&
      inR w Fld.PORT_AIR_CSMA_MIN_BE_2 0 m && inR w Fld.PORT_AIR_CSMA_MIN_BE_1 0 m && inR w Fld.PORT_AIR_CSMA_MIN_BE_0 0 m
  else if k = Reg.PORT_AIR_TIMING n then
    let e := signed 8 (fget Fld.PORT_AIR_TIMING_ED_THR w)
    inR w Fld.PORT_AIR_TIMING_BO_UNIT 256 4095 && inR w Fld.PORT_AIR_TIMING_CCA_TIME 100 1000 && decide (-100 ≤ e ∧ e ≤ -10)
  else if k = Reg.PORT_AIR_ACK n then
    inR w Fld.PORT_AIR_ACK_ACK_GAP 500 5000 && inR w Fld.PORT_AIR_ACK_ACK_WAIT 1000 20000 &&
      decide (s.getF (Reg.PORT_AIR_WAKE n) Fld.PORT_AIR_WAKE_TXEN_LEAD < fget Fld.PORT_AIR_ACK_ACK_GAP w)
  else if k = Reg.PORT_AIR_GUARD n then
    inR w Fld.PORT_AIR_GUARD_GMAX 100 2000 && inR w Fld.PORT_AIR_GUARD_DRIFT 1 200 && inR w Fld.PORT_AIR_GUARD_G0 100 4095
  else if k = Reg.PORT_AIR_WAKE n then
    inR w Fld.PORT_AIR_WAKE_WUT_LEN 1 12 && inR w Fld.PORT_AIR_WAKE_TXEN_LEAD 10 255 && inR w Fld.PORT_AIR_WAKE_WUT_GAP 100 5000 &&
      s.beaconFits n k w
  else if k = Reg.PORT_AIR_MEMBER n then inR w Fld.PORT_AIR_MEMBER_SCAN_LEN 10 3600 && inR w Fld.PORT_AIR_MEMBER_MBR_WIN 500 20000
  else if k = Reg.PORT_AIR_FLOOD n then inR w Fld.PORT_AIR_FLOOD_FLOOD_TTL 1 15
  else true

/-- Cascade parameters (R197). -/
def rangeCas (n k : Nat) (w : Word) : Bool :=
  if k = Reg.PORT_CAS_CFG n then inR w Fld.PORT_CAS_CFG_MAX_RESEND 0 15 && inR w Fld.PORT_CAS_CFG_COMMIT_TO 1 1000
  else if k = Reg.PORT_CAS_ACK n then inR w Fld.PORT_CAS_ACK_ACK_DELAY 10 10000 && inR w Fld.PORT_CAS_ACK_ACK_BATCH 1 64
  else true

/-- Time Unit (R356, R363–R365). -/
def State.rangeTime (s : State) (k : Nat) (w : Word) : Bool :=
  let o := k % 0x10000
  let c := (o - 0x100) / 16
  if k = Reg.TU_SERVO then
    inR w Fld.TU_SERVO_FMAX_PPM 1 200 && inR w Fld.TU_SERVO_LOCK_NS 1 1023 && inR w Fld.TU_SERVO_STEP_US 1 1023
  else if k = Reg.TU_SRC_CFG then inR w Fld.TU_SRC_CFG_HOLD_S 1 63 && inR w Fld.TU_SRC_CFG_PPS_WIDTH 1 255
  else if 0x100 ≤ o ∧ o < 0x180 ∧ o % 16 = 4 then decide (64 ≤ w.toNat ∧ w.toNat ≤ 2 ^ 31)
  else if 0x100 ≤ o ∧ o < 0x180 ∧ o % 16 = 8 then
    let per := s.num (Reg.TU_CMP_PER c)
    inR w Fld.TU_CMP_CTL_OUT 0 2 && inR w Fld.TU_CMP_CTL_WIDTH 1 65535 &&
      !(decide (fget Fld.TU_CMP_CTL_EN w = 1 ∧ fget Fld.TU_CMP_CTL_PERIODIC w = 1) && !decide (64 ≤ per ∧ per ≤ 2 ^ 31))
  else true

/-- Sampler, ladder, pair (R471, R480, R489, R494). -/
def rangeSmp (k : Nat) (w : Word) : Bool :=
  if k = Reg.SMP_CTL then inR w Fld.SMP_CTL_REPEAT_WIN 1 3600
  else if k = Reg.SMP_RCV_CTL then inR w Fld.SMP_RCV_CTL_ESC_WIN 60 7200
  else if k = Reg.SMP_PAIR_CTL then inR w Fld.SMP_PAIR_CTL_MIRROR_TO 1 20 && inR w Fld.SMP_PAIR_CTL_RESYNC_MBPS 100 4000
  else true

/-- Intake and Mender (R214, R220, R221, R230). -/
def rangeInk (k : Nat) (w : Word) : Bool :=
  if k = Reg.INK_CTL then inR w Fld.INK_CTL_REORDER_W 1 32 && inR w Fld.INK_CTL_CAS_WEIGHT 1 15
  else if k = Reg.INK_FW_BASE_LO then inR w Fld.INK_FW_BASE_LO_RING_LOG2 6 14
  else if k = Reg.INK_PROT_BASE_LO then inR w Fld.INK_PROT_BASE_LO_PRING_LOG2 4 12
  else if k = Reg.MND_CTL then inR w Fld.MND_CTL_TIME_FUT 0 60
  else true

/-- Freeze periods of R256. -/
abbrev freezePeriods : List Nat := [1, 2, 3, 4, 5, 6, 10, 12, 15, 20, 30, 60]

/-- Darner (R256, R266). -/
def State.rangeDrn (s : State) (k : Nat) (w : Word) : Bool :=
  if k = Reg.DRN_FRZ_CTL then
    freezePeriods.contains (fget Fld.DRN_FRZ_CTL_PERIOD_MIN w) && inR w Fld.DRN_FRZ_CTL_LEAD_S 1 40 &&
      inR w Fld.DRN_FRZ_CTL_PREP_MS 100 10000 &&
      decide (s.getF Reg.DRN_FRZ_COLLECT Fld.DRN_FRZ_COLLECT_COLLECT_S < fget Fld.DRN_FRZ_CTL_PERIOD_MIN w * 60)
  else if k = Reg.DRN_FRZ_COLLECT then
    decide (10 ≤ fget Fld.DRN_FRZ_COLLECT_COLLECT_S w ∧
      fget Fld.DRN_FRZ_COLLECT_COLLECT_S w < s.getF Reg.DRN_FRZ_CTL Fld.DRN_FRZ_CTL_PERIOD_MIN * 60) &&
      inR w Fld.DRN_FRZ_COLLECT_ANS_WIN 1 255 && decide (fget Fld.DRN_FRZ_COLLECT_CHMASK w % 2 = 1)
  else if k = Reg.DRN_CUSUM then decide (fget Fld.DRN_CUSUM_H w ≠ 0)
  else if k = Reg.DRN_SUSP then decide (fget Fld.DRN_SUSP_SUSP_THR w ≠ 0)
  else true

/-- Totaliser (R328, R339). -/
def rangeTot (k : Nat) (w : Word) : Bool :=
  if k = Reg.TOT_SEAL_CTL then inR w Fld.TOT_SEAL_CTL_SESSION_TO 60 14400
  else if k = Reg.TOT_DEM then
    let n := fget Fld.TOT_DEM_DEM_N w
    let m := fget Fld.TOT_DEM_DEM_SUB w
    decide (1 ≤ n ∧ n ≤ 15 ∧ m ≠ 0 ∧ 60 % m = 0) && (decide (fget Fld.TOT_DEM_SLIDE w = 1) || decide (1440 % (n * m) = 0))
  else true

/-- Store (R289–R294, R299–R301, R307). -/
def State.rangeSto (s : State) (k : Nat) (w : Word) : Bool :=
  if k = Reg.STO_DIRTY then
    let top := if s.getF Reg.STO_NAND Fld.STO_NAND_SLC_PAGES ≠ 0 ∨ s.phase = 0 then 10
      else if s.getF Reg.STO_NAND Fld.STO_NAND_CH_PRESENT = 3 then 5 else 2
    inR w Fld.STO_DIRTY_DIRTY_MAX 1 top && inR w Fld.STO_DIRTY_UNIT_WAIT 10 255
  else if k = Reg.STO_CKPT then inR w Fld.STO_CKPT_JRNL_MAX 1 64 && inR w Fld.STO_CKPT_CKPT_S 60 3600
  else if k = Reg.STO_GC_CTL then
    let u := fget Fld.STO_GC_CTL_GC_URGENT w
    let a := fget Fld.STO_GC_CTL_GC_START w
    decide (5 ≤ u ∧ u < a ∧ a < fget Fld.STO_GC_CTL_GC_STOP w) && inR w Fld.STO_GC_CTL_VERIFY_BITS 0 96
  else if k = Reg.STO_WL then inR w Fld.STO_WL_WL_SPREAD 20 5000
  else if k = Reg.STO_SLC then inR w Fld.STO_SLC_SLC_PCT 0 8 && inR w Fld.STO_SLC_FOLD_PCT 50 95
  else if k = Reg.STO_RING_LO 0 ∨ k = Reg.STO_RING_LO 1 then inR w Fld.STO_RING_LO_RING_LOG2 4 12
  else true

/-- Roles of a session: 0 = public to 5 = metrology, 7 = none (R376). -/
def roleOk (v : Nat) : Bool := decide (v ≤ 5 ∨ v = 7)

/-- Uplinks (R371, R376, R382–R384). -/
def rangeUpl (k : Nat) (w : Word) : Bool :=
  if k = Reg.UPL_RXR 0 ∨ k = Reg.UPL_RXR 1 ∨ k = Reg.UPL_TXR 0 ∨ k = Reg.UPL_TXR 1 then inR w Fld.UPL_RXR_RING_LOG2 4 12
  else if k = Reg.UPL_EXP_CTL then inR w Fld.UPL_EXP_CTL_BATCH_MAX 1 4095 && inR w Fld.UPL_EXP_CTL_BATCH_WAIT 10 10000
  else if 0x0A0090 ≤ k ∧ k < 0x0A00B0 ∧ k % 8 = 0 then inR w Fld.UPL_PART_CFG_UPLINK 0 1 && inR w Fld.UPL_PART_CFG_WINDOW 1 64
  else if Reg.UPL_ROLE 0 ≤ k ∧ k ≤ Reg.UPL_ROLE 7 then (List.range 8).all (fun i => roleOk (fget ⟨4 * i + 3, 4 * i⟩ w))
  else true

/-- Update (R460, R467). -/
def rangeUpd (k : Nat) (w : Word) : Bool :=
  if k = Reg.UPD_TRIAL then inR w Fld.UPD_TRIAL_TRIAL_S 60 7200 && inR w Fld.UPD_TRIAL_TRIES 1 15
  else if k = Reg.UPD_RCV_CTL then inR w Fld.UPD_RCV_CTL_LEN 0 33423360
  else true

/-- Is every field of register k within its range in the word w (R523)? -/
def State.rangeOk (s : State) (k : Nat) (w : Word) : Bool :=
  let n := (k % 0x1000000 - 0x100000) / 0x1000
  match k / 0x1000000 with
  | 0 =>
    if 0x100000 ≤ k then rangePort n k w
    else match k / 0x10000 with
      | 2 => s.rangeTime k w
      | 3 => if 0x030100 ≤ k ∧ k < 0x030500 ∧ k % 32 = 0 then
          decide (fget Fld.SHU_CH_CTL_TRIG w < 72 ∨ fget Fld.SHU_CH_CTL_TRIG w = 0xFF) else true
      | 4 => rangeSmp k w
      | 6 => rangeInk k w
      | 7 => s.rangeDrn k w
      | 8 => rangeTot k w
      | 9 => s.rangeSto k w
      | 10 => rangeUpl k w
      | 11 => rangeUpd k w
      | _ => true
  | 1 => s.rangeLine n k w
  | 2 => s.rangeAir n k w
  | 3 => rangeCas n k w
  | _ => true

/-! ## Conditions on writes. -/

/-- Intake at rest: EN = 0 and IDLE = 1. -/
def State.inkRest (s : State) : Bool := s.inkIdle

/-- The Mender at rest. -/
def State.mndRest (s : State) : Bool := !s.isF Reg.MND_CTL Fld.MND_CTL_EN && s.mnd.jobs.all (fun e => e.2.isNone)

/-- The Darner at rest. -/
def State.drnRest (s : State) : Bool := !s.isF Reg.DRN_CTL Fld.DRN_CTL_EN && s.isF Reg.DRN_STAT Fld.DRN_STAT_IDLE

/-- MAC_EN of uplink u. -/
def State.macEnBit (s : State) (u : Nat) : Bool := if u = 0 then s.isF Reg.UPL_CTL Fld.UPL_CTL_MAC_EN_A else s.isF Reg.UPL_CTL Fld.UPL_CTL_MAC_EN_B

/-- Does register k take no write at all in the present state? -/
def State.writeShut (s : State) (k : Nat) : Bool :=
  let n := (k % 0x1000000 - 0x100000) / 0x1000
  match k / 0x1000000 with
  | 0 =>
    if 0x100000 ≤ k then
      decide (k = Reg.PORT_DESC_BASE n) && (s.isF (Reg.PORT_CTL n) Fld.PORT_CTL_DESC_EN || !(s.port n).txq.isEmpty)
    else match k / 0x10000 with
      | 6 =>
        if k = Reg.INK_TBL_LO ∨ k = Reg.INK_TBL_HI ∨ k = Reg.INK_XREC_LO ∨ k = Reg.INK_XREC_HI ∨ k = Reg.INK_FW_BASE_LO ∨
          k = Reg.INK_FW_BASE_HI ∨ k = Reg.INK_PROT_BASE_LO ∨ k = Reg.INK_PROT_BASE_HI then !s.inkRest
        else if 0x060808 ≤ k ∧ k < 0x060820 then !s.mndRest
        else false
      | 7 => decide (0x070020 ≤ k ∧ k < 0x070030) && !s.drnRest
      | 9 => decide ((0x090020 ≤ k ∧ k < 0x090048) ∨ k = Reg.STO_STAGE_LO ∨ k = Reg.STO_STAGE_HI) && s.isF Reg.STO_CTL Fld.STO_CTL_EN
      | 10 => decide (k = Reg.UPL_SESS_BASE) && s.isF Reg.UPL_CTL Fld.UPL_CTL_EN
      | _ => false
  | 1 => decide (Reg.PORT_LN_NOTCH n 0 ≤ k ∧ k ≤ Reg.PORT_LN_NOTCH n 13) && s.portEnBit n
  | 2 => decide (k = Reg.PORT_AIR_CFG n ∨ k = Reg.PORT_AIR_CYC n) && s.portEnBit n
  | 3 => decide (k = Reg.PORT_CAS_CFG n ∨ k = Reg.PORT_CAS_ACK n) && s.portEnBit n
  | _ => false

/-- Fields of register k that keep their values in the present state while the rest of a write takes effect. -/
def State.keptFields (s : State) (k : Nat) : List BitRange :=
  let n := (k % 0x1000000 - 0x100000) / 0x1000
  if k = Reg.PORT_CTL n ∧ s.portEnBit n then [Fld.PORT_CTL_LOOP]
  else if k = Reg.PORT_LN_CFG n ∧ s.portEnBit n then [Fld.PORT_LN_CFG_PLAN]
  else if s.persona n = 1 ∧ Reg.PORT_LN_NOTCH n 0 ≤ k ∧ k ≤ Reg.PORT_LN_NOTCH n 13 ∧
      s.notchBits n ((k - Reg.PORT_LN_NOTCH n 0) / 4) < 32 then
    [⟨31, s.notchBits n ((k - Reg.PORT_LN_NOTCH n 0) / 4)⟩]
  else if k = Reg.PORT_AIR_SELF n ∧ s.persona n = 2 then [Fld.PORT_AIR_SELF_ADDR]
  else if k = Reg.INK_CTL ∧ !s.inkRest then [Fld.INK_CTL_SLOTS20]
  else if k = Reg.DRN_FRZ_CTL ∧ !s.drnRest then [Fld.DRN_FRZ_CTL_PERIOD_MIN, Fld.DRN_FRZ_CTL_LEAD_S]
  else if k = Reg.STO_SLC ∧ s.isF Reg.STO_CTL Fld.STO_CTL_EN then [Fld.STO_SLC_SLC_PCT]
  else if (k = Reg.UPL_RXR 0 ∨ k = Reg.UPL_TXR 0) ∧ s.macEnBit 0 then [Fld.UPL_RXR_RING_LOG2]
  else if (k = Reg.UPL_RXR 1 ∨ k = Reg.UPL_TXR 1) ∧ s.macEnBit 1 then [Fld.UPL_RXR_RING_LOG2]
  else []

end Sys2Proof.Machine
end

