-- ==== Sys2Proof/Machine/RegWrite.lean ====
section
/-! DEFINITION. Sys2Proof/Machine/RegWrite.lean: a write to a register by any initiator: firewalls, the split by field, access
codes, and what the write starts (R11, R13, R15, R16, R30, R51, R420, R425, R521–R523). -/

namespace Sys2Proof.Machine

/-! ## The word that takes effect. -/

/-- The fields of a register. -/
def regFields (k : Nat) : List FieldSpec :=
  match Reg.specOf k with
  | none => []
  | some r => r.fields

/-- The bits of a field. -/
abbrev FieldSpec.bits (f : FieldSpec) : BitRange := ⟨f.hi, f.lo⟩

/-- Is a field of register k hoop-only now (R521)? Those coded RWH or RWL; ring 0 of the Store (R318); a locked source (R420). -/
def State.hoopField (s : State) (k : Nat) (f : FieldSpec) : Bool :=
  match f.acc with
  | .rwh | .rwhGo | .rwl | .rwlGo => true
  | .rwhRing0 => decide (k < 0x09007C)
  | .rwLock => bit (s.view k) 30
  | _ => false

/-- A field whose 1 starts an action. -/
def goField (a : Acc) : Bool := decide (a = .rwhGo ∨ a = .rwlGo)

/-- Fields of register k that a non-hoop write would change, or in which it would start an action. -/
def State.splitFields (s : State) (k : Nat) (v : Word) : List FieldSpec :=
  (regFields k).filter (fun f => s.hoopField k f &&
    (if goField f.acc then decide (fget f.bits v ≠ 0) else decide (fget f.bits v ≠ fget f.bits (s.view k))))

/-- A write of v as R521 splits it: hoop-only fields stand as they are, and start nothing. -/
def State.splitWord (s : State) (k : Nat) (v : Word) : Word :=
  (regFields k).foldl (fun a f => if s.hoopField k f then
    fput f.bits a (if goField f.acc then 0 else fget f.bits (s.view k)) else a) v

/-- The word of a register that a write starts from. -/
def State.base (s : State) (k : Nat) : Word :=
  if k = Reg.INT_SRC_CFG then s.srcCfg (s.getF Reg.INT_SRC_SEL Fld.INT_SRC_SEL_SRC) else s.raw k

/-- One field of a write under its access code (R15, R522). Reserved bits belong to no field (R13). -/
def mergeField (old v : Word) (a : Word) (f : FieldSpec) : Word :=
  let x := fget f.bits old
  let y := fget f.bits v
  match f.acc with
  | .ro | .w1s | .wo | .rwhGo | .rwlGo | .rwl => a
  | .w1c => fput f.bits a (x - (x &&& y))
  | .cnt0 => if y = 0 then fput f.bits a 0 else a
  | .rw | .rws | .rwh | .rwhRing0 | .rwLock => fput f.bits a y

/-- The word that a write of v leaves in register k; fields that keep their value in this state keep it (R523). -/
def State.merged (s : State) (k : Nat) (v : Word) : Word :=
  let old := s.base k
  let v := (s.keptFields k).foldl (fun a r => fput r a (fget r old)) v
  (regFields k).foldl (mergeField old v) old

/-! ## What writes start. In each: k the register, v the written word after the split, m the merged word, x the environment's
answer to what starts (0 = nothing amiss). -/

/-- Port registers (R176, R177, R181, R187). -/
def State.actPort (s : State) (k : Nat) (v m : Word) : State :=
  let n := (k % 0x1000000 - 0x100000) / 0x1000
  if k = Reg.PORT_CTL n then
    let t := (s.wr k (fput Fld.PORT_CTL_EN m (s.getF k Fld.PORT_CTL_EN))).when (bit v 27) (fun u => u.raiseF k Fld.PORT_CTL_TX_EOP)
    let t := t.when (bit v 24) (fun u => u.did (execPortRxReset n))
    let t := t.when (bit v 23) (fun u => u.did (execPortTxReset n))
    let t := t.when (s.isF k Fld.PORT_CTL_RX_SINK && !bit v 30) (fun u => u.sinkOff n)
    if bit v 31 then t.did (execPortEnable n) else t.did (execPortDisable n)
  else if k = Reg.PORT_BOB_TX n then s.did (execPortBobTxWrite n v.toNat)
  else if k = Reg.PORT_INT_STAT n then
    (s.wr k m).when (bit v 4) (fun u => u.setF (Reg.PORT_STAT n) Fld.PORT_STAT_RX_DROP 0)
  else s.wr k m

/-- Gathering (R411, R415, R416, R420, R421). -/
def State.actInt (s : State) (init k : Nat) (v m : Word) : State :=
  let t := (k % 0x10000 - 0x200) / 16
  if k = Reg.INT_SRC_CFG then
    let n := s.getF Reg.INT_SRC_SEL Fld.INT_SRC_SEL_SRC
    (s.intMod (fun i => { i with cfg := tset (fun _ => 0) i.cfg n m })).msixAll
  else if k = Reg.INT_SW then
    let n := fget Fld.INT_SW_SRC v
    if bit v 31 then s.did (execIntSwClear n) else s.did (execIntSwSet n)
  else if k = Reg.INT_TGT_CTL t then ((s.wr k m).when (bit v 30) (fun u => u.did (execIntFlush t init))).msixAll
  else if k = Reg.INT_COMPLETE t then s.did (execIntComplete t init v.toNat)
  else (s.wr k m).msixAll

/-- Time Unit (R355, R361, R363, R369). -/
def State.actTime (s : State) (k : Nat) (v m : Word) : State :=
  if k = Reg.TU_CTL then (s.wr k m).when (bit v 31) State.taiSet
  else if k = Reg.TU_SERVO then
    (s.wr k m).when (decide (fget Fld.TU_SERVO_SRC m ≠ s.tuSrc)) State.srcChanged
  else if k = Reg.TU_OFS_IN then s.ptpOffset v.toNat
  else if k = Reg.TU_AFE_ADJ then
    let p := fget Fld.TU_AFE_ADJ_PORT v
    if bit v 25 then s.afeStore p (fget Fld.TU_AFE_ADJ_TX_ADJ v) (fget Fld.TU_AFE_ADJ_RX_ADJ v)
    else s.setF k Fld.TU_AFE_ADJ_PORT p
  else s.wr k m

/-- Shuttle (R396, R398, R406, R410). -/
def State.actShu (s : State) (k : Nat) (v m : Word) : State :=
  let c := (k - 0x030100) / 32
  if k = Reg.SHU_CTL then
    let t := if bit v 31 then s.wr k m else s.shuOff
    t.when (bit v 30) State.shuResume
  else if k = Reg.SHU_EVT_CMD then
    let e := fget Fld.SHU_EVT_CMD_EVENT v
    if 72 ≤ e then s else if bit v 31 then s.eventClear e else s.eventSet e
  else if k = Reg.SHU_CH_CTL c then
    let t := (s.wr k m).when (bit v 30) (fun u => u.chAbort c)
    (t.when (bit v 31) (fun u => u.chGo c)).chArm c
  else if k = Reg.SHU_CH_PROG c then s.progWrite c v.toNat
  else s.wr k m

/-- Sampler, recovery and pair (R473, R479, R482, R487, R493). -/
def State.actSmp (s : State) (init k : Nat) (v m : Word) : State :=
  if k = Reg.SMP_CTL then (s.wr k m).when (bit v 23) (fun t => t.did execSamplerClear)
  else if k = Reg.SMP_RD_SEL then s.did (execSamplerRdSel (fget Fld.SMP_RD_SEL_SLOT v) (fget Fld.SMP_RD_SEL_WORD v))
  else if k = Reg.SMP_SW_CMD then
    if bit v 31 then s.swRecord init (fget Fld.SMP_SW_CMD_SEV v) (fget Fld.SMP_SW_CMD_CODE v) else s
  else if k = Reg.SMP_RCV_WDOG then
    let key := fget Fld.SMP_RCV_WDOG_KEY v
    match fget Fld.SMP_RCV_WDOG_ACT v with
    | 0 => s.hoopKick init key
    | 1 => s.fieldKick init key
    | a => s.stepAsk init key a
  else if k = Reg.SMP_PAIR_CTL then
    let en := s.getF k Fld.SMP_PAIR_CTL_EN
    let t := s.wr k (fput Fld.SMP_PAIR_CTL_EN m en)
    (t.when (decide (fget Fld.SMP_PAIR_CTL_EN m ≠ en)) (fun u => u.pairEnWrite (bit m 31))).when (bit v 30) State.pairYield
  else if k = Reg.SMP_PAIR_WIT_EXP then s.witInstall v.toNat
  else s.wr k m

/-- Needlecase and counted settings (R432, R443). -/
def State.actNdl (s : State) (k : Nat) (v m : Word) (x : Nat) : State :=
  if k = Reg.NDL_CMD ∧ bit v 31 then
    let op := fget Fld.NDL_CMD_OP v
    let slot := fget Fld.NDL_CMD_SLOT v
    let param := fget Fld.NDL_CMD_PARAM v
    match op with
    | 1 => s.did (execNdlInfo slot)
    | 2 => s.did (execNdlGenerate slot)
    | 3 => s.did (execNdlUnwrap slot param)
    | 4 => s.did (execNdlDestroy slot (decide (x ≠ 0)))
    | 5 => s.did (execNdlSign slot)
    | 6 => s.did (execNdlHmac slot)
    | 7 => s.did (execNdlQuote param)
    | 8 => s.did (execNdlPubkey slot)
    | 9 => s.did (execNdlDecap slot)
    | _ => s.ndlBadOp op slot param
  else if k = Reg.NDL_CNT_CMD ∧ bit v 31 then
    let kind := fget Fld.NDL_CNT_CMD_KIND v
    let val := fget Fld.NDL_CNT_CMD_VALUE v
    match fget Fld.NDL_CNT_CMD_SETTING v with
    | 1 => s.did execCntDomainIdentity
    | 2 => s.did (execCntRollbackFloor kind val)
    | 3 => s.did (execCntPairRoleLock val)
    | 4 => s.did execCntDebugOpen
    | a => s.cntGo { setting := a, kind := kind, value := val } 0 true true (fun t => t)
  else s.wr k m

/-- Intake and Mender (R213, R218, R222, R225, R232). -/
def State.actInk (s : State) (k : Nat) (v m : Word) (x : Nat) : State :=
  if k = Reg.INK_CTL then
    let t := s.wr k (fput Fld.INK_CTL_EN m (s.getF k Fld.INK_CTL_EN))
    if bit v 31 then t.inkEnable else t.did execIntakeDisable
  else if k = Reg.INK_SLOT_CMD then
    if s.ink.op.isSome then s
    else if bit v 31 then s.slotGo (fget Fld.INK_SLOT_CMD_OP v) (fget Fld.INK_SLOT_CMD_SLOT v) (decide (x ≠ 0))
    else s.wr k m
  else if k = Reg.INK_KC_CTL then (s.wr k m).when (bit v 31) (fun t => t.did execKeyCacheFlush)
  else if k = Reg.INK_PROT_HEAD then (s.wr k m).inkMod (fun i => { i with protIrq := false })
  else if k = Reg.MND_CLASS_SEL then
    let s := s.setF k Fld.MND_CLASS_SEL_REFUSED (fget Fld.MND_CLASS_SEL_REFUSED m)
    if bit v 31 then s.classCommit else s.classSel (fget Fld.MND_CLASS_SEL_CLASS v) (fget Fld.MND_CLASS_SEL_WORD v)
  else if k = Reg.MND_CLASS_DATA then s.classData (some v.toNat)
  else s.wr k m

/-- Darner (R276). -/
def State.actDrn (s : State) (k : Nat) (v m : Word) : State :=
  if k = Reg.DRN_CTL then
    let on := s.isF k Fld.DRN_CTL_EN
    let t := s.wr k (fput Fld.DRN_CTL_EN m on.toNat)
    if bit v 31 then t.drnEnable else t.when on State.drnDisable
  else s.wr k m

/-- Totaliser (R328, R329, R332, R337, R338, R340). -/
def State.actTot (s : State) (k : Nat) (v m : Word) (x : Nat) : State :=
  if k = Reg.TOT_CTL then s.when (bit v 31) (fun t => t.did execTotEnable)
  else if k = Reg.TOT_SEAL_CTL then
    let t := (s.wr k m).when (bit v 31) (fun u => u.did execSealSpend)
    let t := t.when (bit v 29) (fun u => u.did (execCalCommit (decide (x ≠ 0))))
    t.when (bit v 30) (fun u => u.did execSealEnd)
  else if k = Reg.TOT_CAL_DATA then s.did (execCalDataAccess (some v.toNat))
  else if k = Reg.TOT_DEM then
    (s.totMod (fun t => { t with dem := some (fput Fld.TOT_DEM_PENDING m 0) })).raiseF k Fld.TOT_DEM_PENDING
  else if k = Reg.TOT_BILL_CTL then (s.wr k m).when (bit v 31) (fun t => t.did execBillingForce)
  else if k = Reg.TOT_BILL_SEL then (s.wr k m).when (bit v 31) (fun t => t.did execBillSnap)
  else if k = Reg.TOT_PCAL_CTL then
    ((s.wr k m).when (bit v 31) (fun t => t.did (execPcalLoad (decide (x ≠ 0))))).when (bit v 30) (fun t => t.did execPcalCancel)
  else s.wr k m

/-- Store (R307, R312, R314). -/
def State.actSto (s : State) (k : Nat) (v m : Word) (x : Nat) : State :=
  if k = Reg.STO_CTL then
    let on := s.isF k Fld.STO_CTL_EN
    let t := s.wr k (fput Fld.STO_CTL_EN m on.toNat)
    if bit v 31 && !on then t.storeStart x else if on && !bit v 31 then t.did execStoreStop else t
  else if k = Reg.STO_CH_CTL then
    let c := fget Fld.STO_CH_CTL_CH m
    ((s.wr k m).when (bit v 31) (fun t => t.did (execChannelEvacuate c))).when (bit v 30) (fun t => t.did (execChannelRejoin c))
  else if k = Reg.STO_CKPT then (s.wr k m).when (bit v 0) (fun t => t.did execCheckpointStart)
  else if k = Reg.STO_REC_TAIL then s.did (execRecTailWrite v.toNat)
  else s.wr k m

/-- A request that conflicts with the state is refused and logged (R394). -/
def State.uplConflict (s : State) (what : Bytes) : State :=
  ((s.bump Reg.UPL_CONFLICT_CNT).raiseF Reg.UPL_INT_STAT Fld.UPL_INT_STAT_CONFLICT).report 0x9102 2 (blockPath 9 5) what

/-- Uplinks (R377, R378, R382). -/
def State.actUpl (s : State) (k : Nat) (v m : Word) : State :=
  let p := (k - 0x0A0090) / 8
  if k = Reg.UPL_SESS_CMD then
    if s.isF k Fld.UPL_SESS_CMD_BUSY then s
    else
      let n := fget Fld.UPL_SESS_CMD_SESSION v
      let t := s.wr k m
      match bit v 31, fget Fld.UPL_SESS_CMD_OP v with
      | true, 1 => t.did (execSessionOpen n)
      | true, 2 => t.did (execSessionResume n)
      | true, 3 => t.did (execSessionClose n)
      | true, 4 => t.did (execSessionSync n)
      | _, _ => t
  else if k = Reg.UPL_DOORBELL then
    s.doorbell (fget Fld.UPL_DOORBELL_SESSION v) (fget Fld.UPL_DOORBELL_WHICH v) (fget Fld.UPL_DOORBELL_VALUE v)
  else if k = Reg.UPL_PART_CFG p ∧ p < 4 then
    let same := fun f => decide (fget f m = s.getF k f)
    if s.partEn p && !(same Fld.UPL_PART_CFG_KINDS && same Fld.UPL_PART_CFG_UPLINK && same Fld.UPL_PART_CFG_SESSION) then
      s.uplConflict (bytesLE 4 k ++ [4])
    else (s.wr k m).when (!s.partEn p && bit m 31) (fun t => t.batchAgain p 0)
  else s.wr k m

/-- Update, recovery and pricking loader (R57, R62, R74, R453, R467). -/
def State.actUpd (s : State) (init k : Nat) (v m : Word) (x : Nat) : State :=
  let bad := decide (x ≠ 0)
  if k = Reg.UPD_CTL then
    let g := fget Fld.UPD_CTL_STG v
    match bit v 31, fget Fld.UPD_CTL_OP v with
    | false, _ => s.wr k m
    | true, 1 => s.did (execUpdVerify g bad)
    | true, 2 => s.did (execUpdActivateLive g)
    | true, 3 => s.did (execUpdActivateNextStart g)
    | true, 4 => s.did (execUpdCommit bad)
    | true, 5 => s.did (execUpdRevert bad)
    | true, 6 => s.did execUpdRecoveryRequest
    | true, o => s.updBadOp o
  else if k = Reg.UPD_RCV_CTL then (s.wr k m).when (bit v 31) (fun t => t.did (execRcvGo init (fget Fld.UPD_RCV_CTL_LEN m) bad))
  else if k = Reg.UPD_PRK_CTL then
    let t := if bit v 31 then s.prkStart (fget Fld.UPD_PRK_CTL_OP v) (bit v 8) else s.wr k m
    t.when (bit v 30) State.prkAbort
  else if k = Reg.UPD_PRK_RB_SEL then
    if bit v 31 then s.readback (fget Fld.UPD_PRK_RB_SEL_PATH v) else s.wr k m
  else s.wr k m

/-- A write takes effect in its register and starts what it starts. -/
def State.regAct (s : State) (init k : Nat) (v m : Word) (x : Nat) : State :=
  if 0x100000 ≤ k then s.actPort k v m
  else match k / 0x10000 with
    | 1 => s.actInt init k v m
    | 2 => s.actTime k v m
    | 3 => s.actShu k v m
    | 4 => s.actSmp init k v m
    | 5 => s.actNdl k v m x
    | 6 => s.actInk k v m x
    | 7 => s.actDrn k v m
    | 8 => s.actTot k v m x
    | 9 => s.actSto k v m x
    | 10 => s.actUpl k v m
    | 11 => s.actUpd init k v m x
    | _ => s.wr k m

/-! ## The write. -/

/-- Offsets whose writes a firewall refuses whole to other initiators than the hoop and the loader: Needlecase and counted settings
(R425), target 0 (R420), and the loader's control (R16). -/
def hoopOffset (off : Nat) : Bool :=
  decide ((0x050000 ≤ off ∧ off < 0x051000) ∨ (0x010200 ≤ off ∧ off < 0x010210) ∨ (0x0B0800 ≤ off ∧ off < 0x0B0828))

/-- The loader's shadow takes up the word that an accepted write to register k of a port leaves (R63). -/
def State.shadeWord (s : State) (k : Nat) (m : Word) : State :=
  s.fabMod (fun f => { f with shadow := tset Reg.resetOf f.shadow k m })

/-- A write of v to register k after the firewall, with v as R521 leaves it. -/
def State.regPut (s : State) (init k : Nat) (v : Word) (x : Nat) : State :=
  let m := s.merged k v
  if s.writeShut k || !s.rangeOk k m then s
  else if 0x100000 ≤ k then (s.shadeWord k m).regAct init k v m x
  else s.regAct init k v m x

/-- A write of v to window offset off by an initiator; x is the environment's answer to what the write starts. -/
def State.regWrite (s : State) (init off : Nat) (v : Word) (x : Nat) : State :=
  if s.pins.reset then s
  else if hoopOffset off && !isHoop init then s.fwReg init off
  else match s.regKey off with
    | none => s.badReg init true off
    | some k =>
      if s.rcvShuts init k then s
      else if isHoop init then s.regPut init k v x
      else if k = Reg.TOT_CAL_DATA then s.when (!(s.splitFields k v).isEmpty) (fun t => t.fwReg init off)
      else if (s.splitFields k v).isEmpty then s.regPut init k (s.splitWord k v) x
      else (s.fwReg init off).regPut init k (s.splitWord k v) x

/-- REGISTER_WRITE. -/
def execRegisterWrite (init off v x : Nat) (s : State) : Host.Outcome State Fault Refusal := ok (s.regWrite init off (word v) x)

/-! ## Accesses that no register takes (R11, R51). -/

/-- Does an offset name a register of a blank block (R51)? -/
def State.blankReg (s : State) (off : Nat) : Bool :=
  let n := (off - 0x100000) / 0x1000
  (s.regKey off).isNone && (Reg.specOf off).isSome &&
    (if off < 0x100000 then !s.blockThere off else decide (off % 0x1000 < 0x100) && !s.exists_ (portRegion n) (n % 16))

/-- UNASSIGNED_ACCESS: an access of a size in bytes to an offset that has no register, that is not aligned to 4 bytes, or that is
narrower than a register: read as 0 or ignored, counted and recorded. In a blank block only writes count. A hoop-only range refuses
other initiators first (R425). -/
def execUnassignedAccess (init off size : Nat) (write : Bool) (s : State) : Host.Outcome State Fault Refusal :=
  let t := s.when (!write) (fun u => u.answer 0)
  if s.pins.reset then ok s
  else if hoopOffset off && !isHoop init && (write || hoopWhole (off - off % 4)) then ok (t.fwReg init off)
  else if size = 4 ∧ (s.regKey off).isSome then ok s
  else if size = 4 ∧ !write ∧ s.blankReg off then ok t
  else ok (t.badReg init write off)

end Sys2Proof.Machine
end

