-- ==== Sys2Proof/Machine/Cosem.lean ====
section
/-! DEFINITION. Sys2Proof/Machine/Cosem.lean: COSEM requests, their rights and their conflicts (R390–R394). -/

namespace Sys2Proof.Machine

/-- Rights of R392: one row per object of its table, in its order; columns public, reader, operator, firmware manager, security
officer, metrology. 1 = read, 2 = write, 4 = methods, added up. -/
def cosemRights : List (List Nat) := [
  [1, 1, 1, 1, 1, 1],
  [1, 1, 1, 1, 1, 1],
  [1, 1, 1, 1, 1, 1],
  [1, 1, 7, 1, 1, 1],
  [0, 1, 1, 1, 7, 1],
  [0, 1, 1, 7, 1, 0],
  [0, 1, 7, 0, 1, 1],
  [0, 0, 4, 0, 0, 4],
  [0, 1, 1, 0, 0, 1],
  [0, 1, 1, 0, 0, 1],
  [0, 1, 1, 1, 0, 1]] ++ [
  [0, 1, 1, 0, 0, 1],
  [0, 1, 1, 0, 1, 1],
  [0, 1, 1, 0, 1, 1],
  [0, 1, 1, 0, 1, 5],
  [0, 0, 0, 0, 1, 7],
  [0, 0, 1, 0, 3, 0],
  [0, 1, 1, 5, 1, 0],
  [0, 1, 3, 0, 0, 0],
  [0, 1, 5, 0, 0, 0],
  [0, 4, 4, 4, 4, 4],
  [0, 1, 1, 1, 1, 1]]

/-- One item of a request: the object's OBIS code as a 48-bit number, first octet highest; the attribute of a read, or the word, register,
channel, staging slot or block that the item addresses; the access (0 = read, 1 = write, 1 + m = method m); and the value. -/
abbrev CosemItem := Nat × Nat × Nat × Nat

/-! ## OBIS codes (R347, R392). -/

/-- The first five octets of an OBIS code as a number. -/
def ob (a b c d e : Nat) : Nat := (((a * 256 + b) * 256 + c) * 256 + d) * 256 + e

/-- Billing values: code, and offset and size in the billing set (R338, R347). -/
def billCodes : List (Nat × Nat × Nat) :=
  [(ob 1 0 1 8 0, 12, 8), (ob 1 0 2 8 0, 20, 8), (ob 1 0 5 8 0, 28, 8), (ob 1 0 6 8 0, 36, 8), (ob 1 0 7 8 0, 44, 8),
    (ob 1 0 8 8 0, 52, 8), (ob 1 0 21 8 0, 196, 8), (ob 1 0 41 8 0, 204, 8), (ob 1 0 61 8 0, 212, 8), (ob 1 0 22 8 0, 220, 8),
    (ob 1 0 42 8 0, 228, 8), (ob 1 0 62 8 0, 236, 8)] ++
  (List.range 32).map (fun i => (ob 1 0 1 8 (i + 1), 60 + 4 * i, 4)) ++
  [(ob 1 0 1 6 0, 188, 4), (ob 0 0 0 1 0, 0, 2)]

/-- Instantaneous values: code and TOT_INST number (R323, R347). -/
def instCodes : List (Nat × Nat) :=
  [(ob 1 0 32 7 0, 0), (ob 1 0 52 7 0, 1), (ob 1 0 72 7 0, 2), (ob 1 0 31 7 0, 3), (ob 1 0 51 7 0, 4), (ob 1 0 71 7 0, 5),
    (ob 1 0 91 7 0, 6), (ob 1 0 16 7 0, 10), (ob 1 0 13 7 0, 14), (ob 1 0 14 7 0, 13)]

/-- Codes of the other objects and their rows in R392. -/
def otherCodes : List (Nat × Nat) :=
  [(ob 0 0 42 0 0, 0), (ob 0 0 40 0 0, 1), (ob 0 0 41 0 0, 2), (ob 0 0 1 0 0, 3), (ob 0 0 43 0 0, 4), (ob 0 0 43 0 1, 4),
    (ob 0 0 43 0 2, 4), (ob 0 0 43 0 3, 4), (ob 0 0 44 0 0, 5), (ob 0 0 13 0 0, 6), (ob 0 0 10 0 1, 7), (ob 0 0 128 1 0, 12)] ++
  [(ob 0 0 128 2 0, 13), (ob 0 0 128 4 0, 13), (ob 0 0 128 3 0, 14), (ob 0 0 128 10 0, 15), (ob 0 0 128 5 0, 16), (ob 0 0 128 6 0, 17),
    (ob 0 0 128 7 0, 18), (ob 0 0 128 8 0, 19), (ob 0 0 128 9 0, 20), (ob 0 0 99 98 0, 21)]

/-- Row of R392 that an OBIS code belongs to: F = 255 for every object, F = 101 for the last closed period of a billing value. -/
def cosemRow (code : Nat) : Option Nat :=
  let c := code / 256
  if code % 256 ≠ 255 ∧ code % 256 ≠ 101 then none
  else if billCodes.any (fun e => decide (e.1 = c)) then some (if c = ob 1 0 1 6 0 then 9 else if c = ob 0 0 0 1 0 then 11 else 8)
  else if code % 256 = 101 then none
  else if instCodes.any (fun e => decide (e.1 = c)) then some 10
  else (otherCodes.find? (fun e => decide (e.1 = c))).map (·.2)

/-- Octets of an OBIS code, which attribute 1 of every object holds. -/
def obisBytes (code : Nat) : Bytes := bytesBE 6 code

/-- The billing set that F of a code names: the current one, or the last one closed (R338, R347). -/
def State.billOf (s : State) (f : Nat) : Bytes := if f = 101 then s.tot.prev else s.billSet

/-- Right that an access needs. -/
def accessRight (a : Nat) : Nat := if a = 0 then 1 else if a = 1 then 2 else 4

/-- Does a session's role accept an association from a client wPort (R390)? -/
def State.wPortOk (s : State) (n w : Nat) : Bool :=
  let r := s.role n
  if w = 0x10 then decide (r ≤ 5) else decide (w % 16 = 0 ∧ w = 16 * (r + 1) ∧ 1 ≤ r ∧ r ≤ 5)

/-- May the client at wPort w of session n make an access to an object (R392)? To a code that no row has, nobody may. -/
def State.cosemMay (s : State) (n w code a : Nat) : Bool :=
  s.wPortOk n w && (cosemRow code).any (fun r =>
    decide (((cosemRights.getD r []).getD (w / 16 - 1) 0) / accessRight a % 2 = 1))

/-- Darner register i of object 0.0.128.7. -/
def darnerReg (i : Nat) : Nat := [Reg.DRN_FRZ_CTL, Reg.DRN_FRZ_COLLECT, Reg.DRN_CUSUM].getD i Reg.DRN_SUSP

/-- The row of R394 by which an item conflicts with the present state, 0 for none. `carrier` is the path of the block that carries the
session. -/
def State.cosemConflict (s : State) (carrier : Nat) (i : CosemItem) : Nat :=
  let (code, idx, a, v) := i
  let obj := (cosemRow code).getD 22
  if a = 0 then 0
  else if obj = 6 ∧ s.session then 1
  else if obj ≠ 5 ∧ s.upd.job.isSome then 2
  else if obj = 17 ∧ a = 2 ∧ idx / 64 = carrier / 64 then 3
  else if obj = 16 ∧ s.partEn idx then 4
  else if obj = 18 ∧ idx = 0 ∧ v / 2 ^ 16 % 2 ^ 16 ≠ (s.num Reg.DRN_FRZ_CTL) / 2 ^ 16 ∧ s.isF Reg.DRN_CTL Fld.DRN_CTL_EN then 5
  else if obj = 19 ∧ 2 ≤ a ∧ (s.sto.evac.isSome ∨ s.sto.rejoin.isSome) then 6
  else 0

/-- Set the clock: a step to TAI second v, or by v seconds (R355). -/
def State.clockSet (s : State) (v : Nat) (rel : Bool) : State :=
  ((((s.wrN Reg.TU_TAI_S_LO v).wrN Reg.TU_TAI_S_HI (v / 2 ^ 32)).wrN Reg.TU_TAI_NS 0).setF Reg.TU_CTL Fld.TU_CTL_REL rel.toNat).taiSet

/-- The seal's refusal shows in ERR; the COSEM result that goes with it is not stated (log entry 140). -/
def State.sealResult (s : State) (f : State → Host.Outcome State Fault Refusal) : State :=
  let t := s.did f
  if t.getF Reg.TOT_SEAL_STAT Fld.TOT_SEAL_STAT_ERR = 0 then t.answer 0 else t.draw.answer (word (t.drawn 256))

/-- What the register of key k reads, as four octets. -/
def State.viewBytes (s : State) (k : Nat) : Bytes := bytesLE 4 (s.view k).toNat

/-- Octets of the attribute that a read answers: attribute 1 is the code itself; the rest are the device's own values as R338, R323 and the
registers have them. What field firmware holds by itself is no state of the device and answers nothing here (log entry 140). -/
def State.cosemValue (s : State) (code attr : Nat) : Bytes :=
  let c := code / 256
  let inst := (instCodes.find? (fun e => decide (e.1 = c))).map (fun e => s.viewBytes (Reg.TOT_INST e.2))
  let bill := (billCodes.find? (fun e => decide (e.1 = c))).map (fun e => slice (s.billOf (code % 256)) e.2.1 e.2.2)
  if attr = 1 then obisBytes code
  else if c = ob 1 0 1 6 0 ∧ attr = 5 then slice (s.billOf (code % 256)) 192 4
  else match bill, inst, cosemRow code with
    | some b, _, _ => b
    | none, some b, _ => b
    | none, none, some 3 => bytesLE 6 s.taiSec ++ bytesLE 4 s.taiNs
    | none, none, some 6 => if attr < 6 then s.tot.acal else s.tot.pcal
    | none, none, some 12 => [s.cntLeft 5 0]
    | none, none, some 13 =>
      if c = ob 0 0 128 2 0 then (List.range s.logUsed).flatMap s.legalAt
      else (List.range 16).flatMap (fun i => (s.storeGet 3 (32 + i)).take 4096)
    | none, none, some 14 =>
      [fget Fld.TOT_STAT_SEAL_OPEN (s.view Reg.TOT_STAT), s.session.toNat] ++ bytesLE 2 s.logUsed
    | none, none, some 15 => s.tot.staging
    | none, none, some 16 => (List.range 4).flatMap (fun k => s.viewBytes (Reg.UPL_PART_CFG k))
    | none, none, some 18 => (List.range 4).flatMap (fun k => s.viewBytes (darnerReg k))
    | none, none, some 19 => s.viewBytes Reg.STO_CH_CTL
    | none, none, some 21 => (s.smp.slots.filter (fun e => decide (e.2.code ≠ 0))).flatMap (fun e => smpBytes e.2)
    | _, _, _ => []

/-- A result of session n's request goes out, and busData holds it (R393, R394). -/
def State.cosemSay (s : State) (n r : Nat) (b : Bytes) : State := (s.answer (word r)).emit (.cosem n r b)

/-- The effect of a write or a method that is allowed: what it reaches is written as the hoop, or field firmware, writes it. busData holds
the result: 0 = success, 11 = object unavailable. -/
def State.cosemAct (s : State) (i : CosemItem) : State :=
  let (code, idx, a, v) := i
  let s := s.answer 0
  match (cosemRow code).getD 22, a with
  | 3, 1 => s.clockSet v false
  | 3, 7 => s.clockSet v true
  | 5, 4 => s.did (execUpdVerify idx false)
  | 5, 5 => s.did (execUpdActivateLive idx)
  | 6, 1 => s.did (execPcalLoad false)
  | 6, 2 => s.did (execPcalLoad false)
  | 7, 2 => s.did execBillingForce
  | 14, 2 => s.sealResult execSealSpend
  | 14, 3 => s.sealResult execSealEnd
  | 15, 1 => (s.regWrite 0 Reg.TOT_CAL_SEL (word (idx % 32)) 0).sealResult (execCalDataAccess (some v))
  | 15, 2 => s.sealResult (execCalCommit false)
  | 16, 1 => s.regWrite 0 (Reg.UPL_PART_CFG idx) (word v) 0
  | 17, 2 => (s.wrN Reg.UPD_PRK_TARGET idx).prkStart (v % 16) (decide (v / 256 % 2 = 1))
  | 17, 3 => s.readback idx
  | 18, 1 => s.regWrite 1 (darnerReg idx) (word v) 0
  | 19, 2 => s.did (execChannelEvacuate idx)
  | 19, 3 => s.did (execChannelRejoin idx)
  | 20, 2 => s.did (execNdlQuote 0x1FF)
  | 14, _ => s.answer 11
  | 15, _ => s.answer 11
  | 17, _ => s.answer 11
  | 19, _ => s.answer 11
  | 20, _ => s.answer 11
  | _, _ => s

/-- An item of session n that is allowed takes effect, and its result goes out. -/
def State.cosemApply (s : State) (n : Nat) (i : CosemItem) : State :=
  if i.2.2.1 = 0 then s.cosemSay n 0 (s.cosemValue i.1 i.2.1)
  else
    let t := s.cosemAct i
    t.cosemSay n t.busData.toNat []

/-- A denied item: read-write-denied (3), and counted (R393). -/
def State.cosemDeny (s : State) (n : Nat) : State := (s.bump Reg.UPL_DENIED_CNT).cosemSay n 3 []

/-- COSEM_REQUEST: a request of the client at wPort w on session n. Every item is checked first; a conflict refuses the whole request
with temporary-failure (2), and a denied item does nothing. -/
def execCosemRequest (n w carrier : Nat) (items : List (Nat × Nat × Nat × Nat)) (s : State) : Host.Outcome State Fault Refusal :=
  let may := fun (i : CosemItem) => s.cosemMay n w i.1 i.2.2.1
  match items.find? (fun i => may i && decide (s.cosemConflict carrier i ≠ 0)) with
  | some i => ok ((s.uplConflict (obisBytes i.1 ++ [s.cosemConflict carrier i])).cosemSay n 2 [])
  | none => ok (s.each items (fun i t => if may i then t.cosemApply n i else t.cosemDeny n))

end Sys2Proof.Machine
end

