-- ==== Sys2Proof/Machine/Shuttle.lean ====
section
/-! DEFINITION. Sys2Proof/Machine/Shuttle.lean: the Shuttle's instructions, starts and events (R396–R410). Each instruction command
names the channel that executes; it acts where that channel's PC stands at such an instruction. -/

namespace Sys2Proof.Machine

/-! ## Accesses of the Shuttle to the register window (R400, R409). Initiator 5. -/

/-- A read with a side effect: the state after it, and the word that it gave, which no bus sees. -/
def State.readEff (s : State) (f : State → State) : State × Word × Nat := ((f s).answer s.busData, (f s).busData, 0)

/-- A read of an assigned register: reads with a side effect have it. -/
def State.shuReadReg (s : State) (k : Nat) : State × Word × Nat :=
  let n := (k % 0x1000000 - 0x100000) / 0x1000
  let c := (k % 0x10000 - 0x200) / 16
  if k = Reg.PORT_BOB_RX n then s.readEff (fun t => t.did (execPortBobRxRead n))
  else if k = Reg.INT_CLAIM c then s.readEff (fun t => t.did (execIntClaim c 5))
  else if k = Reg.TU_SCHED then s.readEff State.schedRead
  else if k = 0x020064 then s.readEff (fun t => t.txtsPop 0)
  else if k = 0x02006C then s.readEff (fun t => t.txtsPop 1)
  else if k = Reg.TOT_CAL_DATA then s.readEff (fun t => t.did (execCalDataAccess none))
  else if k = Reg.TOT_BILL_DATA then s.readEff (fun t => t.did execBillDataRead)
  else if k = Reg.MND_CLASS_DATA then s.readEff (fun t => t.classData none)
  else if k = Reg.SMP_RD_DATA then s.readEff (fun t => t.did execSamplerRdData)
  else if k = Reg.PORT_LN_TM_DATA n then
    (s.setF (Reg.PORT_LN_TM_SEL n) Fld.PORT_LN_TM_SEL_WORD (s.getF (Reg.PORT_LN_TM_SEL n) Fld.PORT_LN_TM_SEL_WORD + 1), s.view k, 0)
  else (s, s.view k, 0)

/-- A read of the register at a window offset, with its side effects: the state, the word, and the failure's kind, 0 = none. -/
def State.shuRead (s : State) (off : Nat) : State × Word × Nat :=
  if hoopWhole off then (s.fwReg 5 off, 0, 3)
  else match s.regKey off with
    | none => if s.blankReg off then (s, 0, 0) else (s.badReg 5 false off, 0, 4)
    | some k => s.shuReadReg k

/-- k words read one by one from an offset; the first failure ends the reads, and gives its kind and offset. -/
def State.shuReads (s : State) (off k : Nat) : State × Bytes × Option (Nat × Nat) :=
  match k with
  | 0 => (s, [], none)
  | j + 1 =>
    match s.shuReads off j with
    | (t, b, some e) => (t, b, some e)
    | (t, b, none) =>
      let (u, w, kind) := t.shuRead (off + 4 * j)
      if kind = 0 then (u, b ++ bytesLE 4 w.toNat, none) else (u, b, some (kind, off + 4 * j))

/-- The kind of failure that a write of v to a window offset meets, 0 = none. -/
def State.shuWrFail (s : State) (off : Nat) (v : Word) : Nat :=
  if hoopOffset off then 3
  else match s.regKey off with
    | none => 4
    | some k => if (s.splitFields k v).isEmpty then 0 else 3

/-- k words written one by one; the first failure ends the writes. -/
def State.shuWrites (s : State) (off : Nat) (b : Bytes) (k : Nat) : State × Option (Nat × Nat) :=
  match k with
  | 0 => (s, none)
  | j + 1 =>
    match s.shuWrites off b j with
    | (t, some e) => (t, some e)
    | (t, none) =>
      let v := word (u32 b (4 * j))
      let e := t.shuWrFail (off + 4 * j) v
      let u := t.regWrite 5 (off + 4 * j) v 0
      if e = 0 then (u, none) else (u, some (e, off + 4 * j))

/-! ## Instructions (R399). -/

/-- OP and FLAGS. -/
def insOp (b : Bytes) : Nat := u8 b 0 / 16

/-- FLAGS. -/
def insFlags (b : Bytes) : Nat := u8 b 0 % 16

/-- Are bytes lo to hi 0? -/
def zeroFrom (b : Bytes) (lo hi : Nat) : Bool := (List.range (hi + 1 - lo)).all (fun i => decide (u8 b (lo + i) = 0))

/-- The instruction at channel c's PC. -/
def State.chIns (s : State) (c : Nat) : Bytes := s.rdMem (16 * s.chPc c) 16

/-- Channel c goes on to the next instruction. -/
def State.chNext (s : State) (c : Nat) : State := s.setPc c (s.chPc c + 1)

/-- Channel c, in one of two states, fetches its instruction: an OP of 7 or above is ERR 1; one whose OP is op is executed by f. Any
other command waits for its turn. -/
def State.shuIns (s : State) (c op st st' : Nat) (f : Bytes → State → State) : State :=
  if c < 32 ∧ s.shuOn ∧ (s.chState c = st ∨ s.chState c = st') then
    let b := s.chIns c
    let t := s.chanMod c (fun k => { k with handing := false })
    if 7 ≤ insOp b then t.chError c 1
    else if insOp b ≠ op then s
    else f b t
  else s

/-- The hand-over point of an END or a LOOP (R407). -/
def State.handOver (s : State) (c : Nat) : State :=
  let t := s.chanMod c (fun k => { k with handing := true })
  if s.isF (Reg.SHU_CH_STAT c) Fld.SHU_CH_STAT_SHADOW_VALID then
    ((t.chanMod c (fun k => { k with active := k.shadow, loop := none })).setF (Reg.SHU_CH_STAT c) Fld.SHU_CH_STAT_SHADOW_VALID 0).setF
      (Reg.SHU_CH_STAT c) Fld.SHU_CH_STAT_HANDOVER (s.getF (Reg.SHU_CH_STAT c) Fld.SHU_CH_STAT_HANDOVER + 1)
  else t

/-- An EVENT of SIGNAL or END: 0–31, or 0xFF for none. -/
def evtNamed (e : Nat) : Bool := decide (e < 32 ∨ e = 0xFF)

/-- Set the event that SIGNAL or END names, and IRQ if asked for. -/
def State.signal (s : State) (c e : Nat) (irq : Bool) : State :=
  (s.when (decide (e ≠ 0xFF)) (fun t => t.eventSet e)).when irq (fun t => t.raiseF (Reg.SHU_CH_STAT c) Fld.SHU_CH_STAT_IRQ)

/-- END of channel c: a hand-over point; a packet left open is ERR 7; otherwise its events are set, and the channel is armed again or
idle (R396, R401, R404, R407). -/
def execShuttleEnd (c : Nat) (s : State) : Host.Outcome State Fault Refusal :=
  ok (s.shuIns c 0 2 2 (fun b t =>
    if !zeroFrom b 2 15 || !evtNamed (u8 b 1) || decide (2 ≤ insFlags b) then t.chError c 1
    else
      let t := t.handOver c
      if (t.chan c).openPort.isSome then t.chError c 7
      else ((((t.eventSet (40 + c)).signal c (u8 b 1) (decide (insFlags b = 1))).chIdle c)).chArm c))

/-- SIGNAL of channel c (R404). -/
def execSignal (c : Nat) (s : State) : Host.Outcome State Fault Refusal :=
  ok (s.shuIns c 5 2 2 (fun b t =>
    if !zeroFrom b 2 15 || !evtNamed (u8 b 1) || decide (2 ≤ insFlags b) then t.chError c 1
    else (t.signal c (u8 b 1) (decide (insFlags b = 1))).chNext c))

/-- A LOOP's counter, n before its decrement, falls; the channel jumps back or falls through (R403). -/
def State.loopTurn (s : State) (c pc cnt back n : Nat) : State :=
  if cnt = 0 ∨ 1 < n then (s.chanMod c (fun k => { k with loop := some (pc, n - 1) })).setPc c ((pc + 2 ^ 32 - back) % 2 ^ 32)
  else (s.chanMod c (fun k => { k with loop := none })).chNext c

/-- LOOP of channel c (R403, R407). -/
def execLoop (c : Nat) (s : State) : Host.Outcome State Fault Refusal :=
  ok (s.shuIns c 3 2 2 (fun b t =>
    let cnt := u16 b 1
    let back := u16 b 3
    if !zeroFrom b 5 15 || decide (insFlags b ≠ 0 ∨ back = 0 ∨ 4095 < back) then t.chError c 1
    else
      let pc := t.chPc c
      let u := t.handOver c
      if t.isF (Reg.SHU_CH_STAT c) Fld.SHU_CH_STAT_SHADOW_VALID then u.setPc c (u.chan c).active
      else match (t.chan c).loop with
        | none => u.loopTurn c pc cnt back cnt
        | some (p, n) => if p = pc then u.loopTurn c pc cnt back n else u.chError c 3))

/-! ## Events consumed (R396, R398). -/

/-- Does channel d wait to consume event e, armed on it or held in a WAIT with CONSUME = 1? -/
def State.consumer (s : State) (d e : Nat) : Bool :=
  match s.chState d with
  | 1 => decide (s.getF (Reg.SHU_CH_CTL d) Fld.SHU_CH_CTL_TRIG = e)
  | 3 => let b := s.chIns d; decide (insOp b = 4 ∧ u8 b 1 = e ∧ insFlags b % 2 = 1)
  | _ => false

/-- Does a lower-numbered channel than c wait to consume event e? It proceeds first. -/
def State.behind (s : State) (c e : Nat) : Bool := (List.range c).any (fun d => s.consumer d e)

/-- WAIT of channel c: it proceeds when its event is set, and with CONSUME clears it; otherwise it is held in STATE 3. -/
def execWait (c : Nat) (s : State) : Host.Outcome State Fault Refusal :=
  ok (s.shuIns c 4 2 3 (fun b t =>
    let e := u8 b 1
    let use := decide (insFlags b % 2 = 1)
    if !zeroFrom b 2 3 || !zeroFrom b 8 15 || decide (2 ≤ insFlags b ∨ 72 ≤ e) then t.chError c 1
    else if t.event e && !(use && t.behind c e) then ((t.when use (fun u => u.eventClear e)).setCh c 2).chNext c
    else t.setCh c 3))

/-- WAIT_TIMEOUT: TIMEOUT ticks have passed in channel c's WAIT without its flag being set (R404). -/
def execWaitTimeout (c : Nat) (s : State) : Host.Outcome State Fault Refusal :=
  ok (s.shuIns c 4 3 3 (fun b t => if u32 b 4 ≠ 0 ∧ t.event (u8 b 1) = false then t.chError c 4 else s))

/-- SHUTTLE_TRIGGER_START: the trigger event of armed channel c is set; it is consumed, and the channel starts. -/
def execShuttleTriggerStart (c : Nat) (s : State) : Host.Outcome State Fault Refusal :=
  let e := s.getF (Reg.SHU_CH_CTL c) Fld.SHU_CH_CTL_TRIG
  ok (if c < 32 ∧ s.shuOn ∧ s.chState c = 1 ∧ e < 72 ∧ s.event e ∧ s.behind c e = false then (s.eventClear e).chStart c else s)

/-- EVENT_SET: SHU_EVT_CMD sets event e; events from 72 on are ignored. -/
def execEventSet (e : Nat) (s : State) : Host.Outcome State Fault Refusal := ok (if e < 72 then s.eventSet e else s)

/-- EVENT_CLEAR: SHU_EVT_CMD clears event e. -/
def execEventClear (e : Nat) (s : State) : Host.Outcome State Fault Refusal := ok (if e < 72 then s.eventClear e else s)

/-! ## Data movement (R400–R402, R404). -/

/-- SPACE of an address. -/
def spaceOf (a : Nat) : Nat := a / 2 ^ 44

/-- The address within its space. -/
def spaceOff (a : Nat) : Nat := a % 2 ^ 44

/-- May an area of n bytes at address a be read or written (R400)? Space 2 is a destination only. -/
def spaceOk (a n : Nat) (dst : Bool) : Bool :=
  let o := spaceOff a
  match spaceOf a with
  | 0 => decide (o + n ≤ 2 ^ 36)
  | 1 => decide (o + n ≤ 0x80000)
  | 2 => dst && decide (o < 64)
  | 3 => decide (o % 4 = 0 ∧ n % 4 = 0 ∧ o + n ≤ 2 ^ 21)
  | _ => false

/-- Bytes of the Shuttle SRAM. -/
def State.sramRd (s : State) (a n : Nat) : Bytes :=
  (List.range n).map (fun i => (tget (fun _ => (0 : Byte)) s.shu.sram (a + i)).toNat)

/-- Write bytes to the Shuttle SRAM. -/
def State.sramWr (s : State) (a : Nat) (b : Bytes) : State := { s with shu := { s.shu with sram := dramPut s.shu.sram a b } }

/-- Do two areas of one memory overlap without being the same? -/
def overlaps (src dst n : Nat) : Bool :=
  decide (spaceOf src = spaceOf dst ∧ spaceOf src ≤ 1 ∧ src ≠ dst ∧ src < dst + n ∧ dst < src + n)

/-- Read n bytes at an address: the state, the bytes, and a failure. -/
def State.moveRead (s : State) (src n : Nat) : State × Bytes × Option (Nat × Nat) :=
  match spaceOf src with
  | 0 => (s, s.rdMem (spaceOff src) n, none)
  | 1 => (s, s.sramRd (spaceOff src) n, none)
  | _ => s.shuReads (spaceOff src) (n / 4)

/-- Push a whole packet's bytes, or a part of one, to port p's transmit queue (R177, R401). -/
def State.bobPush (s : State) (c p : Nat) (b : Bytes) (eop : Bool) : State :=
  let t := s.chanMod c (fun k => { k with openPort := if eop then none else some p })
  if t.isF (Reg.PORT_CTL p) Fld.PORT_CTL_DESC_EN then t.raiseF (Reg.PORT_INT_STAT p) Fld.PORT_INT_STAT_OVERFLOW
  else
    let u := (t.ptrCheck p true).txWords p b
    if eop then u.txWordEnd p else u

/-- Write bytes at an address: the state and a failure. -/
def State.moveWrite (s : State) (c dst : Nat) (b : Bytes) (eop : Bool) : State × Option (Nat × Nat) :=
  match spaceOf dst with
  | 0 => (s.wrMem (spaceOff dst) b, none)
  | 1 => (s.sramWr (spaceOff dst) b, none)
  | 2 => (s.bobPush c (spaceOff dst) b eop, none)
  | _ => s.shuWrites (spaceOff dst) b (b.length / 4)

/-- The check value over data: CRC-32C as 4 bytes, little-endian, or the SHA-256 digest. -/
def checkBytes (alg : Nat) (b : Bytes) : Bytes := if alg = 1 then sha256 b else bytesLE 4 (crc32c b)

/-- What a MOVE or MOVEC moves and where. -/
structure MoveJob where
  len : Nat
  src : Nat
  dst : Nat
  eop : Bool
  /-- MOVEC: its ALG and RESET. -/
  chk : Option (Nat × Bool)
  append : Bool
deriving DecidableEq, Repr

/-- Bytes written in all. -/
def MoveJob.total (j : MoveJob) : Nat :=
  j.len + (match j.chk, j.append with
    | some (a, _), true => if a = 1 then 32 else 4
    | _, _ => 0)

/-- A MOVE or MOVEC word by its fields. -/
def moveJob (b : Bytes) (movec : Bool) : MoveJob :=
  let f := insFlags b
  { len := u24 b 1, src := un b 4 6, dst := un b 10 6, eop := decide (f % 2 = 1)
    chk := if movec then some (f / 2 % 2, decide (f / 4 % 2 = 1)) else none
    append := movec && decide (8 ≤ f) }

/-- RESET = 0, and no check value of the same ALG is running. -/
def State.noCheck (s : State) (c : Nat) (j : MoveJob) : Bool :=
  match j.chk with
  | some (a, false) => decide ((s.chan c).chk.map (·.1) ≠ some a)
  | _ => false

/-- The code with which a move ends before it moves anything (R405); 0 = none. -/
def State.moveErr (s : State) (c : Nat) (b : Bytes) (j : MoveJob) : Nat :=
  if j.len = 0 ∨ (j.chk.isNone ∧ 2 ≤ insFlags b) then 1
  else if !spaceOk j.src j.len false || !spaceOk j.dst j.total true then 2
  else if s.noCheck c j then 5
  else if spaceOf j.dst = 2 then
    let p := spaceOff j.dst
    match (s.chan c).openPort with
    | some q => if q ≠ p then 7 else if s.txLimit p < (s.port p).txOpen.length + j.total then 6 else 0
    | none => if s.txLimit p < j.total then 6 else 0
  else 0

/-- Does a move to a bobbin queue wait for chunks? -/
def State.moveWaits (s : State) (j : MoveJob) : Bool :=
  decide (spaceOf j.dst = 2 ∧ s.txFree (spaceOff j.dst) < chunks j.total ∧
    s.isF (Reg.PORT_CTL (spaceOff j.dst)) Fld.PORT_CTL_DESC_EN = false)

/-- A move runs: it reads, checks, writes, and goes on; a failed access stops the engine (R409). -/
def State.moveRun (s : State) (c : Nat) (j : MoveJob) : State :=
  match s.moveRead j.src j.len with
  | (t, _, some e) => t.busError e.1 3 e.2 false
  | (t, d0, none) =>
    let (t, d) := if overlaps j.src j.dst j.len then t.random j.len else (t, d0)
    let old := match j.chk, (s.chan c).chk with
      | some (_, false), some (_, o) => o
      | _, _ => []
    let alg := (j.chk.getD (0, false)).1
    let sum := checkBytes alg (old ++ d)
    match t.moveWrite c j.dst (if j.append then d ++ sum else d) j.eop with
    | (u, some e) => u.busError e.1 3 e.2 true
    | (u, none) =>
      let u := match j.chk with
        | none => u
        | some _ => (u.chanMod c (fun k => { k with chk := if j.append then none else some (alg, old ++ d) })).wrN (Reg.SHU_CH_CHK c) (u32 sum 0)
      u.chNext c

/-- A MOVE or MOVEC of channel c. -/
def State.move (s : State) (c : Nat) (movec : Bool) : State :=
  s.shuIns c (if movec then 2 else 1) 2 2 (fun b t =>
    let j := moveJob b movec
    let e := t.moveErr c b j
    if e ≠ 0 then t.chError c e
    else if t.moveWaits j then t
    else t.moveRun c j)

/-- MOVE. -/
def execMove (c : Nat) (s : State) : Host.Outcome State Fault Refusal := ok (s.move c false)

/-- MOVEC. -/
def execMovec (c : Nat) (s : State) : Host.Outcome State Fault Refusal := ok (s.move c true)

/-- STAMP of channel c: the schedule count goes to DST, in space 0 or 1 (R404). -/
def execStamp (c : Nat) (s : State) : Host.Outcome State Fault Refusal :=
  ok (s.shuIns c 6 2 2 (fun b t =>
    let dst := un b 4 6
    if !zeroFrom b 1 3 || !zeroFrom b 10 15 || decide (insFlags b ≠ 0) then t.chError c 1
    else if 2 ≤ spaceOf dst ∨ spaceOk dst 4 true = false then t.chError c 2
    else ((t.moveWrite c dst (bytesLE 4 t.now) false).1).chNext c))

/-! ## Control (R396, R406, R409, R410). -/

/-- SHUTTLE_GO of channel c. -/
def execShuttleGo (c : Nat) (s : State) : Host.Outcome State Fault Refusal := ok (s.chGo c)

/-- SHUTTLE_ABORT of channel c. -/
def execShuttleAbort (c : Nat) (s : State) : Host.Outcome State Fault Refusal := ok (s.chAbort c)

/-- SHUTTLE_ARM: ARM is written 1 with a trigger event, and an idle channel is armed. -/
def execShuttleArm (c trig : Nat) (s : State) : Host.Outcome State Fault Refusal :=
  ok (if c < 32 ∧ (trig < 72 ∨ trig = 0xFF) then
    ((s.setF (Reg.SHU_CH_CTL c) Fld.SHU_CH_CTL_TRIG trig).setF (Reg.SHU_CH_CTL c) Fld.SHU_CH_CTL_ARM 1).chArm c else s)

/-- SHUTTLE_DISABLE: EN is written 0. -/
def execShuttleDisable (s : State) : Host.Outcome State Fault Refusal := ok s.shuOff

/-- PROG_WRITE: SHU_CH_c_PROG is written. -/
def execProgWrite (c v : Nat) (s : State) : Host.Outcome State Fault Refusal := ok (if c < 32 then s.progWrite c v else s)

/-- Region whose firewall checks an access of the Shuttle to an address of a space (R30, R400). -/
def spaceRegion (space addr : Nat) : Nat :=
  match space with
  | 0 => 6
  | 1 => 7
  | 2 => portRegion (addr % 64)
  | _ => offRegion addr

/-- What the device records of a failed access besides the Shuttle's own error: a firewall's refusal (R30) or an unassigned offset
(R11). -/
def State.accessRecord (s : State) (kind space addr : Nat) (write : Bool) : State :=
  match kind with
  | 3 => s.fwRefuse 5 (spaceRegion space addr) (decide (space < 3)) addr
  | 4 => s.badReg 5 write addr
  | _ => s

/-- SHUTTLE_BUS_ERROR: an access of a running channel fails; kind, space, address and direction as SHU_ERR shows them. -/
def execShuttleBusError (kind space addr : Nat) (write : Bool) (s : State) : Host.Outcome State Fault Refusal :=
  ok (if s.isF Reg.SHU_CTL Fld.SHU_CTL_EN && (s.isF Reg.SHU_STAT Fld.SHU_STAT_BUSERR ||
      (List.range 32).any (fun c => decide (s.chState c = 2 ∨ s.chState c = 3))) then
    (s.accessRecord (kind % 8) (space % 16) addr write).busError kind space addr write else s)

/-- SHUTTLE_RESUME: RESUME is written 1. -/
def execShuttleResume (s : State) : Host.Outcome State Fault Refusal := ok s.shuResume

end Sys2Proof.Machine
end

