-- ==== Sys2Proof/Machine/UplinkMac.lean ====
section
/-! DEFINITION. Sys2Proof/Machine/UplinkMac.lean: frames on uplinks A and B: descriptor rings, offloads and PTP stamps (R359–R361,
R370, R371). Header layouts and checksums are those of IEEE 802.3, IPv4, IPv6, TCP, UDP and IEEE 1588 (log entry 109). -/

namespace Sys2Proof.Machine

/-! ## Headers of a frame without VLAN tag. -/

/-- Ethertype. -/
def etherType (b : Bytes) : Nat := u16be b 12

/-- Protocol of an IPv4 or IPv6 frame, and where its transport header lies. -/
def transport (b : Bytes) : Option (Nat × Nat) :=
  if etherType b = 0x0800 then some (u8 b 23, 14 + 4 * (u8 b 14 % 16))
  else if etherType b = 0x86DD then some (u8 b 20, 54)
  else none

/-- Where the PTP header of a recognised event message lies: Annex C, D or E, messageType 0–3 (R360, R361). -/
def ptpAt (b : Bytes) : Option Nat :=
  let o := if etherType b = 0x88F7 then some 14
    else match transport b with
      | some (17, o) => if u16be b (o + 2) = 319 then some (o + 8) else none
      | _ => none
  match o with
  | none => none
  | some p => if u8 b p % 16 ≤ 3 ∧ p + 34 ≤ b.length then some p else none

/-- Ones' complement sum of 16-bit words, high byte first. -/
def sum16 (b : Bytes) : Nat :=
  let t := (List.range ((b.length + 1) / 2)).foldl (fun a i => a + u16be b (2 * i)) 0
  let f := fun (x : Nat) => x % 65536 + x / 65536
  f (f (f t))

/-- The Internet checksum of b. -/
def inetSum (b : Bytes) : Nat := 65535 - sum16 b

/-- Fill the IPv4 header checksum. -/
def fillIp (b : Bytes) : Bytes :=
  if etherType b = 0x0800 then
    let z := overlay b 24 [0, 0]
    overlay z 24 (bytesBE 2 (inetSum (slice z 14 (4 * (u8 z 14 % 16)))))
  else b

/-- Fill the TCP or UDP checksum. -/
def fillL4 (b : Bytes) : Bytes :=
  match transport b with
  | none => b
  | some (pr, o) =>
    if pr = 6 ∨ pr = 17 then
      let at_ := o + (if pr = 6 then 16 else 6)
      let z := overlay b at_ [0, 0]
      let addrs := if etherType b = 0x0800 then slice b 26 8 else slice b 22 32
      let len := if etherType b = 0x0800 then u16be b 16 - (o - 14) else u16be b 18
      let c := inetSum (addrs ++ bytesBE 4 len ++ [0, 0, 0, pr] ++ slice z o len)
      overlay z at_ (bytesBE 2 (if c = 0 ∧ pr = 17 then 65535 else c))
    else b

/-- The TCP segments of a frame, each with at most mss bytes of payload. -/
def tcpSegments (b : Bytes) (mss : Nat) : List Bytes :=
  match transport b with
  | some (6, o) =>
    let h := o + 4 * (u8 b (o + 12) / 16)
    let data := b.drop h
    let n := (data.length + mss - 1) / mss
    if mss = 0 ∨ n ≤ 1 then [fillL4 (fillIp b)]
    else (List.range n).map (fun i =>
      let p := slice data (i * mss) mss
      let fl := u8 b (o + 13)
      let fl := if i + 1 < n then fl &&& 0xF6 else fl
      let fl := if i = 0 then fl else fl &&& 0x7F
      let x := overlay (overlay (b.take h) (o + 4) (bytesBE 4 ((unbe b (o + 4) 4 + i * mss) % 2 ^ 32))) (o + 13) [fl]
      let x := if etherType b = 0x0800 then
          overlay (overlay x 16 (bytesBE 2 (h - 14 + p.length))) 18 (bytesBE 2 ((u16be b 18 + i) % 65536))
        else overlay x 18 (bytesBE 2 (h - 54 + p.length))
      fillL4 (fillIp (x ++ p)))
  | _ => [b]

/-- Bytes changed at an offset of a PTP frame, with its UDP checksum made good as R361 says: 0 over IPv4; over IPv6 the two
trailing bytes take up the difference. -/
def ptpPatch (b : Bytes) (o : Nat) (v : Bytes) : Bytes :=
  let c := overlay b o v
  match transport b with
  | some (17, u) =>
    if etherType b = 0x0800 then overlay c (u + 6) [0, 0]
    else
      let z := overlay c (c.length - 2) [0, 0]
      let d := (sum16 (b.drop u) + 65535 - sum16 (z.drop u)) % 65535
      overlay z (z.length - 2) (bytesBE 2 d)
  | _ => c

/-! ## Stamps (R359, R361). -/

/-- Is uplink u in mode 1000BASE-X? -/
def State.uplSlow (s : State) (u : Nat) : Bool :=
  if u = 0 then s.isF Reg.UPL_STAT Fld.UPL_STAT_A_MODE else s.isF Reg.UPL_STAT Fld.UPL_STAT_B_MODE

/-- Instant in ns of TAI of a frame received now, at the ball, less RX_ADJ. -/
def State.rxStamp (s : State) (u : Nat) : Nat :=
  ((s.taiInNs : Int) - (if s.uplSlow u then 248 else 82) -
    signed 16 (s.getF (Reg.TU_UPL_ADJ u) Fld.TU_UPL_ADJ_RX_ADJ)).toNat

/-- Instant in ns of TAI at which a frame sent now passes the ball, plus TX_ADJ. -/
def State.txStamp (s : State) (u : Nat) : Nat :=
  ((s.taiInNs : Int) + (if s.uplSlow u then 136 else 54) +
    signed 16 (s.getF (Reg.TU_UPL_ADJ u) Fld.TU_UPL_ADJ_TX_ADJ)).toNat

/-! ## Receive. -/

/-- MAC_EN of uplink u, with its link up. -/
def State.macOn (s : State) (u : Nat) : Bool :=
  !s.noNew 9 (u % 2) && (if u = 0 then s.isF Reg.UPL_CTL Fld.UPL_CTL_MAC_EN_A && s.isF Reg.UPL_STAT Fld.UPL_STAT_A_UP
  else s.isF Reg.UPL_CTL Fld.UPL_CTL_MAC_EN_B && s.isF Reg.UPL_STAT Fld.UPL_STAT_B_UP)

/-- Address of receive descriptor i. -/
def State.rxDescA (s : State) (u i : Nat) : Nat := s.getF (Reg.UPL_RXR u) Fld.UPL_RXR_ADDR * 4096 + 32 * i

/-- Address of transmit descriptor i. -/
def State.txDescA (s : State) (u i : Nat) : Nat := s.getF (Reg.UPL_TXR u) Fld.UPL_TXR_ADDR * 4096 + 32 * i

/-- Receive descriptors from index i on that take a frame of len bytes; `n` are ready by PROD. None when they do not suffice. -/
def State.rxSlots (s : State) (u i n len : Nat) : Option (List Nat) :=
  match n with
  | 0 => none
  | k + 1 =>
    let a := s.rxDescA u i
    let cap := leNat (s.rdMem (a + 8) 2)
    if s.rdByte (a + 10) / 128 = 0 ∨ cap < 64 ∨ 16384 < cap then none
    else if len ≤ cap then some [i]
    else (s.rxSlots u ((i + 1) % 2 ^ s.getF (Reg.UPL_RXR u) Fld.UPL_RXR_RING_LOG2) k (len - cap)).map (fun l => i :: l)

/-- Fill receive descriptor i with part of a frame. -/
def State.rxFill (s : State) (u i : Nat) (part : Bytes) (status vlan ns sec flags : Nat) : State :=
  let a := s.rxDescA u i
  let irq := s.rdByte (a + 10) / 64 % 2
  ((s.wrMem (leNat (s.rdMem a 8) % 2 ^ 36) part).wrMem (a + 10)
    ([64 * irq, status] ++ bytesLE 2 part.length ++ bytesLE 2 vlan ++ bytesLE 4 ns ++ bytesLE 4 sec ++ [flags] ++ List.replicate 7 0)).when
    (decide (irq = 1)) (fun t => t.raiseBit Reg.UPL_INT_STAT (6 + u))

/-- Fill descriptors in turn; the last gets LAST. -/
def State.rxFillAll (s : State) (u : Nat) (l : List Nat) (b : Bytes) (status vlan ns sec flags : Nat) : State :=
  match l with
  | [] => s
  | i :: r =>
    let cap := leNat (s.rdMem (s.rxDescA u i + 8) 2)
    (s.rxFill u i (b.take cap) status vlan ns sec (if r.isEmpty then flags + 8 else flags)).rxFillAll u r (b.drop cap) status vlan ns
      sec flags

/-- Are the IPv4 header and TCP or UDP checksums of a frame good, as far as it has them? -/
def sumsGood (b : Bytes) : Bool :=
  match transport b with
  | none => false
  | some (pr, o) => decide (fillIp b = b) && (decide (fillL4 b = b) || decide (pr = 17 ∧ etherType b = 0x0800 ∧ u16be b (o + 6) = 0))

/-- A MAC control frame that asks for a pause: its quanta of 512 bit times (IEEE 802.3, log entry 109). -/
def pauseOf (b : Bytes) : Option Nat := if etherType b = 0x8808 ∧ u16be b 14 = 1 then some (u16be b 16) else none

/-- A received PAUSE holds uplink u's transmission for its quanta, in ticks rounded up, while PAUSE_RX = 1 (R370). -/
def State.pauseTake (s : State) (u q : Nat) : State :=
  let ticks := (q * 512 * 2 ^ 20 + (if s.uplSlow u then 10 ^ 9 else 10 ^ 10) - 1) / (if s.uplSlow u then 10 ^ 9 else 10 ^ 10)
  s.when (s.isF Reg.UPL_CTL Fld.UPL_CTL_PAUSE_RX) (fun t => { t with upl := { t.upl with
    pause := tset (fun _ => 0) t.upl.pause u (if q = 0 then 0 else (t.now + ticks) % 2 ^ 32 + 1) } })

/-- Does a PAUSE hold uplink u now? -/
def State.paused (s : State) (u : Nat) : Bool :=
  let p := tget (fun _ => 0) s.upl.pause u
  decide (p ≠ 0) && !fired s.now (p - 1)

/-- UPLINK_RX_FRAME: a frame without its VLAN tag, the tag (0 for none), STATUS 1 for a bad FCS, and FLAGS [2] for one that coalesces
several segments (R371). A PAUSE frame goes no further than the MAC. -/
def execUplinkRxFrame (u : Nat) (b : Bytes) (vlan status flags : Nat) (s : State) : Host.Outcome State Fault Refusal :=
  if 2 ≤ u ∨ s.macOn u = false then ok s
  else if status ≠ 1 ∧ (pauseOf b).isSome then ok (s.pauseTake u ((pauseOf b).getD 0))
  else
    let coal := flags / 4 % 2
    let status := if status = 1 then 1 else if coal = 0 ∧ 9216 < b.length then 2 else 0
    let log := s.getF (Reg.UPL_RXR u) Fld.UPL_RXR_RING_LOG2
    let cons := s.getF (Reg.UPL_RXH u) Fld.UPL_RXH_CONS
    let prod := s.getF (Reg.UPL_RXH u) Fld.UPL_RXH_PROD
    match s.rxSlots u cons ((prod + 2 ^ log - cons) % 2 ^ log) b.length with
    | none => ok (s.bump (if u = 0 then Reg.UPL_RX_DROP_0_CNT else Reg.UPL_RX_DROP_1_CNT))
    | some l =>
      let ptp := status = 0 ∧ (ptpAt b).isSome
      let st := s.rxStamp u
      ok ((s.rxFillAll u l b status vlan (if ptp then st % 1000000000 else 0) (if ptp then st / 1000000000 % 2 ^ 32 else 0)
        (4 * coal + 2 * (sumsGood b).toNat + (if ptp then 1 else 0))).setF (Reg.UPL_RXH u) Fld.UPL_RXH_CONS
        ((cons + l.length) % 2 ^ log))

/-! ## Transmit. -/

/-- A frame leaves, with one-step insertion or a two-step stamp for a PTP event message (R361). How long a Pdelay_Resp's
request resided is not held in any state the manual names: a free value (log entry 109). -/
def State.txFrame (s : State) (u : Nat) (b : Bytes) (offl vlan : Nat) : State :=
  let st := s.txStamp u
  let tag := fun (x : Bytes) => if vlan = 0 then x else x.take 12 ++ [0x81, 0] ++ bytesBE 2 vlan ++ x.drop 12
  match ptpAt b with
  | none => s.emit (.uplink u (tag b))
  | some p =>
    let type := u8 b p % 16
    let (x, t) := if offl / 4 % 2 = 1 ∧ type = 0 then
        (ptpPatch b (p + 34) (bytesBE 6 (st / 1000000000) ++ bytesBE 4 (st % 1000000000)), s)
      else if offl / 4 % 2 = 1 ∧ type = 3 then
        (ptpPatch b (p + 8) (bytesBE 8 ((unbe b (p + 8) 8 + s.drawn (2 ^ 64)) % 2 ^ 64)), s.draw)
      else (b, s)
    let t := t.when (decide (offl / 8 % 2 = 1)) (fun v =>
      v.txtsPush u (u16be b (p + 30) * 65536 + type * 4096 + 2048 + u8 b (p + 4)) (st / 1000000000 % 4 * 2 ^ 30 + st % 1000000000))
    t.emit (.uplink u (tag x))

/-- UPLINK_TX_DESC: the transmit descriptor at CONS is sent with its offloads, or refused (R371). -/
def execUplinkTxDesc (u : Nat) (s : State) : Host.Outcome State Fault Refusal :=
  let log := s.getF (Reg.UPL_TXR u) Fld.UPL_TXR_RING_LOG2
  let cons := s.getF (Reg.UPL_TXH u) Fld.UPL_TXH_CONS
  let a := s.txDescA u cons
  let d := s.rdMem a 32
  if 2 ≤ u ∨ s.macOn u = false ∨ s.paused u ∨ cons = s.getF (Reg.UPL_TXH u) Fld.UPL_TXH_PROD ∨ u8 d 10 / 128 = 0 then ok s
  else
    let len := u16 d 8
    let offl := u16 d 12
    let bad := decide (len < 60 ∨ 16 ≤ offl ∨ (offl / 2 % 2 = 0 ∧ 9216 < len))
    let b := s.rdMem (un d 0 8 % 2 ^ 36) len
    let frames := if offl / 2 % 2 = 1 then tcpSegments b (u16 d 14)
      else if offl % 2 = 1 then [fillL4 (fillIp b)] else [b]
    let t := if bad then s else s.each frames (fun f v => v.txFrame u f offl (u16 d 16))
    ok (((t.wrMem (a + 10) [u8 d 10 % 128, bad.toNat]).when (decide (u8 d 10 / 64 % 2 = 1)) (fun v =>
      v.raiseBit Reg.UPL_INT_STAT (8 + u))).setF (Reg.UPL_TXH u) Fld.UPL_TXH_CONS ((cons + 1) % 2 ^ log))

end Sys2Proof.Machine
end

