-- ==== Sys2Proof/Machine/Dispatch.lean ====
section
/-! DEFINITION. Sys2Proof/Machine/Dispatch.lean: one arm per command. -/

namespace Sys2Proof.Machine


/-- The effect of each command on everything but the queue. -/
def exec (i : Instr) (s : State) : Host.Outcome State Fault Refusal :=
  match i with
  | .registerWrite init off v x => Sys2Proof.Machine.execRegisterWrite init off v x s
  | .unassignedAccess init off size write => Sys2Proof.Machine.execUnassignedAccess init off size write s
  | .cellError path slot ue never => Sys2Proof.Machine.execCellError path slot ue never s
  | .blockRetry path good => Sys2Proof.Machine.execBlockRetry path good s
  | .handshakeTimeout path => Sys2Proof.Machine.execHandshakeTimeout path s
  | .substitutionComplete n bad => Sys2Proof.Machine.execSubstitutionComplete n bad s
  | .paceWindowEnd r count ref => Sys2Proof.Machine.execPaceWindowEnd r count ref s
  | .governorPeriodEnd ack => Sys2Proof.Machine.execGovernorPeriodEnd ack s
  | .governorSettleEnd raw ack => Sys2Proof.Machine.execGovernorSettleEnd raw ack s
  | .clockLoss loss => Sys2Proof.Machine.execClockLoss loss s
  | .timeBaseReturn => Sys2Proof.Machine.execTimeBaseReturn s
  | .frameCommit slot => Sys2Proof.Machine.execFrameCommit slot s
  | .loaderLoad force => Sys2Proof.Machine.execLoaderLoad force s
  | .loaderReprickBlock force => Sys2Proof.Machine.execLoaderReprickBlock force s
  | .loaderRestorePinSet force => Sys2Proof.Machine.execLoaderRestorePinSet force s
  | .loaderReprickRegion force => Sys2Proof.Machine.execLoaderReprickRegion force s
  | .loaderAbort => Sys2Proof.Machine.execLoaderAbort s
  | .loaderVerifyDone err => Sys2Proof.Machine.execLoaderVerifyDone err s
  | .loaderDrainEnd => Sys2Proof.Machine.execLoaderDrainEnd s
  | .loaderWriteDone err => Sys2Proof.Machine.execLoaderWriteDone err s
  | .loaderSelfTestDone fail => Sys2Proof.Machine.execLoaderSelfTestDone fail s
  | .spareSelfTest r x fail => Sys2Proof.Machine.execSpareSelfTest r x fail s
  | .readbackStart path => Sys2Proof.Machine.execReadbackStart path s
  | .readbackDone => Sys2Proof.Machine.execReadbackDone s
  | .linePreambleDetect port first words => Sys2Proof.Machine.execLinePreambleDetect port first words s
  | .lineHeaderReceive port rest => Sys2Proof.Machine.execLineHeaderReceive port rest s
  | .lineSymbolReceive port first words after => Sys2Proof.Machine.execLineSymbolReceive port first words after s
  | .lineFrameDecode port rest carriers snr level => Sys2Proof.Machine.execLineFrameDecode port rest carriers snr level s
  | .lineRxDeadlineMiss port => Sys2Proof.Machine.execLineRxDeadlineMiss port s
  | .lineTxDeadlineMiss port sym => Sys2Proof.Machine.execLineTxDeadlineMiss port sym s
  | .laneAligned lane => Sys2Proof.Machine.execLaneAligned lane s
  | .laneLoss port words => Sys2Proof.Machine.execLaneLoss port words s
  | .contentionSlot port => Sys2Proof.Machine.execContentionSlot port s
  | .lineTxEnd port first => Sys2Proof.Machine.execLineTxEnd port first s
  | .responseSend port => Sys2Proof.Machine.execResponseSend port s
  | .responseWindowEnd port => Sys2Proof.Machine.execResponseWindowEnd port s
  | .lineScheduledLaunch port => Sys2Proof.Machine.execLineScheduledLaunch port s
  | .reassemblyTimeout port src seq => Sys2Proof.Machine.execReassemblyTimeout port src seq s
  | .lineTxPacketTake port => Sys2Proof.Machine.execLineTxPacketTake port s
  | .airCycleStart port receiving => Sys2Proof.Machine.execAirCycleStart port receiving s
  | .airBackoffExpire port => Sys2Proof.Machine.execAirBackoffExpire port s
  | .airCcaDone port power receiving => Sys2Proof.Machine.execAirCcaDone port power receiving s
  | .airEnhAckSend port => Sys2Proof.Machine.execAirEnhAckSend port s
  | .airAckTimeout port => Sys2Proof.Machine.execAirAckTimeout port s
  | .airScheduledLaunch port receiving => Sys2Proof.Machine.execAirScheduledLaunch port receiving s
  | .airFrameReceive port psdu fcs2 phr mcs snr level => Sys2Proof.Machine.execAirFrameReceive port psdu fcs2 phr mcs snr level s
  | .floodRelaySend cca => Sys2Proof.Machine.execFloodRelaySend cca s
  | .airRxDeadlineMiss port => Sys2Proof.Machine.execAirRxDeadlineMiss port s
  | .airTxDeadlineMiss port => Sys2Proof.Machine.execAirTxDeadlineMiss port s
  | .rendezvousWindowOpen port addr => Sys2Proof.Machine.execRendezvousWindowOpen port addr s
  | .rendezvousWindowEnd port addr tx => Sys2Proof.Machine.execRendezvousWindowEnd port addr tx s
  | .wakeTrainStart port addr => Sys2Proof.Machine.execWakeTrainStart port addr s
  | .wakeFrameSend port => Sys2Proof.Machine.execWakeFrameSend port s
  | .memberBeaconMiss port => Sys2Proof.Machine.execMemberBeaconMiss port s
  | .memberSearchRound port => Sys2Proof.Machine.execMemberSearchRound port s
  | .memberScanTimeout port => Sys2Proof.Machine.execMemberScanTimeout port s
  | .airTxPacketTake port => Sys2Proof.Machine.execAirTxPacketTake port s
  | .portBobRxRead port => Sys2Proof.Machine.execPortBobRxRead port s
  | .portBobTxWrite port value => Sys2Proof.Machine.execPortBobTxWrite port value s
  | .portEnable port => Sys2Proof.Machine.execPortEnable port s
  | .portDisable port => Sys2Proof.Machine.execPortDisable port s
  | .portRxReset port => Sys2Proof.Machine.execPortRxReset port s
  | .portTxReset port => Sys2Proof.Machine.execPortTxReset port s
  | .portRxSinkOff port => Sys2Proof.Machine.execPortRxSinkOff port s
  | .descFetch port errs => Sys2Proof.Machine.execDescFetch port errs s
  | .descCopy port err => Sys2Proof.Machine.execDescCopy port err s
  | .descComplete port index code => Sys2Proof.Machine.execDescComplete port index code s
  | .casCommaAlign port => Sys2Proof.Machine.execCasCommaAlign port s
  | .casHelloTimer port => Sys2Proof.Machine.execCasHelloTimer port s
  | .casHelloReceive port codes => Sys2Proof.Machine.execCasHelloReceive port codes s
  | .casLinkDown port viol down => Sys2Proof.Machine.execCasLinkDown port viol down s
  | .casFrameReceive port sof codes stop => Sys2Proof.Machine.execCasFrameReceive port sof codes stop s
  | .casCreditReceive port lo hi crc => Sys2Proof.Machine.execCasCreditReceive port lo hi crc s
  | .casCreditSend port => Sys2Proof.Machine.execCasCreditSend port s
  | .casFrameSend port => Sys2Proof.Machine.execCasFrameSend port s
  | .casCommitTimeout port cseq => Sys2Proof.Machine.execCasCommitTimeout port cseq s
  | .casResultSend port => Sys2Proof.Machine.execCasResultSend port s
  | .intakeGrant l err => Sys2Proof.Machine.execIntakeGrant l err s
  | .keyDeriveDone => Sys2Proof.Machine.execKeyDeriveDone s
  | .lanePassDone l err => Sys2Proof.Machine.execLanePassDone l err s
  | .fwRingWrite => Sys2Proof.Machine.execFwRingWrite s
  | .slotRead slot err => Sys2Proof.Machine.execSlotRead slot err s
  | .slotWrite slot err => Sys2Proof.Machine.execSlotWrite slot err s
  | .slotWriteCtr slot err => Sys2Proof.Machine.execSlotWriteCtr slot err s
  | .slotRoll slot err => Sys2Proof.Machine.execSlotRoll slot err s
  | .slotClear slot err => Sys2Proof.Machine.execSlotClear slot err s
  | .slotOpComplete => Sys2Proof.Machine.execSlotOpComplete s
  | .intakeEnable => Sys2Proof.Machine.execIntakeEnable s
  | .intakeDisable => Sys2Proof.Machine.execIntakeDisable s
  | .tableRebuildDone => Sys2Proof.Machine.execTableRebuildDone s
  | .keyCacheFlush => Sys2Proof.Machine.execKeyCacheFlush s
  | .keyCacheFlushDone => Sys2Proof.Machine.execKeyCacheFlushDone s
  | .menderBatch u ue => Sys2Proof.Machine.execMenderBatch u ue s
  | .menderBatchDone u => Sys2Proof.Machine.execMenderBatchDone u s
  | .classSelect cls w => Sys2Proof.Machine.execClassSelect cls w s
  | .classDataAccess wr => Sys2Proof.Machine.execClassDataAccess wr s
  | .classCommit => Sys2Proof.Machine.execClassCommit s
  | .classInstall => Sys2Proof.Machine.execClassInstall s
  | .freezeDue => Sys2Proof.Machine.execFreezeDue s
  | .freezeCapture => Sys2Proof.Machine.execFreezeCapture s
  | .freezeClose => Sys2Proof.Machine.execFreezeClose s
  | .darnerSnapshot => Sys2Proof.Machine.execDarnerSnapshot s
  | .darnerEnable => Sys2Proof.Machine.execDarnerEnable s
  | .darnerDisable => Sys2Proof.Machine.execDarnerDisable s
  | .storeStart absent => Sys2Proof.Machine.execStoreStart absent s
  | .storeRestoreDone => Sys2Proof.Machine.execStoreRestoreDone s
  | .storeStop => Sys2Proof.Machine.execStoreStop s
  | .recordUnitProgram => Sys2Proof.Machine.execRecordUnitProgram s
  | .nandProgramDone d b p fail => Sys2Proof.Machine.execNandProgramDone d b p fail s
  | .nandReadDone loc corr bad retry rebuilt => Sys2Proof.Machine.execNandReadDone loc corr bad retry rebuilt s
  | .nandEraseDone d fail => Sys2Proof.Machine.execNandEraseDone d fail s
  | .gcStart => Sys2Proof.Machine.execGcStart s
  | .relocCopyDone => Sys2Proof.Machine.execRelocCopyDone s
  | .relocVerifyDone bad => Sys2Proof.Machine.execRelocVerifyDone bad s
  | .relocIntentDone => Sys2Proof.Machine.execRelocIntentDone s
  | .foldStart idle => Sys2Proof.Machine.execFoldStart idle s
  | .wearLevelMove => Sys2Proof.Machine.execWearLevelMove s
  | .checkpointStart => Sys2Proof.Machine.execCheckpointStart s
  | .checkpointDone => Sys2Proof.Machine.execCheckpointDone s
  | .storeFlushDone => Sys2Proof.Machine.execStoreFlushDone s
  | .channelEvacuate c => Sys2Proof.Machine.execChannelEvacuate c s
  | .evacuationDone => Sys2Proof.Machine.execEvacuationDone s
  | .channelRejoin c => Sys2Proof.Machine.execChannelRejoin c s
  | .rejoinDone match_ bad => Sys2Proof.Machine.execRejoinDone match_ bad s
  | .ringRead k err => Sys2Proof.Machine.execRingRead k err s
  | .ringWrite k err => Sys2Proof.Machine.execRingWrite k err s
  | .ringTrim k => Sys2Proof.Machine.execRingTrim k s
  | .ringFlush k => Sys2Proof.Machine.execRingFlush k s
  | .recTailWrite pos => Sys2Proof.Machine.execRecTailWrite pos s
  | .modulatorFault c => Sys2Proof.Machine.execModulatorFault c s
  | .modulatorFaultClear c => Sys2Proof.Machine.execModulatorFaultClear c s
  | .metrologySample v amps q n => Sys2Proof.Machine.execMetrologySample v amps q n s
  | .metrologyBlockPublish freq => Sys2Proof.Machine.execMetrologyBlockPublish freq s
  | .sealOpened => Sys2Proof.Machine.execSealOpened s
  | .sealClosed => Sys2Proof.Machine.execSealClosed s
  | .sealSpend => Sys2Proof.Machine.execSealSpend s
  | .sealEnd => Sys2Proof.Machine.execSealEnd s
  | .calCommit fail => Sys2Proof.Machine.execCalCommit fail s
  | .sessionTimeout => Sys2Proof.Machine.execSessionTimeout s
  | .calDataAccess wr => Sys2Proof.Machine.execCalDataAccess wr s
  | .totEnable => Sys2Proof.Machine.execTotEnable s
  | .pcalLoad err => Sys2Proof.Machine.execPcalLoad err s
  | .pcalCancel => Sys2Proof.Machine.execPcalCancel s
  | .taiMinuteBoundary => Sys2Proof.Machine.execTaiMinuteBoundary s
  | .billingForce => Sys2Proof.Machine.execBillingForce s
  | .stateRecordPeriodic => Sys2Proof.Machine.execStateRecordPeriodic s
  | .totRestoration => Sys2Proof.Machine.execTotRestoration s
  | .billSnap => Sys2Proof.Machine.execBillSnap s
  | .billDataRead => Sys2Proof.Machine.execBillDataRead s
  | .taiSet rel => Sys2Proof.Machine.execTaiSet rel s
  | .leapSecond => Sys2Proof.Machine.execLeapSecond s
  | .cmpFire k => Sys2Proof.Machine.execCmpFire k s
  | .cmpOutputEnd b => Sys2Proof.Machine.execCmpOutputEnd b s
  | .ppsOutPulse => Sys2Proof.Machine.execPpsOutPulse s
  | .ppsInEdge sub => Sys2Proof.Machine.execPpsInEdge sub s
  | .ptpOffsetWrite v => Sys2Proof.Machine.execPtpOffsetWrite v s
  | .pairTimeSample v => Sys2Proof.Machine.execPairTimeSample v s
  | .holdoverTimeout => Sys2Proof.Machine.execHoldoverTimeout s
  | .rtcReload => Sys2Proof.Machine.execRtcReload s
  | .schedRead => Sys2Proof.Machine.execSchedRead s
  | .txtsPop u => Sys2Proof.Machine.execTxtsPop u s
  | .afeAdjStore port tx rx => Sys2Proof.Machine.execAfeAdjStore port tx rx s
  | .servoSrcChange src => Sys2Proof.Machine.execServoSrcChange src s
  | .uplinkRxFrame u b vlan status flags => Sys2Proof.Machine.execUplinkRxFrame u b vlan status flags s
  | .uplinkTxDesc u => Sys2Proof.Machine.execUplinkTxDesc u s
  | .sessionOpen n => Sys2Proof.Machine.execSessionOpen n s
  | .sessionResume n => Sys2Proof.Machine.execSessionResume n s
  | .sessionClose n => Sys2Proof.Machine.execSessionClose n s
  | .sessionSync n => Sys2Proof.Machine.execSessionSync n s
  | .sessionDoorbell n which v => Sys2Proof.Machine.execSessionDoorbell n which v s
  | .tlsRecordReceive n => Sys2Proof.Machine.execTlsRecordReceive n s
  | .tlsRecordTransmit n => Sys2Proof.Machine.execTlsRecordTransmit n s
  | .resultMessageSend n => Sys2Proof.Machine.execResultMessageSend n s
  | .batchClose k => Sys2Proof.Machine.execBatchClose k s
  | .batchSend k => Sys2Proof.Machine.execBatchSend k s
  | .dayBoundary => Sys2Proof.Machine.execDayBoundary s
  | .manifestSigned k => Sys2Proof.Machine.execManifestSigned k s
  | .handshakeSign n content => Sys2Proof.Machine.execHandshakeSign n content s
  | .roleBind n r good => Sys2Proof.Machine.execRoleBind n r good s
  | .cosemRequest n w carrier items => Sys2Proof.Machine.execCosemRequest n w carrier items s
  | .shuttleGo c => Sys2Proof.Machine.execShuttleGo c s
  | .shuttleAbort c => Sys2Proof.Machine.execShuttleAbort c s
  | .shuttleArm c trig => Sys2Proof.Machine.execShuttleArm c trig s
  | .shuttleTriggerStart c => Sys2Proof.Machine.execShuttleTriggerStart c s
  | .shuttleDisable => Sys2Proof.Machine.execShuttleDisable s
  | .shuttleEnd c => Sys2Proof.Machine.execShuttleEnd c s
  | .move c => Sys2Proof.Machine.execMove c s
  | .movec c => Sys2Proof.Machine.execMovec c s
  | .loop c => Sys2Proof.Machine.execLoop c s
  | .wait c => Sys2Proof.Machine.execWait c s
  | .waitTimeout c => Sys2Proof.Machine.execWaitTimeout c s
  | .signal c => Sys2Proof.Machine.execSignal c s
  | .stamp c => Sys2Proof.Machine.execStamp c s
  | .progWrite c v => Sys2Proof.Machine.execProgWrite c v s
  | .shuttleBusError kind space addr write => Sys2Proof.Machine.execShuttleBusError kind space addr write s
  | .shuttleResume => Sys2Proof.Machine.execShuttleResume s
  | .eventSet e => Sys2Proof.Machine.execEventSet e s
  | .eventClear e => Sys2Proof.Machine.execEventClear e s
  | .intClaim t init => Sys2Proof.Machine.execIntClaim t init s
  | .intComplete t init v => Sys2Proof.Machine.execIntComplete t init v s
  | .intFlush t init => Sys2Proof.Machine.execIntFlush t init s
  | .holdOffExpire g => Sys2Proof.Machine.execHoldOffExpire g s
  | .coreWake t wfi => Sys2Proof.Machine.execCoreWake t wfi s
  | .intSwSet n => Sys2Proof.Machine.execIntSwSet n s
  | .intSwClear n => Sys2Proof.Machine.execIntSwClear n s
  | .ndlInfo slot => Sys2Proof.Machine.execNdlInfo slot s
  | .ndlGenerate slot => Sys2Proof.Machine.execNdlGenerate slot s
  | .ndlUnwrap slot param => Sys2Proof.Machine.execNdlUnwrap slot param s
  | .ndlDestroy slot bad => Sys2Proof.Machine.execNdlDestroy slot bad s
  | .ndlSign slot => Sys2Proof.Machine.execNdlSign slot s
  | .ndlHmac slot => Sys2Proof.Machine.execNdlHmac slot s
  | .ndlQuote param => Sys2Proof.Machine.execNdlQuote param s
  | .ndlPubkey slot => Sys2Proof.Machine.execNdlPubkey slot s
  | .ndlDecap slot => Sys2Proof.Machine.execNdlDecap slot s
  | .ndlOpComplete vaultFail bad => Sys2Proof.Machine.execNdlOpComplete vaultFail bad s
  | .vaultEraseDone => Sys2Proof.Machine.execVaultEraseDone s
  | .cntDomainIdentity => Sys2Proof.Machine.execCntDomainIdentity s
  | .cntRollbackFloor kind steps => Sys2Proof.Machine.execCntRollbackFloor kind steps s
  | .cntPairRoleLock role => Sys2Proof.Machine.execCntPairRoleLock role s
  | .cntDebugOpen => Sys2Proof.Machine.execCntDebugOpen s
  | .cntChangeDone fail => Sys2Proof.Machine.execCntChangeDone fail s
  | .changeLogReconcile => Sys2Proof.Machine.execChangeLogReconcile s
  | .updVerify stg err => Sys2Proof.Machine.execUpdVerify stg err s
  | .updActivateLive stg => Sys2Proof.Machine.execUpdActivateLive stg s
  | .updActivateNextStart stg => Sys2Proof.Machine.execUpdActivateNextStart stg s
  | .updStepDone err item bad => Sys2Proof.Machine.execUpdStepDone err item bad s
  | .updCommit fail => Sys2Proof.Machine.execUpdCommit fail s
  | .updRevert bad => Sys2Proof.Machine.execUpdRevert bad s
  | .updRecoveryRequest => Sys2Proof.Machine.execUpdRecoveryRequest s
  | .trialTimeout bad => Sys2Proof.Machine.execTrialTimeout bad s
  | .stitchOffer port b => Sys2Proof.Machine.execStitchOffer port b s
  | .stitchRequest port b => Sys2Proof.Machine.execStitchRequest port b s
  | .stitchBlock port b => Sys2Proof.Machine.execStitchBlock port b s
  | .stitchDone => Sys2Proof.Machine.execStitchDone s
  | .stitchAbort => Sys2Proof.Machine.execStitchAbort s
  | .uartDataFrame b => Sys2Proof.Machine.execUartDataFrame b s
  | .uartEndFrame b bad => Sys2Proof.Machine.execUartEndFrame b bad s
  | .uartRxTimeout => Sys2Proof.Machine.execUartRxTimeout s
  | .rcvGo init len bad => Sys2Proof.Machine.execRcvGo init len bad s
  | .samplerReport code sev path data => Sys2Proof.Machine.execSamplerReport code sev path data s
  | .samplerFifoTake => Sys2Proof.Machine.execSamplerFifoTake s
  | .samplerLostSynth => Sys2Proof.Machine.execSamplerLostSynth s
  | .mirrorUnitWrite => Sys2Proof.Machine.execMirrorUnitWrite s
  | .samplerSwRecord init sev code => Sys2Proof.Machine.execSamplerSwRecord init sev code s
  | .samplerClear => Sys2Proof.Machine.execSamplerClear s
  | .samplerRdSel slot w => Sys2Proof.Machine.execSamplerRdSel slot w s
  | .samplerRdData => Sys2Proof.Machine.execSamplerRdData s
  | .hoopWatchdogExpire => Sys2Proof.Machine.execHoopWatchdogExpire s
  | .fieldWatchdogExpire => Sys2Proof.Machine.execFieldWatchdogExpire s
  | .hoopWdogKick init key => Sys2Proof.Machine.execHoopWdogKick init key s
  | .fieldWdogKick init key => Sys2Proof.Machine.execFieldWdogKick init key s
  | .ladderStepRequest init key act => Sys2Proof.Machine.execLadderStepRequest init key act s
  | .regionResetDone fail => Sys2Proof.Machine.execRegionResetDone fail s
  | .powerCycleTimeout clk v => Sys2Proof.Machine.execPowerCycleTimeout clk v s
  | .cyclesReset => Sys2Proof.Machine.execCyclesReset s
  | .pairStatusSend => Sys2Proof.Machine.execPairStatusSend s
  | .pairMessageReceive b => Sys2Proof.Machine.execPairMessageReceive b s
  | .mirrorTimeout => Sys2Proof.Machine.execMirrorTimeout s
  | .pairYield => Sys2Proof.Machine.execPairYield s
  | .pairSenseStable => Sys2Proof.Machine.execPairSenseStable s
  | .takeoverSample low => Sys2Proof.Machine.execTakeoverSample low s
  | .pairStatusTimeout => Sys2Proof.Machine.execPairStatusTimeout s
  | .witnessInstall exp => Sys2Proof.Machine.execWitnessInstall exp s
  | .witnessWaitExpire => Sys2Proof.Machine.execWitnessWaitExpire s
  | .witnessExpire => Sys2Proof.Machine.execWitnessExpire s
  | .bothHolding => Sys2Proof.Machine.execBothHolding s
  | .pairStartTimeout => Sys2Proof.Machine.execPairStartTimeout s
  | .resyncStart => Sys2Proof.Machine.execResyncStart s
  | .resyncPhaseDone => Sys2Proof.Machine.execResyncPhaseDone s
  | .ponrstRise away clk v rcv => Sys2Proof.Machine.execPonrstRise away clk v rcv s
  | .ponrstFall => Sys2Proof.Machine.execPonrstFall s
  | .warmReset v rcv => Sys2Proof.Machine.execWarmReset v rcv s
  | .pfailFall erasing => Sys2Proof.Machine.execPfailFall erasing s
  | .pfailRise => Sys2Proof.Machine.execPfailRise s
  | .clockRestored d => Sys2Proof.Machine.execClockRestored d s
  | .uplinkLinkChange link up width gen => Sys2Proof.Machine.execUplinkLinkChange link up width gen s
  | .vbatDip => Sys2Proof.Machine.execVbatDip s
  | .pairEnWrite en => Sys2Proof.Machine.execPairEnWrite en s
  | .bootPfailHoldEnd => Sys2Proof.Machine.execBootPfailHoldEnd s
  | .interconnectError addr init => Sys2Proof.Machine.execInterconnectError addr init s
  | .ppsOutFall => Sys2Proof.Machine.execPpsOutFall s
  | .airTxEnd port => Sys2Proof.Machine.execAirTxEnd port s
  | .msixUnmask v => Sys2Proof.Machine.execMsixUnmask v s

end Sys2Proof.Machine
end

