-- ==== Sys2Proof/Machine/Tick.lean ====
section
/-! DEFINITION. Sys2Proof/Machine/Tick.lean: one tick of 2^−20 s, which is what a step on an empty queue does (log entry 1; R349,
R366, R418, R470, R480, R482, R485, and INK_RATE). What the table gives a row of its own happens at that row, not here. -/

namespace Sys2Proof.Machine

/-- Ticks of a second of operating time: 32,768 RTC periods of 32 ticks (R43, R470). -/
abbrev secTicks : Nat := 2 ^ 20

/-- The RTC's correction at an edge: RTC_TRIM as last seen outside reset, in units of 0.25 ppm, gathers up to a whole period, which is then
counted twice or not at all. Answers the domain and the periods to count (R43, R366; log entry 164). -/
def State.rtcTrim (s : State) : AoState × Nat :=
  let a := s.ao
  let trim := if s.pins.reset then a.trim else signed 8 (s.getF Reg.TU_CTL Fld.TU_CTL_RTC_TRIM)
  let x := a.trimAcc + trim
  if 4000000 ≤ x then ({ a with trim := trim, trimAcc := x - 4000000 }, 2)
  else if x ≤ -4000000 then ({ a with trim := trim, trimAcc := x + 4000000 }, 0)
  else ({ a with trim := trim, trimAcc := x }, 1)

/-- Is this tick an edge of the RTC? -/
def State.rtcEdge (s : State) : Bool := decide ((s.ao.opsub + 1) % 32 = 0)

/-- One more tick of operating time, on VCORE whatever the reset state (R470); the RTC counts by itself while it is not reloaded. -/
def State.aoTick (s : State) : State :=
  let n := s.ao.opsub + 1
  let (a, k) := if s.rtcEdge then s.rtcTrim else (s.ao, 0)
  let sec := decide (secTicks ≤ n)
  let a := { a with rtc := if a.rtcOk then a.rtc + k else a.rtc, opsub := if sec then n - secTicks else n }
  if sec then { s with ao := { a with opsec := (a.opsec + 1) % 2 ^ 40, escAgo := a.escAgo.map (fun n => min (n + 1) 7200) } } else { s with ao := a }

/-- The seconds of the watchdogs and of R485, once a second. -/
def State.ladderTick (s : State) : State :=
  let l := s.ladder
  { s with ladder := { l with
    hwd := if l.hoopRun then l.hwd - 1 else l.hwd
    fwd := if l.fieldRun then l.fwd - 1 else l.fwd
    sinceStep := min (l.sinceStep + 1) 3600 } }

/-- Frames committed in the window of 2^20 ticks that ends. -/
def State.rateTick (s : State) : State :=
  let t := s.wrN Reg.INK_RATE s.ink.rate
  { t with ink := { t.ink with rate := 0 } }

/-- Hold-off timers fall by k. -/
def State.holdTick (s : State) (k : Nat) : State :=
  s.intMod (fun i => { i with hold := (i.hold.map (fun e => (e.1, e.2 - k))).filter (fun e => decide (e.2 ≠ 0)) })

/-- Both clocks advance by k ticks (R349). -/
def State.clockTick (s : State) (k : Nat) : State :=
  s.tuMod (fun x => { x with sched := (x.sched + k) % 2 ^ 32, tai := x.tai + k * 2 ^ 12 })

/-- Ticks by which both clocks advance in this tick: one; while the time base is lost 32 for each period the RTC counts, at its edges
(R43). -/
def State.clockSteps (s : State) : Nat := if s.tbLost then (if s.rtcEdge then 32 * s.rtcTrim.2 else 0) else 1

/-- The loader's Isolate lasts until the next tick, and Write follows (R58; log entry 165). -/
def State.isolateEnd (s : State) : State :=
  s.when (decide (s.prkState = 3)) (fun t => t.setF Reg.UPD_PRK_STAT Fld.UPD_PRK_STAT_STATE 4)

/-- One tick. While PONRST_N is low only the always-on domain counts. -/
def State.tick (s : State) : State :=
  let t := s.aoTick
  if s.pins.reset then t
  else
    let k := s.clockSteps
    let u := (((t.clockTick k).holdTick k).isolateEnd).when (decide (t.ao.opsub = 0)) State.ladderTick
    (u.when (decide (u.time.sched % 2 ^ 20 < k)) (fun v => v.rateTick.forget)).msixAll

end Sys2Proof.Machine
end

