-- ==== Sys2Proof/Safety.lean ====
section
/-! DEFINITION. Sys2Proof/Safety.lean: what claims speak of: the invariants of a state, the parts of a state, and which parts each
command may touch. -/

namespace Sys2Proof.Machine

/-! ## Invariants. -/

/-- DRAM lists its bytes in rising order of address, and lists no byte that reads as an unlisted one does. -/
abbrev Memory.wf (m : Tbl Byte) : Prop := Canon (fun _ => (0 : Byte)) m

/-- The register file lists its words in rising order of key, and lists no word at its reset value. -/
abbrev Registers.wf (r : Tbl Word) : Prop := Canon Reg.resetOf r

/-- No counted setting has more entries programmed than its limit, and no floor lies above the entries programmed for it (R442). -/
def HoopState.countsOk (h : HoopState) : Prop :=
  h.domainUsed ≤ 4 ∧ h.pairUsed ≤ 2 ∧ h.debugUsed ≤ 3 ∧ h.unsealUsed ≤ 16 ∧
    h.floorUsed.length = h.floors.length ∧ (∀ k, h.floorUsed.getD k 0 ≤ 64) ∧ ∀ k, h.floors.getD k 0 ≤ h.floorUsed.getD k 0

/-- At most 256 reports wait for the Sampler (R470). -/
def SmpState.fifoOk (p : SmpState) : Prop := p.fifo.length ≤ 256

/-- The invariant that every step keeps. -/
def State.Wf (s : State) : Prop := Registers.wf s.regs ∧ Memory.wf s.dram ∧ s.hoop.countsOk ∧ s.smp.fifoOk

/-! ## Parts of a state. -/

/-- A part of the state: a field, or the registers of a window of the map (R10): windows 0–11 are the blocks of 64 KiB from
CHIP to UPD, window 16 is that of the ports. -/
inductive Part
  | pending | dram | fab | dramFit | ports | ink | mnd | drn | sto | msm | tot | time | upl | shu | intr | hoop | upd | nor | norHeld | ao
  | smp | ladder | pair | pins | busData | out | draws
  | win (w : Nat)
deriving DecidableEq, Repr

/-- The window of a register key. -/
def window (k : Nat) : Nat := min (k / 0x10000) 16

/-- Is a part of t as it is in s? -/
def Same (p : Part) (s t : State) : Prop :=
  match p with
  | .pending => t.pending = s.pending
  | .dram => t.dram = s.dram
  | .fab => t.fab = s.fab
  | .dramFit => t.dramFit = s.dramFit
  | .ports => t.ports = s.ports
  | .ink => t.ink = s.ink
  | .mnd => t.mnd = s.mnd
  | .drn => t.drn = s.drn
  | .sto => t.sto = s.sto
  | .msm => t.msm = s.msm
  | .tot => t.tot = s.tot
  | .time => t.time = s.time
  | .upl => t.upl = s.upl
  | .shu => t.shu = s.shu
  | .intr => t.intr = s.intr
  | .hoop => t.hoop = s.hoop
  | .upd => t.upd = s.upd
  | .nor => t.nor = s.nor
  | .norHeld => t.norHeld = s.norHeld
  | .ao => t.ao = s.ao
  | .smp => t.smp = s.smp
  | .ladder => t.ladder = s.ladder
  | .pair => t.pair = s.pair
  | .pins => t.pins = s.pins
  | .busData => t.busData = s.busData
  | .out => t.out = s.out
  | .draws => t.draws = s.draws
  | .win w => ∀ k, window k = w → t.raw k = s.raw k

/-- t differs from s in parts of L at most. -/
def Only (L : List Part) (s t : State) : Prop := ∀ p, p ∉ L → Same p s t

/-- Every part but the queue of pending commands. -/
abbrev Part.rest : List Part :=
  [.dram, .fab, .dramFit, .ports, .ink, .mnd, .drn, .sto, .msm, .tot, .time, .upl, .shu, .intr, .hoop, .upd, .nor, .norHeld, .ao, .smp,
    .ladder, .pair, .pins, .busData, .out, .draws] ++ (List.range 17).map Part.win

/-! ## What commands do. -/

/-- Command c answers a next state in s, and P holds of that state. -/
def Runs (c : Instr) (s : State) (P : State → Prop) : Prop := ∃ t, exec c s = .next t ∧ P t

/-- t differs from s, in what the Sampler's FIFO holds, by one report with this content, stamped in s. -/
abbrev Logged (s t : State) (code sev path : Nat) (data : Bytes) : Prop := t.smp.fifo = s.smp.fifo ++ [s.entry code sev path data]

/-- The parts that each command may touch. -/
def touches (c : Instr) : List Part :=
  match c with
  | .registerWrite .. | .unassignedAccess .. | .cellError .. | .blockRetry .. | .handshakeTimeout ..
  | .substitutionComplete .. | .clockLoss .. | .loaderWriteDone .. | .loaderSelfTestDone .. | .spareSelfTest ..
  | .cosemRequest .. | .move .. | .movec .. | .stamp .. | .updStepDone .. | .updRevert .. | .trialTimeout ..
  | .uartEndFrame .. | .rcvGo .. | .samplerReport .. | .samplerSwRecord .. | .hoopWatchdogExpire | .fieldWatchdogExpire
  | .ladderStepRequest .. | .regionResetDone .. | .powerCycleTimeout .. | .ponrstRise .. | .ponrstFall | .warmReset ..
  | .bootPfailHoldEnd | .interconnectError .. => Part.rest
  | .paceWindowEnd .. => [.fab, .draws, .win 0]
  | .governorPeriodEnd .. => [.fab, .smp, .out, .win 0, .win 4, .win 16]
  | .governorSettleEnd .. => [.fab, .smp, .win 0, .win 4]
  | .timeBaseReturn => [.norHeld, .win 0, .win 2]
  | .frameCommit .. => [.dram, .ports, .ink, .sto, .msm, .upl, .pair, .out, .win 6]
  | .loaderLoad .. | .loaderReprickBlock .. | .loaderRestorePinSet .. | .loaderReprickRegion .. | .contentionSlot ..
  | .lineScheduledLaunch .. | .airScheduledLaunch .. | .rendezvousWindowEnd .. | .descCopy .. | .descComplete ..
  | .casHelloReceive .. | .casFrameReceive .. | .casFrameSend .. | .casCommitTimeout .. | .intakeGrant .. | .airTxEnd .. =>
    [.dram, .fab, .ports, .ink, .time, .intr, .ao, .smp, .ladder, .out, .win 0, .win 4, .win 6, .win 11, .win 16]
  | .loaderAbort | .readbackStart .. => [.fab, .win 11]
  | .loaderVerifyDone .. | .lineHeaderReceive .. | .lineFrameDecode .. | .lineTxDeadlineMiss .. | .lineTxEnd ..
  | .responseWindowEnd .. | .lineTxPacketTake .. | .airCcaDone .. | .airAckTimeout .. | .airFrameReceive ..
  | .airTxDeadlineMiss .. | .airTxPacketTake .. | .portBobTxWrite .. | .portEnable .. | .portRxSinkOff .. =>
    [.dram, .fab, .ports, .ink, .time, .intr, .ao, .smp, .ladder, .out, .draws, .win 0, .win 4, .win 6, .win 11, .win 16]
  | .loaderDrainEnd =>
    [.dram, .fab, .ports, .ink, .mnd, .drn, .sto, .tot, .time, .upl, .shu, .intr, .hoop, .ao, .smp, .ladder, .pair, .out, .draws, .win 0, .win 2, .win 3, .win 4, .win 5, .win 6, .win 7, .win 10, .win 11, .win 16]
  | .readbackDone => [.fab, .draws, .win 11]
  | .linePreambleDetect .. => [.ports, .draws, .win 16]
  | .lineSymbolReceive .. => [.ports, .draws, .win 16]
  | .lineRxDeadlineMiss .. => [.fab, .ports, .smp, .win 4, .win 16]
  | .laneAligned .. | .airEnhAckSend .. | .wakeFrameSend .. | .casHelloTimer .. | .casResultSend .. => [.ports, .out, .win 16]
  | .laneLoss .. | .casLinkDown .. => [.ports, .smp, .out, .win 4, .win 16]
  | .responseSend .. | .reassemblyTimeout .. | .wakeTrainStart .. => [.ports, .win 16]
  | .airCycleStart .. | .floodRelaySend .. => [.ports, .out, .draws, .win 16]
  | .airBackoffExpire .. | .casCreditReceive .. => [.ports]
  | .airRxDeadlineMiss .. => [.fab, .smp, .win 4, .win 16]
  | .rendezvousWindowOpen .. =>
    [.dram, .fab, .ports, .ink, .time, .intr, .ao, .smp, .ladder, .out, .win 4, .win 6, .win 11, .win 16]
  | .memberBeaconMiss .. => [.ports, .smp, .win 4, .win 16]
  | .memberSearchRound .. | .casCommaAlign .. => [.win 16]
  | .memberScanTimeout .. => [.ports, .smp, .win 4]
  | .portBobRxRead .. =>
    [.dram, .fab, .ports, .ink, .time, .intr, .ao, .smp, .ladder, .busData, .out, .win 0, .win 4, .win 6, .win 11, .win 16]
  | .portDisable .. => [.fab, .ports, .smp, .out, .draws, .win 0, .win 4, .win 16]
  | .portRxReset .. => [.ports, .draws, .win 0, .win 16]
  | .portTxReset .. => [.dram, .fab, .ports, .ink, .time, .intr, .ao, .ladder, .out, .draws, .win 0, .win 6, .win 11, .win 16]
  | .descFetch .. => [.dram, .ports, .win 16]
  | .casCreditSend .. => [.ports, .out]
  | .keyDeriveDone => [.ink]
  | .lanePassDone .. => [.dram, .ports, .ink, .sto, .msm, .upl, .smp, .pair, .out, .win 4, .win 6]
  | .fwRingWrite => [.dram, .ink, .pair, .out, .win 6]
  | .slotRead .. | .slotWrite .. | .slotWriteCtr .. | .slotRoll .. | .slotClear .. | .slotOpComplete =>
    [.dram, .ink, .sto, .msm, .pair, .out, .win 6]
  | .intakeEnable | .keyCacheFlush => [.ink, .win 6]
  | .intakeDisable | .keyCacheFlushDone => [.win 6]
  | .tableRebuildDone => [.dram, .ink, .smp, .win 4]
  | .menderBatch .. => [.dram, .ink, .mnd, .draws, .win 6]
  | .menderBatchDone .. => [.dram, .ink, .mnd, .drn, .sto, .smp, .pair, .out, .win 4, .win 6, .win 9]
  | .classSelect .. | .classCommit => [.mnd, .draws, .win 0, .win 6]
  | .classDataAccess .. => [.mnd, .busData, .draws, .win 0, .win 6]
  | .classInstall => [.mnd, .win 6]
  | .freezeDue => [.drn, .win 7]
  | .freezeCapture => [.dram, .drn, .smp, .win 4, .win 7, .win 8]
  | .freezeClose => [.dram, .drn, .sto, .smp, .draws, .win 4, .win 7, .win 9]
  | .darnerSnapshot => [.dram, .drn, .smp, .draws, .win 4, .win 7]
  | .darnerEnable => [.drn, .draws, .win 0, .win 7]
  | .darnerDisable => [.dram, .drn, .sto, .smp, .draws, .win 0, .win 4, .win 7, .win 9]
  | .storeStart .. => [.smp, .win 4, .win 9]
  | .storeRestoreDone => [.dram, .drn, .sto, .msm, .tot, .upl, .ao, .smp, .draws, .win 4, .win 6, .win 7, .win 8, .win 9, .win 10]
  | .storeStop | .recordUnitProgram | .relocIntentDone | .ringTrim .. | .ringFlush .. => [.dram, .sto, .win 9]
  | .nandProgramDone .. => [.dram, .sto, .smp, .out, .win 4, .win 9]
  | .nandReadDone .. | .relocCopyDone | .relocVerifyDone .. | .mirrorUnitWrite => [.dram, .sto, .smp, .win 4, .win 9]
  | .nandEraseDone .. | .gcStart | .foldStart .. | .wearLevelMove | .checkpointDone | .channelEvacuate .. => [.sto, .win 9]
  | .checkpointStart => [.sto]
  | .storeFlushDone => [.ports, .sto, .out, .win 9, .win 16]
  | .evacuationDone | .channelRejoin .. | .rejoinDone .. => [.sto, .pins, .win 9]
  | .ringRead .. => [.dram, .win 9]
  | .ringWrite .. => [.dram, .ink, .sto, .upd, .win 6, .win 9]
  | .recTailWrite .. => [.dram, .sto, .pair, .out, .win 9]
  | .modulatorFault .. => [.dram, .sto, .tot, .smp, .win 4, .win 8, .win 9]
  | .modulatorFaultClear .. | .metrologySample .. => [.tot, .win 8]
  | .metrologyBlockPublish .. => [.tot, .draws, .win 8]
  | .sealOpened => [.dram, .sto, .tot, .ao, .smp, .win 4, .win 8, .win 9]
  | .sealClosed => [.dram, .sto, .tot, .ao, .win 8, .win 9]
  | .sealSpend => [.dram, .sto, .tot, .hoop, .smp, .draws, .win 0, .win 4, .win 5, .win 8, .win 9]
  | .sealEnd | .pcalLoad .. | .pcalCancel | .billingForce => [.dram, .sto, .tot, .draws, .win 0, .win 8, .win 9]
  | .calCommit .. => [.dram, .sto, .tot, .smp, .draws, .win 0, .win 4, .win 8, .win 9]
  | .sessionTimeout => [.dram, .sto, .tot, .win 8, .win 9]
  | .calDataAccess .. => [.tot, .smp, .busData, .draws, .win 0, .win 4, .win 8]
  | .totEnable => [.tot, .draws, .win 0, .win 8]
  | .taiMinuteBoundary => [.dram, .sto, .tot, .draws, .win 8, .win 9]
  | .stateRecordPeriodic => [.dram, .sto, .tot, .win 9]
  | .totRestoration => [.dram, .sto, .tot, .smp, .draws, .win 4, .win 8, .win 9]
  | .billSnap => [.tot, .draws, .win 0]
  | .billDataRead => [.busData, .win 8]
  | .taiSet .. | .ppsInEdge .. | .ptpOffsetWrite .. | .pairTimeSample .. =>
    [.dram, .ports, .drn, .sto, .tot, .time, .smp, .draws, .win 2, .win 4, .win 7, .win 8, .win 9]
  | .leapSecond | .holdoverTimeout => [.win 2]
  | .cmpFire .. => [.time, .win 2, .win 3]
  | .cmpOutputEnd .. | .ppsOutPulse | .ppsOutFall => [.time]
  | .rtcReload | .cyclesReset | .vbatDip => [.ao]
  | .schedRead | .txtsPop .. => [.time, .busData]
  | .afeAdjStore .. | .servoSrcChange .. => [.time, .win 2]
  | .uplinkRxFrame .. | .sessionResume .. | .sessionClose .. | .tlsRecordTransmit .. => [.dram, .upl, .win 10]
  | .uplinkTxDesc .. => [.dram, .time, .out, .draws, .win 2, .win 10]
  | .sessionOpen .. => [.dram, .upl, .out, .win 10]
  | .sessionSync .. => [.dram, .win 10]
  | .sessionDoorbell .. => [.upl]
  | .tlsRecordReceive .. => [.dram, .ink, .sto, .upl, .smp, .pair, .out, .win 4, .win 6, .win 9, .win 10]
  | .resultMessageSend .. | .batchSend .. => [.upl, .win 10]
  | .batchClose .. | .dayBoundary | .manifestSigned .. => [.dram, .sto, .upl, .pair, .out, .win 9, .win 10]
  | .handshakeSign .. | .stitchRequest .. => [.out]
  | .roleBind .. | .uplinkLinkChange .. => [.win 10]
  | .shuttleGo .. | .shuttleArm .. | .shuttleTriggerStart .. | .shuttleResume | .eventSet .. | .eventClear .. => [.win 3]
  | .shuttleAbort .. | .shuttleDisable | .shuttleEnd .. | .loop .. | .wait .. | .waitTimeout .. | .signal .. =>
    [.fab, .ports, .ink, .time, .shu, .intr, .ao, .ladder, .out, .win 3, .win 6, .win 11]
  | .progWrite .. => [.shu, .win 3]
  | .shuttleBusError .. =>
    [.fab, .ports, .ink, .time, .shu, .intr, .ao, .smp, .ladder, .out, .win 0, .win 3, .win 4, .win 6, .win 11]
  | .intClaim .. => [.intr, .smp, .busData, .out, .win 0, .win 4]
  | .intComplete .. => [.intr, .smp, .out, .win 0, .win 1, .win 4]
  | .intFlush .. => [.intr, .smp, .out, .win 0, .win 4]
  | .holdOffExpire .. | .intSwSet .. | .intSwClear .. | .msixUnmask .. => [.intr, .out]
  | .coreWake .. => [.intr]
  | .ndlInfo .. | .ndlSign .. | .ndlHmac .. | .ndlQuote .. | .ndlPubkey .. | .ndlDecap .. => [.hoop, .win 5]
  | .ndlGenerate .. => [.hoop, .draws, .win 5]
  | .ndlUnwrap .. => [.ink, .hoop, .win 5]
  | .ndlDestroy .. | .cntDebugOpen => [.ink, .hoop, .smp, .win 4, .win 5]
  | .ndlOpComplete .. => [.dram, .ink, .hoop, .nor, .smp, .draws, .win 4, .win 5]
  | .vaultEraseDone => [.hoop, .nor, .win 5]
  | .cntDomainIdentity => [.ink, .hoop, .nor, .smp, .win 4, .win 5]
  | .cntRollbackFloor .. | .cntPairRoleLock .. => [.hoop, .smp, .win 4, .win 5]
  | .cntChangeDone .. => [.dram, .sto, .hoop, .smp, .win 4, .win 5, .win 9]
  | .changeLogReconcile => [.dram, .sto, .win 5, .win 9]
  | .updVerify .. => [.ink, .upd, .win 6, .win 11]
  | .updActivateLive .. | .updActivateNextStart .. => [.ink, .upd, .nor, .win 6, .win 11]
  | .updCommit .. => [.dram, .sto, .hoop, .upd, .nor, .smp, .win 4, .win 5, .win 9, .win 11]
  | .updRecoveryRequest => [.upd, .nor, .win 11]
  | .stitchOffer .. | .stitchBlock .. => [.dram, .ink, .sto, .upd, .out, .win 6, .win 9]
  | .stitchDone | .stitchAbort => [.ink, .upd, .out, .win 6, .win 11]
  | .uartDataFrame .. => [.dram, .upd, .out, .draws]
  | .uartRxTimeout => [.upd]
  | .samplerFifoTake => [.ao, .smp, .pair, .out, .win 4]
  | .samplerLostSynth | .samplerClear | .samplerRdSel .. => [.smp, .win 4]
  | .samplerRdData => [.busData, .win 4]
  | .hoopWdogKick .. | .fieldWdogKick .. => [.smp, .ladder, .win 0, .win 4]
  | .pairStatusSend => [.pair, .out]
  | .pairMessageReceive .. => [.dram, .ink, .sto, .msm, .time, .upl, .smp, .pair, .out, .win 2, .win 4, .win 6, .win 9, .win 10]
  | .mirrorTimeout | .pairStatusTimeout => [.ink, .time, .smp, .pair, .win 2, .win 4]
  | .pairYield | .witnessWaitExpire | .witnessExpire | .bothHolding | .resyncPhaseDone =>
    [.time, .smp, .pair, .out, .win 2, .win 4]
  | .pairSenseStable => [.pair, .win 4]
  | .takeoverSample .. => [.ports, .time, .ao, .smp, .pair, .out, .draws, .win 2, .win 4, .win 16]
  | .witnessInstall .. => [.time, .ao, .smp, .pair, .win 2, .win 4]
  | .pairStartTimeout => [.win 4]
  | .resyncStart => [.time, .ao, .smp, .pair, .out, .win 2, .win 4]
  | .pfailFall .. =>
    [.dram, .ports, .sto, .tot, .time, .upd, .smp, .pair, .pins, .out, .win 2, .win 4, .win 8, .win 9, .win 11, .win 16]
  | .pfailRise => [.tot, .pins, .win 8, .win 9]
  | .clockRestored .. => [.win 0]
  | .pairEnWrite .. => [.time, .smp, .pair, .win 2, .win 4]

end Sys2Proof.Machine
end

