-- ==== Sys2Proof/Certificates/Slice0/Obligations.lean ====
section
/-! DEFINITION. Sys2Proof/Certificates/Slice0/Obligations.lean: the statements for the provers. A statement about commands is a
conjunction of clauses, each headed by what it says; `Runs c s P` says that command c answers a next state in s, of which P holds. -/

set_option linter.unusedVariables false

open Sys2Proof Sys2Proof.Machine

/-- A step runs the command at the front of the queue. Rests on 00_scope.md, "Scope", 95_what_each_step_holds.md. For every command c
and state s with c at the front of its queue, a step is exec of c on s with the rest of the queue (log entry 1 says how time
passes). -/
def Obligations.StepRunsFrontCommand : Prop :=
  ∀ (c : Instr) (r : List Instr) (s : State), s.pending = c :: r → step s = exec c { s with pending := r }

/-- On an empty queue one tick of time passes (the model's choice, log entry 1). Rests on R43, R349, R470. With no command waiting and
the device out of reset, a step advances the schedule count by one tick and TAI by 2^-20 s, and leaves the queue empty; while the
time base is lost both advance by 32 ticks for each period that the RTC counts at its edges. That a step on an empty queue is a
tick is log entry 1; how trimming counts an edge twice or not is log entry 164. -/
def Obligations.EmptyQueueTicks : Prop :=
  ∀ s : State, s.pending = [] → s.pins.reset = false →
    ∃ t, step s = .next t ∧ t.pending = [] ∧
      (s.tbLost = false → t.time.sched = (s.time.sched + 1) % 2 ^ 32 ∧ t.time.tai = s.time.tai + 2 ^ 12) ∧
      (s.tbLost = true → ∃ n, n ≤ 2 ∧ (s.rtcEdge = false → n = 0) ∧ t.time.sched = (s.time.sched + 32 * n) % 2 ^ 32 ∧
        t.time.tai = s.time.tai + 32 * n * 2 ^ 12)

/-- No word spells a command, since no row of the table has bits. Rests on opcode_table.json: every row has no fields. decodeTableWord
answers none for every word, and withFetchWord leaves every state as it is. -/
def Obligations.TableWordsSpellNoCommand : Prop :=
  ∀ (nbits w : Nat) (s : State), decodeTableWord nbits w = none ∧ s.withFetchWord nbits w = s

/-- The state after reset satisfies the invariant. Rests on R10, R33, R442, R470. After reset the register file and DRAM are in
canonical form, no counted setting is beyond its limit, and the Sampler FIFO holds at most 256 reports. -/
def Obligations.ResetIsWellFormed : Prop :=
  State.reset.Wf

/-- Registers hold the reset values of their tables after reset. Rests on R14, R39, R48, R226, R495. The queue is empty; VSET_MV is
800, CHIP_ERR_EN 0x3FF, CHIP_GOV_LIM 0x0384_028A, PART 0x1064, REORDER_W 16, EN of intake 0 and CHIP_BADREG_CNT 0, as the register
tables give them. -/
def Obligations.ResetValuesStand : Prop :=
  State.reset.pending = [] ∧ State.reset.vset = 800 ∧ State.reset.num Reg.CHIP_ERR_EN = 0x3FF ∧
    State.reset.num Reg.CHIP_GOV_LIM = 0x0384028A ∧ State.reset.getF Reg.CHIP_ID Fld.CHIP_ID_PART = 0x1064 ∧
    State.reset.getF Reg.INK_CTL Fld.INK_CTL_REORDER_W = 16 ∧ State.reset.isF Reg.INK_CTL Fld.INK_CTL_EN = false ∧
    State.reset.num Reg.CHIP_BADREG_CNT = 0

/-- Every step keeps canonical tables, counted limits and the Sampler FIFO bound. Rests on R10, R33, R442, R470. From every state that
satisfies the invariant (canonical register file and DRAM, no counted setting beyond its limit and no floor above its programmed
entries, at most 256 reports waiting), every step, whatever command it runs, gives a state that satisfies it. -/
def Obligations.StepKeepsWellFormed : Prop :=
  ∀ s t : State, s.Wf → step s = .next t → t.Wf

/-- No step lowers a rollback floor or the programmed entries of a counted setting. Rests on R442, R443, R444. Entries of a counted
setting are one-time-programmable: whatever command a step runs, a restart by reset included, no floor and no number of programmed
entries is lower after it. -/
def Obligations.StepNeverLowersACount : Prop :=
  ∀ s t : State, step s = .next t →
    (∀ k, s.hoop.floors.getD k 0 ≤ t.hoop.floors.getD k 0) ∧ (∀ k, s.hoop.floorUsed.getD k 0 ≤ t.hoop.floorUsed.getD k 0) ∧
      s.hoop.domainUsed ≤ t.hoop.domainUsed ∧ s.hoop.pairUsed ≤ t.hoop.pairUsed ∧ s.hoop.debugUsed ≤ t.hoop.debugUsed ∧
      s.hoop.unsealUsed ≤ t.hoop.unsealUsed

/-- Each command changes only the parts of the state that its frame names. Rests on 95_what_each_step_holds.md, R10. The frame of
every command: each part of the state (a field, or the registers of a 64 KiB window of the map) that Sys2Proof.Machine.touches
does not list for the command is after it as before. -/
def Obligations.CommandsTouchTheirPartsOnly : Prop :=
  ∀ (c : Instr) (s t : State), exec c s = .next t → Only (touches c) s t

/-- Every command answers a next state in every state. Rests on 95_what_each_step_holds.md. No command ends in a fault or a refusal:
exec answers a next state for every command and every state. -/
def Obligations.EveryCommandCompletes : Prop :=
  ∀ (c : Instr) (s : State), ∃ t, exec c s = .next t

/-- Commands are served first in, first out. Rests on 95_what_each_step_holds.md. A step takes exactly the command at the front: no
command adds to, drops from or reorders the queue. -/
def Obligations.StepServesInOrder : Prop :=
  ∀ (c : Instr) (r : List Instr) (s t : State), s.pending = c :: r → step s = .next t → t.pending = r

/-- The governor requests no voltage outside CHIP_GOV_LIM or 650 to 900 mV. Formalises R40, quoted in OBLIGATIONS.json. At the end of
a period the governor sends nothing, or sends one VOUT_COMMAND for a voltage that lies within CHIP_GOV_LIM and within 0.65 to 0.90
V, in every state and whatever the regulator answers. -/
def Obligations.GovernorRequestsStayWithinLimits : Prop :=
  ∀ (ack : Option Nat) (s t : State), exec (.governorPeriodEnd ack) s = .next t →
    t.out = s.out ∨ ∃ addr page mv, t.out = s.out ++ [.pmbus addr page 0x21 (s.voutCmd mv)] ∧
      s.getF Reg.CHIP_GOV_LIM Fld.CHIP_GOV_LIM_VMIN_MV ≤ mv ∧ mv ≤ s.getF Reg.CHIP_GOV_LIM Fld.CHIP_GOV_LIM_VMAX_MV ∧
      650 ≤ mv ∧ mv ≤ 900

/-- Writes that agree on every field of a register have the same effect. Rests on R13. The bits of a written word that belong to no
field of its register have no influence on what the write does. -/
def Obligations.ReservedBitsOfWritesAreIgnored : Prop :=
  ∀ (init off v v' x k : Nat) (s : State), s.regKey off = some k →
    (∀ f, f ∈ regFields k → fget f.bits (word v) = fget f.bits (word v')) →
    exec (.registerWrite init off v x) s = exec (.registerWrite init off v' x) s

/-- Each field of a written word is merged as its access code says. Rests on R15, R522. In every register whose fields all take writes
now: a read-only field keeps its value, a read-write field takes the written one, a bit cleared by writing 1 clears where 1 is
written, and a counter that only 0 clears is cleared by 0 and ignores every other value. -/
def Obligations.AccessCodesDecideFields : Prop :=
  ∀ (k : Nat) (v : Word) (f : FieldSpec) (s : State), s.keptFields k = [] → f ∈ regFields k →
    (f.acc = .ro → fget f.bits (s.merged k v) = fget f.bits (s.base k)) ∧
    (f.acc = .rw ∨ f.acc = .rws ∨ f.acc = .rwh → fget f.bits (s.merged k v) = fget f.bits v) ∧
    (f.acc = .w1c → fget f.bits (s.merged k v) = fget f.bits (s.base k) - (fget f.bits (s.base k) &&& fget f.bits v)) ∧
    (f.acc = .cnt0 → fget f.bits (s.merged k v) = if fget f.bits v = 0 then 0 else fget f.bits (s.base k))

/-- A comparison at time T fires when now minus T, modulo 2^32 and signed, is 0 or greater. Rests on R8. The comparison that every
timed rule uses is the sign of the 32-bit difference. -/
def Obligations.TimeComparisonsFireAsSigned : Prop :=
  ∀ now t : Word, fired now.toNat t.toNat = decide (0 ≤ (now - t).toInt)

/-- Writes to chip registers, refused writes, and accesses that no register takes. Rests on R11, R15, R30, R521, R522, R523. Clauses,
each with the command it is about and what its completion leaves. -/
def Obligations.RegisterWritesActAsTheirCodesSay : Prop :=
  -- a write to a chip register leaves in it the word that its access codes give, and nothing else changes
  (∀ (init off k v x : Nat) (s : State), s.pins.reset = false → hoopOffset off = false → s.regKey off = some k → s.rcvShuts init k = false →
    (s.splitFields k (word v)).isEmpty = true → s.writeShut k = false →
    (s.rangeOk k (s.merged k (if isHoop init then word v else s.splitWord k (word v))) = true) → k < 0x010000 →
    Runs (.registerWrite init off v x) s (fun t => t = s.wr k (s.merged k (if isHoop init then word v else s.splitWord k (word v))))) ∧
  -- a write that its register does not take changes nothing
  (∀ (init off k v x : Nat) (s : State), s.regKey off = some k → (s.writeShut k = true ∨ s.rangeOk k (s.merged k (word v)) = false) →
    isHoop init = true → Runs (.registerWrite init off v x) s (fun t => t = s)) ∧
  -- a write to a hoop-only range by another initiator is refused, counted and recorded
  (∀ (init off v x : Nat) (s : State), s.pins.reset = false → hoopOffset off = true → isHoop init = false → s.smp.fifo.length < 256 →
    Runs (.registerWrite init off v x) s (fun t => t.num Reg.CHIP_FW_VIOL_CNT = min (s.num Reg.CHIP_FW_VIOL_CNT + 1) 0xFFFFFFFF ∧
    t.num Reg.CHIP_FW_LAST = (init % 16) * 2 ^ 28 + offRegion off * 2 ^ 24 + off % 2 ^ 23 ∧ t.hoop = s.hoop ∧
    t.smp.fifo.length = s.smp.fifo.length + 1)) ∧
  -- a write that would change a hoop-only field is counted, and the hoop-only fields keep their values
  (∀ (init off k v x : Nat) (s : State), s.pins.reset = false → hoopOffset off = false → isHoop init = false → s.regKey off = some k →
    s.rcvShuts init k = false → (s.splitFields k (word v)).isEmpty = false → k < 0x010000 → s.writeShut k = false →
    k ≠ Reg.CHIP_FW_VIOL_CNT → k ≠ Reg.CHIP_FW_LAST → s.rangeOk k (s.merged k (s.splitWord k (word v))) = true →
    Runs (.registerWrite init off v x) s (fun t => t.num Reg.CHIP_FW_VIOL_CNT = min (s.num Reg.CHIP_FW_VIOL_CNT + 1) 0xFFFFFFFF ∧
    (∀ f, f ∈ regFields k → s.hoopField k f = true → fget f.bits (t.raw k) = fget f.bits (s.raw k)))) ∧
  -- an access to an unassigned offset reads 0 or does nothing, is counted and is recorded
  (∀ (init off size : Nat) (write : Bool) (s : State), s.pins.reset = false → hoopOffset off = false → s.regKey off = none →
    s.blankReg off = false →
    Runs (.unassignedAccess init off size write) s (fun t => (t = (if write then s else s.answer 0).badReg init write off) ∧
    t.num Reg.CHIP_BADREG_CNT = min (s.num Reg.CHIP_BADREG_CNT + 1) 0xFFFFFFFF ∧
    t.num Reg.CHIP_BADREG_LAST = (init % 16) * 2 ^ 28 + write.toNat * 2 ^ 27 + off % 2 ^ 21))

/-- Cell errors: corrected ones are counted, others latched, retried and recorded; handshake errors quarantine. Rests on R21, R22,
R23, R25, R478. Clauses, each with the command it is about and what its completion leaves. -/
def Obligations.CellErrorsAreCountedOrLatched : Prop :=
  -- a corrected single-bit error of a block in service is counted in its region's CHIP_CE
  (∀ (path slot : Nat) (never : Bool) (s : State), s.mayErr path = true →
    Runs (.cellError path slot false never) s (fun t => t.num (Reg.CHIP_CE (path / 0x1000)) = min (s.num (Reg.CHIP_CE (path / 0x1000)) + 1) 0xFFFFFFFF)) ∧
  -- an uncorrectable error outside meter slot memory is latched as the first attempt
  (∀ (path slot : Nat) (s : State), s.mayErr path = true → path / 64 ≠ 5 * 64 + 29 →
    Runs (.cellError path slot true false) s (fun t => (t.fab.errs.map (fun (e : CellErr) => e.path) = s.fab.errs.map (fun (e : CellErr) => e.path) ++ [path]) ∧
    (t.fab.errs.getLast?.map (fun (e : CellErr) => e.attempts) = some 1))) ∧
  -- a retry that succeeds ends the error with its record
  (∀ (path b n : Nat) (r : List CellErr) (s : State), s.fab.errs = ⟨path, b, n⟩ :: r → s.smp.fifo.length < 256 →
    Runs (.blockRetry path true) s (fun t => t.fab.errs = r ∧
    Logged s t (path / 0x1000 * 0x1000 + 1) 3 path [path / 64 % 64, path % 64, n + 1, 1])) ∧
  -- a second failed attempt leaves one more retry
  (∀ (path b : Nat) (r : List CellErr) (s : State), s.fab.errs = ⟨path, b, 1⟩ :: r →
    Runs (.blockRetry path false) s (fun t => t.fab.errs = ⟨path, b, 2⟩ :: r)) ∧
  -- a handshake error of a block that no spare can replace quarantines it and degrades its region
  (∀ (path : Nat) (s : State), s.mayErr path = true → 6 ≤ path / 0x1000 → path / 0x1000 ≤ 9 → path / 64 % 64 < 32 →
    essential (path / 0x1000) (path / 64 % 64) = false → (s.sparesOf (path / 0x1000)).contains (path / 64 % 64) = false →
    s.spareNext (path / 0x1000) (path / 64 % 64) = none →
    Runs (.handshakeTimeout path) s (fun t => t.quar (path / 0x1000) (path / 64 % 64) = true ∧
    t.regionState (path / 0x1000) = max 2 (s.regionState (path / 0x1000)) ∧ bit (t.raw Reg.CHIP_ERR_STAT) (path / 0x1000) = true)) ∧
  -- an interconnect error takes the ladder to step 2: the device restarts
  (∀ (addr init : Nat) (s : State), s.getF Reg.CHIP_RECOV_STAT Fld.CHIP_RECOV_STAT_STEP = 0 → s.escLeft = 0 → s.ao.stepOpen = false →
    s.pins.pfail = true → Runs (.interconnectError addr init) s (fun t => t.ao.lastStep = 2 ∧ t.ao.warmCnt = min (s.ao.warmCnt + 1) 255 ∧
    t.shu = {} ∧ t.upl = {}))

/-- Pace windows, governor steps, loss and return of clocks. Rests on R35, R37, R38, R40, R43. Clauses, each with the command it is
about and what its completion leaves. -/
def Obligations.PaceGovernorAndClocksWork : Prop :=
  -- the pace is the quotient in 4.12 form, rounded either way, and PACE_LOW falls to it at most
  (∀ (r count ref : Nat) (s : State), 1 ≤ r → r ≤ 9 → 0 < ref → count * 4096 / ref + 1 < 65536 →
    Runs (.paceWindowEnd r count ref) s (fun t => (t.pace r = count * 4096 / ref ∨ t.pace r = count * 4096 / ref + 1) ∧
    t.getF (Reg.CHIP_PACE r) Fld.CHIP_PACE_PACE_LOW = min (s.getF (Reg.CHIP_PACE r) Fld.CHIP_PACE_PACE_LOW) (t.pace r))) ∧
  -- a period that calls for a step writes VOUT_COMMAND, takes the new VSET and waits for it to settle
  (∀ (mode : Nat) (s : State), s.isF Reg.CHIP_GOV_CTL Fld.CHIP_GOV_CTL_EN = true →
    s.isF Reg.CHIP_GOV_STAT Fld.CHIP_GOV_STAT_MODE_ERR = false → s.fab.settling = false → s.tbLost = false → s.vset ≤ 900 →
    s.fab.vmode.isSome = true → s.govNext ≠ s.vset → Runs (.governorPeriodEnd (some mode)) s (fun t => t.vset = s.govNext ∧
    t.fab.settling = true ∧
    t.out = s.out ++ [.pmbus (s.getF Reg.CHIP_GOV_PMB Fld.CHIP_GOV_PMB_ADDR) (s.getF Reg.CHIP_GOV_PMB Fld.CHIP_GOV_PMB_PAGE) 0x21 (s.voutCmd s.govNext)])) ∧
  -- a step that the regulator does not acknowledge leaves VSET and sets PMBUS_ERR
  (∀ (s : State), s.isF Reg.CHIP_GOV_CTL Fld.CHIP_GOV_CTL_EN = true → s.isF Reg.CHIP_GOV_STAT Fld.CHIP_GOV_STAT_MODE_ERR = false →
    s.fab.settling = false → s.fab.vmode.isSome = true → s.govNext ≠ s.vset → Runs (.governorPeriodEnd none) s (fun t => t.vset = s.vset ∧
    t.fab.settling = false ∧ t.isF Reg.CHIP_GOV_STAT Fld.CHIP_GOV_STAT_PMBUS_ERR = true)) ∧
  -- a stopped governor makes no step and keeps nothing of the period
  (∀ (ack : Option Nat) (s : State), s.isF Reg.CHIP_GOV_CTL Fld.CHIP_GOV_CTL_EN = false →
    Runs (.governorPeriodEnd ack) s (fun t => t.vset = s.vset ∧ t.out = s.out ∧ t.fab.shortfall = false ∧ t.fab.low = [])) ∧
  -- READ_VOUT within 10 mV ends the wait and clears PMBUS_ERR
  (∀ (raw : Nat) (s : State), s.fab.settling = true → s.tbLost = false → s.voutOff raw = false →
    Runs (.governorSettleEnd raw true) s (fun t => t.fab.settling = false ∧ t.isF Reg.CHIP_GOV_STAT Fld.CHIP_GOV_STAT_PMBUS_ERR = false)) ∧
  -- READ_VOUT further off sets PMBUS_ERR and is recorded
  (∀ (raw : Nat) (s : State), s.fab.settling = true → s.voutOff raw = true → s.smp.fifo.length < 256 →
    Runs (.governorSettleEnd raw true) s (fun t => t.fab.settling = false ∧ t.isF Reg.CHIP_GOV_STAT Fld.CHIP_GOV_STAT_PMBUS_ERR = true ∧
    Logged s t 0x0004 3 0x0FFF (1 :: bytesLE 2 s.vset))) ∧
  -- a domain that loses its clock shows in CHIP_CLK_STAT and CHIP_CLK_LOSS, and is recorded
  (∀ (d items : Nat) (s : State), 2 ≤ d → d ≤ 14 → d ≠ 12 → d ≠ 13 → (∀ x ∈ domainBlocks d, s.mayErr (blockPath x.1 x.2) = false) →
    s.smp.fifo.length < 256 → Runs (.clockLoss (d, items)) s (fun t => bit (t.raw Reg.CHIP_CLK_STAT) (d - 1) = false ∧
    bit (t.raw Reg.CHIP_CLK_LOSS) (d - 1) = true ∧ Logged s t 0x0002 4 0x0FFF [d])) ∧
  -- loss of the time base sets TB_LOST
  (∀ (items : Nat) (s : State), s.smp.fifo.length < 256 → Runs (.clockLoss (1, items)) s (fun t => t.tbLost = true ∧
    t.isF Reg.TU_INT_STAT Fld.TU_INT_STAT_TB_LOST = true ∧ Logged s t 0x0002 6 0x0FFF [1])) ∧
  -- the time base returns without a step of either clock
  (∀ (s : State), s.tbLost = true → Runs (.timeBaseReturn) s (fun t => t.tbLost = false ∧ t.norHeld = none ∧
    bit (t.raw Reg.CHIP_CLK_STAT) 0 = true ∧ t.time = s.time)) ∧
  -- a restored clock shows in CHIP_CLK_STAT
  (∀ (d : Nat) (s : State), 2 ≤ d → d ≤ 14 → Runs (.clockRestored d) s (fun t => bit (t.raw Reg.CHIP_CLK_STAT) (d - 1) = true))

/-- Loader operations start, follow their phases, and end; readback fills its registers. Rests on R55, R56, R57, R58, R59, R62, R64,
R66, R67, R74. Clauses, each with the command it is about and what its completion leaves. -/
def Obligations.LoaderOperationsRun : Prop :=
  -- OP 0 into a blank target begins Verify
  (∀ (force : Bool) (s : State), s.noGrant 8 4 = false → s.isF Reg.UPD_PRK_STAT Fld.UPD_PRK_STAT_BUSY = false →
    s.prkRefused 0 (s.getF Reg.UPD_PRK_TARGET Fld.UPD_PRK_TARGET_PATH / 0x1000) (s.getF Reg.UPD_PRK_TARGET Fld.UPD_PRK_TARGET_PATH / 64 % 64) force = false →
    Runs (.loaderLoad force) s (fun t => t.prkState = 1 ∧ t.isF Reg.UPD_PRK_STAT Fld.UPD_PRK_STAT_BUSY = true ∧
    (t.fab.job.map (fun j => (j.op, j.region, j.block, j.force)) = some (0, s.getF Reg.UPD_PRK_TARGET Fld.UPD_PRK_TARGET_PATH / 0x1000, s.getF Reg.UPD_PRK_TARGET Fld.UPD_PRK_TARGET_PATH / 64 % 64, force)))) ∧
  -- OP 1 on a block that is not blank begins Verify
  (∀ (force : Bool) (s : State), s.noGrant 8 4 = false → s.isF Reg.UPD_PRK_STAT Fld.UPD_PRK_STAT_BUSY = false →
    s.prkRefused 1 (s.getF Reg.UPD_PRK_TARGET Fld.UPD_PRK_TARGET_PATH / 0x1000) (s.getF Reg.UPD_PRK_TARGET Fld.UPD_PRK_TARGET_PATH / 64 % 64) force = false →
    Runs (.loaderReprickBlock force) s (fun t => t.prkState = 1 ∧ t.isF Reg.UPD_PRK_STAT Fld.UPD_PRK_STAT_BUSY = true ∧
    (t.fab.job.map (fun j => (j.op, j.region, j.block, j.force)) = some (1, s.getF Reg.UPD_PRK_TARGET Fld.UPD_PRK_TARGET_PATH / 0x1000, s.getF Reg.UPD_PRK_TARGET Fld.UPD_PRK_TARGET_PATH / 64 % 64, force)))) ∧
  -- OP 3 on a region begins Verify
  (∀ (force : Bool) (s : State), s.noGrant 8 4 = false → s.isF Reg.UPD_PRK_STAT Fld.UPD_PRK_STAT_BUSY = false →
    s.prkRefused 3 (s.getF Reg.UPD_PRK_TARGET Fld.UPD_PRK_TARGET_PATH / 0x1000) (s.getF Reg.UPD_PRK_TARGET Fld.UPD_PRK_TARGET_PATH / 64 % 64) force = false →
    Runs (.loaderReprickRegion force) s (fun t => t.prkState = 1 ∧ t.isF Reg.UPD_PRK_STAT Fld.UPD_PRK_STAT_BUSY = true ∧
    (t.fab.job.map (fun j => (j.op, j.region, j.block, j.force)) = some (3, s.getF Reg.UPD_PRK_TARGET Fld.UPD_PRK_TARGET_PATH / 0x1000, s.getF Reg.UPD_PRK_TARGET Fld.UPD_PRK_TARGET_PATH / 64 % 64, force)))) ∧
  -- OP 2 for a pin set that the spare carries begins to drain the spare
  (∀ (force : Bool) (s : State), s.noGrant 8 4 = false → s.isF Reg.UPD_PRK_STAT Fld.UPD_PRK_STAT_BUSY = false →
    s.prkRefused 2 (s.getF Reg.UPD_PRK_TARGET Fld.UPD_PRK_TARGET_PATH / 0x1000) (s.getF Reg.UPD_PRK_TARGET Fld.UPD_PRK_TARGET_PATH / 64 % 64) force = false →
    Runs (.loaderRestorePinSet force) s (fun t => t.prkState = 2 ∧
    (t.fab.job.map (fun j => (j.op, j.region, j.block, j.rest)) = some (2, s.getF Reg.UPD_PRK_TARGET Fld.UPD_PRK_TARGET_PATH / 0x1000, 16, [s.getF Reg.UPD_PRK_TARGET Fld.UPD_PRK_TARGET_PATH / 64 % 64])))) ∧
  -- ABORT in Verify or Drain ends the operation with ERR 11
  (∀ (s : State), s.fab.job.isSome = true → (s.prkState = 1 ∨ s.prkState = 2) → Runs (.loaderAbort) s (fun t => t.fab.job = none ∧
    t.isF Reg.UPD_PRK_STAT Fld.UPD_PRK_STAT_FAIL = true ∧ t.getF Reg.UPD_PRK_STAT Fld.UPD_PRK_STAT_ERR = 11)) ∧
  -- ABORT from Isolate on is ignored
  (∀ (s : State), s.prkState ≠ 1 → s.prkState ≠ 2 → Runs (.loaderAbort) s (fun t => t = s)) ∧
  -- the checks of a load pass and Write follows, or they fail with their ERR
  (∀ (j : LoadJob) (s : State), s.fab.job = some j → s.prkState = 1 → s.norWaits j = false → s.srcThere j = true → j.op = 0 →
    Runs (.loaderVerifyDone false) s (fun t => (s.prkCheck j = none → t.prkState = 4 ∧
    (t.fab.job.map (fun k => k.built)) = some (builtOf (contOf (s.jobRd j)))) ∧ (∀ e blk, s.prkCheck j = some (e, blk) → t.fab.job = none ∧
    t.isF Reg.UPD_PRK_STAT Fld.UPD_PRK_STAT_FAIL = true ∧ t.getF Reg.UPD_PRK_STAT Fld.UPD_PRK_STAT_ERR = e % 16))) ∧
  -- a source that cannot be read fails with ERR 10
  (∀ (j : LoadJob) (s : State), s.fab.job = some j → s.prkState = 1 → s.norWaits j = false →
    Runs (.loaderVerifyDone true) s (fun t => t.fab.job = none ∧ t.isF Reg.UPD_PRK_STAT Fld.UPD_PRK_STAT_FAIL = true ∧
    t.getF Reg.UPD_PRK_STAT Fld.UPD_PRK_STAT_ERR = 10)) ∧
  -- Isolate follows Drain; for a returned pin set, the spare's self-test does
  (∀ (j : LoadJob) (s : State), s.fab.job = some j → s.prkState = 2 →
    Runs (.loaderDrainEnd) s (fun t => t.prkState = if j.op = 2 then 5 else 3)) ∧
  -- blocks that hash as they did when verified are followed by the self-test
  (∀ (j : LoadJob) (s : State), s.fab.job = some j → (s.prkState = 3 ∨ s.prkState = 4) → s.norWaits j = false → (∀ i, i < j.len →
    some (sha256 (s.jobRd j i)) = j.seen[i]?) → Runs (.loaderWriteDone false) s (fun t => t = s.setPrk 5)) ∧
  -- a spare that passes its self-test is idle again, and the operation has completed
  (∀ (j : LoadJob) (s : State), s.fab.job = some j → s.prkState = 5 → j.op = 2 →
    Runs (.loaderSelfTestDone false) s (fun t => t.spareAct j.region 0 = false ∧ t.isF Reg.UPD_PRK_STAT Fld.UPD_PRK_STAT_DONE = true ∧
    t.fab.job = none)) ∧
  -- a re-pricked block is released with what was written if its structure hash is the container's, else it fails with ERR 8
  (∀ (j : LoadJob) (s : State), s.fab.job = some j → s.prkState = 5 → j.op = 1 →
    Runs (.loaderSelfTestDone false) s (fun t => (structHash (s.jobRd j) = hHash (s.jobRd j 0) →
    t.builtAt (blockPath j.region j.block) = j.built ∧ t.isF Reg.UPD_PRK_STAT Fld.UPD_PRK_STAT_DONE = true ∧ t.fab.job = none) ∧
    (structHash (s.jobRd j) ≠ hHash (s.jobRd j 0) → t.isF Reg.UPD_PRK_STAT Fld.UPD_PRK_STAT_FAIL = true ∧
    t.getF Reg.UPD_PRK_STAT Fld.UPD_PRK_STAT_ERR = 8 ∧ t.fab.job = none))) ∧
  -- a spare that holds the personality stands for the port, and the substitution has ended
  (∀ (n : Nat) (bad : Bool) (x : Subst) (s : State), n < 64 → (s.fab.substs.find? (fun (y : Subst) => decide (y.port = n)) = some x) →
    x.loader = false → s.portLoop n = false → Runs (.substitutionComplete n bad) s (fun t => t.spareAct (portRegion n) 0 = true ∧
    t.spareFor (portRegion n) 0 = n % 16 ∧ (t.fab.substs = s.fab.substs.filter (fun y => decide (y.port ≠ n))))) ∧
  -- an idle spare that fails its self-test is quarantined; the region keeps its state
  (∀ (r x : Nat) (s : State), (s.sparesOf r).contains x = true → s.spareIdle r x = true →
    Runs (.spareSelfTest r x true) s (fun t => t.quar r x = true ∧ t.regionState r = s.regionState r)) ∧
  -- START begins a readback
  (∀ (path : Nat) (s : State), s.fab.readback = none → Runs (.readbackStart path) s (fun t => t.fab.readback = some (path % 65536) ∧
    t.isF Reg.UPD_PRK_RB_SEL Fld.UPD_PRK_RB_SEL_BUSY = true ∧ t.getF Reg.UPD_PRK_RB_SEL Fld.UPD_PRK_RB_SEL_PATH = path % 65536)) ∧
  -- the readback registers show what the block holds, and BUSY falls
  (∀ (p : Nat) (s : State), s.fab.readback = some p → Runs (.readbackDone) s (fun t => t.fab.readback = none ∧
    t.isF Reg.UPD_PRK_RB_SEL Fld.UPD_PRK_RB_SEL_BUSY = false ∧ t.num Reg.UPD_PRK_RB_ID = (s.builtAt (p / 64 * 64 + 63)).structId % 2 ^ 32 ∧
    t.num Reg.UPD_PRK_RB_VER = (s.builtAt (p / 64 * 64 + 63)).version % 2 ^ 32 ∧
    t.num (Reg.UPD_PRK_RB_HASH 3) = u32 (s.builtAt (p / 64 * 64 + 63)).hash 12))

/-- Line reception: preamble, header, symbols, frame. Rests on R80, R81, R82, R83, R86, R97, R99, R100, R112, R135. Clauses, each with
the command it is about and what its completion leaves. -/
def Obligations.LineReceptionFollowsTheFrame : Prop :=
  -- four lead symbols and the sign change start a reception with the parameters then in force
  (∀ (port first : Nat) (words : List Nat) (cs : List (Int × Int × Int)) (s : State), s.lnHears port = true → (s.ln port).rx.phase ≠ 3 →
    s.portDrain port = false →
    (preambleCorrs (s.lnPlan port) (markSamples (s.lnPar port).guard (flagSamples (s.lnPar port).thr ((s.lnIn port first words).map (fun e => e.2)))) = cs) →
    4 ≤ ((cs.take 8).filter (corrReaches (s.getF (Reg.PORT_LN_CFG port) Fld.PORT_LN_CFG_DET_THR))).length →
    ((cs.drop 8).all (fun c => decide (c.1 < 0)) = true) →
    Runs (.linePreambleDetect port first words) s (fun t => (t.ln port).rx.phase = 1 ∧ (t.ln port).rx.sym = 0 ∧
    (t.ln port).rx.par = s.lnPar port ∧ (t.ln port).slot = 0)) ∧
  -- an acceptable header starts the payload
  (∀ (port h : Nat) (rest : List (Nat × List Nat)) (s : State), (s.ln port).rx.phase = 1 → (s.lnSymbols port rest).lnHears port = true →
    ((s.lnSymbols port rest).ln port).rx.phase = 1 → 4 ≤ ((s.lnSymbols port rest).ln port).rx.sym →
    headDecode ((s.lnSymbols port rest).ln port).rx.head = h → (s.lnSymbols port rest).lnHdrGood port h = true →
    Runs (.lineHeaderReceive port rest) s (fun t => (t.ln port).rx.phase = 2 ∧ (t.ln port).rx.hdr = h ∧ (t.ln port).rx.sym = 0)) ∧
  -- any other header is counted, and the frame is ignored
  (∀ (port h : Nat) (rest : List (Nat × List Nat)) (s : State), (s.ln port).rx.phase = 1 → (s.lnSymbols port rest).lnHears port = true →
    ((s.lnSymbols port rest).ln port).rx.phase = 1 → 4 ≤ ((s.lnSymbols port rest).ln port).rx.sym →
    headDecode ((s.lnSymbols port rest).ln port).rx.head = h → (s.lnSymbols port rest).lnHdrGood port h = false →
    Runs (.lineHeaderReceive port rest) s (fun t => (t.ln port).rx.phase = 3 ∧
    t.num (Reg.PORT_LN_HDR_BAD_CNT port) = min (s.num (Reg.PORT_LN_HDR_BAD_CNT port) + 1) 0xFFFFFFFF)) ∧
  -- a header symbol with few enough marked samples adds its soft values to the header's
  (∀ (port first : Nat) (words after : List Nat) (s : State), s.lnSymDue port = true → (s.ln port).rx.phase = 1 →
    (marksIn (((markSamples (s.ln port).rx.par.guard (flagSamples (s.ln port).rx.par.thr ((s.lnIn port first (words ++ after)).map (fun e => e.2)))).drop ((s.ln port).rx.par.guard + (s.lnPlan port).n / 8)).take (s.lnPlan port).n) ≤ (s.ln port).rx.par.blank) →
    Runs (.lineSymbolReceive port first words after) s (fun t => (t.ln port).rx.sym = (s.ln port).rx.sym + 1 ∧
    (t.ln port).rx.prevErased = false ∧
    ((t.ln port).rx.head = headAdd (s.ln port).rx.sym (carriersOf (s.lnPlan port) (s.lnPlan port).cs (blankSamples (((markSamples (s.ln port).rx.par.guard (flagSamples (s.ln port).rx.par.thr ((s.lnIn port first (words ++ after)).map (fun e => e.2)))).drop ((s.ln port).rx.par.guard + (s.lnPlan port).n / 8)).take (s.lnPlan port).n))) (s.ln port).rx.ref (decide (0 < marksIn (((markSamples (s.ln port).rx.par.guard (flagSamples (s.ln port).rx.par.thr ((s.lnIn port first (words ++ after)).map (fun e => e.2)))).drop ((s.ln port).rx.par.guard + (s.lnPlan port).n / 8)).take (s.lnPlan port).n))) (s.ln port).rx.head))) ∧
  -- a payload symbol likewise is demodulated
  (∀ (port first : Nat) (words after : List Nat) (s : State), s.lnSymDue port = true → (s.ln port).rx.phase = 2 →
    (marksIn (((markSamples (s.ln port).rx.par.guard (flagSamples (s.ln port).rx.par.thr ((s.lnIn port first (words ++ after)).map (fun e => e.2)))).drop ((s.ln port).rx.par.guard + (s.lnPlan port).n / 8)).take (s.lnPlan port).n) ≤ (s.ln port).rx.par.blank) →
    Runs (.lineSymbolReceive port first words after) s (fun t => (t.ln port).rx.sym = (s.ln port).rx.sym + 1 ∧
    (t.ln port).rx.prevErased = false ∧ t.num (Reg.PORT_LN_SYM_ERASED_CNT port) = s.num (Reg.PORT_LN_SYM_ERASED_CNT port))) ∧
  -- a symbol with more marked samples is erased and counted
  (∀ (port first : Nat) (words after : List Nat) (s : State), s.lnSymDue port = true →
    ((s.ln port).rx.par.blank < marksIn (((markSamples (s.ln port).rx.par.guard (flagSamples (s.ln port).rx.par.thr ((s.lnIn port first (words ++ after)).map (fun e => e.2)))).drop ((s.ln port).rx.par.guard + (s.lnPlan port).n / 8)).take (s.lnPlan port).n)) →
    Runs (.lineSymbolReceive port first words after) s (fun t => (t.ln port).rx.sym = (s.ln port).rx.sym + 1 ∧
    (t.ln port).rx.prevErased = true ∧
    t.num (Reg.PORT_LN_SYM_ERASED_CNT port) = min (s.num (Reg.PORT_LN_SYM_ERASED_CNT port) + 1) 0xFFFFFFFF)) ∧
  -- a new unsegmented data frame for the device enters the receive queue with its prefix
  (∀ (port level st c : Nat) (b : Bytes) (rest : List (Nat × List Nat)) (carriers : List Nat) (snr : List Int) (s : State), (s.ln port).rx.phase = 2 →
    (s.lnSymbols port rest).lnHears port = true → ((s.lnSymbols port rest).ln port).rx.phase = 2 →
    nsymOf (hdrOf ((s.lnSymbols port rest).ln port).rx.hdr) ((s.lnSymbols port rest).lnRxQ port ((s.lnSymbols port rest).ln port).rx.hdr) ≤ ((s.lnSymbols port rest).ln port).rx.sym →
    frameDecode (hdrOf ((s.lnSymbols port rest).ln port).rx.hdr) ((s.lnSymbols port rest).ln port).rx.coded = (b, st, c) → st ≠ 2 →
    fcsGood b = true → u8 b 0 / 32 = 0 → u8 b 0 / 2 % 2 = 0 → lineHeadLen b + 4 ≤ b.length →
    u8 b (lineHeadLen b - 1) = crc8 (b.take (lineHeadLen b - 1)) → (linkOf b).2 = 0 → u8 b 6 / 4 % 8 = u8 b 6 / 32 →
    ((s.lnSymbols port rest).ln port).await = none →
    dupHit ((s.lnSymbols port rest).port port) (s.lnSymbols port rest).now ((s.lnSymbols port rest).getF (Reg.PORT_LN_SEG port) Fld.PORT_LN_SEG_DUP_LIFE * 2 ^ 20) (u16 b 2 % 0x4000, u16 b 4 % 0x4000, u8 b 1, 0) = false →
    ((s.lnSymbols port rest).ptrs port false).same = true →
    (s.lnSymbols port rest).rxRoom port (8 + (b.length - 4 - lineHeadLen b)) = true →
    Runs (.lineFrameDecode port rest carriers snr level) s (fun t => ((t.port port).rxq = (s.port port).rxq ++ [{ bytes := rxPacket (u16 b 2 % 0x4000) 0 (linkOf b).1 (snrCode (snrMean (List.zip carriers snr))) (rxInfo st (u8 b 6 / 32) (u8 b 0 / 4 % 4) false) ((b.take (b.length - 4)).drop (lineHeadLen b)) }]) ∧
    (t.ln port).rx = {}))

/-- Deadline misses and lanes of line ports. Rests on R101, R103, R105, R106, R107. Clauses, each with the command it is about and
what its completion leaves. -/
def Obligations.LineDeadlinesAndLanes : Prop :=
  -- a symbol whose soft values are late is erased, and the shortfall is reported
  (∀ (port : Nat) (s : State), s.lnSymDue port = true → s.smp.fifo.length < 256 →
    Runs (.lineRxDeadlineMiss port) s (fun t => (t.ln port).rx.sym = (s.ln port).rx.sym + 1 ∧ (t.ln port).rx.prevErased = true ∧
    t.num (Reg.PORT_LN_PACE_SHORT_CNT port) = min (s.num (Reg.PORT_LN_PACE_SHORT_CNT port) + 1) 0xFFFFFFFF ∧ t.fab.shortfall = true ∧
    Logged s t (portRegion port * 0x1000 + 0x100) 2 (s.portPath port) [port])) ∧
  -- a payload symbol not ready will go as zeros, and the frame goes on
  (∀ (port sym : Nat) (x : LineTx) (s : State), 4 ≤ sym → (s.ln port).tx = some x → s.smp.fifo.length < 256 →
    Runs (.lineTxDeadlineMiss port sym) s (fun t => t.num (Reg.PORT_LN_PACE_SHORT_CNT port) = min (s.num (Reg.PORT_LN_PACE_SHORT_CNT port) + 1) 0xFFFFFFFF ∧
    t.fab.shortfall = true ∧ ((t.ln port).tx = some { x with missed := (sym - 4) :: x.missed }) ∧
    Logged s t (portRegion port * 0x1000 + 0x100) 2 (s.portPath port) [port])) ∧
  -- a header symbol not ready ends the transmission
  (∀ (port sym : Nat) (x : LineTx) (s : State), sym < 4 → (s.ln port).tx = some x → x.id = none →
    Runs (.lineTxDeadlineMiss port sym) s (fun t => (t.ln port).tx = none ∧ (t.port port).txen = false ∧
    t.isF (Reg.PORT_STAT port) Fld.PORT_STAT_TX_ACTIVE = false ∧ t.fab.shortfall = true)) ∧
  -- 32 good words, 8 of them align words, set LINK
  (∀ (port : Nat) (words : List Nat) (s : State), s.laneUser port = true → alignedBy words = true →
    Runs (.laneAligned (port, words)) s (fun t => t.portLink port = true)) ∧
  -- four bad words in sixteen clear LINK and are recorded
  (∀ (port : Nat) (words : List Nat) (s : State), s.laneUser port = true → s.portLink port = true → lostBy words = true →
    s.smp.fifo.length < 256 → Runs (.laneLoss port words) s (fun t => t.portLink port = false ∧
    t.isF (Reg.PORT_INT_STAT port) Fld.PORT_INT_STAT_LINK_LOSS = true ∧
    Logged s t (portRegion port * 0x1000 + 0x102) 3 (s.portPath port) [port]))

/-- Line MAC: packets taken, slots, launches, responses and their absence. Rests on R102, R104, R113, R116, R117, R118, R119, R120,
R129, R133, R134. Clauses, each with the command it is about and what its completion leaves. -/
def Obligations.LineMacSharesTheMedium : Prop :=
  -- a packet is taken to contend with a backoff below its window
  (∀ (port : Nat) (k : TxPkt) (s : State), s.persona port = 1 → s.portEn port = true → s.portLoop port = false →
    (s.ptrs port true).same = true → ((s.port port).txq.find? (fun (x : TxPkt) => !x.taken) = some k) → (s.ln port).jobs = [] →
    pktGood k.bytes = true → pktFlag k.bytes 4 = false → pktFlag k.bytes 5 = false → k.bytes.length ≤ 40 + 8192 →
    s.segCount port (s.lnSettings port (pktLink k.bytes 1) 1) (7 + 2 * (pktRoute k.bytes 1).length) (k.bytes.length - 40) 1 16 ≤ 16 →
    Runs (.lineTxPacketTake port) s (fun t => ((t.ln port).jobs.map (fun j => (j.id, j.prefixBytes, j.seq, j.route, j.attempt)) = [(k.id, k.bytes.take 40, (s.port port).seq, 1, 1)]) ∧
    (∀ j ∈ (t.ln port).jobs, j.b < j.cw))) ∧
  -- a packet whose backoff is used up starts in its window
  (∀ (port : Nat) (j : LineJob) (f : Bytes) (s : State), s.lnOn port = true → s.lnIdle port = true →
    ((s.ln port).jobs.find? (fun (x : LineJob) => decide (x.b = 0) && decide (pktClass x.prefixBytes = s.lnWindow port (s.ln port).slot) && !s.lnProtected port x && s.lnMay port) = some j) →
    s.lnFrameOf port j = some f →
    Runs (.contentionSlot port) s (fun t => ((t.ln port).tx.map (fun (x : LineTx) => (x.id, x.ack, x.psdu)) = some (some j.id, pktAck j.prefixBytes j.route, f)) ∧
    (t.port port).txen = true ∧ t.num (Reg.PORT_LN_TX_FRAME_CNT port) = min (s.num (Reg.PORT_LN_TX_FRAME_CNT port) + 1) 0xFFFFFFFF)) ∧
  -- an idle slot passes and backoffs of its class count down
  (∀ (port : Nat) (s : State), s.lnOn port = true → s.lnIdle port = true → (∀ j ∈ (s.ln port).jobs, 0 < j.b) →
    Runs (.contentionSlot port) s (fun t => ((t.ln port).slot = if (s.ln port).slot + 1 < s.lnRound port then (s.ln port).slot + 1 else 0) ∧
    ((t.ln port).jobs = (s.ln port).jobs.map (fun j => if pktClass j.prefixBytes = s.lnWindow port (s.ln port).slot then { j with b := j.b - 1 } else j)))) ∧
  -- TX_EN falls after the frame's samples; a frame that asks for a response waits for it
  (∀ (port first : Nat) (x : LineTx) (s : State), (s.ln port).tx = some x → x.ack = true →
    Runs (.lineTxEnd port first) s (fun t => t.out[s.out.length]? = some (.lane port (laneOut (s.lnLane port) (s.lnFcc port) (slotFrom (s.lnLane port) (s.lnFcc port) first) (wordsOf (s.lnLane port) (s.lnFcc port) (slotFrom (s.lnLane port) (s.lnFcc port) first) (s.lnWave port x).length) ((s.lnWave port x).map clipSample) ++ List.replicate (wordsOf (s.lnLane port) (s.lnFcc port) (slotFrom (s.lnLane port) (s.lnFcc port) first) (s.lnSamples port x.lag)) idleWord)) ∧
    (t.ln port).tx = none ∧ (t.ln port).await = x.id ∧ (t.ln port).reserved = true ∧ (t.port port).txen = false ∧
    t.num (Reg.PORT_LN_CLIP_CNT port) = min (s.num (Reg.PORT_LN_CLIP_CNT port) + clipsIn (s.lnWave port x)) 0xFFFFFFFF)) ∧
  -- the last segment of a packet that asks for none completes it
  (∀ (port first : Nat) (x : LineTx) (j : LineJob) (k : TxPkt) (s : State), (s.ln port).tx = some x → x.ack = false →
    x.id.bind (s.ln port).job = some j → j.segs.length ≤ j.seg + 1 → (s.port port).pkt j.id = some k →
    Runs (.lineTxEnd port first) s (fun t => ((t.port port).txq = (s.port port).txq.filter (fun y => decide (y.id ≠ j.id))) ∧
    ((t.ln port).jobs = (s.ln port).jobs.filter (fun y => decide (y.id ≠ j.id))))) ∧
  -- the response owed goes out
  (∀ (port : Nat) (r : LineResp) (s : State), (s.ln port).resp = some r → s.lnOn port = true → s.mayTransmit = true →
    s.portDrain port = false → (s.ln port).tx = none → ((s.ln port).offers.find? (fun (e : Nat × ToneMap) => decide (e.1 = r.dst)) = none) →
    Runs (.responseSend port) s (fun t => ((t.ln port).tx.map (fun (x : LineTx) => (x.id, x.psdu)) = some (none, [r.type * 32, r.seq, r.seg * 16, r.snr] ++ bytesLE 2 0 ++ bytesLE 2 r.dst ++ bytesLE 4 (crc32c ([r.type * 32, r.seq, r.seg * 16, r.snr] ++ bytesLE 2 0 ++ bytesLE 2 r.dst)))) ∧
    (t.ln port).resp = none ∧ (t.port port).txen = true)) ∧
  -- a missing response is counted, and the next attempt contends
  (∀ (port id : Nat) (j : LineJob) (s : State), s.persona port = 1 → (s.ln port).await = some id → (s.ln port).job id = some j →
    j.attempt ≤ s.lnLimit port j → (s.ln port).rx.phase = 0 → Runs (.responseWindowEnd port) s (fun t => (t.ln port).await = none ∧
    (t.ln port).reserved = false ∧ t.num (Reg.PORT_LN_TX_NOACK_CNT port) = min (s.num (Reg.PORT_LN_TX_NOACK_CNT port) + 1) 0xFFFFFFFF ∧
    (((t.ln port).job id).map (fun x => x.attempt) = some (j.attempt + 1)))) ∧
  -- a scheduled packet starts at its instant when the medium is idle
  (∀ (port : Nat) (j : LineJob) (f : Bytes) (s : State), s.lnNextSched port = some j → s.lnMay port = true → j.late = false →
    s.now % 2 ^ 32 = s.lnDue port j % 2 ^ 32 → s.lnFrameOf port j = some f →
    Runs (.lineScheduledLaunch port) s (fun t => ((t.ln port).tx.map (fun (x : LineTx) => (x.id, x.ack, x.psdu)) = some (some j.id, pktAck j.prefixBytes j.route, f)) ∧
    (t.port port).txen = true ∧ t.num (Reg.PORT_LN_TX_FRAME_CNT port) = min (s.num (Reg.PORT_LN_TX_FRAME_CNT port) + 1) 0xFFFFFFFF ∧
    t.num (Reg.PORT_LN_LAUNCH_LATE_CNT port) = s.num (Reg.PORT_LN_LAUNCH_LATE_CNT port))) ∧
  -- a busy medium makes it late
  (∀ (port : Nat) (j : LineJob) (s : State), s.lnNextSched port = some j → s.lnOn port = true → s.lnIdle port = false →
    fired s.now (s.lnDue port j) = true → j.late = false →
    Runs (.lineScheduledLaunch port) s (fun t => t.num (Reg.PORT_LN_LAUNCH_LATE_CNT port) = min (s.num (Reg.PORT_LN_LAUNCH_LATE_CNT port) + 1) 0xFFFFFFFF ∧
    t.isF (Reg.PORT_INT_STAT port) Fld.PORT_INT_STAT_LAUNCH_LATE = true)) ∧
  -- an incomplete message is dropped and counted
  (∀ (port src seq : Nat) (s : State), ((s.ln port).reasm.any (fun x => decide (x.src = src) && decide (x.seq = seq)) = true) →
    Runs (.reassemblyTimeout port src seq) s (fun t => ((t.ln port).reasm = (s.ln port).reasm.filter (fun x => !(decide (x.src = src) && decide (x.seq = seq)))) ∧
    t.num (Reg.PORT_LN_REASM_TO_CNT port) = min (s.num (Reg.PORT_LN_REASM_TO_CNT port) + 1) 0xFFFFFFFF))

/-- Air: cycle start, packets taken, backoff, CCA, launches. Rests on R147, R148, R149, R151, R152, R157, R169, R178. Clauses, each
with the command it is about and what its completion leaves. -/
def Obligations.AirChannelAccess : Prop :=
  -- a coordinator port numbers the cycle and sends its beacon
  (∀ (port : Nat) (receiving : Bool) (s : State), s.airOn port = true → s.persona port = 2 → s.mayTransmit = true →
    Runs (.airCycleStart port receiving) s (fun t => t.num (Reg.PORT_AIR_CYCLE_NO port) = s.cycleNo port ∧ (t.ar port).cyc0 = s.now ∧
    (t.ar port).tx = some (5, 0) ∧ t.num (Reg.PORT_AIR_BCN_TX_CNT port) = min (s.num (Reg.PORT_AIR_BCN_TX_CNT port) + 1) 0xFFFFFFFF)) ∧
  -- a packet is taken to contend with a backoff below 2 to the MIN_BE of its class
  (∀ (port : Nat) (k : TxPkt) (s : State), s.airOn port = true → s.persona port = 2 → (s.ptrs port true).same = true →
    ((s.port port).txq.find? (fun (x : TxPkt) => !x.taken) = some k) → pktGood k.bytes = true → k.bytes.length ≤ 1940 →
    pktFlag k.bytes 5 = false → pktFlag k.bytes 4 = false → s.sleeps port (pktDst k.bytes) = false → (s.ar port).jobs = [] →
    Runs (.airTxPacketTake port) s (fun t => ((t.ar port).jobs.map (fun j => (j.id, j.body, j.seq, j.phase, j.be)) = [(k.id, k.bytes.drop 40, (s.port port).seq, 0, s.minBe port (pktClass k.bytes))]) ∧
    (∀ j ∈ (t.ar port).jobs, j.backoff < 2 ^ j.be))) ∧
  -- a packet for a sleeping meter is held
  (∀ (port : Nat) (k : TxPkt) (s : State), s.airOn port = true → s.persona port = 2 → (s.ptrs port true).same = true →
    ((s.port port).txq.find? (fun (x : TxPkt) => !x.taken) = some k) → pktGood k.bytes = true → k.bytes.length ≤ 1940 →
    pktFlag k.bytes 5 = false → s.sleeps port (pktDst k.bytes) = true →
    s.parked port + chunks k.bytes.length ≤ s.getF (Reg.PORT_CTL port) Fld.PORT_CTL_PARK_MAX →
    Runs (.airTxPacketTake port) s (fun t => (t.port port).txq = (s.port port).txq.map (fun x => if x.id = k.id then { x with taken := true, held := true } else x))) ∧
  -- the backoff ends and CCA begins
  (∀ (port : Nat) (j : AirJob) (s : State), s.airOn port = true → s.airMay port = true →
    ((s.ar port).jobs.find? (fun (x : AirJob) => decide (x.phase = 0) && !x.down) = some j) →
    Runs (.airBackoffExpire port) s (fun t => ((t.ar port).job j.id).map (fun x => x.phase) = some 1)) ∧
  -- an idle channel and room in the region start the frame
  (∀ (port : Nat) (power : Int) (receiving : Bool) (j : AirJob) (f : Bytes) (s : State), ((s.ar port).jobs.find? (fun (x : AirJob) => decide (x.phase = 1)) = some j) →
    s.ccaBusy port power receiving = false → s.airFits port j = true → s.airLow port = true →
    (s.airFrame port { j with mseq := (s.ar port).macSeq, phase := 2 } = some f) →
    Runs (.airCcaDone port power receiving) s (fun t => t.out = s.out ++ [s.airOut port f] ∧ (t.ar port).tx = some (1, j.id) ∧
    (t.port port).txen = true ∧ t.num (Reg.PORT_AIR_TX_FRAME_CNT port) = min (s.num (Reg.PORT_AIR_TX_FRAME_CNT port) + 1) 0xFFFFFFFF)) ∧
  -- a busy channel is counted, and a new backoff is drawn
  (∀ (port : Nat) (power : Int) (j : AirJob) (s : State), ((s.ar port).jobs.find? (fun (x : AirJob) => decide (x.phase = 1)) = some j) →
    j.nbTry + 1 ≤ s.airF port (Reg.PORT_AIR_CSMA port) Fld.PORT_AIR_CSMA_MAX_CSMA → s.persona port = 2 →
    Runs (.airCcaDone port power true) s (fun t => t.num (Reg.PORT_AIR_CCA_BUSY_CNT port) = min (s.num (Reg.PORT_AIR_CCA_BUSY_CNT port) + 1) 0xFFFFFFFF ∧
    (((t.ar port).job j.id).map (fun x => (x.phase, x.nbTry, x.be)) = some (0, j.nbTry + 1, min (j.be + 1) (s.airF port (Reg.PORT_AIR_CSMA port) Fld.PORT_AIR_CSMA_MAX_BE))) ∧
    (((t.ar port).job j.id).all (fun x => decide (x.backoff < 2 ^ x.be)) = true))) ∧
  -- a scheduled packet is sent at its instant, without CCA, by a free port outside slot 0
  (∀ (port : Nat) (j : AirJob) (f : Bytes) (s : State), s.arNextSched port = some j → s.airOn port = true → j.late = false →
    s.airMay port = true → s.airSlot port ≤ s.airPos port → s.now % 2 ^ 32 = s.arDueAt port j % 2 ^ 32 →
    (s.airFrame port { j with mseq := (s.ar port).macSeq, phase := 2 } = some f) →
    Runs (.airScheduledLaunch port false) s (fun t => t.out = s.out ++ [s.airOut port f] ∧ (t.ar port).tx = some (1, j.id))) ∧
  -- a reception makes it late
  (∀ (port : Nat) (j : AirJob) (s : State), s.arNextSched port = some j → s.airOn port = true → j.late = false →
    fired s.now (s.arDueAt port j) = true →
    Runs (.airScheduledLaunch port true) s (fun t => t.num (Reg.PORT_AIR_LAUNCH_LATE_CNT port) = min (s.num (Reg.PORT_AIR_LAUNCH_LATE_CNT port) + 1) 0xFFFFFFFF ∧
    t.isF (Reg.PORT_INT_STAT port) Fld.PORT_INT_STAT_LAUNCH_LATE = true))

/-- Air: frames received and answered, ends of transmissions, missing answers, floods relayed. Rests on R138, R140, R141, R142, R143,
R144, R150, R154, R167, R168. Clauses, each with the command it is about and what its completion leaves. -/
def Obligations.AirFramesAreAnswered : Prop :=
  -- a frame whose FCS fails is counted and discarded
  (∀ (port snr low level mcs : Nat) (psdu : Bytes) (fcs2 : Bool) (s : State), s.airOn port = true → (s.port port).txen = false →
    s.portDrain port = false →
    (psdu.drop (psdu.length - (if fcs2 then 2 else 4)) ≠ airFcs fcs2 (psdu.take (psdu.length - (if fcs2 then 2 else 4)))) →
    Runs (.airFrameReceive port psdu fcs2 false (some mcs) (snr, low) level) s (fun t => t.num (Reg.PORT_AIR_FCS_BAD_CNT port) = min (s.num (Reg.PORT_AIR_FCS_BAD_CNT port) + 1) 0xFFFFFFFF ∧
    (t.port port).rxq = (s.port port).rxq)) ∧
  -- a new data frame for the device enters the receive queue with its prefix
  (∀ (port snr low level mcs : Nat) (psdu b : Bytes) (fcs2 : Bool) (m : AirMac) (s : State), s.airOn port = true →
    (s.port port).txen = false → s.portDrain port = false → psdu = b ++ airFcs fcs2 b → 3 ≤ b.length → airParse b = some m →
    m.pan = some (s.pan port) → m.type = 1 → m.ar = false → m.dst = some (s.airSelf port) →
    bit (s.raw (Reg.PORT_AIR_RDV_LO port)) 0 = false → u8 m.payload 0 / 32 = 0 → u8 m.payload 6 / 4 % 8 = u8 m.payload 6 / 32 →
    7 + 2 * (u8 m.payload 6 / 32) ≤ m.payload.length →
    dupHit (s.port port) s.now (8 * 2 ^ 20) (u16 m.payload 2 % 0x4000, u16 m.payload 4 % 0x4000, u8 m.payload 1, 0) = false →
    (s.ptrs port false).same = true → s.rxRoom port (8 + (m.payload.drop (7 + 2 * (u8 m.payload 6 / 32))).length) = true →
    Runs (.airFrameReceive port psdu fcs2 false (some mcs) (snr, low) level) s (fun t => ((t.port port).rxq = (s.port port).rxq ++ [{ bytes := rxPacket (u16 m.payload 2) 0 (m.src.getD 0x3FFE % 0x4000) snr (rxInfo 0 (u8 m.payload 6 / 32) (u8 m.payload 0 / 8 % 4) false) (m.payload.drop (7 + 2 * (u8 m.payload 6 / 32))) }]) ∧
    t.num (Reg.PORT_AIR_RX_OK_CNT port) = min (s.num (Reg.PORT_AIR_RX_OK_CNT port) + 1) 0xFFFFFFFF)) ∧
  -- the Enh-Ack owed goes out
  (∀ (port dst seq : Nat) (pend : Bool) (s : State), (s.ar port).ack = some (dst, seq, pend) → s.airOn port = true → s.mayTransmit = true →
    s.portDrain port = false → (s.ar port).tx = none →
    Runs (.airEnhAckSend port) s (fun t => t.out = s.out ++ [s.airOut port (bytesLE 2 (airFc 2 pend false true 2 0) ++ [seq % 256] ++ bytesLE 2 dst)] ∧
    (t.ar port).ack = none)) ∧
  -- a unicast frame that has been sent waits for its Enh-Ack
  (∀ (port id : Nat) (j : AirJob) (s : State), (s.ar port).tx = some (1, id) → (s.ar port).job id = some j → j.type ≠ 4 →
    Runs (.airTxEnd port) s (fun t => (t.ar port).tx = none ∧ (t.port port).txen = false ∧
    (((t.ar port).job id).map (fun x => x.phase) = some 3))) ∧
  -- a missing Enh-Ack is counted, and the next attempt contends
  (∀ (port : Nat) (j : AirJob) (s : State), ((s.ar port).jobs.find? (fun (x : AirJob) => decide (x.phase = 3)) = some j) →
    j.attempt ≤ s.arLimit port j → j.down = false →
    Runs (.airAckTimeout port) s (fun t => t.num (Reg.PORT_AIR_TX_NOACK_CNT port) = min (s.num (Reg.PORT_AIR_TX_NOACK_CNT port) + 1) 0xFFFFFFFF ∧
    (((t.ar port).job j.id).map (fun x => (x.attempt, x.phase)) = some (j.attempt + 1, 0)))) ∧
  -- a receive block that is late is a shortfall
  (∀ (port : Nat) (s : State), s.airOn port = true → s.smp.fifo.length < 256 →
    Runs (.airRxDeadlineMiss port) s (fun t => t.num (Reg.PORT_AIR_PACE_SHORT_CNT port) = min (s.num (Reg.PORT_AIR_PACE_SHORT_CNT port) + 1) 0xFFFFFFFF ∧
    t.fab.shortfall = true ∧ Logged s t (portRegion port * 0x1000 + 0x100) 2 (s.portPath port) [port])) ∧
  -- a transmit block that is late ends the frame
  (∀ (port kind id : Nat) (s : State), (s.ar port).tx = some (kind, id) → Runs (.airTxDeadlineMiss port) s (fun t => (t.ar port).tx = none ∧
    (t.port port).txen = false ∧ t.num (Reg.PORT_AIR_PACE_SHORT_CNT port) = min (s.num (Reg.PORT_AIR_PACE_SHORT_CNT port) + 1) 0xFFFFFFFF ∧
    t.fab.shortfall = true)) ∧
  -- a member relays a flood once, in the broadcast region
  (∀ (port : Nat) (power : Int) (receiving : Bool) (r : Relay) (rest : List Relay) (s : State), (s.ar port).relays = r :: rest →
    s.persona port = 3 → fired s.now r.due = true → s.airLow port = true →
    (s.airRoom port ((s.relayFrame port (usTicks (s.airLead port) + s.airShr port) r).length + s.fcsLen port)).1 = true →
    s.ccaBusy port power receiving = false → Runs (.floodRelaySend (port, power, receiving)) s (fun t => (t.ar port).relays = rest ∧
    t.num (Reg.PORT_AIR_FLOOD_RELAY_CNT port) = min (s.num (Reg.PORT_AIR_FLOOD_RELAY_CNT port) + 1) 0xFFFFFFFF ∧
    (t.ar port).tx = some (7, 0) ∧ t.out = s.out ++ [s.airOut port (s.relayFrame port (usTicks (s.airLead port) + s.airShr port) r)]))

/-- Rendezvous windows, wake-up trains and member sync. Rests on R155, R156, R157, R158, R159, R161, R162, R163. Clauses, each with
the command it is about and what its completion leaves. -/
def Obligations.SleepingMetersAndMembers : Prop :=
  -- a window opens around the meter's rendezvous
  (∀ (port addr tr g : Nat) (e : Bytes) (s : State), s.rdvEntry port addr = some e → s.airOn port = true → 0 < u8 e 2 →
    s.rdvTr port e s.taiTick = tr → s.rdvWidth port addr e tr = some g → tr ≤ s.taiTick + usTicks g →
    Runs (.rendezvousWindowOpen port addr) s (fun t => (t.ar port).windows.map (fun w => (w.addr, w.g, w.tr, w.opens, w.contact)) = ((s.ar port).windows.filter (fun w => decide (w.addr ≠ addr))).map (fun w => (w.addr, w.g, w.tr, w.opens, w.contact)) ++ [(addr, g, tr, tr - usTicks g, false)])) ∧
  -- a window with a contact closes
  (∀ (port addr tx : Nat) (w : RdvWindow) (s : State), ((s.ar port).windows.find? (fun (x : RdvWindow) => decide (x.addr = addr)) = some w) →
    w.contact = true → 4 * tx ≤ 2 * w.g + (s.airNs port 0).1 / 1000 →
    Runs (.rendezvousWindowEnd port addr tx) s (fun t => ((t.ar port).windows = (s.ar port).windows.filter (fun y => decide (y.addr ≠ addr))) ∧
    t.num (Reg.PORT_AIR_RDV_MISS_CNT port) = s.num (Reg.PORT_AIR_RDV_MISS_CNT port))) ∧
  -- a window without one is a missed rendezvous
  (∀ (port addr tx : Nat) (w : RdvWindow) (e : Bytes) (s : State), ((s.ar port).windows.find? (fun (x : RdvWindow) => decide (x.addr = addr)) = some w) →
    w.contact = false → 4 * tx ≤ 2 * w.g + (s.airNs port 0).1 / 1000 → s.rdvEntry port addr = some e → u8 e 6 % 4 ≠ 3 →
    Runs (.rendezvousWindowEnd port addr tx) s (fun t => t.num (Reg.PORT_AIR_RDV_MISS_CNT port) = min (s.num (Reg.PORT_AIR_RDV_MISS_CNT port) + 1) 0xFFFFFFFF ∧
    t.isF (Reg.PORT_INT_STAT port) Fld.PORT_INT_STAT_ESCALATION = true)) ∧
  -- a wake-up train begins
  (∀ (port addr len tr : Nat) (e : Bytes) (s : State), s.rdvEntry port addr = some e → s.trainOn port = none → s.airOn port = true →
    0 < u8 e 2 → u8 e 6 % 4 ≠ 3 → s.airF port (Reg.PORT_AIR_WAKE port) Fld.PORT_AIR_WAKE_WUT_LEN * 2 ^ 20 = len →
    s.rdvTr port e (s.taiTick + len - s.airSlot port) = tr → tr ≤ s.taiTick + len → s.rdvTrain port e tr = true →
    Runs (.wakeTrainStart port addr) s (fun t => (t.ar port).train = some (addr, tr) ∧
    t.num (Reg.PORT_AIR_WUT_SENT_CNT port) = min (s.num (Reg.PORT_AIR_WUT_SENT_CNT port) + 1) 0xFFFFFFFF)) ∧
  -- a wake-up frame goes out
  (∀ (port a tr : Nat) (s : State), s.trainOn port = some (a, tr) → s.airLow port = true → s.airSlot port ≤ s.airPos port →
    Runs (.wakeFrameSend port) s (fun t => (t.ar port).tx = some (6, 0) ∧ (t.ar port).macSeq = ((s.ar port).macSeq + 1) % 256 ∧
    t.out = s.out ++ [s.airOut port (s.airData port false false (s.ar port).macSeq a ([7 * 32] ++ bytesLE 2 (s.rdvMs (usTicks (s.airLead port) + s.airShr port) tr)))])) ∧
  -- a missed beacon is counted
  (∀ (port : Nat) (s : State), s.airOn port = true → s.persona port = 3 → s.airSync port = 2 →
    s.getF (Reg.PORT_AIR_SYNC_STAT port) Fld.PORT_AIR_SYNC_STAT_MISSED < 2 →
    Runs (.memberBeaconMiss port) s (fun t => t.num (Reg.PORT_AIR_BCN_MISS_CNT port) = min (s.num (Reg.PORT_AIR_BCN_MISS_CNT port) + 1) 0xFFFFFFFF ∧
    t.getF (Reg.PORT_AIR_SYNC_STAT port) Fld.PORT_AIR_SYNC_STAT_MISSED = s.getF (Reg.PORT_AIR_SYNC_STAT port) Fld.PORT_AIR_SYNC_STAT_MISSED + 1 ∧
    t.airSync port = 2)) ∧
  -- the third loses sync
  (∀ (port : Nat) (s : State), s.airOn port = true → s.persona port = 3 → s.airSync port = 2 →
    s.getF (Reg.PORT_AIR_SYNC_STAT port) Fld.PORT_AIR_SYNC_STAT_MISSED = 2 → Runs (.memberBeaconMiss port) s (fun t => t.airSync port = 3 ∧
    t.isF (Reg.PORT_INT_STAT port) Fld.PORT_INT_STAT_SYNC_LOST = true)) ∧
  -- the next search round has a window twice as long
  (∀ (port : Nat) (s : State), s.airOn port = true → s.persona port = 3 → s.airSync port = 3 → s.beaconAlways port = false →
    Runs (.memberSearchRound port) s (fun t => t.num (Reg.PORT_AIR_BCN_MISS_CNT port) = min (s.num (Reg.PORT_AIR_BCN_MISS_CNT port) + 1) 0xFFFFFFFF ∧
    t.getF (Reg.PORT_AIR_SYNC_STAT port) Fld.PORT_AIR_SYNC_STAT_ROUND = min (s.getF (Reg.PORT_AIR_SYNC_STAT port) Fld.PORT_AIR_SYNC_STAT_ROUND + 1) 15)) ∧
  -- a scan without a beacon is recorded
  (∀ (port : Nat) (s : State), s.airOn port = true → s.persona port = 3 → s.airSync port = 3 → s.beaconAlways port = true →
    (s.ar port).scanned = false → s.smp.fifo.length < 256 →
    Runs (.memberScanTimeout port) s (fun t => Logged s t (portRegion port * 0x1000 + 0x104) 4 (s.portPath port) ([port, 3] ++ bytesLE 3 (s.getF (Reg.PORT_AIR_SYNC_STAT port) Fld.PORT_AIR_SYNC_STAT_LOST_S))))

/-- Words read and written move packets; enable, disable, queue resets, RX_SINK off; the descriptor mover copies packets. Rests on
R176, R177, R181, R183, R184, R187. Clauses, each with the command it is about and what its completion leaves. -/
def Obligations.PortQueuesMovePackets : Prop :=
  -- a read takes the next word of the oldest packet, and the packet with its last word
  (∀ (port : Nat) (k : RxPkt) (r : List RxPkt) (s : State), s.exists_ (portRegion port) (port % 16) = true →
    s.isF (Reg.PORT_CTL port) Fld.PORT_CTL_RX_SINK = true → (s.ptrs port false).same = true → (s.port port).rxq = k :: r →
    Runs (.portBobRxRead port) s (fun t => t.busData = word (leNat (slice k.bytes (4 * k.read) 4)) ∧
    ((t.port port).rxq = if k.bytes.length ≤ 4 * (k.read + 1) then r else { k with read := k.read + 1 } :: r) ∧
    t.isF (Reg.PORT_STAT port) Fld.PORT_STAT_RX_EOP = decide (k.bytes.length ≤ 4 * (k.read + 1)))) ∧
  -- a read of an empty queue repeats the last word and raises UNDERRUN
  (∀ (port : Nat) (s : State), s.exists_ (portRegion port) (port % 16) = true → (s.port port).rxq = [] →
    Runs (.portBobRxRead port) s (fun t => t.busData = (s.port port).lastRx ∧
    t.isF (Reg.PORT_INT_STAT port) Fld.PORT_INT_STAT_UNDERRUN = true)) ∧
  -- a word joins the packet being written
  (∀ (port value : Nat) (s : State), s.exists_ (portRegion port) (port % 16) = true →
    s.isF (Reg.PORT_CTL port) Fld.PORT_CTL_DESC_EN = false → s.isF (Reg.PORT_CTL port) Fld.PORT_CTL_TX_EOP = false →
    (s.ptrs port true).same = true → ((s.port port).txOpen.length % 256 ≠ 0 ∨ s.txFree port ≠ 0) →
    Runs (.portBobTxWrite port value) s (fun t => (t.port port).txOpen = (s.port port).txOpen ++ bytesLE 4 value)) ∧
  -- a word with TX_EOP ends its packet, which enters the queue
  (∀ (port value : Nat) (s : State), s.exists_ (portRegion port) (port % 16) = true →
    s.isF (Reg.PORT_CTL port) Fld.PORT_CTL_DESC_EN = false → s.isF (Reg.PORT_CTL port) Fld.PORT_CTL_TX_EOP = true →
    (s.ptrs port true).same = true → (s.port port).txBad = false → s.portLoop port = false →
    ((s.port port).txOpen.length % 256 ≠ 0 ∨ s.txFree port ≠ 0) → Runs (.portBobTxWrite port value) s (fun t => (t.port port).txOpen = [] ∧
    ((t.port port).txq = (s.port port).txq ++ [{ id := (s.port port).nextId, bytes := (s.port port).txOpen ++ bytesLE (if s.getF (Reg.PORT_CTL port) Fld.PORT_CTL_TX_NB = 0 then 4 else s.getF (Reg.PORT_CTL port) Fld.PORT_CTL_TX_NB) value }]))) ∧
  -- EN goes to 1 and PORT_TIMING shows the latencies of the personality
  (∀ (port : Nat) (s : State), s.exists_ (portRegion port) (port % 16) = true → s.portEnBit port = false → s.portLoop port = false →
    Runs (.portEnable port) s (fun t => t.portEnBit port = true ∧
    t.getF (Reg.PORT_TIMING port) Fld.PORT_TIMING_TX_LAT_NS = (s.latency port).1 ∧
    t.getF (Reg.PORT_TIMING port) Fld.PORT_TIMING_RX_LAT_NS = (s.latency port).2)) ∧
  -- EN goes to 0 and TX_EN falls
  (∀ (port : Nat) (s : State), s.exists_ (portRegion port) (port % 16) = true → s.portEnBit port = true →
    Runs (.portDisable port) s (fun t => t.portEnBit port = false ∧ (t.port port).txen = false ∧
    t.isF (Reg.PORT_STAT port) Fld.PORT_STAT_TX_ACTIVE = false)) ∧
  -- the receive queue is emptied, and RX_DROP counts its packets
  (∀ (port : Nat) (s : State), s.exists_ (portRegion port) (port % 16) = true →
    Runs (.portRxReset port) s (fun t => (t.port port).rxq = [] ∧
    t.getF (Reg.PORT_STAT port) Fld.PORT_STAT_RX_DROP = min (s.getF (Reg.PORT_STAT port) Fld.PORT_STAT_RX_DROP + (s.port port).rxq.length) (2 ^ bwidth Fld.PORT_STAT_RX_DROP - 1))) ∧
  -- the transmit queue and the packet being written are emptied
  (∀ (port : Nat) (s : State), s.exists_ (portRegion port) (port % 16) = true →
    Runs (.portTxReset port) s (fun t => (t.port port).txq = [] ∧ (t.port port).txOpen = [] ∧
    t.isF (Reg.PORT_STAT port) Fld.PORT_STAT_TX_ACTIVE = false)) ∧
  -- RX_SINK goes to 0, and a packet partly read is discarded
  (∀ (port : Nat) (s : State), s.exists_ (portRegion port) (port % 16) = true → (s.ptrs port false).same = true →
    Runs (.portRxSinkOff port) s (fun t => t.isF (Reg.PORT_CTL port) Fld.PORT_CTL_RX_SINK = false ∧
    ((t.port port).rxq = match (s.port port).rxq with | [] => [] | k :: r => if k.read = 0 then k :: r else r))) ∧
  -- an owned descriptor with a length the port can take is fetched
  (∀ (port : Nat) (s : State), s.isF (Reg.PORT_CTL port) Fld.PORT_CTL_DESC_EN = true →
    s.cons port ≠ s.getF (Reg.PORT_DESC_HEAD port) Fld.PORT_DESC_HEAD_PROD → (s.port port).desc = none →
    u8 (s.rdMem (s.descAddr port (s.cons port)) 16) 10 / 128 = 1 → 0 < u16 (s.rdMem (s.descAddr port (s.cons port)) 16) 8 →
    u16 (s.rdMem (s.descAddr port (s.cons port)) 16) 8 ≤ s.txLimit port →
    Runs (.descFetch port 0) s (fun t => (t.port port).desc = some (s.rdMem (s.descAddr port (s.cons port)) 16))) ∧
  -- a descriptor that the mover does not own stops it
  (∀ (port : Nat) (s : State), s.isF (Reg.PORT_CTL port) Fld.PORT_CTL_DESC_EN = true →
    s.cons port ≠ s.getF (Reg.PORT_DESC_HEAD port) Fld.PORT_DESC_HEAD_PROD → (s.port port).desc = none →
    u8 (s.rdMem (s.descAddr port (s.cons port)) 16) 10 / 128 = 0 →
    Runs (.descFetch port 0) s (fun t => t.isF (Reg.PORT_CTL port) Fld.PORT_CTL_DESC_EN = false ∧
    t.isF (Reg.PORT_INT_STAT port) Fld.PORT_INT_STAT_DESC_ERR = true)) ∧
  -- a fetched descriptor's packet is copied into the queue, and CONS advances
  (∀ (port : Nat) (d : Bytes) (s : State), (s.port port).desc = some d → chunks (u16 d 8) ≤ s.txFree port → (s.ptrs port true).same = true →
    s.portLoop port = false → Runs (.descCopy port false) s (fun t => (t.port port).desc = none ∧
    ((t.port port).txq = (s.port port).txq ++ [{ id := (s.port port).nextId, bytes := s.rdMem (un d 0 8 % 2 ^ 36) (u16 d 8), desc := some (s.cons port) }]) ∧
    t.cons port = (s.cons port + 1) % 2 ^ s.getF (Reg.PORT_DESC_BASE port) Fld.PORT_DESC_BASE_RING_LOG2 % 2 ^ 16)) ∧
  -- a completed packet leaves the queue, and its descriptor holds the status
  (∀ (port index code : Nat) (k : TxPkt) (s : State), ((s.port port).txq.find? (fun (x : TxPkt) => decide (x.desc = some index)) = some k) →
    (s.port port).pkt k.id = some k → code ≤ 11 → (s.ptrs port true).same = true →
    Runs (.descComplete port index code) s (fun t => ((t.port port).txq = (s.port port).txq.filter (fun x => decide (x.id ≠ k.id))) ∧
    t.rdByte (s.descAddr port index + 11) = code))

/-- Cascade links come and go; frames received, sent under credit, resent, given up, answered. Rests on R189, R190, R191, R192, R193,
R194, R195, R196. Clauses, each with the command it is about and what its completion leaves. -/
def Obligations.CascadeLinksCarryFrames : Prop :=
  -- comma alignment takes STATE 1 to 2
  (∀ (port : Nat) (s : State), s.persona port = 4 → s.portEn port = true → s.casState port = 1 →
    Runs (.casCommaAlign port) s (fun t => t.casState port = 2)) ∧
  -- HELLO goes out with the device's index
  (∀ (port : Nat) (s : State), s.persona port = 4 → s.casState port = 2 →
    Runs (.casHelloTimer port) s (fun t => ((t.port port).cas.tx = some { chars := casChars (casFrame 4 0 0 0 (bytesLE 2 (s.getF (Reg.PORT_CAS_CFG port) Fld.PORT_CAS_CFG_DEV_INDEX) ++ [1, 0, 0, 0, 0, 0])), start := s.now }) ∧
    t.num (Reg.PORT_CAS_TX_FRAME_CNT port) = min (s.num (Reg.PORT_CAS_TX_FRAME_CNT port) + 1) 0xFFFFFFFF)) ∧
  -- a valid HELLO takes STATE 2 to 3 and sets LINK
  (∀ (port : Nat) (codes : List Nat) (bytes : Bytes) (s : State), s.persona port = 4 → s.portEn port = true → s.casState port = 2 →
    s.fab.job = none → (casRead codes = { bytes := bytes, ended := true }) → casGood bytes = true → u8 bytes 0 = 4 → u16 bytes 2 = 8 →
    u8 bytes 14 = 1 → Runs (.casHelloReceive port codes) s (fun t => t.casState port = 3 ∧ t.portLink port = true)) ∧
  -- a link that goes down is counted and recorded, and an enabled port searches again
  (∀ (port viol : Nat) (s : State), s.persona port = 4 → s.portEn port = true → s.casState port ≠ 0 → s.smp.fifo.length < 256 →
    Runs (.casLinkDown port viol true) s (fun t => t.casState port = 1 ∧ t.portLink port = false ∧
    t.num (Reg.PORT_CAS_LINK_DOWN_CNT port) = min (s.num (Reg.PORT_CAS_LINK_DOWN_CNT port) + 1) 0xFFFFFFFF ∧
    Logged s t (portRegion port * 0x1000 + 0x102) 3 (s.portPath port) [port])) ∧
  -- a CREDIT sequence carries the partner's count
  (∀ (port lo hi crc : Nat) (s : State), s.persona port = 4 → 2 ≤ s.casState port → crc % 256 = crc8 [lo % 256, hi % 256] →
    Runs (.casCreditReceive port lo hi crc) s (fun t => (t.port port).cas.advP = lo % 256 + hi % 16 * 256)) ∧
  -- a CREDIT sequence with the own count goes out
  (∀ (port : Nat) (s : State), s.persona port = 4 → s.casState port = 3 → (s.port port).cas.tx = none →
    Runs (.casCreditSend port) s (fun t => t.out = s.out ++ [.cascade port (codesOf (s.port port).cas.pos (s.port port).cas.skip (kCredit :: bytesLE 2 (s.port port).cas.adv ++ [crc8 (bytesLE 2 (s.port port).cas.adv)])).1] ∧
    (t.port port).cas.credit = false)) ∧
  -- a good meter frame enters the receive queue whole, less its CRC
  (∀ (port sof stop : Nat) (codes : List Nat) (bytes : Bytes) (s : State), s.persona port = 4 → s.portEn port = true → s.casState port = 3 →
    s.fab.job = none → (casRead (sof :: codes ++ [stop]) = { bytes := bytes, ended := true }) → s.casSeen port bytes = false →
    casGood bytes = true → u8 bytes 0 = 0 → (s.ptrs port false).same = true → s.rxRoom port (12 + u16 bytes 2) = true →
    Runs (.casFrameReceive port sof codes stop) s (fun t => ((t.port port).rxq = (s.port port).rxq ++ [{ bytes := bytes.take (12 + u16 bytes 2) }]) ∧
    t.num (Reg.PORT_CAS_RX_FRAME_CNT port) = min (s.num (Reg.PORT_CAS_RX_FRAME_CNT port) + 1) 0xFFFFFFFF)) ∧
  -- a frame with a code violation is counted and discarded
  (∀ (port sof stop : Nat) (codes : List Nat) (s : State), s.persona port = 4 → s.portEn port = true → 2 ≤ s.casState port →
    s.fab.job = none → (casRead (sof :: codes ++ [stop])).viol ≠ 0 →
    Runs (.casFrameReceive port sof codes stop) s (fun t => t.num (Reg.PORT_CAS_CV_CNT port) = min (s.num (Reg.PORT_CAS_CV_CNT port) + 1) 0xFFFFFFFF ∧
    (t.port port).rxq = (s.port port).rxq)) ∧
  -- the oldest frame goes out under the next CSEQ and uses its credit
  (∀ (port : Nat) (k : TxPkt) (s : State), s.persona port = 4 → s.portEn port = true → s.portLoop port = false → s.portDrain port = false →
    (s.ptrs port true).same = true → ((s.port port).txq.find? (fun (x : TxPkt) => x.again || !x.taken) = some k) → k.again = false →
    k.cseq = none → casRefused k.bytes = false → s.casState port = 3 → (s.port port).cas.results = [] →
    chunks k.bytes.length ≤ s.casCredit port → s.mayTransmit = true →
    Runs (.casFrameSend port) s (fun t => ((t.port port).cas.tx = some { chars := casChars (overlay (overlay k.bytes 1 [0]) 4 (bytesLE 4 (s.port port).cas.nextSeq)), start := s.now }) ∧
    (t.port port).cas.nextSeq = ((s.port port).cas.nextSeq + 1) % 2 ^ 32 ∧
    (t.port port).cas.used = ((s.port port).cas.used + chunks k.bytes.length) % 4096)) ∧
  -- a frame without a result is resent under its CSEQ with RESEND = 1
  (∀ (port cseq : Nat) (k : TxPkt) (s : State), ((s.port port).txq.find? (fun (x : TxPkt) => x.held && decide (x.cseq = some cseq)) = some k) →
    k.resends < s.getF (Reg.PORT_CAS_CFG port) Fld.PORT_CAS_CFG_MAX_RESEND → s.casState port = 3 →
    chunks k.bytes.length ≤ s.casCredit port → s.mayTransmit = true → k.cseq = some cseq →
    Runs (.casCommitTimeout port cseq) s (fun t => ((t.port port).cas.tx = some { chars := casChars (overlay (overlay k.bytes 1 [1]) 4 (bytesLE 4 cseq)), start := s.now }) ∧
    t.num (Reg.PORT_CAS_RESEND_CNT port) = min (s.num (Reg.PORT_CAS_RESEND_CNT port) + 1) 0xFFFFFFFF)) ∧
  -- a frame whose resends are used up leaves the queue
  (∀ (port cseq : Nat) (k : TxPkt) (s : State), ((s.port port).txq.find? (fun (x : TxPkt) => x.held && decide (x.cseq = some cseq)) = some k) →
    (s.port port).pkt k.id = some k → s.getF (Reg.PORT_CAS_CFG port) Fld.PORT_CAS_CFG_MAX_RESEND ≤ k.resends →
    Runs (.casCommitTimeout port cseq) s (fun t => (t.port port).txq = (s.port port).txq.filter (fun x => decide (x.id ≠ k.id)))) ∧
  -- at most ACK_BATCH results go out in one frame
  (∀ (port : Nat) (s : State), s.persona port = 4 → s.casState port = 3 → s.casDue port = true → s.mayTransmit = true →
    Runs (.casResultSend port) s (fun t => (t.port port).cas.results = (s.port port).cas.results.drop (s.getF (Reg.PORT_CAS_ACK port) Fld.PORT_CAS_ACK_ACK_BATCH) ∧
    ((t.port port).cas.tx = some { chars := casChars (casFrame 3 0 0 0 (((s.port port).cas.results.take (s.getF (Reg.PORT_CAS_ACK port) Fld.PORT_CAS_ACK_ACK_BATCH)).flatMap (fun e => bytesLE 4 e.1 ++ [e.2.1]))), start := s.now })))

/-- A lane takes an ingest entry, a port packet or a protect request, and work of a busy slot is held. Rests on R198, R199, R200,
R201, R206, R221. Clauses, each with the command it is about and what its completion leaves. -/
def Obligations.IntakeGrantsWork : Prop :=
  -- a lane of the ingest pool takes the oldest entry of the next queue; a frame without a slot goes on to its checks
  (∀ (l p k : Nat) (e : Bytes) (r : List Bytes) (err : Bool) (s : State), s.inkGrants = true →
    (∀ n ∈ List.range 64, s.ringReady n = false) → s.laneServes l = true → (s.laneJobs l).length < 2 → bit (s.raw Reg.INK_POOL) l = true →
    s.ink.back = [] → s.nextIng = some (p, k) → 64 ≤ p → s.ingq (p - 64) = e :: r →
    s.lookupTitle (padTo 8 (slice (s.ingFrame (p - 64) e).bytes 2 8)) = none → Runs (.intakeGrant l err) s (fun t => t.ingq (p - 64) = r ∧
    (t.laneJobs l = s.laneJobs l ++ [.frame { s.ingFrame (p - 64) e with slot := none, tblErr := err }]) ∧
    (t.ink.rrIng, t.ink.rrLeft) = (p, k))) ∧
  -- a frame of a slot that has another in process is held
  (∀ (l p k n : Nat) (e : Bytes) (r : List Bytes) (err : Bool) (s : State), s.inkGrants = true →
    (∀ n ∈ List.range 64, s.ringReady n = false) → s.laneServes l = true → (s.laneJobs l).length < 2 → bit (s.raw Reg.INK_POOL) l = true →
    s.ink.back = [] → s.nextIng = some (p, k) → 64 ≤ p → s.ingq (p - 64) = e :: r →
    s.lookupTitle (padTo 8 (slice (s.ingFrame (p - 64) e).bytes 2 8)) = some n → s.slotBusy n = true → s.ink.holds.length < 4096 →
    Runs (.intakeGrant l err) s (fun t => t.ingq (p - 64) = r ∧ t.laneJobs l = s.laneJobs l ∧
    (t.ink.holds = s.ink.holds ++ [.frame { s.ingFrame (p - 64) e with slot := some n, tblErr := err }]))) ∧
  -- a lane of the port pool takes the oldest packet of the next port
  (∀ (l n : Nat) (k : RxPkt) (r : List RxPkt) (err : Bool) (s : State), s.inkGrants = true → (∀ n ∈ List.range 64, s.ringReady n = false) →
    s.laneServes l = true → (s.laneJobs l).length < 2 → bit (s.raw Reg.INK_POOL) l = false → s.ink.back = [] → s.protReady = none →
    s.nextPort = some n → (s.ptrs n false).same = true → (s.port n).rxq = k :: r → s.ink.holds.length < 4096 →
    Runs (.intakeGrant l err) s (fun t => (t.port n).rxq = r ∧ t.ink.rrPort = n)) ∧
  -- a lane of the port pool takes the next protect request
  (∀ (l i : Nat) (err : Bool) (s : State), s.inkGrants = true → (∀ n ∈ List.range 64, s.ringReady n = false) → s.laneServes l = true →
    (s.laneJobs l).length < 2 → bit (s.raw Reg.INK_POOL) l = false → s.ink.back = [] → s.protReady = some i → s.nextPort = none →
    s.mustHold (u32 (s.rdMem (s.protA i) 32) 0 % 2 ^ 20) (s.ahead none) = false →
    Runs (.intakeGrant l err) s (fun t => t.getF Reg.INK_PROT_HEAD Fld.INK_PROT_HEAD_CONS = (i + 1) % 2 ^ s.getF Reg.INK_PROT_BASE_LO Fld.INK_PROT_BASE_LO_PRING_LOG2 ∧
    (t.laneJobs l).length = (s.laneJobs l).length + 1 ∧ t.ink.rrProt = false)) ∧
  -- with intake stopped nothing is granted
  (∀ (l : Nat) (err : Bool) (s : State), s.inkGrants = false → Runs (.intakeGrant l err) s (fun t => t = s))

/-- Derivations end; lanes reject, verify or protect; ring entries are written in order, and staged frames commit. Rests on R45, R202,
R208, R209, R211, R214, R215, R217, R218, R220, R222. Clauses, each with the command it is about and what its completion leaves. -/
def Obligations.LanesCheckFramesAndCommit : Prop :=
  -- with room in the ring the oldest item is written at PROD, and PROD advances
  (∀ (x : FwItem) (r : List FwItem) (s : State), s.ink.fwq = x :: r → s.fwFull = false → x.forSlot = none → (∀ b ∈ fwEntry x, b < 256) →
    Runs (.fwRingWrite) s (fun t => t.rdMem (s.num Reg.INK_FW_BASE_LO / 2 ^ 13 * 2 ^ 13 + s.num Reg.INK_FW_BASE_HI * 2 ^ 32 + 8192 * (s.getF Reg.INK_FW_HEAD Fld.INK_FW_HEAD_PROD % s.fwSize)) (fwEntry x).length = fwEntry x ∧
    t.getF Reg.INK_FW_HEAD Fld.INK_FW_HEAD_PROD = (s.getF Reg.INK_FW_HEAD Fld.INK_FW_HEAD_PROD + 1) % 2 ^ 15 ∧
    t.ink.fwq.length = r.length)) ∧
  -- a full ring takes nothing, and the work waits
  (∀ (s : State), s.fwFull = true → Runs (.fwRingWrite) s (fun t => t.dram = s.dram ∧
    t.getF Reg.INK_FW_HEAD Fld.INK_FW_HEAD_PROD = s.getF Reg.INK_FW_HEAD Fld.INK_FW_HEAD_PROD)) ∧
  -- a commit brings the slot its counter and time, and INK_ACCEPT_CNT counts it
  (∀ (slot : Nat) (c : CFrame) (s : State), (s.ink.commits.find? (fun (x : CFrame) => decide (x.slot = slot)) = some c) →
    s.mayCommit c = true → s.ink.op = none → (s.msmAt slot).length = 32 → msmFresh (s.msmAt slot) = false → c.ctr < 2 ^ 32 →
    Runs (.frameCommit slot) s (fun t => t.ink.commits = s.ink.commits.erase c ∧
    t.num (Reg.INK_ACCEPT_CNT) = min (s.num (Reg.INK_ACCEPT_CNT) + 1) 0xFFFFFFFF ∧ msmRx (t.msmAt slot) = max (msmRx (s.msmAt slot)) c.ctr ∧
    u32 (t.msmAt slot) 20 = s.taiSec % 2 ^ 32 ∧ t.num Reg.INK_PREV_GEN_CNT = min (s.num Reg.INK_PREV_GEN_CNT + c.prev.toNat) 0xFFFFFFFF)) ∧
  -- a frame whose record is not yet in staging does not commit
  (∀ (slot : Nat) (c : CFrame) (s : State), (s.ink.commits.find? (fun (x : CFrame) => decide (x.slot = slot)) = some c) → c.stage < 2 →
    Runs (.frameCommit slot) s (fun t => t = s)) ∧
  -- the oldest derivation ends, and its AES-CMAC fills the cache
  (∀ (k : KeyEnt) (title m : Bytes) (r : List (KeyEnt × Bytes)) (s : State), s.ink.deriv = (k, title) :: r → s.noGrant 5 28 = false →
    s.dmk k.domain = some m → Runs (.keyDeriveDone) s (fun t => t.ink.deriv = r ∧
    (t.ink.kc = kcFill s.ink.kc { k with key := cmac m (derivInput k.dir title k.gen) }))) ∧
  -- a frame that fails a check leaves its lane, and the counter of that check counts it
  (∀ (l : Nat) (err : Bool) (f : IFrame) (r : List LaneJob) (s : State), s.laneJobs l = .frame f :: r → s.frameCheck f ≠ 0 →
    s.frameCheck f ≠ 10 → s.ink.op = none → Runs (.lanePassDone l err) s (fun t => t.laneJobs l = r ∧
    t.num (Reg.INK_FORMAT_CNT + 4 * (s.frameCheck f - 1)) = min (s.num (Reg.INK_FORMAT_CNT + 4 * (s.frameCheck f - 1)) + 1) 0xFFFFFFFF ∧
    t.ink.commits = s.ink.commits)) ∧
  -- a frame whose tag checks waits for its commit with its plaintext; one whose tag does not is not accepted
  (∀ (l n : Nat) (k : Bytes) (err : Bool) (f : IFrame) (r : List LaneJob) (s : State), s.laneJobs l = .frame f :: r → s.frameCheck f = 0 →
    f.slot = some n → f.key = some k → Runs (.lanePassDone l err) s (fun t => (∀ pt, frameOpen k f.bytes = some pt → t.laneJobs l = r ∧
    t.ink.commits.map (fun c => (c.slot, c.ctr, c.gen, c.plain)) = s.ink.commits.map (fun c => (c.slot, c.ctr, c.gen, c.plain)) ++ [(n, frameCtr f.bytes, f.gen, pt)]) ∧
    (frameOpen k f.bytes = none → t.ink.commits = s.ink.commits))) ∧
  -- a protect request takes the next transmit counter, and its descriptor completes with OWN 0 and STATUS 0
  (∀ (l i g n : Nat) (d k : Bytes) (r : List LaneJob) (s : State), s.laneJobs l = .protect i d g (some k) :: r → n = u32 d 0 % 2 ^ 20 →
    d.length = 32 → n < s.slotCount → s.ink.ue.contains n = false → scrcOk (s.msmAt n) = true → (s.msmAt n).length = 32 →
    msmActive (s.msmAt n) = true → msmHold (s.msmAt n) = false → (u8 d 3 = 0x30 ∨ u8 d 3 = 0x10) →
    (s.dmk (msmDomain (s.msmAt n))).isSome = true → 0 < u16 d 4 → u16 d 4 ≤ 2000 → msmTx (s.msmAt n) < 0xFFFFFFFF → s.ink.op = none →
    Runs (.lanePassDone l false) s (fun t => msmTx (t.msmAt n) = msmTx (s.msmAt n) + 1 ∧
    t.num (Reg.INK_PROT_CNT) = min (s.num (Reg.INK_PROT_CNT) + 1) 0xFFFFFFFF ∧ t.rdByte (s.protA i + 6) = u8 d 6 % 128 ∧
    t.rdByte (s.protA i + 7) = 0 ∧ t.laneJobs l = r))

/-- READ, WRITE, WRITE_CTR, ROLL and CLEAR of a slot; EN, the table rebuild and the cache flush. Rests on R204, R205, R206, R213,
R225. Clauses, each with the command it is about and what its completion leaves. -/
def Obligations.SlotOperationsAndIntakeSwitches : Prop :=
  -- READ takes the entry and changes no slot
  (∀ (slot : Nat) (err : Bool) (o : SlotOp) (s : State), s.ink.op = none → slot < 2 ^ 20 → s.slotBusy slot = false →
    (o = { op := 1, slot := slot, data := s.slotData, tblErr := err }) →
    Runs (.slotRead slot err) s (fun t => t.isF Reg.INK_SLOT_CMD Fld.INK_SLOT_CMD_BUSY = true ∧
    (t.ink.op.map (fun o => (o.op, o.slot, o.code)) = some (1, slot, some (s.slotCheck o (slotTrim (slotResult o (s.msmAt slot) (s.ink.ue.contains slot)))))) ∧
    t.msm = s.msm ∧ ((t.ink.op.map (fun (x : SlotOp) => x.entry)) = some (s.msmAt slot)))) ∧
  -- an accepted WRITE writes the entry, a refused one nothing
  (∀ (slot : Nat) (err : Bool) (o : SlotOp) (s : State), s.ink.op = none → slot < 2 ^ 20 → s.slotBusy slot = false →
    (o = { op := 2, slot := slot, data := s.slotData, tblErr := err }) →
    Runs (.slotWrite slot err) s (fun t => t.isF Reg.INK_SLOT_CMD Fld.INK_SLOT_CMD_BUSY = true ∧
    (t.ink.op.map (fun o => (o.op, o.slot, o.code)) = some (2, slot, some (s.slotCheck o (slotTrim (slotResult o (s.msmAt slot) (s.ink.ue.contains slot)))))) ∧
    (s.slotCheck o (slotTrim (slotResult o (s.msmAt slot) (s.ink.ue.contains slot))) = 0 →
    t.msmAt slot = withScrc (slotTrim (slotResult o (s.msmAt slot) (s.ink.ue.contains slot)))) ∧
    (s.slotCheck o (slotTrim (slotResult o (s.msmAt slot) (s.ink.ue.contains slot))) = 0 ∨ t.msm = s.msm))) ∧
  -- WRITE_CTR writes both counters too
  (∀ (slot : Nat) (err : Bool) (o : SlotOp) (s : State), s.ink.op = none → slot < 2 ^ 20 → s.slotBusy slot = false →
    (o = { op := 3, slot := slot, data := s.slotData, tblErr := err }) →
    Runs (.slotWriteCtr slot err) s (fun t => t.isF Reg.INK_SLOT_CMD Fld.INK_SLOT_CMD_BUSY = true ∧
    (t.ink.op.map (fun o => (o.op, o.slot, o.code)) = some (3, slot, some (s.slotCheck o (slotTrim (slotResult o (s.msmAt slot) (s.ink.ue.contains slot)))))) ∧
    (s.slotCheck o (slotTrim (slotResult o (s.msmAt slot) (s.ink.ue.contains slot))) = 0 →
    t.msmAt slot = withScrc (slotTrim (slotResult o (s.msmAt slot) (s.ink.ue.contains slot)))) ∧
    (s.slotCheck o (slotTrim (slotResult o (s.msmAt slot) (s.ink.ue.contains slot))) = 0 ∨ t.msm = s.msm))) ∧
  -- ROLL advances GEN
  (∀ (slot : Nat) (err : Bool) (o : SlotOp) (s : State), s.ink.op = none → slot < 2 ^ 20 → s.slotBusy slot = false →
    (o = { op := 4, slot := slot, data := s.slotData, tblErr := err }) →
    Runs (.slotRoll slot err) s (fun t => t.isF Reg.INK_SLOT_CMD Fld.INK_SLOT_CMD_BUSY = true ∧
    (t.ink.op.map (fun o => (o.op, o.slot, o.code)) = some (4, slot, some (s.slotCheck o (slotTrim (slotResult o (s.msmAt slot) (s.ink.ue.contains slot)))))) ∧
    (s.slotCheck o (slotTrim (slotResult o (s.msmAt slot) (s.ink.ue.contains slot))) = 0 →
    t.msmAt slot = withScrc (slotTrim (slotResult o (s.msmAt slot) (s.ink.ue.contains slot)))) ∧
    (s.slotCheck o (slotTrim (slotResult o (s.msmAt slot) (s.ink.ue.contains slot))) = 0 ∨ t.msm = s.msm) ∧
    (s.slotCheck o (slotTrim (slotResult o (s.msmAt slot) (s.ink.ue.contains slot))) = 0 → (s.msmAt slot).length = 32 →
    msmGen (t.msmAt slot) = (msmGen (s.msmAt slot) + 1) % 16))) ∧
  -- CLEAR leaves a clear entry
  (∀ (slot : Nat) (err : Bool) (o : SlotOp) (s : State), s.ink.op = none → slot < 2 ^ 20 → s.slotBusy slot = false →
    (o = { op := 5, slot := slot, data := s.slotData, tblErr := err }) →
    Runs (.slotClear slot err) s (fun t => t.isF Reg.INK_SLOT_CMD Fld.INK_SLOT_CMD_BUSY = true ∧
    (t.ink.op.map (fun o => (o.op, o.slot, o.code)) = some (5, slot, some (s.slotCheck o (slotTrim (slotResult o (s.msmAt slot) (s.ink.ue.contains slot)))))) ∧
    (s.slotCheck o (slotTrim (slotResult o (s.msmAt slot) (s.ink.ue.contains slot))) = 0 → t.msmAt slot = msmClear))) ∧
  -- the operation ends with DONE or ERR and its CODE, and READ shows the entry
  (∀ (o : SlotOp) (c : Nat) (s : State), s.ink.op = some o → o.code = some c → Runs (.slotOpComplete) s (fun t => t.ink.op = none ∧
    t.isF Reg.INK_SLOT_CMD Fld.INK_SLOT_CMD_BUSY = false ∧ t.isF Reg.INK_SLOT_STAT Fld.INK_SLOT_STAT_DONE = decide (c = 0) ∧
    t.isF Reg.INK_SLOT_STAT Fld.INK_SLOT_STAT_ERR = decide (c ≠ 0) ∧ t.getF Reg.INK_SLOT_STAT Fld.INK_SLOT_STAT_CODE = c % 16 ∧ (c = 0 →
    o.op = 1 → ∀ k, k < 8 → t.num (Reg.INK_SLOT_DATA k) = u32 o.entry (4 * k)))) ∧
  -- EN with MSM restored and the areas fitted starts intake and a rebuild of the tables
  (∀ (s : State), s.isF Reg.INK_CTL Fld.INK_CTL_EN = false → s.isF Reg.INK_STAT Fld.INK_STAT_RESTORED = true → s.inkAreas = true →
    Runs (.intakeEnable) s (fun t => t.isF Reg.INK_CTL Fld.INK_CTL_EN = true ∧ t.ink.rebuilding = true ∧
    t.isF Reg.INK_STAT Fld.INK_STAT_CFG_ERR = false)) ∧
  -- an area beyond the DRAM fitted: EN stays 0 and CFG_ERR is set
  (∀ (s : State), s.isF Reg.INK_CTL Fld.INK_CTL_EN = false → s.isF Reg.INK_STAT Fld.INK_STAT_RESTORED = true → s.inkAreas = false →
    Runs (.intakeEnable) s (fun t => t.isF Reg.INK_CTL Fld.INK_CTL_EN = false ∧ t.isF Reg.INK_STAT Fld.INK_STAT_CFG_ERR = true)) ∧
  -- EN is 0
  (∀ (s : State), Runs (.intakeDisable) s (fun t => t.isF Reg.INK_CTL Fld.INK_CTL_EN = false)) ∧
  -- both tables stand as MSM has them, and the rebuild has ended
  (∀ (s : State), s.ink.rebuilding = true → Runs (.tableRebuildDone) s (fun t => t.ink.rebuilding = false ∧ t.dram = s.rebuild.dram)) ∧
  -- no entry is valid, and BUSY is set
  (∀ (s : State), Runs (.keyCacheFlush) s (fun t => t.ink.kc = [] ∧ t.isF Reg.INK_KC_CTL Fld.INK_KC_CTL_BUSY = true)) ∧
  -- BUSY is clear
  (∀ (s : State), Runs (.keyCacheFlushDone) s (fun t => t.isF Reg.INK_KC_CTL Fld.INK_KC_CTL_BUSY = false))

/-- Mender batches show at their end; class records are staged, committed and installed. Rests on R227, R231, R232, R247, R248, R249,
R290. Clauses, each with the command it is about and what its completion leaves. -/
def Obligations.MenderBatchesAndClasses : Prop :=
  -- a unit that works on a batch shows nothing: no record, entry or counter changes; a frame that is no batch is counted and goes to the firmware ring instead
  (∀ (u : Nat) (ue : Bool) (f : CFrame) (s : State), (s.ink.commits.find? (fun (c : CFrame) => decide (c.stage = 0) && !(s.mnd.jobs.filterMap (fun e => e.2.map (fun (x : MndJob) => x.slot))).contains c.slot) = some f) →
    s.unitServes u = true → s.mndJob u = none → s.ladder.region ≠ 5 → Runs (.menderBatch u ue) s (fun t => (∀ b, s.bypass f = .inr b →
    ((t.mndJob u).map (fun (j : MndJob) => j.slot)) = some f.slot ∧ t.ink = s.ink ∧ t.drn = s.drn ∧ t.sto = s.sto ∧ t.dram = s.dram ∧
    t.regs = s.regs) ∧ (∀ k, s.bypass f = .inl k → t.num (mndKey k) = min (s.num (mndKey k) + 1) 0xFFFFFFFF ∧
    (t.ink.commits.map (fun (c : CFrame) => c.slot)) = s.ink.commits.map (fun (c : CFrame) => c.slot) ∧ t.mnd = s.mnd))) ∧
  -- a finished batch becomes visible when the store takes it: its state entry is written, and its records go to the Darner
  (∀ (u : Nat) (j : MndJob) (s : State), s.mndJob u = some j → (j.recs = [] ∨ s.recReady = true) → j.shd = none → j.mst.length = 64 →
    (∀ b ∈ j.mst, b < 256) → Runs (.menderBatchDone u) s (fun t => t.mndJob u = none ∧ t.rdMem (s.mstA j.slot) 64 = j.mst ∧
    t.drn.inq = s.drn.inq ++ j.recs)) ∧
  -- a batch that the store has no room for stays with its unit
  (∀ (u : Nat) (j : MndJob) (s : State), s.mndJob u = some j → j.recs ≠ [] → s.recReady = false →
    Runs (.menderBatchDone u) s (fun t => t = s)) ∧
  -- the live record of the class enters staging
  (∀ (cls w : Nat) (s : State), s.menderThere = true → s.isF Reg.MND_CLASS_SEL Fld.MND_CLASS_SEL_BUSY = false →
    Runs (.classSelect cls w) s (fun t => t.mnd.staging = s.clsAt (cls % 256) ∧
    t.getF Reg.MND_CLASS_SEL Fld.MND_CLASS_SEL_CLASS = cls % 256 ∧ t.getF Reg.MND_CLASS_SEL Fld.MND_CLASS_SEL_WORD = w % 32)) ∧
  -- a read gives the word that WORD points to, and WORD advances
  (∀ (s : State), s.menderThere = true → Runs (.classDataAccess none) s (fun t => t.busData = word (u32 s.mnd.staging (4 * s.classWord)) ∧
    t.classWord = (s.classWord + 1) % 32 ∧ t.mnd = s.mnd)) ∧
  -- a write puts the word in staging, and WORD advances
  (∀ (v : Nat) (s : State), s.menderThere = true → s.mnd.staging.length = 128 → v < 2 ^ 32 →
    Runs (.classDataAccess (some v)) s (fun t => u32 t.mnd.staging (4 * s.classWord) = v ∧ t.classWord = (s.classWord + 1) % 32)) ∧
  -- a valid staged record waits for a gap between batches
  (∀ (s : State), s.menderThere = true → s.isF Reg.MND_CLASS_SEL Fld.MND_CLASS_SEL_BUSY = false → clsOk s.mnd.staging = true →
    Runs (.classCommit) s (fun t => t.isF Reg.MND_CLASS_SEL Fld.MND_CLASS_SEL_BUSY = true ∧
    t.mnd.install = some (s.getF Reg.MND_CLASS_SEL Fld.MND_CLASS_SEL_CLASS, s.mnd.staging) ∧ t.mnd.classes = s.mnd.classes)) ∧
  -- one that breaks the rules is refused
  (∀ (s : State), s.menderThere = true → s.isF Reg.MND_CLASS_SEL Fld.MND_CLASS_SEL_BUSY = false → clsOk s.mnd.staging = false →
    Runs (.classCommit) s (fun t => t.isF Reg.MND_CLASS_SEL Fld.MND_CLASS_SEL_REFUSED = true ∧ t.mnd = s.mnd)) ∧
  -- the staged record replaces the live one
  (∀ (n : Nat) (c : Bytes) (s : State), s.mnd.install = some (n, c) → Runs (.classInstall) s (fun t => t.clsAt n = c ∧
    t.isF Reg.MND_CLASS_SEL Fld.MND_CLASS_SEL_BUSY = false ∧ t.mnd.install = none))

/-- Freezes are fixed, captured, classed and closed. Rests on R257, R266, R267, R268, R270, R274, R276, R346. Clauses, each with the
command it is about and what its completion leaves. -/
def Obligations.FreezesFollowTheirSchedule : Prop :=
  -- the freeze is fixed: its ID, launch and delay stand in the registers, and FREEZE_DUE is raised
  (∀ (s : State), s.drnRuns = true → s.taiValid = true → s.drn.fixed = none →
    Runs (.freezeDue) s (fun t => t.num Reg.DRN_FRZ_NEXT_ID = s.drn.plan.getD s.freezeId % 2 ^ 32 ∧
    t.isF Reg.DRN_INT_STAT Fld.DRN_INT_STAT_FREEZE_DUE = true ∧
    t.drn.fixed = some (s.drn.plan.getD s.freezeId, s.schedOf (s.drn.plan.getD s.freezeId), false) ∧
    t.num Reg.DRN_FRZ_LAUNCH = (s.schedOf (s.drn.plan.getD s.freezeId) + 2 ^ 32 - s.getF Reg.DRN_FRZ_CTL Fld.DRN_FRZ_CTL_LEAD_S * 2 ^ 20) % 2 ^ 32)) ∧
  -- collection opens at the capture instant, and the totaliser is latched
  (∀ (f c : Nat) (st : Bool) (s : State), s.drn.fixed = some (f, c, st) → f < 2 ^ 32 →
    Runs (.freezeCapture) s (fun t => t.num Reg.DRN_FRZ_CUR = f ∧ t.collecting = true ∧ t.num Reg.TOT_LATCH_WH = accWh s.tot 0 % 2 ^ 32 ∧
    t.isF Reg.TOT_LATCH_STAT Fld.TOT_LATCH_STAT_VALID = s.eValid ∧ t.drn.fixed = none ∧ t.drn.stepped = st)) ∧
  -- the oldest snapshot leaves the queue and is counted
  (∀ (r : Bytes) (l : List Bytes) (s : State), s.drn.inq = r :: l → u8 r 23 / 64 = 1 → Runs (.darnerSnapshot) s (fun t => t.drn.inq = l ∧
    t.num Reg.DRN_SNAP_CNT = min (s.num Reg.DRN_SNAP_CNT + 1) 0xFFFFFFFF)) ∧
  -- one of a slot that takes no part is ignored
  (∀ (r : Bytes) (l : List Bytes) (s : State), s.drn.inq = r :: l → u8 r 23 / 64 = 1 → s.pairWorks = true → s.noGrant 5 30 = false →
    msmRole (s.msmAt (u32 r 0 % 2 ^ 20)) / 16 % 2 = 0 →
    Runs (.darnerSnapshot) s (fun t => t.num Reg.DRN_IGNORED_CNT = min (s.num Reg.DRN_IGNORED_CNT + 1) 0xFFFFFFFF ∧ t.dram = s.dram)) ∧
  -- the collection closes, and CLOSED is raised
  (∀ (s : State), s.collecting = true → Runs (.freezeClose) s (fun t => t.collecting = false ∧
    t.isF Reg.DRN_INT_STAT Fld.DRN_INT_STAT_CLOSED = true)) ∧
  -- a node that reports gets one balance record and counts as complete or incomplete
  (∀ (n : Nat) (s : State), s.collecting = true → (s.validNodes.filter (fun n => decide (u8 (s.topo n) 0 / 8 % 2 = 1)) = [n]) →
    Runs (.freezeClose) s (fun t => t.num Reg.DRN_BAL_PROD = (s.num Reg.DRN_BAL_PROD + 1) % 2 ^ 32 ∧
    (judgeNode (s.topo n) (s.coll n) false = 0 → t.num Reg.DRN_NODE_OK_CNT = min (s.num Reg.DRN_NODE_OK_CNT + 1) 0xFFFFFFFF) ∧
    (judgeNode (s.topo n) (s.coll n) false ≠ 0 → t.num Reg.DRN_NODE_INC_CNT = min (s.num Reg.DRN_NODE_INC_CNT + 1) 0xFFFFFFFF))) ∧
  -- with no collection open nothing closes
  (∀ (s : State), s.collecting = false → Runs (.freezeClose) s (fun t => t = s)) ∧
  -- EN is 1, and with TAI valid the next freeze is chosen
  (∀ (s : State), s.exists_ 5 30 = true → s.isF Reg.DRN_CTL Fld.DRN_CTL_EN = false →
    Runs (.darnerEnable) s (fun t => t.isF Reg.DRN_CTL Fld.DRN_CTL_EN = true ∧ t.isF Reg.DRN_STAT Fld.DRN_STAT_IDLE = false ∧
    (t.drn.plan = if t.drnRuns && t.taiValid then some s.freezeId else none))) ∧
  -- EN is 0, a collection is cut, and no freeze is scheduled
  (∀ (s : State), s.exists_ 5 30 = true → Runs (.darnerDisable) s (fun t => t.isF Reg.DRN_CTL Fld.DRN_CTL_EN = false ∧
    t.isF Reg.DRN_STAT Fld.DRN_STAT_IDLE = true ∧ t.collecting = false ∧ t.drn.fixed = none ∧ t.drn.plan = none))

/-- The store starts, stops, programs record units, ends a flush; NAND pages are programmed, read, erased. Rests on R281, R286, R289,
R290, R296, R297, R298, R302, R308, R309, R311, R312. Clauses, each with the command it is about and what its completion leaves. -/
def Obligations.StoreRunsAndItsPages : Prop :=
  -- EN is 1; PHASE goes to 1, or CFG_ERR says that the layout or the anchors do not serve; a die that does not answer is not active
  (∀ (absent : Nat) (s : State), s.phase = 0 → Runs (.storeStart absent) s (fun t => t.isF Reg.STO_CTL Fld.STO_CTL_EN = true ∧
    ((t.phase = 1 ∧ t.isF Reg.STO_STAT Fld.STO_STAT_CFG_ERR = false) ∨ (t.phase = 0 ∧ t.isF Reg.STO_STAT Fld.STO_STAT_CFG_ERR = true)) ∧
    (∀ i, i < 16 → absent / 2 ^ i % 2 = 1 → t.dieState i ≠ 1))) ∧
  -- the store reaches PHASE 6 with READY, and intake and the Darner have their tables
  (∀ (s : State), 1 ≤ s.phase → s.phase ≤ 5 → Runs (.storeRestoreDone) s (fun t => t.phase = 6 ∧
    t.isF Reg.STO_INT_STAT Fld.STO_INT_STAT_READY = true ∧ t.isF Reg.INK_STAT Fld.INK_STAT_RESTORED = true ∧
    t.isF Reg.DRN_STAT Fld.DRN_STAT_RESTORED = true ∧ (t.sto.jpend.contains .shut = false → t.sto.pass = none))) ∧
  -- EN is 0 after a flush that ends with SHUT
  (∀ (s : State), s.phase = 6 → Runs (.storeStop) s (fun t => t.phase = 0 ∧ t.isF Reg.STO_CTL Fld.STO_CTL_EN = false ∧
    ((t.sto.jpend ++ t.sto.jlog.flatMap (fun u => u.2)).contains .shut = true))) ∧
  -- the record unit goes to its stripe, and STO_REC_HEAD advances
  (∀ (s : State), s.phase = 6 → s.sto.recs ≠ [] →
    (s.partUnits 0 = 0 ∨ (s.num Reg.STO_REC_HEAD + 2 ^ 32 - s.num Reg.STO_REC_TAIL) % 2 ^ 32 ≠ s.partUnits 0) →
    ((s.readySb 0).openSb 0).isSome = true → Runs (.recordUnitProgram) s (fun t => t.sto.recs = [] ∧
    t.num Reg.STO_REC_HEAD = (s.num Reg.STO_REC_HEAD + 1) % 2 ^ 32)) ∧
  -- a power-fail flush ends at PHASE 8
  (∀ (s : State), s.phase = 7 → s.pins.pfail = true → Runs (.storeFlushDone) s (fun t => t.phase = 8 ∧
    t.num Reg.STO_FLUSH_CNT = min (s.num Reg.STO_FLUSH_CNT + 1) 0xFFFFFFFF ∧
    ((t.sto.jpend ++ t.sto.jlog.flatMap (fun u => u.2)).contains .shut = true))) ∧
  -- with PFAIL_N high again the store resumes
  (∀ (s : State), s.phase = 7 → s.pins.pfail = false → Runs (.storeFlushDone) s (fun t => t.phase = 6 ∧
    t.num Reg.STO_FLUSH_CNT = min (s.num Reg.STO_FLUSH_CNT + 1) 0xFFFFFFFF)) ∧
  -- every unit of a page that programs well counts as programmed
  (∀ (d b p : Nat) (s : State), (diesOf (s.sb b).mask).contains d = true → (s.sb b).state ≠ 0 →
    Runs (.nandProgramDone d b p false) s (fun t => ∀ e, e ∈ s.pageUnits d b p → (t.unitAt e.1).prog = true)) ∧
  -- a page that fails retires its block, is counted and is recorded
  (∀ (d b p : Nat) (s : State), (diesOf (s.sb b).mask).contains d = true → (s.sb b).state ≠ 0 → s.sto.reloc = none → s.blkBad d b = false →
    s.smp.fifo.length < 256 → Runs (.nandProgramDone d b p true) s (fun t => t.blkBad d b = true ∧
    t.num Reg.STO_PROG_FAIL_CNT = min (s.num Reg.STO_PROG_FAIL_CNT + 1) 0xFFFFFFFF ∧
    Logged s t 0x6102 3 (blockPath 6 (1 + d / 8)) ([d] ++ bytesLE 2 b))) ∧
  -- corrected bits count once for the codeword
  (∀ (loc corr : Nat) (retry rebuilt : Bool) (s : State), corr ≠ 0 →
    Runs (.nandReadDone loc corr false retry rebuilt) s (fun t => t.num Reg.STO_ECC_CORR_CNT = min (s.num Reg.STO_ECC_CORR_CNT + 1) 0xFFFFFFFF ∧
    t.sto = s.sto)) ∧
  -- a unit that neither a retry level nor parity recovers is lost
  (∀ (loc corr : Nat) (s : State), s.mapOf (s.unitAt loc).lua = loc + 1 →
    Runs (.nandReadDone loc corr true false false) s (fun t => t.num Reg.STO_RETRY_CNT = min (s.num Reg.STO_RETRY_CNT + 1) 0xFFFFFFFF ∧
    t.num Reg.STO_LOST_CNT = min (s.num Reg.STO_LOST_CNT + 1) 0xFFFFFFFF ∧ t.mapOf (s.unitAt loc).lua = lostMark ∧
    t.isF Reg.STO_INT_STAT Fld.STO_INT_STAT_LOST = true)) ∧
  -- a retry level that recovers a codeword is counted, and nothing else changes
  (∀ (loc corr : Nat) (rebuilt : Bool) (s : State), Runs (.nandReadDone loc corr true true rebuilt) s (fun t => t.num Reg.STO_RETRY_CNT = min (s.num Reg.STO_RETRY_CNT + 1) 0xFFFFFFFF ∧
    t.sto = s.sto)) ∧
  -- a unit rebuilt from parity queues its superblock
  (∀ (loc corr : Nat) (s : State), s.hasParity loc = true →
    Runs (.nandReadDone loc corr true false true) s (fun t => t.num Reg.STO_REBUILD_CNT = min (s.num Reg.STO_REBUILD_CNT + 1) 0xFFFFFFFF ∧
    (t.sb (loc / 2 ^ 17)).queued = true ∧ t.sto.map = s.sto.map)) ∧
  -- the last erase of a relocation frees its source
  (∀ (d : Nat) (r : Reloc) (s : State), s.sto.reloc = some r → r.phase = 4 → r.erasing = 2 ^ d →
    Runs (.nandEraseDone d false) s (fun t => t.sto.reloc = none ∧ (t.sb r.src).state = 0 ∧
    t.num Reg.STO_ERASE_CNT = min (s.num Reg.STO_ERASE_CNT + 1) 0xFFFFFFFF ∧
    (t.sto.jpend = s.sto.jpend ++ [.done r.iseq r.src ((diesOf (s.sb r.src).mask).map (fun i => s.ec i r.src + (decide (i = d)).toNat))]) ∧
    t.isF Reg.STO_STAT Fld.STO_STAT_FULL = false))

/-- Collection, folding and wear levelling start relocations, which copy, verify, journal and move the map. Rests on R293, R299, R300,
R301, R302, R303, R304. Clauses, each with the command it is about and what its completion leaves. -/
def Obligations.RelocationsRunTheirPhases : Prop :=
  -- collection of the chosen source begins
  (∀ (b why tgt : Nat) (s : State), s.gcDue = true → s.gcSource = some (b, why) → ((s.gcTrack.readySb 2).openSb 2) = some tgt →
    Runs (.gcStart) s (fun t => t.sto.reloc.map (fun (x : Reloc) => (x.src, x.tgt, x.phase, x.why)) = some (b, tgt, 1, why))) ∧
  -- with no collection due nothing starts
  (∀ (s : State), s.gcDue = false → Runs (.gcStart) s (fun t => t = s)) ∧
  -- the SLC superblock closed earliest is folded
  (∀ (b tgt : Nat) (s : State), s.phase = 6 → s.sto.reloc = none →
    (argMax ((s.closedSbs.filter (fun e => e.2.slc && decide (e.2.stream ≤ 1))).map (fun e => (e.1, -(e.2.closedNo : Int)))) = some b) →
    ((s.readySb 2).openSb 2) = some tgt →
    Runs (.foldStart true) s (fun t => t.sto.reloc.map (fun (x : Reloc) => (x.src, x.tgt, x.phase, x.why)) = some (b, tgt, 1, 1))) ∧
  -- the closed superblock least erased moves to the free one most erased, and the move is counted
  (∀ (a b : Nat) (s : State), s.phase = 6 → s.sto.reloc = none → s.getF Reg.STO_WL Fld.STO_WL_WL_SPREAD < s.ecMax - s.ecMin →
    (argMax (s.closedSbs.map (fun e => (e.1, -((s.sbEc e.1 * 2 ^ 32 + e.2.closedNo : Nat) : Int)))) = some a) →
    (argMax ((((List.range (s.getF Reg.STO_GEOM Fld.STO_GEOM_BLOCKS - 2)).map (fun n => n + 2)).filter (fun b => decide ((s.sb b).state = 0))).map (fun b => (b, (s.sbEc b : Int)))) = some b) →
    Runs (.wearLevelMove) s (fun t => (t.sto.reloc.map (fun (x : Reloc) => (x.src, x.tgt, x.phase, x.why)) = some (a, b, 1, 2)) ∧
    t.num Reg.STO_WL_MOVE_CNT = min (s.num Reg.STO_WL_MOVE_CNT + 1) 0xFFFFFFFF)) ∧
  -- every mapped unit of the source is copied and counted; the map does not move yet
  (∀ (r : Reloc) (s : State), s.sto.reloc = some r → r.phase = 1 → r.why ≠ 1 → (∀ e, e ∈ s.validUnits r.src → e.2.bad = false) →
    (s.validUnits r.src).length ≤ s.sbCap (s.sb r.tgt) - (s.sb r.tgt).next →
    Runs (.relocCopyDone) s (fun t => (t.sto.reloc.map (fun (x : Reloc) => (x.src, x.tgt, x.phase, x.part)) = some (r.src, r.tgt, 2, false)) ∧
    t.num Reg.STO_GC_UNITS_CNT = min (s.num Reg.STO_GC_UNITS_CNT + (s.validUnits r.src).length) 0xFFFFFFFF ∧ t.sto.map = s.sto.map)) ∧
  -- a target that verifies journals INTENT
  (∀ (r : Reloc) (s : State), s.sto.reloc = some r → r.phase = 2 → r.part = false →
    Runs (.relocVerifyDone none) s (fun t => t.sto.jpend = s.sto.jpend ++ [.intent s.sto.iseq r.src r.tgt r.t0 r.t1] ∧
    (t.sto.reloc.map (fun (x : Reloc) => (x.phase, x.iseq)) = some (3, s.sto.iseq)) ∧ t.sto.map = s.sto.map)) ∧
  -- a page of the target that fails to verify retires its block
  (∀ (d : Nat) (r : Reloc) (s : State), s.sto.reloc = some r → r.phase = 2 → s.blkBad d r.tgt = false →
    Runs (.relocVerifyDone (some d)) s (fun t => t.blkBad d r.tgt = true ∧
    t.num Reg.STO_VERIFY_FAIL_CNT = min (s.num Reg.STO_VERIFY_FAIL_CNT + 1) 0xFFFFFFFF ∧ t.sto.map = s.sto.map)) ∧
  -- once INTENT is programmed the map moves to the copies, and the erases of the source begin
  (∀ (r : Reloc) (s : State), s.sto.reloc = some r → r.phase = 3 →
    (s.jDrain (s.sto.jpend.length + 1)).sto.jpend.contains (.intent r.iseq r.src r.tgt r.t0 r.t1) = false →
    Runs (.relocIntentDone) s (fun t => t.sto.map = ((s.jDrain (s.sto.jpend.length + 1)).relocMap r false).sto.map ∧
    (t.sto.reloc.map (fun (x : Reloc) => (x.phase, x.erasing)) = some (4, (s.sb r.src).mask))))

/-- Checkpoints, evacuation and rejoining of a channel; READ, WRITE, TRIM, FLUSH descriptors, and STO_REC_TAIL. Rests on R286, R297,
R307, R308, R314, R315, R316, R317, R318. Clauses, each with the command it is about and what its completion leaves. -/
def Obligations.CheckpointsChannelsAndRingCommands : Prop :=
  -- a pass starts
  (∀ (s : State), s.phase = 6 → s.sto.pass = none → Runs (.checkpointStart) s (fun t => t.sto.pass = some (s.sto.passNo + 1, s.sto.jseq))) ∧
  -- the pass ends: the checkpoint names its root and holds MSM and the record positions, and CKPT_DONE is raised
  (∀ (p st l : Nat) (u : State) (s : State), s.phase = 6 → s.sto.pass = some (p, st) → s.sysPut 3 (2 ^ 28 + p) [] = (u, l) → l ≠ 0 →
    ((u.jour (.ckpt p st (l - 1))).jDrain (u.sto.jpend.length + 2)).sto.jpend = [] →
    Runs (.checkpointDone) s (fun t => (t.sto.ck.map (fun (c : Ckpt) => (c.pass, c.start, c.root)) = some (p, st, l - 1)) ∧
    (t.sto.ck.map (fun (c : Ckpt) => (c.msm, c.recHead, c.recTail)) = some (s.msm, s.num Reg.STO_REC_HEAD, s.num Reg.STO_REC_TAIL)) ∧
    t.sto.pass = none ∧ t.isF Reg.STO_INT_STAT Fld.STO_INT_STAT_CKPT_DONE = true)) ∧
  -- an evacuation that the other channel has room for begins
  (∀ (c : Nat) (s : State), c < 2 → s.sto.evac = none → s.sto.rejoin = none → s.phase = 6 → s.chanSt 0 = 1 → s.chanSt 1 = 1 →
    s.chPresent 0 = true → s.chPresent 1 = true → ((s.sto.map.filter (fun e => decide (e.2 ≠ 0 ∧
    e.2 ≠ lostMark))).length * 100 ≤ s.otherCap c * 85) → Runs (.channelEvacuate c) s (fun t => t.sto.evac = some c ∧ t.chanSt c = 2 ∧
    t.getF Reg.STO_CH_CTL Fld.STO_CH_CTL_REFUSE = 0)) ∧
  -- a second one is refused with 3
  (∀ (c : Nat) (s : State), s.sto.evac.isSome = true →
    Runs (.channelEvacuate c) s (fun t => t.getF Reg.STO_CH_CTL Fld.STO_CH_CTL_REFUSE = 3 ∧ t.sto = s.sto)) ∧
  -- a channel that no superblock uses is powered off
  (∀ (c : Nat) (s : State), s.sto.evac = some c → c < 2 → s.sto.reloc = none → (s.sto.sbs.any (fun e => decide (e.2.state ≠ 3 ∧
    e.2.mask / 2 ^ (8 * c) % 256 ≠ 0)) = false) → s.pins.nandPwr.length = 2 → Runs (.evacuationDone) s (fun t => t.sto.evac = none ∧
    t.chanSt c = 3 ∧ t.pins.nandPwr[c]? = some false ∧ t.isF Reg.STO_INT_STAT Fld.STO_INT_STAT_EVAC_DONE = true)) ∧
  -- an evacuated channel is powered up
  (∀ (c : Nat) (s : State), c < 2 → s.sto.evac = none → s.sto.rejoin = none → s.chanSt c = 3 → s.pins.nandPwr.length = 2 →
    Runs (.channelRejoin c) s (fun t => t.sto.rejoin = some c ∧ t.pins.nandPwr[c]? = some true ∧
    t.getF Reg.STO_CH_CTL Fld.STO_CH_CTL_REFUSE = 0)) ∧
  -- one that is not evacuated is refused with 5
  (∀ (c : Nat) (s : State), s.sto.evac = none → s.sto.rejoin = none → s.chanSt (c % 2) ≠ 3 →
    Runs (.channelRejoin c) s (fun t => t.getF Reg.STO_CH_CTL Fld.STO_CH_CTL_REFUSE = 5 ∧ t.sto = s.sto)) ∧
  -- dies that match join with their factory bad blocks only
  (∀ (bad : List (Nat × Nat)) (c : Nat) (s : State), s.sto.rejoin = some c → c < 2 →
    Runs (.rejoinDone true bad) s (fun t => t.chanSt c = 1 ∧ t.sto.rejoin = none ∧ (∀ d b, d / 8 = c →
    (t.blkBad d b = true ↔ (d, b) ∈ bad)))) ∧
  -- dies that do not match are refused with 4 and powered off
  (∀ (bad : List (Nat × Nat)) (c : Nat) (s : State), s.sto.rejoin = some c → c < 2 → s.pins.nandPwr.length = 2 →
    Runs (.rejoinDone false bad) s (fun t => t.sto.rejoin = none ∧ t.getF Reg.STO_CH_CTL Fld.STO_CH_CTL_REFUSE = 4 ∧
    t.pins.nandPwr[c]? = some false)) ∧
  -- a read of one unit fills its buffer, status 3 telling of a lost one
  (∀ (k : Nat) (d : Bytes) (s : State), k < 2 → s.ringNext k = some d → u8 d 0 = 1 → s.ringCheck k d false = 0 → u32 d 8 = 1 →
    un d 16 8 + 4096 ≤ s.dramFit → (s.storeGet (u8 d 1) (u32 d 4)).length = 4096 → (∀ b ∈ s.storeGet (u8 d 1) (u32 d 4), b < 256) →
    s.ringA k (s.ringCons k) + 32 ≤ un d 16 8 →
    Runs (.ringRead k false) s (fun t => t.rdMem (un d 16 8) 4096 = s.storeGet (u8 d 1) (u32 d 4) ∧
    (t.rdByte (s.ringA k (s.ringCons k) + 3) = (if s.mapOf (luaOf (u8 d 1) (u32 d 4)) = lostMark then 3 else 0)) ∧
    t.ringCons k = (s.ringCons k + 1) % s.ringSize k % 2 ^ bwidth Fld.STO_RING_HEAD_CONS)) ∧
  -- a descriptor that a check refuses completes with its status
  (∀ (k : Nat) (d : Bytes) (err : Bool) (s : State), k < 2 → s.ringNext k = some d → u8 d 0 = 1 → s.ringCheck k d false ≠ 0 →
    Runs (.ringRead k err) s (fun t => t.rdByte (s.ringA k (s.ringCons k) + 3) = s.ringCheck k d false ∧
    t.ringCons k = (s.ringCons k + 1) % s.ringSize k % 2 ^ bwidth Fld.STO_RING_HEAD_CONS ∧ t.sto = s.sto)) ∧
  -- a write of one unit takes its buffer into the partition
  (∀ (k : Nat) (d : Bytes) (s : State), k < 2 → s.ringNext k = some d → u8 d 0 = 2 → s.ringCheck k d true = 0 → u32 d 8 = 1 →
    un d 16 8 + 4096 ≤ s.dramFit → s.ringConflict = false → ((s.readySb 1).openSb 1).isSome = true →
    ((s.place 1 { lua := luaOf (u8 d 1) (u32 d 4), dseq := s.sto.dseq, kind := 0, data := s.rdMem (un d 16 8) 4096 }).2 ≠ lostMark) →
    s.sto.fmaps.length < 65536 → Runs (.ringWrite k false) s (fun t => t.storeGet (u8 d 1) (u32 d 4) = s.rdMem (un d 16 8) 4096 ∧
    t.num Reg.STO_HOST_UNITS_CNT = min (s.num Reg.STO_HOST_UNITS_CNT + 1) 0xFFFFFFFF ∧ t.rdByte (s.ringA k (s.ringCons k) + 3) = 0 ∧
    t.ringCons k = (s.ringCons k + 1) % s.ringSize k % 2 ^ bwidth Fld.STO_RING_HEAD_CONS)) ∧
  -- a trim unmaps its units
  (∀ (k : Nat) (d : Bytes) (s : State), k < 2 → s.ringNext k = some d → u8 d 0 = 3 → s.ringCheck k d true = 0 →
    Runs (.ringTrim k) s (fun t => (∀ f, u32 d 4 ≤ f → f < u32 d 4 + u32 d 8 → f < 2 ^ 29 → t.mapOf (luaOf (u8 d 1) f) = 0) ∧
    t.sto.jpend = s.sto.jpend ++ [.trim (u8 d 1) (u32 d 4) (u32 d 8)] ∧ t.rdByte (s.ringA k (s.ringCons k) + 3) = 0 ∧
    t.ringCons k = (s.ringCons k + 1) % s.ringSize k % 2 ^ bwidth Fld.STO_RING_HEAD_CONS)) ∧
  -- a flush completes with everything written before it programmed
  (∀ (k : Nat) (d : Bytes) (s : State), k < 2 → s.ringNext k = some d → u8 d 0 = 4 → s.phase = 6 →
    Runs (.ringFlush k) s (fun t => t.sto = s.sync.sto ∧ t.rdByte (s.ringA k (s.ringCons k) + 3) = 0 ∧
    t.ringCons k = (s.ringCons k + 1) % s.ringSize k % 2 ^ bwidth Fld.STO_RING_HEAD_CONS)) ∧
  -- a forward write of the tail trims the units it passes
  (∀ (pos : Nat) (s : State), pos < 2 ^ 32 → (pos + 2 ^ 32 - s.num Reg.STO_REC_TAIL) % 2 ^ 32 ≠ 0 →
    (pos + 2 ^ 32 - s.num Reg.STO_REC_TAIL) % 2 ^ 32 ≤ (s.num Reg.STO_REC_HEAD + 2 ^ 32 - s.num Reg.STO_REC_TAIL) % 2 ^ 32 →
    Runs (.recTailWrite pos) s (fun t => t.num Reg.STO_REC_TAIL = pos ∧
    t.num Reg.STO_REC_TRIM_CNT = min (s.num Reg.STO_REC_TRIM_CNT + (pos + 2 ^ 32 - s.num Reg.STO_REC_TAIL) % 2 ^ 32) 0xFFFFFFFF ∧
    t.isF Reg.STO_STAT Fld.STO_STAT_FULL = false)) ∧
  -- any other write of it changes nothing
  (∀ (pos : Nat) (s : State), pos < 2 ^ 32 →
    ((pos + 2 ^ 32 - s.num Reg.STO_REC_TAIL) % 2 ^ 32 = 0 ∨ (s.num Reg.STO_REC_HEAD + 2 ^ 32 - s.num Reg.STO_REC_TAIL) % 2 ^ 32 < (pos + 2 ^ 32 - s.num Reg.STO_REC_TAIL) % 2 ^ 32) →
    Runs (.recTailWrite pos) s (fun t => t = s))

/-- Each sample adds its energy to the accumulators, none is lost; blocks are published, faulted channels excluded. Rests on R320,
R321, R322, R323, R324, R345. Clauses, each with the command it is about and what its completion leaves. -/
def Obligations.TotaliserMeasuresEnergy : Prop :=
  -- import, export and per-phase accumulators together with their remainders gain exactly the energy of the sample
  (∀ (v i q ps : List Int) (n : Int) (s : State), s.totEn = true → s.tot.stopped = false → s.noGrant 8 3 = false → s.tot.acc.length = 12 →
    s.tot.rem.length = 12 →
    (ps = (List.range 3).map (fun p => if s.single && decide (p ≠ 0) then 0 else s.phasePower p (10 + p) (s.chanIn p p (v.getD p 0)) (s.chanIn (3 + p) p (i.getD p 0)))) →
    Runs (.metrologySample v i q n) s (fun t => (t.tot.acc.getD 0 0 * mwhUnit + t.tot.rem.getD 0 0 = s.tot.acc.getD 0 0 * mwhUnit + s.tot.rem.getD 0 0 + (if 0 ≤ ps.sum then ps.sum.natAbs else 0)) ∧
    (t.tot.acc.getD 1 0 * mwhUnit + t.tot.rem.getD 1 0 = s.tot.acc.getD 1 0 * mwhUnit + s.tot.rem.getD 1 0 + (if 0 ≤ ps.sum then 0 else ps.sum.natAbs)) ∧
    (t.tot.acc.getD 6 0 * mwhUnit + t.tot.rem.getD 6 0 = s.tot.acc.getD 6 0 * mwhUnit + s.tot.rem.getD 6 0 + (if 0 ≤ ps.getD 0 0 then (ps.getD 0 0).natAbs else 0)) ∧
    (t.tot.acc.getD 9 0 * mwhUnit + t.tot.rem.getD 9 0 = s.tot.acc.getD 9 0 * mwhUnit + s.tot.rem.getD 9 0 + (if 0 ≤ ps.getD 0 0 then 0 else (ps.getD 0 0).natAbs)) ∧
    t.tot.subE = s.tot.subE + (t.tot.acc.getD 0 0 - s.tot.acc.getD 0 0) ∧ t.tot.blk.n = s.tot.blk.n + 1)) ∧
  -- nothing is measured before EN
  (∀ (v i q : List Int) (n : Int) (s : State), s.totEn = false → Runs (.metrologySample v i q n) s (fun t => t = s)) ∧
  -- the block's values are published, BLK_SEQ counts it, and a new block begins
  (∀ (freq : Nat) (s : State), s.totEn = true → 800 ≤ s.tot.blk.n →
    Runs (.metrologyBlockPublish freq) s (fun t => t.num (Reg.TOT_INST 15) = (s.num (Reg.TOT_INST 15) + 1) % 2 ^ 32 ∧
    t.num (Reg.TOT_INST 13) = freq % 2 ^ 32 ∧
    (t.num (Reg.TOT_INST 0) = rmsMilli (s.tot.blk.v2.getD 0 0) (calWord s.tot.live 0) % 2 ^ 32 ∨ t.num (Reg.TOT_INST 0) = (rmsMilli (s.tot.blk.v2.getD 0 0) (calWord s.tot.live 0) + 1) % 2 ^ 32) ∧
    (t.num (Reg.TOT_INST 6) = rmsMilli (s.tot.blk.i2.getD 3 0) (calWord s.tot.live 6) % 2 ^ 32 ∨ t.num (Reg.TOT_INST 6) = (rmsMilli (s.tot.blk.i2.getD 3 0) (calWord s.tot.live 6) + 1) % 2 ^ 32) ∧
    t.tot.blk = {} ∧ t.tot.acc = s.tot.acc ∧ t.isF Reg.TOT_INT_STAT Fld.TOT_INT_STAT_BLOCK = true)) ∧
  -- a channel without transitions is faulted, counted, logged and recorded, and E_VALID is 0
  (∀ (c : Nat) (s : State), c ≤ 6 → s.chFault c = false → s.single = false → s.smp.fifo.length < 256 →
    Runs (.modulatorFault c) s (fun t => t.chFault c = true ∧ t.eValid = false ∧
    t.num Reg.TOT_MOD_FAULT_CNT = min (s.num Reg.TOT_MOD_FAULT_CNT + 1) 0xFFFFFFFF ∧
    t.isF Reg.TOT_INT_STAT Fld.TOT_INT_STAT_CH_FAULT = true ∧ t.tot.evtTotal + t.tot.evq.length = s.tot.evtTotal + s.tot.evq.length + 1 ∧
    Logged s t 0x8101 3 (blockPath 8 3) [c] ∧ t.tot.good = 0)) ∧
  -- the channel's fault clears and E_VALID waits for 8,000 good samples
  (∀ (c : Nat) (s : State), c ≤ 6 → s.chFault c = true → Runs (.modulatorFaultClear c) s (fun t => t.chFault c = false ∧ (∀ d, d < 7 →
    d ≠ c → t.chFault d = s.chFault d) ∧ t.eValid = false ∧ t.tot.good = 0)) ∧
  -- EN is set for the committed set
  (∀ (s : State), s.exists_ 8 3 = true → s.totEn = false → s.liveCrc = crc32c (s.tot.live.take 124) →
    s.liveCrc = s.tot.calCrc.getD (calWord (s.storeGet 3 16) 31) → Runs (.totEnable) s (fun t => t.totEn = true ∧ t.tot.good = 0 ∧
    t.tot.acc = s.tot.acc)) ∧
  -- any other set is refused, and the refusal counted
  (∀ (s : State), s.exists_ 8 3 = true → s.totEn = false → s.liveCrc ≠ s.tot.calCrc.getD (calWord (s.storeGet 3 16) 31) →
    Runs (.totEnable) s (fun t => t.totEn = false ∧ t.num Reg.TOT_REFUSE_CNT = min (s.num Reg.TOT_REFUSE_CNT + 1) 0xFFFFFFFF ∧
    t.tot = s.tot))

/-- The seal, sessions spent, ended or timed out, and calibration written, committed or refused. Rests on R326, R327, R328, R329,
R330, R331. Clauses, each with the command it is about and what its completion leaves. -/
def Obligations.SealSessionsAndCalibration : Prop :=
  -- an opening without a session is a tamper: counted, logged and recorded
  (∀ (s : State), s.ao.sealOpen = false → s.pins.reset = false → s.session = false → s.smp.fifo.length < 256 →
    Runs (.sealOpened) s (fun t => t.ao.sealOpen = true ∧ t.isF Reg.TOT_STAT Fld.TOT_STAT_SEAL_OPEN = true ∧
    t.num Reg.TOT_TAMPER_CNT = min (s.num Reg.TOT_TAMPER_CNT + 1) 0xFFFFFFFF ∧ t.isF Reg.TOT_INT_STAT Fld.TOT_INT_STAT_SEAL_OPENED = true ∧
    t.tot.evtTotal + t.tot.evq.length = s.tot.evtTotal + s.tot.evq.length + 1 ∧ Logged s t 0x8100 5 (blockPath 8 3) [])) ∧
  -- within a session it is no tamper
  (∀ (s : State), s.ao.sealOpen = false → s.pins.reset = false → s.session = true →
    Runs (.sealOpened) s (fun t => t.isF Reg.TOT_STAT Fld.TOT_STAT_SEAL_OPEN = true ∧ t.num Reg.TOT_TAMPER_CNT = s.num Reg.TOT_TAMPER_CNT ∧
    t.smp = s.smp ∧ t.tot = s.tot)) ∧
  -- closing the seal ends the session and its record enters the legal log
  (∀ (s : State), s.ao.sealOpen = true → s.pins.reset = false → s.session = true → Runs (.sealClosed) s (fun t => t.ao.sealOpen = false ∧
    t.isF Reg.TOT_STAT Fld.TOT_STAT_SEAL_OPEN = false ∧ t.session = false ∧ t.tot.staging = List.replicate 128 0 ∧ (s.phase = 6 ∧
    s.logUsed < 1024 → t.logUsed = s.logUsed + 1))) ∧
  -- SPEND takes one unseal count, logs it and opens a session on a copy of the live set
  (∀ (s : State), s.exists_ 8 3 = true → s.ao.sealOpen = true → s.session = false → s.logUsed ≤ 1021 → s.phase = 6 → 0 < s.cntLeft 5 0 →
    Runs (.sealSpend) s (fun t => t.session = true ∧ t.tot.staging = s.tot.live ∧ t.tot.sessAt = s.ao.opsec ∧
    t.hoop.unsealUsed = s.hoop.unsealUsed + 1 ∧ t.getF Reg.TOT_SEAL_STAT Fld.TOT_SEAL_STAT_ERR = 0 ∧ t.eValid = false ∧
    t.isF Reg.TOT_INT_STAT Fld.TOT_INT_STAT_SESSION = true ∧ t.logUsed = s.logUsed + 1)) ∧
  -- with the seal closed SPEND is refused with ERR 1 and spends nothing
  (∀ (s : State), s.exists_ 8 3 = true → s.ao.sealOpen = false →
    Runs (.sealSpend) s (fun t => t.getF Reg.TOT_SEAL_STAT Fld.TOT_SEAL_STAT_ERR = 1 ∧
    t.num Reg.TOT_REFUSE_CNT = min (s.num Reg.TOT_REFUSE_CNT + 1) 0xFFFFFFFF ∧ t.session = s.session ∧ t.hoop = s.hoop ∧ t.tot = s.tot)) ∧
  -- with no count left SPEND is refused with ERR 2
  (∀ (s : State), s.exists_ 8 3 = true → s.ao.sealOpen = true → s.session = false → s.logUsed ≤ 1021 → s.phase = 6 → s.cntLeft 5 0 = 0 →
    Runs (.sealSpend) s (fun t => t.getF Reg.TOT_SEAL_STAT Fld.TOT_SEAL_STAT_ERR = 2 ∧
    t.num Reg.TOT_REFUSE_CNT = min (s.num Reg.TOT_REFUSE_CNT + 1) 0xFFFFFFFF ∧ t.session = false ∧ t.hoop = s.hoop)) ∧
  -- END closes the session and discards the staging set
  (∀ (s : State), s.exists_ 8 3 = true → s.session = true → s.phase = 6 → s.logUsed < 1024 → Runs (.sealEnd) s (fun t => t.session = false ∧
    t.tot.staging = List.replicate 128 0 ∧ t.tot.live = s.tot.live ∧ t.logUsed = s.logUsed + 1 ∧
    t.isF Reg.TOT_INT_STAT Fld.TOT_INT_STAT_SESSION = true)) ∧
  -- END without a session gives ERR 7
  (∀ (s : State), s.exists_ 8 3 = true → s.session = false →
    Runs (.sealEnd) s (fun t => t.getF Reg.TOT_SEAL_STAT Fld.TOT_SEAL_STAT_ERR = 7 ∧ t.tot = s.tot)) ∧
  -- SESSION_TO closes the session
  (∀ (s : State), s.session = true → s.phase = 6 → s.logUsed < 1024 → Runs (.sessionTimeout) s (fun t => t.session = false ∧
    t.tot.staging = List.replicate 128 0 ∧ t.logUsed = s.logUsed + 1)) ∧
  -- a valid staging set is logged and becomes the live set; the billing set and the sub-interval are marked
  (∀ (s : State), s.exists_ 8 3 = true → s.session = true → calSetOk s.tot.staging = true → s.logUsed < 1023 → s.phase = 6 →
    Runs (.calCommit false) s (fun t => t.tot.live = s.tot.staging ∧ t.tot.subIrr = true ∧ t.tot.flags = s.tot.flags ||| 8 ∧
    t.tot.calCrc = some (calWord s.tot.staging 31) ∧ t.getF Reg.TOT_SEAL_STAT Fld.TOT_SEAL_STAT_ERR = 0 ∧ t.logUsed = s.logUsed + 1)) ∧
  -- an invalid set is refused with ERR 6
  (∀ (fail : Bool) (s : State), s.exists_ 8 3 = true → s.session = true → calSetOk s.tot.staging = false →
    Runs (.calCommit fail) s (fun t => t.getF Reg.TOT_SEAL_STAT Fld.TOT_SEAL_STAT_ERR = 6 ∧ t.tot = s.tot)) ∧
  -- within a session a write goes to the selected staging word, and WORD advances
  (∀ (x : Nat) (s : State), s.exists_ 8 3 = true → s.session = true → s.isF Reg.TOT_CAL_SEL Fld.TOT_CAL_SEL_TARGET = false →
    Runs (.calDataAccess (some x)) s (fun t => t.tot.staging = overlay s.tot.staging (4 * s.getF Reg.TOT_CAL_SEL Fld.TOT_CAL_SEL_WORD) (bytesLE 4 x) ∧
    t.tot.live = s.tot.live ∧ t.getF Reg.TOT_CAL_SEL Fld.TOT_CAL_SEL_WORD = (s.getF Reg.TOT_CAL_SEL Fld.TOT_CAL_SEL_WORD + 1) % 32)) ∧
  -- a read gives the selected live word, and WORD advances
  (∀ (s : State), s.exists_ 8 3 = true → s.isF Reg.TOT_CAL_SEL Fld.TOT_CAL_SEL_TARGET = true →
    Runs (.calDataAccess none) s (fun t => t.busData = word (calWord s.tot.live (s.getF Reg.TOT_CAL_SEL Fld.TOT_CAL_SEL_WORD)) ∧
    t.tot = s.tot ∧ t.getF Reg.TOT_CAL_SEL Fld.TOT_CAL_SEL_WORD = (s.getF Reg.TOT_CAL_SEL Fld.TOT_CAL_SEL_WORD + 1) % 32))

/-- Demand sub-intervals, billing boundaries, calendars, state records and restoration. Rests on R334, R335, R337, R338, R339, R340,
R341, R343. Clauses, each with the command it is about and what its completion leaves. -/
def Obligations.BillingAndCalendars : Prop :=
  -- at the end of a sub-interval its import enters the windows and a new one begins; the maximum demand never falls
  (∀ (s : State), s.totRuns = true → s.demSub ≠ 0 → s.taiMin % s.demSub = 0 → s.tot.acal = [] →
    s.isF Reg.TOT_PCAL_CTL Fld.TOT_PCAL_CTL_PRESENT = false →
    Runs (.taiMinuteBoundary) s (fun t => t.tot.ring = ((s.tot.subE, s.tot.subIrr) :: s.tot.ring).take 15 ∧ t.tot.subStart = s.taiMin ∧
    t.tot.subE = 0 ∧ t.tot.subIrr = false ∧ t.tot.acc = s.tot.acc ∧ s.tot.mdW ≤ t.tot.mdW)) ∧
  -- within a sub-interval nothing is due
  (∀ (s : State), s.totRuns = true → s.demSub ≠ 0 → s.taiMin % s.demSub ≠ 0 → s.tot.acal = [] →
    s.isF Reg.TOT_PCAL_CTL Fld.TOT_PCAL_CTL_PRESENT = false → Runs (.taiMinuteBoundary) s (fun t => t.tot = s.tot)) ∧
  -- the current set becomes the previous one with its END_MIN, and a forced set begins; the accumulators run on
  (∀ (s : State), s.exists_ 8 3 = true → s.tot.lastB < s.taiMin → s.taiValid = true →
    Runs (.billingForce) s (fun t => t.tot.lastB = s.taiMin ∧ t.tot.startMin = s.taiMin ∧ t.billSeq = (s.billSeq + 1) % 2 ^ 16 ∧
    t.tot.flags = 32 ∧ t.tot.mdW = 0 ∧ t.tot.winCnt = 0 ∧ t.tot.acc = s.tot.acc ∧
    t.tot.prev = overlay (s.billSet.take 252) 8 (bytesLE 4 s.taiMin) ++ bytesLE 4 (crc32c (overlay (s.billSet.take 252) 8 (bytesLE 4 s.taiMin))) ∧
    t.num Reg.TOT_BILL_CNT = min (s.num Reg.TOT_BILL_CNT + 1) 0xFFFFFFFF ∧ t.isF Reg.TOT_INT_STAT Fld.TOT_INT_STAT_BILL_RESET = true)) ∧
  -- a boundary not after the last one is refused
  (∀ (s : State), s.exists_ 8 3 = true → s.taiMin ≤ s.tot.lastB →
    Runs (.billingForce) s (fun t => t.num Reg.TOT_REFUSE_CNT = min (s.num Reg.TOT_REFUSE_CNT + 1) 0xFFFFFFFF ∧ t.tot = s.tot ∧
    t.billSeq = s.billSeq)) ∧
  -- SNAP copies the selected set whole
  (∀ (s : State), s.exists_ 8 3 = true →
    Runs (.billSnap) s (fun t => (t.tot.billBuf = if s.isF Reg.TOT_BILL_SEL Fld.TOT_BILL_SEL_SET then s.tot.prev else s.billSet) ∧
    t.tot.acc = s.tot.acc)) ∧
  -- a word of the read buffer is returned, and WORD advances
  (∀ (s : State), s.exists_ 8 3 = true →
    Runs (.billDataRead) s (fun t => t.busData = word (u32 s.tot.billBuf (4 * s.getF Reg.TOT_BILL_SEL Fld.TOT_BILL_SEL_WORD)) ∧
    t.getF Reg.TOT_BILL_SEL Fld.TOT_BILL_SEL_WORD = (s.getF Reg.TOT_BILL_SEL Fld.TOT_BILL_SEL_WORD + 1) % 64 ∧ t.tot = s.tot)) ∧
  -- STATUS says whether the calendar that the block reads checks; one that does is taken, any other refused and counted
  (∀ (s : State), s.exists_ 8 3 = true → s.session = false → s.addr64 Reg.TOT_PCAL_LO Reg.TOT_PCAL_HI 14 + 10516 ≤ s.dramFit →
    Runs (.pcalLoad false) s (fun t => (u32 (s.rdMem (s.addr64 Reg.TOT_PCAL_LO Reg.TOT_PCAL_HI 14) 10516) 10512 ≠ crc32c ((s.rdMem (s.addr64 Reg.TOT_PCAL_LO Reg.TOT_PCAL_HI 14) 10516).take 10512) →
    t.getF Reg.TOT_PCAL_CTL Fld.TOT_PCAL_CTL_STATUS = 1) ∧
    (u32 (s.rdMem (s.addr64 Reg.TOT_PCAL_LO Reg.TOT_PCAL_HI 14) 10516) 10512 = crc32c ((s.rdMem (s.addr64 Reg.TOT_PCAL_LO Reg.TOT_PCAL_HI 14) 10516).take 10512) ∧
    calOk (s.rdMem (s.addr64 Reg.TOT_PCAL_LO Reg.TOT_PCAL_HI 14) 10516) = false → t.getF Reg.TOT_PCAL_CTL Fld.TOT_PCAL_CTL_STATUS = 2) ∧
    (u32 (s.rdMem (s.addr64 Reg.TOT_PCAL_LO Reg.TOT_PCAL_HI 14) 10516) 10512 = crc32c ((s.rdMem (s.addr64 Reg.TOT_PCAL_LO Reg.TOT_PCAL_HI 14) 10516).take 10512) ∧
    calOk (s.rdMem (s.addr64 Reg.TOT_PCAL_LO Reg.TOT_PCAL_HI 14) 10516) = true ∧
    calAct (s.rdMem (s.addr64 Reg.TOT_PCAL_LO Reg.TOT_PCAL_HI 14) 10516) ≤ s.taiSec → t.getF Reg.TOT_PCAL_CTL Fld.TOT_PCAL_CTL_STATUS = 3) ∧
    (u32 (s.rdMem (s.addr64 Reg.TOT_PCAL_LO Reg.TOT_PCAL_HI 14) 10516) 10512 = crc32c ((s.rdMem (s.addr64 Reg.TOT_PCAL_LO Reg.TOT_PCAL_HI 14) 10516).take 10512) ∧
    calOk (s.rdMem (s.addr64 Reg.TOT_PCAL_LO Reg.TOT_PCAL_HI 14) 10516) = true ∧
    s.taiSec < calAct (s.rdMem (s.addr64 Reg.TOT_PCAL_LO Reg.TOT_PCAL_HI 14) 10516) → t.getF Reg.TOT_PCAL_CTL Fld.TOT_PCAL_CTL_STATUS = 0) ∧
    (t.getF Reg.TOT_PCAL_CTL Fld.TOT_PCAL_CTL_STATUS = 0 → t.tot.pcal = (s.rdMem (s.addr64 Reg.TOT_PCAL_LO Reg.TOT_PCAL_HI 14) 10516) ∧
    t.isF Reg.TOT_PCAL_CTL Fld.TOT_PCAL_CTL_PRESENT = true) ∧ (t.getF Reg.TOT_PCAL_CTL Fld.TOT_PCAL_CTL_STATUS ≠ 0 →
    t.tot.pcal = s.tot.pcal ∧ t.num Reg.TOT_REFUSE_CNT = min (s.num Reg.TOT_REFUSE_CNT + 1) 0xFFFFFFFF) ∧ t.tot.acal = s.tot.acal)) ∧
  -- during a session it is refused with STATUS 4
  (∀ (err : Bool) (s : State), s.exists_ 8 3 = true → s.session = true →
    Runs (.pcalLoad err) s (fun t => t.getF Reg.TOT_PCAL_CTL Fld.TOT_PCAL_CTL_STATUS = 4 ∧
    t.num Reg.TOT_REFUSE_CNT = min (s.num Reg.TOT_REFUSE_CNT + 1) 0xFFFFFFFF ∧ t.tot.pcal = s.tot.pcal)) ∧
  -- CANCEL discards the passive calendar
  (∀ (s : State), s.exists_ 8 3 = true → Runs (.pcalCancel) s (fun t => t.tot.pcal = [] ∧
    t.isF Reg.TOT_PCAL_CTL Fld.TOT_PCAL_CTL_PRESENT = false ∧ t.tot.acal = s.tot.acal)) ∧
  -- a state record takes the next SAVE_SEQ, and nothing measured changes
  (∀ (s : State), s.totEn = true → s.tot.stopped = false → s.phase = 6 →
    Runs (.stateRecordPeriodic) s (fun t => t.tot.saveSeq = s.tot.saveSeq + 1 ∧ t.tot.acc = s.tot.acc ∧ t.tot.rem = s.tot.rem)) ∧
  -- the first valid sample after an outage counts it, and opens an irregular sub-interval; accumulators are untouched
  (∀ (c : TotCut) (s : State), s.eValid = true → s.taiValid = true → s.tot.cut = some c →
    Runs (.totRestoration) s (fun t => t.tot.cut = none ∧ (s.num Reg.TOT_OUTAGE_CNT + 1 ≤ 0xFFFFFFFF →
    t.num Reg.TOT_OUTAGE_CNT = s.num Reg.TOT_OUTAGE_CNT + 1) ∧ t.tot.subIrr = true ∧ t.tot.subE = 0 ∧ t.tot.acc = s.tot.acc)) ∧
  -- without a record the first sub-interval opens irregular
  (∀ (s : State), s.eValid = true → s.taiValid = true → s.tot.cut = none → s.tot.fresh = true →
    Runs (.totRestoration) s (fun t => t.tot.fresh = false ∧ t.tot.subIrr = true ∧ t.tot.subE = 0 ∧
    t.num Reg.TOT_OUTAGE_CNT = s.num Reg.TOT_OUTAGE_CNT))

/-- Staged time, leap seconds, the RTC and clock reads; comparators and PPS_OUT. Rests on R8, R350, R352, R353, R354, R355, R356,
R357, R361, R366, R369. Clauses, each with the command it is about and what its completion leaves. -/
def Obligations.TimeIsSetAndComparatorsFire : Prop :=
  -- an absolute SET makes TAI the staged time and valid
  (∀ (s : State), Runs (.taiSet false) s (fun t => t.time.tai = taiOf (s.num Reg.TU_TAI_S_LO + s.getF Reg.TU_TAI_S_HI Fld.TU_TAI_S_HI_SEC_HI * 2 ^ 32) (s.getF Reg.TU_TAI_NS Fld.TU_TAI_NS_NS) ∧
    t.taiValid = true ∧ (t.getF Reg.TU_STAT Fld.TU_STAT_QUAL = (if s.tuSrc = 0 then 2 else 3)) ∧ (s.tuSrc ≠ 0 → t.time.first = true) ∧
    t.isF Reg.TU_CTL Fld.TU_CTL_REL = false ∧ t.num Reg.TU_SET_CNT = min (s.num Reg.TU_SET_CNT + 1) 0xFFFFFFFF)) ∧
  -- a relative SET adds the staged seconds and ns
  (∀ (s : State), Runs (.taiSet true) s (fun t => t.time.tai = ((s.time.tai : Int) + (signed 48 (s.num Reg.TU_TAI_S_LO + s.getF Reg.TU_TAI_S_HI Fld.TU_TAI_S_HI_SEC_HI * 2 ^ 32) * 2 ^ 32 + (taiOf 0 (s.getF Reg.TU_TAI_NS Fld.TU_TAI_NS_NS) : Nat))).toNat ∧
    t.taiValid = true ∧ t.isF Reg.TU_CTL Fld.TU_CTL_REL = true ∧ t.num Reg.TU_SET_CNT = min (s.num Reg.TU_SET_CNT + 1) 0xFFFFFFFF)) ∧
  -- CUR takes NEXT at LEAP_AT, and TAI does not jump
  (∀ (s : State), s.num Reg.TU_LEAP_AT ≠ 0 → fired (s.taiSec % 2 ^ 32) (s.num Reg.TU_LEAP_AT) = true →
    Runs (.leapSecond) s (fun t => t.getF Reg.TU_UTC Fld.TU_UTC_CUR = s.getF Reg.TU_UTC Fld.TU_UTC_NEXT ∧ t.num Reg.TU_LEAP_AT = 0 ∧
    t.isF Reg.TU_INT_STAT Fld.TU_INT_STAT_LEAP = true ∧ t.time = s.time)) ∧
  -- with LEAP_AT at 0 there is no leap second
  (∀ (s : State), s.num Reg.TU_LEAP_AT = 0 → Runs (.leapSecond) s (fun t => t = s)) ∧
  -- the RTC is loaded from valid TAI
  (∀ (s : State), s.taiValid = true → s.tbLost = false → Runs (.rtcReload) s (fun t => t.ao.rtc = s.time.tai / 2 ^ 17 ∧
    t.ao.rtcOk = true)) ∧
  -- and left alone while TAI is not valid
  (∀ (s : State), s.taiValid = false → Runs (.rtcReload) s (fun t => t = s)) ∧
  -- a VBAT dip clears RTC_OK and loses the time
  (∀ (s : State), Runs (.vbatDip) s (fun t => t.ao.rtcOk = false ∧ t.ao.rtc = 0 ∧ t.ao.sealOpen = s.ao.sealOpen)) ∧
  -- an hour without a ladder step returns CYCLES to 0
  (∀ (s : State), 3600 ≤ s.ladder.sinceStep → Runs (.cyclesReset) s (fun t => t.ao.cycles = 0 ∧ t.ladder = s.ladder)) ∧
  -- a read of the schedule count latches the TAI of the same instant
  (∀ (s : State), Runs (.schedRead) s (fun t => t.busData = word s.now ∧ t.time.latS = s.taiSec ∧ t.time.latNs = s.taiNs ∧
    t.time.tai = s.time.tai)) ∧
  -- a read of word 1 pops the oldest transmit stamp of the uplink
  (∀ (u a b : Nat) (r : List (Nat × Nat)) (s : State), u < 2 → s.txts u = (a, b) :: r → Runs (.txtsPop u) s (fun t => t.busData = word b ∧
    t.txts u = r ∧ t.txts (1 - u) = s.txts (1 - u))) ∧
  -- a port's delays are stored for that port alone
  (∀ (port tx rx : Nat) (s : State), port < 64 → tx < 4096 → rx < 4096 →
    Runs (.afeAdjStore port tx rx) s (fun t => (tget (fun _ => 0) t.time.afe port = tx * 4096 + rx) ∧ (∀ p, p ≠ port →
    tget (fun _ => 0) t.time.afe p = tget (fun _ => 0) s.time.afe p))) ∧
  -- a periodic comparator that fires sets its flag, its event and its output, and its target advances by PER
  (∀ (k : Nat) (s : State), k < 8 → s.isF (Reg.TU_CMP_CTL k) Fld.TU_CMP_CTL_EN = true → fired s.now (s.num (Reg.TU_CMP_T k)) = true →
    s.isF (Reg.TU_CMP_CTL k) Fld.TU_CMP_CTL_PERIODIC = true →
    Runs (.cmpFire k) s (fun t => t.num (Reg.TU_CMP_T k) = (s.num (Reg.TU_CMP_T k) + s.num (Reg.TU_CMP_PER k)) % 2 ^ 32 ∧
    bit (t.raw Reg.TU_INT_STAT) k = true ∧ t.event (32 + k) = true ∧ t.isF (Reg.TU_CMP_CTL k) Fld.TU_CMP_CTL_EN = true ∧
    (s.getF (Reg.TU_CMP_CTL k) Fld.TU_CMP_CTL_OUT = 1 → t.time.evt0.isSome = true) ∧ (s.getF (Reg.TU_CMP_CTL k) Fld.TU_CMP_CTL_OUT = 2 →
    t.time.evt1.isSome = true))) ∧
  -- a single one stops
  (∀ (k : Nat) (s : State), k < 8 → s.isF (Reg.TU_CMP_CTL k) Fld.TU_CMP_CTL_EN = true → fired s.now (s.num (Reg.TU_CMP_T k)) = true →
    s.isF (Reg.TU_CMP_CTL k) Fld.TU_CMP_CTL_PERIODIC = false →
    Runs (.cmpFire k) s (fun t => t.isF (Reg.TU_CMP_CTL k) Fld.TU_CMP_CTL_EN = false ∧ bit (t.raw Reg.TU_INT_STAT) k = true ∧
    t.event (32 + k) = true ∧ t.num (Reg.TU_CMP_T k) = s.num (Reg.TU_CMP_T k))) ∧
  -- a target ahead does not fire
  (∀ (k : Nat) (s : State), k < 8 → fired s.now (s.num (Reg.TU_CMP_T k)) = false → Runs (.cmpFire k) s (fun t => t = s)) ∧
  -- the ball named falls, the other stays
  (∀ (b : Nat) (s : State), b < 2 → Runs (.cmpOutputEnd b) s (fun t => ((if b = 0 then t.time.evt0 else t.time.evt1) = none) ∧
    ((if b = 0 then t.time.evt1 else t.time.evt0) = (if b = 0 then s.time.evt1 else s.time.evt0)))) ∧
  -- PPS_OUT rises at a whole second
  (∀ (s : State), s.isF Reg.TU_SRC_CFG Fld.TU_SRC_CFG_PPS_OUT_EN = true → s.taiValid = true → s.time.lastPulse = none →
    Runs (.ppsOutPulse) s (fun t => t.time.pps = true ∧ t.time.lastPulse = some s.now)) ∧
  -- and is held low while TAI is not valid
  (∀ (s : State), s.taiValid = false → Runs (.ppsOutPulse) s (fun t => t = s)) ∧
  -- PPS_OUT falls after PPS_WIDTH
  (∀ (s : State), Runs (.ppsOutFall) s (fun t => t.time.pps = false ∧ t.time.tai = s.time.tai))

/-- The servo keeps its integral and its correction within FMAX, steps, locks, and goes into holdover. Rests on R354, R359, R362,
R363, R364, R365. Clauses, each with the command it is about and what its completion leaves. -/
def Obligations.ServoSamplesAndSources : Prop :=
  -- a PTP sample within STEP_US corrects the rate within FMAX and never the time; 8 good samples lock
  (∀ (v : Nat) (s : State), s.tuSrc = 1 → s.time.first = false → s.tbLost = false →
    (signed 32 v).natAbs ≤ s.getF Reg.TU_SERVO Fld.TU_SERVO_STEP_US * 1000 →
    Runs (.ptpOffsetWrite v) s (fun t => t.num Reg.TU_SAMPLE_CNT = min (s.num Reg.TU_SAMPLE_CNT + 1) 0xFFFFFFFF ∧
    t.time.i.natAbs ≤ s.fmax.natAbs ∧ t.time.f.natAbs ≤ s.fmax.natAbs ∧ t.num Reg.TU_FREQ = unsigned 32 (-t.time.f) ∧
    t.time.tai = s.time.tai ∧ ((signed 32 v).natAbs ≤ s.getF Reg.TU_SERVO Fld.TU_SERVO_LOCK_NS ∧
    s.getF Reg.TU_SERVO_STAT Fld.TU_SERVO_STAT_GOOD = 7 → t.servo = 2 ∧ t.getF Reg.TU_STAT Fld.TU_STAT_QUAL = 4) ∧
    (s.getF Reg.TU_SERVO Fld.TU_SERVO_LOCK_NS < (signed 32 v).natAbs → t.servo = 1 ∧ t.getF Reg.TU_STAT Fld.TU_STAT_QUAL = 3))) ∧
  -- a first sample beyond STEP_US steps the time
  (∀ (v : Nat) (s : State), s.tuSrc = 1 → s.tbLost = false → s.getF Reg.TU_SERVO Fld.TU_SERVO_STEP_US * 1000 < (signed 32 v).natAbs →
    s.time.first = true → Runs (.ptpOffsetWrite v) s (fun t => t.num Reg.TU_SAMPLE_CNT = min (s.num Reg.TU_SAMPLE_CNT + 1) 0xFFFFFFFF ∧
    t.num Reg.TU_STEP_CNT = min (s.num Reg.TU_STEP_CNT + 1) 0xFFFFFFFF ∧ t.isF Reg.TU_INT_STAT Fld.TU_INT_STAT_STEP = true ∧
    t.time.i = s.time.i ∧ t.servo = 1 ∧ t.getF Reg.TU_STAT Fld.TU_STAT_QUAL = 3)) ∧
  -- a write of TU_OFS_IN without SRC 1 is no sample
  (∀ (v : Nat) (s : State), s.tuSrc ≠ 1 → Runs (.ptpOffsetWrite v) s (fun t => t = s)) ∧
  -- an edge more than 100 µs off its second is discarded and counted
  (∀ (sub p : Nat) (s : State), s.tbLost = false → s.tuSrc = 2 → s.time.lastPps = some p →
    100000 < (((s.taiInNs + sub : Nat) : Int) - p - 1000000000).natAbs →
    Runs (.ppsInEdge sub) s (fun t => t.num Reg.TU_PPS_BAD_CNT = min (s.num Reg.TU_PPS_BAD_CNT + 1) 0xFFFFFFFF ∧
    t.isF Reg.TU_INT_STAT Fld.TU_INT_STAT_PPS_BAD = true ∧ t.num Reg.TU_SAMPLE_CNT = s.num Reg.TU_SAMPLE_CNT ∧
    t.time.lastPps = some (s.taiInNs + sub) ∧ t.time.i = s.time.i)) ∧
  -- a first edge is a sample
  (∀ (sub : Nat) (s : State), s.tbLost = false → s.tuSrc = 2 → s.time.lastPps = none →
    Runs (.ppsInEdge sub) s (fun t => t.num Reg.TU_SAMPLE_CNT = min (s.num Reg.TU_SAMPLE_CNT + 1) 0xFFFFFFFF ∧
    t.num Reg.TU_PPS_BAD_CNT = s.num Reg.TU_PPS_BAD_CNT ∧ t.taiValid = true)) ∧
  -- a standby's pair sample corrects the rate within FMAX
  (∀ (v : Nat) (s : State), s.tuSrc = 3 → s.pairSamples = true → s.time.first = false → s.tbLost = false →
    (signed 32 v).natAbs ≤ s.getF Reg.TU_SERVO Fld.TU_SERVO_STEP_US * 1000 →
    Runs (.pairTimeSample v) s (fun t => t.num Reg.TU_SAMPLE_CNT = min (s.num Reg.TU_SAMPLE_CNT + 1) 0xFFFFFFFF ∧
    t.time.i.natAbs ≤ s.fmax.natAbs ∧ t.time.f.natAbs ≤ s.fmax.natAbs ∧ t.num Reg.TU_FREQ = unsigned 32 (-t.time.f) ∧
    t.time.tai = s.time.tai)) ∧
  -- a device that is not a standby takes none
  (∀ (v : Nat) (s : State), s.pairSamples = false → Runs (.pairTimeSample v) s (fun t => t = s)) ∧
  -- without samples the servo holds the integral's rate
  (∀ (s : State), (s.servo = 1 ∨ s.servo = 2) → Runs (.holdoverTimeout) s (fun t => t.servo = 3 ∧ t.getF Reg.TU_STAT Fld.TU_STAT_QUAL = 5 ∧
    t.num Reg.TU_FREQ = unsigned 32 (-s.time.i) ∧ t.num Reg.TU_SRC_LOSS_CNT = min (s.num Reg.TU_SRC_LOSS_CNT + 1) 0xFFFFFFFF ∧
    t.isF Reg.TU_INT_STAT Fld.TU_INT_STAT_HOLDOVER = true ∧ t.time = s.time)) ∧
  -- a change of SRC restarts the servo with its next sample a first one
  (∀ (src : Nat) (s : State), src < 4 → src ≠ s.tuSrc → Runs (.servoSrcChange src) s (fun t => t.tuSrc = src ∧ t.time.first = true ∧
    t.time.lastSmp = none ∧ (src = 0 → t.servo = 0) ∧ (src = 1 ∨ src = 2 → t.servo = 1) ∧ t.time.tai = s.time.tai))

/-- Record-engine sessions opened, resumed, closed, synchronised or refused; roles and handshake signatures. Rests on R376, R377,
R378. Clauses, each with the command it is about and what its completion leaves. -/
def Obligations.SessionsOpenCloseAndResume : Prop :=
  -- OPEN of an ingest session with a valid context takes its keys and opens it
  (∀ (n : Nat) (d : Bytes) (s : State), n < 64 → d = s.rdMem (s.ctxA n) 128 → (s.usess n).st = 0 → ctxGood d = true → s.sessOpenCount < 32 →
    s.role n ≠ 7 → u8 d 1 = 0 → un d 40 8 < 2 ^ 24 → un d 48 8 < 2 ^ 24 → Runs (.sessionOpen n) s (fun t => (t.usess n).st = 1 ∧
    (t.usess n).err = 0 ∧ (t.usess n).rxKey = slice d 56 16 ∧ (t.usess n).txKey = slice d 84 16 ∧ (t.usess n).rxSeq = un d 40 8 ∧
    (∀ m, m < 64 → m ≠ n → t.usess m = s.usess m) ∧ t.isF Reg.UPL_SESS_STAT Fld.UPL_SESS_STAT_DONE = true ∧
    t.getF Reg.UPL_SESS_STAT Fld.UPL_SESS_STAT_CODE = 0)) ∧
  -- OPEN of a session that is not closed is refused with code 3
  (∀ (n : Nat) (s : State), n < 64 → (s.usess n).st ≠ 0 →
    Runs (.sessionOpen n) s (fun t => t.isF Reg.UPL_SESS_STAT Fld.UPL_SESS_STAT_ERR = true ∧
    t.getF Reg.UPL_SESS_STAT Fld.UPL_SESS_STAT_CODE = 3 ∧ t.upl = s.upl)) ∧
  -- a session without a role is refused with code 5
  (∀ (n : Nat) (s : State), n < 64 → (s.usess n).st = 0 → ctxGood (s.rdMem (s.ctxA n) 128) = true → s.sessOpenCount < 32 → s.role n = 7 →
    Runs (.sessionOpen n) s (fun t => t.isF Reg.UPL_SESS_STAT Fld.UPL_SESS_STAT_ERR = true ∧
    t.getF Reg.UPL_SESS_STAT Fld.UPL_SESS_STAT_CODE = 5 ∧ t.upl = s.upl)) ∧
  -- RESUME opens a stopped session with its context read again
  (∀ (n : Nat) (d : Bytes) (s : State), n < 64 → d = s.rdMem (s.ctxA n) 128 → (s.usess n).st = 2 → ctxGood d = true → un d 40 8 < 2 ^ 24 →
    un d 48 8 < 2 ^ 24 → Runs (.sessionResume n) s (fun t => (t.usess n).st = 1 ∧ (t.usess n).rxKey = slice d 56 16 ∧
    (t.usess n).inBuf = (s.usess n).inBuf ∧ (∀ m, m < 64 → m ≠ n → t.usess m = s.usess m) ∧
    t.isF Reg.UPL_SESS_STAT Fld.UPL_SESS_STAT_DONE = true ∧ t.getF Reg.UPL_SESS_STAT Fld.UPL_SESS_STAT_CODE = 0)) ∧
  -- RESUME of a session that is not stopped is refused with code 2
  (∀ (n : Nat) (s : State), n < 64 → (s.usess n).st ≠ 2 →
    Runs (.sessionResume n) s (fun t => t.isF Reg.UPL_SESS_STAT Fld.UPL_SESS_STAT_ERR = true ∧
    t.getF Reg.UPL_SESS_STAT Fld.UPL_SESS_STAT_CODE = 2 ∧ t.upl = s.upl)) ∧
  -- CLOSE discards what is partial and waiting, and the session's role is none again
  (∀ (n : Nat) (s : State), n < 64 → (s.usess n).st ≠ 0 → Runs (.sessionClose n) s (fun t => (t.usess n).st = 0 ∧ (t.usess n).err = 7 ∧
    (t.usess n).inBuf = [] ∧ (t.usess n).outBuf = [] ∧ (t.upl.results = s.upl.results.filter (fun r => decide (r.1 ≠ n))) ∧ t.role n = 7 ∧
    (∀ m, m < 64 → m ≠ n → t.usess m = s.usess m) ∧ t.isF Reg.UPL_SESS_STAT Fld.UPL_SESS_STAT_DONE = true ∧
    t.getF Reg.UPL_SESS_STAT Fld.UPL_SESS_STAT_CODE = 0)) ∧
  -- SYNC writes the engine's sequence numbers back to the context
  (∀ (n : Nat) (s : State), n < 64 → (s.usess n).st ≠ 0 → Runs (.sessionSync n) s (fun t => t.upl = s.upl ∧
    t.rdMem (s.ctxA n + 40) 8 = bytesLE 8 (s.usess n).rxSeq ∧ t.rdMem (s.ctxA n + 48) 8 = bytesLE 8 (s.usess n).txSeq ∧
    t.isF Reg.UPL_SESS_STAT Fld.UPL_SESS_STAT_DONE = true ∧ t.getF Reg.UPL_SESS_STAT Fld.UPL_SESS_STAT_CODE = 0)) ∧
  -- a doorbell moves RX_WR or TX_RD of an open session
  (∀ (n which v : Nat) (s : State), n < 64 → (s.usess n).st = 1 →
    Runs (.sessionDoorbell n which v) s (fun t => ((t.usess n).rxWr = if which = 0 then v % 2 ^ 24 else (s.usess n).rxWr) ∧
    ((t.usess n).txRd = if which = 0 then (s.usess n).txRd else v % 2 ^ 24) ∧ (∀ m, m < 64 → m ≠ n → t.usess m = s.usess m))) ∧
  -- the hoop signs with the identity key
  (∀ (n : Nat) (content : Bytes) (s : State), (s.ndl 8).key ≠ [] →
    Runs (.handshakeSign n content) s (fun t => t.out = s.out ++ [.signature n (Config.slhSign (s.ndl 8).key content)])) ∧
  -- a checked certificate binds its role to the session alone
  (∀ (n r : Nat) (s : State), n < 64 → r ≤ 5 → Runs (.roleBind n r true) s (fun t => t.role n = r ∧ (∀ m, m < 64 → m ≠ n →
    t.role m = s.role m))) ∧
  -- one that fails binds none
  (∀ (n r : Nat) (s : State), Runs (.roleBind n r false) s (fun t => t = s))

/-- Records received and sent, results returned, batches closed and sent, manifests made and signed. Rests on R378, R379, R380, R381,
R383, R384, R385, R386, R387, R388. Clauses, each with the command it is about and what its completion leaves. -/
def Obligations.RecordsBatchesAndManifests : Prop :=
  -- a record whose tag fails stops the session with ERR 2 and delivers nothing; a good one advances RX_RD and the sequence number
  (∀ (n : Nat) (h : Bytes) (s : State), s.uplEn = true → s.noGrant 9 5 = false → n < 64 → (s.usess n).st = 1 → (s.usess n).inBuf = [] →
    s.ingHeld (s.usess n) = false → h = s.ringRead (s.usess n).rxBase (s.usess n).ringLog (s.usess n).rxRd 5 → u8 h 0 = 23 →
    u16be h 1 = 0x0303 → u16be h 3 ≤ 16640 → 5 + u16be h 3 ≤ ((s.usess n).rxWr + 2 ^ 24 - (s.usess n).rxRd) % 2 ^ 24 →
    Runs (.tlsRecordReceive n) s (fun t => (gcmOpen 16 (s.usess n).rxKey (recNonce (s.usess n).rxIv (s.usess n).rxSeq) h ((s.ringRead (s.usess n).rxBase (s.usess n).ringLog ((s.usess n).rxRd + 5) (u16be h 3)).take (u16be h 3 - 16)) ((s.ringRead (s.usess n).rxBase (s.usess n).ringLog ((s.usess n).rxRd + 5) (u16be h 3)).drop (u16be h 3 - 16)) = none ∨ u16be h 3 < 16 →
    (t.usess n).st = 2 ∧ (t.usess n).err = 2 ∧ t.num Reg.UPL_REC_AUTH_CNT = min (s.num Reg.UPL_REC_AUTH_CNT + 1) 0xFFFFFFFF ∧
    t.ink = s.ink) ∧ (16 ≤ u16be h 3 →
    (gcmOpen 16 (s.usess n).rxKey (recNonce (s.usess n).rxIv (s.usess n).rxSeq) h ((s.ringRead (s.usess n).rxBase (s.usess n).ringLog ((s.usess n).rxRd + 5) (u16be h 3)).take (u16be h 3 - 16)) ((s.ringRead (s.usess n).rxBase (s.usess n).ringLog ((s.usess n).rxRd + 5) (u16be h 3)).drop (u16be h 3 - 16))).all (fun p => decide ((innerPlain p).2 = 23 →
    (t.usess n).rxSeq = (s.usess n).rxSeq + 1 ∧ (t.usess n).rxRd = ((s.usess n).rxRd + (5 + u16be h 3)) % 2 ^ 24)) = true) ∧ (∀ m, m < 64 →
    m ≠ n → t.usess m = s.usess m))) ∧
  -- a record of another type stops the session with ERR 1
  (∀ (n : Nat) (h : Bytes) (s : State), s.uplEn = true → s.noGrant 9 5 = false → n < 64 → (s.usess n).st = 1 → (s.usess n).inBuf = [] →
    s.ingHeld (s.usess n) = false → h = s.ringRead (s.usess n).rxBase (s.usess n).ringLog (s.usess n).rxRd 5 →
    5 ≤ ((s.usess n).rxWr + 2 ^ 24 - (s.usess n).rxRd) % 2 ^ 24 → u8 h 0 ≠ 23 → Runs (.tlsRecordReceive n) s (fun t => (t.usess n).st = 2 ∧
    (t.usess n).err = 1 ∧ t.isF Reg.UPL_INT_STAT Fld.UPL_INT_STAT_SESS_EXC = true ∧ t.ink = s.ink ∧ (∀ m, m < 64 → m ≠ n →
    t.usess m = s.usess m))) ∧
  -- at most 16,384 bytes leave as one record, which takes the next sequence number
  (∀ (n : Nat) (s : State), s.uplEn = true → s.noGrant 9 5 = false → n < 64 → (s.usess n).st = 1 → (s.usess n).outBuf ≠ [] →
    5 + (((s.usess n).outBuf.take 16384).length + 17) ≤ 2 ^ (s.usess n).ringLog - ((s.usess n).txWr + 2 ^ 24 - (s.usess n).txRd) % 2 ^ 24 →
    (s.usess n).txSeq + 1 < 2 ^ 24 → (s.usess n).rxSeq < 2 ^ 24 →
    Runs (.tlsRecordTransmit n) s (fun t => (t.usess n).outBuf = (s.usess n).outBuf.drop 16384 ∧ (t.usess n).txSeq = (s.usess n).txSeq + 1 ∧
    (t.usess n).txWr = ((s.usess n).txWr + 5 + (((s.usess n).outBuf.take 16384).length + 17)) % 2 ^ 24 ∧
    bit (t.raw Reg.UPL_INT_STAT) (8 + (s.usess n).uplink) = true ∧ (t.usess n).st = 1 ∧ (∀ m, m < 64 → m ≠ n → t.usess m = s.usess m))) ∧
  -- up to 64 results of the session go out in one message
  (∀ (n : Nat) (s : State), (s.usess n).st = 1 → (s.usess n).kind = 0 → s.uplEn = true → s.mayTransmit = true →
    (s.upl.results.filter (fun r => decide (r.1 = n)) ≠ []) →
    Runs (.resultMessageSend n) s (fun t => ((t.upl.results.filter (fun r => decide (r.1 = n))) = (s.upl.results.filter (fun r => decide (r.1 = n))).drop 64) ∧
    ((t.upl.results.filter (fun r => decide (r.1 ≠ n))) = s.upl.results.filter (fun r => decide (r.1 ≠ n))) ∧
    ((t.usess n).outBuf = (s.usess n).outBuf ++ [2, 0, 0, 0] ++ bytesLE 4 (((s.upl.results.filter (fun r => decide (r.1 = n))).take 64).flatMap (·.2)).length ++ ((s.upl.results.filter (fun r => decide (r.1 = n))).take 64).flatMap (·.2)) ∧
    t.num Reg.UPL_RESULT_CNT = min (s.num Reg.UPL_RESULT_CNT + 1) 0xFFFFFFFF)) ∧
  -- results of a closed session are discarded
  (∀ (n : Nat) (s : State), (s.usess n).st = 0 →
    Runs (.resultMessageSend n) s (fun t => (t.upl.results = s.upl.results.filter (fun r => decide (r.1 ≠ n))) ∧ t.upl.sess = s.upl.sess)) ∧
  -- the open batch closes with its records and the next BSEQ, and the partner's position moves past them
  (∀ (k r : Nat) (x : USect) (g : Bool) (s : State), k < 4 → s.uplEn = true → s.partEn k = true → s.phase = 6 →
    s.getF (Reg.UPL_PART_CFG k) Fld.UPL_PART_CFG_KINDS = 8 →
    s.sectNext k 4 (s.getF Reg.UPL_EXP_CTL Fld.UPL_EXP_CTL_BATCH_MAX) = (some x, r, g) →
    Runs (.batchClose k) s (fun t => ((t.part k).batches = (s.part k).batches ++ [{ bseq := (s.part k).bseq, flags := 2 * g.toNat, created := s.taiSec, sects := [x] }]) ∧
    (t.part k).bseq = (s.part k).bseq + 1 ∧ ((s.part k).pos.length = 4 → pos4 (t.part k).pos 3 = (x.last + 1) % 2 ^ 32) ∧
    t.num Reg.UPL_BATCH_CNT = min (s.num Reg.UPL_BATCH_CNT + 1) 0xFFFFFFFF)) ∧
  -- a partner that takes no kind of record gets no batch
  (∀ (k : Nat) (s : State), s.getF (Reg.UPL_PART_CFG k) Fld.UPL_PART_CFG_KINDS = 0 → Runs (.batchClose k) s (fun t => t = s)) ∧
  -- the first batch due within the window goes out whole, marked as a resend where it is one
  (∀ (k n : Nat) (b : UBatch) (s : State), s.expSess k = some n → s.batchDue k = some b → s.phase = 6 →
    Runs (.batchSend k) s (fun t => (∀ x ∈ (t.part k).batches, x.bseq = b.bseq → x.sent = true ∧ x.out = true) ∧
    ((t.part k).batches.map (fun x => x.bseq) = (s.part k).batches.map (fun x => x.bseq)) ∧
    (t.usess n).outBuf.take ((s.usess n).outBuf.length + 8 + (s.batchBytes k b b.sent).length) = (s.usess n).outBuf ++ [3, 0, 0, 0] ++ bytesLE 4 (s.batchBytes k b b.sent).length ++ s.batchBytes k b b.sent ∧
    (b.sent = true → t.num Reg.UPL_BATCH_RESEND_CNT = min (s.num Reg.UPL_BATCH_RESEND_CNT + 1) 0xFFFFFFFF))) ∧
  -- each enabled partner gets a manifest of the day that ends
  (∀ (s : State), s.taiValid = true → s.uplEn = true → s.isF Reg.UPL_EXP_CTL Fld.UPL_EXP_CTL_MANIFEST_EN = true →
    Runs (.dayBoundary) s (fun t => (∀ k, k < 4 → s.partEn k = true → (s.part k).manifests.length < 16 →
    (t.part k).manifests.map (fun m => m.day) = (s.part k).manifests.map (fun m => m.day) ++ [s.taiSec / 86400 - 1]) ∧ (∀ k, k < 4 →
    s.partEn k = false → t.part k = s.part k))) ∧
  -- the oldest unsigned manifest is signed, its body unchanged
  (∀ (k : Nat) (m : UManifest) (s : State), ((s.part k).manifests.find? (fun (m : UManifest) => !m.signed) = some m) →
    Runs (.manifestSigned k) s (fun t => ((t.part k).manifests.map (fun x => (x.day, x.body, x.signed)) = (s.part k).manifests.map (fun x => (x.day, x.body, x.signed || decide (x.day = m.day)))) ∧
    t.isF Reg.UPL_INT_STAT Fld.UPL_INT_STAT_MANIFEST_READY = true))

/-- Uplink frames received or dropped, sent or refused; links that come and go. Rests on R359, R361, R370, R371, R374. Clauses, each
with the command it is about and what its completion leaves. -/
def Obligations.UplinkFramesAndLinks : Prop :=
  -- a frame takes the descriptors it needs, and CONS passes them
  (∀ (u vlan status flags : Nat) (b : Bytes) (l : List Nat) (s : State), u < 2 → s.macOn u = true →
    s.getF (Reg.UPL_RXR u) Fld.UPL_RXR_RING_LOG2 ≤ 12 →
    s.rxSlots u (s.getF (Reg.UPL_RXH u) Fld.UPL_RXH_CONS) ((s.getF (Reg.UPL_RXH u) Fld.UPL_RXH_PROD + 2 ^ s.getF (Reg.UPL_RXR u) Fld.UPL_RXR_RING_LOG2 - s.getF (Reg.UPL_RXH u) Fld.UPL_RXH_CONS) % 2 ^ s.getF (Reg.UPL_RXR u) Fld.UPL_RXR_RING_LOG2) b.length = some l →
    Runs (.uplinkRxFrame u b vlan status flags) s (fun t => t.getF (Reg.UPL_RXH u) Fld.UPL_RXH_CONS = (s.getF (Reg.UPL_RXH u) Fld.UPL_RXH_CONS + l.length) % 2 ^ s.getF (Reg.UPL_RXR u) Fld.UPL_RXR_RING_LOG2 ∧
    t.num Reg.UPL_RX_DROP_0_CNT = s.num Reg.UPL_RX_DROP_0_CNT ∧ t.num Reg.UPL_RX_DROP_1_CNT = s.num Reg.UPL_RX_DROP_1_CNT)) ∧
  -- without descriptors the frame is dropped and counted
  (∀ (u vlan status flags : Nat) (b : Bytes) (s : State), u < 2 → s.macOn u = true → s.getF (Reg.UPL_RXR u) Fld.UPL_RXR_RING_LOG2 ≤ 12 →
    s.rxSlots u (s.getF (Reg.UPL_RXH u) Fld.UPL_RXH_CONS) ((s.getF (Reg.UPL_RXH u) Fld.UPL_RXH_PROD + 2 ^ s.getF (Reg.UPL_RXR u) Fld.UPL_RXR_RING_LOG2 - s.getF (Reg.UPL_RXH u) Fld.UPL_RXH_CONS) % 2 ^ s.getF (Reg.UPL_RXR u) Fld.UPL_RXR_RING_LOG2) b.length = none →
    Runs (.uplinkRxFrame u b vlan status flags) s (fun t => ((u = 0 →
    t.num Reg.UPL_RX_DROP_0_CNT = min (s.num Reg.UPL_RX_DROP_0_CNT + 1) 0xFFFFFFFF)) ∧ ((u = 1 →
    t.num Reg.UPL_RX_DROP_1_CNT = min (s.num Reg.UPL_RX_DROP_1_CNT + 1) 0xFFFFFFFF)) ∧ t.dram = s.dram)) ∧
  -- a descriptor without offloads sends its bytes, and CONS passes it
  (∀ (u : Nat) (d b : Bytes) (s : State), u < 2 → s.macOn u = true →
    s.getF (Reg.UPL_TXH u) Fld.UPL_TXH_CONS ≠ s.getF (Reg.UPL_TXH u) Fld.UPL_TXH_PROD →
    d = s.rdMem (s.txDescA u (s.getF (Reg.UPL_TXH u) Fld.UPL_TXH_CONS)) 32 → 128 ≤ u8 d 10 →
    s.getF (Reg.UPL_TXR u) Fld.UPL_TXR_RING_LOG2 ≤ 12 → u16 d 12 = 0 → 60 ≤ u16 d 8 → u16 d 8 ≤ 9216 → u16 d 16 = 0 →
    b = s.rdMem (un d 0 8 % 2 ^ 36) (u16 d 8) → ptpAt b = none → Runs (.uplinkTxDesc u) s (fun t => t.out = s.out ++ [.uplink u b] ∧
    t.getF (Reg.UPL_TXH u) Fld.UPL_TXH_CONS = (s.getF (Reg.UPL_TXH u) Fld.UPL_TXH_CONS + 1) % 2 ^ s.getF (Reg.UPL_TXR u) Fld.UPL_TXR_RING_LOG2 ∧
    (128 ≤ u8 d 10 ∧ u8 d 10 / 64 % 2 = 1 → bit (t.raw Reg.UPL_INT_STAT) (8 + u) = true))) ∧
  -- one of fewer than 60 bytes is refused
  (∀ (u : Nat) (d : Bytes) (s : State), u < 2 → s.macOn u = true →
    s.getF (Reg.UPL_TXH u) Fld.UPL_TXH_CONS ≠ s.getF (Reg.UPL_TXH u) Fld.UPL_TXH_PROD →
    d = s.rdMem (s.txDescA u (s.getF (Reg.UPL_TXH u) Fld.UPL_TXH_CONS)) 32 → 128 ≤ u8 d 10 →
    s.getF (Reg.UPL_TXR u) Fld.UPL_TXR_RING_LOG2 ≤ 12 → u16 d 8 < 60 → Runs (.uplinkTxDesc u) s (fun t => t.out = s.out ∧
    t.getF (Reg.UPL_TXH u) Fld.UPL_TXH_CONS = (s.getF (Reg.UPL_TXH u) Fld.UPL_TXH_CONS + 1) % 2 ^ s.getF (Reg.UPL_TXR u) Fld.UPL_TXR_RING_LOG2)) ∧
  -- a link that changes is shown and raises LINK_CHANGE
  (∀ (up : Bool) (width gen : Nat) (s : State), s.isF Reg.UPL_STAT Fld.UPL_STAT_A_UP ≠ up →
    Runs (.uplinkLinkChange 0 up width gen) s (fun t => t.isF Reg.UPL_STAT Fld.UPL_STAT_A_UP = up ∧
    t.isF Reg.UPL_INT_STAT Fld.UPL_INT_STAT_LINK_CHANGE = true ∧
    t.isF Reg.UPL_STAT Fld.UPL_STAT_B_UP = s.isF Reg.UPL_STAT Fld.UPL_STAT_B_UP)) ∧
  -- PCI Express that goes down shows no width and no generation
  (∀ (width gen : Nat) (s : State), s.isF Reg.UPL_STAT Fld.UPL_STAT_PCIE_UP = true →
    Runs (.uplinkLinkChange 2 false width gen) s (fun t => t.isF Reg.UPL_STAT Fld.UPL_STAT_PCIE_UP = false ∧
    t.getF Reg.UPL_STAT Fld.UPL_STAT_PCIE_WIDTH = 0 ∧ t.getF Reg.UPL_STAT Fld.UPL_STAT_PCIE_GEN = 0 ∧
    t.isF Reg.UPL_INT_STAT Fld.UPL_INT_STAT_LINK_CHANGE = true))

/-- END, SIGNAL, LOOP and WAIT of a channel, and instructions that are in error. Rests on R396, R398, R399, R403, R404, R405, R407.
Clauses, each with the command it is about and what its completion leaves. -/
def Obligations.ShuttleFlowOfControl : Prop :=
  -- END makes the channel idle at its active pointer and sets its done event
  (∀ (c : Nat) (b : Bytes) (s : State), c < 32 → s.shuOn = true → s.chState c = 2 → b = s.chIns c → b = 0 :: 0xFF :: List.replicate 14 0 →
    s.isF (Reg.SHU_CH_STAT c) Fld.SHU_CH_STAT_SHADOW_VALID = false → (s.chan c).openPort = none →
    s.isF (Reg.SHU_CH_CTL c) Fld.SHU_CH_CTL_ARM = false → s.event (40 + c) = false → Runs (.shuttleEnd c) s (fun t => t.chState c = 0 ∧
    t.event (40 + c) = true ∧ t.chPc c = (s.chan c).active % 2 ^ 32 ∧ (t.chan c).loop = none ∧ (∀ d, d < 32 → d ≠ c →
    t.chState d = s.chState d))) ∧
  -- at END a valid shadow pointer becomes the active one
  (∀ (c : Nat) (b : Bytes) (s : State), c < 32 → s.shuOn = true → s.chState c = 2 → b = s.chIns c → b = 0 :: 0xFF :: List.replicate 14 0 →
    s.isF (Reg.SHU_CH_STAT c) Fld.SHU_CH_STAT_SHADOW_VALID = true → (s.chan c).openPort = none →
    Runs (.shuttleEnd c) s (fun t => (t.chan c).active = (s.chan c).shadow ∧
    t.isF (Reg.SHU_CH_STAT c) Fld.SHU_CH_STAT_SHADOW_VALID = false ∧ t.chPc c = (s.chan c).shadow % 2 ^ 32)) ∧
  -- END with a packet left open is ERR 7
  (∀ (c : Nat) (b : Bytes) (s : State), c < 32 → s.shuOn = true → s.chState c = 2 → b = s.chIns c → b = 0 :: 0xFF :: List.replicate 14 0 →
    (s.chan c).openPort ≠ none → Runs (.shuttleEnd c) s (fun t => t.chState c = 5 ∧ t.getF (Reg.SHU_CH_STAT c) Fld.SHU_CH_STAT_ERR = 7 ∧
    t.chPc c = s.chPc c ∧ (t.chan c).openPort = none ∧ (∀ d, d < 32 → d ≠ c → t.chState d = s.chState d))) ∧
  -- SIGNAL sets the event that it names, and IRQ when asked
  (∀ (c : Nat) (b : Bytes) (s : State), c < 32 → s.shuOn = true → s.chState c = 2 → b = s.chIns c → b = 0x51 :: 7 :: List.replicate 14 0 →
    s.event 7 = false → Runs (.signal c) s (fun t => t.chState c = 2 ∧ t.chPc c = (s.chPc c + 1) % 2 ^ 32 ∧ t.event 7 = true ∧
    t.isF (Reg.SHU_CH_STAT c) Fld.SHU_CH_STAT_IRQ = true ∧ (∀ d, d < 32 → d ≠ c → t.chState d = s.chState d))) ∧
  -- an event set again is counted as lost
  (∀ (c : Nat) (b : Bytes) (s : State), c < 32 → s.shuOn = true → s.chState c = 2 → b = s.chIns c → b = 0x50 :: 7 :: List.replicate 14 0 →
    s.event 7 = true → Runs (.signal c) s (fun t => t.chState c = 2 ∧ t.chPc c = (s.chPc c + 1) % 2 ^ 32 ∧ t.event 7 = true ∧
    t.num Reg.SHU_EVT_LOST_CNT = min (s.num Reg.SHU_EVT_LOST_CNT + 1) 0xFFFFFFFF)) ∧
  -- an event that SIGNAL cannot name is ERR 1
  (∀ (c : Nat) (b : Bytes) (s : State), c < 32 → s.shuOn = true → s.chState c = 2 → b = s.chIns c → b = 0x50 :: 40 :: List.replicate 14 0 →
    Runs (.signal c) s (fun t => t.chState c = 5 ∧ t.getF (Reg.SHU_CH_STAT c) Fld.SHU_CH_STAT_ERR = 1 ∧ t.chPc c = s.chPc c ∧ (∀ e, e < 72 →
    t.event e = s.event e))) ∧
  -- LOOP met first takes its count, and the channel jumps back
  (∀ (c cnt back : Nat) (b : Bytes) (s : State), c < 32 → s.shuOn = true → s.chState c = 2 → b = s.chIns c →
    b = [0x30] ++ bytesLE 2 cnt ++ bytesLE 2 back ++ List.replicate 11 0 → 2 ≤ cnt → cnt < 65536 → 1 ≤ back → back ≤ 4095 →
    (s.chan c).loop = none → s.isF (Reg.SHU_CH_STAT c) Fld.SHU_CH_STAT_SHADOW_VALID = false →
    Runs (.loop c) s (fun t => t.chPc c = (s.chPc c + 2 ^ 32 - back) % 2 ^ 32 ∧ (t.chan c).loop = some (s.chPc c, cnt - 1) ∧
    t.chState c = 2 ∧ (∀ d, d < 32 → d ≠ c → t.chState d = s.chState d))) ∧
  -- the last round falls through and frees the counter
  (∀ (c cnt back : Nat) (b : Bytes) (s : State), c < 32 → s.shuOn = true → s.chState c = 2 → b = s.chIns c →
    b = [0x30] ++ bytesLE 2 cnt ++ bytesLE 2 back ++ List.replicate 11 0 → 1 ≤ cnt → cnt < 65536 → 1 ≤ back → back ≤ 4095 →
    (s.chan c).loop = some (s.chPc c, 1) → s.isF (Reg.SHU_CH_STAT c) Fld.SHU_CH_STAT_SHADOW_VALID = false →
    Runs (.loop c) s (fun t => t.chState c = 2 ∧ t.chPc c = (s.chPc c + 1) % 2 ^ 32 ∧ (t.chan c).loop = none)) ∧
  -- a loop within a loop is ERR 3
  (∀ (c p n cnt back : Nat) (b : Bytes) (s : State), c < 32 → s.shuOn = true → s.chState c = 2 → b = s.chIns c →
    b = [0x30] ++ bytesLE 2 cnt ++ bytesLE 2 back ++ List.replicate 11 0 → cnt < 65536 → 1 ≤ back → back ≤ 4095 →
    (s.chan c).loop = some (p, n) → p ≠ s.chPc c → s.isF (Reg.SHU_CH_STAT c) Fld.SHU_CH_STAT_SHADOW_VALID = false →
    Runs (.loop c) s (fun t => t.chState c = 5 ∧ t.getF (Reg.SHU_CH_STAT c) Fld.SHU_CH_STAT_ERR = 3 ∧ t.chPc c = s.chPc c)) ∧
  -- WAIT on an event that is set proceeds, and with CONSUME clears it
  (∀ (c : Nat) (b : Bytes) (s : State), c < 32 → s.shuOn = true → s.chState c = 2 → b = s.chIns c → b = 0x41 :: 7 :: List.replicate 14 0 →
    s.event 7 = true → s.behind c 7 = false → Runs (.wait c) s (fun t => t.chState c = 2 ∧ t.chPc c = (s.chPc c + 1) % 2 ^ 32 ∧
    t.event 7 = false ∧ (∀ d, d < 32 → d ≠ c → t.chState d = s.chState d))) ∧
  -- on one that is clear the channel waits
  (∀ (c : Nat) (b : Bytes) (s : State), c < 32 → s.shuOn = true → s.chState c = 2 → b = s.chIns c → b = 0x40 :: 7 :: List.replicate 14 0 →
    s.event 7 = false → Runs (.wait c) s (fun t => t.chState c = 3 ∧ t.chPc c = s.chPc c ∧ (∀ d, d < 32 → d ≠ c →
    t.chState d = s.chState d))) ∧
  -- a WAIT whose TIMEOUT passes is ERR 4
  (∀ (c : Nat) (b : Bytes) (s : State), c < 32 → s.shuOn = true → s.chState c = 3 → b = s.chIns c → insOp b = 4 → u32 b 4 ≠ 0 →
    s.event (u8 b 1) = false → Runs (.waitTimeout c) s (fun t => t.chState c = 5 ∧ t.getF (Reg.SHU_CH_STAT c) Fld.SHU_CH_STAT_ERR = 4 ∧
    t.chPc c = s.chPc c ∧ (∀ d, d < 32 → d ≠ c → t.chState d = s.chState d))) ∧
  -- a WAIT without TIMEOUT waits on
  (∀ (c : Nat) (b : Bytes) (s : State), c < 32 → s.shuOn = true → s.chState c = 3 → b = s.chIns c → insOp b = 4 → u32 b 4 = 0 →
    Runs (.waitTimeout c) s (fun t => t.chState c = 3 ∧ t.chPc c = s.chPc c))

/-- MOVE, MOVEC and STAMP move exactly their bytes, and stop on what they may not do. Rests on R399, R400, R402, R404, R405. Clauses,
each with the command it is about and what its completion leaves. -/
def Obligations.ShuttleMovesData : Prop :=
  -- MOVE from DRAM to the Shuttle SRAM copies LEN bytes and changes no other byte
  (∀ (c : Nat) (b : Bytes) (s : State), c < 32 → s.shuOn = true → s.chState c = 2 → b = s.chIns c → insOp b = 1 → insFlags b = 0 →
    u24 b 1 ≠ 0 → spaceOf (un b 4 6) = 0 → spaceOf (un b 10 6) = 1 → un b 4 6 + u24 b 1 ≤ 2 ^ 36 →
    spaceOff (un b 10 6) + u24 b 1 ≤ 0x80000 → Runs (.move c) s (fun t => t.chState c = 2 ∧ t.chPc c = (s.chPc c + 1) % 2 ^ 32 ∧
    t.sramRd (spaceOff (un b 10 6)) (u24 b 1) = s.rdMem (un b 4 6) (u24 b 1) ∧
    (∀ a, a < spaceOff (un b 10 6) ∨ spaceOff (un b 10 6) + u24 b 1 ≤ a → t.sramRd a 1 = s.sramRd a 1) ∧ t.dram = s.dram ∧ (∀ d, d < 32 →
    d ≠ c → t.chState d = s.chState d))) ∧
  -- MOVE from the SRAM to DRAM likewise
  (∀ (c : Nat) (b : Bytes) (s : State), c < 32 → s.shuOn = true → s.chState c = 2 → b = s.chIns c → insOp b = 1 → insFlags b = 0 →
    u24 b 1 ≠ 0 → spaceOf (un b 4 6) = 1 → spaceOf (un b 10 6) = 0 → spaceOff (un b 4 6) + u24 b 1 ≤ 0x80000 →
    un b 10 6 + u24 b 1 ≤ 2 ^ 36 → Runs (.move c) s (fun t => t.chState c = 2 ∧ t.chPc c = (s.chPc c + 1) % 2 ^ 32 ∧
    t.rdMem (un b 10 6) (u24 b 1) = s.sramRd (spaceOff (un b 4 6)) (u24 b 1) ∧ (∀ a, a < un b 10 6 ∨ un b 10 6 + u24 b 1 ≤ a →
    t.rdByte a = s.rdByte a) ∧ t.shu.sram = s.shu.sram)) ∧
  -- a MOVE of no bytes is ERR 1
  (∀ (c : Nat) (b : Bytes) (s : State), c < 32 → s.shuOn = true → s.chState c = 2 → b = s.chIns c → insOp b = 1 → u24 b 1 = 0 →
    Runs (.move c) s (fun t => t.chState c = 5 ∧ t.getF (Reg.SHU_CH_STAT c) Fld.SHU_CH_STAT_ERR = 1 ∧ t.chPc c = s.chPc c ∧
    t.dram = s.dram)) ∧
  -- a transmit queue is no source: ERR 2
  (∀ (c : Nat) (b : Bytes) (s : State), c < 32 → s.shuOn = true → s.chState c = 2 → b = s.chIns c → insOp b = 1 → insFlags b ≤ 1 →
    u24 b 1 ≠ 0 → spaceOf (un b 4 6) = 2 → Runs (.move c) s (fun t => t.chState c = 5 ∧ t.getF (Reg.SHU_CH_STAT c) Fld.SHU_CH_STAT_ERR = 2 ∧
    t.chPc c = s.chPc c ∧ t.dram = s.dram)) ∧
  -- MOVEC with RESET moves its bytes, and SHU_CH_CHK shows their CRC-32C
  (∀ (c : Nat) (b : Bytes) (s : State), c < 32 → s.shuOn = true → s.chState c = 2 → b = s.chIns c → insOp b = 2 → insFlags b = 4 →
    u24 b 1 ≠ 0 → spaceOf (un b 4 6) = 0 → spaceOf (un b 10 6) = 1 → un b 4 6 + u24 b 1 ≤ 2 ^ 36 →
    spaceOff (un b 10 6) + u24 b 1 ≤ 0x80000 → Runs (.movec c) s (fun t => t.chState c = 2 ∧ t.chPc c = (s.chPc c + 1) % 2 ^ 32 ∧
    t.sramRd (spaceOff (un b 10 6)) (u24 b 1) = s.rdMem (un b 4 6) (u24 b 1) ∧
    t.num (Reg.SHU_CH_CHK c) = crc32c (s.rdMem (un b 4 6) (u24 b 1)) % 2 ^ 32 ∧ (t.chan c).chk = some (0, s.rdMem (un b 4 6) (u24 b 1)))) ∧
  -- without RESET and without a running check value it is ERR 5
  (∀ (c : Nat) (b : Bytes) (s : State), c < 32 → s.shuOn = true → s.chState c = 2 → b = s.chIns c → insOp b = 2 → insFlags b = 0 →
    u24 b 1 ≠ 0 → spaceOk (un b 4 6) (u24 b 1) false = true → spaceOk (un b 10 6) (u24 b 1) true = true → (s.chan c).chk = none →
    Runs (.movec c) s (fun t => t.chState c = 5 ∧ t.getF (Reg.SHU_CH_STAT c) Fld.SHU_CH_STAT_ERR = 5 ∧ t.chPc c = s.chPc c ∧
    t.dram = s.dram)) ∧
  -- STAMP stores the schedule count in four bytes of DRAM
  (∀ (c a : Nat) (b : Bytes) (s : State), c < 32 → s.shuOn = true → s.chState c = 2 → b = s.chIns c →
    b = [0x60, 0, 0, 0] ++ bytesLE 6 a ++ List.replicate 6 0 → a + 4 ≤ 2 ^ 36 → Runs (.stamp c) s (fun t => t.chState c = 2 ∧
    t.chPc c = (s.chPc c + 1) % 2 ^ 32 ∧ t.rdMem a 4 = bytesLE 4 s.now ∧ (∀ x, x < a ∨ a + 4 ≤ x → t.rdByte x = s.rdByte x))) ∧
  -- it has no other destination: ERR 2
  (∀ (c a : Nat) (b : Bytes) (s : State), c < 32 → s.shuOn = true → s.chState c = 2 → b = s.chIns c →
    b = [0x60, 0, 0, 0] ++ bytesLE 6 a ++ List.replicate 6 0 → a < 2 ^ 48 → 2 ≤ spaceOf a → Runs (.stamp c) s (fun t => t.chState c = 5 ∧
    t.getF (Reg.SHU_CH_STAT c) Fld.SHU_CH_STAT_ERR = 2 ∧ t.chPc c = s.chPc c ∧ t.dram = s.dram))

/-- Channels armed, started, aborted, stopped by a bus error and resumed; program pointers; event flags. Rests on R396, R398, R408,
R409, R410. Clauses, each with the command it is about and what its completion leaves. -/
def Obligations.ShuttleChannelsAreControlled : Prop :=
  -- GO starts an idle channel at its active pointer
  (∀ (c : Nat) (s : State), c < 32 → s.chState c = 0 → Runs (.shuttleGo c) s (fun t => t.chState c = 2 ∧
    t.chPc c = (s.chan c).active % 2 ^ 32 ∧ t.getF (Reg.SHU_CH_STAT c) Fld.SHU_CH_STAT_ERR = 0 ∧ (∀ d, d < 32 → d ≠ c →
    t.chState d = s.chState d))) ∧
  -- and does nothing to any other
  (∀ (c : Nat) (s : State), s.chState c ≠ 0 → Runs (.shuttleGo c) s (fun t => t = s)) ∧
  -- ABORT makes a channel idle and closes its packet
  (∀ (c : Nat) (s : State), c < 32 → s.chState c ≠ 0 → Runs (.shuttleAbort c) s (fun t => t.chState c = 0 ∧ (t.chan c).openPort = none ∧
    (t.chan c).loop = none ∧ t.chPc c = (s.chan c).active % 2 ^ 32 ∧ (∀ d, d < 32 → d ≠ c → t.chState d = s.chState d))) ∧
  -- an idle channel is armed on its trigger
  (∀ (c trig : Nat) (s : State), c < 32 → trig < 72 → s.chState c = 0 → Runs (.shuttleArm c trig) s (fun t => t.chState c = 1 ∧
    t.getF (Reg.SHU_CH_CTL c) Fld.SHU_CH_CTL_TRIG = trig ∧ (∀ d, d < 32 → d ≠ c → t.chState d = s.chState d))) ∧
  -- the trigger is consumed, and the channel starts
  (∀ (c e : Nat) (s : State), c < 32 → s.shuOn = true → s.chState c = 1 → s.getF (Reg.SHU_CH_CTL c) Fld.SHU_CH_CTL_TRIG = e → e < 72 →
    s.event e = true → s.behind c e = false → Runs (.shuttleTriggerStart c) s (fun t => t.chState c = 2 ∧ t.event e = false ∧
    t.chPc c = (s.chan c).active % 2 ^ 32 ∧ (∀ d, d < 32 → d ≠ c → t.chState d = s.chState d))) ∧
  -- EN at 0 aborts every channel
  (∀ (s : State), Runs (.shuttleDisable) s (fun t => t.isF Reg.SHU_CTL Fld.SHU_CTL_EN = false ∧ (∀ c, c < 32 → t.chState c = 0))) ∧
  -- a pointer written during a hand-over is marked late, and no other channel changes
  (∀ (c v : Nat) (s : State), c < 32 → s.chState c = 2 →
    Runs (.progWrite c v) s (fun t => t.isF (Reg.SHU_CH_STAT c) Fld.SHU_CH_STAT_SHADOW_LATE = (s.chan c).handing ∧ (∀ d, d < 32 → d ≠ c →
    t.chState d = s.chState d))) ∧
  -- a failed access stops every running channel and is latched, counted and recorded
  (∀ (kind space addr : Nat) (write : Bool) (s : State), s.isF Reg.SHU_CTL Fld.SHU_CTL_EN = true →
    s.isF Reg.SHU_STAT Fld.SHU_STAT_BUSERR = false → s.chState 3 = 2 → s.smp.fifo.length < 256 →
    Runs (.shuttleBusError kind space addr write) s (fun t => t.isF Reg.SHU_STAT Fld.SHU_STAT_BUSERR = true ∧ (∀ c, c < 32 →
    (s.chState c = 2 ∨ s.chState c = 3) → t.chState c = 4) ∧ (∀ c, c < 32 → s.chState c ≠ 2 → s.chState c ≠ 3 → t.chState c = s.chState c) ∧
    t.num Reg.SHU_ERR_LO = addr % 2 ^ 32 ∧ t.num Reg.SHU_BUSERR_CNT = min (s.num Reg.SHU_BUSERR_CNT + 1) 0xFFFFFFFF ∧
    Logged s t 0x7100 4 (blockPath 7 5) (bytesLE 4 (t.num Reg.SHU_ERR_LO) ++ bytesLE 4 (t.num Reg.SHU_ERR_HI)))) ∧
  -- RESUME lets stopped channels take up their instruction again
  (∀ (s : State), s.isF Reg.SHU_STAT Fld.SHU_STAT_BUSERR = true →
    Runs (.shuttleResume) s (fun t => t.isF Reg.SHU_STAT Fld.SHU_STAT_BUSERR = false ∧ (∀ c, c < 32 → s.chState c = 4 → t.chState c = 2) ∧
    (∀ c, c < 32 → t.chPc c = s.chPc c))) ∧
  -- an event is set
  (∀ (e : Nat) (s : State), e < 72 → s.event e = false → Runs (.eventSet e) s (fun t => t.event e = true ∧
    t.num Reg.SHU_EVT_LOST_CNT = s.num Reg.SHU_EVT_LOST_CNT)) ∧
  -- there is no event from 72 on
  (∀ (e : Nat) (s : State), 72 ≤ e → Runs (.eventSet e) s (fun t => t = s)) ∧
  -- an event is cleared alone
  (∀ (e : Nat) (s : State), e < 72 → Runs (.eventClear e) s (fun t => t.event e = false ∧ (∀ f, f < 72 → f ≠ e → t.event f = s.event f)))

/-- Sources latched, claimed, completed, flushed and held off; cores that wake; MSI-X unmasked. Rests on R411, R412, R413, R415, R416,
R417, R418, R419, R420. Clauses, each with the command it is about and what its completion leaves. -/
def Obligations.InterruptsAreClaimedAndCompleted : Prop :=
  -- a claim answers the best source with its priority, puts it on the target's stack, clears its latch and starts the hold-off of its group
  (∀ (g init n : Nat) (s : State), g < 21 → tgtOpen g init = true → s.best g = some n →
    Runs (.intClaim g init) s (fun t => t.busData = word (s.srcPri n * 2 ^ 16 + n) ∧ t.stack g = (n, s.srcPri n) :: s.stack g ∧
    (t.intr.latch = s.intr.latch.filter (fun x => decide (x ≠ n))) ∧
    t.holdLeft (n / 16) = s.getF (Reg.INT_HOLD (n / 16)) Fld.INT_HOLD_HOLD ∧ t.claimed n = true ∧ (∀ h, h < 21 → h ≠ g →
    t.stack h = s.stack h))) ∧
  -- without an eligible source it answers 0x3FF and changes nothing
  (∀ (g init : Nat) (s : State), g < 21 → tgtOpen g init = true → s.best g = none → Runs (.intClaim g init) s (fun t => t.busData = 0x3FF ∧
    t.intr = s.intr)) ∧
  -- the registers of target 0 are hoop-only
  (∀ (init : Nat) (s : State), isHoop init = false → Runs (.intClaim 0 init) s (fun t => t.busData = 0 ∧ t.intr = s.intr ∧
    t.num Reg.CHIP_FW_VIOL_CNT = min (s.num Reg.CHIP_FW_VIOL_CNT + 1) 0xFFFFFFFF)) ∧
  -- a completion of the top of the stack takes it off
  (∀ (g init v p : Nat) (r : List (Nat × Nat)) (s : State), g < 21 → tgtOpen g init = true → v < 512 → s.stack g = (v, p) :: r →
    Runs (.intComplete g init v) s (fun t => t.stack g = r ∧ (∀ h, h < 21 → h ≠ g → t.stack h = s.stack h) ∧
    t.isF (Reg.INT_TGT_STAT g) Fld.INT_TGT_STAT_STACK_FAULT = s.isF (Reg.INT_TGT_STAT g) Fld.INT_TGT_STAT_STACK_FAULT)) ∧
  -- any other leaves the stack, and is a stack fault with a record
  (∀ (g init v : Nat) (s : State), g < 21 → tgtOpen g init = true → v < 512 →
    ((s.stack g).head?.map (fun (x : Nat × Nat) => x.1) ≠ some v) → s.smp.fifo.length < 256 →
    Runs (.intComplete g init v) s (fun t => t.intr.stks = s.intr.stks ∧ t.isF (Reg.INT_TGT_STAT g) Fld.INT_TGT_STAT_STACK_FAULT = true ∧
    Logged s t 0x7101 4 (blockPath 7 6) (g :: bytesLE 2 v))) ∧
  -- FLUSH empties the stack of its target
  (∀ (g init : Nat) (s : State), g < 21 → tgtOpen g init = true → Runs (.intFlush g init) s (fun t => t.stack g = [] ∧ (∀ h, h < 21 →
    h ≠ g → t.stack h = s.stack h) ∧ t.intr.latch = s.intr.latch)) ∧
  -- the group is eligible again
  (∀ (g : Nat) (s : State), Runs (.holdOffExpire g) s (fun t => t.holdLeft g = 0 ∧ t.intr.stks = s.intr.stks ∧ (∀ h, h < 32 → h ≠ g →
    t.holdLeft h = s.holdLeft h))) ∧
  -- a core with an enabled source that waits does not sleep
  (∀ (g : Nat) (wfi : Bool) (s : State), g < 5 → s.wakes g = true → Runs (.coreWake g wfi) s (fun t => t.intr.sleep.contains g = false ∧
    t.intr.stks = s.intr.stks)) ∧
  -- with none, WFI lets it sleep
  (∀ (g : Nat) (s : State), g < 5 → s.wakes g = false → Runs (.coreWake g true) s (fun t => t.intr.sleep.contains g = true ∧ (∀ h, h < 5 →
    h ≠ g → t.intr.sleep.contains h = s.intr.sleep.contains h))) ∧
  -- the latch of a software source is set
  (∀ (n : Nat) (s : State), 160 ≤ n → n < 512 → Runs (.intSwSet n) s (fun t => t.pend n = true ∧ t.intr.stks = s.intr.stks)) ∧
  -- hardware sources cannot be set
  (∀ (n : Nat) (s : State), n < 160 → Runs (.intSwSet n) s (fun t => t = s)) ∧
  -- and cleared
  (∀ (n : Nat) (s : State), 160 ≤ n → n < 512 → Runs (.intSwClear n) s (fun t => t.pend n = false ∧ t.intr.stks = s.intr.stks)) ∧
  -- a message withheld by the mask of its vector goes out when the mask is cleared
  (∀ (v : Nat) (s : State), v < 16 → s.intr.fnMask = false → s.tgtMask (5 + v) = false → s.intr.msixPend.contains v = true →
    s.intr.up.contains v = true → (s.best (5 + v)).isSome = true →
    Runs (.msixUnmask v) s (fun t => (t.out.drop s.out.length).contains (.msix v) = true ∧ t.intr.msixPend.contains v = false ∧
    t.intr.vecMask.contains v = false))

/-- COSEM requests applied, denied or refused whole. Rests on R355, R390, R392, R393, R394. Clauses, each with the command it is about
and what its completion leaves. -/
def Obligations.CosemRequestsRespectRightsAndConflicts : Prop :=
  -- an operator sets the clock
  (∀ (n w carrier v : Nat) (s : State), s.cosemMay n w 0x10000FF 1 = true → s.upd.job = none → v < 2 ^ 48 →
    Runs (.cosemRequest n w carrier [(0x10000FF, 0, 1, v)]) s (fun t => t.time.tai = v * 2 ^ 32 ∧ t.taiValid = true ∧ t.busData = 0 ∧
    t.out = s.out ++ [.cosem n 0 []] ∧ t.num Reg.TU_SET_CNT = min (s.num Reg.TU_SET_CNT + 1) 0xFFFFFFFF)) ∧
  -- an item that the role does not allow is denied with code 3 and counted, and has no effect
  (∀ (n w carrier obj idx a v : Nat) (s : State), s.cosemMay n w obj a = false →
    Runs (.cosemRequest n w carrier [(obj, idx, a, v)]) s (fun t => t.num Reg.UPL_DENIED_CNT = min (s.num Reg.UPL_DENIED_CNT + 1) 0xFFFFFFFF ∧
    t.busData = 3 ∧ t.out = s.out ++ [.cosem n 3 []] ∧ t.tot = s.tot ∧ t.time = s.time ∧ t.sto = s.sto ∧ t.fab = s.fab ∧ t.upd = s.upd)) ∧
  -- one item that conflicts refuses the whole request with code 2: nothing of it takes effect
  (∀ (n w carrier : Nat) (items : List (Nat × Nat × Nat × Nat)) (s : State), (items.any (fun (i : Nat × Nat × Nat × Nat) => s.cosemMay n w i.1 i.2.2.1 && decide (s.cosemConflict carrier i ≠ 0)) = true) →
    Runs (.cosemRequest n w carrier items) s (fun t => t.num Reg.UPL_CONFLICT_CNT = min (s.num Reg.UPL_CONFLICT_CNT + 1) 0xFFFFFFFF ∧
    t.isF Reg.UPL_INT_STAT Fld.UPL_INT_STAT_CONFLICT = true ∧ t.busData = 2 ∧ t.tot = s.tot ∧ t.time = s.time ∧ t.sto = s.sto ∧
    t.fab = s.fab ∧ t.upd = s.upd)) ∧
  -- a read that is allowed answers the attribute of the object that its OBIS code names, and changes nothing
  (∀ (n w carrier obj idx v : Nat) (s : State), s.cosemMay n w obj 0 = true →
    Runs (.cosemRequest n w carrier [(obj, idx, 0, v)]) s (fun t => t = { s with busData := 0, out := s.out ++ [.cosem n 0 (s.cosemValue obj idx)] }))

/-- Needlecase operations: what each leaves under way, what it may not do. Rests on R427, R429, R430, R431, R432, R433, R436, R439,
R445. Clauses, each with the command it is about and what its completion leaves. -/
def Obligations.NeedlecaseOperationsStart : Prop :=
  -- INFO will show attributes and count, and no key
  (∀ (n : Nat) (s : State), n < 512 → s.isF Reg.NDL_CMD Fld.NDL_CMD_BUSY = false → s.noGrant 8 1 = false → s.hoop.debugOpen = false →
    Runs (.ndlInfo n) s (fun t => t.isF Reg.NDL_CMD Fld.NDL_CMD_BUSY = true ∧
    (t.hoop.op = some { op := 1, slot := n, res := bytesLE 4 (s.ndl n).attr ++ bytesLE 4 (s.ndl n).count }) ∧
    t.hoop.slots = s.hoop.slots)) ∧
  -- GO while BUSY is ignored
  (∀ (n : Nat) (s : State), s.isF Reg.NDL_CMD Fld.NDL_CMD_BUSY = true → Runs (.ndlInfo n) s (fun t => t = s)) ∧
  -- GENERATE puts a key of KIND's length into a free general slot and no other
  (∀ (n : Nat) (s : State), n < 512 → s.isF Reg.NDL_CMD Fld.NDL_CMD_BUSY = false → s.noGrant 8 1 = false → s.hoop.debugOpen = false →
    s.ndlTarget n (attrTaken (s.num Reg.NDL_ATTR)) (s.getF Reg.NDL_COUNT Fld.NDL_COUNT_COUNT) true = 0 →
    Runs (.ndlGenerate n) s (fun t => t.isF Reg.NDL_CMD Fld.NDL_CMD_BUSY = true ∧ (t.ndl n).attr = 2 ^ 31 + attrTaken (s.num Reg.NDL_ATTR) ∧
    (t.ndl n).key.length = kindLen (attrKind (attrTaken (s.num Reg.NDL_ATTR))) ∧ (∀ m, m < 512 → m ≠ n → t.ndl m = s.ndl m) ∧
    (t.hoop.op = some { op := 2, slot := n }))) ∧
  -- it never writes a slot below 8: code 5
  (∀ (n : Nat) (s : State), n < 8 → s.isF Reg.NDL_CMD Fld.NDL_CMD_BUSY = false → s.noGrant 8 1 = false → s.hoop.debugOpen = false →
    Runs (.ndlGenerate n) s (fun t => (t.hoop.op.map (fun (o : NdlOp) => o.code) = some 5) ∧ t.hoop.slots = s.hoop.slots)) ∧
  -- UNWRAP loads a master key only from a blob whose tag checks under the wrapping slot, and drops derived keys of its domain
  (∀ (n w a : Nat) (s : State), n < 8 → w < 512 → a = attrTaken (s.num Reg.NDL_ATTR) → s.isF Reg.NDL_CMD Fld.NDL_CMD_BUSY = false →
    s.noGrant 8 1 = false → s.hoop.debugOpen = false → s.ndlTarget n a (s.getF Reg.NDL_COUNT Fld.NDL_COUNT_COUNT) false = 0 →
    s.ndlUse w 6 = 0 → attrKind a ≠ 5 → s.ndlLen = 28 + kindLen (attrKind a) → s.ndlRoom (28 + kindLen (attrKind a)) = true →
    s.pins.pfail = false → n ≠ w →
    Runs (.ndlUnwrap n w) s (fun t => (gcmOpen 16 (s.ndl w).key ((s.rdMem s.ndlBuf (28 + kindLen (attrKind a))).take 12) (bytesLE 4 a) (slice (s.rdMem s.ndlBuf (28 + kindLen (attrKind a))) 12 (kindLen (attrKind a))) (slice (s.rdMem s.ndlBuf (28 + kindLen (attrKind a))) (12 + kindLen (attrKind a)) 16) = none →
    t.hoop.op.map (fun (o : NdlOp) => o.code) = some 7 ∧ t.hoop.slots = s.hoop.slots) ∧
    ((gcmOpen 16 (s.ndl w).key ((s.rdMem s.ndlBuf (28 + kindLen (attrKind a))).take 12) (bytesLE 4 a) (slice (s.rdMem s.ndlBuf (28 + kindLen (attrKind a))) 12 (kindLen (attrKind a))) (slice (s.rdMem s.ndlBuf (28 + kindLen (attrKind a))) (12 + kindLen (attrKind a)) 16)).all (fun p => decide ((t.ndl n).key = p ∧
    (t.ndl n).attr = 2 ^ 31 + a ∧ t.hoop.op.map (fun (o : NdlOp) => (o.code, o.vault)) = some (0, attrBit a 18))) = true) ∧
    (∀ e ∈ t.ink.kc, e ∈ s.ink.kc))) ∧
  -- DESTROY leaves no key in the slot; one that reads back wrong is broken
  (∀ (n : Nat) (bad : Bool) (s : State), n < 512 → s.isF Reg.NDL_CMD Fld.NDL_CMD_BUSY = false → s.noGrant 8 1 = false →
    s.hoop.debugOpen = false → (s.ndl n).broken = false → attrBit (s.ndl n).attr 19 = false → n ≠ 8 → n ≠ 11 → n ≠ 12 →
    attrBit (s.ndl n).attr 31 = true → s.pins.pfail = false →
    Runs (.ndlDestroy n bad) s (fun t => t.isF Reg.NDL_CMD Fld.NDL_CMD_BUSY = true ∧ (t.ndl n).key = [] ∧ (t.ndl n).broken = bad ∧
    (t.ndl n).attr = 0 ∧ (∀ m, m < 512 → m ≠ n → t.ndl m = s.ndl m))) ∧
  -- a fixed slot is not destroyed: code 12
  (∀ (bad : Bool) (s : State), s.isF Reg.NDL_CMD Fld.NDL_CMD_BUSY = false → s.noGrant 8 1 = false → s.hoop.debugOpen = false →
    (s.ndl 8).broken = false → Runs (.ndlDestroy 8 bad) s (fun t => (t.hoop.op.map (fun (o : NdlOp) => o.code) = some 12) ∧
    t.hoop.slots = s.hoop.slots)) ∧
  -- SIGN will put slot 8's signature of the message behind it
  (∀ (s : State), s.isF Reg.NDL_CMD Fld.NDL_CMD_BUSY = false → s.noGrant 8 1 = false → s.hoop.debugOpen = false → s.ndlUse 8 5 = 0 →
    s.ndlLen ≠ 0 → s.ndlLen ≤ 65536 → s.ndlRoom (s.ndlLen + 17088) = true →
    Runs (.ndlSign 8) s (fun t => t.isF Reg.NDL_CMD Fld.NDL_CMD_BUSY = true ∧
    (t.hoop.op.map (fun (o : NdlOp) => (o.code, o.addr)) = some (0, s.ndlBuf + s.ndlLen)) ∧
    (t.hoop.op = some { op := 5, slot := 8, addr := s.ndlBuf + s.ndlLen, res := padTo 17088 (Config.slhSign (s.ndl 8).key (s.rdMem s.ndlBuf s.ndlLen)) }) ∧
    t.hoop.slots = s.hoop.slots)) ∧
  -- no other slot signs: code 5
  (∀ (n : Nat) (s : State), n < 512 → n ≠ 8 → s.isF Reg.NDL_CMD Fld.NDL_CMD_BUSY = false → s.noGrant 8 1 = false →
    s.hoop.debugOpen = false → Runs (.ndlSign n) s (fun t => (t.hoop.op.map (fun (o : NdlOp) => o.code) = some 5) ∧
    t.hoop.slots = s.hoop.slots)) ∧
  -- HMAC will show the tag over the data
  (∀ (n : Nat) (s : State), n < 512 → s.isF Reg.NDL_CMD Fld.NDL_CMD_BUSY = false → s.noGrant 8 1 = false → s.hoop.debugOpen = false →
    s.ndlUse n 4 = 0 → s.ndlRoom s.ndlLen = true → attrBit (s.ndl n).attr 16 = false →
    Runs (.ndlHmac n) s (fun t => t.isF Reg.NDL_CMD Fld.NDL_CMD_BUSY = true ∧
    (t.hoop.op.map (fun (o : NdlOp) => (o.code, o.res)) = some (0, hmac (s.ndl n).key (s.rdMem s.ndlBuf s.ndlLen))) ∧
    t.hoop.slots = s.hoop.slots)) ∧
  -- each use of a limited slot lowers its count; the last use destroys it at the end
  (∀ (n : Nat) (s : State), n < 512 → s.isF Reg.NDL_CMD Fld.NDL_CMD_BUSY = false → s.noGrant 8 1 = false → s.hoop.debugOpen = false →
    s.ndlUse n 4 = 0 → s.ndlRoom s.ndlLen = true → attrBit (s.ndl n).attr 16 = true →
    Runs (.ndlHmac n) s (fun t => (t.ndl n).count = (s.ndl n).count - 1 ∧ (t.ndl n).key = (s.ndl n).key ∧ (∀ m, m < 512 → m ≠ n →
    t.ndl m = s.ndl m) ∧ (t.hoop.op.map (fun (o : NdlOp) => o.spent) = some (if (s.ndl n).count = 1 then some n else none)))) ∧
  -- QUOTE under an ATTEST slot will be the quote and its tag
  (∀ (w : Nat) (s : State), w < 511 → s.isF Reg.NDL_CMD Fld.NDL_CMD_BUSY = false → s.noGrant 8 1 = false → s.hoop.debugOpen = false →
    s.ndlUse w 1 = 0 → s.ndlLen ≤ 32 → s.ndlRoom 288 = true → Runs (.ndlQuote w) s (fun t => t.isF Reg.NDL_CMD Fld.NDL_CMD_BUSY = true ∧
    (t.hoop.op.map (fun (o : NdlOp) => (o.code, o.res)) = some (0, s.quoteBody (s.ndlData 8) s.ndlLen ++ hmac (s.ndl w).key (s.quoteBody (s.ndlData 8) s.ndlLen))) ∧
    (t.hoop.op.map (fun (o : NdlOp) => o.addr) = some s.ndlBuf))) ∧
  -- PUBKEY will give slot 8's public key
  (∀ (s : State), s.isF Reg.NDL_CMD Fld.NDL_CMD_BUSY = false → s.noGrant 8 1 = false → s.hoop.debugOpen = false → s.ndlRoom 32 = true →
    Runs (.ndlPubkey 8) s (fun t => t.isF Reg.NDL_CMD Fld.NDL_CMD_BUSY = true ∧
    (t.hoop.op = some { op := 8, slot := 8, addr := s.ndlBuf, res := padTo 32 (Config.slhPublic (s.ndl 8).key) }) ∧
    t.hoop.slots = s.hoop.slots)) ∧
  -- no other slot but 11 has one: code 5
  (∀ (n : Nat) (s : State), n < 512 → n ≠ 8 → n ≠ 11 → s.isF Reg.NDL_CMD Fld.NDL_CMD_BUSY = false → s.noGrant 8 1 = false →
    s.hoop.debugOpen = false → Runs (.ndlPubkey n) s (fun t => (t.hoop.op.map (fun (o : NdlOp) => o.code) = some 5) ∧
    t.hoop.slots = s.hoop.slots)) ∧
  -- DECAP puts the shared secret into a free general slot
  (∀ (n : Nat) (s : State), n < 512 → s.isF Reg.NDL_CMD Fld.NDL_CMD_BUSY = false → s.noGrant 8 1 = false → s.hoop.debugOpen = false →
    s.ndlTarget n (attrTaken (s.num Reg.NDL_ATTR)) (s.getF Reg.NDL_COUNT Fld.NDL_COUNT_COUNT) true = 0 →
    attrKind (attrTaken (s.num Reg.NDL_ATTR)) = 2 → s.ndlRoom 1088 = true →
    Runs (.ndlDecap n) s (fun t => t.isF Reg.NDL_CMD Fld.NDL_CMD_BUSY = true ∧
    (t.ndl n).key = padTo 32 (Config.kemDecap (s.ndl 11).key (s.rdMem s.ndlBuf 1088)) ∧ (∀ m, m < 512 → m ≠ n → t.ndl m = s.ndl m)))

/-- Needlecase operations end; counted settings change once, refused without count; the vault and the change log. Rests on R432, R433,
R434, R437, R438, R442, R443, R444, R445, R446. Clauses, each with the command it is about and what its completion leaves. -/
def Obligations.NeedlecaseAndCountedChangesEnd : Prop :=
  -- the result of INFO stands in its registers, and the operation is DONE
  (∀ (vaultFail bad : Bool) (o : NdlOp) (s : State), s.hoop.op = some o → o.code = 0 → o.vault = false → o.spent = none → o.op = 1 →
    Runs (.ndlOpComplete vaultFail bad) s (fun t => t.num Reg.NDL_ATTR = u32 o.res 0 % 2 ^ 32 ∧ t.num Reg.NDL_COUNT = u32 o.res 4 % 2 ^ 32 ∧
    t.hoop.slots = s.hoop.slots ∧ t.isF Reg.NDL_STAT Fld.NDL_STAT_DONE = true ∧ t.getF Reg.NDL_STAT Fld.NDL_STAT_CODE = 0 ∧
    t.isF Reg.NDL_CMD Fld.NDL_CMD_BUSY = false ∧ t.hoop.op = none)) ∧
  -- a refused one ends with ERR and its code, and has no effect
  (∀ (vaultFail bad : Bool) (o : NdlOp) (s : State), s.hoop.op = some o → o.code ≠ 0 → o.code < 16 →
    Runs (.ndlOpComplete vaultFail bad) s (fun t => t.isF Reg.NDL_STAT Fld.NDL_STAT_ERR = true ∧
    t.getF Reg.NDL_STAT Fld.NDL_STAT_CODE = o.code ∧ t.isF Reg.NDL_CMD Fld.NDL_CMD_BUSY = false ∧ t.hoop.slots = s.hoop.slots ∧
    t.dram = s.dram)) ∧
  -- a slot whose last use this was is destroyed
  (∀ (vaultFail bad : Bool) (o : NdlOp) (n : Nat) (s : State), s.hoop.op = some o → o.code = 0 → o.vault = false → o.spent = some n →
    attrBit (s.ndl n).attr 18 = false → Runs (.ndlOpComplete vaultFail bad) s (fun t => (t.ndl n).key = [] ∧ (t.ndl n).broken = bad ∧
    t.isF Reg.NDL_STAT Fld.NDL_STAT_DONE = true ∧ t.getF Reg.NDL_STAT Fld.NDL_STAT_CODE = 0 ∧ t.isF Reg.NDL_CMD Fld.NDL_CMD_BUSY = false ∧
    t.hoop.op = none)) ∧
  -- one that writes the vault waits for the erase of its block
  (∀ (vaultFail bad : Bool) (o : NdlOp) (p : Nat) (s : State), s.hoop.op = some o → o.code = 0 → o.vault = true →
    s.hoop.vaultBusy = some p → Runs (.ndlOpComplete vaultFail bad) s (fun t => t = s)) ∧
  -- the older vault block is blank
  (∀ (p : Nat) (s : State), s.hoop.vaultBusy = some p → s.tbLost = false → Runs (.vaultEraseDone) s (fun t => t.hoop.vaultBusy = none ∧
    (∀ q, p ≤ q → q < p + 16 → t.norPage q = norBlank) ∧ t.isF Reg.NDL_STAT Fld.NDL_STAT_VAULT_BUSY = false)) ∧
  -- a new domain identity starts: derived keys and both vault blocks are gone before it is programmed
  (∀ (s : State), s.isF Reg.NDL_CNT_CMD Fld.NDL_CNT_CMD_BUSY = false → s.noGrant 8 2 = false → s.hoop.domainUsed < 4 →
    (((List.range 4).flatMap (fun k => bytesLE 4 (s.num (Reg.NDL_CNT_ARG k)))) ≠ List.replicate 16 0) →
    (((List.range 4).flatMap (fun k => bytesLE 4 (s.num (Reg.NDL_CNT_ARG k)))) ≠ s.hoop.domainId) → s.pins.pfail = false →
    Runs (.cntDomainIdentity) s (fun t => t.isF Reg.NDL_CNT_CMD Fld.NDL_CNT_CMD_BUSY = true ∧
    (t.hoop.cnt = some { setting := 1, arg := ((List.range 4).flatMap (fun k => bytesLE 4 (s.num (Reg.NDL_CNT_ARG k)))) }) ∧
    t.hoop.domainId = s.hoop.domainId ∧ t.ink.kc = [] ∧ t.norPage 0x3FE0 = norBlank ∧ t.norPage 0x3FF0 = norBlank)) ∧
  -- without count it is refused with code 1
  (∀ (s : State), s.isF Reg.NDL_CNT_CMD Fld.NDL_CNT_CMD_BUSY = false → s.noGrant 8 2 = false → 4 ≤ s.hoop.domainUsed →
    Runs (.cntDomainIdentity) s (fun t => t.isF Reg.NDL_CNT_STAT Fld.NDL_CNT_STAT_ERR = true ∧
    t.getF Reg.NDL_CNT_STAT Fld.NDL_CNT_STAT_CODE = 1 ∧ t.hoop = s.hoop)) ∧
  -- a raise of a floor starts
  (∀ (kind steps : Nat) (s : State), s.isF Reg.NDL_CNT_CMD Fld.NDL_CNT_CMD_BUSY = false → s.noGrant 8 2 = false → kind < 4 → 1 ≤ steps →
    steps ≤ 64 → s.hoop.floorUsed.getD kind 0 + steps ≤ 64 → s.pins.pfail = false →
    Runs (.cntRollbackFloor kind steps) s (fun t => t.isF Reg.NDL_CNT_CMD Fld.NDL_CNT_CMD_BUSY = true ∧
    (t.hoop.cnt = some { setting := 2, kind := kind, value := steps }) ∧ t.hoop.floors = s.hoop.floors)) ∧
  -- beyond the entries left it is refused with code 1
  (∀ (kind steps : Nat) (s : State), s.isF Reg.NDL_CNT_CMD Fld.NDL_CNT_CMD_BUSY = false → s.noGrant 8 2 = false → kind < 4 → steps < 256 →
    64 < s.hoop.floorUsed.getD kind 0 + steps → s.hoop.floorUsed.getD kind 0 ≤ 64 →
    Runs (.cntRollbackFloor kind steps) s (fun t => t.isF Reg.NDL_CNT_STAT Fld.NDL_CNT_STAT_ERR = true ∧
    t.getF Reg.NDL_CNT_STAT Fld.NDL_CNT_STAT_CODE = 1 ∧ t.hoop = s.hoop)) ∧
  -- a pair role starts to be programmed
  (∀ (role : Nat) (s : State), s.isF Reg.NDL_CNT_CMD Fld.NDL_CNT_CMD_BUSY = false → s.noGrant 8 2 = false → s.hoop.pairUsed < 2 → role ≤ 3 →
    s.getF Reg.CHIP_ID Fld.CHIP_ID_GRADE = 1 → s.pins.pfail = false →
    Runs (.cntPairRoleLock role) s (fun t => t.isF Reg.NDL_CNT_CMD Fld.NDL_CNT_CMD_BUSY = true ∧
    (t.hoop.cnt = some { setting := 3, value := role }) ∧ t.hoop.pairRole = s.hoop.pairRole)) ∧
  -- an AF1064-B refuses it with code 3 and a record
  (∀ (role : Nat) (s : State), s.isF Reg.NDL_CNT_CMD Fld.NDL_CNT_CMD_BUSY = false → s.noGrant 8 2 = false → s.hoop.pairUsed < 2 → role ≤ 3 →
    s.getF Reg.CHIP_ID Fld.CHIP_ID_GRADE = 0 → s.smp.fifo.length < 256 →
    Runs (.cntPairRoleLock role) s (fun t => t.isF Reg.NDL_CNT_STAT Fld.NDL_CNT_STAT_ERR = true ∧
    t.getF Reg.NDL_CNT_STAT Fld.NDL_CNT_STAT_CODE = 3 ∧ t.hoop = s.hoop ∧ Logged s t 0x0007 3 0x0FFF [])) ∧
  -- before debug opens, every slot is overwritten and derived keys are abandoned
  (∀ (s : State), s.isF Reg.NDL_CNT_CMD Fld.NDL_CNT_CMD_BUSY = false → s.noGrant 8 2 = false → s.hoop.debugUsed < 3 → s.pins.pfail = false →
    Runs (.cntDebugOpen) s (fun t => t.isF Reg.NDL_CNT_CMD Fld.NDL_CNT_CMD_BUSY = true ∧ (∀ n, n < 512 → (s.ndl n).broken = false →
    (t.ndl n).key = []) ∧ t.ink.kc = [] ∧ t.ink.deriv = [] ∧ t.hoop.debugOpen = s.hoop.debugOpen)) ∧
  -- a programmed raise lifts its floor alone
  (∀ (c : CntOp) (s : State), s.hoop.cnt = some c → c.setting = 2 → c.value ≤ s.cntLeft 2 c.kind → c.kind < s.hoop.floors.length →
    c.kind < s.hoop.floorUsed.length → Runs (.cntChangeDone false) s (fun t => t.floor c.kind = s.floor c.kind + c.value ∧
    t.cntUsed 2 c.kind = s.cntUsed 2 c.kind + c.value ∧ (∀ k, k ≠ c.kind → t.floor k = s.floor k) ∧
    t.isF Reg.NDL_CNT_STAT Fld.NDL_CNT_STAT_DONE = true ∧ t.isF Reg.NDL_CNT_CMD Fld.NDL_CNT_CMD_BUSY = false)) ∧
  -- a readback that fails spends the entries and leaves the floor: code 5
  (∀ (c : CntOp) (s : State), s.hoop.cnt = some c → c.setting = 2 → c.value ≤ s.cntLeft 2 c.kind → c.kind < s.hoop.floorUsed.length →
    Runs (.cntChangeDone true) s (fun t => t.hoop.floors = s.hoop.floors ∧ t.cntUsed 2 c.kind = s.cntUsed 2 c.kind + c.value ∧
    t.getF Reg.NDL_CNT_STAT Fld.NDL_CNT_STAT_CODE = 5 ∧ t.isF Reg.NDL_CNT_STAT Fld.NDL_CNT_STAT_ERR = true)) ∧
  -- debug is open once its count is spent
  (∀ (c : CntOp) (s : State), s.hoop.cnt = some c → c.setting = 4 → s.hoop.debugUsed < 3 →
    Runs (.cntChangeDone false) s (fun t => t.hoop.debugOpen = true ∧ t.hoop.debugUsed = s.hoop.debugUsed + 1 ∧ t.hoop.cnt = none)) ∧
  -- the log is counted anew, records that it lacks are appended, and no setting changes
  (∀ (s : State), s.phase = 6 → Runs (.changeLogReconcile) s (fun t => t.hoop = s.hoop ∧
    s.chgCount ≤ t.getF Reg.NDL_CNT_LOG_PROD Fld.NDL_CNT_LOG_PROD_COUNT)) ∧
  -- before PHASE 6 nothing happens
  (∀ (s : State), s.phase ≠ 6 → Runs (.changeLogReconcile) s (fun t => t = s))

/-- VERIFY, ACTIVATE, COMMIT and REVERT of sets, stitch relay, and recovery mode. Rests on R454, R458, R459, R460, R461, R462, R465,
R466, R467, R468. Clauses, each with the command it is about and what its completion leaves. -/
def Obligations.UpdatesAreVerifiedActivatedAndRelayed : Prop :=
  -- GO is ignored while BUSY and in recovery mode
  (∀ (stg : Nat) (err : Bool) (s : State), (s.isF Reg.UPD_STAT Fld.UPD_STAT_BUSY = true ∨ s.isF Reg.UPD_RCV_STAT Fld.UPD_RCV_STAT_MODE = true) →
    Runs (.updVerify stg err) s (fun t => t = s)) ∧
  -- a set that cannot be read fails with code 10
  (∀ (stg : Nat) (s : State), s.isF Reg.UPD_STAT Fld.UPD_STAT_BUSY = false → s.isF Reg.UPD_RCV_STAT Fld.UPD_RCV_STAT_MODE = false →
    Runs (.updVerify stg true) s (fun t => t.isF Reg.UPD_STAT Fld.UPD_STAT_FAIL = true ∧ t.getF Reg.UPD_STAT Fld.UPD_STAT_ERR = 10 ∧
    t.isF Reg.UPD_STAT Fld.UPD_STAT_BUSY = false ∧ t.isF Reg.UPD_INT_STAT Fld.UPD_INT_STAT_FAIL = true ∧ t.upd.job = none ∧
    t.upd.verified = s.upd.verified)) ∧
  -- a set that fails a check ends with that code and is not verified
  (∀ (stg e i : Nat) (s : State), stg < 2 → e < 16 → s.isF Reg.UPD_STAT Fld.UPD_STAT_BUSY = false →
    s.isF Reg.UPD_RCV_STAT Fld.UPD_RCV_STAT_MODE = false → s.setVerify (s.stgRd stg) (some s.upd.run) = some (e, i) →
    Runs (.updVerify stg false) s (fun t => t.isF Reg.UPD_STAT Fld.UPD_STAT_FAIL = true ∧ t.getF Reg.UPD_STAT Fld.UPD_STAT_ERR = e ∧
    t.isF Reg.UPD_STAT Fld.UPD_STAT_BUSY = false ∧ t.isF Reg.UPD_INT_STAT Fld.UPD_INT_STAT_FAIL = true ∧ t.upd.job = none ∧
    t.upd.verified = s.upd.verified)) ∧
  -- a live activation begins with its copy; what runs stays
  (∀ (stg : Nat) (s : State), stg < 2 → s.isF Reg.UPD_STAT Fld.UPD_STAT_BUSY = false →
    s.isF Reg.UPD_RCV_STAT Fld.UPD_RCV_STAT_MODE = false → s.upd.verified.contains stg = true → s.session = false → s.phase = 6 →
    s.slotIn 3 = none → s.hoChanged stg = false →
    Runs (.updActivateLive stg) s (fun t => (t.upd.job = some { op := 2, stg := stg, old := s.upd.run }) ∧
    t.isF Reg.UPD_STAT Fld.UPD_STAT_BUSY = true ∧ t.getF Reg.UPD_STAT Fld.UPD_STAT_STEP = 2 ∧ t.upd.run = s.upd.run)) ∧
  -- it is refused with code 7 for a set not verified, with a seal session open, the store not at PHASE 6, a trial under way, or HO changed
  (∀ (stg : Nat) (s : State), stg < 2 → s.isF Reg.UPD_STAT Fld.UPD_STAT_BUSY = false →
    s.isF Reg.UPD_RCV_STAT Fld.UPD_RCV_STAT_MODE = false →
    (s.upd.verified.contains stg = false ∨ s.session = true ∨ s.phase ≠ 6 ∨ (s.slotIn 3).isSome = true ∨ s.hoChanged stg = true) →
    Runs (.updActivateLive stg) s (fun t => t.isF Reg.UPD_STAT Fld.UPD_STAT_FAIL = true ∧ t.getF Reg.UPD_STAT Fld.UPD_STAT_ERR = 7 ∧
    t.isF Reg.UPD_STAT Fld.UPD_STAT_BUSY = false ∧ t.isF Reg.UPD_INT_STAT Fld.UPD_INT_STAT_FAIL = true ∧ t.upd.job = none ∧
    t.upd.run = s.upd.run ∧ t.nor = s.nor)) ∧
  -- an activation for the next start begins likewise, HO changed or not
  (∀ (stg : Nat) (s : State), stg < 2 → s.isF Reg.UPD_STAT Fld.UPD_STAT_BUSY = false →
    s.isF Reg.UPD_RCV_STAT Fld.UPD_RCV_STAT_MODE = false → s.upd.verified.contains stg = true → s.session = false → s.phase = 6 →
    s.slotIn 3 = none → Runs (.updActivateNextStart stg) s (fun t => (t.upd.job = some { op := 3, stg := stg, old := s.upd.run }) ∧
    t.isF Reg.UPD_STAT Fld.UPD_STAT_BUSY = true ∧ t.getF Reg.UPD_STAT Fld.UPD_STAT_STEP = 2 ∧ t.upd.run = s.upd.run)) ∧
  -- a copy that fails ends the activation with its code, and nothing new runs
  (∀ (err item : Nat) (bad : Bool) (j : UpdJob) (s : State), s.upd.job = some j → s.tbLost = false → s.updStep = 2 → 0 < err → err < 16 →
    Runs (.updStepDone err item bad) s (fun t => t.isF Reg.UPD_STAT Fld.UPD_STAT_FAIL = true ∧ t.getF Reg.UPD_STAT Fld.UPD_STAT_ERR = err ∧
    t.isF Reg.UPD_STAT Fld.UPD_STAT_BUSY = false ∧ t.isF Reg.UPD_INT_STAT Fld.UPD_INT_STAT_FAIL = true ∧ t.upd.job = none ∧
    t.upd.run = s.upd.run)) ∧
  -- without an activation there is no step to end
  (∀ (err item : Nat) (bad : Bool) (s : State), s.upd.job = none → Runs (.updStepDone err item bad) s (fun t => t = s)) ∧
  -- COMMIT without a slot in trial is refused with code 7
  (∀ (fail : Bool) (s : State), s.isF Reg.UPD_STAT Fld.UPD_STAT_BUSY = false → s.isF Reg.UPD_RCV_STAT Fld.UPD_RCV_STAT_MODE = false →
    s.slotIn 3 = none → Runs (.updCommit fail) s (fun t => t.isF Reg.UPD_STAT Fld.UPD_STAT_FAIL = true ∧
    t.getF Reg.UPD_STAT Fld.UPD_STAT_ERR = 7 ∧ t.isF Reg.UPD_STAT Fld.UPD_STAT_BUSY = false ∧
    t.isF Reg.UPD_INT_STAT Fld.UPD_INT_STAT_FAIL = true ∧ t.upd.job = none ∧ t.nor = s.nor ∧ t.hoop = s.hoop)) ∧
  -- REVERT likewise
  (∀ (bad : Bool) (s : State), s.isF Reg.UPD_STAT Fld.UPD_STAT_BUSY = false → s.isF Reg.UPD_RCV_STAT Fld.UPD_RCV_STAT_MODE = false →
    s.slotIn 3 = none → Runs (.updRevert bad) s (fun t => t.isF Reg.UPD_STAT Fld.UPD_STAT_FAIL = true ∧
    t.getF Reg.UPD_STAT Fld.UPD_STAT_ERR = 7 ∧ t.isF Reg.UPD_STAT Fld.UPD_STAT_BUSY = false ∧
    t.isF Reg.UPD_INT_STAT Fld.UPD_INT_STAT_FAIL = true ∧ t.upd.job = none ∧ t.nor = s.nor ∧ t.upd.run = s.upd.run)) ∧
  -- without a trial there is none to time out
  (∀ (bad : Bool) (s : State), s.slotIn 3 = none → Runs (.trialTimeout bad) s (fun t => t = s)) ∧
  -- OP 6 writes RCV_REQ in the directory
  (∀ (s : State), s.isF Reg.UPD_STAT Fld.UPD_STAT_BUSY = false → s.isF Reg.UPD_RCV_STAT Fld.UPD_RCV_STAT_MODE = false →
    Runs (.updRecoveryRequest) s (fun t => t.isF Reg.UPD_STAT Fld.UPD_STAT_DONE = true ∧ t.getF Reg.UPD_STAT Fld.UPD_STAT_ERR = 0 ∧
    t.isF Reg.UPD_STAT Fld.UPD_STAT_BUSY = false ∧ t.isF Reg.UPD_INT_STAT Fld.UPD_INT_STAT_DONE = true ∧ t.nor = (s.setRcvReq 1).nor ∧
    t.upd.run = s.upd.run)) ∧
  -- an OFFER during an activation is answered with ABORT code 7
  (∀ (port : Nat) (b : Bytes) (s : State), b.length = 4116 → u8 b 0 = 1 → s.upd.job.isSome = true →
    Runs (.stitchOffer port b) s (fun t => t = { s with out := s.out ++ [.stitch port 5 (stitchMsg 5 7 0xFFFF (stitchId b) 0 0 [])] })) ∧
  -- a REQUEST for a set that this device does not hold is not answered
  (∀ (port : Nat) (b : Bytes) (s : State), s.ownSet (stitchId b) = none → Runs (.stitchRequest port b) s (fun t => t = s)) ∧
  -- a BLOCK that does not check is asked for again
  (∀ (port : Nat) (b : Bytes) (q : Stitch) (s : State), s.upd.stitch = some q → port = q.port → u8 b 0 = 3 → stitchId b = setIdB q.header →
    u16 b 2 < u16 q.header 6 → u32 b 12 < u32 (setEntry q.header (u16 b 2)) 8 → b.length ≠ 4116 →
    Runs (.stitchBlock port b) s (fun t => t = { s with out := s.out ++ [.stitch port 2 (stitchMsg 2 0 (u16 b 2) (stitchId b) (u32 b 12) 1 [])] })) ∧
  -- a BLOCK that nobody asked for is dropped
  (∀ (port : Nat) (b : Bytes) (s : State), s.upd.stitch = none → Runs (.stitchBlock port b) s (fun t => t = s)) ∧
  -- DONE is not sent while blocks are missing
  (∀ (q : Stitch) (s : State), s.upd.stitch = some q → stitchWhole q = false → Runs (.stitchDone) s (fun t => t = s)) ∧
  -- a transfer met by an activation is aborted with code 7
  (∀ (q : Stitch) (s : State), s.upd.stitch = some q → s.upd.job.isSome = true → Runs (.stitchAbort) s (fun t => t.upd.stitch = none ∧
    t.out = s.out ++ [.stitch q.port 5 (stitchMsg 5 7 0xFFFF (setIdB q.header) 0 0 [])] ∧ t.upd.job = s.upd.job)) ∧
  -- UPD_RCV_CTL acts in recovery mode only
  (∀ (init len : Nat) (bad : Bool) (s : State), s.rcvMode = false → Runs (.rcvGo init len bad) s (fun t => t = s)) ∧
  -- a set that fails its checks is not copied, and its result shows
  (∀ (init len e i : Nat) (bad : Bool) (s : State), s.rcvMode = true → init = 7 → len < 2 ^ 25 →
    s.setVerify (s.rcvRd len) none = some (e, i) → e < 16 →
    Runs (.rcvGo init len bad) s (fun t => t.getF Reg.UPD_RCV_STAT Fld.UPD_RCV_STAT_RESULT = e ∧
    t.getF Reg.UPD_RCV_STAT Fld.UPD_RCV_STAT_PATH = 1 ∧ t.isF Reg.UPD_RCV_STAT Fld.UPD_RCV_STAT_DONE = true ∧ t.nor = s.nor ∧
    t.rcvMode = true)) ∧
  -- a frame with a bad CRC is answered, stores nothing, and starts the hunt for the next
  (∀ (b : Bytes) (s : State), s.uartOn = true → u8 b 0 = 0xA5 → uartGood b = false → Runs (.uartDataFrame b) s (fun t => t.upd.hunt = true ∧
    t.dram = s.dram ∧ t.out.length = s.out.length + 1)) ∧
  -- a good one stores its data at its offset and is acknowledged
  (∀ (b : Bytes) (s : State), s.uartOn = true → uartGood b = true → u8 b 1 = 1 → Runs (.uartDataFrame b) s (fun t => t.upd.hunt = false ∧
    t.dram = (s.wrMem (u32 b 4) (slice b 12 (u16 b 8))).dram ∧ t.out.length = s.out.length + 1)) ∧
  -- the console is silent outside recovery mode and without its time base
  (∀ (b : Bytes) (bad : Bool) (s : State), (s.uartOn = false ∨ u8 b 0 ≠ 0xA5) → Runs (.uartEndFrame b bad) s (fun t => t = s)) ∧
  -- a gap of 100 ms starts the hunt for a frame
  (∀ (s : State), s.uartOn = true → Runs (.uartRxTimeout) s (fun t => t.upd.hunt = true ∧ t.out = s.out))

/-- Needlecase results, the vault, and counted settings: what each completes with and what it leaves alone. Rests on R431, R432, R434,
R442, R443, R444, R445, R446. Clauses, each with the command it is about and what its completion leaves. -/
def Obligations.VaultsAndCountedChangesComplete : Prop :=
  -- HMAC completes with its 32 bytes in NDL_DATA, and slots, memory and the vault as they were
  (∀ (vaultFail bad : Bool) (o : NdlOp) (s : State), s.hoop.op = some o → o.code = 0 → o.vault = false → o.spent = none → o.op = 6 →
    Runs (.ndlOpComplete vaultFail bad) s (fun t => (∀ k, k < 8 → t.num (Reg.NDL_DATA k) = u32 o.res (4 * k) % 2 ^ 32) ∧
    t.hoop.slots = s.hoop.slots ∧ t.nor = s.nor ∧ t.dram = s.dram ∧ t.sto = s.sto ∧ t.isF Reg.NDL_STAT Fld.NDL_STAT_DONE = true ∧
    t.getF Reg.NDL_STAT Fld.NDL_STAT_CODE = 0 ∧ t.isF Reg.NDL_CMD Fld.NDL_CMD_BUSY = false ∧ t.hoop.op = none)) ∧
  -- QUOTE completes with its bytes in DRAM at the buffer and nowhere else
  (∀ (vaultFail bad : Bool) (o : NdlOp) (s : State), s.hoop.op = some o → o.code = 0 → o.vault = false → o.spent = none → o.op = 7 →
    0 < o.res.length → (∀ b ∈ o.res, b < 256) → Runs (.ndlOpComplete vaultFail bad) s (fun t => t.rdMem o.addr o.res.length = o.res ∧
    (∀ a, a < o.addr ∨ o.addr + o.res.length ≤ a → t.rdByte a = s.rdByte a) ∧ t.hoop.slots = s.hoop.slots ∧ t.nor = s.nor ∧
    t.isF Reg.NDL_STAT Fld.NDL_STAT_DONE = true ∧ t.getF Reg.NDL_STAT Fld.NDL_STAT_CODE = 0 ∧ t.isF Reg.NDL_CMD Fld.NDL_CMD_BUSY = false ∧
    t.hoop.op = none)) ∧
  -- the erase ends, and no page outside its block changes
  (∀ (p : Nat) (s : State), s.hoop.vaultBusy = some p → s.tbLost = false → Runs (.vaultEraseDone) s (fun t => t.hoop.vaultBusy = none ∧
    (∀ q, q < p ∨ p + 16 ≤ q → t.norPage q = s.norPage q) ∧ t.hoop.slots = s.hoop.slots)) ∧
  -- the change starts: every slot that is not FIXED loses its key, FIXED ones keep theirs, and nothing is counted yet
  (∀ (s : State), s.isF Reg.NDL_CNT_CMD Fld.NDL_CNT_CMD_BUSY = false → s.noGrant 8 2 = false → s.hoop.domainUsed < 4 →
    (((List.range 4).flatMap (fun k => bytesLE 4 (s.num (Reg.NDL_CNT_ARG k)))) ≠ List.replicate 16 0) →
    (((List.range 4).flatMap (fun k => bytesLE 4 (s.num (Reg.NDL_CNT_ARG k)))) ≠ s.hoop.domainId) → s.pins.pfail = false →
    Runs (.cntDomainIdentity) s (fun t => t.isF Reg.NDL_CNT_CMD Fld.NDL_CNT_CMD_BUSY = true ∧ (∀ n, attrBit (s.ndl n).attr 19 = false →
    (s.ndl n).broken = false → (t.ndl n).key = []) ∧ (∀ n, attrBit (s.ndl n).attr 19 = true → t.ndl n = s.ndl n) ∧
    t.hoop.domainUsed = s.hoop.domainUsed ∧ t.dram = s.dram)) ∧
  -- the raise is taken with its kind and steps; nothing is counted or raised until it is programmed
  (∀ (kind steps : Nat) (s : State), s.isF Reg.NDL_CNT_CMD Fld.NDL_CNT_CMD_BUSY = false → s.noGrant 8 2 = false → kind < 4 → 1 ≤ steps →
    steps ≤ 64 → s.hoop.floorUsed.getD kind 0 + steps ≤ 64 → s.pins.pfail = false →
    Runs (.cntRollbackFloor kind steps) s (fun t => t.isF Reg.NDL_CNT_CMD Fld.NDL_CNT_CMD_BUSY = true ∧
    (t.hoop = { s.hoop with cnt := some { setting := 2, kind := kind, value := steps } }) ∧ t.nor = s.nor ∧ t.dram = s.dram ∧
    t.sto = s.sto)) ∧
  -- the role is taken; it is no role yet, and nothing is counted until it is programmed
  (∀ (role : Nat) (s : State), s.isF Reg.NDL_CNT_CMD Fld.NDL_CNT_CMD_BUSY = false → s.noGrant 8 2 = false → s.hoop.pairUsed < 2 → role ≤ 3 →
    s.getF Reg.CHIP_ID Fld.CHIP_ID_GRADE = 1 → s.pins.pfail = false →
    Runs (.cntPairRoleLock role) s (fun t => t.isF Reg.NDL_CNT_CMD Fld.NDL_CNT_CMD_BUSY = true ∧
    (t.hoop = { s.hoop with cnt := some { setting := 3, value := role } }) ∧ t.nor = s.nor ∧ t.dram = s.dram ∧ t.sto = s.sto)) ∧
  -- the opening is taken; broken slots, the vault and memory stay, and nothing is counted yet
  (∀ (s : State), s.isF Reg.NDL_CNT_CMD Fld.NDL_CNT_CMD_BUSY = false → s.noGrant 8 2 = false → s.hoop.debugUsed < 3 → s.pins.pfail = false →
    Runs (.cntDebugOpen) s (fun t => t.isF Reg.NDL_CNT_CMD Fld.NDL_CNT_CMD_BUSY = true ∧ (∀ n, (s.ndl n).broken = true →
    t.ndl n = s.ndl n) ∧ t.hoop.debugUsed = s.hoop.debugUsed ∧ t.nor = s.nor ∧ t.dram = s.dram ∧ t.sto = s.sto)) ∧
  -- a programmed role is the pair role, one entry is spent, and no other setting changes
  (∀ (c : CntOp) (s : State), s.hoop.cnt = some c → c.setting = 3 → s.hoop.pairUsed < 2 →
    Runs (.cntChangeDone false) s (fun t => t.hoop.pairRole = c.value ∧ t.hoop.pairUsed = s.hoop.pairUsed + 1 ∧
    t.hoop.floors = s.hoop.floors ∧ t.hoop.domainId = s.hoop.domainId ∧ t.hoop.debugOpen = s.hoop.debugOpen ∧
    t.isF Reg.NDL_CNT_STAT Fld.NDL_CNT_STAT_DONE = true ∧ t.getF Reg.NDL_CNT_STAT Fld.NDL_CNT_STAT_CODE = 0 ∧
    t.isF Reg.NDL_CNT_CMD Fld.NDL_CNT_CMD_BUSY = false ∧ t.hoop.cnt = none)) ∧
  -- a programmed identity is the domain's, one entry is spent, and no other setting changes
  (∀ (c : CntOp) (s : State), s.hoop.cnt = some c → c.setting = 1 → s.hoop.domainUsed < 4 →
    Runs (.cntChangeDone false) s (fun t => t.hoop.domainId = c.arg ∧ t.hoop.domainUsed = s.hoop.domainUsed + 1 ∧
    t.hoop.floors = s.hoop.floors ∧ t.hoop.pairRole = s.hoop.pairRole ∧ t.isF Reg.NDL_CNT_STAT Fld.NDL_CNT_STAT_DONE = true ∧
    t.getF Reg.NDL_CNT_STAT Fld.NDL_CNT_STAT_CODE = 0 ∧ t.isF Reg.NDL_CNT_CMD Fld.NDL_CNT_CMD_BUSY = false ∧ t.hoop.cnt = none)) ∧
  -- a log that lacks no record is counted and left as it is
  (∀ (s : State), s.phase = 6 →
    ([(1, 0), (2, 0), (2, 1), (2, 2), (2, 3), (3, 0), (4, 0), (5, 0)].all (fun (c : Nat × Nat) => decide (s.cntUsed c.1 c.2 ≤ s.chgLogged c.1 c.2)) = true) →
    Runs (.changeLogReconcile) s (fun t => t = s.setF Reg.NDL_CNT_LOG_PROD Fld.NDL_CNT_LOG_PROD_COUNT s.chgCount)) ∧
  -- a log that lacks one record gets it
  (∀ (s : State), s.phase = 6 → s.chgCount = 0 → s.hoop.pairUsed = 1 →
    ([(1, 0), (2, 0), (2, 1), (2, 2), (2, 3), (4, 0), (5, 0)].all (fun (c : Nat × Nat) => decide (s.cntUsed c.1 c.2 = 0)) = true) →
    Runs (.changeLogReconcile) s (fun t => t.getF Reg.NDL_CNT_LOG_PROD Fld.NDL_CNT_LOG_PROD_COUNT = 1 ∧ t.hoop = s.hoop))

/-- VERIFY, the steps of an activation, COMMIT, REVERT and the end of a trial: what each leaves. Rests on R454, R458, R459, R460.
Clauses, each with the command it is about and what its completion leaves. -/
def Obligations.UpdatesRunToTheirEnd : Prop :=
  -- VERIFY ends DONE with the set verified if every check passes, with the code of the first failed check if not; the set, NOR and what runs stay
  (∀ (stg : Nat) (s : State), stg < 2 → s.isF Reg.UPD_STAT Fld.UPD_STAT_BUSY = false →
    s.isF Reg.UPD_RCV_STAT Fld.UPD_RCV_STAT_MODE = false →
    Runs (.updVerify stg false) s (fun t => (s.setVerify (s.stgRd stg) (some s.upd.run) = none → t.upd.verified.contains stg = true ∧
    t.isF Reg.UPD_STAT Fld.UPD_STAT_DONE = true ∧ t.getF Reg.UPD_STAT Fld.UPD_STAT_ERR = 0 ∧ t.isF Reg.UPD_STAT Fld.UPD_STAT_BUSY = false ∧
    t.isF Reg.UPD_INT_STAT Fld.UPD_INT_STAT_DONE = true) ∧ (∀ e i, s.setVerify (s.stgRd stg) (some s.upd.run) = some (e, i) →
    t.isF Reg.UPD_STAT Fld.UPD_STAT_FAIL = true ∧ t.getF Reg.UPD_STAT Fld.UPD_STAT_ERR = e % 16 ∧ t.upd.verified = s.upd.verified) ∧
    t.upd.run = s.upd.run ∧ t.nor = s.nor ∧ t.sto = s.sto)) ∧
  -- the slot not booted is copying, its pages erased for the set
  (∀ (stg : Nat) (s : State), stg < 2 → s.isF Reg.UPD_STAT Fld.UPD_STAT_BUSY = false →
    s.isF Reg.UPD_RCV_STAT Fld.UPD_RCV_STAT_MODE = false → s.upd.verified.contains stg = true → s.session = false → s.phase = 6 →
    s.slotIn 3 = none → s.hoChanged stg = false → s.booted < 2 → Runs (.updActivateLive stg) s (fun t => t.slotSt s.spareSlot = 1 ∧
    (∀ p, norSlot s.spareSlot ≤ p → p < norSlot s.spareSlot + norSlotPages → t.norPage p = norBlank) ∧ t.sto = s.sto ∧ t.dram = s.dram)) ∧
  -- likewise for the next start
  (∀ (stg : Nat) (s : State), stg < 2 → s.isF Reg.UPD_STAT Fld.UPD_STAT_BUSY = false →
    s.isF Reg.UPD_RCV_STAT Fld.UPD_RCV_STAT_MODE = false → s.upd.verified.contains stg = true → s.session = false → s.phase = 6 →
    s.slotIn 3 = none → s.booted < 2 → Runs (.updActivateNextStart stg) s (fun t => t.slotSt s.spareSlot = 1 ∧ t.sto = s.sto ∧
    t.dram = s.dram)) ∧
  -- the copy of an activation for the next start ends: the slot holds the set and waits for its trial
  (∀ (item : Nat) (bad : Bool) (j : UpdJob) (s : State), s.upd.job = some j → j.op = 3 → s.tbLost = false → s.updStep = 2 →
    s.upd.verified.contains j.stg = true → s.booted < 2 → setUnits (s.stgRd j.stg 0) ≤ norSlotPages →
    (∀ n ∈ List.range (setUnits (s.stgRd j.stg 0)), (s.stgRd j.stg n).length = 4096) →
    Runs (.updStepDone 0 item bad) s (fun t => t.slotSt s.spareSlot = 3 ∧
    (∀ n ∈ List.range (setUnits (s.stgRd j.stg 0)), t.norPage (norSlot s.spareSlot + n) = s.stgRd j.stg n) ∧ t.upd.run = s.upd.run ∧
    t.upd.liveTrial = false ∧ t.upd.job = none ∧ t.isF Reg.UPD_INT_STAT Fld.UPD_INT_STAT_TRIAL = true ∧
    t.isF Reg.UPD_STAT Fld.UPD_STAT_DONE = true ∧ t.getF Reg.UPD_STAT Fld.UPD_STAT_ERR = 0 ∧ t.isF Reg.UPD_STAT Fld.UPD_STAT_BUSY = false ∧
    t.isF Reg.UPD_INT_STAT Fld.UPD_INT_STAT_DONE = true)) ∧
  -- COMMIT makes the trial slot good and the one before it fallback; containers that do not ask for it raise no floor
  (∀ (i : Nat) (s : State), s.isF Reg.UPD_STAT Fld.UPD_STAT_BUSY = false → s.isF Reg.UPD_RCV_STAT Fld.UPD_RCV_STAT_MODE = false →
    s.slotIn 3 = some i → s.hoop.floors.length = 4 → setRun (s.norRd i) = [] → Runs (.updCommit false) s (fun t => t.slotSt i = 4 ∧
    (s.slotSt (1 - i) = 4 → t.slotSt (1 - i) = 5) ∧ t.hoop.floors = s.hoop.floors ∧ t.upd.run = s.upd.run ∧ t.upd.liveTrial = false ∧
    t.isF Reg.UPD_STAT Fld.UPD_STAT_DONE = true ∧ t.getF Reg.UPD_STAT Fld.UPD_STAT_ERR = 0 ∧ t.isF Reg.UPD_STAT Fld.UPD_STAT_BUSY = false ∧
    t.isF Reg.UPD_INT_STAT Fld.UPD_INT_STAT_DONE = true)) ∧
  -- REVERT before the trial begins makes the slot bad, and what runs stays
  (∀ (bad : Bool) (i : Nat) (s : State), s.isF Reg.UPD_STAT Fld.UPD_STAT_BUSY = false →
    s.isF Reg.UPD_RCV_STAT Fld.UPD_RCV_STAT_MODE = false → s.slotIn 3 = some i → s.upd.liveTrial = false → s.booted ≠ i →
    Runs (.updRevert bad) s (fun t => t.slotSt i = 6 ∧ t.slotSt (1 - i) = s.slotSt (1 - i) ∧ t.upd.run = s.upd.run ∧
    t.isF Reg.UPD_STAT Fld.UPD_STAT_DONE = true ∧ t.getF Reg.UPD_STAT Fld.UPD_STAT_ERR = 0 ∧ t.isF Reg.UPD_STAT Fld.UPD_STAT_BUSY = false ∧
    t.isF Reg.UPD_INT_STAT Fld.UPD_INT_STAT_DONE = true)) ∧
  -- REVERT of a live trial makes the slot bad, and what ran before runs again
  (∀ (i : Nat) (s : State), s.isF Reg.UPD_STAT Fld.UPD_STAT_BUSY = false → s.isF Reg.UPD_RCV_STAT Fld.UPD_RCV_STAT_MODE = false →
    s.slotIn 3 = some i → s.upd.liveTrial = true → Runs (.updRevert false) s (fun t => t.slotSt i = 6 ∧ t.upd.run = s.upd.old ∧
    t.upd.liveTrial = false ∧ t.upd.old = [] ∧ t.isF Reg.UPD_STAT Fld.UPD_STAT_DONE = true ∧ t.getF Reg.UPD_STAT Fld.UPD_STAT_ERR = 0 ∧
    t.isF Reg.UPD_STAT Fld.UPD_STAT_BUSY = false ∧ t.isF Reg.UPD_INT_STAT Fld.UPD_INT_STAT_DONE = true)) ∧
  -- the directory asks for recovery; both slots keep their states
  (∀ (s : State), s.isF Reg.UPD_STAT Fld.UPD_STAT_BUSY = false → s.isF Reg.UPD_RCV_STAT Fld.UPD_RCV_STAT_MODE = false →
    Runs (.updRecoveryRequest) s (fun t => t.rcvReq = true ∧ t.slotSt 0 = s.slotSt 0 ∧ t.slotSt 1 = s.slotSt 1 ∧ t.dram = s.dram)) ∧
  -- a live trial without COMMIT in time is reverted
  (∀ (i : Nat) (s : State), s.slotIn 3 = some i → s.upd.liveTrial = true → Runs (.trialTimeout false) s (fun t => t.slotSt i = 6 ∧
    t.upd.run = s.upd.old ∧ t.upd.liveTrial = false ∧ t.isF Reg.UPD_STAT Fld.UPD_STAT_DONE = true ∧
    t.getF Reg.UPD_STAT Fld.UPD_STAT_ERR = 0 ∧ t.isF Reg.UPD_STAT Fld.UPD_STAT_BUSY = false ∧
    t.isF Reg.UPD_INT_STAT Fld.UPD_INT_STAT_DONE = true))

/-- Stitch messages that are answered, kept or complete a set, and sets delivered in recovery mode. Rests on R461, R462, R465, R466,
R467, R468. Clauses, each with the command it is about and what its completion leaves. -/
def Obligations.RelayAndRecoveryRunToTheirEnd : Prop :=
  -- an OFFER of a set that this device neither runs nor holds is taken, and its blocks are asked for in order
  (∀ (port : Nat) (b h : Bytes) (s : State), b.length = 4116 → u8 b 0 = 1 → h = slice b 20 4096 → u32 h 4092 = crc32c (h.take 4092) →
    s.upd.job = none → (stitchId b) ≠ s.runId → s.ownSet (stitchId b) = none →
    Runs (.stitchOffer port b) s (fun t => (t.upd.stitch.map (fun q => (q.port, q.header, q.got)) = some (port, h, [])) ∧
    (t.out = s.out ++ (stitchAsks h).map (fun x => .stitch port 2 (stitchMsg 2 0 x.1 (stitchId b) x.2.1 x.2.2 []))) ∧ t.upd.job = none ∧
    t.upd.run = s.upd.run)) ∧
  -- a REQUEST for the header of a set held is answered with it
  (∀ (port g : Nat) (b : Bytes) (s : State), s.ownSet (stitchId b) = some g → u8 b 0 = 2 → u32 b 16 ≠ 0 → u32 b 16 ≤ 4096 →
    u16 b 2 = 0xFFFF →
    Runs (.stitchRequest port b) s (fun t => t = { s with out := s.out ++ [.stitch port 3 (stitchMsg 3 0 0xFFFF (stitchId b) 0 1 (s.stgRd g 0))] })) ∧
  -- a REQUEST for a block of it is answered with the block
  (∀ (port g : Nat) (b : Bytes) (s : State), s.ownSet (stitchId b) = some g → u8 b 0 = 2 → u32 b 16 = 1 → u16 b 2 < u16 (s.stgRd g 0) 6 →
    u32 b 12 < u32 (setEntry (s.stgRd g 0) (u16 b 2)) 8 →
    Runs (.stitchRequest port b) s (fun t => t = { s with out := s.out ++ [.stitch port 3 (stitchMsg 3 0 (u16 b 2) (stitchId b) (u32 b 12) 1 (s.stgRd g (u32 (setEntry (s.stgRd g 0) (u16 b 2)) 4 + u32 b 12)))] })) ∧
  -- a BLOCK that checks is kept, its place is noted, and the staging slot no longer counts as verified
  (∀ (port : Nat) (b : Bytes) (q : Stitch) (s : State), s.upd.stitch = some q → port = q.port → u8 b 0 = 3 →
    (stitchId b) = setIdB q.header → u16 b 2 < u16 q.header 6 → u32 b 12 < u32 (setEntry q.header (u16 b 2)) 8 → b.length = 4116 →
    blkOk (slice b 20 4096) = true →
    Runs (.stitchBlock port b) s (fun t => (t.upd.stitch.any (fun x => x.got.contains (u32 (setEntry q.header (u16 b 2)) 4 + u32 b 12)) = true) ∧
    (t.upd.stitch.map (fun x => (x.port, x.stg, x.header)) = some (q.port, q.stg, q.header)) ∧ t.upd.verified.contains q.stg = false ∧
    t.out = s.out)) ∧
  -- a set received whole that verifies is answered with DONE and counts as verified; one that does not is left to ABORT
  (∀ (q : Stitch) (s : State), s.upd.stitch = some q → stitchWhole q = true → s.upd.job = none →
    Runs (.stitchDone) s (fun t => (s.setVerify (s.stgRd q.stg) (some s.upd.run) = none → t.upd.stitch = none ∧
    t.upd.verified.contains q.stg = true ∧ t.out = s.out ++ [.stitch q.port 4 (stitchMsg 4 0 0xFFFF (setIdB q.header) 0 0 [])]) ∧
    (s.setVerify (s.stgRd q.stg) (some s.upd.run) ≠ none → t = s))) ∧
  -- a set received whole that fails a check is answered with ABORT and its code
  (∀ (q : Stitch) (s : State), s.upd.stitch = some q → stitchWhole q = true → s.upd.job = none →
    Runs (.stitchAbort) s (fun t => ∀ e i, s.setVerify (s.stgRd q.stg) (some s.upd.run) = some (e, i) → t.upd.stitch = none ∧
    t.upd.verified = s.upd.verified ∧ t.out = s.out ++ [.stitch q.port 5 (stitchMsg 5 e 0xFFFF (setIdB q.header) 0 0 [])])) ∧
  -- the data of a good frame reads back at its offset, and ACK answers under its sequence number
  (∀ (b : Bytes) (s : State), s.uartOn = true → uartGood b = true → u8 b 1 = 1 → (∀ x ∈ b, x < 256) →
    Runs (.uartDataFrame b) s (fun t => t.rdMem (u32 b 4) (u16 b 8) = slice b 12 (u16 b 8) ∧ t.nor = s.nor ∧
    (∃ off, t.out = s.out ++ [.uart (uartFrame 0x81 (u16 b 2) off)]))) ∧
  -- the end of a delivery has the set checked; its result shows and goes out as a RESULT frame
  (∀ (b : Bytes) (bad : Bool) (e i : Nat) (s : State), s.uartOn = true → uartGood b = true → u8 b 1 = 2 →
    s.setVerify (s.rcvRd (u32 b 4)) none = some (e, i) → e < 16 →
    Runs (.uartEndFrame b bad) s (fun t => t.getF Reg.UPD_RCV_STAT Fld.UPD_RCV_STAT_RESULT = e ∧
    t.getF Reg.UPD_RCV_STAT Fld.UPD_RCV_STAT_PATH = 2 ∧ t.isF Reg.UPD_RCV_STAT Fld.UPD_RCV_STAT_DONE = true ∧ t.nor = s.nor ∧
    t.out.drop (s.out.length + 1) = [.uart (uartFrame 0x83 (u16 b 2) e)])) ∧
  -- a gap starts the hunt for a frame and does nothing else
  (∀ (s : State), s.uartOn = true → Runs (.uartRxTimeout) s (fun t => t = s.updMod (fun u => { u with hunt := true }))) ∧
  -- a set that cannot be written ends with result 13 and its path
  (∀ (init len : Nat) (s : State), s.rcvMode = true → init = 8 → len < 2 ^ 25 →
    Runs (.rcvGo init len true) s (fun t => (s.setVerify (s.rcvRd len) none = none → t.getF Reg.UPD_RCV_STAT Fld.UPD_RCV_STAT_RESULT = 13 ∧
    t.getF Reg.UPD_RCV_STAT Fld.UPD_RCV_STAT_PATH = 3 ∧ t.isF Reg.UPD_RCV_STAT Fld.UPD_RCV_STAT_DONE = true ∧ t.rcvMode = true) ∧
    (∀ e i, s.setVerify (s.rcvRd len) none = some (e, i) → t.getF Reg.UPD_RCV_STAT Fld.UPD_RCV_STAT_RESULT = e % 16 ∧ t.nor = s.nor))) ∧
  -- a set that checks is copied to trial, CYCLES returns to 0, and the device restarts
  (∀ (init len : Nat) (s : State), s.rcvMode = true → init = 7 → len < 2 ^ 25 → s.pins.pfail = true →
    Runs (.rcvGo init len false) s (fun t => s.setVerify (s.rcvRd len) none = none → t.slotSt (if s.slotSt 0 = 4 then 1 else 0) = 3 ∧
    t.ao.cycles = 0 ∧ t.pins.bootWait.isSome = true))

/-- Messages of the pair taken in order, a missing confirmation, and the boot that waited for PFAIL_N. Rests on R488, R489, R493,
R494, R508. Clauses, each with the command it is about and what its completion leaves. -/
def Obligations.PairMessagesAndStartsComplete : Prop :=
  -- SLOT: the standby takes the entry and no other, and sends CONFIRM
  (∀ (b : Bytes) (s : State), 1 ≤ s.pairState → s.noGrant 9 3 = false → b.length = 20 + u16 b 2 →
    u32 b (16 + u16 b 2) = crc32c (b.take (16 + u16 b 2)) → un b 8 8 = s.pair.rxSeq + 1 → u8 b 0 = 3 → (s.pairState = 2 ∨ s.pairState = 3) →
    u16 b 2 = 40 → Runs (.pairMessageReceive b) s (fun t => t.msmAt (u32 b 20) = slice b 24 32 ∧ (∀ n, n ≠ u32 b 20 →
    t.msmAt n = s.msmAt n) ∧ t.pair.rxSeq = un b 8 8 ∧ t.pair.txSeq = s.pair.txSeq + 1 ∧ t.pairState = s.pairState)) ∧
  -- STATUS: the link is up, and the partner's state is known
  (∀ (b : Bytes) (s : State), 1 ≤ s.pairState → s.noGrant 9 3 = false → b.length = 20 + u16 b 2 →
    u32 b (16 + u16 b 2) = crc32c (b.take (16 + u16 b 2)) → un b 8 8 = s.pair.rxSeq + 1 → u8 b 0 = 1 → u8 b 17 ≠ s.pairRole →
    s.pairState = 3 → s.pairRole ≠ 0 → Runs (.pairMessageReceive b) s (fun t => t.isF Reg.SMP_PAIR_STAT Fld.SMP_PAIR_STAT_LINK = true ∧
    (t.isF Reg.SMP_PAIR_STAT Fld.SMP_PAIR_STAT_PEER_ACTIVE = true ↔ (u8 b 16 = 4 ∨ u8 b 16 = 5)) ∧ t.pair.peerState = u8 b 16 ∧
    t.pair.rxSeq = un b 8 8 ∧ t.pairState = 3)) ∧
  -- a confirmation that stays away is the loss of the link: commits are held, and a grant is needed
  (∀ (s : State), s.mustConfirm = true → (s.pair.sent.any (fun e => confirmed e.2.1) = true) → s.pair.released = false →
    s.smp.fifo.length < 256 → Runs (.mirrorTimeout) s (fun t => t.pairLink = false ∧ t.pair.held = true ∧ t.pair.sent = [] ∧
    t.isF Reg.SMP_INT_STAT Fld.SMP_INT_STAT_WIT_NEED = true ∧ t.pairState = 4 ∧ Logged s t 0x9104 3 pairPath [])) ∧
  -- the boot ROM goes on: with recovery asked for, by the directory or by BOOT_RCV_N, recovery mode runs and the request is spent
  (∀ (c : Nat) (x y : Bool) (s : State), s.pins.bootWait = some (c, x, y) → s.pins.pfail = false → (s.rcvReq = true ∨ s.pins.rcv = true) →
    Runs (.bootPfailHoldEnd) s (fun t => t.pins.bootWait = none ∧ t.rcvMode = true ∧ t.rcvReq = false))

/-- Reports, lost reports, the read buffer, CLEAR, and the NAND mirror. Rests on R470, R471, R474, R475, R476, R480. Clauses, each
with the command it is about and what its completion leaves. -/
def Obligations.SamplerKeepsItsLog : Prop :=
  -- a report below severity 7 enters the FIFO, and nothing else follows from it
  (∀ (code sev path : Nat) (data : Bytes) (s : State), code < 65536 → sev < 7 → path < 65536 → s.smp.fifo.length < 256 →
    Runs (.samplerReport code sev path data) s (fun t => Logged s t code sev path data ∧ t.ladder = s.ladder ∧ t.ao = s.ao)) ∧
  -- one that finds 256 waiting is lost, tallied and counted under its severity
  (∀ (code sev path : Nat) (data : Bytes) (s : State), sev < 7 → 256 ≤ s.smp.fifo.length →
    Runs (.samplerReport code sev path data) s (fun t => t.smp.fifo = s.smp.fifo ∧ t.smp.tally.total = s.smp.tally.total + 1 ∧
    t.num (0x040040 + 4 * sev) = min (s.num (0x040040 + 4 * sev) + 1) 0xFFFFFFFF)) ∧
  -- at 128 or fewer one record tells of the losses, at the highest severity lost
  (∀ (s : State), s.smp.fifo.length ≤ 128 → 0 < s.smp.tally.total →
    Runs (.samplerLostSynth) s (fun t => t.smp.fifo.length = s.smp.fifo.length + 1 ∧
    (t.smp.fifo.getLast?.map (fun (e : SmpEntry) => (e.code, e.sev)) = some (1, s.smp.tally.high)) ∧ t.smp.tally.total = 0 ∧
    t.isF Reg.SMP_INT_STAT Fld.SMP_INT_STAT_LOST = true)) ∧
  -- and not otherwise
  (∀ (s : State), (128 < s.smp.fifo.length ∨ s.smp.tally.total = 0) → Runs (.samplerLostSynth) s (fun t => t = s)) ∧
  -- a report like the last record within REPEAT_WIN is absorbed: REPEAT goes up, no number is used
  (∀ (e : SmpEntry) (r : List SmpEntry) (i : Nat) (s : State), s.smp.fifo = e :: r → s.getF Reg.SMP_CTL Fld.SMP_CTL_MIN_SEV ≤ e.sev →
    s.absorbs e = some i → Runs (.samplerFifoTake) s (fun t => (t.smpSlot i).rep = (s.smpSlot i).rep + 1 ∧ t.ao.seq = s.ao.seq ∧
    t.smp.last = s.smp.last ∧ (t.smpSlot i).seq = (s.smpSlot i).seq)) ∧
  -- any other takes a slot and the next sequence number
  (∀ (e : SmpEntry) (r : List SmpEntry) (i : Nat) (s : State), s.smp.fifo = e :: r → s.getF Reg.SMP_CTL Fld.SMP_CTL_MIN_SEV ≤ e.sev →
    s.absorbs e = none → s.smpPick e.sev = some i → e.code ≠ 0 → Runs (.samplerFifoTake) s (fun t => (t.smpSlot i).seq = s.ao.seq ∧
    (t.smpSlot i).code = e.code ∧ t.ao.seq = s.ao.seq + 1 ∧ t.smp.last = some i)) ∧
  -- CLEAR empties the log and ends FULL; numbers go on
  (∀ (s : State), Runs (.samplerClear) s (fun t => t.smp.slots = [] ∧ t.smpUsed = 0 ∧ t.smp.last = none ∧
    t.isF Reg.SMP_STAT Fld.SMP_STAT_FULL = false ∧ t.ao.seq = s.ao.seq)) ∧
  -- a slot is copied whole to the read buffer
  (∀ (slot w : Nat) (s : State), slot < 8192 → w < 8 → Runs (.samplerRdSel slot w) s (fun t => t.smp.rdBuf = smpBytes (s.smpSlot slot) ∧
    t.getF Reg.SMP_RD_SEL Fld.SMP_RD_SEL_WORD = w ∧ t.getF Reg.SMP_RD_SEL Fld.SMP_RD_SEL_SLOT = slot ∧ t.smp.slots = s.smp.slots)) ∧
  -- a read gives a word of it
  (∀ (s : State), Runs (.samplerRdData) s (fun t => t.busData = word (u32 s.smp.rdBuf (4 * (s.getF Reg.SMP_RD_SEL Fld.SMP_RD_SEL_WORD))) ∧
    t.smp = s.smp)) ∧
  -- nothing is mirrored before the store is at PHASE 6
  (∀ (s : State), s.mirrorOn = false → Runs (.mirrorUnitWrite) s (fun t => t = s)) ∧
  -- after it the open unit has no change left
  (∀ (s : State), s.mirrorOn = true → Runs (.mirrorUnitWrite) s (fun t => t.smp.dirty = false ∧ t.smp.slots = s.smp.slots ∧ t.ao = s.ao))

/-- Watchdogs, ladder steps, and the reset, power-fail and backup pins. Rests on R480, R482, R483, R484, R485, R502, R504, R506, R507,
R508. Clauses, each with the command it is about and what its completion leaves. -/
def Obligations.LadderAndPowerPinsTakeTheirSteps : Prop :=
  -- without a hoop that runs unkicked there is no timeout
  (∀ (s : State), (s.ladder.hoopRun = false ∨ s.getF Reg.SMP_RCV_CTL Fld.SMP_RCV_CTL_HWDOG_S = 0 ∨ s.ladder.hwd ≠ 0) →
    Runs (.hoopWatchdogExpire) s (fun t => t = s)) ∧
  -- the hoop watchdog takes step 2: the device restarts
  (∀ (s : State), s.ladder.hoopRun = true → s.getF Reg.SMP_RCV_CTL Fld.SMP_RCV_CTL_HWDOG_S ≠ 0 → s.ladder.hwd = 0 → s.pins.pfail = true →
    s.getF Reg.CHIP_RECOV_STAT Fld.CHIP_RECOV_STAT_STEP = 0 → s.escLeft = 0 → s.ao.stepOpen = false →
    Runs (.hoopWatchdogExpire) s (fun t => t.ao.lastStep = 2 ∧ t.ao.warmCnt = min (s.ao.warmCnt + 1) 255 ∧ t.ladder.hoopRun = false ∧
    t.shu = {} ∧ t.upl = {})) ∧
  -- the field watchdog takes step 1 on region CO
  (∀ (s : State), s.ladder.fieldRun = true → s.getF Reg.SMP_RCV_CTL Fld.SMP_RCV_CTL_FWDOG_S ≠ 0 → s.ladder.fwd = 0 →
    s.getF Reg.CHIP_RECOV_STAT Fld.CHIP_RECOV_STAT_STEP = 0 → s.escLeft = 0 → s.ao.stepOpen = false →
    Runs (.fieldWatchdogExpire) s (fun t => t.getF Reg.CHIP_RECOV_STAT Fld.CHIP_RECOV_STAT_STEP = 1 ∧ t.ao.lastStep = 1 ∧
    t.ladder.region = 7 ∧ t.ladder.fieldRun = false ∧ t.isF Reg.SMP_INT_STAT Fld.SMP_INT_STAT_RCV_STEP = true)) ∧
  -- a kick by the hoop reloads the hoop watchdog
  (∀ (init key : Nat) (s : State), key = 0x4B49 → isHoop init = true →
    Runs (.hoopWdogKick init key) s (fun t => t.ladder.hwd = s.getF Reg.SMP_RCV_CTL Fld.SMP_RCV_CTL_HWDOG_S ∧ t.ao = s.ao ∧
    t.regs = s.regs)) ∧
  -- by another initiator it is refused and counted
  (∀ (init key : Nat) (s : State), key = 0x4B49 → isHoop init = false → Runs (.hoopWdogKick init key) s (fun t => t.ladder = s.ladder ∧
    t.num Reg.CHIP_FW_VIOL_CNT = min (s.num Reg.CHIP_FW_VIOL_CNT + 1) 0xFFFFFFFF)) ∧
  -- a wrong KEY is ignored
  (∀ (init key : Nat) (s : State), key ≠ 0x4B49 → Runs (.hoopWdogKick init key) s (fun t => t = s)) ∧
  -- any initiator kicks the field watchdog
  (∀ (init key : Nat) (s : State), key = 0x4B49 →
    Runs (.fieldWdogKick init key) s (fun t => t.ladder.fwd = s.getF Reg.SMP_RCV_CTL Fld.SMP_RCV_CTL_FWDOG_S ∧ t.ladder.hwd = s.ladder.hwd ∧
    t.regs = s.regs)) ∧
  -- the hoop asks for step 3: a power cycle is requested
  (∀ (init key act : Nat) (s : State), key = 0x4B49 → isHoop init = true → act = 3 → s.ao.cycles < 3 →
    s.getF Reg.CHIP_RECOV_STAT Fld.CHIP_RECOV_STAT_STEP = 0 → s.escLeft = 0 → s.ao.stepOpen = false →
    Runs (.ladderStepRequest init key act) s (fun t => t.getF Reg.CHIP_RECOV_STAT Fld.CHIP_RECOV_STAT_STEP = 3 ∧ t.ao.lastStep = 3 ∧
    t.ao.pwrReq = true ∧ t.ao.stepOpen = true ∧ t.ao.cycles = s.ao.cycles + 1 ∧ t.nor = s.nor)) ∧
  -- after three power cycles step 4 is taken in place of step 3: recovery is requested too
  (∀ (init key act : Nat) (s : State), key = 0x4B49 → isHoop init = true → (act = 3 ∨ act = 4) → s.ao.cycles = 3 →
    s.getF Reg.CHIP_RECOV_STAT Fld.CHIP_RECOV_STAT_STEP = 0 → s.escLeft = 0 → s.ao.stepOpen = false →
    Runs (.ladderStepRequest init key act) s (fun t => t.getF Reg.CHIP_RECOV_STAT Fld.CHIP_RECOV_STAT_STEP = 4 ∧ t.ao.lastStep = 4 ∧
    t.ao.pwrReq = true ∧ t.nor = (s.setRcvReq 1).nor)) ∧
  -- a trigger while a step runs goes one step further
  (∀ (init key act : Nat) (s : State), key = 0x4B49 → isHoop init = true → act = 2 →
    s.getF Reg.CHIP_RECOV_STAT Fld.CHIP_RECOV_STAT_STEP = 1 → s.ao.lastStep = 2 → s.ao.cycles < 3 →
    Runs (.ladderStepRequest init key act) s (fun t => t.getF Reg.CHIP_RECOV_STAT Fld.CHIP_RECOV_STAT_STEP = 3 ∧ t.ao.lastStep = 3 ∧
    t.ao.pwrReq = true)) ∧
  -- no other initiator may ask
  (∀ (init key act : Nat) (s : State), key = 0x4B49 → isHoop init = false → 2 ≤ act → act ≤ 4 →
    Runs (.ladderStepRequest init key act) s (fun t => t.ladder = s.ladder ∧ t.ao = s.ao ∧
    t.num Reg.CHIP_FW_VIOL_CNT = min (s.num Reg.CHIP_FW_VIOL_CNT + 1) 0xFFFFFFFF)) ∧
  -- no step 1, no end
  (∀ (fail : Bool) (s : State), s.ladder.region = 0 → Runs (.regionResetDone fail) s (fun t => t = s)) ∧
  -- step 1 ends: grants resume and the escalation window opens
  (∀ (fail : Bool) (s : State), fail = false → s.ladder.region = 9 → Runs (.regionResetDone fail) s (fun t => t.ladder.region = 0 ∧
    t.getF Reg.CHIP_RECOV_STAT Fld.CHIP_RECOV_STAT_STEP = 0 ∧ t.ao.escAgo = some 0)) ∧
  -- without a request there is no timeout
  (∀ (clk : Nat) (v : Option Nat) (s : State), (s.ao.pwrReq = false ∨ s.ao.stepOpen = false ∨ s.pins.reset = true) →
    Runs (.powerCycleTimeout clk v) s (fun t => t = s)) ∧
  -- with power still there the device resets itself, the request still driven
  (∀ (clk : Nat) (v : Option Nat) (s : State), s.ao.pwrReq = true → s.ao.stepOpen = true → s.pins.reset = false → s.pins.pfail = true →
    Runs (.powerCycleTimeout clk v) s (fun t => t.ao.pcc = (s.ao.pcc + 1) % 2 ^ 24 ∧ t.ao.stepOpen = false ∧ t.ao.escAgo = some 0 ∧
    t.ao.pwrReq = true ∧ t.dram = [])) ∧
  -- PONRST_N low: the device is held, what is not backed up is lost
  (∀ (s : State), Runs (.ponrstFall) s (fun t => t.pins.reset = true ∧ t.ao.pwrReq = false ∧ t.dram = [] ∧ t.smp.slots = [] ∧
    t.ao.seq = s.ao.seq ∧ t.nor = s.nor)) ∧
  -- PONRST_N high: a power cycle is counted; with PFAIL_N low the boot ROM waits
  (∀ (away clk : Nat) (v : Option Nat) (rcv : Bool) (s : State), s.pins.pfail = true →
    Runs (.ponrstRise away clk v rcv) s (fun t => t.pins.reset = false ∧ t.ao.pcc = (s.ao.pcc + 1) % 2 ^ 24 ∧ t.ao.seq = s.ao.seq ∧
    t.dram = [] ∧ t.pins.bootWait.isSome = true)) ∧
  -- WARM_N is ignored while PONRST_N is low
  (∀ (v : Option Nat) (rcv : Bool) (s : State), s.pins.reset = true → Runs (.warmReset v rcv) s (fun t => t = s)) ∧
  -- a warm reset keeps the Sampler's log and the clocks, and clears the rest
  (∀ (v : Option Nat) (rcv : Bool) (s : State), s.pins.reset = false → s.pins.pfail = true →
    Runs (.warmReset v rcv) s (fun t => t.smp.slots = s.smp.slots ∧ t.ao.seq = s.ao.seq ∧ t.ao.pcc = s.ao.pcc ∧
    t.time.sched = s.time.sched ∧ t.dram = [] ∧ t.shu = {})) ∧
  -- the boot ROM goes on only when it waited and PFAIL_N is high
  (∀ (s : State), (s.pins.bootWait = none ∨ s.pins.pfail = true) → Runs (.bootPfailHoldEnd) s (fun t => t = s)) ∧
  -- PFAIL_N already low: nothing more follows
  (∀ (erasing : Nat) (s : State), s.pins.pfail = true → Runs (.pfailFall erasing) s (fun t => t = s)) ∧
  -- PFAIL_N falls: the device holds, yields, stops an activation and closes a seal session
  (∀ (erasing : Nat) (s : State), s.pins.pfail = false → Runs (.pfailFall erasing) s (fun t => t.pins.pfail = true ∧ t.upd.job = none ∧
    t.isF Reg.SMP_PAIR_STAT Fld.SMP_PAIR_STAT_HOLD = false ∧ t.session = false)) ∧
  -- PFAIL_N rises: a store that has flushed is at PHASE 6 again
  (∀ (s : State), s.pins.pfail = true → s.phase = 8 → s.totEn = false → Runs (.pfailRise) s (fun t => t.pins.pfail = false ∧ t.phase = 6 ∧
    t.nor = s.nor))

/-- Pair messages, link loss, takeover, witness grants, yielding and resynchronisation. Rests on R2, R486, R487, R488, R489, R490,
R491, R492, R493, R494. Clauses, each with the command it is about and what its completion leaves. -/
def Obligations.PairDevicesHandOver : Prop :=
  -- EN at 0 leaves the pair
  (∀ (en : Bool) (s : State), en = false → Runs (.pairEnWrite en) s (fun t => t.pairState = 0 ∧
    t.isF Reg.SMP_PAIR_STAT Fld.SMP_PAIR_STAT_HOLD = false ∧ t.pair.taking = 0)) ∧
  -- a device without a pair role or of the wrong grade refuses, with a record
  (∀ (en : Bool) (s : State), en = true → s.pairAble = false → s.smp.fifo.length < 256 →
    Runs (.pairEnWrite en) s (fun t => t.pairState = s.pairState ∧ Logged s t 0x0007 3 0x0FFF [])) ∧
  -- one that may starts
  (∀ (en : Bool) (s : State), en = true → s.pairAble = true → s.pairState = 0 → Runs (.pairEnWrite en) s (fun t => t.pairState = 1 ∧
    t.isF Reg.SMP_INT_STAT Fld.SMP_INT_STAT_PAIR_STATE = true)) ∧
  -- STATUS goes out under the next MSEQ
  (∀ (s : State), s.pairState ≠ 0 → s.noGrant 9 3 = false → Runs (.pairStatusSend) s (fun t => t.pair.txSeq = s.pair.txSeq + 1 ∧
    t.out.length = s.out.length + 1 ∧ t.pairState = s.pairState)) ∧
  -- outside a pair nothing is sent
  (∀ (s : State), s.pairState = 0 → Runs (.pairStatusSend) s (fun t => t = s)) ∧
  -- a link that is down is not lost again
  (∀ (s : State), s.pairLink = false → Runs (.pairStatusTimeout) s (fun t => t = s)) ∧
  -- an active device that loses the link holds its commits and needs a grant
  (∀ (s : State), s.pairLink = true → s.pairState = 4 → s.pair.released = false → s.smp.fifo.length < 256 →
    Runs (.pairStatusTimeout) s (fun t => t.pairLink = false ∧ t.pair.held = true ∧ t.pair.sent = [] ∧
    t.isF Reg.SMP_INT_STAT Fld.SMP_INT_STAT_WIT_NEED = true ∧ t.pairState = 4 ∧ Logged s t 0x9104 3 pairPath [])) ∧
  -- one whose partner has released goes on alone
  (∀ (s : State), s.pairLink = true → s.pairState = 4 → s.pair.released = true → Runs (.pairStatusTimeout) s (fun t => t.pairLink = false ∧
    t.pairState = 5)) ∧
  -- a syncing device becomes STALE
  (∀ (s : State), s.pairLink = true → s.pairState = 2 → Runs (.pairStatusTimeout) s (fun t => t.pairLink = false ∧ t.pairState = 6)) ∧
  -- without a commit that waits for CONFIRM there is no timeout
  (∀ (s : State), (s.mustConfirm = false ∨ s.pair.sent = []) → Runs (.mirrorTimeout) s (fun t => t = s)) ∧
  -- when both hold, device B releases
  (∀ (s : State), s.pairHold = true → s.pairRole = 2 →
    Runs (.bothHolding) s (fun t => t.isF Reg.SMP_PAIR_STAT Fld.SMP_PAIR_STAT_HOLD = false ∧ t.pairState = 6 ∧
    t.isF Reg.SMP_PAIR_STAT Fld.SMP_PAIR_STAT_SENSE = true)) ∧
  -- and the other goes on
  (∀ (s : State), s.pairHold = true → s.pairRole ≠ 2 →
    Runs (.bothHolding) s (fun t => t.isF Reg.SMP_PAIR_STAT Fld.SMP_PAIR_STAT_HOLD = true ∧ t.pairState = s.pairState ∧
    t.isF Reg.SMP_PAIR_STAT Fld.SMP_PAIR_STAT_SENSE = true)) ∧
  -- a message with a bad check is dropped
  (∀ (b : Bytes) (s : State), (b.length ≠ 20 + u16 b 2 ∨ u32 b (16 + u16 b 2) ≠ crc32c (b.take (16 + u16 b 2))) →
    Runs (.pairMessageReceive b) s (fun t => t = s)) ∧
  -- one already received has no effect again
  (∀ (b : Bytes) (s : State), 1 ≤ s.pairState → s.noGrant 9 3 = false → b.length = 20 + u16 b 2 →
    u32 b (16 + u16 b 2) = crc32c (b.take (16 + u16 b 2)) → 2 ≤ u8 b 0 → un b 8 8 ≤ s.pair.rxSeq →
    Runs (.pairMessageReceive b) s (fun t => t = s)) ∧
  -- one after a gap is not taken: a resend is asked for
  (∀ (b : Bytes) (s : State), 1 ≤ s.pairState → s.noGrant 9 3 = false → b.length = 20 + u16 b 2 →
    u32 b (16 + u16 b 2) = crc32c (b.take (16 + u16 b 2)) → 2 ≤ u8 b 0 → s.pair.rxSeq + 1 < un b 8 8 →
    Runs (.pairMessageReceive b) s (fun t => t.pair = s.pair ∧ t.out.length = s.out.length + 1 ∧ t.sto = s.sto)) ∧
  -- RELEASE tells that the partner no longer holds
  (∀ (b : Bytes) (s : State), 1 ≤ s.pairState → s.noGrant 9 3 = false → b.length = 20 + u16 b 2 →
    u32 b (16 + u16 b 2) = crc32c (b.take (16 + u16 b 2)) → u8 b 0 = 8 → un b 8 8 = s.pair.rxSeq + 1 →
    Runs (.pairMessageReceive b) s (fun t => t.pair.rxSeq = un b 8 8 ∧ t.pair.released = true ∧ t.peerHolds = false ∧
    t.pairState = s.pairState)) ∧
  -- CONFIRM ends the wait of what it covers
  (∀ (b : Bytes) (s : State), 1 ≤ s.pairState → s.noGrant 9 3 = false → b.length = 20 + u16 b 2 →
    u32 b (16 + u16 b 2) = crc32c (b.take (16 + u16 b 2)) → u8 b 0 = 7 → un b 8 8 = s.pair.rxSeq + 1 →
    Runs (.pairMessageReceive b) s (fun t => t.pair.rxSeq = un b 8 8 ∧ t.pair.confirmed = max s.pair.confirmed (un b 16 8) ∧
    (t.pair.sent = s.pair.sent.filter (fun e => decide (un b 16 8 < e.1))))) ∧
  -- PAIR_SENSE_N high without a reason starts no takeover
  (∀ (s : State), s.pairReason = 0 → Runs (.pairSenseStable) s (fun t => t.pair = s.pair ∧ t.pairHold = s.pairHold ∧
    t.isF Reg.SMP_PAIR_STAT Fld.SMP_PAIR_STAT_SENSE = false)) ∧
  -- with one, PAIR_HOLD_N is driven, and the device is not active yet
  (∀ (s : State), s.pairEn = true → s.pairAble = true → s.pairHold = false → s.pair.taking = 0 → s.pairReason ≠ 0 →
    Runs (.pairSenseStable) s (fun t => t.isF Reg.SMP_PAIR_STAT Fld.SMP_PAIR_STAT_HOLD = true ∧ t.pair.taking = s.pairReason ∧
    t.pairState = s.pairState)) ∧
  -- PAIR_SENSE_N low a millisecond later: the takeover is given up
  (∀ (low : Bool) (s : State), s.pair.taking ≠ 0 → low = true →
    Runs (.takeoverSample low) s (fun t => t.isF Reg.SMP_PAIR_STAT Fld.SMP_PAIR_STAT_HOLD = false ∧ t.pair.taking = 0 ∧
    t.pairState = s.pairState ∧ t.ao = s.ao)) ∧
  -- still high: the device is active in a new epoch
  (∀ (low : Bool) (s : State), s.pair.taking ≠ 0 → s.pair.taking ≠ 3 → s.pair.taking < 8 → low = false → s.smp.fifo.length < 256 →
    Runs (.takeoverSample low) s (fun t => (t.pairState = if s.pairLink then 4 else 5) ∧ t.ao.epoch = (s.ao.epoch + 1) % 2 ^ 32 ∧
    t.getF Reg.SMP_PAIR_STAT Fld.SMP_PAIR_STAT_REASON = s.pair.taking ∧ t.pair.held = false)) ∧
  -- a grant lets an active device that holds its commits go on alone in the granted epoch
  (∀ (exp : Nat) (s : State), exp < 2 ^ 32 → s.pairState = 4 → s.pair.held = true → s.ao.epoch < s.witEp →
    (s.wrN Reg.SMP_PAIR_WIT_EXP exp).witAhead = true → Runs (.witnessInstall exp) s (fun t => t.pairState = 5 ∧ t.ao.epoch = s.witEp ∧
    t.pair.held = false ∧ t.pair.granted = true)) ∧
  -- a device that has its grant waits no more
  (∀ (s : State), s.pair.granted = true → Runs (.witnessWaitExpire) s (fun t => t = s)) ∧
  -- without a grant a device alone releases
  (∀ (s : State), s.pair.granted = false → s.pairState = 5 → Runs (.witnessWaitExpire) s (fun t => t.pairState = 6 ∧
    t.isF Reg.SMP_PAIR_STAT Fld.SMP_PAIR_STAT_HOLD = false)) ∧
  -- a grant that runs out without renewal ends the time alone
  (∀ (s : State), s.pairState = 5 → s.pair.granted = true → s.witAhead = false → Runs (.witnessExpire) s (fun t => t.pairState = 6 ∧
    t.isF Reg.SMP_PAIR_STAT Fld.SMP_PAIR_STAT_HOLD = false)) ∧
  -- one that lies ahead does not
  (∀ (s : State), s.witAhead = true → Runs (.witnessExpire) s (fun t => t = s)) ∧
  -- YIELD sends RELEASE, lets PAIR_HOLD_N go and leaves the device STALE
  (∀ (s : State), s.pairHold = true → Runs (.pairYield) s (fun t => t.pairState = 6 ∧
    t.isF Reg.SMP_PAIR_STAT Fld.SMP_PAIR_STAT_HOLD = false ∧ t.pair.held = true ∧ t.pair.txSeq = s.pair.txSeq + 1)) ∧
  -- a device that does not hold has nothing to yield
  (∀ (s : State), s.pairHold = false → Runs (.pairYield) s (fun t => t = s)) ∧
  -- START without a partner needs a grant
  (∀ (s : State), s.pairState = 1 → s.pairLink = false →
    Runs (.pairStartTimeout) s (fun t => t.isF Reg.SMP_INT_STAT Fld.SMP_INT_STAT_WIT_NEED = true ∧ t.pair = s.pair ∧ t.pairState = 1)) ∧
  -- no resynchronisation without the link
  (∀ (s : State), s.pairLink = false → Runs (.resyncStart) s (fun t => t = s)) ∧
  -- a STALE device takes the epoch of its active partner and syncs
  (∀ (s : State), s.pairLink = true → s.pairState = 6 → s.peerHolds = true → Runs (.resyncStart) s (fun t => t.pairState = 2 ∧
    t.ao.epoch = s.pair.peerEpoch ∧ t.syncPhase = 1 ∧ t.pair.live = [])) ∧
  -- with the end of phase 2 it is a standby, history still pending
  (∀ (s : State), s.syncPhase = 2 → s.pairState = 2 → Runs (.resyncPhaseDone) s (fun t => t.pairState = 3 ∧ t.syncPhase = 3 ∧
    t.isF Reg.SMP_PAIR_STAT Fld.SMP_PAIR_STAT_HIST_PENDING = true)) ∧
  -- with the end of phase 3 nothing is pending
  (∀ (s : State), s.syncPhase = 3 → Runs (.resyncPhaseDone) s (fun t => t.syncPhase = 0 ∧
    t.isF Reg.SMP_PAIR_STAT Fld.SMP_PAIR_STAT_HIST_PENDING = false ∧ t.pairState = s.pairState))

/-- A report below MIN_SEV is counted and not recorded; every accepted one at or above IRQ_SEV sets SEV_HIGH. Formalises R472, quoted
in OBLIGATIONS.json. Clauses, each with the command it is about and what its completion leaves. -/
def Obligations.ReportsBelowMinSevAreCountedOnly : Prop :=
  -- a report of severity below MIN_SEV adds one to SMP_LOST_CNT of its severity; the log, the sequence number and SEV_HIGH stay
  (∀ (e : SmpEntry) (r : List SmpEntry) (s : State), s.smp.fifo = e :: r → e.sev < s.getF Reg.SMP_CTL Fld.SMP_CTL_MIN_SEV →
    Runs (.samplerFifoTake) s (fun t => t.num (0x040040 + 4 * e.sev) = min (s.num (0x040040 + 4 * e.sev) + 1) 0xFFFFFFFF ∧
    t.smp.slots = s.smp.slots ∧ t.smp.last = s.smp.last ∧ t.ao.seq = s.ao.seq ∧ t.num Reg.SMP_INT_STAT = s.num Reg.SMP_INT_STAT ∧
    t.smp.fifo = r)) ∧
  -- an accepted report of severity at or above IRQ_SEV sets SEV_HIGH, whether it becomes a record or is absorbed
  (∀ (e : SmpEntry) (r : List SmpEntry) (s : State), s.smp.fifo = e :: r → s.getF Reg.SMP_CTL Fld.SMP_CTL_MIN_SEV ≤ e.sev →
    s.getF Reg.SMP_CTL Fld.SMP_CTL_IRQ_SEV ≤ e.sev →
    Runs (.samplerFifoTake) s (fun t => t.isF Reg.SMP_INT_STAT Fld.SMP_INT_STAT_SEV_HIGH = true))

/-- A write of SHU_CH_c_PROG sets the active pointer of a channel idle or in error, else the shadow pointer. Formalises R406, quoted
in OBLIGATIONS.json. Clauses, each with the command it is about and what its completion leaves. -/
def Obligations.ProgramWritesActByChannelState : Prop :=
  -- while the channel is idle or in error, the write sets the active pointer, which SHU_CH_c_PC shows
  (∀ (c v : Nat) (s : State), c < 32 → v < 2 ^ 32 → (s.chState c = 0 ∨ s.chState c = 5) →
    Runs (.progWrite c v) s (fun t => (t.chan c).active = v ∧ t.chPc c = v ∧ (t.chan c).shadow = (s.chan c).shadow ∧
    t.chState c = s.chState c ∧
    t.isF (Reg.SHU_CH_STAT c) Fld.SHU_CH_STAT_SHADOW_VALID = s.isF (Reg.SHU_CH_STAT c) Fld.SHU_CH_STAT_SHADOW_VALID)) ∧
  -- otherwise it sets the shadow pointer and SHADOW_VALID, in place of any shadow not yet taken
  (∀ (c v : Nat) (s : State), c < 32 → v < 2 ^ 32 → s.chState c ≠ 0 → s.chState c ≠ 5 →
    Runs (.progWrite c v) s (fun t => (t.chan c).shadow = v ∧ t.isF (Reg.SHU_CH_STAT c) Fld.SHU_CH_STAT_SHADOW_VALID = true ∧
    (t.chan c).active = (s.chan c).active ∧ t.chPc c = s.chPc c ∧ t.chState c = s.chState c))

/-- Field cores and the hoop write records of their own codes and paths; any other code is refused. Formalises R479, quoted in
OBLIGATIONS.json. Clauses, each with the command it is about and what its completion leaves. -/
def Obligations.FirmwareWritesItsOwnRecordsOnly : Prop :=
  -- a field core writes codes 0x7800 to 0x7FFF, under 0x703F and 64 for each core
  (∀ (init sev code : Nat) (s : State), (1 ≤ init ∧ init ≤ 4 ∧ 0x7800 ≤ code ∧ code ≤ 0x7FFF) → sev < 7 → s.smp.fifo.length < 256 →
    Runs (.samplerSwRecord init sev code) s (fun t => Logged s t code sev (0x703F + 64 * (init - 1)) s.swData ∧
    t.num Reg.SMP_INT_STAT = s.num Reg.SMP_INT_STAT)) ∧
  -- the hoop writes codes 0x8800 to 0x8FFF, under 0x803F
  (∀ (init sev code : Nat) (s : State), (init = 0 ∧ 0x8800 ≤ code ∧ code ≤ 0x8FFF) → sev < 7 → s.smp.fifo.length < 256 →
    Runs (.samplerSwRecord init sev code) s (fun t => Logged s t code sev 0x803F s.swData ∧
    t.num Reg.SMP_INT_STAT = s.num Reg.SMP_INT_STAT)) ∧
  -- at any severity it is the report of those fields, the ladder of severity 7 included
  (∀ (init sev code : Nat) (s : State), sev < 8 → ((1 ≤ init ∧ init ≤ 4 ∧ 0x7800 ≤ code ∧ code ≤ 0x7FFF) ∨ (init = 0 ∧ 0x8800 ≤ code ∧
    code ≤ 0x8FFF)) →
    Runs (.samplerSwRecord init sev code) s (fun t => Host.Outcome.next t = exec (.samplerReport code sev (if init = 0 then 0x803F else 0x703F + 64 * (init - 1)) s.swData) s)) ∧
  -- a write of any other code is ignored and sets SW_REFUSED
  (∀ (init sev code : Nat) (s : State), (¬ (1 ≤ init ∧ init ≤ 4 ∧ 0x7800 ≤ code ∧ code ≤ 0x7FFF)) → (¬ (init = 0 ∧ 0x8800 ≤ code ∧
    code ≤ 0x8FFF)) → Runs (.samplerSwRecord init sev code) s (fun t => t.isF Reg.SMP_INT_STAT Fld.SMP_INT_STAT_SW_REFUSED = true ∧
    t.smp = s.smp ∧ t.ladder = s.ladder ∧ t.ao = s.ao))
end

