-- ==== Sys2Proof/Laws/Table.lean ====
section
/-! SUPPORT. Sys2Proof/Laws/Table.lean: what a table reads after a write, the canonical form of tables, and fields of words. -/

set_option Elab.async false

namespace Sys2Proof.Machine

variable {α : Type}

/-! ## Reads after writes. -/

theorem tget_tput (d : Nat → α) (t : Tbl α) (k j : Nat) (v : α) : tget d (tput t k v) j = if j = k then v else tget d t j := by
  induction t with
  | nil => simp [tput, tget, eq_comm]
  | cons e r ih =>
    obtain ⟨i, w⟩ := e
    simp only [tput]
    split
    · by_cases h : j = k <;> simp [tget, h, eq_comm]
      intro h'; exact absurd h'.symm h
    · split
      · subst_vars
        by_cases h : j = i <;> simp [tget, h, eq_comm]
      · simp only [tget, ih]
        split <;> rename_i h1 h2
        · subst_vars
          split <;> simp_all
        · rfl

theorem tget_tdel (d : Nat → α) (t : Tbl α) (k j : Nat) : tget d (tdel t k) j = if j = k then d j else tget d t j := by
  induction t with
  | nil => simp [tdel, tget]
  | cons e r ih =>
    obtain ⟨i, w⟩ := e
    unfold tdel at *
    by_cases h : i = k
    · subst h
      simp only [List.filter_cons, ne_eq, not_true_eq_false, decide_false, Bool.false_eq_true, if_false, ih, tget]
      by_cases hj : j = i
      · simp [hj]
      · have : ¬ i = j := fun e => hj e.symm
        simp [hj, this]
    · simp only [List.filter_cons, ne_eq, h, not_false_eq_true, decide_true, if_true, tget, ih]
      by_cases hj : i = j
      · subst hj; simp [h]
      · simp [hj]

theorem tget_tset [DecidableEq α] (d : Nat → α) (t : Tbl α) (k j : Nat) (v : α) :
    tget d (tset d t k v) j = if j = k then v else tget d t j := by
  unfold tset
  split
  · rename_i h
    rw [tget_tdel]
    by_cases hj : j = k <;> simp [hj, h]
  · exact tget_tput d t k j v

theorem tget_tset_same [DecidableEq α] (d : Nat → α) (t : Tbl α) (k : Nat) (v : α) : tget d (tset d t k v) k = v := by
  simp [tget_tset]

/-! ## Canonical form. -/

theorem canon_nil (d : Nat → α) : Canon d [] := by simp [Canon]

theorem canon_filter {d : Nat → α} {t : Tbl α} (h : Canon d t) (p : Nat × α → Bool) : Canon d (t.filter p) := by
  refine ⟨?_, fun e he => h.2 e (List.mem_filter.mp he).1⟩
  exact h.1.sublist (List.Sublist.map _ List.filter_sublist)

theorem tput_keys (t : Tbl α) (k : Nat) (v : α) : ∀ e ∈ tput t k v, e = (k, v) ∨ e ∈ t := by
  induction t with
  | nil => simp [tput]
  | cons a r ih =>
    obtain ⟨i, w⟩ := a
    intro e he
    simp only [tput] at he
    split at he
    · simpa using he
    · split at he
      · simp only [List.mem_cons] at he ⊢
        tauto
      · simp only [List.mem_cons] at he ⊢
        rcases he with he | he
        · tauto
        · rcases ih e he with h | h <;> tauto

theorem canon_tput {d : Nat → α} {t : Tbl α} (h : Canon d t) (k : Nat) (v : α) (hv : v ≠ d k) : Canon d (tput t k v) := by
  refine ⟨?_, ?_⟩
  · have h1 := h.1
    clear h
    induction t with
    | nil => simp [tput]
    | cons a r ih =>
      obtain ⟨i, w⟩ := a
      simp only [List.map_cons, List.pairwise_cons] at h1
      simp only [tput]
      split
      · rename_i hk
        simp only [List.map_cons, List.pairwise_cons, List.mem_cons, forall_eq_or_imp]
        exact ⟨⟨hk, fun b hb => Nat.lt_trans hk (h1.1 b hb)⟩, h1.1, h1.2⟩
      · split
        · subst_vars
          simpa using h1
        · simp only [List.map_cons, List.pairwise_cons]
          refine ⟨?_, ih h1.2⟩
          intro b hb
          obtain ⟨e, he, rfl⟩ := List.mem_map.mp hb
          rcases tput_keys r k v e he with rfl | h'
          · simp; omega
          · exact h1.1 _ (List.mem_map.mpr ⟨e, h', rfl⟩)
  · intro e he
    rcases tput_keys t k v e he with rfl | h'
    · exact hv
    · exact h.2 e h'

theorem canon_tset [DecidableEq α] {d : Nat → α} {t : Tbl α} (h : Canon d t) (k : Nat) (v : α) : Canon d (tset d t k v) := by
  unfold tset
  split
  · exact canon_filter h _
  · rename_i hv
    exact canon_tput h k v hv

/-! ## Fields of words. -/

theorem fput_getLsbD (f : BitRange) (w : Word) (v i : Nat) (hi : i < 32) (hl : f.lo ≤ f.hi) :
    (fput f w v).getLsbD i = if f.lo ≤ i ∧ i ≤ f.hi then v.testBit (i - f.lo) else w.getLsbD i := by
  unfold fput
  simp only [BitVec.getLsbD_or, BitVec.getLsbD_and, BitVec.getLsbD_not, BitVec.getLsbD_ofNat, hi, decide_true, Bool.true_and]
  rw [Nat.testBit_mul_two_pow, Nat.testBit_mul_two_pow, Nat.testBit_two_pow_sub_one, Nat.testBit_mod_two_pow]
  by_cases h1 : f.lo ≤ i
  · by_cases h2 : i ≤ f.hi
    · have : i - f.lo < bwidth f := by unfold bwidth; omega
      simp [h1, h2, this]
    · have : ¬ i - f.lo < bwidth f := by unfold bwidth; omega
      simp [h1, h2, this]
  · simp [h1]

theorem fget_testBit (f : BitRange) (w : Word) (i : Nat) :
    (fget f w).testBit i = (decide (i < bwidth f) && w.getLsbD (f.lo + i)) := by
  unfold fget
  rw [Nat.testBit_mod_two_pow, Nat.testBit_div_two_pow, BitVec.getLsbD, Nat.add_comm]

/-- A field just written reads as the value, modulo its width. -/
theorem fget_fput (f : BitRange) (w : Word) (v : Nat) (h : f.hi < 32) (hl : f.lo ≤ f.hi) :
    fget f (fput f w v) = v % 2 ^ bwidth f := by
  apply Nat.eq_of_testBit_eq
  intro i
  rw [fget_testBit, Nat.testBit_mod_two_pow]
  by_cases hb : i < bwidth f
  · have h1 : f.lo + i < 32 := by unfold bwidth at hb; omega
    have h2 : f.lo + i ≤ f.hi := by unfold bwidth at hb; omega
    rw [fput_getLsbD f w v _ h1 hl]
    simp [hb, h2]
  · simp [hb]

/-- A field apart from the one written reads as before. -/
theorem fget_fput_ne (f g : BitRange) (w : Word) (v : Nat) (hl : f.lo ≤ f.hi) (hg : g.hi < 32)
    (hd : g.hi < f.lo ∨ f.hi < g.lo) : fget g (fput f w v) = fget g w := by
  apply Nat.eq_of_testBit_eq
  intro i
  rw [fget_testBit, fget_testBit]
  by_cases hb : i < bwidth g
  · have h1 : g.lo + i < 32 := by unfold bwidth at hb; omega
    have h2 : ¬ (f.lo ≤ g.lo + i ∧ g.lo + i ≤ f.hi) := by unfold bwidth at hb; omega
    rw [fput_getLsbD f w v _ h1 hl]
    simp only [hb, h2, if_false]
  · simp [hb]

/-- A bit after a bit was set or cleared. -/
theorem bit_setBit (w : Word) (i j : Nat) (b : Bool) (hi : i < 32) : bit (setBit w i b) j = if j = i then b else bit w j := by
  unfold bit setBit
  by_cases hj : j < 32
  · rw [fput_getLsbD _ _ _ _ hj (Nat.le_refl i)]
    by_cases h : j = i
    · subst h
      cases b <;> simp
    · have : ¬ (i ≤ j ∧ j ≤ i) := by omega
      simp [h, this]
  · have h : j ≠ i := by omega
    rw [if_neg h, BitVec.getLsbD_of_ge _ _ (by omega), BitVec.getLsbD_of_ge _ _ (by omega)]

end Sys2Proof.Machine
end

