-- ==== Sys2Proof/Laws/Keeps.lean ====
section
/-! SUPPORT. Sys2Proof/Laws/Keeps.lean: the relation that every operation satisfies: it changes only named parts of the state,
keeps the invariant, and lowers no floor and no count. One lemma for each operation of Machine/Ops.lean. -/

set_option Elab.async false

namespace Sys2Proof.Machine

/-! ## Lists of parts. -/

/-- Is every part of A in B? -/
def Part.sub (A B : List Part) : Bool := A.all (fun p => decide (p ∈ B))

theorem Part.sub_mem {A B : List Part} (h : Part.sub A B = true) {p : Part} (hp : p ∈ A) : p ∈ B := by
  simpa using List.all_eq_true.mp h p hp

theorem Part.sub_trans {A B C : List Part} (h : Part.sub A B = true) (g : Part.sub B C = true) : Part.sub A C = true := by
  simp only [Part.sub, List.all_eq_true, decide_eq_true_eq] at *
  exact fun p hp => g p (h p hp)

/-- Keys of a port's common registers and of its personality's parameter block lie in window 16. -/
theorem Part.win_port {L : List Part} {b n o : Nat} (hm : Part.win 16 ∈ L) (hb : 0x100000 ≤ b := by decide) :
    Part.win (window (b + n * 0x1000 + o)) ∈ L := by
  have : window (b + n * 0x1000 + o) = 16 := by unfold window; omega
  rw [this]; exact hm

theorem Part.win_port' {L : List Part} {b n o i : Nat} (hm : Part.win 16 ∈ L) (hb : 0x100000 ≤ b := by decide) :
    Part.win (window (b + n * 0x1000 + o + i)) ∈ L := by
  have : window (b + n * 0x1000 + o + i) = 16 := by unfold window; omega
  rw [this]; exact hm

/-- Keys of an array of registers that lies within one window. -/
theorem Part.win_arr {L : List Part} {b c i N : Nat} (hm : Part.win (window b) ∈ L) (h : ∀ j < N, window (b + c * j) = window b)
    (hN : 0 < N) : Part.win (window (b + c * (i % N))) ∈ L := by
  rw [h _ (Nat.mod_lt i hN)]; exact hm

theorem Part.win_mem {L : List Part} {k w : Nat} (h : window k = w) (hm : Part.win w ∈ L) : Part.win (window k) ∈ L := by
  rw [h]; exact hm

theorem Part.win_rest (k : Nat) : Part.win (window k) ∈ Part.rest := by
  have h : window k ≤ 16 := by unfold window; omega
  have : ∀ w ≤ 16, Part.win w ∈ Part.rest := by decide
  exact this _ h

/-! ## What an operation keeps. -/

/-- No floor of an image kind and no number of programmed entries is lower in t than in s (R442). -/
def NoLower (s t : State) : Prop :=
  (∀ k, s.hoop.floors.getD k 0 ≤ t.hoop.floors.getD k 0) ∧ (∀ k, s.hoop.floorUsed.getD k 0 ≤ t.hoop.floorUsed.getD k 0) ∧
    s.hoop.domainUsed ≤ t.hoop.domainUsed ∧ s.hoop.pairUsed ≤ t.hoop.pairUsed ∧ s.hoop.debugUsed ≤ t.hoop.debugUsed ∧
    s.hoop.unsealUsed ≤ t.hoop.unsealUsed

theorem NoLower.of_hoop {s t : State} (h : t.hoop = s.hoop) : NoLower s t := by
  simp [NoLower, h]

theorem NoLower.trans {s t u : State} (h : NoLower s t) (g : NoLower t u) : NoLower s u :=
  ⟨fun k => (h.1 k).trans (g.1 k), fun k => (h.2.1 k).trans (g.2.1 k), h.2.2.1.trans g.2.2.1, h.2.2.2.1.trans g.2.2.2.1,
    h.2.2.2.2.1.trans g.2.2.2.2.1, h.2.2.2.2.2.trans g.2.2.2.2.2⟩

/-- t follows from s by operations that touch parts of L at most, keep the invariant, and lower no floor and no count. -/
structure Keeps (L : List Part) (s t : State) : Prop where
  only : Only L s t
  wf : s.Wf → t.Wf
  low : NoLower s t

theorem Same.refl (p : Part) (s : State) : Same p s s := by cases p <;> simp [Same]

theorem Same.trans {p : Part} {s t u : State} (h : Same p s t) (g : Same p t u) : Same p s u := by
  cases p <;> first | exact Eq.trans g h | exact fun k hk => (g k hk).trans (h k hk)

namespace Keeps

variable {L : List Part} {s t : State}

theorem refl (L : List Part) (s : State) : Keeps L s s := ⟨fun p _ => Same.refl p s, id, .of_hoop rfl⟩

theorem trans {L' : List Part} {u : State} (h : Keeps L s t) (g : Keeps L' t u) (hL : Part.sub L' L = true := by decide) : Keeps L s u :=
  ⟨fun p hp => (h.only p hp).trans (g.only p (fun hm => hp (Part.sub_mem hL hm))), fun w => g.wf (h.wf w), h.low.trans g.low⟩

theorem mono {L' : List Part} (g : Keeps L' s t) (hL : Part.sub L' L = true) : Keeps L s t := (refl L s).trans g hL

/-- A record update of fields that lie in L, none of them one that the invariant speaks of. -/
theorem upd {u : State} (h : Keeps L s t) (ho : ∀ p, p ∈ L ∨ Same p t u) (hr : u.regs = t.regs) (hd : u.dram = t.dram)
    (hh : u.hoop = t.hoop) (hs : u.smp = t.smp) : Keeps L s u :=
  ⟨fun p hp => (h.only p hp).trans ((ho p).resolve_left hp), fun w => by
    have := h.wf w
    simpa only [State.Wf, hr, hd, hh, hs] using this, h.low.trans (.of_hoop hh)⟩

/-- The same, of a state written out field by field. -/
theorem record {regs dram fab dramFit ports ink mnd drn sto msm tot time upl shu intr hoop upd nor norHeld ao smp ladder pair pins busData out draws} (h : Keeps L s t)
    (ho : ∀ p, p ∈ L ∨ Same p t ⟨t.pending, regs, dram, fab, dramFit, ports, ink, mnd, drn, sto, msm, tot, time, upl, shu, intr, hoop, upd, nor, norHeld, ao, smp, ladder, pair, pins, busData, out, draws⟩)
    (hr : regs = t.regs) (hd : dram = t.dram) (hh : hoop = t.hoop) (hs : smp = t.smp) :
    Keeps L s ⟨t.pending, regs, dram, fab, dramFit, ports, ink, mnd, drn, sto, msm, tot, time, upl, shu, intr, hoop, upd, nor, norHeld, ao, smp, ladder, pair, pins, busData, out, draws⟩ := h.upd ho hr hd hh hs

/-- An update of the hoop that keeps every count. -/
theorem hoopUpd {u : State} (h : Keeps L s t) (ho : ∀ p, p ∈ L ∨ Same p t u) (hr : u.regs = t.regs) (hd : u.dram = t.dram)
    (hs : u.smp = t.smp) (hh : u.hoop.domainUsed = t.hoop.domainUsed ∧ u.hoop.pairUsed = t.hoop.pairUsed ∧
      u.hoop.debugUsed = t.hoop.debugUsed ∧ u.hoop.unsealUsed = t.hoop.unsealUsed ∧ u.hoop.floorUsed = t.hoop.floorUsed ∧
      u.hoop.floors = t.hoop.floors) : Keeps L s u :=
  ⟨fun p hp => (h.only p hp).trans ((ho p).resolve_left hp), fun w => by
    have := h.wf w
    simpa only [State.Wf, HoopState.countsOk, hr, hd, hs, hh.1, hh.2.1, hh.2.2.1, hh.2.2.2.1, hh.2.2.2.2.1, hh.2.2.2.2.2] using this,
    h.low.trans (by
      simp only [NoLower, hh.1, hh.2.1, hh.2.2.1, hh.2.2.2.1, hh.2.2.2.2.1, hh.2.2.2.2.2]
      simp)⟩

/-- A first component that a match has named. -/
theorem fst {α : Type} {x : State × α} {u : State} {a : α} (e : x = (u, a)) (h : Keeps L s x.1) : Keeps L s u := by
  subst e; exact h

/-- A second component that a match has named. -/
theorem snd {α : Type} {x : α × State} {u : State} {a : α} (e : x = (a, u)) (h : Keeps L s x.2) : Keeps L s u := by
  subst e; exact h

/-- A state within an option that a match has named. -/
theorem some' {x : Option State} {u : State} (e : x = some u) (h : ∀ v, x = some v → Keeps L s v) : Keeps L s u := h u e

theorem when' (h : Keeps L s t) (c : Bool) {f : State → State} (hf : ∀ u, Keeps L s u → Keeps L s (f u)) : Keeps L s (t.when c f) := by
  unfold State.when
  split
  · exact hf t h
  · exact h

theorem each' {α : Type} (h : Keeps L s t) (l : List α) {f : α → State → State} (hf : ∀ a u, Keeps L s u → Keeps L s (f a u)) :
    Keeps L s (t.each l f) := by
  unfold State.each
  induction l generalizing t with
  | nil => exact h
  | cons a r ih => exact ih (hf a t h)

theorem foldl' {α : Type} (h : Keeps L s t) (l : List α) {f : State → α → State} (hf : ∀ a u, Keeps L s u → Keeps L s (f u a)) :
    Keeps L s (l.foldl f t) := by
  induction l generalizing t with
  | nil => exact h
  | cons a r ih => exact ih (hf a t h)

theorem foldlFst {α β : Type} {x : State × β} (h : Keeps L s x.1) (l : List α) {f : State × β → α → State × β}
    (hf : ∀ a y, Keeps L s y.1 → Keeps L s (f y a).1) : Keeps L s (l.foldl f x).1 := by
  induction l generalizing x with
  | nil => exact h
  | cons a r ih => exact ih (hf a x h)

/-! ## Record updates of one field. -/

theorem f_fab {x} (h : Keeps L s t) (hL : Part.fab ∈ L := by decide) : Keeps L s { t with fab := x } :=
  h.upd (fun p => by cases p <;> first | exact .inr rfl | exact .inl hL | exact .inr fun _ _ => rfl) rfl rfl rfl rfl

theorem f_dramFit {x} (h : Keeps L s t) (hL : Part.dramFit ∈ L := by decide) : Keeps L s { t with dramFit := x } :=
  h.upd (fun p => by cases p <;> first | exact .inr rfl | exact .inl hL | exact .inr fun _ _ => rfl) rfl rfl rfl rfl

theorem f_ports {x} (h : Keeps L s t) (hL : Part.ports ∈ L := by decide) : Keeps L s { t with ports := x } :=
  h.upd (fun p => by cases p <;> first | exact .inr rfl | exact .inl hL | exact .inr fun _ _ => rfl) rfl rfl rfl rfl

theorem f_ink {x} (h : Keeps L s t) (hL : Part.ink ∈ L := by decide) : Keeps L s { t with ink := x } :=
  h.upd (fun p => by cases p <;> first | exact .inr rfl | exact .inl hL | exact .inr fun _ _ => rfl) rfl rfl rfl rfl

theorem f_mnd {x} (h : Keeps L s t) (hL : Part.mnd ∈ L := by decide) : Keeps L s { t with mnd := x } :=
  h.upd (fun p => by cases p <;> first | exact .inr rfl | exact .inl hL | exact .inr fun _ _ => rfl) rfl rfl rfl rfl

theorem f_drn {x} (h : Keeps L s t) (hL : Part.drn ∈ L := by decide) : Keeps L s { t with drn := x } :=
  h.upd (fun p => by cases p <;> first | exact .inr rfl | exact .inl hL | exact .inr fun _ _ => rfl) rfl rfl rfl rfl

theorem f_sto {x} (h : Keeps L s t) (hL : Part.sto ∈ L := by decide) : Keeps L s { t with sto := x } :=
  h.upd (fun p => by cases p <;> first | exact .inr rfl | exact .inl hL | exact .inr fun _ _ => rfl) rfl rfl rfl rfl

theorem f_msm {x} (h : Keeps L s t) (hL : Part.msm ∈ L := by decide) : Keeps L s { t with msm := x } :=
  h.upd (fun p => by cases p <;> first | exact .inr rfl | exact .inl hL | exact .inr fun _ _ => rfl) rfl rfl rfl rfl

theorem f_tot {x} (h : Keeps L s t) (hL : Part.tot ∈ L := by decide) : Keeps L s { t with tot := x } :=
  h.upd (fun p => by cases p <;> first | exact .inr rfl | exact .inl hL | exact .inr fun _ _ => rfl) rfl rfl rfl rfl

theorem f_time {x} (h : Keeps L s t) (hL : Part.time ∈ L := by decide) : Keeps L s { t with time := x } :=
  h.upd (fun p => by cases p <;> first | exact .inr rfl | exact .inl hL | exact .inr fun _ _ => rfl) rfl rfl rfl rfl

theorem f_upl {x} (h : Keeps L s t) (hL : Part.upl ∈ L := by decide) : Keeps L s { t with upl := x } :=
  h.upd (fun p => by cases p <;> first | exact .inr rfl | exact .inl hL | exact .inr fun _ _ => rfl) rfl rfl rfl rfl

theorem f_shu {x} (h : Keeps L s t) (hL : Part.shu ∈ L := by decide) : Keeps L s { t with shu := x } :=
  h.upd (fun p => by cases p <;> first | exact .inr rfl | exact .inl hL | exact .inr fun _ _ => rfl) rfl rfl rfl rfl

theorem f_intr {x} (h : Keeps L s t) (hL : Part.intr ∈ L := by decide) : Keeps L s { t with intr := x } :=
  h.upd (fun p => by cases p <;> first | exact .inr rfl | exact .inl hL | exact .inr fun _ _ => rfl) rfl rfl rfl rfl

theorem f_upd {x} (h : Keeps L s t) (hL : Part.upd ∈ L := by decide) : Keeps L s { t with upd := x } :=
  h.upd (fun p => by cases p <;> first | exact .inr rfl | exact .inl hL | exact .inr fun _ _ => rfl) rfl rfl rfl rfl

theorem f_nor {x} (h : Keeps L s t) (hL : Part.nor ∈ L := by decide) : Keeps L s { t with nor := x } :=
  h.upd (fun p => by cases p <;> first | exact .inr rfl | exact .inl hL | exact .inr fun _ _ => rfl) rfl rfl rfl rfl

theorem f_norHeld {x} (h : Keeps L s t) (hL : Part.norHeld ∈ L := by decide) : Keeps L s { t with norHeld := x } :=
  h.upd (fun p => by cases p <;> first | exact .inr rfl | exact .inl hL | exact .inr fun _ _ => rfl) rfl rfl rfl rfl

theorem f_ao {x} (h : Keeps L s t) (hL : Part.ao ∈ L := by decide) : Keeps L s { t with ao := x } :=
  h.upd (fun p => by cases p <;> first | exact .inr rfl | exact .inl hL | exact .inr fun _ _ => rfl) rfl rfl rfl rfl

theorem f_ladder {x} (h : Keeps L s t) (hL : Part.ladder ∈ L := by decide) : Keeps L s { t with ladder := x } :=
  h.upd (fun p => by cases p <;> first | exact .inr rfl | exact .inl hL | exact .inr fun _ _ => rfl) rfl rfl rfl rfl

theorem f_pair {x} (h : Keeps L s t) (hL : Part.pair ∈ L := by decide) : Keeps L s { t with pair := x } :=
  h.upd (fun p => by cases p <;> first | exact .inr rfl | exact .inl hL | exact .inr fun _ _ => rfl) rfl rfl rfl rfl

theorem f_pins {x} (h : Keeps L s t) (hL : Part.pins ∈ L := by decide) : Keeps L s { t with pins := x } :=
  h.upd (fun p => by cases p <;> first | exact .inr rfl | exact .inl hL | exact .inr fun _ _ => rfl) rfl rfl rfl rfl

theorem f_busData {x} (h : Keeps L s t) (hL : Part.busData ∈ L := by decide) : Keeps L s { t with busData := x } :=
  h.upd (fun p => by cases p <;> first | exact .inr rfl | exact .inl hL | exact .inr fun _ _ => rfl) rfl rfl rfl rfl

theorem f_out {x} (h : Keeps L s t) (hL : Part.out ∈ L := by decide) : Keeps L s { t with out := x } :=
  h.upd (fun p => by cases p <;> first | exact .inr rfl | exact .inl hL | exact .inr fun _ _ => rfl) rfl rfl rfl rfl

theorem f_draws {x} (h : Keeps L s t) (hL : Part.draws ∈ L := by decide) : Keeps L s { t with draws := x } :=
  h.upd (fun p => by cases p <;> first | exact .inr rfl | exact .inl hL | exact .inr fun _ _ => rfl) rfl rfl rfl rfl

theorem f_ao_ladder {x y} (h : Keeps L s t) (hx : Part.ao ∈ L := by decide) (hy : Part.ladder ∈ L := by decide) :
    Keeps L s { t with ao := x, ladder := y } :=
  h.upd (fun p => by cases p <;> first | exact .inr rfl | exact .inl hx | exact .inl hy | exact .inr fun _ _ => rfl) rfl rfl rfl rfl

theorem f_ao_pins {x y} (h : Keeps L s t) (hx : Part.ao ∈ L := by decide) (hy : Part.pins ∈ L := by decide) :
    Keeps L s { t with ao := x, pins := y } :=
  h.upd (fun p => by cases p <;> first | exact .inr rfl | exact .inl hx | exact .inl hy | exact .inr fun _ _ => rfl) rfl rfl rfl rfl

theorem f_tot_draws {x y} (h : Keeps L s t) (hx : Part.tot ∈ L := by decide) (hy : Part.draws ∈ L := by decide) :
    Keeps L s { t with tot := x, draws := y } :=
  h.upd (fun p => by cases p <;> first | exact .inr rfl | exact .inl hx | exact .inl hy | exact .inr fun _ _ => rfl) rfl rfl rfl rfl

theorem f_ink_mnd_msm {x y z} (h : Keeps L s t) (hx : Part.ink ∈ L := by decide) (hy : Part.mnd ∈ L := by decide) (hz : Part.msm ∈ L := by decide) :
    Keeps L s { t with ink := x, mnd := y, msm := z } :=
  h.upd (fun p => by cases p <;> first | exact .inr rfl | exact .inl hx | exact .inl hy | exact .inl hz | exact .inr fun _ _ => rfl) rfl rfl rfl rfl

/-! ## Registers, DRAM, outputs. -/

theorem wr (h : Keeps L s t) (k : Nat) (w : Word) (hk : Part.win (window k) ∈ L := by first | decide | exact Part.win_port (by decide) | exact Part.win_port' (by decide) | exact Part.win_arr (by decide) (by decide) (by decide)) : Keeps L s (t.wr k w) := by
  refine ⟨fun p hp => (h.only p hp).trans ?_, fun x => ?_, h.low.trans (.of_hoop rfl)⟩
  · cases p <;> try rfl
    intro j hj
    simp only [State.raw, State.wr, tget_tset]
    rw [if_neg]
    intro e
    subst e
    subst hj
    exact hp hk
  · obtain ⟨a, b, c, d⟩ := h.wf x
    exact ⟨canon_tset a k w, b, c, d⟩

theorem wrN (h : Keeps L s t) (k v : Nat) (hk : Part.win (window k) ∈ L := by first | decide | exact Part.win_port (by decide) | exact Part.win_port' (by decide) | exact Part.win_arr (by decide) (by decide) (by decide)) : Keeps L s (t.wrN k v) := h.wr k _ hk

theorem setF (h : Keeps L s t) (k : Nat) (f : BitRange) (v : Nat) (hk : Part.win (window k) ∈ L := by first | decide | exact Part.win_port (by decide) | exact Part.win_port' (by decide) | exact Part.win_arr (by decide) (by decide) (by decide)) : Keeps L s (t.setF k f v) :=
  h.wr k _ hk

theorem raiseF (h : Keeps L s t) (k : Nat) (f : BitRange) (hk : Part.win (window k) ∈ L := by first | decide | exact Part.win_port (by decide) | exact Part.win_port' (by decide) | exact Part.win_arr (by decide) (by decide) (by decide)) : Keeps L s (t.raiseF k f) := h.wr k _ hk

theorem raiseBit (h : Keeps L s t) (k b : Nat) (hk : Part.win (window k) ∈ L := by first | decide | exact Part.win_port (by decide) | exact Part.win_port' (by decide) | exact Part.win_arr (by decide) (by decide) (by decide)) : Keeps L s (t.raiseBit k b) := h.wr k _ hk

theorem bumpN (h : Keeps L s t) (k n : Nat) (hk : Part.win (window k) ∈ L := by first | decide | exact Part.win_port (by decide) | exact Part.win_port' (by decide) | exact Part.win_arr (by decide) (by decide) (by decide)) : Keeps L s (t.bumpN k n) := h.wr k _ hk

theorem bump (h : Keeps L s t) (k : Nat) (hk : Part.win (window k) ∈ L := by first | decide | exact Part.win_port (by decide) | exact Part.win_port' (by decide) | exact Part.win_arr (by decide) (by decide) (by decide)) : Keeps L s (t.bump k) := h.wr k _ hk

theorem bumpF (h : Keeps L s t) (k : Nat) (f : BitRange) (hk : Part.win (window k) ∈ L := by first | decide | exact Part.win_port (by decide) | exact Part.win_port' (by decide) | exact Part.win_arr (by decide) (by decide) (by decide)) : Keeps L s (t.bumpF k f) := h.wr k _ hk

theorem memory_dramPut {m : Tbl Byte} (h : Memory.wf m) (b : Bytes) (a : Nat) : Memory.wf (dramPut m a b) := by
  induction b generalizing m a with
  | nil => exact h
  | cons x r ih => exact ih (canon_tset h a _) (a + 1)

theorem wrMem (h : Keeps L s t) (a : Nat) (b : Bytes) (hL : Part.dram ∈ L := by decide) : Keeps L s (t.wrMem a b) := by
  refine ⟨fun p hp => (h.only p hp).trans ?_, fun x => ?_, h.low.trans (.of_hoop rfl)⟩
  · cases p <;> first | rfl | exact absurd hL hp | exact fun _ _ => rfl
  · obtain ⟨p, q, c, d⟩ := h.wf x
    exact ⟨p, memory_dramPut q b a, c, d⟩

theorem aoMod (h : Keeps L s t) (f : AoState → AoState) (hL : Part.ao ∈ L := by decide) : Keeps L s (t.aoMod f) := h.f_ao hL

theorem emit (h : Keeps L s t) (o : Out) (hL : Part.out ∈ L := by decide) : Keeps L s (t.emit o) := by
  refine h.upd (fun p => ?_) rfl rfl rfl rfl
  cases p <;> first | exact .inr rfl | exact .inl hL | exact .inr fun _ _ => rfl

theorem answer (h : Keeps L s t) (w : Word) (hL : Part.busData ∈ L := by decide) : Keeps L s (t.answer w) := by
  refine h.upd (fun p => ?_) rfl rfl rfl rfl
  cases p <;> first | exact .inr rfl | exact .inl hL | exact .inr fun _ _ => rfl

theorem draw (h : Keeps L s t) (hL : Part.draws ∈ L := by decide) : Keeps L s t.draw := by
  refine h.upd (fun p => ?_) rfl rfl rfl rfl
  cases p <;> first | exact .inr rfl | exact .inl hL | exact .inr fun _ _ => rfl

theorem report (h : Keeps L s t) (code sev path : Nat) (data : Bytes) (hs : Part.smp ∈ L := by decide)
    (hw : Part.win 4 ∈ L := by decide) :
    Keeps L s (t.report code sev path data) := by
  unfold State.report
  split
  · rename_i hlt
    refine ⟨fun p hp => (h.only p hp).trans ?_, fun x => ?_, h.low.trans (.of_hoop rfl)⟩
    · cases p <;> first | rfl | exact absurd hs hp | exact fun _ _ => rfl
    · obtain ⟨p, q, c, d⟩ := h.wf x
      refine ⟨p, q, c, ?_⟩
      simp only [SmpState.fifoOk, List.length_append, List.length_singleton]
      omega
  · refine Keeps.bump ?_ _ ?_
    · refine ⟨fun p hp => (h.only p hp).trans ?_, fun x => ?_, h.low.trans (.of_hoop rfl)⟩
      · cases p <;> first | rfl | exact absurd hs hp | exact fun _ _ => rfl
      · obtain ⟨p, q, c, d⟩ := h.wf x
        exact ⟨p, q, c, d⟩
    · have : window (0x040040 + 4 * (sev % 8)) = 4 := by unfold window; omega
      rw [this]; exact hw

end Keeps

/-! ## Outcomes. -/

/-- Whatever next state an outcome answers, it keeps what Keeps says. -/
def OutKeeps (L : List Part) (s : State) (o : Host.Outcome State Fault Refusal) : Prop := ∀ t, o = .next t → Keeps L s t

theorem OutKeeps.all {L : List Part} {s : State} {o : Host.Outcome State Fault Refusal} (h : OutKeeps L s o)
    (hL : Part.sub L Part.rest = true := by decide) : OutKeeps Part.rest s o := fun t e => (h t e).mono hL

theorem OutKeeps.ok {L : List Part} {s t : State} (h : Keeps L s t) : OutKeeps L s (.next t) := by
  intro u e
  cases e
  exact h

/-- The state after an operation. -/
theorem Keeps.did {L L0 : List Part} {s0 s : State} {f : State → Host.Outcome State Fault Refusal} (h : Keeps L0 s0 s)
    (hf : OutKeeps L s (f s)) (hL : Part.sub L L0 = true := by decide) : Keeps L0 s0 (State.did s f) := by
  unfold State.did
  split
  · rename_i t e
    exact h.trans (hf t e) hL
  · exact h
  · exact h

end Sys2Proof.Machine
end

