-- ==== Sys2Proof/Laws/KLineWave.lean ====
section
/-! SUPPORT. Sys2Proof/Laws/KLineWave.lean: what each operation of Machine/LineWave.lean touches and keeps. -/

set_option Elab.async false

namespace Sys2Proof.Machine.Keeps

set_option linter.unusedTactic false
set_option linter.unreachableTactic false

variable {L0 : List Part} {s0 : State}

theorem lnEmit {s : State} {n i lag : Nat} {xs : List Int} (h : Keeps L0 s0 s) (hL : Part.sub [.out, .win 16] L0 = true := by decide) :
    Keeps L0 s0 (State.lnEmit s n i xs lag) := by
  refine h.trans ?_ hL
  unfold State.lnEmit
  repeat' with_reducible (first | apply refl | assumption | apply bumpN | apply emit | dsimp only | (apply Part.win_port <;> decide) | decide)

end Sys2Proof.Machine.Keeps
end

