-- ==== Sys2Proof/Laws/KPortCore.lean ====
section
/-! SUPPORT. Sys2Proof/Laws/KPortCore.lean: what each operation of Machine/PortCore.lean touches and keeps. -/

set_option Elab.async false

namespace Sys2Proof.Machine.Keeps

set_option linter.unusedTactic false
set_option linter.unreachableTactic false

variable {L0 : List Part} {s0 : State}

theorem portMod {s : State} {n : Nat} {f : PortState → PortState} (h : Keeps L0 s0 s) (hL : Part.sub [.ports] L0 = true := by decide) :
    Keeps L0 s0 (State.portMod s n f) := by
  refine h.trans ?_ hL
  unfold State.portMod
  repeat' with_reducible (first | (apply f_ports; apply refl; decide) | apply refl | assumption | dsimp only | apply f_ports | decide)

theorem airTake {s : State} {n : Nat} (h : Keeps L0 s0 s) (hL : Part.sub [.ports] L0 = true := by decide) :
    Keeps L0 s0 (State.airTake s n) := by
  refine h.trans ?_ hL
  unfold State.airTake
  repeat' with_reducible (first | apply refl | assumption | apply portMod | dsimp only | decide)

theorem portInt {s : State} {n b : Nat} (h : Keeps L0 s0 s) (hL : Part.sub [.win 16] L0 = true := by decide) :
    Keeps L0 s0 (State.portInt s n b) := by
  refine h.trans ?_ hL
  unfold State.portInt
  repeat' with_reducible (first | apply refl | assumption | apply raiseBit | dsimp only | (apply Part.win_port <;> decide) | decide)

theorem rxDrop {s : State} {n : Nat} (h : Keeps L0 s0 s) (hL : Part.sub [.win 16] L0 = true := by decide) :
    Keeps L0 s0 (State.rxDrop s n) := by
  refine h.trans ?_ hL
  unfold State.rxDrop
  repeat' with_reducible (first | apply refl | assumption | apply bumpF | apply raiseF | dsimp only | (apply Part.win_port <;> decide) | decide)

theorem rxEnter {s : State} {n : Nat} {b : Bytes} (h : Keeps L0 s0 s) (hL : Part.sub [.fab, .ports, .ink, .time, .intr, .ao, .ladder, .out, .win 6, .win 11, .win 16] L0 = true := by decide) :
    Keeps L0 s0 (State.rxEnter s n b) := by
  refine h.trans ?_ hL
  unfold State.rxEnter
  repeat' with_reducible (first | apply refl | assumption | apply portMod | apply raiseF | apply rxDrop | refine when' ?_ _ (fun _ _ => ?_) | apply step | dsimp only | split | (apply Part.win_port <;> decide) | decide)

theorem creditFreed {s : State} {n k : Nat} (h : Keeps L0 s0 s) (hL : Part.sub [.ports] L0 = true := by decide) :
    Keeps L0 s0 (State.creditFreed s n k) := by
  refine h.trans ?_ hL
  unfold State.creditFreed
  repeat' with_reducible (first | apply refl | assumption | apply portMod | dsimp only | split | decide)

theorem rxPop {s : State} {n : Nat} (h : Keeps L0 s0 s) (hL : Part.sub [.fab, .ports, .ink, .time, .intr, .ao, .ladder, .out, .win 6, .win 11] L0 = true := by decide) :
    Keeps L0 s0 (State.rxPop s n) := by
  refine h.trans ?_ hL
  unfold State.rxPop
  repeat' with_reducible (first | apply refl | assumption | apply creditFreed | apply portMod | apply step | dsimp only | split | refine fst (by assumption) ?_ | refine snd (by assumption) ?_ | decide)

theorem rxClear {s : State} {n : Nat} (h : Keeps L0 s0 s) (hL : Part.sub [.ports] L0 = true := by decide) :
    Keeps L0 s0 (State.rxClear s n) := by
  refine h.trans ?_ hL
  unfold State.rxClear
  repeat' with_reducible (first | apply refl | assumption | apply creditFreed | apply portMod | dsimp only | decide)

theorem descDone {s : State} {n i code : Nat} (h : Keeps L0 s0 s) (hL : Part.sub [.dram, .win 16] L0 = true := by decide) :
    Keeps L0 s0 (State.descDone s n i code) := by
  refine h.trans ?_ hL
  unfold State.descDone
  repeat' with_reducible (first | apply refl | assumption | apply raiseF | refine when' ?_ _ (fun _ _ => ?_) | apply wrMem | dsimp only | (apply Part.win_port <;> decide) | decide)

theorem txDone {s : State} {n id code : Nat} (h : Keeps L0 s0 s) (hL : Part.sub [.dram, .fab, .ports, .ink, .time, .intr, .ao, .ladder, .out, .win 6, .win 11, .win 16] L0 = true := by decide) :
    Keeps L0 s0 (State.txDone s n id code) := by
  refine h.trans ?_ hL
  unfold State.txDone
  repeat' with_reducible (first | apply refl | assumption | apply descDone | apply portMod | apply step | dsimp only | split | refine fst (by assumption) ?_ | refine snd (by assumption) ?_ | decide)

theorem txMod {s : State} {n id : Nat} {f : TxPkt → TxPkt} (h : Keeps L0 s0 s) (hL : Part.sub [.ports] L0 = true := by decide) :
    Keeps L0 s0 (State.txMod s n id f) := by
  refine h.trans ?_ hL
  unfold State.txMod
  repeat' with_reducible (first | apply refl | assumption | apply portMod | dsimp only | split | decide)

theorem txEnter {s : State} {n : Nat} {b : Bytes} {desc : Option Nat} (h : Keeps L0 s0 s) (hL : Part.sub [.fab, .ports, .ink, .time, .intr, .ao, .ladder, .out, .win 6, .win 11] L0 = true := by decide) :
    Keeps L0 s0 (State.txEnter s n b desc) := by
  refine h.trans ?_ hL
  unfold State.txEnter
  repeat' with_reducible (first | apply refl | assumption | apply portMod | apply step | dsimp only | split | decide)

theorem txWords {s : State} {n : Nat} {b : Bytes} (h : Keeps L0 s0 s) (hL : Part.sub [.fab, .ports, .ink, .time, .intr, .ao, .ladder, .out, .win 6, .win 11] L0 = true := by decide) :
    Keeps L0 s0 (State.txWords s n b) := by
  refine h.trans ?_ hL
  unfold State.txWords
  repeat' with_reducible (first | apply refl | assumption | apply portMod | apply step | dsimp only | decide)

theorem txUndo {s : State} {n : Nat} (h : Keeps L0 s0 s) (hL : Part.sub [.fab, .ports, .ink, .time, .intr, .ao, .ladder, .out, .win 6, .win 11] L0 = true := by decide) :
    Keeps L0 s0 (State.txUndo s n) := by
  refine h.trans ?_ hL
  unfold State.txUndo
  repeat' with_reducible (first | apply refl | assumption | apply portMod | apply wr | apply step | dsimp only | decide)

theorem lineStop {s : State} {n : Nat} {at' : LineTx → Nat} (h : Keeps L0 s0 s) (hL : Part.sub [.ports, .out, .win 16] L0 = true := by decide) :
    Keeps L0 s0 (State.lineStop s n at') := by
  refine h.trans ?_ hL
  unfold State.lineStop
  repeat' with_reducible (first | apply refl | assumption | apply lnEmit | apply portMod | dsimp only | split | refine fst (by assumption) ?_ | refine snd (by assumption) ?_ | decide)

theorem txClear {s : State} {n code : Nat} (h : Keeps L0 s0 s) (hL : Part.sub [.dram, .fab, .ports, .ink, .time, .intr, .ao, .ladder, .out, .win 6, .win 11, .win 16] L0 = true := by decide) :
    Keeps L0 s0 (State.txClear s n code) := by
  refine h.trans ?_ hL
  unfold State.txClear
  repeat' with_reducible (first | apply refl | assumption | refine each' ?_ _ (fun _ _ _ => ?_) | apply lineStop | apply portMod | apply setF | apply txDone | dsimp only | (apply Part.win_port <;> decide) | decide)

theorem txOff {s : State} {n : Nat} (h : Keeps L0 s0 s) (hL : Part.sub [.ports, .win 16] L0 = true := by decide) :
    Keeps L0 s0 (State.txOff s n) := by
  refine h.trans ?_ hL
  unfold State.txOff
  repeat' with_reducible (first | apply refl | assumption | apply portMod | apply setF | dsimp only | (apply Part.win_port <;> decide) | decide)

theorem txOn {s : State} {n : Nat} (h : Keeps L0 s0 s) (hL : Part.sub [.ports, .win 16] L0 = true := by decide) :
    Keeps L0 s0 (State.txOn s n) := by
  refine h.trans ?_ hL
  unfold State.txOn
  repeat' with_reducible (first | apply refl | assumption | apply portMod | apply setF | dsimp only | (apply Part.win_port <;> decide) | decide)

theorem casMod {s : State} {n : Nat} {f : CasState → CasState} (h : Keeps L0 s0 s) (hL : Part.sub [.ports] L0 = true := by decide) :
    Keeps L0 s0 (State.casMod s n f) := by
  refine h.trans ?_ hL
  unfold State.casMod
  repeat' with_reducible (first | apply refl | assumption | apply portMod | dsimp only | decide)

theorem casPut {s : State} {n : Nat} {l : List Nat} (h : Keeps L0 s0 s) (hL : Part.sub [.ports, .out] L0 = true := by decide) :
    Keeps L0 s0 (State.casPut s n l) := by
  refine h.trans ?_ hL
  unfold State.casPut
  repeat' with_reducible (first | apply refl | assumption | apply casMod | apply emit | dsimp only | split | decide)

theorem casUpTo {s : State} {n k : Nat} {x : CasTx} (h : Keeps L0 s0 s) (hL : Part.sub [.ports, .out] L0 = true := by decide) :
    Keeps L0 s0 (State.casUpTo s n x k) := by
  refine h.trans ?_ hL
  unfold State.casUpTo
  repeat' with_reducible (first | apply refl | assumption | apply casMod | apply casPut | dsimp only | split | decide)

theorem casRun {s : State} {n : Nat} (h : Keeps L0 s0 s) (hL : Part.sub [.ports, .out] L0 = true := by decide) :
    Keeps L0 s0 (State.casRun s n) := by
  refine h.trans ?_ hL
  unfold State.casRun
  repeat' with_reducible (first | apply refl | assumption | apply casUpTo | dsimp only | split | refine fst (by assumption) ?_ | refine snd (by assumption) ?_ | decide)

theorem casFlush {s : State} {n : Nat} (h : Keeps L0 s0 s) (hL : Part.sub [.ports, .out] L0 = true := by decide) :
    Keeps L0 s0 (State.casFlush s n) := by
  refine h.trans ?_ hL
  unfold State.casFlush
  repeat' with_reducible (first | apply refl | assumption | apply casUpTo | dsimp only | split | refine fst (by assumption) ?_ | refine snd (by assumption) ?_ | decide)

theorem casAbort {s : State} {n : Nat} (h : Keeps L0 s0 s) (hL : Part.sub [.ports, .out] L0 = true := by decide) :
    Keeps L0 s0 (State.casAbort s n) := by
  refine h.trans ?_ hL
  unfold State.casAbort
  repeat' with_reducible (first | apply refl | assumption | apply casMod | apply casPut | apply casRun | dsimp only | split | decide)

theorem txCut {s : State} {n : Nat} (h : Keeps L0 s0 s) (hL : Part.sub [.ports, .out, .win 16] L0 = true := by decide) :
    Keeps L0 s0 (State.txCut s n) := by
  refine h.trans ?_ hL
  unfold State.txCut
  repeat' with_reducible (first | apply refl | assumption | apply casAbort | apply lineStop | apply portMod | apply setF | dsimp only | split | (apply Part.win_port <;> decide) | decide)

theorem alignBurst {s : State} {n : Nat} (h : Keeps L0 s0 s) (hL : Part.sub [.ports, .out] L0 = true := by decide) :
    Keeps L0 s0 (State.alignBurst s n) := by
  refine h.trans ?_ hL
  unfold State.alignBurst
  repeat' with_reducible (first | apply refl | assumption | apply emit | apply portMod | dsimp only | split | decide)

theorem shortfall {s : State} {n : Nat} (h : Keeps L0 s0 s) (hL : Part.sub [.fab, .smp, .win 4, .win 16] L0 = true := by decide) :
    Keeps L0 s0 (State.shortfall s n) := by
  refine h.trans ?_ hL
  unfold State.shortfall
  repeat' with_reducible (first | (apply f_fab; apply refl; decide) | apply refl | assumption | apply raiseF | apply report | dsimp only | apply f_fab | (apply Part.win_port <;> decide) | decide)

end Sys2Proof.Machine.Keeps
end

