-- ==== Sys2Proof/Laws/KPortPass.lean ====
section
/-! SUPPORT. Sys2Proof/Laws/KPortPass.lean: what each operation of Machine/PortPass.lean touches and keeps. -/

set_option Elab.async false

namespace Sys2Proof.Machine.Keeps

set_option linter.unusedTactic false
set_option linter.unreachableTactic false

variable {L0 : List Part} {s0 : State}

theorem inkMod {s : State} {f : InkState → InkState} (h : Keeps L0 s0 s) (hL : Part.sub [.ink] L0 = true := by decide) :
    Keeps L0 s0 (State.inkMod s f) := by
  refine h.trans ?_ hL
  unfold State.inkMod
  repeat' with_reducible (first | (apply f_ink; apply refl; decide) | apply refl | assumption | dsimp only | apply f_ink | decide)

theorem fwStall {s : State} (h : Keeps L0 s0 s) (hL : Part.sub [.ink, .win 6] L0 = true := by decide) :
    Keeps L0 s0 (State.fwStall s) := by
  refine h.trans ?_ hL
  unfold State.fwStall
  repeat' with_reducible (first | apply refl | assumption | apply bumpN | apply inkMod | dsimp only | split | decide)

theorem fwPush {s : State} {x : FwItem} (h : Keeps L0 s0 s) (hL : Part.sub [.ink, .win 6] L0 = true := by decide) :
    Keeps L0 s0 (State.fwPush s x) := by
  refine h.trans ?_ hL
  unfold State.fwPush
  repeat' with_reducible (first | apply refl | assumption | apply fwStall | apply inkMod | dsimp only | decide)

theorem casViolAdd {s : State} {n k : Nat} (h : Keeps L0 s0 s) (hL : Part.sub [.ports] L0 = true := by decide) :
    Keeps L0 s0 (State.casViolAdd s n k) := by
  refine h.trans ?_ hL
  unfold State.casViolAdd
  repeat' with_reducible (first | apply refl | assumption | apply casMod | dsimp only | split | decide)

theorem portOld {s : State} {n : Nat} (h : Keeps L0 s0 s) (hL : Part.sub [.ports, .out] L0 = true := by decide) :
    Keeps L0 s0 (State.portOld s n) := by
  refine h.trans ?_ hL
  unfold State.portOld
  repeat' with_reducible (first | apply refl | assumption | apply casRun | apply portMod | dsimp only | split | decide)

theorem forget {s : State} (h : Keeps L0 s0 s) (hL : Part.sub [.fab, .ports, .out] L0 = true := by decide) :
    Keeps L0 s0 (State.forget s) := by
  refine h.trans ?_ hL
  unfold State.forget
  repeat' with_reducible (first | (apply f_fab; apply refl; decide) | apply refl | assumption | refine each' ?_ _ (fun _ _ _ => ?_) | apply portOld | dsimp only | apply f_fab | decide)

theorem airStep {s : State} {n : Nat} (h : Keeps L0 s0 s) (hL : Part.sub [.ports] L0 = true := by decide) :
    Keeps L0 s0 (State.airStep s n) := by
  refine h.trans ?_ hL
  unfold State.airStep
  repeat' with_reducible (first | apply refl | assumption | apply portMod | dsimp only | decide)

theorem casResult {s : State} {n cseq res : Nat} (h : Keeps L0 s0 s) (hL : Part.sub [.ports] L0 = true := by decide) :
    Keeps L0 s0 (State.casResult s n cseq res) := by
  refine h.trans ?_ hL
  unfold State.casResult
  repeat' with_reducible (first | apply refl | assumption | apply casMod | dsimp only | decide)

theorem casTaken {s : State} {n cseq : Nat} (h : Keeps L0 s0 s) (hL : Part.sub [.ports] L0 = true := by decide) :
    Keeps L0 s0 (State.casTaken s n cseq) := by
  refine h.trans ?_ hL
  unfold State.casTaken
  repeat' with_reducible (first | apply refl | assumption | apply casMod | apply casResult | dsimp only | decide)

theorem packetIn {s : State} {n : Nat} {b : Bytes} (h : Keeps L0 s0 s) (hL : Part.sub [.ports, .ink, .win 6] L0 = true := by decide) :
    Keeps L0 s0 (State.packetIn s n b).1 := by
  refine h.trans ?_ hL
  unfold State.packetIn
  repeat' with_reducible (first | apply refl | assumption | apply casResult | apply casTaken | apply fwPush | dsimp only | split | decide)

theorem passAll {s : State} {n k : Nat} (h : Keeps L0 s0 s) (hL : Part.sub [.fab, .ports, .ink, .time, .intr, .ao, .ladder, .out, .win 6, .win 11] L0 = true := by decide) :
    Keeps L0 s0 (State.passAll s n k) := by
  refine h.trans ?_ hL
  clear h hL
  fun_induction State.passAll s n k <;>
  repeat' with_reducible (first | apply refl | assumption | refine trans ?_ (by assumption) (by decide) | apply inkMod | apply packetIn | apply rxPop | dsimp only | split | refine fst (by assumption) ?_ | refine snd (by assumption) ?_ | decide)

end Sys2Proof.Machine.Keeps
end

