-- ==== Sys2Proof/Laws/KFabricCore.lean ====
section
/-! SUPPORT. Sys2Proof/Laws/KFabricCore.lean: what each operation of Machine/FabricCore.lean touches and keeps. -/

set_option Elab.async false

namespace Sys2Proof.Machine.Keeps

set_option linter.unusedTactic false
set_option linter.unreachableTactic false

variable {L0 : List Part} {s0 : State}

theorem fabMod {s : State} {f : FabState → FabState} (h : Keeps L0 s0 s) (hL : Part.sub [.fab] L0 = true := by decide) :
    Keeps L0 s0 (State.fabMod s f) := by
  refine h.trans ?_ hL
  unfold State.fabMod
  repeat' with_reducible (first | (apply f_fab; apply refl; decide) | apply refl | assumption | dsimp only | apply f_fab | decide)

theorem shade {s : State} {k : Nat} (h : Keeps L0 s0 s) (hL : Part.sub [.fab] L0 = true := by decide) :
    Keeps L0 s0 (State.shade s k) := by
  refine h.trans ?_ hL
  unfold State.shade
  repeat' with_reducible (first | apply refl | assumption | apply fabMod | dsimp only | decide)

theorem errRecord {s : State} {r b c attempts : Nat} {good : Bool} (h : Keeps L0 s0 s) (hL : Part.sub [.smp, .win 4] L0 = true := by decide) :
    Keeps L0 s0 (State.errRecord s r b c attempts good) := by
  refine h.trans ?_ hL
  unfold State.errRecord
  repeat' with_reducible (first | apply refl | assumption | apply report | dsimp only | decide)

theorem setRegion {s : State} {r v : Nat} (h : Keeps L0 s0 s) (hL : Part.sub [.win 0] L0 = true := by decide) :
    Keeps L0 s0 (State.setRegion s r v) := by
  refine h.trans ?_ hL
  unfold State.setRegion
  repeat' with_reducible (first | apply refl | assumption | apply setF | dsimp only | decide)

theorem spareSet {s : State} {r i b : Nat} {act : Bool} (h : Keeps L0 s0 s) (hL : Part.sub [.win 0] L0 = true := by decide) :
    Keeps L0 s0 (State.spareSet s r i act b) := by
  refine h.trans ?_ hL
  unfold State.spareSet
  repeat' with_reducible (first | apply refl | assumption | apply setF | dsimp only | split | (apply Part.win_arr <;> decide) | decide)

theorem prkIdle {s : State} (h : Keeps L0 s0 s) (hL : Part.sub [.win 11] L0 = true := by decide) :
    Keeps L0 s0 (State.prkIdle s) := by
  refine h.trans ?_ hL
  unfold State.prkIdle
  repeat' with_reducible (first | apply refl | assumption | apply setF | dsimp only | split | decide)

theorem prkEnd {s : State} (h : Keeps L0 s0 s) (hL : Part.sub [.fab, .win 11] L0 = true := by decide) :
    Keeps L0 s0 (State.prkEnd s) := by
  refine h.trans ?_ hL
  unfold State.prkEnd
  repeat' with_reducible (first | apply refl | assumption | apply fabMod | apply prkIdle | dsimp only | decide)

theorem prkFail {s : State} {err blk : Nat} (h : Keeps L0 s0 s) (hL : Part.sub [.fab, .win 11] L0 = true := by decide) :
    Keeps L0 s0 (State.prkFail s err blk) := by
  refine h.trans ?_ hL
  unfold State.prkFail
  repeat' with_reducible (first | apply refl | assumption | apply prkEnd | apply raiseF | apply setF | dsimp only | decide)

theorem drainCount {s : State} {f : BitRange} {n : Nat} (h : Keeps L0 s0 s) (hL : Part.sub [.win 11] L0 = true := by decide) :
    Keeps L0 s0 (State.drainCount s f n) := by
  refine h.trans ?_ hL
  unfold State.drainCount
  repeat' with_reducible (first | apply refl | assumption | apply setF | dsimp only | decide)

theorem rxDrain {s : State} {n d : Nat} (h : Keeps L0 s0 s) (hL : Part.sub [.ports, .win 11] L0 = true := by decide) :
    Keeps L0 s0 (State.rxDrain s n d).1 := by
  refine h.trans ?_ hL
  unfold State.rxDrain
  repeat' with_reducible (first | apply refl | assumption | apply drainCount | apply portMod | refine when' ?_ _ (fun _ _ => ?_) | dsimp only | split | refine fst (by assumption) ?_ | refine snd (by assumption) ?_ | decide)

theorem substQueues {s : State} {n : Nat} (h : Keeps L0 s0 s) (hL : Part.sub [.dram, .fab, .ports, .ink, .time, .intr, .ao, .smp, .ladder, .out, .win 4, .win 6, .win 11, .win 16] L0 = true := by decide) :
    Keeps L0 s0 (State.substQueues s n) := by
  refine h.trans ?_ hL
  unfold State.substQueues
  repeat' with_reducible (first | apply refl | assumption | apply bumpF | apply drainCount | apply passAll | apply portMod | apply report | apply rxClear | apply rxPop | apply txClear | dsimp only | split | refine fst (by assumption) ?_ | refine snd (by assumption) ?_ | (apply Part.win_port <;> decide) | decide)

theorem preempt {s : State} {needs : Bool} (h : Keeps L0 s0 s) (hL : Part.sub [.fab, .win 11] L0 = true := by decide) :
    Keeps L0 s0 (State.preempt s needs) := by
  refine h.trans ?_ hL
  unfold State.preempt
  repeat' with_reducible (first | apply refl | assumption | apply prkFail | dsimp only | split | decide)

theorem substBegin {s : State} {n : Nat} (h : Keeps L0 s0 s) (hL : Part.sub [.dram, .fab, .ports, .ink, .time, .intr, .ao, .smp, .ladder, .out, .win 4, .win 6, .win 11, .win 16] L0 = true := by decide) :
    Keeps L0 s0 (State.substBegin s n) := by
  refine h.trans ?_ hL
  unfold State.substBegin
  repeat' with_reducible (first | apply refl | assumption | apply fabMod | apply preempt | apply prkIdle | apply substQueues | apply wrN | dsimp only | split | decide)

theorem spareIn {s : State} {r b x p : Nat} (h : Keeps L0 s0 s) (hL : Part.sub [.dram, .fab, .ports, .ink, .time, .intr, .ao, .smp, .ladder, .out, .win 0, .win 4, .win 6, .win 11, .win 16] L0 = true := by decide) :
    Keeps L0 s0 (State.spareIn s r b x p) := by
  refine h.trans ?_ hL
  unfold State.spareIn
  repeat' with_reducible (first | apply refl | assumption | apply report | apply setRegion | apply spareSet | apply substBegin | apply wr | dsimp only | split | decide)

theorem noSpare {s : State} {r b p : Nat} (h : Keeps L0 s0 s) (hL : Part.sub [.smp, .win 0, .win 4] L0 = true := by decide) :
    Keeps L0 s0 (State.noSpare s r b p) := by
  refine h.trans ?_ hL
  unfold State.noSpare
  repeat' with_reducible (first | apply refl | assumption | apply report | apply setRegion | dsimp only | split | decide)

theorem prkBlockFail {s : State} {r b : Nat} (h : Keeps L0 s0 s) (hL : Part.sub [.fab, .win 11] L0 = true := by decide) :
    Keeps L0 s0 (State.prkBlockFail s r b) := by
  refine h.trans ?_ hL
  unfold State.prkBlockFail
  repeat' with_reducible (first | apply refl | assumption | apply prkFail | dsimp only | split | refine fst (by assumption) ?_ | refine snd (by assumption) ?_ | decide)

theorem quarantine {s : State} {r b c : Nat} (h : Keeps L0 s0 s) (hL : Part.sub [.dram, .fab, .ports, .ink, .time, .intr, .ao, .smp, .ladder, .out, .win 0, .win 4, .win 6, .win 11, .win 16] L0 = true := by decide) :
    Keeps L0 s0 (State.quarantine s r b c) := by
  refine h.trans ?_ hL
  unfold State.quarantine
  repeat' with_reducible (first | apply refl | assumption | apply noSpare | apply prkBlockFail | apply raiseBit | apply report | apply spareIn | apply spareSet | refine when' ?_ _ (fun _ _ => ?_) | apply wr | dsimp only | split | refine fst (by assumption) ?_ | refine snd (by assumption) ?_ | (apply Part.win_arr <;> decide) | decide)

theorem portHalt {s : State} {n : Nat} (h : Keeps L0 s0 s) (hL : Part.sub [.ports, .out, .win 16] L0 = true := by decide) :
    Keeps L0 s0 (State.portHalt s n) := by
  refine h.trans ?_ hL
  unfold State.portHalt
  repeat' with_reducible (first | apply refl | assumption | apply portMod | apply setF | apply txCut | dsimp only | (apply Part.win_port <;> decide) | decide)

theorem portReport {s : State} {r b c : Nat} (h : Keeps L0 s0 s) (hL : Part.sub [.dram, .fab, .ports, .ink, .time, .intr, .ao, .smp, .ladder, .out, .win 0, .win 4, .win 6, .win 11, .win 16] L0 = true := by decide) :
    Keeps L0 s0 (State.portReport s r b c) := by
  refine h.trans ?_ hL
  unfold State.portReport
  repeat' with_reducible (first | apply refl | assumption | apply fabMod | apply noSpare | apply portHalt | apply prkIdle | apply quarantine | apply setF | dsimp only | split | refine fst (by assumption) ?_ | refine snd (by assumption) ?_ | (apply Part.win_port <;> decide) | decide)

theorem neverRetried {s : State} {path : Nat} (h : Keeps L0 s0 s) (hL : Part.sub [.dram, .fab, .ports, .ink, .time, .intr, .ao, .smp, .ladder, .out, .win 0, .win 4, .win 6, .win 11, .win 16] L0 = true := by decide) :
    Keeps L0 s0 (State.neverRetried s path) := by
  refine h.trans ?_ hL
  unfold State.neverRetried
  repeat' with_reducible (first | apply refl | assumption | apply errRecord | apply portReport | dsimp only | decide)

end Sys2Proof.Machine.Keeps
end

