-- ==== Sys2Proof/Laws/KPairCore.lean ====
section
/-! SUPPORT. Sys2Proof/Laws/KPairCore.lean: what each operation of Machine/PairCore.lean touches and keeps. -/

set_option Elab.async false

namespace Sys2Proof.Machine.Keeps

set_option linter.unusedTactic false
set_option linter.unreachableTactic false

variable {L0 : List Part} {s0 : State}

theorem txenLow {s : State} (h : Keeps L0 s0 s) (hL : Part.sub [.ports, .out, .win 16] L0 = true := by decide) :
    Keeps L0 s0 (State.txenLow s) := by
  refine h.trans ?_ hL
  unfold State.txenLow
  repeat' with_reducible (first | apply refl | assumption | refine each' ?_ _ (fun _ _ _ => ?_) | apply txCut | dsimp only | split | decide)

theorem pairMod {s : State} {f : PairState → PairState} (h : Keeps L0 s0 s) (hL : Part.sub [.pair] L0 = true := by decide) :
    Keeps L0 s0 (State.pairMod s f) := by
  refine h.trans ?_ hL
  unfold State.pairMod
  repeat' with_reducible (first | (apply f_pair; apply refl; decide) | apply refl | assumption | dsimp only | apply f_pair | decide)

theorem pairSend {s : State} {type : Nat} {body : Bytes} (h : Keeps L0 s0 s) (hL : Part.sub [.pair, .out] L0 = true := by decide) :
    Keeps L0 s0 (State.pairSend s type body) := by
  refine h.trans ?_ hL
  unfold State.pairSend
  repeat' with_reducible (first | apply refl | assumption | apply emit | apply pairMod | dsimp only | decide)

theorem mirror {s : State} {type : Nat} {body : Bytes} (h : Keeps L0 s0 s) (hL : Part.sub [.pair, .out] L0 = true := by decide) :
    Keeps L0 s0 (State.mirror s type body) := by
  refine h.trans ?_ hL
  unfold State.mirror
  repeat' with_reducible (first | apply refl | assumption | apply pairSend | dsimp only | split | decide)

end Sys2Proof.Machine.Keeps
end

