-- ==== Sys2Proof/Laws/KStoreCore.lean ====
section
/-! SUPPORT. Sys2Proof/Laws/KStoreCore.lean: what each operation of Machine/StoreCore.lean touches and keeps. -/

set_option Elab.async false

namespace Sys2Proof.Machine.Keeps

set_option linter.unusedTactic false
set_option linter.unreachableTactic false

variable {L0 : List Part} {s0 : State}

theorem stoMod {s : State} {f : StoState → StoState} (h : Keeps L0 s0 s) (hL : Part.sub [.sto] L0 = true := by decide) :
    Keeps L0 s0 (State.stoMod s f) := by
  refine h.trans ?_ hL
  unfold State.stoMod
  repeat' with_reducible (first | (apply f_sto; apply refl; decide) | apply refl | assumption | dsimp only | apply f_sto | decide)

theorem setDie {s : State} {i v : Nat} (h : Keeps L0 s0 s) (hL : Part.sub [.win 9] L0 = true := by decide) :
    Keeps L0 s0 (State.setDie s i v) := by
  refine h.trans ?_ hL
  unfold State.setDie
  repeat' with_reducible (first | apply refl | assumption | apply setF | dsimp only | decide)

theorem sbMod {s : State} {n : Nat} {f : SBlk → SBlk} (h : Keeps L0 s0 s) (hL : Part.sub [.sto] L0 = true := by decide) :
    Keeps L0 s0 (State.sbMod s n f) := by
  refine h.trans ?_ hL
  unfold State.sbMod
  repeat' with_reducible (first | apply refl | assumption | apply stoMod | dsimp only | decide)

theorem jour {s : State} {e : JEntry} (h : Keeps L0 s0 s) (hL : Part.sub [.sto] L0 = true := by decide) :
    Keeps L0 s0 (State.jour s e) := by
  refine h.trans ?_ hL
  unfold State.jour
  repeat' with_reducible (first | apply refl | assumption | apply stoMod | dsimp only | decide)

theorem mapRaw {s : State} {lua v : Nat} (h : Keeps L0 s0 s) (hL : Part.sub [.sto] L0 = true := by decide) :
    Keeps L0 s0 (State.mapRaw s lua v) := by
  refine h.trans ?_ hL
  unfold State.mapRaw
  repeat' with_reducible (first | apply refl | assumption | apply stoMod | dsimp only | decide)

theorem openAt {s : State} {b stream mask : Nat} {slc : Bool} (h : Keeps L0 s0 s) (hL : Part.sub [.sto, .win 9] L0 = true := by decide) :
    Keeps L0 s0 (State.openAt s b stream slc mask) := by
  refine h.trans ?_ hL
  unfold State.openAt
  repeat' with_reducible (first | apply refl | assumption | apply jour | apply raiseF | apply sbMod | refine when' ?_ _ (fun _ _ => ?_) | dsimp only | decide)

theorem openNext {s : State} {stream n : Nat} (h : Keeps L0 s0 s) (hL : Part.sub [.sto, .win 9] L0 = true := by decide) :
    Keeps L0 s0 (State.openNext s stream n) := by
  refine h.trans ?_ hL
  clear h hL
  fun_induction State.openNext s stream n <;>
  repeat' with_reducible (first | apply refl | assumption | refine trans ?_ (by assumption) (by decide) | apply openAt | apply sbMod | dsimp only | split | refine fst (by assumption) ?_ | refine snd (by assumption) ?_ | decide)

theorem closeSb {s : State} {b : Nat} (h : Keeps L0 s0 s) (hL : Part.sub [.sto] L0 = true := by decide) :
    Keeps L0 s0 (State.closeSb s b) := by
  refine h.trans ?_ hL
  unfold State.closeSb
  repeat' with_reducible (first | (apply f_sto; apply refl; decide) | apply refl | assumption | dsimp only | apply f_sto | decide)

theorem putAt {s : State} {b : Nat} {u : SUnit} (h : Keeps L0 s0 s) (hL : Part.sub [.sto] L0 = true := by decide) :
    Keeps L0 s0 (State.putAt s b u) := by
  refine h.trans ?_ hL
  unfold State.putAt
  repeat' with_reducible (first | apply refl | assumption | apply sbMod | apply stoMod | dsimp only | decide)

theorem readySb {s : State} {stream : Nat} (h : Keeps L0 s0 s) (hL : Part.sub [.sto, .win 9] L0 = true := by decide) :
    Keeps L0 s0 (State.readySb s stream) := by
  refine h.trans ?_ hL
  unfold State.readySb
  repeat' with_reducible (first | apply refl | assumption | apply closeSb | apply openNext | dsimp only | split | refine fst (by assumption) ?_ | refine snd (by assumption) ?_ | decide)

theorem place {s : State} {stream : Nat} {u : SUnit} (h : Keeps L0 s0 s) (hL : Part.sub [.sto, .win 9] L0 = true := by decide) :
    Keeps L0 s0 (State.place s stream u).1 := by
  refine h.trans ?_ hL
  unfold State.place
  repeat' with_reducible (first | apply refl | assumption | apply putAt | apply readySb | apply setF | dsimp only | split | refine fst (by assumption) ?_ | refine snd (by assumption) ?_ | decide)

theorem padWith {s : State} {b n : Nat} (h : Keeps L0 s0 s) (hL : Part.sub [.sto, .win 9] L0 = true := by decide) :
    Keeps L0 s0 (State.padWith s b n) := by
  refine h.trans ?_ hL
  clear h hL
  fun_induction State.padWith s b n <;>
  repeat' with_reducible (first | apply refl | assumption | refine trans ?_ (by assumption) (by decide) | apply bump | apply putAt | dsimp only | split | refine fst (by assumption) ?_ | refine snd (by assumption) ?_ | decide)

theorem parityDone {s : State} {b p : Nat} (h : Keeps L0 s0 s) (hL : Part.sub [.sto] L0 = true := by decide) :
    Keeps L0 s0 (State.parityDone s b p) := by
  refine h.trans ?_ hL
  unfold State.parityDone
  repeat' with_reducible (first | apply refl | assumption | apply stoMod | dsimp only | decide)

theorem programSb {s : State} {b : Nat} (h : Keeps L0 s0 s) (hL : Part.sub [.sto] L0 = true := by decide) :
    Keeps L0 s0 (State.programSb s b) := by
  refine h.trans ?_ hL
  unfold State.programSb
  repeat' with_reducible (first | apply refl | assumption | refine each' ?_ _ (fun _ _ _ => ?_) | apply parityDone | apply stoMod | dsimp only | split | decide)

theorem stripeClose {s : State} {b : Nat} (h : Keeps L0 s0 s) (hL : Part.sub [.sto, .win 9] L0 = true := by decide) :
    Keeps L0 s0 (State.stripeClose s b) := by
  refine h.trans ?_ hL
  unfold State.stripeClose
  repeat' with_reducible (first | apply refl | assumption | apply padWith | apply programSb | dsimp only | decide)

theorem sysPut {s : State} {kind no : Nat} {data : Bytes} (h : Keeps L0 s0 s) (hL : Part.sub [.sto, .win 9] L0 = true := by decide) :
    Keeps L0 s0 (State.sysPut s kind no data).1 := by
  refine h.trans ?_ hL
  unfold State.sysPut
  repeat' with_reducible (first | apply refl | assumption | apply mapRaw | apply place | dsimp only | split | decide)

theorem sysDrop {s : State} {p : Nat → Bool} (h : Keeps L0 s0 s) (hL : Part.sub [.sto] L0 = true := by decide) :
    Keeps L0 s0 (State.sysDrop s p) := by
  refine h.trans ?_ hL
  unfold State.sysDrop
  repeat' with_reducible (first | apply refl | assumption | apply stoMod | dsimp only | decide)

theorem jProgram {s : State} (h : Keeps L0 s0 s) (hL : Part.sub [.sto, .win 9] L0 = true := by decide) :
    Keeps L0 s0 (State.jProgram s) := by
  refine h.trans ?_ hL
  unfold State.jProgram
  repeat' with_reducible (first | apply refl | assumption | apply stoMod | apply sysPut | dsimp only | split | decide)

theorem jDrain {s : State} {n : Nat} (h : Keeps L0 s0 s) (hL : Part.sub [.sto, .win 9] L0 = true := by decide) :
    Keeps L0 s0 (State.jDrain s n) := by
  refine h.trans ?_ hL
  clear h hL
  fun_induction State.jDrain s n <;>
  repeat' with_reducible (first | apply refl | assumption | refine trans ?_ (by assumption) (by decide) | apply jProgram | dsimp only | split | refine fst (by assumption) ?_ | refine snd (by assumption) ?_ | decide)

theorem compact {s : State} {cu : Nat} (h : Keeps L0 s0 s) (hL : Part.sub [.sto, .win 9] L0 = true := by decide) :
    Keeps L0 s0 (State.compact s cu) := by
  refine h.trans ?_ hL
  unfold State.compact
  repeat' with_reducible (first | apply refl | assumption | apply closeSb | refine each' ?_ _ (fun _ _ _ => ?_) | apply jour | apply mapRaw | apply openNext | apply place | apply stoMod | apply stripeClose | dsimp only | split | refine fst (by assumption) ?_ | refine snd (by assumption) ?_ | decide)

theorem fmapNew {s : State} {cu : Nat} (h : Keeps L0 s0 s) (hL : Part.sub [.dram, .sto, .win 9] L0 = true := by decide) :
    Keeps L0 s0 (State.fmapNew s cu) := by
  refine h.trans ?_ hL
  unfold State.fmapNew
  repeat' with_reducible (first | apply refl | assumption | apply compact | apply stoMod | apply wrMem | dsimp only | split | refine fst (by assumption) ?_ | refine snd (by assumption) ?_ | decide)

theorem fmapSync {s : State} {cu : Nat} {f : Nat → State → State} (h : Keeps L0 s0 s) (h_f : ∀ a u, Keeps L0 s0 u → Keeps L0 s0 (f a u)) (hL : Part.sub [.dram, .sto, .win 9] L0 = true := by decide) :
    Keeps L0 s0 (State.fmapSync s cu f) := by
  unfold State.fmapSync
  repeat' with_reducible (first | apply refl | assumption | apply fmapNew | apply stoMod | apply h_f | dsimp only | split | refine fst (by assumption) ?_ | refine snd (by assumption) ?_ | (apply Part.sub_mem hL; decide) | (apply Part.sub_trans ?_ hL; decide) | decide)

theorem mapSet {s : State} {lua v : Nat} (h : Keeps L0 s0 s) (hL : Part.sub [.dram, .sto, .win 9] L0 = true := by decide) :
    Keeps L0 s0 (State.mapSet s lua v) := by
  refine h.trans ?_ hL
  unfold State.mapSet
  repeat' with_reducible (first | apply refl | assumption | apply fmapSync | apply mapRaw | apply wrMem | dsimp only | intro _ | decide)

theorem trimUnits {s : State} {p first n : Nat} (h : Keeps L0 s0 s) (hL : Part.sub [.dram, .sto, .win 9] L0 = true := by decide) :
    Keeps L0 s0 (State.trimUnits s p first n) := by
  refine h.trans ?_ hL
  unfold State.trimUnits
  repeat' with_reducible (first | apply refl | assumption | refine each' ?_ _ (fun _ _ _ => ?_) | apply fmapSync | apply jour | apply stoMod | apply wrMem | dsimp only | intro _ | decide)

theorem storePut {s : State} {part fine : Nat} {data : Bytes} (h : Keeps L0 s0 s) (hL : Part.sub [.dram, .sto, .win 9] L0 = true := by decide) :
    Keeps L0 s0 (State.storePut s part fine data) := by
  refine h.trans ?_ hL
  unfold State.storePut
  repeat' with_reducible (first | apply refl | assumption | apply bump | apply jour | apply mapSet | apply place | apply stoMod | dsimp only | split | decide)

theorem setPhase {s : State} {v : Nat} (h : Keeps L0 s0 s) (hL : Part.sub [.win 9] L0 = true := by decide) :
    Keeps L0 s0 (State.setPhase s v) := by
  refine h.trans ?_ hL
  unfold State.setPhase
  repeat' with_reducible (first | apply refl | assumption | apply setF | dsimp only | decide)

theorem recUnitPut {s : State} {stream : Nat} (h : Keeps L0 s0 s) (hL : Part.sub [.dram, .sto, .win 9] L0 = true := by decide) :
    Keeps L0 s0 (State.recUnitPut s stream) := by
  refine h.trans ?_ hL
  unfold State.recUnitPut
  repeat' with_reducible (first | apply refl | assumption | apply jour | apply mapSet | apply place | apply setF | apply stoMod | apply wrN | dsimp only | split | decide)

theorem recAdd {s : State} {tai : Nat} {r : Bytes} (h : Keeps L0 s0 s) (hL : Part.sub [.dram, .sto, .win 9] L0 = true := by decide) :
    Keeps L0 s0 (State.recAdd s tai r).1 := by
  refine h.trans ?_ hL
  unfold State.recAdd
  repeat' with_reducible (first | apply refl | assumption | apply recUnitPut | apply stoMod | dsimp only | split | decide)

theorem sync {s : State} (h : Keeps L0 s0 s) (hL : Part.sub [.dram, .sto, .win 9] L0 = true := by decide) :
    Keeps L0 s0 (State.sync s) := by
  refine h.trans ?_ hL
  unfold State.sync
  repeat' with_reducible (first | apply refl | assumption | refine each' ?_ _ (fun _ _ _ => ?_) | apply jDrain | apply programSb | apply recUnitPut | dsimp only | decide)

theorem flushStart {s : State} {erasing : Nat} (h : Keeps L0 s0 s) (hL : Part.sub [.dram, .sto, .win 9] L0 = true := by decide) :
    Keeps L0 s0 (State.flushStart s erasing) := by
  refine h.trans ?_ hL
  unfold State.flushStart
  repeat' with_reducible (first | apply refl | assumption | refine each' ?_ _ (fun _ _ _ => ?_) | apply jour | apply mapSet | apply openAt | apply putAt | apply recUnitPut | apply setPhase | apply stoMod | apply stripeClose | refine foldlFst ?_ _ (fun _ _ _ => ?_) | refine foldl' ?_ _ (fun _ _ _ => ?_) | dsimp only | split | decide)

theorem flushJournal {s : State} (h : Keeps L0 s0 s) (hL : Part.sub [.sto, .win 9] L0 = true := by decide) :
    Keeps L0 s0 (State.flushJournal s) := by
  refine h.trans ?_ hL
  unfold State.flushJournal
  repeat' with_reducible (first | apply refl | assumption | apply jDrain | apply jour | dsimp only | decide)

end Sys2Proof.Machine.Keeps
end

