-- ==== Sys2Proof/Laws/KIntakeCore.lean ====
section
/-! SUPPORT. Sys2Proof/Laws/KIntakeCore.lean: what each operation of Machine/IntakeCore.lean touches and keeps. -/

set_option Elab.async false

namespace Sys2Proof.Machine.Keeps

set_option linter.unusedTactic false
set_option linter.unreachableTactic false

variable {L0 : List Part} {s0 : State}

theorem msmPut {s : State} {n : Nat} {e : Bytes} (h : Keeps L0 s0 s) (hL : Part.sub [.msm] L0 = true := by decide) :
    Keeps L0 s0 (State.msmPut s n e) := by
  refine h.trans ?_ hL
  unfold State.msmPut
  repeat' with_reducible (first | (apply f_msm; apply refl; decide) | apply refl | assumption | dsimp only | apply f_msm | decide)

theorem wr32 {s : State} {a v : Nat} (h : Keeps L0 s0 s) (hL : Part.sub [.dram] L0 = true := by decide) :
    Keeps L0 s0 (State.wr32 s a v) := by
  refine h.trans ?_ hL
  unfold State.wr32
  repeat' with_reducible (first | apply refl | assumption | apply wrMem | dsimp only | decide)

theorem titleDrop {s : State} {title : Bytes} {n : Nat} (h : Keeps L0 s0 s) (hL : Part.sub [.dram] L0 = true := by decide) :
    Keeps L0 s0 (State.titleDrop s title n) := by
  refine h.trans ?_ hL
  unfold State.titleDrop
  repeat' with_reducible (first | apply refl | assumption | apply wr32 | dsimp only | split | refine fst (by assumption) ?_ | refine snd (by assumption) ?_ | decide)

theorem titlePlace {s : State} {title : Bytes} {n : Nat} (h : Keeps L0 s0 s) (hL : Part.sub [.dram] L0 = true := by decide) :
    Keeps L0 s0 (State.titlePlace s title n) := by
  refine h.trans ?_ hL
  unfold State.titlePlace
  repeat' with_reducible (first | apply refl | assumption | apply wr32 | dsimp only | split | refine fst (by assumption) ?_ | refine snd (by assumption) ?_ | decide)

theorem addrSet {s : State} {naddr w : Nat} (h : Keeps L0 s0 s) (hL : Part.sub [.dram] L0 = true := by decide) :
    Keeps L0 s0 (State.addrSet s naddr w) := by
  refine h.trans ?_ hL
  unfold State.addrSet
  repeat' with_reducible (first | apply refl | assumption | apply wr32 | dsimp only | decide)

theorem addrDrop {s : State} {e : Bytes} {n : Nat} (h : Keeps L0 s0 s) (hL : Part.sub [.dram] L0 = true := by decide) :
    Keeps L0 s0 (State.addrDrop s e n) := by
  refine h.trans ?_ hL
  unfold State.addrDrop
  repeat' with_reducible (first | apply refl | assumption | apply addrSet | dsimp only | split | decide)

theorem addrTake {s : State} {e : Bytes} {n : Nat} (h : Keeps L0 s0 s) (hL : Part.sub [.dram] L0 = true := by decide) :
    Keeps L0 s0 (State.addrTake s e n) := by
  refine h.trans ?_ hL
  unfold State.addrTake
  repeat' with_reducible (first | apply refl | assumption | apply addrSet | dsimp only | split | refine fst (by assumption) ?_ | refine snd (by assumption) ?_ | decide)

theorem rebuildSlot {s : State} {n : Nat} {e : Bytes} (h : Keeps L0 s0 s) (hL : Part.sub [.dram, .smp, .win 4] L0 = true := by decide) :
    Keeps L0 s0 (State.rebuildSlot s n e) := by
  refine h.trans ?_ hL
  unfold State.rebuildSlot
  repeat' with_reducible (first | apply refl | assumption | apply addrSet | apply report | apply wr32 | dsimp only | split | refine fst (by assumption) ?_ | refine snd (by assumption) ?_ | decide)

/-- DRAM with a range of its bytes unlisted. -/
theorem dramCutTo {s : State} {a b : Nat} (h : Keeps L0 s0 s) (hL : Part.dram ∈ L0 := by decide) :
    Keeps L0 s0 { s with dram := dramCut s.dram a b } := by
  refine ⟨fun p hp => (h.only p hp).trans ?_, fun x => ?_, h.low.trans (.of_hoop rfl)⟩
  · cases p <;> first | rfl | exact absurd hL hp | exact fun _ _ => rfl
  · obtain ⟨p, q, c, d⟩ := h.wf x
    exact ⟨p, canon_filter q _, c, d⟩

theorem rebuild {s : State} (h : Keeps L0 s0 s) (hL : Part.sub [.dram, .smp, .win 4] L0 = true := by decide) :
    Keeps L0 s0 (State.rebuild s) := by
  refine h.trans ?_ hL
  unfold State.rebuild
  exact each' (dramCutTo (refl _ _)) _ (fun _ _ g => rebuildSlot g)

theorem keyAsk {s : State} {slot gen : Nat} {dir : Bool} (h : Keeps L0 s0 s) (hL : Part.sub [.ink, .win 6] L0 = true := by decide) :
    Keeps L0 s0 (State.keyAsk s slot gen dir).1 := by
  refine h.trans ?_ hL
  unfold State.keyAsk
  repeat' with_reducible (first | apply refl | assumption | apply bump | apply inkMod | refine when' ?_ _ (fun _ _ => ?_) | dsimp only | split | refine fst (by assumption) ?_ | refine snd (by assumption) ?_ | decide)

theorem kcSlot {s : State} {slot : Nat} {keep : Option Nat} (h : Keeps L0 s0 s) (hL : Part.sub [.ink] L0 = true := by decide) :
    Keeps L0 s0 (State.kcSlot s slot keep) := by
  refine h.trans ?_ hL
  unfold State.kcSlot
  repeat' with_reducible (first | apply refl | assumption | apply inkMod | dsimp only | decide)

theorem lanesBare {s : State} {p : Nat → Bool} (h : Keeps L0 s0 s) (hL : Part.sub [.ink] L0 = true := by decide) :
    Keeps L0 s0 (State.lanesBare s p) := by
  refine h.trans ?_ hL
  unfold State.lanesBare
  repeat' with_reducible (first | apply refl | assumption | apply inkMod | dsimp only | split | decide)

theorem kcDrop {s : State} {d : Nat} (h : Keeps L0 s0 s) (hL : Part.sub [.ink] L0 = true := by decide) :
    Keeps L0 s0 (State.kcDrop s d) := by
  refine h.trans ?_ hL
  unfold State.kcDrop
  repeat' with_reducible (first | apply refl | assumption | apply inkMod | dsimp only | decide)

theorem kcDomain {s : State} {d : Nat} (h : Keeps L0 s0 s) (hL : Part.sub [.ink] L0 = true := by decide) :
    Keeps L0 s0 (State.kcDomain s d) := by
  refine h.trans ?_ hL
  unfold State.kcDomain
  repeat' with_reducible (first | apply refl | assumption | apply kcDrop | apply lanesBare | dsimp only | decide)

theorem setLane {s : State} {l : Nat} {j : List LaneJob} (h : Keeps L0 s0 s) (hL : Part.sub [.ink] L0 = true := by decide) :
    Keeps L0 s0 (State.setLane s l j) := by
  refine h.trans ?_ hL
  unfold State.setLane
  repeat' with_reducible (first | apply refl | assumption | apply inkMod | dsimp only | decide)

theorem releaseHold {s : State} {n : Nat} (h : Keeps L0 s0 s) (hL : Part.sub [.ink] L0 = true := by decide) :
    Keeps L0 s0 (State.releaseHold s n) := by
  refine h.trans ?_ hL
  unfold State.releaseHold
  repeat' with_reducible (first | apply refl | assumption | apply inkMod | dsimp only | split | refine fst (by assumption) ?_ | refine snd (by assumption) ?_ | decide)

theorem laneReturn {s : State} {l : Nat} (h : Keeps L0 s0 s) (hL : Part.sub [.ink] L0 = true := by decide) :
    Keeps L0 s0 (State.laneReturn s l) := by
  refine h.trans ?_ hL
  unfold State.laneReturn
  repeat' with_reducible (first | apply refl | assumption | apply inkMod | apply setLane | dsimp only | split | refine fst (by assumption) ?_ | refine snd (by assumption) ?_ | decide)

theorem ingEnter {s : State} {q : Nat} {e : Bytes} (h : Keeps L0 s0 s) (hL : Part.sub [.ink, .win 6] L0 = true := by decide) :
    Keeps L0 s0 (State.ingEnter s q e) := by
  refine h.trans ?_ hL
  unfold State.ingEnter
  repeat' with_reducible (first | apply refl | assumption | apply bumpF | apply inkMod | dsimp only | split | (apply Part.win_arr <;> decide) | decide)

theorem counterUpdate {s : State} {slot c g tai : Nat} (h : Keeps L0 s0 s) (hL : Part.sub [.dram, .msm, .win 6] L0 = true := by decide) :
    Keeps L0 s0 (State.counterUpdate s slot c g tai) := by
  refine h.trans ?_ hL
  unfold State.counterUpdate
  repeat' with_reducible (first | apply refl | assumption | apply bump | apply msmPut | refine when' ?_ _ (fun _ _ => ?_) | apply wrMem | dsimp only | split | decide)

theorem slotWrite {s : State} {o : SlotOp} {e' : Bytes} (h : Keeps L0 s0 s) (hL : Part.sub [.dram, .ink, .sto, .msm, .pair, .out] L0 = true := by decide) :
    Keeps L0 s0 (State.slotWrite s o e') := by
  refine h.trans ?_ hL
  unfold State.slotWrite
  repeat' with_reducible (first | apply refl | assumption | apply addrDrop | apply addrTake | apply inkMod | apply jour | apply kcSlot | apply mirror | apply msmPut | apply titleDrop | apply titlePlace | refine when' ?_ _ (fun _ _ => ?_) | apply wrMem | dsimp only | split | decide)

theorem slotExec {s : State} (h : Keeps L0 s0 s) (hL : Part.sub [.dram, .ink, .sto, .msm, .pair, .out] L0 = true := by decide) :
    Keeps L0 s0 (State.slotExec s) := by
  refine h.trans ?_ hL
  unfold State.slotExec
  repeat' with_reducible (first | apply refl | assumption | apply inkMod | apply slotWrite | dsimp only | split | refine fst (by assumption) ?_ | refine snd (by assumption) ?_ | decide)

end Sys2Proof.Machine.Keeps
end

