-- ==== Sys2Proof/Laws/KTotCore.lean ====
section
/-! SUPPORT. Sys2Proof/Laws/KTotCore.lean: what each operation of Machine/TotCore.lean touches and keeps. -/

set_option Elab.async false

namespace Sys2Proof.Machine.Keeps

set_option linter.unusedTactic false
set_option linter.unreachableTactic false

variable {L0 : List Part} {s0 : State}

theorem totMod {s : State} {f : TotState → TotState} (h : Keeps L0 s0 s) (hL : Part.sub [.tot] L0 = true := by decide) :
    Keeps L0 s0 (State.totMod s f) := by
  refine h.trans ?_ hL
  unfold State.totMod
  repeat' with_reducible (first | (apply f_tot; apply refl; decide) | apply refl | assumption | dsimp only | apply f_tot | decide)

theorem totValid {s : State} (h : Keeps L0 s0 s) (hL : Part.sub [.win 8] L0 = true := by decide) :
    Keeps L0 s0 (State.totValid s) := by
  refine h.trans ?_ hL
  unfold State.totValid
  repeat' with_reducible (first | apply refl | assumption | apply setF | dsimp only | decide)

theorem legalPut {s : State} {fine off : Nat} {b : Bytes} (h : Keeps L0 s0 s) (hL : Part.sub [.dram, .sto, .win 9] L0 = true := by decide) :
    Keeps L0 s0 (State.legalPut s fine off b) := by
  refine h.trans ?_ hL
  unfold State.legalPut
  repeat' with_reducible (first | apply refl | assumption | apply storePut | dsimp only | decide)

theorem evtPut {s : State} {b : Bytes} (h : Keeps L0 s0 s) (hL : Part.sub [.dram, .sto, .tot, .win 8, .win 9] L0 = true := by decide) :
    Keeps L0 s0 (State.evtPut s b) := by
  refine h.trans ?_ hL
  unfold State.evtPut
  repeat' with_reducible (first | apply refl | assumption | apply legalPut | apply totMod | apply wrN | dsimp only | decide)

theorem totEvt {s : State} {kind eflags data : Nat} (h : Keeps L0 s0 s) (hL : Part.sub [.dram, .sto, .tot, .win 8, .win 9] L0 = true := by decide) :
    Keeps L0 s0 (State.totEvt s kind eflags data) := by
  refine h.trans ?_ hL
  unfold State.totEvt
  repeat' with_reducible (first | apply refl | assumption | apply evtPut | apply totMod | dsimp only | split | decide)

theorem evtDrain {s : State} (h : Keeps L0 s0 s) (hL : Part.sub [.dram, .sto, .tot, .win 8, .win 9] L0 = true := by decide) :
    Keeps L0 s0 (State.evtDrain s) := by
  refine h.trans ?_ hL
  unfold State.evtDrain
  repeat' with_reducible (first | apply refl | assumption | refine each' ?_ _ (fun _ _ _ => ?_) | apply evtPut | apply totMod | dsimp only | split | decide)

theorem stateRec {s : State} {kind : Nat} (h : Keeps L0 s0 s) (hL : Part.sub [.dram, .sto, .tot, .win 9] L0 = true := by decide) :
    Keeps L0 s0 (State.stateRec s kind) := by
  refine h.trans ?_ hL
  unfold State.stateRec
  repeat' with_reducible (first | apply refl | assumption | apply legalPut | apply totMod | refine when' ?_ _ (fun _ _ => ?_) | dsimp only | decide)

theorem subClose {s : State} {e : Nat} {irr : Bool} (h : Keeps L0 s0 s) (hL : Part.sub [.tot, .draws] L0 = true := by decide) :
    Keeps L0 s0 (State.subClose s e irr) := by
  refine h.trans ?_ hL
  unfold State.subClose
  repeat' with_reducible (first | (apply f_tot; apply refl; decide) | (apply f_tot_draws; apply refl; all_goals decide) | apply refl | assumption | dsimp only | split | apply f_tot | apply f_tot_draws | decide)

theorem subOpen {s : State} {m : Nat} {irr : Bool} (h : Keeps L0 s0 s) (hL : Part.sub [.tot] L0 = true := by decide) :
    Keeps L0 s0 (State.subOpen s m irr) := by
  refine h.trans ?_ hL
  unfold State.subOpen
  repeat' with_reducible (first | apply refl | assumption | apply totMod | dsimp only | decide)

theorem billFlag {s : State} {b : Nat} (h : Keeps L0 s0 s) (hL : Part.sub [.tot] L0 = true := by decide) :
    Keeps L0 s0 (State.billFlag s b) := by
  refine h.trans ?_ hL
  unfold State.billFlag
  repeat' with_reducible (first | apply refl | assumption | apply totMod | dsimp only | decide)

theorem billAt {s : State} {b : Nat} {forced : Bool} (h : Keeps L0 s0 s) (hL : Part.sub [.dram, .sto, .tot, .win 8, .win 9] L0 = true := by decide) :
    Keeps L0 s0 (State.billAt s b forced) := by
  refine h.trans ?_ hL
  unfold State.billAt
  repeat' with_reducible (first | apply refl | assumption | apply bump | apply legalPut | apply raiseF | apply setF | apply stateRec | apply totEvt | apply totMod | refine when' ?_ _ (fun _ _ => ?_) | apply wr | dsimp only | split | refine fst (by assumption) ?_ | refine snd (by assumption) ?_ | decide)

theorem billsDue {s : State} {a b : Nat} (h : Keeps L0 s0 s) (hL : Part.sub [.dram, .sto, .tot, .win 8, .win 9] L0 = true := by decide) :
    Keeps L0 s0 (State.billsDue s a b) := by
  refine h.trans ?_ hL
  unfold State.billsDue
  repeat' with_reducible (first | apply refl | assumption | apply billAt | refine each' ?_ _ (fun _ _ _ => ?_) | dsimp only | split | decide)

theorem calPut {s : State} {fine : Nat} {c : Bytes} (h : Keeps L0 s0 s) (hL : Part.sub [.dram, .sto, .win 9] L0 = true := by decide) :
    Keeps L0 s0 (State.calPut s fine c) := by
  refine h.trans ?_ hL
  unfold State.calPut
  repeat' with_reducible (first | apply refl | assumption | refine each' ?_ _ (fun _ _ _ => ?_) | apply storePut | refine when' ?_ _ (fun _ _ => ?_) | dsimp only | decide)

theorem calActivate {s : State} {late : Bool} (h : Keeps L0 s0 s) (hL : Part.sub [.dram, .sto, .tot, .win 8, .win 9] L0 = true := by decide) :
    Keeps L0 s0 (State.calActivate s late) := by
  refine h.trans ?_ hL
  unfold State.calActivate
  repeat' with_reducible (first | apply refl | assumption | apply calPut | apply setF | apply totEvt | apply totMod | apply wrN | dsimp only | decide)

theorem rateSet {s : State} {m : Nat} (h : Keeps L0 s0 s) (hL : Part.sub [.win 8] L0 = true := by decide) :
    Keeps L0 s0 (State.rateSet s m) := by
  refine h.trans ?_ hL
  unfold State.rateSet
  repeat' with_reducible (first | apply refl | assumption | apply setF | dsimp only | split | decide)

theorem totMinute {s : State} {m : Nat} (h : Keeps L0 s0 s) (hL : Part.sub [.dram, .sto, .tot, .draws, .win 8, .win 9] L0 = true := by decide) :
    Keeps L0 s0 (State.totMinute s m) := by
  refine h.trans ?_ hL
  unfold State.totMinute
  repeat' with_reducible (first | apply refl | assumption | apply billsDue | apply calActivate | apply rateSet | apply subClose | apply subOpen | apply totEvt | refine when' ?_ _ (fun _ _ => ?_) | dsimp only | decide)

theorem integrate {s : State} {p q : List Int} (h : Keeps L0 s0 s) (hL : Part.sub [.tot] L0 = true := by decide) :
    Keeps L0 s0 (State.integrate s p q) := by
  refine h.trans ?_ hL
  unfold State.integrate
  repeat' with_reducible (first | (apply f_tot; apply refl; decide) | apply refl | assumption | refine foldlFst ?_ _ (fun _ _ _ => ?_) | refine foldl' ?_ _ (fun _ _ _ => ?_) | dsimp only | split | apply f_tot | decide)

theorem totLatch {s : State} (h : Keeps L0 s0 s) (hL : Part.sub [.win 8] L0 = true := by decide) :
    Keeps L0 s0 (State.totLatch s) := by
  refine h.trans ?_ hL
  unfold State.totLatch
  repeat' with_reducible (first | apply refl | assumption | apply setF | apply wrN | dsimp only | decide)

theorem totStep {s : State} {m0 : Nat} {fwd : Bool} {sec : Int} (h : Keeps L0 s0 s) (hL : Part.sub [.dram, .sto, .tot, .smp, .draws, .win 4, .win 8, .win 9] L0 = true := by decide) :
    Keeps L0 s0 (State.totStep s m0 fwd sec) := by
  refine h.trans ?_ hL
  unfold State.totStep
  repeat' with_reducible (first | apply refl | assumption | apply billFlag | apply billsDue | apply bump | apply calActivate | apply raiseF | apply rateSet | apply report | apply subClose | apply subOpen | apply totEvt | apply totMod | refine when' ?_ _ (fun _ _ => ?_) | dsimp only | split | decide)

theorem sessionDrop {s : State} (h : Keeps L0 s0 s) (hL : Part.sub [.tot, .win 8] L0 = true := by decide) :
    Keeps L0 s0 (State.sessionDrop s) := by
  refine h.trans ?_ hL
  unfold State.sessionDrop
  repeat' with_reducible (first | apply refl | assumption | apply raiseF | apply setF | apply totMod | apply totValid | dsimp only | split | decide)

theorem totPfail {s : State} (h : Keeps L0 s0 s) (hL : Part.sub [.dram, .sto, .tot, .win 8, .win 9] L0 = true := by decide) :
    Keeps L0 s0 (State.totPfail s) := by
  refine h.trans ?_ hL
  unfold State.totPfail
  repeat' with_reducible (first | apply refl | assumption | apply sessionDrop | apply stateRec | apply totEvt | apply totMod | apply totValid | dsimp only | split | decide)

end Sys2Proof.Machine.Keeps
end

