-- ==== Sys2Proof/Laws/KHoopCore.lean ====
section
/-! SUPPORT. Sys2Proof/Laws/KHoopCore.lean: what each operation of Machine/HoopCore.lean touches and keeps. -/

set_option Elab.async false

namespace Sys2Proof.Machine.Keeps

set_option linter.unusedTactic false
set_option linter.unreachableTactic false

variable {L0 : List Part} {s0 : State}

theorem norPut {s : State} {p : Nat} {b : Bytes} (h : Keeps L0 s0 s) (hL : Part.sub [.nor] L0 = true := by decide) :
    Keeps L0 s0 (State.norPut s p b) := by
  refine h.trans ?_ hL
  unfold State.norPut
  repeat' with_reducible (first | (apply f_nor; apply refl; decide) | apply refl | assumption | dsimp only | apply f_nor | decide)

theorem norErase {s : State} {p n : Nat} (h : Keeps L0 s0 s) (hL : Part.sub [.nor] L0 = true := by decide) :
    Keeps L0 s0 (State.norErase s p n) := by
  refine h.trans ?_ hL
  unfold State.norErase
  repeat' with_reducible (first | (apply f_nor; apply refl; decide) | apply refl | assumption | dsimp only | apply f_nor | decide)

theorem hoopMod {s : State} {f : HoopState → HoopState} (h : Keeps L0 s0 s)
    (hc : (f s.hoop).domainUsed = s.hoop.domainUsed ∧ (f s.hoop).pairUsed = s.hoop.pairUsed ∧
      (f s.hoop).debugUsed = s.hoop.debugUsed ∧ (f s.hoop).unsealUsed = s.hoop.unsealUsed ∧
      (f s.hoop).floorUsed = s.hoop.floorUsed ∧ (f s.hoop).floors = s.hoop.floors := by exact ⟨rfl, rfl, rfl, rfl, rfl, rfl⟩)
    (hL : Part.sub [.hoop] L0 = true := by decide) : Keeps L0 s0 (State.hoopMod s f) := by
  refine hoopUpd h (fun p => ?_) rfl rfl rfl hc
  cases p <;> first | exact .inr rfl | exact .inl (Part.sub_mem hL (by decide)) | exact .inr fun _ _ => rfl

/-- An update of the hoop that raises counts and floors within their limits. -/
theorem hoopCount {s : State} {f : HoopState → HoopState} (h : Keeps L0 s0 s) (hL : Part.sub [.hoop] L0 = true)
    (hw : s.hoop.countsOk → (f s.hoop).countsOk)
    (hn : NoLower s (s.hoopMod f)) : Keeps L0 s0 (State.hoopMod s f) := by
  refine ⟨fun p hp => (h.only p hp).trans ?_, fun w => ?_, h.low.trans hn⟩
  · cases p <;> first | rfl | exact absurd (Part.sub_mem hL (by decide)) hp | exact fun _ _ => rfl
  · obtain ⟨a, b, c, d⟩ := h.wf w
    exact ⟨a, b, hw c, d⟩

theorem random {s : State} {n : Nat} (h : Keeps L0 s0 s) (hL : Part.sub [.draws] L0 = true := by decide) :
    Keeps L0 s0 (State.random s n).1 := by
  refine h.trans ?_ hL
  unfold State.random
  repeat' with_reducible (first | apply refl | assumption | apply draw | dsimp only | decide)

theorem ndlPut {s : State} {n : Nat} {k : NdlSlot} (h : Keeps L0 s0 s) (hL : Part.sub [.hoop] L0 = true := by decide) :
    Keeps L0 s0 (State.ndlPut s n k) := by
  refine h.trans ?_ hL
  unfold State.ndlPut
  repeat' with_reducible (first | apply refl | assumption | apply hoopMod | dsimp only | (refine ⟨?_, ?_, ?_, ?_, ?_, ?_⟩ <;> rfl) | decide)

theorem ndlWipe {s : State} {n : Nat} {bad : Bool} (h : Keeps L0 s0 s) (hL : Part.sub [.ink, .hoop, .smp, .win 4, .win 5] L0 = true := by decide) :
    Keeps L0 s0 (State.ndlWipe s n bad) := by
  refine h.trans ?_ hL
  unfold State.ndlWipe
  repeat' with_reducible (first | apply refl | assumption | apply kcDomain | apply ndlPut | apply raiseF | apply report | refine when' ?_ _ (fun _ _ => ?_) | dsimp only | split | decide)

theorem deviceKeys {s : State} (h : Keeps L0 s0 s) (hL : Part.sub [.hoop, .win 5] L0 = true := by decide) :
    Keeps L0 s0 (State.deviceKeys s) := by
  refine h.trans ?_ hL
  unfold State.deviceKeys
  repeat' with_reducible (first | apply refl | assumption | apply ndlPut | apply wrN | dsimp only | (apply Part.win_arr <;> decide) | decide)

theorem vaultWrite {s : State} (h : Keeps L0 s0 s) (hL : Part.sub [.hoop, .nor, .draws, .win 5] L0 = true := by decide) :
    Keeps L0 s0 (State.vaultWrite s) := by
  refine h.trans ?_ hL
  unfold State.vaultWrite
  repeat' with_reducible (first | apply refl | assumption | apply hoopMod | apply norErase | apply norPut | apply random | apply setF | dsimp only | split | refine fst (by assumption) ?_ | refine snd (by assumption) ?_ | (refine ⟨?_, ?_, ?_, ?_, ?_, ?_⟩ <;> rfl) | decide)

theorem vaultRecs {s : State} {r : Bytes} {k : Nat} (h : Keeps L0 s0 s) (hL : Part.sub [.hoop] L0 = true := by decide) :
    Keeps L0 s0 (State.vaultRecs s r k) := by
  refine h.trans ?_ hL
  clear h hL
  fun_induction State.vaultRecs s r k <;>
  repeat' with_reducible (first | apply refl | assumption | refine trans ?_ (by assumption) (by decide) | apply ndlPut | dsimp only | split | refine fst (by assumption) ?_ | refine snd (by assumption) ?_ | decide)

theorem vaultLoad {s : State} (h : Keeps L0 s0 s) (hL : Part.sub [.hoop, .nor, .smp, .win 4] L0 = true := by decide) :
    Keeps L0 s0 (State.vaultLoad s) := by
  refine h.trans ?_ hL
  unfold State.vaultLoad
  repeat' with_reducible (first | apply refl | assumption | apply norErase | apply report | apply vaultRecs | refine when' ?_ _ (fun _ _ => ?_) | dsimp only | split | refine fst (by assumption) ?_ | refine snd (by assumption) ?_ | decide)

theorem chgAppend {s : State} {setting flags left value kind : Nat} (h : Keeps L0 s0 s) (hL : Part.sub [.dram, .sto, .win 5, .win 9] L0 = true := by decide) :
    Keeps L0 s0 (State.chgAppend s setting flags left value kind) := by
  refine h.trans ?_ hL
  unfold State.chgAppend
  repeat' with_reducible (first | apply refl | assumption | apply setF | apply storePut | dsimp only | split | decide)

theorem cntLog {s : State} {setting flags value kind : Nat} (h : Keeps L0 s0 s) (hL : Part.sub [.dram, .sto, .smp, .win 4, .win 5, .win 9] L0 = true := by decide) :
    Keeps L0 s0 (State.cntLog s setting flags value kind) := by
  refine h.trans ?_ hL
  unfold State.cntLog
  repeat' with_reducible (first | apply refl | assumption | apply chgAppend | apply report | dsimp only | decide)

theorem unsealSpend {s : State} (h : Keeps L0 s0 s) (hl : s.cntLeft 5 0 ≠ 0)
    (hL : Part.sub [.dram, .sto, .hoop, .smp, .win 4, .win 5, .win 9] L0 = true := by decide) : Keeps L0 s0 (State.unsealSpend s) := by
  unfold State.unsealSpend
  refine cntLog (hoopCount h (Part.sub_trans (by decide) hL) (fun w => ?_) ?_) (Part.sub_trans (by decide) hL)
  · simp only [State.cntLeft, State.cntUsed, cntLimit] at hl
    obtain ⟨a, b, c, d, e⟩ := w
    exact ⟨a, b, c, by show s.hoop.unsealUsed + 1 ≤ 16; omega, e⟩
  · simp [NoLower, State.hoopMod]

theorem floorRaise {s : State} {kind steps : Nat} {fail : Bool} (h : Keeps L0 s0 s) (hl : steps ≤ s.cntLeft 2 kind)
    (hL : Part.sub [.hoop] L0 = true := by decide) : Keeps L0 s0 (State.floorRaise s kind steps fail) := by
  have get : ∀ (l : List Nat) (v k : Nat), (l.set kind v).getD k 0 = if k = kind ∧ kind < l.length then v else l.getD k 0 := by
    intro l v k
    simp only [List.getD_eq_getElem?_getD, List.getElem?_set]
    by_cases e : kind = k
    · subst e
      by_cases g : kind < l.length <;> simp [g]
    · have : ¬ k = kind := fun x => e x.symm
      simp [e, this]
  unfold State.floorRaise
  refine hoopCount h hL (fun w => ?_) ?_
  · simp only [State.cntLeft, State.cntUsed, cntLimit] at hl
    obtain ⟨a, b, c, d, e, u, v⟩ := w
    refine ⟨a, b, c, d, ?_, fun k => ?_, fun k => ?_⟩
    · cases fail <;> simpa using e
    · have := u kind
      have := u k
      rw [get]
      split <;> omega
    · have := v kind
      have := v k
      have := u kind
      by_cases hk : k = kind
      · subst hk
        cases fail <;> simp only [get, Bool.false_eq_true, if_true, if_false, e, true_and] <;> split <;> omega
      cases fail <;> simp only [get, Bool.false_eq_true, if_true, if_false, hk, false_and, if_false] <;> omega
  · refine ⟨fun k => ?_, fun k => ?_, ?_⟩
    · simp only [State.hoopMod]
      cases fail <;> simp only [get, Bool.false_eq_true, if_true, if_false]
      · split
        · rename_i x; rw [x.1]; omega
        · exact Nat.le_refl _
      · exact Nat.le_refl _
    · simp only [State.hoopMod, get]
      split
      · rename_i x; rw [x.1]; omega
      · exact Nat.le_refl _
    · simp [State.hoopMod]

theorem hoopStart {s : State} {pon : Bool} (h : Keeps L0 s0 s) (hL : Part.sub [.hoop, .nor, .smp, .win 4, .win 5] L0 = true := by decide) :
    Keeps L0 s0 (State.hoopStart s pon) := by
  refine h.trans ?_ hL
  unfold State.hoopStart
  repeat' with_reducible (first | apply refl | assumption | apply deviceKeys | apply hoopMod | apply report | apply vaultLoad | refine when' ?_ _ (fun _ _ => ?_) | dsimp only | split | (refine ⟨?_, ?_, ?_, ?_, ?_, ?_⟩ <;> rfl) | decide)

end Sys2Proof.Machine.Keeps
end

