-- ==== Sys2Proof/Laws/KBootCore.lean ====
section
/-! SUPPORT. Sys2Proof/Laws/KBootCore.lean: what each operation of Machine/BootCore.lean touches and keeps. -/

set_option Elab.async false

namespace Sys2Proof.Machine.Keeps

set_option linter.unusedTactic false
set_option linter.unreachableTactic false

variable {L0 : List Part} {s0 : State}

theorem dirWrite {s : State} {f : Bytes → Bytes} (h : Keeps L0 s0 s) (hL : Part.sub [.nor] L0 = true := by decide) :
    Keeps L0 s0 (State.dirWrite s f) := by
  refine h.trans ?_ hL
  unfold State.dirWrite
  repeat' with_reducible (first | apply refl | assumption | apply norErase | apply norPut | dsimp only | split | refine fst (by assumption) ?_ | refine snd (by assumption) ?_ | decide)

theorem slotSet {s : State} {i st tries : Nat} (h : Keeps L0 s0 s) (hL : Part.sub [.nor] L0 = true := by decide) :
    Keeps L0 s0 (State.slotSet s i st tries) := by
  refine h.trans ?_ hL
  unfold State.slotSet
  repeat' with_reducible (first | apply refl | assumption | apply dirWrite | dsimp only | decide)

theorem setRcvReq {s : State} {v : Nat} (h : Keeps L0 s0 s) (hL : Part.sub [.nor] L0 = true := by decide) :
    Keeps L0 s0 (State.setRcvReq s v) := by
  refine h.trans ?_ hL
  unfold State.setRcvReq
  repeat' with_reducible (first | apply refl | assumption | apply dirWrite | dsimp only | decide)

theorem build {s : State} {path : Nat} {b : Built} (h : Keeps L0 s0 s) (hL : Part.sub [.fab] L0 = true := by decide) :
    Keeps L0 s0 (State.build s path b) := by
  refine h.trans ?_ hL
  unfold State.build
  repeat' with_reducible (first | apply refl | assumption | apply fabMod | dsimp only | decide)

theorem tget_filter {α : Type} (d : Nat → α) (t : Tbl α) (p : Nat → Bool) (k : Nat) (hp : p k = true) :
    tget d (t.filter (fun e => p e.1)) k = tget d t k := by
  induction t with
  | nil => rfl
  | cons e r ih =>
    obtain ⟨i, w⟩ := e
    by_cases hi : i = k
    · subst hi
      simp [hp, tget]
    · by_cases q : p i <;> simp [q, tget, hi, ih]

theorem paramDefault {s : State} {n : Nat} (h : Keeps L0 s0 s) (hL : Part.sub [.fab, .win 16] L0 = true := by decide) :
    Keeps L0 s0 (State.paramDefault s n) := by
  unfold State.paramDefault
  refine ⟨fun p hp => (h.only p hp).trans ?_, fun x => ?_, h.low.trans (.of_hoop rfl)⟩
  · cases p <;> first | rfl | exact absurd (Part.sub_mem hL (by decide)) hp | skip
    intro k hk
    refine tget_filter _ _ (fun j => !ofParams n j) k ?_
    by_cases g : 0x1000000 ≤ k
    · have : window k = 16 := by unfold window; omega
      rw [this] at hk
      subst hk
      exact absurd (Part.sub_mem hL (by decide)) hp
    · simp [ofParams, g]
  · obtain ⟨p, q, c, d⟩ := h.wf x
    exact ⟨canon_filter p _, q, c, d⟩

/-- A fold over a list, of which the step may use that each element is in it. -/
theorem eachMem {α : Type} {L : List Part} {s t : State} {l : List α} {f : α → State → State} (h : Keeps L s t)
    (hf : ∀ a ∈ l, ∀ u, Keeps L s u → Keeps L s (f a u)) : Keeps L s (t.each l f) := by
  unfold State.each
  induction l generalizing t with
  | nil => exact h
  | cons a l ih => exact ih (hf a (by simp) t h) (fun b hb => hf b (by simp [hb]))

theorem shadowBack {s : State} {n : Nat} (h : Keeps L0 s0 s) (hL : Part.sub [.win 16] L0 = true := by decide) :
    Keeps L0 s0 (State.shadowBack s n) := by
  unfold State.shadowBack
  refine eachMem h (fun k hk u g => wr g k _ ?_)
  have hk := List.mem_eraseDups.mp hk
  have hp := (List.mem_filter.mp hk).2
  simp only [ofPort, decide_eq_true_eq] at hp
  have : window k = 16 := by unfold window; omega
  rw [this]
  exact Part.sub_mem hL (by decide)

theorem portPersona {s : State} {n : Nat} {b : Built} (h : Keeps L0 s0 s) (hL : Part.sub [.fab, .ports, .win 16] L0 = true := by decide) :
    Keeps L0 s0 (State.portPersona s n b) := by
  refine h.trans ?_ hL
  unfold State.portPersona
  repeat' with_reducible (first | apply refl | assumption | apply paramDefault | apply portMod | apply setF | dsimp only | split | (apply Part.win_port <;> decide) | decide)

theorem spareShow {s : State} {g persona : Nat} {idle : Bool} (h : Keeps L0 s0 s) (hL : Part.sub [.win 11] L0 = true := by decide) :
    Keeps L0 s0 (State.spareShow s g idle persona) := by
  refine h.trans ?_ hL
  unfold State.spareShow
  repeat' with_reducible (first | apply refl | assumption | apply setF | dsimp only | decide)

theorem regionSet {s : State} {r x : Nat} (h : Keeps L0 s0 s) (hL : Part.sub [.fab, .win 6, .win 9, .win 10, .win 11, .win 16] L0 = true := by decide) :
    Keeps L0 s0 (State.regionSet s r x) := by
  refine h.trans ?_ hL
  unfold State.regionSet
  repeat' with_reducible (first | apply refl | assumption | apply build | refine each' ?_ _ (fun _ _ _ => ?_) | apply fabMod | apply setF | apply spareShow | apply wrN | dsimp only | split | refine fst (by assumption) ?_ | refine snd (by assumption) ?_ | (apply Part.win_port <;> decide) | decide)

theorem mapsSet {s : State} {r : Nat} {d : Bytes} (h : Keeps L0 s0 s) (hL : Part.sub [.fab] L0 = true := by decide) :
    Keeps L0 s0 (State.mapsSet s r d) := by
  refine h.trans ?_ hL
  unfold State.mapsSet
  repeat' with_reducible (first | apply refl | assumption | apply fabMod | dsimp only | decide)

theorem regionBuild {s : State} {r : Nat} {c : RunCont} (h : Keeps L0 s0 s) (hL : Part.sub [.fab, .draws, .win 6, .win 9, .win 10, .win 11, .win 16] L0 = true := by decide) :
    Keeps L0 s0 (State.regionBuild s r c) := by
  refine h.trans ?_ hL
  unfold State.regionBuild
  repeat' with_reducible (first | apply refl | assumption | apply build | apply draw | refine each' ?_ _ (fun _ _ _ => ?_) | apply mapsSet | apply regionSet | dsimp only | split | decide)

theorem hoopImage {s : State} {rd : Nat → Bytes} (h : Keeps L0 s0 s) (hL : Part.sub [.hoop, .ladder, .win 11] L0 = true := by decide) :
    Keeps L0 s0 (State.hoopImage s rd) := by
  refine h.trans ?_ hL
  unfold State.hoopImage
  repeat' with_reducible (first | (apply f_ladder; apply refl; decide) | apply refl | assumption | apply hoopMod | apply wrN | dsimp only | apply f_ladder | (apply Part.win_arr <;> decide) | (refine ⟨?_, ?_, ?_, ?_, ?_, ?_⟩ <;> rfl) | decide)

theorem fieldImage {s : State} {rd : Nat → Bytes} (h : Keeps L0 s0 s) (hL : Part.sub [.dram, .ladder, .win 11] L0 = true := by decide) :
    Keeps L0 s0 (State.fieldImage s rd) := by
  refine h.trans ?_ hL
  unfold State.fieldImage
  repeat' with_reducible (first | (apply f_ladder; apply refl; decide) | apply refl | assumption | apply wrMem | apply wrN | dsimp only | apply f_ladder | (apply Part.win_arr <;> decide) | decide)

end Sys2Proof.Machine.Keeps
end

