-- ==== Sys2Proof/Laws/Directory.lean ====
section
/-! SUPPORT. Sys2Proof/Laws/Directory.lean: blocks sealed with CRC-32C, and the slot directory after a write of it. -/

set_option Elab.async false

namespace Sys2Proof.Machine

theorem crcStepLo_lt {poly c : Nat} (hp : poly < 2 ^ 32) (hc : c < 2 ^ 32) : crcStepLo poly c < 2 ^ 32 := by
  unfold crcStepLo
  split
  · exact Nat.xor_lt_two_pow (by omega) hp
  · omega

theorem crcByteLo_lt {poly c x : Nat} (hp : poly < 2 ^ 32) (hc : c < 2 ^ 32) : crcByteLo poly c x < 2 ^ 32 := by
  unfold crcByteLo
  have h0 : c ^^^ (x % 256) < 2 ^ 32 := Nat.xor_lt_two_pow hc (by omega)
  generalize c ^^^ (x % 256) = a at h0
  generalize List.range 8 = l
  induction l generalizing a with
  | nil => exact h0
  | cons _ _ ih => exact ih _ (crcStepLo_lt hp h0)

theorem crc32c_lt (b : Bytes) : crc32c b < 2 ^ 32 := by
  unfold crc32c crcLo
  refine Nat.xor_lt_two_pow ?_ (by decide)
  have h0 : (0xFFFFFFFF : Nat) < 2 ^ 32 := by decide
  generalize (0xFFFFFFFF : Nat) = a at h0
  induction b generalizing a with
  | nil => exact h0
  | cons _ _ ih => exact ih _ (crcByteLo_lt (by decide) h0)

theorem bytesLE_length (n v : Nat) : (bytesLE n v).length = n := by simp [bytesLE]

theorem u8_append (d l : Bytes) (i : Nat) : u8 (d ++ l) (d.length + i) = u8 l i := by
  simp [u8, List.getD_eq_getElem?_getD, List.getElem?_append_right]

/-- The number behind n bytes is the one that was put there. -/
theorem u32_append {d : Bytes} {n v : Nat} (hd : d.length = n) (hv : v < 2 ^ 32) : u32 (d ++ bytesLE 4 v) n = v := by
  subst hd
  have h (i : Nat) := u8_append d (bytesLE 4 v) i
  have h0 := h 0
  rw [Nat.add_zero] at h0
  simp only [u32, u16, Nat.add_assoc, h0, h]
  simp [u8, bytesLE, List.range_succ]
  omega

/-- 4,092 bytes sealed with their CRC-32C check (R454). -/
theorem blkOk_sealed {d : Bytes} (hd : d.length = 4092) : blkOk (d ++ bytesLE 4 (crc32c d)) = true := by
  unfold blkOk
  rw [u32_append hd (crc32c_lt d), List.take_left' hd]
  simp

/-- The same, as the two sides of the comparison. -/
theorem u32_sealed {d : Bytes} (hd : d.length = 4092) :
    u32 (d ++ bytesLE 4 (crc32c d)) 4092 = crc32c ((d ++ bytesLE 4 (crc32c d)).take 4092) := of_decide_eq_true (blkOk_sealed hd)

theorem slice_append {p q : Bytes} {n k : Nat} (hp : p.length = n) (hq : q.length = k) : slice (p ++ q) n k = q := by
  subst hp hq
  simp [slice]

/-- The directory after a write of it, where none was: bytes 16 to 4,091 are those written. -/
theorem State.dir_dirWrite {s : State} {f : Bytes → Bytes} (h : s.dirBest = none) (hf : (f s.dir).length = 4096) :
    ∃ m, m.length = 16 ∧ (s.dirWrite f).dir = (m ++ slice (f s.dir) 16 4076) ++ bytesLE 4 (crc32c (m ++ slice (f s.dir) 16 4076)) := by
  obtain ⟨m, hm⟩ : ∃ m, m = bytesLE 4 0x52494453 ++ [1, 0, 0, 0] ++ bytesLE 8 (un s.dir 8 8 + 1) := ⟨_, rfl⟩
  have hml : m.length = 16 := by rw [hm]; simp [bytesLE]
  refine ⟨m, hml, ?_⟩
  obtain ⟨p, hp⟩ : ∃ p, p = m ++ slice (f s.dir) 16 4076 := ⟨_, rfl⟩
  have hpl : p.length = 4092 := by rw [hp]; simp [slice, hml, hf]
  obtain ⟨q, hq⟩ : ∃ q, q = p ++ bytesLE 4 (crc32c p) := ⟨_, rfl⟩
  have hql : q.length = 4096 := by rw [hq, List.length_append, hpl, bytesLE_length]
  have hw : s.dirWrite f = ((s.norErase 0 16).norPut 0 q).norErase 0x10 16 := by
    simp only [State.dirWrite, h, dirPage, hq, hp, hm]
    rfl
  have h0 : (s.dirWrite f).norPage 0 = q := by
    rw [hw]
    unfold State.norPage
    show tget _ (List.filter (fun e => decide (e.1 < 0x10 ∨ 0x10 + 16 ≤ e.1)) _) 0 = q
    rw [Keeps.tget_filter _ _ (fun k => decide (k < 0x10 ∨ 0x10 + 16 ≤ k)) 0 (by decide)]
    unfold State.norPut
    rw [tget_tset_same, hql]
    exact List.append_nil _
  have h1 : (s.dirWrite f).norPage 0x10 = norBlank := by
    rw [hw]
    unfold State.norPage State.norErase
    have : ∀ t : Tbl Bytes, tget (fun _ => norBlank) (t.filter (fun e => decide (e.1 < 0x10 ∨ 0x10 + 16 ≤ e.1))) 0x10 = norBlank := by
      intro t
      induction t with
      | nil => rfl
      | cons e r ih =>
        by_cases g : e.1 < 0x10 ∨ 0x10 + 16 ≤ e.1
        · simp only [List.filter_cons, g, decide_true, if_true, tget]
          rw [if_neg (by omega)]
          exact ih
        · simp only [List.filter_cons, g, decide_false]
          exact ih
    exact this _
  have hb : (s.dirWrite f).dirBest = some 0 := by
    have g : dirOk q = true := by
      have e0 : u32 q 4092 = crc32c (q.take 4092) := by
        rw [hq, u32_append hpl (crc32c_lt p), List.take_left' hpl]
      have e1 : u32 q 0 = 0x52494453 ∧ u16 q 4 = 1 := by
        rw [hq, hp, hm]
        simp [u32, u16, u8, bytesLE, List.range_succ]
      simp [dirOk, e0, e1]
    have g' : dirOk norBlank = false := by decide +kernel
    simp [State.dirBest, dirPage, h0, h1, g, g']
  rw [← hp, ← hq]
  simp only [State.dir, hb, dirPage]
  exact h0

/-- A byte of what lies over a string of zeros. -/
theorem u8_overlay_zeros {n o k : Nat} {c : Bytes} (ho : o + c.length ≤ n) :
    u8 (overlay (List.replicate n 0) o c) k = if o ≤ k then u8 c (k - o) else 0 := by
  unfold overlay u8
  rw [List.getD_eq_getElem?_getD, List.getD_eq_getElem?_getD]
  have hl : c.take (n - o) = c := List.take_of_length_le (by omega)
  simp only [List.length_replicate, hl, List.take_replicate, List.drop_replicate, Nat.min_eq_left (show o ≤ n by omega)]
  by_cases h : o ≤ k
  · by_cases g : k - o < c.length
    · rw [List.append_assoc, List.getElem?_append_right (by simpa using h), List.length_replicate, List.getElem?_append_left g, if_pos h]
    · rw [List.getElem?_append_right (by simp; omega), if_pos h, List.getElem?_eq_none (l := c) (by omega)]
      simp [List.getElem?_replicate]
      split <;> rfl
  · rw [List.append_assoc, List.getElem?_append_left (by simpa using h), if_neg h]
    simp [show k < o by omega]

/-- Slot states after one of them is set in a directory that was empty. -/
theorem State.slotSt_slotSet {s : State} {i j st tries : Nat} (h : s.dirBest = none) (hi : i < 2) (hj : j < 2) :
    (s.slotSet i st tries).slotSt j = if j = i then st % 256 else 0 := by
  have hz : s.dir = List.replicate 4096 0 := by simp only [State.dir, h]
  have hf : (overlay s.dir (16 + 48 * i) [st, tries]).length = 4096 := by
    rw [hz]
    simp only [overlay, List.length_append, List.length_take, List.length_drop, List.length_replicate, List.length_cons, List.length_nil]
    omega
  obtain ⟨m, hm, hd⟩ := s.dir_dirWrite (f := fun b => overlay b (16 + 48 * i) [st, tries]) h hf
  have key (k : Nat) (hk : k < 4076) : u8 (s.slotSet i st tries).dir (16 + k) = u8 (overlay s.dir (16 + 48 * i) [st, tries]) (16 + k) := by
    unfold State.slotSet
    have e := u8_append m (slice (overlay s.dir (16 + 48 * i) [st, tries]) 16 4076 ++
      bytesLE 4 (crc32c (m ++ slice (overlay s.dir (16 + 48 * i) [st, tries]) 16 4076))) k
    rw [hm] at e
    rw [hd, List.append_assoc, e]
    unfold u8 slice
    rw [List.getD_eq_getElem?_getD, List.getD_eq_getElem?_getD, List.getElem?_append_left (by simp [hf]; omega), List.getElem?_take, if_pos hk,
      List.getElem?_drop]
  unfold State.slotSt
  rw [key _ (by omega), hz, u8_overlay_zeros (by simp; omega)]
  have c : i = 0 ∨ i = 1 := by omega
  have d : j = 0 ∨ j = 1 := by omega
  rcases c with rfl | rfl <;> rcases d with rfl | rfl <;> simp [u8]

/-- The slot that is set is the one in that state. -/
theorem State.slotIn_slotSet {s : State} {i st tries : Nat} (h : s.dirBest = none) (hi : i < 2) (h0 : 0 < st) (h1 : st < 256) :
    (s.slotSet i st tries).slotIn st = some i := by
  have a := s.slotSt_slotSet (j := 0) (st := st) (tries := tries) h hi (by decide)
  have b := s.slotSt_slotSet (j := 1) (st := st) (tries := tries) h hi (by decide)
  rw [Nat.mod_eq_of_lt h1] at a b
  unfold State.slotIn
  rw [List.find?_cons, List.find?_cons, a, b]
  have c : i = 0 ∨ i = 1 := by omega
  have n : ¬ 0 = st := by omega
  rcases c with rfl | rfl <;> simp [n]

end Sys2Proof.Machine
end

