-- ==== Sys2Proof/Laws/KBus.lean ====
section
/-! SUPPORT. Sys2Proof/Laws/KBus.lean: what each operation of Machine/Bus.lean touches and keeps. -/

set_option Elab.async false

namespace Sys2Proof.Machine.Keeps

set_option linter.unusedTactic false
set_option linter.unreachableTactic false

variable {L0 : List Part} {s0 : State}

theorem fwRefuse {s : State} {init region addr : Nat} {mem : Bool} (h : Keeps L0 s0 s) (hL : Part.sub [.smp, .win 0, .win 4] L0 = true := by decide) :
    Keeps L0 s0 (State.fwRefuse s init region mem addr) := by
  refine h.trans ?_ hL
  unfold State.fwRefuse
  repeat' with_reducible (first | apply refl | assumption | apply bump | apply report | apply wrN | dsimp only | decide)

theorem fwReg {s : State} {init off : Nat} (h : Keeps L0 s0 s) (hL : Part.sub [.smp, .win 0, .win 4] L0 = true := by decide) :
    Keeps L0 s0 (State.fwReg s init off) := by
  refine h.trans ?_ hL
  unfold State.fwReg
  repeat' with_reducible (first | apply refl | assumption | apply fwRefuse | dsimp only | decide)

theorem badReg {s : State} {init off : Nat} {write : Bool} (h : Keeps L0 s0 s) (hL : Part.sub [.win 0] L0 = true := by decide) :
    Keeps L0 s0 (State.badReg s init write off) := by
  refine h.trans ?_ hL
  unfold State.badReg
  repeat' with_reducible (first | apply refl | assumption | apply bump | apply wrN | dsimp only | decide)

theorem onBlock {L : List Part} {s : State} {there : Bool} {off : Nat} {f : Host.Outcome State Fault Refusal} (hf : OutKeeps L s f)
    (hL : Part.sub [.draws, .win 0] L = true := by decide) : OutKeeps L s (State.onBlock s there off f) := by
  unfold State.onBlock
  split
  · exact hf
  · exact OutKeeps.ok (badReg (draw (refl _ _) (Part.sub_mem hL (by decide))) (Part.sub_trans (by decide) hL))

theorem onPort {L : List Part} {s : State} {n off : Nat} {f : Host.Outcome State Fault Refusal} (hf : OutKeeps L s f)
    (hL : Part.sub [.draws, .win 0] L = true := by decide) : OutKeeps L s (State.onPort s n off f) := onBlock hf hL

theorem onMender {L : List Part} {s : State} {off : Nat} {f : Host.Outcome State Fault Refusal} (hf : OutKeeps L s f)
    (hL : Part.sub [.draws, .win 0] L = true := by decide) : OutKeeps L s (State.onMender s off f) := onBlock hf hL

theorem onTot {L : List Part} {s : State} {off : Nat} {f : Host.Outcome State Fault Refusal} (hf : OutKeeps L s f)
    (hL : Part.sub [.draws, .win 0] L = true := by decide) : OutKeeps L s (State.onTot s off f) := onBlock hf hL

end Sys2Proof.Machine.Keeps
end

