-- ==== Sys2Proof/Laws/KBobbin.lean ====
section
/-! SUPPORT. Sys2Proof/Laws/KBobbin.lean: what each operation of Machine/Bobbin.lean touches and keeps. -/

set_option Elab.async false

namespace Sys2Proof.Machine.Keeps

set_option linter.unusedTactic false
set_option linter.unreachableTactic false

variable {L0 : List Part} {s0 : State}

theorem ptrFault {s : State} {n : Nat} {tx : Bool} (h : Keeps L0 s0 s) (hL : Part.sub [.dram, .fab, .ports, .ink, .time, .intr, .ao, .smp, .ladder, .out, .win 0, .win 4, .win 6, .win 11, .win 16] L0 = true := by decide) :
    Keeps L0 s0 (State.ptrFault s n tx) := by
  refine h.trans ?_ hL
  unfold State.ptrFault
  repeat' with_reducible (first | apply refl | assumption | apply neverRetried | apply portMod | apply raiseF | apply report | apply rxClear | apply txClear | apply txCut | refine when' ?_ _ (fun _ _ => ?_) | dsimp only | split | refine fst (by assumption) ?_ | refine snd (by assumption) ?_ | (apply Part.win_port <;> decide) | decide)

theorem ptrCheck {s : State} {n : Nat} {tx : Bool} (h : Keeps L0 s0 s) (hL : Part.sub [.dram, .fab, .ports, .ink, .time, .intr, .ao, .smp, .ladder, .out, .win 0, .win 4, .win 6, .win 11, .win 16] L0 = true := by decide) :
    Keeps L0 s0 (State.ptrCheck s n tx) := by
  refine h.trans ?_ hL
  unfold State.ptrCheck
  repeat' with_reducible (first | apply refl | assumption | apply ptrFault | dsimp only | split | decide)

theorem txEnd {s : State} {n id code : Nat} (h : Keeps L0 s0 s) (hL : Part.sub [.dram, .fab, .ports, .ink, .time, .intr, .ao, .smp, .ladder, .out, .win 0, .win 4, .win 6, .win 11, .win 16] L0 = true := by decide) :
    Keeps L0 s0 (State.txEnd s n id code) := by
  refine h.trans ?_ hL
  unfold State.txEnd
  repeat' with_reducible (first | apply refl | assumption | apply ptrCheck | apply txDone | dsimp only | decide)

theorem rxPush {s : State} {n : Nat} {b : Bytes} (h : Keeps L0 s0 s) (hL : Part.sub [.dram, .fab, .ports, .ink, .time, .intr, .ao, .smp, .ladder, .out, .win 0, .win 4, .win 6, .win 11, .win 16] L0 = true := by decide) :
    Keeps L0 s0 (State.rxPush s n b) := by
  refine h.trans ?_ hL
  unfold State.rxPush
  repeat' with_reducible (first | apply refl | assumption | apply ptrCheck | apply rxEnter | dsimp only | split | decide)

theorem loopRun {s : State} {n k : Nat} (h : Keeps L0 s0 s) (hL : Part.sub [.dram, .fab, .ports, .ink, .time, .intr, .ao, .smp, .ladder, .out, .win 0, .win 4, .win 6, .win 11, .win 16] L0 = true := by decide) :
    Keeps L0 s0 (State.loopRun s n k) := by
  refine h.trans ?_ hL
  clear h hL
  fun_induction State.loopRun s n k <;>
  repeat' with_reducible (first | apply refl | assumption | refine trans ?_ (by assumption) (by decide) | apply rxPush | apply txEnd | dsimp only | split | refine fst (by assumption) ?_ | refine snd (by assumption) ?_ | decide)

theorem txPush {s : State} {n : Nat} {b : Bytes} {desc : Option Nat} (h : Keeps L0 s0 s) (hL : Part.sub [.dram, .fab, .ports, .ink, .time, .intr, .ao, .smp, .ladder, .out, .win 0, .win 4, .win 6, .win 11, .win 16] L0 = true := by decide) :
    Keeps L0 s0 (State.txPush s n b desc) := by
  refine h.trans ?_ hL
  unfold State.txPush
  repeat' with_reducible (first | apply refl | assumption | apply loopRun | apply ptrCheck | apply txEnter | dsimp only | decide)

theorem execPortBobRxRead {s : State} {n : Nat} : OutKeeps [.dram, .fab, .ports, .ink, .time, .intr, .ao, .smp, .ladder, .busData, .out, .win 0, .win 4, .win 6, .win 11, .win 16] s (execPortBobRxRead n s) := by
  unfold Sys2Proof.Machine.execPortBobRxRead
  repeat' with_reducible (first | refine OutKeeps.ok ?_ | apply refl | assumption | apply answer | apply creditFreed | apply portMod | apply ptrCheck | apply raiseF | apply setF | apply ok | apply step | dsimp only | split | refine fst (by assumption) ?_ | refine snd (by assumption) ?_ | (apply Part.win_port <;> decide) | decide)

theorem txWordEnd {s : State} {n : Nat} (h : Keeps L0 s0 s) (hL : Part.sub [.dram, .fab, .ports, .ink, .time, .intr, .ao, .smp, .ladder, .out, .win 0, .win 4, .win 6, .win 11, .win 16] L0 = true := by decide) :
    Keeps L0 s0 (State.txWordEnd s n) := by
  refine h.trans ?_ hL
  unfold State.txWordEnd
  repeat' with_reducible (first | apply refl | assumption | apply portMod | apply txPush | apply txUndo | dsimp only | split | decide)

theorem execPortBobTxWrite {s : State} {n v : Nat} : OutKeeps [.dram, .fab, .ports, .ink, .time, .intr, .ao, .smp, .ladder, .out, .draws, .win 0, .win 4, .win 6, .win 11, .win 16] s (execPortBobTxWrite n v s) := by
  unfold Sys2Proof.Machine.execPortBobTxWrite
  repeat' with_reducible (first | refine OutKeeps.ok ?_ | apply refl | assumption | apply onPort | apply portMod | apply ptrCheck | apply raiseF | apply setF | apply txWordEnd | apply txWords | apply ok | dsimp only | split | (apply Part.win_port <;> decide) | decide)

theorem setCasState {s : State} {n v : Nat} (h : Keeps L0 s0 s) (hL : Part.sub [.win 16] L0 = true := by decide) :
    Keeps L0 s0 (State.setCasState s n v) := by
  refine h.trans ?_ hL
  unfold State.setCasState
  repeat' with_reducible (first | apply refl | assumption | apply setF | dsimp only | (apply Part.win_port <;> decide) | decide)

theorem casDown {s : State} {n : Nat} (h : Keeps L0 s0 s) (hL : Part.sub [.ports, .smp, .out, .win 4, .win 16] L0 = true := by decide) :
    Keeps L0 s0 (State.casDown s n) := by
  refine h.trans ?_ hL
  unfold State.casDown
  repeat' with_reducible (first | apply refl | assumption | apply bump | apply casPut | apply raiseF | apply report | apply setCasState | apply setF | refine when' ?_ _ (fun _ _ => ?_) | dsimp only | split | (apply Part.win_port <;> decide) | decide)

theorem portUp {s : State} {n : Nat} (h : Keeps L0 s0 s) (hL : Part.sub [.dram, .fab, .ports, .ink, .time, .intr, .ao, .smp, .ladder, .out, .win 0, .win 4, .win 6, .win 11, .win 16] L0 = true := by decide) :
    Keeps L0 s0 (State.portUp s n) := by
  refine h.trans ?_ hL
  unfold State.portUp
  repeat' with_reducible (first | apply refl | assumption | apply airTake | apply alignBurst | apply casPut | apply loopRun | apply portMod | apply setCasState | apply setF | refine when' ?_ _ (fun _ _ => ?_) | dsimp only | split | refine fst (by assumption) ?_ | refine snd (by assumption) ?_ | (apply Part.win_port <;> decide) | decide)

theorem portDown {s : State} {n : Nat} (h : Keeps L0 s0 s) (hL : Part.sub [.ports, .smp, .out, .win 4, .win 16] L0 = true := by decide) :
    Keeps L0 s0 (State.portDown s n) := by
  refine h.trans ?_ hL
  unfold State.portDown
  repeat' with_reducible (first | apply refl | assumption | apply casDown | apply portMod | apply setF | apply txCut | dsimp only | split | (apply Part.win_port <;> decide) | decide)

theorem execPortEnable {s : State} {n : Nat} : OutKeeps [.dram, .fab, .ports, .ink, .time, .intr, .ao, .smp, .ladder, .out, .draws, .win 0, .win 4, .win 6, .win 11, .win 16] s (execPortEnable n s) := by
  unfold Sys2Proof.Machine.execPortEnable
  repeat' with_reducible (first | refine OutKeeps.ok ?_ | apply refl | assumption | apply onPort | apply portUp | apply raiseF | apply shade | apply ok | dsimp only | split | (apply Part.win_port <;> decide) | decide)

theorem execPortDisable {s : State} {n : Nat} : OutKeeps [.fab, .ports, .smp, .out, .draws, .win 0, .win 4, .win 16] s (execPortDisable n s) := by
  unfold Sys2Proof.Machine.execPortDisable
  repeat' with_reducible (first | refine OutKeeps.ok ?_ | apply refl | assumption | apply onPort | apply portDown | apply setF | apply shade | apply ok | dsimp only | split | (apply Part.win_port <;> decide) | decide)

theorem execPortRxReset {s : State} {n : Nat} : OutKeeps [.ports, .draws, .win 0, .win 16] s (execPortRxReset n s) := by
  unfold Sys2Proof.Machine.execPortRxReset
  repeat' with_reducible (first | refine OutKeeps.ok ?_ | apply refl | assumption | refine each' ?_ _ (fun _ _ _ => ?_) | apply onPort | apply rxClear | apply rxDrop | apply ok | dsimp only | (apply Part.win_port <;> decide) | decide)

theorem execPortTxReset {s : State} {n : Nat} : OutKeeps [.dram, .fab, .ports, .ink, .time, .intr, .ao, .ladder, .out, .draws, .win 0, .win 6, .win 11, .win 16] s (execPortTxReset n s) := by
  unfold Sys2Proof.Machine.execPortTxReset
  repeat' with_reducible (first | refine OutKeeps.ok ?_ | apply refl | assumption | apply onPort | apply txClear | apply ok | dsimp only | (apply Part.win_port <;> decide) | decide)

theorem sinkOff {s : State} {n : Nat} (h : Keeps L0 s0 s) (hL : Part.sub [.dram, .fab, .ports, .ink, .time, .intr, .ao, .smp, .ladder, .out, .win 0, .win 4, .win 6, .win 11, .win 16] L0 = true := by decide) :
    Keeps L0 s0 (State.sinkOff s n) := by
  refine h.trans ?_ hL
  unfold State.sinkOff
  repeat' with_reducible (first | apply refl | assumption | apply bumpF | apply ptrCheck | apply rxPop | dsimp only | split | refine fst (by assumption) ?_ | refine snd (by assumption) ?_ | (apply Part.win_port <;> decide) | decide)

theorem execPortRxSinkOff {s : State} {n : Nat} : OutKeeps [.dram, .fab, .ports, .ink, .time, .intr, .ao, .smp, .ladder, .out, .draws, .win 0, .win 4, .win 6, .win 11, .win 16] s (execPortRxSinkOff n s) := by
  unfold Sys2Proof.Machine.execPortRxSinkOff
  repeat' with_reducible (first | refine OutKeeps.ok ?_ | apply refl | assumption | apply onPort | apply setF | apply shade | apply sinkOff | apply ok | dsimp only | (apply Part.win_port <;> decide) | decide)

theorem consNext {s : State} {n : Nat} (h : Keeps L0 s0 s) (hL : Part.sub [.win 16] L0 = true := by decide) :
    Keeps L0 s0 (State.consNext s n) := by
  refine h.trans ?_ hL
  unfold State.consNext
  repeat' with_reducible (first | apply refl | assumption | apply setF | dsimp only | (apply Part.win_port <;> decide) | decide)

theorem descStop {s : State} {n : Nat} (h : Keeps L0 s0 s) (hL : Part.sub [.win 16] L0 = true := by decide) :
    Keeps L0 s0 (State.descStop s n) := by
  refine h.trans ?_ hL
  unfold State.descStop
  repeat' with_reducible (first | apply refl | assumption | apply raiseF | apply setF | dsimp only | (apply Part.win_port <;> decide) | decide)

theorem execDescFetch {s : State} {n errs : Nat} : OutKeeps [.dram, .ports, .win 16] s (execDescFetch n errs s) := by
  unfold Sys2Proof.Machine.execDescFetch
  repeat' with_reducible (first | refine OutKeeps.ok ?_ | apply refl | assumption | apply consNext | apply descDone | apply descStop | apply portMod | apply ok | dsimp only | split | (apply Part.win_port <;> decide) | decide)

theorem execDescCopy {s : State} {n : Nat} {err : Bool} : OutKeeps [.dram, .fab, .ports, .ink, .time, .intr, .ao, .smp, .ladder, .out, .win 0, .win 4, .win 6, .win 11, .win 16] s (execDescCopy n err s) := by
  unfold Sys2Proof.Machine.execDescCopy
  repeat' with_reducible (first | refine OutKeeps.ok ?_ | apply refl | assumption | apply consNext | apply descDone | apply portMod | apply txPush | apply ok | dsimp only | split | refine fst (by assumption) ?_ | refine snd (by assumption) ?_ | decide)

theorem execDescComplete {s : State} {n i code : Nat} : OutKeeps [.dram, .fab, .ports, .ink, .time, .intr, .ao, .smp, .ladder, .out, .win 0, .win 4, .win 6, .win 11, .win 16] s (execDescComplete n i code s) := by
  unfold Sys2Proof.Machine.execDescComplete
  repeat' with_reducible (first | refine OutKeeps.ok ?_ | apply refl | assumption | apply txEnd | apply ok | dsimp only | split | refine fst (by assumption) ?_ | refine snd (by assumption) ?_ | decide)

end Sys2Proof.Machine.Keeps
end

