-- ==== Sys2Proof/Laws/KCascade.lean ====
section
/-! SUPPORT. Sys2Proof/Laws/KCascade.lean: what each operation of Machine/Cascade.lean touches and keeps. -/

set_option Elab.async false

namespace Sys2Proof.Machine.Keeps

set_option linter.unusedTactic false
set_option linter.unreachableTactic false

variable {L0 : List Part} {s0 : State}

theorem casEmit {s : State} {n : Nat} {f : Bytes} (h : Keeps L0 s0 s) (hL : Part.sub [.ports, .out, .win 16] L0 = true := by decide) :
    Keeps L0 s0 (State.casEmit s n f) := by
  refine h.trans ?_ hL
  unfold State.casEmit
  repeat' with_reducible (first | apply refl | assumption | apply bump | apply casFlush | apply casMod | apply casRun | dsimp only | (apply Part.win_port <;> decide) | decide)

theorem casHello {s : State} {n : Nat} (h : Keeps L0 s0 s) (hL : Part.sub [.ports, .out, .win 16] L0 = true := by decide) :
    Keeps L0 s0 (State.casHello s n) := by
  refine h.trans ?_ hL
  unfold State.casHello
  repeat' with_reducible (first | apply refl | assumption | apply casEmit | dsimp only | (apply Part.win_port <;> decide) | decide)

theorem casCreditOut {s : State} {n : Nat} (h : Keeps L0 s0 s) (hL : Part.sub [.ports, .out] L0 = true := by decide) :
    Keeps L0 s0 (State.casCreditOut s n) := by
  refine h.trans ?_ hL
  unfold State.casCreditOut
  repeat' with_reducible (first | apply refl | assumption | apply casMod | apply casPut | apply casRun | dsimp only | decide)

theorem casStart {s : State} {n : Nat} {k : TxPkt} {resend : Bool} (h : Keeps L0 s0 s) (hL : Part.sub [.ports, .out, .win 16] L0 = true := by decide) :
    Keeps L0 s0 (State.casStart s n k resend) := by
  refine h.trans ?_ hL
  unfold State.casStart
  repeat' with_reducible (first | apply refl | assumption | apply bump | apply casEmit | apply casMod | apply txMod | refine when' ?_ _ (fun _ _ => ?_) | dsimp only | split | (apply Part.win_port <;> decide) | decide)

theorem casResendAll {s : State} {n : Nat} (h : Keeps L0 s0 s) (hL : Part.sub [.ports, .out, .win 16] L0 = true := by decide) :
    Keeps L0 s0 (State.casResendAll s n) := by
  refine h.trans ?_ hL
  unfold State.casResendAll
  repeat' with_reducible (first | apply refl | assumption | apply casStart | refine each' ?_ _ (fun _ _ _ => ?_) | dsimp only | decide)

theorem casHelloIn {s : State} {n dev : Nat} (h : Keeps L0 s0 s) (hL : Part.sub [.ports, .out, .win 16] L0 = true := by decide) :
    Keeps L0 s0 (State.casHelloIn s n dev) := by
  refine h.trans ?_ hL
  unfold State.casHelloIn
  repeat' with_reducible (first | apply refl | assumption | apply casCreditOut | apply casHello | apply casMod | apply casResendAll | apply raiseF | apply setCasState | apply setF | dsimp only | split | (apply Part.win_port <;> decide) | decide)

theorem execCasCommaAlign {s : State} {n : Nat} : OutKeeps [.win 16] s (execCasCommaAlign n s) := by
  unfold Sys2Proof.Machine.execCasCommaAlign
  repeat' with_reducible (first | refine OutKeeps.ok ?_ | apply refl | assumption | apply setCasState | apply ok | dsimp only | split | decide)

theorem execCasHelloTimer {s : State} {n : Nat} : OutKeeps [.ports, .out, .win 16] s (execCasHelloTimer n s) := by
  unfold Sys2Proof.Machine.execCasHelloTimer
  repeat' with_reducible (first | refine OutKeeps.ok ?_ | apply refl | assumption | apply casHello | apply ok | dsimp only | split | decide)

theorem execCasLinkDown {s : State} {n viol : Nat} {down : Bool} : OutKeeps [.ports, .smp, .out, .win 4, .win 16] s (execCasLinkDown n viol down s) := by
  unfold Sys2Proof.Machine.execCasLinkDown
  repeat' with_reducible (first | refine OutKeeps.ok ?_ | apply refl | assumption | apply casDown | apply casViolAdd | refine when' ?_ _ (fun _ _ => ?_) | apply ok | dsimp only | split | decide)

theorem casResultIn {s : State} {n cseq res : Nat} (h : Keeps L0 s0 s) (hL : Part.sub [.dram, .fab, .ports, .ink, .time, .intr, .ao, .smp, .ladder, .out, .win 0, .win 4, .win 6, .win 11, .win 16] L0 = true := by decide) :
    Keeps L0 s0 (State.casResultIn s n cseq res) := by
  refine h.trans ?_ hL
  unfold State.casResultIn
  repeat' with_reducible (first | apply refl | assumption | apply bump | apply casStart | apply txEnd | dsimp only | split | refine fst (by assumption) ?_ | refine snd (by assumption) ?_ | (apply Part.win_port <;> decide) | decide)

theorem casTake {s : State} {n : Nat} {b : Bytes} (h : Keeps L0 s0 s) (hL : Part.sub [.dram, .fab, .ports, .ink, .time, .intr, .ao, .smp, .ladder, .out, .win 0, .win 4, .win 6, .win 11, .win 16] L0 = true := by decide) :
    Keeps L0 s0 (State.casTake s n b) := by
  refine h.trans ?_ hL
  unfold State.casTake
  repeat' with_reducible (first | apply refl | assumption | apply bump | apply casHelloIn | apply casResult | apply casResultIn | refine each' ?_ _ (fun _ _ _ => ?_) | apply ptrCheck | apply rxDrop | apply rxPush | dsimp only | split | refine fst (by assumption) ?_ | refine snd (by assumption) ?_ | (apply Part.win_port <;> decide) | decide)

theorem casCreditIn {s : State} {n lo hi crc : Nat} (h : Keeps L0 s0 s) (hL : Part.sub [.ports] L0 = true := by decide) :
    Keeps L0 s0 (State.casCreditIn s n lo hi crc) := by
  refine h.trans ?_ hL
  unfold State.casCreditIn
  repeat' with_reducible (first | apply refl | assumption | apply casMod | dsimp only | split | decide)

theorem casJudge {s : State} {n : Nat} {x : CasIn} (h : Keeps L0 s0 s) (hL : Part.sub [.dram, .fab, .ports, .ink, .time, .intr, .ao, .smp, .ladder, .out, .win 0, .win 4, .win 6, .win 11, .win 16] L0 = true := by decide) :
    Keeps L0 s0 (State.casJudge s n x) := by
  refine h.trans ?_ hL
  unfold State.casJudge
  repeat' with_reducible (first | apply refl | assumption | apply bump | apply casTake | apply casViolAdd | dsimp only | split | (apply Part.win_port <;> decide) | decide)

theorem casFrameIn {s : State} {n : Nat} {codes : List Nat} (h : Keeps L0 s0 s) (hL : Part.sub [.dram, .fab, .ports, .ink, .time, .intr, .ao, .smp, .ladder, .out, .win 0, .win 4, .win 6, .win 11, .win 16] L0 = true := by decide) :
    Keeps L0 s0 (State.casFrameIn s n codes) := by
  refine h.trans ?_ hL
  unfold State.casFrameIn
  repeat' with_reducible (first | apply refl | assumption | apply casCreditIn | apply casJudge | refine each' ?_ _ (fun _ _ _ => ?_) | apply rxDrain | dsimp only | split | decide)

theorem execCasFrameReceive {s : State} {n sof stop : Nat} {codes : List Nat} : OutKeeps [.dram, .fab, .ports, .ink, .time, .intr, .ao, .smp, .ladder, .out, .win 0, .win 4, .win 6, .win 11, .win 16] s (execCasFrameReceive n sof codes stop s) := by
  unfold Sys2Proof.Machine.execCasFrameReceive
  repeat' with_reducible (first | refine OutKeeps.ok ?_ | apply refl | assumption | apply casFrameIn | apply ok | dsimp only | decide)

theorem execCasHelloReceive {s : State} {n : Nat} {codes : List Nat} : OutKeeps [.dram, .fab, .ports, .ink, .time, .intr, .ao, .smp, .ladder, .out, .win 0, .win 4, .win 6, .win 11, .win 16] s (execCasHelloReceive n codes s) := by
  unfold Sys2Proof.Machine.execCasHelloReceive
  repeat' with_reducible (first | refine OutKeeps.ok ?_ | apply refl | assumption | apply casFrameIn | apply ok | dsimp only | split | decide)

theorem execCasCreditReceive {s : State} {n lo hi crc : Nat} : OutKeeps [.ports] s (execCasCreditReceive n lo hi crc s) := by
  unfold Sys2Proof.Machine.execCasCreditReceive
  repeat' with_reducible (first | refine OutKeeps.ok ?_ | apply refl | assumption | apply casCreditIn | apply ok | dsimp only | split | decide)

theorem execCasCreditSend {s : State} {n : Nat} : OutKeeps [.ports, .out] s (execCasCreditSend n s) := by
  unfold Sys2Proof.Machine.execCasCreditSend
  repeat' with_reducible (first | refine OutKeeps.ok ?_ | apply refl | assumption | apply casCreditOut | apply ok | dsimp only | split | decide)

theorem casResultOut {s : State} {n : Nat} (h : Keeps L0 s0 s) (hL : Part.sub [.ports, .out, .win 16] L0 = true := by decide) :
    Keeps L0 s0 (State.casResultOut s n) := by
  refine h.trans ?_ hL
  unfold State.casResultOut
  repeat' with_reducible (first | apply refl | assumption | apply casEmit | apply casMod | dsimp only | split | (apply Part.win_port <;> decide) | decide)

theorem execCasFrameSend {s : State} {n : Nat} : OutKeeps [.dram, .fab, .ports, .ink, .time, .intr, .ao, .smp, .ladder, .out, .win 0, .win 4, .win 6, .win 11, .win 16] s (execCasFrameSend n s) := by
  unfold Sys2Proof.Machine.execCasFrameSend
  repeat' with_reducible (first | refine OutKeeps.ok ?_ | apply refl | assumption | apply casResultOut | apply casStart | apply ptrCheck | apply txEnd | apply ok | dsimp only | split | refine fst (by assumption) ?_ | refine snd (by assumption) ?_ | decide)

theorem execCasCommitTimeout {s : State} {n cseq : Nat} : OutKeeps [.dram, .fab, .ports, .ink, .time, .intr, .ao, .smp, .ladder, .out, .win 0, .win 4, .win 6, .win 11, .win 16] s (execCasCommitTimeout n cseq s) := by
  unfold Sys2Proof.Machine.execCasCommitTimeout
  repeat' with_reducible (first | refine OutKeeps.ok ?_ | apply refl | assumption | apply casStart | apply txEnd | apply txMod | apply ok | dsimp only | split | refine fst (by assumption) ?_ | refine snd (by assumption) ?_ | (apply Part.win_port <;> decide) | decide)

theorem execCasResultSend {s : State} {n : Nat} : OutKeeps [.ports, .out, .win 16] s (execCasResultSend n s) := by
  unfold Sys2Proof.Machine.execCasResultSend
  repeat' with_reducible (first | refine OutKeeps.ok ?_ | apply refl | assumption | apply casResultOut | apply ok | dsimp only | decide)

end Sys2Proof.Machine.Keeps
end

