-- ==== Sys2Proof/Laws/KLineMac.lean ====
section
/-! SUPPORT. Sys2Proof/Laws/KLineMac.lean: what each operation of Machine/LineMac.lean touches and keeps. -/

set_option Elab.async false

namespace Sys2Proof.Machine.Keeps

set_option linter.unusedTactic false
set_option linter.unreachableTactic false

variable {L0 : List Part} {s0 : State}

theorem lnMod {s : State} {n : Nat} {f : LineState → LineState} (h : Keeps L0 s0 s) (hL : Part.sub [.ports] L0 = true := by decide) :
    Keeps L0 s0 (State.lnMod s n f) := by
  refine h.trans ?_ hL
  unfold State.lnMod
  repeat' with_reducible (first | apply refl | assumption | apply portMod | dsimp only | decide)

theorem ltMod {s : State} {n a : Nat} {f : Bool → Bytes → Bytes} (h : Keeps L0 s0 s) (hL : Part.sub [.dram] L0 = true := by decide) :
    Keeps L0 s0 (State.ltMod s n a f) := by
  refine h.trans ?_ hL
  unfold State.ltMod
  repeat' with_reducible (first | apply refl | assumption | apply wrMem | dsimp only | split | refine fst (by assumption) ?_ | refine snd (by assumption) ?_ | decide)

theorem ltHeard {s : State} {n a mean low : Nat} {info : Bytes → Bytes} (h : Keeps L0 s0 s) (hL : Part.sub [.dram] L0 = true := by decide) :
    Keeps L0 s0 (State.ltHeard s n a mean low info) := by
  refine h.trans ?_ hL
  unfold State.ltHeard
  repeat' with_reducible (first | apply refl | assumption | apply ltMod | dsimp only | split | decide)

theorem ltTried {s : State} {n a : Nat} {good : Bool} (h : Keeps L0 s0 s) (hL : Part.sub [.dram] L0 = true := by decide) :
    Keeps L0 s0 (State.ltTried s n a good) := by
  refine h.trans ?_ hL
  unfold State.ltTried
  repeat' with_reducible (first | apply refl | assumption | apply ltMod | dsimp only | split | decide)

theorem ltSent {s : State} {n a : Nat} (h : Keeps L0 s0 s) (hL : Part.sub [.dram] L0 = true := by decide) :
    Keeps L0 s0 (State.ltSent s n a) := by
  refine h.trans ?_ hL
  unfold State.ltSent
  repeat' with_reducible (first | apply refl | assumption | apply ltMod | dsimp only | split | decide)

theorem lnSend {s : State} {n : Nat} {x : LineHdr × Option Nat} {psdu : Bytes} {tx : LineTx} (h : Keeps L0 s0 s) (hL : Part.sub [.ports, .win 16] L0 = true := by decide) :
    Keeps L0 s0 (State.lnSend s n x psdu tx) := by
  refine h.trans ?_ hL
  unfold State.lnSend
  repeat' with_reducible (first | apply refl | assumption | apply bump | apply lnMod | apply txOn | dsimp only | (apply Part.win_port <;> decide) | decide)

theorem floodNote {s : State} {n origin fseq evict : Nat} (h : Keeps L0 s0 s) (he : window evict = 16)
    (hL : Part.sub [.ports, .win 16] L0 = true := by decide) : Keeps L0 s0 (State.floodNote s n origin fseq evict) := by
  refine h.trans ?_ hL
  unfold State.floodNote
  refine when' (portMod (refl _ _)) _ (fun _ g => bump g _ ?_)
  rw [he]
  decide

theorem floodCnt_window (s : State) (n : Nat) : window (s.floodCnt n).1 = 16 ∧ window (s.floodCnt n).2.1 = 16 ∧
    window (s.floodCnt n).2.2 = 16 := by
  unfold State.floodCnt window
  simp only [Reg.lnBase, Reg.airBase, Reg.PORT_LN_FLOOD_TX_CNT, Reg.PORT_LN_FLOOD_SEEN_CNT, Reg.PORT_LN_FLOOD_EVICT_CNT, Reg.PORT_AIR_FLOOD_TX_CNT,
    Reg.PORT_AIR_FLOOD_SEEN_CNT, Reg.PORT_AIR_FLOOD_EVICT_CNT]
  split <;> dsimp only <;> omega

theorem floodOut {s : State} {n : Nat} {body : Bytes} (h : Keeps L0 s0 s) (hL : Part.sub [.ports, .win 16] L0 = true := by decide) :
    Keeps L0 s0 (State.floodOut s n body).1 := by
  refine h.trans ?_ hL
  unfold State.floodOut
  dsimp only
  refine bump (floodNote (portMod (refl _ _)) (floodCnt_window s n).2.2) _ ?_
  rw [(floodCnt_window s n).1]
  decide

theorem lnBackoff {s : State} {j : LineJob} (h : Keeps L0 s0 s) (hL : Part.sub [.draws] L0 = true := by decide) :
    Keeps L0 s0 (State.lnBackoff s j).1 := by
  refine h.trans ?_ hL
  unfold State.lnBackoff
  repeat' with_reducible (first | apply refl | assumption | apply draw | dsimp only | decide)

theorem lnTake {s : State} {n : Nat} {k : TxPkt} (h : Keeps L0 s0 s) (hL : Part.sub [.dram, .fab, .ports, .ink, .time, .intr, .ao, .smp, .ladder, .out, .draws, .win 0, .win 4, .win 6, .win 11, .win 16] L0 = true := by decide) :
    Keeps L0 s0 (State.lnTake s n k) := by
  refine h.trans ?_ hL
  unfold State.lnTake
  repeat' with_reducible (first | apply refl | assumption | apply floodOut | apply lnBackoff | apply lnMod | apply portMod | apply txEnd | apply txMod | dsimp only | split | decide)

theorem execLineTxPacketTake {s : State} {n : Nat} : OutKeeps [.dram, .fab, .ports, .ink, .time, .intr, .ao, .smp, .ladder, .out, .draws, .win 0, .win 4, .win 6, .win 11, .win 16] s (execLineTxPacketTake n s) := by
  unfold Sys2Proof.Machine.execLineTxPacketTake
  repeat' with_reducible (first | refine OutKeeps.ok ?_ | apply refl | assumption | apply lnTake | apply ptrCheck | apply ok | dsimp only | split | refine fst (by assumption) ?_ | refine snd (by assumption) ?_ | decide)

theorem lnJob {s : State} {n : Nat} {j : LineJob} (h : Keeps L0 s0 s) (hL : Part.sub [.ports] L0 = true := by decide) :
    Keeps L0 s0 (State.lnJob s n j) := by
  refine h.trans ?_ hL
  unfold State.lnJob
  repeat' with_reducible (first | apply refl | assumption | apply lnMod | dsimp only | split | decide)

theorem lnDone {s : State} {n code : Nat} {j : LineJob} (h : Keeps L0 s0 s) (hL : Part.sub [.dram, .fab, .ports, .ink, .time, .intr, .ao, .smp, .ladder, .out, .win 0, .win 4, .win 6, .win 11, .win 16] L0 = true := by decide) :
    Keeps L0 s0 (State.lnDone s n j code) := by
  refine h.trans ?_ hL
  unfold State.lnDone
  repeat' with_reducible (first | apply refl | assumption | apply bump | apply lnMod | apply txEnd | refine when' ?_ _ (fun _ _ => ?_) | dsimp only | split | (apply Part.win_port <;> decide) | decide)

theorem lnStart {s : State} {n : Nat} {j : LineJob} (h : Keeps L0 s0 s) (hL : Part.sub [.dram, .fab, .ports, .ink, .time, .intr, .ao, .smp, .ladder, .out, .win 0, .win 4, .win 6, .win 11, .win 16] L0 = true := by decide) :
    Keeps L0 s0 (State.lnStart s n j) := by
  refine h.trans ?_ hL
  unfold State.lnStart
  repeat' with_reducible (first | apply refl | assumption | apply lnDone | apply lnSend | dsimp only | split | refine fst (by assumption) ?_ | refine snd (by assumption) ?_ | decide)

theorem lnSegDone {s : State} {n code : Nat} {j : LineJob} (h : Keeps L0 s0 s) (hL : Part.sub [.dram, .fab, .ports, .ink, .time, .intr, .ao, .smp, .ladder, .out, .draws, .win 0, .win 4, .win 6, .win 11, .win 16] L0 = true := by decide) :
    Keeps L0 s0 (State.lnSegDone s n j code) := by
  refine h.trans ?_ hL
  unfold State.lnSegDone
  repeat' with_reducible (first | apply refl | assumption | apply lnBackoff | apply lnDone | apply lnJob | dsimp only | split | decide)

theorem lnFail {s : State} {n : Nat} {j : LineJob} (h : Keeps L0 s0 s) (hL : Part.sub [.dram, .fab, .ports, .ink, .time, .intr, .ao, .smp, .ladder, .out, .draws, .win 0, .win 4, .win 6, .win 11, .win 16] L0 = true := by decide) :
    Keeps L0 s0 (State.lnFail s n j) := by
  refine h.trans ?_ hL
  unfold State.lnFail
  repeat' with_reducible (first | apply refl | assumption | apply lnBackoff | apply lnDone | apply lnJob | apply ltTried | dsimp only | split | (apply Part.win_port <;> decide) | decide)

theorem lnMissed {s : State} {n : Nat} (h : Keeps L0 s0 s) (hL : Part.sub [.dram, .fab, .ports, .ink, .time, .intr, .ao, .smp, .ladder, .out, .draws, .win 0, .win 4, .win 6, .win 11, .win 16] L0 = true := by decide) :
    Keeps L0 s0 (State.lnMissed s n) := by
  refine h.trans ?_ hL
  unfold State.lnMissed
  repeat' with_reducible (first | apply refl | assumption | apply bump | apply lnFail | apply lnMod | dsimp only | split | refine fst (by assumption) ?_ | refine snd (by assumption) ?_ | (apply Part.win_port <;> decide) | decide)

theorem lnDefer {s : State} {n : Nat} {but : Option Nat} (h : Keeps L0 s0 s) (hL : Part.sub [.ports, .win 16] L0 = true := by decide) :
    Keeps L0 s0 (State.lnDefer s n but) := by
  refine h.trans ?_ hL
  unfold State.lnDefer
  repeat' with_reducible (first | apply refl | assumption | apply bumpN | apply lnMod | refine when' ?_ _ (fun _ _ => ?_) | dsimp only | (apply Part.win_port <;> decide) | decide)

theorem execContentionSlot {s : State} {n : Nat} : OutKeeps [.dram, .fab, .ports, .ink, .time, .intr, .ao, .smp, .ladder, .out, .win 0, .win 4, .win 6, .win 11, .win 16] s (execContentionSlot n s) := by
  unfold Sys2Proof.Machine.execContentionSlot
  repeat' with_reducible (first | refine OutKeeps.ok ?_ | apply refl | assumption | apply lnDefer | apply lnMod | apply lnStart | apply ok | dsimp only | split | refine fst (by assumption) ?_ | refine snd (by assumption) ?_ | decide)

theorem lnFall {s : State} {n i : Nat} {x : LineTx} {xs : List Int} (h : Keeps L0 s0 s) (hL : Part.sub [.ports, .out, .win 16] L0 = true := by decide) :
    Keeps L0 s0 (State.lnFall s n x i xs) := by
  refine h.trans ?_ hL
  unfold State.lnFall
  repeat' with_reducible (first | apply refl | assumption | apply alignBurst | apply lnEmit | apply lnMod | apply txOff | dsimp only | decide)

theorem execLineTxEnd {s : State} {n first : Nat} : OutKeeps [.dram, .fab, .ports, .ink, .time, .intr, .ao, .smp, .ladder, .out, .draws, .win 0, .win 4, .win 6, .win 11, .win 16] s (execLineTxEnd n first s) := by
  unfold Sys2Proof.Machine.execLineTxEnd
  repeat' with_reducible (first | refine OutKeeps.ok ?_ | apply refl | assumption | apply lnFall | apply lnMod | apply lnSegDone | apply ltSent | apply ok | dsimp only | split | refine fst (by assumption) ?_ | refine snd (by assumption) ?_ | decide)

theorem execResponseWindowEnd {s : State} {n : Nat} : OutKeeps [.dram, .fab, .ports, .ink, .time, .intr, .ao, .smp, .ladder, .out, .draws, .win 0, .win 4, .win 6, .win 11, .win 16] s (execResponseWindowEnd n s) := by
  unfold Sys2Proof.Machine.execResponseWindowEnd
  repeat' with_reducible (first | refine OutKeeps.ok ?_ | apply refl | assumption | apply lnMissed | apply lnMod | apply ok | dsimp only | split | decide)

theorem lnLate {s : State} {n : Nat} {j : LineJob} (h : Keeps L0 s0 s) (hL : Part.sub [.ports, .win 16] L0 = true := by decide) :
    Keeps L0 s0 (State.lnLate s n j) := by
  refine h.trans ?_ hL
  unfold State.lnLate
  repeat' with_reducible (first | apply refl | assumption | apply bump | apply lnMod | apply raiseF | dsimp only | split | (apply Part.win_port <;> decide) | decide)

theorem execLineScheduledLaunch {s : State} {n : Nat} : OutKeeps [.dram, .fab, .ports, .ink, .time, .intr, .ao, .smp, .ladder, .out, .win 0, .win 4, .win 6, .win 11, .win 16] s (execLineScheduledLaunch n s) := by
  unfold Sys2Proof.Machine.execLineScheduledLaunch
  repeat' with_reducible (first | refine OutKeeps.ok ?_ | apply refl | assumption | apply lnDefer | apply lnLate | apply lnMod | apply lnStart | refine when' ?_ _ (fun _ _ => ?_) | apply ok | dsimp only | split | refine fst (by assumption) ?_ | refine snd (by assumption) ?_ | decide)

theorem reasmKeep {s : State} {n : Nat} {kept others : List ReasmSlot} {x : ReasmSlot} (h : Keeps L0 s0 s) (hL : Part.sub [.ports] L0 = true := by decide) :
    Keeps L0 s0 (State.reasmKeep s n kept others x).1 := by
  refine h.trans ?_ hL
  unfold State.reasmKeep
  repeat' with_reducible (first | apply refl | assumption | apply lnMod | dsimp only | split | decide)

theorem reasmPut {s : State} {n src seq idx last : Nat} {body : Bytes} (h : Keeps L0 s0 s) (hL : Part.sub [.ports, .win 16] L0 = true := by decide) :
    Keeps L0 s0 (State.reasmPut s n src seq idx last body).1 := by
  refine h.trans ?_ hL
  unfold State.reasmPut
  repeat' with_reducible (first | apply refl | assumption | apply bump | apply reasmKeep | dsimp only | split | refine fst (by assumption) ?_ | refine snd (by assumption) ?_ | (apply Part.win_port <;> decide) | decide)

theorem lnAsked {s : State} {n src : Nat} {title : Bytes} (h : Keeps L0 s0 s) (hL : Part.sub [.ports] L0 = true := by decide) :
    Keeps L0 s0 (State.lnAsked s n src title) := by
  refine h.trans ?_ hL
  unfold State.lnAsked
  repeat' with_reducible (first | apply refl | assumption | apply lnMod | dsimp only | decide)

theorem lnDeliver {s : State} {n status snr : Nat} {b : Bytes} (h : Keeps L0 s0 s) (hL : Part.sub [.dram, .fab, .ports, .ink, .time, .intr, .ao, .smp, .ladder, .out, .win 0, .win 4, .win 6, .win 11, .win 16] L0 = true := by decide) :
    Keeps L0 s0 (State.lnDeliver s n b status snr) := by
  refine h.trans ?_ hL
  unfold State.lnDeliver
  repeat' with_reducible (first | apply refl | assumption | apply bump | apply lnAsked | apply reasmPut | apply rxPush | refine when' ?_ _ (fun _ _ => ?_) | dsimp only | split | refine fst (by assumption) ?_ | refine snd (by assumption) ?_ | (apply Part.win_port <;> decide) | decide)

theorem lnFlood {s : State} {n : Nat} {body : Bytes} (h : Keeps L0 s0 s) (hL : Part.sub [.ports, .win 16] L0 = true := by decide) :
    Keeps L0 s0 (State.lnFlood s n body) := by
  refine h.trans ?_ hL
  unfold State.lnFlood
  dsimp only
  split
  · refine bump (refl _ _) _ ?_
    rw [(floodCnt_window s n).2.1]
    decide
  · exact floodNote (refl _ _) (floodCnt_window s n).2.2

theorem lnResponse {s : State} {n : Nat} {b : Bytes} (h : Keeps L0 s0 s) (hL : Part.sub [.dram, .fab, .ports, .ink, .time, .intr, .ao, .smp, .ladder, .out, .draws, .win 0, .win 4, .win 6, .win 11, .win 16] L0 = true := by decide) :
    Keeps L0 s0 (State.lnResponse s n b) := by
  refine h.trans ?_ hL
  unfold State.lnResponse
  repeat' with_reducible (first | apply refl | assumption | apply bump | apply lnFail | apply lnJob | apply lnMissed | apply lnMod | apply lnSegDone | apply ltMod | apply ltTried | refine when' ?_ _ (fun _ _ => ?_) | dsimp only | split | refine fst (by assumption) ?_ | refine snd (by assumption) ?_ | (apply Part.win_port <;> decide) | decide)

theorem lnAssign {s : State} {n a : Nat} {m : ToneMap} {snr : List (Nat × Int)} (h : Keeps L0 s0 s) (hL : Part.sub [.dram, .ports] L0 = true := by decide) :
    Keeps L0 s0 (State.lnAssign s n a m snr) := by
  refine h.trans ?_ hL
  unfold State.lnAssign
  repeat' with_reducible (first | apply refl | assumption | apply lnMod | apply ltMod | refine foldlFst ?_ _ (fun _ _ _ => ?_) | refine foldl' ?_ _ (fun _ _ _ => ?_) | dsimp only | split | refine fst (by assumption) ?_ | refine snd (by assumption) ?_ | decide)

theorem lnEstimate {s : State} {n a : Nat} {snr : List (Nat × Int)} (h : Keeps L0 s0 s) (hL : Part.sub [.dram, .fab, .ports, .ink, .time, .intr, .ao, .ladder, .out, .win 6, .win 11] L0 = true := by decide) :
    Keeps L0 s0 (State.lnEstimate s n a snr) := by
  refine h.trans ?_ hL
  unfold State.lnEstimate
  repeat' with_reducible (first | apply refl | assumption | apply lnAssign | apply lnMod | apply step | refine foldlFst ?_ _ (fun _ _ _ => ?_) | refine foldl' ?_ _ (fun _ _ _ => ?_) | dsimp only | split | refine fst (by assumption) ?_ | refine snd (by assumption) ?_ | decide)

theorem lnOwe {s : State} {n snr : Nat} {b : Bytes} {good : Bool} (h : Keeps L0 s0 s) (hL : Part.sub [.ports] L0 = true := by decide) :
    Keeps L0 s0 (State.lnOwe s n b good snr) := by
  refine h.trans ?_ hL
  unfold State.lnOwe
  repeat' with_reducible (first | apply refl | assumption | apply lnMod | dsimp only | split | decide)

theorem lnReceive {s : State} {n status level : Nat} {b : Bytes} {snr : List (Nat × Int)} (h : Keeps L0 s0 s) (hL : Part.sub [.dram, .fab, .ports, .ink, .time, .intr, .ao, .smp, .ladder, .out, .draws, .win 0, .win 4, .win 6, .win 11, .win 16] L0 = true := by decide) :
    Keeps L0 s0 (State.lnReceive s n b status snr level) := by
  refine h.trans ?_ hL
  unfold State.lnReceive
  repeat' with_reducible (first | apply refl | assumption | apply bump | apply lnDeliver | apply lnEstimate | apply lnFlood | apply lnMissed | apply lnMod | apply lnOwe | apply lnResponse | apply ltHeard | apply portMod | apply raiseF | apply setF | refine when' ?_ _ (fun _ _ => ?_) | dsimp only | split | (apply Part.win_port <;> decide) | decide)

theorem execResponseSend {s : State} {n : Nat} : OutKeeps [.ports, .win 16] s (execResponseSend n s) := by
  unfold Sys2Proof.Machine.execResponseSend
  repeat' with_reducible (first | refine OutKeeps.ok ?_ | apply refl | assumption | apply bump | apply lnMod | apply lnSend | refine when' ?_ _ (fun _ _ => ?_) | apply ok | dsimp only | split | refine fst (by assumption) ?_ | refine snd (by assumption) ?_ | (apply Part.win_port <;> decide) | decide)

theorem execReassemblyTimeout {s : State} {n src seq : Nat} : OutKeeps [.ports, .win 16] s (execReassemblyTimeout n src seq s) := by
  unfold Sys2Proof.Machine.execReassemblyTimeout
  repeat' with_reducible (first | refine OutKeeps.ok ?_ | apply refl | assumption | apply bump | apply lnMod | apply ok | dsimp only | split | (apply Part.win_port <;> decide) | decide)

end Sys2Proof.Machine.Keeps
end

