-- ==== Sys2Proof/Laws/KLinePhy.lean ====
section
/-! SUPPORT. Sys2Proof/Laws/KLinePhy.lean: what each operation of Machine/LinePhy.lean touches and keeps. -/

set_option Elab.async false

namespace Sys2Proof.Machine.Keeps

set_option linter.unusedTactic false
set_option linter.unreachableTactic false

variable {L0 : List Part} {s0 : State}

theorem laneErr {s : State} {n : Nat} {l : List Nat} (h : Keeps L0 s0 s) (hL : Part.sub [.win 16] L0 = true := by decide) :
    Keeps L0 s0 (State.laneErr s n l) := by
  refine h.trans ?_ hL
  unfold State.laneErr
  repeat' with_reducible (first | apply refl | assumption | apply bumpN | dsimp only | split | (apply Part.win_port <;> decide) | decide)

theorem lnDetected {s : State} {n : Nat} {l : List (Int × Bool)} (h : Keeps L0 s0 s) (hL : Part.sub [.ports, .win 16] L0 = true := by decide) :
    Keeps L0 s0 (State.lnDetected s n l) := by
  refine h.trans ?_ hL
  unfold State.lnDetected
  repeat' with_reducible (first | apply refl | assumption | apply bumpN | apply lnMod | dsimp only | (apply Part.win_port <;> decide) | decide)

theorem execLinePreambleDetect {s : State} {n first : Nat} {words : List Nat} : OutKeeps [.ports, .draws, .win 16] s (execLinePreambleDetect n first words s) := by
  unfold Sys2Proof.Machine.execLinePreambleDetect
  repeat' with_reducible (first | refine OutKeeps.ok ?_ | apply refl | assumption | apply draw | apply laneErr | apply lnDefer | apply lnDetected | apply portMod | apply ok | dsimp only | split | (apply Part.win_port <;> decide) | decide)

theorem lnHdrBad {s : State} {n hd : Nat} (h : Keeps L0 s0 s) (hL : Part.sub [.dram, .fab, .ports, .ink, .time, .intr, .ao, .smp, .ladder, .out, .draws, .win 0, .win 4, .win 6, .win 11, .win 16] L0 = true := by decide) :
    Keeps L0 s0 (State.lnHdrBad s n hd) := by
  refine h.trans ?_ hL
  unfold State.lnHdrBad
  repeat' with_reducible (first | apply refl | assumption | apply bump | apply lnMissed | apply lnMod | dsimp only | (apply Part.win_port <;> decide) | decide)

theorem lnErase {s : State} {n : Nat} {ref : Carriers} (h : Keeps L0 s0 s) (hL : Part.sub [.ports, .win 16] L0 = true := by decide) :
    Keeps L0 s0 (State.lnErase s n ref) := by
  refine h.trans ?_ hL
  unfold State.lnErase
  repeat' with_reducible (first | apply refl | assumption | apply bump | apply lnMod | dsimp only | (apply Part.win_port <;> decide) | decide)

theorem lnSymbol {s : State} {n first : Nat} {words : List Nat} (h : Keeps L0 s0 s)
    (hL : Part.sub [.ports, .draws, .win 16] L0 = true := by decide) : Keeps L0 s0 (State.lnSymbol s n first words) := by
  refine h.trans ?_ hL
  unfold State.lnSymbol
  repeat' with_reducible (first | apply refl | assumption | apply bump | apply bumpN | apply draw | apply laneErr | apply lnErase | apply lnMod | refine when' ?_ _ (fun _ _ => ?_) | dsimp only | split | (apply Part.win_port <;> decide) | decide)

theorem lnSymbols {s : State} {n : Nat} {l : List (Nat × List Nat)} (h : Keeps L0 s0 s)
    (hL : Part.sub [.ports, .draws, .win 16] L0 = true := by decide) : Keeps L0 s0 (State.lnSymbols s n l) := by
  refine h.trans ?_ hL
  unfold State.lnSymbols
  exact each' (refl _ _) _ (fun _ _ h => lnSymbol h)

theorem execLineSymbolReceive {s : State} {n first : Nat} {words after : List Nat} :
    OutKeeps [.ports, .draws, .win 16] s (execLineSymbolReceive n first words after s) :=
  OutKeeps.ok (lnSymbol (refl _ _))

theorem execLineRxDeadlineMiss {s : State} {n : Nat} : OutKeeps [.fab, .ports, .smp, .win 4, .win 16] s (execLineRxDeadlineMiss n s) := by
  unfold Sys2Proof.Machine.execLineRxDeadlineMiss
  repeat' with_reducible (first | refine OutKeeps.ok ?_ | apply refl | assumption | apply bump | apply lnErase | apply shortfall | apply ok | dsimp only | split | (apply Part.win_port <;> decide) | decide)

theorem execLineTxDeadlineMiss {s : State} {n k : Nat} : OutKeeps [.dram, .fab, .ports, .ink, .time, .intr, .ao, .smp, .ladder, .out, .draws, .win 0, .win 4, .win 6, .win 11, .win 16] s (execLineTxDeadlineMiss n k s) := by
  unfold Sys2Proof.Machine.execLineTxDeadlineMiss
  repeat' with_reducible (first | refine OutKeeps.ok ?_ | apply refl | assumption | apply bump | apply lnFail | apply lnFall | apply lnMod | apply shortfall | apply ok | dsimp only | split | refine fst (by assumption) ?_ | refine snd (by assumption) ?_ | (apply Part.win_port <;> decide) | decide)

theorem execLineHeaderReceive {s : State} {n : Nat} {rest : List (Nat × List Nat)} : OutKeeps [.dram, .fab, .ports, .ink, .time, .intr, .ao, .smp, .ladder, .out, .draws, .win 0, .win 4, .win 6, .win 11, .win 16] s (execLineHeaderReceive n rest s) := by
  unfold Sys2Proof.Machine.execLineHeaderReceive
  repeat' with_reducible (first | refine OutKeeps.ok ?_ | apply refl | assumption | apply lnHdrBad | apply lnSymbols | apply lnMod | apply ok | dsimp only | split | decide)

theorem execLineFrameDecode {s : State} {n level : Nat} {rest : List (Nat × List Nat)} {carriers : List Nat} {snr : List Int} : OutKeeps [.dram, .fab, .ports, .ink, .time, .intr, .ao, .smp, .ladder, .out, .draws, .win 0, .win 4, .win 6, .win 11, .win 16] s (execLineFrameDecode n rest carriers snr level s) := by
  unfold Sys2Proof.Machine.execLineFrameDecode
  repeat' with_reducible (first | refine OutKeeps.ok ?_ | apply refl | assumption | apply bump | apply bumpN | apply lnMod | apply lnReceive | apply lnSymbols | refine when' ?_ _ (fun _ _ => ?_) | apply ok | dsimp only | split | (apply Part.win_port <;> decide) | decide)

theorem execLaneAligned {s : State} {lane : Nat × List Nat} : OutKeeps [.ports, .out, .win 16] s (execLaneAligned lane s) := by
  obtain ⟨n, words⟩ := lane
  unfold Sys2Proof.Machine.execLaneAligned
  repeat' with_reducible (first | refine OutKeeps.ok ?_ | apply refl | assumption | apply alignBurst | apply laneErr | apply raiseF | apply ok | dsimp only | split | (apply Part.win_port <;> decide) | decide)

theorem execLaneLoss {s : State} {n : Nat} {words : List Nat} : OutKeeps [.ports, .smp, .out, .win 4, .win 16] s (execLaneLoss n words s) := by
  unfold Sys2Proof.Machine.execLaneLoss
  repeat' with_reducible (first | refine OutKeeps.ok ?_ | apply refl | assumption | apply alignBurst | apply bump | apply laneErr | apply portMod | apply raiseF | apply report | apply setF | apply ok | dsimp only | split | (apply Part.win_port <;> decide) | decide)

end Sys2Proof.Machine.Keeps
end

