-- ==== Sys2Proof/Laws/KAir.lean ====
section
/-! SUPPORT. Sys2Proof/Laws/KAir.lean: what each operation of Machine/Air.lean touches and keeps. -/

set_option Elab.async false

namespace Sys2Proof.Machine.Keeps

set_option linter.unusedTactic false
set_option linter.unreachableTactic false

variable {L0 : List Part} {s0 : State}

theorem arMod {s : State} {n : Nat} {f : AirState → AirState} (h : Keeps L0 s0 s) (hL : Part.sub [.ports] L0 = true := by decide) :
    Keeps L0 s0 (State.arMod s n f) := by
  refine h.trans ?_ hL
  unfold State.arMod
  repeat' with_reducible (first | apply refl | assumption | apply portMod | dsimp only | decide)

theorem airSend {s : State} {n kind id : Nat} {b : Bytes} (h : Keeps L0 s0 s) (hL : Part.sub [.ports, .out, .win 16] L0 = true := by decide) :
    Keeps L0 s0 (State.airSend s n b kind id) := by
  refine h.trans ?_ hL
  unfold State.airSend
  repeat' with_reducible (first | apply refl | assumption | apply arMod | apply bump | apply emit | apply txOn | dsimp only | (apply Part.win_port <;> decide) | decide)

theorem beaconCut {s : State} {n : Nat} (h : Keeps L0 s0 s) (hL : Part.sub [.ports] L0 = true := by decide) :
    Keeps L0 s0 (State.beaconCut s n) := by
  refine h.trans ?_ hL
  unfold State.beaconCut
  repeat' with_reducible (first | apply refl | assumption | apply arMod | dsimp only | split | decide)

theorem execAirCycleStart {s : State} {n : Nat} {receiving : Bool} : OutKeeps [.ports, .out, .draws, .win 16] s (execAirCycleStart n receiving s) := by
  unfold Sys2Proof.Machine.execAirCycleStart
  repeat' with_reducible (first | refine OutKeeps.ok ?_ | apply refl | assumption | apply airSend | apply airTake | apply arMod | apply beaconCut | apply bump | apply draw | refine when' ?_ _ (fun _ _ => ?_) | apply wrN | apply ok | dsimp only | split | (apply Part.win_port <;> decide) | decide)

theorem arJob {s : State} {n : Nat} {j : AirJob} (h : Keeps L0 s0 s) (hL : Part.sub [.ports] L0 = true := by decide) :
    Keeps L0 s0 (State.arJob s n j) := by
  refine h.trans ?_ hL
  unfold State.arJob
  repeat' with_reducible (first | apply refl | assumption | apply arMod | dsimp only | split | decide)

theorem arDone {s : State} {n code : Nat} {j : AirJob} (h : Keeps L0 s0 s) (hL : Part.sub [.dram, .fab, .ports, .ink, .time, .intr, .ao, .smp, .ladder, .out, .win 0, .win 4, .win 6, .win 11, .win 16] L0 = true := by decide) :
    Keeps L0 s0 (State.arDone s n j code) := by
  refine h.trans ?_ hL
  unfold State.arDone
  repeat' with_reducible (first | apply refl | assumption | apply arMod | apply bump | apply txEnd | refine when' ?_ _ (fun _ _ => ?_) | dsimp only | split | (apply Part.win_port <;> decide) | decide)

theorem csma {s : State} {n : Nat} {j : AirJob} (h : Keeps L0 s0 s) (hL : Part.sub [.draws] L0 = true := by decide) :
    Keeps L0 s0 (State.csma s n j).1 := by
  refine h.trans ?_ hL
  unfold State.csma
  repeat' with_reducible (first | apply refl | assumption | apply draw | dsimp only | decide)

theorem airStart {s : State} {n : Nat} {j : AirJob} (h : Keeps L0 s0 s) (hL : Part.sub [.dram, .fab, .ports, .ink, .time, .intr, .ao, .smp, .ladder, .out, .win 0, .win 4, .win 6, .win 11, .win 16] L0 = true := by decide) :
    Keeps L0 s0 (State.airStart s n j) := by
  refine h.trans ?_ hL
  unfold State.airStart
  repeat' with_reducible (first | apply refl | assumption | apply airSend | apply arDone | apply arJob | apply arMod | dsimp only | split | refine fst (by assumption) ?_ | refine snd (by assumption) ?_ | decide)

theorem rdvPut {s : State} {n a : Nat} {e : Bytes} (h : Keeps L0 s0 s) (hL : Part.sub [.dram] L0 = true := by decide) :
    Keeps L0 s0 (State.rdvPut s n a e) := by
  refine h.trans ?_ hL
  unfold State.rdvPut
  repeat' with_reducible (first | apply refl | assumption | apply wrMem | dsimp only | decide)

theorem arJobOf {s : State} {n : Nat} {k : TxPkt} (h : Keeps L0 s0 s) (hL : Part.sub [.ports, .win 16] L0 = true := by decide) :
    Keeps L0 s0 (State.arJobOf s n k).1 := by
  refine h.trans ?_ hL
  unfold State.arJobOf
  repeat' with_reducible (first | apply refl | assumption | apply arMod | apply floodOut | apply portMod | refine when' ?_ _ (fun _ _ => ?_) | dsimp only | split | decide)

theorem execAirTxPacketTake {s : State} {n : Nat} : OutKeeps [.dram, .fab, .ports, .ink, .time, .intr, .ao, .smp, .ladder, .out, .draws, .win 0, .win 4, .win 6, .win 11, .win 16] s (execAirTxPacketTake n s) := by
  unfold Sys2Proof.Machine.execAirTxPacketTake
  repeat' with_reducible (first | refine OutKeeps.ok ?_ | apply refl | assumption | apply arJobOf | apply arMod | apply csma | apply ptrCheck | apply txEnd | apply txMod | apply ok | dsimp only | split | refine fst (by assumption) ?_ | refine snd (by assumption) ?_ | (apply Part.win_port <;> decide) | decide)

theorem arFail {s : State} {n : Nat} {j : AirJob} (h : Keeps L0 s0 s) (hL : Part.sub [.dram, .fab, .ports, .ink, .time, .intr, .ao, .smp, .ladder, .out, .draws, .win 0, .win 4, .win 6, .win 11, .win 16] L0 = true := by decide) :
    Keeps L0 s0 (State.arFail s n j) := by
  refine h.trans ?_ hL
  unfold State.arFail
  repeat' with_reducible (first | apply refl | assumption | apply arDone | apply arJob | apply csma | apply ltTried | dsimp only | split | decide)

theorem execAirBackoffExpire {s : State} {n : Nat} : OutKeeps [.ports] s (execAirBackoffExpire n s) := by
  unfold Sys2Proof.Machine.execAirBackoffExpire
  repeat' with_reducible (first | refine OutKeeps.ok ?_ | apply refl | assumption | apply arJob | apply ok | dsimp only | split | refine fst (by assumption) ?_ | refine snd (by assumption) ?_ | decide)

theorem execAirCcaDone {s : State} {n : Nat} {power : Int} {receiving : Bool} : OutKeeps [.dram, .fab, .ports, .ink, .time, .intr, .ao, .smp, .ladder, .out, .draws, .win 0, .win 4, .win 6, .win 11, .win 16] s (execAirCcaDone n power receiving s) := by
  unfold Sys2Proof.Machine.execAirCcaDone
  repeat' with_reducible (first | refine OutKeeps.ok ?_ | apply refl | assumption | apply airStart | apply arFail | apply arJob | apply bump | apply draw | apply ok | dsimp only | split | refine fst (by assumption) ?_ | refine snd (by assumption) ?_ | (apply Part.win_port <;> decide) | decide)

theorem downStart {s : State} {n a : Nat} (h : Keeps L0 s0 s) (hL : Part.sub [.ports, .win 16] L0 = true := by decide) :
    Keeps L0 s0 (State.downStart s n a) := by
  refine h.trans ?_ hL
  unfold State.downStart
  repeat' with_reducible (first | apply refl | assumption | apply arJob | apply arJobOf | apply arMod | dsimp only | split | refine fst (by assumption) ?_ | refine snd (by assumption) ?_ | decide)

theorem execAirEnhAckSend {s : State} {n : Nat} : OutKeeps [.ports, .out, .win 16] s (execAirEnhAckSend n s) := by
  unfold Sys2Proof.Machine.execAirEnhAckSend
  repeat' with_reducible (first | refine OutKeeps.ok ?_ | apply refl | assumption | apply airSend | apply arMod | apply ok | dsimp only | split | refine fst (by assumption) ?_ | refine snd (by assumption) ?_ | decide)

theorem execAirTxEnd {s : State} {n : Nat} : OutKeeps [.dram, .fab, .ports, .ink, .time, .intr, .ao, .smp, .ladder, .out, .win 0, .win 4, .win 6, .win 11, .win 16] s (execAirTxEnd n s) := by
  unfold Sys2Proof.Machine.execAirTxEnd
  repeat' with_reducible (first | refine OutKeeps.ok ?_ | apply refl | assumption | apply airStart | apply alignBurst | apply arDone | apply arJob | apply arMod | apply txOff | apply ok | dsimp only | split | refine fst (by assumption) ?_ | refine snd (by assumption) ?_ | decide)

theorem execAirAckTimeout {s : State} {n : Nat} : OutKeeps [.dram, .fab, .ports, .ink, .time, .intr, .ao, .smp, .ladder, .out, .draws, .win 0, .win 4, .win 6, .win 11, .win 16] s (execAirAckTimeout n s) := by
  unfold Sys2Proof.Machine.execAirAckTimeout
  repeat' with_reducible (first | refine OutKeeps.ok ?_ | apply refl | assumption | apply arFail | apply bump | apply ok | dsimp only | split | refine fst (by assumption) ?_ | refine snd (by assumption) ?_ | (apply Part.win_port <;> decide) | decide)

theorem arLate {s : State} {n : Nat} {j : AirJob} (h : Keeps L0 s0 s) (hL : Part.sub [.ports, .win 16] L0 = true := by decide) :
    Keeps L0 s0 (State.arLate s n j) := by
  refine h.trans ?_ hL
  unfold State.arLate
  repeat' with_reducible (first | apply refl | assumption | apply arMod | apply bump | apply raiseF | dsimp only | split | (apply Part.win_port <;> decide) | decide)

theorem execAirScheduledLaunch {s : State} {n : Nat} {receiving : Bool} : OutKeeps [.dram, .fab, .ports, .ink, .time, .intr, .ao, .smp, .ladder, .out, .win 0, .win 4, .win 6, .win 11, .win 16] s (execAirScheduledLaunch n receiving s) := by
  unfold Sys2Proof.Machine.execAirScheduledLaunch
  repeat' with_reducible (first | refine OutKeeps.ok ?_ | apply refl | assumption | apply airStart | apply arLate | apply arMod | refine when' ?_ _ (fun _ _ => ?_) | apply ok | dsimp only | split | refine fst (by assumption) ?_ | refine snd (by assumption) ?_ | decide)

theorem execAirRxDeadlineMiss {s : State} {n : Nat} : OutKeeps [.fab, .smp, .win 4, .win 16] s (execAirRxDeadlineMiss n s) := by
  unfold Sys2Proof.Machine.execAirRxDeadlineMiss
  repeat' with_reducible (first | refine OutKeeps.ok ?_ | apply refl | assumption | apply bump | apply shortfall | apply ok | dsimp only | split | (apply Part.win_port <;> decide) | decide)

theorem execAirTxDeadlineMiss {s : State} {n : Nat} : OutKeeps [.dram, .fab, .ports, .ink, .time, .intr, .ao, .smp, .ladder, .out, .draws, .win 0, .win 4, .win 6, .win 11, .win 16] s (execAirTxDeadlineMiss n s) := by
  unfold Sys2Proof.Machine.execAirTxDeadlineMiss
  repeat' with_reducible (first | refine OutKeeps.ok ?_ | apply refl | assumption | apply alignBurst | apply arFail | apply arMod | apply bump | apply shortfall | apply txOff | apply ok | dsimp only | split | refine fst (by assumption) ?_ | refine snd (by assumption) ?_ | (apply Part.win_port <;> decide) | decide)

theorem escalate {s : State} {n a step first : Nat} (h : Keeps L0 s0 s) (hL : Part.sub [.fab, .ports, .ink, .time, .intr, .ao, .smp, .ladder, .out, .win 4, .win 6, .win 11, .win 16] L0 = true := by decide) :
    Keeps L0 s0 (State.escalate s n a step first) := by
  refine h.trans ?_ hL
  unfold State.escalate
  repeat' with_reducible (first | apply refl | assumption | apply raiseF | apply report | apply setF | apply step | dsimp only | split | (apply Part.win_port <;> decide) | decide)

theorem contact {s : State} {n a : Nat} (h : Keeps L0 s0 s) (hL : Part.sub [.dram, .fab, .ports, .ink, .time, .intr, .ao, .smp, .ladder, .out, .win 4, .win 6, .win 11, .win 16] L0 = true := by decide) :
    Keeps L0 s0 (State.contact s n a) := by
  refine h.trans ?_ hL
  unfold State.contact
  repeat' with_reducible (first | apply refl | assumption | apply arMod | apply escalate | apply rdvPut | dsimp only | split | refine fst (by assumption) ?_ | refine snd (by assumption) ?_ | decide)

theorem execRendezvousWindowOpen {s : State} {n a : Nat} : OutKeeps [.dram, .fab, .ports, .ink, .time, .intr, .ao, .smp, .ladder, .out, .win 4, .win 6, .win 11, .win 16] s (execRendezvousWindowOpen n a s) := by
  unfold Sys2Proof.Machine.execRendezvousWindowOpen
  repeat' with_reducible (first | refine OutKeeps.ok ?_ | apply refl | assumption | apply arMod | apply contact | apply ok | dsimp only | split | refine fst (by assumption) ?_ | refine snd (by assumption) ?_ | decide)

theorem rdvMiss {s : State} {n a tr : Nat} {e : Bytes} (h : Keeps L0 s0 s) (hL : Part.sub [.dram, .fab, .ports, .ink, .time, .intr, .ao, .smp, .ladder, .out, .win 0, .win 4, .win 6, .win 11, .win 16] L0 = true := by decide) :
    Keeps L0 s0 (State.rdvMiss s n a e tr) := by
  refine h.trans ?_ hL
  unfold State.rdvMiss
  repeat' with_reducible (first | apply refl | assumption | apply arMod | apply bump | refine each' ?_ _ (fun _ _ _ => ?_) | apply escalate | apply rdvPut | apply txEnd | refine when' ?_ _ (fun _ _ => ?_) | dsimp only | split | (apply Part.win_port <;> decide) | decide)

theorem execRendezvousWindowEnd {s : State} {n a tx : Nat} : OutKeeps [.dram, .fab, .ports, .ink, .time, .intr, .ao, .smp, .ladder, .out, .win 0, .win 4, .win 6, .win 11, .win 16] s (execRendezvousWindowEnd n a tx s) := by
  unfold Sys2Proof.Machine.execRendezvousWindowEnd
  repeat' with_reducible (first | refine OutKeeps.ok ?_ | apply refl | assumption | apply arMod | apply bump | apply contact | apply rdvMiss | apply ok | dsimp only | split | refine fst (by assumption) ?_ | refine snd (by assumption) ?_ | (apply Part.win_port <;> decide) | decide)

theorem execWakeTrainStart {s : State} {n a : Nat} : OutKeeps [.ports, .win 16] s (execWakeTrainStart n a s) := by
  unfold Sys2Proof.Machine.execWakeTrainStart
  repeat' with_reducible (first | refine OutKeeps.ok ?_ | apply refl | assumption | apply arMod | apply bump | apply ok | dsimp only | split | refine fst (by assumption) ?_ | refine snd (by assumption) ?_ | (apply Part.win_port <;> decide) | decide)

theorem execWakeFrameSend {s : State} {n : Nat} : OutKeeps [.ports, .out, .win 16] s (execWakeFrameSend n s) := by
  unfold Sys2Proof.Machine.execWakeFrameSend
  repeat' with_reducible (first | refine OutKeeps.ok ?_ | apply refl | assumption | apply airSend | apply arMod | apply ok | dsimp only | split | refine fst (by assumption) ?_ | refine snd (by assumption) ?_ | decide)

theorem syncReport {s : State} {n sev : Nat} (h : Keeps L0 s0 s) (hL : Part.sub [.smp, .win 4] L0 = true := by decide) :
    Keeps L0 s0 (State.syncReport s n sev) := by
  refine h.trans ?_ hL
  unfold State.syncReport
  repeat' with_reducible (first | apply refl | assumption | apply report | dsimp only | (apply Part.win_port <;> decide) | decide)

theorem execMemberBeaconMiss {s : State} {n : Nat} : OutKeeps [.ports, .smp, .win 4, .win 16] s (execMemberBeaconMiss n s) := by
  unfold Sys2Proof.Machine.execMemberBeaconMiss
  repeat' with_reducible (first | refine OutKeeps.ok ?_ | apply refl | assumption | apply arMod | apply bump | apply raiseF | apply setF | apply syncReport | apply ok | dsimp only | split | (apply Part.win_port <;> decide) | decide)

theorem execMemberSearchRound {s : State} {n : Nat} : OutKeeps [.win 16] s (execMemberSearchRound n s) := by
  unfold Sys2Proof.Machine.execMemberSearchRound
  repeat' with_reducible (first | refine OutKeeps.ok ?_ | apply refl | assumption | apply bump | apply setF | apply ok | dsimp only | split | (apply Part.win_port <;> decide) | decide)

theorem execMemberScanTimeout {s : State} {n : Nat} : OutKeeps [.ports, .smp, .win 4] s (execMemberScanTimeout n s) := by
  unfold Sys2Proof.Machine.execMemberScanTimeout
  repeat' with_reducible (first | refine OutKeeps.ok ?_ | apply refl | assumption | apply arMod | apply syncReport | apply ok | dsimp only | split | decide)

theorem beaconIn {s : State} {n t : Nat} {b : Bytes} (h : Keeps L0 s0 s) (hL : Part.sub [.ports, .smp, .win 4, .win 16] L0 = true := by decide) :
    Keeps L0 s0 (State.beaconIn s n t b) := by
  refine h.trans ?_ hL
  unfold State.beaconIn
  repeat' with_reducible (first | apply refl | assumption | apply arMod | apply setF | apply syncReport | apply wrN | dsimp only | split | (apply Part.win_port <;> decide) | decide)

theorem airAcked {s : State} {n seq : Nat} {mine : Bool} (h : Keeps L0 s0 s) (hL : Part.sub [.dram, .fab, .ports, .ink, .time, .intr, .ao, .smp, .ladder, .out, .draws, .win 0, .win 4, .win 6, .win 11, .win 16] L0 = true := by decide) :
    Keeps L0 s0 (State.airAcked s n seq mine) := by
  refine h.trans ?_ hL
  unfold State.airAcked
  repeat' with_reducible (first | apply refl | assumption | apply airStart | apply arDone | apply arFail | apply arJob | apply bump | apply downStart | apply ltTried | dsimp only | split | refine fst (by assumption) ?_ | refine snd (by assumption) ?_ | (apply Part.win_port <;> decide) | decide)

theorem airFlood {s : State} {n frm snr t : Nat} {p : Bytes} (h : Keeps L0 s0 s) (hL : Part.sub [.dram, .fab, .ports, .ink, .time, .intr, .ao, .smp, .ladder, .out, .draws, .win 0, .win 4, .win 6, .win 11, .win 16] L0 = true := by decide) :
    Keeps L0 s0 (State.airFlood s n p frm snr t) := by
  refine h.trans ?_ hL
  unfold State.airFlood
  dsimp only
  split
  · refine bump (refl _ _) _ ?_
    rw [(floodCnt_window s n).2.1]
    decide
  · split
    · exact when' (rxPush (floodNote (refl _ _) (floodCnt_window s n).2.2)) _ (fun _ g => arMod (draw g))
    · exact floodNote (refl _ _) (floodCnt_window s n).2.2

theorem airDataIn {s : State} {n frm snr t : Nat} {m : AirMac} (h : Keeps L0 s0 s) (hL : Part.sub [.dram, .fab, .ports, .ink, .time, .intr, .ao, .smp, .ladder, .out, .draws, .win 0, .win 4, .win 6, .win 11, .win 16] L0 = true := by decide) :
    Keeps L0 s0 (State.airDataIn s n m frm snr t) := by
  refine h.trans ?_ hL
  unfold State.airDataIn
  repeat' with_reducible (first | apply refl | assumption | apply airFlood | apply arMod | apply bump | apply downStart | apply portMod | apply rxPush | apply setF | refine when' ?_ _ (fun _ _ => ?_) | dsimp only | split | (apply Part.win_port <;> decide) | decide)

theorem relayBusy {s : State} {n : Nat} {r : Relay} {rest : List Relay} (h : Keeps L0 s0 s) (hL : Part.sub [.ports, .draws, .win 16] L0 = true := by decide) :
    Keeps L0 s0 (State.relayBusy s n r rest) := by
  refine h.trans ?_ hL
  unfold State.relayBusy
  repeat' with_reducible (first | apply refl | assumption | apply arMod | apply bump | apply draw | dsimp only | split | (apply Part.win_port <;> decide) | decide)

theorem execFloodRelaySend {s : State} {cca : Nat × Int × Bool} : OutKeeps [.ports, .out, .draws, .win 16] s (execFloodRelaySend cca s) := by
  obtain ⟨n, power, receiving⟩ := cca
  unfold Sys2Proof.Machine.execFloodRelaySend
  repeat' with_reducible (first | refine OutKeeps.ok ?_ | apply refl | assumption | apply airSend | apply arMod | apply bump | apply relayBusy | apply ok | dsimp only | split | refine fst (by assumption) ?_ | refine snd (by assumption) ?_ | (apply Part.win_port <;> decide) | decide)

end Sys2Proof.Machine.Keeps
end

