-- ==== Sys2Proof/Laws/KDarner.lean ====
section
/-! SUPPORT. Sys2Proof/Laws/KDarner.lean: what each operation of Machine/Darner.lean touches and keeps. -/

set_option Elab.async false

namespace Sys2Proof.Machine.Keeps

set_option linter.unusedTactic false
set_option linter.unreachableTactic false

variable {L0 : List Part} {s0 : State}

theorem drnMod {s : State} {f : DrnState → DrnState} (h : Keeps L0 s0 s) (hL : Part.sub [.drn] L0 = true := by decide) :
    Keeps L0 s0 (State.drnMod s f) := by
  refine h.trans ?_ hL
  unfold State.drnMod
  repeat' with_reducible (first | (apply f_drn; apply refl; decide) | apply refl | assumption | dsimp only | apply f_drn | decide)

theorem drnPlan {s : State} (h : Keeps L0 s0 s) (hL : Part.sub [.drn, .win 7] L0 = true := by decide) :
    Keeps L0 s0 (State.drnPlan s) := by
  refine h.trans ?_ hL
  unfold State.drnPlan
  repeat' with_reducible (first | apply refl | assumption | apply drnMod | apply setF | dsimp only | split | decide)

theorem drnStep {s : State} (h : Keeps L0 s0 s) (hL : Part.sub [.drn, .win 7] L0 = true := by decide) :
    Keeps L0 s0 (State.drnStep s) := by
  refine h.trans ?_ hL
  unfold State.drnStep
  repeat' with_reducible (first | apply refl | assumption | apply drnMod | apply drnPlan | dsimp only | split | decide)

theorem execFreezeDue {s : State} : OutKeeps [.drn, .win 7] s (execFreezeDue s) := by
  unfold Sys2Proof.Machine.execFreezeDue
  repeat' with_reducible (first | refine OutKeeps.ok ?_ | apply refl | assumption | apply drnMod | apply raiseF | apply wrN | apply ok | dsimp only | split | decide)

theorem drnRead {s : State} {a len idx kind : Nat} (h : Keeps L0 s0 s) (hL : Part.sub [.smp, .win 4] L0 = true := by decide) :
    Keeps L0 s0 (State.drnRead s a len idx kind).1 := by
  refine h.trans ?_ hL
  unfold State.drnRead
  repeat' with_reducible (first | apply refl | assumption | apply report | dsimp only | split | decide)

theorem drnWrite {s : State} {a len : Nat} {b : Bytes} (h : Keeps L0 s0 s) (hL : Part.sub [.dram] L0 = true := by decide) :
    Keeps L0 s0 (State.drnWrite s a len b) := by
  refine h.trans ?_ hL
  unfold State.drnWrite
  repeat' with_reducible (first | apply refl | assumption | apply wrMem | dsimp only | decide)

theorem collMod {s : State} {n : Nat} {f : DrnColl → DrnColl} (h : Keeps L0 s0 s) (hL : Part.sub [.drn] L0 = true := by decide) :
    Keeps L0 s0 (State.collMod s n f) := by
  refine h.trans ?_ hL
  unfold State.collMod
  repeat' with_reducible (first | apply refl | assumption | apply drnMod | dsimp only | decide)

theorem totUp {s : State} {f n : Nat} (h : Keeps L0 s0 s) (hL : Part.sub [.dram, .drn, .smp, .win 4] L0 = true := by decide) :
    Keeps L0 s0 (State.totUp s f n) := by
  refine h.trans ?_ hL
  unfold State.totUp
  repeat' with_reducible (first | apply refl | assumption | apply collMod | apply drnRead | apply drnWrite | dsimp only | split | decide)

theorem execFreezeCapture {s : State} : OutKeeps [.dram, .drn, .smp, .win 4, .win 7, .win 8] s (execFreezeCapture s) := by
  unfold Sys2Proof.Machine.execFreezeCapture
  repeat' with_reducible (first | refine OutKeeps.ok ?_ | apply refl | assumption | apply collMod | apply drnMod | apply drnPlan | refine each' ?_ _ (fun _ _ _ => ?_) | apply setF | apply totLatch | apply totUp | apply wrN | apply ok | dsimp only | split | refine fst (by assumption) ?_ | refine snd (by assumption) ?_ | decide)

theorem add32 {s : State} {a b : Nat} (h : Keeps L0 s0 s) (hL : Part.sub [.draws] L0 = true := by decide) :
    Keeps L0 s0 (State.add32 s a b).1 := by
  refine h.trans ?_ hL
  unfold State.add32
  repeat' with_reducible (first | apply refl | assumption | apply draw | dsimp only | split | decide)

theorem collAns {s : State} {n : Nat} (h : Keeps L0 s0 s) (hL : Part.sub [.drn, .draws] L0 = true := by decide) :
    Keeps L0 s0 (State.collAns s n) := by
  refine h.trans ?_ hL
  unfold State.collAns
  repeat' with_reducible (first | apply refl | assumption | apply collMod | apply draw | dsimp only | split | decide)

theorem collAdd {s : State} {slot e : Nat} (h : Keeps L0 s0 s) (hL : Part.sub [.drn, .draws] L0 = true := by decide) :
    Keeps L0 s0 (State.collAdd s slot e) := by
  refine h.trans ?_ hL
  unfold State.collAdd
  repeat' with_reducible (first | apply refl | assumption | apply add32 | apply collAns | apply collMod | refine each' ?_ _ (fun _ _ _ => ?_) | dsimp only | split | refine fst (by assumption) ?_ | refine snd (by assumption) ?_ | decide)

theorem collBad {s : State} {slot : Nat} {gap : Bool} (h : Keeps L0 s0 s) (hL : Part.sub [.drn, .draws] L0 = true := by decide) :
    Keeps L0 s0 (State.collBad s slot gap) := by
  refine h.trans ?_ hL
  unfold State.collBad
  repeat' with_reducible (first | apply refl | assumption | apply collAns | apply collMod | refine each' ?_ _ (fun _ _ _ => ?_) | dsimp only | split | decide)

theorem suspRec {s : State} {slot node score lastId mean drop res kind : Nat} (h : Keeps L0 s0 s) (hL : Part.sub [.dram, .win 7] L0 = true := by decide) :
    Keeps L0 s0 (State.suspRec s slot node score lastId mean drop res kind) := by
  refine h.trans ?_ hL
  unfold State.suspRec
  repeat' with_reducible (first | apply refl | assumption | apply wrMem | apply wrN | dsimp only | decide)

theorem scoreStep {s : State} {slot f : Nat} {b : Bytes} (h : Keeps L0 s0 s) (hL : Part.sub [.dram, .smp, .win 4, .win 7] L0 = true := by decide) :
    Keeps L0 s0 (State.scoreStep s slot f b).1 := by
  refine h.trans ?_ hL
  unfold State.scoreStep
  repeat' with_reducible (first | apply refl | assumption | apply bump | apply drnRead | apply raiseF | apply suspRec | dsimp only | split | decide)

theorem meterUpdate {s : State} {slot f v : Nat} {valid open_ : Bool} {b0 : Bytes} (h : Keeps L0 s0 s) (hL : Part.sub [.dram, .drn, .smp, .draws, .win 4, .win 7] L0 = true := by decide) :
    Keeps L0 s0 (State.meterUpdate s slot f v valid open_ b0) := by
  refine h.trans ?_ hL
  unfold State.meterUpdate
  repeat' with_reducible (first | apply refl | assumption | apply bump | apply collAdd | apply collBad | apply drnWrite | apply scoreStep | refine when' ?_ _ (fun _ _ => ?_) | dsimp only | split | decide)

theorem snap {s : State} {r : Bytes} (h : Keeps L0 s0 s) (hL : Part.sub [.dram, .drn, .smp, .draws, .win 4, .win 7] L0 = true := by decide) :
    Keeps L0 s0 (State.snap s r) := by
  refine h.trans ?_ hL
  unfold State.snap
  repeat' with_reducible (first | apply refl | assumption | apply bump | apply drnRead | apply meterUpdate | apply raiseF | dsimp only | split | decide)

theorem execDarnerSnapshot {s : State} : OutKeeps [.dram, .drn, .smp, .draws, .win 4, .win 7] s (execDarnerSnapshot s) := by
  unfold Sys2Proof.Machine.execDarnerSnapshot
  repeat' with_reducible (first | refine OutKeeps.ok ?_ | apply refl | assumption | apply drnMod | apply snap | apply ok | dsimp only | split | refine fst (by assumption) ?_ | refine snd (by assumption) ?_ | decide)

theorem drnAlarm {s : State} {n kind : Nat} (h : Keeps L0 s0 s) (hL : Part.sub [.smp, .win 4, .win 7] L0 = true := by decide) :
    Keeps L0 s0 (State.drnAlarm s n kind) := by
  refine h.trans ?_ hL
  unfold State.drnAlarm
  repeat' with_reducible (first | apply refl | assumption | apply bump | apply raiseF | apply report | apply setF | dsimp only | split | decide)

theorem closeNode {s : State} {f n : Nat} {cut : Bool} (h : Keeps L0 s0 s) (hL : Part.sub [.dram, .smp, .draws, .win 4, .win 7] L0 = true := by decide) :
    Keeps L0 s0 (State.closeNode s f cut n) := by
  refine h.trans ?_ hL
  unfold State.closeNode
  repeat' with_reducible (first | apply refl | assumption | apply bump | apply draw | apply drnAlarm | apply drnRead | apply drnWrite | refine when' ?_ _ (fun _ _ => ?_) | apply wrMem | apply wrN | dsimp only | split | decide)

theorem drnCkpt {s : State} (h : Keeps L0 s0 s) (hL : Part.sub [.drn, .sto, .win 9] L0 = true := by decide) :
    Keeps L0 s0 (State.drnCkpt s) := by
  refine h.trans ?_ hL
  unfold State.drnCkpt
  repeat' with_reducible (first | apply refl | assumption | apply drnMod | apply jour | apply sysDrop | apply sysPut | dsimp only | split | decide)

theorem freezeClose {s : State} {cut : Bool} (h : Keeps L0 s0 s) (hL : Part.sub [.dram, .drn, .sto, .smp, .draws, .win 4, .win 7, .win 9] L0 = true := by decide) :
    Keeps L0 s0 (State.freezeClose s cut) := by
  refine h.trans ?_ hL
  unfold State.freezeClose
  repeat' with_reducible (first | apply refl | assumption | apply closeNode | apply drnCkpt | refine each' ?_ _ (fun _ _ _ => ?_) | apply raiseF | apply setF | dsimp only | split | decide)

theorem execFreezeClose {s : State} : OutKeeps [.dram, .drn, .sto, .smp, .draws, .win 4, .win 7, .win 9] s (execFreezeClose s) := by
  unfold Sys2Proof.Machine.execFreezeClose
  repeat' with_reducible (first | refine OutKeeps.ok ?_ | apply refl | assumption | apply freezeClose | apply ok | dsimp only | decide)

theorem drnEnable {s : State} (h : Keeps L0 s0 s) (hL : Part.sub [.drn, .win 7] L0 = true := by decide) :
    Keeps L0 s0 (State.drnEnable s) := by
  refine h.trans ?_ hL
  unfold State.drnEnable
  repeat' with_reducible (first | apply refl | assumption | apply drnPlan | apply raiseF | apply setF | dsimp only | split | decide)

theorem drnCut {s : State} (h : Keeps L0 s0 s) (hL : Part.sub [.dram, .drn, .sto, .smp, .draws, .win 4, .win 7, .win 9] L0 = true := by decide) :
    Keeps L0 s0 (State.drnCut s) := by
  refine h.trans ?_ hL
  unfold State.drnCut
  repeat' with_reducible (first | apply refl | assumption | apply drnMod | apply freezeClose | dsimp only | decide)

theorem drnDisable {s : State} (h : Keeps L0 s0 s) (hL : Part.sub [.dram, .drn, .sto, .smp, .draws, .win 4, .win 7, .win 9] L0 = true := by decide) :
    Keeps L0 s0 (State.drnDisable s) := by
  refine h.trans ?_ hL
  unfold State.drnDisable
  repeat' with_reducible (first | apply refl | assumption | apply drnCut | apply setF | dsimp only | decide)

theorem execDarnerEnable {s : State} : OutKeeps [.drn, .draws, .win 0, .win 7] s (execDarnerEnable s) := by
  unfold Sys2Proof.Machine.execDarnerEnable
  repeat' with_reducible (first | refine OutKeeps.ok ?_ | apply refl | assumption | apply drnEnable | apply onBlock | apply ok | dsimp only | decide)

theorem execDarnerDisable {s : State} : OutKeeps [.dram, .drn, .sto, .smp, .draws, .win 0, .win 4, .win 7, .win 9] s (execDarnerDisable s) := by
  unfold Sys2Proof.Machine.execDarnerDisable
  repeat' with_reducible (first | refine OutKeeps.ok ?_ | apply refl | assumption | apply drnDisable | apply onBlock | apply ok | dsimp only | decide)

end Sys2Proof.Machine.Keeps
end

