-- ==== Sys2Proof/Laws/KShuttleCore.lean ====
section
/-! SUPPORT. Sys2Proof/Laws/KShuttleCore.lean: what each operation of Machine/ShuttleCore.lean touches and keeps. -/

set_option Elab.async false

namespace Sys2Proof.Machine.Keeps

set_option linter.unusedTactic false
set_option linter.unreachableTactic false

variable {L0 : List Part} {s0 : State}

theorem chanMod {s : State} {c : Nat} {f : ShuChan → ShuChan} (h : Keeps L0 s0 s) (hL : Part.sub [.shu] L0 = true := by decide) :
    Keeps L0 s0 (State.chanMod s c f) := by
  refine h.trans ?_ hL
  unfold State.chanMod
  repeat' with_reducible (first | (apply f_shu; apply refl; decide) | apply refl | assumption | dsimp only | apply f_shu | decide)

theorem setCh {s : State} {c v : Nat} (h : Keeps L0 s0 s) (hL : Part.sub [.win 3] L0 = true := by decide) :
    Keeps L0 s0 (State.setCh s c v) := by
  refine h.trans ?_ hL
  unfold State.setCh
  repeat' with_reducible (first | apply refl | assumption | apply setF | dsimp only | (apply Part.win_arr <;> decide) | decide)

theorem setPc {s : State} {c v : Nat} (h : Keeps L0 s0 s) (hL : Part.sub [.win 3] L0 = true := by decide) :
    Keeps L0 s0 (State.setPc s c v) := by
  refine h.trans ?_ hL
  unfold State.setPc
  repeat' with_reducible (first | apply refl | assumption | apply wrN | dsimp only | (apply Part.win_arr <;> decide) | decide)

theorem eventClear {s : State} {e : Nat} (h : Keeps L0 s0 s) (hL : Part.sub [.win 3] L0 = true := by decide) :
    Keeps L0 s0 (State.eventClear s e) := by
  refine h.trans ?_ hL
  unfold State.eventClear
  repeat' with_reducible (first | apply refl | assumption | apply wr | dsimp only | (apply Part.win_arr <;> decide) | decide)

theorem eventSet {s : State} {e : Nat} (h : Keeps L0 s0 s) (hL : Part.sub [.win 3] L0 = true := by decide) :
    Keeps L0 s0 (State.eventSet s e) := by
  refine h.trans ?_ hL
  unfold State.eventSet
  repeat' with_reducible (first | apply refl | assumption | apply bump | apply raiseBit | dsimp only | split | (apply Part.win_arr <;> decide) | decide)

theorem chClose {s : State} {c : Nat} (h : Keeps L0 s0 s) (hL : Part.sub [.fab, .ports, .ink, .time, .shu, .intr, .ao, .ladder, .out, .win 6, .win 11] L0 = true := by decide) :
    Keeps L0 s0 (State.chClose s c) := by
  refine h.trans ?_ hL
  unfold State.chClose
  repeat' with_reducible (first | apply refl | assumption | apply chanMod | apply txUndo | dsimp only | split | refine fst (by assumption) ?_ | refine snd (by assumption) ?_ | decide)

theorem chStart {s : State} {c : Nat} (h : Keeps L0 s0 s) (hL : Part.sub [.win 3] L0 = true := by decide) :
    Keeps L0 s0 (State.chStart s c) := by
  refine h.trans ?_ hL
  unfold State.chStart
  repeat' with_reducible (first | apply refl | assumption | apply setCh | apply setF | apply setPc | dsimp only | (apply Part.win_arr <;> decide) | decide)

theorem chIdle {s : State} {c : Nat} (h : Keeps L0 s0 s) (hL : Part.sub [.fab, .ports, .ink, .time, .shu, .intr, .ao, .ladder, .out, .win 3, .win 6, .win 11] L0 = true := by decide) :
    Keeps L0 s0 (State.chIdle s c) := by
  refine h.trans ?_ hL
  unfold State.chIdle
  repeat' with_reducible (first | apply refl | assumption | apply chClose | apply chanMod | apply setCh | apply setPc | dsimp only | decide)

theorem chError {s : State} {c code : Nat} (h : Keeps L0 s0 s) (hL : Part.sub [.fab, .ports, .ink, .time, .shu, .intr, .ao, .ladder, .out, .win 3, .win 6, .win 11] L0 = true := by decide) :
    Keeps L0 s0 (State.chError s c code) := by
  refine h.trans ?_ hL
  unfold State.chError
  repeat' with_reducible (first | apply refl | assumption | apply chClose | apply setCh | apply setF | dsimp only | (apply Part.win_arr <;> decide) | decide)

theorem chGo {s : State} {c : Nat} (h : Keeps L0 s0 s) (hL : Part.sub [.win 3] L0 = true := by decide) :
    Keeps L0 s0 (State.chGo s c) := by
  refine h.trans ?_ hL
  unfold State.chGo
  repeat' with_reducible (first | apply refl | assumption | apply chStart | dsimp only | split | decide)

theorem chAbort {s : State} {c : Nat} (h : Keeps L0 s0 s) (hL : Part.sub [.fab, .ports, .ink, .time, .shu, .intr, .ao, .ladder, .out, .win 3, .win 6, .win 11] L0 = true := by decide) :
    Keeps L0 s0 (State.chAbort s c) := by
  refine h.trans ?_ hL
  unfold State.chAbort
  repeat' with_reducible (first | apply refl | assumption | apply chIdle | dsimp only | split | decide)

theorem chArm {s : State} {c : Nat} (h : Keeps L0 s0 s) (hL : Part.sub [.win 3] L0 = true := by decide) :
    Keeps L0 s0 (State.chArm s c) := by
  refine h.trans ?_ hL
  unfold State.chArm
  repeat' with_reducible (first | apply refl | assumption | apply setCh | dsimp only | split | (apply Part.win_arr <;> decide) | decide)

theorem progWrite {s : State} {c v : Nat} (h : Keeps L0 s0 s) (hL : Part.sub [.shu, .win 3] L0 = true := by decide) :
    Keeps L0 s0 (State.progWrite s c v) := by
  refine h.trans ?_ hL
  unfold State.progWrite
  repeat' with_reducible (first | apply refl | assumption | apply chanMod | apply raiseF | apply setF | apply setPc | apply wrN | dsimp only | split | (apply Part.win_arr <;> decide) | decide)

theorem shuOff {s : State} (h : Keeps L0 s0 s) (hL : Part.sub [.fab, .ports, .ink, .time, .shu, .intr, .ao, .ladder, .out, .win 3, .win 6, .win 11] L0 = true := by decide) :
    Keeps L0 s0 (State.shuOff s) := by
  refine h.trans ?_ hL
  unfold State.shuOff
  repeat' with_reducible (first | apply refl | assumption | apply chAbort | refine each' ?_ _ (fun _ _ _ => ?_) | apply setF | dsimp only | decide)

theorem busError {s : State} {kind space addr : Nat} {write : Bool} (h : Keeps L0 s0 s) (hL : Part.sub [.fab, .ports, .ink, .time, .shu, .intr, .ao, .smp, .ladder, .out, .win 3, .win 4, .win 6, .win 11] L0 = true := by decide) :
    Keeps L0 s0 (State.busError s kind space addr write) := by
  refine h.trans ?_ hL
  unfold State.busError
  repeat' with_reducible (first | apply refl | assumption | apply bump | apply chClose | refine each' ?_ _ (fun _ _ _ => ?_) | apply raiseF | apply report | apply setCh | apply wrN | dsimp only | split | decide)

theorem shuResume {s : State} (h : Keeps L0 s0 s) (hL : Part.sub [.win 3] L0 = true := by decide) :
    Keeps L0 s0 (State.shuResume s) := by
  refine h.trans ?_ hL
  unfold State.shuResume
  repeat' with_reducible (first | apply refl | assumption | refine each' ?_ _ (fun _ _ _ => ?_) | apply setCh | apply setF | dsimp only | split | decide)

end Sys2Proof.Machine.Keeps
end

