-- ==== Sys2Proof/Laws/KGathering.lean ====
section
/-! SUPPORT. Sys2Proof/Laws/KGathering.lean: what each operation of Machine/Gathering.lean touches and keeps. -/

set_option Elab.async false

namespace Sys2Proof.Machine.Keeps

set_option linter.unusedTactic false
set_option linter.unreachableTactic false

variable {L0 : List Part} {s0 : State}

theorem intMod {s : State} {f : IntState → IntState} (h : Keeps L0 s0 s) (hL : Part.sub [.intr] L0 = true := by decide) :
    Keeps L0 s0 (State.intMod s f) := by
  refine h.trans ?_ hL
  unfold State.intMod
  repeat' with_reducible (first | (apply f_intr; apply refl; decide) | apply refl | assumption | dsimp only | apply f_intr | decide)

theorem msixSend {s : State} {v : Nat} (h : Keeps L0 s0 s) (hL : Part.sub [.intr, .out] L0 = true := by decide) :
    Keeps L0 s0 (State.msixSend s v) := by
  refine h.trans ?_ hL
  unfold State.msixSend
  repeat' with_reducible (first | apply refl | assumption | apply emit | apply intMod | dsimp only | split | decide)

theorem msixLook {s : State} {v : Nat} (h : Keeps L0 s0 s) (hL : Part.sub [.intr, .out] L0 = true := by decide) :
    Keeps L0 s0 (State.msixLook s v) := by
  refine h.trans ?_ hL
  unfold State.msixLook
  repeat' with_reducible (first | apply refl | assumption | apply intMod | apply msixSend | dsimp only | split | refine fst (by assumption) ?_ | refine snd (by assumption) ?_ | decide)

theorem msixAll {s : State} (h : Keeps L0 s0 s) (hL : Part.sub [.intr, .out] L0 = true := by decide) :
    Keeps L0 s0 (State.msixAll s) := by
  refine h.trans ?_ hL
  unfold State.msixAll
  repeat' with_reducible (first | apply refl | assumption | refine each' ?_ _ (fun _ _ _ => ?_) | apply msixLook | dsimp only | split | decide)

theorem execIntClaim {s : State} {t init : Nat} : OutKeeps [.intr, .smp, .busData, .out, .win 0, .win 4] s (execIntClaim t init s) := by
  unfold Sys2Proof.Machine.execIntClaim
  repeat' with_reducible (first | refine OutKeeps.ok ?_ | apply refl | assumption | apply answer | apply fwReg | apply intMod | apply msixAll | apply ok | dsimp only | split | refine fst (by assumption) ?_ | refine snd (by assumption) ?_ | (apply Part.win_arr <;> decide) | decide)

theorem stackErr {s : State} {t v : Nat} (h : Keeps L0 s0 s) (hL : Part.sub [.smp, .win 1, .win 4] L0 = true := by decide) :
    Keeps L0 s0 (State.stackErr s t v) := by
  refine h.trans ?_ hL
  unfold State.stackErr
  repeat' with_reducible (first | apply refl | assumption | apply raiseF | apply report | dsimp only | (apply Part.win_arr <;> decide) | decide)

theorem execIntComplete {s : State} {t init v : Nat} : OutKeeps [.intr, .smp, .out, .win 0, .win 1, .win 4] s (execIntComplete t init v s) := by
  unfold Sys2Proof.Machine.execIntComplete
  repeat' with_reducible (first | refine OutKeeps.ok ?_ | apply refl | assumption | apply fwReg | apply intMod | apply msixAll | apply msixSend | apply stackErr | apply ok | dsimp only | split | refine fst (by assumption) ?_ | refine snd (by assumption) ?_ | (apply Part.win_arr <;> decide) | decide)

theorem intFlush {s : State} {t : Nat} (h : Keeps L0 s0 s) (hL : Part.sub [.intr] L0 = true := by decide) :
    Keeps L0 s0 (State.intFlush s t) := by
  refine h.trans ?_ hL
  unfold State.intFlush
  repeat' with_reducible (first | apply refl | assumption | apply intMod | dsimp only | decide)

theorem execIntFlush {s : State} {t init : Nat} : OutKeeps [.intr, .smp, .out, .win 0, .win 4] s (execIntFlush t init s) := by
  unfold Sys2Proof.Machine.execIntFlush
  repeat' with_reducible (first | refine OutKeeps.ok ?_ | apply refl | assumption | apply fwReg | apply intFlush | apply msixAll | apply ok | dsimp only | split | (apply Part.win_arr <;> decide) | decide)

theorem execHoldOffExpire {s : State} {g : Nat} : OutKeeps [.intr, .out] s (execHoldOffExpire g s) := by
  unfold Sys2Proof.Machine.execHoldOffExpire
  repeat' with_reducible (first | refine OutKeeps.ok ?_ | apply refl | assumption | apply intMod | apply msixAll | apply ok | dsimp only | decide)

theorem execCoreWake {s : State} {t : Nat} {wfi : Bool} : OutKeeps [.intr] s (execCoreWake t wfi s) := by
  unfold Sys2Proof.Machine.execCoreWake
  repeat' with_reducible (first | refine OutKeeps.ok ?_ | apply refl | assumption | apply intMod | apply ok | dsimp only | split | decide)

theorem execIntSwSet {s : State} {n : Nat} : OutKeeps [.intr, .out] s (execIntSwSet n s) := by
  unfold Sys2Proof.Machine.execIntSwSet
  repeat' with_reducible (first | refine OutKeeps.ok ?_ | apply refl | assumption | apply intMod | apply msixAll | apply ok | dsimp only | split | decide)

theorem execIntSwClear {s : State} {n : Nat} : OutKeeps [.intr, .out] s (execIntSwClear n s) := by
  unfold Sys2Proof.Machine.execIntSwClear
  repeat' with_reducible (first | refine OutKeeps.ok ?_ | apply refl | assumption | apply intMod | apply msixAll | apply ok | dsimp only | split | decide)

theorem execMsixUnmask {s : State} {v : Nat} : OutKeeps [.intr, .out] s (execMsixUnmask v s) := by
  unfold Sys2Proof.Machine.execMsixUnmask
  repeat' with_reducible (first | refine OutKeeps.ok ?_ | apply refl | assumption | apply intMod | apply msixAll | apply ok | dsimp only | split | decide)

end Sys2Proof.Machine.Keeps
end

