-- ==== Sys2Proof/Laws/KTimeCore.lean ====
section
/-! SUPPORT. Sys2Proof/Laws/KTimeCore.lean: what each operation of Machine/TimeCore.lean touches and keeps. -/

set_option Elab.async false

namespace Sys2Proof.Machine.Keeps

set_option linter.unusedTactic false
set_option linter.unreachableTactic false

variable {L0 : List Part} {s0 : State}

theorem tuMod {s : State} {f : TimeState → TimeState} (h : Keeps L0 s0 s) (hL : Part.sub [.time] L0 = true := by decide) :
    Keeps L0 s0 (State.tuMod s f) := by
  refine h.trans ?_ hL
  unfold State.tuMod
  repeat' with_reducible (first | (apply f_time; apply refl; decide) | apply refl | assumption | dsimp only | apply f_time | decide)

theorem setQual {s : State} {q : Nat} (h : Keeps L0 s0 s) (hL : Part.sub [.win 2] L0 = true := by decide) :
    Keeps L0 s0 (State.setQual s q) := by
  refine h.trans ?_ hL
  unfold State.setQual
  repeat' with_reducible (first | apply refl | assumption | apply setF | dsimp only | decide)

theorem setServo {s : State} {v : Nat} (h : Keeps L0 s0 s) (hL : Part.sub [.win 2] L0 = true := by decide) :
    Keeps L0 s0 (State.setServo s v) := by
  refine h.trans ?_ hL
  unfold State.setServo
  repeat' with_reducible (first | apply refl | assumption | apply setF | dsimp only | decide)

theorem setGood {s : State} {v : Nat} (h : Keeps L0 s0 s) (hL : Part.sub [.win 2] L0 = true := by decide) :
    Keeps L0 s0 (State.setGood s v) := by
  refine h.trans ?_ hL
  unfold State.setGood
  repeat' with_reducible (first | apply refl | assumption | apply setF | dsimp only | decide)

theorem taiBecomesValid {s : State} (h : Keeps L0 s0 s) (hL : Part.sub [.drn, .win 2, .win 7] L0 = true := by decide) :
    Keeps L0 s0 (State.taiBecomesValid s) := by
  refine h.trans ?_ hL
  unfold State.taiBecomesValid
  repeat' with_reducible (first | apply refl | assumption | apply drnPlan | apply raiseF | dsimp only | split | decide)

theorem near {s : State} {num : Int} {den : Nat} (h : Keeps L0 s0 s) (hL : Part.sub [.draws] L0 = true := by decide) :
    Keeps L0 s0 (State.near s num den).2 := by
  refine h.trans ?_ hL
  unfold State.near
  repeat' with_reducible (first | apply refl | assumption | apply draw | dsimp only | split | decide)

theorem timeStep {s : State} {d : Int} (h : Keeps L0 s0 s) (hL : Part.sub [.dram, .ports, .drn, .sto, .tot, .time, .smp, .draws, .win 2, .win 4, .win 7, .win 8, .win 9] L0 = true := by decide) :
    Keeps L0 s0 (State.timeStep s d) := by
  refine h.trans ?_ hL
  unfold State.timeStep
  repeat' with_reducible (first | apply refl | assumption | apply airStep | apply bump | apply drnStep | refine each' ?_ _ (fun _ _ _ => ?_) | apply near | apply raiseF | apply report | apply totStep | apply tuMod | refine when' ?_ _ (fun _ _ => ?_) | dsimp only | split | decide)

theorem taiChange {s : State} {d : Int} (h : Keeps L0 s0 s) (hL : Part.sub [.dram, .ports, .drn, .sto, .tot, .time, .smp, .draws, .win 2, .win 4, .win 7, .win 8, .win 9] L0 = true := by decide) :
    Keeps L0 s0 (State.taiChange s d) := by
  refine h.trans ?_ hL
  unfold State.taiChange
  repeat' with_reducible (first | apply refl | assumption | apply timeStep | apply tuMod | dsimp only | split | decide)

theorem servoGood {s : State} {good : Nat} (h : Keeps L0 s0 s) (hL : Part.sub [.win 2] L0 = true := by decide) :
    Keeps L0 s0 (State.servoGood s good) := by
  refine h.trans ?_ hL
  unfold State.servoGood
  repeat' with_reducible (first | apply refl | assumption | apply raiseF | apply setGood | apply setQual | apply setServo | refine when' ?_ _ (fun _ _ => ?_) | dsimp only | split | decide)

theorem servoStep {s : State} {first : Bool} {th : Int} {tau : Nat} (h : Keeps L0 s0 s) (hL : Part.sub [.dram, .ports, .drn, .sto, .tot, .time, .smp, .draws, .win 2, .win 4, .win 7, .win 8, .win 9] L0 = true := by decide) :
    Keeps L0 s0 (State.servoStep s first th tau) := by
  refine h.trans ?_ hL
  unfold State.servoStep
  repeat' with_reducible (first | apply refl | assumption | apply near | apply servoGood | apply timeStep | apply tuMod | apply wrN | dsimp only | split | decide)

theorem servoSample {s : State} {th : Int} {tau : Nat} (h : Keeps L0 s0 s) (hL : Part.sub [.dram, .ports, .drn, .sto, .tot, .time, .smp, .draws, .win 2, .win 4, .win 7, .win 8, .win 9] L0 = true := by decide) :
    Keeps L0 s0 (State.servoSample s th tau) := by
  refine h.trans ?_ hL
  unfold State.servoSample
  repeat' with_reducible (first | apply refl | assumption | apply bump | apply servoStep | apply setF | apply taiBecomesValid | apply tuMod | dsimp only | decide)

theorem holdover {s : State} (h : Keeps L0 s0 s) (hL : Part.sub [.win 2] L0 = true := by decide) :
    Keeps L0 s0 (State.holdover s) := by
  refine h.trans ?_ hL
  unfold State.holdover
  repeat' with_reducible (first | apply refl | assumption | apply setQual | apply setServo | apply wrN | dsimp only | decide)

theorem pairHoldover {s : State} (h : Keeps L0 s0 s) (hL : Part.sub [.win 2] L0 = true := by decide) :
    Keeps L0 s0 (State.pairHoldover s) := by
  refine h.trans ?_ hL
  unfold State.pairHoldover
  repeat' with_reducible (first | apply refl | assumption | apply holdover | dsimp only | split | decide)

theorem servoPair {s : State} {old : Nat} (h : Keeps L0 s0 s) (hL : Part.sub [.time, .win 2] L0 = true := by decide) :
    Keeps L0 s0 (State.servoPair s old) := by
  refine h.trans ?_ hL
  unfold State.servoPair
  repeat' with_reducible (first | apply refl | assumption | apply pairHoldover | apply tuMod | dsimp only | split | decide)

theorem srcChanged {s : State} (h : Keeps L0 s0 s) (hL : Part.sub [.time, .win 2] L0 = true := by decide) :
    Keeps L0 s0 (State.srcChanged s) := by
  refine h.trans ?_ hL
  unfold State.srcChanged
  repeat' with_reducible (first | apply refl | assumption | apply pairHoldover | apply setQual | apply setServo | apply tuMod | refine when' ?_ _ (fun _ _ => ?_) | dsimp only | split | decide)

theorem taiSet {s : State} (h : Keeps L0 s0 s) (hL : Part.sub [.dram, .ports, .drn, .sto, .tot, .time, .smp, .draws, .win 2, .win 4, .win 7, .win 8, .win 9] L0 = true := by decide) :
    Keeps L0 s0 (State.taiSet s) := by
  refine h.trans ?_ hL
  unfold State.taiSet
  repeat' with_reducible (first | apply refl | assumption | apply bump | apply setQual | apply taiBecomesValid | apply taiChange | apply tuMod | dsimp only | split | decide)

theorem rtcReload {s : State} (h : Keeps L0 s0 s) (hL : Part.sub [.ao] L0 = true := by decide) :
    Keeps L0 s0 (State.rtcReload s) := by
  refine h.trans ?_ hL
  unfold State.rtcReload
  repeat' with_reducible (first | apply refl | assumption | apply aoMod | dsimp only | split | decide)

theorem txtsPush {s : State} {u w0 w1 : Nat} (h : Keeps L0 s0 s) (hL : Part.sub [.time, .win 2] L0 = true := by decide) :
    Keeps L0 s0 (State.txtsPush s u w0 w1) := by
  refine h.trans ?_ hL
  unfold State.txtsPush
  repeat' with_reducible (first | apply refl | assumption | apply bump | apply raiseBit | apply raiseF | apply tuMod | refine when' ?_ _ (fun _ _ => ?_) | dsimp only | split | decide)

theorem afeStore {s : State} {port tx rx : Nat} (h : Keeps L0 s0 s) (hL : Part.sub [.time, .win 2] L0 = true := by decide) :
    Keeps L0 s0 (State.afeStore s port tx rx) := by
  refine h.trans ?_ hL
  unfold State.afeStore
  repeat' with_reducible (first | apply refl | assumption | apply setF | apply tuMod | dsimp only | decide)

end Sys2Proof.Machine.Keeps
end

