-- ==== Sys2Proof/Laws/KPairMove.lean ====
section
/-! SUPPORT. Sys2Proof/Laws/KPairMove.lean: what each operation of Machine/PairMove.lean touches and keeps. -/

set_option Elab.async false

namespace Sys2Proof.Machine.Keeps

set_option linter.unusedTactic false
set_option linter.unreachableTactic false

variable {L0 : List Part} {s0 : State}

theorem pairMove {s : State} {new : Nat} (h : Keeps L0 s0 s) (hL : Part.sub [.time, .smp, .win 2, .win 4] L0 = true := by decide) :
    Keeps L0 s0 (State.pairMove s new) := by
  refine h.trans ?_ hL
  unfold State.pairMove
  repeat' with_reducible (first | apply refl | assumption | apply raiseF | apply report | apply servoPair | apply setF | dsimp only | split | decide)

theorem linkReset {s : State} (h : Keeps L0 s0 s) (hL : Part.sub [.pair, .win 4] L0 = true := by decide) :
    Keeps L0 s0 (State.linkReset s) := by
  refine h.trans ?_ hL
  unfold State.linkReset
  repeat' with_reducible (first | apply refl | assumption | apply pairMod | apply setF | dsimp only | decide)

theorem pairRelease {s : State} (h : Keeps L0 s0 s) (hL : Part.sub [.time, .smp, .pair, .win 2, .win 4] L0 = true := by decide) :
    Keeps L0 s0 (State.pairRelease s) := by
  refine h.trans ?_ hL
  unfold State.pairRelease
  repeat' with_reducible (first | apply refl | assumption | apply pairMod | apply pairMove | apply setF | dsimp only | decide)

theorem sendKeeper {s : State} (h : Keeps L0 s0 s) (hL : Part.sub [.pair, .out] L0 = true := by decide) :
    Keeps L0 s0 (State.sendKeeper s) := by
  refine h.trans ?_ hL
  unfold State.sendKeeper
  repeat' with_reducible (first | apply refl | assumption | refine each' ?_ _ (fun _ _ _ => ?_) | apply pairSend | dsimp only | split | decide)

theorem pairYield {s : State} (h : Keeps L0 s0 s) (hL : Part.sub [.time, .smp, .pair, .out, .win 2, .win 4] L0 = true := by decide) :
    Keeps L0 s0 (State.pairYield s) := by
  refine h.trans ?_ hL
  unfold State.pairYield
  repeat' with_reducible (first | apply refl | assumption | apply pairMod | apply pairRelease | apply pairSend | dsimp only | split | decide)

theorem pairHello {s : State} (h : Keeps L0 s0 s) (hL : Part.sub [.ports, .out, .win 16] L0 = true := by decide) :
    Keeps L0 s0 (State.pairHello s) := by
  refine h.trans ?_ hL
  unfold State.pairHello
  repeat' with_reducible (first | apply refl | assumption | apply casHello | refine each' ?_ _ (fun _ _ _ => ?_) | dsimp only | split | decide)

theorem witNeed {s : State} (h : Keeps L0 s0 s) (hL : Part.sub [.pair, .win 4] L0 = true := by decide) :
    Keeps L0 s0 (State.witNeed s) := by
  refine h.trans ?_ hL
  unfold State.witNeed
  repeat' with_reducible (first | apply refl | assumption | apply pairMod | apply raiseF | dsimp only | decide)

theorem pairActive {s : State} {reason : Nat} (h : Keeps L0 s0 s) (hL : Part.sub [.ports, .time, .ao, .smp, .pair, .out, .draws, .win 2, .win 4, .win 16] L0 = true := by decide) :
    Keeps L0 s0 (State.pairActive s reason) := by
  refine h.trans ?_ hL
  unfold State.pairActive
  repeat' with_reducible (first | apply refl | assumption | apply aoMod | apply near | apply pairHello | apply pairMod | apply pairMove | apply setF | refine when' ?_ _ (fun _ _ => ?_) | apply witNeed | dsimp only | split | decide)

theorem pairLost {s : State} (h : Keeps L0 s0 s) (hL : Part.sub [.ink, .time, .smp, .pair, .win 2, .win 4] L0 = true := by decide) :
    Keeps L0 s0 (State.pairLost s) := by
  refine h.trans ?_ hL
  unfold State.pairLost
  repeat' with_reducible (first | apply refl | assumption | apply inkMod | apply linkReset | apply pairMod | apply pairMove | apply report | apply setF | apply witNeed | dsimp only | split | refine fst (by assumption) ?_ | refine snd (by assumption) ?_ | decide)

theorem pairAbandon {s : State} (h : Keeps L0 s0 s) (hL : Part.sub [.ink, .time, .smp, .pair, .win 2, .win 4] L0 = true := by decide) :
    Keeps L0 s0 (State.pairAbandon s) := by
  refine h.trans ?_ hL
  unfold State.pairAbandon
  repeat' with_reducible (first | apply refl | assumption | apply pairLost | dsimp only | split | decide)

end Sys2Proof.Machine.Keeps
end

