-- ==== Sys2Proof/Laws/KTotaliser.lean ====
section
/-! SUPPORT. Sys2Proof/Laws/KTotaliser.lean: what each operation of Machine/Totaliser.lean touches and keeps. -/

set_option Elab.async false

namespace Sys2Proof.Machine.Keeps

set_option linter.unusedTactic false
set_option linter.unreachableTactic false

variable {L0 : List Part} {s0 : State}

theorem execMetrologySample {s : State} {v i q : List Int} {n : Int} : OutKeeps [.tot, .win 8] s (execMetrologySample v i q n s) := by
  unfold Sys2Proof.Machine.execMetrologySample
  repeat' with_reducible (first | refine OutKeeps.ok ?_ | apply refl | assumption | apply integrate | apply totMod | apply totValid | apply ok | dsimp only | split | decide)

theorem rounded {s : State} {k : Nat} {v : Int} (h : Keeps L0 s0 s) (hL : Part.sub [.draws, .win 8] L0 = true := by decide) :
    Keeps L0 s0 (State.rounded s k v) := by
  refine h.trans ?_ hL
  unfold State.rounded
  repeat' with_reducible (first | apply refl | assumption | apply draw | apply wrN | dsimp only | (apply Part.win_arr <;> decide) | decide)

theorem execMetrologyBlockPublish {s : State} {freq : Nat} : OutKeeps [.tot, .draws, .win 8] s (execMetrologyBlockPublish freq s) := by
  unfold Sys2Proof.Machine.execMetrologyBlockPublish
  repeat' with_reducible (first | refine OutKeeps.ok ?_ | apply refl | assumption | apply draw | refine each' ?_ _ (fun _ _ _ => ?_) | apply raiseF | apply rounded | apply totMod | apply wrN | apply ok | refine foldlFst ?_ _ (fun _ _ _ => ?_) | refine foldl' ?_ _ (fun _ _ _ => ?_) | dsimp only | split | (apply Part.win_arr <;> decide) | decide)

theorem modFault {s : State} {c : Nat} (h : Keeps L0 s0 s) (hL : Part.sub [.dram, .sto, .tot, .smp, .win 4, .win 8, .win 9] L0 = true := by decide) :
    Keeps L0 s0 (State.modFault s c) := by
  refine h.trans ?_ hL
  unfold State.modFault
  repeat' with_reducible (first | apply refl | assumption | apply bump | apply raiseF | apply report | apply setF | apply totEvt | apply totMod | apply totValid | dsimp only | split | decide)

theorem execModulatorFault {s : State} {c : Nat} : OutKeeps [.dram, .sto, .tot, .smp, .win 4, .win 8, .win 9] s (execModulatorFault c s) := by
  unfold Sys2Proof.Machine.execModulatorFault
  repeat' with_reducible (first | refine OutKeeps.ok ?_ | apply refl | assumption | apply modFault | apply ok | dsimp only | decide)

theorem execModulatorFaultClear {s : State} {c : Nat} : OutKeeps [.tot, .win 8] s (execModulatorFaultClear c s) := by
  unfold Sys2Proof.Machine.execModulatorFaultClear
  repeat' with_reducible (first | refine OutKeeps.ok ?_ | apply refl | assumption | apply setF | apply totMod | apply totValid | apply ok | dsimp only | split | decide)

theorem logCount {s : State} {n : Nat} (h : Keeps L0 s0 s) (hL : Part.sub [.win 8] L0 = true := by decide) :
    Keeps L0 s0 (State.logCount s n) := by
  refine h.trans ?_ hL
  unfold State.logCount
  repeat' with_reducible (first | apply refl | assumption | apply raiseF | apply setF | refine when' ?_ _ (fun _ _ => ?_) | dsimp only | decide)

theorem legalAppend {s : State} {type param old new : Nat} (h : Keeps L0 s0 s) (hL : Part.sub [.dram, .sto, .tot, .win 8, .win 9] L0 = true := by decide) :
    Keeps L0 s0 (State.legalAppend s type param old new) := by
  refine h.trans ?_ hL
  unfold State.legalAppend
  repeat' with_reducible (first | apply refl | assumption | apply legalPut | apply logCount | apply totMod | dsimp only | split | decide)

theorem sessionClose {s : State} {type : Nat} (h : Keeps L0 s0 s) (hL : Part.sub [.dram, .sto, .tot, .win 8, .win 9] L0 = true := by decide) :
    Keeps L0 s0 (State.sessionClose s type) := by
  refine h.trans ?_ hL
  unfold State.sessionClose
  repeat' with_reducible (first | apply refl | assumption | apply legalAppend | apply sessionDrop | dsimp only | split | decide)

theorem sealErr {s : State} {e : Nat} (h : Keeps L0 s0 s) (hL : Part.sub [.win 8] L0 = true := by decide) :
    Keeps L0 s0 (State.sealErr s e) := by
  refine h.trans ?_ hL
  unfold State.sealErr
  repeat' with_reducible (first | apply refl | assumption | apply setF | dsimp only | decide)

theorem tamper {s : State} (h : Keeps L0 s0 s) (hL : Part.sub [.dram, .sto, .tot, .smp, .win 4, .win 8, .win 9] L0 = true := by decide) :
    Keeps L0 s0 (State.tamper s) := by
  refine h.trans ?_ hL
  unfold State.tamper
  repeat' with_reducible (first | apply refl | assumption | apply bump | apply raiseF | apply report | apply totEvt | dsimp only | decide)

theorem execSealOpened {s : State} : OutKeeps [.dram, .sto, .tot, .ao, .smp, .win 4, .win 8, .win 9] s (execSealOpened s) := by
  unfold Sys2Proof.Machine.execSealOpened
  repeat' with_reducible (first | refine OutKeeps.ok ?_ | apply refl | assumption | apply aoMod | apply setF | apply tamper | apply ok | dsimp only | split | decide)

theorem execSealClosed {s : State} : OutKeeps [.dram, .sto, .tot, .ao, .win 8, .win 9] s (execSealClosed s) := by
  unfold Sys2Proof.Machine.execSealClosed
  repeat' with_reducible (first | refine OutKeeps.ok ?_ | apply refl | assumption | apply aoMod | apply sessionClose | apply setF | apply totEvt | apply ok | dsimp only | split | decide)

theorem execSealSpend {s : State} : OutKeeps [.dram, .sto, .tot, .hoop, .smp, .draws, .win 0, .win 4, .win 5, .win 8, .win 9] s (execSealSpend s) := by
  unfold Sys2Proof.Machine.execSealSpend
  refine onTot ?_
  split
  · exact OutKeeps.ok (bump (sealErr (refl _ _)) _)
  · rename_i he
    have hl : s.cntLeft 5 0 ≠ 0 := by
      intro h0
      apply he
      unfold State.spendErr
      repeat' split
      all_goals first | decide | contradiction
    refine OutKeeps.ok ?_
    exact (totValid (raiseF (totMod (setF (legalAppend (sealErr (unsealSpend (refl _ _) hl))) _ _ _)) _ _))

theorem execSealEnd {s : State} : OutKeeps [.dram, .sto, .tot, .draws, .win 0, .win 8, .win 9] s (execSealEnd s) := by
  unfold Sys2Proof.Machine.execSealEnd
  repeat' with_reducible (first | refine OutKeeps.ok ?_ | apply refl | assumption | apply onTot | apply sealErr | apply sessionClose | apply ok | dsimp only | split | decide)

theorem execSessionTimeout {s : State} : OutKeeps [.dram, .sto, .tot, .win 8, .win 9] s (execSessionTimeout s) := by
  unfold Sys2Proof.Machine.execSessionTimeout
  repeat' with_reducible (first | refine OutKeeps.ok ?_ | apply refl | assumption | apply sessionClose | apply ok | dsimp only | decide)

theorem execCalCommit {s : State} {fail : Bool} : OutKeeps [.dram, .sto, .tot, .smp, .draws, .win 0, .win 4, .win 8, .win 9] s (execCalCommit fail s) := by
  unfold Sys2Proof.Machine.execCalCommit
  repeat' with_reducible (first | refine OutKeeps.ok ?_ | apply refl | assumption | apply billFlag | apply fwReg | apply legalAppend | apply legalPut | apply onTot | apply sealErr | apply sync | apply totMod | apply ok | dsimp only | split | decide)

theorem execCalDataAccess {s : State} {wr : Option Nat} : OutKeeps [.tot, .smp, .busData, .draws, .win 0, .win 4, .win 8] s (execCalDataAccess wr s) := by
  unfold Sys2Proof.Machine.execCalDataAccess
  repeat' with_reducible (first | refine OutKeeps.ok ?_ | apply refl | assumption | apply answer | apply fwReg | apply onTot | apply sealErr | apply setF | apply totMod | apply wr | apply ok | dsimp only | split | refine fst (by assumption) ?_ | refine snd (by assumption) ?_ | decide)

theorem execTotEnable {s : State} : OutKeeps [.tot, .draws, .win 0, .win 8] s (execTotEnable s) := by
  unfold Sys2Proof.Machine.execTotEnable
  repeat' with_reducible (first | refine OutKeeps.ok ?_ | apply refl | assumption | apply bump | apply onTot | apply setF | apply totMod | apply totValid | apply ok | dsimp only | split | decide)

theorem execPcalLoad {s : State} {err : Bool} : OutKeeps [.dram, .sto, .tot, .draws, .win 0, .win 8, .win 9] s (execPcalLoad err s) := by
  unfold Sys2Proof.Machine.execPcalLoad
  repeat' with_reducible (first | refine OutKeeps.ok ?_ | apply refl | assumption | apply bump | apply calPut | apply onTot | apply setF | apply totEvt | apply totMod | apply ok | dsimp only | split | decide)

theorem execPcalCancel {s : State} : OutKeeps [.dram, .sto, .tot, .draws, .win 0, .win 8, .win 9] s (execPcalCancel s) := by
  unfold Sys2Proof.Machine.execPcalCancel
  repeat' with_reducible (first | refine OutKeeps.ok ?_ | apply refl | assumption | apply calPut | apply onTot | apply setF | apply totMod | apply ok | dsimp only | decide)

theorem execTaiMinuteBoundary {s : State} : OutKeeps [.dram, .sto, .tot, .draws, .win 8, .win 9] s (execTaiMinuteBoundary s) := by
  unfold Sys2Proof.Machine.execTaiMinuteBoundary
  repeat' with_reducible (first | refine OutKeeps.ok ?_ | apply refl | assumption | apply totMinute | apply ok | dsimp only | split | decide)

theorem execBillingForce {s : State} : OutKeeps [.dram, .sto, .tot, .draws, .win 0, .win 8, .win 9] s (execBillingForce s) := by
  unfold Sys2Proof.Machine.execBillingForce
  repeat' with_reducible (first | refine OutKeeps.ok ?_ | apply refl | assumption | apply billAt | apply bump | apply onTot | apply ok | dsimp only | split | decide)

theorem execStateRecordPeriodic {s : State} : OutKeeps [.dram, .sto, .tot, .win 9] s (execStateRecordPeriodic s) := by
  unfold Sys2Proof.Machine.execStateRecordPeriodic
  repeat' with_reducible (first | refine OutKeeps.ok ?_ | apply refl | assumption | apply stateRec | apply ok | dsimp only | split | decide)

theorem execBillSnap {s : State} : OutKeeps [.tot, .draws, .win 0] s (execBillSnap s) := by
  unfold Sys2Proof.Machine.execBillSnap
  repeat' with_reducible (first | refine OutKeeps.ok ?_ | apply refl | assumption | apply onTot | apply totMod | apply ok | dsimp only | split | decide)

theorem execBillDataRead {s : State} : OutKeeps [.busData, .win 8] s (execBillDataRead s) := by
  unfold Sys2Proof.Machine.execBillDataRead
  repeat' with_reducible (first | refine OutKeeps.ok ?_ | apply refl | assumption | apply answer | apply setF | apply ok | dsimp only | decide)

theorem stateLoad {s : State} {b : Bytes} (h : Keeps L0 s0 s) (hL : Part.sub [.tot, .win 8] L0 = true := by decide) :
    Keeps L0 s0 (State.stateLoad s b) := by
  refine h.trans ?_ hL
  unfold State.stateLoad
  repeat' with_reducible (first | apply refl | assumption | apply setF | apply totMod | dsimp only | decide)

theorem totRestore {s : State} (h : Keeps L0 s0 s) (hL : Part.sub [.dram, .sto, .tot, .win 8, .win 9] L0 = true := by decide) :
    Keeps L0 s0 (State.totRestore s) := by
  refine h.trans ?_ hL
  unfold State.totRestore
  repeat' with_reducible (first | apply refl | assumption | apply evtDrain | apply legalAppend | apply logCount | apply setF | apply stateLoad | apply totMod | refine when' ?_ _ (fun _ _ => ?_) | apply wrN | dsimp only | split | refine fst (by assumption) ?_ | refine snd (by assumption) ?_ | decide)

theorem execTotRestoration {s : State} : OutKeeps [.dram, .sto, .tot, .smp, .draws, .win 4, .win 8, .win 9] s (execTotRestoration s) := by
  unfold Sys2Proof.Machine.execTotRestoration
  repeat' with_reducible (first | refine OutKeeps.ok ?_ | apply refl | assumption | apply billFlag | apply billsDue | apply bump | apply calActivate | apply raiseF | apply rateSet | apply report | apply subClose | apply subOpen | apply totEvt | apply totMod | refine when' ?_ _ (fun _ _ => ?_) | apply ok | dsimp only | split | refine fst (by assumption) ?_ | refine snd (by assumption) ?_ | decide)

theorem totPrise {s : State} (h : Keeps L0 s0 s) (hL : Part.sub [.tot, .win 8] L0 = true := by decide) :
    Keeps L0 s0 (State.totPrise s) := by
  refine h.trans ?_ hL
  unfold State.totPrise
  repeat' with_reducible (first | apply refl | assumption | apply totMod | apply totValid | dsimp only | decide)

end Sys2Proof.Machine.Keeps
end

