-- ==== Sys2Proof/Laws/KBoot.lean ====
section
/-! SUPPORT. Sys2Proof/Laws/KBoot.lean: what each operation of Machine/Boot.lean touches and keeps. -/

set_option Elab.async false

namespace Sys2Proof.Machine.Keeps

set_option linter.unusedTactic false
set_option linter.unreachableTactic false

variable {L0 : List Part} {s0 : State}

theorem resetRegs_wf {r : Tbl Word} (h : Registers.wf r) (pon : Bool) : Registers.wf (resetRegs r pon) := by
  refine ⟨?_, fun e he => ?_⟩
  · have h1 := h.1
    clear h
    unfold resetRegs
    induction r with
    | nil => simp
    | cons a l ih =>
      simp only [List.map_cons, List.pairwise_cons] at h1
      rw [List.filterMap_cons]
      split
      · exact ih h1.2
      · rename_i b hb
        dsimp only at hb
        rw [Option.ite_none_left_eq_some] at hb
        obtain ⟨-, hb⟩ := hb
        cases hb
        simp only [List.map_cons, List.pairwise_cons]
        refine ⟨fun k hk => ?_, ih h1.2⟩
        obtain ⟨x, hx, rfl⟩ := List.mem_map.mp hk
        obtain ⟨y, hy, hyx⟩ := List.mem_filterMap.mp hx
        rw [Option.ite_none_left_eq_some] at hyx
        obtain ⟨-, hyx⟩ := hyx
        cases hyx
        exact h1.1 _ (List.mem_map.mpr ⟨y, hy, rfl⟩)
  · obtain ⟨y, hy, hyx⟩ := List.mem_filterMap.mp he
    rw [Option.ite_none_left_eq_some] at hyx
    obtain ⟨hne, hyx⟩ := hyx
    cases hyx
    exact hne

theorem resetTo {s : State} {pon : Bool} (h : Keeps L0 s0 s) (hL : Part.sub [.dram, .fab, .ports, .ink, .mnd, .drn, .sto, .msm, .tot, .time, .upl, .shu, .intr, .upd, .nor, .norHeld, .smp, .ladder, .pair, .pins, .win 0, .win 1, .win 2, .win 3, .win 4, .win 5, .win 6, .win 7, .win 8, .win 9, .win 10, .win 11, .win 12, .win 13, .win 14, .win 15, .win 16] L0 = true := by decide) :
    Keeps L0 s0 (State.resetTo s pon) := by
  refine h.trans ?_ hL
  unfold State.resetTo
  refine ⟨fun p hp => ?_, fun x => ?_, .of_hoop rfl⟩
  · cases p <;> first
      | rfl
      | exact absurd (by decide) hp
      | (intro k hk
         have : window k ≤ 16 := by unfold window; omega
         have : ∀ w ≤ 16, Part.win w ∈ ([.dram, .fab, .ports, .ink, .mnd, .drn, .sto, .msm, .tot, .time, .upl, .shu, .intr, .upd, .nor, .norHeld, .smp, .ladder, .pair, .pins, .win 0, .win 1, .win 2, .win 3, .win 4, .win 5, .win 6, .win 7, .win 8, .win 9, .win 10, .win 11, .win 12, .win 13, .win 14, .win 15, .win 16] : List Part) := by decide
         subst hk
         exact absurd (this _ (by assumption)) hp)
  · obtain ⟨a, b, c, d⟩ := x
    refine ⟨resetRegs_wf a pon, canon_nil _, c, ?_⟩
    cases pon
    · exact d
    · exact Nat.zero_le _

theorem pairRestart {s : State} (h : Keeps L0 s0 s) (hL : Part.sub [.time, .smp, .win 2, .win 4] L0 = true := by decide) :
    Keeps L0 s0 (State.pairRestart s) := by
  refine h.trans ?_ hL
  unfold State.pairRestart
  repeat' with_reducible (first | apply refl | assumption | apply pairMove | apply setF | dsimp only | split | decide)

theorem sealStart {s : State} (h : Keeps L0 s0 s) (hL : Part.sub [.dram, .sto, .tot, .ao, .smp, .win 4, .win 8, .win 9] L0 = true := by decide) :
    Keeps L0 s0 (State.sealStart s) := by
  refine h.trans ?_ hL
  unfold State.sealStart
  repeat' with_reducible (first | apply refl | assumption | apply aoMod | apply setF | apply tamper | refine when' ?_ _ (fun _ _ => ?_) | dsimp only | decide)

theorem rtcLoad {s : State} (h : Keeps L0 s0 s) (hL : Part.sub [.time, .win 2] L0 = true := by decide) :
    Keeps L0 s0 (State.rtcLoad s) := by
  refine h.trans ?_ hL
  unfold State.rtcLoad
  repeat' with_reducible (first | apply refl | assumption | apply setF | apply setQual | apply tuMod | dsimp only | split | decide)

theorem bootChoose {s : State} {bad : Bool} {n : Nat} (h : Keeps L0 s0 s) (hL : Part.sub [.nor] L0 = true := by decide) :
    Keeps L0 s0 (State.bootChoose s bad n).1 := by
  refine h.trans ?_ hL
  clear h hL
  fun_induction State.bootChoose s bad n <;>
  repeat' with_reducible (first | apply refl | assumption | refine trans ?_ (by assumption) (by decide) | apply slotSet | dsimp only | split | refine fst (by assumption) ?_ | refine snd (by assumption) ?_ | decide)

theorem portsPrick {s : State} (h : Keeps L0 s0 s) (hL : Part.sub [.fab, .ports, .draws, .win 16] L0 = true := by decide) :
    Keeps L0 s0 (State.portsPrick s) := by
  refine h.trans ?_ hL
  unfold State.portsPrick
  repeat' with_reducible (first | apply refl | assumption | apply build | apply draw | refine each' ?_ _ (fun _ _ _ => ?_) | apply portPersona | dsimp only | split | refine fst (by assumption) ?_ | refine snd (by assumption) ?_ | decide)

theorem nandPower {s : State} (h : Keeps L0 s0 s) (hL : Part.sub [.pins] L0 = true := by decide) :
    Keeps L0 s0 (State.nandPower s) := by
  refine h.trans ?_ hL
  unfold State.nandPower
  repeat' with_reducible (first | (apply f_pins; apply refl; decide) | apply refl | assumption | dsimp only | split | apply f_pins | decide)

theorem bootPrick {s : State} {i : Nat} (h : Keeps L0 s0 s) (hL : Part.sub [.dram, .fab, .ports, .ladder, .pins, .draws, .win 6, .win 9, .win 10, .win 11, .win 16] L0 = true := by decide) :
    Keeps L0 s0 (State.bootPrick s i) := by
  refine h.trans ?_ hL
  unfold State.bootPrick
  repeat' with_reducible (first | apply refl | assumption | refine each' ?_ _ (fun _ _ _ => ?_) | apply fieldImage | apply nandPower | apply portsPrick | apply regionBuild | dsimp only | split | refine fst (by assumption) ?_ | refine snd (by assumption) ?_ | decide)

theorem hoPrick {s : State} (h : Keeps L0 s0 s) (hL : Part.sub [.fab, .draws, .win 6, .win 9, .win 10, .win 11, .win 16] L0 = true := by decide) :
    Keeps L0 s0 (State.hoPrick s) := by
  refine h.trans ?_ hL
  unfold State.hoPrick
  repeat' with_reducible (first | apply refl | assumption | apply regionBuild | dsimp only | decide)

theorem startRecord {s : State} {cause : Nat} (h : Keeps L0 s0 s) (hL : Part.sub [.smp, .win 4] L0 = true := by decide) :
    Keeps L0 s0 (State.startRecord s cause) := by
  refine h.trans ?_ hL
  unfold State.startRecord
  repeat' with_reducible (first | apply refl | assumption | apply report | dsimp only | decide)

theorem rcvEnter {s : State} {cause : Nat} (h : Keeps L0 s0 s) (hL : Part.sub [.fab, .nor, .smp, .draws, .win 4, .win 6, .win 9, .win 10, .win 11, .win 16] L0 = true := by decide) :
    Keeps L0 s0 (State.rcvEnter s cause) := by
  refine h.trans ?_ hL
  unfold State.rcvEnter
  repeat' with_reducible (first | apply refl | assumption | apply hoPrick | apply setF | apply setRcvReq | apply startRecord | dsimp only | split | decide)

theorem hoopUp {s : State} {pon : Bool} (h : Keeps L0 s0 s) (hL : Part.sub [.dram, .sto, .tot, .hoop, .nor, .ao, .smp, .win 4, .win 5, .win 8, .win 9] L0 = true := by decide) :
    Keeps L0 s0 (State.hoopUp s pon) := by
  refine h.trans ?_ hL
  unfold State.hoopUp
  repeat' with_reducible (first | apply refl | assumption | apply hoopStart | apply sealStart | dsimp only | decide)

theorem modeCheck {s : State} {v : Option Nat} (h : Keeps L0 s0 s) (hL : Part.sub [.fab, .smp, .win 0, .win 4] L0 = true := by decide) :
    Keeps L0 s0 (State.modeCheck s v) := by
  refine h.trans ?_ hL
  unfold State.modeCheck
  repeat' with_reducible (first | apply refl | assumption | apply fabMod | apply raiseF | apply report | apply setF | dsimp only | split | refine fst (by assumption) ?_ | refine snd (by assumption) ?_ | decide)

theorem warmTo {s : State} {v : Option (Option Nat)} (h : Keeps L0 s0 s) (hL : Part.sub [.dram, .fab, .ports, .ink, .mnd, .drn, .sto, .msm, .tot, .time, .upl, .shu, .intr, .hoop, .upd, .nor, .norHeld, .ao, .smp, .ladder, .pair, .pins, .win 0, .win 1, .win 2, .win 3, .win 4, .win 5, .win 6, .win 7, .win 8, .win 9, .win 10, .win 11, .win 12, .win 13, .win 14, .win 15, .win 16] L0 = true := by decide) :
    Keeps L0 s0 (State.warmTo s v) := by
  refine h.trans ?_ hL
  unfold State.warmTo
  repeat' with_reducible (first | apply refl | assumption | apply hoopUp | apply modeCheck | apply pairRestart | apply resetTo | dsimp only | split | refine fst (by assumption) ?_ | refine snd (by assumption) ?_ | decide)

theorem boot {s : State} {cause n : Nat} {bad rcv : Bool} (h : Keeps L0 s0 s) (hL : Part.sub [.dram, .fab, .ports, .ink, .mnd, .drn, .sto, .msm, .tot, .time, .upl, .shu, .intr, .hoop, .upd, .nor, .norHeld, .ao, .smp, .ladder, .pair, .pins, .draws, .win 0, .win 1, .win 2, .win 3, .win 4, .win 5, .win 6, .win 7, .win 8, .win 9, .win 10, .win 11, .win 12, .win 13, .win 14, .win 15, .win 16] L0 = true := by decide) :
    Keeps L0 s0 (State.boot s cause bad rcv n) := by
  refine h.trans ?_ hL
  clear h hL
  fun_induction State.boot s cause bad rcv n <;>
  repeat' with_reducible (first | (apply f_upd; apply refl; decide) | apply refl | refine trans ?_ (by assumption) (by decide) | assumption | apply bootChoose | apply bootPrick | apply hoPrick | apply hoopImage | apply raiseF | apply rcvEnter | apply setF | apply slotSet | apply startRecord | apply warmTo | refine when' ?_ _ (fun _ _ => ?_) | dsimp only | split | refine fst (by assumption) ?_ | refine snd (by assumption) ?_ | apply f_upd | decide)

theorem bootStart {s : State} {cause : Nat} {bad rcv : Bool} (h : Keeps L0 s0 s) (hL : Part.sub [.dram, .fab, .ports, .ink, .mnd, .drn, .sto, .msm, .tot, .time, .upl, .shu, .intr, .hoop, .upd, .nor, .norHeld, .ao, .smp, .ladder, .pair, .pins, .draws, .win 0, .win 1, .win 2, .win 3, .win 4, .win 5, .win 6, .win 7, .win 8, .win 9, .win 10, .win 11, .win 12, .win 13, .win 14, .win 15, .win 16] L0 = true := by decide) :
    Keeps L0 s0 (State.bootStart s cause bad rcv) := by
  refine h.trans ?_ hL
  unfold State.bootStart
  repeat' with_reducible (first | (apply f_pins; apply refl; decide) | apply refl | assumption | apply boot | dsimp only | split | apply f_pins | decide)

theorem warmRestart {s : State} {cause : Nat} {bad rcv : Bool} (h : Keeps L0 s0 s) (hL : Part.sub [.dram, .fab, .ports, .ink, .mnd, .drn, .sto, .msm, .tot, .time, .upl, .shu, .intr, .hoop, .upd, .nor, .norHeld, .ao, .smp, .ladder, .pair, .pins, .draws, .win 0, .win 1, .win 2, .win 3, .win 4, .win 5, .win 6, .win 7, .win 8, .win 9, .win 10, .win 11, .win 12, .win 13, .win 14, .win 15, .win 16] L0 = true := by decide) :
    Keeps L0 s0 (State.warmRestart s cause bad rcv) := by
  refine h.trans ?_ hL
  unfold State.warmRestart
  repeat' with_reducible (first | apply refl | assumption | apply bootStart | apply warmTo | dsimp only | decide)

end Sys2Proof.Machine.Keeps
end

