-- ==== Sys2Proof/Laws/KHoop.lean ====
section
/-! SUPPORT. Sys2Proof/Laws/KHoop.lean: what each operation of Machine/Hoop.lean touches and keeps. -/

set_option Elab.async false

namespace Sys2Proof.Machine.Keeps

set_option linter.unusedTactic false
set_option linter.unreachableTactic false

variable {L0 : List Part} {s0 : State}

theorem ndlSpend {s : State} {n : Nat} (h : Keeps L0 s0 s) (hL : Part.sub [.hoop] L0 = true := by decide) :
    Keeps L0 s0 (State.ndlSpend s n) := by
  refine h.trans ?_ hL
  unfold State.ndlSpend
  repeat' with_reducible (first | apply refl | assumption | apply ndlPut | dsimp only | split | decide)

theorem ndlGo {s : State} {op slot param chk : Nat} {vault : Bool} {run : State → State × NdlOp} (h : Keeps L0 s0 s)
    (h_run : ∀ u, Keeps L0 s0 u → Keeps L0 s0 (run u).1) (hL : Part.sub [.hoop, .win 5] L0 = true := by decide) :
    Keeps L0 s0 (State.ndlGo s op slot param chk vault run) := by
  have sh : Part.sub [.hoop] L0 = true := Part.sub_trans (by decide) hL
  have sw : Part.win (window Reg.NDL_CMD) ∈ L0 := Part.sub_mem hL (by decide)
  unfold State.ndlGo
  split
  · exact h
  · have g := setF (setF (setF (setF h Reg.NDL_CMD Fld.NDL_CMD_OP op sw) Reg.NDL_CMD Fld.NDL_CMD_SLOT slot sw) Reg.NDL_CMD
      Fld.NDL_CMD_PARAM param sw) Reg.NDL_CMD Fld.NDL_CMD_BUSY 1 sw
    have key : ∀ (t : State) (code : Nat), Keeps L0 s0 t → Keeps L0 s0 (
        if code ≠ 0 then t.hoopMod (fun h => { h with op := some { op := op, slot := slot % 512, code := code } })
        else (run t).1.hoopMod (fun h => { h with op := some (run t).2 })) := by
      intro t code x
      split
      · refine hoopMod x ?_ sh
        exact ⟨rfl, rfl, rfl, rfl, rfl, rfl⟩
      · refine hoopMod (h_run _ x) ?_ sh
        exact ⟨rfl, rfl, rfl, rfl, rfl, rfl⟩
    exact key _ _ g

theorem ndlBadOp {s : State} {op slot param : Nat} (h : Keeps L0 s0 s) (hL : Part.sub [.hoop, .win 5] L0 = true := by decide) :
    Keeps L0 s0 (State.ndlBadOp s op slot param) := by
  refine h.trans ?_ hL
  unfold State.ndlBadOp
  repeat' with_reducible (first | apply refl | assumption | apply ndlGo | dsimp only | intro _ | decide)

theorem execNdlInfo {s : State} {slot : Nat} : OutKeeps [.hoop, .win 5] s (execNdlInfo slot s) := by
  unfold Sys2Proof.Machine.execNdlInfo
  repeat' with_reducible (first | refine OutKeeps.ok ?_ | apply refl | assumption | apply ndlGo | apply ok | dsimp only | intro _ | decide)

theorem execNdlGenerate {s : State} {slot : Nat} : OutKeeps [.hoop, .draws, .win 5] s (execNdlGenerate slot s) := by
  unfold Sys2Proof.Machine.execNdlGenerate
  repeat' with_reducible (first | refine OutKeeps.ok ?_ | apply refl | assumption | apply ndlGo | apply ndlPut | apply random | apply ok | dsimp only | intro _ | decide)

theorem execNdlUnwrap {s : State} {slot param : Nat} : OutKeeps [.ink, .hoop, .win 5] s (execNdlUnwrap slot param s) := by
  unfold Sys2Proof.Machine.execNdlUnwrap
  repeat' with_reducible (first | refine OutKeeps.ok ?_ | apply refl | assumption | apply kcDrop | apply ndlGo | apply ndlPut | apply ndlSpend | refine when' ?_ _ (fun _ _ => ?_) | apply ok | dsimp only | split | intro _ | decide)

theorem execNdlDestroy {s : State} {slot : Nat} {bad : Bool} : OutKeeps [.ink, .hoop, .smp, .win 4, .win 5] s (execNdlDestroy slot bad s) := by
  unfold Sys2Proof.Machine.execNdlDestroy
  repeat' with_reducible (first | refine OutKeeps.ok ?_ | apply refl | assumption | apply ndlGo | apply ndlWipe | apply ok | dsimp only | split | intro _ | decide)

theorem execNdlSign {s : State} {slot : Nat} : OutKeeps [.hoop, .win 5] s (execNdlSign slot s) := by
  unfold Sys2Proof.Machine.execNdlSign
  repeat' with_reducible (first | refine OutKeeps.ok ?_ | apply refl | assumption | apply ndlGo | apply ok | dsimp only | split | intro _ | decide)

theorem execNdlHmac {s : State} {slot : Nat} : OutKeeps [.hoop, .win 5] s (execNdlHmac slot s) := by
  unfold Sys2Proof.Machine.execNdlHmac
  repeat' with_reducible (first | refine OutKeeps.ok ?_ | apply refl | assumption | apply ndlGo | apply ndlSpend | apply ok | dsimp only | split | intro _ | decide)

theorem execNdlQuote {s : State} {param : Nat} : OutKeeps [.hoop, .win 5] s (execNdlQuote param s) := by
  unfold Sys2Proof.Machine.execNdlQuote
  repeat' with_reducible (first | refine OutKeeps.ok ?_ | apply refl | assumption | apply ndlGo | apply ndlSpend | apply ok | dsimp only | split | intro _ | decide)

theorem execNdlPubkey {s : State} {slot : Nat} : OutKeeps [.hoop, .win 5] s (execNdlPubkey slot s) := by
  unfold Sys2Proof.Machine.execNdlPubkey
  repeat' with_reducible (first | refine OutKeeps.ok ?_ | apply refl | assumption | apply ndlGo | apply ok | dsimp only | split | intro _ | decide)

theorem execNdlDecap {s : State} {slot : Nat} : OutKeeps [.hoop, .win 5] s (execNdlDecap slot s) := by
  unfold Sys2Proof.Machine.execNdlDecap
  repeat' with_reducible (first | refine OutKeeps.ok ?_ | apply refl | assumption | apply ndlGo | apply ndlPut | apply ok | dsimp only | split | intro _ | decide)

theorem ndlFail {s : State} {code : Nat} (h : Keeps L0 s0 s) (hL : Part.sub [.win 5] L0 = true := by decide) :
    Keeps L0 s0 (State.ndlFail s code) := by
  refine h.trans ?_ hL
  unfold State.ndlFail
  repeat' with_reducible (first | apply refl | assumption | apply raiseF | apply setF | dsimp only | decide)

theorem ndlOk {s : State} (h : Keeps L0 s0 s) (hL : Part.sub [.win 5] L0 = true := by decide) :
    Keeps L0 s0 (State.ndlOk s) := by
  refine h.trans ?_ hL
  unfold State.ndlOk
  repeat' with_reducible (first | apply refl | assumption | apply raiseF | apply setF | dsimp only | decide)

theorem ndlResult {s : State} {o : NdlOp} (h : Keeps L0 s0 s) (hL : Part.sub [.dram, .win 5] L0 = true := by decide) :
    Keeps L0 s0 (State.ndlResult s o) := by
  refine h.trans ?_ hL
  unfold State.ndlResult
  repeat' with_reducible (first | apply refl | assumption | refine each' ?_ _ (fun _ _ _ => ?_) | apply wrMem | apply wrN | dsimp only | split | refine fst (by assumption) ?_ | refine snd (by assumption) ?_ | (apply Part.win_arr <;> decide) | decide)

theorem execNdlOpComplete {s : State} {vaultFail bad : Bool} : OutKeeps [.dram, .ink, .hoop, .nor, .smp, .draws, .win 4, .win 5] s (execNdlOpComplete vaultFail bad s) := by
  unfold Sys2Proof.Machine.execNdlOpComplete
  repeat' with_reducible (first | refine OutKeeps.ok ?_ | apply refl | assumption | refine each' ?_ _ (fun _ _ _ => ?_) | apply hoopMod | apply ndlFail | apply ndlOk | apply ndlPut | apply ndlResult | apply ndlWipe | apply setF | apply vaultWrite | refine when' ?_ _ (fun _ _ => ?_) | apply ok | dsimp only | split | refine fst (by assumption) ?_ | refine snd (by assumption) ?_ | (refine ⟨?_, ?_, ?_, ?_, ?_, ?_⟩ <;> rfl) | decide)

theorem execVaultEraseDone {s : State} : OutKeeps [.hoop, .nor, .win 5] s (execVaultEraseDone s) := by
  unfold Sys2Proof.Machine.execVaultEraseDone
  repeat' with_reducible (first | refine OutKeeps.ok ?_ | apply refl | assumption | apply hoopMod | apply norErase | apply setF | apply ok | dsimp only | split | refine fst (by assumption) ?_ | refine snd (by assumption) ?_ | (refine ⟨?_, ?_, ?_, ?_, ?_, ?_⟩ <;> rfl) | decide)

theorem cntFail {s : State} {code : Nat} (h : Keeps L0 s0 s) (hL : Part.sub [.win 5] L0 = true := by decide) :
    Keeps L0 s0 (State.cntFail s code) := by
  refine h.trans ?_ hL
  unfold State.cntFail
  repeat' with_reducible (first | apply refl | assumption | apply raiseF | apply setF | dsimp only | decide)

theorem cntGo {s : State} {c : CntOp} {need : Nat} {valid grade : Bool} {run : State → State} (h : Keeps L0 s0 s) (h_run : ∀ u, Keeps L0 s0 u → Keeps L0 s0 (run u)) (hL : Part.sub [.hoop, .smp, .win 4, .win 5] L0 = true := by decide) :
    Keeps L0 s0 (State.cntGo s c need valid grade run) := by
  unfold State.cntGo
  repeat' with_reducible (first | apply refl | assumption | apply cntFail | apply hoopMod | apply report | apply setF | apply h_run | dsimp only | split | (apply Part.sub_mem hL; decide) | (apply Part.sub_trans ?_ hL; decide) | (refine ⟨?_, ?_, ?_, ?_, ?_, ?_⟩ <;> rfl) | decide)

theorem execCntDomainIdentity {s : State} : OutKeeps [.ink, .hoop, .nor, .smp, .win 4, .win 5] s (execCntDomainIdentity s) := by
  unfold Sys2Proof.Machine.execCntDomainIdentity
  repeat' with_reducible (first | refine OutKeeps.ok ?_ | apply refl | assumption | apply cntGo | refine each' ?_ _ (fun _ _ _ => ?_) | apply inkMod | apply ndlWipe | apply norErase | apply ok | dsimp only | intro _ | (apply Part.win_arr <;> decide) | decide)

theorem execCntRollbackFloor {s : State} {kind steps : Nat} : OutKeeps [.hoop, .smp, .win 4, .win 5] s (execCntRollbackFloor kind steps s) := by
  unfold Sys2Proof.Machine.execCntRollbackFloor
  repeat' with_reducible (first | refine OutKeeps.ok ?_ | apply refl | assumption | apply cntGo | apply ok | dsimp only | intro _ | decide)

theorem execCntPairRoleLock {s : State} {role : Nat} : OutKeeps [.hoop, .smp, .win 4, .win 5] s (execCntPairRoleLock role s) := by
  unfold Sys2Proof.Machine.execCntPairRoleLock
  repeat' with_reducible (first | refine OutKeeps.ok ?_ | apply refl | assumption | apply cntGo | apply ok | dsimp only | intro _ | decide)

theorem execCntDebugOpen {s : State} : OutKeeps [.ink, .hoop, .smp, .win 4, .win 5] s (execCntDebugOpen s) := by
  unfold Sys2Proof.Machine.execCntDebugOpen
  repeat' with_reducible (first | refine OutKeeps.ok ?_ | apply refl | assumption | apply cntGo | apply hoopMod | apply inkMod | apply ok | dsimp only | split | refine fst (by assumption) ?_ | refine snd (by assumption) ?_ | intro _ | (refine ⟨?_, ?_, ?_, ?_, ?_, ?_⟩ <;> rfl) | decide)

theorem cntProgram {s : State} {c : CntOp} {fail : Bool} (h : Keeps L0 s0 s) (hl : c.need ≤ s.cntLeft c.setting c.kind)
    (hL : Part.sub [.hoop, .win 5] L0 = true := by decide) : Keeps L0 s0 (State.cntProgram s c fail) := by
  have sub : Part.sub [.hoop] L0 = true := Part.sub_trans (by decide) hL
  have one : ∀ n, c.setting = n → n ≠ 2 → s.cntUsed n c.kind < cntLimit n := by
    intro n e ne
    subst e
    simp only [CntOp.need, if_neg ne, State.cntLeft] at hl
    omega
  unfold State.cntProgram
  split
  · rename_i e
    have := one 1 e (by decide)
    simp only [State.cntUsed, cntLimit] at this
    have g : ∀ d, Keeps L0 s0 (s.hoopMod (fun h => { h with domainUsed := h.domainUsed + 1, domainId := d })) := fun d => by
      refine hoopCount h sub (fun w => ?_) (by simp [NoLower, State.hoopMod])
      obtain ⟨a, b⟩ := w
      exact ⟨by show s.hoop.domainUsed + 1 ≤ 4; omega, b⟩
    dsimp only
    split
    · exact g _
    · exact deviceKeys (g _) (Part.sub_trans (by decide) hL)
  · rename_i e
    refine floorRaise h ?_ sub
    simpa only [CntOp.need, e, if_true] using hl
  · rename_i e
    have := one 3 e (by decide)
    simp only [State.cntUsed, cntLimit] at this
    refine hoopCount h sub (fun w => ?_) (by simp [NoLower, State.hoopMod])
    obtain ⟨a, b, c⟩ := w
    exact ⟨a, by show s.hoop.pairUsed + 1 ≤ 2; omega, c⟩
  · rename_i e
    have := one 4 e (by decide)
    simp only [State.cntUsed, cntLimit] at this
    refine hoopCount h sub (fun w => ?_) (by simp [NoLower, State.hoopMod])
    obtain ⟨a, b, c, d⟩ := w
    exact ⟨a, b, by show s.hoop.debugUsed + 1 ≤ 3; omega, d⟩
  · exact h

theorem execCntChangeDone {s : State} {fail : Bool} : OutKeeps [.dram, .sto, .hoop, .smp, .win 4, .win 5, .win 9] s (execCntChangeDone fail s) := by
  unfold Sys2Proof.Machine.execCntChangeDone
  split
  · exact OutKeeps.ok (refl _ _)
  · rename_i c _
    dsimp only
    have g : Keeps [.dram, .sto, .hoop, .smp, .win 4, .win 5, .win 9] s ((s.hoopMod (fun h => { h with cnt := none })).setF Reg.NDL_CNT_CMD Fld.NDL_CNT_CMD_BUSY 0) :=
      setF (hoopMod (refl _ _)) _ _ _
    split
    · exact OutKeeps.ok (cntFail g)
    · rename_i hl
      have g := cntProgram (fail := fail) g (Nat.le_of_not_lt hl : c.need ≤ _)
      split
      · exact OutKeeps.ok (cntFail (report (chgAppend g) _ _ _ _))
      · exact OutKeeps.ok (raiseF (setF (raiseF (cntLog g) _ _) _ _ _) _ _)

theorem chgRecover {s : State} {setting kind : Nat} (h : Keeps L0 s0 s) (hL : Part.sub [.dram, .sto, .win 5, .win 9] L0 = true := by decide) :
    Keeps L0 s0 (State.chgRecover s setting kind) := by
  refine h.trans ?_ hL
  unfold State.chgRecover
  repeat' with_reducible (first | apply refl | assumption | apply chgAppend | refine each' ?_ _ (fun _ _ _ => ?_) | dsimp only | split | decide)

theorem execChangeLogReconcile {s : State} : OutKeeps [.dram, .sto, .win 5, .win 9] s (execChangeLogReconcile s) := by
  unfold Sys2Proof.Machine.execChangeLogReconcile
  repeat' with_reducible (first | refine OutKeeps.ok ?_ | apply refl | assumption | apply chgRecover | refine each' ?_ _ (fun _ _ _ => ?_) | apply setF | apply ok | dsimp only | split | decide)

end Sys2Proof.Machine.Keeps
end

