-- ==== Sys2Proof/Laws/KIntake.lean ====
section
/-! SUPPORT. Sys2Proof/Laws/KIntake.lean: what each operation of Machine/Intake.lean touches and keeps. -/

set_option Elab.async false

namespace Sys2Proof.Machine.Keeps

set_option linter.unusedTactic false
set_option linter.unreachableTactic false

variable {L0 : List Part} {s0 : State}

theorem takePort {s : State} {n : Nat} (h : Keeps L0 s0 s) (hL : Part.sub [.dram, .fab, .ports, .ink, .time, .intr, .ao, .smp, .ladder, .out, .win 0, .win 4, .win 6, .win 11, .win 16] L0 = true := by decide) :
    Keeps L0 s0 (State.takePort s n).1 := by
  refine h.trans ?_ hL
  unfold State.takePort
  repeat' with_reducible (first | apply refl | assumption | apply packetIn | apply ptrCheck | apply rxPop | dsimp only | split | refine fst (by assumption) ?_ | refine snd (by assumption) ?_ | decide)

theorem takeIng {s : State} {q : Nat} (h : Keeps L0 s0 s) (hL : Part.sub [.ink] L0 = true := by decide) :
    Keeps L0 s0 (State.takeIng s q).1 := by
  refine h.trans ?_ hL
  unfold State.takeIng
  repeat' with_reducible (first | apply refl | assumption | apply inkMod | dsimp only | split | refine fst (by assumption) ?_ | refine snd (by assumption) ?_ | decide)

theorem ringPass {s : State} {n k : Nat} (h : Keeps L0 s0 s) (hL : Part.sub [.dram, .fab, .ports, .ink, .time, .intr, .ao, .smp, .ladder, .out, .win 0, .win 4, .win 6, .win 11, .win 16] L0 = true := by decide) :
    Keeps L0 s0 (State.ringPass s n k) := by
  refine h.trans ?_ hL
  clear h hL
  fun_induction State.ringPass s n k <;>
  repeat' with_reducible (first | apply refl | assumption | refine trans ?_ (by assumption) (by decide) | apply takePort | dsimp only | split | refine fst (by assumption) ?_ | refine snd (by assumption) ?_ | decide)

theorem ringPassAll {s : State} (h : Keeps L0 s0 s) (hL : Part.sub [.dram, .fab, .ports, .ink, .time, .intr, .ao, .smp, .ladder, .out, .win 0, .win 4, .win 6, .win 11, .win 16] L0 = true := by decide) :
    Keeps L0 s0 (State.ringPassAll s) := by
  refine h.trans ?_ hL
  unfold State.ringPassAll
  repeat' with_reducible (first | apply refl | assumption | refine each' ?_ _ (fun _ _ _ => ?_) | apply ringPass | dsimp only | decide)

theorem frameKey {s : State} {f : IFrame} (h : Keeps L0 s0 s) (hL : Part.sub [.ink, .win 6] L0 = true := by decide) :
    Keeps L0 s0 (State.frameKey s f).1 := by
  refine h.trans ?_ hL
  unfold State.frameKey
  repeat' with_reducible (first | apply refl | assumption | apply keyAsk | dsimp only | split | refine fst (by assumption) ?_ | refine snd (by assumption) ?_ | decide)

theorem laneTake {s : State} {l : Nat} {f : IFrame} (h : Keeps L0 s0 s) (hL : Part.sub [.ink, .win 6] L0 = true := by decide) :
    Keeps L0 s0 (State.laneTake s l f) := by
  refine h.trans ?_ hL
  unfold State.laneTake
  repeat' with_reducible (first | apply refl | assumption | apply frameKey | apply setLane | dsimp only | decide)

theorem holdPut {s t : State} {j : LaneJob} {old : Bool} (hs : Keeps L0 s0 s) (ht : Keeps L0 s0 t)
    (hL : Part.sub [.ink] L0 = true := by decide) : Keeps L0 s0 (State.holdPut s t j old) := by
  unfold State.holdPut
  split
  · exact hs
  · exact inkMod ht hL

theorem grantFrame {s t : State} {l : Nat} {f : IFrame} {err : Bool} {old : Option LaneJob} (hs : Keeps L0 s0 s)
    (ht : Keeps L0 s0 t) (hL : Part.sub [.ink, .win 6] L0 = true := by decide) : Keeps L0 s0 (State.grantFrame s t l f err old) := by
  unfold State.grantFrame
  dsimp only
  split
  · exact laneTake ht hL
  · split
    · exact holdPut hs ht (Part.sub_trans (by decide) hL)
    · exact laneTake ht hL

theorem protKey {s : State} {n g : Nat} (h : Keeps L0 s0 s) (hL : Part.sub [.ink, .win 6] L0 = true := by decide) :
    Keeps L0 s0 (State.protKey s n g).1 := by
  refine h.trans ?_ hL
  unfold State.protKey
  repeat' with_reducible (first | apply refl | assumption | apply keyAsk | dsimp only | split | refine fst (by assumption) ?_ | refine snd (by assumption) ?_ | decide)

theorem grantProt {s t : State} {l i : Nat} {d : Bytes} {old : Option LaneJob} (hs : Keeps L0 s0 s) (ht : Keeps L0 s0 t)
    (hL : Part.sub [.ink, .win 6] L0 = true := by decide) : Keeps L0 s0 (State.grantProt s t l i d old) := by
  unfold State.grantProt
  dsimp only
  split
  · exact holdPut hs ht (Part.sub_trans (by decide) hL)
  · exact setLane (protKey ht (Part.sub_trans (by decide) hL)) (Part.sub_trans (by decide) hL)

theorem grantProtect {s : State} {l i : Nat} (h : Keeps L0 s0 s) (hL : Part.sub [.ink, .win 6] L0 = true := by decide) :
    Keeps L0 s0 (State.grantProtect s l i) := by
  refine h.trans ?_ hL
  unfold State.grantProtect
  repeat' with_reducible (first | apply refl | assumption | apply grantProt | apply inkMod | apply setF | dsimp only | decide)

theorem grantBack {s : State} {l : Nat} {j : LaneJob} {err : Bool} (h : Keeps L0 s0 s) (hL : Part.sub [.ink, .win 6] L0 = true := by decide) :
    Keeps L0 s0 (State.grantBack s l j err) := by
  refine h.trans ?_ hL
  unfold State.grantBack
  repeat' with_reducible (first | apply refl | assumption | apply grantFrame | apply grantProt | apply inkMod | dsimp only | split | refine fst (by assumption) ?_ | refine snd (by assumption) ?_ | decide)

theorem grantPort {s : State} {l : Nat} {err : Bool} (h : Keeps L0 s0 s) (hL : Part.sub [.dram, .fab, .ports, .ink, .time, .intr, .ao, .smp, .ladder, .out, .win 0, .win 4, .win 6, .win 11, .win 16] L0 = true := by decide) :
    Keeps L0 s0 (State.grantPort s l err) := by
  refine h.trans ?_ hL
  unfold State.grantPort
  repeat' with_reducible (first | apply refl | assumption | apply grantBack | apply grantFrame | apply grantProtect | apply inkMod | apply takePort | dsimp only | split | refine fst (by assumption) ?_ | refine snd (by assumption) ?_ | decide)

theorem grantIng {s : State} {l : Nat} {err : Bool} (h : Keeps L0 s0 s) (hL : Part.sub [.dram, .fab, .ports, .ink, .time, .intr, .ao, .smp, .ladder, .out, .win 0, .win 4, .win 6, .win 11, .win 16] L0 = true := by decide) :
    Keeps L0 s0 (State.grantIng s l err) := by
  refine h.trans ?_ hL
  unfold State.grantIng
  repeat' with_reducible (first | apply refl | assumption | apply grantBack | apply grantFrame | apply inkMod | apply takeIng | apply takePort | dsimp only | split | refine fst (by assumption) ?_ | refine snd (by assumption) ?_ | decide)

theorem execIntakeGrant {s : State} {l : Nat} {err : Bool} : OutKeeps [.dram, .fab, .ports, .ink, .time, .intr, .ao, .smp, .ladder, .out, .win 0, .win 4, .win 6, .win 11, .win 16] s (execIntakeGrant l err s) := by
  unfold Sys2Proof.Machine.execIntakeGrant
  repeat' with_reducible (first | refine OutKeeps.ok ?_ | apply refl | assumption | apply grantIng | apply grantPort | apply ringPassAll | apply ok | dsimp only | split | decide)

theorem execKeyDeriveDone {s : State} : OutKeeps [.ink] s (execKeyDeriveDone s) := by
  unfold Sys2Proof.Machine.execKeyDeriveDone
  repeat' with_reducible (first | refine OutKeeps.ok ?_ | apply refl | assumption | apply inkMod | apply ok | dsimp only | split | refine fst (by assumption) ?_ | refine snd (by assumption) ?_ | decide)

theorem result {s : State} {f : IFrame} {res code : Nat} (h : Keeps L0 s0 s) (hL : Part.sub [.ports, .upl] L0 = true := by decide) :
    Keeps L0 s0 (State.result s f res code) := by
  refine h.trans ?_ hL
  unfold State.result
  repeat' with_reducible (first | (apply f_upl; apply refl; decide) | apply refl | assumption | apply casResult | dsimp only | split | refine fst (by assumption) ?_ | refine snd (by assumption) ?_ | apply f_upl | decide)

theorem rejNote {s : State} {n code : Nat} (h : Keeps L0 s0 s) (hL : Part.sub [.dram] L0 = true := by decide) :
    Keeps L0 s0 (State.rejNote s n code) := by
  refine h.trans ?_ hL
  unfold State.rejNote
  repeat' with_reducible (first | apply refl | assumption | apply wrMem | dsimp only | decide)

theorem rejCopy {s : State} {f : IFrame} {code : Nat} (h : Keeps L0 s0 s) (hL : Part.sub [.ink, .win 6] L0 = true := by decide) :
    Keeps L0 s0 (State.rejCopy s f code) := by
  refine h.trans ?_ hL
  unfold State.rejCopy
  repeat' with_reducible (first | apply refl | assumption | apply fwPush | dsimp only | split | decide)

theorem slotFree {s : State} {n : Option Nat} (h : Keeps L0 s0 s) (hL : Part.sub [.dram, .ink, .sto, .msm, .pair, .out] L0 = true := by decide) :
    Keeps L0 s0 (State.slotFree s n) := by
  refine h.trans ?_ hL
  unfold State.slotFree
  repeat' with_reducible (first | apply refl | assumption | apply releaseHold | apply slotExec | dsimp only | split | refine fst (by assumption) ?_ | refine snd (by assumption) ?_ | decide)

theorem reject {s : State} {l code : Nat} {f : IFrame} (h : Keeps L0 s0 s) (hL : Part.sub [.dram, .ports, .ink, .sto, .msm, .upl, .smp, .pair, .out, .win 4, .win 6] L0 = true := by decide) :
    Keeps L0 s0 (State.reject s l f code) := by
  refine h.trans ?_ hL
  unfold State.reject
  repeat' with_reducible (first | apply refl | assumption | apply bump | apply rejCopy | apply rejNote | apply report | apply result | apply slotFree | refine when' ?_ _ (fun _ _ => ?_) | dsimp only | split | refine fst (by assumption) ?_ | refine snd (by assumption) ?_ | (apply Part.win_arr <;> decide) | decide)

theorem prevClear {s : State} {n : Nat} (h : Keeps L0 s0 s) (hL : Part.sub [.msm] L0 = true := by decide) :
    Keeps L0 s0 (State.prevClear s n) := by
  refine h.trans ?_ hL
  unfold State.prevClear
  repeat' with_reducible (first | apply refl | assumption | apply msmPut | dsimp only | split | decide)

theorem verified {s : State} {f : IFrame} {n g : Nat} {pt : Bytes} (h : Keeps L0 s0 s) (hL : Part.sub [.ink, .win 6] L0 = true := by decide) :
    Keeps L0 s0 (State.verified s f n g pt) := by
  refine h.trans ?_ hL
  unfold State.verified
  repeat' with_reducible (first | apply refl | assumption | apply fwPush | apply inkMod | dsimp only | split | decide)

theorem framePass {s : State} {l : Nat} {f : IFrame} {rest : List LaneJob} (h : Keeps L0 s0 s) (hL : Part.sub [.dram, .ports, .ink, .sto, .msm, .upl, .smp, .pair, .out, .win 4, .win 6] L0 = true := by decide) :
    Keeps L0 s0 (State.framePass s l f rest) := by
  refine h.trans ?_ hL
  unfold State.framePass
  repeat' with_reducible (first | apply refl | assumption | apply frameKey | apply prevClear | apply reject | apply setLane | apply verified | dsimp only | split | refine fst (by assumption) ?_ | refine snd (by assumption) ?_ | decide)

theorem protDone {s : State} {i st ol c : Nat} {d : Bytes} (h : Keeps L0 s0 s) (hL : Part.sub [.dram, .ink] L0 = true := by decide) :
    Keeps L0 s0 (State.protDone s i d st ol c) := by
  refine h.trans ?_ hL
  unfold State.protDone
  repeat' with_reducible (first | apply refl | assumption | apply inkMod | refine when' ?_ _ (fun _ _ => ?_) | apply wrMem | dsimp only | split | decide)

theorem protectPass {s : State} {i : Nat} {d : Bytes} {k : Option Bytes} {err : Bool} (h : Keeps L0 s0 s) (hL : Part.sub [.dram, .ink, .msm, .win 6] L0 = true := by decide) :
    Keeps L0 s0 (State.protectPass s i d k err) := by
  refine h.trans ?_ hL
  unfold State.protectPass
  repeat' with_reducible (first | apply refl | assumption | apply bump | apply msmPut | apply protDone | apply wrMem | dsimp only | split | refine fst (by assumption) ?_ | refine snd (by assumption) ?_ | decide)

theorem execLanePassDone {s : State} {l : Nat} {err : Bool} : OutKeeps [.dram, .ports, .ink, .sto, .msm, .upl, .smp, .pair, .out, .win 4, .win 6] s (execLanePassDone l err s) := by
  unfold Sys2Proof.Machine.execLanePassDone
  repeat' with_reducible (first | refine OutKeeps.ok ?_ | apply refl | assumption | apply frameKey | apply framePass | apply protKey | apply protectPass | apply setLane | apply slotFree | apply ok | dsimp only | split | refine fst (by assumption) ?_ | refine snd (by assumption) ?_ | decide)

theorem staged2 {s : State} {n : Nat} (h : Keeps L0 s0 s) (hL : Part.sub [.ink, .pair, .out] L0 = true := by decide) :
    Keeps L0 s0 (State.staged2 s n) := by
  refine h.trans ?_ hL
  unfold State.staged2
  repeat' with_reducible (first | apply refl | assumption | apply inkMod | apply mirror | dsimp only | split | refine fst (by assumption) ?_ | refine snd (by assumption) ?_ | decide)

theorem execFwRingWrite {s : State} : OutKeeps [.dram, .ink, .pair, .out, .win 6] s (execFwRingWrite s) := by
  unfold Sys2Proof.Machine.execFwRingWrite
  repeat' with_reducible (first | refine OutKeeps.ok ?_ | apply refl | assumption | apply bump | apply fwStall | apply inkMod | apply setF | apply staged2 | refine when' ?_ _ (fun _ _ => ?_) | apply wrMem | apply ok | dsimp only | split | refine fst (by assumption) ?_ | refine snd (by assumption) ?_ | decide)

theorem execFrameCommit {s : State} {slot : Nat} : OutKeeps [.dram, .ports, .ink, .sto, .msm, .upl, .pair, .out, .win 6] s (execFrameCommit slot s) := by
  unfold Sys2Proof.Machine.execFrameCommit
  repeat' with_reducible (first | refine OutKeeps.ok ?_ | apply refl | assumption | apply bump | apply counterUpdate | apply inkMod | apply jour | apply result | apply slotFree | apply staged2 | refine when' ?_ _ (fun _ _ => ?_) | apply ok | dsimp only | split | refine fst (by assumption) ?_ | refine snd (by assumption) ?_ | decide)

theorem slotGo {s : State} {op slot : Nat} {err : Bool} (h : Keeps L0 s0 s) (hL : Part.sub [.dram, .ink, .sto, .msm, .pair, .out, .win 6] L0 = true := by decide) :
    Keeps L0 s0 (State.slotGo s op slot err) := by
  refine h.trans ?_ hL
  unfold State.slotGo
  repeat' with_reducible (first | apply refl | assumption | apply inkMod | apply raiseF | apply setF | apply slotExec | dsimp only | split | decide)

theorem execSlotRead {s : State} {slot : Nat} {err : Bool} : OutKeeps [.dram, .ink, .sto, .msm, .pair, .out, .win 6] s (execSlotRead slot err s) := by
  unfold Sys2Proof.Machine.execSlotRead
  repeat' with_reducible (first | refine OutKeeps.ok ?_ | apply refl | assumption | apply slotGo | apply ok | dsimp only | decide)

theorem execSlotWrite {s : State} {slot : Nat} {err : Bool} : OutKeeps [.dram, .ink, .sto, .msm, .pair, .out, .win 6] s (execSlotWrite slot err s) := by
  unfold Sys2Proof.Machine.execSlotWrite
  repeat' with_reducible (first | refine OutKeeps.ok ?_ | apply refl | assumption | apply slotGo | apply ok | dsimp only | decide)

theorem execSlotWriteCtr {s : State} {slot : Nat} {err : Bool} : OutKeeps [.dram, .ink, .sto, .msm, .pair, .out, .win 6] s (execSlotWriteCtr slot err s) := by
  unfold Sys2Proof.Machine.execSlotWriteCtr
  repeat' with_reducible (first | refine OutKeeps.ok ?_ | apply refl | assumption | apply slotGo | apply ok | dsimp only | decide)

theorem execSlotRoll {s : State} {slot : Nat} {err : Bool} : OutKeeps [.dram, .ink, .sto, .msm, .pair, .out, .win 6] s (execSlotRoll slot err s) := by
  unfold Sys2Proof.Machine.execSlotRoll
  repeat' with_reducible (first | refine OutKeeps.ok ?_ | apply refl | assumption | apply slotGo | apply ok | dsimp only | decide)

theorem execSlotClear {s : State} {slot : Nat} {err : Bool} : OutKeeps [.dram, .ink, .sto, .msm, .pair, .out, .win 6] s (execSlotClear slot err s) := by
  unfold Sys2Proof.Machine.execSlotClear
  repeat' with_reducible (first | refine OutKeeps.ok ?_ | apply refl | assumption | apply slotGo | apply ok | dsimp only | decide)

theorem slotDataPut {s : State} {e : Bytes} (h : Keeps L0 s0 s) (hL : Part.sub [.win 6] L0 = true := by decide) :
    Keeps L0 s0 (State.slotDataPut s e) := by
  refine h.trans ?_ hL
  unfold State.slotDataPut
  repeat' with_reducible (first | apply refl | assumption | refine each' ?_ _ (fun _ _ _ => ?_) | apply wrN | dsimp only | (apply Part.win_arr <;> decide) | decide)

theorem execSlotOpComplete {s : State} : OutKeeps [.dram, .ink, .sto, .msm, .pair, .out, .win 6] s (execSlotOpComplete s) := by
  unfold Sys2Proof.Machine.execSlotOpComplete
  repeat' with_reducible (first | refine OutKeeps.ok ?_ | apply refl | assumption | apply inkMod | apply releaseHold | apply setF | apply slotDataPut | apply slotExec | refine when' ?_ _ (fun _ _ => ?_) | apply ok | dsimp only | split | refine fst (by assumption) ?_ | refine snd (by assumption) ?_ | decide)

theorem inkEnable {s : State} (h : Keeps L0 s0 s) (hL : Part.sub [.ink, .win 6] L0 = true := by decide) :
    Keeps L0 s0 (State.inkEnable s) := by
  refine h.trans ?_ hL
  unfold State.inkEnable
  repeat' with_reducible (first | apply refl | assumption | apply inkMod | apply raiseF | apply setF | dsimp only | split | decide)

theorem execIntakeEnable {s : State} : OutKeeps [.ink, .win 6] s (execIntakeEnable s) := by
  unfold Sys2Proof.Machine.execIntakeEnable
  repeat' with_reducible (first | refine OutKeeps.ok ?_ | apply refl | assumption | apply inkEnable | apply ok | dsimp only | decide)

theorem execIntakeDisable {s : State} : OutKeeps [.win 6] s (execIntakeDisable s) := by
  unfold Sys2Proof.Machine.execIntakeDisable
  repeat' with_reducible (first | refine OutKeeps.ok ?_ | apply refl | assumption | apply setF | apply ok | dsimp only | decide)

theorem execTableRebuildDone {s : State} : OutKeeps [.dram, .ink, .smp, .win 4] s (execTableRebuildDone s) := by
  unfold Sys2Proof.Machine.execTableRebuildDone
  repeat' with_reducible (first | refine OutKeeps.ok ?_ | apply refl | assumption | apply inkMod | apply rebuild | apply ok | dsimp only | split | decide)

theorem execKeyCacheFlush {s : State} : OutKeeps [.ink, .win 6] s (execKeyCacheFlush s) := by
  unfold Sys2Proof.Machine.execKeyCacheFlush
  repeat' with_reducible (first | refine OutKeeps.ok ?_ | apply refl | assumption | apply inkMod | apply lanesBare | apply raiseF | apply ok | dsimp only | decide)

theorem execKeyCacheFlushDone {s : State} : OutKeeps [.win 6] s (execKeyCacheFlushDone s) := by
  unfold Sys2Proof.Machine.execKeyCacheFlushDone
  repeat' with_reducible (first | refine OutKeeps.ok ?_ | apply refl | assumption | apply setF | apply ok | dsimp only | decide)

end Sys2Proof.Machine.Keeps
end

