-- ==== Sys2Proof/Laws/KSamplerCore.lean ====
section
/-! SUPPORT. Sys2Proof/Laws/KSamplerCore.lean: what each operation of Machine/SamplerCore.lean touches and keeps. -/

set_option Elab.async false

namespace Sys2Proof.Machine.Keeps

set_option linter.unusedTactic false
set_option linter.unreachableTactic false

variable {L0 : List Part} {s0 : State}

theorem smpMod {s : State} {f : SmpState → SmpState} (h : Keeps L0 s0 s)
    (hf : (f s.smp).fifo.length ≤ max 256 s.smp.fifo.length := by first | exact Nat.le_max_right _ _ | exact Nat.zero_le _ | simp)
    (hL : Part.sub [.smp] L0 = true := by decide) : Keeps L0 s0 (State.smpMod s f) := by
  unfold State.smpMod
  refine ⟨fun p hp => (h.only p hp).trans ?_, fun w => ?_, h.low.trans (.of_hoop rfl)⟩
  · cases p <;> first | rfl | exact absurd (Part.sub_mem hL (by decide)) hp | exact fun _ _ => rfl
  · obtain ⟨a, b, c, d⟩ := h.wf w
    refine ⟨a, b, c, ?_⟩
    simp only [SmpState.fifoOk] at d ⊢
    omega

theorem smpPut {s : State} {i : Nat} {r : SmpRec} (h : Keeps L0 s0 s) (hL : Part.sub [.smp] L0 = true := by decide) :
    Keeps L0 s0 (State.smpPut s i r) := by
  refine h.trans ?_ hL
  unfold State.smpPut
  repeat' with_reducible (first | apply refl | assumption | apply smpMod | dsimp only | apply Nat.le_max_right | apply Nat.zero_le | (simp [*]; done) | (simp [*]; omega) | decide)

theorem smpFull {s : State} (h : Keeps L0 s0 s) (hL : Part.sub [.win 4] L0 = true := by decide) :
    Keeps L0 s0 (State.smpFull s) := by
  refine h.trans ?_ hL
  unfold State.smpFull
  repeat' with_reducible (first | apply refl | assumption | apply raiseF | apply setF | dsimp only | split | decide)

theorem smpMirror {s : State} {i : Nat} (h : Keeps L0 s0 s) (hL : Part.sub [.pair, .out] L0 = true := by decide) :
    Keeps L0 s0 (State.smpMirror s i) := by
  refine h.trans ?_ hL
  unfold State.smpMirror
  repeat' with_reducible (first | apply refl | assumption | apply mirror | dsimp only | decide)

theorem smpNew {s : State} {e : SmpEntry} (h : Keeps L0 s0 s) (hL : Part.sub [.ao, .smp, .pair, .out, .win 4] L0 = true := by decide) :
    Keeps L0 s0 (State.smpNew s e) := by
  refine h.trans ?_ hL
  unfold State.smpNew
  repeat' with_reducible (first | apply refl | assumption | apply aoMod | apply bump | apply smpFull | apply smpMirror | apply smpMod | apply smpPut | refine when' ?_ _ (fun _ _ => ?_) | dsimp only | split | refine fst (by assumption) ?_ | refine snd (by assumption) ?_ | apply Nat.le_max_right | apply Nat.zero_le | (simp [*]; done) | (simp [*]; omega) | decide)

theorem smpTake {s : State} {e : SmpEntry} (h : Keeps L0 s0 s) (hL : Part.sub [.ao, .smp, .pair, .out, .win 4] L0 = true := by decide) :
    Keeps L0 s0 (State.smpTake s e) := by
  refine h.trans ?_ hL
  unfold State.smpTake
  repeat' with_reducible (first | apply refl | assumption | apply bump | apply raiseF | apply smpMirror | apply smpMod | apply smpNew | apply smpPut | refine when' ?_ _ (fun _ _ => ?_) | dsimp only | split | refine fst (by assumption) ?_ | refine snd (by assumption) ?_ | apply Nat.le_max_right | apply Nat.zero_le | (simp [*]; done) | (simp [*]; omega) | (apply Part.win_arr <;> decide) | decide)

theorem mirrorWrite {s : State} {n : Nat} (h : Keeps L0 s0 s) (hL : Part.sub [.dram, .sto, .win 4, .win 9] L0 = true := by decide) :
    Keeps L0 s0 (State.mirrorWrite s n) := by
  refine h.trans ?_ hL
  clear h hL
  fun_induction State.mirrorWrite s n <;>
  repeat' with_reducible (first | apply refl | assumption | refine trans ?_ (by assumption) (by decide) | apply storePut | apply wrN | dsimp only | split | refine fst (by assumption) ?_ | refine snd (by assumption) ?_ | decide)

theorem mirrorFlush {s : State} (h : Keeps L0 s0 s) (hL : Part.sub [.dram, .sto, .smp, .win 4, .win 9] L0 = true := by decide) :
    Keeps L0 s0 (State.mirrorFlush s) := by
  refine h.trans ?_ hL
  unfold State.mirrorFlush
  repeat' with_reducible (first | apply refl | assumption | apply mirrorWrite | apply smpMod | apply storePut | refine when' ?_ _ (fun _ _ => ?_) | dsimp only | split | apply Nat.le_max_right | apply Nat.zero_le | (simp [*]; done) | (simp [*]; omega) | decide)

theorem smpRestore {s : State} (h : Keeps L0 s0 s) (hL : Part.sub [.ao, .smp, .draws, .win 4] L0 = true := by decide) :
    Keeps L0 s0 (State.smpRestore s) := by
  refine h.trans ?_ hL
  unfold State.smpRestore
  repeat' with_reducible (first | apply refl | assumption | apply aoMod | apply draw | apply setF | apply smpMod | apply wrN | refine foldlFst ?_ _ (fun _ _ _ => ?_) | refine foldl' ?_ _ (fun _ _ _ => ?_) | dsimp only | split | refine fst (by assumption) ?_ | refine snd (by assumption) ?_ | apply Nat.le_max_right | apply Nat.zero_le | (simp [*]; done) | (simp [*]; omega) | decide)

end Sys2Proof.Machine.Keeps
end

