-- ==== Sys2Proof/Laws/KSampler.lean ====
section
/-! SUPPORT. Sys2Proof/Laws/KSampler.lean: what each operation of Machine/Sampler.lean touches and keeps. -/

set_option Elab.async false

namespace Sys2Proof.Machine.Keeps

set_option linter.unusedTactic false
set_option linter.unreachableTactic false

variable {L0 : List Part} {s0 : State}

theorem execSamplerFifoTake {s : State} : OutKeeps [.ao, .smp, .pair, .out, .win 4] s (execSamplerFifoTake s) := by
  unfold Sys2Proof.Machine.execSamplerFifoTake
  repeat' with_reducible (first | refine OutKeeps.ok ?_ | apply refl | assumption | apply smpMod | apply smpTake | apply ok | dsimp only | split | refine fst (by assumption) ?_ | refine snd (by assumption) ?_ | apply Nat.le_max_right | apply Nat.zero_le | (simp [*]; done) | (simp [*]; omega) | decide)

theorem execSamplerLostSynth {s : State} : OutKeeps [.smp, .win 4] s (execSamplerLostSynth s) := by
  unfold Sys2Proof.Machine.execSamplerLostSynth
  repeat' with_reducible (first | refine OutKeeps.ok ?_ | apply refl | assumption | apply raiseF | apply smpMod | apply ok | dsimp only | split | apply Nat.le_max_right | apply Nat.zero_le | (simp [*]; done) | (simp [*]; omega) | decide)

theorem execMirrorUnitWrite {s : State} : OutKeeps [.dram, .sto, .smp, .win 4, .win 9] s (execMirrorUnitWrite s) := by
  unfold Sys2Proof.Machine.execMirrorUnitWrite
  repeat' with_reducible (first | refine OutKeeps.ok ?_ | apply refl | assumption | apply mirrorFlush | apply ok | dsimp only | split | decide)

theorem execSamplerClear {s : State} : OutKeeps [.smp, .win 4] s (execSamplerClear s) := by
  unfold Sys2Proof.Machine.execSamplerClear
  repeat' with_reducible (first | refine OutKeeps.ok ?_ | apply refl | assumption | apply bumpN | apply setF | apply smpMod | apply ok | dsimp only | split | apply Nat.le_max_right | apply Nat.zero_le | (simp [*]; done) | (simp [*]; omega) | decide)

theorem execSamplerRdSel {s : State} {slot w : Nat} : OutKeeps [.smp, .win 4] s (execSamplerRdSel slot w s) := by
  unfold Sys2Proof.Machine.execSamplerRdSel
  repeat' with_reducible (first | refine OutKeeps.ok ?_ | apply refl | assumption | apply setF | apply smpMod | apply ok | dsimp only | apply Nat.le_max_right | apply Nat.zero_le | (simp [*]; done) | (simp [*]; omega) | decide)

theorem execSamplerRdData {s : State} : OutKeeps [.busData, .win 4] s (execSamplerRdData s) := by
  unfold Sys2Proof.Machine.execSamplerRdData
  repeat' with_reducible (first | refine OutKeeps.ok ?_ | apply refl | assumption | apply answer | apply setF | apply ok | dsimp only | decide)

end Sys2Proof.Machine.Keeps
end

