-- ==== Sys2Proof/Laws/KUplinkCore.lean ====
section
/-! SUPPORT. Sys2Proof/Laws/KUplinkCore.lean: what each operation of Machine/UplinkCore.lean touches and keeps. -/

set_option Elab.async false

namespace Sys2Proof.Machine.Keeps

set_option linter.unusedTactic false
set_option linter.unreachableTactic false

variable {L0 : List Part} {s0 : State}

theorem uplMod {s : State} {f : UplState → UplState} (h : Keeps L0 s0 s) (hL : Part.sub [.upl] L0 = true := by decide) :
    Keeps L0 s0 (State.uplMod s f) := by
  refine h.trans ?_ hL
  unfold State.uplMod
  repeat' with_reducible (first | (apply f_upl; apply refl; decide) | apply refl | assumption | dsimp only | apply f_upl | decide)

theorem sessMod {s : State} {n : Nat} {f : USess → USess} (h : Keeps L0 s0 s) (hL : Part.sub [.upl] L0 = true := by decide) :
    Keeps L0 s0 (State.sessMod s n f) := by
  refine h.trans ?_ hL
  unfold State.sessMod
  repeat' with_reducible (first | apply refl | assumption | apply uplMod | dsimp only | decide)

theorem ctxWrite {s : State} {n : Nat} (h : Keeps L0 s0 s) (hL : Part.sub [.dram] L0 = true := by decide) :
    Keeps L0 s0 (State.ctxWrite s n) := by
  refine h.trans ?_ hL
  unfold State.ctxWrite
  repeat' with_reducible (first | apply refl | assumption | apply wrMem | dsimp only | decide)

theorem setRole {s : State} {n v : Nat} (h : Keeps L0 s0 s) (hL : Part.sub [.win 10] L0 = true := by decide) :
    Keeps L0 s0 (State.setRole s n v) := by
  refine h.trans ?_ hL
  unfold State.setRole
  repeat' with_reducible (first | apply refl | assumption | apply wr | dsimp only | (apply Part.win_arr <;> decide) | decide)

theorem sessStop {s : State} {n e : Nat} (h : Keeps L0 s0 s) (hL : Part.sub [.dram, .upl, .win 10] L0 = true := by decide) :
    Keeps L0 s0 (State.sessStop s n e) := by
  refine h.trans ?_ hL
  unfold State.sessStop
  repeat' with_reducible (first | apply refl | assumption | apply bump | apply ctxWrite | apply raiseBit | apply raiseF | apply sessMod | refine when' ?_ _ (fun _ _ => ?_) | dsimp only | (apply Part.win_arr <;> decide) | decide)

theorem sessClose {s : State} {n : Nat} (h : Keeps L0 s0 s) (hL : Part.sub [.dram, .upl, .win 10] L0 = true := by decide) :
    Keeps L0 s0 (State.sessClose s n) := by
  refine h.trans ?_ hL
  unfold State.sessClose
  repeat' with_reducible (first | apply refl | assumption | apply ctxWrite | apply sessMod | apply setRole | apply uplMod | dsimp only | decide)

theorem sessCloseAll {s : State} (h : Keeps L0 s0 s) (hL : Part.sub [.dram, .upl, .win 10] L0 = true := by decide) :
    Keeps L0 s0 (State.sessCloseAll s) := by
  refine h.trans ?_ hL
  unfold State.sessCloseAll
  repeat' with_reducible (first | apply refl | assumption | refine each' ?_ _ (fun _ _ _ => ?_) | apply sessClose | dsimp only | split | decide)

theorem sessSay {s : State} {n type : Nat} {body : Bytes} (h : Keeps L0 s0 s) (hL : Part.sub [.upl] L0 = true := by decide) :
    Keeps L0 s0 (State.sessSay s n type body) := by
  refine h.trans ?_ hL
  unfold State.sessSay
  repeat' with_reducible (first | apply refl | assumption | apply sessMod | dsimp only | decide)

theorem partMod {s : State} {k : Nat} {f : UPart → UPart} (h : Keeps L0 s0 s) (hL : Part.sub [.upl] L0 = true := by decide) :
    Keeps L0 s0 (State.partMod s k f) := by
  refine h.trans ?_ hL
  unfold State.partMod
  repeat' with_reducible (first | apply refl | assumption | apply uplMod | dsimp only | decide)

theorem partShow {s : State} {k : Nat} (h : Keeps L0 s0 s) (hL : Part.sub [.win 10] L0 = true := by decide) :
    Keeps L0 s0 (State.partShow s k) := by
  refine h.trans ?_ hL
  unfold State.partShow
  repeat' with_reducible (first | apply refl | assumption | apply wrN | dsimp only | (apply Part.win_arr <;> decide) | decide)

theorem partSave {s : State} {k : Nat} (h : Keeps L0 s0 s) (hL : Part.sub [.dram, .sto, .pair, .out, .win 9, .win 10] L0 = true := by decide) :
    Keeps L0 s0 (State.partSave s k) := by
  refine h.trans ?_ hL
  unfold State.partSave
  repeat' with_reducible (first | apply refl | assumption | apply mirror | apply partShow | apply storePut | refine when' ?_ _ (fun _ _ => ?_) | dsimp only | decide)

theorem uplRestore {s : State} (h : Keeps L0 s0 s) (hL : Part.sub [.upl, .win 10] L0 = true := by decide) :
    Keeps L0 s0 (State.uplRestore s) := by
  refine h.trans ?_ hL
  unfold State.uplRestore
  repeat' with_reducible (first | apply refl | assumption | refine each' ?_ _ (fun _ _ _ => ?_) | apply partMod | apply partShow | dsimp only | decide)

end Sys2Proof.Machine.Keeps
end

