-- ==== Sys2Proof/Laws/KStore.lean ====
section
/-! SUPPORT. Sys2Proof/Laws/KStore.lean: what each operation of Machine/Store.lean touches and keeps. -/

set_option Elab.async false

namespace Sys2Proof.Machine.Keeps

set_option linter.unusedTactic false
set_option linter.unreachableTactic false

variable {L0 : List Part} {s0 : State}

theorem chShow {s : State} {c v : Nat} (h : Keeps L0 s0 s) (hL : Part.sub [.win 9] L0 = true := by decide) :
    Keeps L0 s0 (State.chShow s c v) := by
  refine h.trans ?_ hL
  unfold State.chShow
  repeat' with_reducible (first | apply refl | assumption | apply setF | dsimp only | split | decide)

theorem dieIdentify {s : State} {i : Nat} {gone : Bool} (h : Keeps L0 s0 s) (hL : Part.sub [.smp, .win 4, .win 9] L0 = true := by decide) :
    Keeps L0 s0 (State.dieIdentify s i gone) := by
  refine h.trans ?_ hL
  unfold State.dieIdentify
  repeat' with_reducible (first | apply refl | assumption | apply report | apply setDie | dsimp only | split | decide)

theorem anchorErase {s : State} {d : Nat} {l : List Nat} (h : Keeps L0 s0 s) (hL : Part.sub [.sto, .win 9] L0 = true := by decide) :
    Keeps L0 s0 (State.anchorErase s d l) := by
  refine h.trans ?_ hL
  unfold State.anchorErase
  repeat' with_reducible (first | apply refl | assumption | apply bump | refine each' ?_ _ (fun _ _ _ => ?_) | apply stoMod | dsimp only | decide)

theorem anchorPut {s : State} {c : Nat} (h : Keeps L0 s0 s) (hL : Part.sub [.sto, .win 9] L0 = true := by decide) :
    Keeps L0 s0 (State.anchorPut s c) := by
  refine h.trans ?_ hL
  unfold State.anchorPut
  repeat' with_reducible (first | apply refl | assumption | apply anchorErase | apply stoMod | refine when' ?_ _ (fun _ _ => ?_) | dsimp only | split | refine fst (by assumption) ?_ | refine snd (by assumption) ?_ | decide)

theorem anchorWrite {s : State} (h : Keeps L0 s0 s) (hL : Part.sub [.sto, .win 9] L0 = true := by decide) :
    Keeps L0 s0 (State.anchorWrite s) := by
  refine h.trans ?_ hL
  unfold State.anchorWrite
  repeat' with_reducible (first | apply refl | assumption | apply anchorPut | refine each' ?_ _ (fun _ _ _ => ?_) | dsimp only | split | decide)

theorem dieChange {s : State} (h : Keeps L0 s0 s) (hL : Part.sub [.sto, .win 9] L0 = true := by decide) :
    Keeps L0 s0 (State.dieChange s) := by
  refine h.trans ?_ hL
  unfold State.dieChange
  repeat' with_reducible (first | apply refl | assumption | apply anchorPut | refine each' ?_ _ (fun _ _ _ => ?_) | apply setF | dsimp only | split | decide)

theorem storeStart {s : State} {absent : Nat} (h : Keeps L0 s0 s) (hL : Part.sub [.smp, .win 4, .win 9] L0 = true := by decide) :
    Keeps L0 s0 (State.storeStart s absent) := by
  refine h.trans ?_ hL
  unfold State.storeStart
  repeat' with_reducible (first | apply refl | assumption | apply chShow | apply dieIdentify | refine each' ?_ _ (fun _ _ _ => ?_) | apply raiseF | apply setF | apply setPhase | refine when' ?_ _ (fun _ _ => ?_) | dsimp only | split | decide)

theorem execStoreStart {s : State} {absent : Nat} : OutKeeps [.smp, .win 4, .win 9] s (execStoreStart absent s) := by
  unfold Sys2Proof.Machine.execStoreStart
  repeat' with_reducible (first | refine OutKeeps.ok ?_ | apply refl | assumption | apply storeStart | apply ok | dsimp only | decide)

theorem cellPut {s : State} {c : Nat × Nat × Nat} (h : Keeps L0 s0 s) (hL : Part.sub [.dram] L0 = true := by decide) :
    Keeps L0 s0 (State.cellPut s c) := by
  refine h.trans ?_ hL
  unfold State.cellPut
  repeat' with_reducible (first | apply refl | assumption | apply wrMem | dsimp only | split | refine fst (by assumption) ?_ | refine snd (by assumption) ?_ | decide)

theorem tabEntry {s : State} {r : TabRun} {e : JEntry} (h : Keeps L0 s0 s) (hL : Part.sub [.dram, .msm, .win 6] L0 = true := by decide) :
    Keeps L0 s0 (State.tabEntry s r e).1 := by
  refine h.trans ?_ hL
  unfold State.tabEntry
  repeat' with_reducible (first | (apply f_msm; apply refl; decide) | apply refl | assumption | apply counterUpdate | apply wrMem | apply wrN | dsimp only | split | refine fst (by assumption) ?_ | refine snd (by assumption) ?_ | apply f_msm | decide)

theorem tabRestore {s : State} {es : List JEntry} (h : Keeps L0 s0 s) (hL : Part.sub [.dram, .msm, .win 6] L0 = true := by decide) :
    Keeps L0 s0 (State.tabRestore s es).1 := by
  refine h.trans ?_ hL
  unfold State.tabRestore
  repeat' with_reducible (first | (apply f_msm; apply refl; decide) | apply refl | assumption | apply cellPut | refine each' ?_ _ (fun _ _ _ => ?_) | apply tabEntry | refine foldlFst ?_ _ (fun _ _ _ => ?_) | refine foldl' ?_ _ (fun _ _ _ => ?_) | dsimp only | apply f_msm | decide)

theorem sbFree {s : State} {b : Nat} (h : Keeps L0 s0 s) (hL : Part.sub [.sto] L0 = true := by decide) :
    Keeps L0 s0 (State.sbFree s b) := by
  refine h.trans ?_ hL
  unfold State.sbFree
  repeat' with_reducible (first | apply refl | assumption | apply stoMod | dsimp only | decide)

theorem sbErased {s : State} {b mask : Nat} (h : Keeps L0 s0 s) (hL : Part.sub [.sto, .win 9] L0 = true := by decide) :
    Keeps L0 s0 (State.sbErased s b mask) := by
  refine h.trans ?_ hL
  unfold State.sbErased
  repeat' with_reducible (first | apply refl | assumption | apply bumpN | apply stoMod | refine foldlFst ?_ _ (fun _ _ _ => ?_) | refine foldl' ?_ _ (fun _ _ _ => ?_) | dsimp only | decide)

theorem unitLost {s : State} {lua : Nat} (h : Keeps L0 s0 s) (hL : Part.sub [.dram, .sto, .smp, .win 4, .win 9] L0 = true := by decide) :
    Keeps L0 s0 (State.unitLost s lua) := by
  refine h.trans ?_ hL
  unfold State.unitLost
  repeat' with_reducible (first | apply refl | assumption | apply bump | apply jour | apply mapSet | apply raiseF | apply report | dsimp only | decide)

theorem intentResolve {s : State} {x : Nat × Nat × Nat × Nat × Nat} (h : Keeps L0 s0 s) (hL : Part.sub [.dram, .sto, .smp, .win 4, .win 9] L0 = true := by decide) :
    Keeps L0 s0 (State.intentResolve s x) := by
  refine h.trans ?_ hL
  unfold State.intentResolve
  repeat' with_reducible (first | apply refl | assumption | apply bump | refine each' ?_ _ (fun _ _ _ => ?_) | apply jour | apply mapSet | apply place | apply sbErased | apply sbFree | apply stoMod | apply unitLost | dsimp only | split | decide)

theorem openResolve {s : State} {b : Nat} (h : Keeps L0 s0 s) (hL : Part.sub [.dram, .sto, .win 9] L0 = true := by decide) :
    Keeps L0 s0 (State.openResolve s b) := by
  refine h.trans ?_ hL
  unfold State.openResolve
  repeat' with_reducible (first | apply refl | assumption | apply closeSb | refine each' ?_ _ (fun _ _ _ => ?_) | apply jour | apply mapSet | apply place | dsimp only | split | decide)

theorem drnRestore {s : State} (h : Keeps L0 s0 s) (hL : Part.sub [.dram, .drn, .win 7] L0 = true := by decide) :
    Keeps L0 s0 (State.drnRestore s) := by
  refine h.trans ?_ hL
  unfold State.drnRestore
  exact drnPlan (raiseF (each' (dramCutTo (refl _ _)) _ (fun _ _ g => wrMem g _ _)) _ _)

theorem mapSettle {s : State} {start : Nat} (h : Keeps L0 s0 s) (hL : Part.sub [.sto] L0 = true := by decide) :
    Keeps L0 s0 (State.mapSettle s start) := by
  refine h.trans ?_ hL
  unfold State.mapSettle
  repeat' with_reducible (first | apply refl | assumption | refine each' ?_ _ (fun _ _ _ => ?_) | apply mapRaw | dsimp only | split | refine fst (by assumption) ?_ | refine snd (by assumption) ?_ | decide)

theorem fmapRebuild {s : State} (h : Keeps L0 s0 s) (hL : Part.sub [.dram, .sto, .win 9] L0 = true := by decide) :
    Keeps L0 s0 (State.fmapRebuild s) := by
  refine h.trans ?_ hL
  unfold State.fmapRebuild
  repeat' with_reducible (first | apply refl | assumption | refine each' ?_ _ (fun _ _ _ => ?_) | apply fmapNew | dsimp only | split | decide)

theorem storeReplay {s : State} (h : Keeps L0 s0 s) (hL : Part.sub [.dram, .sto, .msm, .smp, .win 4, .win 6, .win 9] L0 = true := by decide) :
    Keeps L0 s0 (State.storeReplay s) := by
  refine h.trans ?_ hL
  unfold State.storeReplay
  repeat' with_reducible (first | (apply f_sto; apply refl; decide) | apply refl | assumption | refine each' ?_ _ (fun _ _ _ => ?_) | apply fmapRebuild | apply intentResolve | apply mapSettle | apply openResolve | apply report | apply setF | apply stoMod | apply tabRestore | refine when' ?_ _ (fun _ _ => ?_) | apply wrN | refine foldlFst ?_ _ (fun _ _ _ => ?_) | refine foldl' ?_ _ (fun _ _ _ => ?_) | dsimp only | apply f_sto | decide)

theorem execStoreRestoreDone {s : State} : OutKeeps [.dram, .drn, .sto, .msm, .tot, .upl, .ao, .smp, .draws, .win 4, .win 6, .win 7, .win 8, .win 9, .win 10] s (execStoreRestoreDone s) := by
  unfold Sys2Proof.Machine.execStoreRestoreDone
  repeat' with_reducible (first | refine OutKeeps.ok ?_ | apply refl | assumption | apply chShow | apply dieChange | apply drnRestore | refine each' ?_ _ (fun _ _ _ => ?_) | apply raiseF | apply setPhase | apply smpRestore | apply stoMod | apply storeReplay | apply totRestore | apply uplRestore | refine when' ?_ _ (fun _ _ => ?_) | apply ok | dsimp only | split | decide)

theorem execStoreStop {s : State} : OutKeeps [.dram, .sto, .win 9] s (execStoreStop s) := by
  unfold Sys2Proof.Machine.execStoreStop
  repeat' with_reducible (first | refine OutKeeps.ok ?_ | apply refl | assumption | apply flushJournal | apply flushStart | apply setF | apply setPhase | apply ok | dsimp only | split | decide)

theorem execRecordUnitProgram {s : State} : OutKeeps [.dram, .sto, .win 9] s (execRecordUnitProgram s) := by
  unfold Sys2Proof.Machine.execRecordUnitProgram
  repeat' with_reducible (first | refine OutKeeps.ok ?_ | apply refl | assumption | apply jProgram | apply recUnitPut | apply ok | dsimp only | split | decide)

theorem blkRetire {s : State} {d b reason : Nat} (h : Keeps L0 s0 s) (hL : Part.sub [.sto, .win 9] L0 = true := by decide) :
    Keeps L0 s0 (State.blkRetire s d b reason) := by
  refine h.trans ?_ hL
  unfold State.blkRetire
  repeat' with_reducible (first | apply refl | assumption | apply dieChange | apply jour | apply raiseF | apply setDie | apply stoMod | dsimp only | split | decide)

theorem targetFail {s : State} {r : Reloc} (h : Keeps L0 s0 s) (hL : Part.sub [.sto, .smp, .win 4, .win 9] L0 = true := by decide) :
    Keeps L0 s0 (State.targetFail s r) := by
  refine h.trans ?_ hL
  unfold State.targetFail
  repeat' with_reducible (first | apply refl | assumption | apply closeSb | apply openNext | apply report | apply sbMod | apply stoMod | dsimp only | split | refine fst (by assumption) ?_ | refine snd (by assumption) ?_ | decide)

theorem failRecord {s : State} {d b : Nat} (h : Keeps L0 s0 s) (hL : Part.sub [.smp, .win 4] L0 = true := by decide) :
    Keeps L0 s0 (State.failRecord s d b) := by
  refine h.trans ?_ hL
  unfold State.failRecord
  repeat' with_reducible (first | apply refl | assumption | apply report | dsimp only | decide)

theorem pageRewrite {s : State} {d b p : Nat} (h : Keeps L0 s0 s) (hL : Part.sub [.dram, .sto, .win 9] L0 = true := by decide) :
    Keeps L0 s0 (State.pageRewrite s d b p) := by
  refine h.trans ?_ hL
  unfold State.pageRewrite
  repeat' with_reducible (first | apply refl | assumption | apply closeSb | refine each' ?_ _ (fun _ _ _ => ?_) | apply jour | apply mapSet | apply place | apply sbMod | apply stoMod | dsimp only | split | decide)

theorem execNandProgramDone {s : State} {d b p : Nat} {fail : Bool} : OutKeeps [.dram, .sto, .smp, .out, .win 4, .win 9] s (execNandProgramDone d b p fail s) := by
  unfold Sys2Proof.Machine.execNandProgramDone
  repeat' with_reducible (first | refine OutKeeps.ok ?_ | apply refl | assumption | apply blkRetire | apply bump | apply emit | apply failRecord | apply jDrain | apply pageRewrite | apply parityDone | apply stoMod | apply targetFail | apply ok | dsimp only | split | refine fst (by assumption) ?_ | refine snd (by assumption) ?_ | decide)

theorem execNandReadDone {s : State} {loc corr : Nat} {bad retry rebuilt : Bool} : OutKeeps [.dram, .sto, .smp, .win 4, .win 9] s (execNandReadDone loc corr bad retry rebuilt s) := by
  unfold Sys2Proof.Machine.execNandReadDone
  repeat' with_reducible (first | refine OutKeeps.ok ?_ | apply refl | assumption | apply bump | apply sbMod | apply stoMod | apply unitLost | apply ok | dsimp only | split | decide)

theorem relocInto {s : State} {b tgt why : Nat} (h : Keeps L0 s0 s) (hL : Part.sub [.sto] L0 = true := by decide) :
    Keeps L0 s0 (State.relocInto s b tgt why) := by
  refine h.trans ?_ hL
  unfold State.relocInto
  repeat' with_reducible (first | apply refl | assumption | apply stoMod | dsimp only | decide)

theorem relocStart {s : State} {b why : Nat} (h : Keeps L0 s0 s) (hL : Part.sub [.sto, .win 9] L0 = true := by decide) :
    Keeps L0 s0 (State.relocStart s b why) := by
  refine h.trans ?_ hL
  unfold State.relocStart
  repeat' with_reducible (first | apply refl | assumption | apply readySb | apply relocInto | dsimp only | split | refine fst (by assumption) ?_ | refine snd (by assumption) ?_ | decide)

theorem gcTrack {s : State} (h : Keeps L0 s0 s) (hL : Part.sub [.sto] L0 = true := by decide) :
    Keeps L0 s0 (State.gcTrack s) := by
  refine h.trans ?_ hL
  unfold State.gcTrack
  repeat' with_reducible (first | apply refl | assumption | apply stoMod | dsimp only | decide)

theorem execGcStart {s : State} : OutKeeps [.sto, .win 9] s (execGcStart s) := by
  unfold Sys2Proof.Machine.execGcStart
  repeat' with_reducible (first | refine OutKeeps.ok ?_ | apply refl | assumption | apply gcTrack | apply relocStart | apply ok | dsimp only | split | refine fst (by assumption) ?_ | refine snd (by assumption) ?_ | decide)

theorem execFoldStart {s : State} {idle : Bool} : OutKeeps [.sto, .win 9] s (execFoldStart idle s) := by
  unfold Sys2Proof.Machine.execFoldStart
  repeat' with_reducible (first | refine OutKeeps.ok ?_ | apply refl | assumption | apply relocStart | apply ok | dsimp only | split | refine fst (by assumption) ?_ | refine snd (by assumption) ?_ | decide)

theorem execWearLevelMove {s : State} : OutKeeps [.sto, .win 9] s (execWearLevelMove s) := by
  unfold Sys2Proof.Machine.execWearLevelMove
  repeat' with_reducible (first | refine OutKeeps.ok ?_ | apply refl | assumption | apply bump | apply closeSb | apply openAt | apply relocInto | apply ok | dsimp only | split | refine fst (by assumption) ?_ | refine snd (by assumption) ?_ | decide)

theorem execRelocCopyDone {s : State} : OutKeeps [.dram, .sto, .smp, .win 4, .win 9] s (execRelocCopyDone s) := by
  unfold Sys2Proof.Machine.execRelocCopyDone
  repeat' with_reducible (first | refine OutKeeps.ok ?_ | apply refl | assumption | apply bump | refine each' ?_ _ (fun _ _ _ => ?_) | apply putAt | apply relocStart | apply stoMod | apply stripeClose | apply unitLost | apply ok | dsimp only | split | refine fst (by assumption) ?_ | refine snd (by assumption) ?_ | decide)

theorem relocMap {s : State} {r : Reloc} {log : Bool} (h : Keeps L0 s0 s) (hL : Part.sub [.dram, .sto, .win 9] L0 = true := by decide) :
    Keeps L0 s0 (State.relocMap s r log) := by
  refine h.trans ?_ hL
  unfold State.relocMap
  repeat' with_reducible (first | apply refl | assumption | refine each' ?_ _ (fun _ _ _ => ?_) | apply jour | apply mapRaw | apply mapSet | refine when' ?_ _ (fun _ _ => ?_) | dsimp only | split | decide)

theorem execRelocVerifyDone {s : State} {bad : Option Nat} : OutKeeps [.dram, .sto, .smp, .win 4, .win 9] s (execRelocVerifyDone bad s) := by
  unfold Sys2Proof.Machine.execRelocVerifyDone
  repeat' with_reducible (first | refine OutKeeps.ok ?_ | apply refl | assumption | apply blkRetire | apply bump | apply closeSb | apply failRecord | apply jour | apply relocMap | apply relocStart | apply stoMod | apply targetFail | apply ok | dsimp only | split | refine fst (by assumption) ?_ | refine snd (by assumption) ?_ | decide)

theorem execRelocIntentDone {s : State} : OutKeeps [.dram, .sto, .win 9] s (execRelocIntentDone s) := by
  unfold Sys2Proof.Machine.execRelocIntentDone
  repeat' with_reducible (first | refine OutKeeps.ok ?_ | apply refl | assumption | apply jDrain | apply relocMap | apply stoMod | apply ok | dsimp only | split | refine fst (by assumption) ?_ | refine snd (by assumption) ?_ | decide)

theorem execNandEraseDone {s : State} {d : Nat} {fail : Bool} : OutKeeps [.sto, .win 9] s (execNandEraseDone d fail s) := by
  unfold Sys2Proof.Machine.execNandEraseDone
  repeat' with_reducible (first | refine OutKeeps.ok ?_ | apply refl | assumption | apply blkRetire | apply bump | apply gcTrack | apply jour | apply sbFree | apply setF | apply stoMod | refine when' ?_ _ (fun _ _ => ?_) | apply ok | dsimp only | split | refine fst (by assumption) ?_ | refine snd (by assumption) ?_ | decide)

theorem execCheckpointStart {s : State} : OutKeeps [.sto] s (execCheckpointStart s) := by
  unfold Sys2Proof.Machine.execCheckpointStart
  repeat' with_reducible (first | refine OutKeeps.ok ?_ | apply refl | assumption | apply stoMod | apply ok | dsimp only | split | decide)

theorem sysTrim {s : State} {start pass : Nat} (h : Keeps L0 s0 s) (hL : Part.sub [.sto] L0 = true := by decide) :
    Keeps L0 s0 (State.sysTrim s start pass) := by
  refine h.trans ?_ hL
  unfold State.sysTrim
  repeat' with_reducible (first | apply refl | assumption | apply sysDrop | dsimp only | decide)

theorem ckptDone {s : State} {pass start root : Nat} (h : Keeps L0 s0 s) (hL : Part.sub [.sto, .win 9] L0 = true := by decide) :
    Keeps L0 s0 (State.ckptDone s pass start root) := by
  refine h.trans ?_ hL
  unfold State.ckptDone
  repeat' with_reducible (first | apply refl | assumption | apply anchorWrite | apply raiseF | apply stoMod | apply stripeClose | apply sysTrim | dsimp only | split | refine fst (by assumption) ?_ | refine snd (by assumption) ?_ | decide)

theorem execCheckpointDone {s : State} : OutKeeps [.sto, .win 9] s (execCheckpointDone s) := by
  unfold Sys2Proof.Machine.execCheckpointDone
  repeat' with_reducible (first | refine OutKeeps.ok ?_ | apply refl | assumption | apply ckptDone | apply jDrain | apply jour | apply sysPut | apply ok | dsimp only | split | refine fst (by assumption) ?_ | refine snd (by assumption) ?_ | decide)

theorem execStoreFlushDone {s : State} : OutKeeps [.ports, .sto, .out, .win 9, .win 16] s (execStoreFlushDone s) := by
  unfold Sys2Proof.Machine.execStoreFlushDone
  repeat' with_reducible (first | refine OutKeeps.ok ?_ | apply refl | assumption | apply bump | apply flushJournal | apply setPhase | apply txenLow | apply ok | dsimp only | split | decide)

theorem chRefuse {s : State} {c e : Nat} (h : Keeps L0 s0 s) (hL : Part.sub [.win 9] L0 = true := by decide) :
    Keeps L0 s0 (State.chRefuse s c e) := by
  refine h.trans ?_ hL
  unfold State.chRefuse
  repeat' with_reducible (first | apply refl | assumption | apply setF | dsimp only | decide)

theorem chanSet {s : State} {c v : Nat} (h : Keeps L0 s0 s) (hL : Part.sub [.sto, .win 9] L0 = true := by decide) :
    Keeps L0 s0 (State.chanSet s c v) := by
  refine h.trans ?_ hL
  unfold State.chanSet
  repeat' with_reducible (first | apply refl | assumption | apply chShow | apply jour | apply stoMod | dsimp only | decide)

theorem execChannelEvacuate {s : State} {c : Nat} : OutKeeps [.sto, .win 9] s (execChannelEvacuate c s) := by
  unfold Sys2Proof.Machine.execChannelEvacuate
  repeat' with_reducible (first | refine OutKeeps.ok ?_ | apply refl | assumption | apply chRefuse | apply chanSet | apply closeSb | refine each' ?_ _ (fun _ _ _ => ?_) | apply stoMod | apply stripeClose | apply ok | dsimp only | split | decide)

theorem execEvacuationDone {s : State} : OutKeeps [.sto, .pins, .win 9] s (execEvacuationDone s) := by
  unfold Sys2Proof.Machine.execEvacuationDone
  repeat' with_reducible (first | refine OutKeeps.ok ?_ | (apply f_pins; apply refl; decide) | apply refl | assumption | apply chanSet | apply ckptDone | apply dieChange | refine each' ?_ _ (fun _ _ _ => ?_) | apply jour | apply raiseF | apply setDie | apply stoMod | apply sysPut | apply ok | dsimp only | split | refine fst (by assumption) ?_ | refine snd (by assumption) ?_ | apply f_pins | decide)

theorem execChannelRejoin {s : State} {c : Nat} : OutKeeps [.sto, .pins, .win 9] s (execChannelRejoin c s) := by
  unfold Sys2Proof.Machine.execChannelRejoin
  repeat' with_reducible (first | refine OutKeeps.ok ?_ | (apply f_pins; apply refl; decide) | apply refl | assumption | apply chRefuse | apply chShow | apply stoMod | apply ok | dsimp only | split | apply f_pins | decide)

theorem execRejoinDone {s : State} {match_ : Bool} {bad : List (Nat × Nat)} : OutKeeps [.sto, .pins, .win 9] s (execRejoinDone match_ bad s) := by
  unfold Sys2Proof.Machine.execRejoinDone
  repeat' with_reducible (first | refine OutKeeps.ok ?_ | (apply f_pins; apply refl; decide) | apply refl | assumption | apply bumpN | apply chRefuse | apply chShow | apply chanSet | apply dieChange | refine each' ?_ _ (fun _ _ _ => ?_) | apply setDie | apply stoMod | apply ok | refine foldlFst ?_ _ (fun _ _ _ => ?_) | refine foldl' ?_ _ (fun _ _ _ => ?_) | dsimp only | split | refine fst (by assumption) ?_ | refine snd (by assumption) ?_ | apply f_pins | decide)

theorem ringDone {s : State} {k st : Nat} (h : Keeps L0 s0 s) (hL : Part.sub [.dram, .win 9] L0 = true := by decide) :
    Keeps L0 s0 (State.ringDone s k st) := by
  refine h.trans ?_ hL
  unfold State.ringDone
  repeat' with_reducible (first | apply refl | assumption | apply raiseBit | apply setF | refine when' ?_ _ (fun _ _ => ?_) | apply wrMem | dsimp only | (apply Part.win_arr <;> decide) | decide)

theorem ringRun {s : State} {k op : Nat} {f : Bytes → State → State × Option Nat} (h : Keeps L0 s0 s) (h_f : ∀ a u, Keeps L0 s0 u → Keeps L0 s0 (f a u).1) (hL : Part.sub [.dram, .win 9] L0 = true := by decide) :
    Keeps L0 s0 (State.ringRun s k op f) := by
  unfold State.ringRun
  repeat' with_reducible (first | apply refl | assumption | apply ringDone | apply h_f | dsimp only | split | refine fst (by assumption) ?_ | refine snd (by assumption) ?_ | (apply Part.sub_mem hL; decide) | (apply Part.sub_trans ?_ hL; decide) | decide)

theorem execRingRead {s : State} {k : Nat} {err : Bool} : OutKeeps [.dram, .win 9] s (execRingRead k err s) := by
  unfold Sys2Proof.Machine.execRingRead
  repeat' with_reducible (first | refine OutKeeps.ok ?_ | apply refl | assumption | refine each' ?_ _ (fun _ _ _ => ?_) | apply ringRun | apply wrMem | apply ok | dsimp only | split | intro _ | decide)

theorem stagingTouched {s : State} {first n : Nat} (h : Keeps L0 s0 s) (hL : Part.sub [.ink, .upd, .win 6] L0 = true := by decide) :
    Keeps L0 s0 (State.stagingTouched s first n) := by
  refine h.trans ?_ hL
  unfold State.stagingTouched
  repeat' with_reducible (first | (apply f_upd; apply refl; decide) | apply refl | assumption | apply verified | dsimp only | apply f_upd | decide)

theorem execRingWrite {s : State} {k : Nat} {err : Bool} : OutKeeps [.dram, .ink, .sto, .upd, .win 6, .win 9] s (execRingWrite k err s) := by
  unfold Sys2Proof.Machine.execRingWrite
  repeat' with_reducible (first | refine OutKeeps.ok ?_ | apply refl | assumption | refine each' ?_ _ (fun _ _ _ => ?_) | apply ringRun | apply setF | apply stagingTouched | apply storePut | apply ok | dsimp only | split | intro _ | decide)

theorem execRingTrim {s : State} {k : Nat} : OutKeeps [.dram, .sto, .win 9] s (execRingTrim k s) := by
  unfold Sys2Proof.Machine.execRingTrim
  repeat' with_reducible (first | refine OutKeeps.ok ?_ | apply refl | assumption | apply ringRun | apply trimUnits | apply ok | dsimp only | split | intro _ | decide)

theorem execRingFlush {s : State} {k : Nat} : OutKeeps [.dram, .sto, .win 9] s (execRingFlush k s) := by
  unfold Sys2Proof.Machine.execRingFlush
  repeat' with_reducible (first | refine OutKeeps.ok ?_ | apply refl | assumption | apply ringRun | apply sync | apply ok | dsimp only | split | intro _ | decide)

theorem execRecTailWrite {s : State} {pos : Nat} : OutKeeps [.dram, .sto, .pair, .out, .win 9] s (execRecTailWrite pos s) := by
  unfold Sys2Proof.Machine.execRecTailWrite
  repeat' with_reducible (first | refine OutKeeps.ok ?_ | apply refl | assumption | apply bumpN | refine each' ?_ _ (fun _ _ _ => ?_) | apply jour | apply mapSet | apply mirror | apply setF | apply wrN | apply ok | dsimp only | split | decide)

end Sys2Proof.Machine.Keeps
end

