-- ==== Sys2Proof/Laws/KLadder.lean ====
section
/-! SUPPORT. Sys2Proof/Laws/KLadder.lean: what each operation of Machine/Ladder.lean touches and keeps. -/

set_option Elab.async false

namespace Sys2Proof.Machine.Keeps

set_option linter.unusedTactic false
set_option linter.unreachableTactic false

variable {L0 : List Part} {s0 : State}

theorem smpDrain {s : State} (h : Keeps L0 s0 s) (hL : Part.sub [.ao, .smp, .pair, .out, .win 4] L0 = true := by decide) :
    Keeps L0 s0 (State.smpDrain s) := by
  refine h.trans ?_ hL
  unfold State.smpDrain
  repeat' with_reducible (first | apply refl | assumption | apply smpMod | apply smpTake | refine foldlFst ?_ _ (fun _ _ _ => ?_) | refine foldl' ?_ _ (fun _ _ _ => ?_) | dsimp only | apply Nat.le_max_right | apply Nat.zero_le | (simp [*]; done) | (simp [*]; omega) | decide)

theorem ladderFlush {s : State} (h : Keeps L0 s0 s) (hL : Part.sub [.dram, .sto, .ao, .smp, .pair, .out, .win 4, .win 9] L0 = true := by decide) :
    Keeps L0 s0 (State.ladderFlush s) := by
  refine h.trans ?_ hL
  unfold State.ladderFlush
  repeat' with_reducible (first | apply refl | assumption | apply flushJournal | apply flushStart | apply mirrorFlush | apply setPhase | apply smpDrain | dsimp only | split | decide)

theorem step2 {s : State} (h : Keeps L0 s0 s) (hL : Part.sub [.dram, .fab, .ports, .ink, .mnd, .drn, .sto, .msm, .tot, .time, .upl, .shu, .intr, .hoop, .upd, .nor, .norHeld, .ao, .smp, .ladder, .pair, .pins, .out, .draws, .win 0, .win 1, .win 2, .win 3, .win 4, .win 5, .win 6, .win 7, .win 8, .win 9, .win 10, .win 11, .win 12, .win 13, .win 14, .win 15, .win 16] L0 = true := by decide) :
    Keeps L0 s0 (State.step2 s) := by
  refine h.trans ?_ hL
  unfold State.step2
  repeat' with_reducible (first | apply refl | assumption | apply aoMod | apply ladderFlush | apply warmRestart | dsimp only | decide)

theorem step3 {s : State} (h : Keeps L0 s0 s) (hL : Part.sub [.dram, .sto, .ao, .smp, .pair, .out, .win 4, .win 9] L0 = true := by decide) :
    Keeps L0 s0 (State.step3 s) := by
  refine h.trans ?_ hL
  unfold State.step3
  repeat' with_reducible (first | apply refl | assumption | apply aoMod | apply ladderFlush | dsimp only | decide)

theorem regionReset {s : State} {r : Nat} (h : Keeps L0 s0 s) (hL : Part.sub [.dram, .fab, .ports, .ink, .mnd, .drn, .sto, .msm, .time, .upl, .shu, .intr, .ao, .smp, .ladder, .out, .draws, .win 0, .win 3, .win 4, .win 6, .win 7, .win 9, .win 10, .win 11] L0 = true := by decide) :
    Keeps L0 s0 (State.regionReset s r) := by
  refine h.trans ?_ hL
  unfold State.regionReset
  repeat' with_reducible (first | (apply f_ink_mnd_msm; apply refl; all_goals decide) | (apply f_ladder; apply refl; decide) | apply refl | assumption | apply chAbort | apply drnDisable | refine each' ?_ _ (fun _ _ _ => ?_) | apply fabMod | apply raiseF | apply sessCloseAll | apply setF | refine when' ?_ _ (fun _ _ => ?_) | apply wrN | dsimp only | split | refine fst (by assumption) ?_ | refine snd (by assumption) ?_ | apply f_ink_mnd_msm | apply f_ladder | (apply Part.win_arr <;> decide) | decide)

theorem regionFresh {s : State} {r : Nat} (h : Keeps L0 s0 s) (hL : Part.sub [.fab, .win 0, .win 6] L0 = true := by decide) :
    Keeps L0 s0 (State.regionFresh s r) := by
  refine h.trans ?_ hL
  unfold State.regionFresh
  repeat' with_reducible (first | apply refl | assumption | apply build | refine each' ?_ _ (fun _ _ _ => ?_) | apply setRegion | refine when' ?_ _ (fun _ _ => ?_) | apply wrN | dsimp only | (apply Part.win_arr <;> decide) | decide)

theorem regionRestore {s : State} {r : Nat} (h : Keeps L0 s0 s) (hL : Part.sub [.dram, .sto, .msm, .intr, .smp, .ladder, .win 4, .win 6, .win 9, .win 11] L0 = true := by decide) :
    Keeps L0 s0 (State.regionRestore s r) := by
  refine h.trans ?_ hL
  unfold State.regionRestore
  repeat' with_reducible (first | apply refl | assumption | refine each' ?_ _ (fun _ _ _ => ?_) | apply fieldImage | apply intFlush | apply rebuild | apply sync | apply tabRestore | dsimp only | split | refine fst (by assumption) ?_ | refine snd (by assumption) ?_ | decide)

theorem stepYield {s : State} (h : Keeps L0 s0 s) (hL : Part.sub [.time, .smp, .pair, .out, .win 2, .win 4] L0 = true := by decide) :
    Keeps L0 s0 (State.stepYield s) := by
  refine h.trans ?_ hL
  unfold State.stepYield
  repeat' with_reducible (first | apply refl | assumption | apply pairMove | apply pairYield | dsimp only | split | decide)

theorem ladderStep {s : State} {n region code : Nat} (h : Keeps L0 s0 s) (hL : Part.sub [.dram, .fab, .ports, .ink, .mnd, .drn, .sto, .msm, .tot, .time, .upl, .shu, .intr, .hoop, .upd, .nor, .norHeld, .ao, .smp, .ladder, .pair, .pins, .out, .draws, .win 0, .win 1, .win 2, .win 3, .win 4, .win 5, .win 6, .win 7, .win 8, .win 9, .win 10, .win 11, .win 12, .win 13, .win 14, .win 15, .win 16] L0 = true := by decide) :
    Keeps L0 s0 (State.ladderStep s n region code) := by
  refine h.trans ?_ hL
  unfold State.ladderStep
  repeat' with_reducible (first | (apply f_ao_ladder; apply refl; all_goals decide) | apply refl | assumption | apply raiseF | apply regionReset | apply report | apply setF | apply setRcvReq | apply step2 | apply step3 | apply stepYield | apply step | dsimp only | split | refine fst (by assumption) ?_ | refine snd (by assumption) ?_ | apply f_ao_ladder | decide)

theorem ladderTrigger {s : State} {first region code : Nat} (h : Keeps L0 s0 s) (hL : Part.sub [.dram, .fab, .ports, .ink, .mnd, .drn, .sto, .msm, .tot, .time, .upl, .shu, .intr, .hoop, .upd, .nor, .norHeld, .ao, .smp, .ladder, .pair, .pins, .out, .draws, .win 0, .win 1, .win 2, .win 3, .win 4, .win 5, .win 6, .win 7, .win 8, .win 9, .win 10, .win 11, .win 12, .win 13, .win 14, .win 15, .win 16] L0 = true := by decide) :
    Keeps L0 s0 (State.ladderTrigger s first region code) := by
  refine h.trans ?_ hL
  unfold State.ladderTrigger
  repeat' with_reducible (first | apply refl | assumption | apply ladderStep | dsimp only | split | decide)

theorem ladderPlain {s : State} {first region : Nat} (h : Keeps L0 s0 s) (hL : Part.sub [.dram, .fab, .ports, .ink, .mnd, .drn, .sto, .msm, .tot, .time, .upl, .shu, .intr, .hoop, .upd, .nor, .norHeld, .ao, .smp, .ladder, .pair, .pins, .out, .draws, .win 0, .win 1, .win 2, .win 3, .win 4, .win 5, .win 6, .win 7, .win 8, .win 9, .win 10, .win 11, .win 12, .win 13, .win 14, .win 15, .win 16] L0 = true := by decide) :
    Keeps L0 s0 (State.ladderPlain s first region) := by
  refine h.trans ?_ hL
  unfold State.ladderPlain
  repeat' with_reducible (first | apply refl | assumption | apply draw | apply ladderTrigger | dsimp only | decide)

theorem regionFailed {s : State} {r : Nat} (h : Keeps L0 s0 s) (hL : Part.sub [.dram, .fab, .ports, .ink, .mnd, .drn, .sto, .msm, .tot, .time, .upl, .shu, .intr, .hoop, .upd, .nor, .norHeld, .ao, .smp, .ladder, .pair, .pins, .out, .draws, .win 0, .win 1, .win 2, .win 3, .win 4, .win 5, .win 6, .win 7, .win 8, .win 9, .win 10, .win 11, .win 12, .win 13, .win 14, .win 15, .win 16] L0 = true := by decide) :
    Keeps L0 s0 (State.regionFailed s r) := by
  refine h.trans ?_ hL
  unfold State.regionFailed
  repeat' with_reducible (first | apply refl | assumption | apply ladderTrigger | dsimp only | split | refine fst (by assumption) ?_ | refine snd (by assumption) ?_ | decide)

theorem execRegionResetDone {s : State} {fail : Bool} : OutKeeps [.dram, .fab, .ports, .ink, .mnd, .drn, .sto, .msm, .tot, .time, .upl, .shu, .intr, .hoop, .upd, .nor, .norHeld, .ao, .smp, .ladder, .pair, .pins, .out, .draws, .win 0, .win 1, .win 2, .win 3, .win 4, .win 5, .win 6, .win 7, .win 8, .win 9, .win 10, .win 11, .win 12, .win 13, .win 14, .win 15, .win 16] s (execRegionResetDone fail s) := by
  unfold Sys2Proof.Machine.execRegionResetDone
  repeat' with_reducible (first | refine OutKeeps.ok ?_ | (apply f_ao_ladder; apply refl; all_goals decide) | apply refl | assumption | apply ladderTrigger | apply regionFresh | apply regionRestore | apply setF | apply ok | dsimp only | split | apply f_ao_ladder | decide)

theorem execHoopWatchdogExpire {s : State} : OutKeeps [.dram, .fab, .ports, .ink, .mnd, .drn, .sto, .msm, .tot, .time, .upl, .shu, .intr, .hoop, .upd, .nor, .norHeld, .ao, .smp, .ladder, .pair, .pins, .out, .draws, .win 0, .win 1, .win 2, .win 3, .win 4, .win 5, .win 6, .win 7, .win 8, .win 9, .win 10, .win 11, .win 12, .win 13, .win 14, .win 15, .win 16] s (execHoopWatchdogExpire s) := by
  unfold Sys2Proof.Machine.execHoopWatchdogExpire
  repeat' with_reducible (first | refine OutKeeps.ok ?_ | (apply f_ladder; apply refl; decide) | apply refl | assumption | apply ladderTrigger | apply report | apply ok | dsimp only | split | apply f_ladder | decide)

theorem execFieldWatchdogExpire {s : State} : OutKeeps [.dram, .fab, .ports, .ink, .mnd, .drn, .sto, .msm, .tot, .time, .upl, .shu, .intr, .hoop, .upd, .nor, .norHeld, .ao, .smp, .ladder, .pair, .pins, .out, .draws, .win 0, .win 1, .win 2, .win 3, .win 4, .win 5, .win 6, .win 7, .win 8, .win 9, .win 10, .win 11, .win 12, .win 13, .win 14, .win 15, .win 16] s (execFieldWatchdogExpire s) := by
  unfold Sys2Proof.Machine.execFieldWatchdogExpire
  repeat' with_reducible (first | refine OutKeeps.ok ?_ | (apply f_ladder; apply refl; decide) | apply refl | assumption | apply ladderPlain | apply ok | dsimp only | split | apply f_ladder | decide)

theorem rcvWdog {s : State} {init key act : Nat} {f : State → State} (h : Keeps L0 s0 s) (h_f : ∀ u, Keeps L0 s0 u → Keeps L0 s0 (f u)) (hL : Part.sub [.smp, .win 0, .win 4] L0 = true := by decide) :
    Keeps L0 s0 (State.rcvWdog s init key act f) := by
  unfold State.rcvWdog
  repeat' with_reducible (first | apply refl | assumption | apply fwReg | apply h_f | dsimp only | split | (apply Part.sub_mem hL; decide) | (apply Part.sub_trans ?_ hL; decide) | decide)

theorem hoopKick {s : State} {init key : Nat} (h : Keeps L0 s0 s) (hL : Part.sub [.smp, .ladder, .win 0, .win 4] L0 = true := by decide) :
    Keeps L0 s0 (State.hoopKick s init key) := by
  refine h.trans ?_ hL
  unfold State.hoopKick
  repeat' with_reducible (first | (apply f_ladder; apply refl; decide) | apply refl | assumption | apply rcvWdog | dsimp only | apply f_ladder | intro _ | decide)

theorem fieldKick {s : State} {init key : Nat} (h : Keeps L0 s0 s) (hL : Part.sub [.smp, .ladder, .win 0, .win 4] L0 = true := by decide) :
    Keeps L0 s0 (State.fieldKick s init key) := by
  refine h.trans ?_ hL
  unfold State.fieldKick
  repeat' with_reducible (first | (apply f_ladder; apply refl; decide) | apply refl | assumption | apply rcvWdog | dsimp only | apply f_ladder | intro _ | decide)

theorem stepAsk {s : State} {init key act : Nat} (h : Keeps L0 s0 s) (hL : Part.sub [.dram, .fab, .ports, .ink, .mnd, .drn, .sto, .msm, .tot, .time, .upl, .shu, .intr, .hoop, .upd, .nor, .norHeld, .ao, .smp, .ladder, .pair, .pins, .out, .draws, .win 0, .win 1, .win 2, .win 3, .win 4, .win 5, .win 6, .win 7, .win 8, .win 9, .win 10, .win 11, .win 12, .win 13, .win 14, .win 15, .win 16] L0 = true := by decide) :
    Keeps L0 s0 (State.stepAsk s init key act) := by
  refine h.trans ?_ hL
  unfold State.stepAsk
  repeat' with_reducible (first | apply refl | assumption | apply ladderPlain | apply rcvWdog | dsimp only | split | intro _ | decide)

theorem execHoopWdogKick {s : State} {init key : Nat} : OutKeeps [.smp, .ladder, .win 0, .win 4] s (execHoopWdogKick init key s) := by
  unfold Sys2Proof.Machine.execHoopWdogKick
  repeat' with_reducible (first | refine OutKeeps.ok ?_ | apply refl | assumption | apply hoopKick | apply ok | dsimp only | decide)

theorem execFieldWdogKick {s : State} {init key : Nat} : OutKeeps [.smp, .ladder, .win 0, .win 4] s (execFieldWdogKick init key s) := by
  unfold Sys2Proof.Machine.execFieldWdogKick
  repeat' with_reducible (first | refine OutKeeps.ok ?_ | apply refl | assumption | apply fieldKick | apply ok | dsimp only | decide)

theorem execLadderStepRequest {s : State} {init key act : Nat} : OutKeeps [.dram, .fab, .ports, .ink, .mnd, .drn, .sto, .msm, .tot, .time, .upl, .shu, .intr, .hoop, .upd, .nor, .norHeld, .ao, .smp, .ladder, .pair, .pins, .out, .draws, .win 0, .win 1, .win 2, .win 3, .win 4, .win 5, .win 6, .win 7, .win 8, .win 9, .win 10, .win 11, .win 12, .win 13, .win 14, .win 15, .win 16] s (execLadderStepRequest init key act s) := by
  unfold Sys2Proof.Machine.execLadderStepRequest
  repeat' with_reducible (first | refine OutKeeps.ok ?_ | apply refl | assumption | apply stepAsk | apply ok | dsimp only | decide)

theorem execCyclesReset {s : State} : OutKeeps [.ao] s (execCyclesReset s) := by
  unfold Sys2Proof.Machine.execCyclesReset
  repeat' with_reducible (first | refine OutKeeps.ok ?_ | apply refl | assumption | apply aoMod | apply ok | dsimp only | split | decide)

theorem reportAct {s : State} {code sev path : Nat} {data : Bytes} (h : Keeps L0 s0 s) (hL : Part.sub [.dram, .fab, .ports, .ink, .mnd, .drn, .sto, .msm, .tot, .time, .upl, .shu, .intr, .hoop, .upd, .nor, .norHeld, .ao, .smp, .ladder, .pair, .pins, .out, .draws, .win 0, .win 1, .win 2, .win 3, .win 4, .win 5, .win 6, .win 7, .win 8, .win 9, .win 10, .win 11, .win 12, .win 13, .win 14, .win 15, .win 16] L0 = true := by decide) :
    Keeps L0 s0 (State.reportAct s code sev path data) := by
  refine h.trans ?_ hL
  unfold State.reportAct
  repeat' with_reducible (first | apply refl | assumption | apply ladderTrigger | apply report | refine when' ?_ _ (fun _ _ => ?_) | dsimp only | decide)

theorem execSamplerReport {s : State} {code sev path : Nat} {data : List Nat} : OutKeeps [.dram, .fab, .ports, .ink, .mnd, .drn, .sto, .msm, .tot, .time, .upl, .shu, .intr, .hoop, .upd, .nor, .norHeld, .ao, .smp, .ladder, .pair, .pins, .out, .draws, .win 0, .win 1, .win 2, .win 3, .win 4, .win 5, .win 6, .win 7, .win 8, .win 9, .win 10, .win 11, .win 12, .win 13, .win 14, .win 15, .win 16] s (execSamplerReport code sev path data s) := by
  unfold Sys2Proof.Machine.execSamplerReport
  repeat' with_reducible (first | refine OutKeeps.ok ?_ | apply refl | assumption | apply reportAct | apply ok | dsimp only | decide)

theorem swRecord {s : State} {init sev code : Nat} (h : Keeps L0 s0 s) (hL : Part.sub [.dram, .fab, .ports, .ink, .mnd, .drn, .sto, .msm, .tot, .time, .upl, .shu, .intr, .hoop, .upd, .nor, .norHeld, .ao, .smp, .ladder, .pair, .pins, .out, .draws, .win 0, .win 1, .win 2, .win 3, .win 4, .win 5, .win 6, .win 7, .win 8, .win 9, .win 10, .win 11, .win 12, .win 13, .win 14, .win 15, .win 16] L0 = true := by decide) :
    Keeps L0 s0 (State.swRecord s init sev code) := by
  refine h.trans ?_ hL
  unfold State.swRecord
  repeat' with_reducible (first | apply refl | assumption | apply raiseF | apply reportAct | dsimp only | split | decide)

theorem execSamplerSwRecord {s : State} {init sev code : Nat} : OutKeeps [.dram, .fab, .ports, .ink, .mnd, .drn, .sto, .msm, .tot, .time, .upl, .shu, .intr, .hoop, .upd, .nor, .norHeld, .ao, .smp, .ladder, .pair, .pins, .out, .draws, .win 0, .win 1, .win 2, .win 3, .win 4, .win 5, .win 6, .win 7, .win 8, .win 9, .win 10, .win 11, .win 12, .win 13, .win 14, .win 15, .win 16] s (execSamplerSwRecord init sev code s) := by
  unfold Sys2Proof.Machine.execSamplerSwRecord
  repeat' with_reducible (first | refine OutKeeps.ok ?_ | apply refl | assumption | apply swRecord | apply ok | dsimp only | decide)

end Sys2Proof.Machine.Keeps
end

