-- ==== Sys2Proof/Laws/KMender.lean ====
section
/-! SUPPORT. Sys2Proof/Laws/KMender.lean: what each operation of Machine/Mender.lean touches and keeps. -/

set_option Elab.async false

namespace Sys2Proof.Machine.Keeps

set_option linter.unusedTactic false
set_option linter.unreachableTactic false

variable {L0 : List Part} {s0 : State}

theorem mndMod {s : State} {f : MndState → MndState} (h : Keeps L0 s0 s) (hL : Part.sub [.mnd] L0 = true := by decide) :
    Keeps L0 s0 (State.mndMod s f) := by
  refine h.trans ?_ hL
  unfold State.mndMod
  repeat' with_reducible (first | (apply f_mnd; apply refl; decide) | apply refl | assumption | dsimp only | apply f_mnd | decide)

theorem mndKey_window (k : Nat) : window (mndKey k) = 6 := by
  unfold window mndKey; omega

theorem execMenderBatch {s : State} {u : Nat} {ue : Bool} : OutKeeps [.dram, .ink, .mnd, .draws, .win 6] s (execMenderBatch u ue s) := by
  unfold Sys2Proof.Machine.execMenderBatch
  dsimp only
  split
  · exact OutKeeps.ok (refl _ _)
  · split
    · exact OutKeeps.ok (refl _ _)
    · split
      · rename_i cnt _
        refine OutKeeps.ok ?_
        have hk : Part.win (window (mndKey cnt)) ∈ ([.dram, .ink, .mnd, .draws, .win 6] : List Part) := by rw [mndKey_window]; decide
        exact fwPush (inkMod (bump (refl _ _) _ hk))
      · refine OutKeeps.ok ?_
        exact mndMod (f_draws (refl _ _))

theorem stageRecs {s : State} {l : List Bytes} (h : Keeps L0 s0 s) (hL : Part.sub [.dram, .drn, .sto, .win 9] L0 = true := by decide) :
    Keeps L0 s0 (State.stageRecs s l).1 := by
  refine h.trans ?_ hL
  unfold State.stageRecs
  repeat' with_reducible (first | (apply f_drn; apply refl; decide) | apply refl | assumption | apply recAdd | refine foldlFst ?_ _ (fun _ _ _ => ?_) | refine foldl' ?_ _ (fun _ _ _ => ?_) | dsimp only | apply f_drn | decide)

theorem batchShow {s : State} {u : Nat} {j : MndJob} (h : Keeps L0 s0 s) (hL : Part.sub [.dram, .ink, .mnd, .drn, .sto, .smp, .pair, .out, .win 4, .win 6, .win 9] L0 = true := by decide) :
    Keeps L0 s0 (State.batchShow s u j) := by
  refine h.trans ?_ hL
  unfold State.batchShow
  dsimp only
  refine staged2 (mndMod (inkMod ?_))
  have g : Keeps [.dram, .ink, .mnd, .drn, .sto, .smp, .pair, .out, .win 4, .win 6, .win 9] s ((List.foldl (fun a e => a.bumpN (mndKey e.1) e.2) s j.cnts).when j.crcBad (fun v =>
      v.report 0x5101 3 (blockPath 5 u) (bytesLE 4 j.slot))) :=
    when' (foldl' (refl _ _) _ (fun a _ x => bumpN x _ _ (by rw [mndKey_window]; decide))) _ (fun _ x => report x _ _ _ _)
  split
  · exact wrMem (stageRecs g) _ _
  · exact wrMem (wrMem (stageRecs g) _ _) _ _

theorem execMenderBatchDone {s : State} {u : Nat} : OutKeeps [.dram, .ink, .mnd, .drn, .sto, .smp, .pair, .out, .win 4, .win 6, .win 9] s (execMenderBatchDone u s) := by
  unfold Sys2Proof.Machine.execMenderBatchDone
  repeat' with_reducible (first | refine OutKeeps.ok ?_ | apply refl | assumption | apply batchShow | apply ok | dsimp only | split | refine fst (by assumption) ?_ | refine snd (by assumption) ?_ | decide)

theorem classSel {s : State} {cls w : Nat} (h : Keeps L0 s0 s) (hL : Part.sub [.mnd, .win 6] L0 = true := by decide) :
    Keeps L0 s0 (State.classSel s cls w) := by
  refine h.trans ?_ hL
  unfold State.classSel
  repeat' with_reducible (first | apply refl | assumption | apply mndMod | apply setF | dsimp only | split | decide)

theorem execClassSelect {s : State} {cls w : Nat} : OutKeeps [.mnd, .draws, .win 0, .win 6] s (execClassSelect cls w s) := by
  unfold Sys2Proof.Machine.execClassSelect
  repeat' with_reducible (first | refine OutKeeps.ok ?_ | apply refl | assumption | apply classSel | apply onMender | apply ok | dsimp only | decide)

theorem classData {s : State} {wr : Option Nat} (h : Keeps L0 s0 s) (hL : Part.sub [.mnd, .busData, .win 6] L0 = true := by decide) :
    Keeps L0 s0 (State.classData s wr) := by
  refine h.trans ?_ hL
  unfold State.classData
  repeat' with_reducible (first | apply refl | assumption | apply answer | apply mndMod | apply setF | apply wr | dsimp only | split | refine fst (by assumption) ?_ | refine snd (by assumption) ?_ | decide)

theorem execClassDataAccess {s : State} {wr : Option Nat} : OutKeeps [.mnd, .busData, .draws, .win 0, .win 6] s (execClassDataAccess wr s) := by
  unfold Sys2Proof.Machine.execClassDataAccess
  repeat' with_reducible (first | refine OutKeeps.ok ?_ | apply refl | assumption | apply answer | apply classData | apply onMender | apply wr | apply ok | dsimp only | split | refine fst (by assumption) ?_ | refine snd (by assumption) ?_ | decide)

theorem classCommit {s : State} (h : Keeps L0 s0 s) (hL : Part.sub [.mnd, .win 6] L0 = true := by decide) :
    Keeps L0 s0 (State.classCommit s) := by
  refine h.trans ?_ hL
  unfold State.classCommit
  repeat' with_reducible (first | apply refl | assumption | apply mndMod | apply raiseF | dsimp only | split | decide)

theorem execClassCommit {s : State} : OutKeeps [.mnd, .draws, .win 0, .win 6] s (execClassCommit s) := by
  unfold Sys2Proof.Machine.execClassCommit
  repeat' with_reducible (first | refine OutKeeps.ok ?_ | apply refl | assumption | apply classCommit | apply onMender | apply ok | dsimp only | decide)

theorem execClassInstall {s : State} : OutKeeps [.mnd, .win 6] s (execClassInstall s) := by
  unfold Sys2Proof.Machine.execClassInstall
  repeat' with_reducible (first | refine OutKeeps.ok ?_ | apply refl | assumption | apply mndMod | apply setF | apply ok | dsimp only | split | refine fst (by assumption) ?_ | refine snd (by assumption) ?_ | decide)

end Sys2Proof.Machine.Keeps
end

