-- ==== Sys2Proof/Laws/KTime.lean ====
section
/-! SUPPORT. Sys2Proof/Laws/KTime.lean: what each operation of Machine/Time.lean touches and keeps. -/

set_option Elab.async false

namespace Sys2Proof.Machine.Keeps

set_option linter.unusedTactic false
set_option linter.unreachableTactic false

variable {L0 : List Part} {s0 : State}

theorem execTaiSet {s : State} {rel : Bool} : OutKeeps [.dram, .ports, .drn, .sto, .tot, .time, .smp, .draws, .win 2, .win 4, .win 7, .win 8, .win 9] s (execTaiSet rel s) := by
  unfold Sys2Proof.Machine.execTaiSet
  repeat' with_reducible (first | refine OutKeeps.ok ?_ | apply refl | assumption | apply setF | apply taiSet | apply ok | dsimp only | decide)

theorem execLeapSecond {s : State} : OutKeeps [.win 2] s (execLeapSecond s) := by
  unfold Sys2Proof.Machine.execLeapSecond
  repeat' with_reducible (first | refine OutKeeps.ok ?_ | apply refl | assumption | apply raiseF | apply setF | apply wrN | apply ok | dsimp only | split | decide)

theorem evtHigh {s : State} {b k : Nat} (h : Keeps L0 s0 s) (hL : Part.sub [.time] L0 = true := by decide) :
    Keeps L0 s0 (State.evtHigh s b k) := by
  refine h.trans ?_ hL
  unfold State.evtHigh
  repeat' with_reducible (first | apply refl | assumption | apply tuMod | dsimp only | split | decide)

theorem execCmpFire {s : State} {k : Nat} : OutKeeps [.time, .win 2, .win 3] s (execCmpFire k s) := by
  unfold Sys2Proof.Machine.execCmpFire
  repeat' with_reducible (first | refine OutKeeps.ok ?_ | apply refl | assumption | apply eventSet | apply evtHigh | apply raiseBit | apply setF | apply wrN | apply ok | dsimp only | split | (apply Part.win_arr <;> decide) | decide)

theorem execCmpOutputEnd {s : State} {b : Nat} : OutKeeps [.time] s (execCmpOutputEnd b s) := by
  unfold Sys2Proof.Machine.execCmpOutputEnd
  repeat' with_reducible (first | refine OutKeeps.ok ?_ | apply refl | assumption | apply tuMod | apply ok | dsimp only | split | decide)

theorem execPpsOutPulse {s : State} : OutKeeps [.time] s (execPpsOutPulse s) := by
  unfold Sys2Proof.Machine.execPpsOutPulse
  repeat' with_reducible (first | refine OutKeeps.ok ?_ | apply refl | assumption | apply tuMod | apply ok | dsimp only | split | refine fst (by assumption) ?_ | refine snd (by assumption) ?_ | decide)

theorem execPpsOutFall {s : State} : OutKeeps [.time] s (execPpsOutFall s) := by
  unfold Sys2Proof.Machine.execPpsOutFall
  repeat' with_reducible (first | refine OutKeeps.ok ?_ | apply refl | assumption | apply tuMod | apply ok | dsimp only | decide)

theorem execPpsInEdge {s : State} {sub : Nat} : OutKeeps [.dram, .ports, .drn, .sto, .tot, .time, .smp, .draws, .win 2, .win 4, .win 7, .win 8, .win 9] s (execPpsInEdge sub s) := by
  unfold Sys2Proof.Machine.execPpsInEdge
  repeat' with_reducible (first | refine OutKeeps.ok ?_ | apply refl | assumption | apply bump | apply raiseF | apply servoSample | apply tuMod | apply ok | dsimp only | split | refine fst (by assumption) ?_ | refine snd (by assumption) ?_ | decide)

theorem ptpOffset {s : State} {v : Nat} (h : Keeps L0 s0 s) (hL : Part.sub [.dram, .ports, .drn, .sto, .tot, .time, .smp, .draws, .win 2, .win 4, .win 7, .win 8, .win 9] L0 = true := by decide) :
    Keeps L0 s0 (State.ptpOffset s v) := by
  refine h.trans ?_ hL
  unfold State.ptpOffset
  repeat' with_reducible (first | apply refl | assumption | apply servoSample | dsimp only | split | refine fst (by assumption) ?_ | refine snd (by assumption) ?_ | decide)

theorem execPtpOffsetWrite {s : State} {v : Nat} : OutKeeps [.dram, .ports, .drn, .sto, .tot, .time, .smp, .draws, .win 2, .win 4, .win 7, .win 8, .win 9] s (execPtpOffsetWrite v s) := by
  unfold Sys2Proof.Machine.execPtpOffsetWrite
  repeat' with_reducible (first | refine OutKeeps.ok ?_ | apply refl | assumption | apply ptpOffset | apply ok | dsimp only | decide)

theorem execPairTimeSample {s : State} {v : Nat} : OutKeeps [.dram, .ports, .drn, .sto, .tot, .time, .smp, .draws, .win 2, .win 4, .win 7, .win 8, .win 9] s (execPairTimeSample v s) := by
  unfold Sys2Proof.Machine.execPairTimeSample
  repeat' with_reducible (first | refine OutKeeps.ok ?_ | apply refl | assumption | apply servoSample | apply ok | dsimp only | split | decide)

theorem execHoldoverTimeout {s : State} : OutKeeps [.win 2] s (execHoldoverTimeout s) := by
  unfold Sys2Proof.Machine.execHoldoverTimeout
  repeat' with_reducible (first | refine OutKeeps.ok ?_ | apply refl | assumption | apply bump | apply holdover | apply raiseF | apply ok | dsimp only | split | decide)

theorem execRtcReload {s : State} : OutKeeps [.ao] s (execRtcReload s) := by
  unfold Sys2Proof.Machine.execRtcReload
  repeat' with_reducible (first | refine OutKeeps.ok ?_ | apply refl | assumption | apply rtcReload | apply ok | dsimp only | decide)

theorem schedRead {s : State} (h : Keeps L0 s0 s) (hL : Part.sub [.time, .busData] L0 = true := by decide) :
    Keeps L0 s0 (State.schedRead s) := by
  refine h.trans ?_ hL
  unfold State.schedRead
  repeat' with_reducible (first | apply refl | assumption | apply answer | apply tuMod | dsimp only | decide)

theorem execSchedRead {s : State} : OutKeeps [.time, .busData] s (execSchedRead s) := by
  unfold Sys2Proof.Machine.execSchedRead
  repeat' with_reducible (first | refine OutKeeps.ok ?_ | apply refl | assumption | apply schedRead | apply ok | dsimp only | decide)

theorem txtsPop {s : State} {u : Nat} (h : Keeps L0 s0 s) (hL : Part.sub [.time, .busData] L0 = true := by decide) :
    Keeps L0 s0 (State.txtsPop s u) := by
  refine h.trans ?_ hL
  unfold State.txtsPop
  repeat' with_reducible (first | apply refl | assumption | apply answer | apply tuMod | dsimp only | split | decide)

theorem execTxtsPop {s : State} {u : Nat} : OutKeeps [.time, .busData] s (execTxtsPop u s) := by
  unfold Sys2Proof.Machine.execTxtsPop
  repeat' with_reducible (first | refine OutKeeps.ok ?_ | apply refl | assumption | apply txtsPop | apply ok | dsimp only | decide)

theorem execAfeAdjStore {s : State} {port tx rx : Nat} : OutKeeps [.time, .win 2] s (execAfeAdjStore port tx rx s) := by
  unfold Sys2Proof.Machine.execAfeAdjStore
  repeat' with_reducible (first | refine OutKeeps.ok ?_ | apply refl | assumption | apply afeStore | apply ok | dsimp only | decide)

theorem execServoSrcChange {s : State} {src : Nat} : OutKeeps [.time, .win 2] s (execServoSrcChange src s) := by
  unfold Sys2Proof.Machine.execServoSrcChange
  repeat' with_reducible (first | refine OutKeeps.ok ?_ | apply refl | assumption | apply setF | apply srcChanged | apply ok | dsimp only | split | decide)

end Sys2Proof.Machine.Keeps
end

