-- ==== Sys2Proof/Laws/KFabric.lean ====
section
/-! SUPPORT. Sys2Proof/Laws/KFabric.lean: what each operation of Machine/Fabric.lean touches and keeps. -/

set_option Elab.async false

namespace Sys2Proof.Machine.Keeps

set_option linter.unusedTactic false
set_option linter.unreachableTactic false

variable {L0 : List Part} {s0 : State}

theorem ndlAbandon {s : State} (h : Keeps L0 s0 s) (hL : Part.sub [.hoop, .draws, .win 5] L0 = true := by decide) :
    Keeps L0 s0 (State.ndlAbandon s) := by
  refine h.trans ?_ hL
  unfold State.ndlAbandon
  repeat' with_reducible (first | apply refl | assumption | apply draw | apply hoopMod | apply ndlFail | apply setF | dsimp only | split | refine fst (by assumption) ?_ | refine snd (by assumption) ?_ | (refine ⟨?_, ?_, ?_, ?_, ?_, ?_⟩ <;> rfl) | decide)

theorem cntAbandon {s : State} (h : Keeps L0 s0 s) (hL : Part.sub [.hoop, .draws, .win 5] L0 = true := by decide) :
    Keeps L0 s0 (State.cntAbandon s) := by
  refine h.trans ?_ hL
  unfold State.cntAbandon
  repeat' with_reducible (first | apply refl | assumption | apply cntFail | apply draw | apply hoopMod | apply setF | dsimp only | split | refine fst (by assumption) ?_ | refine snd (by assumption) ?_ | (refine ⟨?_, ?_, ?_, ?_, ?_, ?_⟩ <;> rfl) | decide)

theorem protAbandon {s : State} {l : Nat} (h : Keeps L0 s0 s) (hL : Part.sub [.dram, .ink, .draws] L0 = true := by decide) :
    Keeps L0 s0 (State.protAbandon s l) := by
  refine h.trans ?_ hL
  unfold State.protAbandon
  repeat' with_reducible (first | apply refl | assumption | apply draw | refine each' ?_ _ (fun _ _ _ => ?_) | apply protDone | dsimp only | split | refine fst (by assumption) ?_ | refine snd (by assumption) ?_ | decide)

theorem prkAbandon {s : State} (h : Keeps L0 s0 s) (hL : Part.sub [.fab, .win 11] L0 = true := by decide) :
    Keeps L0 s0 (State.prkAbandon s) := by
  refine h.trans ?_ hL
  unfold State.prkAbandon
  repeat' with_reducible (first | apply refl | assumption | apply prkFail | dsimp only | split | decide)

theorem slotOpAbandon {s : State} (h : Keeps L0 s0 s) (hL : Part.sub [.ink, .draws, .win 6] L0 = true := by decide) :
    Keeps L0 s0 (State.slotOpAbandon s) := by
  refine h.trans ?_ hL
  unfold State.slotOpAbandon
  repeat' with_reducible (first | apply refl | assumption | apply draw | apply inkMod | apply raiseF | apply releaseHold | apply setF | dsimp only | split | refine fst (by assumption) ?_ | refine snd (by assumption) ?_ | decide)

theorem storeAbandon {s : State} (h : Keeps L0 s0 s) (hL : Part.sub [.sto] L0 = true := by decide) :
    Keeps L0 s0 (State.storeAbandon s) := by
  refine h.trans ?_ hL
  unfold State.storeAbandon
  repeat' with_reducible (first | apply refl | assumption | apply stoMod | dsimp only | decide)

theorem dispose {s : State} {r b : Nat} (h : Keeps L0 s0 s) (hL : Part.sub [.dram, .fab, .ports, .ink, .mnd, .drn, .sto, .tot, .time, .upl, .shu, .intr, .hoop, .ao, .smp, .ladder, .pair, .out, .draws, .win 2, .win 3, .win 4, .win 5, .win 6, .win 7, .win 10, .win 11] L0 = true := by decide) :
    Keeps L0 s0 (State.dispose s r b) := by
  refine h.trans ?_ hL
  unfold State.dispose
  repeat' with_reducible (first | apply refl | assumption | apply chAbort | apply cntAbandon | apply drnMod | refine each' ?_ _ (fun _ _ _ => ?_) | apply inkMod | apply laneReturn | apply mndMod | apply ndlAbandon | apply pairAbandon | apply prkAbandon | apply protAbandon | apply sessCloseAll | apply setF | apply slotOpAbandon | apply storeAbandon | apply totMod | dsimp only | split | refine fst (by assumption) ?_ | refine snd (by assumption) ?_ | decide)

theorem errsEnd {s : State} {r b : Nat} (h : Keeps L0 s0 s) (hL : Part.sub [.fab, .smp, .win 4] L0 = true := by decide) :
    Keeps L0 s0 (State.errsEnd s r b) := by
  refine h.trans ?_ hL
  unfold State.errsEnd
  repeat' with_reducible (first | apply refl | assumption | refine each' ?_ _ (fun _ _ _ => ?_) | apply errRecord | apply fabMod | dsimp only | decide)

theorem blockReport {s : State} {r b c : Nat} (h : Keeps L0 s0 s) (hL : Part.sub [.dram, .fab, .ports, .ink, .mnd, .drn, .sto, .msm, .tot, .time, .upl, .shu, .intr, .hoop, .upd, .nor, .norHeld, .ao, .smp, .ladder, .pair, .pins, .out, .draws, .win 0, .win 1, .win 2, .win 3, .win 4, .win 5, .win 6, .win 7, .win 8, .win 9, .win 10, .win 11, .win 12, .win 13, .win 14, .win 15, .win 16] L0 = true := by decide) :
    Keeps L0 s0 (State.blockReport s r b c) := by
  refine h.trans ?_ hL
  unfold State.blockReport
  repeat' with_reducible (first | apply refl | assumption | apply dispose | apply errsEnd | apply portReport | apply quarantine | apply regionFailed | dsimp only | split | decide)

theorem errNever {s : State} {path : Nat} (h : Keeps L0 s0 s) (hL : Part.sub [.dram, .fab, .ports, .ink, .mnd, .drn, .sto, .msm, .tot, .time, .upl, .shu, .intr, .hoop, .upd, .nor, .norHeld, .ao, .smp, .ladder, .pair, .pins, .out, .draws, .win 0, .win 1, .win 2, .win 3, .win 4, .win 5, .win 6, .win 7, .win 8, .win 9, .win 10, .win 11, .win 12, .win 13, .win 14, .win 15, .win 16] L0 = true := by decide) :
    Keeps L0 s0 (State.errNever s path) := by
  refine h.trans ?_ hL
  unfold State.errNever
  repeat' with_reducible (first | apply refl | assumption | apply blockReport | apply errRecord | dsimp only | decide)

theorem errLatch {s : State} {path : Nat} (h : Keeps L0 s0 s) (hL : Part.sub [.fab] L0 = true := by decide) :
    Keeps L0 s0 (State.errLatch s path) := by
  refine h.trans ?_ hL
  unfold State.errLatch
  repeat' with_reducible (first | apply refl | assumption | apply fabMod | dsimp only | decide)

theorem ptrUpset {s : State} {path x : Nat} (h : Keeps L0 s0 s) (hL : Part.sub [.ports] L0 = true := by decide) :
    Keeps L0 s0 (State.ptrUpset s path x) := by
  refine h.trans ?_ hL
  unfold State.ptrUpset
  repeat' with_reducible (first | apply refl | assumption | apply portMod | apply wr | dsimp only | split | refine fst (by assumption) ?_ | refine snd (by assumption) ?_ | decide)

theorem dramErr {s : State} {path : Nat} {ue : Bool} (h : Keeps L0 s0 s) (hL : Part.sub [.win 9] L0 = true := by decide) :
    Keeps L0 s0 (State.dramErr s path ue) := by
  refine h.trans ?_ hL
  unfold State.dramErr
  repeat' with_reducible (first | apply refl | assumption | apply bump | refine when' ?_ _ (fun _ _ => ?_) | dsimp only | split | decide)

theorem execCellError {s : State} {path slot : Nat} {ue never : Bool} : OutKeeps [.dram, .fab, .ports, .ink, .mnd, .drn, .sto, .msm, .tot, .time, .upl, .shu, .intr, .hoop, .upd, .nor, .norHeld, .ao, .smp, .ladder, .pair, .pins, .out, .draws, .win 0, .win 1, .win 2, .win 3, .win 4, .win 5, .win 6, .win 7, .win 8, .win 9, .win 10, .win 11, .win 12, .win 13, .win 14, .win 15, .win 16] s (execCellError path slot ue never s) := by
  unfold Sys2Proof.Machine.execCellError
  repeat' with_reducible (first | refine OutKeeps.ok ?_ | apply refl | assumption | apply bump | apply dramErr | apply errLatch | apply errNever | apply fabMod | apply inkMod | apply ptrUpset | refine when' ?_ _ (fun _ _ => ?_) | apply ok | dsimp only | split | (apply Part.win_arr <;> decide) | decide)

theorem execBlockRetry {s : State} {path : Nat} {good : Bool} : OutKeeps [.dram, .fab, .ports, .ink, .mnd, .drn, .sto, .msm, .tot, .time, .upl, .shu, .intr, .hoop, .upd, .nor, .norHeld, .ao, .smp, .ladder, .pair, .pins, .out, .draws, .win 0, .win 1, .win 2, .win 3, .win 4, .win 5, .win 6, .win 7, .win 8, .win 9, .win 10, .win 11, .win 12, .win 13, .win 14, .win 15, .win 16] s (execBlockRetry path good s) := by
  unfold Sys2Proof.Machine.execBlockRetry
  repeat' with_reducible (first | refine OutKeeps.ok ?_ | apply refl | assumption | apply blockReport | apply errRecord | apply fabMod | apply ok | dsimp only | split | refine fst (by assumption) ?_ | refine snd (by assumption) ?_ | decide)

theorem execHandshakeTimeout {s : State} {path : Nat} : OutKeeps [.dram, .fab, .ports, .ink, .mnd, .drn, .sto, .msm, .tot, .time, .upl, .shu, .intr, .hoop, .upd, .nor, .norHeld, .ao, .smp, .ladder, .pair, .pins, .out, .draws, .win 0, .win 1, .win 2, .win 3, .win 4, .win 5, .win 6, .win 7, .win 8, .win 9, .win 10, .win 11, .win 12, .win 13, .win 14, .win 15, .win 16] s (execHandshakeTimeout path s) := by
  unfold Sys2Proof.Machine.execHandshakeTimeout
  repeat' with_reducible (first | refine OutKeeps.ok ?_ | apply refl | assumption | apply errNever | apply ok | dsimp only | split | decide)

theorem execInterconnectError {s : State} {addr init : Nat} : OutKeeps [.dram, .fab, .ports, .ink, .mnd, .drn, .sto, .msm, .tot, .time, .upl, .shu, .intr, .hoop, .upd, .nor, .norHeld, .ao, .smp, .ladder, .pair, .pins, .out, .draws, .win 0, .win 1, .win 2, .win 3, .win 4, .win 5, .win 6, .win 7, .win 8, .win 9, .win 10, .win 11, .win 12, .win 13, .win 14, .win 15, .win 16] s (execInterconnectError addr init s) := by
  unfold Sys2Proof.Machine.execInterconnectError
  repeat' with_reducible (first | refine OutKeeps.ok ?_ | apply refl | assumption | apply raiseF | apply reportAct | apply ok | dsimp only | decide)

theorem execPaceWindowEnd {s : State} {r count ref : Nat} : OutKeeps [.fab, .draws, .win 0] s (execPaceWindowEnd r count ref s) := by
  unfold Sys2Proof.Machine.execPaceWindowEnd
  repeat' with_reducible (first | refine OutKeeps.ok ?_ | apply refl | assumption | apply draw | apply fabMod | apply near | apply setF | apply ok | dsimp only | split | (apply Part.win_arr <;> decide) | decide)

theorem pmbusFail {s : State} (h : Keeps L0 s0 s) (hL : Part.sub [.smp, .win 0, .win 4] L0 = true := by decide) :
    Keeps L0 s0 (State.pmbusFail s) := by
  refine h.trans ?_ hL
  unfold State.pmbusFail
  repeat' with_reducible (first | apply refl | assumption | apply raiseF | apply report | dsimp only | decide)

theorem govPeriod {s : State} (h : Keeps L0 s0 s) (hL : Part.sub [.fab, .smp, .win 4, .win 16] L0 = true := by decide) :
    Keeps L0 s0 (State.govPeriod s) := by
  refine h.trans ?_ hL
  unfold State.govPeriod
  repeat' with_reducible (first | apply refl | assumption | apply fabMod | apply shortfall | dsimp only | decide)

theorem execGovernorPeriodEnd {s : State} {ack : Option Nat} : OutKeeps [.fab, .smp, .out, .win 0, .win 4, .win 16] s (execGovernorPeriodEnd ack s) := by
  unfold Sys2Proof.Machine.execGovernorPeriodEnd
  repeat' with_reducible (first | refine OutKeeps.ok ?_ | apply refl | assumption | apply emit | apply fabMod | apply govPeriod | apply modeCheck | apply pmbusFail | apply setF | apply ok | dsimp only | split | decide)

theorem execGovernorSettleEnd {s : State} {raw : Nat} {ack : Bool} : OutKeeps [.fab, .smp, .win 0, .win 4] s (execGovernorSettleEnd raw ack s) := by
  unfold Sys2Proof.Machine.execGovernorSettleEnd
  repeat' with_reducible (first | refine OutKeeps.ok ?_ | apply refl | assumption | apply fabMod | apply pmbusFail | apply setF | apply ok | dsimp only | split | decide)

theorem norHold {s : State} (h : Keeps L0 s0 s) (hL : Part.sub [.norHeld] L0 = true := by decide) :
    Keeps L0 s0 (State.norHold s) := by
  refine h.trans ?_ hL
  unfold State.norHold
  repeat' with_reducible (first | (apply f_norHeld; apply refl; decide) | apply refl | assumption | dsimp only | split | apply f_norHeld | decide)

theorem execClockLoss {s : State} {loss : Nat × Nat} : OutKeeps [.dram, .fab, .ports, .ink, .mnd, .drn, .sto, .msm, .tot, .time, .upl, .shu, .intr, .hoop, .upd, .nor, .norHeld, .ao, .smp, .ladder, .pair, .pins, .out, .draws, .win 0, .win 1, .win 2, .win 3, .win 4, .win 5, .win 6, .win 7, .win 8, .win 9, .win 10, .win 11, .win 12, .win 13, .win 14, .win 15, .win 16] s (execClockLoss loss s) := by
  obtain ⟨d, items⟩ := loss
  unfold Sys2Proof.Machine.execClockLoss
  repeat' with_reducible (first | refine OutKeeps.ok ?_ | apply refl | assumption | refine each' ?_ _ (fun _ _ _ => ?_) | apply errNever | apply fabMod | apply modFault | apply norHold | apply raiseBit | apply raiseF | apply report | refine when' ?_ _ (fun _ _ => ?_) | apply wr | apply ok | dsimp only | split | decide)

theorem clockBack {s : State} {d : Nat} (h : Keeps L0 s0 s) (hL : Part.sub [.win 0] L0 = true := by decide) :
    Keeps L0 s0 (State.clockBack s d) := by
  refine h.trans ?_ hL
  unfold State.clockBack
  repeat' with_reducible (first | apply refl | assumption | apply wr | dsimp only | decide)

theorem execTimeBaseReturn {s : State} : OutKeeps [.norHeld, .win 0, .win 2] s (execTimeBaseReturn s) := by
  unfold Sys2Proof.Machine.execTimeBaseReturn
  repeat' with_reducible (first | refine OutKeeps.ok ?_ | (apply f_norHeld; apply refl; decide) | apply refl | assumption | apply clockBack | apply setF | apply ok | dsimp only | split | apply f_norHeld | decide)

theorem execClockRestored {s : State} {d : Nat} : OutKeeps [.win 0] s (execClockRestored d s) := by
  unfold Sys2Proof.Machine.execClockRestored
  repeat' with_reducible (first | refine OutKeeps.ok ?_ | apply refl | assumption | apply clockBack | apply ok | dsimp only | split | decide)

end Sys2Proof.Machine.Keeps
end

