-- ==== Sys2Proof/Laws/KLoader.lean ====
section
/-! SUPPORT. Sys2Proof/Laws/KLoader.lean: what each operation of Machine/Loader.lean touches and keeps. -/

set_option Elab.async false

namespace Sys2Proof.Machine.Keeps

set_option linter.unusedTactic false
set_option linter.unreachableTactic false

variable {L0 : List Part} {s0 : State}

theorem portRelease {s : State} {n : Nat} {b : Built} (h : Keeps L0 s0 s) (hL : Part.sub [.dram, .fab, .ports, .ink, .time, .intr, .ao, .smp, .ladder, .out, .win 0, .win 4, .win 6, .win 11, .win 16] L0 = true := by decide) :
    Keeps L0 s0 (State.portRelease s n b) := by
  refine h.trans ?_ hL
  unfold State.portRelease
  repeat' with_reducible (first | apply refl | assumption | apply portMod | apply portPersona | apply portUp | apply setCasState | apply shadowBack | dsimp only | split | decide)

theorem wireFirst {s : State} {n : Nat} (h : Keeps L0 s0 s) (hL : Part.sub [.ports] L0 = true := by decide) :
    Keeps L0 s0 (State.wireFirst s n) := by
  refine h.trans ?_ hL
  unfold State.wireFirst
  repeat' with_reducible (first | apply refl | assumption | apply portMod | dsimp only | split | refine fst (by assumption) ?_ | refine snd (by assumption) ?_ | decide)

theorem drainStart {s : State} {n : Nat} (h : Keeps L0 s0 s) (hL : Part.sub [.dram, .fab, .ports, .ink, .time, .intr, .ao, .smp, .ladder, .out, .win 0, .win 4, .win 6, .win 11, .win 16] L0 = true := by decide) :
    Keeps L0 s0 (State.drainStart s n) := by
  refine h.trans ?_ hL
  unfold State.drainStart
  repeat' with_reducible (first | apply refl | assumption | apply drainCount | apply passAll | apply ptrCheck | dsimp only | split | decide)

theorem drainEnd {s : State} {n : Nat} {same : Bool} (h : Keeps L0 s0 s) (hL : Part.sub [.dram, .fab, .ports, .ink, .time, .intr, .ao, .smp, .ladder, .out, .win 0, .win 4, .win 6, .win 11, .win 16] L0 = true := by decide) :
    Keeps L0 s0 (State.drainEnd s n same) := by
  refine h.trans ?_ hL
  unfold State.drainEnd
  repeat' with_reducible (first | apply refl | assumption | apply casAbort | apply drainCount | apply drainStart | apply lineStop | apply portHalt | apply rxPop | apply txClear | refine when' ?_ _ (fun _ _ => ?_) | apply wireFirst | dsimp only | split | decide)

theorem setPrk {s : State} {v : Nat} (h : Keeps L0 s0 s) (hL : Part.sub [.win 11] L0 = true := by decide) :
    Keeps L0 s0 (State.setPrk s v) := by
  refine h.trans ?_ hL
  unfold State.setPrk
  repeat' with_reducible (first | apply refl | assumption | apply setF | dsimp only | decide)

theorem jobMod {s : State} {f : LoadJob → LoadJob} (h : Keeps L0 s0 s) (hL : Part.sub [.fab] L0 = true := by decide) :
    Keeps L0 s0 (State.jobMod s f) := by
  refine h.trans ?_ hL
  unfold State.jobMod
  repeat' with_reducible (first | apply refl | assumption | apply fabMod | dsimp only | decide)

theorem prkStart {s : State} {op : Nat} {force : Bool} (h : Keeps L0 s0 s) (hL : Part.sub [.dram, .fab, .ports, .ink, .time, .intr, .ao, .smp, .ladder, .out, .win 0, .win 4, .win 6, .win 11, .win 16] L0 = true := by decide) :
    Keeps L0 s0 (State.prkStart s op force) := by
  refine h.trans ?_ hL
  unfold State.prkStart
  repeat' with_reducible (first | apply refl | assumption | apply drainStart | apply fabMod | apply prkFail | apply raiseF | apply setF | apply setPrk | apply wrN | dsimp only | split | decide)

theorem execLoaderLoad {s : State} {force : Bool} : OutKeeps [.dram, .fab, .ports, .ink, .time, .intr, .ao, .smp, .ladder, .out, .win 0, .win 4, .win 6, .win 11, .win 16] s (execLoaderLoad force s) := by
  unfold Sys2Proof.Machine.execLoaderLoad
  repeat' with_reducible (first | refine OutKeeps.ok ?_ | apply refl | assumption | apply prkStart | apply ok | dsimp only | decide)

theorem execLoaderReprickBlock {s : State} {force : Bool} : OutKeeps [.dram, .fab, .ports, .ink, .time, .intr, .ao, .smp, .ladder, .out, .win 0, .win 4, .win 6, .win 11, .win 16] s (execLoaderReprickBlock force s) := by
  unfold Sys2Proof.Machine.execLoaderReprickBlock
  repeat' with_reducible (first | refine OutKeeps.ok ?_ | apply refl | assumption | apply prkStart | apply ok | dsimp only | decide)

theorem execLoaderRestorePinSet {s : State} {force : Bool} : OutKeeps [.dram, .fab, .ports, .ink, .time, .intr, .ao, .smp, .ladder, .out, .win 0, .win 4, .win 6, .win 11, .win 16] s (execLoaderRestorePinSet force s) := by
  unfold Sys2Proof.Machine.execLoaderRestorePinSet
  repeat' with_reducible (first | refine OutKeeps.ok ?_ | apply refl | assumption | apply prkStart | apply ok | dsimp only | decide)

theorem execLoaderReprickRegion {s : State} {force : Bool} : OutKeeps [.dram, .fab, .ports, .ink, .time, .intr, .ao, .smp, .ladder, .out, .win 0, .win 4, .win 6, .win 11, .win 16] s (execLoaderReprickRegion force s) := by
  unfold Sys2Proof.Machine.execLoaderReprickRegion
  repeat' with_reducible (first | refine OutKeeps.ok ?_ | apply refl | assumption | apply prkStart | apply ok | dsimp only | decide)

theorem prkAbort {s : State} (h : Keeps L0 s0 s) (hL : Part.sub [.fab, .win 11] L0 = true := by decide) :
    Keeps L0 s0 (State.prkAbort s) := by
  refine h.trans ?_ hL
  unfold State.prkAbort
  repeat' with_reducible (first | apply refl | assumption | apply prkFail | dsimp only | split | decide)

theorem execLoaderAbort {s : State} : OutKeeps [.fab, .win 11] s (execLoaderAbort s) := by
  unfold Sys2Proof.Machine.execLoaderAbort
  repeat' with_reducible (first | refine OutKeeps.ok ?_ | apply refl | assumption | apply prkAbort | apply ok | dsimp only | decide)

theorem spareTaken {s : State} {r b : Nat} (h : Keeps L0 s0 s) (hL : Part.sub [.win 11] L0 = true := by decide) :
    Keeps L0 s0 (State.spareTaken s r b) := by
  refine h.trans ?_ hL
  unfold State.spareTaken
  repeat' with_reducible (first | apply refl | assumption | refine when' ?_ _ (fun _ _ => ?_) | apply wr | dsimp only | decide)

theorem blockStart {s : State} {r b : Nat} (h : Keeps L0 s0 s) (hL : Part.sub [.dram, .fab, .ports, .ink, .time, .intr, .ao, .smp, .ladder, .out, .win 0, .win 4, .win 6, .win 11, .win 16] L0 = true := by decide) :
    Keeps L0 s0 (State.blockStart s r b) := by
  refine h.trans ?_ hL
  unfold State.blockStart
  repeat' with_reducible (first | apply refl | assumption | apply drainStart | apply jobMod | apply setPrk | apply spareTaken | dsimp only | split | refine fst (by assumption) ?_ | refine snd (by assumption) ?_ | decide)

theorem execLoaderVerifyDone {s : State} {err : Bool} : OutKeeps [.dram, .fab, .ports, .ink, .time, .intr, .ao, .smp, .ladder, .out, .draws, .win 0, .win 4, .win 6, .win 11, .win 16] s (execLoaderVerifyDone err s) := by
  unfold Sys2Proof.Machine.execLoaderVerifyDone
  repeat' with_reducible (first | refine OutKeeps.ok ?_ | apply refl | assumption | apply blockStart | apply draw | apply jobMod | apply prkFail | apply setPrk | apply ok | dsimp only | split | refine fst (by assumption) ?_ | refine snd (by assumption) ?_ | decide)

theorem pinBack {s : State} {r b : Nat} (h : Keeps L0 s0 s) (hL : Part.sub [.dram, .fab, .ports, .ink, .time, .intr, .ao, .smp, .ladder, .out, .win 0, .win 4, .win 6, .win 11, .win 16] L0 = true := by decide) :
    Keeps L0 s0 (State.pinBack s r b) := by
  refine h.trans ?_ hL
  unfold State.pinBack
  repeat' with_reducible (first | apply refl | assumption | apply drainEnd | apply portRelease | apply setF | apply setPrk | dsimp only | split | (apply Part.win_port <;> decide) | decide)

theorem execLoaderDrainEnd {s : State} : OutKeeps [.dram, .fab, .ports, .ink, .mnd, .drn, .sto, .tot, .time, .upl, .shu, .intr, .hoop, .ao, .smp, .ladder, .pair, .out, .draws, .win 0, .win 2, .win 3, .win 4, .win 5, .win 6, .win 7, .win 10, .win 11, .win 16] s (execLoaderDrainEnd s) := by
  unfold Sys2Proof.Machine.execLoaderDrainEnd
  repeat' with_reducible (first | refine OutKeeps.ok ?_ | apply refl | assumption | apply dispose | apply drainEnd | apply jobMod | apply pinBack | apply setPrk | apply spareTaken | apply ok | dsimp only | split | refine fst (by assumption) ?_ | refine snd (by assumption) ?_ | decide)

theorem jobFails {s : State} {j : LoadJob} {e blk : Nat} {torn : Bool} (h : Keeps L0 s0 s) (hL : Part.sub [.dram, .fab, .ports, .ink, .mnd, .drn, .sto, .msm, .tot, .time, .upl, .shu, .intr, .hoop, .upd, .nor, .norHeld, .ao, .smp, .ladder, .pair, .pins, .out, .draws, .win 0, .win 1, .win 2, .win 3, .win 4, .win 5, .win 6, .win 7, .win 8, .win 9, .win 10, .win 11, .win 12, .win 13, .win 14, .win 15, .win 16] L0 = true := by decide) :
    Keeps L0 s0 (State.jobFails s j e blk torn) := by
  refine h.trans ?_ hL
  unfold State.jobFails
  repeat' with_reducible (first | apply refl | assumption | apply blockReport | apply fabMod | apply prkFail | dsimp only | split | decide)

theorem execLoaderWriteDone {s : State} {err : Bool} : OutKeeps [.dram, .fab, .ports, .ink, .mnd, .drn, .sto, .msm, .tot, .time, .upl, .shu, .intr, .hoop, .upd, .nor, .norHeld, .ao, .smp, .ladder, .pair, .pins, .out, .draws, .win 0, .win 1, .win 2, .win 3, .win 4, .win 5, .win 6, .win 7, .win 8, .win 9, .win 10, .win 11, .win 12, .win 13, .win 14, .win 15, .win 16] s (execLoaderWriteDone err s) := by
  unfold Sys2Proof.Machine.execLoaderWriteDone
  repeat' with_reducible (first | refine OutKeeps.ok ?_ | apply refl | assumption | apply jobFails | apply setPrk | apply ok | dsimp only | split | refine fst (by assumption) ?_ | refine snd (by assumption) ?_ | decide)

theorem regionShow {s : State} {r : Nat} (h : Keeps L0 s0 s) (hL : Part.sub [.win 0] L0 = true := by decide) :
    Keeps L0 s0 (State.regionShow s r) := by
  refine h.trans ?_ hL
  unfold State.regionShow
  repeat' with_reducible (first | apply refl | assumption | apply setRegion | dsimp only | split | decide)

theorem blockRelease {s : State} {r b : Nat} {x : Built} (h : Keeps L0 s0 s) (hL : Part.sub [.dram, .fab, .ports, .ink, .time, .intr, .ao, .smp, .ladder, .out, .win 0, .win 4, .win 6, .win 11, .win 16] L0 = true := by decide) :
    Keeps L0 s0 (State.blockRelease s r b x) := by
  refine h.trans ?_ hL
  unfold State.blockRelease
  repeat' with_reducible (first | apply refl | assumption | apply build | apply portRelease | apply regionShow | apply spareShow | apply wr | dsimp only | split | refine fst (by assumption) ?_ | refine snd (by assumption) ?_ | (apply Part.win_arr <;> decide) | decide)

theorem prkDone {s : State} (h : Keeps L0 s0 s) (hL : Part.sub [.fab, .upd, .win 11] L0 = true := by decide) :
    Keeps L0 s0 (State.prkDone s) := by
  refine h.trans ?_ hL
  unfold State.prkDone
  repeat' with_reducible (first | (apply f_upd; apply refl; decide) | apply refl | assumption | apply prkEnd | apply raiseF | dsimp only | split | refine fst (by assumption) ?_ | refine snd (by assumption) ?_ | apply f_upd | decide)

theorem prkLast {s : State} {j : LoadJob} (h : Keeps L0 s0 s) (hL : Part.sub [.win 11] L0 = true := by decide) :
    Keeps L0 s0 (State.prkLast s j) := by
  refine h.trans ?_ hL
  unfold State.prkLast
  repeat' with_reducible (first | apply refl | assumption | apply wrN | dsimp only | decide)

theorem execLoaderSelfTestDone {s : State} {fail : Bool} : OutKeeps [.dram, .fab, .ports, .ink, .mnd, .drn, .sto, .msm, .tot, .time, .upl, .shu, .intr, .hoop, .upd, .nor, .norHeld, .ao, .smp, .ladder, .pair, .pins, .out, .draws, .win 0, .win 1, .win 2, .win 3, .win 4, .win 5, .win 6, .win 7, .win 8, .win 9, .win 10, .win 11, .win 12, .win 13, .win 14, .win 15, .win 16] s (execLoaderSelfTestDone fail s) := by
  unfold Sys2Proof.Machine.execLoaderSelfTestDone
  repeat' with_reducible (first | refine OutKeeps.ok ?_ | apply refl | assumption | apply blockRelease | apply blockReport | apply blockStart | apply jobFails | apply jobMod | apply mapsSet | apply prkDone | apply prkFail | apply prkLast | apply raiseBit | apply regionBuild | apply regionSet | apply regionShow | apply setPrk | apply spareSet | apply spareShow | apply ok | dsimp only | split | refine fst (by assumption) ?_ | refine snd (by assumption) ?_ | decide)

theorem execSubstitutionComplete {s : State} {n : Nat} {bad : Bool} : OutKeeps [.dram, .fab, .ports, .ink, .mnd, .drn, .sto, .msm, .tot, .time, .upl, .shu, .intr, .hoop, .upd, .nor, .norHeld, .ao, .smp, .ladder, .pair, .pins, .out, .draws, .win 0, .win 1, .win 2, .win 3, .win 4, .win 5, .win 6, .win 7, .win 8, .win 9, .win 10, .win 11, .win 12, .win 13, .win 14, .win 15, .win 16] s (execSubstitutionComplete n bad s) := by
  unfold Sys2Proof.Machine.execSubstitutionComplete
  repeat' with_reducible (first | refine OutKeeps.ok ?_ | apply refl | assumption | apply blockReport | apply build | apply fabMod | apply portRelease | apply prkIdle | apply raiseBit | apply report | apply setF | apply setRegion | apply spareSet | apply spareShow | apply ok | dsimp only | split | refine fst (by assumption) ?_ | refine snd (by assumption) ?_ | (apply Part.win_port <;> decide) | decide)

theorem execSpareSelfTest {s : State} {r x : Nat} {fail : Bool} : OutKeeps [.dram, .fab, .ports, .ink, .mnd, .drn, .sto, .msm, .tot, .time, .upl, .shu, .intr, .hoop, .upd, .nor, .norHeld, .ao, .smp, .ladder, .pair, .pins, .out, .draws, .win 0, .win 1, .win 2, .win 3, .win 4, .win 5, .win 6, .win 7, .win 8, .win 9, .win 10, .win 11, .win 12, .win 13, .win 14, .win 15, .win 16] s (execSpareSelfTest r x fail s) := by
  unfold Sys2Proof.Machine.execSpareSelfTest
  repeat' with_reducible (first | refine OutKeeps.ok ?_ | apply refl | assumption | apply blockReport | apply ok | dsimp only | split | decide)

theorem readback {s : State} {path : Nat} (h : Keeps L0 s0 s) (hL : Part.sub [.fab, .win 11] L0 = true := by decide) :
    Keeps L0 s0 (State.readback s path) := by
  refine h.trans ?_ hL
  unfold State.readback
  repeat' with_reducible (first | apply refl | assumption | apply fabMod | apply raiseF | apply setF | dsimp only | split | decide)

theorem execReadbackStart {s : State} {path : Nat} : OutKeeps [.fab, .win 11] s (execReadbackStart path s) := by
  unfold Sys2Proof.Machine.execReadbackStart
  repeat' with_reducible (first | refine OutKeeps.ok ?_ | apply refl | assumption | apply readback | apply ok | dsimp only | decide)

theorem execReadbackDone {s : State} : OutKeeps [.fab, .draws, .win 11] s (execReadbackDone s) := by
  unfold Sys2Proof.Machine.execReadbackDone
  repeat' with_reducible (first | refine OutKeeps.ok ?_ | apply refl | assumption | apply draw | refine each' ?_ _ (fun _ _ _ => ?_) | apply fabMod | apply readback | apply setF | apply wrN | apply ok | dsimp only | split | refine fst (by assumption) ?_ | refine snd (by assumption) ?_ | (apply Part.win_arr <;> decide) | decide)

end Sys2Proof.Machine.Keeps
end

