-- ==== Sys2Proof/Laws/KUplink.lean ====
section
/-! SUPPORT. Sys2Proof/Laws/KUplink.lean: what each operation of Machine/Uplink.lean touches and keeps. -/

set_option Elab.async false

namespace Sys2Proof.Machine.Keeps

set_option linter.unusedTactic false
set_option linter.unreachableTactic false

variable {L0 : List Part} {s0 : State}

theorem batchClose {s : State} {k created : Nat} {dayclose : Bool} (h : Keeps L0 s0 s) (hL : Part.sub [.dram, .sto, .upl, .pair, .out, .win 9, .win 10] L0 = true := by decide) :
    Keeps L0 s0 (State.batchClose s k created dayclose) := by
  refine h.trans ?_ hL
  unfold State.batchClose
  repeat' with_reducible (first | apply refl | assumption | apply bump | apply partMod | apply partSave | apply raiseF | refine when' ?_ _ (fun _ _ => ?_) | refine foldlFst ?_ _ (fun _ _ _ => ?_) | refine foldl' ?_ _ (fun _ _ _ => ?_) | dsimp only | split | (apply Part.win_arr <;> decide) | decide)

theorem execBatchClose {s : State} {k : Nat} : OutKeeps [.dram, .sto, .upl, .pair, .out, .win 9, .win 10] s (execBatchClose k s) := by
  unfold Sys2Proof.Machine.execBatchClose
  repeat' with_reducible (first | refine OutKeeps.ok ?_ | apply refl | assumption | apply batchClose | apply ok | dsimp only | split | decide)

theorem manifestSend {s : State} {k : Nat} (h : Keeps L0 s0 s) (hL : Part.sub [.upl, .win 10] L0 = true := by decide) :
    Keeps L0 s0 (State.manifestSend s k) := by
  refine h.trans ?_ hL
  unfold State.manifestSend
  repeat' with_reducible (first | apply refl | assumption | apply bump | refine each' ?_ _ (fun _ _ _ => ?_) | apply partMod | apply sessSay | dsimp only | split | refine fst (by assumption) ?_ | refine snd (by assumption) ?_ | decide)

theorem execBatchSend {s : State} {k : Nat} : OutKeeps [.upl, .win 10] s (execBatchSend k s) := by
  unfold Sys2Proof.Machine.execBatchSend
  repeat' with_reducible (first | refine OutKeeps.ok ?_ | apply refl | assumption | apply bump | apply manifestSend | apply partMod | apply sessSay | refine when' ?_ _ (fun _ _ => ?_) | apply ok | dsimp only | split | refine fst (by assumption) ?_ | refine snd (by assumption) ?_ | decide)

theorem batchAgain {s : State} {k fromSeq : Nat} (h : Keeps L0 s0 s) (hL : Part.sub [.upl, .out] L0 = true := by decide) :
    Keeps L0 s0 (State.batchAgain s k fromSeq) := by
  refine h.trans ?_ hL
  unfold State.batchAgain
  repeat' with_reducible (first | (apply f_out; apply refl; decide) | apply refl | assumption | apply partMod | dsimp only | split | apply f_out | decide)

theorem batchAck {s : State} {k bseq status : Nat} (h : Keeps L0 s0 s) (hL : Part.sub [.dram, .sto, .upl, .smp, .pair, .out, .win 4, .win 9, .win 10] L0 = true := by decide) :
    Keeps L0 s0 (State.batchAck s k bseq status) := by
  refine h.trans ?_ hL
  unfold State.batchAck
  repeat' with_reducible (first | apply refl | assumption | apply batchAgain | apply partMod | apply partSave | apply raiseF | apply report | apply setF | refine foldlFst ?_ _ (fun _ _ _ => ?_) | refine foldl' ?_ _ (fun _ _ _ => ?_) | dsimp only | split | refine fst (by assumption) ?_ | refine snd (by assumption) ?_ | (apply Part.win_arr <;> decide) | decide)

theorem manifestAck {s : State} {k day status : Nat} (h : Keeps L0 s0 s) (hL : Part.sub [.dram, .sto, .upl, .pair, .out, .win 9, .win 10] L0 = true := by decide) :
    Keeps L0 s0 (State.manifestAck s k day status) := by
  refine h.trans ?_ hL
  unfold State.manifestAck
  repeat' with_reducible (first | apply refl | assumption | apply partMod | apply partSave | dsimp only | split | decide)

theorem execDayBoundary {s : State} : OutKeeps [.dram, .sto, .upl, .pair, .out, .win 9, .win 10] s (execDayBoundary s) := by
  unfold Sys2Proof.Machine.execDayBoundary
  repeat' with_reducible (first | refine OutKeeps.ok ?_ | apply refl | assumption | apply batchClose | refine each' ?_ _ (fun _ _ _ => ?_) | apply partMod | apply partSave | apply ok | dsimp only | split | decide)

theorem execManifestSigned {s : State} {k : Nat} : OutKeeps [.dram, .sto, .upl, .pair, .out, .win 9, .win 10] s (execManifestSigned k s) := by
  unfold Sys2Proof.Machine.execManifestSigned
  repeat' with_reducible (first | refine OutKeeps.ok ?_ | apply refl | assumption | apply manifestSend | apply partMod | apply partSave | apply raiseF | apply ok | dsimp only | split | refine fst (by assumption) ?_ | refine snd (by assumption) ?_ | decide)

theorem sessEnd {s : State} {code : Nat} (h : Keeps L0 s0 s) (hL : Part.sub [.win 10] L0 = true := by decide) :
    Keeps L0 s0 (State.sessEnd s code) := by
  refine h.trans ?_ hL
  unfold State.sessEnd
  repeat' with_reducible (first | apply refl | assumption | apply raiseF | apply setF | dsimp only | split | decide)

theorem keyLook {s : State} {n v : Nat} (h : Keeps L0 s0 s) (hL : Part.sub [.dram, .upl, .win 10] L0 = true := by decide) :
    Keeps L0 s0 (State.keyLook s n v) := by
  refine h.trans ?_ hL
  unfold State.keyLook
  repeat' with_reducible (first | apply refl | assumption | apply raiseF | apply sessStop | refine when' ?_ _ (fun _ _ => ?_) | dsimp only | split | decide)

theorem execSessionOpen {s : State} {n : Nat} : OutKeeps [.dram, .upl, .out, .win 10] s (execSessionOpen n s) := by
  unfold Sys2Proof.Machine.execSessionOpen
  repeat' with_reducible (first | refine OutKeeps.ok ?_ | apply refl | assumption | apply batchAgain | apply ctxWrite | apply keyLook | apply manifestSend | apply partMod | apply sessEnd | apply sessMod | apply ok | dsimp only | split | (apply Part.win_arr <;> decide) | decide)

theorem execSessionResume {s : State} {n : Nat} : OutKeeps [.dram, .upl, .win 10] s (execSessionResume n s) := by
  unfold Sys2Proof.Machine.execSessionResume
  repeat' with_reducible (first | refine OutKeeps.ok ?_ | apply refl | assumption | apply ctxWrite | apply keyLook | apply sessEnd | apply sessMod | apply ok | dsimp only | split | decide)

theorem execSessionClose {s : State} {n : Nat} : OutKeeps [.dram, .upl, .win 10] s (execSessionClose n s) := by
  unfold Sys2Proof.Machine.execSessionClose
  repeat' with_reducible (first | refine OutKeeps.ok ?_ | apply refl | assumption | apply sessClose | apply sessEnd | apply ok | dsimp only | split | decide)

theorem execSessionSync {s : State} {n : Nat} : OutKeeps [.dram, .win 10] s (execSessionSync n s) := by
  unfold Sys2Proof.Machine.execSessionSync
  repeat' with_reducible (first | refine OutKeeps.ok ?_ | apply refl | assumption | apply ctxWrite | apply sessEnd | apply ok | dsimp only | split | decide)

theorem doorbell {s : State} {n which v : Nat} (h : Keeps L0 s0 s) (hL : Part.sub [.upl] L0 = true := by decide) :
    Keeps L0 s0 (State.doorbell s n which v) := by
  refine h.trans ?_ hL
  unfold State.doorbell
  repeat' with_reducible (first | apply refl | assumption | apply sessMod | dsimp only | split | decide)

theorem execSessionDoorbell {s : State} {n which v : Nat} : OutKeeps [.upl] s (execSessionDoorbell n which v s) := by
  unfold Sys2Proof.Machine.execSessionDoorbell
  repeat' with_reducible (first | refine OutKeeps.ok ?_ | apply refl | assumption | apply doorbell | apply ok | dsimp only | decide)

theorem execHandshakeSign {s : State} {n : Nat} {content : Bytes} : OutKeeps [.out] s (execHandshakeSign n content s) := by
  unfold Sys2Proof.Machine.execHandshakeSign
  repeat' with_reducible (first | refine OutKeeps.ok ?_ | apply refl | assumption | apply emit | apply ok | dsimp only | split | decide)

theorem execRoleBind {s : State} {n r : Nat} {good : Bool} : OutKeeps [.win 10] s (execRoleBind n r good s) := by
  unfold Sys2Proof.Machine.execRoleBind
  repeat' with_reducible (first | refine OutKeeps.ok ?_ | apply refl | assumption | apply setRole | apply ok | dsimp only | split | decide)

theorem ringWrite {s : State} {base log off : Nat} {b : Bytes} (h : Keeps L0 s0 s) (hL : Part.sub [.dram] L0 = true := by decide) :
    Keeps L0 s0 (State.ringWrite s base log off b) := by
  refine h.trans ?_ hL
  unfold State.ringWrite
  repeat' with_reducible (first | apply refl | assumption | apply wrMem | dsimp only | decide)

theorem msgTake {s : State} {n type : Nat} {b : Bytes} (h : Keeps L0 s0 s) (hL : Part.sub [.dram, .ink, .sto, .upl, .smp, .pair, .out, .win 4, .win 6, .win 9, .win 10] L0 = true := by decide) :
    Keeps L0 s0 (State.msgTake s n type b) := by
  refine h.trans ?_ hL
  unfold State.msgTake
  repeat' with_reducible (first | apply refl | assumption | apply batchAck | apply bump | apply ingEnter | apply manifestAck | apply sessStop | dsimp only | split | refine fst (by assumption) ?_ | refine snd (by assumption) ?_ | decide)

theorem msgParse {s : State} {n k : Nat} (h : Keeps L0 s0 s) (hL : Part.sub [.dram, .ink, .sto, .upl, .smp, .pair, .out, .win 4, .win 6, .win 9, .win 10] L0 = true := by decide) :
    Keeps L0 s0 (State.msgParse s n k) := by
  refine h.trans ?_ hL
  clear h hL
  fun_induction State.msgParse s n k <;>
  repeat' with_reducible (first | apply refl | assumption | refine trans ?_ (by assumption) (by decide) | apply msgTake | apply sessMod | apply sessStop | dsimp only | split | refine fst (by assumption) ?_ | refine snd (by assumption) ?_ | decide)

theorem recTaken {s : State} {n len : Nat} (h : Keeps L0 s0 s) (hL : Part.sub [.dram, .upl, .win 10] L0 = true := by decide) :
    Keeps L0 s0 (State.recTaken s n len) := by
  refine h.trans ?_ hL
  unfold State.recTaken
  repeat' with_reducible (first | apply refl | assumption | apply keyLook | apply raiseBit | apply sessMod | apply wrMem | dsimp only | decide)

theorem recReceive {s : State} {n : Nat} (h : Keeps L0 s0 s) (hL : Part.sub [.dram, .ink, .sto, .upl, .smp, .pair, .out, .win 4, .win 6, .win 9, .win 10] L0 = true := by decide) :
    Keeps L0 s0 (State.recReceive s n) := by
  refine h.trans ?_ hL
  unfold State.recReceive
  repeat' with_reducible (first | apply refl | assumption | apply msgParse | apply recTaken | apply sessMod | apply sessStop | dsimp only | split | refine fst (by assumption) ?_ | refine snd (by assumption) ?_ | decide)

theorem execTlsRecordReceive {s : State} {n : Nat} : OutKeeps [.dram, .ink, .sto, .upl, .smp, .pair, .out, .win 4, .win 6, .win 9, .win 10] s (execTlsRecordReceive n s) := by
  unfold Sys2Proof.Machine.execTlsRecordReceive
  repeat' with_reducible (first | refine OutKeeps.ok ?_ | apply refl | assumption | apply msgParse | apply recReceive | apply ok | dsimp only | split | decide)

theorem execTlsRecordTransmit {s : State} {n : Nat} : OutKeeps [.dram, .upl, .win 10] s (execTlsRecordTransmit n s) := by
  unfold Sys2Proof.Machine.execTlsRecordTransmit
  repeat' with_reducible (first | refine OutKeeps.ok ?_ | apply refl | assumption | apply keyLook | apply raiseBit | apply ringWrite | apply sessMod | apply wrMem | apply ok | dsimp only | split | decide)

theorem execResultMessageSend {s : State} {n : Nat} : OutKeeps [.upl, .win 10] s (execResultMessageSend n s) := by
  unfold Sys2Proof.Machine.execResultMessageSend
  repeat' with_reducible (first | refine OutKeeps.ok ?_ | apply refl | assumption | apply bump | apply sessSay | apply uplMod | apply ok | dsimp only | split | decide)

end Sys2Proof.Machine.Keeps
end

