-- ==== Sys2Proof/Laws/KPair.lean ====
section
/-! SUPPORT. Sys2Proof/Laws/KPair.lean: what each operation of Machine/Pair.lean touches and keeps. -/

set_option Elab.async false

namespace Sys2Proof.Machine.Keeps

set_option linter.unusedTactic false
set_option linter.unreachableTactic false

variable {L0 : List Part} {s0 : State}

theorem setSense {s : State} {b : Bool} (h : Keeps L0 s0 s) (hL : Part.sub [.win 4] L0 = true := by decide) :
    Keeps L0 s0 (State.setSense s b) := by
  refine h.trans ?_ hL
  unfold State.setSense
  repeat' with_reducible (first | apply refl | assumption | apply setF | dsimp only | decide)

theorem execPairStatusSend {s : State} : OutKeeps [.pair, .out] s (execPairStatusSend s) := by
  unfold Sys2Proof.Machine.execPairStatusSend
  repeat' with_reducible (first | refine OutKeeps.ok ?_ | apply refl | assumption | apply pairSend | apply ok | dsimp only | split | decide)

theorem pairGiveUp {s : State} (h : Keeps L0 s0 s) (hL : Part.sub [.time, .smp, .pair, .out, .win 2, .win 4] L0 = true := by decide) :
    Keeps L0 s0 (State.pairGiveUp s) := by
  refine h.trans ?_ hL
  unfold State.pairGiveUp
  repeat' with_reducible (first | apply refl | assumption | apply pairMod | apply pairRelease | apply sendKeeper | dsimp only | split | decide)

theorem execPairStatusTimeout {s : State} : OutKeeps [.ink, .time, .smp, .pair, .win 2, .win 4] s (execPairStatusTimeout s) := by
  unfold Sys2Proof.Machine.execPairStatusTimeout
  repeat' with_reducible (first | refine OutKeeps.ok ?_ | apply refl | assumption | apply pairLost | apply ok | dsimp only | split | decide)

theorem execMirrorTimeout {s : State} : OutKeeps [.ink, .time, .smp, .pair, .win 2, .win 4] s (execMirrorTimeout s) := by
  unfold Sys2Proof.Machine.execMirrorTimeout
  repeat' with_reducible (first | refine OutKeeps.ok ?_ | apply refl | assumption | apply pairLost | apply ok | dsimp only | split | decide)

theorem bothActive {s : State} (h : Keeps L0 s0 s) (hL : Part.sub [.time, .smp, .pair, .out, .win 2, .win 4] L0 = true := by decide) :
    Keeps L0 s0 (State.bothActive s) := by
  refine h.trans ?_ hL
  unfold State.bothActive
  repeat' with_reducible (first | apply refl | assumption | apply pairGiveUp | dsimp only | split | decide)

theorem execBothHolding {s : State} : OutKeeps [.time, .smp, .pair, .out, .win 2, .win 4] s (execBothHolding s) := by
  unfold Sys2Proof.Machine.execBothHolding
  repeat' with_reducible (first | refine OutKeeps.ok ?_ | apply refl | assumption | apply pairGiveUp | apply setSense | apply ok | dsimp only | split | decide)

theorem pairAskResend {s : State} (h : Keeps L0 s0 s) (hL : Part.sub [.out] L0 = true := by decide) :
    Keeps L0 s0 (State.pairAskResend s) := by
  refine h.trans ?_ hL
  unfold State.pairAskResend
  repeat' with_reducible (first | apply refl | assumption | apply emit | dsimp only | decide)

theorem pairResend {s : State} {frm : Nat} (h : Keeps L0 s0 s) (hL : Part.sub [.out] L0 = true := by decide) :
    Keeps L0 s0 (State.pairResend s frm) := by
  refine h.trans ?_ hL
  unfold State.pairResend
  repeat' with_reducible (first | apply refl | assumption | refine each' ?_ _ (fun _ _ _ => ?_) | apply emit | dsimp only | decide)

theorem statusIn {s : State} {b : Bytes} (h : Keeps L0 s0 s) (hL : Part.sub [.time, .smp, .pair, .out, .win 2, .win 4] L0 = true := by decide) :
    Keeps L0 s0 (State.statusIn s b) := by
  refine h.trans ?_ hL
  unfold State.statusIn
  repeat' with_reducible (first | apply refl | assumption | apply bothActive | apply pairMod | apply pairMove | apply report | apply setF | refine when' ?_ _ (fun _ _ => ?_) | dsimp only | split | decide)

theorem slotIn_ {s : State} {n : Nat} {e' : Bytes} (h : Keeps L0 s0 s) (hL : Part.sub [.dram, .ink, .sto, .msm] L0 = true := by decide) :
    Keeps L0 s0 (State.slotIn_ s n e') := by
  refine h.trans ?_ hL
  unfold State.slotIn_
  repeat' with_reducible (first | (apply f_msm; apply refl; decide) | apply refl | assumption | apply addrDrop | apply addrTake | apply jour | apply kcSlot | apply titleDrop | apply titlePlace | refine when' ?_ _ (fun _ _ => ?_) | dsimp only | split | apply f_msm | decide)

theorem liveSlot {s : State} {n : Nat} (h : Keeps L0 s0 s) (hL : Part.sub [.pair] L0 = true := by decide) :
    Keeps L0 s0 (State.liveSlot s n) := by
  refine h.trans ?_ hL
  unfold State.liveSlot
  repeat' with_reducible (first | apply refl | assumption | apply pairMod | dsimp only | split | decide)

theorem commitIn {s : State} {b : Bytes} (h : Keeps L0 s0 s) (hL : Part.sub [.dram, .sto, .msm, .pair, .win 6, .win 9] L0 = true := by decide) :
    Keeps L0 s0 (State.commitIn s b) := by
  refine h.trans ?_ hL
  unfold State.commitIn
  repeat' with_reducible (first | apply refl | assumption | apply counterUpdate | apply jour | apply liveSlot | apply recAdd | apply recUnitPut | apply wrMem | apply wrN | refine foldlFst ?_ _ (fun _ _ _ => ?_) | refine foldl' ?_ _ (fun _ _ _ => ?_) | dsimp only | split | refine fst (by assumption) ?_ | refine snd (by assumption) ?_ | decide)

theorem samplerIn {s : State} {b : Bytes} (h : Keeps L0 s0 s) (hL : Part.sub [.dram, .sto, .win 9] L0 = true := by decide) :
    Keeps L0 s0 (State.samplerIn s b) := by
  refine h.trans ?_ hL
  unfold State.samplerIn
  repeat' with_reducible (first | apply refl | assumption | apply storePut | dsimp only | decide)

theorem exportIn {s : State} {b : Bytes} (h : Keeps L0 s0 s) (hL : Part.sub [.dram, .sto, .upl, .win 9, .win 10] L0 = true := by decide) :
    Keeps L0 s0 (State.exportIn s b) := by
  refine h.trans ?_ hL
  unfold State.exportIn
  repeat' with_reducible (first | apply refl | assumption | apply partMod | apply partShow | apply storePut | refine when' ?_ _ (fun _ _ => ?_) | dsimp only | decide)

theorem tailIn {s : State} {pos : Nat} (h : Keeps L0 s0 s) (hL : Part.sub [.dram, .sto, .pair, .out, .win 9] L0 = true := by decide) :
    Keeps L0 s0 (State.tailIn s pos) := by
  refine h.trans ?_ hL
  unfold State.tailIn
  repeat' with_reducible (first | apply refl | assumption | apply did | apply execRecTailWrite | dsimp only | decide)

theorem bulkIn {s : State} {b : Bytes} (h : Keeps L0 s0 s) (hL : Part.sub [.dram, .ink, .sto, .msm, .upl, .pair, .win 9, .win 10] L0 = true := by decide) :
    Keeps L0 s0 (State.bulkIn s b) := by
  refine h.trans ?_ hL
  unfold State.bulkIn
  repeat' with_reducible (first | apply refl | assumption | apply exportIn | apply pairMod | apply slotIn_ | apply storePut | apply wrMem | dsimp only | split | refine fst (by assumption) ?_ | refine snd (by assumption) ?_ | decide)

theorem pairConfirm {s : State} (h : Keeps L0 s0 s) (hL : Part.sub [.pair, .out] L0 = true := by decide) :
    Keeps L0 s0 (State.pairConfirm s) := by
  refine h.trans ?_ hL
  unfold State.pairConfirm
  repeat' with_reducible (first | apply refl | assumption | apply pairSend | dsimp only | split | decide)

theorem pairHandle {s : State} {type : Nat} {b : Bytes} (h : Keeps L0 s0 s) (hL : Part.sub [.dram, .ink, .sto, .msm, .time, .upl, .smp, .pair, .out, .win 2, .win 4, .win 6, .win 9, .win 10] L0 = true := by decide) :
    Keeps L0 s0 (State.pairHandle s type b) := by
  refine h.trans ?_ hL
  unfold State.pairHandle
  repeat' with_reducible (first | apply refl | assumption | apply bulkIn | apply commitIn | apply exportIn | apply liveSlot | apply pairConfirm | apply pairMod | apply samplerIn | apply setF | apply slotIn_ | apply statusIn | apply tailIn | dsimp only | split | refine fst (by assumption) ?_ | refine snd (by assumption) ?_ | decide)

theorem execPairMessageReceive {s : State} {b : Bytes} : OutKeeps [.dram, .ink, .sto, .msm, .time, .upl, .smp, .pair, .out, .win 2, .win 4, .win 6, .win 9, .win 10] s (execPairMessageReceive b s) := by
  unfold Sys2Proof.Machine.execPairMessageReceive
  repeat' with_reducible (first | refine OutKeeps.ok ?_ | apply refl | assumption | apply pairAskResend | apply pairHandle | apply pairMod | apply pairResend | apply ok | dsimp only | split | decide)

theorem execPairSenseStable {s : State} : OutKeeps [.pair, .win 4] s (execPairSenseStable s) := by
  unfold Sys2Proof.Machine.execPairSenseStable
  repeat' with_reducible (first | refine OutKeeps.ok ?_ | apply refl | assumption | apply pairMod | apply setF | apply setSense | apply ok | dsimp only | split | decide)

theorem execTakeoverSample {s : State} {low : Bool} : OutKeeps [.ports, .time, .ao, .smp, .pair, .out, .draws, .win 2, .win 4, .win 16] s (execTakeoverSample low s) := by
  unfold Sys2Proof.Machine.execTakeoverSample
  repeat' with_reducible (first | refine OutKeeps.ok ?_ | apply refl | assumption | apply pairActive | apply pairMod | apply setF | apply setSense | apply ok | dsimp only | split | decide)

theorem witInstall {s : State} {exp : Nat} (h : Keeps L0 s0 s) (hL : Part.sub [.time, .ao, .smp, .pair, .win 2, .win 4] L0 = true := by decide) :
    Keeps L0 s0 (State.witInstall s exp) := by
  refine h.trans ?_ hL
  unfold State.witInstall
  repeat' with_reducible (first | apply refl | assumption | apply aoMod | apply pairMod | apply pairMove | apply wrN | dsimp only | split | refine fst (by assumption) ?_ | refine snd (by assumption) ?_ | decide)

theorem execWitnessInstall {s : State} {exp : Nat} : OutKeeps [.time, .ao, .smp, .pair, .win 2, .win 4] s (execWitnessInstall exp s) := by
  unfold Sys2Proof.Machine.execWitnessInstall
  repeat' with_reducible (first | refine OutKeeps.ok ?_ | apply refl | assumption | apply witInstall | apply ok | dsimp only | decide)

theorem execWitnessWaitExpire {s : State} : OutKeeps [.time, .smp, .pair, .out, .win 2, .win 4] s (execWitnessWaitExpire s) := by
  unfold Sys2Proof.Machine.execWitnessWaitExpire
  repeat' with_reducible (first | refine OutKeeps.ok ?_ | apply refl | assumption | apply pairGiveUp | apply ok | dsimp only | split | decide)

theorem execWitnessExpire {s : State} : OutKeeps [.time, .smp, .pair, .out, .win 2, .win 4] s (execWitnessExpire s) := by
  unfold Sys2Proof.Machine.execWitnessExpire
  repeat' with_reducible (first | refine OutKeeps.ok ?_ | apply refl | assumption | apply pairGiveUp | apply ok | dsimp only | split | decide)

theorem execPairYield {s : State} : OutKeeps [.time, .smp, .pair, .out, .win 2, .win 4] s (execPairYield s) := by
  unfold Sys2Proof.Machine.execPairYield
  repeat' with_reducible (first | refine OutKeeps.ok ?_ | apply refl | assumption | apply pairYield | apply ok | dsimp only | decide)

theorem pairEnWrite {s : State} {en : Bool} (h : Keeps L0 s0 s) (hL : Part.sub [.time, .smp, .pair, .win 2, .win 4] L0 = true := by decide) :
    Keeps L0 s0 (State.pairEnWrite s en) := by
  refine h.trans ?_ hL
  unfold State.pairEnWrite
  repeat' with_reducible (first | apply refl | assumption | apply pairMod | apply pairMove | apply report | apply setF | dsimp only | split | decide)

theorem execPairEnWrite {s : State} {en : Bool} : OutKeeps [.time, .smp, .pair, .win 2, .win 4] s (execPairEnWrite en s) := by
  unfold Sys2Proof.Machine.execPairEnWrite
  repeat' with_reducible (first | refine OutKeeps.ok ?_ | apply refl | assumption | apply pairEnWrite | apply ok | dsimp only | decide)

theorem execPairStartTimeout {s : State} : OutKeeps [.win 4] s (execPairStartTimeout s) := by
  unfold Sys2Proof.Machine.execPairStartTimeout
  repeat' with_reducible (first | refine OutKeeps.ok ?_ | apply refl | assumption | apply raiseF | apply ok | dsimp only | split | decide)

theorem syncAt {s : State} {p : Nat} (h : Keeps L0 s0 s) (hL : Part.sub [.pair, .win 4] L0 = true := by decide) :
    Keeps L0 s0 (State.syncAt s p) := by
  refine h.trans ?_ hL
  unfold State.syncAt
  repeat' with_reducible (first | apply refl | assumption | apply pairMod | apply setF | dsimp only | decide)

theorem bulkOut {s : State} {area n : Nat} {d : Bytes} (h : Keeps L0 s0 s) (hL : Part.sub [.pair, .out] L0 = true := by decide) :
    Keeps L0 s0 (State.bulkOut s area n d) := by
  refine h.trans ?_ hL
  unfold State.bulkOut
  repeat' with_reducible (first | apply refl | assumption | apply pairMod | apply pairSend | dsimp only | decide)

theorem bulkTables {s : State} (h : Keeps L0 s0 s) (hL : Part.sub [.pair, .out] L0 = true := by decide) :
    Keeps L0 s0 (State.bulkTables s) := by
  refine h.trans ?_ hL
  unfold State.bulkTables
  repeat' with_reducible (first | apply refl | assumption | apply bulkOut | refine each' ?_ _ (fun _ _ _ => ?_) | dsimp only | decide)

theorem bulkRecs {s : State} {a b : Nat} (h : Keeps L0 s0 s) (hL : Part.sub [.pair, .out] L0 = true := by decide) :
    Keeps L0 s0 (State.bulkRecs s a b) := by
  refine h.trans ?_ hL
  unfold State.bulkRecs
  repeat' with_reducible (first | apply refl | assumption | apply bulkOut | refine each' ?_ _ (fun _ _ _ => ?_) | dsimp only | split | decide)

theorem execResyncStart {s : State} : OutKeeps [.time, .ao, .smp, .pair, .out, .win 2, .win 4] s (execResyncStart s) := by
  unfold Sys2Proof.Machine.execResyncStart
  repeat' with_reducible (first | refine OutKeeps.ok ?_ | apply refl | assumption | apply aoMod | apply bulkTables | apply pairMod | apply pairMove | apply sendKeeper | apply syncAt | refine when' ?_ _ (fun _ _ => ?_) | apply ok | dsimp only | split | decide)

theorem execResyncPhaseDone {s : State} : OutKeeps [.time, .smp, .pair, .out, .win 2, .win 4] s (execResyncPhaseDone s) := by
  unfold Sys2Proof.Machine.execResyncPhaseDone
  repeat' with_reducible (first | refine OutKeeps.ok ?_ | apply refl | assumption | apply bulkRecs | apply pairMove | apply setF | apply syncAt | apply ok | dsimp only | split | refine fst (by assumption) ?_ | refine snd (by assumption) ?_ | decide)

theorem execUplinkLinkChange {s : State} {link width gen : Nat} {up : Bool} : OutKeeps [.win 10] s (execUplinkLinkChange link up width gen s) := by
  unfold Sys2Proof.Machine.execUplinkLinkChange
  repeat' with_reducible (first | refine OutKeeps.ok ?_ | apply refl | assumption | apply raiseF | apply setF | apply ok | dsimp only | split | refine fst (by assumption) ?_ | refine snd (by assumption) ?_ | decide)

end Sys2Proof.Machine.Keeps
end

