-- ==== Sys2Proof/Laws/KUpdate.lean ====
section
/-! SUPPORT. Sys2Proof/Laws/KUpdate.lean: what each operation of Machine/Update.lean touches and keeps. -/

set_option Elab.async false

namespace Sys2Proof.Machine.Keeps

set_option linter.unusedTactic false
set_option linter.unreachableTactic false

variable {L0 : List Part} {s0 : State}

theorem updMod {s : State} {f : UpdState → UpdState} (h : Keeps L0 s0 s) (hL : Part.sub [.upd] L0 = true := by decide) :
    Keeps L0 s0 (State.updMod s f) := by
  refine h.trans ?_ hL
  unfold State.updMod
  repeat' with_reducible (first | (apply f_upd; apply refl; decide) | apply refl | assumption | dsimp only | apply f_upd | decide)

theorem updIdle {s : State} (h : Keeps L0 s0 s) (hL : Part.sub [.upd, .win 11] L0 = true := by decide) :
    Keeps L0 s0 (State.updIdle s) := by
  refine h.trans ?_ hL
  unfold State.updIdle
  repeat' with_reducible (first | apply refl | assumption | apply setF | apply updMod | dsimp only | decide)

theorem updDone {s : State} (h : Keeps L0 s0 s) (hL : Part.sub [.upd, .win 11] L0 = true := by decide) :
    Keeps L0 s0 (State.updDone s) := by
  refine h.trans ?_ hL
  unfold State.updDone
  repeat' with_reducible (first | apply refl | assumption | apply raiseF | apply setF | apply updIdle | dsimp only | decide)

theorem updFail {s : State} {err item : Nat} (h : Keeps L0 s0 s) (hL : Part.sub [.upd, .win 11] L0 = true := by decide) :
    Keeps L0 s0 (State.updFail s err item) := by
  refine h.trans ?_ hL
  unfold State.updFail
  repeat' with_reducible (first | apply refl | assumption | apply raiseF | apply setF | apply updIdle | dsimp only | decide)

theorem updGo {s : State} {op stg : Nat} {f : State → State} (h : Keeps L0 s0 s) (h_f : ∀ u, Keeps L0 s0 u → Keeps L0 s0 (f u)) (hL : Part.sub [.win 11] L0 = true := by decide) :
    Keeps L0 s0 (State.updGo s op stg f) := by
  unfold State.updGo
  repeat' with_reducible (first | apply refl | assumption | apply setF | apply h_f | dsimp only | split | (apply Part.sub_mem hL; decide) | (apply Part.sub_trans ?_ hL; decide) | decide)

theorem updVerify {s : State} {g : Nat} {err : Bool} (h : Keeps L0 s0 s) (hL : Part.sub [.ink, .upd, .win 6, .win 11] L0 = true := by decide) :
    Keeps L0 s0 (State.updVerify s g err) := by
  refine h.trans ?_ hL
  unfold State.updVerify
  repeat' with_reducible (first | apply refl | assumption | apply updDone | apply updFail | apply updMod | apply verified | dsimp only | split | refine fst (by assumption) ?_ | refine snd (by assumption) ?_ | decide)

theorem execUpdVerify {s : State} {stg : Nat} {err : Bool} : OutKeeps [.ink, .upd, .win 6, .win 11] s (execUpdVerify stg err s) := by
  unfold Sys2Proof.Machine.execUpdVerify
  repeat' with_reducible (first | refine OutKeeps.ok ?_ | apply refl | assumption | apply updGo | apply updVerify | apply ok | dsimp only | intro _ | decide)

theorem activate {s : State} {op g : Nat} (h : Keeps L0 s0 s) (hL : Part.sub [.ink, .upd, .nor, .win 6, .win 11] L0 = true := by decide) :
    Keeps L0 s0 (State.activate s op g) := by
  refine h.trans ?_ hL
  unfold State.activate
  repeat' with_reducible (first | apply refl | assumption | apply norErase | apply raiseF | apply setF | apply slotSet | apply updFail | apply updMod | apply verified | dsimp only | split | decide)

theorem execUpdActivateLive {s : State} {stg : Nat} : OutKeeps [.ink, .upd, .nor, .win 6, .win 11] s (execUpdActivateLive stg s) := by
  unfold Sys2Proof.Machine.execUpdActivateLive
  repeat' with_reducible (first | refine OutKeeps.ok ?_ | apply refl | assumption | apply activate | apply updGo | apply ok | dsimp only | intro _ | decide)

theorem execUpdActivateNextStart {s : State} {stg : Nat} : OutKeeps [.ink, .upd, .nor, .win 6, .win 11] s (execUpdActivateNextStart stg s) := by
  unfold Sys2Proof.Machine.execUpdActivateNextStart
  repeat' with_reducible (first | refine OutKeeps.ok ?_ | apply refl | assumption | apply activate | apply updGo | apply ok | dsimp only | intro _ | decide)

theorem slotCopy {s : State} {i : Nat} {rd : Nat → Bytes} (h : Keeps L0 s0 s) (hL : Part.sub [.nor] L0 = true := by decide) :
    Keeps L0 s0 (State.slotCopy s i rd) := by
  refine h.trans ?_ hL
  unfold State.slotCopy
  repeat' with_reducible (first | apply refl | assumption | apply dirWrite | refine each' ?_ _ (fun _ _ _ => ?_) | apply norPut | dsimp only | decide)

theorem slotTrial {s : State} {i : Nat} (h : Keeps L0 s0 s) (hL : Part.sub [.nor, .win 11] L0 = true := by decide) :
    Keeps L0 s0 (State.slotTrial s i) := by
  refine h.trans ?_ hL
  unfold State.slotTrial
  repeat' with_reducible (first | apply refl | assumption | apply raiseF | apply slotSet | dsimp only | decide)

theorem reprick {s : State} {r b : Nat} {x : Built} (h : Keeps L0 s0 s) (hL : Part.sub [.dram, .fab, .ports, .ink, .mnd, .drn, .sto, .tot, .time, .upl, .shu, .intr, .hoop, .ao, .smp, .ladder, .pair, .out, .draws, .win 0, .win 2, .win 3, .win 4, .win 5, .win 6, .win 7, .win 10, .win 11, .win 16] L0 = true := by decide) :
    Keeps L0 s0 (State.reprick s r b x) := by
  refine h.trans ?_ hL
  unfold State.reprick
  repeat' with_reducible (first | apply refl | assumption | apply blockRelease | apply dispose | apply drainEnd | apply drainStart | dsimp only | split | refine fst (by assumption) ?_ | refine snd (by assumption) ?_ | decide)

theorem regionLive {s : State} {r : Nat} {c : RunCont} (h : Keeps L0 s0 s) (hL : Part.sub [.dram, .fab, .ports, .ink, .mnd, .drn, .sto, .tot, .time, .upl, .shu, .intr, .hoop, .ao, .smp, .ladder, .pair, .out, .draws, .win 0, .win 2, .win 3, .win 4, .win 5, .win 6, .win 7, .win 9, .win 10, .win 11, .win 16] L0 = true := by decide) :
    Keeps L0 s0 (State.regionLive s r c) := by
  refine h.trans ?_ hL
  unfold State.regionLive
  repeat' with_reducible (first | apply refl | assumption | apply draw | refine each' ?_ _ (fun _ _ _ => ?_) | apply mapsSet | apply regionSet | apply reprick | dsimp only | decide)

theorem kindApply {s : State} {kind : Nat} {new : List RunCont} {rd : Nat → Bytes} (h : Keeps L0 s0 s) (hL : Part.sub [.dram, .fab, .ports, .ink, .mnd, .drn, .sto, .tot, .time, .upl, .shu, .intr, .hoop, .upd, .ao, .smp, .ladder, .pair, .out, .draws, .win 0, .win 2, .win 3, .win 4, .win 5, .win 6, .win 7, .win 9, .win 10, .win 11, .win 16] L0 = true := by decide) :
    Keeps L0 s0 (State.kindApply s kind new rd) := by
  refine h.trans ?_ hL
  unfold State.kindApply
  repeat' with_reducible (first | (apply f_ladder; apply refl; decide) | apply refl | assumption | refine each' ?_ _ (fun _ _ _ => ?_) | apply fieldImage | apply hoopImage | apply intFlush | apply regionLive | apply reprick | apply updMod | dsimp only | split | refine fst (by assumption) ?_ | refine snd (by assumption) ?_ | apply f_ladder | decide)

theorem activateNext {s : State} {j : UpdJob} {n : Nat} (h : Keeps L0 s0 s) (hL : Part.sub [.upd, .nor, .win 11] L0 = true := by decide) :
    Keeps L0 s0 (State.activateNext s j n) := by
  refine h.trans ?_ hL
  unfold State.activateNext
  repeat' with_reducible (first | apply refl | assumption | apply setF | apply slotTrial | apply updDone | apply updMod | dsimp only | split | refine fst (by assumption) ?_ | refine snd (by assumption) ?_ | decide)

theorem revert {s : State} {old : List RunCont} (h : Keeps L0 s0 s) (hL : Part.sub [.dram, .fab, .ports, .ink, .mnd, .drn, .sto, .tot, .time, .upl, .shu, .intr, .hoop, .upd, .ao, .smp, .ladder, .pair, .out, .draws, .win 0, .win 2, .win 3, .win 4, .win 5, .win 6, .win 7, .win 9, .win 10, .win 11, .win 16] L0 = true := by decide) :
    Keeps L0 s0 (State.revert s old) := by
  refine h.trans ?_ hL
  unfold State.revert
  repeat' with_reducible (first | apply refl | assumption | apply kindApply | apply updMod | refine foldlFst ?_ _ (fun _ _ _ => ?_) | refine foldl' ?_ _ (fun _ _ _ => ?_) | dsimp only | decide)

theorem revertFailed {s : State} (h : Keeps L0 s0 s) (hL : Part.sub [.dram, .fab, .ports, .ink, .mnd, .drn, .sto, .msm, .tot, .time, .upl, .shu, .intr, .hoop, .upd, .nor, .norHeld, .ao, .smp, .ladder, .pair, .pins, .out, .draws, .win 0, .win 1, .win 2, .win 3, .win 4, .win 5, .win 6, .win 7, .win 8, .win 9, .win 10, .win 11, .win 12, .win 13, .win 14, .win 15, .win 16] L0 = true := by decide) :
    Keeps L0 s0 (State.revertFailed s) := by
  refine h.trans ?_ hL
  unfold State.revertFailed
  repeat' with_reducible (first | apply refl | assumption | apply draw | apply ladderPlain | dsimp only | decide)

theorem execUpdStepDone {s : State} {err item : Nat} {bad : Bool} : OutKeeps [.dram, .fab, .ports, .ink, .mnd, .drn, .sto, .msm, .tot, .time, .upl, .shu, .intr, .hoop, .upd, .nor, .norHeld, .ao, .smp, .ladder, .pair, .pins, .out, .draws, .win 0, .win 1, .win 2, .win 3, .win 4, .win 5, .win 6, .win 7, .win 8, .win 9, .win 10, .win 11, .win 12, .win 13, .win 14, .win 15, .win 16] s (execUpdStepDone err item bad s) := by
  unfold Sys2Proof.Machine.execUpdStepDone
  repeat' with_reducible (first | refine OutKeeps.ok ?_ | apply refl | assumption | apply activateNext | apply kindApply | apply revert | apply revertFailed | apply slotCopy | apply slotSet | apply slotTrial | apply updDone | apply updFail | apply updMod | apply verified | apply ok | dsimp only | split | refine fst (by assumption) ?_ | refine snd (by assumption) ?_ | decide)

theorem floorUp {s : State} {run : List RunCont} {fail : Bool} {k : Nat} (h : Keeps L0 s0 s) (hL : Part.sub [.dram, .sto, .hoop, .smp, .win 4, .win 5, .win 9] L0 = true := by decide) :
    Keeps L0 s0 (State.floorUp s run fail k) := by
  refine h.trans ?_ hL
  unfold State.floorUp
  repeat' with_reducible (first | apply refl | assumption | apply chgAppend | apply cntFail | apply cntLog | apply floorRaise | apply report | dsimp only | split | (apply Nat.le_of_not_lt; assumption) | decide)

theorem updCommit {s : State} {fail : Bool} (h : Keeps L0 s0 s) (hL : Part.sub [.dram, .sto, .hoop, .upd, .nor, .smp, .win 4, .win 5, .win 9, .win 11] L0 = true := by decide) :
    Keeps L0 s0 (State.updCommit s fail) := by
  refine h.trans ?_ hL
  unfold State.updCommit
  repeat' with_reducible (first | apply refl | assumption | apply dirWrite | refine each' ?_ _ (fun _ _ _ => ?_) | apply floorUp | apply updDone | apply updFail | apply updMod | dsimp only | split | refine fst (by assumption) ?_ | refine snd (by assumption) ?_ | decide)

theorem execUpdCommit {s : State} {fail : Bool} : OutKeeps [.dram, .sto, .hoop, .upd, .nor, .smp, .win 4, .win 5, .win 9, .win 11] s (execUpdCommit fail s) := by
  unfold Sys2Proof.Machine.execUpdCommit
  repeat' with_reducible (first | refine OutKeeps.ok ?_ | apply refl | assumption | apply updCommit | apply updGo | apply ok | dsimp only | intro _ | decide)

theorem trialEnd {s : State} {i : Nat} {bad : Bool} (h : Keeps L0 s0 s) (hL : Part.sub [.dram, .fab, .ports, .ink, .mnd, .drn, .sto, .msm, .tot, .time, .upl, .shu, .intr, .hoop, .upd, .nor, .norHeld, .ao, .smp, .ladder, .pair, .pins, .out, .draws, .win 0, .win 1, .win 2, .win 3, .win 4, .win 5, .win 6, .win 7, .win 8, .win 9, .win 10, .win 11, .win 12, .win 13, .win 14, .win 15, .win 16] L0 = true := by decide) :
    Keeps L0 s0 (State.trialEnd s i bad) := by
  refine h.trans ?_ hL
  unfold State.trialEnd
  repeat' with_reducible (first | apply refl | assumption | apply revert | apply revertFailed | apply slotSet | apply updDone | apply updMod | apply warmRestart | dsimp only | split | decide)

theorem execUpdRevert {s : State} {bad : Bool} : OutKeeps [.dram, .fab, .ports, .ink, .mnd, .drn, .sto, .msm, .tot, .time, .upl, .shu, .intr, .hoop, .upd, .nor, .norHeld, .ao, .smp, .ladder, .pair, .pins, .out, .draws, .win 0, .win 1, .win 2, .win 3, .win 4, .win 5, .win 6, .win 7, .win 8, .win 9, .win 10, .win 11, .win 12, .win 13, .win 14, .win 15, .win 16] s (execUpdRevert bad s) := by
  unfold Sys2Proof.Machine.execUpdRevert
  repeat' with_reducible (first | refine OutKeeps.ok ?_ | apply refl | assumption | apply trialEnd | apply updFail | apply updGo | apply ok | dsimp only | split | refine fst (by assumption) ?_ | refine snd (by assumption) ?_ | intro _ | decide)

theorem execTrialTimeout {s : State} {bad : Bool} : OutKeeps [.dram, .fab, .ports, .ink, .mnd, .drn, .sto, .msm, .tot, .time, .upl, .shu, .intr, .hoop, .upd, .nor, .norHeld, .ao, .smp, .ladder, .pair, .pins, .out, .draws, .win 0, .win 1, .win 2, .win 3, .win 4, .win 5, .win 6, .win 7, .win 8, .win 9, .win 10, .win 11, .win 12, .win 13, .win 14, .win 15, .win 16] s (execTrialTimeout bad s) := by
  unfold Sys2Proof.Machine.execTrialTimeout
  repeat' with_reducible (first | refine OutKeeps.ok ?_ | apply refl | assumption | apply report | apply trialEnd | apply ok | dsimp only | split | refine fst (by assumption) ?_ | refine snd (by assumption) ?_ | decide)

theorem execUpdRecoveryRequest {s : State} : OutKeeps [.upd, .nor, .win 11] s (execUpdRecoveryRequest s) := by
  unfold Sys2Proof.Machine.execUpdRecoveryRequest
  repeat' with_reducible (first | refine OutKeeps.ok ?_ | apply refl | assumption | apply setRcvReq | apply updDone | apply updGo | apply ok | dsimp only | intro _ | decide)

theorem updBadOp {s : State} {op : Nat} (h : Keeps L0 s0 s) (hL : Part.sub [.upd, .win 11] L0 = true := by decide) :
    Keeps L0 s0 (State.updBadOp s op) := by
  refine h.trans ?_ hL
  unfold State.updBadOp
  repeat' with_reducible (first | apply refl | assumption | apply updFail | apply updGo | dsimp only | intro _ | decide)

theorem stitchSay {s : State} {port op : Nat} {b : Bytes} (h : Keeps L0 s0 s) (hL : Part.sub [.out] L0 = true := by decide) :
    Keeps L0 s0 (State.stitchSay s port op b) := by
  refine h.trans ?_ hL
  unfold State.stitchSay
  repeat' with_reducible (first | apply refl | assumption | apply emit | dsimp only | decide)

theorem execStitchOffer {s : State} {port : Nat} {b : Bytes} : OutKeeps [.dram, .ink, .sto, .upd, .out, .win 6, .win 9] s (execStitchOffer port b s) := by
  unfold Sys2Proof.Machine.execStitchOffer
  repeat' with_reducible (first | refine OutKeeps.ok ?_ | apply refl | assumption | refine each' ?_ _ (fun _ _ _ => ?_) | apply stitchSay | apply storePut | apply updMod | apply verified | apply ok | dsimp only | split | decide)

theorem execStitchRequest {s : State} {port : Nat} {b : Bytes} : OutKeeps [.out] s (execStitchRequest port b s) := by
  unfold Sys2Proof.Machine.execStitchRequest
  repeat' with_reducible (first | refine OutKeeps.ok ?_ | apply refl | assumption | refine each' ?_ _ (fun _ _ _ => ?_) | apply stitchSay | apply ok | dsimp only | split | refine fst (by assumption) ?_ | refine snd (by assumption) ?_ | decide)

theorem execStitchBlock {s : State} {port : Nat} {b : Bytes} : OutKeeps [.dram, .ink, .sto, .upd, .out, .win 6, .win 9] s (execStitchBlock port b s) := by
  unfold Sys2Proof.Machine.execStitchBlock
  repeat' with_reducible (first | refine OutKeeps.ok ?_ | apply refl | assumption | apply stitchSay | apply storePut | apply updMod | apply verified | apply ok | dsimp only | split | refine fst (by assumption) ?_ | refine snd (by assumption) ?_ | decide)

theorem execStitchDone {s : State} : OutKeeps [.ink, .upd, .out, .win 6, .win 11] s (execStitchDone s) := by
  unfold Sys2Proof.Machine.execStitchDone
  repeat' with_reducible (first | refine OutKeeps.ok ?_ | apply refl | assumption | apply stitchSay | apply updMod | apply updVerify | apply ok | dsimp only | split | refine fst (by assumption) ?_ | refine snd (by assumption) ?_ | decide)

theorem execStitchAbort {s : State} : OutKeeps [.ink, .upd, .out, .win 6, .win 11] s (execStitchAbort s) := by
  unfold Sys2Proof.Machine.execStitchAbort
  repeat' with_reducible (first | refine OutKeeps.ok ?_ | apply refl | assumption | apply stitchSay | apply updMod | apply updVerify | apply ok | dsimp only | split | refine fst (by assumption) ?_ | refine snd (by assumption) ?_ | decide)

theorem rcvResult {s : State} {path e : Nat} (h : Keeps L0 s0 s) (hL : Part.sub [.win 11] L0 = true := by decide) :
    Keeps L0 s0 (State.rcvResult s path e) := by
  refine h.trans ?_ hL
  unfold State.rcvResult
  repeat' with_reducible (first | apply refl | assumption | apply raiseF | apply setF | dsimp only | decide)

theorem rcvRun {s : State} {path len : Nat} {bad : Bool} {say : State → Nat → State} (h : Keeps L0 s0 s) (h_say : ∀ u a, Keeps L0 s0 u → Keeps L0 s0 (say u a)) (hL : Part.sub [.dram, .fab, .ports, .ink, .mnd, .drn, .sto, .msm, .tot, .time, .upl, .shu, .intr, .hoop, .upd, .nor, .norHeld, .ao, .smp, .ladder, .pair, .pins, .draws, .win 0, .win 1, .win 2, .win 3, .win 4, .win 5, .win 6, .win 7, .win 8, .win 9, .win 10, .win 11, .win 12, .win 13, .win 14, .win 15, .win 16] L0 = true := by decide) :
    Keeps L0 s0 (State.rcvRun s path len bad say) := by
  unfold State.rcvRun
  repeat' with_reducible (first | apply refl | assumption | apply aoMod | apply norErase | apply rcvResult | apply slotCopy | apply slotSet | apply slotTrial | apply warmRestart | apply h_say | dsimp only | split | refine fst (by assumption) ?_ | refine snd (by assumption) ?_ | (apply Part.sub_mem hL; decide) | (apply Part.sub_trans ?_ hL; decide) | decide)

theorem execRcvGo {s : State} {init len : Nat} {bad : Bool} : OutKeeps [.dram, .fab, .ports, .ink, .mnd, .drn, .sto, .msm, .tot, .time, .upl, .shu, .intr, .hoop, .upd, .nor, .norHeld, .ao, .smp, .ladder, .pair, .pins, .draws, .win 0, .win 1, .win 2, .win 3, .win 4, .win 5, .win 6, .win 7, .win 8, .win 9, .win 10, .win 11, .win 12, .win 13, .win 14, .win 15, .win 16] s (execRcvGo init len bad s) := by
  unfold Sys2Proof.Machine.execRcvGo
  repeat' with_reducible (first | refine OutKeeps.ok ?_ | apply refl | assumption | apply rcvRun | apply setF | apply ok | dsimp only | split | intro _ | decide)

theorem uartSay {s : State} {type : Nat} {b : Bytes} (h : Keeps L0 s0 s) (hL : Part.sub [.out, .draws] L0 = true := by decide) :
    Keeps L0 s0 (State.uartSay s type b) := by
  refine h.trans ?_ hL
  unfold State.uartSay
  repeat' with_reducible (first | apply refl | assumption | apply draw | apply emit | dsimp only | decide)

theorem uartBad {s : State} {b : Bytes} (h : Keeps L0 s0 s) (hL : Part.sub [.upd, .out, .draws] L0 = true := by decide) :
    Keeps L0 s0 (State.uartBad s b) := by
  refine h.trans ?_ hL
  unfold State.uartBad
  repeat' with_reducible (first | apply refl | assumption | apply uartSay | apply updMod | dsimp only | decide)

theorem execUartDataFrame {s : State} {b : Bytes} : OutKeeps [.dram, .upd, .out, .draws] s (execUartDataFrame b s) := by
  unfold Sys2Proof.Machine.execUartDataFrame
  repeat' with_reducible (first | refine OutKeeps.ok ?_ | apply refl | assumption | apply uartBad | apply uartSay | apply updMod | apply wrMem | apply ok | dsimp only | split | decide)

theorem execUartEndFrame {s : State} {b : Bytes} {bad : Bool} : OutKeeps [.dram, .fab, .ports, .ink, .mnd, .drn, .sto, .msm, .tot, .time, .upl, .shu, .intr, .hoop, .upd, .nor, .norHeld, .ao, .smp, .ladder, .pair, .pins, .out, .draws, .win 0, .win 1, .win 2, .win 3, .win 4, .win 5, .win 6, .win 7, .win 8, .win 9, .win 10, .win 11, .win 12, .win 13, .win 14, .win 15, .win 16] s (execUartEndFrame b bad s) := by
  unfold Sys2Proof.Machine.execUartEndFrame
  repeat' with_reducible (first | refine OutKeeps.ok ?_ | apply refl | assumption | apply emit | apply rcvRun | apply uartBad | apply uartSay | apply updMod | apply ok | dsimp only | split | intro _ | decide)

theorem execUartRxTimeout {s : State} : OutKeeps [.upd] s (execUartRxTimeout s) := by
  unfold Sys2Proof.Machine.execUartRxTimeout
  repeat' with_reducible (first | refine OutKeeps.ok ?_ | apply refl | assumption | apply updMod | apply ok | dsimp only | split | decide)

end Sys2Proof.Machine.Keeps
end

