-- ==== Sys2Proof/Laws/KPackage.lean ====
section
/-! SUPPORT. Sys2Proof/Laws/KPackage.lean: what each operation of Machine/Package.lean touches and keeps. -/

set_option Elab.async false

namespace Sys2Proof.Machine.Keeps

set_option linter.unusedTactic false
set_option linter.unreachableTactic false

variable {L0 : List Part} {s0 : State}

theorem ponRelease {s : State} {clk : Nat} {v : Option Nat} (h : Keeps L0 s0 s) (hL : Part.sub [.dram, .fab, .ports, .ink, .mnd, .drn, .sto, .msm, .tot, .time, .upl, .shu, .intr, .hoop, .upd, .nor, .norHeld, .ao, .smp, .ladder, .pair, .pins, .draws, .win 0, .win 1, .win 2, .win 3, .win 4, .win 5, .win 6, .win 7, .win 8, .win 9, .win 10, .win 11, .win 12, .win 13, .win 14, .win 15, .win 16] L0 = true := by decide) :
    Keeps L0 s0 (State.ponRelease s clk v) := by
  refine h.trans ?_ hL
  unfold State.ponRelease
  repeat' with_reducible (first | (apply f_ao; apply refl; decide) | apply refl | assumption | apply bootStart | apply hoopUp | apply modeCheck | apply resetTo | apply rtcLoad | apply setF | dsimp only | split | apply f_ao | decide)

theorem execPonrstRise {s : State} {away clk : Nat} {v : Option Nat} {rcv : Bool} : OutKeeps [.dram, .fab, .ports, .ink, .mnd, .drn, .sto, .msm, .tot, .time, .upl, .shu, .intr, .hoop, .upd, .nor, .norHeld, .ao, .smp, .ladder, .pair, .pins, .draws, .win 0, .win 1, .win 2, .win 3, .win 4, .win 5, .win 6, .win 7, .win 8, .win 9, .win 10, .win 11, .win 12, .win 13, .win 14, .win 15, .win 16] s (execPonrstRise away clk v rcv s) := by
  unfold Sys2Proof.Machine.execPonrstRise
  repeat' with_reducible (first | refine OutKeeps.ok ?_ | (apply f_ao_pins; apply refl; all_goals decide) | apply refl | assumption | apply ponRelease | apply ok | dsimp only | split | apply f_ao_pins | decide)

theorem execPonrstFall {s : State} : OutKeeps [.dram, .fab, .ports, .ink, .mnd, .drn, .sto, .msm, .tot, .time, .upl, .shu, .intr, .upd, .nor, .norHeld, .ao, .smp, .ladder, .pair, .pins, .win 0, .win 1, .win 2, .win 3, .win 4, .win 5, .win 6, .win 7, .win 8, .win 9, .win 10, .win 11, .win 12, .win 13, .win 14, .win 15, .win 16] s (execPonrstFall s) := by
  unfold Sys2Proof.Machine.execPonrstFall
  repeat' with_reducible (first | refine OutKeeps.ok ?_ | (apply f_ao_pins; apply refl; all_goals decide) | apply refl | assumption | apply resetTo | apply ok | dsimp only | apply f_ao_pins | decide)

theorem execPowerCycleTimeout {s : State} {clk : Nat} {v : Option Nat} : OutKeeps [.dram, .fab, .ports, .ink, .mnd, .drn, .sto, .msm, .tot, .time, .upl, .shu, .intr, .hoop, .upd, .nor, .norHeld, .ao, .smp, .ladder, .pair, .pins, .draws, .win 0, .win 1, .win 2, .win 3, .win 4, .win 5, .win 6, .win 7, .win 8, .win 9, .win 10, .win 11, .win 12, .win 13, .win 14, .win 15, .win 16] s (execPowerCycleTimeout clk v s) := by
  unfold Sys2Proof.Machine.execPowerCycleTimeout
  repeat' with_reducible (first | refine OutKeeps.ok ?_ | apply refl | assumption | apply ponRelease | apply ok | dsimp only | split | decide)

theorem execWarmReset {s : State} {v : Option Nat} {rcv : Bool} : OutKeeps [.dram, .fab, .ports, .ink, .mnd, .drn, .sto, .msm, .tot, .time, .upl, .shu, .intr, .hoop, .upd, .nor, .norHeld, .ao, .smp, .ladder, .pair, .pins, .draws, .win 0, .win 1, .win 2, .win 3, .win 4, .win 5, .win 6, .win 7, .win 8, .win 9, .win 10, .win 11, .win 12, .win 13, .win 14, .win 15, .win 16] s (execWarmReset v rcv s) := by
  unfold Sys2Proof.Machine.execWarmReset
  repeat' with_reducible (first | refine OutKeeps.ok ?_ | (apply f_pins; apply refl; decide) | apply refl | assumption | apply bootStart | apply warmTo | apply ok | dsimp only | split | apply f_pins | decide)

theorem execBootPfailHoldEnd {s : State} : OutKeeps [.dram, .fab, .ports, .ink, .mnd, .drn, .sto, .msm, .tot, .time, .upl, .shu, .intr, .hoop, .upd, .nor, .norHeld, .ao, .smp, .ladder, .pair, .pins, .draws, .win 0, .win 1, .win 2, .win 3, .win 4, .win 5, .win 6, .win 7, .win 8, .win 9, .win 10, .win 11, .win 12, .win 13, .win 14, .win 15, .win 16] s (execBootPfailHoldEnd s) := by
  unfold Sys2Proof.Machine.execBootPfailHoldEnd
  repeat' with_reducible (first | refine OutKeeps.ok ?_ | (apply f_pins; apply refl; decide) | apply refl | assumption | apply boot | apply ok | dsimp only | split | refine fst (by assumption) ?_ | refine snd (by assumption) ?_ | apply f_pins | decide)

theorem execPfailFall {s : State} {erasing : Nat} : OutKeeps [.dram, .ports, .sto, .tot, .time, .upd, .smp, .pair, .pins, .out, .win 2, .win 4, .win 8, .win 9, .win 11, .win 16] s (execPfailFall erasing s) := by
  unfold Sys2Proof.Machine.execPfailFall
  repeat' with_reducible (first | refine OutKeeps.ok ?_ | (apply f_pins; apply refl; decide) | apply refl | assumption | apply flushStart | apply mirrorFlush | apply pairYield | apply totPfail | apply txenLow | apply updIdle | refine when' ?_ _ (fun _ _ => ?_) | apply ok | dsimp only | split | apply f_pins | decide)

theorem execPfailRise {s : State} : OutKeeps [.tot, .pins, .win 8, .win 9] s (execPfailRise s) := by
  unfold Sys2Proof.Machine.execPfailRise
  repeat' with_reducible (first | refine OutKeeps.ok ?_ | (apply f_pins; apply refl; decide) | apply refl | assumption | apply setPhase | apply totPrise | refine when' ?_ _ (fun _ _ => ?_) | apply ok | dsimp only | split | apply f_pins | decide)

theorem execVbatDip {s : State} : OutKeeps [.ao] s (execVbatDip s) := by
  unfold Sys2Proof.Machine.execVbatDip
  repeat' with_reducible (first | refine OutKeeps.ok ?_ | (apply f_ao; apply refl; decide) | apply refl | assumption | apply ok | dsimp only | apply f_ao | decide)

end Sys2Proof.Machine.Keeps
end

