-- ==== Sys2Proof/Laws/KRegView.lean ====
section
/-! SUPPORT. Sys2Proof/Laws/KRegView.lean: what each operation of Machine/RegView.lean touches and keeps. -/

set_option Elab.async false

namespace Sys2Proof.Machine.Keeps

set_option linter.unusedTactic false
set_option linter.unreachableTactic false

variable {L0 : List Part} {s0 : State}



end Sys2Proof.Machine.Keeps
end

