-- ==== Sys2Proof/Laws/KRegWrite.lean ====
section
/-! SUPPORT. Sys2Proof/Laws/KRegWrite.lean: what each operation of Machine/RegWrite.lean touches and keeps. -/

set_option Elab.async false

namespace Sys2Proof.Machine.Keeps

set_option linter.unusedTactic false
set_option linter.unreachableTactic false

variable {L0 : List Part} {s0 : State}

theorem actPort {s : State} {k : Nat} {v m : Word} (h : Keeps L0 s0 s) (hL : Part.sub Part.rest L0 = true := by decide) :
    Keeps L0 s0 (State.actPort s k v m) := by
  refine h.trans ?_ hL
  unfold State.actPort
  repeat' with_reducible (first | apply refl | assumption | apply did | apply raiseF | apply setF | apply sinkOff | refine when' ?_ _ (fun _ _ => ?_) | apply wr | apply execPortBobTxWrite | apply execPortDisable | apply execPortEnable | apply execPortRxReset | apply execPortTxReset | dsimp only | split | apply Part.win_rest | (apply Part.win_port <;> decide) | decide)

theorem actInt {s : State} {init k : Nat} {v m : Word} (h : Keeps L0 s0 s) (hL : Part.sub Part.rest L0 = true := by decide) :
    Keeps L0 s0 (State.actInt s init k v m) := by
  refine h.trans ?_ hL
  unfold State.actInt
  repeat' with_reducible (first | apply refl | assumption | apply did | apply intMod | apply msixAll | refine when' ?_ _ (fun _ _ => ?_) | apply wr | apply execIntComplete | apply execIntFlush | apply execIntSwClear | apply execIntSwSet | dsimp only | split | apply Part.win_rest | (apply Part.win_arr <;> decide) | decide)

theorem actTime {s : State} {k : Nat} {v m : Word} (h : Keeps L0 s0 s) (hL : Part.sub Part.rest L0 = true := by decide) :
    Keeps L0 s0 (State.actTime s k v m) := by
  refine h.trans ?_ hL
  unfold State.actTime
  repeat' with_reducible (first | apply refl | assumption | apply afeStore | apply ptpOffset | apply setF | apply srcChanged | apply taiSet | refine when' ?_ _ (fun _ _ => ?_) | apply wr | dsimp only | split | apply Part.win_rest | decide)

theorem actShu {s : State} {k : Nat} {v m : Word} (h : Keeps L0 s0 s) (hL : Part.sub Part.rest L0 = true := by decide) :
    Keeps L0 s0 (State.actShu s k v m) := by
  refine h.trans ?_ hL
  unfold State.actShu
  repeat' with_reducible (first | apply refl | assumption | apply chAbort | apply chArm | apply chGo | apply eventClear | apply eventSet | apply progWrite | apply shuOff | apply shuResume | refine when' ?_ _ (fun _ _ => ?_) | apply wr | dsimp only | split | apply Part.win_rest | (apply Part.win_arr <;> decide) | decide)

theorem actSmp {s : State} {init k : Nat} {v m : Word} (h : Keeps L0 s0 s) (hL : Part.sub Part.rest L0 = true := by decide) :
    Keeps L0 s0 (State.actSmp s init k v m) := by
  refine h.trans ?_ hL
  unfold State.actSmp
  repeat' with_reducible (first | apply refl | assumption | apply did | apply fieldKick | apply hoopKick | apply pairEnWrite | apply pairYield | apply stepAsk | apply swRecord | refine when' ?_ _ (fun _ _ => ?_) | apply witInstall | apply wr | apply execSamplerClear | apply execSamplerRdSel | dsimp only | split | refine fst (by assumption) ?_ | refine snd (by assumption) ?_ | apply Part.win_rest | decide)

theorem actNdl {s : State} {k x : Nat} {v m : Word} (h : Keeps L0 s0 s) (hL : Part.sub Part.rest L0 = true := by decide) :
    Keeps L0 s0 (State.actNdl s k v m x) := by
  refine h.trans ?_ hL
  unfold State.actNdl
  repeat' with_reducible (first | apply refl | assumption | apply cntGo | apply did | apply ndlBadOp | apply wr | apply execCntDebugOpen | apply execCntDomainIdentity | apply execCntPairRoleLock | apply execCntRollbackFloor | apply execNdlDecap | apply execNdlDestroy | apply execNdlGenerate | apply execNdlHmac | apply execNdlInfo | apply execNdlPubkey | apply execNdlQuote | apply execNdlSign | apply execNdlUnwrap | dsimp only | split | refine fst (by assumption) ?_ | refine snd (by assumption) ?_ | intro _ | apply Part.win_rest | decide)

theorem actInk {s : State} {k x : Nat} {v m : Word} (h : Keeps L0 s0 s) (hL : Part.sub Part.rest L0 = true := by decide) :
    Keeps L0 s0 (State.actInk s k v m x) := by
  refine h.trans ?_ hL
  unfold State.actInk
  repeat' with_reducible (first | apply refl | assumption | apply classCommit | apply classData | apply classSel | apply did | apply inkEnable | apply inkMod | apply setF | apply slotGo | refine when' ?_ _ (fun _ _ => ?_) | apply wr | apply execIntakeDisable | apply execKeyCacheFlush | dsimp only | split | apply Part.win_rest | decide)

theorem actDrn {s : State} {k : Nat} {v m : Word} (h : Keeps L0 s0 s) (hL : Part.sub Part.rest L0 = true := by decide) :
    Keeps L0 s0 (State.actDrn s k v m) := by
  refine h.trans ?_ hL
  unfold State.actDrn
  repeat' with_reducible (first | apply refl | assumption | apply drnDisable | apply drnEnable | refine when' ?_ _ (fun _ _ => ?_) | apply wr | dsimp only | split | apply Part.win_rest | decide)

theorem actTot {s : State} {k x : Nat} {v m : Word} (h : Keeps L0 s0 s) (hL : Part.sub Part.rest L0 = true := by decide) :
    Keeps L0 s0 (State.actTot s k v m x) := by
  refine h.trans ?_ hL
  unfold State.actTot
  repeat' with_reducible (first | apply refl | assumption | apply did | apply raiseF | apply totMod | refine when' ?_ _ (fun _ _ => ?_) | apply wr | apply execBillSnap | apply execBillingForce | apply execCalCommit | apply execCalDataAccess | apply execPcalCancel | apply execPcalLoad | apply execSealEnd | apply execSealSpend | apply execTotEnable | dsimp only | split | apply Part.win_rest | decide)

theorem actSto {s : State} {k x : Nat} {v m : Word} (h : Keeps L0 s0 s) (hL : Part.sub Part.rest L0 = true := by decide) :
    Keeps L0 s0 (State.actSto s k v m x) := by
  refine h.trans ?_ hL
  unfold State.actSto
  repeat' with_reducible (first | apply refl | assumption | apply did | apply storeStart | refine when' ?_ _ (fun _ _ => ?_) | apply wr | apply execChannelEvacuate | apply execChannelRejoin | apply execCheckpointStart | apply execRecTailWrite | apply execStoreStop | dsimp only | split | apply Part.win_rest | decide)

theorem uplConflict {s : State} {what : Bytes} (h : Keeps L0 s0 s) (hL : Part.sub Part.rest L0 = true := by decide) :
    Keeps L0 s0 (State.uplConflict s what) := by
  refine h.trans ?_ hL
  unfold State.uplConflict
  repeat' with_reducible (first | apply refl | assumption | apply bump | apply raiseF | apply report | dsimp only | apply Part.win_rest | decide)

theorem actUpl {s : State} {k : Nat} {v m : Word} (h : Keeps L0 s0 s) (hL : Part.sub Part.rest L0 = true := by decide) :
    Keeps L0 s0 (State.actUpl s k v m) := by
  refine h.trans ?_ hL
  unfold State.actUpl
  repeat' with_reducible (first | apply refl | assumption | apply batchAgain | apply did | apply doorbell | apply uplConflict | refine when' ?_ _ (fun _ _ => ?_) | apply wr | apply execSessionClose | apply execSessionOpen | apply execSessionResume | apply execSessionSync | dsimp only | split | refine fst (by assumption) ?_ | refine snd (by assumption) ?_ | apply Part.win_rest | (apply Part.win_arr <;> decide) | decide)

theorem actUpd {s : State} {init k x : Nat} {v m : Word} (h : Keeps L0 s0 s) (hL : Part.sub Part.rest L0 = true := by decide) :
    Keeps L0 s0 (State.actUpd s init k v m x) := by
  refine h.trans ?_ hL
  unfold State.actUpd
  repeat' with_reducible (first | apply refl | assumption | apply did | apply prkAbort | apply prkStart | apply readback | apply updBadOp | refine when' ?_ _ (fun _ _ => ?_) | apply wr | apply execRcvGo | apply execUpdActivateLive | apply execUpdActivateNextStart | apply execUpdCommit | apply execUpdRecoveryRequest | apply execUpdRevert | apply execUpdVerify | dsimp only | split | refine fst (by assumption) ?_ | refine snd (by assumption) ?_ | apply Part.win_rest | decide)

theorem regAct {s : State} {init k x : Nat} {v m : Word} (h : Keeps L0 s0 s) (hL : Part.sub Part.rest L0 = true := by decide) :
    Keeps L0 s0 (State.regAct s init k v m x) := by
  refine h.trans ?_ hL
  unfold State.regAct
  repeat' with_reducible (first | apply refl | assumption | apply actDrn | apply actInk | apply actInt | apply actNdl | apply actPort | apply actShu | apply actSmp | apply actSto | apply actTime | apply actTot | apply actUpd | apply actUpl | apply wr | dsimp only | split | refine fst (by assumption) ?_ | refine snd (by assumption) ?_ | apply Part.win_rest | decide)

theorem shadeWord {s : State} {k : Nat} {m : Word} (h : Keeps L0 s0 s) (hL : Part.sub Part.rest L0 = true := by decide) :
    Keeps L0 s0 (State.shadeWord s k m) := by
  refine h.trans ?_ hL
  unfold State.shadeWord
  repeat' with_reducible (first | apply refl | assumption | apply fabMod | dsimp only | apply Part.win_rest | decide)

theorem regPut {s : State} {init k x : Nat} {v : Word} (h : Keeps L0 s0 s) (hL : Part.sub Part.rest L0 = true := by decide) :
    Keeps L0 s0 (State.regPut s init k v x) := by
  refine h.trans ?_ hL
  unfold State.regPut
  repeat' with_reducible (first | apply refl | assumption | apply regAct | apply shadeWord | dsimp only | split | apply Part.win_rest | decide)

theorem regWrite {s : State} {init off x : Nat} {v : Word} (h : Keeps L0 s0 s) (hL : Part.sub Part.rest L0 = true := by decide) :
    Keeps L0 s0 (State.regWrite s init off v x) := by
  refine h.trans ?_ hL
  unfold State.regWrite
  repeat' with_reducible (first | apply refl | assumption | apply badReg | apply fwReg | apply regPut | refine when' ?_ _ (fun _ _ => ?_) | dsimp only | split | refine fst (by assumption) ?_ | refine snd (by assumption) ?_ | apply Part.win_rest | decide)

theorem execRegisterWrite {s : State} {init off v x : Nat} : OutKeeps Part.rest s (execRegisterWrite init off v x s) := by
  unfold Sys2Proof.Machine.execRegisterWrite
  repeat' with_reducible (first | refine OutKeeps.ok ?_ | apply refl | assumption | apply regWrite | apply ok | dsimp only | apply Part.win_rest | decide)

theorem execUnassignedAccess {s : State} {init off size : Nat} {write : Bool} : OutKeeps Part.rest s (execUnassignedAccess init off size write s) := by
  unfold Sys2Proof.Machine.execUnassignedAccess
  repeat' with_reducible (first | refine OutKeeps.ok ?_ | apply refl | assumption | apply answer | apply badReg | apply fwReg | refine when' ?_ _ (fun _ _ => ?_) | apply ok | dsimp only | split | apply Part.win_rest | decide)

end Sys2Proof.Machine.Keeps
end

