-- ==== Sys2Proof/Laws/KCosem.lean ====
section
/-! SUPPORT. Sys2Proof/Laws/KCosem.lean: what each operation of Machine/Cosem.lean touches and keeps. -/

set_option Elab.async false

namespace Sys2Proof.Machine.Keeps

set_option linter.unusedTactic false
set_option linter.unreachableTactic false

variable {L0 : List Part} {s0 : State}

theorem clockSet {s : State} {v : Nat} {rel : Bool} (h : Keeps L0 s0 s) (hL : Part.sub [.dram, .ports, .drn, .sto, .tot, .time, .smp, .draws, .win 2, .win 4, .win 7, .win 8, .win 9] L0 = true := by decide) :
    Keeps L0 s0 (State.clockSet s v rel) := by
  refine h.trans ?_ hL
  unfold State.clockSet
  repeat' with_reducible (first | apply refl | assumption | apply setF | apply taiSet | apply wrN | dsimp only | decide)

theorem sealResult {L : List Part} {s : State} {f : State → Host.Outcome State Fault Refusal} (h : Keeps L0 s0 s)
    (hf : OutKeeps L s (f s)) (hL : Part.sub L L0 = true := by decide) (hA : Part.sub Part.rest L0 = true := by decide) :
    Keeps L0 s0 (State.sealResult s f) := by
  unfold State.sealResult
  have g := did h hf hL
  dsimp only
  split
  · exact answer g _ (Part.sub_mem hA (by decide))
  · exact answer (draw g (Part.sub_mem hA (by decide))) _ (Part.sub_mem hA (by decide))

theorem cosemSay {s : State} {n r : Nat} {b : Bytes} (h : Keeps L0 s0 s) (hL : Part.sub [.busData, .out] L0 = true := by decide) :
    Keeps L0 s0 (State.cosemSay s n r b) := by
  refine h.trans ?_ hL
  unfold State.cosemSay
  repeat' with_reducible (first | apply refl | assumption | apply answer | apply emit | dsimp only | decide)

theorem cosemAct {s : State} {i : CosemItem} (h : Keeps L0 s0 s) (hL : Part.sub Part.rest L0 = true := by decide) :
    Keeps L0 s0 (State.cosemAct s i) := by
  refine h.trans ?_ hL
  unfold State.cosemAct
  repeat' with_reducible (first | apply refl | assumption | apply answer | apply clockSet | apply did | apply prkStart | apply readback | apply regWrite | apply sealResult | apply wrN | apply execBillingForce | apply execCalCommit | apply execCalDataAccess | apply execChannelEvacuate | apply execChannelRejoin | apply execNdlQuote | apply execPcalLoad | apply execSealEnd | apply execSealSpend | apply execUpdActivateLive | apply execUpdVerify | dsimp only | split | refine fst (by assumption) ?_ | refine snd (by assumption) ?_ | apply Part.win_rest | (apply Part.win_arr <;> decide) | decide)

theorem cosemApply {s : State} {n : Nat} {i : CosemItem} (h : Keeps L0 s0 s) (hL : Part.sub Part.rest L0 = true := by decide) :
    Keeps L0 s0 (State.cosemApply s n i) := by
  refine h.trans ?_ hL
  unfold State.cosemApply
  repeat' with_reducible (first | apply refl | assumption | apply cosemAct | apply cosemSay | dsimp only | split | apply Part.win_rest | decide)

theorem cosemDeny {s : State} {n : Nat} (h : Keeps L0 s0 s) (hL : Part.sub [.busData, .out, .win 10] L0 = true := by decide) :
    Keeps L0 s0 (State.cosemDeny s n) := by
  refine h.trans ?_ hL
  unfold State.cosemDeny
  repeat' with_reducible (first | apply refl | assumption | apply bump | apply cosemSay | dsimp only | decide)

theorem execCosemRequest {s : State} {n w carrier : Nat} {items : List (Nat × Nat × Nat × Nat)} : OutKeeps Part.rest s (execCosemRequest n w carrier items s) := by
  unfold Sys2Proof.Machine.execCosemRequest
  repeat' with_reducible (first | refine OutKeeps.ok ?_ | apply refl | assumption | apply cosemApply | apply cosemDeny | apply cosemSay | refine each' ?_ _ (fun _ _ _ => ?_) | apply uplConflict | apply ok | dsimp only | split | refine fst (by assumption) ?_ | refine snd (by assumption) ?_ | apply Part.win_rest | decide)

end Sys2Proof.Machine.Keeps
end

