-- ==== Sys2Proof/Laws/KShuttle.lean ====
section
/-! SUPPORT. Sys2Proof/Laws/KShuttle.lean: what each operation of Machine/Shuttle.lean touches and keeps. -/

set_option Elab.async false

namespace Sys2Proof.Machine.Keeps

set_option linter.unusedTactic false
set_option linter.unreachableTactic false

variable {L0 : List Part} {s0 : State}

theorem readEff {s : State} {f : State → State} (h : Keeps L0 s0 s) (h_f : ∀ u, Keeps L0 s0 u → Keeps L0 s0 (f u)) (hL : Part.sub [.busData] L0 = true := by decide) :
    Keeps L0 s0 (State.readEff s f).1 := by
  unfold State.readEff
  repeat' with_reducible (first | apply refl | assumption | apply answer | apply h_f | dsimp only | (apply Part.sub_mem hL; decide) | (apply Part.sub_trans ?_ hL; decide) | decide)

theorem shuReadReg {s : State} {k : Nat} (h : Keeps L0 s0 s) (hL : Part.sub [.dram, .fab, .ports, .ink, .mnd, .tot, .time, .intr, .ao, .smp, .ladder, .busData, .out, .draws, .win 0, .win 4, .win 6, .win 8, .win 11, .win 16] L0 = true := by decide) :
    Keeps L0 s0 (State.shuReadReg s k).1 := by
  refine h.trans ?_ hL
  unfold State.shuReadReg
  repeat' with_reducible (first | apply refl | assumption | apply classData | apply did | apply readEff | apply schedRead | apply setF | apply txtsPop | apply execBillDataRead | apply execCalDataAccess | apply execIntClaim | apply execPortBobRxRead | apply execSamplerRdData | dsimp only | split | intro _ | (apply Part.win_port <;> decide) | (apply Part.win_arr <;> decide) | decide)

theorem shuRead {s : State} {off : Nat} (h : Keeps L0 s0 s) (hL : Part.sub [.dram, .fab, .ports, .ink, .mnd, .tot, .time, .intr, .ao, .smp, .ladder, .busData, .out, .draws, .win 0, .win 4, .win 6, .win 8, .win 11, .win 16] L0 = true := by decide) :
    Keeps L0 s0 (State.shuRead s off).1 := by
  refine h.trans ?_ hL
  unfold State.shuRead
  repeat' with_reducible (first | apply refl | assumption | apply badReg | apply fwReg | apply shuReadReg | dsimp only | split | refine fst (by assumption) ?_ | refine snd (by assumption) ?_ | decide)

theorem shuReads {s : State} {off k : Nat} (h : Keeps L0 s0 s) (hL : Part.sub [.dram, .fab, .ports, .ink, .mnd, .tot, .time, .intr, .ao, .smp, .ladder, .busData, .out, .draws, .win 0, .win 4, .win 6, .win 8, .win 11, .win 16] L0 = true := by decide) :
    Keeps L0 s0 (State.shuReads s off k).1 := by
  refine h.trans ?_ hL
  clear h hL
  fun_induction State.shuReads s off k <;>
  repeat' with_reducible (first | apply refl | assumption | refine trans ?_ (by assumption) (by decide) | apply shuRead | dsimp only | split | refine fst (by assumption) ?_ | refine snd (by assumption) ?_ | decide)

theorem shuWrites {s : State} {off k : Nat} {b : Bytes} (h : Keeps L0 s0 s) (hL : Part.sub Part.rest L0 = true := by decide) :
    Keeps L0 s0 (State.shuWrites s off b k).1 := by
  refine h.trans ?_ hL
  clear h hL
  fun_induction State.shuWrites s off b k <;>
  repeat' with_reducible (first | apply refl | assumption | refine trans ?_ (by assumption) (by decide) | apply regWrite | dsimp only | split | refine fst (by assumption) ?_ | refine snd (by assumption) ?_ | apply Part.win_rest | decide)

theorem chNext {s : State} {c : Nat} (h : Keeps L0 s0 s) (hL : Part.sub [.win 3] L0 = true := by decide) :
    Keeps L0 s0 (State.chNext s c) := by
  refine h.trans ?_ hL
  unfold State.chNext
  repeat' with_reducible (first | apply refl | assumption | apply setPc | dsimp only | decide)

theorem shuIns {s : State} {c op st st' : Nat} {f : Bytes → State → State} (h : Keeps L0 s0 s) (h_f : ∀ a u, Keeps L0 s0 u → Keeps L0 s0 (f a u)) (hL : Part.sub [.fab, .ports, .ink, .time, .shu, .intr, .ao, .ladder, .out, .win 3, .win 6, .win 11] L0 = true := by decide) :
    Keeps L0 s0 (State.shuIns s c op st st' f) := by
  unfold State.shuIns
  repeat' with_reducible (first | apply refl | assumption | apply chError | apply chanMod | apply h_f | dsimp only | split | (apply Part.sub_mem hL; decide) | (apply Part.sub_trans ?_ hL; decide) | decide)

theorem handOver {s : State} {c : Nat} (h : Keeps L0 s0 s) (hL : Part.sub [.shu, .win 3] L0 = true := by decide) :
    Keeps L0 s0 (State.handOver s c) := by
  refine h.trans ?_ hL
  unfold State.handOver
  repeat' with_reducible (first | apply refl | assumption | apply chanMod | apply setF | dsimp only | split | (apply Part.win_arr <;> decide) | decide)

theorem signal {s : State} {c e : Nat} {irq : Bool} (h : Keeps L0 s0 s) (hL : Part.sub [.win 3] L0 = true := by decide) :
    Keeps L0 s0 (State.signal s c e irq) := by
  refine h.trans ?_ hL
  unfold State.signal
  repeat' with_reducible (first | apply refl | assumption | apply eventSet | apply raiseF | refine when' ?_ _ (fun _ _ => ?_) | dsimp only | (apply Part.win_arr <;> decide) | decide)

theorem execShuttleEnd {s : State} {c : Nat} : OutKeeps [.fab, .ports, .ink, .time, .shu, .intr, .ao, .ladder, .out, .win 3, .win 6, .win 11] s (execShuttleEnd c s) := by
  unfold Sys2Proof.Machine.execShuttleEnd
  repeat' with_reducible (first | refine OutKeeps.ok ?_ | apply refl | assumption | apply chArm | apply chError | apply chIdle | apply eventSet | apply handOver | apply shuIns | apply signal | apply ok | dsimp only | split | intro _ | decide)

theorem execSignal {s : State} {c : Nat} : OutKeeps [.fab, .ports, .ink, .time, .shu, .intr, .ao, .ladder, .out, .win 3, .win 6, .win 11] s (execSignal c s) := by
  unfold Sys2Proof.Machine.execSignal
  repeat' with_reducible (first | refine OutKeeps.ok ?_ | apply refl | assumption | apply chError | apply chNext | apply shuIns | apply signal | apply ok | dsimp only | split | intro _ | decide)

theorem loopTurn {s : State} {c pc cnt back n : Nat} (h : Keeps L0 s0 s) (hL : Part.sub [.shu, .win 3] L0 = true := by decide) :
    Keeps L0 s0 (State.loopTurn s c pc cnt back n) := by
  refine h.trans ?_ hL
  unfold State.loopTurn
  repeat' with_reducible (first | apply refl | assumption | apply chNext | apply chanMod | apply setPc | dsimp only | split | decide)

theorem execLoop {s : State} {c : Nat} : OutKeeps [.fab, .ports, .ink, .time, .shu, .intr, .ao, .ladder, .out, .win 3, .win 6, .win 11] s (execLoop c s) := by
  unfold Sys2Proof.Machine.execLoop
  repeat' with_reducible (first | refine OutKeeps.ok ?_ | apply refl | assumption | apply chError | apply handOver | apply loopTurn | apply setPc | apply shuIns | apply ok | dsimp only | split | refine fst (by assumption) ?_ | refine snd (by assumption) ?_ | intro _ | (apply Part.win_arr <;> decide) | decide)

theorem execWait {s : State} {c : Nat} : OutKeeps [.fab, .ports, .ink, .time, .shu, .intr, .ao, .ladder, .out, .win 3, .win 6, .win 11] s (execWait c s) := by
  unfold Sys2Proof.Machine.execWait
  repeat' with_reducible (first | refine OutKeeps.ok ?_ | apply refl | assumption | apply chError | apply chNext | apply eventClear | apply setCh | apply shuIns | refine when' ?_ _ (fun _ _ => ?_) | apply ok | dsimp only | split | intro _ | decide)

theorem execWaitTimeout {s : State} {c : Nat} : OutKeeps [.fab, .ports, .ink, .time, .shu, .intr, .ao, .ladder, .out, .win 3, .win 6, .win 11] s (execWaitTimeout c s) := by
  unfold Sys2Proof.Machine.execWaitTimeout
  repeat' with_reducible (first | refine OutKeeps.ok ?_ | apply refl | assumption | apply chError | apply shuIns | apply ok | dsimp only | split | intro _ | decide)

theorem execShuttleTriggerStart {s : State} {c : Nat} : OutKeeps [.win 3] s (execShuttleTriggerStart c s) := by
  unfold Sys2Proof.Machine.execShuttleTriggerStart
  repeat' with_reducible (first | refine OutKeeps.ok ?_ | apply refl | assumption | apply chStart | apply eventClear | apply ok | dsimp only | split | (apply Part.win_arr <;> decide) | decide)

theorem execEventSet {s : State} {e : Nat} : OutKeeps [.win 3] s (execEventSet e s) := by
  unfold Sys2Proof.Machine.execEventSet
  repeat' with_reducible (first | refine OutKeeps.ok ?_ | apply refl | assumption | apply eventSet | apply ok | dsimp only | split | decide)

theorem execEventClear {s : State} {e : Nat} : OutKeeps [.win 3] s (execEventClear e s) := by
  unfold Sys2Proof.Machine.execEventClear
  repeat' with_reducible (first | refine OutKeeps.ok ?_ | apply refl | assumption | apply eventClear | apply ok | dsimp only | split | decide)

theorem sramWr {s : State} {a : Nat} {b : Bytes} (h : Keeps L0 s0 s) (hL : Part.sub [.shu] L0 = true := by decide) :
    Keeps L0 s0 (State.sramWr s a b) := by
  refine h.trans ?_ hL
  unfold State.sramWr
  repeat' with_reducible (first | (apply f_shu; apply refl; decide) | apply refl | assumption | dsimp only | apply f_shu | decide)

theorem moveRead {s : State} {src n : Nat} (h : Keeps L0 s0 s) (hL : Part.sub [.dram, .fab, .ports, .ink, .mnd, .tot, .time, .intr, .ao, .smp, .ladder, .busData, .out, .draws, .win 0, .win 4, .win 6, .win 8, .win 11, .win 16] L0 = true := by decide) :
    Keeps L0 s0 (State.moveRead s src n).1 := by
  refine h.trans ?_ hL
  unfold State.moveRead
  repeat' with_reducible (first | apply refl | assumption | apply shuReads | dsimp only | split | refine fst (by assumption) ?_ | refine snd (by assumption) ?_ | decide)

theorem bobPush {s : State} {c p : Nat} {b : Bytes} {eop : Bool} (h : Keeps L0 s0 s) (hL : Part.sub [.dram, .fab, .ports, .ink, .time, .shu, .intr, .ao, .smp, .ladder, .out, .win 0, .win 4, .win 6, .win 11, .win 16] L0 = true := by decide) :
    Keeps L0 s0 (State.bobPush s c p b eop) := by
  refine h.trans ?_ hL
  unfold State.bobPush
  repeat' with_reducible (first | apply refl | assumption | apply chanMod | apply ptrCheck | apply raiseF | apply txWordEnd | apply txWords | dsimp only | split | (apply Part.win_port <;> decide) | decide)

theorem moveWrite {s : State} {c dst : Nat} {b : Bytes} {eop : Bool} (h : Keeps L0 s0 s) (hL : Part.sub Part.rest L0 = true := by decide) :
    Keeps L0 s0 (State.moveWrite s c dst b eop).1 := by
  refine h.trans ?_ hL
  unfold State.moveWrite
  repeat' with_reducible (first | apply refl | assumption | apply bobPush | apply shuWrites | apply sramWr | apply wrMem | dsimp only | split | refine fst (by assumption) ?_ | refine snd (by assumption) ?_ | apply Part.win_rest | decide)

theorem moveRun {s : State} {c : Nat} {j : MoveJob} (h : Keeps L0 s0 s) (hL : Part.sub Part.rest L0 = true := by decide) :
    Keeps L0 s0 (State.moveRun s c j) := by
  refine h.trans ?_ hL
  unfold State.moveRun
  repeat' with_reducible (first | apply refl | assumption | apply busError | apply chNext | apply chanMod | apply moveRead | apply moveWrite | apply random | apply wrN | dsimp only | split | refine fst (by assumption) ?_ | refine snd (by assumption) ?_ | apply Part.win_rest | (apply Part.win_arr <;> decide) | decide)

theorem move {s : State} {c : Nat} {movec : Bool} (h : Keeps L0 s0 s) (hL : Part.sub Part.rest L0 = true := by decide) :
    Keeps L0 s0 (State.move s c movec) := by
  refine h.trans ?_ hL
  unfold State.move
  repeat' with_reducible (first | apply refl | assumption | apply chError | apply moveRun | apply shuIns | dsimp only | split | intro _ | apply Part.win_rest | decide)

theorem execMove {s : State} {c : Nat} : OutKeeps Part.rest s (execMove c s) := by
  unfold Sys2Proof.Machine.execMove
  repeat' with_reducible (first | refine OutKeeps.ok ?_ | apply refl | assumption | apply move | apply ok | dsimp only | apply Part.win_rest | decide)

theorem execMovec {s : State} {c : Nat} : OutKeeps Part.rest s (execMovec c s) := by
  unfold Sys2Proof.Machine.execMovec
  repeat' with_reducible (first | refine OutKeeps.ok ?_ | apply refl | assumption | apply move | apply ok | dsimp only | apply Part.win_rest | decide)

theorem execStamp {s : State} {c : Nat} : OutKeeps Part.rest s (execStamp c s) := by
  unfold Sys2Proof.Machine.execStamp
  repeat' with_reducible (first | refine OutKeeps.ok ?_ | apply refl | assumption | apply chError | apply chNext | apply moveWrite | apply shuIns | apply ok | dsimp only | split | intro _ | apply Part.win_rest | decide)

theorem execShuttleGo {s : State} {c : Nat} : OutKeeps [.win 3] s (execShuttleGo c s) := by
  unfold Sys2Proof.Machine.execShuttleGo
  repeat' with_reducible (first | refine OutKeeps.ok ?_ | apply refl | assumption | apply chGo | apply ok | dsimp only | decide)

theorem execShuttleAbort {s : State} {c : Nat} : OutKeeps [.fab, .ports, .ink, .time, .shu, .intr, .ao, .ladder, .out, .win 3, .win 6, .win 11] s (execShuttleAbort c s) := by
  unfold Sys2Proof.Machine.execShuttleAbort
  repeat' with_reducible (first | refine OutKeeps.ok ?_ | apply refl | assumption | apply chAbort | apply ok | dsimp only | decide)

theorem execShuttleArm {s : State} {c trig : Nat} : OutKeeps [.win 3] s (execShuttleArm c trig s) := by
  unfold Sys2Proof.Machine.execShuttleArm
  repeat' with_reducible (first | refine OutKeeps.ok ?_ | apply refl | assumption | apply chArm | apply setF | apply ok | dsimp only | split | (apply Part.win_arr <;> decide) | decide)

theorem execShuttleDisable {s : State} : OutKeeps [.fab, .ports, .ink, .time, .shu, .intr, .ao, .ladder, .out, .win 3, .win 6, .win 11] s (execShuttleDisable s) := by
  unfold Sys2Proof.Machine.execShuttleDisable
  repeat' with_reducible (first | refine OutKeeps.ok ?_ | apply refl | assumption | apply shuOff | apply ok | dsimp only | decide)

theorem execProgWrite {s : State} {c v : Nat} : OutKeeps [.shu, .win 3] s (execProgWrite c v s) := by
  unfold Sys2Proof.Machine.execProgWrite
  repeat' with_reducible (first | refine OutKeeps.ok ?_ | apply refl | assumption | apply progWrite | apply ok | dsimp only | split | decide)

theorem accessRecord {s : State} {kind space addr : Nat} {write : Bool} (h : Keeps L0 s0 s) (hL : Part.sub [.smp, .win 0, .win 4] L0 = true := by decide) :
    Keeps L0 s0 (State.accessRecord s kind space addr write) := by
  refine h.trans ?_ hL
  unfold State.accessRecord
  repeat' with_reducible (first | apply refl | assumption | apply badReg | apply fwRefuse | dsimp only | split | refine fst (by assumption) ?_ | refine snd (by assumption) ?_ | decide)

theorem execShuttleBusError {s : State} {kind space addr : Nat} {write : Bool} : OutKeeps [.fab, .ports, .ink, .time, .shu, .intr, .ao, .smp, .ladder, .out, .win 0, .win 3, .win 4, .win 6, .win 11] s (execShuttleBusError kind space addr write s) := by
  unfold Sys2Proof.Machine.execShuttleBusError
  repeat' with_reducible (first | refine OutKeeps.ok ?_ | apply refl | assumption | apply accessRecord | apply busError | apply ok | dsimp only | split | decide)

theorem execShuttleResume {s : State} : OutKeeps [.win 3] s (execShuttleResume s) := by
  unfold Sys2Proof.Machine.execShuttleResume
  repeat' with_reducible (first | refine OutKeeps.ok ?_ | apply refl | assumption | apply shuResume | apply ok | dsimp only | decide)

end Sys2Proof.Machine.Keeps
end

