-- ==== Sys2Proof/Laws/KTick.lean ====
section
/-! SUPPORT. Sys2Proof/Laws/KTick.lean: what each operation of Machine/Tick.lean touches and keeps. -/

set_option Elab.async false

namespace Sys2Proof.Machine.Keeps

set_option linter.unusedTactic false
set_option linter.unreachableTactic false

variable {L0 : List Part} {s0 : State}

theorem aoTick {s : State} (h : Keeps L0 s0 s) (hL : Part.sub [.ao] L0 = true := by decide) :
    Keeps L0 s0 (State.aoTick s) := by
  refine h.trans ?_ hL
  unfold State.aoTick
  repeat' with_reducible (first | (apply f_ao; apply refl; decide) | apply refl | assumption | dsimp only | split | apply f_ao | decide)

theorem ladderTick {s : State} (h : Keeps L0 s0 s) (hL : Part.sub [.ladder] L0 = true := by decide) :
    Keeps L0 s0 (State.ladderTick s) := by
  refine h.trans ?_ hL
  unfold State.ladderTick
  repeat' with_reducible (first | (apply f_ladder; apply refl; decide) | apply refl | assumption | dsimp only | split | apply f_ladder | decide)

theorem rateTick {s : State} (h : Keeps L0 s0 s) (hL : Part.sub [.ink, .win 6] L0 = true := by decide) :
    Keeps L0 s0 (State.rateTick s) := by
  refine h.trans ?_ hL
  unfold State.rateTick
  repeat' with_reducible (first | (apply f_ink; apply refl; decide) | apply refl | assumption | apply wrN | dsimp only | apply f_ink | decide)

theorem holdTick {s : State} {k : Nat} (h : Keeps L0 s0 s) (hL : Part.sub [.intr] L0 = true := by decide) :
    Keeps L0 s0 (State.holdTick s k) := by
  refine h.trans ?_ hL
  unfold State.holdTick
  repeat' with_reducible (first | apply refl | assumption | apply intMod | dsimp only | decide)

theorem clockTick {s : State} {k : Nat} (h : Keeps L0 s0 s) (hL : Part.sub [.time] L0 = true := by decide) :
    Keeps L0 s0 (State.clockTick s k) := by
  refine h.trans ?_ hL
  unfold State.clockTick
  repeat' with_reducible (first | apply refl | assumption | apply tuMod | dsimp only | decide)

theorem isolateEnd {s : State} (h : Keeps L0 s0 s) (hL : Part.sub [.win 11] L0 = true := by decide) :
    Keeps L0 s0 (State.isolateEnd s) := by
  refine h.trans ?_ hL
  unfold State.isolateEnd
  repeat' with_reducible (first | apply refl | assumption | apply setF | refine when' ?_ _ (fun _ _ => ?_) | dsimp only | decide)

theorem tick {s : State} (h : Keeps L0 s0 s) (hL : Part.sub [.fab, .ports, .ink, .time, .intr, .ao, .ladder, .out, .win 6, .win 11] L0 = true := by decide) :
    Keeps L0 s0 (State.tick s) := by
  refine h.trans ?_ hL
  unfold State.tick
  repeat' with_reducible (first | apply refl | assumption | apply aoTick | apply clockTick | apply forget | apply holdTick | apply isolateEnd | apply ladderTick | apply msixAll | apply rateTick | refine when' ?_ _ (fun _ _ => ?_) | dsimp only | split | decide)

end Sys2Proof.Machine.Keeps
end

