-- ==== Sys2Proof/Laws/KUplinkMac.lean ====
section
/-! SUPPORT. Sys2Proof/Laws/KUplinkMac.lean: what each operation of Machine/UplinkMac.lean touches and keeps. -/

set_option Elab.async false

namespace Sys2Proof.Machine.Keeps

set_option linter.unusedTactic false
set_option linter.unreachableTactic false

variable {L0 : List Part} {s0 : State}

theorem rxFill {s : State} {u i status vlan ns sec flags : Nat} {part : Bytes} (h : Keeps L0 s0 s) (hL : Part.sub [.dram, .win 10] L0 = true := by decide) :
    Keeps L0 s0 (State.rxFill s u i part status vlan ns sec flags) := by
  refine h.trans ?_ hL
  unfold State.rxFill
  repeat' with_reducible (first | apply refl | assumption | apply raiseBit | refine when' ?_ _ (fun _ _ => ?_) | apply wrMem | dsimp only | decide)

theorem rxFillAll {s : State} {u status vlan ns sec flags : Nat} {l : List Nat} {b : Bytes} (h : Keeps L0 s0 s) (hL : Part.sub [.dram, .win 10] L0 = true := by decide) :
    Keeps L0 s0 (State.rxFillAll s u l b status vlan ns sec flags) := by
  refine h.trans ?_ hL
  clear h hL
  fun_induction State.rxFillAll s u l b status vlan ns sec flags <;>
  repeat' with_reducible (first | apply refl | assumption | refine trans ?_ (by assumption) (by decide) | apply rxFill | dsimp only | split | refine fst (by assumption) ?_ | refine snd (by assumption) ?_ | decide)

theorem pauseTake {s : State} {u q : Nat} (h : Keeps L0 s0 s) (hL : Part.sub [.upl] L0 = true := by decide) :
    Keeps L0 s0 (State.pauseTake s u q) := by
  refine h.trans ?_ hL
  unfold State.pauseTake
  repeat' with_reducible (first | (apply f_upl; apply refl; decide) | apply refl | assumption | refine when' ?_ _ (fun _ _ => ?_) | dsimp only | split | apply f_upl | decide)

theorem execUplinkRxFrame {s : State} {u vlan status flags : Nat} {b : Bytes} : OutKeeps [.dram, .upl, .win 10] s (execUplinkRxFrame u b vlan status flags s) := by
  unfold Sys2Proof.Machine.execUplinkRxFrame
  repeat' with_reducible (first | refine OutKeeps.ok ?_ | apply refl | assumption | apply bump | apply pauseTake | apply rxFillAll | apply setF | apply ok | dsimp only | split | refine fst (by assumption) ?_ | refine snd (by assumption) ?_ | (apply Part.win_arr <;> decide) | decide)

theorem txFrame {s : State} {u offl vlan : Nat} {b : Bytes} (h : Keeps L0 s0 s) (hL : Part.sub [.time, .out, .draws, .win 2] L0 = true := by decide) :
    Keeps L0 s0 (State.txFrame s u b offl vlan) := by
  refine h.trans ?_ hL
  unfold State.txFrame
  repeat' with_reducible (first | apply refl | assumption | apply draw | apply emit | apply txtsPush | refine when' ?_ _ (fun _ _ => ?_) | dsimp only | split | refine fst (by assumption) ?_ | refine snd (by assumption) ?_ | decide)

theorem execUplinkTxDesc {s : State} {u : Nat} : OutKeeps [.dram, .time, .out, .draws, .win 2, .win 10] s (execUplinkTxDesc u s) := by
  unfold Sys2Proof.Machine.execUplinkTxDesc
  repeat' with_reducible (first | refine OutKeeps.ok ?_ | apply refl | assumption | refine each' ?_ _ (fun _ _ _ => ?_) | apply raiseBit | apply setF | apply txFrame | refine when' ?_ _ (fun _ _ => ?_) | apply wrMem | apply ok | dsimp only | split | (apply Part.win_arr <;> decide) | decide)

end Sys2Proof.Machine.Keeps
end

