-- ==== Sys2Proof/Laws/State.lean ====
section
/-! SUPPORT. Sys2Proof/Laws/State.lean: what each update leaves of each field, one lemma for each. -/

set_option Elab.async false

namespace Sys2Proof.Machine

@[simp] theorem State.wr_pending (s : State) (k : Nat) (w : Word) : (s.wr k w).pending = s.pending := rfl
@[simp] theorem State.wr_dram (s : State) (k : Nat) (w : Word) : (s.wr k w).dram = s.dram := rfl
@[simp] theorem State.wr_fab (s : State) (k : Nat) (w : Word) : (s.wr k w).fab = s.fab := rfl
@[simp] theorem State.wr_dramFit (s : State) (k : Nat) (w : Word) : (s.wr k w).dramFit = s.dramFit := rfl
@[simp] theorem State.wr_ports (s : State) (k : Nat) (w : Word) : (s.wr k w).ports = s.ports := rfl
@[simp] theorem State.wr_ink (s : State) (k : Nat) (w : Word) : (s.wr k w).ink = s.ink := rfl
@[simp] theorem State.wr_mnd (s : State) (k : Nat) (w : Word) : (s.wr k w).mnd = s.mnd := rfl
@[simp] theorem State.wr_drn (s : State) (k : Nat) (w : Word) : (s.wr k w).drn = s.drn := rfl
@[simp] theorem State.wr_sto (s : State) (k : Nat) (w : Word) : (s.wr k w).sto = s.sto := rfl
@[simp] theorem State.wr_msm (s : State) (k : Nat) (w : Word) : (s.wr k w).msm = s.msm := rfl
@[simp] theorem State.wr_tot (s : State) (k : Nat) (w : Word) : (s.wr k w).tot = s.tot := rfl
@[simp] theorem State.wr_time (s : State) (k : Nat) (w : Word) : (s.wr k w).time = s.time := rfl
@[simp] theorem State.wr_upl (s : State) (k : Nat) (w : Word) : (s.wr k w).upl = s.upl := rfl
@[simp] theorem State.wr_shu (s : State) (k : Nat) (w : Word) : (s.wr k w).shu = s.shu := rfl
@[simp] theorem State.wr_intr (s : State) (k : Nat) (w : Word) : (s.wr k w).intr = s.intr := rfl
@[simp] theorem State.wr_hoop (s : State) (k : Nat) (w : Word) : (s.wr k w).hoop = s.hoop := rfl
@[simp] theorem State.wr_upd (s : State) (k : Nat) (w : Word) : (s.wr k w).upd = s.upd := rfl
@[simp] theorem State.wr_nor (s : State) (k : Nat) (w : Word) : (s.wr k w).nor = s.nor := rfl
@[simp] theorem State.wr_norHeld (s : State) (k : Nat) (w : Word) : (s.wr k w).norHeld = s.norHeld := rfl
@[simp] theorem State.wr_ao (s : State) (k : Nat) (w : Word) : (s.wr k w).ao = s.ao := rfl
@[simp] theorem State.wr_smp (s : State) (k : Nat) (w : Word) : (s.wr k w).smp = s.smp := rfl
@[simp] theorem State.wr_ladder (s : State) (k : Nat) (w : Word) : (s.wr k w).ladder = s.ladder := rfl
@[simp] theorem State.wr_pair (s : State) (k : Nat) (w : Word) : (s.wr k w).pair = s.pair := rfl
@[simp] theorem State.wr_pins (s : State) (k : Nat) (w : Word) : (s.wr k w).pins = s.pins := rfl
@[simp] theorem State.wr_busData (s : State) (k : Nat) (w : Word) : (s.wr k w).busData = s.busData := rfl
@[simp] theorem State.wr_out (s : State) (k : Nat) (w : Word) : (s.wr k w).out = s.out := rfl
@[simp] theorem State.wr_draws (s : State) (k : Nat) (w : Word) : (s.wr k w).draws = s.draws := rfl

@[simp] theorem State.wrN_pending (s : State) (k v : Nat) : (s.wrN k v).pending = s.pending := rfl
@[simp] theorem State.wrN_dram (s : State) (k v : Nat) : (s.wrN k v).dram = s.dram := rfl
@[simp] theorem State.wrN_fab (s : State) (k v : Nat) : (s.wrN k v).fab = s.fab := rfl
@[simp] theorem State.wrN_dramFit (s : State) (k v : Nat) : (s.wrN k v).dramFit = s.dramFit := rfl
@[simp] theorem State.wrN_ports (s : State) (k v : Nat) : (s.wrN k v).ports = s.ports := rfl
@[simp] theorem State.wrN_ink (s : State) (k v : Nat) : (s.wrN k v).ink = s.ink := rfl
@[simp] theorem State.wrN_mnd (s : State) (k v : Nat) : (s.wrN k v).mnd = s.mnd := rfl
@[simp] theorem State.wrN_drn (s : State) (k v : Nat) : (s.wrN k v).drn = s.drn := rfl
@[simp] theorem State.wrN_sto (s : State) (k v : Nat) : (s.wrN k v).sto = s.sto := rfl
@[simp] theorem State.wrN_msm (s : State) (k v : Nat) : (s.wrN k v).msm = s.msm := rfl
@[simp] theorem State.wrN_tot (s : State) (k v : Nat) : (s.wrN k v).tot = s.tot := rfl
@[simp] theorem State.wrN_time (s : State) (k v : Nat) : (s.wrN k v).time = s.time := rfl
@[simp] theorem State.wrN_upl (s : State) (k v : Nat) : (s.wrN k v).upl = s.upl := rfl
@[simp] theorem State.wrN_shu (s : State) (k v : Nat) : (s.wrN k v).shu = s.shu := rfl
@[simp] theorem State.wrN_intr (s : State) (k v : Nat) : (s.wrN k v).intr = s.intr := rfl
@[simp] theorem State.wrN_hoop (s : State) (k v : Nat) : (s.wrN k v).hoop = s.hoop := rfl
@[simp] theorem State.wrN_upd (s : State) (k v : Nat) : (s.wrN k v).upd = s.upd := rfl
@[simp] theorem State.wrN_nor (s : State) (k v : Nat) : (s.wrN k v).nor = s.nor := rfl
@[simp] theorem State.wrN_norHeld (s : State) (k v : Nat) : (s.wrN k v).norHeld = s.norHeld := rfl
@[simp] theorem State.wrN_ao (s : State) (k v : Nat) : (s.wrN k v).ao = s.ao := rfl
@[simp] theorem State.wrN_smp (s : State) (k v : Nat) : (s.wrN k v).smp = s.smp := rfl
@[simp] theorem State.wrN_ladder (s : State) (k v : Nat) : (s.wrN k v).ladder = s.ladder := rfl
@[simp] theorem State.wrN_pair (s : State) (k v : Nat) : (s.wrN k v).pair = s.pair := rfl
@[simp] theorem State.wrN_pins (s : State) (k v : Nat) : (s.wrN k v).pins = s.pins := rfl
@[simp] theorem State.wrN_busData (s : State) (k v : Nat) : (s.wrN k v).busData = s.busData := rfl
@[simp] theorem State.wrN_out (s : State) (k v : Nat) : (s.wrN k v).out = s.out := rfl
@[simp] theorem State.wrN_draws (s : State) (k v : Nat) : (s.wrN k v).draws = s.draws := rfl

@[simp] theorem State.setF_pending (s : State) (k : Nat) (f : BitRange) (v : Nat) : (s.setF k f v).pending = s.pending := rfl
@[simp] theorem State.setF_dram (s : State) (k : Nat) (f : BitRange) (v : Nat) : (s.setF k f v).dram = s.dram := rfl
@[simp] theorem State.setF_fab (s : State) (k : Nat) (f : BitRange) (v : Nat) : (s.setF k f v).fab = s.fab := rfl
@[simp] theorem State.setF_dramFit (s : State) (k : Nat) (f : BitRange) (v : Nat) : (s.setF k f v).dramFit = s.dramFit := rfl
@[simp] theorem State.setF_ports (s : State) (k : Nat) (f : BitRange) (v : Nat) : (s.setF k f v).ports = s.ports := rfl
@[simp] theorem State.setF_ink (s : State) (k : Nat) (f : BitRange) (v : Nat) : (s.setF k f v).ink = s.ink := rfl
@[simp] theorem State.setF_mnd (s : State) (k : Nat) (f : BitRange) (v : Nat) : (s.setF k f v).mnd = s.mnd := rfl
@[simp] theorem State.setF_drn (s : State) (k : Nat) (f : BitRange) (v : Nat) : (s.setF k f v).drn = s.drn := rfl
@[simp] theorem State.setF_sto (s : State) (k : Nat) (f : BitRange) (v : Nat) : (s.setF k f v).sto = s.sto := rfl
@[simp] theorem State.setF_msm (s : State) (k : Nat) (f : BitRange) (v : Nat) : (s.setF k f v).msm = s.msm := rfl
@[simp] theorem State.setF_tot (s : State) (k : Nat) (f : BitRange) (v : Nat) : (s.setF k f v).tot = s.tot := rfl
@[simp] theorem State.setF_time (s : State) (k : Nat) (f : BitRange) (v : Nat) : (s.setF k f v).time = s.time := rfl
@[simp] theorem State.setF_upl (s : State) (k : Nat) (f : BitRange) (v : Nat) : (s.setF k f v).upl = s.upl := rfl
@[simp] theorem State.setF_shu (s : State) (k : Nat) (f : BitRange) (v : Nat) : (s.setF k f v).shu = s.shu := rfl
@[simp] theorem State.setF_intr (s : State) (k : Nat) (f : BitRange) (v : Nat) : (s.setF k f v).intr = s.intr := rfl
@[simp] theorem State.setF_hoop (s : State) (k : Nat) (f : BitRange) (v : Nat) : (s.setF k f v).hoop = s.hoop := rfl
@[simp] theorem State.setF_upd (s : State) (k : Nat) (f : BitRange) (v : Nat) : (s.setF k f v).upd = s.upd := rfl
@[simp] theorem State.setF_nor (s : State) (k : Nat) (f : BitRange) (v : Nat) : (s.setF k f v).nor = s.nor := rfl
@[simp] theorem State.setF_norHeld (s : State) (k : Nat) (f : BitRange) (v : Nat) : (s.setF k f v).norHeld = s.norHeld := rfl
@[simp] theorem State.setF_ao (s : State) (k : Nat) (f : BitRange) (v : Nat) : (s.setF k f v).ao = s.ao := rfl
@[simp] theorem State.setF_smp (s : State) (k : Nat) (f : BitRange) (v : Nat) : (s.setF k f v).smp = s.smp := rfl
@[simp] theorem State.setF_ladder (s : State) (k : Nat) (f : BitRange) (v : Nat) : (s.setF k f v).ladder = s.ladder := rfl
@[simp] theorem State.setF_pair (s : State) (k : Nat) (f : BitRange) (v : Nat) : (s.setF k f v).pair = s.pair := rfl
@[simp] theorem State.setF_pins (s : State) (k : Nat) (f : BitRange) (v : Nat) : (s.setF k f v).pins = s.pins := rfl
@[simp] theorem State.setF_busData (s : State) (k : Nat) (f : BitRange) (v : Nat) : (s.setF k f v).busData = s.busData := rfl
@[simp] theorem State.setF_out (s : State) (k : Nat) (f : BitRange) (v : Nat) : (s.setF k f v).out = s.out := rfl
@[simp] theorem State.setF_draws (s : State) (k : Nat) (f : BitRange) (v : Nat) : (s.setF k f v).draws = s.draws := rfl

@[simp] theorem State.raiseF_pending (s : State) (k : Nat) (f : BitRange) : (s.raiseF k f).pending = s.pending := rfl
@[simp] theorem State.raiseF_dram (s : State) (k : Nat) (f : BitRange) : (s.raiseF k f).dram = s.dram := rfl
@[simp] theorem State.raiseF_fab (s : State) (k : Nat) (f : BitRange) : (s.raiseF k f).fab = s.fab := rfl
@[simp] theorem State.raiseF_dramFit (s : State) (k : Nat) (f : BitRange) : (s.raiseF k f).dramFit = s.dramFit := rfl
@[simp] theorem State.raiseF_ports (s : State) (k : Nat) (f : BitRange) : (s.raiseF k f).ports = s.ports := rfl
@[simp] theorem State.raiseF_ink (s : State) (k : Nat) (f : BitRange) : (s.raiseF k f).ink = s.ink := rfl
@[simp] theorem State.raiseF_mnd (s : State) (k : Nat) (f : BitRange) : (s.raiseF k f).mnd = s.mnd := rfl
@[simp] theorem State.raiseF_drn (s : State) (k : Nat) (f : BitRange) : (s.raiseF k f).drn = s.drn := rfl
@[simp] theorem State.raiseF_sto (s : State) (k : Nat) (f : BitRange) : (s.raiseF k f).sto = s.sto := rfl
@[simp] theorem State.raiseF_msm (s : State) (k : Nat) (f : BitRange) : (s.raiseF k f).msm = s.msm := rfl
@[simp] theorem State.raiseF_tot (s : State) (k : Nat) (f : BitRange) : (s.raiseF k f).tot = s.tot := rfl
@[simp] theorem State.raiseF_time (s : State) (k : Nat) (f : BitRange) : (s.raiseF k f).time = s.time := rfl
@[simp] theorem State.raiseF_upl (s : State) (k : Nat) (f : BitRange) : (s.raiseF k f).upl = s.upl := rfl
@[simp] theorem State.raiseF_shu (s : State) (k : Nat) (f : BitRange) : (s.raiseF k f).shu = s.shu := rfl
@[simp] theorem State.raiseF_intr (s : State) (k : Nat) (f : BitRange) : (s.raiseF k f).intr = s.intr := rfl
@[simp] theorem State.raiseF_hoop (s : State) (k : Nat) (f : BitRange) : (s.raiseF k f).hoop = s.hoop := rfl
@[simp] theorem State.raiseF_upd (s : State) (k : Nat) (f : BitRange) : (s.raiseF k f).upd = s.upd := rfl
@[simp] theorem State.raiseF_nor (s : State) (k : Nat) (f : BitRange) : (s.raiseF k f).nor = s.nor := rfl
@[simp] theorem State.raiseF_norHeld (s : State) (k : Nat) (f : BitRange) : (s.raiseF k f).norHeld = s.norHeld := rfl
@[simp] theorem State.raiseF_ao (s : State) (k : Nat) (f : BitRange) : (s.raiseF k f).ao = s.ao := rfl
@[simp] theorem State.raiseF_smp (s : State) (k : Nat) (f : BitRange) : (s.raiseF k f).smp = s.smp := rfl
@[simp] theorem State.raiseF_ladder (s : State) (k : Nat) (f : BitRange) : (s.raiseF k f).ladder = s.ladder := rfl
@[simp] theorem State.raiseF_pair (s : State) (k : Nat) (f : BitRange) : (s.raiseF k f).pair = s.pair := rfl
@[simp] theorem State.raiseF_pins (s : State) (k : Nat) (f : BitRange) : (s.raiseF k f).pins = s.pins := rfl
@[simp] theorem State.raiseF_busData (s : State) (k : Nat) (f : BitRange) : (s.raiseF k f).busData = s.busData := rfl
@[simp] theorem State.raiseF_out (s : State) (k : Nat) (f : BitRange) : (s.raiseF k f).out = s.out := rfl
@[simp] theorem State.raiseF_draws (s : State) (k : Nat) (f : BitRange) : (s.raiseF k f).draws = s.draws := rfl

@[simp] theorem State.raiseBit_pending (s : State) (k b : Nat) : (s.raiseBit k b).pending = s.pending := rfl
@[simp] theorem State.raiseBit_dram (s : State) (k b : Nat) : (s.raiseBit k b).dram = s.dram := rfl
@[simp] theorem State.raiseBit_fab (s : State) (k b : Nat) : (s.raiseBit k b).fab = s.fab := rfl
@[simp] theorem State.raiseBit_dramFit (s : State) (k b : Nat) : (s.raiseBit k b).dramFit = s.dramFit := rfl
@[simp] theorem State.raiseBit_ports (s : State) (k b : Nat) : (s.raiseBit k b).ports = s.ports := rfl
@[simp] theorem State.raiseBit_ink (s : State) (k b : Nat) : (s.raiseBit k b).ink = s.ink := rfl
@[simp] theorem State.raiseBit_mnd (s : State) (k b : Nat) : (s.raiseBit k b).mnd = s.mnd := rfl
@[simp] theorem State.raiseBit_drn (s : State) (k b : Nat) : (s.raiseBit k b).drn = s.drn := rfl
@[simp] theorem State.raiseBit_sto (s : State) (k b : Nat) : (s.raiseBit k b).sto = s.sto := rfl
@[simp] theorem State.raiseBit_msm (s : State) (k b : Nat) : (s.raiseBit k b).msm = s.msm := rfl
@[simp] theorem State.raiseBit_tot (s : State) (k b : Nat) : (s.raiseBit k b).tot = s.tot := rfl
@[simp] theorem State.raiseBit_time (s : State) (k b : Nat) : (s.raiseBit k b).time = s.time := rfl
@[simp] theorem State.raiseBit_upl (s : State) (k b : Nat) : (s.raiseBit k b).upl = s.upl := rfl
@[simp] theorem State.raiseBit_shu (s : State) (k b : Nat) : (s.raiseBit k b).shu = s.shu := rfl
@[simp] theorem State.raiseBit_intr (s : State) (k b : Nat) : (s.raiseBit k b).intr = s.intr := rfl
@[simp] theorem State.raiseBit_hoop (s : State) (k b : Nat) : (s.raiseBit k b).hoop = s.hoop := rfl
@[simp] theorem State.raiseBit_upd (s : State) (k b : Nat) : (s.raiseBit k b).upd = s.upd := rfl
@[simp] theorem State.raiseBit_nor (s : State) (k b : Nat) : (s.raiseBit k b).nor = s.nor := rfl
@[simp] theorem State.raiseBit_norHeld (s : State) (k b : Nat) : (s.raiseBit k b).norHeld = s.norHeld := rfl
@[simp] theorem State.raiseBit_ao (s : State) (k b : Nat) : (s.raiseBit k b).ao = s.ao := rfl
@[simp] theorem State.raiseBit_smp (s : State) (k b : Nat) : (s.raiseBit k b).smp = s.smp := rfl
@[simp] theorem State.raiseBit_ladder (s : State) (k b : Nat) : (s.raiseBit k b).ladder = s.ladder := rfl
@[simp] theorem State.raiseBit_pair (s : State) (k b : Nat) : (s.raiseBit k b).pair = s.pair := rfl
@[simp] theorem State.raiseBit_pins (s : State) (k b : Nat) : (s.raiseBit k b).pins = s.pins := rfl
@[simp] theorem State.raiseBit_busData (s : State) (k b : Nat) : (s.raiseBit k b).busData = s.busData := rfl
@[simp] theorem State.raiseBit_out (s : State) (k b : Nat) : (s.raiseBit k b).out = s.out := rfl
@[simp] theorem State.raiseBit_draws (s : State) (k b : Nat) : (s.raiseBit k b).draws = s.draws := rfl

@[simp] theorem State.bumpN_pending (s : State) (k n : Nat) : (s.bumpN k n).pending = s.pending := rfl
@[simp] theorem State.bumpN_dram (s : State) (k n : Nat) : (s.bumpN k n).dram = s.dram := rfl
@[simp] theorem State.bumpN_fab (s : State) (k n : Nat) : (s.bumpN k n).fab = s.fab := rfl
@[simp] theorem State.bumpN_dramFit (s : State) (k n : Nat) : (s.bumpN k n).dramFit = s.dramFit := rfl
@[simp] theorem State.bumpN_ports (s : State) (k n : Nat) : (s.bumpN k n).ports = s.ports := rfl
@[simp] theorem State.bumpN_ink (s : State) (k n : Nat) : (s.bumpN k n).ink = s.ink := rfl
@[simp] theorem State.bumpN_mnd (s : State) (k n : Nat) : (s.bumpN k n).mnd = s.mnd := rfl
@[simp] theorem State.bumpN_drn (s : State) (k n : Nat) : (s.bumpN k n).drn = s.drn := rfl
@[simp] theorem State.bumpN_sto (s : State) (k n : Nat) : (s.bumpN k n).sto = s.sto := rfl
@[simp] theorem State.bumpN_msm (s : State) (k n : Nat) : (s.bumpN k n).msm = s.msm := rfl
@[simp] theorem State.bumpN_tot (s : State) (k n : Nat) : (s.bumpN k n).tot = s.tot := rfl
@[simp] theorem State.bumpN_time (s : State) (k n : Nat) : (s.bumpN k n).time = s.time := rfl
@[simp] theorem State.bumpN_upl (s : State) (k n : Nat) : (s.bumpN k n).upl = s.upl := rfl
@[simp] theorem State.bumpN_shu (s : State) (k n : Nat) : (s.bumpN k n).shu = s.shu := rfl
@[simp] theorem State.bumpN_intr (s : State) (k n : Nat) : (s.bumpN k n).intr = s.intr := rfl
@[simp] theorem State.bumpN_hoop (s : State) (k n : Nat) : (s.bumpN k n).hoop = s.hoop := rfl
@[simp] theorem State.bumpN_upd (s : State) (k n : Nat) : (s.bumpN k n).upd = s.upd := rfl
@[simp] theorem State.bumpN_nor (s : State) (k n : Nat) : (s.bumpN k n).nor = s.nor := rfl
@[simp] theorem State.bumpN_norHeld (s : State) (k n : Nat) : (s.bumpN k n).norHeld = s.norHeld := rfl
@[simp] theorem State.bumpN_ao (s : State) (k n : Nat) : (s.bumpN k n).ao = s.ao := rfl
@[simp] theorem State.bumpN_smp (s : State) (k n : Nat) : (s.bumpN k n).smp = s.smp := rfl
@[simp] theorem State.bumpN_ladder (s : State) (k n : Nat) : (s.bumpN k n).ladder = s.ladder := rfl
@[simp] theorem State.bumpN_pair (s : State) (k n : Nat) : (s.bumpN k n).pair = s.pair := rfl
@[simp] theorem State.bumpN_pins (s : State) (k n : Nat) : (s.bumpN k n).pins = s.pins := rfl
@[simp] theorem State.bumpN_busData (s : State) (k n : Nat) : (s.bumpN k n).busData = s.busData := rfl
@[simp] theorem State.bumpN_out (s : State) (k n : Nat) : (s.bumpN k n).out = s.out := rfl
@[simp] theorem State.bumpN_draws (s : State) (k n : Nat) : (s.bumpN k n).draws = s.draws := rfl

@[simp] theorem State.bump_pending (s : State) (k : Nat) : (s.bump k).pending = s.pending := rfl
@[simp] theorem State.bump_dram (s : State) (k : Nat) : (s.bump k).dram = s.dram := rfl
@[simp] theorem State.bump_fab (s : State) (k : Nat) : (s.bump k).fab = s.fab := rfl
@[simp] theorem State.bump_dramFit (s : State) (k : Nat) : (s.bump k).dramFit = s.dramFit := rfl
@[simp] theorem State.bump_ports (s : State) (k : Nat) : (s.bump k).ports = s.ports := rfl
@[simp] theorem State.bump_ink (s : State) (k : Nat) : (s.bump k).ink = s.ink := rfl
@[simp] theorem State.bump_mnd (s : State) (k : Nat) : (s.bump k).mnd = s.mnd := rfl
@[simp] theorem State.bump_drn (s : State) (k : Nat) : (s.bump k).drn = s.drn := rfl
@[simp] theorem State.bump_sto (s : State) (k : Nat) : (s.bump k).sto = s.sto := rfl
@[simp] theorem State.bump_msm (s : State) (k : Nat) : (s.bump k).msm = s.msm := rfl
@[simp] theorem State.bump_tot (s : State) (k : Nat) : (s.bump k).tot = s.tot := rfl
@[simp] theorem State.bump_time (s : State) (k : Nat) : (s.bump k).time = s.time := rfl
@[simp] theorem State.bump_upl (s : State) (k : Nat) : (s.bump k).upl = s.upl := rfl
@[simp] theorem State.bump_shu (s : State) (k : Nat) : (s.bump k).shu = s.shu := rfl
@[simp] theorem State.bump_intr (s : State) (k : Nat) : (s.bump k).intr = s.intr := rfl
@[simp] theorem State.bump_hoop (s : State) (k : Nat) : (s.bump k).hoop = s.hoop := rfl
@[simp] theorem State.bump_upd (s : State) (k : Nat) : (s.bump k).upd = s.upd := rfl
@[simp] theorem State.bump_nor (s : State) (k : Nat) : (s.bump k).nor = s.nor := rfl
@[simp] theorem State.bump_norHeld (s : State) (k : Nat) : (s.bump k).norHeld = s.norHeld := rfl
@[simp] theorem State.bump_ao (s : State) (k : Nat) : (s.bump k).ao = s.ao := rfl
@[simp] theorem State.bump_smp (s : State) (k : Nat) : (s.bump k).smp = s.smp := rfl
@[simp] theorem State.bump_ladder (s : State) (k : Nat) : (s.bump k).ladder = s.ladder := rfl
@[simp] theorem State.bump_pair (s : State) (k : Nat) : (s.bump k).pair = s.pair := rfl
@[simp] theorem State.bump_pins (s : State) (k : Nat) : (s.bump k).pins = s.pins := rfl
@[simp] theorem State.bump_busData (s : State) (k : Nat) : (s.bump k).busData = s.busData := rfl
@[simp] theorem State.bump_out (s : State) (k : Nat) : (s.bump k).out = s.out := rfl
@[simp] theorem State.bump_draws (s : State) (k : Nat) : (s.bump k).draws = s.draws := rfl

@[simp] theorem State.bumpF_pending (s : State) (k : Nat) (f : BitRange) : (s.bumpF k f).pending = s.pending := rfl
@[simp] theorem State.bumpF_dram (s : State) (k : Nat) (f : BitRange) : (s.bumpF k f).dram = s.dram := rfl
@[simp] theorem State.bumpF_fab (s : State) (k : Nat) (f : BitRange) : (s.bumpF k f).fab = s.fab := rfl
@[simp] theorem State.bumpF_dramFit (s : State) (k : Nat) (f : BitRange) : (s.bumpF k f).dramFit = s.dramFit := rfl
@[simp] theorem State.bumpF_ports (s : State) (k : Nat) (f : BitRange) : (s.bumpF k f).ports = s.ports := rfl
@[simp] theorem State.bumpF_ink (s : State) (k : Nat) (f : BitRange) : (s.bumpF k f).ink = s.ink := rfl
@[simp] theorem State.bumpF_mnd (s : State) (k : Nat) (f : BitRange) : (s.bumpF k f).mnd = s.mnd := rfl
@[simp] theorem State.bumpF_drn (s : State) (k : Nat) (f : BitRange) : (s.bumpF k f).drn = s.drn := rfl
@[simp] theorem State.bumpF_sto (s : State) (k : Nat) (f : BitRange) : (s.bumpF k f).sto = s.sto := rfl
@[simp] theorem State.bumpF_msm (s : State) (k : Nat) (f : BitRange) : (s.bumpF k f).msm = s.msm := rfl
@[simp] theorem State.bumpF_tot (s : State) (k : Nat) (f : BitRange) : (s.bumpF k f).tot = s.tot := rfl
@[simp] theorem State.bumpF_time (s : State) (k : Nat) (f : BitRange) : (s.bumpF k f).time = s.time := rfl
@[simp] theorem State.bumpF_upl (s : State) (k : Nat) (f : BitRange) : (s.bumpF k f).upl = s.upl := rfl
@[simp] theorem State.bumpF_shu (s : State) (k : Nat) (f : BitRange) : (s.bumpF k f).shu = s.shu := rfl
@[simp] theorem State.bumpF_intr (s : State) (k : Nat) (f : BitRange) : (s.bumpF k f).intr = s.intr := rfl
@[simp] theorem State.bumpF_hoop (s : State) (k : Nat) (f : BitRange) : (s.bumpF k f).hoop = s.hoop := rfl
@[simp] theorem State.bumpF_upd (s : State) (k : Nat) (f : BitRange) : (s.bumpF k f).upd = s.upd := rfl
@[simp] theorem State.bumpF_nor (s : State) (k : Nat) (f : BitRange) : (s.bumpF k f).nor = s.nor := rfl
@[simp] theorem State.bumpF_norHeld (s : State) (k : Nat) (f : BitRange) : (s.bumpF k f).norHeld = s.norHeld := rfl
@[simp] theorem State.bumpF_ao (s : State) (k : Nat) (f : BitRange) : (s.bumpF k f).ao = s.ao := rfl
@[simp] theorem State.bumpF_smp (s : State) (k : Nat) (f : BitRange) : (s.bumpF k f).smp = s.smp := rfl
@[simp] theorem State.bumpF_ladder (s : State) (k : Nat) (f : BitRange) : (s.bumpF k f).ladder = s.ladder := rfl
@[simp] theorem State.bumpF_pair (s : State) (k : Nat) (f : BitRange) : (s.bumpF k f).pair = s.pair := rfl
@[simp] theorem State.bumpF_pins (s : State) (k : Nat) (f : BitRange) : (s.bumpF k f).pins = s.pins := rfl
@[simp] theorem State.bumpF_busData (s : State) (k : Nat) (f : BitRange) : (s.bumpF k f).busData = s.busData := rfl
@[simp] theorem State.bumpF_out (s : State) (k : Nat) (f : BitRange) : (s.bumpF k f).out = s.out := rfl
@[simp] theorem State.bumpF_draws (s : State) (k : Nat) (f : BitRange) : (s.bumpF k f).draws = s.draws := rfl

@[simp] theorem State.wrMem_pending (s : State) (a : Nat) (b : Bytes) : (s.wrMem a b).pending = s.pending := rfl
@[simp] theorem State.wrMem_regs (s : State) (a : Nat) (b : Bytes) : (s.wrMem a b).regs = s.regs := rfl
@[simp] theorem State.wrMem_fab (s : State) (a : Nat) (b : Bytes) : (s.wrMem a b).fab = s.fab := rfl
@[simp] theorem State.wrMem_dramFit (s : State) (a : Nat) (b : Bytes) : (s.wrMem a b).dramFit = s.dramFit := rfl
@[simp] theorem State.wrMem_ports (s : State) (a : Nat) (b : Bytes) : (s.wrMem a b).ports = s.ports := rfl
@[simp] theorem State.wrMem_ink (s : State) (a : Nat) (b : Bytes) : (s.wrMem a b).ink = s.ink := rfl
@[simp] theorem State.wrMem_mnd (s : State) (a : Nat) (b : Bytes) : (s.wrMem a b).mnd = s.mnd := rfl
@[simp] theorem State.wrMem_drn (s : State) (a : Nat) (b : Bytes) : (s.wrMem a b).drn = s.drn := rfl
@[simp] theorem State.wrMem_sto (s : State) (a : Nat) (b : Bytes) : (s.wrMem a b).sto = s.sto := rfl
@[simp] theorem State.wrMem_msm (s : State) (a : Nat) (b : Bytes) : (s.wrMem a b).msm = s.msm := rfl
@[simp] theorem State.wrMem_tot (s : State) (a : Nat) (b : Bytes) : (s.wrMem a b).tot = s.tot := rfl
@[simp] theorem State.wrMem_time (s : State) (a : Nat) (b : Bytes) : (s.wrMem a b).time = s.time := rfl
@[simp] theorem State.wrMem_upl (s : State) (a : Nat) (b : Bytes) : (s.wrMem a b).upl = s.upl := rfl
@[simp] theorem State.wrMem_shu (s : State) (a : Nat) (b : Bytes) : (s.wrMem a b).shu = s.shu := rfl
@[simp] theorem State.wrMem_intr (s : State) (a : Nat) (b : Bytes) : (s.wrMem a b).intr = s.intr := rfl
@[simp] theorem State.wrMem_hoop (s : State) (a : Nat) (b : Bytes) : (s.wrMem a b).hoop = s.hoop := rfl
@[simp] theorem State.wrMem_upd (s : State) (a : Nat) (b : Bytes) : (s.wrMem a b).upd = s.upd := rfl
@[simp] theorem State.wrMem_nor (s : State) (a : Nat) (b : Bytes) : (s.wrMem a b).nor = s.nor := rfl
@[simp] theorem State.wrMem_norHeld (s : State) (a : Nat) (b : Bytes) : (s.wrMem a b).norHeld = s.norHeld := rfl
@[simp] theorem State.wrMem_ao (s : State) (a : Nat) (b : Bytes) : (s.wrMem a b).ao = s.ao := rfl
@[simp] theorem State.wrMem_smp (s : State) (a : Nat) (b : Bytes) : (s.wrMem a b).smp = s.smp := rfl
@[simp] theorem State.wrMem_ladder (s : State) (a : Nat) (b : Bytes) : (s.wrMem a b).ladder = s.ladder := rfl
@[simp] theorem State.wrMem_pair (s : State) (a : Nat) (b : Bytes) : (s.wrMem a b).pair = s.pair := rfl
@[simp] theorem State.wrMem_pins (s : State) (a : Nat) (b : Bytes) : (s.wrMem a b).pins = s.pins := rfl
@[simp] theorem State.wrMem_busData (s : State) (a : Nat) (b : Bytes) : (s.wrMem a b).busData = s.busData := rfl
@[simp] theorem State.wrMem_out (s : State) (a : Nat) (b : Bytes) : (s.wrMem a b).out = s.out := rfl
@[simp] theorem State.wrMem_draws (s : State) (a : Nat) (b : Bytes) : (s.wrMem a b).draws = s.draws := rfl

@[simp] theorem State.emit_pending (s : State) (o : Out) : (s.emit o).pending = s.pending := rfl
@[simp] theorem State.emit_regs (s : State) (o : Out) : (s.emit o).regs = s.regs := rfl
@[simp] theorem State.emit_dram (s : State) (o : Out) : (s.emit o).dram = s.dram := rfl
@[simp] theorem State.emit_fab (s : State) (o : Out) : (s.emit o).fab = s.fab := rfl
@[simp] theorem State.emit_dramFit (s : State) (o : Out) : (s.emit o).dramFit = s.dramFit := rfl
@[simp] theorem State.emit_ports (s : State) (o : Out) : (s.emit o).ports = s.ports := rfl
@[simp] theorem State.emit_ink (s : State) (o : Out) : (s.emit o).ink = s.ink := rfl
@[simp] theorem State.emit_mnd (s : State) (o : Out) : (s.emit o).mnd = s.mnd := rfl
@[simp] theorem State.emit_drn (s : State) (o : Out) : (s.emit o).drn = s.drn := rfl
@[simp] theorem State.emit_sto (s : State) (o : Out) : (s.emit o).sto = s.sto := rfl
@[simp] theorem State.emit_msm (s : State) (o : Out) : (s.emit o).msm = s.msm := rfl
@[simp] theorem State.emit_tot (s : State) (o : Out) : (s.emit o).tot = s.tot := rfl
@[simp] theorem State.emit_time (s : State) (o : Out) : (s.emit o).time = s.time := rfl
@[simp] theorem State.emit_upl (s : State) (o : Out) : (s.emit o).upl = s.upl := rfl
@[simp] theorem State.emit_shu (s : State) (o : Out) : (s.emit o).shu = s.shu := rfl
@[simp] theorem State.emit_intr (s : State) (o : Out) : (s.emit o).intr = s.intr := rfl
@[simp] theorem State.emit_hoop (s : State) (o : Out) : (s.emit o).hoop = s.hoop := rfl
@[simp] theorem State.emit_upd (s : State) (o : Out) : (s.emit o).upd = s.upd := rfl
@[simp] theorem State.emit_nor (s : State) (o : Out) : (s.emit o).nor = s.nor := rfl
@[simp] theorem State.emit_norHeld (s : State) (o : Out) : (s.emit o).norHeld = s.norHeld := rfl
@[simp] theorem State.emit_ao (s : State) (o : Out) : (s.emit o).ao = s.ao := rfl
@[simp] theorem State.emit_smp (s : State) (o : Out) : (s.emit o).smp = s.smp := rfl
@[simp] theorem State.emit_ladder (s : State) (o : Out) : (s.emit o).ladder = s.ladder := rfl
@[simp] theorem State.emit_pair (s : State) (o : Out) : (s.emit o).pair = s.pair := rfl
@[simp] theorem State.emit_pins (s : State) (o : Out) : (s.emit o).pins = s.pins := rfl
@[simp] theorem State.emit_busData (s : State) (o : Out) : (s.emit o).busData = s.busData := rfl
@[simp] theorem State.emit_draws (s : State) (o : Out) : (s.emit o).draws = s.draws := rfl

@[simp] theorem State.answer_pending (s : State) (w : Word) : (s.answer w).pending = s.pending := rfl
@[simp] theorem State.answer_regs (s : State) (w : Word) : (s.answer w).regs = s.regs := rfl
@[simp] theorem State.answer_dram (s : State) (w : Word) : (s.answer w).dram = s.dram := rfl
@[simp] theorem State.answer_fab (s : State) (w : Word) : (s.answer w).fab = s.fab := rfl
@[simp] theorem State.answer_dramFit (s : State) (w : Word) : (s.answer w).dramFit = s.dramFit := rfl
@[simp] theorem State.answer_ports (s : State) (w : Word) : (s.answer w).ports = s.ports := rfl
@[simp] theorem State.answer_ink (s : State) (w : Word) : (s.answer w).ink = s.ink := rfl
@[simp] theorem State.answer_mnd (s : State) (w : Word) : (s.answer w).mnd = s.mnd := rfl
@[simp] theorem State.answer_drn (s : State) (w : Word) : (s.answer w).drn = s.drn := rfl
@[simp] theorem State.answer_sto (s : State) (w : Word) : (s.answer w).sto = s.sto := rfl
@[simp] theorem State.answer_msm (s : State) (w : Word) : (s.answer w).msm = s.msm := rfl
@[simp] theorem State.answer_tot (s : State) (w : Word) : (s.answer w).tot = s.tot := rfl
@[simp] theorem State.answer_time (s : State) (w : Word) : (s.answer w).time = s.time := rfl
@[simp] theorem State.answer_upl (s : State) (w : Word) : (s.answer w).upl = s.upl := rfl
@[simp] theorem State.answer_shu (s : State) (w : Word) : (s.answer w).shu = s.shu := rfl
@[simp] theorem State.answer_intr (s : State) (w : Word) : (s.answer w).intr = s.intr := rfl
@[simp] theorem State.answer_hoop (s : State) (w : Word) : (s.answer w).hoop = s.hoop := rfl
@[simp] theorem State.answer_upd (s : State) (w : Word) : (s.answer w).upd = s.upd := rfl
@[simp] theorem State.answer_nor (s : State) (w : Word) : (s.answer w).nor = s.nor := rfl
@[simp] theorem State.answer_norHeld (s : State) (w : Word) : (s.answer w).norHeld = s.norHeld := rfl
@[simp] theorem State.answer_ao (s : State) (w : Word) : (s.answer w).ao = s.ao := rfl
@[simp] theorem State.answer_smp (s : State) (w : Word) : (s.answer w).smp = s.smp := rfl
@[simp] theorem State.answer_ladder (s : State) (w : Word) : (s.answer w).ladder = s.ladder := rfl
@[simp] theorem State.answer_pair (s : State) (w : Word) : (s.answer w).pair = s.pair := rfl
@[simp] theorem State.answer_pins (s : State) (w : Word) : (s.answer w).pins = s.pins := rfl
@[simp] theorem State.answer_out (s : State) (w : Word) : (s.answer w).out = s.out := rfl
@[simp] theorem State.answer_draws (s : State) (w : Word) : (s.answer w).draws = s.draws := rfl

@[simp] theorem State.draw_pending (s : State) : (s.draw).pending = s.pending := rfl
@[simp] theorem State.draw_regs (s : State) : (s.draw).regs = s.regs := rfl
@[simp] theorem State.draw_dram (s : State) : (s.draw).dram = s.dram := rfl
@[simp] theorem State.draw_fab (s : State) : (s.draw).fab = s.fab := rfl
@[simp] theorem State.draw_dramFit (s : State) : (s.draw).dramFit = s.dramFit := rfl
@[simp] theorem State.draw_ports (s : State) : (s.draw).ports = s.ports := rfl
@[simp] theorem State.draw_ink (s : State) : (s.draw).ink = s.ink := rfl
@[simp] theorem State.draw_mnd (s : State) : (s.draw).mnd = s.mnd := rfl
@[simp] theorem State.draw_drn (s : State) : (s.draw).drn = s.drn := rfl
@[simp] theorem State.draw_sto (s : State) : (s.draw).sto = s.sto := rfl
@[simp] theorem State.draw_msm (s : State) : (s.draw).msm = s.msm := rfl
@[simp] theorem State.draw_tot (s : State) : (s.draw).tot = s.tot := rfl
@[simp] theorem State.draw_time (s : State) : (s.draw).time = s.time := rfl
@[simp] theorem State.draw_upl (s : State) : (s.draw).upl = s.upl := rfl
@[simp] theorem State.draw_shu (s : State) : (s.draw).shu = s.shu := rfl
@[simp] theorem State.draw_intr (s : State) : (s.draw).intr = s.intr := rfl
@[simp] theorem State.draw_hoop (s : State) : (s.draw).hoop = s.hoop := rfl
@[simp] theorem State.draw_upd (s : State) : (s.draw).upd = s.upd := rfl
@[simp] theorem State.draw_nor (s : State) : (s.draw).nor = s.nor := rfl
@[simp] theorem State.draw_norHeld (s : State) : (s.draw).norHeld = s.norHeld := rfl
@[simp] theorem State.draw_ao (s : State) : (s.draw).ao = s.ao := rfl
@[simp] theorem State.draw_smp (s : State) : (s.draw).smp = s.smp := rfl
@[simp] theorem State.draw_ladder (s : State) : (s.draw).ladder = s.ladder := rfl
@[simp] theorem State.draw_pair (s : State) : (s.draw).pair = s.pair := rfl
@[simp] theorem State.draw_pins (s : State) : (s.draw).pins = s.pins := rfl
@[simp] theorem State.draw_busData (s : State) : (s.draw).busData = s.busData := rfl
@[simp] theorem State.draw_out (s : State) : (s.draw).out = s.out := rfl

@[simp] theorem State.aoMod_pending (s : State) (f : AoState → AoState) : (s.aoMod f).pending = s.pending := rfl
@[simp] theorem State.aoMod_regs (s : State) (f : AoState → AoState) : (s.aoMod f).regs = s.regs := rfl
@[simp] theorem State.aoMod_dram (s : State) (f : AoState → AoState) : (s.aoMod f).dram = s.dram := rfl
@[simp] theorem State.aoMod_fab (s : State) (f : AoState → AoState) : (s.aoMod f).fab = s.fab := rfl
@[simp] theorem State.aoMod_dramFit (s : State) (f : AoState → AoState) : (s.aoMod f).dramFit = s.dramFit := rfl
@[simp] theorem State.aoMod_ports (s : State) (f : AoState → AoState) : (s.aoMod f).ports = s.ports := rfl
@[simp] theorem State.aoMod_ink (s : State) (f : AoState → AoState) : (s.aoMod f).ink = s.ink := rfl
@[simp] theorem State.aoMod_mnd (s : State) (f : AoState → AoState) : (s.aoMod f).mnd = s.mnd := rfl
@[simp] theorem State.aoMod_drn (s : State) (f : AoState → AoState) : (s.aoMod f).drn = s.drn := rfl
@[simp] theorem State.aoMod_sto (s : State) (f : AoState → AoState) : (s.aoMod f).sto = s.sto := rfl
@[simp] theorem State.aoMod_msm (s : State) (f : AoState → AoState) : (s.aoMod f).msm = s.msm := rfl
@[simp] theorem State.aoMod_tot (s : State) (f : AoState → AoState) : (s.aoMod f).tot = s.tot := rfl
@[simp] theorem State.aoMod_time (s : State) (f : AoState → AoState) : (s.aoMod f).time = s.time := rfl
@[simp] theorem State.aoMod_upl (s : State) (f : AoState → AoState) : (s.aoMod f).upl = s.upl := rfl
@[simp] theorem State.aoMod_shu (s : State) (f : AoState → AoState) : (s.aoMod f).shu = s.shu := rfl
@[simp] theorem State.aoMod_intr (s : State) (f : AoState → AoState) : (s.aoMod f).intr = s.intr := rfl
@[simp] theorem State.aoMod_hoop (s : State) (f : AoState → AoState) : (s.aoMod f).hoop = s.hoop := rfl
@[simp] theorem State.aoMod_upd (s : State) (f : AoState → AoState) : (s.aoMod f).upd = s.upd := rfl
@[simp] theorem State.aoMod_nor (s : State) (f : AoState → AoState) : (s.aoMod f).nor = s.nor := rfl
@[simp] theorem State.aoMod_norHeld (s : State) (f : AoState → AoState) : (s.aoMod f).norHeld = s.norHeld := rfl
@[simp] theorem State.aoMod_smp (s : State) (f : AoState → AoState) : (s.aoMod f).smp = s.smp := rfl
@[simp] theorem State.aoMod_ladder (s : State) (f : AoState → AoState) : (s.aoMod f).ladder = s.ladder := rfl
@[simp] theorem State.aoMod_pair (s : State) (f : AoState → AoState) : (s.aoMod f).pair = s.pair := rfl
@[simp] theorem State.aoMod_pins (s : State) (f : AoState → AoState) : (s.aoMod f).pins = s.pins := rfl
@[simp] theorem State.aoMod_busData (s : State) (f : AoState → AoState) : (s.aoMod f).busData = s.busData := rfl
@[simp] theorem State.aoMod_out (s : State) (f : AoState → AoState) : (s.aoMod f).out = s.out := rfl
@[simp] theorem State.aoMod_draws (s : State) (f : AoState → AoState) : (s.aoMod f).draws = s.draws := rfl

@[simp] theorem State.portMod_pending (s : State) (n : Nat) (f : PortState → PortState) : (s.portMod n f).pending = s.pending := rfl
@[simp] theorem State.portMod_regs (s : State) (n : Nat) (f : PortState → PortState) : (s.portMod n f).regs = s.regs := rfl
@[simp] theorem State.portMod_dram (s : State) (n : Nat) (f : PortState → PortState) : (s.portMod n f).dram = s.dram := rfl
@[simp] theorem State.portMod_fab (s : State) (n : Nat) (f : PortState → PortState) : (s.portMod n f).fab = s.fab := rfl
@[simp] theorem State.portMod_dramFit (s : State) (n : Nat) (f : PortState → PortState) : (s.portMod n f).dramFit = s.dramFit := rfl
@[simp] theorem State.portMod_ink (s : State) (n : Nat) (f : PortState → PortState) : (s.portMod n f).ink = s.ink := rfl
@[simp] theorem State.portMod_mnd (s : State) (n : Nat) (f : PortState → PortState) : (s.portMod n f).mnd = s.mnd := rfl
@[simp] theorem State.portMod_drn (s : State) (n : Nat) (f : PortState → PortState) : (s.portMod n f).drn = s.drn := rfl
@[simp] theorem State.portMod_sto (s : State) (n : Nat) (f : PortState → PortState) : (s.portMod n f).sto = s.sto := rfl
@[simp] theorem State.portMod_msm (s : State) (n : Nat) (f : PortState → PortState) : (s.portMod n f).msm = s.msm := rfl
@[simp] theorem State.portMod_tot (s : State) (n : Nat) (f : PortState → PortState) : (s.portMod n f).tot = s.tot := rfl
@[simp] theorem State.portMod_time (s : State) (n : Nat) (f : PortState → PortState) : (s.portMod n f).time = s.time := rfl
@[simp] theorem State.portMod_upl (s : State) (n : Nat) (f : PortState → PortState) : (s.portMod n f).upl = s.upl := rfl
@[simp] theorem State.portMod_shu (s : State) (n : Nat) (f : PortState → PortState) : (s.portMod n f).shu = s.shu := rfl
@[simp] theorem State.portMod_intr (s : State) (n : Nat) (f : PortState → PortState) : (s.portMod n f).intr = s.intr := rfl
@[simp] theorem State.portMod_hoop (s : State) (n : Nat) (f : PortState → PortState) : (s.portMod n f).hoop = s.hoop := rfl
@[simp] theorem State.portMod_upd (s : State) (n : Nat) (f : PortState → PortState) : (s.portMod n f).upd = s.upd := rfl
@[simp] theorem State.portMod_nor (s : State) (n : Nat) (f : PortState → PortState) : (s.portMod n f).nor = s.nor := rfl
@[simp] theorem State.portMod_norHeld (s : State) (n : Nat) (f : PortState → PortState) : (s.portMod n f).norHeld = s.norHeld := rfl
@[simp] theorem State.portMod_ao (s : State) (n : Nat) (f : PortState → PortState) : (s.portMod n f).ao = s.ao := rfl
@[simp] theorem State.portMod_smp (s : State) (n : Nat) (f : PortState → PortState) : (s.portMod n f).smp = s.smp := rfl
@[simp] theorem State.portMod_ladder (s : State) (n : Nat) (f : PortState → PortState) : (s.portMod n f).ladder = s.ladder := rfl
@[simp] theorem State.portMod_pair (s : State) (n : Nat) (f : PortState → PortState) : (s.portMod n f).pair = s.pair := rfl
@[simp] theorem State.portMod_pins (s : State) (n : Nat) (f : PortState → PortState) : (s.portMod n f).pins = s.pins := rfl
@[simp] theorem State.portMod_busData (s : State) (n : Nat) (f : PortState → PortState) : (s.portMod n f).busData = s.busData := rfl
@[simp] theorem State.portMod_out (s : State) (n : Nat) (f : PortState → PortState) : (s.portMod n f).out = s.out := rfl
@[simp] theorem State.portMod_draws (s : State) (n : Nat) (f : PortState → PortState) : (s.portMod n f).draws = s.draws := rfl

@[simp] theorem State.inkMod_pending (s : State) (f : InkState → InkState) : (s.inkMod f).pending = s.pending := rfl
@[simp] theorem State.inkMod_regs (s : State) (f : InkState → InkState) : (s.inkMod f).regs = s.regs := rfl
@[simp] theorem State.inkMod_dram (s : State) (f : InkState → InkState) : (s.inkMod f).dram = s.dram := rfl
@[simp] theorem State.inkMod_fab (s : State) (f : InkState → InkState) : (s.inkMod f).fab = s.fab := rfl
@[simp] theorem State.inkMod_dramFit (s : State) (f : InkState → InkState) : (s.inkMod f).dramFit = s.dramFit := rfl
@[simp] theorem State.inkMod_ports (s : State) (f : InkState → InkState) : (s.inkMod f).ports = s.ports := rfl
@[simp] theorem State.inkMod_mnd (s : State) (f : InkState → InkState) : (s.inkMod f).mnd = s.mnd := rfl
@[simp] theorem State.inkMod_drn (s : State) (f : InkState → InkState) : (s.inkMod f).drn = s.drn := rfl
@[simp] theorem State.inkMod_sto (s : State) (f : InkState → InkState) : (s.inkMod f).sto = s.sto := rfl
@[simp] theorem State.inkMod_msm (s : State) (f : InkState → InkState) : (s.inkMod f).msm = s.msm := rfl
@[simp] theorem State.inkMod_tot (s : State) (f : InkState → InkState) : (s.inkMod f).tot = s.tot := rfl
@[simp] theorem State.inkMod_time (s : State) (f : InkState → InkState) : (s.inkMod f).time = s.time := rfl
@[simp] theorem State.inkMod_upl (s : State) (f : InkState → InkState) : (s.inkMod f).upl = s.upl := rfl
@[simp] theorem State.inkMod_shu (s : State) (f : InkState → InkState) : (s.inkMod f).shu = s.shu := rfl
@[simp] theorem State.inkMod_intr (s : State) (f : InkState → InkState) : (s.inkMod f).intr = s.intr := rfl
@[simp] theorem State.inkMod_hoop (s : State) (f : InkState → InkState) : (s.inkMod f).hoop = s.hoop := rfl
@[simp] theorem State.inkMod_upd (s : State) (f : InkState → InkState) : (s.inkMod f).upd = s.upd := rfl
@[simp] theorem State.inkMod_nor (s : State) (f : InkState → InkState) : (s.inkMod f).nor = s.nor := rfl
@[simp] theorem State.inkMod_norHeld (s : State) (f : InkState → InkState) : (s.inkMod f).norHeld = s.norHeld := rfl
@[simp] theorem State.inkMod_ao (s : State) (f : InkState → InkState) : (s.inkMod f).ao = s.ao := rfl
@[simp] theorem State.inkMod_smp (s : State) (f : InkState → InkState) : (s.inkMod f).smp = s.smp := rfl
@[simp] theorem State.inkMod_ladder (s : State) (f : InkState → InkState) : (s.inkMod f).ladder = s.ladder := rfl
@[simp] theorem State.inkMod_pair (s : State) (f : InkState → InkState) : (s.inkMod f).pair = s.pair := rfl
@[simp] theorem State.inkMod_pins (s : State) (f : InkState → InkState) : (s.inkMod f).pins = s.pins := rfl
@[simp] theorem State.inkMod_busData (s : State) (f : InkState → InkState) : (s.inkMod f).busData = s.busData := rfl
@[simp] theorem State.inkMod_out (s : State) (f : InkState → InkState) : (s.inkMod f).out = s.out := rfl
@[simp] theorem State.inkMod_draws (s : State) (f : InkState → InkState) : (s.inkMod f).draws = s.draws := rfl

@[simp] theorem State.mndMod_pending (s : State) (f : MndState → MndState) : (s.mndMod f).pending = s.pending := rfl
@[simp] theorem State.mndMod_regs (s : State) (f : MndState → MndState) : (s.mndMod f).regs = s.regs := rfl
@[simp] theorem State.mndMod_dram (s : State) (f : MndState → MndState) : (s.mndMod f).dram = s.dram := rfl
@[simp] theorem State.mndMod_fab (s : State) (f : MndState → MndState) : (s.mndMod f).fab = s.fab := rfl
@[simp] theorem State.mndMod_dramFit (s : State) (f : MndState → MndState) : (s.mndMod f).dramFit = s.dramFit := rfl
@[simp] theorem State.mndMod_ports (s : State) (f : MndState → MndState) : (s.mndMod f).ports = s.ports := rfl
@[simp] theorem State.mndMod_ink (s : State) (f : MndState → MndState) : (s.mndMod f).ink = s.ink := rfl
@[simp] theorem State.mndMod_drn (s : State) (f : MndState → MndState) : (s.mndMod f).drn = s.drn := rfl
@[simp] theorem State.mndMod_sto (s : State) (f : MndState → MndState) : (s.mndMod f).sto = s.sto := rfl
@[simp] theorem State.mndMod_msm (s : State) (f : MndState → MndState) : (s.mndMod f).msm = s.msm := rfl
@[simp] theorem State.mndMod_tot (s : State) (f : MndState → MndState) : (s.mndMod f).tot = s.tot := rfl
@[simp] theorem State.mndMod_time (s : State) (f : MndState → MndState) : (s.mndMod f).time = s.time := rfl
@[simp] theorem State.mndMod_upl (s : State) (f : MndState → MndState) : (s.mndMod f).upl = s.upl := rfl
@[simp] theorem State.mndMod_shu (s : State) (f : MndState → MndState) : (s.mndMod f).shu = s.shu := rfl
@[simp] theorem State.mndMod_intr (s : State) (f : MndState → MndState) : (s.mndMod f).intr = s.intr := rfl
@[simp] theorem State.mndMod_hoop (s : State) (f : MndState → MndState) : (s.mndMod f).hoop = s.hoop := rfl
@[simp] theorem State.mndMod_upd (s : State) (f : MndState → MndState) : (s.mndMod f).upd = s.upd := rfl
@[simp] theorem State.mndMod_nor (s : State) (f : MndState → MndState) : (s.mndMod f).nor = s.nor := rfl
@[simp] theorem State.mndMod_norHeld (s : State) (f : MndState → MndState) : (s.mndMod f).norHeld = s.norHeld := rfl
@[simp] theorem State.mndMod_ao (s : State) (f : MndState → MndState) : (s.mndMod f).ao = s.ao := rfl
@[simp] theorem State.mndMod_smp (s : State) (f : MndState → MndState) : (s.mndMod f).smp = s.smp := rfl
@[simp] theorem State.mndMod_ladder (s : State) (f : MndState → MndState) : (s.mndMod f).ladder = s.ladder := rfl
@[simp] theorem State.mndMod_pair (s : State) (f : MndState → MndState) : (s.mndMod f).pair = s.pair := rfl
@[simp] theorem State.mndMod_pins (s : State) (f : MndState → MndState) : (s.mndMod f).pins = s.pins := rfl
@[simp] theorem State.mndMod_busData (s : State) (f : MndState → MndState) : (s.mndMod f).busData = s.busData := rfl
@[simp] theorem State.mndMod_out (s : State) (f : MndState → MndState) : (s.mndMod f).out = s.out := rfl
@[simp] theorem State.mndMod_draws (s : State) (f : MndState → MndState) : (s.mndMod f).draws = s.draws := rfl

@[simp] theorem State.drnMod_pending (s : State) (f : DrnState → DrnState) : (s.drnMod f).pending = s.pending := rfl
@[simp] theorem State.drnMod_regs (s : State) (f : DrnState → DrnState) : (s.drnMod f).regs = s.regs := rfl
@[simp] theorem State.drnMod_dram (s : State) (f : DrnState → DrnState) : (s.drnMod f).dram = s.dram := rfl
@[simp] theorem State.drnMod_fab (s : State) (f : DrnState → DrnState) : (s.drnMod f).fab = s.fab := rfl
@[simp] theorem State.drnMod_dramFit (s : State) (f : DrnState → DrnState) : (s.drnMod f).dramFit = s.dramFit := rfl
@[simp] theorem State.drnMod_ports (s : State) (f : DrnState → DrnState) : (s.drnMod f).ports = s.ports := rfl
@[simp] theorem State.drnMod_ink (s : State) (f : DrnState → DrnState) : (s.drnMod f).ink = s.ink := rfl
@[simp] theorem State.drnMod_mnd (s : State) (f : DrnState → DrnState) : (s.drnMod f).mnd = s.mnd := rfl
@[simp] theorem State.drnMod_sto (s : State) (f : DrnState → DrnState) : (s.drnMod f).sto = s.sto := rfl
@[simp] theorem State.drnMod_msm (s : State) (f : DrnState → DrnState) : (s.drnMod f).msm = s.msm := rfl
@[simp] theorem State.drnMod_tot (s : State) (f : DrnState → DrnState) : (s.drnMod f).tot = s.tot := rfl
@[simp] theorem State.drnMod_time (s : State) (f : DrnState → DrnState) : (s.drnMod f).time = s.time := rfl
@[simp] theorem State.drnMod_upl (s : State) (f : DrnState → DrnState) : (s.drnMod f).upl = s.upl := rfl
@[simp] theorem State.drnMod_shu (s : State) (f : DrnState → DrnState) : (s.drnMod f).shu = s.shu := rfl
@[simp] theorem State.drnMod_intr (s : State) (f : DrnState → DrnState) : (s.drnMod f).intr = s.intr := rfl
@[simp] theorem State.drnMod_hoop (s : State) (f : DrnState → DrnState) : (s.drnMod f).hoop = s.hoop := rfl
@[simp] theorem State.drnMod_upd (s : State) (f : DrnState → DrnState) : (s.drnMod f).upd = s.upd := rfl
@[simp] theorem State.drnMod_nor (s : State) (f : DrnState → DrnState) : (s.drnMod f).nor = s.nor := rfl
@[simp] theorem State.drnMod_norHeld (s : State) (f : DrnState → DrnState) : (s.drnMod f).norHeld = s.norHeld := rfl
@[simp] theorem State.drnMod_ao (s : State) (f : DrnState → DrnState) : (s.drnMod f).ao = s.ao := rfl
@[simp] theorem State.drnMod_smp (s : State) (f : DrnState → DrnState) : (s.drnMod f).smp = s.smp := rfl
@[simp] theorem State.drnMod_ladder (s : State) (f : DrnState → DrnState) : (s.drnMod f).ladder = s.ladder := rfl
@[simp] theorem State.drnMod_pair (s : State) (f : DrnState → DrnState) : (s.drnMod f).pair = s.pair := rfl
@[simp] theorem State.drnMod_pins (s : State) (f : DrnState → DrnState) : (s.drnMod f).pins = s.pins := rfl
@[simp] theorem State.drnMod_busData (s : State) (f : DrnState → DrnState) : (s.drnMod f).busData = s.busData := rfl
@[simp] theorem State.drnMod_out (s : State) (f : DrnState → DrnState) : (s.drnMod f).out = s.out := rfl
@[simp] theorem State.drnMod_draws (s : State) (f : DrnState → DrnState) : (s.drnMod f).draws = s.draws := rfl

@[simp] theorem State.stoMod_pending (s : State) (f : StoState → StoState) : (s.stoMod f).pending = s.pending := rfl
@[simp] theorem State.stoMod_regs (s : State) (f : StoState → StoState) : (s.stoMod f).regs = s.regs := rfl
@[simp] theorem State.stoMod_dram (s : State) (f : StoState → StoState) : (s.stoMod f).dram = s.dram := rfl
@[simp] theorem State.stoMod_fab (s : State) (f : StoState → StoState) : (s.stoMod f).fab = s.fab := rfl
@[simp] theorem State.stoMod_dramFit (s : State) (f : StoState → StoState) : (s.stoMod f).dramFit = s.dramFit := rfl
@[simp] theorem State.stoMod_ports (s : State) (f : StoState → StoState) : (s.stoMod f).ports = s.ports := rfl
@[simp] theorem State.stoMod_ink (s : State) (f : StoState → StoState) : (s.stoMod f).ink = s.ink := rfl
@[simp] theorem State.stoMod_mnd (s : State) (f : StoState → StoState) : (s.stoMod f).mnd = s.mnd := rfl
@[simp] theorem State.stoMod_drn (s : State) (f : StoState → StoState) : (s.stoMod f).drn = s.drn := rfl
@[simp] theorem State.stoMod_msm (s : State) (f : StoState → StoState) : (s.stoMod f).msm = s.msm := rfl
@[simp] theorem State.stoMod_tot (s : State) (f : StoState → StoState) : (s.stoMod f).tot = s.tot := rfl
@[simp] theorem State.stoMod_time (s : State) (f : StoState → StoState) : (s.stoMod f).time = s.time := rfl
@[simp] theorem State.stoMod_upl (s : State) (f : StoState → StoState) : (s.stoMod f).upl = s.upl := rfl
@[simp] theorem State.stoMod_shu (s : State) (f : StoState → StoState) : (s.stoMod f).shu = s.shu := rfl
@[simp] theorem State.stoMod_intr (s : State) (f : StoState → StoState) : (s.stoMod f).intr = s.intr := rfl
@[simp] theorem State.stoMod_hoop (s : State) (f : StoState → StoState) : (s.stoMod f).hoop = s.hoop := rfl
@[simp] theorem State.stoMod_upd (s : State) (f : StoState → StoState) : (s.stoMod f).upd = s.upd := rfl
@[simp] theorem State.stoMod_nor (s : State) (f : StoState → StoState) : (s.stoMod f).nor = s.nor := rfl
@[simp] theorem State.stoMod_norHeld (s : State) (f : StoState → StoState) : (s.stoMod f).norHeld = s.norHeld := rfl
@[simp] theorem State.stoMod_ao (s : State) (f : StoState → StoState) : (s.stoMod f).ao = s.ao := rfl
@[simp] theorem State.stoMod_smp (s : State) (f : StoState → StoState) : (s.stoMod f).smp = s.smp := rfl
@[simp] theorem State.stoMod_ladder (s : State) (f : StoState → StoState) : (s.stoMod f).ladder = s.ladder := rfl
@[simp] theorem State.stoMod_pair (s : State) (f : StoState → StoState) : (s.stoMod f).pair = s.pair := rfl
@[simp] theorem State.stoMod_pins (s : State) (f : StoState → StoState) : (s.stoMod f).pins = s.pins := rfl
@[simp] theorem State.stoMod_busData (s : State) (f : StoState → StoState) : (s.stoMod f).busData = s.busData := rfl
@[simp] theorem State.stoMod_out (s : State) (f : StoState → StoState) : (s.stoMod f).out = s.out := rfl
@[simp] theorem State.stoMod_draws (s : State) (f : StoState → StoState) : (s.stoMod f).draws = s.draws := rfl

@[simp] theorem State.totMod_pending (s : State) (f : TotState → TotState) : (s.totMod f).pending = s.pending := rfl
@[simp] theorem State.totMod_regs (s : State) (f : TotState → TotState) : (s.totMod f).regs = s.regs := rfl
@[simp] theorem State.totMod_dram (s : State) (f : TotState → TotState) : (s.totMod f).dram = s.dram := rfl
@[simp] theorem State.totMod_fab (s : State) (f : TotState → TotState) : (s.totMod f).fab = s.fab := rfl
@[simp] theorem State.totMod_dramFit (s : State) (f : TotState → TotState) : (s.totMod f).dramFit = s.dramFit := rfl
@[simp] theorem State.totMod_ports (s : State) (f : TotState → TotState) : (s.totMod f).ports = s.ports := rfl
@[simp] theorem State.totMod_ink (s : State) (f : TotState → TotState) : (s.totMod f).ink = s.ink := rfl
@[simp] theorem State.totMod_mnd (s : State) (f : TotState → TotState) : (s.totMod f).mnd = s.mnd := rfl
@[simp] theorem State.totMod_drn (s : State) (f : TotState → TotState) : (s.totMod f).drn = s.drn := rfl
@[simp] theorem State.totMod_sto (s : State) (f : TotState → TotState) : (s.totMod f).sto = s.sto := rfl
@[simp] theorem State.totMod_msm (s : State) (f : TotState → TotState) : (s.totMod f).msm = s.msm := rfl
@[simp] theorem State.totMod_time (s : State) (f : TotState → TotState) : (s.totMod f).time = s.time := rfl
@[simp] theorem State.totMod_upl (s : State) (f : TotState → TotState) : (s.totMod f).upl = s.upl := rfl
@[simp] theorem State.totMod_shu (s : State) (f : TotState → TotState) : (s.totMod f).shu = s.shu := rfl
@[simp] theorem State.totMod_intr (s : State) (f : TotState → TotState) : (s.totMod f).intr = s.intr := rfl
@[simp] theorem State.totMod_hoop (s : State) (f : TotState → TotState) : (s.totMod f).hoop = s.hoop := rfl
@[simp] theorem State.totMod_upd (s : State) (f : TotState → TotState) : (s.totMod f).upd = s.upd := rfl
@[simp] theorem State.totMod_nor (s : State) (f : TotState → TotState) : (s.totMod f).nor = s.nor := rfl
@[simp] theorem State.totMod_norHeld (s : State) (f : TotState → TotState) : (s.totMod f).norHeld = s.norHeld := rfl
@[simp] theorem State.totMod_ao (s : State) (f : TotState → TotState) : (s.totMod f).ao = s.ao := rfl
@[simp] theorem State.totMod_smp (s : State) (f : TotState → TotState) : (s.totMod f).smp = s.smp := rfl
@[simp] theorem State.totMod_ladder (s : State) (f : TotState → TotState) : (s.totMod f).ladder = s.ladder := rfl
@[simp] theorem State.totMod_pair (s : State) (f : TotState → TotState) : (s.totMod f).pair = s.pair := rfl
@[simp] theorem State.totMod_pins (s : State) (f : TotState → TotState) : (s.totMod f).pins = s.pins := rfl
@[simp] theorem State.totMod_busData (s : State) (f : TotState → TotState) : (s.totMod f).busData = s.busData := rfl
@[simp] theorem State.totMod_out (s : State) (f : TotState → TotState) : (s.totMod f).out = s.out := rfl
@[simp] theorem State.totMod_draws (s : State) (f : TotState → TotState) : (s.totMod f).draws = s.draws := rfl

@[simp] theorem State.tuMod_pending (s : State) (f : TimeState → TimeState) : (s.tuMod f).pending = s.pending := rfl
@[simp] theorem State.tuMod_regs (s : State) (f : TimeState → TimeState) : (s.tuMod f).regs = s.regs := rfl
@[simp] theorem State.tuMod_dram (s : State) (f : TimeState → TimeState) : (s.tuMod f).dram = s.dram := rfl
@[simp] theorem State.tuMod_fab (s : State) (f : TimeState → TimeState) : (s.tuMod f).fab = s.fab := rfl
@[simp] theorem State.tuMod_dramFit (s : State) (f : TimeState → TimeState) : (s.tuMod f).dramFit = s.dramFit := rfl
@[simp] theorem State.tuMod_ports (s : State) (f : TimeState → TimeState) : (s.tuMod f).ports = s.ports := rfl
@[simp] theorem State.tuMod_ink (s : State) (f : TimeState → TimeState) : (s.tuMod f).ink = s.ink := rfl
@[simp] theorem State.tuMod_mnd (s : State) (f : TimeState → TimeState) : (s.tuMod f).mnd = s.mnd := rfl
@[simp] theorem State.tuMod_drn (s : State) (f : TimeState → TimeState) : (s.tuMod f).drn = s.drn := rfl
@[simp] theorem State.tuMod_sto (s : State) (f : TimeState → TimeState) : (s.tuMod f).sto = s.sto := rfl
@[simp] theorem State.tuMod_msm (s : State) (f : TimeState → TimeState) : (s.tuMod f).msm = s.msm := rfl
@[simp] theorem State.tuMod_tot (s : State) (f : TimeState → TimeState) : (s.tuMod f).tot = s.tot := rfl
@[simp] theorem State.tuMod_upl (s : State) (f : TimeState → TimeState) : (s.tuMod f).upl = s.upl := rfl
@[simp] theorem State.tuMod_shu (s : State) (f : TimeState → TimeState) : (s.tuMod f).shu = s.shu := rfl
@[simp] theorem State.tuMod_intr (s : State) (f : TimeState → TimeState) : (s.tuMod f).intr = s.intr := rfl
@[simp] theorem State.tuMod_hoop (s : State) (f : TimeState → TimeState) : (s.tuMod f).hoop = s.hoop := rfl
@[simp] theorem State.tuMod_upd (s : State) (f : TimeState → TimeState) : (s.tuMod f).upd = s.upd := rfl
@[simp] theorem State.tuMod_nor (s : State) (f : TimeState → TimeState) : (s.tuMod f).nor = s.nor := rfl
@[simp] theorem State.tuMod_norHeld (s : State) (f : TimeState → TimeState) : (s.tuMod f).norHeld = s.norHeld := rfl
@[simp] theorem State.tuMod_ao (s : State) (f : TimeState → TimeState) : (s.tuMod f).ao = s.ao := rfl
@[simp] theorem State.tuMod_smp (s : State) (f : TimeState → TimeState) : (s.tuMod f).smp = s.smp := rfl
@[simp] theorem State.tuMod_ladder (s : State) (f : TimeState → TimeState) : (s.tuMod f).ladder = s.ladder := rfl
@[simp] theorem State.tuMod_pair (s : State) (f : TimeState → TimeState) : (s.tuMod f).pair = s.pair := rfl
@[simp] theorem State.tuMod_pins (s : State) (f : TimeState → TimeState) : (s.tuMod f).pins = s.pins := rfl
@[simp] theorem State.tuMod_busData (s : State) (f : TimeState → TimeState) : (s.tuMod f).busData = s.busData := rfl
@[simp] theorem State.tuMod_out (s : State) (f : TimeState → TimeState) : (s.tuMod f).out = s.out := rfl
@[simp] theorem State.tuMod_draws (s : State) (f : TimeState → TimeState) : (s.tuMod f).draws = s.draws := rfl

@[simp] theorem State.uplMod_pending (s : State) (f : UplState → UplState) : (s.uplMod f).pending = s.pending := rfl
@[simp] theorem State.uplMod_regs (s : State) (f : UplState → UplState) : (s.uplMod f).regs = s.regs := rfl
@[simp] theorem State.uplMod_dram (s : State) (f : UplState → UplState) : (s.uplMod f).dram = s.dram := rfl
@[simp] theorem State.uplMod_fab (s : State) (f : UplState → UplState) : (s.uplMod f).fab = s.fab := rfl
@[simp] theorem State.uplMod_dramFit (s : State) (f : UplState → UplState) : (s.uplMod f).dramFit = s.dramFit := rfl
@[simp] theorem State.uplMod_ports (s : State) (f : UplState → UplState) : (s.uplMod f).ports = s.ports := rfl
@[simp] theorem State.uplMod_ink (s : State) (f : UplState → UplState) : (s.uplMod f).ink = s.ink := rfl
@[simp] theorem State.uplMod_mnd (s : State) (f : UplState → UplState) : (s.uplMod f).mnd = s.mnd := rfl
@[simp] theorem State.uplMod_drn (s : State) (f : UplState → UplState) : (s.uplMod f).drn = s.drn := rfl
@[simp] theorem State.uplMod_sto (s : State) (f : UplState → UplState) : (s.uplMod f).sto = s.sto := rfl
@[simp] theorem State.uplMod_msm (s : State) (f : UplState → UplState) : (s.uplMod f).msm = s.msm := rfl
@[simp] theorem State.uplMod_tot (s : State) (f : UplState → UplState) : (s.uplMod f).tot = s.tot := rfl
@[simp] theorem State.uplMod_time (s : State) (f : UplState → UplState) : (s.uplMod f).time = s.time := rfl
@[simp] theorem State.uplMod_shu (s : State) (f : UplState → UplState) : (s.uplMod f).shu = s.shu := rfl
@[simp] theorem State.uplMod_intr (s : State) (f : UplState → UplState) : (s.uplMod f).intr = s.intr := rfl
@[simp] theorem State.uplMod_hoop (s : State) (f : UplState → UplState) : (s.uplMod f).hoop = s.hoop := rfl
@[simp] theorem State.uplMod_upd (s : State) (f : UplState → UplState) : (s.uplMod f).upd = s.upd := rfl
@[simp] theorem State.uplMod_nor (s : State) (f : UplState → UplState) : (s.uplMod f).nor = s.nor := rfl
@[simp] theorem State.uplMod_norHeld (s : State) (f : UplState → UplState) : (s.uplMod f).norHeld = s.norHeld := rfl
@[simp] theorem State.uplMod_ao (s : State) (f : UplState → UplState) : (s.uplMod f).ao = s.ao := rfl
@[simp] theorem State.uplMod_smp (s : State) (f : UplState → UplState) : (s.uplMod f).smp = s.smp := rfl
@[simp] theorem State.uplMod_ladder (s : State) (f : UplState → UplState) : (s.uplMod f).ladder = s.ladder := rfl
@[simp] theorem State.uplMod_pair (s : State) (f : UplState → UplState) : (s.uplMod f).pair = s.pair := rfl
@[simp] theorem State.uplMod_pins (s : State) (f : UplState → UplState) : (s.uplMod f).pins = s.pins := rfl
@[simp] theorem State.uplMod_busData (s : State) (f : UplState → UplState) : (s.uplMod f).busData = s.busData := rfl
@[simp] theorem State.uplMod_out (s : State) (f : UplState → UplState) : (s.uplMod f).out = s.out := rfl
@[simp] theorem State.uplMod_draws (s : State) (f : UplState → UplState) : (s.uplMod f).draws = s.draws := rfl

@[simp] theorem State.hoopMod_pending (s : State) (f : HoopState → HoopState) : (s.hoopMod f).pending = s.pending := rfl
@[simp] theorem State.hoopMod_regs (s : State) (f : HoopState → HoopState) : (s.hoopMod f).regs = s.regs := rfl
@[simp] theorem State.hoopMod_dram (s : State) (f : HoopState → HoopState) : (s.hoopMod f).dram = s.dram := rfl
@[simp] theorem State.hoopMod_fab (s : State) (f : HoopState → HoopState) : (s.hoopMod f).fab = s.fab := rfl
@[simp] theorem State.hoopMod_dramFit (s : State) (f : HoopState → HoopState) : (s.hoopMod f).dramFit = s.dramFit := rfl
@[simp] theorem State.hoopMod_ports (s : State) (f : HoopState → HoopState) : (s.hoopMod f).ports = s.ports := rfl
@[simp] theorem State.hoopMod_ink (s : State) (f : HoopState → HoopState) : (s.hoopMod f).ink = s.ink := rfl
@[simp] theorem State.hoopMod_mnd (s : State) (f : HoopState → HoopState) : (s.hoopMod f).mnd = s.mnd := rfl
@[simp] theorem State.hoopMod_drn (s : State) (f : HoopState → HoopState) : (s.hoopMod f).drn = s.drn := rfl
@[simp] theorem State.hoopMod_sto (s : State) (f : HoopState → HoopState) : (s.hoopMod f).sto = s.sto := rfl
@[simp] theorem State.hoopMod_msm (s : State) (f : HoopState → HoopState) : (s.hoopMod f).msm = s.msm := rfl
@[simp] theorem State.hoopMod_tot (s : State) (f : HoopState → HoopState) : (s.hoopMod f).tot = s.tot := rfl
@[simp] theorem State.hoopMod_time (s : State) (f : HoopState → HoopState) : (s.hoopMod f).time = s.time := rfl
@[simp] theorem State.hoopMod_upl (s : State) (f : HoopState → HoopState) : (s.hoopMod f).upl = s.upl := rfl
@[simp] theorem State.hoopMod_shu (s : State) (f : HoopState → HoopState) : (s.hoopMod f).shu = s.shu := rfl
@[simp] theorem State.hoopMod_intr (s : State) (f : HoopState → HoopState) : (s.hoopMod f).intr = s.intr := rfl
@[simp] theorem State.hoopMod_upd (s : State) (f : HoopState → HoopState) : (s.hoopMod f).upd = s.upd := rfl
@[simp] theorem State.hoopMod_nor (s : State) (f : HoopState → HoopState) : (s.hoopMod f).nor = s.nor := rfl
@[simp] theorem State.hoopMod_norHeld (s : State) (f : HoopState → HoopState) : (s.hoopMod f).norHeld = s.norHeld := rfl
@[simp] theorem State.hoopMod_ao (s : State) (f : HoopState → HoopState) : (s.hoopMod f).ao = s.ao := rfl
@[simp] theorem State.hoopMod_smp (s : State) (f : HoopState → HoopState) : (s.hoopMod f).smp = s.smp := rfl
@[simp] theorem State.hoopMod_ladder (s : State) (f : HoopState → HoopState) : (s.hoopMod f).ladder = s.ladder := rfl
@[simp] theorem State.hoopMod_pair (s : State) (f : HoopState → HoopState) : (s.hoopMod f).pair = s.pair := rfl
@[simp] theorem State.hoopMod_pins (s : State) (f : HoopState → HoopState) : (s.hoopMod f).pins = s.pins := rfl
@[simp] theorem State.hoopMod_busData (s : State) (f : HoopState → HoopState) : (s.hoopMod f).busData = s.busData := rfl
@[simp] theorem State.hoopMod_out (s : State) (f : HoopState → HoopState) : (s.hoopMod f).out = s.out := rfl
@[simp] theorem State.hoopMod_draws (s : State) (f : HoopState → HoopState) : (s.hoopMod f).draws = s.draws := rfl

@[simp] theorem State.updMod_pending (s : State) (f : UpdState → UpdState) : (s.updMod f).pending = s.pending := rfl
@[simp] theorem State.updMod_regs (s : State) (f : UpdState → UpdState) : (s.updMod f).regs = s.regs := rfl
@[simp] theorem State.updMod_dram (s : State) (f : UpdState → UpdState) : (s.updMod f).dram = s.dram := rfl
@[simp] theorem State.updMod_fab (s : State) (f : UpdState → UpdState) : (s.updMod f).fab = s.fab := rfl
@[simp] theorem State.updMod_dramFit (s : State) (f : UpdState → UpdState) : (s.updMod f).dramFit = s.dramFit := rfl
@[simp] theorem State.updMod_ports (s : State) (f : UpdState → UpdState) : (s.updMod f).ports = s.ports := rfl
@[simp] theorem State.updMod_ink (s : State) (f : UpdState → UpdState) : (s.updMod f).ink = s.ink := rfl
@[simp] theorem State.updMod_mnd (s : State) (f : UpdState → UpdState) : (s.updMod f).mnd = s.mnd := rfl
@[simp] theorem State.updMod_drn (s : State) (f : UpdState → UpdState) : (s.updMod f).drn = s.drn := rfl
@[simp] theorem State.updMod_sto (s : State) (f : UpdState → UpdState) : (s.updMod f).sto = s.sto := rfl
@[simp] theorem State.updMod_msm (s : State) (f : UpdState → UpdState) : (s.updMod f).msm = s.msm := rfl
@[simp] theorem State.updMod_tot (s : State) (f : UpdState → UpdState) : (s.updMod f).tot = s.tot := rfl
@[simp] theorem State.updMod_time (s : State) (f : UpdState → UpdState) : (s.updMod f).time = s.time := rfl
@[simp] theorem State.updMod_upl (s : State) (f : UpdState → UpdState) : (s.updMod f).upl = s.upl := rfl
@[simp] theorem State.updMod_shu (s : State) (f : UpdState → UpdState) : (s.updMod f).shu = s.shu := rfl
@[simp] theorem State.updMod_intr (s : State) (f : UpdState → UpdState) : (s.updMod f).intr = s.intr := rfl
@[simp] theorem State.updMod_hoop (s : State) (f : UpdState → UpdState) : (s.updMod f).hoop = s.hoop := rfl
@[simp] theorem State.updMod_nor (s : State) (f : UpdState → UpdState) : (s.updMod f).nor = s.nor := rfl
@[simp] theorem State.updMod_norHeld (s : State) (f : UpdState → UpdState) : (s.updMod f).norHeld = s.norHeld := rfl
@[simp] theorem State.updMod_ao (s : State) (f : UpdState → UpdState) : (s.updMod f).ao = s.ao := rfl
@[simp] theorem State.updMod_smp (s : State) (f : UpdState → UpdState) : (s.updMod f).smp = s.smp := rfl
@[simp] theorem State.updMod_ladder (s : State) (f : UpdState → UpdState) : (s.updMod f).ladder = s.ladder := rfl
@[simp] theorem State.updMod_pair (s : State) (f : UpdState → UpdState) : (s.updMod f).pair = s.pair := rfl
@[simp] theorem State.updMod_pins (s : State) (f : UpdState → UpdState) : (s.updMod f).pins = s.pins := rfl
@[simp] theorem State.updMod_busData (s : State) (f : UpdState → UpdState) : (s.updMod f).busData = s.busData := rfl
@[simp] theorem State.updMod_out (s : State) (f : UpdState → UpdState) : (s.updMod f).out = s.out := rfl
@[simp] theorem State.updMod_draws (s : State) (f : UpdState → UpdState) : (s.updMod f).draws = s.draws := rfl

@[simp] theorem State.smpMod_pending (s : State) (f : SmpState → SmpState) : (s.smpMod f).pending = s.pending := rfl
@[simp] theorem State.smpMod_regs (s : State) (f : SmpState → SmpState) : (s.smpMod f).regs = s.regs := rfl
@[simp] theorem State.smpMod_dram (s : State) (f : SmpState → SmpState) : (s.smpMod f).dram = s.dram := rfl
@[simp] theorem State.smpMod_fab (s : State) (f : SmpState → SmpState) : (s.smpMod f).fab = s.fab := rfl
@[simp] theorem State.smpMod_dramFit (s : State) (f : SmpState → SmpState) : (s.smpMod f).dramFit = s.dramFit := rfl
@[simp] theorem State.smpMod_ports (s : State) (f : SmpState → SmpState) : (s.smpMod f).ports = s.ports := rfl
@[simp] theorem State.smpMod_ink (s : State) (f : SmpState → SmpState) : (s.smpMod f).ink = s.ink := rfl
@[simp] theorem State.smpMod_mnd (s : State) (f : SmpState → SmpState) : (s.smpMod f).mnd = s.mnd := rfl
@[simp] theorem State.smpMod_drn (s : State) (f : SmpState → SmpState) : (s.smpMod f).drn = s.drn := rfl
@[simp] theorem State.smpMod_sto (s : State) (f : SmpState → SmpState) : (s.smpMod f).sto = s.sto := rfl
@[simp] theorem State.smpMod_msm (s : State) (f : SmpState → SmpState) : (s.smpMod f).msm = s.msm := rfl
@[simp] theorem State.smpMod_tot (s : State) (f : SmpState → SmpState) : (s.smpMod f).tot = s.tot := rfl
@[simp] theorem State.smpMod_time (s : State) (f : SmpState → SmpState) : (s.smpMod f).time = s.time := rfl
@[simp] theorem State.smpMod_upl (s : State) (f : SmpState → SmpState) : (s.smpMod f).upl = s.upl := rfl
@[simp] theorem State.smpMod_shu (s : State) (f : SmpState → SmpState) : (s.smpMod f).shu = s.shu := rfl
@[simp] theorem State.smpMod_intr (s : State) (f : SmpState → SmpState) : (s.smpMod f).intr = s.intr := rfl
@[simp] theorem State.smpMod_hoop (s : State) (f : SmpState → SmpState) : (s.smpMod f).hoop = s.hoop := rfl
@[simp] theorem State.smpMod_upd (s : State) (f : SmpState → SmpState) : (s.smpMod f).upd = s.upd := rfl
@[simp] theorem State.smpMod_nor (s : State) (f : SmpState → SmpState) : (s.smpMod f).nor = s.nor := rfl
@[simp] theorem State.smpMod_norHeld (s : State) (f : SmpState → SmpState) : (s.smpMod f).norHeld = s.norHeld := rfl
@[simp] theorem State.smpMod_ao (s : State) (f : SmpState → SmpState) : (s.smpMod f).ao = s.ao := rfl
@[simp] theorem State.smpMod_ladder (s : State) (f : SmpState → SmpState) : (s.smpMod f).ladder = s.ladder := rfl
@[simp] theorem State.smpMod_pair (s : State) (f : SmpState → SmpState) : (s.smpMod f).pair = s.pair := rfl
@[simp] theorem State.smpMod_pins (s : State) (f : SmpState → SmpState) : (s.smpMod f).pins = s.pins := rfl
@[simp] theorem State.smpMod_busData (s : State) (f : SmpState → SmpState) : (s.smpMod f).busData = s.busData := rfl
@[simp] theorem State.smpMod_out (s : State) (f : SmpState → SmpState) : (s.smpMod f).out = s.out := rfl
@[simp] theorem State.smpMod_draws (s : State) (f : SmpState → SmpState) : (s.smpMod f).draws = s.draws := rfl

@[simp] theorem State.pairMod_pending (s : State) (f : PairState → PairState) : (s.pairMod f).pending = s.pending := rfl
@[simp] theorem State.pairMod_regs (s : State) (f : PairState → PairState) : (s.pairMod f).regs = s.regs := rfl
@[simp] theorem State.pairMod_dram (s : State) (f : PairState → PairState) : (s.pairMod f).dram = s.dram := rfl
@[simp] theorem State.pairMod_fab (s : State) (f : PairState → PairState) : (s.pairMod f).fab = s.fab := rfl
@[simp] theorem State.pairMod_dramFit (s : State) (f : PairState → PairState) : (s.pairMod f).dramFit = s.dramFit := rfl
@[simp] theorem State.pairMod_ports (s : State) (f : PairState → PairState) : (s.pairMod f).ports = s.ports := rfl
@[simp] theorem State.pairMod_ink (s : State) (f : PairState → PairState) : (s.pairMod f).ink = s.ink := rfl
@[simp] theorem State.pairMod_mnd (s : State) (f : PairState → PairState) : (s.pairMod f).mnd = s.mnd := rfl
@[simp] theorem State.pairMod_drn (s : State) (f : PairState → PairState) : (s.pairMod f).drn = s.drn := rfl
@[simp] theorem State.pairMod_sto (s : State) (f : PairState → PairState) : (s.pairMod f).sto = s.sto := rfl
@[simp] theorem State.pairMod_msm (s : State) (f : PairState → PairState) : (s.pairMod f).msm = s.msm := rfl
@[simp] theorem State.pairMod_tot (s : State) (f : PairState → PairState) : (s.pairMod f).tot = s.tot := rfl
@[simp] theorem State.pairMod_time (s : State) (f : PairState → PairState) : (s.pairMod f).time = s.time := rfl
@[simp] theorem State.pairMod_upl (s : State) (f : PairState → PairState) : (s.pairMod f).upl = s.upl := rfl
@[simp] theorem State.pairMod_shu (s : State) (f : PairState → PairState) : (s.pairMod f).shu = s.shu := rfl
@[simp] theorem State.pairMod_intr (s : State) (f : PairState → PairState) : (s.pairMod f).intr = s.intr := rfl
@[simp] theorem State.pairMod_hoop (s : State) (f : PairState → PairState) : (s.pairMod f).hoop = s.hoop := rfl
@[simp] theorem State.pairMod_upd (s : State) (f : PairState → PairState) : (s.pairMod f).upd = s.upd := rfl
@[simp] theorem State.pairMod_nor (s : State) (f : PairState → PairState) : (s.pairMod f).nor = s.nor := rfl
@[simp] theorem State.pairMod_norHeld (s : State) (f : PairState → PairState) : (s.pairMod f).norHeld = s.norHeld := rfl
@[simp] theorem State.pairMod_ao (s : State) (f : PairState → PairState) : (s.pairMod f).ao = s.ao := rfl
@[simp] theorem State.pairMod_smp (s : State) (f : PairState → PairState) : (s.pairMod f).smp = s.smp := rfl
@[simp] theorem State.pairMod_ladder (s : State) (f : PairState → PairState) : (s.pairMod f).ladder = s.ladder := rfl
@[simp] theorem State.pairMod_pins (s : State) (f : PairState → PairState) : (s.pairMod f).pins = s.pins := rfl
@[simp] theorem State.pairMod_busData (s : State) (f : PairState → PairState) : (s.pairMod f).busData = s.busData := rfl
@[simp] theorem State.pairMod_out (s : State) (f : PairState → PairState) : (s.pairMod f).out = s.out := rfl
@[simp] theorem State.pairMod_draws (s : State) (f : PairState → PairState) : (s.pairMod f).draws = s.draws := rfl

@[simp] theorem State.fabMod_pending (s : State) (f : FabState → FabState) : (s.fabMod f).pending = s.pending := rfl
@[simp] theorem State.fabMod_regs (s : State) (f : FabState → FabState) : (s.fabMod f).regs = s.regs := rfl
@[simp] theorem State.fabMod_dram (s : State) (f : FabState → FabState) : (s.fabMod f).dram = s.dram := rfl
@[simp] theorem State.fabMod_dramFit (s : State) (f : FabState → FabState) : (s.fabMod f).dramFit = s.dramFit := rfl
@[simp] theorem State.fabMod_ports (s : State) (f : FabState → FabState) : (s.fabMod f).ports = s.ports := rfl
@[simp] theorem State.fabMod_ink (s : State) (f : FabState → FabState) : (s.fabMod f).ink = s.ink := rfl
@[simp] theorem State.fabMod_mnd (s : State) (f : FabState → FabState) : (s.fabMod f).mnd = s.mnd := rfl
@[simp] theorem State.fabMod_drn (s : State) (f : FabState → FabState) : (s.fabMod f).drn = s.drn := rfl
@[simp] theorem State.fabMod_sto (s : State) (f : FabState → FabState) : (s.fabMod f).sto = s.sto := rfl
@[simp] theorem State.fabMod_msm (s : State) (f : FabState → FabState) : (s.fabMod f).msm = s.msm := rfl
@[simp] theorem State.fabMod_tot (s : State) (f : FabState → FabState) : (s.fabMod f).tot = s.tot := rfl
@[simp] theorem State.fabMod_time (s : State) (f : FabState → FabState) : (s.fabMod f).time = s.time := rfl
@[simp] theorem State.fabMod_upl (s : State) (f : FabState → FabState) : (s.fabMod f).upl = s.upl := rfl
@[simp] theorem State.fabMod_shu (s : State) (f : FabState → FabState) : (s.fabMod f).shu = s.shu := rfl
@[simp] theorem State.fabMod_intr (s : State) (f : FabState → FabState) : (s.fabMod f).intr = s.intr := rfl
@[simp] theorem State.fabMod_hoop (s : State) (f : FabState → FabState) : (s.fabMod f).hoop = s.hoop := rfl
@[simp] theorem State.fabMod_upd (s : State) (f : FabState → FabState) : (s.fabMod f).upd = s.upd := rfl
@[simp] theorem State.fabMod_nor (s : State) (f : FabState → FabState) : (s.fabMod f).nor = s.nor := rfl
@[simp] theorem State.fabMod_norHeld (s : State) (f : FabState → FabState) : (s.fabMod f).norHeld = s.norHeld := rfl
@[simp] theorem State.fabMod_ao (s : State) (f : FabState → FabState) : (s.fabMod f).ao = s.ao := rfl
@[simp] theorem State.fabMod_smp (s : State) (f : FabState → FabState) : (s.fabMod f).smp = s.smp := rfl
@[simp] theorem State.fabMod_ladder (s : State) (f : FabState → FabState) : (s.fabMod f).ladder = s.ladder := rfl
@[simp] theorem State.fabMod_pair (s : State) (f : FabState → FabState) : (s.fabMod f).pair = s.pair := rfl
@[simp] theorem State.fabMod_pins (s : State) (f : FabState → FabState) : (s.fabMod f).pins = s.pins := rfl
@[simp] theorem State.fabMod_busData (s : State) (f : FabState → FabState) : (s.fabMod f).busData = s.busData := rfl
@[simp] theorem State.fabMod_out (s : State) (f : FabState → FabState) : (s.fabMod f).out = s.out := rfl
@[simp] theorem State.fabMod_draws (s : State) (f : FabState → FabState) : (s.fabMod f).draws = s.draws := rfl

@[simp] theorem State.intMod_pending (s : State) (f : IntState → IntState) : (s.intMod f).pending = s.pending := rfl
@[simp] theorem State.intMod_regs (s : State) (f : IntState → IntState) : (s.intMod f).regs = s.regs := rfl
@[simp] theorem State.intMod_dram (s : State) (f : IntState → IntState) : (s.intMod f).dram = s.dram := rfl
@[simp] theorem State.intMod_fab (s : State) (f : IntState → IntState) : (s.intMod f).fab = s.fab := rfl
@[simp] theorem State.intMod_dramFit (s : State) (f : IntState → IntState) : (s.intMod f).dramFit = s.dramFit := rfl
@[simp] theorem State.intMod_ports (s : State) (f : IntState → IntState) : (s.intMod f).ports = s.ports := rfl
@[simp] theorem State.intMod_ink (s : State) (f : IntState → IntState) : (s.intMod f).ink = s.ink := rfl
@[simp] theorem State.intMod_mnd (s : State) (f : IntState → IntState) : (s.intMod f).mnd = s.mnd := rfl
@[simp] theorem State.intMod_drn (s : State) (f : IntState → IntState) : (s.intMod f).drn = s.drn := rfl
@[simp] theorem State.intMod_sto (s : State) (f : IntState → IntState) : (s.intMod f).sto = s.sto := rfl
@[simp] theorem State.intMod_msm (s : State) (f : IntState → IntState) : (s.intMod f).msm = s.msm := rfl
@[simp] theorem State.intMod_tot (s : State) (f : IntState → IntState) : (s.intMod f).tot = s.tot := rfl
@[simp] theorem State.intMod_time (s : State) (f : IntState → IntState) : (s.intMod f).time = s.time := rfl
@[simp] theorem State.intMod_upl (s : State) (f : IntState → IntState) : (s.intMod f).upl = s.upl := rfl
@[simp] theorem State.intMod_shu (s : State) (f : IntState → IntState) : (s.intMod f).shu = s.shu := rfl
@[simp] theorem State.intMod_hoop (s : State) (f : IntState → IntState) : (s.intMod f).hoop = s.hoop := rfl
@[simp] theorem State.intMod_upd (s : State) (f : IntState → IntState) : (s.intMod f).upd = s.upd := rfl
@[simp] theorem State.intMod_nor (s : State) (f : IntState → IntState) : (s.intMod f).nor = s.nor := rfl
@[simp] theorem State.intMod_norHeld (s : State) (f : IntState → IntState) : (s.intMod f).norHeld = s.norHeld := rfl
@[simp] theorem State.intMod_ao (s : State) (f : IntState → IntState) : (s.intMod f).ao = s.ao := rfl
@[simp] theorem State.intMod_smp (s : State) (f : IntState → IntState) : (s.intMod f).smp = s.smp := rfl
@[simp] theorem State.intMod_ladder (s : State) (f : IntState → IntState) : (s.intMod f).ladder = s.ladder := rfl
@[simp] theorem State.intMod_pair (s : State) (f : IntState → IntState) : (s.intMod f).pair = s.pair := rfl
@[simp] theorem State.intMod_pins (s : State) (f : IntState → IntState) : (s.intMod f).pins = s.pins := rfl
@[simp] theorem State.intMod_busData (s : State) (f : IntState → IntState) : (s.intMod f).busData = s.busData := rfl
@[simp] theorem State.intMod_out (s : State) (f : IntState → IntState) : (s.intMod f).out = s.out := rfl
@[simp] theorem State.intMod_draws (s : State) (f : IntState → IntState) : (s.intMod f).draws = s.draws := rfl

@[simp] theorem State.casMod_pending (s : State) (n : Nat) (f : CasState → CasState) : (s.casMod n f).pending = s.pending := rfl
@[simp] theorem State.casMod_regs (s : State) (n : Nat) (f : CasState → CasState) : (s.casMod n f).regs = s.regs := rfl
@[simp] theorem State.casMod_dram (s : State) (n : Nat) (f : CasState → CasState) : (s.casMod n f).dram = s.dram := rfl
@[simp] theorem State.casMod_fab (s : State) (n : Nat) (f : CasState → CasState) : (s.casMod n f).fab = s.fab := rfl
@[simp] theorem State.casMod_dramFit (s : State) (n : Nat) (f : CasState → CasState) : (s.casMod n f).dramFit = s.dramFit := rfl
@[simp] theorem State.casMod_ink (s : State) (n : Nat) (f : CasState → CasState) : (s.casMod n f).ink = s.ink := rfl
@[simp] theorem State.casMod_mnd (s : State) (n : Nat) (f : CasState → CasState) : (s.casMod n f).mnd = s.mnd := rfl
@[simp] theorem State.casMod_drn (s : State) (n : Nat) (f : CasState → CasState) : (s.casMod n f).drn = s.drn := rfl
@[simp] theorem State.casMod_sto (s : State) (n : Nat) (f : CasState → CasState) : (s.casMod n f).sto = s.sto := rfl
@[simp] theorem State.casMod_msm (s : State) (n : Nat) (f : CasState → CasState) : (s.casMod n f).msm = s.msm := rfl
@[simp] theorem State.casMod_tot (s : State) (n : Nat) (f : CasState → CasState) : (s.casMod n f).tot = s.tot := rfl
@[simp] theorem State.casMod_time (s : State) (n : Nat) (f : CasState → CasState) : (s.casMod n f).time = s.time := rfl
@[simp] theorem State.casMod_upl (s : State) (n : Nat) (f : CasState → CasState) : (s.casMod n f).upl = s.upl := rfl
@[simp] theorem State.casMod_shu (s : State) (n : Nat) (f : CasState → CasState) : (s.casMod n f).shu = s.shu := rfl
@[simp] theorem State.casMod_intr (s : State) (n : Nat) (f : CasState → CasState) : (s.casMod n f).intr = s.intr := rfl
@[simp] theorem State.casMod_hoop (s : State) (n : Nat) (f : CasState → CasState) : (s.casMod n f).hoop = s.hoop := rfl
@[simp] theorem State.casMod_upd (s : State) (n : Nat) (f : CasState → CasState) : (s.casMod n f).upd = s.upd := rfl
@[simp] theorem State.casMod_nor (s : State) (n : Nat) (f : CasState → CasState) : (s.casMod n f).nor = s.nor := rfl
@[simp] theorem State.casMod_norHeld (s : State) (n : Nat) (f : CasState → CasState) : (s.casMod n f).norHeld = s.norHeld := rfl
@[simp] theorem State.casMod_ao (s : State) (n : Nat) (f : CasState → CasState) : (s.casMod n f).ao = s.ao := rfl
@[simp] theorem State.casMod_smp (s : State) (n : Nat) (f : CasState → CasState) : (s.casMod n f).smp = s.smp := rfl
@[simp] theorem State.casMod_ladder (s : State) (n : Nat) (f : CasState → CasState) : (s.casMod n f).ladder = s.ladder := rfl
@[simp] theorem State.casMod_pair (s : State) (n : Nat) (f : CasState → CasState) : (s.casMod n f).pair = s.pair := rfl
@[simp] theorem State.casMod_pins (s : State) (n : Nat) (f : CasState → CasState) : (s.casMod n f).pins = s.pins := rfl
@[simp] theorem State.casMod_busData (s : State) (n : Nat) (f : CasState → CasState) : (s.casMod n f).busData = s.busData := rfl
@[simp] theorem State.casMod_out (s : State) (n : Nat) (f : CasState → CasState) : (s.casMod n f).out = s.out := rfl
@[simp] theorem State.casMod_draws (s : State) (n : Nat) (f : CasState → CasState) : (s.casMod n f).draws = s.draws := rfl

@[simp] theorem State.lnMod_pending (s : State) (n : Nat) (f : LineState → LineState) : (s.lnMod n f).pending = s.pending := rfl
@[simp] theorem State.lnMod_regs (s : State) (n : Nat) (f : LineState → LineState) : (s.lnMod n f).regs = s.regs := rfl
@[simp] theorem State.lnMod_dram (s : State) (n : Nat) (f : LineState → LineState) : (s.lnMod n f).dram = s.dram := rfl
@[simp] theorem State.lnMod_fab (s : State) (n : Nat) (f : LineState → LineState) : (s.lnMod n f).fab = s.fab := rfl
@[simp] theorem State.lnMod_dramFit (s : State) (n : Nat) (f : LineState → LineState) : (s.lnMod n f).dramFit = s.dramFit := rfl
@[simp] theorem State.lnMod_ink (s : State) (n : Nat) (f : LineState → LineState) : (s.lnMod n f).ink = s.ink := rfl
@[simp] theorem State.lnMod_mnd (s : State) (n : Nat) (f : LineState → LineState) : (s.lnMod n f).mnd = s.mnd := rfl
@[simp] theorem State.lnMod_drn (s : State) (n : Nat) (f : LineState → LineState) : (s.lnMod n f).drn = s.drn := rfl
@[simp] theorem State.lnMod_sto (s : State) (n : Nat) (f : LineState → LineState) : (s.lnMod n f).sto = s.sto := rfl
@[simp] theorem State.lnMod_msm (s : State) (n : Nat) (f : LineState → LineState) : (s.lnMod n f).msm = s.msm := rfl
@[simp] theorem State.lnMod_tot (s : State) (n : Nat) (f : LineState → LineState) : (s.lnMod n f).tot = s.tot := rfl
@[simp] theorem State.lnMod_time (s : State) (n : Nat) (f : LineState → LineState) : (s.lnMod n f).time = s.time := rfl
@[simp] theorem State.lnMod_upl (s : State) (n : Nat) (f : LineState → LineState) : (s.lnMod n f).upl = s.upl := rfl
@[simp] theorem State.lnMod_shu (s : State) (n : Nat) (f : LineState → LineState) : (s.lnMod n f).shu = s.shu := rfl
@[simp] theorem State.lnMod_intr (s : State) (n : Nat) (f : LineState → LineState) : (s.lnMod n f).intr = s.intr := rfl
@[simp] theorem State.lnMod_hoop (s : State) (n : Nat) (f : LineState → LineState) : (s.lnMod n f).hoop = s.hoop := rfl
@[simp] theorem State.lnMod_upd (s : State) (n : Nat) (f : LineState → LineState) : (s.lnMod n f).upd = s.upd := rfl
@[simp] theorem State.lnMod_nor (s : State) (n : Nat) (f : LineState → LineState) : (s.lnMod n f).nor = s.nor := rfl
@[simp] theorem State.lnMod_norHeld (s : State) (n : Nat) (f : LineState → LineState) : (s.lnMod n f).norHeld = s.norHeld := rfl
@[simp] theorem State.lnMod_ao (s : State) (n : Nat) (f : LineState → LineState) : (s.lnMod n f).ao = s.ao := rfl
@[simp] theorem State.lnMod_smp (s : State) (n : Nat) (f : LineState → LineState) : (s.lnMod n f).smp = s.smp := rfl
@[simp] theorem State.lnMod_ladder (s : State) (n : Nat) (f : LineState → LineState) : (s.lnMod n f).ladder = s.ladder := rfl
@[simp] theorem State.lnMod_pair (s : State) (n : Nat) (f : LineState → LineState) : (s.lnMod n f).pair = s.pair := rfl
@[simp] theorem State.lnMod_pins (s : State) (n : Nat) (f : LineState → LineState) : (s.lnMod n f).pins = s.pins := rfl
@[simp] theorem State.lnMod_busData (s : State) (n : Nat) (f : LineState → LineState) : (s.lnMod n f).busData = s.busData := rfl
@[simp] theorem State.lnMod_out (s : State) (n : Nat) (f : LineState → LineState) : (s.lnMod n f).out = s.out := rfl
@[simp] theorem State.lnMod_draws (s : State) (n : Nat) (f : LineState → LineState) : (s.lnMod n f).draws = s.draws := rfl

@[simp] theorem State.arMod_pending (s : State) (n : Nat) (f : AirState → AirState) : (s.arMod n f).pending = s.pending := rfl
@[simp] theorem State.arMod_regs (s : State) (n : Nat) (f : AirState → AirState) : (s.arMod n f).regs = s.regs := rfl
@[simp] theorem State.arMod_dram (s : State) (n : Nat) (f : AirState → AirState) : (s.arMod n f).dram = s.dram := rfl
@[simp] theorem State.arMod_fab (s : State) (n : Nat) (f : AirState → AirState) : (s.arMod n f).fab = s.fab := rfl
@[simp] theorem State.arMod_dramFit (s : State) (n : Nat) (f : AirState → AirState) : (s.arMod n f).dramFit = s.dramFit := rfl
@[simp] theorem State.arMod_ink (s : State) (n : Nat) (f : AirState → AirState) : (s.arMod n f).ink = s.ink := rfl
@[simp] theorem State.arMod_mnd (s : State) (n : Nat) (f : AirState → AirState) : (s.arMod n f).mnd = s.mnd := rfl
@[simp] theorem State.arMod_drn (s : State) (n : Nat) (f : AirState → AirState) : (s.arMod n f).drn = s.drn := rfl
@[simp] theorem State.arMod_sto (s : State) (n : Nat) (f : AirState → AirState) : (s.arMod n f).sto = s.sto := rfl
@[simp] theorem State.arMod_msm (s : State) (n : Nat) (f : AirState → AirState) : (s.arMod n f).msm = s.msm := rfl
@[simp] theorem State.arMod_tot (s : State) (n : Nat) (f : AirState → AirState) : (s.arMod n f).tot = s.tot := rfl
@[simp] theorem State.arMod_time (s : State) (n : Nat) (f : AirState → AirState) : (s.arMod n f).time = s.time := rfl
@[simp] theorem State.arMod_upl (s : State) (n : Nat) (f : AirState → AirState) : (s.arMod n f).upl = s.upl := rfl
@[simp] theorem State.arMod_shu (s : State) (n : Nat) (f : AirState → AirState) : (s.arMod n f).shu = s.shu := rfl
@[simp] theorem State.arMod_intr (s : State) (n : Nat) (f : AirState → AirState) : (s.arMod n f).intr = s.intr := rfl
@[simp] theorem State.arMod_hoop (s : State) (n : Nat) (f : AirState → AirState) : (s.arMod n f).hoop = s.hoop := rfl
@[simp] theorem State.arMod_upd (s : State) (n : Nat) (f : AirState → AirState) : (s.arMod n f).upd = s.upd := rfl
@[simp] theorem State.arMod_nor (s : State) (n : Nat) (f : AirState → AirState) : (s.arMod n f).nor = s.nor := rfl
@[simp] theorem State.arMod_norHeld (s : State) (n : Nat) (f : AirState → AirState) : (s.arMod n f).norHeld = s.norHeld := rfl
@[simp] theorem State.arMod_ao (s : State) (n : Nat) (f : AirState → AirState) : (s.arMod n f).ao = s.ao := rfl
@[simp] theorem State.arMod_smp (s : State) (n : Nat) (f : AirState → AirState) : (s.arMod n f).smp = s.smp := rfl
@[simp] theorem State.arMod_ladder (s : State) (n : Nat) (f : AirState → AirState) : (s.arMod n f).ladder = s.ladder := rfl
@[simp] theorem State.arMod_pair (s : State) (n : Nat) (f : AirState → AirState) : (s.arMod n f).pair = s.pair := rfl
@[simp] theorem State.arMod_pins (s : State) (n : Nat) (f : AirState → AirState) : (s.arMod n f).pins = s.pins := rfl
@[simp] theorem State.arMod_busData (s : State) (n : Nat) (f : AirState → AirState) : (s.arMod n f).busData = s.busData := rfl
@[simp] theorem State.arMod_out (s : State) (n : Nat) (f : AirState → AirState) : (s.arMod n f).out = s.out := rfl
@[simp] theorem State.arMod_draws (s : State) (n : Nat) (f : AirState → AirState) : (s.arMod n f).draws = s.draws := rfl

@[simp] theorem State.chanMod_pending (s : State) (c : Nat) (f : ShuChan → ShuChan) : (s.chanMod c f).pending = s.pending := rfl
@[simp] theorem State.chanMod_regs (s : State) (c : Nat) (f : ShuChan → ShuChan) : (s.chanMod c f).regs = s.regs := rfl
@[simp] theorem State.chanMod_dram (s : State) (c : Nat) (f : ShuChan → ShuChan) : (s.chanMod c f).dram = s.dram := rfl
@[simp] theorem State.chanMod_fab (s : State) (c : Nat) (f : ShuChan → ShuChan) : (s.chanMod c f).fab = s.fab := rfl
@[simp] theorem State.chanMod_dramFit (s : State) (c : Nat) (f : ShuChan → ShuChan) : (s.chanMod c f).dramFit = s.dramFit := rfl
@[simp] theorem State.chanMod_ports (s : State) (c : Nat) (f : ShuChan → ShuChan) : (s.chanMod c f).ports = s.ports := rfl
@[simp] theorem State.chanMod_ink (s : State) (c : Nat) (f : ShuChan → ShuChan) : (s.chanMod c f).ink = s.ink := rfl
@[simp] theorem State.chanMod_mnd (s : State) (c : Nat) (f : ShuChan → ShuChan) : (s.chanMod c f).mnd = s.mnd := rfl
@[simp] theorem State.chanMod_drn (s : State) (c : Nat) (f : ShuChan → ShuChan) : (s.chanMod c f).drn = s.drn := rfl
@[simp] theorem State.chanMod_sto (s : State) (c : Nat) (f : ShuChan → ShuChan) : (s.chanMod c f).sto = s.sto := rfl
@[simp] theorem State.chanMod_msm (s : State) (c : Nat) (f : ShuChan → ShuChan) : (s.chanMod c f).msm = s.msm := rfl
@[simp] theorem State.chanMod_tot (s : State) (c : Nat) (f : ShuChan → ShuChan) : (s.chanMod c f).tot = s.tot := rfl
@[simp] theorem State.chanMod_time (s : State) (c : Nat) (f : ShuChan → ShuChan) : (s.chanMod c f).time = s.time := rfl
@[simp] theorem State.chanMod_upl (s : State) (c : Nat) (f : ShuChan → ShuChan) : (s.chanMod c f).upl = s.upl := rfl
@[simp] theorem State.chanMod_intr (s : State) (c : Nat) (f : ShuChan → ShuChan) : (s.chanMod c f).intr = s.intr := rfl
@[simp] theorem State.chanMod_hoop (s : State) (c : Nat) (f : ShuChan → ShuChan) : (s.chanMod c f).hoop = s.hoop := rfl
@[simp] theorem State.chanMod_upd (s : State) (c : Nat) (f : ShuChan → ShuChan) : (s.chanMod c f).upd = s.upd := rfl
@[simp] theorem State.chanMod_nor (s : State) (c : Nat) (f : ShuChan → ShuChan) : (s.chanMod c f).nor = s.nor := rfl
@[simp] theorem State.chanMod_norHeld (s : State) (c : Nat) (f : ShuChan → ShuChan) : (s.chanMod c f).norHeld = s.norHeld := rfl
@[simp] theorem State.chanMod_ao (s : State) (c : Nat) (f : ShuChan → ShuChan) : (s.chanMod c f).ao = s.ao := rfl
@[simp] theorem State.chanMod_smp (s : State) (c : Nat) (f : ShuChan → ShuChan) : (s.chanMod c f).smp = s.smp := rfl
@[simp] theorem State.chanMod_ladder (s : State) (c : Nat) (f : ShuChan → ShuChan) : (s.chanMod c f).ladder = s.ladder := rfl
@[simp] theorem State.chanMod_pair (s : State) (c : Nat) (f : ShuChan → ShuChan) : (s.chanMod c f).pair = s.pair := rfl
@[simp] theorem State.chanMod_pins (s : State) (c : Nat) (f : ShuChan → ShuChan) : (s.chanMod c f).pins = s.pins := rfl
@[simp] theorem State.chanMod_busData (s : State) (c : Nat) (f : ShuChan → ShuChan) : (s.chanMod c f).busData = s.busData := rfl
@[simp] theorem State.chanMod_out (s : State) (c : Nat) (f : ShuChan → ShuChan) : (s.chanMod c f).out = s.out := rfl
@[simp] theorem State.chanMod_draws (s : State) (c : Nat) (f : ShuChan → ShuChan) : (s.chanMod c f).draws = s.draws := rfl

@[simp] theorem State.jobMod_pending (s : State) (f : LoadJob → LoadJob) : (s.jobMod f).pending = s.pending := rfl
@[simp] theorem State.jobMod_regs (s : State) (f : LoadJob → LoadJob) : (s.jobMod f).regs = s.regs := rfl
@[simp] theorem State.jobMod_dram (s : State) (f : LoadJob → LoadJob) : (s.jobMod f).dram = s.dram := rfl
@[simp] theorem State.jobMod_dramFit (s : State) (f : LoadJob → LoadJob) : (s.jobMod f).dramFit = s.dramFit := rfl
@[simp] theorem State.jobMod_ports (s : State) (f : LoadJob → LoadJob) : (s.jobMod f).ports = s.ports := rfl
@[simp] theorem State.jobMod_ink (s : State) (f : LoadJob → LoadJob) : (s.jobMod f).ink = s.ink := rfl
@[simp] theorem State.jobMod_mnd (s : State) (f : LoadJob → LoadJob) : (s.jobMod f).mnd = s.mnd := rfl
@[simp] theorem State.jobMod_drn (s : State) (f : LoadJob → LoadJob) : (s.jobMod f).drn = s.drn := rfl
@[simp] theorem State.jobMod_sto (s : State) (f : LoadJob → LoadJob) : (s.jobMod f).sto = s.sto := rfl
@[simp] theorem State.jobMod_msm (s : State) (f : LoadJob → LoadJob) : (s.jobMod f).msm = s.msm := rfl
@[simp] theorem State.jobMod_tot (s : State) (f : LoadJob → LoadJob) : (s.jobMod f).tot = s.tot := rfl
@[simp] theorem State.jobMod_time (s : State) (f : LoadJob → LoadJob) : (s.jobMod f).time = s.time := rfl
@[simp] theorem State.jobMod_upl (s : State) (f : LoadJob → LoadJob) : (s.jobMod f).upl = s.upl := rfl
@[simp] theorem State.jobMod_shu (s : State) (f : LoadJob → LoadJob) : (s.jobMod f).shu = s.shu := rfl
@[simp] theorem State.jobMod_intr (s : State) (f : LoadJob → LoadJob) : (s.jobMod f).intr = s.intr := rfl
@[simp] theorem State.jobMod_hoop (s : State) (f : LoadJob → LoadJob) : (s.jobMod f).hoop = s.hoop := rfl
@[simp] theorem State.jobMod_upd (s : State) (f : LoadJob → LoadJob) : (s.jobMod f).upd = s.upd := rfl
@[simp] theorem State.jobMod_nor (s : State) (f : LoadJob → LoadJob) : (s.jobMod f).nor = s.nor := rfl
@[simp] theorem State.jobMod_norHeld (s : State) (f : LoadJob → LoadJob) : (s.jobMod f).norHeld = s.norHeld := rfl
@[simp] theorem State.jobMod_ao (s : State) (f : LoadJob → LoadJob) : (s.jobMod f).ao = s.ao := rfl
@[simp] theorem State.jobMod_smp (s : State) (f : LoadJob → LoadJob) : (s.jobMod f).smp = s.smp := rfl
@[simp] theorem State.jobMod_ladder (s : State) (f : LoadJob → LoadJob) : (s.jobMod f).ladder = s.ladder := rfl
@[simp] theorem State.jobMod_pair (s : State) (f : LoadJob → LoadJob) : (s.jobMod f).pair = s.pair := rfl
@[simp] theorem State.jobMod_pins (s : State) (f : LoadJob → LoadJob) : (s.jobMod f).pins = s.pins := rfl
@[simp] theorem State.jobMod_busData (s : State) (f : LoadJob → LoadJob) : (s.jobMod f).busData = s.busData := rfl
@[simp] theorem State.jobMod_out (s : State) (f : LoadJob → LoadJob) : (s.jobMod f).out = s.out := rfl
@[simp] theorem State.jobMod_draws (s : State) (f : LoadJob → LoadJob) : (s.jobMod f).draws = s.draws := rfl

@[simp] theorem State.sessMod_pending (s : State) (n : Nat) (f : USess → USess) : (s.sessMod n f).pending = s.pending := rfl
@[simp] theorem State.sessMod_regs (s : State) (n : Nat) (f : USess → USess) : (s.sessMod n f).regs = s.regs := rfl
@[simp] theorem State.sessMod_dram (s : State) (n : Nat) (f : USess → USess) : (s.sessMod n f).dram = s.dram := rfl
@[simp] theorem State.sessMod_fab (s : State) (n : Nat) (f : USess → USess) : (s.sessMod n f).fab = s.fab := rfl
@[simp] theorem State.sessMod_dramFit (s : State) (n : Nat) (f : USess → USess) : (s.sessMod n f).dramFit = s.dramFit := rfl
@[simp] theorem State.sessMod_ports (s : State) (n : Nat) (f : USess → USess) : (s.sessMod n f).ports = s.ports := rfl
@[simp] theorem State.sessMod_ink (s : State) (n : Nat) (f : USess → USess) : (s.sessMod n f).ink = s.ink := rfl
@[simp] theorem State.sessMod_mnd (s : State) (n : Nat) (f : USess → USess) : (s.sessMod n f).mnd = s.mnd := rfl
@[simp] theorem State.sessMod_drn (s : State) (n : Nat) (f : USess → USess) : (s.sessMod n f).drn = s.drn := rfl
@[simp] theorem State.sessMod_sto (s : State) (n : Nat) (f : USess → USess) : (s.sessMod n f).sto = s.sto := rfl
@[simp] theorem State.sessMod_msm (s : State) (n : Nat) (f : USess → USess) : (s.sessMod n f).msm = s.msm := rfl
@[simp] theorem State.sessMod_tot (s : State) (n : Nat) (f : USess → USess) : (s.sessMod n f).tot = s.tot := rfl
@[simp] theorem State.sessMod_time (s : State) (n : Nat) (f : USess → USess) : (s.sessMod n f).time = s.time := rfl
@[simp] theorem State.sessMod_shu (s : State) (n : Nat) (f : USess → USess) : (s.sessMod n f).shu = s.shu := rfl
@[simp] theorem State.sessMod_intr (s : State) (n : Nat) (f : USess → USess) : (s.sessMod n f).intr = s.intr := rfl
@[simp] theorem State.sessMod_hoop (s : State) (n : Nat) (f : USess → USess) : (s.sessMod n f).hoop = s.hoop := rfl
@[simp] theorem State.sessMod_upd (s : State) (n : Nat) (f : USess → USess) : (s.sessMod n f).upd = s.upd := rfl
@[simp] theorem State.sessMod_nor (s : State) (n : Nat) (f : USess → USess) : (s.sessMod n f).nor = s.nor := rfl
@[simp] theorem State.sessMod_norHeld (s : State) (n : Nat) (f : USess → USess) : (s.sessMod n f).norHeld = s.norHeld := rfl
@[simp] theorem State.sessMod_ao (s : State) (n : Nat) (f : USess → USess) : (s.sessMod n f).ao = s.ao := rfl
@[simp] theorem State.sessMod_smp (s : State) (n : Nat) (f : USess → USess) : (s.sessMod n f).smp = s.smp := rfl
@[simp] theorem State.sessMod_ladder (s : State) (n : Nat) (f : USess → USess) : (s.sessMod n f).ladder = s.ladder := rfl
@[simp] theorem State.sessMod_pair (s : State) (n : Nat) (f : USess → USess) : (s.sessMod n f).pair = s.pair := rfl
@[simp] theorem State.sessMod_pins (s : State) (n : Nat) (f : USess → USess) : (s.sessMod n f).pins = s.pins := rfl
@[simp] theorem State.sessMod_busData (s : State) (n : Nat) (f : USess → USess) : (s.sessMod n f).busData = s.busData := rfl
@[simp] theorem State.sessMod_out (s : State) (n : Nat) (f : USess → USess) : (s.sessMod n f).out = s.out := rfl
@[simp] theorem State.sessMod_draws (s : State) (n : Nat) (f : USess → USess) : (s.sessMod n f).draws = s.draws := rfl

@[simp] theorem State.partMod_pending (s : State) (k : Nat) (f : UPart → UPart) : (s.partMod k f).pending = s.pending := rfl
@[simp] theorem State.partMod_regs (s : State) (k : Nat) (f : UPart → UPart) : (s.partMod k f).regs = s.regs := rfl
@[simp] theorem State.partMod_dram (s : State) (k : Nat) (f : UPart → UPart) : (s.partMod k f).dram = s.dram := rfl
@[simp] theorem State.partMod_fab (s : State) (k : Nat) (f : UPart → UPart) : (s.partMod k f).fab = s.fab := rfl
@[simp] theorem State.partMod_dramFit (s : State) (k : Nat) (f : UPart → UPart) : (s.partMod k f).dramFit = s.dramFit := rfl
@[simp] theorem State.partMod_ports (s : State) (k : Nat) (f : UPart → UPart) : (s.partMod k f).ports = s.ports := rfl
@[simp] theorem State.partMod_ink (s : State) (k : Nat) (f : UPart → UPart) : (s.partMod k f).ink = s.ink := rfl
@[simp] theorem State.partMod_mnd (s : State) (k : Nat) (f : UPart → UPart) : (s.partMod k f).mnd = s.mnd := rfl
@[simp] theorem State.partMod_drn (s : State) (k : Nat) (f : UPart → UPart) : (s.partMod k f).drn = s.drn := rfl
@[simp] theorem State.partMod_sto (s : State) (k : Nat) (f : UPart → UPart) : (s.partMod k f).sto = s.sto := rfl
@[simp] theorem State.partMod_msm (s : State) (k : Nat) (f : UPart → UPart) : (s.partMod k f).msm = s.msm := rfl
@[simp] theorem State.partMod_tot (s : State) (k : Nat) (f : UPart → UPart) : (s.partMod k f).tot = s.tot := rfl
@[simp] theorem State.partMod_time (s : State) (k : Nat) (f : UPart → UPart) : (s.partMod k f).time = s.time := rfl
@[simp] theorem State.partMod_shu (s : State) (k : Nat) (f : UPart → UPart) : (s.partMod k f).shu = s.shu := rfl
@[simp] theorem State.partMod_intr (s : State) (k : Nat) (f : UPart → UPart) : (s.partMod k f).intr = s.intr := rfl
@[simp] theorem State.partMod_hoop (s : State) (k : Nat) (f : UPart → UPart) : (s.partMod k f).hoop = s.hoop := rfl
@[simp] theorem State.partMod_upd (s : State) (k : Nat) (f : UPart → UPart) : (s.partMod k f).upd = s.upd := rfl
@[simp] theorem State.partMod_nor (s : State) (k : Nat) (f : UPart → UPart) : (s.partMod k f).nor = s.nor := rfl
@[simp] theorem State.partMod_norHeld (s : State) (k : Nat) (f : UPart → UPart) : (s.partMod k f).norHeld = s.norHeld := rfl
@[simp] theorem State.partMod_ao (s : State) (k : Nat) (f : UPart → UPart) : (s.partMod k f).ao = s.ao := rfl
@[simp] theorem State.partMod_smp (s : State) (k : Nat) (f : UPart → UPart) : (s.partMod k f).smp = s.smp := rfl
@[simp] theorem State.partMod_ladder (s : State) (k : Nat) (f : UPart → UPart) : (s.partMod k f).ladder = s.ladder := rfl
@[simp] theorem State.partMod_pair (s : State) (k : Nat) (f : UPart → UPart) : (s.partMod k f).pair = s.pair := rfl
@[simp] theorem State.partMod_pins (s : State) (k : Nat) (f : UPart → UPart) : (s.partMod k f).pins = s.pins := rfl
@[simp] theorem State.partMod_busData (s : State) (k : Nat) (f : UPart → UPart) : (s.partMod k f).busData = s.busData := rfl
@[simp] theorem State.partMod_out (s : State) (k : Nat) (f : UPart → UPart) : (s.partMod k f).out = s.out := rfl
@[simp] theorem State.partMod_draws (s : State) (k : Nat) (f : UPart → UPart) : (s.partMod k f).draws = s.draws := rfl

@[simp] theorem State.sbMod_pending (s : State) (n : Nat) (f : SBlk → SBlk) : (s.sbMod n f).pending = s.pending := rfl
@[simp] theorem State.sbMod_regs (s : State) (n : Nat) (f : SBlk → SBlk) : (s.sbMod n f).regs = s.regs := rfl
@[simp] theorem State.sbMod_dram (s : State) (n : Nat) (f : SBlk → SBlk) : (s.sbMod n f).dram = s.dram := rfl
@[simp] theorem State.sbMod_fab (s : State) (n : Nat) (f : SBlk → SBlk) : (s.sbMod n f).fab = s.fab := rfl
@[simp] theorem State.sbMod_dramFit (s : State) (n : Nat) (f : SBlk → SBlk) : (s.sbMod n f).dramFit = s.dramFit := rfl
@[simp] theorem State.sbMod_ports (s : State) (n : Nat) (f : SBlk → SBlk) : (s.sbMod n f).ports = s.ports := rfl
@[simp] theorem State.sbMod_ink (s : State) (n : Nat) (f : SBlk → SBlk) : (s.sbMod n f).ink = s.ink := rfl
@[simp] theorem State.sbMod_mnd (s : State) (n : Nat) (f : SBlk → SBlk) : (s.sbMod n f).mnd = s.mnd := rfl
@[simp] theorem State.sbMod_drn (s : State) (n : Nat) (f : SBlk → SBlk) : (s.sbMod n f).drn = s.drn := rfl
@[simp] theorem State.sbMod_msm (s : State) (n : Nat) (f : SBlk → SBlk) : (s.sbMod n f).msm = s.msm := rfl
@[simp] theorem State.sbMod_tot (s : State) (n : Nat) (f : SBlk → SBlk) : (s.sbMod n f).tot = s.tot := rfl
@[simp] theorem State.sbMod_time (s : State) (n : Nat) (f : SBlk → SBlk) : (s.sbMod n f).time = s.time := rfl
@[simp] theorem State.sbMod_upl (s : State) (n : Nat) (f : SBlk → SBlk) : (s.sbMod n f).upl = s.upl := rfl
@[simp] theorem State.sbMod_shu (s : State) (n : Nat) (f : SBlk → SBlk) : (s.sbMod n f).shu = s.shu := rfl
@[simp] theorem State.sbMod_intr (s : State) (n : Nat) (f : SBlk → SBlk) : (s.sbMod n f).intr = s.intr := rfl
@[simp] theorem State.sbMod_hoop (s : State) (n : Nat) (f : SBlk → SBlk) : (s.sbMod n f).hoop = s.hoop := rfl
@[simp] theorem State.sbMod_upd (s : State) (n : Nat) (f : SBlk → SBlk) : (s.sbMod n f).upd = s.upd := rfl
@[simp] theorem State.sbMod_nor (s : State) (n : Nat) (f : SBlk → SBlk) : (s.sbMod n f).nor = s.nor := rfl
@[simp] theorem State.sbMod_norHeld (s : State) (n : Nat) (f : SBlk → SBlk) : (s.sbMod n f).norHeld = s.norHeld := rfl
@[simp] theorem State.sbMod_ao (s : State) (n : Nat) (f : SBlk → SBlk) : (s.sbMod n f).ao = s.ao := rfl
@[simp] theorem State.sbMod_smp (s : State) (n : Nat) (f : SBlk → SBlk) : (s.sbMod n f).smp = s.smp := rfl
@[simp] theorem State.sbMod_ladder (s : State) (n : Nat) (f : SBlk → SBlk) : (s.sbMod n f).ladder = s.ladder := rfl
@[simp] theorem State.sbMod_pair (s : State) (n : Nat) (f : SBlk → SBlk) : (s.sbMod n f).pair = s.pair := rfl
@[simp] theorem State.sbMod_pins (s : State) (n : Nat) (f : SBlk → SBlk) : (s.sbMod n f).pins = s.pins := rfl
@[simp] theorem State.sbMod_busData (s : State) (n : Nat) (f : SBlk → SBlk) : (s.sbMod n f).busData = s.busData := rfl
@[simp] theorem State.sbMod_out (s : State) (n : Nat) (f : SBlk → SBlk) : (s.sbMod n f).out = s.out := rfl
@[simp] theorem State.sbMod_draws (s : State) (n : Nat) (f : SBlk → SBlk) : (s.sbMod n f).draws = s.draws := rfl

@[simp] theorem State.wr_port (s : State) (k : Nat) (w : Word) (q : Nat) : (s.wr k w).port q = s.port q := rfl

@[simp] theorem State.wrN_port (s : State) (k v : Nat) (q : Nat) : (s.wrN k v).port q = s.port q := rfl

@[simp] theorem State.setF_port (s : State) (k : Nat) (f : BitRange) (v : Nat) (q : Nat) : (s.setF k f v).port q = s.port q := rfl

@[simp] theorem State.raiseF_port (s : State) (k : Nat) (f : BitRange) (q : Nat) : (s.raiseF k f).port q = s.port q := rfl

@[simp] theorem State.raiseBit_port (s : State) (k b : Nat) (q : Nat) : (s.raiseBit k b).port q = s.port q := rfl

@[simp] theorem State.bumpN_port (s : State) (k n : Nat) (q : Nat) : (s.bumpN k n).port q = s.port q := rfl

@[simp] theorem State.bump_port (s : State) (k : Nat) (q : Nat) : (s.bump k).port q = s.port q := rfl

@[simp] theorem State.bumpF_port (s : State) (k : Nat) (f : BitRange) (q : Nat) : (s.bumpF k f).port q = s.port q := rfl

@[simp] theorem State.wrMem_raw (s : State) (a : Nat) (b : Bytes) (j : Nat) : (s.wrMem a b).raw j = s.raw j := rfl
@[simp] theorem State.wrMem_num (s : State) (a : Nat) (b : Bytes) (j : Nat) : (s.wrMem a b).num j = s.num j := rfl
@[simp] theorem State.wrMem_getF (s : State) (a : Nat) (b : Bytes) (j : Nat) (g : BitRange) : (s.wrMem a b).getF j g = s.getF j g := rfl
@[simp] theorem State.wrMem_isF (s : State) (a : Nat) (b : Bytes) (j : Nat) (g : BitRange) : (s.wrMem a b).isF j g = s.isF j g := rfl
@[simp] theorem State.wrMem_port (s : State) (a : Nat) (b : Bytes) (q : Nat) : (s.wrMem a b).port q = s.port q := rfl

@[simp] theorem State.emit_raw (s : State) (o : Out) (j : Nat) : (s.emit o).raw j = s.raw j := rfl
@[simp] theorem State.emit_num (s : State) (o : Out) (j : Nat) : (s.emit o).num j = s.num j := rfl
@[simp] theorem State.emit_getF (s : State) (o : Out) (j : Nat) (g : BitRange) : (s.emit o).getF j g = s.getF j g := rfl
@[simp] theorem State.emit_isF (s : State) (o : Out) (j : Nat) (g : BitRange) : (s.emit o).isF j g = s.isF j g := rfl
@[simp] theorem State.emit_port (s : State) (o : Out) (q : Nat) : (s.emit o).port q = s.port q := rfl

@[simp] theorem State.answer_raw (s : State) (w : Word) (j : Nat) : (s.answer w).raw j = s.raw j := rfl
@[simp] theorem State.answer_num (s : State) (w : Word) (j : Nat) : (s.answer w).num j = s.num j := rfl
@[simp] theorem State.answer_getF (s : State) (w : Word) (j : Nat) (g : BitRange) : (s.answer w).getF j g = s.getF j g := rfl
@[simp] theorem State.answer_isF (s : State) (w : Word) (j : Nat) (g : BitRange) : (s.answer w).isF j g = s.isF j g := rfl
@[simp] theorem State.answer_port (s : State) (w : Word) (q : Nat) : (s.answer w).port q = s.port q := rfl

@[simp] theorem State.draw_raw (s : State) (j : Nat) : (s.draw).raw j = s.raw j := rfl
@[simp] theorem State.draw_num (s : State) (j : Nat) : (s.draw).num j = s.num j := rfl
@[simp] theorem State.draw_getF (s : State) (j : Nat) (g : BitRange) : (s.draw).getF j g = s.getF j g := rfl
@[simp] theorem State.draw_isF (s : State) (j : Nat) (g : BitRange) : (s.draw).isF j g = s.isF j g := rfl
@[simp] theorem State.draw_port (s : State) (q : Nat) : (s.draw).port q = s.port q := rfl

@[simp] theorem State.aoMod_raw (s : State) (f : AoState → AoState) (j : Nat) : (s.aoMod f).raw j = s.raw j := rfl
@[simp] theorem State.aoMod_num (s : State) (f : AoState → AoState) (j : Nat) : (s.aoMod f).num j = s.num j := rfl
@[simp] theorem State.aoMod_getF (s : State) (f : AoState → AoState) (j : Nat) (g : BitRange) : (s.aoMod f).getF j g = s.getF j g := rfl
@[simp] theorem State.aoMod_isF (s : State) (f : AoState → AoState) (j : Nat) (g : BitRange) : (s.aoMod f).isF j g = s.isF j g := rfl
@[simp] theorem State.aoMod_port (s : State) (f : AoState → AoState) (q : Nat) : (s.aoMod f).port q = s.port q := rfl
@[simp] theorem State.aoMod_ao (s : State) (f : AoState → AoState) : (s.aoMod f).ao = f s.ao := rfl

@[simp] theorem State.portMod_raw (s : State) (n : Nat) (f : PortState → PortState) (j : Nat) : (s.portMod n f).raw j = s.raw j := rfl
@[simp] theorem State.portMod_num (s : State) (n : Nat) (f : PortState → PortState) (j : Nat) : (s.portMod n f).num j = s.num j := rfl
@[simp] theorem State.portMod_getF (s : State) (n : Nat) (f : PortState → PortState) (j : Nat) (g : BitRange) : (s.portMod n f).getF j g = s.getF j g := rfl
@[simp] theorem State.portMod_isF (s : State) (n : Nat) (f : PortState → PortState) (j : Nat) (g : BitRange) : (s.portMod n f).isF j g = s.isF j g := rfl

@[simp] theorem State.inkMod_raw (s : State) (f : InkState → InkState) (j : Nat) : (s.inkMod f).raw j = s.raw j := rfl
@[simp] theorem State.inkMod_num (s : State) (f : InkState → InkState) (j : Nat) : (s.inkMod f).num j = s.num j := rfl
@[simp] theorem State.inkMod_getF (s : State) (f : InkState → InkState) (j : Nat) (g : BitRange) : (s.inkMod f).getF j g = s.getF j g := rfl
@[simp] theorem State.inkMod_isF (s : State) (f : InkState → InkState) (j : Nat) (g : BitRange) : (s.inkMod f).isF j g = s.isF j g := rfl
@[simp] theorem State.inkMod_port (s : State) (f : InkState → InkState) (q : Nat) : (s.inkMod f).port q = s.port q := rfl
@[simp] theorem State.inkMod_ink (s : State) (f : InkState → InkState) : (s.inkMod f).ink = f s.ink := rfl

@[simp] theorem State.mndMod_raw (s : State) (f : MndState → MndState) (j : Nat) : (s.mndMod f).raw j = s.raw j := rfl
@[simp] theorem State.mndMod_num (s : State) (f : MndState → MndState) (j : Nat) : (s.mndMod f).num j = s.num j := rfl
@[simp] theorem State.mndMod_getF (s : State) (f : MndState → MndState) (j : Nat) (g : BitRange) : (s.mndMod f).getF j g = s.getF j g := rfl
@[simp] theorem State.mndMod_isF (s : State) (f : MndState → MndState) (j : Nat) (g : BitRange) : (s.mndMod f).isF j g = s.isF j g := rfl
@[simp] theorem State.mndMod_port (s : State) (f : MndState → MndState) (q : Nat) : (s.mndMod f).port q = s.port q := rfl
@[simp] theorem State.mndMod_mnd (s : State) (f : MndState → MndState) : (s.mndMod f).mnd = f s.mnd := rfl

@[simp] theorem State.drnMod_raw (s : State) (f : DrnState → DrnState) (j : Nat) : (s.drnMod f).raw j = s.raw j := rfl
@[simp] theorem State.drnMod_num (s : State) (f : DrnState → DrnState) (j : Nat) : (s.drnMod f).num j = s.num j := rfl
@[simp] theorem State.drnMod_getF (s : State) (f : DrnState → DrnState) (j : Nat) (g : BitRange) : (s.drnMod f).getF j g = s.getF j g := rfl
@[simp] theorem State.drnMod_isF (s : State) (f : DrnState → DrnState) (j : Nat) (g : BitRange) : (s.drnMod f).isF j g = s.isF j g := rfl
@[simp] theorem State.drnMod_port (s : State) (f : DrnState → DrnState) (q : Nat) : (s.drnMod f).port q = s.port q := rfl
@[simp] theorem State.drnMod_drn (s : State) (f : DrnState → DrnState) : (s.drnMod f).drn = f s.drn := rfl

@[simp] theorem State.stoMod_raw (s : State) (f : StoState → StoState) (j : Nat) : (s.stoMod f).raw j = s.raw j := rfl
@[simp] theorem State.stoMod_num (s : State) (f : StoState → StoState) (j : Nat) : (s.stoMod f).num j = s.num j := rfl
@[simp] theorem State.stoMod_getF (s : State) (f : StoState → StoState) (j : Nat) (g : BitRange) : (s.stoMod f).getF j g = s.getF j g := rfl
@[simp] theorem State.stoMod_isF (s : State) (f : StoState → StoState) (j : Nat) (g : BitRange) : (s.stoMod f).isF j g = s.isF j g := rfl
@[simp] theorem State.stoMod_port (s : State) (f : StoState → StoState) (q : Nat) : (s.stoMod f).port q = s.port q := rfl
@[simp] theorem State.stoMod_sto (s : State) (f : StoState → StoState) : (s.stoMod f).sto = f s.sto := rfl

@[simp] theorem State.totMod_raw (s : State) (f : TotState → TotState) (j : Nat) : (s.totMod f).raw j = s.raw j := rfl
@[simp] theorem State.totMod_num (s : State) (f : TotState → TotState) (j : Nat) : (s.totMod f).num j = s.num j := rfl
@[simp] theorem State.totMod_getF (s : State) (f : TotState → TotState) (j : Nat) (g : BitRange) : (s.totMod f).getF j g = s.getF j g := rfl
@[simp] theorem State.totMod_isF (s : State) (f : TotState → TotState) (j : Nat) (g : BitRange) : (s.totMod f).isF j g = s.isF j g := rfl
@[simp] theorem State.totMod_port (s : State) (f : TotState → TotState) (q : Nat) : (s.totMod f).port q = s.port q := rfl
@[simp] theorem State.totMod_tot (s : State) (f : TotState → TotState) : (s.totMod f).tot = f s.tot := rfl

@[simp] theorem State.tuMod_raw (s : State) (f : TimeState → TimeState) (j : Nat) : (s.tuMod f).raw j = s.raw j := rfl
@[simp] theorem State.tuMod_num (s : State) (f : TimeState → TimeState) (j : Nat) : (s.tuMod f).num j = s.num j := rfl
@[simp] theorem State.tuMod_getF (s : State) (f : TimeState → TimeState) (j : Nat) (g : BitRange) : (s.tuMod f).getF j g = s.getF j g := rfl
@[simp] theorem State.tuMod_isF (s : State) (f : TimeState → TimeState) (j : Nat) (g : BitRange) : (s.tuMod f).isF j g = s.isF j g := rfl
@[simp] theorem State.tuMod_port (s : State) (f : TimeState → TimeState) (q : Nat) : (s.tuMod f).port q = s.port q := rfl
@[simp] theorem State.tuMod_time (s : State) (f : TimeState → TimeState) : (s.tuMod f).time = f s.time := rfl

@[simp] theorem State.uplMod_raw (s : State) (f : UplState → UplState) (j : Nat) : (s.uplMod f).raw j = s.raw j := rfl
@[simp] theorem State.uplMod_num (s : State) (f : UplState → UplState) (j : Nat) : (s.uplMod f).num j = s.num j := rfl
@[simp] theorem State.uplMod_getF (s : State) (f : UplState → UplState) (j : Nat) (g : BitRange) : (s.uplMod f).getF j g = s.getF j g := rfl
@[simp] theorem State.uplMod_isF (s : State) (f : UplState → UplState) (j : Nat) (g : BitRange) : (s.uplMod f).isF j g = s.isF j g := rfl
@[simp] theorem State.uplMod_port (s : State) (f : UplState → UplState) (q : Nat) : (s.uplMod f).port q = s.port q := rfl
@[simp] theorem State.uplMod_upl (s : State) (f : UplState → UplState) : (s.uplMod f).upl = f s.upl := rfl

@[simp] theorem State.hoopMod_raw (s : State) (f : HoopState → HoopState) (j : Nat) : (s.hoopMod f).raw j = s.raw j := rfl
@[simp] theorem State.hoopMod_num (s : State) (f : HoopState → HoopState) (j : Nat) : (s.hoopMod f).num j = s.num j := rfl
@[simp] theorem State.hoopMod_getF (s : State) (f : HoopState → HoopState) (j : Nat) (g : BitRange) : (s.hoopMod f).getF j g = s.getF j g := rfl
@[simp] theorem State.hoopMod_isF (s : State) (f : HoopState → HoopState) (j : Nat) (g : BitRange) : (s.hoopMod f).isF j g = s.isF j g := rfl
@[simp] theorem State.hoopMod_port (s : State) (f : HoopState → HoopState) (q : Nat) : (s.hoopMod f).port q = s.port q := rfl
@[simp] theorem State.hoopMod_hoop (s : State) (f : HoopState → HoopState) : (s.hoopMod f).hoop = f s.hoop := rfl

@[simp] theorem State.updMod_raw (s : State) (f : UpdState → UpdState) (j : Nat) : (s.updMod f).raw j = s.raw j := rfl
@[simp] theorem State.updMod_num (s : State) (f : UpdState → UpdState) (j : Nat) : (s.updMod f).num j = s.num j := rfl
@[simp] theorem State.updMod_getF (s : State) (f : UpdState → UpdState) (j : Nat) (g : BitRange) : (s.updMod f).getF j g = s.getF j g := rfl
@[simp] theorem State.updMod_isF (s : State) (f : UpdState → UpdState) (j : Nat) (g : BitRange) : (s.updMod f).isF j g = s.isF j g := rfl
@[simp] theorem State.updMod_port (s : State) (f : UpdState → UpdState) (q : Nat) : (s.updMod f).port q = s.port q := rfl
@[simp] theorem State.updMod_upd (s : State) (f : UpdState → UpdState) : (s.updMod f).upd = f s.upd := rfl

@[simp] theorem State.smpMod_raw (s : State) (f : SmpState → SmpState) (j : Nat) : (s.smpMod f).raw j = s.raw j := rfl
@[simp] theorem State.smpMod_num (s : State) (f : SmpState → SmpState) (j : Nat) : (s.smpMod f).num j = s.num j := rfl
@[simp] theorem State.smpMod_getF (s : State) (f : SmpState → SmpState) (j : Nat) (g : BitRange) : (s.smpMod f).getF j g = s.getF j g := rfl
@[simp] theorem State.smpMod_isF (s : State) (f : SmpState → SmpState) (j : Nat) (g : BitRange) : (s.smpMod f).isF j g = s.isF j g := rfl
@[simp] theorem State.smpMod_port (s : State) (f : SmpState → SmpState) (q : Nat) : (s.smpMod f).port q = s.port q := rfl
@[simp] theorem State.smpMod_smp (s : State) (f : SmpState → SmpState) : (s.smpMod f).smp = f s.smp := rfl

@[simp] theorem State.pairMod_raw (s : State) (f : PairState → PairState) (j : Nat) : (s.pairMod f).raw j = s.raw j := rfl
@[simp] theorem State.pairMod_num (s : State) (f : PairState → PairState) (j : Nat) : (s.pairMod f).num j = s.num j := rfl
@[simp] theorem State.pairMod_getF (s : State) (f : PairState → PairState) (j : Nat) (g : BitRange) : (s.pairMod f).getF j g = s.getF j g := rfl
@[simp] theorem State.pairMod_isF (s : State) (f : PairState → PairState) (j : Nat) (g : BitRange) : (s.pairMod f).isF j g = s.isF j g := rfl
@[simp] theorem State.pairMod_port (s : State) (f : PairState → PairState) (q : Nat) : (s.pairMod f).port q = s.port q := rfl
@[simp] theorem State.pairMod_pair (s : State) (f : PairState → PairState) : (s.pairMod f).pair = f s.pair := rfl

@[simp] theorem State.fabMod_raw (s : State) (f : FabState → FabState) (j : Nat) : (s.fabMod f).raw j = s.raw j := rfl
@[simp] theorem State.fabMod_num (s : State) (f : FabState → FabState) (j : Nat) : (s.fabMod f).num j = s.num j := rfl
@[simp] theorem State.fabMod_getF (s : State) (f : FabState → FabState) (j : Nat) (g : BitRange) : (s.fabMod f).getF j g = s.getF j g := rfl
@[simp] theorem State.fabMod_isF (s : State) (f : FabState → FabState) (j : Nat) (g : BitRange) : (s.fabMod f).isF j g = s.isF j g := rfl
@[simp] theorem State.fabMod_port (s : State) (f : FabState → FabState) (q : Nat) : (s.fabMod f).port q = s.port q := rfl
@[simp] theorem State.fabMod_fab (s : State) (f : FabState → FabState) : (s.fabMod f).fab = f s.fab := rfl

@[simp] theorem State.intMod_raw (s : State) (f : IntState → IntState) (j : Nat) : (s.intMod f).raw j = s.raw j := rfl
@[simp] theorem State.intMod_num (s : State) (f : IntState → IntState) (j : Nat) : (s.intMod f).num j = s.num j := rfl
@[simp] theorem State.intMod_getF (s : State) (f : IntState → IntState) (j : Nat) (g : BitRange) : (s.intMod f).getF j g = s.getF j g := rfl
@[simp] theorem State.intMod_isF (s : State) (f : IntState → IntState) (j : Nat) (g : BitRange) : (s.intMod f).isF j g = s.isF j g := rfl
@[simp] theorem State.intMod_port (s : State) (f : IntState → IntState) (q : Nat) : (s.intMod f).port q = s.port q := rfl
@[simp] theorem State.intMod_intr (s : State) (f : IntState → IntState) : (s.intMod f).intr = f s.intr := rfl

@[simp] theorem State.casMod_raw (s : State) (n : Nat) (f : CasState → CasState) (j : Nat) : (s.casMod n f).raw j = s.raw j := rfl
@[simp] theorem State.casMod_num (s : State) (n : Nat) (f : CasState → CasState) (j : Nat) : (s.casMod n f).num j = s.num j := rfl
@[simp] theorem State.casMod_getF (s : State) (n : Nat) (f : CasState → CasState) (j : Nat) (g : BitRange) : (s.casMod n f).getF j g = s.getF j g := rfl
@[simp] theorem State.casMod_isF (s : State) (n : Nat) (f : CasState → CasState) (j : Nat) (g : BitRange) : (s.casMod n f).isF j g = s.isF j g := rfl

@[simp] theorem State.lnMod_raw (s : State) (n : Nat) (f : LineState → LineState) (j : Nat) : (s.lnMod n f).raw j = s.raw j := rfl
@[simp] theorem State.lnMod_num (s : State) (n : Nat) (f : LineState → LineState) (j : Nat) : (s.lnMod n f).num j = s.num j := rfl
@[simp] theorem State.lnMod_getF (s : State) (n : Nat) (f : LineState → LineState) (j : Nat) (g : BitRange) : (s.lnMod n f).getF j g = s.getF j g := rfl
@[simp] theorem State.lnMod_isF (s : State) (n : Nat) (f : LineState → LineState) (j : Nat) (g : BitRange) : (s.lnMod n f).isF j g = s.isF j g := rfl

@[simp] theorem State.arMod_raw (s : State) (n : Nat) (f : AirState → AirState) (j : Nat) : (s.arMod n f).raw j = s.raw j := rfl
@[simp] theorem State.arMod_num (s : State) (n : Nat) (f : AirState → AirState) (j : Nat) : (s.arMod n f).num j = s.num j := rfl
@[simp] theorem State.arMod_getF (s : State) (n : Nat) (f : AirState → AirState) (j : Nat) (g : BitRange) : (s.arMod n f).getF j g = s.getF j g := rfl
@[simp] theorem State.arMod_isF (s : State) (n : Nat) (f : AirState → AirState) (j : Nat) (g : BitRange) : (s.arMod n f).isF j g = s.isF j g := rfl

@[simp] theorem State.chanMod_raw (s : State) (c : Nat) (f : ShuChan → ShuChan) (j : Nat) : (s.chanMod c f).raw j = s.raw j := rfl
@[simp] theorem State.chanMod_num (s : State) (c : Nat) (f : ShuChan → ShuChan) (j : Nat) : (s.chanMod c f).num j = s.num j := rfl
@[simp] theorem State.chanMod_getF (s : State) (c : Nat) (f : ShuChan → ShuChan) (j : Nat) (g : BitRange) : (s.chanMod c f).getF j g = s.getF j g := rfl
@[simp] theorem State.chanMod_isF (s : State) (c : Nat) (f : ShuChan → ShuChan) (j : Nat) (g : BitRange) : (s.chanMod c f).isF j g = s.isF j g := rfl
@[simp] theorem State.chanMod_port (s : State) (c : Nat) (f : ShuChan → ShuChan) (q : Nat) : (s.chanMod c f).port q = s.port q := rfl

@[simp] theorem State.jobMod_raw (s : State) (f : LoadJob → LoadJob) (j : Nat) : (s.jobMod f).raw j = s.raw j := rfl
@[simp] theorem State.jobMod_num (s : State) (f : LoadJob → LoadJob) (j : Nat) : (s.jobMod f).num j = s.num j := rfl
@[simp] theorem State.jobMod_getF (s : State) (f : LoadJob → LoadJob) (j : Nat) (g : BitRange) : (s.jobMod f).getF j g = s.getF j g := rfl
@[simp] theorem State.jobMod_isF (s : State) (f : LoadJob → LoadJob) (j : Nat) (g : BitRange) : (s.jobMod f).isF j g = s.isF j g := rfl
@[simp] theorem State.jobMod_port (s : State) (f : LoadJob → LoadJob) (q : Nat) : (s.jobMod f).port q = s.port q := rfl

@[simp] theorem State.sessMod_raw (s : State) (n : Nat) (f : USess → USess) (j : Nat) : (s.sessMod n f).raw j = s.raw j := rfl
@[simp] theorem State.sessMod_num (s : State) (n : Nat) (f : USess → USess) (j : Nat) : (s.sessMod n f).num j = s.num j := rfl
@[simp] theorem State.sessMod_getF (s : State) (n : Nat) (f : USess → USess) (j : Nat) (g : BitRange) : (s.sessMod n f).getF j g = s.getF j g := rfl
@[simp] theorem State.sessMod_isF (s : State) (n : Nat) (f : USess → USess) (j : Nat) (g : BitRange) : (s.sessMod n f).isF j g = s.isF j g := rfl
@[simp] theorem State.sessMod_port (s : State) (n : Nat) (f : USess → USess) (q : Nat) : (s.sessMod n f).port q = s.port q := rfl

@[simp] theorem State.partMod_raw (s : State) (k : Nat) (f : UPart → UPart) (j : Nat) : (s.partMod k f).raw j = s.raw j := rfl
@[simp] theorem State.partMod_num (s : State) (k : Nat) (f : UPart → UPart) (j : Nat) : (s.partMod k f).num j = s.num j := rfl
@[simp] theorem State.partMod_getF (s : State) (k : Nat) (f : UPart → UPart) (j : Nat) (g : BitRange) : (s.partMod k f).getF j g = s.getF j g := rfl
@[simp] theorem State.partMod_isF (s : State) (k : Nat) (f : UPart → UPart) (j : Nat) (g : BitRange) : (s.partMod k f).isF j g = s.isF j g := rfl
@[simp] theorem State.partMod_port (s : State) (k : Nat) (f : UPart → UPart) (q : Nat) : (s.partMod k f).port q = s.port q := rfl

@[simp] theorem State.sbMod_raw (s : State) (n : Nat) (f : SBlk → SBlk) (j : Nat) : (s.sbMod n f).raw j = s.raw j := rfl
@[simp] theorem State.sbMod_num (s : State) (n : Nat) (f : SBlk → SBlk) (j : Nat) : (s.sbMod n f).num j = s.num j := rfl
@[simp] theorem State.sbMod_getF (s : State) (n : Nat) (f : SBlk → SBlk) (j : Nat) (g : BitRange) : (s.sbMod n f).getF j g = s.getF j g := rfl
@[simp] theorem State.sbMod_isF (s : State) (n : Nat) (f : SBlk → SBlk) (j : Nat) (g : BitRange) : (s.sbMod n f).isF j g = s.isF j g := rfl
@[simp] theorem State.sbMod_port (s : State) (n : Nat) (f : SBlk → SBlk) (q : Nat) : (s.sbMod n f).port q = s.port q := rfl

end Sys2Proof.Machine
end

