-- ==== Sys2Proof/Laws/Ops.lean ====
section
/-! SUPPORT. Sys2Proof/Laws/Ops.lean: what the named operations on registers, memory and ports leave to be read. -/

set_option Elab.async false

namespace Sys2Proof.Machine

/-! ## Registers: the word, the number and the fields after a write. -/

theorem State.raw_wr (s : State) (k j : Nat) (w : Word) : (s.wr k w).raw j = if j = k then w else s.raw j := by
  simp only [State.raw, State.wr]
  exact tget_tset _ _ _ _ _

@[simp] theorem State.raw_wr_same (s : State) (k : Nat) (w : Word) : (s.wr k w).raw k = w := by simp [State.raw_wr]

@[simp] theorem State.raw_wr_ne (s : State) {k j : Nat} (w : Word) (h : j ≠ k) : (s.wr k w).raw j = s.raw j := by simp [State.raw_wr, h]

@[simp] theorem State.raw_wrN_same (s : State) (k v : Nat) : (s.wrN k v).raw k = word v := s.raw_wr_same k _

@[simp] theorem State.raw_wrN_ne (s : State) {k j : Nat} (v : Nat) (h : j ≠ k) : (s.wrN k v).raw j = s.raw j := s.raw_wr_ne _ h

@[simp] theorem State.raw_setF_same (s : State) (k : Nat) (f : BitRange) (v : Nat) : (s.setF k f v).raw k = fput f (s.raw k) v :=
  s.raw_wr_same k _

@[simp] theorem State.raw_setF_ne (s : State) {k j : Nat} (f : BitRange) (v : Nat) (h : j ≠ k) : (s.setF k f v).raw j = s.raw j :=
  s.raw_wr_ne _ h

@[simp] theorem State.raw_raiseF_same (s : State) (k : Nat) (f : BitRange) : (s.raiseF k f).raw k = fput f (s.raw k) 1 :=
  s.raw_wr_same k _

@[simp] theorem State.raw_raiseF_ne (s : State) {k j : Nat} (f : BitRange) (h : j ≠ k) : (s.raiseF k f).raw j = s.raw j :=
  s.raw_wr_ne _ h

@[simp] theorem State.raw_raiseBit_same (s : State) (k b : Nat) : (s.raiseBit k b).raw k = setBit (s.raw k) b true :=
  s.raw_wr_same k _

@[simp] theorem State.raw_raiseBit_ne (s : State) {k j : Nat} (b : Nat) (h : j ≠ k) : (s.raiseBit k b).raw j = s.raw j :=
  s.raw_wr_ne _ h

@[simp] theorem State.raw_bumpN_same (s : State) (k n : Nat) : (s.bumpN k n).raw k = word (sat32 (s.num k) n) := s.raw_wr_same k _

@[simp] theorem State.raw_bumpN_ne (s : State) {k j : Nat} (n : Nat) (h : j ≠ k) : (s.bumpN k n).raw j = s.raw j := s.raw_wr_ne _ h

@[simp] theorem State.raw_bump_same (s : State) (k : Nat) : (s.bump k).raw k = word (sat32 (s.num k) 1) := s.raw_wr_same k _

@[simp] theorem State.raw_bump_ne (s : State) {k j : Nat} (h : j ≠ k) : (s.bump k).raw j = s.raw j := s.raw_wr_ne _ h

@[simp] theorem State.raw_bumpF_ne (s : State) {k j : Nat} (f : BitRange) (h : j ≠ k) : (s.bumpF k f).raw j = s.raw j :=
  s.raw_wr_ne _ h

/-- States with one register file hold the same words. -/
theorem State.raw_congr {s t : State} (h : s.regs = t.regs) (k : Nat) : s.raw k = t.raw k := by simp [State.raw, h]

/-- A counter holds its saturated sum. -/
theorem State.num_bumpN (s : State) (k n : Nat) : (s.bumpN k n).num k = min (s.num k + n) 0xFFFFFFFF := by
  simp only [State.num, sat32, word, State.raw_bumpN_same, BitVec.toNat_ofNat]
  omega

theorem State.num_bump (s : State) (k : Nat) : (s.bump k).num k = min (s.num k + 1) 0xFFFFFFFF := s.num_bumpN k 1

/-- A field just written reads as the value modulo its width. -/
theorem State.getF_setF (s : State) (k : Nat) (f : BitRange) (v : Nat) (h : f.hi < 32 := by decide) (hl : f.lo ≤ f.hi := by decide) :
    (s.setF k f v).getF k f = v % 2 ^ bwidth f := by
  simp [State.getF, fget_fput f _ v h hl]

/-- A field apart from the one written reads as before. -/
theorem State.getF_setF_ne (s : State) (k : Nat) {f g : BitRange} (v : Nat) (hd : g.hi < f.lo ∨ f.hi < g.lo := by decide)
    (hl : f.lo ≤ f.hi := by decide) (hg : g.hi < 32 := by decide) : (s.setF k f v).getF k g = s.getF k g := by
  simp [State.getF, fget_fput_ne f g _ v hl hg hd]

/-- A field of another register reads as before. -/
theorem State.getF_setF_key (s : State) {k j : Nat} (f g : BitRange) (v : Nat) (h : j ≠ k) : (s.setF k f v).getF j g = s.getF j g := by
  simp [State.getF, h]

/-- A one-bit field just raised is 1. -/
theorem State.isF_raiseF (s : State) (k : Nat) (f : BitRange) (h : f.hi < 32 := by decide) (hl : f.lo ≤ f.hi := by decide) :
    (s.raiseF k f).isF k f = true := by
  have h1 : 1 < 2 ^ bwidth f := Nat.one_lt_two_pow (by unfold bwidth; omega)
  simp only [State.isF, State.raiseF, State.getF_setF s k f 1 h hl, Nat.mod_eq_of_lt h1, decide_true]

/-! ## Memory: bytes after a write. -/

theorem tget_dramPut (m : Tbl Byte) (a : Nat) (b : Bytes) (j : Nat) :
    tget (fun _ => (0 : Byte)) (dramPut m a b) j =
      if a ≤ j ∧ j < a + b.length then BitVec.ofNat 8 (b.getD (j - a) 0) else tget (fun _ => (0 : Byte)) m j := by
  induction b generalizing m a with
  | nil => simp [dramPut]
  | cons x r ih =>
    simp only [dramPut, ih, List.length_cons]
    by_cases h : j = a
    · subst h
      simp [tget_tset]
    · rw [tget_tset, if_neg h]
      by_cases h1 : a + 1 ≤ j ∧ j < a + 1 + r.length
      · rw [if_pos h1, if_pos (by omega)]
        obtain ⟨d, rfl⟩ : ∃ d, j = a + 1 + d := ⟨j - (a + 1), by omega⟩
        rw [show a + 1 + d - a = d + 1 by omega, show a + 1 + d - (a + 1) = d by omega]
        rfl
      · rw [if_neg h1, if_neg (by omega)]

/-- A byte of memory after a write: the byte written, or what stood there before. -/
theorem State.rdByte_wrMem (s : State) (a : Nat) (b : Bytes) (j : Nat) :
    (s.wrMem a b).rdByte j = if a ≤ j ∧ j < a + b.length then b.getD (j - a) 0 % 256 else s.rdByte j := by
  simp only [State.rdByte, State.wrMem, tget_dramPut]
  split
  · rw [BitVec.toNat_ofNat]
  · rfl

/-! ## Conditions and reports. -/

@[simp] theorem State.when_true (s : State) (f : State → State) : s.when true f = f s := rfl

@[simp] theorem State.when_false (s : State) (f : State → State) : s.when false f = s := rfl

/-- A report enters the FIFO while there is room, stamped, and changes nothing else. -/
theorem State.report_room (s : State) (code sev path : Nat) (data : Bytes) (h : s.smp.fifo.length < 256) :
    s.report code sev path data = s.smpMod (fun p => { p with fifo := p.fifo ++ [s.entry code sev path data] }) := by
  simp [State.report, h, State.smpMod, State.entry]

/-! ## Ports. -/

theorem State.port_portMod (s : State) (n m : Nat) (f : PortState → PortState) :
    (s.portMod n f).port m = if m = n then f (s.port n) else s.port m := by
  simp only [State.port, State.portMod, tmod]
  exact tget_tset _ _ _ _ _

@[simp] theorem State.port_portMod_same (s : State) (n : Nat) (f : PortState → PortState) : (s.portMod n f).port n = f (s.port n) := by
  simp [State.port_portMod]

/-- States with one table of ports have the same ports. -/
theorem State.port_congr {s t : State} (h : s.ports = t.ports) (n : Nat) : s.port n = t.port n := by simp [State.port, h]

end Sys2Proof.Machine
end

