-- ==== Sys2Proof/WellFormed.lean ====
section
/-! DEFINITION. Sys2Proof/WellFormed.lean: commands whose operands are numbers that the spec's ports, channels, slots, registers and
bytes can have. A meaning is defined on every command; it reduces an operand outside its range or leaves the state as it is. -/

namespace Sys2Proof

namespace Wf

/-- A number below n. -/
abbrev below (n v : Nat) : Bool := decide (v < n)

/-- No number, or one below n. -/
def optBelow (n : Nat) : Option Nat → Bool
  | none => true
  | some v => below n v

/-- Ports 0–63. -/
abbrev isPort (p : Nat) : Bool := below 64 p

/-- Bytes. -/
def areOctets (b : List Nat) : Bool := b.all (below 256)

/-- 16-bit words. -/
def areWords (l : List Nat) : Bool := l.all (below (2 ^ 16))

/-- 10-bit code groups. -/
def areCodes (l : List Nat) : Bool := l.all (below (2 ^ 10))

/-- Initiator codes of R29. -/
abbrev isInitiator (i : Nat) : Bool := below 11 i

/-- Hierarchical paths (R477). -/
abbrev isPath (p : Nat) : Bool := below (2 ^ 16) p

/-- Region codes 1–9 (R19). -/
def isRegion (r : Nat) : Bool := decide (1 ≤ r ∧ r ≤ 9)

/-- Clock domains 1–14 (R41). -/
def isDomain (d : Nat) : Bool := decide (1 ≤ d ∧ d ≤ 14)

/-- Gathering targets 0–20 (R412). -/
abbrev isTarget (t : Nat) : Bool := below 21 t

/-- Gathering sources 0–511 (R411). -/
abbrev isSource (n : Nat) : Bool := below 512 n

/-- Record-engine sessions 0–63 (R377). -/
abbrev isSession (n : Nat) : Bool := below 64 n

/-- Partners 0–3 (R382). -/
abbrev isPartner (k : Nat) : Bool := below 4 k

/-- Shuttle channels 0–31 (R396). -/
abbrev isChannel (c : Nat) : Bool := below 32 c

/-- Shuttle events 0–71 (R398). -/
abbrev isEvent (e : Nat) : Bool := below 72 e

/-- One value per phase. -/
def perPhase (l : List Int) : Bool := decide (l.length = 3)

end Wf

open Wf

/-- Are a command's operands within their ranges? -/
def Instr.wf (i : Instr) : Bool :=
  match i with
  | .registerWrite init off v x => isInitiator init && below (2 ^ 21) off && below (2 ^ 32) v && below (2 ^ 32) x
  | .unassignedAccess init off size _ => isInitiator init && below (2 ^ 21) off && (decide (size = 1 ∨ size = 2 ∨ size = 4))
  | .cellError path slot _ _ => isPath path && below (2 ^ 31) slot
  | .blockRetry path _ => isPath path
  | .handshakeTimeout path => isPath path
  | .substitutionComplete n _ => isPort n
  | .paceWindowEnd r _ _ => isRegion r
  | .governorPeriodEnd ack => optBelow 256 ack
  | .governorSettleEnd raw _ => below (2 ^ 16) raw
  | .clockLoss loss => isDomain loss.1
  | .timeBaseReturn => true
  | .frameCommit slot => below (2 ^ 20) slot
  | .loaderLoad _ => true
  | .loaderReprickBlock _ => true
  | .loaderRestorePinSet _ => true
  | .loaderReprickRegion _ => true
  | .loaderAbort => true
  | .loaderVerifyDone _ => true
  | .loaderDrainEnd => true
  | .loaderWriteDone _ => true
  | .loaderSelfTestDone _ => true
  | .spareSelfTest r x _ => isRegion r && below 64 x
  | .readbackStart path => isPath path
  | .readbackDone => true
  | .linePreambleDetect port _ words => isPort port && areWords words
  | .lineHeaderReceive port rest => isPort port && rest.all (fun e => areWords e.2)
  | .lineSymbolReceive port _ words after => isPort port && areWords words && areWords after
  | .lineFrameDecode port rest carriers snr _ =>
    isPort port && rest.all (fun e => areWords e.2) && carriers.all (below 424) && decide (carriers.length = snr.length)
  | .lineRxDeadlineMiss port => isPort port
  | .lineTxDeadlineMiss port _ => isPort port
  | .laneAligned lane => isPort lane.1 && areWords lane.2
  | .laneLoss port words => isPort port && areWords words
  | .contentionSlot port => isPort port
  | .lineTxEnd port _ => isPort port
  | .responseSend port => isPort port
  | .responseWindowEnd port => isPort port
  | .lineScheduledLaunch port => isPort port
  | .reassemblyTimeout port src seq => isPort port && below (2 ^ 14) src && below 256 seq
  | .lineTxPacketTake port => isPort port
  | .airCycleStart port _ => isPort port
  | .airBackoffExpire port => isPort port
  | .airCcaDone port _ _ => isPort port
  | .airEnhAckSend port => isPort port
  | .airAckTimeout port => isPort port
  | .airScheduledLaunch port _ => isPort port
  | .airFrameReceive port psdu _ _ mcs _ _ => isPort port && areOctets psdu && optBelow 16 mcs
  | .floodRelaySend cca => isPort cca.1
  | .airRxDeadlineMiss port => isPort port
  | .airTxDeadlineMiss port => isPort port
  | .rendezvousWindowOpen port addr => isPort port && below (2 ^ 14) addr
  | .rendezvousWindowEnd port addr _ => isPort port && below (2 ^ 14) addr
  | .wakeTrainStart port addr => isPort port && below (2 ^ 14) addr
  | .wakeFrameSend port => isPort port
  | .memberBeaconMiss port => isPort port
  | .memberSearchRound port => isPort port
  | .memberScanTimeout port => isPort port
  | .airTxPacketTake port => isPort port
  | .portBobRxRead port => isPort port
  | .portBobTxWrite port value => isPort port && below (2 ^ 32) value
  | .portEnable port => isPort port
  | .portDisable port => isPort port
  | .portRxReset port => isPort port
  | .portTxReset port => isPort port
  | .portRxSinkOff port => isPort port
  | .descFetch port _ => isPort port
  | .descCopy port _ => isPort port
  | .descComplete port index code => isPort port && below 4096 index && below 16 code
  | .casCommaAlign port => isPort port
  | .casHelloTimer port => isPort port
  | .casHelloReceive port codes => isPort port && areCodes codes
  | .casLinkDown port _ _ => isPort port
  | .casFrameReceive port sof codes stop => isPort port && areCodes codes && below (2 ^ 10) sof && below (2 ^ 10) stop
  | .casCreditReceive port lo hi crc => isPort port && below 256 lo && below 256 hi && below 256 crc
  | .casCreditSend port => isPort port
  | .casFrameSend port => isPort port
  | .casCommitTimeout port cseq => isPort port && below (2 ^ 32) cseq
  | .casResultSend port => isPort port
  | .intakeGrant l _ => below 18 l
  | .keyDeriveDone => true
  | .lanePassDone l _ => below 18 l
  | .fwRingWrite => true
  | .slotRead slot _ => below (2 ^ 20) slot
  | .slotWrite slot _ => below (2 ^ 20) slot
  | .slotWriteCtr slot _ => below (2 ^ 20) slot
  | .slotRoll slot _ => below (2 ^ 20) slot
  | .slotClear slot _ => below (2 ^ 20) slot
  | .slotOpComplete => true
  | .intakeEnable => true
  | .intakeDisable => true
  | .tableRebuildDone => true
  | .keyCacheFlush => true
  | .keyCacheFlushDone => true
  | .menderBatch u _ => (decide (18 ≤ u ∧ u ≤ 26))
  | .menderBatchDone u => (decide (18 ≤ u ∧ u ≤ 26))
  | .classSelect cls w => below 256 cls && below 32 w
  | .classDataAccess wr => optBelow (2 ^ 32) wr
  | .classCommit => true
  | .classInstall => true
  | .freezeDue => true
  | .freezeCapture => true
  | .freezeClose => true
  | .darnerSnapshot => true
  | .darnerEnable => true
  | .darnerDisable => true
  | .storeStart absent => below (2 ^ 16) absent
  | .storeRestoreDone => true
  | .storeStop => true
  | .recordUnitProgram => true
  | .nandProgramDone d b p _ => below 16 d && below 8192 b && below 2048 p
  | .nandReadDone _ _ _ _ _ => true
  | .nandEraseDone d _ => below 16 d
  | .gcStart => true
  | .relocCopyDone => true
  | .relocVerifyDone _ => true
  | .relocIntentDone => true
  | .foldStart _ => true
  | .wearLevelMove => true
  | .checkpointStart => true
  | .checkpointDone => true
  | .storeFlushDone => true
  | .channelEvacuate c => below 2 c
  | .evacuationDone => true
  | .channelRejoin c => below 2 c
  | .rejoinDone _ _ => true
  | .ringRead k _ => below 2 k
  | .ringWrite k _ => below 2 k
  | .ringTrim k => below 2 k
  | .ringFlush k => below 2 k
  | .recTailWrite pos => below (2 ^ 32) pos
  | .modulatorFault c => below 7 c
  | .modulatorFaultClear c => below 7 c
  | .metrologySample v amps q _ => perPhase v && perPhase amps && perPhase q
  | .metrologyBlockPublish _ => true
  | .sealOpened => true
  | .sealClosed => true
  | .sealSpend => true
  | .sealEnd => true
  | .calCommit _ => true
  | .sessionTimeout => true
  | .calDataAccess wr => optBelow (2 ^ 32) wr
  | .totEnable => true
  | .pcalLoad _ => true
  | .pcalCancel => true
  | .taiMinuteBoundary => true
  | .billingForce => true
  | .stateRecordPeriodic => true
  | .totRestoration => true
  | .billSnap => true
  | .billDataRead => true
  | .taiSet _ => true
  | .leapSecond => true
  | .cmpFire k => below 8 k
  | .cmpOutputEnd b => below 2 b
  | .ppsOutPulse => true
  | .ppsInEdge _ => true
  | .ptpOffsetWrite v => below (2 ^ 32) v
  | .pairTimeSample v => below (2 ^ 32) v
  | .holdoverTimeout => true
  | .rtcReload => true
  | .schedRead => true
  | .txtsPop u => below 2 u
  | .afeAdjStore port tx rx => isPort port && below 4096 tx && below 4096 rx
  | .servoSrcChange src => below 4 src
  | .uplinkRxFrame u b _ _ _ => below 2 u && areOctets b
  | .uplinkTxDesc u => below 2 u
  | .sessionOpen n => isSession n
  | .sessionResume n => isSession n
  | .sessionClose n => isSession n
  | .sessionSync n => isSession n
  | .sessionDoorbell n which v => isSession n && below 2 which && below (2 ^ 24) v
  | .tlsRecordReceive n => isSession n
  | .tlsRecordTransmit n => isSession n
  | .resultMessageSend n => isSession n
  | .batchClose k => isPartner k
  | .batchSend k => isPartner k
  | .dayBoundary => true
  | .manifestSigned k => isPartner k
  | .handshakeSign n content => isSession n && areOctets content
  | .roleBind n r _ => isSession n && below 6 r
  | .cosemRequest n w carrier _ => isSession n && below (2 ^ 16) w && isPath carrier
  | .shuttleGo c => isChannel c
  | .shuttleAbort c => isChannel c
  | .shuttleArm c trig => isChannel c && (decide (trig < 72 ∨ trig = 255))
  | .shuttleTriggerStart c => isChannel c
  | .shuttleDisable => true
  | .shuttleEnd c => isChannel c
  | .move c => isChannel c
  | .movec c => isChannel c
  | .loop c => isChannel c
  | .wait c => isChannel c
  | .waitTimeout c => isChannel c
  | .signal c => isChannel c
  | .stamp c => isChannel c
  | .progWrite c v => isChannel c && below (2 ^ 32) v
  | .shuttleBusError kind space addr _ => (decide (1 ≤ kind ∧ kind ≤ 4)) && below 4 space && below (2 ^ 36) addr
  | .shuttleResume => true
  | .eventSet e => isEvent e
  | .eventClear e => isEvent e
  | .intClaim t init => isTarget t && isInitiator init
  | .intComplete t init v => isTarget t && isInitiator init && below (2 ^ 32) v
  | .intFlush t init => isTarget t && isInitiator init
  | .holdOffExpire g => below 32 g
  | .coreWake t _ => isTarget t
  | .intSwSet n => isSource n
  | .intSwClear n => isSource n
  | .ndlInfo slot => below 512 slot
  | .ndlGenerate slot => below 512 slot
  | .ndlUnwrap slot param => below 512 slot && below 512 param
  | .ndlDestroy slot _ => below 512 slot
  | .ndlSign slot => below 512 slot
  | .ndlHmac slot => below 512 slot
  | .ndlQuote param => below 512 param
  | .ndlPubkey slot => below 512 slot
  | .ndlDecap slot => below 512 slot
  | .ndlOpComplete _ _ => true
  | .vaultEraseDone => true
  | .cntDomainIdentity => true
  | .cntRollbackFloor kind steps => below 4 kind && below 256 steps
  | .cntPairRoleLock role => below 256 role
  | .cntDebugOpen => true
  | .cntChangeDone _ => true
  | .changeLogReconcile => true
  | .updVerify stg _ => below 2 stg
  | .updActivateLive stg => below 2 stg
  | .updActivateNextStart stg => below 2 stg
  | .updStepDone err item _ => below 16 err && below 64 item
  | .updCommit _ => true
  | .updRevert _ => true
  | .updRecoveryRequest => true
  | .trialTimeout _ => true
  | .stitchOffer port b => isPort port && areOctets b
  | .stitchRequest port b => isPort port && areOctets b
  | .stitchBlock port b => isPort port && areOctets b
  | .stitchDone => true
  | .stitchAbort => true
  | .uartDataFrame b => areOctets b
  | .uartEndFrame b _ => areOctets b
  | .uartRxTimeout => true
  | .rcvGo init len _ => isInitiator init && below (2 ^ 25) len
  | .samplerReport code sev path data => below (2 ^ 16) code && below 8 sev && isPath path && areOctets data
  | .samplerFifoTake => true
  | .samplerLostSynth => true
  | .mirrorUnitWrite => true
  | .samplerSwRecord init sev code => isInitiator init && below 8 sev && below (2 ^ 16) code
  | .samplerClear => true
  | .samplerRdSel slot w => below 8192 slot && below 8 w
  | .samplerRdData => true
  | .hoopWatchdogExpire => true
  | .fieldWatchdogExpire => true
  | .hoopWdogKick init key => isInitiator init && below (2 ^ 16) key
  | .fieldWdogKick init key => isInitiator init && below (2 ^ 16) key
  | .ladderStepRequest init key act => isInitiator init && below (2 ^ 16) key && below 8 act
  | .regionResetDone _ => true
  | .powerCycleTimeout clk v => below (2 ^ 14) clk && optBelow 256 v
  | .cyclesReset => true
  | .pairStatusSend => true
  | .pairMessageReceive b => areOctets b
  | .mirrorTimeout => true
  | .pairYield => true
  | .pairSenseStable => true
  | .takeoverSample _ => true
  | .pairStatusTimeout => true
  | .witnessInstall exp => below (2 ^ 32) exp
  | .witnessWaitExpire => true
  | .witnessExpire => true
  | .bothHolding => true
  | .pairStartTimeout => true
  | .resyncStart => true
  | .resyncPhaseDone => true
  | .ponrstRise _ clk v _ => below (2 ^ 14) clk && optBelow 256 v
  | .ponrstFall => true
  | .warmReset v _ => optBelow 256 v
  | .pfailFall erasing => below (2 ^ 16) erasing
  | .pfailRise => true
  | .clockRestored d => isDomain d
  | .uplinkLinkChange link _ width gen => below 8 link && below 5 width && below 5 gen
  | .vbatDip => true
  | .pairEnWrite _ => true
  | .bootPfailHoldEnd => true
  | .interconnectError addr init => below (2 ^ 36) addr && isInitiator init
  | .ppsOutFall => true
  | .airTxEnd port => isPort port
  | .msixUnmask v => below 17 v

end Sys2Proof
end

