-- ==== Sys2Proof/Tests/Slice0.lean ====
section
/-! SUPPORT. Sys2Proof/Tests/Slice0.lean: the author's own tests: ill-formed commands that WellFormed refuses, values that the spec works
out, and for every statement with hypotheses a state and operands that meet them. -/

set_option linter.unusedVariables false
set_option maxRecDepth 20000
set_option Elab.async false

open Sys2Proof Sys2Proof.Machine

namespace Sys2Proof.Tests

/-! ## WellFormed refuses. -/

theorem test_wf_refuses_isInitiator : Instr.wf (.registerWrite 11 0 0 0) = false := by decide

theorem test_wf_refuses_below_two21 : Instr.wf (.registerWrite 0 (2 ^ 21) 0 0) = false := by decide

theorem test_wf_refuses_below_two32 : Instr.wf (.registerWrite 0 0 (2 ^ 32) 0) = false := by decide

theorem test_wf_refuses_eq_1_or_eq_2_or_eq_4 : Instr.wf (.unassignedAccess 0 0 3 false) = false := by decide

theorem test_wf_refuses_isPath : Instr.wf (.cellError (2 ^ 16) 0 false false) = false := by decide

theorem test_wf_refuses_below_two31 : Instr.wf (.cellError 0 (2 ^ 31) false false) = false := by decide

theorem test_wf_refuses_isPort : Instr.wf (.substitutionComplete 64 false) = false := by decide

theorem test_wf_refuses_isRegion : Instr.wf (.paceWindowEnd 10 0 0) = false := by decide

theorem test_wf_refuses_optBelow_256 : Instr.wf (.governorPeriodEnd (some 256)) = false := by decide

theorem test_wf_refuses_below_two16 : Instr.wf (.governorSettleEnd (2 ^ 16) false) = false := by decide

theorem test_wf_refuses_isDomain_first : Instr.wf (.clockLoss (15, 0)) = false := by decide

theorem test_wf_refuses_below_two20 : Instr.wf (.frameCommit (2 ^ 20)) = false := by decide

theorem test_wf_refuses_below_64 : Instr.wf (.spareSelfTest 1 64 false) = false := by decide

theorem test_wf_refuses_areWords : Instr.wf (.linePreambleDetect 0 0 [65536]) = false := by decide

theorem test_wf_refuses_all_areWords_words : Instr.wf (.lineHeaderReceive 0 [(0, [65536])]) = false := by decide

theorem test_wf_refuses_all_below_424 : Instr.wf (.lineFrameDecode 0 [] [424] [0] 0) = false := by decide

theorem test_wf_refuses_length_eq_length : Instr.wf (.lineFrameDecode 0 [] [] [1] 0) = false := by decide

theorem test_wf_refuses_isPort_first : Instr.wf (.laneAligned (64, [])) = false := by decide

theorem test_wf_refuses_areWords_second : Instr.wf (.laneAligned (4, [65536])) = false := by decide

theorem test_wf_refuses_below_two14 : Instr.wf (.reassemblyTimeout 0 (2 ^ 14) 0) = false := by decide

theorem test_wf_refuses_below_256 : Instr.wf (.reassemblyTimeout 0 0 256) = false := by decide

theorem test_wf_refuses_areOctets : Instr.wf (.airFrameReceive 0 [256] false false none (0, 0) 0) = false := by decide

theorem test_wf_refuses_optBelow_16 : Instr.wf (.airFrameReceive 0 [] false false (some 16) (0, 0) 0) = false := by decide

theorem test_wf_refuses_below_4096 : Instr.wf (.descComplete 0 4096 0) = false := by decide

theorem test_wf_refuses_below_16 : Instr.wf (.descComplete 0 0 16) = false := by decide

theorem test_wf_refuses_areCodes : Instr.wf (.casHelloReceive 0 [1024]) = false := by decide

theorem test_wf_refuses_below_two10 : Instr.wf (.casFrameReceive 0 (2 ^ 10) [] 0) = false := by decide

theorem test_wf_refuses_below_18 : Instr.wf (.intakeGrant 18 false) = false := by decide

theorem test_wf_refuses_18_le_and_le_26 : Instr.wf (.menderBatch 27 false) = false := by decide

theorem test_wf_refuses_below_32 : Instr.wf (.classSelect 0 32) = false := by decide

theorem test_wf_refuses_optBelow_two32 : Instr.wf (.classDataAccess (some (2 ^ 32))) = false := by decide

theorem test_wf_refuses_below_8192 : Instr.wf (.nandProgramDone 0 8192 0 false) = false := by decide

theorem test_wf_refuses_below_2048 : Instr.wf (.nandProgramDone 0 0 2048 false) = false := by decide

theorem test_wf_refuses_below_2 : Instr.wf (.channelEvacuate 2) = false := by decide

theorem test_wf_refuses_below_7 : Instr.wf (.modulatorFault 7) = false := by decide

theorem test_wf_refuses_perPhase : Instr.wf (.metrologySample [0, 0] [0, 0, 0] [0, 0, 0] 0) = false := by decide

theorem test_wf_refuses_below_8 : Instr.wf (.cmpFire 8) = false := by decide

theorem test_wf_refuses_below_4 : Instr.wf (.servoSrcChange 4) = false := by decide

theorem test_wf_refuses_isSession : Instr.wf (.sessionOpen 64) = false := by decide

theorem test_wf_refuses_below_two24 : Instr.wf (.sessionDoorbell 0 0 (2 ^ 24)) = false := by decide

theorem test_wf_refuses_isPartner : Instr.wf (.batchClose 4) = false := by decide

theorem test_wf_refuses_below_6 : Instr.wf (.roleBind 0 6 false) = false := by decide

theorem test_wf_refuses_isChannel : Instr.wf (.shuttleGo 32) = false := by decide

theorem test_wf_refuses_lt_72_or_eq_255 : Instr.wf (.shuttleArm 0 72) = false := by decide

theorem test_wf_refuses_1_le_and_le_4 : Instr.wf (.shuttleBusError 5 0 0 false) = false := by decide

theorem test_wf_refuses_below_two36 : Instr.wf (.shuttleBusError 1 0 (2 ^ 36) false) = false := by decide

theorem test_wf_refuses_isEvent : Instr.wf (.eventSet 72) = false := by decide

theorem test_wf_refuses_isTarget : Instr.wf (.intClaim 21 0) = false := by decide

theorem test_wf_refuses_isSource : Instr.wf (.intSwSet 512) = false := by decide

theorem test_wf_refuses_below_512 : Instr.wf (.ndlInfo 512) = false := by decide

theorem test_wf_refuses_below_two25 : Instr.wf (.rcvGo 0 (2 ^ 25) false) = false := by decide

theorem test_wf_refuses_isDomain : Instr.wf (.clockRestored 15) = false := by decide

theorem test_wf_refuses_below_5 : Instr.wf (.uplinkLinkChange 0 false 5 0) = false := by decide

theorem test_wf_refuses_below_17 : Instr.wf (.msixUnmask 17) = false := by decide

/-! ## Values that the spec gives. -/

/-- Worked example of R9: armed at 0 s and 3 s, fired at 5 s, and still past at 2,100 s of a target that has fired only by its latch. -/
theorem test_fired_example : fired 0xFFE00000 0x00300000 = false ∧ fired 0x00100000 0x00300000 = false ∧
  fired 0x00300000 0x00300000 = true := by
  decide

/-- The governor's worked example (R40): the lowest pace 0x0FA0 is below the target, so 800 mV goes to 810 mV and VOUT_COMMAND is 0x0CF6. -/
def govState (pace vset : Nat) : State :=
  (((State.reset.setF Reg.CHIP_GOV_CTL Fld.CHIP_GOV_CTL_EN 1).setF (Reg.CHIP_PACE 3) Fld.CHIP_PACE_PACE pace).setF Reg.CHIP_GOV_STAT
    Fld.CHIP_GOV_STAT_VSET_MV vset).fabMod (fun f => { f with vmode := some 0x14 })

theorem test_governor_up : (govState 0x0FA0 800).govNext = 810 ∧ (govState 0x0FA0 800).voutCmd 810 = 0x0CF6 := by decide +kernel

/-- The same example: 0x1030 keeps 810 mV, 0x10A0 steps down to 805 mV with VOUT_COMMAND 0x0CE1. -/
theorem test_governor_keep_down : (govState 0x1030 810).govNext = 810 ∧ (govState 0x10A0 810).govNext = 805 ∧
    (govState 0x10A0 810).voutCmd 805 = 0x0CE1 := by decide +kernel

/-- The check value of CRC-16 with polynomial 0x1021 and start value 0xFFFF over the digits 1 to 9, and that of CRC-32C. -/
theorem test_crc : crc16 [0x31, 0x32, 0x33, 0x34, 0x35, 0x36, 0x37, 0x38, 0x39] = 0x29B1 ∧
    crc32c [0x31, 0x32, 0x33, 0x34, 0x35, 0x36, 0x37, 0x38, 0x39] = 0xE3069283 := by decide +kernel

/-- FIPS 180-4: SHA-256 of "abc" begins with these bytes. -/
theorem test_sha256 : (sha256 [0x61, 0x62, 0x63]).take 4 = [0xBA, 0x78, 0x16, 0xBF] := by decide +kernel

/-- A write of MSM bytes recomputes SCRC (R204). -/
theorem test_scrc : scrcOk ((State.reset.msmPut 3 (List.replicate 32 7)).msmAt 3) = true := by decide +kernel

/-- The replay rule (R214): new, already accepted, and older than the window. -/
theorem test_replay : replay false 9000 9001 0xFFFF 16 = 0 ∧ replay false 9000 8999 0xFFFF 16 = 10 ∧
  replay false 9000 8980 0xFFFF 16 = 11 := by
  decide

/-- The first command is served and the second stays (R of the queue: first in, first out). -/
theorem test_step_order : ∃ t, step { State.reset with pending := [.intakeDisable, .keyCacheFlush] } = .next t ∧
  t.pending = [.keyCacheFlush] :=
  ⟨_, rfl, rfl⟩

/-- An empty queue lets a tick pass (log entry 1). -/
theorem test_tick : (State.reset.tick).time.sched = 1 := by decide +kernel

/-- The worked example of the key schedule (R209): the "AKEY" input of the meter at generation 4. -/
theorem test_derive_input : derivInput false [0x4B, 0x46, 0x4A, 3, 0, 0x0A, 0x6E, 0x91] 4 =
    [0, 0, 0, 1, 0x41, 0x4B, 0x45, 0x59, 0, 0x4B, 0x46, 0x4A, 3, 0, 0x0A, 0x6E, 0x91, 4, 0, 0, 0, 0x80] := by decide

/-- The worked example of the air chapter (R156): guards after 1,024 s and after a wake-up train of 12 s. -/
theorem test_rendezvous_guard : (State.reset.rdvG 7 (1024 * 2 ^ 20), State.reset.rdvG 7 (12 * 2 ^ 20)) = (63440, 2720) := by decide +kernel

/-- The worked example of the line PHY (R79, R91): payload symbol 11 begins 34.40 ms into the frame, and the interleaver steps by 113. -/
theorem test_line_example : lineUs 11 = 34400 ∧ coprimeFrom 3472 113 3472 = 113 := by decide

/-- A line port of CEN-A in L26 with one carrier, and the words of a preamble whose periods hold one sample each: the witness of detection, in
steps. -/
def preState : State :=
  ((((((State.reset.wrN (Reg.PORT_LN_NOTCH 5 0) 0xFFFFFFFE).wrN (Reg.PORT_LN_NOTCH 5 1) 0xFFFFFFFF).setF (Reg.PORT_PERSONA 5)
    Fld.PORT_PERSONA_PERSONA 1).setF (Reg.PORT_CTL 5) Fld.PORT_CTL_EN 1).setF (Reg.PORT_STAT 5) Fld.PORT_STAT_LINK 1).setF (Reg.PORT_PERSONA 5)
    Fld.PORT_PERSONA_PLAN 1).setF (Reg.PORT_LN_CFG 5) Fld.PORT_LN_CFG_DET_THR 1

def preWords : List Nat :=
  (List.range 10).flatMap (fun i => sampleWord (if i < 8 then 1000 else -1000) :: List.replicate 2047 (sampleWord 0))

def preSamples : List (Int × Bool) := (List.range 10).flatMap (fun i => (if i < 8 then 1000 else -1000, false) :: List.replicate 511 (0, false))

def preCorrs : List (Int × Int × Int) :=
  List.replicate 8 (1099511627776000, 309485009822314368410108332, 1000000) ++
    List.replicate 2 (-1099511627776000, 309485009822314368410108332, 1000000)

theorem test_preamble_words : (preState.lnIn 5 0 preWords).map (fun e => e.2) = preSamples := by decide +kernel

theorem test_preamble_marks : markSamples (preState.lnPar 5).guard (flagSamples (preState.lnPar 5).thr preSamples) = preSamples := by
  decide +kernel

theorem test_preamble_corrs : preambleCorrs (preState.lnPlan 5) preSamples = preCorrs := by decide +kernel

/-! ## The hypotheses of the statements can be met. -/

/-- The hypotheses of StepRunsFrontCommand. -/
theorem wit_StepRunsFrontCommand : ∃ (c : Instr) (r : List Instr) (s : State), s.pending = c :: r :=
  ⟨.keyCacheFlush, [], { State.reset with pending := [.keyCacheFlush] }, rfl⟩

/-- The hypotheses of EmptyQueueTicks. -/
theorem wit_EmptyQueueTicks : ∃ s : State, s.pending = [] ∧ s.pins.reset = false :=
  ⟨State.reset, by decide +kernel⟩

/-- The hypotheses of StepKeepsWellFormed. -/
theorem wit_StepKeepsWellFormed : ∃ s t : State, s.Wf ∧ step s = .next t :=
  ⟨{ State.reset with pending := [.keyCacheFlush] }, _, ⟨by decide +kernel, by decide +kernel, ⟨Nat.zero_le _, Nat.zero_le _, Nat.zero_le _, Nat.zero_le _, rfl, fun k => match k with | 0 | 1 | 2 | 3 => Nat.zero_le _ | _ + 4 => Nat.zero_le _, fun k => match k with | 0 | 1 | 2 | 3 => Nat.zero_le _ | _ + 4 => Nat.zero_le _⟩, Nat.zero_le _⟩, rfl⟩

/-- The hypotheses of StepNeverLowersACount. -/
theorem wit_StepNeverLowersACount : ∃ s t : State, step s = .next t :=
  ⟨State.reset, _, rfl⟩

/-- The hypotheses of CommandsTouchTheirPartsOnly. -/
theorem wit_CommandsTouchTheirPartsOnly : ∃ (c : Instr) (s t : State), exec c s = .next t :=
  ⟨.keyCacheFlush, State.reset, _, rfl⟩

/-- The hypotheses of StepServesInOrder. -/
theorem wit_StepServesInOrder : ∃ (c : Instr) (r : List Instr) (s t : State), s.pending = c :: r ∧ step s = .next t :=
  ⟨.keyCacheFlush, [.keyCacheFlush], { State.reset with pending := [.keyCacheFlush, .keyCacheFlush] }, _, rfl, rfl⟩

/-- The hypotheses of GovernorRequestsStayWithinLimits. -/
theorem wit_GovernorRequestsStayWithinLimits : ∃ (ack : Option Nat) (s t : State), exec (.governorPeriodEnd ack) s = .next t :=
  ⟨some 0x14, State.reset, _, rfl⟩

/-- The hypotheses of ReservedBitsOfWritesAreIgnored. -/
theorem wit_ReservedBitsOfWritesAreIgnored : ∃ (init off v v' x k : Nat) (s : State), s.regKey off = some k ∧
  ((regFields k).all (fun f => decide (fget f.bits (word v) = fget f.bits (word v')))) = true ∧ v ≠ v' :=
  ⟨0, 0x0C, 1, 0x80000001, 0, 0x0C, State.reset, by decide +kernel⟩

/-- The hypotheses of AccessCodesDecideFields. -/
theorem wit_AccessCodesDecideFields : ∃ (k : Nat) (f : FieldSpec) (s : State), s.keptFields k = [] ∧ f ∈ regFields k :=
  ⟨0x0C, ⟨9, 0, .rw, 0x3FF⟩, State.reset, by decide +kernel⟩

/-- The hypotheses of the clause on registerWrite: a write to a chip register leaves in it the word that its access codes give, and nothing else changes. -/
theorem wit_registerWrite : ∃ (init off k v x : Nat) (s : State), (s.pins.reset = false) ∧ (hoopOffset off = false) ∧
  (s.regKey off = some k) ∧ (s.rcvShuts init k = false) ∧ ((s.splitFields k (word v)).isEmpty = true) ∧ (s.writeShut k = false) ∧
  (s.rangeOk k (s.merged k (if isHoop init then word v else s.splitWord k (word v))) = true) ∧ (k < 0x010000) :=
  ⟨7, 0x0C, 0x0C, 0x155, 0, State.reset, by decide +kernel⟩

/-- The hypotheses of the clause on registerWrite: a write that its register does not take changes nothing. -/
theorem wit_registerWrite_refused : ∃ (init off k v x : Nat) (s : State), (s.regKey off = some k) ∧
  (s.writeShut k = true ∨ s.rangeOk k (s.merged k (word v)) = false) ∧ (isHoop init = true) :=
  ⟨0, 0x060000, 0x060000, 0, 0, (State.reset.fabMod (fun f => { f with built := [(blockPath 5 27, { kind := 2 }), (blockPath 5 29, { kind := 2 })] })), by decide +kernel⟩

/-- The hypotheses of the clause on registerWrite: a write to a hoop-only range by another initiator is refused, counted and recorded. -/
theorem wit_registerWrite_fw : ∃ (init off v x : Nat) (s : State), (s.pins.reset = false) ∧ (hoopOffset off = true) ∧
  (isHoop init = false) ∧ (s.smp.fifo.length < 256) :=
  ⟨7, 0x050000, 1, 0, State.reset, by decide +kernel⟩

/-- The hypotheses of the clause on registerWrite: a write that would change a hoop-only field is counted, and the hoop-only fields keep their values. -/
theorem wit_registerWrite_split : ∃ (init off k v x : Nat) (s : State), (s.pins.reset = false) ∧ (hoopOffset off = false) ∧
  (isHoop init = false) ∧ (s.regKey off = some k) ∧ (s.rcvShuts init k = false) ∧ ((s.splitFields k (word v)).isEmpty = false) ∧
  (k < 0x010000) ∧ (s.writeShut k = false) ∧ (k ≠ Reg.CHIP_FW_VIOL_CNT) ∧ (k ≠ Reg.CHIP_FW_LAST) ∧
  (s.rangeOk k (s.merged k (s.splitWord k (word v))) = true) :=
  ⟨7, 0x204, 0x204, 0xFFFFFFFF, 0, State.reset, by decide +kernel⟩

/-- The hypotheses of the clause on unassignedAccess: an access to an unassigned offset reads 0 or does nothing, is counted and is recorded. -/
theorem wit_unassignedAccess : ∃ (init off size : Nat) (write : Bool) (s : State), (s.pins.reset = false) ∧ (hoopOffset off = false) ∧
  (s.regKey off = none) ∧ (s.blankReg off = false) :=
  ⟨7, 0x0FFFFC, 4, true, State.reset, by decide +kernel⟩

/-- The hypotheses of the clause on cellError: a corrected single-bit error of a block in service is counted in its region's CHIP_CE. -/
theorem wit_cellError : ∃ (path slot : Nat) (never : Bool) (s : State), (s.mayErr path = true) :=
  ⟨pathOf 5 3 2, 7, false, { fab := { built := [(blockPath 5 3, { kind := 2 }), (blockPath 7 3, { kind := 2 })] } }, by decide +kernel⟩

/-- The hypotheses of the clause on cellError: an uncorrectable error outside meter slot memory is latched as the first attempt. -/
theorem wit_cellError_ue : ∃ (path slot : Nat) (s : State), (s.mayErr path = true) ∧ (path / 64 ≠ 5 * 64 + 29) :=
  ⟨pathOf 5 3 2, 7, { fab := { built := [(blockPath 5 3, { kind := 2 }), (blockPath 7 3, { kind := 2 })] } }, by decide +kernel⟩

/-- The hypotheses of the clause on blockRetry: a retry that succeeds ends the error with its record. -/
theorem wit_blockRetry : ∃ (path b n : Nat) (r : List CellErr) (s : State), (s.fab.errs = ⟨path, b, n⟩ :: r) ∧ (s.smp.fifo.length < 256) :=
  ⟨pathOf 5 3 2, blockPath 5 3, 1, [], { fab := { errs := [⟨pathOf 5 3 2, blockPath 5 3, 1⟩] } }, by decide +kernel⟩

/-- The hypotheses of the clause on blockRetry: a second failed attempt leaves one more retry. -/
theorem wit_blockRetry_two : ∃ (path b : Nat) (r : List CellErr) (s : State), (s.fab.errs = ⟨path, b, 1⟩ :: r) :=
  ⟨pathOf 5 3 2, blockPath 5 3, [], { fab := { errs := [⟨pathOf 5 3 2, blockPath 5 3, 1⟩] } }, by decide +kernel⟩

/-- The hypotheses of the clause on handshakeTimeout: a handshake error of a block that no spare can replace quarantines it and degrades its region. -/
theorem wit_handshakeTimeout : ∃ (path : Nat) (s : State), (s.mayErr path = true) ∧ (6 ≤ path / 0x1000) ∧ (path / 0x1000 ≤ 9) ∧
  (path / 64 % 64 < 32) ∧ (essential (path / 0x1000) (path / 64 % 64) = false) ∧
  ((s.sparesOf (path / 0x1000)).contains (path / 64 % 64) = false) ∧ (s.spareNext (path / 0x1000) (path / 64 % 64) = none) :=
  ⟨pathOf 7 3 2, { fab := { built := [(blockPath 5 3, { kind := 2 }), (blockPath 7 3, { kind := 2 })] } }, by decide +kernel⟩

/-- The hypotheses of the clause on interconnectError: an interconnect error takes the ladder to step 2: the device restarts. -/
theorem wit_interconnectError : ∃ (addr init : Nat) (s : State), (s.getF Reg.CHIP_RECOV_STAT Fld.CHIP_RECOV_STAT_STEP = 0) ∧
  (s.escLeft = 0) ∧ (s.ao.stepOpen = false) ∧ (s.pins.pfail = true) :=
  ⟨0x1234, 2, { State.reset with pins := { State.reset.pins with pfail := true } }, by decide +kernel⟩

/-- The hypotheses of the clause on paceWindowEnd: the pace is the quotient in 4.12 form, rounded either way, and PACE_LOW falls to it at most. -/
theorem wit_paceWindowEnd : ∃ (r count ref : Nat) (s : State), (1 ≤ r) ∧ (r ≤ 9) ∧ (0 < ref) ∧ (count * 4096 / ref + 1 < 65536) :=
  ⟨5, 3, 2, State.reset, by decide +kernel⟩

/-- The hypotheses of the clause on governorPeriodEnd: a period that calls for a step writes VOUT_COMMAND, takes the new VSET and waits for it to settle. -/
theorem wit_governorPeriodEnd : ∃ (mode : Nat) (s : State), (s.isF Reg.CHIP_GOV_CTL Fld.CHIP_GOV_CTL_EN = true) ∧
  (s.isF Reg.CHIP_GOV_STAT Fld.CHIP_GOV_STAT_MODE_ERR = false) ∧ (s.fab.settling = false) ∧ (s.tbLost = false) ∧ (s.vset ≤ 900) ∧
  (s.fab.vmode.isSome = true) ∧ (s.govNext ≠ s.vset) :=
  ⟨22, ((State.reset.setF Reg.CHIP_GOV_CTL Fld.CHIP_GOV_CTL_EN 1).fabMod (fun f => { f with shortfall := true, vmode := some 22 })), by decide +kernel⟩

/-- The hypotheses of the clause on governorPeriodEnd: a step that the regulator does not acknowledge leaves VSET and sets PMBUS_ERR. -/
theorem wit_governorPeriodEnd_nack : ∃ (s : State), (s.isF Reg.CHIP_GOV_CTL Fld.CHIP_GOV_CTL_EN = true) ∧
  (s.isF Reg.CHIP_GOV_STAT Fld.CHIP_GOV_STAT_MODE_ERR = false) ∧ (s.fab.settling = false) ∧ (s.fab.vmode.isSome = true) ∧
  (s.govNext ≠ s.vset) :=
  ⟨((State.reset.setF Reg.CHIP_GOV_CTL Fld.CHIP_GOV_CTL_EN 1).fabMod (fun f => { f with shortfall := true, vmode := some 22 })), by decide +kernel⟩

/-- The hypotheses of the clause on governorPeriodEnd: a stopped governor makes no step and keeps nothing of the period. -/
theorem wit_governorPeriodEnd_stop : ∃ (ack : Option Nat) (s : State), (s.isF Reg.CHIP_GOV_CTL Fld.CHIP_GOV_CTL_EN = false) :=
  ⟨some 22, ((State.reset.setF Reg.CHIP_GOV_CTL Fld.CHIP_GOV_CTL_EN 0).fabMod (fun f => { f with shortfall := true })), by decide +kernel⟩

/-- The hypotheses of the clause on governorSettleEnd: READ_VOUT within 10 mV ends the wait and clears PMBUS_ERR. -/
theorem wit_governorSettleEnd : ∃ (raw : Nat) (s : State), (s.fab.settling = true) ∧ (s.tbLost = false) ∧ (s.voutOff raw = false) :=
  ⟨870, (State.reset.setF Reg.CHIP_GOV_STAT Fld.CHIP_GOV_STAT_VSET_MV 850).fabMod (fun f => { f with settling := true, vmode := some 22 }), by decide +kernel⟩

/-- The hypotheses of the clause on governorSettleEnd: READ_VOUT further off sets PMBUS_ERR and is recorded. -/
theorem wit_governorSettleEnd_off : ∃ (raw : Nat) (s : State), (s.fab.settling = true) ∧ (s.voutOff raw = true) ∧
  (s.smp.fifo.length < 256) :=
  ⟨0, (State.reset.setF Reg.CHIP_GOV_STAT Fld.CHIP_GOV_STAT_VSET_MV 850).fabMod (fun f => { f with settling := true }), by decide +kernel⟩

/-- The hypotheses of the clause on clockLoss: a domain that loses its clock shows in CHIP_CLK_STAT and CHIP_CLK_LOSS, and is recorded. -/
theorem wit_clockLoss : ∃ (d items : Nat) (s : State), (2 ≤ d) ∧ (d ≤ 14) ∧ (d ≠ 12) ∧ (d ≠ 13) ∧
  (∀ x ∈ domainBlocks d, s.mayErr (blockPath x.1 x.2) = false) ∧ (s.smp.fifo.length < 256) :=
  ⟨6, 2, State.reset, by decide +kernel⟩

/-- The hypotheses of the clause on clockLoss: loss of the time base sets TB_LOST. -/
theorem wit_clockLoss_tb : ∃ (items : Nat) (s : State), (s.smp.fifo.length < 256) :=
  ⟨0, State.reset, by decide +kernel⟩

/-- The hypotheses of the clause on timeBaseReturn: the time base returns without a step of either clock. -/
theorem wit_timeBaseReturn : ∃ (s : State), (s.tbLost = true) :=
  ⟨State.reset.setF Reg.TU_STAT Fld.TU_STAT_TB_LOST 1, by decide +kernel⟩

/-- The hypotheses of the clause on clockRestored: a restored clock shows in CHIP_CLK_STAT. -/
theorem wit_clockRestored : ∃ (d : Nat) (s : State), (2 ≤ d) ∧ (d ≤ 14) :=
  ⟨5, State.reset, by decide +kernel⟩

/-- The hypotheses of the clause on loaderLoad: OP 0 into a blank target begins Verify. -/
theorem wit_loaderLoad : ∃ (force : Bool) (s : State), (s.noGrant 8 4 = false) ∧ (s.isF Reg.UPD_PRK_STAT Fld.UPD_PRK_STAT_BUSY = false) ∧
  (s.prkRefused 0 (s.getF Reg.UPD_PRK_TARGET Fld.UPD_PRK_TARGET_PATH / 0x1000) (s.getF Reg.UPD_PRK_TARGET Fld.UPD_PRK_TARGET_PATH / 64 % 64) force = false) :=
  ⟨false, (State.reset.setF Reg.UPD_PRK_TARGET Fld.UPD_PRK_TARGET_PATH (blockPath 7 3)), by decide +kernel⟩

/-- The hypotheses of the clause on loaderReprickBlock: OP 1 on a block that is not blank begins Verify. -/
theorem wit_loaderReprickBlock : ∃ (force : Bool) (s : State), (s.noGrant 8 4 = false) ∧
  (s.isF Reg.UPD_PRK_STAT Fld.UPD_PRK_STAT_BUSY = false) ∧
  (s.prkRefused 1 (s.getF Reg.UPD_PRK_TARGET Fld.UPD_PRK_TARGET_PATH / 0x1000) (s.getF Reg.UPD_PRK_TARGET Fld.UPD_PRK_TARGET_PATH / 64 % 64) force = false) :=
  ⟨false, ((State.reset.setF Reg.UPD_PRK_TARGET Fld.UPD_PRK_TARGET_PATH (blockPath 7 3)).build (blockPath 7 3) { kind := 2 }), by decide +kernel⟩

/-- The hypotheses of the clause on loaderReprickRegion: OP 3 on a region begins Verify. -/
theorem wit_loaderReprickRegion : ∃ (force : Bool) (s : State), (s.noGrant 8 4 = false) ∧
  (s.isF Reg.UPD_PRK_STAT Fld.UPD_PRK_STAT_BUSY = false) ∧
  (s.prkRefused 3 (s.getF Reg.UPD_PRK_TARGET Fld.UPD_PRK_TARGET_PATH / 0x1000) (s.getF Reg.UPD_PRK_TARGET Fld.UPD_PRK_TARGET_PATH / 64 % 64) force = false) :=
  ⟨false, (State.reset.setF Reg.UPD_PRK_TARGET Fld.UPD_PRK_TARGET_PATH (regionPath 7)), by decide +kernel⟩

/-- The hypotheses of the clause on loaderRestorePinSet: OP 2 for a pin set that the spare carries begins to drain the spare. -/
theorem wit_loaderRestorePinSet : ∃ (force : Bool) (s : State), (s.noGrant 8 4 = false) ∧
  (s.isF Reg.UPD_PRK_STAT Fld.UPD_PRK_STAT_BUSY = false) ∧
  (s.prkRefused 2 (s.getF Reg.UPD_PRK_TARGET Fld.UPD_PRK_TARGET_PATH / 0x1000) (s.getF Reg.UPD_PRK_TARGET Fld.UPD_PRK_TARGET_PATH / 64 % 64) force = false) :=
  ⟨false, ((State.reset.setF Reg.UPD_PRK_TARGET Fld.UPD_PRK_TARGET_PATH (blockPath 1 3)).setF (Reg.PORT_PERSONA 3) Fld.PORT_PERSONA_SPARE 1), by decide +kernel⟩

/-- The hypotheses of the clause on loaderAbort: ABORT in Verify or Drain ends the operation with ERR 11. -/
theorem wit_loaderAbort : ∃ (s : State), (s.fab.job.isSome = true) ∧ (s.prkState = 1 ∨ s.prkState = 2) :=
  ⟨((State.reset.fabMod (fun f => { f with job := some { op := 1, region := 7, block := 3, len := 0 } })).setPrk 1), by decide +kernel⟩

/-- The hypotheses of the clause on loaderAbort: ABORT from Isolate on is ignored. -/
theorem wit_loaderAbort_late : ∃ (s : State), (s.prkState ≠ 1) ∧ (s.prkState ≠ 2) :=
  ⟨((State.reset.fabMod (fun f => { f with job := some { op := 1, region := 7, block := 3, len := 0 } })).setPrk 3), by decide +kernel⟩

/-- The hypotheses of the clause on loaderVerifyDone: the checks of a load pass and Write follows, or they fail with their ERR. -/
theorem wit_loaderVerifyDone : ∃ (j : LoadJob) (s : State), (s.fab.job = some j) ∧ (s.prkState = 1) ∧ (s.norWaits j = false) ∧
  (s.srcThere j = true) ∧ (j.op = 0) :=
  ⟨{ op := 0, region := 7, block := 3, len := 0 }, ((State.reset.fabMod (fun f => { f with job := some { op := 0, region := 7, block := 3, len := 0 } })).setPrk 1), by decide +kernel⟩

/-- The hypotheses of the clause on loaderVerifyDone: a source that cannot be read fails with ERR 10. -/
theorem wit_loaderVerifyDone_err : ∃ (j : LoadJob) (s : State), (s.fab.job = some j) ∧ (s.prkState = 1) ∧ (s.norWaits j = false) :=
  ⟨{ op := 0, region := 7, block := 3, len := 0 }, ((State.reset.fabMod (fun f => { f with job := some { op := 0, region := 7, block := 3, len := 0 } })).setPrk 1), by decide +kernel⟩

/-- The hypotheses of the clause on loaderDrainEnd: Isolate follows Drain; for a returned pin set, the spare's self-test does. -/
theorem wit_loaderDrainEnd : ∃ (j : LoadJob) (s : State), (s.fab.job = some j) ∧ (s.prkState = 2) :=
  ⟨{ op := 1, region := 7, block := 3, len := 0 }, ((State.reset.fabMod (fun f => { f with job := some { op := 1, region := 7, block := 3, len := 0 } })).setPrk 2), by decide +kernel⟩

/-- The hypotheses of the clause on loaderWriteDone: blocks that hash as they did when verified are followed by the self-test. -/
theorem wit_loaderWriteDone : ∃ (j : LoadJob) (s : State), (s.fab.job = some j) ∧ (s.prkState = 3 ∨ s.prkState = 4) ∧
  (s.norWaits j = false) ∧ (∀ i, i < j.len → some (sha256 (s.jobRd j i)) = j.seen[i]?) :=
  ⟨{ op := 1, region := 7, block := 3, len := 0 }, ((State.reset.fabMod (fun f => { f with job := some { op := 1, region := 7, block := 3, len := 0 } })).setPrk 4), by decide +kernel⟩

/-- The hypotheses of the clause on loaderSelfTestDone: a spare that passes its self-test is idle again, and the operation has completed. -/
theorem wit_loaderSelfTestDone : ∃ (j : LoadJob) (s : State), (s.fab.job = some j) ∧ (s.prkState = 5) ∧ (j.op = 2) :=
  ⟨{ op := 2, region := 1, block := 16, rest := [3], len := 0 }, ((State.reset.fabMod (fun f => { f with job := some { op := 2, region := 1, block := 16, rest := [3], len := 0 } })).setPrk 5), by decide +kernel⟩

/-- The hypotheses of the clause on loaderSelfTestDone: a re-pricked block is released with what was written if its structure hash is the container's, else it fails with ERR 8. -/
theorem wit_loaderSelfTestDone_block : ∃ (j : LoadJob) (s : State), (s.fab.job = some j) ∧ (s.prkState = 5) ∧ (j.op = 1) :=
  ⟨{ op := 1, region := 7, block := 3, len := 0 }, ((State.reset.fabMod (fun f => { f with job := some { op := 1, region := 7, block := 3, len := 0 } })).setPrk 5), by decide +kernel⟩

/-- The hypotheses of the clause on substitutionComplete: a spare that holds the personality stands for the port, and the substitution has ended. -/
theorem wit_substitutionComplete : ∃ (n : Nat) (bad : Bool) (x : Subst) (s : State), (n < 64) ∧
  (s.fab.substs.find? (fun (y : Subst) => decide (y.port = n)) = some x) ∧ (x.loader = false) ∧ (s.portLoop n = false) :=
  ⟨5, false, { port := 5, loader := false, since := 0 }, (State.reset.fabMod (fun f => { f with substs := [{ port := 5, loader := false, since := 0 }] })), by decide +kernel⟩

/-- The hypotheses of the clause on spareSelfTest: an idle spare that fails its self-test is quarantined; the region keeps its state. -/
theorem wit_spareSelfTest : ∃ (r x : Nat) (s : State), ((s.sparesOf r).contains x = true) ∧ (s.spareIdle r x = true) :=
  ⟨6, 6, State.reset, by decide +kernel⟩

/-- The hypotheses of the clause on readbackStart: START begins a readback. -/
theorem wit_readbackStart : ∃ (path : Nat) (s : State), (s.fab.readback = none) :=
  ⟨blockPath 7 3, State.reset, by decide +kernel⟩

/-- The hypotheses of the clause on readbackDone: the readback registers show what the block holds, and BUSY falls. -/
theorem wit_readbackDone : ∃ (p : Nat) (s : State), (s.fab.readback = some p) :=
  ⟨blockPath 7 3, (State.reset.fabMod (fun f => { f with readback := some (blockPath 7 3) })), by decide +kernel⟩

/-- The hypotheses of the clause on linePreambleDetect: four lead symbols and the sign change start a reception with the parameters then in force. -/
theorem wit_linePreambleDetect : ∃ (port first : Nat) (words : List Nat) (cs : List (Int × Int × Int)) (s : State), (s.lnHears port = true) ∧
  ((s.ln port).rx.phase ≠ 3) ∧ (s.portDrain port = false) ∧
  (preambleCorrs (s.lnPlan port) (markSamples (s.lnPar port).guard (flagSamples (s.lnPar port).thr ((s.lnIn port first words).map (fun e => e.2)))) = cs) ∧
  (4 ≤ ((cs.take 8).filter (corrReaches (s.getF (Reg.PORT_LN_CFG port) Fld.PORT_LN_CFG_DET_THR))).length) ∧
  ((cs.drop 8).all (fun c => decide (c.1 < 0)) = true) :=
  ⟨5, 0, preWords, preCorrs, preState, ⟨by decide +kernel, by decide +kernel, by decide +kernel, by rw [test_preamble_words, test_preamble_marks, test_preamble_corrs], by decide +kernel, by decide +kernel⟩⟩

/-- The hypotheses of the clause on lineHeaderReceive: an acceptable header starts the payload. -/
theorem wit_lineHeaderReceive : ∃ (port h : Nat) (rest : List (Nat × List Nat)) (s : State), ((s.ln port).rx.phase = 1) ∧
  ((s.lnSymbols port rest).lnHears port = true) ∧ (((s.lnSymbols port rest).ln port).rx.phase = 1) ∧
  (4 ≤ ((s.lnSymbols port rest).ln port).rx.sym) ∧ (headDecode ((s.lnSymbols port rest).ln port).rx.head = h) ∧
  ((s.lnSymbols port rest).lnHdrGood port h = true) :=
  ⟨5, (hdrWord { mode := 0, code := 0, rep := 0, tmi := 0, ilv := 1, len := 20 }), [], ((((State.reset.portMod 5 (fun p => { p with line := { rx := { phase := 1, sym := 4, head := (hdrBits (hdrWord { mode := 0, code := 0, rep := 0, tmi := 0, ilv := 1, len := 20 })).map (fun b => if b then -8 else 8) } } })).setF (Reg.PORT_PERSONA 5) Fld.PORT_PERSONA_PERSONA 1).setF (Reg.PORT_CTL 5) Fld.PORT_CTL_EN 1).setF (Reg.PORT_STAT 5) Fld.PORT_STAT_LINK 1), by decide +kernel⟩

/-- The hypotheses of the clause on lineHeaderReceive: any other header is counted, and the frame is ignored. -/
theorem wit_lineHeaderReceive_bad : ∃ (port h : Nat) (rest : List (Nat × List Nat)) (s : State), ((s.ln port).rx.phase = 1) ∧
  ((s.lnSymbols port rest).lnHears port = true) ∧ (((s.lnSymbols port rest).ln port).rx.phase = 1) ∧
  (4 ≤ ((s.lnSymbols port rest).ln port).rx.sym) ∧ (headDecode ((s.lnSymbols port rest).ln port).rx.head = h) ∧
  ((s.lnSymbols port rest).lnHdrGood port h = false) :=
  ⟨5, headDecode (List.replicate 108 8), [], ((((State.reset.portMod 5 (fun p => { p with line := { rx := { phase := 1, sym := 4, head := List.replicate 108 8 } } })).setF (Reg.PORT_PERSONA 5) Fld.PORT_PERSONA_PERSONA 1).setF (Reg.PORT_CTL 5) Fld.PORT_CTL_EN 1).setF (Reg.PORT_STAT 5) Fld.PORT_STAT_LINK 1), by decide +kernel⟩

/-- The hypotheses of the clause on lineSymbolReceive: a header symbol with few enough marked samples adds its soft values to the header's. -/
theorem wit_lineSymbolReceive : ∃ (port first : Nat) (words after : List Nat) (s : State), (s.lnSymDue port = true) ∧
  ((s.ln port).rx.phase = 1) ∧
  (marksIn (((markSamples (s.ln port).rx.par.guard (flagSamples (s.ln port).rx.par.thr ((s.lnIn port first (words ++ after)).map (fun e => e.2)))).drop ((s.ln port).rx.par.guard + (s.lnPlan port).n / 8)).take (s.lnPlan port).n) ≤ (s.ln port).rx.par.blank) :=
  ⟨5, 0, [], [], ((((State.reset.portMod 5 (fun p => { p with line := { rx := { phase := 1 } } })).setF (Reg.PORT_PERSONA 5) Fld.PORT_PERSONA_PERSONA 1).setF (Reg.PORT_CTL 5) Fld.PORT_CTL_EN 1).setF (Reg.PORT_STAT 5) Fld.PORT_STAT_LINK 1), by decide +kernel⟩

/-- The hypotheses of the clause on lineSymbolReceive: a payload symbol likewise is demodulated. -/
theorem wit_lineSymbolReceive_pay : ∃ (port first : Nat) (words after : List Nat) (s : State), (s.lnSymDue port = true) ∧
  ((s.ln port).rx.phase = 2) ∧
  (marksIn (((markSamples (s.ln port).rx.par.guard (flagSamples (s.ln port).rx.par.thr ((s.lnIn port first (words ++ after)).map (fun e => e.2)))).drop ((s.ln port).rx.par.guard + (s.lnPlan port).n / 8)).take (s.lnPlan port).n) ≤ (s.ln port).rx.par.blank) :=
  ⟨5, 0, [], [], ((((State.reset.portMod 5 (fun p => { p with line := { rx := { phase := 2, hdr := (hdrWord { mode := 0, code := 0, rep := 0, tmi := 0, ilv := 1, len := 20 }) } } })).setF (Reg.PORT_PERSONA 5) Fld.PORT_PERSONA_PERSONA 1).setF (Reg.PORT_CTL 5) Fld.PORT_CTL_EN 1).setF (Reg.PORT_STAT 5) Fld.PORT_STAT_LINK 1), by decide +kernel⟩

/-- The hypotheses of the clause on lineSymbolReceive: a symbol with more marked samples is erased and counted. -/
theorem wit_lineSymbolReceive_erased : ∃ (port first : Nat) (words after : List Nat) (s : State), (s.lnSymDue port = true) ∧
  ((s.ln port).rx.par.blank < marksIn (((markSamples (s.ln port).rx.par.guard (flagSamples (s.ln port).rx.par.thr ((s.lnIn port first (words ++ after)).map (fun e => e.2)))).drop ((s.ln port).rx.par.guard + (s.lnPlan port).n / 8)).take (s.lnPlan port).n)) :=
  ⟨5, 0, List.replicate 1500 (sampleWord 2000 ^^^ 5), [], ((((State.reset.portMod 5 (fun p => { p with line := { rx := { phase := 2, hdr := (hdrWord { mode := 0, code := 0, rep := 0, tmi := 0, ilv := 1, len := 20 }), par := { thr := 100 } } } })).setF (Reg.PORT_PERSONA 5) Fld.PORT_PERSONA_PERSONA 1).setF (Reg.PORT_CTL 5) Fld.PORT_CTL_EN 1).setF (Reg.PORT_STAT 5) Fld.PORT_STAT_LINK 1), by decide +kernel⟩

/-- The hypotheses of the clause on lineFrameDecode: a new unsegmented data frame for the device enters the receive queue with its prefix. -/
theorem wit_lineFrameDecode : ∃ (port level st c : Nat) (b : Bytes) (rest : List (Nat × List Nat)) (carriers : List Nat) (snr : List Int) (s : State), ((s.ln port).rx.phase = 2) ∧
  ((s.lnSymbols port rest).lnHears port = true) ∧ (((s.lnSymbols port rest).ln port).rx.phase = 2) ∧
  (nsymOf (hdrOf ((s.lnSymbols port rest).ln port).rx.hdr) ((s.lnSymbols port rest).lnRxQ port ((s.lnSymbols port rest).ln port).rx.hdr) ≤ ((s.lnSymbols port rest).ln port).rx.sym) ∧
  (frameDecode (hdrOf ((s.lnSymbols port rest).ln port).rx.hdr) ((s.lnSymbols port rest).ln port).rx.coded = (b, st, c)) ∧ (st ≠ 2) ∧
  (fcsGood b = true) ∧ (u8 b 0 / 32 = 0) ∧ (u8 b 0 / 2 % 2 = 0) ∧ (lineHeadLen b + 4 ≤ b.length) ∧
  (u8 b (lineHeadLen b - 1) = crc8 (b.take (lineHeadLen b - 1))) ∧ ((linkOf b).2 = 0) ∧ (u8 b 6 / 4 % 8 = u8 b 6 / 32) ∧
  (((s.lnSymbols port rest).ln port).await = none) ∧
  (dupHit ((s.lnSymbols port rest).port port) (s.lnSymbols port rest).now ((s.lnSymbols port rest).getF (Reg.PORT_LN_SEG port) Fld.PORT_LN_SEG_DUP_LIFE * 2 ^ 20) (u16 b 2 % 0x4000, u16 b 4 % 0x4000, u8 b 1, 0) = false) ∧
  (((s.lnSymbols port rest).ptrs port false).same = true) ∧
  ((s.lnSymbols port rest).rxRoom port (8 + (b.length - 4 - lineHeadLen b)) = true) :=
  ⟨5, 7, 3, 0, (lineFrame (lineHead 0 7 0x123 0 0 0 [] none) [1, 2, 3]), [], [3], [512], ((((State.reset.portMod 5 (fun p => { p with line := { rx := { phase := 2, sym := 100, hdr := hdrWord { mode := 0, code := 0, rep := 1, tmi := 0, ilv := 1, len := 15 }, coded := (((puncture 0 0 (convPairs 0 (scrambleFrom 127 (bitsOf (lineFrame (lineHead 0 7 0x123 0 0 0 [] none) [1, 2, 3])) ++ List.replicate 6 false))).flatMap (fun b => List.replicate 4 ((if b then -8 else 8 : Int), false)))) } } })).setF (Reg.PORT_PERSONA 5) Fld.PORT_PERSONA_PERSONA 1).setF (Reg.PORT_CTL 5) Fld.PORT_CTL_EN 1).setF (Reg.PORT_STAT 5) Fld.PORT_STAT_LINK 1), by decide +kernel⟩

/-- The hypotheses of the clause on lineRxDeadlineMiss: a symbol whose soft values are late is erased, and the shortfall is reported. -/
theorem wit_lineRxDeadlineMiss : ∃ (port : Nat) (s : State), (s.lnSymDue port = true) ∧ (s.smp.fifo.length < 256) :=
  ⟨5, ((((State.reset.portMod 5 (fun p => { p with line := { rx := { phase := 2, hdr := (hdrWord { mode := 0, code := 0, rep := 0, tmi := 0, ilv := 1, len := 20 }) } } })).setF (Reg.PORT_PERSONA 5) Fld.PORT_PERSONA_PERSONA 1).setF (Reg.PORT_CTL 5) Fld.PORT_CTL_EN 1).setF (Reg.PORT_STAT 5) Fld.PORT_STAT_LINK 1), by decide +kernel⟩

/-- The hypotheses of the clause on lineTxDeadlineMiss: a payload symbol not ready will go as zeros, and the frame goes on. -/
theorem wit_lineTxDeadlineMiss : ∃ (port sym : Nat) (x : LineTx) (s : State), (4 ≤ sym) ∧ ((s.ln port).tx = some x) ∧
  (s.smp.fifo.length < 256) :=
  ⟨5, 7, {}, ((((State.reset.portMod 5 (fun p => { p with line := { tx := some {} } })).setF (Reg.PORT_PERSONA 5) Fld.PORT_PERSONA_PERSONA 1).setF (Reg.PORT_CTL 5) Fld.PORT_CTL_EN 1).setF (Reg.PORT_STAT 5) Fld.PORT_STAT_LINK 1), by decide +kernel⟩

/-- The hypotheses of the clause on lineTxDeadlineMiss: a header symbol not ready ends the transmission. -/
theorem wit_lineTxDeadlineMiss_hdr : ∃ (port sym : Nat) (x : LineTx) (s : State), (sym < 4) ∧ ((s.ln port).tx = some x) ∧ (x.id = none) :=
  ⟨5, 2, {}, ((((State.reset.portMod 5 (fun p => { p with line := { tx := some {} } })).setF (Reg.PORT_PERSONA 5) Fld.PORT_PERSONA_PERSONA 1).setF (Reg.PORT_CTL 5) Fld.PORT_CTL_EN 1).setF (Reg.PORT_STAT 5) Fld.PORT_STAT_LINK 1), by decide +kernel⟩

/-- The hypotheses of the clause on laneAligned: 32 good words, 8 of them align words, set LINK. -/
theorem wit_laneAligned : ∃ (port : Nat) (words : List Nat) (s : State), (s.laneUser port = true) ∧ (alignedBy words = true) :=
  ⟨5, List.replicate 32 alignWord, ((State.reset.setF (Reg.PORT_PERSONA 5) Fld.PORT_PERSONA_PERSONA 1).setF (Reg.PORT_CTL 5) Fld.PORT_CTL_EN 1), by decide +kernel⟩

/-- The hypotheses of the clause on laneLoss: four bad words in sixteen clear LINK and are recorded. -/
theorem wit_laneLoss : ∃ (port : Nat) (words : List Nat) (s : State), (s.laneUser port = true) ∧ (s.portLink port = true) ∧
  (lostBy words = true) ∧ (s.smp.fifo.length < 256) :=
  ⟨5, List.replicate 16 0, (((State.reset.setF (Reg.PORT_PERSONA 5) Fld.PORT_PERSONA_PERSONA 1).setF (Reg.PORT_CTL 5) Fld.PORT_CTL_EN 1).setF (Reg.PORT_STAT 5) Fld.PORT_STAT_LINK 1), by decide +kernel⟩

/-- The hypotheses of the clause on lineTxPacketTake: a packet is taken to contend with a backoff below its window. -/
theorem wit_lineTxPacketTake : ∃ (port : Nat) (k : TxPkt) (s : State), (s.persona port = 1) ∧ (s.portEn port = true) ∧
  (s.portLoop port = false) ∧ ((s.ptrs port true).same = true) ∧ ((s.port port).txq.find? (fun (x : TxPkt) => !x.taken) = some k) ∧
  ((s.ln port).jobs = []) ∧ (pktGood k.bytes = true) ∧ (pktFlag k.bytes 4 = false) ∧ (pktFlag k.bytes 5 = false) ∧
  (k.bytes.length ≤ 40 + 8192) ∧
  (s.segCount port (s.lnSettings port (pktLink k.bytes 1) 1) (7 + 2 * (pktRoute k.bytes 1).length) (k.bytes.length - 40) 1 16 ≤ 16) :=
  ⟨5, { id := 3, bytes := List.replicate 40 0 ++ [1, 2, 3] }, ((((State.reset.portMod 5 (fun p => { p with txq := [{ id := 3, bytes := List.replicate 40 0 ++ [1, 2, 3] }] })).setF (Reg.PORT_PERSONA 5) Fld.PORT_PERSONA_PERSONA 1).setF (Reg.PORT_CTL 5) Fld.PORT_CTL_EN 1).setF (Reg.PORT_STAT 5) Fld.PORT_STAT_LINK 1), by decide +kernel⟩

/-- The hypotheses of the clause on contentionSlot: a packet whose backoff is used up starts in its window. -/
theorem wit_contentionSlot : ∃ (port : Nat) (j : LineJob) (f : Bytes) (s : State), (s.lnOn port = true) ∧ (s.lnIdle port = true) ∧
  ((s.ln port).jobs.find? (fun (x : LineJob) => decide (x.b = 0) && decide (pktClass x.prefixBytes = s.lnWindow port (s.ln port).slot) && !s.lnProtected port x && s.lnMay port) = some j) ∧
  (s.lnFrameOf port j = some f) :=
  ⟨5, { id := 3, prefixBytes := List.replicate 40 0, segs := [[1, 2]], cw := 4 }, lineFrame (lineHead 0 0 0 0 0 0 [] none) [1, 2], ((((State.reset.portMod 5 (fun p => { p with line := { jobs := [{ id := 3, prefixBytes := List.replicate 40 0, segs := [[1, 2]], cw := 4 }], slot := 24 } })).setF (Reg.PORT_PERSONA 5) Fld.PORT_PERSONA_PERSONA 1).setF (Reg.PORT_CTL 5) Fld.PORT_CTL_EN 1).setF (Reg.PORT_STAT 5) Fld.PORT_STAT_LINK 1), by decide +kernel⟩

/-- The hypotheses of the clause on contentionSlot: an idle slot passes and backoffs of its class count down. -/
theorem wit_contentionSlot_idle : ∃ (port : Nat) (s : State), (s.lnOn port = true) ∧ (s.lnIdle port = true) ∧
  (∀ j ∈ (s.ln port).jobs, 0 < j.b) :=
  ⟨5, ((((State.reset.portMod 5 (fun p => { p with line := { jobs := [{ b := 2 }] } })).setF (Reg.PORT_PERSONA 5) Fld.PORT_PERSONA_PERSONA 1).setF (Reg.PORT_CTL 5) Fld.PORT_CTL_EN 1).setF (Reg.PORT_STAT 5) Fld.PORT_STAT_LINK 1), by decide +kernel⟩

/-- The hypotheses of the clause on lineTxEnd: TX_EN falls after the frame's samples; a frame that asks for a response waits for it. -/
theorem wit_lineTxEnd : ∃ (port first : Nat) (x : LineTx) (s : State), ((s.ln port).tx = some x) ∧ (x.ack = true) :=
  ⟨5, 3, { id := some 3, ack := true }, ((((State.reset.portMod 5 (fun p => { p with line := { tx := some { id := some 3, ack := true } } })).setF (Reg.PORT_PERSONA 5) Fld.PORT_PERSONA_PERSONA 1).setF (Reg.PORT_CTL 5) Fld.PORT_CTL_EN 1).setF (Reg.PORT_STAT 5) Fld.PORT_STAT_LINK 1), by decide +kernel⟩

/-- The hypotheses of the clause on lineTxEnd: the last segment of a packet that asks for none completes it. -/
theorem wit_lineTxEnd_done : ∃ (port first : Nat) (x : LineTx) (j : LineJob) (k : TxPkt) (s : State), ((s.ln port).tx = some x) ∧
  (x.ack = false) ∧ (x.id.bind (s.ln port).job = some j) ∧ (j.segs.length ≤ j.seg + 1) ∧ ((s.port port).pkt j.id = some k) :=
  ⟨5, 3, { id := some 3 }, { id := 3, prefixBytes := List.replicate 40 0, segs := [[1, 2]], cw := 4 }, { id := 3, bytes := List.replicate 40 0 ++ [1, 2, 3] }, ((((State.reset.portMod 5 (fun p => { p with txq := [{ id := 3, bytes := List.replicate 40 0 ++ [1, 2, 3] }], line := { tx := some { id := some 3 }, jobs := [{ id := 3, prefixBytes := List.replicate 40 0, segs := [[1, 2]], cw := 4 }] } })).setF (Reg.PORT_PERSONA 5) Fld.PORT_PERSONA_PERSONA 1).setF (Reg.PORT_CTL 5) Fld.PORT_CTL_EN 1).setF (Reg.PORT_STAT 5) Fld.PORT_STAT_LINK 1), by decide +kernel⟩

/-- The hypotheses of the clause on responseSend: the response owed goes out. -/
theorem wit_responseSend : ∃ (port : Nat) (r : LineResp) (s : State), ((s.ln port).resp = some r) ∧ (s.lnOn port = true) ∧
  (s.mayTransmit = true) ∧ (s.portDrain port = false) ∧ ((s.ln port).tx = none) ∧
  ((s.ln port).offers.find? (fun (e : Nat × ToneMap) => decide (e.1 = r.dst)) = none) :=
  ⟨5, { type := 1, seq := 7, seg := 0, snr := 20, dst := 9 }, ((((State.reset.portMod 5 (fun p => { p with line := { resp := some { type := 1, seq := 7, seg := 0, snr := 20, dst := 9 } } })).setF (Reg.PORT_PERSONA 5) Fld.PORT_PERSONA_PERSONA 1).setF (Reg.PORT_CTL 5) Fld.PORT_CTL_EN 1).setF (Reg.PORT_STAT 5) Fld.PORT_STAT_LINK 1), by decide +kernel⟩

/-- The hypotheses of the clause on responseWindowEnd: a missing response is counted, and the next attempt contends. -/
theorem wit_responseWindowEnd : ∃ (port id : Nat) (j : LineJob) (s : State), (s.persona port = 1) ∧ ((s.ln port).await = some id) ∧
  ((s.ln port).job id = some j) ∧ (j.attempt ≤ s.lnLimit port j) ∧ ((s.ln port).rx.phase = 0) :=
  ⟨5, 3, { id := 3, prefixBytes := List.replicate 40 0, segs := [[1, 2]], cw := 4 }, ((((State.reset.portMod 5 (fun p => { p with line := { await := some 3, reserved := true, jobs := [{ id := 3, prefixBytes := List.replicate 40 0, segs := [[1, 2]], cw := 4 }] } })).setF (Reg.PORT_PERSONA 5) Fld.PORT_PERSONA_PERSONA 1).setF (Reg.PORT_CTL 5) Fld.PORT_CTL_EN 1).setF (Reg.PORT_STAT 5) Fld.PORT_STAT_LINK 1), by decide +kernel⟩

/-- The hypotheses of the clause on lineScheduledLaunch: a scheduled packet starts at its instant when the medium is idle. -/
theorem wit_lineScheduledLaunch : ∃ (port : Nat) (j : LineJob) (f : Bytes) (s : State), (s.lnNextSched port = some j) ∧
  (s.lnMay port = true) ∧ (j.late = false) ∧ (s.now % 2 ^ 32 = s.lnDue port j % 2 ^ 32) ∧ (s.lnFrameOf port j = some f) :=
  ⟨5, { id := 3, prefixBytes := List.replicate 40 0, segs := [[1, 2]], cw := 4 }, lineFrame (lineHead 0 0 0 0 0 0 [] none) [1, 2], (((((State.reset.portMod 5 (fun p => { p with line := { sched := [{ id := 3, prefixBytes := List.replicate 40 0, segs := [[1, 2]], cw := 4 }] } })).setF (Reg.PORT_PERSONA 5) Fld.PORT_PERSONA_PERSONA 1).setF (Reg.PORT_CTL 5) Fld.PORT_CTL_EN 1).setF (Reg.PORT_STAT 5) Fld.PORT_STAT_LINK 1).setF (Reg.PORT_LN_TX 5) Fld.PORT_LN_TX_TXEN_LEAD 0), by decide +kernel⟩

/-- The hypotheses of the clause on lineScheduledLaunch: a busy medium makes it late. -/
theorem wit_lineScheduledLaunch_late : ∃ (port : Nat) (j : LineJob) (s : State), (s.lnNextSched port = some j) ∧ (s.lnOn port = true) ∧
  (s.lnIdle port = false) ∧ (fired s.now (s.lnDue port j) = true) ∧ (j.late = false) :=
  ⟨5, { id := 3, prefixBytes := List.replicate 40 0, segs := [[1, 2]], cw := 4 }, (((((State.reset.portMod 5 (fun p => { p with line := { sched := [{ id := 3, prefixBytes := List.replicate 40 0, segs := [[1, 2]], cw := 4 }], reserved := true } })).setF (Reg.PORT_PERSONA 5) Fld.PORT_PERSONA_PERSONA 1).setF (Reg.PORT_CTL 5) Fld.PORT_CTL_EN 1).setF (Reg.PORT_STAT 5) Fld.PORT_STAT_LINK 1).setF (Reg.PORT_LN_TX 5) Fld.PORT_LN_TX_TXEN_LEAD 0), by decide +kernel⟩

/-- The hypotheses of the clause on reassemblyTimeout: an incomplete message is dropped and counted. -/
theorem wit_reassemblyTimeout : ∃ (port src seq : Nat) (s : State), ((s.ln port).reasm.any (fun x => decide (x.src = src) && decide (x.seq = seq)) = true) :=
  ⟨5, 9, 4, ((((State.reset.portMod 5 (fun p => { p with line := { reasm := [{ src := 9, seq := 4, last := 1, segs := [], started := 0 }] } })).setF (Reg.PORT_PERSONA 5) Fld.PORT_PERSONA_PERSONA 1).setF (Reg.PORT_CTL 5) Fld.PORT_CTL_EN 1).setF (Reg.PORT_STAT 5) Fld.PORT_STAT_LINK 1), by decide +kernel⟩

/-- The hypotheses of the clause on airCycleStart: a coordinator port numbers the cycle and sends its beacon. -/
theorem wit_airCycleStart : ∃ (port : Nat) (receiving : Bool) (s : State), (s.airOn port = true) ∧ (s.persona port = 2) ∧
  (s.mayTransmit = true) :=
  ⟨5, false, ((State.reset.setF (Reg.PORT_PERSONA 5) Fld.PORT_PERSONA_PERSONA 2).setF (Reg.PORT_CTL 5) Fld.PORT_CTL_EN 1), by decide +kernel⟩

/-- The hypotheses of the clause on airTxPacketTake: a packet is taken to contend with a backoff below 2 to the MIN_BE of its class. -/
theorem wit_airTxPacketTake : ∃ (port : Nat) (k : TxPkt) (s : State), (s.airOn port = true) ∧ (s.persona port = 2) ∧
  ((s.ptrs port true).same = true) ∧ ((s.port port).txq.find? (fun (x : TxPkt) => !x.taken) = some k) ∧ (pktGood k.bytes = true) ∧
  (k.bytes.length ≤ 1940) ∧ (pktFlag k.bytes 5 = false) ∧ (pktFlag k.bytes 4 = false) ∧ (s.sleeps port (pktDst k.bytes) = false) ∧
  ((s.ar port).jobs = []) :=
  ⟨5, { id := 3, bytes := List.replicate 40 0 ++ [1, 2, 3] }, (((State.reset.portMod 5 (fun p => { p with txq := [{ id := 3, bytes := List.replicate 40 0 ++ [1, 2, 3] }] })).setF (Reg.PORT_PERSONA 5) Fld.PORT_PERSONA_PERSONA 2).setF (Reg.PORT_CTL 5) Fld.PORT_CTL_EN 1), by decide +kernel⟩

/-- The hypotheses of the clause on airTxPacketTake: a packet for a sleeping meter is held. -/
theorem wit_airTxPacketTake_held : ∃ (port : Nat) (k : TxPkt) (s : State), (s.airOn port = true) ∧ (s.persona port = 2) ∧
  ((s.ptrs port true).same = true) ∧ ((s.port port).txq.find? (fun (x : TxPkt) => !x.taken) = some k) ∧ (pktGood k.bytes = true) ∧
  (k.bytes.length ≤ 1940) ∧ (pktFlag k.bytes 5 = false) ∧ (s.sleeps port (pktDst k.bytes) = true) ∧
  (s.parked port + chunks k.bytes.length ≤ s.getF (Reg.PORT_CTL port) Fld.PORT_CTL_PARK_MAX) :=
  ⟨5, { id := 3, bytes := [0, 0, 9, 0] ++ List.replicate 39 0 }, (((((((State.reset.portMod 5 (fun p => { p with air := {  } })).setF (Reg.PORT_PERSONA 5) Fld.PORT_PERSONA_PERSONA 2).setF (Reg.PORT_CTL 5) Fld.PORT_CTL_EN 1).setF (Reg.PORT_AIR_RDV_LO 5) ⟨0, 0⟩ 1 |>.wrMem (16 * 9) [9, 128, 4, 0, 0, 0, 0, 0, 0, 0, 0, 0, 0, 0, 0, 0])).portMod 5 (fun p => { p with txq := [{ id := 3, bytes := [0, 0, 9, 0] ++ List.replicate 39 0 }] })).setF (Reg.PORT_CTL 5) Fld.PORT_CTL_PARK_MAX 10), by decide +kernel⟩

/-- The hypotheses of the clause on airBackoffExpire: the backoff ends and CCA begins. -/
theorem wit_airBackoffExpire : ∃ (port : Nat) (j : AirJob) (s : State), (s.airOn port = true) ∧ (s.airMay port = true) ∧
  ((s.ar port).jobs.find? (fun (x : AirJob) => decide (x.phase = 0) && !x.down) = some j) :=
  ⟨5, { id := 3, prefixBytes := List.replicate 40 0, body := [1, 2] }, (((State.reset.portMod 5 (fun p => { p with air := { jobs := [{ id := 3, prefixBytes := List.replicate 40 0, body := [1, 2] }] } })).setF (Reg.PORT_PERSONA 5) Fld.PORT_PERSONA_PERSONA 2).setF (Reg.PORT_CTL 5) Fld.PORT_CTL_EN 1), by decide +kernel⟩

/-- The hypotheses of the clause on airCcaDone: an idle channel and room in the region start the frame. -/
theorem wit_airCcaDone : ∃ (port : Nat) (power : Int) (receiving : Bool) (j : AirJob) (f : Bytes) (s : State), ((s.ar port).jobs.find? (fun (x : AirJob) => decide (x.phase = 1)) = some j) ∧
  (s.ccaBusy port power receiving = false) ∧ (s.airFits port j = true) ∧ (s.airLow port = true) ∧
  (s.airFrame port { j with mseq := (s.ar port).macSeq, phase := 2 } = some f) :=
  ⟨5, -120, false, { id := 3, prefixBytes := List.replicate 40 0, body := [1, 2], phase := 1 }, ((State.reset.setF (Reg.PORT_PERSONA 5) Fld.PORT_PERSONA_PERSONA 2).airData 5 false true 0 0 (airHead 0 0 0 0 0 0 [] ++ [1, 2])), ((((State.reset.portMod 5 (fun p => { p with air := { jobs := [{ id := 3, prefixBytes := List.replicate 40 0, body := [1, 2], phase := 1 }] } })).setF (Reg.PORT_PERSONA 5) Fld.PORT_PERSONA_PERSONA 2).setF (Reg.PORT_CTL 5) Fld.PORT_CTL_EN 1).tuMod (fun x => { x with sched := 2 ^ 18 })), by decide +kernel⟩

/-- The hypotheses of the clause on airCcaDone: a busy channel is counted, and a new backoff is drawn. -/
theorem wit_airCcaDone_busy : ∃ (port : Nat) (power : Int) (j : AirJob) (s : State), ((s.ar port).jobs.find? (fun (x : AirJob) => decide (x.phase = 1)) = some j) ∧
  (j.nbTry + 1 ≤ s.airF port (Reg.PORT_AIR_CSMA port) Fld.PORT_AIR_CSMA_MAX_CSMA) ∧ (s.persona port = 2) :=
  ⟨5, 0, { id := 3, prefixBytes := List.replicate 40 0, body := [1, 2], phase := 1 }, ((((State.reset.portMod 5 (fun p => { p with air := { jobs := [{ id := 3, prefixBytes := List.replicate 40 0, body := [1, 2], phase := 1 }] } })).setF (Reg.PORT_PERSONA 5) Fld.PORT_PERSONA_PERSONA 2).setF (Reg.PORT_CTL 5) Fld.PORT_CTL_EN 1).setF (Reg.PORT_AIR_CSMA 5) Fld.PORT_AIR_CSMA_MAX_CSMA 4), by decide +kernel⟩

/-- The hypotheses of the clause on airScheduledLaunch: a scheduled packet is sent at its instant, without CCA, by a free port outside slot 0. -/
theorem wit_airScheduledLaunch : ∃ (port : Nat) (j : AirJob) (f : Bytes) (s : State), (s.arNextSched port = some j) ∧
  (s.airOn port = true) ∧ (j.late = false) ∧ (s.airMay port = true) ∧ (s.airSlot port ≤ s.airPos port) ∧
  (s.now % 2 ^ 32 = s.arDueAt port j % 2 ^ 32) ∧ (s.airFrame port { j with mseq := (s.ar port).macSeq, phase := 2 } = some f) :=
  ⟨5, { id := 3, prefixBytes := List.replicate 40 0, body := [1, 2], phase := 4 }, ((State.reset.setF (Reg.PORT_PERSONA 5) Fld.PORT_PERSONA_PERSONA 2).airData 5 false true 0 0 (airHead 0 0 0 0 0 0 [] ++ [1, 2])), (((((State.reset.portMod 5 (fun p => { p with air := { sched := [{ id := 3, prefixBytes := List.replicate 40 0, body := [1, 2], phase := 4 }], cyc0 := 2 ^ 31 } })).setF (Reg.PORT_PERSONA 5) Fld.PORT_PERSONA_PERSONA 2).setF (Reg.PORT_CTL 5) Fld.PORT_CTL_EN 1).setF (Reg.PORT_AIR_WAKE 5) Fld.PORT_AIR_WAKE_TXEN_LEAD 0).tuMod (fun x => { x with sched := 0 })), by decide +kernel⟩

/-- The hypotheses of the clause on airScheduledLaunch: a reception makes it late. -/
theorem wit_airScheduledLaunch_late : ∃ (port : Nat) (j : AirJob) (s : State), (s.arNextSched port = some j) ∧ (s.airOn port = true) ∧
  (j.late = false) ∧ (fired s.now (s.arDueAt port j) = true) :=
  ⟨5, { id := 3, prefixBytes := List.replicate 40 0, body := [1, 2], phase := 4 }, ((((State.reset.portMod 5 (fun p => { p with air := { sched := [{ id := 3, prefixBytes := List.replicate 40 0, body := [1, 2], phase := 4 }] } })).setF (Reg.PORT_PERSONA 5) Fld.PORT_PERSONA_PERSONA 2).setF (Reg.PORT_CTL 5) Fld.PORT_CTL_EN 1).setF (Reg.PORT_AIR_WAKE 5) Fld.PORT_AIR_WAKE_TXEN_LEAD 0), by decide +kernel⟩

/-- The hypotheses of the clause on airFrameReceive: a frame whose FCS fails is counted and discarded. -/
theorem wit_airFrameReceive_fcs : ∃ (port snr low level mcs : Nat) (psdu : Bytes) (fcs2 : Bool) (s : State), (s.airOn port = true) ∧
  ((s.port port).txen = false) ∧ (s.portDrain port = false) ∧
  (psdu.drop (psdu.length - (if fcs2 then 2 else 4)) ≠ airFcs fcs2 (psdu.take (psdu.length - (if fcs2 then 2 else 4)))) :=
  ⟨5, 0, 0, 0, 0, [1, 2, 3, 4, 5, 6, 7, 8, 9], false, ((State.reset.setF (Reg.PORT_PERSONA 5) Fld.PORT_PERSONA_PERSONA 2).setF (Reg.PORT_CTL 5) Fld.PORT_CTL_EN 1), by decide +kernel⟩

/-- The hypotheses of the clause on airFrameReceive: a new data frame for the device enters the receive queue with its prefix. -/
theorem wit_airFrameReceive : ∃ (port snr low level mcs : Nat) (psdu b : Bytes) (fcs2 : Bool) (m : AirMac) (s : State), (s.airOn port = true) ∧
  ((s.port port).txen = false) ∧ (s.portDrain port = false) ∧ (psdu = b ++ airFcs fcs2 b) ∧ (3 ≤ b.length) ∧ (airParse b = some m) ∧
  (m.pan = some (s.pan port)) ∧ (m.type = 1) ∧ (m.ar = false) ∧ (m.dst = some (s.airSelf port)) ∧
  (bit (s.raw (Reg.PORT_AIR_RDV_LO port)) 0 = false) ∧ (u8 m.payload 0 / 32 = 0) ∧ (u8 m.payload 6 / 4 % 8 = u8 m.payload 6 / 32) ∧
  (7 + 2 * (u8 m.payload 6 / 32) ≤ m.payload.length) ∧
  (dupHit (s.port port) s.now (8 * 2 ^ 20) (u16 m.payload 2 % 0x4000, u16 m.payload 4 % 0x4000, u8 m.payload 1, 0) = false) ∧
  ((s.ptrs port false).same = true) ∧ (s.rxRoom port (8 + (m.payload.drop (7 + 2 * (u8 m.payload 6 / 32))).length) = true) :=
  ⟨5, 20, 18, 30, 0, (bytesLE 2 (airFc 1 false false true 2 2) ++ [7] ++ bytesLE 2 0 ++ bytesLE 2 0 ++ bytesLE 2 9 ++ (airHead 0 0 5 9 0 0 [] ++ [1, 2, 3])) ++ airFcs false (bytesLE 2 (airFc 1 false false true 2 2) ++ [7] ++ bytesLE 2 0 ++ bytesLE 2 0 ++ bytesLE 2 9 ++ (airHead 0 0 5 9 0 0 [] ++ [1, 2, 3])), (bytesLE 2 (airFc 1 false false true 2 2) ++ [7] ++ bytesLE 2 0 ++ bytesLE 2 0 ++ bytesLE 2 9 ++ (airHead 0 0 5 9 0 0 [] ++ [1, 2, 3])), false, { type := 1, pend := false, ar := false, seq := 7, pan := some 0, dst := some 0, src := some 9, payload := airHead 0 0 5 9 0 0 [] ++ [1, 2, 3] }, ((State.reset.setF (Reg.PORT_PERSONA 5) Fld.PORT_PERSONA_PERSONA 2).setF (Reg.PORT_CTL 5) Fld.PORT_CTL_EN 1), by decide +kernel⟩

/-- The hypotheses of the clause on airEnhAckSend: the Enh-Ack owed goes out. -/
theorem wit_airEnhAckSend : ∃ (port dst seq : Nat) (pend : Bool) (s : State), ((s.ar port).ack = some (dst, seq, pend)) ∧
  (s.airOn port = true) ∧ (s.mayTransmit = true) ∧ (s.portDrain port = false) ∧ ((s.ar port).tx = none) :=
  ⟨5, 9, 7, false, (((State.reset.portMod 5 (fun p => { p with air := { ack := some (9, 7, false) } })).setF (Reg.PORT_PERSONA 5) Fld.PORT_PERSONA_PERSONA 2).setF (Reg.PORT_CTL 5) Fld.PORT_CTL_EN 1), by decide +kernel⟩

/-- The hypotheses of the clause on airTxEnd: a unicast frame that has been sent waits for its Enh-Ack. -/
theorem wit_airTxEnd : ∃ (port id : Nat) (j : AirJob) (s : State), ((s.ar port).tx = some (1, id)) ∧ ((s.ar port).job id = some j) ∧
  (j.type ≠ 4) :=
  ⟨5, 3, { id := 3, prefixBytes := List.replicate 40 0, body := [1, 2], phase := 2 }, (((State.reset.portMod 5 (fun p => { p with air := { tx := some (1, 3), jobs := [{ id := 3, prefixBytes := List.replicate 40 0, body := [1, 2], phase := 2 }] } })).setF (Reg.PORT_PERSONA 5) Fld.PORT_PERSONA_PERSONA 2).setF (Reg.PORT_CTL 5) Fld.PORT_CTL_EN 1), by decide +kernel⟩

/-- The hypotheses of the clause on airAckTimeout: a missing Enh-Ack is counted, and the next attempt contends. -/
theorem wit_airAckTimeout : ∃ (port : Nat) (j : AirJob) (s : State), ((s.ar port).jobs.find? (fun (x : AirJob) => decide (x.phase = 3)) = some j) ∧
  (j.attempt ≤ s.arLimit port j) ∧ (j.down = false) :=
  ⟨5, { id := 3, prefixBytes := List.replicate 40 0, body := [1, 2], phase := 3 }, ((((State.reset.portMod 5 (fun p => { p with air := { jobs := [{ id := 3, prefixBytes := List.replicate 40 0, body := [1, 2], phase := 3 }] } })).setF (Reg.PORT_PERSONA 5) Fld.PORT_PERSONA_PERSONA 2).setF (Reg.PORT_CTL 5) Fld.PORT_CTL_EN 1).setF (Reg.PORT_AIR_CSMA 5) Fld.PORT_AIR_CSMA_MAX_RETRY 3), by decide +kernel⟩

/-- The hypotheses of the clause on airRxDeadlineMiss: a receive block that is late is a shortfall. -/
theorem wit_airRxDeadlineMiss : ∃ (port : Nat) (s : State), (s.airOn port = true) ∧ (s.smp.fifo.length < 256) :=
  ⟨5, ((State.reset.setF (Reg.PORT_PERSONA 5) Fld.PORT_PERSONA_PERSONA 2).setF (Reg.PORT_CTL 5) Fld.PORT_CTL_EN 1), by decide +kernel⟩

/-- The hypotheses of the clause on airTxDeadlineMiss: a transmit block that is late ends the frame. -/
theorem wit_airTxDeadlineMiss : ∃ (port kind id : Nat) (s : State), ((s.ar port).tx = some (kind, id)) :=
  ⟨5, 5, 0, (((State.reset.portMod 5 (fun p => { p with air := { tx := some (5, 0) } })).setF (Reg.PORT_PERSONA 5) Fld.PORT_PERSONA_PERSONA 2).setF (Reg.PORT_CTL 5) Fld.PORT_CTL_EN 1), by decide +kernel⟩

/-- The hypotheses of the clause on floodRelaySend: a member relays a flood once, in the broadcast region. -/
theorem wit_floodRelaySend : ∃ (port : Nat) (power : Int) (receiving : Bool) (r : Relay) (rest : List Relay) (s : State), ((s.ar port).relays = r :: rest) ∧
  (s.persona port = 3) ∧ (fired s.now r.due = true) ∧ (s.airLow port = true) ∧
  ((s.airRoom port ((s.relayFrame port (usTicks (s.airLead port) + s.airShr port) r).length + s.fcsLen port)).1 = true) ∧
  (s.ccaBusy port power receiving = false) :=
  ⟨5, -120, false, { body := List.replicate 16 32, orig := 9, seq := 1, since := 0, due := 0 }, [], (((((State.reset.portMod 5 (fun p => { p with air := { relays := [{ body := List.replicate 16 32, orig := 9, seq := 1, since := 0, due := 0 }] } })).setF (Reg.PORT_PERSONA 5) Fld.PORT_PERSONA_PERSONA 3).setF (Reg.PORT_CTL 5) Fld.PORT_CTL_EN 1).setF (Reg.PORT_AIR_SYNC_STAT 5) Fld.PORT_AIR_SYNC_STAT_STATE 2).tuMod (fun x => { x with sched := 17000 })), by decide +kernel⟩

/-- The hypotheses of the clause on rendezvousWindowOpen: a window opens around the meter's rendezvous. -/
theorem wit_rendezvousWindowOpen : ∃ (port addr tr g : Nat) (e : Bytes) (s : State), (s.rdvEntry port addr = some e) ∧
  (s.airOn port = true) ∧ (0 < u8 e 2) ∧ (s.rdvTr port e s.taiTick = tr) ∧ (s.rdvWidth port addr e tr = some g) ∧
  (tr ≤ s.taiTick + usTicks g) :=
  ⟨5, 9, 0, 2000, [9, 128, 4, 0, 0, 0, 0, 0, 0, 0, 0, 0, 0, 0, 0, 0], (((((State.reset.portMod 5 (fun p => { p with air := {  } })).setF (Reg.PORT_PERSONA 5) Fld.PORT_PERSONA_PERSONA 2).setF (Reg.PORT_CTL 5) Fld.PORT_CTL_EN 1).setF (Reg.PORT_AIR_RDV_LO 5) ⟨0, 0⟩ 1 |>.wrMem (16 * 9) [9, 128, 4, 0, 0, 0, 0, 0, 0, 0, 0, 0, 0, 0, 0, 0]).setF (Reg.PORT_AIR_GUARD 5) Fld.PORT_AIR_GUARD_GMAX 100), by decide +kernel⟩

/-- The hypotheses of the clause on rendezvousWindowEnd: a window with a contact closes. -/
theorem wit_rendezvousWindowEnd : ∃ (port addr tx : Nat) (w : RdvWindow) (s : State), ((s.ar port).windows.find? (fun (x : RdvWindow) => decide (x.addr = addr)) = some w) ∧
  (w.contact = true) ∧ (4 * tx ≤ 2 * w.g + (s.airNs port 0).1 / 1000) :=
  ⟨5, 9, 0, { addr := 9, g := 10, opens := 0, tr := 5, closes := 9, contact := true }, (((State.reset.portMod 5 (fun p => { p with air := { windows := [{ addr := 9, g := 10, opens := 0, tr := 5, closes := 9, contact := true }] } })).setF (Reg.PORT_PERSONA 5) Fld.PORT_PERSONA_PERSONA 2).setF (Reg.PORT_CTL 5) Fld.PORT_CTL_EN 1), by decide +kernel⟩

/-- The hypotheses of the clause on rendezvousWindowEnd: a window without one is a missed rendezvous. -/
theorem wit_rendezvousWindowEnd_miss : ∃ (port addr tx : Nat) (w : RdvWindow) (e : Bytes) (s : State), ((s.ar port).windows.find? (fun (x : RdvWindow) => decide (x.addr = addr)) = some w) ∧
  (w.contact = false) ∧ (4 * tx ≤ 2 * w.g + (s.airNs port 0).1 / 1000) ∧ (s.rdvEntry port addr = some e) ∧ (u8 e 6 % 4 ≠ 3) :=
  ⟨5, 9, 0, { addr := 9, g := 10, opens := 0, tr := 5, closes := 9, contact := false }, [9, 128, 4, 0, 0, 0, 0, 0, 0, 0, 0, 0, 0, 0, 0, 0], ((((State.reset.portMod 5 (fun p => { p with air := { windows := [{ addr := 9, g := 10, opens := 0, tr := 5, closes := 9, contact := false }] } })).setF (Reg.PORT_PERSONA 5) Fld.PORT_PERSONA_PERSONA 2).setF (Reg.PORT_CTL 5) Fld.PORT_CTL_EN 1).setF (Reg.PORT_AIR_RDV_LO 5) ⟨0, 0⟩ 1 |>.wrMem (16 * 9) [9, 128, 4, 0, 0, 0, 0, 0, 0, 0, 0, 0, 0, 0, 0, 0]), by decide +kernel⟩

/-- The hypotheses of the clause on wakeTrainStart: a wake-up train begins. -/
theorem wit_wakeTrainStart : ∃ (port addr len tr : Nat) (e : Bytes) (s : State), (s.rdvEntry port addr = some e) ∧ (s.trainOn port = none) ∧
  (s.airOn port = true) ∧ (0 < u8 e 2) ∧ (u8 e 6 % 4 ≠ 3) ∧
  (s.airF port (Reg.PORT_AIR_WAKE port) Fld.PORT_AIR_WAKE_WUT_LEN * 2 ^ 20 = len) ∧
  (s.rdvTr port e (s.taiTick + len - s.airSlot port) = tr) ∧ (tr ≤ s.taiTick + len) ∧ (s.rdvTrain port e tr = true) :=
  ⟨5, 9, 12582912, 16777216, [9, 128, 4, 0, 0, 0, 2, 0, 0, 0, 0, 0, 0, 0, 0, 0], (((((State.reset.portMod 5 (fun p => { p with air := {  } })).setF (Reg.PORT_PERSONA 5) Fld.PORT_PERSONA_PERSONA 2).setF (Reg.PORT_CTL 5) Fld.PORT_CTL_EN 1).setF (Reg.PORT_AIR_RDV_LO 5) ⟨0, 0⟩ 1 |>.wrMem (16 * 9) [9, 128, 4, 0, 0, 0, 2, 0, 0, 0, 0, 0, 0, 0, 0, 0]).tuMod (fun x => { x with tai := 2 ^ 34 })), by decide +kernel⟩

/-- The hypotheses of the clause on wakeFrameSend: a wake-up frame goes out. -/
theorem wit_wakeFrameSend : ∃ (port a tr : Nat) (s : State), (s.trainOn port = some (a, tr)) ∧ (s.airLow port = true) ∧
  (s.airSlot port ≤ s.airPos port) :=
  ⟨5, 9, 2 ^ 22, ((((State.reset.portMod 5 (fun p => { p with air := { train := some (9, 2 ^ 22) } })).setF (Reg.PORT_PERSONA 5) Fld.PORT_PERSONA_PERSONA 2).setF (Reg.PORT_CTL 5) Fld.PORT_CTL_EN 1).tuMod (fun x => { x with sched := 2 ^ 21 })), by decide +kernel⟩

/-- The hypotheses of the clause on memberBeaconMiss: a missed beacon is counted. -/
theorem wit_memberBeaconMiss : ∃ (port : Nat) (s : State), (s.airOn port = true) ∧ (s.persona port = 3) ∧ (s.airSync port = 2) ∧
  (s.getF (Reg.PORT_AIR_SYNC_STAT port) Fld.PORT_AIR_SYNC_STAT_MISSED < 2) :=
  ⟨5, (((State.reset.setF (Reg.PORT_PERSONA 5) Fld.PORT_PERSONA_PERSONA 3).setF (Reg.PORT_CTL 5) Fld.PORT_CTL_EN 1).setF (Reg.PORT_AIR_SYNC_STAT 5) Fld.PORT_AIR_SYNC_STAT_STATE 2), by decide +kernel⟩

/-- The hypotheses of the clause on memberBeaconMiss: the third loses sync. -/
theorem wit_memberBeaconMiss_lost : ∃ (port : Nat) (s : State), (s.airOn port = true) ∧ (s.persona port = 3) ∧ (s.airSync port = 2) ∧
  (s.getF (Reg.PORT_AIR_SYNC_STAT port) Fld.PORT_AIR_SYNC_STAT_MISSED = 2) :=
  ⟨5, ((((State.reset.setF (Reg.PORT_PERSONA 5) Fld.PORT_PERSONA_PERSONA 3).setF (Reg.PORT_CTL 5) Fld.PORT_CTL_EN 1).setF (Reg.PORT_AIR_SYNC_STAT 5) Fld.PORT_AIR_SYNC_STAT_STATE 2).setF (Reg.PORT_AIR_SYNC_STAT 5) Fld.PORT_AIR_SYNC_STAT_MISSED 2), by decide +kernel⟩

/-- The hypotheses of the clause on memberSearchRound: the next search round has a window twice as long. -/
theorem wit_memberSearchRound : ∃ (port : Nat) (s : State), (s.airOn port = true) ∧ (s.persona port = 3) ∧ (s.airSync port = 3) ∧
  (s.beaconAlways port = false) :=
  ⟨5, ((((State.reset.setF (Reg.PORT_PERSONA 5) Fld.PORT_PERSONA_PERSONA 3).setF (Reg.PORT_CTL 5) Fld.PORT_CTL_EN 1).setF (Reg.PORT_AIR_SYNC_STAT 5) Fld.PORT_AIR_SYNC_STAT_STATE 3).setF (Reg.PORT_AIR_SYNC_STAT 5) Fld.PORT_AIR_SYNC_STAT_ROUND 1), by decide +kernel⟩

/-- The hypotheses of the clause on memberScanTimeout: a scan without a beacon is recorded. -/
theorem wit_memberScanTimeout : ∃ (port : Nat) (s : State), (s.airOn port = true) ∧ (s.persona port = 3) ∧ (s.airSync port = 3) ∧
  (s.beaconAlways port = true) ∧ ((s.ar port).scanned = false) ∧ (s.smp.fifo.length < 256) :=
  ⟨5, ((((State.reset.setF (Reg.PORT_PERSONA 5) Fld.PORT_PERSONA_PERSONA 3).setF (Reg.PORT_CTL 5) Fld.PORT_CTL_EN 1).setF (Reg.PORT_AIR_SYNC_STAT 5) Fld.PORT_AIR_SYNC_STAT_STATE 3).setF (Reg.PORT_AIR_SYNC_STAT 5) Fld.PORT_AIR_SYNC_STAT_ROUND 15), by decide +kernel⟩

/-- The hypotheses of the clause on portBobRxRead: a read takes the next word of the oldest packet, and the packet with its last word. -/
theorem wit_portBobRxRead : ∃ (port : Nat) (k : RxPkt) (r : List RxPkt) (s : State), (s.exists_ (portRegion port) (port % 16) = true) ∧
  (s.isF (Reg.PORT_CTL port) Fld.PORT_CTL_RX_SINK = true) ∧ ((s.ptrs port false).same = true) ∧ ((s.port port).rxq = k :: r) :=
  ⟨5, { bytes := [1,2,3,4,5] }, [], (((State.reset.build (blockPath 1 5) { kind := 3, persona := 1 }).portMod 5 (fun p => { p with rxq := [{ bytes := [1,2,3,4,5] }] })).setF (Reg.PORT_CTL 5) Fld.PORT_CTL_RX_SINK 1), by decide +kernel⟩

/-- The hypotheses of the clause on portBobRxRead: a read of an empty queue repeats the last word and raises UNDERRUN. -/
theorem wit_portBobRxRead_empty : ∃ (port : Nat) (s : State), (s.exists_ (portRegion port) (port % 16) = true) ∧ ((s.port port).rxq = []) :=
  ⟨5, ((State.reset.build (blockPath 1 5) { kind := 3, persona := 1 }).setF (Reg.PORT_CTL 5) Fld.PORT_CTL_RX_SINK 1), by decide +kernel⟩

/-- The hypotheses of the clause on portBobTxWrite: a word joins the packet being written. -/
theorem wit_portBobTxWrite : ∃ (port value : Nat) (s : State), (s.exists_ (portRegion port) (port % 16) = true) ∧
  (s.isF (Reg.PORT_CTL port) Fld.PORT_CTL_DESC_EN = false) ∧ (s.isF (Reg.PORT_CTL port) Fld.PORT_CTL_TX_EOP = false) ∧
  ((s.ptrs port true).same = true) ∧ ((s.port port).txOpen.length % 256 ≠ 0 ∨ s.txFree port ≠ 0) :=
  ⟨5, 0x01020304, ((State.reset.build (blockPath 1 5) { kind := 3, persona := 1 }).setF (Reg.PORT_PERSONA 5) Fld.PORT_PERSONA_PERSONA 1), by decide +kernel⟩

/-- The hypotheses of the clause on portBobTxWrite: a word with TX_EOP ends its packet, which enters the queue. -/
theorem wit_portBobTxWrite_eop : ∃ (port value : Nat) (s : State), (s.exists_ (portRegion port) (port % 16) = true) ∧
  (s.isF (Reg.PORT_CTL port) Fld.PORT_CTL_DESC_EN = false) ∧ (s.isF (Reg.PORT_CTL port) Fld.PORT_CTL_TX_EOP = true) ∧
  ((s.ptrs port true).same = true) ∧ ((s.port port).txBad = false) ∧ (s.portLoop port = false) ∧
  ((s.port port).txOpen.length % 256 ≠ 0 ∨ s.txFree port ≠ 0) :=
  ⟨5, 0x01020304, ((((State.reset.build (blockPath 1 5) { kind := 3, persona := 1 }).setF (Reg.PORT_PERSONA 5) Fld.PORT_PERSONA_PERSONA 1).setF (Reg.PORT_CTL 5) Fld.PORT_CTL_TX_EOP 1).setF (Reg.PORT_CTL 5) Fld.PORT_CTL_TX_NB 2), by decide +kernel⟩

/-- The hypotheses of the clause on portEnable: EN goes to 1 and PORT_TIMING shows the latencies of the personality. -/
theorem wit_portEnable : ∃ (port : Nat) (s : State), (s.exists_ (portRegion port) (port % 16) = true) ∧ (s.portEnBit port = false) ∧
  (s.portLoop port = false) :=
  ⟨5, ((State.reset.build (blockPath 1 5) { kind := 3, persona := 1 }).setF (Reg.PORT_PERSONA 5) Fld.PORT_PERSONA_PERSONA 1), by decide +kernel⟩

/-- The hypotheses of the clause on portDisable: EN goes to 0 and TX_EN falls. -/
theorem wit_portDisable : ∃ (port : Nat) (s : State), (s.exists_ (portRegion port) (port % 16) = true) ∧ (s.portEnBit port = true) :=
  ⟨5, (((State.reset.build (blockPath 1 5) { kind := 3, persona := 1 }).portMod 5 (fun p => { p with txen := true })).setF (Reg.PORT_CTL 5) Fld.PORT_CTL_EN 1), by decide +kernel⟩

/-- The hypotheses of the clause on portRxReset: the receive queue is emptied, and RX_DROP counts its packets. -/
theorem wit_portRxReset : ∃ (port : Nat) (s : State), (s.exists_ (portRegion port) (port % 16) = true) :=
  ⟨5, ((State.reset.build (blockPath 1 5) { kind := 3, persona := 1 }).portMod 5 (fun p => { p with rxq := [{ bytes := [1] }, { bytes := [2] }] })), by decide +kernel⟩

/-- The hypotheses of the clause on portTxReset: the transmit queue and the packet being written are emptied. -/
theorem wit_portTxReset : ∃ (port : Nat) (s : State), (s.exists_ (portRegion port) (port % 16) = true) :=
  ⟨5, ((State.reset.build (blockPath 1 5) { kind := 3, persona := 1 }).portMod 5 (fun p => { p with txq := [{ bytes := [1] }, { id := 1, bytes := [2] }], txOpen := [3] })), by decide +kernel⟩

/-- The hypotheses of the clause on portRxSinkOff: RX_SINK goes to 0, and a packet partly read is discarded. -/
theorem wit_portRxSinkOff : ∃ (port : Nat) (s : State), (s.exists_ (portRegion port) (port % 16) = true) ∧
  ((s.ptrs port false).same = true) :=
  ⟨5, (((State.reset.build (blockPath 1 5) { kind := 3, persona := 1 }).portMod 5 (fun p => { p with rxq := [{ bytes := [1], read := 1 }, { bytes := [2] }] })).setF (Reg.PORT_CTL 5) Fld.PORT_CTL_RX_SINK 1), by decide +kernel⟩

/-- The hypotheses of the clause on descFetch: an owned descriptor with a length the port can take is fetched. -/
theorem wit_descFetch : ∃ (port : Nat) (s : State), (s.isF (Reg.PORT_CTL port) Fld.PORT_CTL_DESC_EN = true) ∧
  (s.cons port ≠ s.getF (Reg.PORT_DESC_HEAD port) Fld.PORT_DESC_HEAD_PROD) ∧ ((s.port port).desc = none) ∧
  (u8 (s.rdMem (s.descAddr port (s.cons port)) 16) 10 / 128 = 1) ∧ (0 < u16 (s.rdMem (s.descAddr port (s.cons port)) 16) 8) ∧
  (u16 (s.rdMem (s.descAddr port (s.cons port)) 16) 8 ≤ s.txLimit port) :=
  ⟨5, ((((State.reset.setF (Reg.PORT_CTL 5) Fld.PORT_CTL_DESC_EN 1).setF (Reg.PORT_DESC_HEAD 5) Fld.PORT_DESC_HEAD_PROD 1).setF (Reg.PORT_DESC_BASE 5) Fld.PORT_DESC_BASE_RING_LOG2 4).wrMem 8 [100, 0, 128]), by decide +kernel⟩

/-- The hypotheses of the clause on descFetch: a descriptor that the mover does not own stops it. -/
theorem wit_descFetch_stop : ∃ (port : Nat) (s : State), (s.isF (Reg.PORT_CTL port) Fld.PORT_CTL_DESC_EN = true) ∧
  (s.cons port ≠ s.getF (Reg.PORT_DESC_HEAD port) Fld.PORT_DESC_HEAD_PROD) ∧ ((s.port port).desc = none) ∧
  (u8 (s.rdMem (s.descAddr port (s.cons port)) 16) 10 / 128 = 0) :=
  ⟨5, (((State.reset.setF (Reg.PORT_CTL 5) Fld.PORT_CTL_DESC_EN 1).setF (Reg.PORT_DESC_HEAD 5) Fld.PORT_DESC_HEAD_PROD 1).setF (Reg.PORT_DESC_BASE 5) Fld.PORT_DESC_BASE_RING_LOG2 4), by decide +kernel⟩

/-- The hypotheses of the clause on descCopy: a fetched descriptor's packet is copied into the queue, and CONS advances. -/
theorem wit_descCopy : ∃ (port : Nat) (d : Bytes) (s : State), ((s.port port).desc = some d) ∧ (chunks (u16 d 8) ≤ s.txFree port) ∧
  ((s.ptrs port true).same = true) ∧ (s.portLoop port = false) :=
  ⟨5, [0, 16, 0, 0, 0, 0, 0, 0, 4, 0, 128, 0, 0, 0, 0, 0], ((((State.reset.setF (Reg.PORT_CTL 5) Fld.PORT_CTL_DESC_EN 1).setF (Reg.PORT_DESC_HEAD 5) Fld.PORT_DESC_HEAD_PROD 1).setF (Reg.PORT_DESC_BASE 5) Fld.PORT_DESC_BASE_RING_LOG2 4).setF (Reg.PORT_PERSONA 5) Fld.PORT_PERSONA_PERSONA 1).portMod 5 (fun p => { p with desc := some [0, 16, 0, 0, 0, 0, 0, 0, 4, 0, 128, 0, 0, 0, 0, 0] }), by decide +kernel⟩

/-- The hypotheses of the clause on descComplete: a completed packet leaves the queue, and its descriptor holds the status. -/
theorem wit_descComplete : ∃ (port index code : Nat) (k : TxPkt) (s : State), ((s.port port).txq.find? (fun (x : TxPkt) => decide (x.desc = some index)) = some k) ∧
  ((s.port port).pkt k.id = some k) ∧ (code ≤ 11) ∧ ((s.ptrs port true).same = true) :=
  ⟨5, 0, 7, { id := 3, bytes := [1], desc := some 0 }, (State.reset.portMod 5 (fun p => { p with txq := [{ id := 3, bytes := [1], desc := some 0 }] })), by decide +kernel⟩

/-- The hypotheses of the clause on casCommaAlign: comma alignment takes STATE 1 to 2. -/
theorem wit_casCommaAlign : ∃ (port : Nat) (s : State), (s.persona port = 4) ∧ (s.portEn port = true) ∧ (s.casState port = 1) :=
  ⟨5, (((State.reset.setF (Reg.PORT_PERSONA 5) Fld.PORT_PERSONA_PERSONA 4).setF (Reg.PORT_CTL 5) Fld.PORT_CTL_EN 1).setF (Reg.PORT_CAS_STAT 5) Fld.PORT_CAS_STAT_STATE 1), by decide +kernel⟩

/-- The hypotheses of the clause on casHelloTimer: HELLO goes out with the device's index. -/
theorem wit_casHelloTimer : ∃ (port : Nat) (s : State), (s.persona port = 4) ∧ (s.casState port = 2) :=
  ⟨5, (((State.reset.setF (Reg.PORT_PERSONA 5) Fld.PORT_PERSONA_PERSONA 4).setF (Reg.PORT_CTL 5) Fld.PORT_CTL_EN 1).setF (Reg.PORT_CAS_STAT 5) Fld.PORT_CAS_STAT_STATE 2), by decide +kernel⟩

/-- The hypotheses of the clause on casHelloReceive: a valid HELLO takes STATE 2 to 3 and sets LINK. -/
theorem wit_casHelloReceive : ∃ (port : Nat) (codes : List Nat) (bytes : Bytes) (s : State), (s.persona port = 4) ∧ (s.portEn port = true) ∧
  (s.casState port = 2) ∧ (s.fab.job = none) ∧ (casRead codes = { bytes := bytes, ended := true }) ∧ (casGood bytes = true) ∧
  (u8 bytes 0 = 4) ∧ (u16 bytes 2 = 8) ∧ (u8 bytes 14 = 1) :=
  ⟨5, (codesOf false 0 (kSof :: (casFrame 4 0 0 0 [7, 0, 1, 0, 0, 0, 0, 0]) ++ bytesLE 4 (crc32c (casFrame 4 0 0 0 [7, 0, 1, 0, 0, 0, 0, 0])) ++ [kEof])).1, (casFrame 4 0 0 0 [7, 0, 1, 0, 0, 0, 0, 0]) ++ bytesLE 4 (crc32c (casFrame 4 0 0 0 [7, 0, 1, 0, 0, 0, 0, 0])), (((State.reset.setF (Reg.PORT_PERSONA 5) Fld.PORT_PERSONA_PERSONA 4).setF (Reg.PORT_CTL 5) Fld.PORT_CTL_EN 1).setF (Reg.PORT_CAS_STAT 5) Fld.PORT_CAS_STAT_STATE 2), by decide +kernel⟩

/-- The hypotheses of the clause on casLinkDown: a link that goes down is counted and recorded, and an enabled port searches again. -/
theorem wit_casLinkDown : ∃ (port viol : Nat) (s : State), (s.persona port = 4) ∧ (s.portEn port = true) ∧ (s.casState port ≠ 0) ∧
  (s.smp.fifo.length < 256) :=
  ⟨5, 8, (((State.reset.setF (Reg.PORT_PERSONA 5) Fld.PORT_PERSONA_PERSONA 4).setF (Reg.PORT_CTL 5) Fld.PORT_CTL_EN 1).setF (Reg.PORT_CAS_STAT 5) Fld.PORT_CAS_STAT_STATE 3), by decide +kernel⟩

/-- The hypotheses of the clause on casCreditReceive: a CREDIT sequence carries the partner's count. -/
theorem wit_casCreditReceive : ∃ (port lo hi crc : Nat) (s : State), (s.persona port = 4) ∧ (2 ≤ s.casState port) ∧
  (crc % 256 = crc8 [lo % 256, hi % 256]) :=
  ⟨5, 0x24, 1, crc8 [0x24, 1], (((State.reset.setF (Reg.PORT_PERSONA 5) Fld.PORT_PERSONA_PERSONA 4).setF (Reg.PORT_CTL 5) Fld.PORT_CTL_EN 1).setF (Reg.PORT_CAS_STAT 5) Fld.PORT_CAS_STAT_STATE 3), by decide +kernel⟩

/-- The hypotheses of the clause on casCreditSend: a CREDIT sequence with the own count goes out. -/
theorem wit_casCreditSend : ∃ (port : Nat) (s : State), (s.persona port = 4) ∧ (s.casState port = 3) ∧ ((s.port port).cas.tx = none) :=
  ⟨5, (((State.reset.setF (Reg.PORT_PERSONA 5) Fld.PORT_PERSONA_PERSONA 4).setF (Reg.PORT_CTL 5) Fld.PORT_CTL_EN 1).setF (Reg.PORT_CAS_STAT 5) Fld.PORT_CAS_STAT_STATE 3), by decide +kernel⟩

/-- The hypotheses of the clause on casFrameReceive: a good meter frame enters the receive queue whole, less its CRC. -/
theorem wit_casFrameReceive : ∃ (port sof stop : Nat) (codes : List Nat) (bytes : Bytes) (s : State), (s.persona port = 4) ∧
  (s.portEn port = true) ∧ (s.casState port = 3) ∧ (s.fab.job = none) ∧
  (casRead (sof :: codes ++ [stop]) = { bytes := bytes, ended := true }) ∧ (s.casSeen port bytes = false) ∧ (casGood bytes = true) ∧
  (u8 bytes 0 = 0) ∧ ((s.ptrs port false).same = true) ∧ (s.rxRoom port (12 + u16 bytes 2) = true) :=
  ⟨5, ((codesOf false 0 (kSof :: (casFrame 0 0 9 1 [1, 2, 3]) ++ bytesLE 4 (crc32c (casFrame 0 0 9 1 [1, 2, 3])) ++ [kEof])).1).getD 0 0, ((codesOf false 0 (kSof :: (casFrame 0 0 9 1 [1, 2, 3]) ++ bytesLE 4 (crc32c (casFrame 0 0 9 1 [1, 2, 3])) ++ [kEof])).1).getLastD 0, (((codesOf false 0 (kSof :: (casFrame 0 0 9 1 [1, 2, 3]) ++ bytesLE 4 (crc32c (casFrame 0 0 9 1 [1, 2, 3])) ++ [kEof])).1).drop 1).dropLast, (casFrame 0 0 9 1 [1, 2, 3]) ++ bytesLE 4 (crc32c (casFrame 0 0 9 1 [1, 2, 3])), (((State.reset.setF (Reg.PORT_PERSONA 5) Fld.PORT_PERSONA_PERSONA 4).setF (Reg.PORT_CTL 5) Fld.PORT_CTL_EN 1).setF (Reg.PORT_CAS_STAT 5) Fld.PORT_CAS_STAT_STATE 3), by decide +kernel⟩

/-- The hypotheses of the clause on casFrameReceive: a frame with a code violation is counted and discarded. -/
theorem wit_casFrameReceive_viol : ∃ (port sof stop : Nat) (codes : List Nat) (s : State), (s.persona port = 4) ∧ (s.portEn port = true) ∧
  (2 ≤ s.casState port) ∧ (s.fab.job = none) ∧ ((casRead (sof :: codes ++ [stop])).viol ≠ 0) :=
  ⟨5, 0, 0, [0], (((State.reset.setF (Reg.PORT_PERSONA 5) Fld.PORT_PERSONA_PERSONA 4).setF (Reg.PORT_CTL 5) Fld.PORT_CTL_EN 1).setF (Reg.PORT_CAS_STAT 5) Fld.PORT_CAS_STAT_STATE 3), by decide +kernel⟩

/-- The hypotheses of the clause on casFrameSend: the oldest frame goes out under the next CSEQ and uses its credit. -/
theorem wit_casFrameSend : ∃ (port : Nat) (k : TxPkt) (s : State), (s.persona port = 4) ∧ (s.portEn port = true) ∧
  (s.portLoop port = false) ∧ (s.portDrain port = false) ∧ ((s.ptrs port true).same = true) ∧
  ((s.port port).txq.find? (fun (x : TxPkt) => x.again || !x.taken) = some k) ∧ (k.again = false) ∧ (k.cseq = none) ∧
  (casRefused k.bytes = false) ∧ (s.casState port = 3) ∧ ((s.port port).cas.results = []) ∧ (chunks k.bytes.length ≤ s.casCredit port) ∧
  (s.mayTransmit = true) :=
  ⟨5, { id := 3, bytes := casFrame 0 0 0 1 [1, 2, 3] }, ((((State.reset.portMod 5 (fun p => { p with txq := [{ id := 3, bytes := casFrame 0 0 0 1 [1, 2, 3] }], cas := { advP := 10 } })).setF (Reg.PORT_PERSONA 5) Fld.PORT_PERSONA_PERSONA 4).setF (Reg.PORT_CTL 5) Fld.PORT_CTL_EN 1).setF (Reg.PORT_CAS_STAT 5) Fld.PORT_CAS_STAT_STATE 3), by decide +kernel⟩

/-- The hypotheses of the clause on casCommitTimeout: a frame without a result is resent under its CSEQ with RESEND = 1. -/
theorem wit_casCommitTimeout : ∃ (port cseq : Nat) (k : TxPkt) (s : State), ((s.port port).txq.find? (fun (x : TxPkt) => x.held && decide (x.cseq = some cseq)) = some k) ∧
  (k.resends < s.getF (Reg.PORT_CAS_CFG port) Fld.PORT_CAS_CFG_MAX_RESEND) ∧ (s.casState port = 3) ∧
  (chunks k.bytes.length ≤ s.casCredit port) ∧ (s.mayTransmit = true) ∧ (k.cseq = some cseq) :=
  ⟨5, 7, { id := 3, bytes := casFrame 0 0 7 1 [1, 2, 3], taken := true, held := true, cseq := some 7 }, (((((State.reset.portMod 5 (fun p => { p with txq := [{ id := 3, bytes := casFrame 0 0 7 1 [1, 2, 3], taken := true, held := true, cseq := some 7 }], cas := { advP := 10 } })).setF (Reg.PORT_PERSONA 5) Fld.PORT_PERSONA_PERSONA 4).setF (Reg.PORT_CTL 5) Fld.PORT_CTL_EN 1).setF (Reg.PORT_CAS_STAT 5) Fld.PORT_CAS_STAT_STATE 3).setF (Reg.PORT_CAS_CFG 5) Fld.PORT_CAS_CFG_MAX_RESEND 2), by decide +kernel⟩

/-- The hypotheses of the clause on casCommitTimeout: a frame whose resends are used up leaves the queue. -/
theorem wit_casCommitTimeout_end : ∃ (port cseq : Nat) (k : TxPkt) (s : State), ((s.port port).txq.find? (fun (x : TxPkt) => x.held && decide (x.cseq = some cseq)) = some k) ∧
  ((s.port port).pkt k.id = some k) ∧ (s.getF (Reg.PORT_CAS_CFG port) Fld.PORT_CAS_CFG_MAX_RESEND ≤ k.resends) :=
  ⟨5, 7, { id := 3, bytes := casFrame 0 0 7 1 [1, 2, 3], taken := true, held := true, cseq := some 7 }, (((((State.reset.portMod 5 (fun p => { p with txq := [{ id := 3, bytes := casFrame 0 0 7 1 [1, 2, 3], taken := true, held := true, cseq := some 7 }] })).setF (Reg.PORT_PERSONA 5) Fld.PORT_PERSONA_PERSONA 4).setF (Reg.PORT_CTL 5) Fld.PORT_CTL_EN 1).setF (Reg.PORT_CAS_STAT 5) Fld.PORT_CAS_STAT_STATE 3).setF (Reg.PORT_CAS_CFG 5) Fld.PORT_CAS_CFG_MAX_RESEND 0), by decide +kernel⟩

/-- The hypotheses of the clause on casResultSend: at most ACK_BATCH results go out in one frame. -/
theorem wit_casResultSend : ∃ (port : Nat) (s : State), (s.persona port = 4) ∧ (s.casState port = 3) ∧ (s.casDue port = true) ∧
  (s.mayTransmit = true) :=
  ⟨5, ((((State.reset.portMod 5 (fun p => { p with cas := { results := [(1, 0, none), (2, 1, none)] } })).setF (Reg.PORT_PERSONA 5) Fld.PORT_PERSONA_PERSONA 4).setF (Reg.PORT_CTL 5) Fld.PORT_CTL_EN 1).setF (Reg.PORT_CAS_STAT 5) Fld.PORT_CAS_STAT_STATE 3), by decide +kernel⟩

/-- The hypotheses of the clause on intakeGrant: a lane of the ingest pool takes the oldest entry of the next queue; a frame without a slot goes on to its checks. -/
theorem wit_intakeGrant : ∃ (l p k : Nat) (e : Bytes) (r : List Bytes) (err : Bool) (s : State), (s.inkGrants = true) ∧
  (∀ n ∈ List.range 64, s.ringReady n = false) ∧ (s.laneServes l = true) ∧ ((s.laneJobs l).length < 2) ∧
  (bit (s.raw Reg.INK_POOL) l = true) ∧ (s.ink.back = []) ∧ (s.nextIng = some (p, k)) ∧ (64 ≤ p) ∧ (s.ingq (p - 64) = e :: r) ∧
  (s.lookupTitle (padTo 8 (slice (s.ingFrame (p - 64) e).bytes 2 8)) = none) :=
  ⟨3, 64, 0, (List.replicate 16 0 ++ [1, 2, 3]), [], false, (((((State.reset.setF Reg.INK_CTL Fld.INK_CTL_EN 1).build (blockPath 5 3) { kind := 2 })).setF Reg.INK_POOL ⟨31, 0⟩ 8 |>.setF (Reg.INK_ING 0) Fld.INK_ING_WEIGHT 1).inkMod (fun i => { i with ingq := [(0, [(List.replicate 16 0 ++ [1, 2, 3])])], rrIng := 64, rrLeft := 1 })), by decide +kernel⟩

/-- The hypotheses of the clause on intakeGrant: a frame of a slot that has another in process is held. -/
theorem wit_intakeGrant_hold : ∃ (l p k n : Nat) (e : Bytes) (r : List Bytes) (err : Bool) (s : State), (s.inkGrants = true) ∧
  (∀ n ∈ List.range 64, s.ringReady n = false) ∧ (s.laneServes l = true) ∧ ((s.laneJobs l).length < 2) ∧
  (bit (s.raw Reg.INK_POOL) l = true) ∧ (s.ink.back = []) ∧ (s.nextIng = some (p, k)) ∧ (64 ≤ p) ∧ (s.ingq (p - 64) = e :: r) ∧
  (s.lookupTitle (padTo 8 (slice (s.ingFrame (p - 64) e).bytes 2 8)) = some n) ∧ (s.slotBusy n = true) ∧ (s.ink.holds.length < 4096) :=
  ⟨3, 64, 0, 2, ([10, 0] ++ List.replicate 14 0 ++ [1, 2] ++ List.replicate 8 7), [], false, (((((((((State.reset.setF Reg.INK_CTL Fld.INK_CTL_EN 1).build (blockPath 5 3) { kind := 2 })).setF Reg.INK_POOL ⟨31, 0⟩ 8 |>.setF (Reg.INK_ING 0) Fld.INK_ING_WEIGHT 1).msmPut 2 (List.replicate 19 7 ++ [0x81] ++ List.replicate 12 0))).wr32 (0x400000 + 32 * (crc32c (List.replicate 8 7) % 131072)) (titleWord (List.replicate 8 7) 2)).inkMod (fun i => { i with lanes := [(0, [.frame { bytes := [1, 2], kind := 2, src := 64, slot := some 2 }])], ingq := [(0, [[10, 0] ++ List.replicate 14 0 ++ [1, 2] ++ List.replicate 8 7])], rrIng := 64, rrLeft := 1 }))), by decide +kernel⟩

/-- The hypotheses of the clause on intakeGrant: a lane of the port pool takes the oldest packet of the next port. -/
theorem wit_intakeGrant_port : ∃ (l n : Nat) (k : RxPkt) (r : List RxPkt) (err : Bool) (s : State), (s.inkGrants = true) ∧
  (∀ n ∈ List.range 64, s.ringReady n = false) ∧ (s.laneServes l = true) ∧ ((s.laneJobs l).length < 2) ∧
  (bit (s.raw Reg.INK_POOL) l = false) ∧ (s.ink.back = []) ∧ (s.protReady = none) ∧ (s.nextPort = some n) ∧ ((s.ptrs n false).same = true) ∧
  ((s.port n).rxq = k :: r) ∧ (s.ink.holds.length < 4096) :=
  ⟨3, 5, { bytes := [0, 0, 0, 0, 0, 0, 0, 0, 1, 2] }, [], false, (((((State.reset.setF Reg.INK_CTL Fld.INK_CTL_EN 1).build (blockPath 5 3) { kind := 2 }).portMod 5 (fun p => { p with rxq := [{ bytes := [0, 0, 0, 0, 0, 0, 0, 0, 1, 2] }] })).setF (Reg.PORT_PERSONA 5) Fld.PORT_PERSONA_PERSONA 1).setF (Reg.PORT_CTL 5) Fld.PORT_CTL_EN 1), by decide +kernel⟩

/-- The hypotheses of the clause on intakeGrant: a lane of the port pool takes the next protect request. -/
theorem wit_intakeGrant_prot : ∃ (l i : Nat) (err : Bool) (s : State), (s.inkGrants = true) ∧ (∀ n ∈ List.range 64, s.ringReady n = false) ∧
  (s.laneServes l = true) ∧ ((s.laneJobs l).length < 2) ∧ (bit (s.raw Reg.INK_POOL) l = false) ∧ (s.ink.back = []) ∧
  (s.protReady = some i) ∧ (s.nextPort = none) ∧ (s.mustHold (u32 (s.rdMem (s.protA i) 32) 0 % 2 ^ 20) (s.ahead none) = false) :=
  ⟨3, 0, false, (((((State.reset.setF Reg.INK_CTL Fld.INK_CTL_EN 1).build (blockPath 5 3) { kind := 2 }).setF Reg.INK_PROT_HEAD Fld.INK_PROT_HEAD_PROD 1).setF Reg.INK_PROT_BASE_LO Fld.INK_PROT_BASE_LO_PRING_LOG2 4).wrMem 6 [128]), by decide +kernel⟩

/-- The hypotheses of the clause on intakeGrant: with intake stopped nothing is granted. -/
theorem wit_intakeGrant_idle : ∃ (l : Nat) (err : Bool) (s : State), (s.inkGrants = false) :=
  ⟨3, false, State.reset, by decide +kernel⟩

/-- The hypotheses of the clause on fwRingWrite: with room in the ring the oldest item is written at PROD, and PROD advances. -/
theorem wit_fwRingWrite : ∃ (x : FwItem) (r : List FwItem) (s : State), (s.ink.fwq = x :: r) ∧ (s.fwFull = false) ∧ (x.forSlot = none) ∧
  (∀ b ∈ fwEntry x, b < 256) :=
  ⟨{ kind := 0, data := [1, 2, 3] }, [], (State.reset.inkMod (fun i => { i with fwq := [{ kind := 0, data := [1, 2, 3] }] })), by decide +kernel⟩

/-- The hypotheses of the clause on fwRingWrite: a full ring takes nothing, and the work waits. -/
theorem wit_fwRingWrite_full : ∃ (s : State), (s.fwFull = true) :=
  ⟨(((State.reset.inkMod (fun i => { i with fwq := [{ kind := 0, data := [1, 2, 3] }] })).setF Reg.INK_FW_HEAD Fld.INK_FW_HEAD_PROD 1).setF Reg.INK_FW_BASE_LO Fld.INK_FW_BASE_LO_RING_LOG2 0), by decide +kernel⟩

/-- The hypotheses of the clause on frameCommit: a commit brings the slot its counter and time, and INK_ACCEPT_CNT counts it. -/
theorem wit_frameCommit : ∃ (slot : Nat) (c : CFrame) (s : State), (s.ink.commits.find? (fun (x : CFrame) => decide (x.slot = slot)) = some c) ∧
  (s.mayCommit c = true) ∧ (s.ink.op = none) ∧ ((s.msmAt slot).length = 32) ∧ (msmFresh (s.msmAt slot) = false) ∧ (c.ctr < 2 ^ 32) :=
  ⟨2, { fr := {}, slot := 2, ctr := 6, gen := 1, prev := false, plain := [1], stage := 2 }, ((State.reset.msmPut 2 ([7,7,7,7,7,7,7,7, 5,0,0,0, 0,0,0,0, 0,0,0, 0xB1] ++ List.replicate 12 0)).inkMod (fun i => { i with commits := [{ fr := {}, slot := 2, ctr := 6, gen := 1, prev := false, plain := [1], stage := 2 }] })), by decide +kernel⟩

/-- The hypotheses of the clause on frameCommit: a frame whose record is not yet in staging does not commit. -/
theorem wit_frameCommit_wait : ∃ (slot : Nat) (c : CFrame) (s : State), (s.ink.commits.find? (fun (x : CFrame) => decide (x.slot = slot)) = some c) ∧
  (c.stage < 2) :=
  ⟨2, { fr := {}, slot := 2, ctr := 6, gen := 1, prev := false, plain := [1] }, (State.reset.inkMod (fun i => { i with commits := [{ fr := {}, slot := 2, ctr := 6, gen := 1, prev := false, plain := [1] }] })), by decide +kernel⟩

/-- The hypotheses of the clause on keyDeriveDone: the oldest derivation ends, and its AES-CMAC fills the cache. -/
theorem wit_keyDeriveDone : ∃ (k : KeyEnt) (title m : Bytes) (r : List (KeyEnt × Bytes)) (s : State), (s.ink.deriv = (k, title) :: r) ∧
  (s.noGrant 5 28 = false) ∧ (s.dmk k.domain = some m) :=
  ⟨{ slot := 2, gen := 1, domain := 3, dir := false, tcrc := 0, key := [] }, List.replicate 8 7, List.replicate 16 1, [], { (State.reset.inkMod (fun i => { i with deriv := [({ slot := 2, gen := 1, domain := 3, dir := false, tcrc := 0, key := [] }, List.replicate 8 7)] })) with hoop := { (State.reset.inkMod (fun i => { i with deriv := [({ slot := 2, gen := 1, domain := 3, dir := false, tcrc := 0, key := [] }, List.replicate 8 7)] })).hoop with slots := [(3, { attr := 2 ^ 31 + 2 ^ 28 + 2 ^ 7, key := List.replicate 16 1 })] } }, by decide +kernel⟩

/-- The hypotheses of the clause on lanePassDone: a frame that fails a check leaves its lane, and the counter of that check counts it. -/
theorem wit_lanePassDone_rej : ∃ (l : Nat) (err : Bool) (f : IFrame) (r : List LaneJob) (s : State), (s.laneJobs l = .frame f :: r) ∧
  (s.frameCheck f ≠ 0) ∧ (s.frameCheck f ≠ 10) ∧ (s.ink.op = none) :=
  ⟨3, false, { bytes := [1, 2], kind := 2, src := 64 }, [], (State.reset.inkMod (fun i => { i with lanes := [(3, [.frame { bytes := [1, 2], kind := 2, src := 64 }])] })), by decide +kernel⟩

/-- The hypotheses of the clause on lanePassDone: a frame whose tag checks waits for its commit with its plaintext; one whose tag does not is not accepted. -/
theorem wit_lanePassDone_gcm : ∃ (l n : Nat) (k : Bytes) (err : Bool) (f : IFrame) (r : List LaneJob) (s : State), (s.laneJobs l = .frame f :: r) ∧
  (s.frameCheck f = 0) ∧ (f.slot = some n) ∧ (f.key = some k) :=
  ⟨3, 2, List.replicate 16 1, false, { bytes := ([0xDB, 8, 7,7,7,7,7,7,7,7, 18, 0x30, 0,0,0,6, 9] ++ List.replicate 12 0), kind := 2, src := 64, slot := some 2, gen := 1, key := some (List.replicate 16 1) }, [], { ((State.reset.msmPut 2 ([7,7,7,7,7,7,7,7, 5,0,0,0, 0,0,0,0, 0,0,0, 0xB1] ++ List.replicate 12 0)).inkMod (fun i => { i with lanes := [(3, [.frame { bytes := ([0xDB, 8, 7,7,7,7,7,7,7,7, 18, 0x30, 0,0,0,6, 9] ++ List.replicate 12 0), kind := 2, src := 64, slot := some 2, gen := 1, key := some (List.replicate 16 1) }])] })) with hoop := { ((State.reset.msmPut 2 ([7,7,7,7,7,7,7,7, 5,0,0,0, 0,0,0,0, 0,0,0, 0xB1] ++ List.replicate 12 0)).inkMod (fun i => { i with lanes := [(3, [.frame { bytes := ([0xDB, 8, 7,7,7,7,7,7,7,7, 18, 0x30, 0,0,0,6, 9] ++ List.replicate 12 0), kind := 2, src := 64, slot := some 2, gen := 1, key := some (List.replicate 16 1) }])] })).hoop with slots := [(3, { attr := 2 ^ 31 + 2 ^ 28 + 2 ^ 7, key := List.replicate 16 1 })] } }, by decide +kernel⟩

/-- The hypotheses of the clause on lanePassDone: a protect request takes the next transmit counter, and its descriptor completes with OWN 0 and STATUS 0. -/
theorem wit_lanePassDone_prot : ∃ (l i g n : Nat) (d k : Bytes) (r : List LaneJob) (s : State), (s.laneJobs l = .protect i d g (some k) :: r) ∧
  (n = u32 d 0 % 2 ^ 20) ∧ (d.length = 32) ∧ (n < s.slotCount) ∧ (s.ink.ue.contains n = false) ∧ (scrcOk (s.msmAt n) = true) ∧
  ((s.msmAt n).length = 32) ∧ (msmActive (s.msmAt n) = true) ∧ (msmHold (s.msmAt n) = false) ∧ (u8 d 3 = 0x30 ∨ u8 d 3 = 0x10) ∧
  ((s.dmk (msmDomain (s.msmAt n))).isSome = true) ∧ (0 < u16 d 4) ∧ (u16 d 4 ≤ 2000) ∧ (msmTx (s.msmAt n) < 0xFFFFFFFF) ∧
  (s.ink.op = none) :=
  ⟨3, 0, 3, 2, ([2,0,0,0x30, 4,0, 0x80,0, 0,0x10,0,0,0,0,0,0, 0,0x20,0,0,0,0,0,0] ++ List.replicate 8 0), List.replicate 16 1, [], { ((State.reset.msmPut 2 ([7,7,7,7,7,7,7,7, 5,0,0,0, 0,0,0,0, 0,0,0, 0xB1] ++ List.replicate 12 0)).inkMod (fun i => { i with lanes := [(3, [.protect 0 ([2,0,0,0x30, 4,0, 0x80,0, 0,0x10,0,0,0,0,0,0, 0,0x20,0,0,0,0,0,0] ++ List.replicate 8 0) 3 (some (List.replicate 16 1))])] })) with hoop := { ((State.reset.msmPut 2 ([7,7,7,7,7,7,7,7, 5,0,0,0, 0,0,0,0, 0,0,0, 0xB1] ++ List.replicate 12 0)).inkMod (fun i => { i with lanes := [(3, [.protect 0 ([2,0,0,0x30, 4,0, 0x80,0, 0,0x10,0,0,0,0,0,0, 0,0x20,0,0,0,0,0,0] ++ List.replicate 8 0) 3 (some (List.replicate 16 1))])] })).hoop with slots := [(3, { attr := 2 ^ 31 + 2 ^ 28 + 2 ^ 7, key := List.replicate 16 1 })] } }, by decide +kernel⟩

/-- The hypotheses of the clause on slotRead: READ takes the entry and changes no slot. -/
theorem wit_slotRead : ∃ (slot : Nat) (err : Bool) (o : SlotOp) (s : State), (s.ink.op = none) ∧ (slot < 2 ^ 20) ∧
  (s.slotBusy slot = false) ∧ (o = { op := 1, slot := slot, data := s.slotData, tblErr := err }) :=
  ⟨2, false, { op := 1, slot := 2, data := List.replicate 32 0 }, (State.reset.msmPut 2 ([7,7,7,7,7,7,7,7, 5,0,0,0, 0,0,0,0, 0,0,0, 0xB1] ++ List.replicate 12 0)), by decide +kernel⟩

/-- The hypotheses of the clause on slotWrite: an accepted WRITE writes the entry, a refused one nothing. -/
theorem wit_slotWrite : ∃ (slot : Nat) (err : Bool) (o : SlotOp) (s : State), (s.ink.op = none) ∧ (slot < 2 ^ 20) ∧
  (s.slotBusy slot = false) ∧ (o = { op := 2, slot := slot, data := s.slotData, tblErr := err }) :=
  ⟨2, false, { op := 2, slot := 2, data := List.replicate 32 0 }, (State.reset.msmPut 2 ([7,7,7,7,7,7,7,7, 5,0,0,0, 0,0,0,0, 0,0,0, 0xB1] ++ List.replicate 12 0)), by decide +kernel⟩

/-- The hypotheses of the clause on slotWriteCtr: WRITE_CTR writes both counters too. -/
theorem wit_slotWriteCtr : ∃ (slot : Nat) (err : Bool) (o : SlotOp) (s : State), (s.ink.op = none) ∧ (slot < 2 ^ 20) ∧
  (s.slotBusy slot = false) ∧ (o = { op := 3, slot := slot, data := s.slotData, tblErr := err }) :=
  ⟨2, false, { op := 3, slot := 2, data := List.replicate 32 0 }, (State.reset.msmPut 2 ([7,7,7,7,7,7,7,7, 5,0,0,0, 0,0,0,0, 0,0,0, 0xB1] ++ List.replicate 12 0)), by decide +kernel⟩

/-- The hypotheses of the clause on slotRoll: ROLL advances GEN. -/
theorem wit_slotRoll : ∃ (slot : Nat) (err : Bool) (o : SlotOp) (s : State), (s.ink.op = none) ∧ (slot < 2 ^ 20) ∧
  (s.slotBusy slot = false) ∧ (o = { op := 4, slot := slot, data := s.slotData, tblErr := err }) :=
  ⟨2, false, { op := 4, slot := 2, data := List.replicate 32 0 }, (State.reset.msmPut 2 ([7,7,7,7,7,7,7,7, 5,0,0,0, 0,0,0,0, 0,0,0, 0xB1] ++ List.replicate 12 0)), by decide +kernel⟩

/-- The hypotheses of the clause on slotClear: CLEAR leaves a clear entry. -/
theorem wit_slotClear : ∃ (slot : Nat) (err : Bool) (o : SlotOp) (s : State), (s.ink.op = none) ∧ (slot < 2 ^ 20) ∧
  (s.slotBusy slot = false) ∧ (o = { op := 5, slot := slot, data := s.slotData, tblErr := err }) :=
  ⟨2, false, { op := 5, slot := 2, data := List.replicate 32 0 }, (State.reset.msmPut 2 ([7,7,7,7,7,7,7,7, 5,0,0,0, 0,0,0,0, 0,0,0, 0xB1] ++ List.replicate 12 0)), by decide +kernel⟩

/-- The hypotheses of the clause on slotOpComplete: the operation ends with DONE or ERR and its CODE, and READ shows the entry. -/
theorem wit_slotOpComplete : ∃ (o : SlotOp) (c : Nat) (s : State), (s.ink.op = some o) ∧ (o.code = some c) :=
  ⟨{ op := 1, slot := 2, data := [], code := some 0, entry := [1, 2, 3] }, 0, (State.reset.inkMod (fun i => { i with op := some { op := 1, slot := 2, data := [], code := some 0, entry := [1, 2, 3] } })), by decide +kernel⟩

/-- The hypotheses of the clause on intakeEnable: EN with MSM restored and the areas fitted starts intake and a rebuild of the tables. -/
theorem wit_intakeEnable : ∃ (s : State), (s.isF Reg.INK_CTL Fld.INK_CTL_EN = false) ∧ (s.isF Reg.INK_STAT Fld.INK_STAT_RESTORED = true) ∧
  (s.inkAreas = true) :=
  ⟨{ (State.reset.setF Reg.INK_STAT Fld.INK_STAT_RESTORED 1) with dramFit := 2 ^ 36 }, by decide +kernel⟩

/-- The hypotheses of the clause on intakeEnable: an area beyond the DRAM fitted: EN stays 0 and CFG_ERR is set. -/
theorem wit_intakeEnable_cfg : ∃ (s : State), (s.isF Reg.INK_CTL Fld.INK_CTL_EN = false) ∧
  (s.isF Reg.INK_STAT Fld.INK_STAT_RESTORED = true) ∧ (s.inkAreas = false) :=
  ⟨{ (State.reset.setF Reg.INK_STAT Fld.INK_STAT_RESTORED 1) with dramFit := 0 }, by decide +kernel⟩

/-- The hypotheses of the clause on tableRebuildDone: both tables stand as MSM has them, and the rebuild has ended. -/
theorem wit_tableRebuildDone : ∃ (s : State), (s.ink.rebuilding = true) :=
  ⟨(State.reset.inkMod (fun i => { i with rebuilding := true })), by decide +kernel⟩

/-- The hypotheses of the clause on menderBatch: a unit that works on a batch shows nothing: no record, entry or counter changes; a frame that is no batch is counted and goes to the firmware ring instead. -/
theorem wit_menderBatch : ∃ (u : Nat) (ue : Bool) (f : CFrame) (s : State), (s.ink.commits.find? (fun (c : CFrame) => decide (c.stage = 0) && !(s.mnd.jobs.filterMap (fun e => e.2.map (fun (x : MndJob) => x.slot))).contains c.slot) = some f) ∧
  (s.unitServes u = true) ∧ (s.mndJob u = none) ∧ (s.ladder.region ≠ 5) :=
  ⟨18, false, { fr := {}, slot := 2, ctr := 6, gen := 1, prev := false, plain := [1] }, ((State.reset.inkMod (fun i => { i with commits := [{ fr := {}, slot := 2, ctr := 6, gen := 1, prev := false, plain := [1] }] })).build (blockPath 5 18) { kind := 2 }), by decide +kernel⟩

/-- The hypotheses of the clause on menderBatchDone: a finished batch becomes visible when the store takes it: its state entry is written, and its records go to the Darner. -/
theorem wit_menderBatchDone : ∃ (u : Nat) (j : MndJob) (s : State), (s.mndJob u = some j) ∧ (j.recs = [] ∨ s.recReady = true) ∧
  (j.shd = none) ∧ (j.mst.length = 64) ∧ (∀ b ∈ j.mst, b < 256) :=
  ⟨18, { slot := 2, recs := [List.replicate 24 7], mst := List.replicate 64 5 }, ((State.reset.mndMod (fun m => { m with jobs := [(18, some { slot := 2, recs := [List.replicate 24 7], mst := List.replicate 64 5 })] })).setF Reg.STO_DIRTY Fld.STO_DIRTY_DIRTY_MAX 100), by decide +kernel⟩

/-- The hypotheses of the clause on menderBatchDone: a batch that the store has no room for stays with its unit. -/
theorem wit_menderBatchDone_wait : ∃ (u : Nat) (j : MndJob) (s : State), (s.mndJob u = some j) ∧ (j.recs ≠ []) ∧ (s.recReady = false) :=
  ⟨18, { slot := 2, recs := [List.replicate 24 7], mst := List.replicate 64 5 }, ((State.reset.mndMod (fun m => { m with jobs := [(18, some { slot := 2, recs := [List.replicate 24 7], mst := List.replicate 64 5 })] })).setF Reg.STO_DIRTY Fld.STO_DIRTY_DIRTY_MAX 0), by decide +kernel⟩

/-- The hypotheses of the clause on classSelect: the live record of the class enters staging. -/
theorem wit_classSelect : ∃ (cls w : Nat) (s : State), (s.menderThere = true) ∧ (s.isF Reg.MND_CLASS_SEL Fld.MND_CLASS_SEL_BUSY = false) :=
  ⟨3, 5, (State.reset.build (blockPath 5 18) { kind := 2 }), by decide +kernel⟩

/-- The hypotheses of the clause on classDataAccess: a read gives the word that WORD points to, and WORD advances. -/
theorem wit_classDataAccess : ∃ (s : State), (s.menderThere = true) :=
  ⟨((State.reset.mndMod (fun m => { m with staging := List.replicate 128 3 })).build (blockPath 5 18) { kind := 2 }), by decide +kernel⟩

/-- The hypotheses of the clause on classDataAccess: a write puts the word in staging, and WORD advances. -/
theorem wit_classDataAccess_write : ∃ (v : Nat) (s : State), (s.menderThere = true) ∧ (s.mnd.staging.length = 128) ∧ (v < 2 ^ 32) :=
  ⟨0x01020304, (State.reset.build (blockPath 5 18) { kind := 2 }), by decide +kernel⟩

/-- The hypotheses of the clause on classCommit: a valid staged record waits for a gap between batches. -/
theorem wit_classCommit : ∃ (s : State), (s.menderThere = true) ∧ (s.isF Reg.MND_CLASS_SEL Fld.MND_CLASS_SEL_BUSY = false) ∧
  (clsOk s.mnd.staging = true) :=
  ⟨((State.reset.mndMod (fun m => { m with staging := overlay (List.replicate 128 0) 10 ([4, 1] ++ List.replicate 8 0 ++ [1]) })).build (blockPath 5 18) { kind := 2 }), by decide +kernel⟩

/-- The hypotheses of the clause on classCommit: one that breaks the rules is refused. -/
theorem wit_classCommit_refused : ∃ (s : State), (s.menderThere = true) ∧ (s.isF Reg.MND_CLASS_SEL Fld.MND_CLASS_SEL_BUSY = false) ∧
  (clsOk s.mnd.staging = false) :=
  ⟨(State.reset.build (blockPath 5 18) { kind := 2 }), by decide +kernel⟩

/-- The hypotheses of the clause on classInstall: the staged record replaces the live one. -/
theorem wit_classInstall : ∃ (n : Nat) (c : Bytes) (s : State), (s.mnd.install = some (n, c)) :=
  ⟨3, List.replicate 128 1, (State.reset.mndMod (fun m => { m with install := some (3, List.replicate 128 1) })), by decide +kernel⟩

/-- The hypotheses of the clause on freezeDue: the freeze is fixed: its ID, launch and delay stand in the registers, and FREEZE_DUE is raised. -/
theorem wit_freezeDue : ∃ (s : State), (s.drnRuns = true) ∧ (s.taiValid = true) ∧ (s.drn.fixed = none) :=
  ⟨((((State.reset.setF Reg.DRN_CTL Fld.DRN_CTL_EN 1).setF Reg.DRN_STAT Fld.DRN_STAT_RESTORED 1).setF Reg.TU_STAT Fld.TU_STAT_TAI_VALID 1).setF Reg.DRN_FRZ_CTL Fld.DRN_FRZ_CTL_PERIOD_MIN 15), by decide +kernel⟩

/-- The hypotheses of the clause on freezeCapture: collection opens at the capture instant, and the totaliser is latched. -/
theorem wit_freezeCapture : ∃ (f c : Nat) (st : Bool) (s : State), (s.drn.fixed = some (f, c, st)) ∧ (f < 2 ^ 32) :=
  ⟨29461380, 77, false, ((((((State.reset.setF Reg.DRN_CTL Fld.DRN_CTL_EN 1).setF Reg.DRN_STAT Fld.DRN_STAT_RESTORED 1).setF Reg.TU_STAT Fld.TU_STAT_TAI_VALID 1).setF Reg.DRN_FRZ_CTL Fld.DRN_FRZ_CTL_PERIOD_MIN 15).wrMem 0 [9]).drnMod (fun d => { d with fixed := some (29461380, 77, false) })), by decide +kernel⟩

/-- The hypotheses of the clause on darnerSnapshot: the oldest snapshot leaves the queue and is counted. -/
theorem wit_darnerSnapshot : ∃ (r : Bytes) (l : List Bytes) (s : State), (s.drn.inq = r :: l) ∧ (u8 r 23 / 64 = 1) :=
  ⟨(([2, 0, 0, 0] ++ [9, 0, 0, 0] ++ List.replicate 15 0) ++ [64]), [], ((((((State.reset.setF Reg.DRN_CTL Fld.DRN_CTL_EN 1).setF Reg.DRN_STAT Fld.DRN_STAT_RESTORED 1).setF Reg.TU_STAT Fld.TU_STAT_TAI_VALID 1).setF Reg.DRN_FRZ_CTL Fld.DRN_FRZ_CTL_PERIOD_MIN 15).wrMem 0 [9]).drnMod (fun d => { d with inq := [(([2, 0, 0, 0] ++ [9, 0, 0, 0] ++ List.replicate 15 0) ++ [64])] })), by decide +kernel⟩

/-- The hypotheses of the clause on darnerSnapshot: one of a slot that takes no part is ignored. -/
theorem wit_darnerSnapshot_ignored : ∃ (r : Bytes) (l : List Bytes) (s : State), (s.drn.inq = r :: l) ∧ (u8 r 23 / 64 = 1) ∧
  (s.pairWorks = true) ∧ (s.noGrant 5 30 = false) ∧ (msmRole (s.msmAt (u32 r 0 % 2 ^ 20)) / 16 % 2 = 0) :=
  ⟨(([2, 0, 0, 0] ++ [9, 0, 0, 0] ++ List.replicate 15 0) ++ [64]), [], ((((((State.reset.setF Reg.DRN_CTL Fld.DRN_CTL_EN 1).setF Reg.DRN_STAT Fld.DRN_STAT_RESTORED 1).setF Reg.TU_STAT Fld.TU_STAT_TAI_VALID 1).setF Reg.DRN_FRZ_CTL Fld.DRN_FRZ_CTL_PERIOD_MIN 15).wrMem 0 [9]).drnMod (fun d => { d with inq := [(([2, 0, 0, 0] ++ [9, 0, 0, 0] ++ List.replicate 15 0) ++ [64])] })), by decide +kernel⟩

/-- The hypotheses of the clause on freezeClose: the collection closes, and CLOSED is raised. -/
theorem wit_freezeClose : ∃ (s : State), (s.collecting = true) :=
  ⟨((((((State.reset.setF Reg.DRN_CTL Fld.DRN_CTL_EN 1).setF Reg.DRN_STAT Fld.DRN_STAT_RESTORED 1).setF Reg.TU_STAT Fld.TU_STAT_TAI_VALID 1).setF Reg.DRN_FRZ_CTL Fld.DRN_FRZ_CTL_PERIOD_MIN 15).wrMem 0 [9]).setF Reg.DRN_STAT Fld.DRN_STAT_COLLECTING 1), by decide +kernel⟩

/-- The hypotheses of the clause on freezeClose: a node that reports gets one balance record and counts as complete or incomplete. -/
theorem wit_freezeClose_node : ∃ (n : Nat) (s : State), (s.collecting = true) ∧
  (s.validNodes.filter (fun n => decide (u8 (s.topo n) 0 / 8 % 2 = 1)) = [n]) :=
  ⟨0, ((((((State.reset.setF Reg.DRN_CTL Fld.DRN_CTL_EN 1).setF Reg.DRN_STAT Fld.DRN_STAT_RESTORED 1).setF Reg.TU_STAT Fld.TU_STAT_TAI_VALID 1).setF Reg.DRN_FRZ_CTL Fld.DRN_FRZ_CTL_PERIOD_MIN 15).wrMem 0 [9]).setF Reg.DRN_STAT Fld.DRN_STAT_COLLECTING 1), by decide +kernel⟩

/-- The hypotheses of the clause on freezeClose: with no collection open nothing closes. -/
theorem wit_freezeClose_none : ∃ (s : State), (s.collecting = false) :=
  ⟨State.reset, by decide +kernel⟩

/-- The hypotheses of the clause on darnerEnable: EN is 1, and with TAI valid the next freeze is chosen. -/
theorem wit_darnerEnable : ∃ (s : State), (s.exists_ 5 30 = true) ∧ (s.isF Reg.DRN_CTL Fld.DRN_CTL_EN = false) :=
  ⟨(State.reset.build (blockPath 5 30) { kind := 2 }), by decide +kernel⟩

/-- The hypotheses of the clause on darnerDisable: EN is 0, a collection is cut, and no freeze is scheduled. -/
theorem wit_darnerDisable : ∃ (s : State), (s.exists_ 5 30 = true) :=
  ⟨((((((((State.reset.setF Reg.DRN_CTL Fld.DRN_CTL_EN 1).setF Reg.DRN_STAT Fld.DRN_STAT_RESTORED 1).setF Reg.TU_STAT Fld.TU_STAT_TAI_VALID 1).setF Reg.DRN_FRZ_CTL Fld.DRN_FRZ_CTL_PERIOD_MIN 15).wrMem 0 [9]).drnMod (fun d => { d with fixed := some (1, 2, false) })).setF Reg.DRN_STAT Fld.DRN_STAT_COLLECTING 1).build (blockPath 5 30) { kind := 2 }), by decide +kernel⟩

/-- The hypotheses of the clause on storeStart: EN is 1; PHASE goes to 1, or CFG_ERR says that the layout or the anchors do not serve; a die that does not answer is not active. -/
theorem wit_storeStart : ∃ (absent : Nat) (s : State), (s.phase = 0) :=
  ⟨1, State.reset, by decide +kernel⟩

/-- The hypotheses of the clause on storeRestoreDone: the store reaches PHASE 6 with READY, and intake and the Darner have their tables. -/
theorem wit_storeRestoreDone : ∃ (s : State), (1 ≤ s.phase) ∧ (s.phase ≤ 5) :=
  ⟨(State.reset.setF Reg.STO_STAT Fld.STO_STAT_PHASE 3), by decide +kernel⟩

/-- The hypotheses of the clause on storeStop: EN is 0 after a flush that ends with SHUT. -/
theorem wit_storeStop : ∃ (s : State), (s.phase = 6) :=
  ⟨((State.reset.setF Reg.STO_STAT Fld.STO_STAT_PHASE 6).setF Reg.STO_DIE_STAT ⟨31, 0⟩ 0x55555555 |>.setF Reg.STO_CH_CTL Fld.STO_CH_CTL_STATE_0 1 |>.setF Reg.STO_CH_CTL Fld.STO_CH_CTL_STATE_1 1), by decide +kernel⟩

/-- The hypotheses of the clause on recordUnitProgram: the record unit goes to its stripe, and STO_REC_HEAD advances. -/
theorem wit_recordUnitProgram : ∃ (s : State), (s.phase = 6) ∧ (s.sto.recs ≠ []) ∧
  (s.partUnits 0 = 0 ∨ (s.num Reg.STO_REC_HEAD + 2 ^ 32 - s.num Reg.STO_REC_TAIL) % 2 ^ 32 ≠ s.partUnits 0) ∧
  (((s.readySb 0).openSb 0).isSome = true) :=
  ⟨(((State.reset.setF Reg.STO_STAT Fld.STO_STAT_PHASE 6).setF Reg.STO_DIE_STAT ⟨31, 0⟩ 0x55555555 |>.setF Reg.STO_CH_CTL Fld.STO_CH_CTL_STATE_0 1 |>.setF Reg.STO_CH_CTL Fld.STO_CH_CTL_STATE_1 1).stoMod (fun x => { x with sbs := [(2, { state := 1, stream := 0, mask := 7, next := 0 })], recs := [List.replicate 24 5] })), by decide +kernel⟩

/-- The hypotheses of the clause on storeFlushDone: a power-fail flush ends at PHASE 8. -/
theorem wit_storeFlushDone : ∃ (s : State), (s.phase = 7) ∧ (s.pins.pfail = true) :=
  ⟨{ (State.reset.setF Reg.STO_STAT Fld.STO_STAT_PHASE 7) with pins := { State.reset.pins with pfail := true } }, by decide +kernel⟩

/-- The hypotheses of the clause on storeFlushDone: with PFAIL_N high again the store resumes. -/
theorem wit_storeFlushDone_resume : ∃ (s : State), (s.phase = 7) ∧ (s.pins.pfail = false) :=
  ⟨(State.reset.setF Reg.STO_STAT Fld.STO_STAT_PHASE 7), by decide +kernel⟩

/-- The hypotheses of the clause on nandProgramDone: every unit of a page that programs well counts as programmed. -/
theorem wit_nandProgramDone : ∃ (d b p : Nat) (s : State), ((diesOf (s.sb b).mask).contains d = true) ∧ ((s.sb b).state ≠ 0) :=
  ⟨0, 3, 0, (((State.reset.setF Reg.STO_STAT Fld.STO_STAT_PHASE 6).setF Reg.STO_DIE_STAT ⟨31, 0⟩ 0x55555555 |>.setF Reg.STO_CH_CTL Fld.STO_CH_CTL_STATE_0 1 |>.setF Reg.STO_CH_CTL Fld.STO_CH_CTL_STATE_1 1).stoMod (fun x => { x with sbs := [(3, { state := 1, stream := 0, mask := 7, next := 1 })], units := [(3 * 2 ^ 17, { lua := 3 })] })), by decide +kernel⟩

/-- The hypotheses of the clause on nandProgramDone: a page that fails retires its block, is counted and is recorded. -/
theorem wit_nandProgramDone_fail : ∃ (d b p : Nat) (s : State), ((diesOf (s.sb b).mask).contains d = true) ∧ ((s.sb b).state ≠ 0) ∧
  (s.sto.reloc = none) ∧ (s.blkBad d b = false) ∧ (s.smp.fifo.length < 256) :=
  ⟨0, 3, 0, (((State.reset.setF Reg.STO_STAT Fld.STO_STAT_PHASE 6).setF Reg.STO_DIE_STAT ⟨31, 0⟩ 0x55555555 |>.setF Reg.STO_CH_CTL Fld.STO_CH_CTL_STATE_0 1 |>.setF Reg.STO_CH_CTL Fld.STO_CH_CTL_STATE_1 1).stoMod (fun x => { x with sbs := [(3, { state := 1, stream := 0, mask := 7, next := 1 })], units := [(3 * 2 ^ 17, { lua := 3 })] })), by decide +kernel⟩

/-- The hypotheses of the clause on nandReadDone: corrected bits count once for the codeword. -/
theorem wit_nandReadDone : ∃ (loc corr : Nat) (retry rebuilt : Bool) (s : State), (corr ≠ 0) :=
  ⟨5, 2, false, false, State.reset, by decide +kernel⟩

/-- The hypotheses of the clause on nandReadDone: a unit that neither a retry level nor parity recovers is lost. -/
theorem wit_nandReadDone_lost : ∃ (loc corr : Nat) (s : State), (s.mapOf (s.unitAt loc).lua = loc + 1) :=
  ⟨2 * 2 ^ 17, 0, (State.reset.stoMod (fun x => { x with sbs := [(2, { state := 2, stream := 1, mask := 7, next := 1 }), (3, { state := 1, stream := 2, mask := 7, next := 0 })], units := [(2 * 2 ^ 17, { lua := 3, kind := 0, data := List.replicate 4096 1, prog := true })], map := [(3, 2 * 2 ^ 17 + 1)] })), by decide +kernel⟩

/-- The hypotheses of the clause on nandReadDone: a unit rebuilt from parity queues its superblock. -/
theorem wit_nandReadDone_rebuild : ∃ (loc corr : Nat) (s : State), (s.hasParity loc = true) :=
  ⟨2 * 2 ^ 17, 0, (State.reset.stoMod (fun x => { x with sbs := [(2, { state := 2, stream := 1, mask := 7, next := 1 }), (3, { state := 1, stream := 2, mask := 7, next := 0 })], units := [(2 * 2 ^ 17, { lua := 3, kind := 0, data := List.replicate 4096 1, prog := true })], map := [(3, 2 * 2 ^ 17 + 1)], parity := [(stripeKey 2 0, 1)] })), by decide +kernel⟩

/-- The hypotheses of the clause on nandEraseDone: the last erase of a relocation frees its source. -/
theorem wit_nandEraseDone : ∃ (d : Nat) (r : Reloc) (s : State), (s.sto.reloc = some r) ∧ (r.phase = 4) ∧ (r.erasing = 2 ^ d) :=
  ⟨1, { src := 2, tgt := 3, t0 := 0, t1 := 0, phase := 4, iseq := 0, why := 0, fails := 0, erasing := 2 }, (((State.reset.setF Reg.STO_STAT Fld.STO_STAT_PHASE 6).setF Reg.STO_DIE_STAT ⟨31, 0⟩ 0x55555555 |>.setF Reg.STO_CH_CTL Fld.STO_CH_CTL_STATE_0 1 |>.setF Reg.STO_CH_CTL Fld.STO_CH_CTL_STATE_1 1).stoMod (fun x => { x with sbs := [(2, { state := 2, stream := 1, mask := 7, next := 1 }), (3, { state := 1, stream := 2, mask := 7, next := 0 })], units := [(2 * 2 ^ 17, { lua := 3, kind := 0, data := List.replicate 4096 1, prog := true })], map := [(3, 2 * 2 ^ 17 + 1)], reloc := some { src := 2, tgt := 3, t0 := 0, t1 := 0, phase := 4, iseq := 0, why := 0, fails := 0, erasing := 2 } })), by decide +kernel⟩

/-- The hypotheses of the clause on gcStart: collection of the chosen source begins. -/
theorem wit_gcStart : ∃ (b why tgt : Nat) (s : State), (s.gcDue = true) ∧ (s.gcSource = some (b, why)) ∧
  (((s.gcTrack.readySb 2).openSb 2) = some tgt) :=
  ⟨2, 3, 3, (((State.reset.setF Reg.STO_STAT Fld.STO_STAT_PHASE 6).setF Reg.STO_DIE_STAT ⟨31, 0⟩ 0x55555555 |>.setF Reg.STO_CH_CTL Fld.STO_CH_CTL_STATE_0 1 |>.setF Reg.STO_CH_CTL Fld.STO_CH_CTL_STATE_1 1).stoMod (fun x => { x with sbs := [(2, { state := 2, stream := 1, mask := 7, next := 1, queued := true }), (3, { state := 1, stream := 2, mask := 7, next := 0 })] })), by decide +kernel⟩

/-- The hypotheses of the clause on gcStart: with no collection due nothing starts. -/
theorem wit_gcStart_none : ∃ (s : State), (s.gcDue = false) :=
  ⟨State.reset, by decide +kernel⟩

/-- The hypotheses of the clause on foldStart: the SLC superblock closed earliest is folded. -/
theorem wit_foldStart : ∃ (b tgt : Nat) (s : State), (s.phase = 6) ∧ (s.sto.reloc = none) ∧
  (argMax ((s.closedSbs.filter (fun e => e.2.slc && decide (e.2.stream ≤ 1))).map (fun e => (e.1, -(e.2.closedNo : Int)))) = some b) ∧
  (((s.readySb 2).openSb 2) = some tgt) :=
  ⟨2, 3, (((State.reset.setF Reg.STO_STAT Fld.STO_STAT_PHASE 6).setF Reg.STO_DIE_STAT ⟨31, 0⟩ 0x55555555 |>.setF Reg.STO_CH_CTL Fld.STO_CH_CTL_STATE_0 1 |>.setF Reg.STO_CH_CTL Fld.STO_CH_CTL_STATE_1 1).stoMod (fun x => { x with sbs := [(2, { state := 2, stream := 1, mask := 7, next := 1, slc := true }), (3, { state := 1, stream := 2, mask := 7, next := 0 })] })), by decide +kernel⟩

/-- The hypotheses of the clause on wearLevelMove: the closed superblock least erased moves to the free one most erased, and the move is counted. -/
theorem wit_wearLevelMove : ∃ (a b : Nat) (s : State), (s.phase = 6) ∧ (s.sto.reloc = none) ∧
  (s.getF Reg.STO_WL Fld.STO_WL_WL_SPREAD < s.ecMax - s.ecMin) ∧
  (argMax (s.closedSbs.map (fun e => (e.1, -((s.sbEc e.1 * 2 ^ 32 + e.2.closedNo : Nat) : Int)))) = some a) ∧
  (argMax ((((List.range (s.getF Reg.STO_GEOM Fld.STO_GEOM_BLOCKS - 2)).map (fun n => n + 2)).filter (fun b => decide ((s.sb b).state = 0))).map (fun b => (b, (s.sbEc b : Int)))) = some b) :=
  ⟨2, 4, (((((State.reset.setF Reg.STO_STAT Fld.STO_STAT_PHASE 6).setF Reg.STO_DIE_STAT ⟨31, 0⟩ 0x55555555 |>.setF Reg.STO_CH_CTL Fld.STO_CH_CTL_STATE_0 1 |>.setF Reg.STO_CH_CTL Fld.STO_CH_CTL_STATE_1 1).stoMod (fun x => { x with sbs := [(2, { state := 2, stream := 1, mask := 7, next := 1 }), (3, { state := 1, stream := 2, mask := 7, next := 0 })], ecs := [(4, 9)] })).setF Reg.STO_WL Fld.STO_WL_WL_SPREAD 1).setF Reg.STO_GEOM Fld.STO_GEOM_BLOCKS 8), by decide +kernel⟩

/-- The hypotheses of the clause on relocCopyDone: every mapped unit of the source is copied and counted; the map does not move yet. -/
theorem wit_relocCopyDone : ∃ (r : Reloc) (s : State), (s.sto.reloc = some r) ∧ (r.phase = 1) ∧ (r.why ≠ 1) ∧ (∀ e, e ∈ s.validUnits r.src →
  e.2.bad = false) ∧ ((s.validUnits r.src).length ≤ s.sbCap (s.sb r.tgt) - (s.sb r.tgt).next) :=
  ⟨{ src := 2, tgt := 3, t0 := 0, t1 := 0, phase := 1, iseq := 0, why := 0, fails := 0, erasing := 0 }, (((State.reset.setF Reg.STO_STAT Fld.STO_STAT_PHASE 6).setF Reg.STO_DIE_STAT ⟨31, 0⟩ 0x55555555 |>.setF Reg.STO_CH_CTL Fld.STO_CH_CTL_STATE_0 1 |>.setF Reg.STO_CH_CTL Fld.STO_CH_CTL_STATE_1 1).stoMod (fun x => { x with sbs := [(2, { state := 2, stream := 1, mask := 7, next := 1 }), (3, { state := 1, stream := 2, mask := 7, next := 0 })], units := [(2 * 2 ^ 17, { lua := 3, kind := 0, data := List.replicate 4096 1, prog := true })], map := [(3, 2 * 2 ^ 17 + 1)], reloc := some { src := 2, tgt := 3, t0 := 0, t1 := 0, phase := 1, iseq := 0, why := 0, fails := 0, erasing := 0 } })), by decide +kernel⟩

/-- The hypotheses of the clause on relocVerifyDone: a target that verifies journals INTENT. -/
theorem wit_relocVerifyDone : ∃ (r : Reloc) (s : State), (s.sto.reloc = some r) ∧ (r.phase = 2) ∧ (r.part = false) :=
  ⟨{ src := 2, tgt := 3, t0 := 0, t1 := 0, phase := 2, iseq := 0, why := 0, fails := 0, erasing := 0 }, (((State.reset.setF Reg.STO_STAT Fld.STO_STAT_PHASE 6).setF Reg.STO_DIE_STAT ⟨31, 0⟩ 0x55555555 |>.setF Reg.STO_CH_CTL Fld.STO_CH_CTL_STATE_0 1 |>.setF Reg.STO_CH_CTL Fld.STO_CH_CTL_STATE_1 1).stoMod (fun x => { x with sbs := [(2, { state := 2, stream := 1, mask := 7, next := 1 }), (3, { state := 1, stream := 2, mask := 7, next := 0 })], units := [(2 * 2 ^ 17, { lua := 3, kind := 0, data := List.replicate 4096 1, prog := true })], map := [(3, 2 * 2 ^ 17 + 1)], reloc := some { src := 2, tgt := 3, t0 := 0, t1 := 0, phase := 2, iseq := 0, why := 0, fails := 0, erasing := 0 } })), by decide +kernel⟩

/-- The hypotheses of the clause on relocVerifyDone: a page of the target that fails to verify retires its block. -/
theorem wit_relocVerifyDone_bad : ∃ (d : Nat) (r : Reloc) (s : State), (s.sto.reloc = some r) ∧ (r.phase = 2) ∧
  (s.blkBad d r.tgt = false) :=
  ⟨1, { src := 2, tgt := 3, t0 := 0, t1 := 0, phase := 2, iseq := 0, why := 0, fails := 0, erasing := 0 }, (((State.reset.setF Reg.STO_STAT Fld.STO_STAT_PHASE 6).setF Reg.STO_DIE_STAT ⟨31, 0⟩ 0x55555555 |>.setF Reg.STO_CH_CTL Fld.STO_CH_CTL_STATE_0 1 |>.setF Reg.STO_CH_CTL Fld.STO_CH_CTL_STATE_1 1).stoMod (fun x => { x with sbs := [(2, { state := 2, stream := 1, mask := 7, next := 1 }), (3, { state := 1, stream := 2, mask := 7, next := 0 })], units := [(2 * 2 ^ 17, { lua := 3, kind := 0, data := List.replicate 4096 1, prog := true })], map := [(3, 2 * 2 ^ 17 + 1)], reloc := some { src := 2, tgt := 3, t0 := 0, t1 := 0, phase := 2, iseq := 0, why := 0, fails := 0, erasing := 0 } })), by decide +kernel⟩

/-- The hypotheses of the clause on relocIntentDone: once INTENT is programmed the map moves to the copies, and the erases of the source begin. -/
theorem wit_relocIntentDone : ∃ (r : Reloc) (s : State), (s.sto.reloc = some r) ∧ (r.phase = 3) ∧
  ((s.jDrain (s.sto.jpend.length + 1)).sto.jpend.contains (.intent r.iseq r.src r.tgt r.t0 r.t1) = false) :=
  ⟨{ src := 2, tgt := 3, t0 := 0, t1 := 0, phase := 3, iseq := 0, why := 0, fails := 0, erasing := 0 }, (((State.reset.setF Reg.STO_STAT Fld.STO_STAT_PHASE 6).setF Reg.STO_DIE_STAT ⟨31, 0⟩ 0x55555555 |>.setF Reg.STO_CH_CTL Fld.STO_CH_CTL_STATE_0 1 |>.setF Reg.STO_CH_CTL Fld.STO_CH_CTL_STATE_1 1).stoMod (fun x => { x with sbs := [(2, { state := 2, stream := 1, mask := 7, next := 1 }), (3, { state := 1, stream := 2, mask := 7, next := 0 })], units := [(2 * 2 ^ 17, { lua := 3, kind := 0, data := List.replicate 4096 1, prog := true })], map := [(3, 2 * 2 ^ 17 + 1)], reloc := some { src := 2, tgt := 3, t0 := 0, t1 := 0, phase := 3, iseq := 0, why := 0, fails := 0, erasing := 0 }, jpend := [.intent 0 2 3 0 0] })), by decide +kernel⟩

/-- The hypotheses of the clause on checkpointStart: a pass starts. -/
theorem wit_checkpointStart : ∃ (s : State), (s.phase = 6) ∧ (s.sto.pass = none) :=
  ⟨(State.reset.setF Reg.STO_STAT Fld.STO_STAT_PHASE 6), by decide +kernel⟩

/-- The hypotheses of the clause on checkpointDone: the pass ends: the checkpoint names its root and holds MSM and the record positions, and CKPT_DONE is raised. -/
theorem wit_checkpointDone : ∃ (p st l : Nat) (u : State) (s : State), (s.phase = 6) ∧ (s.sto.pass = some (p, st)) ∧
  (s.sysPut 3 (2 ^ 28 + p) [] = (u, l)) ∧ (l ≠ 0) ∧ (((u.jour (.ckpt p st (l - 1))).jDrain (u.sto.jpend.length + 2)).sto.jpend = []) :=
  ⟨1, 1, (2 * 2 ^ 17 + 1), (((((State.reset.setF Reg.STO_STAT Fld.STO_STAT_PHASE 6).setF Reg.STO_DIE_STAT ⟨31, 0⟩ 0x55555555 |>.setF Reg.STO_CH_CTL Fld.STO_CH_CTL_STATE_0 1 |>.setF Reg.STO_CH_CTL Fld.STO_CH_CTL_STATE_1 1).stoMod (fun x => { x with sbs := [(2, { state := 1, stream := 3, mask := 7, next := 0 })], pass := some (1, 1) }))).sysPut 3 (2 ^ 28 + 1) []).1, (((State.reset.setF Reg.STO_STAT Fld.STO_STAT_PHASE 6).setF Reg.STO_DIE_STAT ⟨31, 0⟩ 0x55555555 |>.setF Reg.STO_CH_CTL Fld.STO_CH_CTL_STATE_0 1 |>.setF Reg.STO_CH_CTL Fld.STO_CH_CTL_STATE_1 1).stoMod (fun x => { x with sbs := [(2, { state := 1, stream := 3, mask := 7, next := 0 })], pass := some (1, 1) })), by decide +kernel⟩

/-- The hypotheses of the clause on channelEvacuate: an evacuation that the other channel has room for begins. -/
theorem wit_channelEvacuate : ∃ (c : Nat) (s : State), (c < 2) ∧ (s.sto.evac = none) ∧ (s.sto.rejoin = none) ∧ (s.phase = 6) ∧
  (s.chanSt 0 = 1) ∧ (s.chanSt 1 = 1) ∧ (s.chPresent 0 = true) ∧ (s.chPresent 1 = true) ∧ ((s.sto.map.filter (fun e => decide (e.2 ≠ 0 ∧
  e.2 ≠ lostMark))).length * 100 ≤ s.otherCap c * 85) :=
  ⟨1, ((State.reset.setF Reg.STO_STAT Fld.STO_STAT_PHASE 6).setF Reg.STO_DIE_STAT ⟨31, 0⟩ 0x55555555 |>.setF Reg.STO_CH_CTL Fld.STO_CH_CTL_STATE_0 1 |>.setF Reg.STO_CH_CTL Fld.STO_CH_CTL_STATE_1 1), by decide +kernel⟩

/-- The hypotheses of the clause on channelEvacuate: a second one is refused with 3. -/
theorem wit_channelEvacuate_busy : ∃ (c : Nat) (s : State), (s.sto.evac.isSome = true) :=
  ⟨1, ((State.reset.setF Reg.STO_STAT Fld.STO_STAT_PHASE 6).stoMod (fun x => { x with evac := some 0 })), by decide +kernel⟩

/-- The hypotheses of the clause on evacuationDone: a channel that no superblock uses is powered off. -/
theorem wit_evacuationDone : ∃ (c : Nat) (s : State), (s.sto.evac = some c) ∧ (c < 2) ∧ (s.sto.reloc = none) ∧
  (s.sto.sbs.any (fun e => decide (e.2.state ≠ 3 ∧ e.2.mask / 2 ^ (8 * c) % 256 ≠ 0)) = false) ∧ (s.pins.nandPwr.length = 2) :=
  ⟨1, (((State.reset.setF Reg.STO_STAT Fld.STO_STAT_PHASE 6).setF Reg.STO_DIE_STAT ⟨31, 0⟩ 0x55555555 |>.setF Reg.STO_CH_CTL Fld.STO_CH_CTL_STATE_0 1 |>.setF Reg.STO_CH_CTL Fld.STO_CH_CTL_STATE_1 1).stoMod (fun x => { x with evac := some 1 })), by decide +kernel⟩

/-- The hypotheses of the clause on channelRejoin: an evacuated channel is powered up. -/
theorem wit_channelRejoin : ∃ (c : Nat) (s : State), (c < 2) ∧ (s.sto.evac = none) ∧ (s.sto.rejoin = none) ∧ (s.chanSt c = 3) ∧
  (s.pins.nandPwr.length = 2) :=
  ⟨1, ((State.reset.setF Reg.STO_STAT Fld.STO_STAT_PHASE 6).stoMod (fun x => { x with chans := [(1, 3)] })), by decide +kernel⟩

/-- The hypotheses of the clause on channelRejoin: one that is not evacuated is refused with 5. -/
theorem wit_channelRejoin_not : ∃ (c : Nat) (s : State), (s.sto.evac = none) ∧ (s.sto.rejoin = none) ∧ (s.chanSt (c % 2) ≠ 3) :=
  ⟨1, (State.reset.setF Reg.STO_STAT Fld.STO_STAT_PHASE 6), by decide +kernel⟩

/-- The hypotheses of the clause on rejoinDone: dies that match join with their factory bad blocks only. -/
theorem wit_rejoinDone : ∃ (bad : List (Nat × Nat)) (c : Nat) (s : State), (s.sto.rejoin = some c) ∧ (c < 2) :=
  ⟨[], 1, ((((State.reset.setF Reg.STO_STAT Fld.STO_STAT_PHASE 6).stoMod (fun x => { x with rejoin := some 1, chans := [(1, 3)] })).setF Reg.STO_GEOM Fld.STO_GEOM_BLOCKS 4).setF Reg.STO_NAND Fld.STO_NAND_DIES 2), by decide +kernel⟩

/-- The hypotheses of the clause on rejoinDone: dies that do not match are refused with 4 and powered off. -/
theorem wit_rejoinDone_bad : ∃ (bad : List (Nat × Nat)) (c : Nat) (s : State), (s.sto.rejoin = some c) ∧ (c < 2) ∧
  (s.pins.nandPwr.length = 2) :=
  ⟨[], 1, ((State.reset.setF Reg.STO_STAT Fld.STO_STAT_PHASE 6).stoMod (fun x => { x with rejoin := some 1, chans := [(1, 3)] })), by decide +kernel⟩

/-- The hypotheses of the clause on ringRead: a read of one unit fills its buffer, status 3 telling of a lost one. -/
theorem wit_ringRead : ∃ (k : Nat) (d : Bytes) (s : State), (k < 2) ∧ (s.ringNext k = some d) ∧ (u8 d 0 = 1) ∧ (s.ringCheck k d false = 0) ∧
  (u32 d 8 = 1) ∧ (un d 16 8 + 4096 ≤ s.dramFit) ∧ ((s.storeGet (u8 d 1) (u32 d 4)).length = 4096) ∧
  (∀ b ∈ s.storeGet (u8 d 1) (u32 d 4), b < 256) ∧ (s.ringA k (s.ringCons k) + 32 ≤ un d 16 8) :=
  ⟨0, ([1, 2, 0x80, 0, 0,0,0,0, 1,0,0,0, 0,0,0,0, 0,0x10,0,0,0,0,0,0] ++ List.replicate 8 0), ((((State.reset.setF Reg.STO_STAT Fld.STO_STAT_PHASE 6).wrMem 0 ([1, 2, 0x80, 0, 0,0,0,0, 1,0,0,0, 0,0,0,0, 0,0x10,0,0,0,0,0,0] ++ List.replicate 8 0)).setF (Reg.STO_RING_HEAD 0) Fld.STO_RING_HEAD_PROD 1).setF (Reg.STO_RING_LO 0) Fld.STO_RING_LO_RING_LOG2 4 |>.setF (Reg.STO_PART_SIZE 2) Fld.STO_PART_SIZE_SIZE 1), by decide +kernel⟩

/-- The hypotheses of the clause on ringRead: a descriptor that a check refuses completes with its status. -/
theorem wit_ringRead_refused : ∃ (k : Nat) (d : Bytes) (err : Bool) (s : State), (k < 2) ∧ (s.ringNext k = some d) ∧ (u8 d 0 = 1) ∧
  (s.ringCheck k d false ≠ 0) :=
  ⟨0, ([1, 5, 0x80, 0, 0,0,0,0, 1,0,0,0, 0,0,0,0, 0,0x10,0,0,0,0,0,0] ++ List.replicate 8 0), false, ((((State.reset.setF Reg.STO_STAT Fld.STO_STAT_PHASE 6).wrMem 0 ([1, 5, 0x80, 0, 0,0,0,0, 1,0,0,0, 0,0,0,0, 0,0x10,0,0,0,0,0,0] ++ List.replicate 8 0)).setF (Reg.STO_RING_HEAD 0) Fld.STO_RING_HEAD_PROD 1).setF (Reg.STO_RING_LO 0) Fld.STO_RING_LO_RING_LOG2 4), by decide +kernel⟩

/-- The hypotheses of the clause on ringWrite: a write of one unit takes its buffer into the partition. -/
theorem wit_ringWrite : ∃ (k : Nat) (d : Bytes) (s : State), (k < 2) ∧ (s.ringNext k = some d) ∧ (u8 d 0 = 2) ∧ (s.ringCheck k d true = 0) ∧
  (u32 d 8 = 1) ∧ (un d 16 8 + 4096 ≤ s.dramFit) ∧ (s.ringConflict = false) ∧ (((s.readySb 1).openSb 1).isSome = true) ∧
  ((s.place 1 { lua := luaOf (u8 d 1) (u32 d 4), dseq := s.sto.dseq, kind := 0, data := s.rdMem (un d 16 8) 4096 }).2 ≠ lostMark) ∧
  (s.sto.fmaps.length < 65536) :=
  ⟨0, ([2, 2, 0x80, 0, 0,0,0,0, 1,0,0,0, 0,0,0,0, 0,0x10,0,0,0,0,0,0] ++ List.replicate 8 0), ((((((State.reset.setF Reg.STO_STAT Fld.STO_STAT_PHASE 6).setF Reg.STO_DIE_STAT ⟨31, 0⟩ 0x55555555 |>.setF Reg.STO_CH_CTL Fld.STO_CH_CTL_STATE_0 1 |>.setF Reg.STO_CH_CTL Fld.STO_CH_CTL_STATE_1 1).stoMod (fun x => { x with sbs := [(2, { state := 1, stream := 1, mask := 7, next := 0 })] })).wrMem 0 ([2, 2, 0x80, 0, 0,0,0,0, 1,0,0,0, 0,0,0,0, 0,0x10,0,0,0,0,0,0] ++ List.replicate 8 0)).setF (Reg.STO_RING_HEAD 0) Fld.STO_RING_HEAD_PROD 1).setF (Reg.STO_RING_LO 0) Fld.STO_RING_LO_RING_LOG2 4 |>.setF (Reg.STO_PART_SIZE 2) Fld.STO_PART_SIZE_SIZE 1), by decide +kernel⟩

/-- The hypotheses of the clause on ringTrim: a trim unmaps its units. -/
theorem wit_ringTrim : ∃ (k : Nat) (d : Bytes) (s : State), (k < 2) ∧ (s.ringNext k = some d) ∧ (u8 d 0 = 3) ∧ (s.ringCheck k d true = 0) :=
  ⟨0, ([3, 2, 0x80, 0, 0,0,0,0, 1,0,0,0, 0,0,0,0, 0,0x10,0,0,0,0,0,0] ++ List.replicate 8 0), ((((State.reset.setF Reg.STO_STAT Fld.STO_STAT_PHASE 6).wrMem 0 ([3, 2, 0x80, 0, 0,0,0,0, 1,0,0,0, 0,0,0,0, 0,0x10,0,0,0,0,0,0] ++ List.replicate 8 0)).setF (Reg.STO_RING_HEAD 0) Fld.STO_RING_HEAD_PROD 1).setF (Reg.STO_RING_LO 0) Fld.STO_RING_LO_RING_LOG2 4 |>.setF (Reg.STO_PART_SIZE 2) Fld.STO_PART_SIZE_SIZE 1), by decide +kernel⟩

/-- The hypotheses of the clause on ringFlush: a flush completes with everything written before it programmed. -/
theorem wit_ringFlush : ∃ (k : Nat) (d : Bytes) (s : State), (k < 2) ∧ (s.ringNext k = some d) ∧ (u8 d 0 = 4) ∧ (s.phase = 6) :=
  ⟨0, ([4, 0, 0x80, 0, 0,0,0,0, 1,0,0,0, 0,0,0,0, 0,0x10,0,0,0,0,0,0] ++ List.replicate 8 0), ((((State.reset.setF Reg.STO_STAT Fld.STO_STAT_PHASE 6).wrMem 0 ([4, 0, 0x80, 0, 0,0,0,0, 1,0,0,0, 0,0,0,0, 0,0x10,0,0,0,0,0,0] ++ List.replicate 8 0)).setF (Reg.STO_RING_HEAD 0) Fld.STO_RING_HEAD_PROD 1).setF (Reg.STO_RING_LO 0) Fld.STO_RING_LO_RING_LOG2 4 |>.setF (Reg.STO_PART_SIZE 0) Fld.STO_PART_SIZE_SIZE 1), by decide +kernel⟩

/-- The hypotheses of the clause on recTailWrite: a forward write of the tail trims the units it passes. -/
theorem wit_recTailWrite : ∃ (pos : Nat) (s : State), (pos < 2 ^ 32) ∧ ((pos + 2 ^ 32 - s.num Reg.STO_REC_TAIL) % 2 ^ 32 ≠ 0) ∧
  ((pos + 2 ^ 32 - s.num Reg.STO_REC_TAIL) % 2 ^ 32 ≤ (s.num Reg.STO_REC_HEAD + 2 ^ 32 - s.num Reg.STO_REC_TAIL) % 2 ^ 32) :=
  ⟨1, (State.reset.wrN Reg.STO_REC_HEAD 2), by decide +kernel⟩

/-- The hypotheses of the clause on recTailWrite: any other write of it changes nothing. -/
theorem wit_recTailWrite_ignored : ∃ (pos : Nat) (s : State), (pos < 2 ^ 32) ∧
  ((pos + 2 ^ 32 - s.num Reg.STO_REC_TAIL) % 2 ^ 32 = 0 ∨ (s.num Reg.STO_REC_HEAD + 2 ^ 32 - s.num Reg.STO_REC_TAIL) % 2 ^ 32 < (pos + 2 ^ 32 - s.num Reg.STO_REC_TAIL) % 2 ^ 32) :=
  ⟨5, State.reset, by decide +kernel⟩

/-- The hypotheses of the clause on metrologySample: import, export and per-phase accumulators together with their remainders gain exactly the energy of the sample. -/
theorem wit_metrologySample : ∃ (v i q ps : List Int) (n : Int) (s : State), (s.totEn = true) ∧ (s.tot.stopped = false) ∧
  (s.noGrant 8 3 = false) ∧ (s.tot.acc.length = 12) ∧ (s.tot.rem.length = 12) ∧
  (ps = (List.range 3).map (fun p => if s.single && decide (p ≠ 0) then 0 else s.phasePower p (10 + p) (s.chanIn p p (v.getD p 0)) (s.chanIn (3 + p) p (i.getD p 0)))) :=
  ⟨[1, 2, 3], [4, 5, 6], [7, 8, 9], [0, 0, 0], 5, (State.reset.setF Reg.TOT_CTL Fld.TOT_CTL_EN 1), by decide +kernel⟩

/-- The hypotheses of the clause on metrologySample: nothing is measured before EN. -/
theorem wit_metrologySample_off : ∃ (v i q : List Int) (n : Int) (s : State), (s.totEn = false) :=
  ⟨[1], [2], [3], 4, State.reset, by decide +kernel⟩

/-- The hypotheses of the clause on metrologyBlockPublish: the block's values are published, BLK_SEQ counts it, and a new block begins. -/
theorem wit_metrologyBlockPublish : ∃ (freq : Nat) (s : State), (s.totEn = true) ∧ (800 ≤ s.tot.blk.n) :=
  ⟨50000, ((State.reset.setF Reg.TOT_CTL Fld.TOT_CTL_EN 1).totMod (fun x => { x with blk := { n := 800 } })), by decide +kernel⟩

/-- The hypotheses of the clause on modulatorFault: a channel without transitions is faulted, counted, logged and recorded, and E_VALID is 0. -/
theorem wit_modulatorFault : ∃ (c : Nat) (s : State), (c ≤ 6) ∧ (s.chFault c = false) ∧ (s.single = false) ∧ (s.smp.fifo.length < 256) :=
  ⟨3, (State.reset.setF Reg.TOT_CTL Fld.TOT_CTL_EN 1), by decide +kernel⟩

/-- The hypotheses of the clause on modulatorFaultClear: the channel's fault clears and E_VALID waits for 8,000 good samples. -/
theorem wit_modulatorFaultClear : ∃ (c : Nat) (s : State), (c ≤ 6) ∧ (s.chFault c = true) :=
  ⟨3, ((State.reset.setF Reg.TOT_CTL Fld.TOT_CTL_EN 1).setF Reg.TOT_STAT Fld.TOT_STAT_CH_FAULT 9), by decide +kernel⟩

/-- The hypotheses of the clause on totEnable: EN is set for the committed set. -/
theorem wit_totEnable : ∃ (s : State), (s.exists_ 8 3 = true) ∧ (s.totEn = false) ∧ (s.liveCrc = crc32c (s.tot.live.take 124)) ∧
  (s.liveCrc = s.tot.calCrc.getD (calWord (s.storeGet 3 16) 31)) :=
  ⟨((State.reset.build (blockPath 8 3) { kind := 2 }).totMod (fun x => { x with live := List.replicate 124 0 ++ bytesLE 4 (crc32c (List.replicate 124 0)), calCrc := some (crc32c (List.replicate 124 0)) })), by decide +kernel⟩

/-- The hypotheses of the clause on totEnable: any other set is refused, and the refusal counted. -/
theorem wit_totEnable_refused : ∃ (s : State), (s.exists_ 8 3 = true) ∧ (s.totEn = false) ∧
  (s.liveCrc ≠ s.tot.calCrc.getD (calWord (s.storeGet 3 16) 31)) :=
  ⟨((State.reset.build (blockPath 8 3) { kind := 2 }).totMod (fun x => { x with calCrc := some 5 })), by decide +kernel⟩

/-- The hypotheses of the clause on sealOpened: an opening without a session is a tamper: counted, logged and recorded. -/
theorem wit_sealOpened : ∃ (s : State), (s.ao.sealOpen = false) ∧ (s.pins.reset = false) ∧ (s.session = false) ∧
  (s.smp.fifo.length < 256) :=
  ⟨State.reset, by decide +kernel⟩

/-- The hypotheses of the clause on sealOpened: within a session it is no tamper. -/
theorem wit_sealOpened_session : ∃ (s : State), (s.ao.sealOpen = false) ∧ (s.pins.reset = false) ∧ (s.session = true) :=
  ⟨(State.reset.setF Reg.TOT_STAT Fld.TOT_STAT_SESSION 1), by decide +kernel⟩

/-- The hypotheses of the clause on sealClosed: closing the seal ends the session and its record enters the legal log. -/
theorem wit_sealClosed : ∃ (s : State), (s.ao.sealOpen = true) ∧ (s.pins.reset = false) ∧ (s.session = true) :=
  ⟨{ ((State.reset.setF Reg.STO_STAT Fld.STO_STAT_PHASE 6).setF Reg.TOT_STAT Fld.TOT_STAT_SESSION 1) with ao := { State.reset.ao with sealOpen := true } }, by decide +kernel⟩

/-- The hypotheses of the clause on sealSpend: SPEND takes one unseal count, logs it and opens a session on a copy of the live set. -/
theorem wit_sealSpend : ∃ (s : State), (s.exists_ 8 3 = true) ∧ (s.ao.sealOpen = true) ∧ (s.session = false) ∧ (s.logUsed ≤ 1021) ∧
  (s.phase = 6) ∧ (0 < s.cntLeft 5 0) :=
  ⟨{ (((State.reset.build (blockPath 8 3) { kind := 2 }).setF Reg.STO_STAT Fld.STO_STAT_PHASE 6).setF Reg.STO_DIE_STAT ⟨31, 0⟩ 0x55555555 |>.setF Reg.STO_CH_CTL Fld.STO_CH_CTL_STATE_0 1 |>.setF Reg.STO_CH_CTL Fld.STO_CH_CTL_STATE_1 1) with ao := { (State.reset.build (blockPath 8 3) { kind := 2 }).ao with sealOpen := true } }, by decide +kernel⟩

/-- The hypotheses of the clause on sealSpend: with the seal closed SPEND is refused with ERR 1 and spends nothing. -/
theorem wit_sealSpend_sealed : ∃ (s : State), (s.exists_ 8 3 = true) ∧ (s.ao.sealOpen = false) :=
  ⟨(State.reset.build (blockPath 8 3) { kind := 2 }), by decide +kernel⟩

/-- The hypotheses of the clause on sealSpend: with no count left SPEND is refused with ERR 2. -/
theorem wit_sealSpend_none : ∃ (s : State), (s.exists_ 8 3 = true) ∧ (s.ao.sealOpen = true) ∧ (s.session = false) ∧ (s.logUsed ≤ 1021) ∧
  (s.phase = 6) ∧ (s.cntLeft 5 0 = 0) :=
  ⟨{ { ((State.reset.build (blockPath 8 3) { kind := 2 }).setF Reg.STO_STAT Fld.STO_STAT_PHASE 6) with ao := { (State.reset.build (blockPath 8 3) { kind := 2 }).ao with sealOpen := true } } with hoop := { (State.reset.build (blockPath 8 3) { kind := 2 }).hoop with unsealUsed := 16 } }, by decide +kernel⟩

/-- The hypotheses of the clause on sealEnd: END closes the session and discards the staging set. -/
theorem wit_sealEnd : ∃ (s : State), (s.exists_ 8 3 = true) ∧ (s.session = true) ∧ (s.phase = 6) ∧ (s.logUsed < 1024) :=
  ⟨(((State.reset.build (blockPath 8 3) { kind := 2 }).setF Reg.STO_STAT Fld.STO_STAT_PHASE 6).setF Reg.TOT_STAT Fld.TOT_STAT_SESSION 1), by decide +kernel⟩

/-- The hypotheses of the clause on sealEnd: END without a session gives ERR 7. -/
theorem wit_sealEnd_none : ∃ (s : State), (s.exists_ 8 3 = true) ∧ (s.session = false) :=
  ⟨(State.reset.build (blockPath 8 3) { kind := 2 }), by decide +kernel⟩

/-- The hypotheses of the clause on sessionTimeout: SESSION_TO closes the session. -/
theorem wit_sessionTimeout : ∃ (s : State), (s.session = true) ∧ (s.phase = 6) ∧ (s.logUsed < 1024) :=
  ⟨((State.reset.setF Reg.STO_STAT Fld.STO_STAT_PHASE 6).setF Reg.TOT_STAT Fld.TOT_STAT_SESSION 1), by decide +kernel⟩

/-- The hypotheses of the clause on calCommit: a valid staging set is logged and becomes the live set; the billing set and the sub-interval are marked. -/
theorem wit_calCommit : ∃ (s : State), (s.exists_ 8 3 = true) ∧ (s.session = true) ∧ (calSetOk s.tot.staging = true) ∧ (s.logUsed < 1023) ∧
  (s.phase = 6) :=
  ⟨((((State.reset.build (blockPath 8 3) { kind := 2 }).setF Reg.STO_STAT Fld.STO_STAT_PHASE 6).setF Reg.TOT_STAT Fld.TOT_STAT_SESSION 1).totMod (fun x => { x with staging := (fun b => b ++ bytesLE 4 (crc32c b)) (List.replicate 64 0 ++ bytesLE 4 1 ++ bytesLE 4 50 ++ List.replicate 52 0) })), by decide +kernel⟩

/-- The hypotheses of the clause on calCommit: an invalid set is refused with ERR 6. -/
theorem wit_calCommit_bad : ∃ (fail : Bool) (s : State), (s.exists_ 8 3 = true) ∧ (s.session = true) ∧ (calSetOk s.tot.staging = false) :=
  ⟨false, (((State.reset.build (blockPath 8 3) { kind := 2 }).setF Reg.STO_STAT Fld.STO_STAT_PHASE 6).setF Reg.TOT_STAT Fld.TOT_STAT_SESSION 1), by decide +kernel⟩

/-- The hypotheses of the clause on calDataAccess: within a session a write goes to the selected staging word, and WORD advances. -/
theorem wit_calDataAccess : ∃ (x : Nat) (s : State), (s.exists_ 8 3 = true) ∧ (s.session = true) ∧
  (s.isF Reg.TOT_CAL_SEL Fld.TOT_CAL_SEL_TARGET = false) :=
  ⟨7, (((State.reset.build (blockPath 8 3) { kind := 2 }).setF Reg.STO_STAT Fld.STO_STAT_PHASE 6).setF Reg.TOT_STAT Fld.TOT_STAT_SESSION 1), by decide +kernel⟩

/-- The hypotheses of the clause on calDataAccess: a read gives the selected live word, and WORD advances. -/
theorem wit_calDataAccess_read : ∃ (s : State), (s.exists_ 8 3 = true) ∧ (s.isF Reg.TOT_CAL_SEL Fld.TOT_CAL_SEL_TARGET = true) :=
  ⟨((State.reset.build (blockPath 8 3) { kind := 2 }).setF Reg.TOT_CAL_SEL Fld.TOT_CAL_SEL_TARGET 1), by decide +kernel⟩

/-- The hypotheses of the clause on taiMinuteBoundary: at the end of a sub-interval its import enters the windows and a new one begins; the maximum demand never falls. -/
theorem wit_taiMinuteBoundary : ∃ (s : State), (s.totRuns = true) ∧ (s.demSub ≠ 0) ∧ (s.taiMin % s.demSub = 0) ∧ (s.tot.acal = []) ∧
  (s.isF Reg.TOT_PCAL_CTL Fld.TOT_PCAL_CTL_PRESENT = false) :=
  ⟨(((((State.reset.setF Reg.TOT_CTL Fld.TOT_CTL_EN 1).setF Reg.TU_STAT Fld.TU_STAT_TAI_VALID 1).setF Reg.TOT_DEM Fld.TOT_DEM_DEM_SUB 15).setF Reg.TOT_DEM Fld.TOT_DEM_DEM_N 2).totMod (fun x => { x with fresh := false })), by decide +kernel⟩

/-- The hypotheses of the clause on taiMinuteBoundary: within a sub-interval nothing is due. -/
theorem wit_taiMinuteBoundary_mid : ∃ (s : State), (s.totRuns = true) ∧ (s.demSub ≠ 0) ∧ (s.taiMin % s.demSub ≠ 0) ∧ (s.tot.acal = []) ∧
  (s.isF Reg.TOT_PCAL_CTL Fld.TOT_PCAL_CTL_PRESENT = false) :=
  ⟨((((((State.reset.setF Reg.TOT_CTL Fld.TOT_CTL_EN 1).setF Reg.TU_STAT Fld.TU_STAT_TAI_VALID 1).setF Reg.TOT_DEM Fld.TOT_DEM_DEM_SUB 15).setF Reg.TOT_DEM Fld.TOT_DEM_DEM_N 2).totMod (fun x => { x with fresh := false })).tuMod (fun x => { x with tai := 60 * 2 ^ 32 })), by decide +kernel⟩

/-- The hypotheses of the clause on billingForce: the current set becomes the previous one with its END_MIN, and a forced set begins; the accumulators run on. -/
theorem wit_billingForce : ∃ (s : State), (s.exists_ 8 3 = true) ∧ (s.tot.lastB < s.taiMin) ∧ (s.taiValid = true) :=
  ⟨(((State.reset.build (blockPath 8 3) { kind := 2 }).setF Reg.TU_STAT Fld.TU_STAT_TAI_VALID 1).tuMod (fun x => { x with tai := 600 * 2 ^ 32 })), by decide +kernel⟩

/-- The hypotheses of the clause on billingForce: a boundary not after the last one is refused. -/
theorem wit_billingForce_refused : ∃ (s : State), (s.exists_ 8 3 = true) ∧ (s.taiMin ≤ s.tot.lastB) :=
  ⟨(State.reset.build (blockPath 8 3) { kind := 2 }), by decide +kernel⟩

/-- The hypotheses of the clause on billSnap: SNAP copies the selected set whole. -/
theorem wit_billSnap : ∃ (s : State), (s.exists_ 8 3 = true) :=
  ⟨(State.reset.build (blockPath 8 3) { kind := 2 }), by decide +kernel⟩

/-- The hypotheses of the clause on billDataRead: a word of the read buffer is returned, and WORD advances. -/
theorem wit_billDataRead : ∃ (s : State), (s.exists_ 8 3 = true) :=
  ⟨(State.reset.build (blockPath 8 3) { kind := 2 }), by decide +kernel⟩

/-- The hypotheses of the clause on pcalLoad: STATUS says whether the calendar that the block reads checks; one that does is taken, any other refused and counted. -/
theorem wit_pcalLoad : ∃ (s : State), (s.exists_ 8 3 = true) ∧ (s.session = false) ∧
  (s.addr64 Reg.TOT_PCAL_LO Reg.TOT_PCAL_HI 14 + 10516 ≤ s.dramFit) :=
  ⟨{ (State.reset.build (blockPath 8 3) { kind := 2 }) with dram := [(0, 65), (1, 84), (2, 67), (3, 76), (4, 1), (6, 1), (7, 1), (8, 1), (36, 1), (48, 1), (49, 1), (144, 1), (10512, 203), (10513, 84), (10514, 156), (10515, 56)] }, by decide +kernel⟩

/-- The hypotheses of the clause on pcalLoad: during a session it is refused with STATUS 4. -/
theorem wit_pcalLoad_session : ∃ (err : Bool) (s : State), (s.exists_ 8 3 = true) ∧ (s.session = true) :=
  ⟨false, (((State.reset.build (blockPath 8 3) { kind := 2 }).setF Reg.STO_STAT Fld.STO_STAT_PHASE 6).setF Reg.TOT_STAT Fld.TOT_STAT_SESSION 1), by decide +kernel⟩

/-- The hypotheses of the clause on pcalCancel: CANCEL discards the passive calendar. -/
theorem wit_pcalCancel : ∃ (s : State), (s.exists_ 8 3 = true) :=
  ⟨(State.reset.build (blockPath 8 3) { kind := 2 }), by decide +kernel⟩

/-- The hypotheses of the clause on stateRecordPeriodic: a state record takes the next SAVE_SEQ, and nothing measured changes. -/
theorem wit_stateRecordPeriodic : ∃ (s : State), (s.totEn = true) ∧ (s.tot.stopped = false) ∧ (s.phase = 6) :=
  ⟨(((State.reset.setF Reg.STO_STAT Fld.STO_STAT_PHASE 6).setF Reg.STO_DIE_STAT ⟨31, 0⟩ 0x55555555 |>.setF Reg.STO_CH_CTL Fld.STO_CH_CTL_STATE_0 1 |>.setF Reg.STO_CH_CTL Fld.STO_CH_CTL_STATE_1 1).setF Reg.TOT_CTL Fld.TOT_CTL_EN 1), by decide +kernel⟩

/-- The hypotheses of the clause on totRestoration: the first valid sample after an outage counts it, and opens an irregular sub-interval; accumulators are untouched. -/
theorem wit_totRestoration : ∃ (c : TotCut) (s : State), (s.eValid = true) ∧ (s.taiValid = true) ∧ (s.tot.cut = some c) :=
  ⟨⟨0, 2⟩, (((((((State.reset.setF Reg.TOT_CTL Fld.TOT_CTL_EN 1).setF Reg.TU_STAT Fld.TU_STAT_TAI_VALID 1).setF Reg.TOT_DEM Fld.TOT_DEM_DEM_SUB 15).setF Reg.TOT_DEM Fld.TOT_DEM_DEM_N 2).totMod (fun x => { x with fresh := false })).setF Reg.TOT_STAT Fld.TOT_STAT_E_VALID 1).totMod (fun x => { x with cut := some ⟨0, 2⟩ })), by decide +kernel⟩

/-- The hypotheses of the clause on totRestoration: without a record the first sub-interval opens irregular. -/
theorem wit_totRestoration_first : ∃ (s : State), (s.eValid = true) ∧ (s.taiValid = true) ∧ (s.tot.cut = none) ∧ (s.tot.fresh = true) :=
  ⟨(((((((State.reset.setF Reg.TOT_CTL Fld.TOT_CTL_EN 1).setF Reg.TU_STAT Fld.TU_STAT_TAI_VALID 1).setF Reg.TOT_DEM Fld.TOT_DEM_DEM_SUB 15).setF Reg.TOT_DEM Fld.TOT_DEM_DEM_N 2).totMod (fun x => { x with fresh := false })).setF Reg.TOT_STAT Fld.TOT_STAT_E_VALID 1).totMod (fun x => { x with fresh := true })), by decide +kernel⟩

/-- The hypotheses of the clause on leapSecond: CUR takes NEXT at LEAP_AT, and TAI does not jump. -/
theorem wit_leapSecond : ∃ (s : State), (s.num Reg.TU_LEAP_AT ≠ 0) ∧ (fired (s.taiSec % 2 ^ 32) (s.num Reg.TU_LEAP_AT) = true) :=
  ⟨(((State.reset.setF Reg.TU_LEAP_AT Fld.TU_LEAP_AT_SEC 5).setF Reg.TU_UTC Fld.TU_UTC_NEXT 38).tuMod (fun x => { x with tai := 6 * 2 ^ 32 })), by decide +kernel⟩

/-- The hypotheses of the clause on leapSecond: with LEAP_AT at 0 there is no leap second. -/
theorem wit_leapSecond_none : ∃ (s : State), (s.num Reg.TU_LEAP_AT = 0) :=
  ⟨State.reset, by decide +kernel⟩

/-- The hypotheses of the clause on rtcReload: the RTC is loaded from valid TAI. -/
theorem wit_rtcReload : ∃ (s : State), (s.taiValid = true) ∧ (s.tbLost = false) :=
  ⟨(State.reset.setF Reg.TU_STAT Fld.TU_STAT_TAI_VALID 1), by decide +kernel⟩

/-- The hypotheses of the clause on rtcReload: and left alone while TAI is not valid. -/
theorem wit_rtcReload_off : ∃ (s : State), (s.taiValid = false) :=
  ⟨State.reset, by decide +kernel⟩

/-- The hypotheses of the clause on cyclesReset: an hour without a ladder step returns CYCLES to 0. -/
theorem wit_cyclesReset : ∃ (s : State), (3600 ≤ s.ladder.sinceStep) :=
  ⟨{ State.reset with ladder := { State.reset.ladder with sinceStep := 3600 } }, by decide +kernel⟩

/-- The hypotheses of the clause on txtsPop: a read of word 1 pops the oldest transmit stamp of the uplink. -/
theorem wit_txtsPop : ∃ (u a b : Nat) (r : List (Nat × Nat)) (s : State), (u < 2) ∧ (s.txts u = (a, b) :: r) :=
  ⟨0, 1, 2, [], (State.reset.tuMod (fun x => { x with txtsA := [(1, 2)] })), by decide +kernel⟩

/-- The hypotheses of the clause on afeAdjStore: a port's delays are stored for that port alone. -/
theorem wit_afeAdjStore : ∃ (port tx rx : Nat) (s : State), (port < 64) ∧ (tx < 4096) ∧ (rx < 4096) :=
  ⟨5, 3, 4, State.reset, by decide +kernel⟩

/-- The hypotheses of the clause on cmpFire: a periodic comparator that fires sets its flag, its event and its output, and its target advances by PER. -/
theorem wit_cmpFire : ∃ (k : Nat) (s : State), (k < 8) ∧ (s.isF (Reg.TU_CMP_CTL k) Fld.TU_CMP_CTL_EN = true) ∧
  (fired s.now (s.num (Reg.TU_CMP_T k)) = true) ∧ (s.isF (Reg.TU_CMP_CTL k) Fld.TU_CMP_CTL_PERIODIC = true) :=
  ⟨3, ((((State.reset.setF (Reg.TU_CMP_CTL 3) Fld.TU_CMP_CTL_EN 1).setF (Reg.TU_CMP_CTL 3) Fld.TU_CMP_CTL_PERIODIC 1).setF (Reg.TU_CMP_PER 3) Fld.TU_CMP_PER_PER 100).setF (Reg.TU_CMP_CTL 3) Fld.TU_CMP_CTL_OUT 1), by decide +kernel⟩

/-- The hypotheses of the clause on cmpFire: a single one stops. -/
theorem wit_cmpFire_once : ∃ (k : Nat) (s : State), (k < 8) ∧ (s.isF (Reg.TU_CMP_CTL k) Fld.TU_CMP_CTL_EN = true) ∧
  (fired s.now (s.num (Reg.TU_CMP_T k)) = true) ∧ (s.isF (Reg.TU_CMP_CTL k) Fld.TU_CMP_CTL_PERIODIC = false) :=
  ⟨3, (State.reset.setF (Reg.TU_CMP_CTL 3) Fld.TU_CMP_CTL_EN 1), by decide +kernel⟩

/-- The hypotheses of the clause on cmpFire: a target ahead does not fire. -/
theorem wit_cmpFire_ahead : ∃ (k : Nat) (s : State), (k < 8) ∧ (fired s.now (s.num (Reg.TU_CMP_T k)) = false) :=
  ⟨3, ((State.reset.setF (Reg.TU_CMP_CTL 3) Fld.TU_CMP_CTL_EN 1).setF (Reg.TU_CMP_T 3) Fld.TU_CMP_T_T 500), by decide +kernel⟩

/-- The hypotheses of the clause on cmpOutputEnd: the ball named falls, the other stays. -/
theorem wit_cmpOutputEnd : ∃ (b : Nat) (s : State), (b < 2) :=
  ⟨0, (State.reset.tuMod (fun x => { x with evt0 := some 3, evt1 := some 2 })), by decide +kernel⟩

/-- The hypotheses of the clause on ppsOutPulse: PPS_OUT rises at a whole second. -/
theorem wit_ppsOutPulse : ∃ (s : State), (s.isF Reg.TU_SRC_CFG Fld.TU_SRC_CFG_PPS_OUT_EN = true) ∧ (s.taiValid = true) ∧
  (s.time.lastPulse = none) :=
  ⟨((State.reset.setF Reg.TU_SRC_CFG Fld.TU_SRC_CFG_PPS_OUT_EN 1).setF Reg.TU_STAT Fld.TU_STAT_TAI_VALID 1), by decide +kernel⟩

/-- The hypotheses of the clause on ppsOutPulse: and is held low while TAI is not valid. -/
theorem wit_ppsOutPulse_off : ∃ (s : State), (s.taiValid = false) :=
  ⟨State.reset, by decide +kernel⟩

/-- The hypotheses of the clause on ptpOffsetWrite: a PTP sample within STEP_US corrects the rate within FMAX and never the time; 8 good samples lock. -/
theorem wit_ptpOffsetWrite : ∃ (v : Nat) (s : State), (s.tuSrc = 1) ∧ (s.time.first = false) ∧ (s.tbLost = false) ∧
  ((signed 32 v).natAbs ≤ s.getF Reg.TU_SERVO Fld.TU_SERVO_STEP_US * 1000) :=
  ⟨3, (((((((State.reset.setF Reg.TU_SERVO Fld.TU_SERVO_SRC 1).setF Reg.TU_SERVO Fld.TU_SERVO_FMAX_PPM 100).setF Reg.TU_SERVO Fld.TU_SERVO_STEP_US 10).setF Reg.TU_SERVO Fld.TU_SERVO_LOCK_NS 100).setF Reg.TU_GAIN Fld.TU_GAIN_KP 10).setF Reg.TU_GAIN Fld.TU_GAIN_KI 5).tuMod (fun x => { x with first := false, lastSmp := some 0 })), by decide +kernel⟩

/-- The hypotheses of the clause on ptpOffsetWrite: a first sample beyond STEP_US steps the time. -/
theorem wit_ptpOffsetWrite_step : ∃ (v : Nat) (s : State), (s.tuSrc = 1) ∧ (s.tbLost = false) ∧
  (s.getF Reg.TU_SERVO Fld.TU_SERVO_STEP_US * 1000 < (signed 32 v).natAbs) ∧ (s.time.first = true) :=
  ⟨50000, ((State.reset.setF Reg.TU_SERVO Fld.TU_SERVO_SRC 1).setF Reg.TU_SERVO Fld.TU_SERVO_STEP_US 10), by decide +kernel⟩

/-- The hypotheses of the clause on ptpOffsetWrite: a write of TU_OFS_IN without SRC 1 is no sample. -/
theorem wit_ptpOffsetWrite_off : ∃ (v : Nat) (s : State), (s.tuSrc ≠ 1) :=
  ⟨3, State.reset, by decide +kernel⟩

/-- The hypotheses of the clause on ppsInEdge: an edge more than 100 µs off its second is discarded and counted. -/
theorem wit_ppsInEdge : ∃ (sub p : Nat) (s : State), (s.tbLost = false) ∧ (s.tuSrc = 2) ∧ (s.time.lastPps = some p) ∧
  (100000 < (((s.taiInNs + sub : Nat) : Int) - p - 1000000000).natAbs) :=
  ⟨0, 0, ((State.reset.setF Reg.TU_SERVO Fld.TU_SERVO_SRC 2).tuMod (fun x => { x with lastPps := some 0 })), by decide +kernel⟩

/-- The hypotheses of the clause on ppsInEdge: a first edge is a sample. -/
theorem wit_ppsInEdge_first : ∃ (sub : Nat) (s : State), (s.tbLost = false) ∧ (s.tuSrc = 2) ∧ (s.time.lastPps = none) :=
  ⟨0, (State.reset.setF Reg.TU_SERVO Fld.TU_SERVO_SRC 2), by decide +kernel⟩

/-- The hypotheses of the clause on pairTimeSample: a standby's pair sample corrects the rate within FMAX. -/
theorem wit_pairTimeSample : ∃ (v : Nat) (s : State), (s.tuSrc = 3) ∧ (s.pairSamples = true) ∧ (s.time.first = false) ∧ (s.tbLost = false) ∧
  ((signed 32 v).natAbs ≤ s.getF Reg.TU_SERVO Fld.TU_SERVO_STEP_US * 1000) :=
  ⟨3, ((((State.reset.setF Reg.TU_SERVO Fld.TU_SERVO_SRC 3).setF Reg.TU_SERVO Fld.TU_SERVO_STEP_US 10).setF Reg.SMP_PAIR_STAT Fld.SMP_PAIR_STAT_STATE 2).tuMod (fun x => { x with first := false })), by decide +kernel⟩

/-- The hypotheses of the clause on pairTimeSample: a device that is not a standby takes none. -/
theorem wit_pairTimeSample_off : ∃ (v : Nat) (s : State), (s.pairSamples = false) :=
  ⟨3, State.reset, by decide +kernel⟩

/-- The hypotheses of the clause on holdoverTimeout: without samples the servo holds the integral's rate. -/
theorem wit_holdoverTimeout : ∃ (s : State), (s.servo = 1 ∨ s.servo = 2) :=
  ⟨((State.reset.setF Reg.TU_SERVO_STAT Fld.TU_SERVO_STAT_STATE 2).tuMod (fun x => { x with i := 77 })), by decide +kernel⟩

/-- The hypotheses of the clause on servoSrcChange: a change of SRC restarts the servo with its next sample a first one. -/
theorem wit_servoSrcChange : ∃ (src : Nat) (s : State), (src < 4) ∧ (src ≠ s.tuSrc) :=
  ⟨1, State.reset, by decide +kernel⟩

/-- The hypotheses of the clause on sessionOpen: OPEN of an ingest session with a valid context takes its keys and opens it. -/
theorem wit_sessionOpen : ∃ (n : Nat) (d : Bytes) (s : State), (n < 64) ∧ (d = s.rdMem (s.ctxA n) 128) ∧ ((s.usess n).st = 0) ∧
  (ctxGood d = true) ∧ (s.sessOpenCount < 32) ∧ (s.role n ≠ 7) ∧ (u8 d 1 = 0) ∧ (un d 40 8 < 2 ^ 24) ∧ (un d 48 8 < 2 ^ 24) :=
  ⟨2, ([0, 0, 0, 3, 0, 12] ++ List.replicate 122 0), ((State.reset.setRole 2 1).wrMem 256 [0, 0, 0, 3, 0, 12]), by decide +kernel⟩

/-- The hypotheses of the clause on sessionOpen: OPEN of a session that is not closed is refused with code 3. -/
theorem wit_sessionOpen_open : ∃ (n : Nat) (s : State), (n < 64) ∧ ((s.usess n).st ≠ 0) :=
  ⟨2, (State.reset.sessMod 2 (fun q => { q with st := 1 })), by decide +kernel⟩

/-- The hypotheses of the clause on sessionOpen: a session without a role is refused with code 5. -/
theorem wit_sessionOpen_role : ∃ (n : Nat) (s : State), (n < 64) ∧ ((s.usess n).st = 0) ∧ (ctxGood (s.rdMem (s.ctxA n) 128) = true) ∧
  (s.sessOpenCount < 32) ∧ (s.role n = 7) :=
  ⟨2, (State.reset.wrMem 256 [0, 0, 0, 3, 0, 12]), by decide +kernel⟩

/-- The hypotheses of the clause on sessionResume: RESUME opens a stopped session with its context read again. -/
theorem wit_sessionResume : ∃ (n : Nat) (d : Bytes) (s : State), (n < 64) ∧ (d = s.rdMem (s.ctxA n) 128) ∧ ((s.usess n).st = 2) ∧
  (ctxGood d = true) ∧ (un d 40 8 < 2 ^ 24) ∧ (un d 48 8 < 2 ^ 24) :=
  ⟨2, ([0, 0, 0, 3, 0, 12] ++ List.replicate 122 0), (((State.reset.setRole 2 1).wrMem 256 [0, 0, 0, 3, 0, 12]).sessMod 2 (fun q => { q with st := 2 })), by decide +kernel⟩

/-- The hypotheses of the clause on sessionResume: RESUME of a session that is not stopped is refused with code 2. -/
theorem wit_sessionResume_not : ∃ (n : Nat) (s : State), (n < 64) ∧ ((s.usess n).st ≠ 2) :=
  ⟨2, State.reset, by decide +kernel⟩

/-- The hypotheses of the clause on sessionClose: CLOSE discards what is partial and waiting, and the session's role is none again. -/
theorem wit_sessionClose : ∃ (n : Nat) (s : State), (n < 64) ∧ ((s.usess n).st ≠ 0) :=
  ⟨2, (State.reset.sessMod 2 (fun q => { q with st := 1 })), by decide +kernel⟩

/-- The hypotheses of the clause on sessionSync: SYNC writes the engine's sequence numbers back to the context. -/
theorem wit_sessionSync : ∃ (n : Nat) (s : State), (n < 64) ∧ ((s.usess n).st ≠ 0) :=
  ⟨2, (State.reset.sessMod 2 (fun q => { q with st := 1, rxSeq := 5 })), by decide +kernel⟩

/-- The hypotheses of the clause on sessionDoorbell: a doorbell moves RX_WR or TX_RD of an open session. -/
theorem wit_sessionDoorbell : ∃ (n which v : Nat) (s : State), (n < 64) ∧ ((s.usess n).st = 1) :=
  ⟨2, 0, 5, (State.reset.sessMod 2 (fun q => { q with st := 1 })), by decide +kernel⟩

/-- The hypotheses of the clause on handshakeSign: the hoop signs with the identity key. -/
theorem wit_handshakeSign : ∃ (n : Nat) (content : Bytes) (s : State), ((s.ndl 8).key ≠ []) :=
  ⟨2, [1], (State.reset.ndlPut 8 { key := [1] }), by decide +kernel⟩

/-- The hypotheses of the clause on roleBind: a checked certificate binds its role to the session alone. -/
theorem wit_roleBind : ∃ (n r : Nat) (s : State), (n < 64) ∧ (r ≤ 5) :=
  ⟨2, 3, State.reset, by decide +kernel⟩

/-- The hypotheses of the clause on tlsRecordReceive: a record whose tag fails stops the session with ERR 2 and delivers nothing; a good one advances RX_RD and the sequence number. -/
theorem wit_tlsRecordReceive : ∃ (n : Nat) (h : Bytes) (s : State), (s.uplEn = true) ∧ (s.noGrant 9 5 = false) ∧ (n < 64) ∧
  ((s.usess n).st = 1) ∧ ((s.usess n).inBuf = []) ∧ (s.ingHeld (s.usess n) = false) ∧
  (h = s.ringRead (s.usess n).rxBase (s.usess n).ringLog (s.usess n).rxRd 5) ∧ (u8 h 0 = 23) ∧ (u16be h 1 = 0x0303) ∧ (u16be h 3 ≤ 16640) ∧
  (5 + u16be h 3 ≤ ((s.usess n).rxWr + 2 ^ 24 - (s.usess n).rxRd) % 2 ^ 24) :=
  ⟨2, [23, 3, 3, 0, 0], (((State.reset.setF Reg.UPL_CTL Fld.UPL_CTL_EN 1).wrMem 0 [23, 3, 3, 0, 0]).sessMod 2 (fun q => { q with st := 1, rxWr := 5 })), by decide +kernel⟩

/-- The hypotheses of the clause on tlsRecordReceive: a record of another type stops the session with ERR 1. -/
theorem wit_tlsRecordReceive_type : ∃ (n : Nat) (h : Bytes) (s : State), (s.uplEn = true) ∧ (s.noGrant 9 5 = false) ∧ (n < 64) ∧
  ((s.usess n).st = 1) ∧ ((s.usess n).inBuf = []) ∧ (s.ingHeld (s.usess n) = false) ∧
  (h = s.ringRead (s.usess n).rxBase (s.usess n).ringLog (s.usess n).rxRd 5) ∧
  (5 ≤ ((s.usess n).rxWr + 2 ^ 24 - (s.usess n).rxRd) % 2 ^ 24) ∧ (u8 h 0 ≠ 23) :=
  ⟨2, [22, 3, 3, 0, 0], (((State.reset.setF Reg.UPL_CTL Fld.UPL_CTL_EN 1).wrMem 0 [22, 3, 3, 0, 0]).sessMod 2 (fun q => { q with st := 1, rxWr := 5 })), by decide +kernel⟩

/-- The hypotheses of the clause on tlsRecordTransmit: at most 16,384 bytes leave as one record, which takes the next sequence number. -/
theorem wit_tlsRecordTransmit : ∃ (n : Nat) (s : State), (s.uplEn = true) ∧ (s.noGrant 9 5 = false) ∧ (n < 64) ∧ ((s.usess n).st = 1) ∧
  ((s.usess n).outBuf ≠ []) ∧
  (5 + (((s.usess n).outBuf.take 16384).length + 17) ≤ 2 ^ (s.usess n).ringLog - ((s.usess n).txWr + 2 ^ 24 - (s.usess n).txRd) % 2 ^ 24) ∧
  ((s.usess n).txSeq + 1 < 2 ^ 24) ∧ ((s.usess n).rxSeq < 2 ^ 24) :=
  ⟨2, ((State.reset.setF Reg.UPL_CTL Fld.UPL_CTL_EN 1).sessMod 2 (fun q => { q with st := 1, outBuf := [1, 2], txKey := List.replicate 16 1 })), by decide +kernel⟩

/-- The hypotheses of the clause on resultMessageSend: up to 64 results of the session go out in one message. -/
theorem wit_resultMessageSend : ∃ (n : Nat) (s : State), ((s.usess n).st = 1) ∧ ((s.usess n).kind = 0) ∧ (s.uplEn = true) ∧
  (s.mayTransmit = true) ∧ (s.upl.results.filter (fun r => decide (r.1 = n)) ≠ []) :=
  ⟨2, (((State.reset.setF Reg.UPL_CTL Fld.UPL_CTL_EN 1).sessMod 2 (fun q => { q with st := 1 })).uplMod (fun u => { u with results := [(2, List.replicate 8 1), (3, List.replicate 8 2)] })), by decide +kernel⟩

/-- The hypotheses of the clause on resultMessageSend: results of a closed session are discarded. -/
theorem wit_resultMessageSend_closed : ∃ (n : Nat) (s : State), ((s.usess n).st = 0) :=
  ⟨2, State.reset, by decide +kernel⟩

/-- The hypotheses of the clause on batchClose: the open batch closes with its records and the next BSEQ, and the partner's position moves past them. -/
theorem wit_batchClose : ∃ (k r : Nat) (x : USect) (g : Bool) (s : State), (k < 4) ∧ (s.uplEn = true) ∧ (s.partEn k = true) ∧
  (s.phase = 6) ∧ (s.getF (Reg.UPL_PART_CFG k) Fld.UPL_PART_CFG_KINDS = 8) ∧
  (s.sectNext k 4 (s.getF Reg.UPL_EXP_CTL Fld.UPL_EXP_CTL_BATCH_MAX) = (some x, r, g)) :=
  ⟨1, 8, ⟨4, 0, 1⟩, false, ((((((State.reset.setF Reg.UPL_CTL Fld.UPL_CTL_EN 1).setF (Reg.UPL_PART_CFG 1) Fld.UPL_PART_CFG_EN 1).setF (Reg.UPL_PART_CFG 1) Fld.UPL_PART_CFG_KINDS 8).setF Reg.UPL_EXP_CTL Fld.UPL_EXP_CTL_BATCH_MAX 10).setF Reg.STO_STAT Fld.STO_STAT_PHASE 6).wrN Reg.TOT_EVT_PROD 2), by decide +kernel⟩

/-- The hypotheses of the clause on batchClose: a partner that takes no kind of record gets no batch. -/
theorem wit_batchClose_none : ∃ (k : Nat) (s : State), (s.getF (Reg.UPL_PART_CFG k) Fld.UPL_PART_CFG_KINDS = 0) :=
  ⟨1, ((State.reset.setF Reg.UPL_CTL Fld.UPL_CTL_EN 1).setF (Reg.UPL_PART_CFG 1) Fld.UPL_PART_CFG_KINDS 0), by decide +kernel⟩

/-- The hypotheses of the clause on batchSend: the first batch due within the window goes out whole, marked as a resend where it is one. -/
theorem wit_batchSend : ∃ (k n : Nat) (b : UBatch) (s : State), (s.expSess k = some n) ∧ (s.batchDue k = some b) ∧ (s.phase = 6) :=
  ⟨1, 2, { bseq := 1, flags := 0, created := 9, sects := [⟨4, 0, 1⟩] }, (((((((State.reset.setF Reg.UPL_CTL Fld.UPL_CTL_EN 1).sessMod 2 (fun q => { q with st := 1, kind := 1, bind := 1 })).partMod 1 (fun p => { p with batches := [{ bseq := 1, flags := 0, created := 9, sects := [⟨4, 0, 1⟩] }], bseq := 2 })).setF (Reg.UPL_PART_CFG 1) Fld.UPL_PART_CFG_EN 1).setF (Reg.UPL_PART_CFG 1) Fld.UPL_PART_CFG_SESSION 2).setF (Reg.UPL_PART_CFG 1) Fld.UPL_PART_CFG_WINDOW 4).setF Reg.STO_STAT Fld.STO_STAT_PHASE 6), by decide +kernel⟩

/-- The hypotheses of the clause on dayBoundary: each enabled partner gets a manifest of the day that ends. -/
theorem wit_dayBoundary : ∃ (s : State), (s.taiValid = true) ∧ (s.uplEn = true) ∧
  (s.isF Reg.UPL_EXP_CTL Fld.UPL_EXP_CTL_MANIFEST_EN = true) :=
  ⟨((((((((State.reset.setF Reg.UPL_CTL Fld.UPL_CTL_EN 1).setF (Reg.UPL_PART_CFG 1) Fld.UPL_PART_CFG_EN 1).setF (Reg.UPL_PART_CFG 1) Fld.UPL_PART_CFG_KINDS 8).setF Reg.UPL_EXP_CTL Fld.UPL_EXP_CTL_BATCH_MAX 10).setF Reg.STO_STAT Fld.STO_STAT_PHASE 6).wrN Reg.TOT_EVT_PROD 2).setF Reg.TU_STAT Fld.TU_STAT_TAI_VALID 1).setF Reg.UPL_EXP_CTL Fld.UPL_EXP_CTL_MANIFEST_EN 1), by decide +kernel⟩

/-- The hypotheses of the clause on manifestSigned: the oldest unsigned manifest is signed, its body unchanged. -/
theorem wit_manifestSigned : ∃ (k : Nat) (m : UManifest) (s : State), ((s.part k).manifests.find? (fun (m : UManifest) => !m.signed) = some m) :=
  ⟨1, { day := 3, body := List.replicate 128 1 }, (State.reset.partMod 1 (fun p => { p with manifests := [{ day := 3, body := List.replicate 128 1 }] })), by decide +kernel⟩

/-- The hypotheses of the clause on uplinkRxFrame: a frame takes the descriptors it needs, and CONS passes them. -/
theorem wit_uplinkRxFrame : ∃ (u vlan status flags : Nat) (b : Bytes) (l : List Nat) (s : State), (u < 2) ∧ (s.macOn u = true) ∧
  (s.getF (Reg.UPL_RXR u) Fld.UPL_RXR_RING_LOG2 ≤ 12) ∧
  (s.rxSlots u (s.getF (Reg.UPL_RXH u) Fld.UPL_RXH_CONS) ((s.getF (Reg.UPL_RXH u) Fld.UPL_RXH_PROD + 2 ^ s.getF (Reg.UPL_RXR u) Fld.UPL_RXR_RING_LOG2 - s.getF (Reg.UPL_RXH u) Fld.UPL_RXH_CONS) % 2 ^ s.getF (Reg.UPL_RXR u) Fld.UPL_RXR_RING_LOG2) b.length = some l) :=
  ⟨0, 0, 0, 0, (List.replicate 60 1), [0], (((((State.reset.setF Reg.UPL_CTL Fld.UPL_CTL_MAC_EN_A 1).setF Reg.UPL_STAT Fld.UPL_STAT_A_UP 1).setF (Reg.UPL_RXR 0) Fld.UPL_RXR_RING_LOG2 4).setF (Reg.UPL_RXH 0) Fld.UPL_RXH_PROD 3).wrMem 0 [0, 16, 0, 0, 0, 0, 0, 0, 0, 4, 192]), by decide +kernel⟩

/-- The hypotheses of the clause on uplinkRxFrame: without descriptors the frame is dropped and counted. -/
theorem wit_uplinkRxFrame_drop : ∃ (u vlan status flags : Nat) (b : Bytes) (s : State), (u < 2) ∧ (s.macOn u = true) ∧
  (s.getF (Reg.UPL_RXR u) Fld.UPL_RXR_RING_LOG2 ≤ 12) ∧
  (s.rxSlots u (s.getF (Reg.UPL_RXH u) Fld.UPL_RXH_CONS) ((s.getF (Reg.UPL_RXH u) Fld.UPL_RXH_PROD + 2 ^ s.getF (Reg.UPL_RXR u) Fld.UPL_RXR_RING_LOG2 - s.getF (Reg.UPL_RXH u) Fld.UPL_RXH_CONS) % 2 ^ s.getF (Reg.UPL_RXR u) Fld.UPL_RXR_RING_LOG2) b.length = none) :=
  ⟨0, 0, 0, 0, (List.replicate 60 1), ((State.reset.setF Reg.UPL_CTL Fld.UPL_CTL_MAC_EN_A 1).setF Reg.UPL_STAT Fld.UPL_STAT_A_UP 1), by decide +kernel⟩

/-- The hypotheses of the clause on uplinkTxDesc: a descriptor without offloads sends its bytes, and CONS passes it. -/
theorem wit_uplinkTxDesc : ∃ (u : Nat) (d b : Bytes) (s : State), (u < 2) ∧ (s.macOn u = true) ∧
  (s.getF (Reg.UPL_TXH u) Fld.UPL_TXH_CONS ≠ s.getF (Reg.UPL_TXH u) Fld.UPL_TXH_PROD) ∧
  (d = s.rdMem (s.txDescA u (s.getF (Reg.UPL_TXH u) Fld.UPL_TXH_CONS)) 32) ∧ (128 ≤ u8 d 10) ∧
  (s.getF (Reg.UPL_TXR u) Fld.UPL_TXR_RING_LOG2 ≤ 12) ∧ (u16 d 12 = 0) ∧ (60 ≤ u16 d 8) ∧ (u16 d 8 ≤ 9216) ∧ (u16 d 16 = 0) ∧
  (b = s.rdMem (un d 0 8 % 2 ^ 36) (u16 d 8)) ∧ (ptpAt b = none) :=
  ⟨0, ([0, 16, 0, 0, 0, 0, 0, 0] ++ [60, 0] ++ [192, 0] ++ List.replicate 20 0), (List.replicate 60 0), (((((State.reset.setF Reg.UPL_CTL Fld.UPL_CTL_MAC_EN_A 1).setF Reg.UPL_STAT Fld.UPL_STAT_A_UP 1).setF (Reg.UPL_TXR 0) Fld.UPL_TXR_RING_LOG2 4).setF (Reg.UPL_TXH 0) Fld.UPL_TXH_PROD 1).wrMem 0 ([0, 16, 0, 0, 0, 0, 0, 0] ++ [60, 0] ++ [192, 0] ++ List.replicate 20 0)), by decide +kernel⟩

/-- The hypotheses of the clause on uplinkTxDesc: one of fewer than 60 bytes is refused. -/
theorem wit_uplinkTxDesc_short : ∃ (u : Nat) (d : Bytes) (s : State), (u < 2) ∧ (s.macOn u = true) ∧
  (s.getF (Reg.UPL_TXH u) Fld.UPL_TXH_CONS ≠ s.getF (Reg.UPL_TXH u) Fld.UPL_TXH_PROD) ∧
  (d = s.rdMem (s.txDescA u (s.getF (Reg.UPL_TXH u) Fld.UPL_TXH_CONS)) 32) ∧ (128 ≤ u8 d 10) ∧
  (s.getF (Reg.UPL_TXR u) Fld.UPL_TXR_RING_LOG2 ≤ 12) ∧ (u16 d 8 < 60) :=
  ⟨0, (([0, 16, 0, 0, 0, 0, 0, 0] ++ [59, 0] ++ [192, 0] ++ List.replicate 20 0)), (((((State.reset.setF Reg.UPL_CTL Fld.UPL_CTL_MAC_EN_A 1).setF Reg.UPL_STAT Fld.UPL_STAT_A_UP 1).setF (Reg.UPL_TXR 0) Fld.UPL_TXR_RING_LOG2 4).setF (Reg.UPL_TXH 0) Fld.UPL_TXH_PROD 1).wrMem 0 ([0, 16, 0, 0, 0, 0, 0, 0] ++ [59, 0] ++ [192, 0] ++ List.replicate 20 0)), by decide +kernel⟩

/-- The hypotheses of the clause on uplinkLinkChange: a link that changes is shown and raises LINK_CHANGE. -/
theorem wit_uplinkLinkChange : ∃ (up : Bool) (width gen : Nat) (s : State), (s.isF Reg.UPL_STAT Fld.UPL_STAT_A_UP ≠ up) :=
  ⟨true, 0, 0, State.reset, by decide +kernel⟩

/-- The hypotheses of the clause on uplinkLinkChange: PCI Express that goes down shows no width and no generation. -/
theorem wit_uplinkLinkChange_pcie : ∃ (width gen : Nat) (s : State), (s.isF Reg.UPL_STAT Fld.UPL_STAT_PCIE_UP = true) :=
  ⟨4, 3, (State.reset.setF Reg.UPL_STAT Fld.UPL_STAT_PCIE_UP 1), by decide +kernel⟩

/-- The hypotheses of the clause on shuttleEnd: END makes the channel idle at its active pointer and sets its done event. -/
theorem wit_shuttleEnd : ∃ (c : Nat) (b : Bytes) (s : State), (c < 32) ∧ (s.shuOn = true) ∧ (s.chState c = 2) ∧ (b = s.chIns c) ∧
  (b = 0 :: 0xFF :: List.replicate 14 0) ∧ (s.isF (Reg.SHU_CH_STAT c) Fld.SHU_CH_STAT_SHADOW_VALID = false) ∧ ((s.chan c).openPort = none) ∧
  (s.isF (Reg.SHU_CH_CTL c) Fld.SHU_CH_CTL_ARM = false) ∧ (s.event (40 + c) = false) :=
  ⟨3, (0 :: 0xFF :: List.replicate 14 0), ((((State.reset.setF Reg.SHU_CTL Fld.SHU_CTL_EN 1).setF (Reg.SHU_CH_STAT 3) Fld.SHU_CH_STAT_STATE 2).setPc 3 256).wrMem 4096 [0, 255]), by decide +kernel⟩

/-- The hypotheses of the clause on shuttleEnd: at END a valid shadow pointer becomes the active one. -/
theorem wit_shuttleEnd_hand : ∃ (c : Nat) (b : Bytes) (s : State), (c < 32) ∧ (s.shuOn = true) ∧ (s.chState c = 2) ∧ (b = s.chIns c) ∧
  (b = 0 :: 0xFF :: List.replicate 14 0) ∧ (s.isF (Reg.SHU_CH_STAT c) Fld.SHU_CH_STAT_SHADOW_VALID = true) ∧ ((s.chan c).openPort = none) :=
  ⟨3, (0 :: 0xFF :: List.replicate 14 0), ((((((State.reset.setF Reg.SHU_CTL Fld.SHU_CTL_EN 1).setF (Reg.SHU_CH_STAT 3) Fld.SHU_CH_STAT_STATE 2).setPc 3 256).wrMem 4096 [0, 255]).setF (Reg.SHU_CH_STAT 3) Fld.SHU_CH_STAT_SHADOW_VALID 1).chanMod 3 (fun k => { k with shadow := 77 })), by decide +kernel⟩

/-- The hypotheses of the clause on shuttleEnd: END with a packet left open is ERR 7. -/
theorem wit_shuttleEnd_open : ∃ (c : Nat) (b : Bytes) (s : State), (c < 32) ∧ (s.shuOn = true) ∧ (s.chState c = 2) ∧ (b = s.chIns c) ∧
  (b = 0 :: 0xFF :: List.replicate 14 0) ∧ ((s.chan c).openPort ≠ none) :=
  ⟨3, (0 :: 0xFF :: List.replicate 14 0), (((((State.reset.setF Reg.SHU_CTL Fld.SHU_CTL_EN 1).setF (Reg.SHU_CH_STAT 3) Fld.SHU_CH_STAT_STATE 2).setPc 3 256).wrMem 4096 [0, 255]).chanMod 3 (fun k => { k with openPort := some 4 })), by decide +kernel⟩

/-- The hypotheses of the clause on signal: SIGNAL sets the event that it names, and IRQ when asked. -/
theorem wit_signal : ∃ (c : Nat) (b : Bytes) (s : State), (c < 32) ∧ (s.shuOn = true) ∧ (s.chState c = 2) ∧ (b = s.chIns c) ∧
  (b = 0x51 :: 7 :: List.replicate 14 0) ∧ (s.event 7 = false) :=
  ⟨3, (0x51 :: 7 :: List.replicate 14 0), ((((State.reset.setF Reg.SHU_CTL Fld.SHU_CTL_EN 1).setF (Reg.SHU_CH_STAT 3) Fld.SHU_CH_STAT_STATE 2).setPc 3 256).wrMem 4096 [0x51, 7]), by decide +kernel⟩

/-- The hypotheses of the clause on signal: an event set again is counted as lost. -/
theorem wit_signal_lost : ∃ (c : Nat) (b : Bytes) (s : State), (c < 32) ∧ (s.shuOn = true) ∧ (s.chState c = 2) ∧ (b = s.chIns c) ∧
  (b = 0x50 :: 7 :: List.replicate 14 0) ∧ (s.event 7 = true) :=
  ⟨3, (0x50 :: 7 :: List.replicate 14 0), (((((State.reset.setF Reg.SHU_CTL Fld.SHU_CTL_EN 1).setF (Reg.SHU_CH_STAT 3) Fld.SHU_CH_STAT_STATE 2).setPc 3 256).wrMem 4096 [0x50, 7]).eventSet 7), by decide +kernel⟩

/-- The hypotheses of the clause on signal: an event that SIGNAL cannot name is ERR 1. -/
theorem wit_signal_bad : ∃ (c : Nat) (b : Bytes) (s : State), (c < 32) ∧ (s.shuOn = true) ∧ (s.chState c = 2) ∧ (b = s.chIns c) ∧
  (b = 0x50 :: 40 :: List.replicate 14 0) :=
  ⟨3, (0x50 :: 40 :: List.replicate 14 0), ((((State.reset.setF Reg.SHU_CTL Fld.SHU_CTL_EN 1).setF (Reg.SHU_CH_STAT 3) Fld.SHU_CH_STAT_STATE 2).setPc 3 256).wrMem 4096 [0x50, 40]), by decide +kernel⟩

/-- The hypotheses of the clause on loop: LOOP met first takes its count, and the channel jumps back. -/
theorem wit_loop : ∃ (c cnt back : Nat) (b : Bytes) (s : State), (c < 32) ∧ (s.shuOn = true) ∧ (s.chState c = 2) ∧ (b = s.chIns c) ∧
  (b = [0x30] ++ bytesLE 2 cnt ++ bytesLE 2 back ++ List.replicate 11 0) ∧ (2 ≤ cnt) ∧ (cnt < 65536) ∧ (1 ≤ back) ∧ (back ≤ 4095) ∧
  ((s.chan c).loop = none) ∧ (s.isF (Reg.SHU_CH_STAT c) Fld.SHU_CH_STAT_SHADOW_VALID = false) :=
  ⟨3, 3, 2, ([48, 3, 0, 2, 0, 0, 0, 0, 0, 0, 0, 0, 0, 0, 0, 0]), ((((State.reset.setF Reg.SHU_CTL Fld.SHU_CTL_EN 1).setF (Reg.SHU_CH_STAT 3) Fld.SHU_CH_STAT_STATE 2).setPc 3 256).wrMem 4096 [0x30, 3, 0, 2]), by decide +kernel⟩

/-- The hypotheses of the clause on loop: the last round falls through and frees the counter. -/
theorem wit_loop_last : ∃ (c cnt back : Nat) (b : Bytes) (s : State), (c < 32) ∧ (s.shuOn = true) ∧ (s.chState c = 2) ∧ (b = s.chIns c) ∧
  (b = [0x30] ++ bytesLE 2 cnt ++ bytesLE 2 back ++ List.replicate 11 0) ∧ (1 ≤ cnt) ∧ (cnt < 65536) ∧ (1 ≤ back) ∧ (back ≤ 4095) ∧
  ((s.chan c).loop = some (s.chPc c, 1)) ∧ (s.isF (Reg.SHU_CH_STAT c) Fld.SHU_CH_STAT_SHADOW_VALID = false) :=
  ⟨3, 3, 2, ([48, 3, 0, 2, 0, 0, 0, 0, 0, 0, 0, 0, 0, 0, 0, 0]), (((((State.reset.setF Reg.SHU_CTL Fld.SHU_CTL_EN 1).setF (Reg.SHU_CH_STAT 3) Fld.SHU_CH_STAT_STATE 2).setPc 3 256).wrMem 4096 [0x30, 3, 0, 2]).chanMod 3 (fun k => { k with loop := some (256, 1) })), by decide +kernel⟩

/-- The hypotheses of the clause on loop: a loop within a loop is ERR 3. -/
theorem wit_loop_nested : ∃ (c p n cnt back : Nat) (b : Bytes) (s : State), (c < 32) ∧ (s.shuOn = true) ∧ (s.chState c = 2) ∧
  (b = s.chIns c) ∧ (b = [0x30] ++ bytesLE 2 cnt ++ bytesLE 2 back ++ List.replicate 11 0) ∧ (cnt < 65536) ∧ (1 ≤ back) ∧ (back ≤ 4095) ∧
  ((s.chan c).loop = some (p, n)) ∧ (p ≠ s.chPc c) ∧ (s.isF (Reg.SHU_CH_STAT c) Fld.SHU_CH_STAT_SHADOW_VALID = false) :=
  ⟨3, 9, 4, 3, 2, ([48, 3, 0, 2, 0, 0, 0, 0, 0, 0, 0, 0, 0, 0, 0, 0]), (((((State.reset.setF Reg.SHU_CTL Fld.SHU_CTL_EN 1).setF (Reg.SHU_CH_STAT 3) Fld.SHU_CH_STAT_STATE 2).setPc 3 256).wrMem 4096 [0x30, 3, 0, 2]).chanMod 3 (fun k => { k with loop := some (9, 4) })), by decide +kernel⟩

/-- The hypotheses of the clause on wait: WAIT on an event that is set proceeds, and with CONSUME clears it. -/
theorem wit_wait : ∃ (c : Nat) (b : Bytes) (s : State), (c < 32) ∧ (s.shuOn = true) ∧ (s.chState c = 2) ∧ (b = s.chIns c) ∧
  (b = 0x41 :: 7 :: List.replicate 14 0) ∧ (s.event 7 = true) ∧ (s.behind c 7 = false) :=
  ⟨3, (0x41 :: 7 :: List.replicate 14 0), (((((State.reset.setF Reg.SHU_CTL Fld.SHU_CTL_EN 1).setF (Reg.SHU_CH_STAT 3) Fld.SHU_CH_STAT_STATE 2).setPc 3 256).wrMem 4096 [0x41, 7]).eventSet 7), by decide +kernel⟩

/-- The hypotheses of the clause on wait: on one that is clear the channel waits. -/
theorem wit_wait_held : ∃ (c : Nat) (b : Bytes) (s : State), (c < 32) ∧ (s.shuOn = true) ∧ (s.chState c = 2) ∧ (b = s.chIns c) ∧
  (b = 0x40 :: 7 :: List.replicate 14 0) ∧ (s.event 7 = false) :=
  ⟨3, (0x40 :: 7 :: List.replicate 14 0), ((((State.reset.setF Reg.SHU_CTL Fld.SHU_CTL_EN 1).setF (Reg.SHU_CH_STAT 3) Fld.SHU_CH_STAT_STATE 2).setPc 3 256).wrMem 4096 [0x40, 7]), by decide +kernel⟩

/-- The hypotheses of the clause on waitTimeout: a WAIT whose TIMEOUT passes is ERR 4. -/
theorem wit_waitTimeout : ∃ (c : Nat) (b : Bytes) (s : State), (c < 32) ∧ (s.shuOn = true) ∧ (s.chState c = 3) ∧ (b = s.chIns c) ∧
  (insOp b = 4) ∧ (u32 b 4 ≠ 0) ∧ (s.event (u8 b 1) = false) :=
  ⟨3, ([64, 7, 0, 0, 1, 0, 0, 0, 0, 0, 0, 0, 0, 0, 0, 0]), ((((State.reset.setF Reg.SHU_CTL Fld.SHU_CTL_EN 1).setF (Reg.SHU_CH_STAT 3) Fld.SHU_CH_STAT_STATE 3).setPc 3 256).wrMem 4096 [0x40, 7, 0, 0, 1]), by decide +kernel⟩

/-- The hypotheses of the clause on waitTimeout: a WAIT without TIMEOUT waits on. -/
theorem wit_waitTimeout_none : ∃ (c : Nat) (b : Bytes) (s : State), (c < 32) ∧ (s.shuOn = true) ∧ (s.chState c = 3) ∧ (b = s.chIns c) ∧
  (insOp b = 4) ∧ (u32 b 4 = 0) :=
  ⟨3, ([64, 7, 0, 0, 0, 0, 0, 0, 0, 0, 0, 0, 0, 0, 0, 0]), ((((State.reset.setF Reg.SHU_CTL Fld.SHU_CTL_EN 1).setF (Reg.SHU_CH_STAT 3) Fld.SHU_CH_STAT_STATE 3).setPc 3 256).wrMem 4096 [0x40, 7]), by decide +kernel⟩

/-- The hypotheses of the clause on move: MOVE from DRAM to the Shuttle SRAM copies LEN bytes and changes no other byte. -/
theorem wit_move : ∃ (c : Nat) (b : Bytes) (s : State), (c < 32) ∧ (s.shuOn = true) ∧ (s.chState c = 2) ∧ (b = s.chIns c) ∧ (insOp b = 1) ∧
  (insFlags b = 0) ∧ (u24 b 1 ≠ 0) ∧ (spaceOf (un b 4 6) = 0) ∧ (spaceOf (un b 10 6) = 1) ∧ (un b 4 6 + u24 b 1 ≤ 2 ^ 36) ∧
  (spaceOff (un b 10 6) + u24 b 1 ≤ 0x80000) :=
  ⟨3, ([16, 16, 0, 0, 0, 32, 0, 0, 0, 0, 64, 0, 0, 0, 0, 16]), (((((State.reset.setF Reg.SHU_CTL Fld.SHU_CTL_EN 1).setF (Reg.SHU_CH_STAT 3) Fld.SHU_CH_STAT_STATE 2).setPc 3 256).wrMem 4096 ([16, 16, 0, 0, 0, 32, 0, 0, 0, 0, 64, 0, 0, 0, 0, 16])).wrMem 8192 [1, 2, 3]), by decide +kernel⟩

/-- The hypotheses of the clause on move: MOVE from the SRAM to DRAM likewise. -/
theorem wit_move_back : ∃ (c : Nat) (b : Bytes) (s : State), (c < 32) ∧ (s.shuOn = true) ∧ (s.chState c = 2) ∧ (b = s.chIns c) ∧
  (insOp b = 1) ∧ (insFlags b = 0) ∧ (u24 b 1 ≠ 0) ∧ (spaceOf (un b 4 6) = 1) ∧ (spaceOf (un b 10 6) = 0) ∧
  (spaceOff (un b 4 6) + u24 b 1 ≤ 0x80000) ∧ (un b 10 6 + u24 b 1 ≤ 2 ^ 36) :=
  ⟨3, ([16, 16, 0, 0, 64, 0, 0, 0, 0, 16, 0, 32, 0, 0, 0, 0]), (((((State.reset.setF Reg.SHU_CTL Fld.SHU_CTL_EN 1).setF (Reg.SHU_CH_STAT 3) Fld.SHU_CH_STAT_STATE 2).setPc 3 256).wrMem 4096 ([16, 16, 0, 0, 64, 0, 0, 0, 0, 16, 0, 32, 0, 0, 0, 0])).sramWr 64 [1, 2, 3]), by decide +kernel⟩

/-- The hypotheses of the clause on move: a MOVE of no bytes is ERR 1. -/
theorem wit_move_zero : ∃ (c : Nat) (b : Bytes) (s : State), (c < 32) ∧ (s.shuOn = true) ∧ (s.chState c = 2) ∧ (b = s.chIns c) ∧
  (insOp b = 1) ∧ (u24 b 1 = 0) :=
  ⟨3, ([16, 0, 0, 0, 0, 0, 0, 0, 0, 0, 0, 0, 0, 0, 0, 0]), ((((State.reset.setF Reg.SHU_CTL Fld.SHU_CTL_EN 1).setF (Reg.SHU_CH_STAT 3) Fld.SHU_CH_STAT_STATE 2).setPc 3 256).wrMem 4096 [0x10]), by decide +kernel⟩

/-- The hypotheses of the clause on move: a transmit queue is no source: ERR 2. -/
theorem wit_move_src : ∃ (c : Nat) (b : Bytes) (s : State), (c < 32) ∧ (s.shuOn = true) ∧ (s.chState c = 2) ∧ (b = s.chIns c) ∧
  (insOp b = 1) ∧ (insFlags b ≤ 1) ∧ (u24 b 1 ≠ 0) ∧ (spaceOf (un b 4 6) = 2) :=
  ⟨3, ([16, 16, 0, 0, 4, 0, 0, 0, 0, 32, 0, 32, 0, 0, 0, 0]), ((((State.reset.setF Reg.SHU_CTL Fld.SHU_CTL_EN 1).setF (Reg.SHU_CH_STAT 3) Fld.SHU_CH_STAT_STATE 2).setPc 3 256).wrMem 4096 ([16, 16, 0, 0, 4, 0, 0, 0, 0, 32, 0, 32, 0, 0, 0, 0])), by decide +kernel⟩

/-- The hypotheses of the clause on movec: MOVEC with RESET moves its bytes, and SHU_CH_CHK shows their CRC-32C. -/
theorem wit_movec : ∃ (c : Nat) (b : Bytes) (s : State), (c < 32) ∧ (s.shuOn = true) ∧ (s.chState c = 2) ∧ (b = s.chIns c) ∧ (insOp b = 2) ∧
  (insFlags b = 4) ∧ (u24 b 1 ≠ 0) ∧ (spaceOf (un b 4 6) = 0) ∧ (spaceOf (un b 10 6) = 1) ∧ (un b 4 6 + u24 b 1 ≤ 2 ^ 36) ∧
  (spaceOff (un b 10 6) + u24 b 1 ≤ 0x80000) :=
  ⟨3, ([36, 16, 0, 0, 0, 32, 0, 0, 0, 0, 64, 0, 0, 0, 0, 16]), ((((State.reset.setF Reg.SHU_CTL Fld.SHU_CTL_EN 1).setF (Reg.SHU_CH_STAT 3) Fld.SHU_CH_STAT_STATE 2).setPc 3 256).wrMem 4096 ([36, 16, 0, 0, 0, 32, 0, 0, 0, 0, 64, 0, 0, 0, 0, 16])), by decide +kernel⟩

/-- The hypotheses of the clause on movec: without RESET and without a running check value it is ERR 5. -/
theorem wit_movec_none : ∃ (c : Nat) (b : Bytes) (s : State), (c < 32) ∧ (s.shuOn = true) ∧ (s.chState c = 2) ∧ (b = s.chIns c) ∧
  (insOp b = 2) ∧ (insFlags b = 0) ∧ (u24 b 1 ≠ 0) ∧ (spaceOk (un b 4 6) (u24 b 1) false = true) ∧
  (spaceOk (un b 10 6) (u24 b 1) true = true) ∧ ((s.chan c).chk = none) :=
  ⟨3, ([32, 16, 0, 0, 0, 32, 0, 0, 0, 0, 64, 0, 0, 0, 0, 16]), ((((State.reset.setF Reg.SHU_CTL Fld.SHU_CTL_EN 1).setF (Reg.SHU_CH_STAT 3) Fld.SHU_CH_STAT_STATE 2).setPc 3 256).wrMem 4096 ([32, 16, 0, 0, 0, 32, 0, 0, 0, 0, 64, 0, 0, 0, 0, 16])), by decide +kernel⟩

/-- The hypotheses of the clause on stamp: STAMP stores the schedule count in four bytes of DRAM. -/
theorem wit_stamp : ∃ (c a : Nat) (b : Bytes) (s : State), (c < 32) ∧ (s.shuOn = true) ∧ (s.chState c = 2) ∧ (b = s.chIns c) ∧
  (b = [0x60, 0, 0, 0] ++ bytesLE 6 a ++ List.replicate 6 0) ∧ (a + 4 ≤ 2 ^ 36) :=
  ⟨3, 8192, ([96, 0, 0, 0, 0, 32, 0, 0, 0, 0, 0, 0, 0, 0, 0, 0]), ((((State.reset.setF Reg.SHU_CTL Fld.SHU_CTL_EN 1).setF (Reg.SHU_CH_STAT 3) Fld.SHU_CH_STAT_STATE 2).setPc 3 256).wrMem 4096 ([96, 0, 0, 0, 0, 32, 0, 0, 0, 0, 0, 0, 0, 0, 0, 0])), by decide +kernel⟩

/-- The hypotheses of the clause on stamp: it has no other destination: ERR 2. -/
theorem wit_stamp_space : ∃ (c a : Nat) (b : Bytes) (s : State), (c < 32) ∧ (s.shuOn = true) ∧ (s.chState c = 2) ∧ (b = s.chIns c) ∧
  (b = [0x60, 0, 0, 0] ++ bytesLE 6 a ++ List.replicate 6 0) ∧ (a < 2 ^ 48) ∧ (2 ≤ spaceOf a) :=
  ⟨3, 2 * 2 ^ 44, ([96, 0, 0, 0, 0, 0, 0, 0, 0, 32, 0, 0, 0, 0, 0, 0]), ((((State.reset.setF Reg.SHU_CTL Fld.SHU_CTL_EN 1).setF (Reg.SHU_CH_STAT 3) Fld.SHU_CH_STAT_STATE 2).setPc 3 256).wrMem 4096 ([96, 0, 0, 0, 0, 0, 0, 0, 0, 32, 0, 0, 0, 0, 0, 0])), by decide +kernel⟩

/-- The hypotheses of the clause on shuttleGo: GO starts an idle channel at its active pointer. -/
theorem wit_shuttleGo : ∃ (c : Nat) (s : State), (c < 32) ∧ (s.chState c = 0) :=
  ⟨3, (State.reset.chanMod 3 (fun k => { k with active := 77 })), by decide +kernel⟩

/-- The hypotheses of the clause on shuttleGo: and does nothing to any other. -/
theorem wit_shuttleGo_busy : ∃ (c : Nat) (s : State), (s.chState c ≠ 0) :=
  ⟨3, (State.reset.setF (Reg.SHU_CH_STAT 3) Fld.SHU_CH_STAT_STATE 1), by decide +kernel⟩

/-- The hypotheses of the clause on shuttleAbort: ABORT makes a channel idle and closes its packet. -/
theorem wit_shuttleAbort : ∃ (c : Nat) (s : State), (c < 32) ∧ (s.chState c ≠ 0) :=
  ⟨3, ((State.reset.setF (Reg.SHU_CH_STAT 3) Fld.SHU_CH_STAT_STATE 2).chanMod 3 (fun k => { k with openPort := some 4, active := 9 })), by decide +kernel⟩

/-- The hypotheses of the clause on shuttleArm: an idle channel is armed on its trigger. -/
theorem wit_shuttleArm : ∃ (c trig : Nat) (s : State), (c < 32) ∧ (trig < 72) ∧ (s.chState c = 0) :=
  ⟨3, 7, State.reset, by decide +kernel⟩

/-- The hypotheses of the clause on shuttleTriggerStart: the trigger is consumed, and the channel starts. -/
theorem wit_shuttleTriggerStart : ∃ (c e : Nat) (s : State), (c < 32) ∧ (s.shuOn = true) ∧ (s.chState c = 1) ∧
  (s.getF (Reg.SHU_CH_CTL c) Fld.SHU_CH_CTL_TRIG = e) ∧ (e < 72) ∧ (s.event e = true) ∧ (s.behind c e = false) :=
  ⟨3, 7, ((((State.reset.setF Reg.SHU_CTL Fld.SHU_CTL_EN 1).setF (Reg.SHU_CH_STAT 3) Fld.SHU_CH_STAT_STATE 1).setF (Reg.SHU_CH_CTL 3) Fld.SHU_CH_CTL_TRIG 7).eventSet 7), by decide +kernel⟩

/-- The hypotheses of the clause on progWrite: a pointer written during a hand-over is marked late, and no other channel changes. -/
theorem wit_progWrite_late : ∃ (c v : Nat) (s : State), (c < 32) ∧ (s.chState c = 2) :=
  ⟨3, 77, (State.reset.setF (Reg.SHU_CH_STAT 3) Fld.SHU_CH_STAT_STATE 2), by decide +kernel⟩

/-- The hypotheses of the clause on shuttleBusError: a failed access stops every running channel and is latched, counted and recorded. -/
theorem wit_shuttleBusError : ∃ (kind space addr : Nat) (write : Bool) (s : State), (s.isF Reg.SHU_CTL Fld.SHU_CTL_EN = true) ∧
  (s.isF Reg.SHU_STAT Fld.SHU_STAT_BUSERR = false) ∧ (s.chState 3 = 2) ∧ (s.smp.fifo.length < 256) :=
  ⟨1, 0, 4096, false, ((State.reset.setF Reg.SHU_CTL Fld.SHU_CTL_EN 1).setF (Reg.SHU_CH_STAT 3) Fld.SHU_CH_STAT_STATE 2), by decide +kernel⟩

/-- The hypotheses of the clause on shuttleResume: RESUME lets stopped channels take up their instruction again. -/
theorem wit_shuttleResume : ∃ (s : State), (s.isF Reg.SHU_STAT Fld.SHU_STAT_BUSERR = true) :=
  ⟨((State.reset.setF Reg.SHU_STAT Fld.SHU_STAT_BUSERR 1).setF (Reg.SHU_CH_STAT 3) Fld.SHU_CH_STAT_STATE 4), by decide +kernel⟩

/-- The hypotheses of the clause on eventSet: an event is set. -/
theorem wit_eventSet : ∃ (e : Nat) (s : State), (e < 72) ∧ (s.event e = false) :=
  ⟨40, State.reset, by decide +kernel⟩

/-- The hypotheses of the clause on eventSet: there is no event from 72 on. -/
theorem wit_eventSet_none : ∃ (e : Nat) (s : State), (72 ≤ e) :=
  ⟨72, State.reset, by decide +kernel⟩

/-- The hypotheses of the clause on eventClear: an event is cleared alone. -/
theorem wit_eventClear : ∃ (e : Nat) (s : State), (e < 72) :=
  ⟨40, (State.reset.eventSet 40), by decide +kernel⟩

/-- The hypotheses of the clause on intClaim: a claim answers the best source with its priority, puts it on the target's stack, clears its latch and starts the hold-off of its group. -/
theorem wit_intClaim : ∃ (g init n : Nat) (s : State), (g < 21) ∧ (tgtOpen g init = true) ∧ (s.best g = some n) :=
  ⟨1, 2, 200, ((State.reset.setF Reg.INT_CTL Fld.INT_CTL_EN 1).intMod (fun i => { i with cfg := [(200, 0x85000042)], latch := [200] })), by decide +kernel⟩

/-- The hypotheses of the clause on intClaim: without an eligible source it answers 0x3FF and changes nothing. -/
theorem wit_intClaim_none : ∃ (g init : Nat) (s : State), (g < 21) ∧ (tgtOpen g init = true) ∧ (s.best g = none) :=
  ⟨1, 2, State.reset, by decide +kernel⟩

/-- The hypotheses of the clause on intClaim: the registers of target 0 are hoop-only. -/
theorem wit_intClaim_hoop : ∃ (init : Nat) (s : State), (isHoop init = false) :=
  ⟨2, State.reset, by decide +kernel⟩

/-- The hypotheses of the clause on intComplete: a completion of the top of the stack takes it off. -/
theorem wit_intComplete : ∃ (g init v p : Nat) (r : List (Nat × Nat)) (s : State), (g < 21) ∧ (tgtOpen g init = true) ∧ (v < 512) ∧
  (s.stack g = (v, p) :: r) :=
  ⟨1, 2, 200, 5, [], (State.reset.intMod (fun i => { i with stks := [(1, [(200, 5)])] })), by decide +kernel⟩

/-- The hypotheses of the clause on intComplete: any other leaves the stack, and is a stack fault with a record. -/
theorem wit_intComplete_fault : ∃ (g init v : Nat) (s : State), (g < 21) ∧ (tgtOpen g init = true) ∧ (v < 512) ∧
  ((s.stack g).head?.map (fun (x : Nat × Nat) => x.1) ≠ some v) ∧ (s.smp.fifo.length < 256) :=
  ⟨1, 2, 200, State.reset, by decide +kernel⟩

/-- The hypotheses of the clause on intFlush: FLUSH empties the stack of its target. -/
theorem wit_intFlush : ∃ (g init : Nat) (s : State), (g < 21) ∧ (tgtOpen g init = true) :=
  ⟨1, 2, (State.reset.intMod (fun i => { i with stks := [(1, [(200, 5)])] })), by decide +kernel⟩

/-- The hypotheses of the clause on coreWake: a core with an enabled source that waits does not sleep. -/
theorem wit_coreWake : ∃ (g : Nat) (wfi : Bool) (s : State), (g < 5) ∧ (s.wakes g = true) :=
  ⟨1, false, (State.reset.intMod (fun i => { i with cfg := [(200, 0x85000042)], latch := [200], sleep := [1] })), by decide +kernel⟩

/-- The hypotheses of the clause on coreWake: with none, WFI lets it sleep. -/
theorem wit_coreWake_sleep : ∃ (g : Nat) (s : State), (g < 5) ∧ (s.wakes g = false) :=
  ⟨1, State.reset, by decide +kernel⟩

/-- The hypotheses of the clause on intSwSet: the latch of a software source is set. -/
theorem wit_intSwSet : ∃ (n : Nat) (s : State), (160 ≤ n) ∧ (n < 512) :=
  ⟨200, State.reset, by decide +kernel⟩

/-- The hypotheses of the clause on intSwSet: hardware sources cannot be set. -/
theorem wit_intSwSet_hw : ∃ (n : Nat) (s : State), (n < 160) :=
  ⟨3, State.reset, by decide +kernel⟩

/-- The hypotheses of the clause on intSwClear: and cleared. -/
theorem wit_intSwClear : ∃ (n : Nat) (s : State), (160 ≤ n) ∧ (n < 512) :=
  ⟨200, (State.reset.intMod (fun i => { i with latch := [200] })), by decide +kernel⟩

/-- The hypotheses of the clause on msixUnmask: a message withheld by the mask of its vector goes out when the mask is cleared. -/
theorem wit_msixUnmask : ∃ (v : Nat) (s : State), (v < 16) ∧ (s.intr.fnMask = false) ∧ (s.tgtMask (5 + v) = false) ∧
  (s.intr.msixPend.contains v = true) ∧ (s.intr.up.contains v = true) ∧ ((s.best (5 + v)).isSome = true) :=
  ⟨1, (((State.reset.setF Reg.INT_CTL Fld.INT_CTL_EN 1).setF (Reg.INT_TGT_CTL 6) Fld.INT_TGT_CTL_MASK 0).intMod (fun i => { i with cfg := [(200, 0x85000042)], latch := [200], msixPend := [1], up := [1] })), by decide +kernel⟩

/-- The hypotheses of the clause on cosemRequest: an operator sets the clock. -/
theorem wit_cosemRequest : ∃ (n w carrier v : Nat) (s : State), (s.cosemMay n w 0x10000FF 1 = true) ∧ (s.upd.job = none) ∧ (v < 2 ^ 48) :=
  ⟨5, 0x30, 0, 1000, (State.reset.setRole 5 2), by decide +kernel⟩

/-- The hypotheses of the clause on cosemRequest: an item that the role does not allow is denied with code 3 and counted, and has no effect. -/
theorem wit_cosemRequest_denied : ∃ (n w carrier obj idx a v : Nat) (s : State), (s.cosemMay n w obj a = false) :=
  ⟨5, 0x30, 0, 0x8003FF, 0, 2, 0, (State.reset.setRole 5 2), by decide +kernel⟩

/-- The hypotheses of the clause on cosemRequest: one item that conflicts refuses the whole request with code 2: nothing of it takes effect. -/
theorem wit_cosemRequest_conflict : ∃ (n w carrier : Nat) (items : List (Nat × Nat × Nat × Nat)) (s : State), (items.any (fun (i : Nat × Nat × Nat × Nat) => s.cosemMay n w i.1 i.2.2.1 && decide (s.cosemConflict carrier i ≠ 0)) = true) :=
  ⟨5, 0x30, 0, [(0x10000FF, 0, 1, 9), (0xA0001FF, 0, 2, 0)], { (State.reset.setRole 5 2) with upd := { State.reset.upd with job := some { op := 2, stg := 0 } } }, by decide +kernel⟩

/-- The hypotheses of the clause on cosemRequest: a read that is allowed answers the attribute of the object that its OBIS code names, and changes nothing. -/
theorem wit_cosemRequest_read : ∃ (n w carrier obj idx v : Nat) (s : State), (s.cosemMay n w obj 0 = true) :=
  ⟨5, 0x30, 0, 0x100010801FF, 2, 0, (State.reset.setRole 5 2), by decide +kernel⟩

/-- The hypotheses of the clause on ndlInfo: INFO will show attributes and count, and no key. -/
theorem wit_ndlInfo : ∃ (n : Nat) (s : State), (n < 512) ∧ (s.isF Reg.NDL_CMD Fld.NDL_CMD_BUSY = false) ∧ (s.noGrant 8 1 = false) ∧
  (s.hoop.debugOpen = false) :=
  ⟨8, (State.reset.ndlPut 8 { attr := 0xC0080020, key := [1, 2] }), by decide +kernel⟩

/-- The hypotheses of the clause on ndlInfo: GO while BUSY is ignored. -/
theorem wit_ndlInfo_busy : ∃ (n : Nat) (s : State), (s.isF Reg.NDL_CMD Fld.NDL_CMD_BUSY = true) :=
  ⟨8, (State.reset.setF Reg.NDL_CMD Fld.NDL_CMD_BUSY 1), by decide +kernel⟩

/-- The hypotheses of the clause on ndlGenerate: GENERATE puts a key of KIND's length into a free general slot and no other. -/
theorem wit_ndlGenerate : ∃ (n : Nat) (s : State), (n < 512) ∧ (s.isF Reg.NDL_CMD Fld.NDL_CMD_BUSY = false) ∧ (s.noGrant 8 1 = false) ∧
  (s.hoop.debugOpen = false) ∧ (s.ndlTarget n (attrTaken (s.num Reg.NDL_ATTR)) (s.getF Reg.NDL_COUNT Fld.NDL_COUNT_COUNT) true = 0) :=
  ⟨20, (State.reset.wrN Reg.NDL_ATTR 0x30000010), by decide +kernel⟩

/-- The hypotheses of the clause on ndlGenerate: it never writes a slot below 8: code 5. -/
theorem wit_ndlGenerate_low : ∃ (n : Nat) (s : State), (n < 8) ∧ (s.isF Reg.NDL_CMD Fld.NDL_CMD_BUSY = false) ∧ (s.noGrant 8 1 = false) ∧
  (s.hoop.debugOpen = false) :=
  ⟨3, (State.reset.wrN Reg.NDL_ATTR 0x30000010), by decide +kernel⟩

/-- The hypotheses of the clause on ndlUnwrap: UNWRAP loads a master key only from a blob whose tag checks under the wrapping slot, and drops derived keys of its domain. -/
theorem wit_ndlUnwrap : ∃ (n w a : Nat) (s : State), (n < 8) ∧ (w < 512) ∧ (a = attrTaken (s.num Reg.NDL_ATTR)) ∧
  (s.isF Reg.NDL_CMD Fld.NDL_CMD_BUSY = false) ∧ (s.noGrant 8 1 = false) ∧ (s.hoop.debugOpen = false) ∧
  (s.ndlTarget n a (s.getF Reg.NDL_COUNT Fld.NDL_COUNT_COUNT) false = 0) ∧ (s.ndlUse w 6 = 0) ∧ (attrKind a ≠ 5) ∧
  (s.ndlLen = 28 + kindLen (attrKind a)) ∧ (s.ndlRoom (28 + kindLen (attrKind a)) = true) ∧ (s.pins.pfail = false) ∧ (n ≠ w) :=
  ⟨3, 20, 0x10040080, (((State.reset.wrN Reg.NDL_ATTR 0x10040080).ndlPut 20 { attr := 0xA0000040, key := List.replicate 32 1 }).setF Reg.NDL_LEN Fld.NDL_LEN_LEN 44), by decide +kernel⟩

/-- The hypotheses of the clause on ndlDestroy: DESTROY leaves no key in the slot; one that reads back wrong is broken. -/
theorem wit_ndlDestroy : ∃ (n : Nat) (bad : Bool) (s : State), (n < 512) ∧ (s.isF Reg.NDL_CMD Fld.NDL_CMD_BUSY = false) ∧
  (s.noGrant 8 1 = false) ∧ (s.hoop.debugOpen = false) ∧ ((s.ndl n).broken = false) ∧ (attrBit (s.ndl n).attr 19 = false) ∧ (n ≠ 8) ∧
  (n ≠ 11) ∧ (n ≠ 12) ∧ (attrBit (s.ndl n).attr 31 = true) ∧ (s.pins.pfail = false) :=
  ⟨20, false, (State.reset.ndlPut 20 { attr := 0xB0000010, key := List.replicate 32 1 }), by decide +kernel⟩

/-- The hypotheses of the clause on ndlDestroy: a fixed slot is not destroyed: code 12. -/
theorem wit_ndlDestroy_fixed : ∃ (bad : Bool) (s : State), (s.isF Reg.NDL_CMD Fld.NDL_CMD_BUSY = false) ∧ (s.noGrant 8 1 = false) ∧
  (s.hoop.debugOpen = false) ∧ ((s.ndl 8).broken = false) :=
  ⟨false, (State.reset.ndlPut 8 { attr := 0xC0080020, key := [1, 2] }), by decide +kernel⟩

/-- The hypotheses of the clause on ndlSign: SIGN will put slot 8's signature of the message behind it. -/
theorem wit_ndlSign : ∃ (s : State), (s.isF Reg.NDL_CMD Fld.NDL_CMD_BUSY = false) ∧ (s.noGrant 8 1 = false) ∧ (s.hoop.debugOpen = false) ∧
  (s.ndlUse 8 5 = 0) ∧ (s.ndlLen ≠ 0) ∧ (s.ndlLen ≤ 65536) ∧ (s.ndlRoom (s.ndlLen + 17088) = true) :=
  ⟨((State.reset.ndlPut 8 { attr := 0xC0080020, key := [1, 2] }).setF Reg.NDL_LEN Fld.NDL_LEN_LEN 8), by decide +kernel⟩

/-- The hypotheses of the clause on ndlSign: no other slot signs: code 5. -/
theorem wit_ndlSign_slot : ∃ (n : Nat) (s : State), (n < 512) ∧ (n ≠ 8) ∧ (s.isF Reg.NDL_CMD Fld.NDL_CMD_BUSY = false) ∧
  (s.noGrant 8 1 = false) ∧ (s.hoop.debugOpen = false) :=
  ⟨20, (State.reset.ndlPut 20 { attr := 0xB0000010, key := List.replicate 32 1 }), by decide +kernel⟩

/-- The hypotheses of the clause on ndlHmac: HMAC will show the tag over the data. -/
theorem wit_ndlHmac : ∃ (n : Nat) (s : State), (n < 512) ∧ (s.isF Reg.NDL_CMD Fld.NDL_CMD_BUSY = false) ∧ (s.noGrant 8 1 = false) ∧
  (s.hoop.debugOpen = false) ∧ (s.ndlUse n 4 = 0) ∧ (s.ndlRoom s.ndlLen = true) ∧ (attrBit (s.ndl n).attr 16 = false) :=
  ⟨20, (State.reset.ndlPut 20 { attr := 0xB0000010, key := List.replicate 32 1 }), by decide +kernel⟩

/-- The hypotheses of the clause on ndlHmac: each use of a limited slot lowers its count; the last use destroys it at the end. -/
theorem wit_ndlHmac_limited : ∃ (n : Nat) (s : State), (n < 512) ∧ (s.isF Reg.NDL_CMD Fld.NDL_CMD_BUSY = false) ∧ (s.noGrant 8 1 = false) ∧
  (s.hoop.debugOpen = false) ∧ (s.ndlUse n 4 = 0) ∧ (s.ndlRoom s.ndlLen = true) ∧ (attrBit (s.ndl n).attr 16 = true) :=
  ⟨20, (State.reset.ndlPut 20 { attr := 0xB0010010, key := List.replicate 32 1, count := 3 }), by decide +kernel⟩

/-- The hypotheses of the clause on ndlQuote: QUOTE under an ATTEST slot will be the quote and its tag. -/
theorem wit_ndlQuote : ∃ (w : Nat) (s : State), (w < 511) ∧ (s.isF Reg.NDL_CMD Fld.NDL_CMD_BUSY = false) ∧ (s.noGrant 8 1 = false) ∧
  (s.hoop.debugOpen = false) ∧ (s.ndlUse w 1 = 0) ∧ (s.ndlLen ≤ 32) ∧ (s.ndlRoom 288 = true) :=
  ⟨20, (State.reset.ndlPut 20 { attr := 0xB0000002, key := List.replicate 32 1 }), by decide +kernel⟩

/-- The hypotheses of the clause on ndlPubkey: PUBKEY will give slot 8's public key. -/
theorem wit_ndlPubkey : ∃ (s : State), (s.isF Reg.NDL_CMD Fld.NDL_CMD_BUSY = false) ∧ (s.noGrant 8 1 = false) ∧ (s.hoop.debugOpen = false) ∧
  (s.ndlRoom 32 = true) :=
  ⟨(State.reset.ndlPut 8 { attr := 0xC0080020, key := [1, 2] }), by decide +kernel⟩

/-- The hypotheses of the clause on ndlPubkey: no other slot but 11 has one: code 5. -/
theorem wit_ndlPubkey_slot : ∃ (n : Nat) (s : State), (n < 512) ∧ (n ≠ 8) ∧ (n ≠ 11) ∧ (s.isF Reg.NDL_CMD Fld.NDL_CMD_BUSY = false) ∧
  (s.noGrant 8 1 = false) ∧ (s.hoop.debugOpen = false) :=
  ⟨20, (State.reset.ndlPut 20 { attr := 0xB0000010, key := List.replicate 32 1 }), by decide +kernel⟩

/-- The hypotheses of the clause on ndlDecap: DECAP puts the shared secret into a free general slot. -/
theorem wit_ndlDecap : ∃ (n : Nat) (s : State), (n < 512) ∧ (s.isF Reg.NDL_CMD Fld.NDL_CMD_BUSY = false) ∧ (s.noGrant 8 1 = false) ∧
  (s.hoop.debugOpen = false) ∧ (s.ndlTarget n (attrTaken (s.num Reg.NDL_ATTR)) (s.getF Reg.NDL_COUNT Fld.NDL_COUNT_COUNT) true = 0) ∧
  (attrKind (attrTaken (s.num Reg.NDL_ATTR)) = 2) ∧ (s.ndlRoom 1088 = true) :=
  ⟨20, (State.reset.wrN Reg.NDL_ATTR 0x20000040), by decide +kernel⟩

/-- The hypotheses of the clause on ndlOpComplete: the result of INFO stands in its registers, and the operation is DONE. -/
theorem wit_ndlOpComplete : ∃ (vaultFail bad : Bool) (o : NdlOp) (s : State), (s.hoop.op = some o) ∧ (o.code = 0) ∧ (o.vault = false) ∧
  (o.spent = none) ∧ (o.op = 1) :=
  ⟨false, false, { op := 1, slot := 8, res := [1, 2, 3, 4, 5, 6, 7, 8] }, ((State.reset.hoopMod (fun h => { h with op := some { op := 1, slot := 8, res := [1, 2, 3, 4, 5, 6, 7, 8] } })).setF Reg.NDL_CMD Fld.NDL_CMD_BUSY 1), by decide +kernel⟩

/-- The hypotheses of the clause on ndlOpComplete: a refused one ends with ERR and its code, and has no effect. -/
theorem wit_ndlOpComplete_err : ∃ (vaultFail bad : Bool) (o : NdlOp) (s : State), (s.hoop.op = some o) ∧ (o.code ≠ 0) ∧ (o.code < 16) :=
  ⟨false, false, { op := 5, slot := 3, code := 5 }, ((State.reset.hoopMod (fun h => { h with op := some { op := 5, slot := 3, code := 5 } })).setF Reg.NDL_CMD Fld.NDL_CMD_BUSY 1), by decide +kernel⟩

/-- The hypotheses of the clause on ndlOpComplete: a slot whose last use this was is destroyed. -/
theorem wit_ndlOpComplete_spent : ∃ (vaultFail bad : Bool) (o : NdlOp) (n : Nat) (s : State), (s.hoop.op = some o) ∧ (o.code = 0) ∧
  (o.vault = false) ∧ (o.spent = some n) ∧ (attrBit (s.ndl n).attr 18 = false) :=
  ⟨false, false, { op := 6, slot := 20, spent := some 20 }, 20, (((State.reset.ndlPut 20 { attr := 0xB0010010, key := List.replicate 32 1, count := 3 }).hoopMod (fun h => { h with op := some { op := 6, slot := 20, spent := some 20 } })).setF Reg.NDL_CMD Fld.NDL_CMD_BUSY 1), by decide +kernel⟩

/-- The hypotheses of the clause on ndlOpComplete: one that writes the vault waits for the erase of its block. -/
theorem wit_ndlOpComplete_wait : ∃ (vaultFail bad : Bool) (o : NdlOp) (p : Nat) (s : State), (s.hoop.op = some o) ∧ (o.code = 0) ∧
  (o.vault = true) ∧ (s.hoop.vaultBusy = some p) :=
  ⟨false, false, { op := 3, slot := 3, vault := true }, 0x3FE0, (((State.reset.hoopMod (fun h => { h with op := some { op := 3, slot := 3, vault := true } })).setF Reg.NDL_CMD Fld.NDL_CMD_BUSY 1).hoopMod (fun h => { h with vaultBusy := some 0x3FE0 })), by decide +kernel⟩

/-- The hypotheses of the clause on vaultEraseDone: the older vault block is blank. -/
theorem wit_vaultEraseDone : ∃ (p : Nat) (s : State), (s.hoop.vaultBusy = some p) ∧ (s.tbLost = false) :=
  ⟨0x3FE0, { (State.reset.hoopMod (fun h => { h with vaultBusy := some 0x3FE0 })) with nor := [(0x3FE0, [1])] }, by decide +kernel⟩

/-- The hypotheses of the clause on cntDomainIdentity: a new domain identity starts: derived keys and both vault blocks are gone before it is programmed. -/
theorem wit_cntDomainIdentity : ∃ (s : State), (s.isF Reg.NDL_CNT_CMD Fld.NDL_CNT_CMD_BUSY = false) ∧ (s.noGrant 8 2 = false) ∧
  (s.hoop.domainUsed < 4) ∧ (((List.range 4).flatMap (fun k => bytesLE 4 (s.num (Reg.NDL_CNT_ARG k)))) ≠ List.replicate 16 0) ∧
  (((List.range 4).flatMap (fun k => bytesLE 4 (s.num (Reg.NDL_CNT_ARG k)))) ≠ s.hoop.domainId) ∧ (s.pins.pfail = false) :=
  ⟨(State.reset.wrN (Reg.NDL_CNT_ARG 0) 5), by decide +kernel⟩

/-- The hypotheses of the clause on cntDomainIdentity: without count it is refused with code 1. -/
theorem wit_cntDomainIdentity_none : ∃ (s : State), (s.isF Reg.NDL_CNT_CMD Fld.NDL_CNT_CMD_BUSY = false) ∧ (s.noGrant 8 2 = false) ∧
  (4 ≤ s.hoop.domainUsed) :=
  ⟨(State.reset.hoopMod (fun h => { h with domainUsed := 4 })), by decide +kernel⟩

/-- The hypotheses of the clause on cntRollbackFloor: a raise of a floor starts. -/
theorem wit_cntRollbackFloor : ∃ (kind steps : Nat) (s : State), (s.isF Reg.NDL_CNT_CMD Fld.NDL_CNT_CMD_BUSY = false) ∧
  (s.noGrant 8 2 = false) ∧ (kind < 4) ∧ (1 ≤ steps) ∧ (steps ≤ 64) ∧ (s.hoop.floorUsed.getD kind 0 + steps ≤ 64) ∧
  (s.pins.pfail = false) :=
  ⟨1, 2, State.reset, by decide +kernel⟩

/-- The hypotheses of the clause on cntRollbackFloor: beyond the entries left it is refused with code 1. -/
theorem wit_cntRollbackFloor_none : ∃ (kind steps : Nat) (s : State), (s.isF Reg.NDL_CNT_CMD Fld.NDL_CNT_CMD_BUSY = false) ∧
  (s.noGrant 8 2 = false) ∧ (kind < 4) ∧ (steps < 256) ∧ (64 < s.hoop.floorUsed.getD kind 0 + steps) ∧
  (s.hoop.floorUsed.getD kind 0 ≤ 64) :=
  ⟨1, 65, State.reset, by decide +kernel⟩

/-- The hypotheses of the clause on cntPairRoleLock: a pair role starts to be programmed. -/
theorem wit_cntPairRoleLock : ∃ (role : Nat) (s : State), (s.isF Reg.NDL_CNT_CMD Fld.NDL_CNT_CMD_BUSY = false) ∧ (s.noGrant 8 2 = false) ∧
  (s.hoop.pairUsed < 2) ∧ (role ≤ 3) ∧ (s.getF Reg.CHIP_ID Fld.CHIP_ID_GRADE = 1) ∧ (s.pins.pfail = false) :=
  ⟨1, State.reset, by decide +kernel⟩

/-- The hypotheses of the clause on cntPairRoleLock: an AF1064-B refuses it with code 3 and a record. -/
theorem wit_cntPairRoleLock_grade : ∃ (role : Nat) (s : State), (s.isF Reg.NDL_CNT_CMD Fld.NDL_CNT_CMD_BUSY = false) ∧
  (s.noGrant 8 2 = false) ∧ (s.hoop.pairUsed < 2) ∧ (role ≤ 3) ∧ (s.getF Reg.CHIP_ID Fld.CHIP_ID_GRADE = 0) ∧ (s.smp.fifo.length < 256) :=
  ⟨1, (State.reset.setF Reg.CHIP_ID Fld.CHIP_ID_GRADE 0), by decide +kernel⟩

/-- The hypotheses of the clause on cntDebugOpen: before debug opens, every slot is overwritten and derived keys are abandoned. -/
theorem wit_cntDebugOpen : ∃ (s : State), (s.isF Reg.NDL_CNT_CMD Fld.NDL_CNT_CMD_BUSY = false) ∧ (s.noGrant 8 2 = false) ∧
  (s.hoop.debugUsed < 3) ∧ (s.pins.pfail = false) :=
  ⟨(State.reset.ndlPut 20 { attr := 0xB0000010, key := List.replicate 32 1 }), by decide +kernel⟩

/-- The hypotheses of the clause on cntChangeDone: a programmed raise lifts its floor alone. -/
theorem wit_cntChangeDone : ∃ (c : CntOp) (s : State), (s.hoop.cnt = some c) ∧ (c.setting = 2) ∧ (c.value ≤ s.cntLeft 2 c.kind) ∧
  (c.kind < s.hoop.floors.length) ∧ (c.kind < s.hoop.floorUsed.length) :=
  ⟨{ setting := 2, kind := 1, value := 2 }, ((State.reset.hoopMod (fun h => { h with cnt := some { setting := 2, kind := 1, value := 2 } })).setF Reg.NDL_CNT_CMD Fld.NDL_CNT_CMD_BUSY 1), by decide +kernel⟩

/-- The hypotheses of the clause on cntChangeDone: a readback that fails spends the entries and leaves the floor: code 5. -/
theorem wit_cntChangeDone_fail : ∃ (c : CntOp) (s : State), (s.hoop.cnt = some c) ∧ (c.setting = 2) ∧ (c.value ≤ s.cntLeft 2 c.kind) ∧
  (c.kind < s.hoop.floorUsed.length) :=
  ⟨{ setting := 2, kind := 1, value := 2 }, ((State.reset.hoopMod (fun h => { h with cnt := some { setting := 2, kind := 1, value := 2 } })).setF Reg.NDL_CNT_CMD Fld.NDL_CNT_CMD_BUSY 1), by decide +kernel⟩

/-- The hypotheses of the clause on cntChangeDone: debug is open once its count is spent. -/
theorem wit_cntChangeDone_debug : ∃ (c : CntOp) (s : State), (s.hoop.cnt = some c) ∧ (c.setting = 4) ∧ (s.hoop.debugUsed < 3) :=
  ⟨{ setting := 4 }, ((State.reset.hoopMod (fun h => { h with cnt := some { setting := 4 } })).setF Reg.NDL_CNT_CMD Fld.NDL_CNT_CMD_BUSY 1), by decide +kernel⟩

/-- The hypotheses of the clause on changeLogReconcile: the log is counted anew, records that it lacks are appended, and no setting changes. -/
theorem wit_changeLogReconcile : ∃ (s : State), (s.phase = 6) :=
  ⟨(State.reset.setF Reg.STO_STAT Fld.STO_STAT_PHASE 6), by decide +kernel⟩

/-- The hypotheses of the clause on changeLogReconcile: before PHASE 6 nothing happens. -/
theorem wit_changeLogReconcile_early : ∃ (s : State), (s.phase ≠ 6) :=
  ⟨State.reset, by decide +kernel⟩

/-- The hypotheses of the clause on updVerify: GO is ignored while BUSY and in recovery mode. -/
theorem wit_updVerify_busy : ∃ (stg : Nat) (err : Bool) (s : State), (s.isF Reg.UPD_STAT Fld.UPD_STAT_BUSY = true ∨ s.isF Reg.UPD_RCV_STAT Fld.UPD_RCV_STAT_MODE = true) :=
  ⟨0, false, (State.reset.setF Reg.UPD_RCV_STAT Fld.UPD_RCV_STAT_MODE 1), by decide +kernel⟩

/-- The hypotheses of the clause on updVerify: a set that cannot be read fails with code 10. -/
theorem wit_updVerify_read : ∃ (stg : Nat) (s : State), (s.isF Reg.UPD_STAT Fld.UPD_STAT_BUSY = false) ∧
  (s.isF Reg.UPD_RCV_STAT Fld.UPD_RCV_STAT_MODE = false) :=
  ⟨0, State.reset, by decide +kernel⟩

/-- The hypotheses of the clause on updVerify: a set that fails a check ends with that code and is not verified. -/
theorem wit_updVerify_bad : ∃ (stg e i : Nat) (s : State), (stg < 2) ∧ (e < 16) ∧ (s.isF Reg.UPD_STAT Fld.UPD_STAT_BUSY = false) ∧
  (s.isF Reg.UPD_RCV_STAT Fld.UPD_RCV_STAT_MODE = false) ∧ (s.setVerify (s.stgRd stg) (some s.upd.run) = some (e, i)) :=
  ⟨1, 11, 0, State.reset, by decide +kernel⟩

/-- The hypotheses of the clause on updActivateLive: a live activation begins with its copy; what runs stays. -/
theorem wit_updActivateLive : ∃ (stg : Nat) (s : State), (stg < 2) ∧ (s.isF Reg.UPD_STAT Fld.UPD_STAT_BUSY = false) ∧
  (s.isF Reg.UPD_RCV_STAT Fld.UPD_RCV_STAT_MODE = false) ∧ (s.upd.verified.contains stg = true) ∧ (s.session = false) ∧ (s.phase = 6) ∧
  (s.slotIn 3 = none) ∧ (s.hoChanged stg = false) :=
  ⟨1, ((State.reset.setPhase 6).updMod (fun u => { u with verified := [0, 1] })), by decide +kernel⟩

/-- The hypotheses of the clause on updActivateLive: it is refused with code 7 for a set not verified, with a seal session open, the store not at PHASE 6, a trial under way, or HO changed. -/
theorem wit_updActivateLive_ref : ∃ (stg : Nat) (s : State), (stg < 2) ∧ (s.isF Reg.UPD_STAT Fld.UPD_STAT_BUSY = false) ∧
  (s.isF Reg.UPD_RCV_STAT Fld.UPD_RCV_STAT_MODE = false) ∧
  (s.upd.verified.contains stg = false ∨ s.session = true ∨ s.phase ≠ 6 ∨ (s.slotIn 3).isSome = true ∨ s.hoChanged stg = true) :=
  ⟨1, ((State.reset.setPhase 6).updMod (fun u => { u with verified := [0] })), by decide +kernel⟩

/-- The hypotheses of the clause on updActivateNextStart: an activation for the next start begins likewise, HO changed or not. -/
theorem wit_updActivateNextStart : ∃ (stg : Nat) (s : State), (stg < 2) ∧ (s.isF Reg.UPD_STAT Fld.UPD_STAT_BUSY = false) ∧
  (s.isF Reg.UPD_RCV_STAT Fld.UPD_RCV_STAT_MODE = false) ∧ (s.upd.verified.contains stg = true) ∧ (s.session = false) ∧ (s.phase = 6) ∧
  (s.slotIn 3 = none) :=
  ⟨1, ((State.reset.setPhase 6).updMod (fun u => { u with verified := [0, 1] })), by decide +kernel⟩

/-- The hypotheses of the clause on updStepDone: a copy that fails ends the activation with its code, and nothing new runs. -/
theorem wit_updStepDone_fail : ∃ (err item : Nat) (bad : Bool) (j : UpdJob) (s : State), (s.upd.job = some j) ∧ (s.tbLost = false) ∧
  (s.updStep = 2) ∧ (0 < err) ∧ (err < 16) :=
  ⟨13, 0, false, { op := 2, stg := 0 }, (((State.reset.updMod (fun u => { u with job := some { op := 2, stg := 0 } })).setF Reg.UPD_STAT Fld.UPD_STAT_STEP 2).setF Reg.UPD_STAT Fld.UPD_STAT_BUSY 1), by decide +kernel⟩

/-- The hypotheses of the clause on updStepDone: without an activation there is no step to end. -/
theorem wit_updStepDone_none : ∃ (err item : Nat) (bad : Bool) (s : State), (s.upd.job = none) :=
  ⟨0, 0, false, State.reset, by decide +kernel⟩

/-- The hypotheses of the clause on updCommit: COMMIT without a slot in trial is refused with code 7. -/
theorem wit_updCommit : ∃ (fail : Bool) (s : State), (s.isF Reg.UPD_STAT Fld.UPD_STAT_BUSY = false) ∧
  (s.isF Reg.UPD_RCV_STAT Fld.UPD_RCV_STAT_MODE = false) ∧ (s.slotIn 3 = none) :=
  ⟨false, State.reset, by decide +kernel⟩

/-- The hypotheses of the clause on updRevert: REVERT likewise. -/
theorem wit_updRevert : ∃ (bad : Bool) (s : State), (s.isF Reg.UPD_STAT Fld.UPD_STAT_BUSY = false) ∧
  (s.isF Reg.UPD_RCV_STAT Fld.UPD_RCV_STAT_MODE = false) ∧ (s.slotIn 3 = none) :=
  ⟨false, State.reset, by decide +kernel⟩

/-- The hypotheses of the clause on trialTimeout: without a trial there is none to time out. -/
theorem wit_trialTimeout : ∃ (bad : Bool) (s : State), (s.slotIn 3 = none) :=
  ⟨false, State.reset, by decide +kernel⟩

/-- The hypotheses of the clause on updRecoveryRequest: OP 6 writes RCV_REQ in the directory. -/
theorem wit_updRecoveryRequest : ∃ (s : State), (s.isF Reg.UPD_STAT Fld.UPD_STAT_BUSY = false) ∧
  (s.isF Reg.UPD_RCV_STAT Fld.UPD_RCV_STAT_MODE = false) :=
  ⟨State.reset, by decide +kernel⟩

/-- The hypotheses of the clause on stitchOffer: an OFFER during an activation is answered with ABORT code 7. -/
theorem wit_stitchOffer : ∃ (port : Nat) (b : Bytes) (s : State), (b.length = 4116) ∧ (u8 b 0 = 1) ∧ (s.upd.job.isSome = true) :=
  ⟨5, ([1] ++ List.replicate 4115 0), (State.reset.updMod (fun u => { u with job := some { op := 2, stg := 0, old := [{ kind := 1 }] } })), by decide +kernel⟩

/-- The hypotheses of the clause on stitchRequest: a REQUEST for a set that this device does not hold is not answered. -/
theorem wit_stitchRequest : ∃ (port : Nat) (b : Bytes) (s : State), (s.ownSet (stitchId b) = none) :=
  ⟨5, [2], State.reset, by decide +kernel⟩

/-- The hypotheses of the clause on stitchBlock: a BLOCK that does not check is asked for again. -/
theorem wit_stitchBlock : ∃ (port : Nat) (b : Bytes) (q : Stitch) (s : State), (s.upd.stitch = some q) ∧ (port = q.port) ∧ (u8 b 0 = 3) ∧
  (stitchId b = setIdB q.header) ∧ (u16 b 2 < u16 q.header 6) ∧ (u32 b 12 < u32 (setEntry q.header (u16 b 2)) 8) ∧ (b.length ≠ 4116) :=
  ⟨5, ([3, 0, 0, 0] ++ setIdB (List.replicate 6 0 ++ [1, 0] ++ List.replicate 64 0 ++ [9] ++ List.replicate 100 0)), { port := 5, stg := 0, header := List.replicate 6 0 ++ [1, 0] ++ List.replicate 64 0 ++ [9] ++ List.replicate 100 0 }, (State.reset.updMod (fun u => { u with stitch := some { port := 5, stg := 0, header := List.replicate 6 0 ++ [1, 0] ++ List.replicate 64 0 ++ [9] ++ List.replicate 100 0 } })), by decide +kernel⟩

/-- The hypotheses of the clause on stitchBlock: a BLOCK that nobody asked for is dropped. -/
theorem wit_stitchBlock_none : ∃ (port : Nat) (b : Bytes) (s : State), (s.upd.stitch = none) :=
  ⟨5, [3], State.reset, by decide +kernel⟩

/-- The hypotheses of the clause on stitchDone: DONE is not sent while blocks are missing. -/
theorem wit_stitchDone : ∃ (q : Stitch) (s : State), (s.upd.stitch = some q) ∧ (stitchWhole q = false) :=
  ⟨{ port := 5, stg := 0, header := List.replicate 6 0 ++ [1, 0] ++ List.replicate 64 0 ++ [9] }, (State.reset.updMod (fun u => { u with stitch := some { port := 5, stg := 0, header := List.replicate 6 0 ++ [1, 0] ++ List.replicate 64 0 ++ [9] } })), by decide +kernel⟩

/-- The hypotheses of the clause on stitchAbort: a transfer met by an activation is aborted with code 7. -/
theorem wit_stitchAbort : ∃ (q : Stitch) (s : State), (s.upd.stitch = some q) ∧ (s.upd.job.isSome = true) :=
  ⟨{ port := 5, stg := 0, header := [] }, (State.reset.updMod (fun u => { u with stitch := some { port := 5, stg := 0, header := [] }, job := some { op := 2, stg := 0, old := [{ kind := 1 }] } })), by decide +kernel⟩

/-- The hypotheses of the clause on rcvGo: UPD_RCV_CTL acts in recovery mode only. -/
theorem wit_rcvGo : ∃ (init len : Nat) (bad : Bool) (s : State), (s.rcvMode = false) :=
  ⟨7, 4096, false, State.reset, by decide +kernel⟩

/-- The hypotheses of the clause on rcvGo: a set that fails its checks is not copied, and its result shows. -/
theorem wit_rcvGo_bad : ∃ (init len e i : Nat) (bad : Bool) (s : State), (s.rcvMode = true) ∧ (init = 7) ∧ (len < 2 ^ 25) ∧
  (s.setVerify (s.rcvRd len) none = some (e, i)) ∧ (e < 16) :=
  ⟨7, 4096, 11, 0, false, (State.reset.setF Reg.UPD_RCV_STAT Fld.UPD_RCV_STAT_MODE 1), by decide +kernel⟩

/-- The hypotheses of the clause on uartDataFrame: a frame with a bad CRC is answered, stores nothing, and starts the hunt for the next. -/
theorem wit_uartDataFrame : ∃ (b : Bytes) (s : State), (s.uartOn = true) ∧ (u8 b 0 = 0xA5) ∧ (uartGood b = false) :=
  ⟨(([0xA5, 1, 0, 0] ++ List.replicate 12 0)), (State.reset.setF Reg.UPD_RCV_STAT Fld.UPD_RCV_STAT_MODE 1), by decide +kernel⟩

/-- The hypotheses of the clause on uartDataFrame: a good one stores its data at its offset and is acknowledged. -/
theorem wit_uartDataFrame_good : ∃ (b : Bytes) (s : State), (s.uartOn = true) ∧ (uartGood b = true) ∧ (u8 b 1 = 1) :=
  ⟨([0xA5, 1, 7, 0, 0, 0x10, 0, 0, 1, 0, 0, 0, 0x55] ++ bytesLE 4 (crc32c [0xA5, 1, 7, 0, 0, 0x10, 0, 0, 1, 0, 0, 0, 0x55])), (State.reset.setF Reg.UPD_RCV_STAT Fld.UPD_RCV_STAT_MODE 1), by decide +kernel⟩

/-- The hypotheses of the clause on uartEndFrame: the console is silent outside recovery mode and without its time base. -/
theorem wit_uartEndFrame : ∃ (b : Bytes) (bad : Bool) (s : State), (s.uartOn = false ∨ u8 b 0 ≠ 0xA5) :=
  ⟨[0xA5], false, State.reset, by decide +kernel⟩

/-- The hypotheses of the clause on uartRxTimeout: a gap of 100 ms starts the hunt for a frame. -/
theorem wit_uartRxTimeout : ∃ (s : State), (s.uartOn = true) :=
  ⟨(State.reset.setF Reg.UPD_RCV_STAT Fld.UPD_RCV_STAT_MODE 1), by decide +kernel⟩

/-- The hypotheses of the clause on ndlOpComplete: HMAC completes with its 32 bytes in NDL_DATA, and slots, memory and the vault as they were. -/
theorem wit_ndlOpComplete_own : ∃ (vaultFail bad : Bool) (o : NdlOp) (s : State), (s.hoop.op = some o) ∧ (o.code = 0) ∧ (o.vault = false) ∧
  (o.spent = none) ∧ (o.op = 6) :=
  ⟨false, false, { op := 6, slot := 20, res := List.replicate 32 7 }, ((State.reset.hoopMod (fun h => { h with op := some { op := 6, slot := 20, res := List.replicate 32 7 } })).setF Reg.NDL_CMD Fld.NDL_CMD_BUSY 1), by decide +kernel⟩

/-- The hypotheses of the clause on ndlOpComplete: QUOTE completes with its bytes in DRAM at the buffer and nowhere else. -/
theorem wit_ndlOpComplete_quote : ∃ (vaultFail bad : Bool) (o : NdlOp) (s : State), (s.hoop.op = some o) ∧ (o.code = 0) ∧
  (o.vault = false) ∧ (o.spent = none) ∧ (o.op = 7) ∧ (0 < o.res.length) ∧ (∀ b ∈ o.res, b < 256) :=
  ⟨false, false, { op := 7, slot := 20, addr := 64, res := [1, 2, 3] }, ((State.reset.hoopMod (fun h => { h with op := some { op := 7, slot := 20, addr := 64, res := [1, 2, 3] } })).setF Reg.NDL_CMD Fld.NDL_CMD_BUSY 1), by decide +kernel⟩

/-- The hypotheses of the clause on vaultEraseDone: the erase ends, and no page outside its block changes. -/
theorem wit_vaultEraseDone_own : ∃ (p : Nat) (s : State), (s.hoop.vaultBusy = some p) ∧ (s.tbLost = false) :=
  ⟨0x3FE0, { (State.reset.hoopMod (fun h => { h with vaultBusy := some 0x3FE0 })) with nor := [(0x3FD0, [2]), (0x3FE0, [1])] }, by decide +kernel⟩

/-- The hypotheses of the clause on cntDomainIdentity: the change starts: every slot that is not FIXED loses its key, FIXED ones keep theirs, and nothing is counted yet. -/
theorem wit_cntDomainIdentity_own : ∃ (s : State), (s.isF Reg.NDL_CNT_CMD Fld.NDL_CNT_CMD_BUSY = false) ∧ (s.noGrant 8 2 = false) ∧
  (s.hoop.domainUsed < 4) ∧ (((List.range 4).flatMap (fun k => bytesLE 4 (s.num (Reg.NDL_CNT_ARG k)))) ≠ List.replicate 16 0) ∧
  (((List.range 4).flatMap (fun k => bytesLE 4 (s.num (Reg.NDL_CNT_ARG k)))) ≠ s.hoop.domainId) ∧ (s.pins.pfail = false) :=
  ⟨((State.reset.ndlPut 20 { attr := 0xB0000010, key := [1] }).wrN (Reg.NDL_CNT_ARG 0) 5), by decide +kernel⟩

/-- The hypotheses of the clause on cntRollbackFloor: the raise is taken with its kind and steps; nothing is counted or raised until it is programmed. -/
theorem wit_cntRollbackFloor_own : ∃ (kind steps : Nat) (s : State), (s.isF Reg.NDL_CNT_CMD Fld.NDL_CNT_CMD_BUSY = false) ∧
  (s.noGrant 8 2 = false) ∧ (kind < 4) ∧ (1 ≤ steps) ∧ (steps ≤ 64) ∧ (s.hoop.floorUsed.getD kind 0 + steps ≤ 64) ∧
  (s.pins.pfail = false) :=
  ⟨1, 2, State.reset, by decide +kernel⟩

/-- The hypotheses of the clause on cntPairRoleLock: the role is taken; it is no role yet, and nothing is counted until it is programmed. -/
theorem wit_cntPairRoleLock_own : ∃ (role : Nat) (s : State), (s.isF Reg.NDL_CNT_CMD Fld.NDL_CNT_CMD_BUSY = false) ∧
  (s.noGrant 8 2 = false) ∧ (s.hoop.pairUsed < 2) ∧ (role ≤ 3) ∧ (s.getF Reg.CHIP_ID Fld.CHIP_ID_GRADE = 1) ∧ (s.pins.pfail = false) :=
  ⟨1, State.reset, by decide +kernel⟩

/-- The hypotheses of the clause on cntDebugOpen: the opening is taken; broken slots, the vault and memory stay, and nothing is counted yet. -/
theorem wit_cntDebugOpen_own : ∃ (s : State), (s.isF Reg.NDL_CNT_CMD Fld.NDL_CNT_CMD_BUSY = false) ∧ (s.noGrant 8 2 = false) ∧
  (s.hoop.debugUsed < 3) ∧ (s.pins.pfail = false) :=
  ⟨(State.reset.ndlPut 20 { attr := 0xB0000010, key := [1] }), by decide +kernel⟩

/-- The hypotheses of the clause on cntChangeDone: a programmed role is the pair role, one entry is spent, and no other setting changes. -/
theorem wit_cntChangeDone_role : ∃ (c : CntOp) (s : State), (s.hoop.cnt = some c) ∧ (c.setting = 3) ∧ (s.hoop.pairUsed < 2) :=
  ⟨{ setting := 3, value := 1 }, ((State.reset.hoopMod (fun h => { h with cnt := some { setting := 3, value := 1 } })).setF Reg.NDL_CNT_CMD Fld.NDL_CNT_CMD_BUSY 1), by decide +kernel⟩

/-- The hypotheses of the clause on cntChangeDone: a programmed identity is the domain's, one entry is spent, and no other setting changes. -/
theorem wit_cntChangeDone_domain : ∃ (c : CntOp) (s : State), (s.hoop.cnt = some c) ∧ (c.setting = 1) ∧ (s.hoop.domainUsed < 4) :=
  ⟨{ setting := 1, arg := List.replicate 16 3 }, ((State.reset.hoopMod (fun h => { h with cnt := some { setting := 1, arg := List.replicate 16 3 } })).setF Reg.NDL_CNT_CMD Fld.NDL_CNT_CMD_BUSY 1), by decide +kernel⟩

/-- The hypotheses of the clause on changeLogReconcile: a log that lacks no record is counted and left as it is. -/
theorem wit_changeLogReconcile_own : ∃ (s : State), (s.phase = 6) ∧
  ([(1, 0), (2, 0), (2, 1), (2, 2), (2, 3), (3, 0), (4, 0), (5, 0)].all (fun (c : Nat × Nat) => decide (s.cntUsed c.1 c.2 ≤ s.chgLogged c.1 c.2)) = true) :=
  ⟨(State.reset.setF Reg.STO_STAT Fld.STO_STAT_PHASE 6), by decide +kernel⟩

/-- The hypotheses of the clause on changeLogReconcile: a log that lacks one record gets it. -/
theorem wit_changeLogReconcile_one : ∃ (s : State), (s.phase = 6) ∧ (s.chgCount = 0) ∧ (s.hoop.pairUsed = 1) ∧
  ([(1, 0), (2, 0), (2, 1), (2, 2), (2, 3), (4, 0), (5, 0)].all (fun (c : Nat × Nat) => decide (s.cntUsed c.1 c.2 = 0)) = true) :=
  ⟨((State.reset.hoopMod (fun h => { h with pairUsed := 1 })).setF Reg.STO_STAT Fld.STO_STAT_PHASE 6), by decide +kernel⟩

/-- The hypotheses of the clause on updVerify: VERIFY ends DONE with the set verified if every check passes, with the code of the first failed check if not; the set, NOR and what runs stay. -/
theorem wit_updVerify_own : ∃ (stg : Nat) (s : State), (stg < 2) ∧ (s.isF Reg.UPD_STAT Fld.UPD_STAT_BUSY = false) ∧
  (s.isF Reg.UPD_RCV_STAT Fld.UPD_RCV_STAT_MODE = false) :=
  ⟨1, State.reset, by decide +kernel⟩

/-- The hypotheses of the clause on updActivateLive: the slot not booted is copying, its pages erased for the set. -/
theorem wit_updActivateLive_own : ∃ (stg : Nat) (s : State), (stg < 2) ∧ (s.isF Reg.UPD_STAT Fld.UPD_STAT_BUSY = false) ∧
  (s.isF Reg.UPD_RCV_STAT Fld.UPD_RCV_STAT_MODE = false) ∧ (s.upd.verified.contains stg = true) ∧ (s.session = false) ∧ (s.phase = 6) ∧
  (s.slotIn 3 = none) ∧ (s.hoChanged stg = false) ∧ (s.booted < 2) :=
  ⟨1, ((((State.reset.norPut (norSlot 0) (List.replicate 4096 0)).norPut (norSlot 1) (List.replicate 4096 0)).setPhase 6).updMod (fun u => { u with verified := [0, 1] })), by decide +kernel⟩

/-- The hypotheses of the clause on updActivateNextStart: likewise for the next start. -/
theorem wit_updActivateNextStart_own : ∃ (stg : Nat) (s : State), (stg < 2) ∧ (s.isF Reg.UPD_STAT Fld.UPD_STAT_BUSY = false) ∧
  (s.isF Reg.UPD_RCV_STAT Fld.UPD_RCV_STAT_MODE = false) ∧ (s.upd.verified.contains stg = true) ∧ (s.session = false) ∧ (s.phase = 6) ∧
  (s.slotIn 3 = none) ∧ (s.booted < 2) :=
  ⟨1, ((((State.reset.norPut (norSlot 0) (List.replicate 4096 0)).norPut (norSlot 1) (List.replicate 4096 0)).setPhase 6).updMod (fun u => { u with verified := [0, 1] })), by decide +kernel⟩

/-- The hypotheses of the clause on updStepDone: the copy of an activation for the next start ends: the slot holds the set and waits for its trial. -/
theorem wit_updStepDone_own : ∃ (item : Nat) (bad : Bool) (j : UpdJob) (s : State), (s.upd.job = some j) ∧ (j.op = 3) ∧ (s.tbLost = false) ∧
  (s.updStep = 2) ∧ (s.upd.verified.contains j.stg = true) ∧ (s.booted < 2) ∧ (setUnits (s.stgRd j.stg 0) ≤ norSlotPages) ∧
  (∀ n ∈ List.range (setUnits (s.stgRd j.stg 0)), (s.stgRd j.stg n).length = 4096) :=
  ⟨0, false, { op := 3, stg := 0 }, ((((((State.reset.norPut (norSlot 0) (List.replicate 4096 0)).norPut (norSlot 1) (List.replicate 4096 0)).storePut 2 0 (List.replicate 4096 0)).updMod (fun u => { u with job := some { op := 3, stg := 0 }, verified := [0] })).setF Reg.UPD_STAT Fld.UPD_STAT_STEP 2).setF Reg.UPD_STAT Fld.UPD_STAT_BUSY 1), by decide +kernel⟩

/-- The hypotheses of the clause on updCommit: COMMIT makes the trial slot good and the one before it fallback; containers that do not ask for it raise no floor. -/
theorem wit_updCommit_own : ∃ (i : Nat) (s : State), (s.isF Reg.UPD_STAT Fld.UPD_STAT_BUSY = false) ∧
  (s.isF Reg.UPD_RCV_STAT Fld.UPD_RCV_STAT_MODE = false) ∧ (s.slotIn 3 = some i) ∧ (s.hoop.floors.length = 4) ∧ (setRun (s.norRd i) = []) :=
  ⟨1, (((State.reset.norPut (norSlot 0) (List.replicate 4096 0)).norPut (norSlot 1) (List.replicate 4096 0)).slotSet 1 3 2), by decide +kernel, by decide +kernel, State.slotIn_slotSet (by decide +kernel) (by decide) (by decide) (by decide), by decide +kernel, by decide +kernel⟩

/-- The hypotheses of the clause on updRevert: REVERT before the trial begins makes the slot bad, and what runs stays. -/
theorem wit_updRevert_own : ∃ (bad : Bool) (i : Nat) (s : State), (s.isF Reg.UPD_STAT Fld.UPD_STAT_BUSY = false) ∧
  (s.isF Reg.UPD_RCV_STAT Fld.UPD_RCV_STAT_MODE = false) ∧ (s.slotIn 3 = some i) ∧ (s.upd.liveTrial = false) ∧ (s.booted ≠ i) :=
  ⟨false, 1, (State.reset.slotSet 1 3 2), by decide +kernel, by decide +kernel, State.slotIn_slotSet (by decide +kernel) (by decide) (by decide) (by decide), by decide +kernel, by decide +kernel⟩

/-- The hypotheses of the clause on updRevert: REVERT of a live trial makes the slot bad, and what ran before runs again. -/
theorem wit_updRevert_live : ∃ (i : Nat) (s : State), (s.isF Reg.UPD_STAT Fld.UPD_STAT_BUSY = false) ∧
  (s.isF Reg.UPD_RCV_STAT Fld.UPD_RCV_STAT_MODE = false) ∧ (s.slotIn 3 = some i) ∧ (s.upd.liveTrial = true) :=
  ⟨1, ((State.reset.updMod (fun u => { u with liveTrial := true })).slotSet 1 3 2), by decide +kernel, by decide +kernel, State.slotIn_slotSet (by decide +kernel) (by decide) (by decide) (by decide), by decide +kernel⟩

/-- The hypotheses of the clause on updRecoveryRequest: the directory asks for recovery; both slots keep their states. -/
theorem wit_updRecoveryRequest_own : ∃ (s : State), (s.isF Reg.UPD_STAT Fld.UPD_STAT_BUSY = false) ∧
  (s.isF Reg.UPD_RCV_STAT Fld.UPD_RCV_STAT_MODE = false) :=
  ⟨State.reset, by decide +kernel⟩

/-- The hypotheses of the clause on trialTimeout: a live trial without COMMIT in time is reverted. -/
theorem wit_trialTimeout_own : ∃ (i : Nat) (s : State), (s.slotIn 3 = some i) ∧ (s.upd.liveTrial = true) :=
  ⟨1, ((State.reset.updMod (fun u => { u with liveTrial := true })).slotSet 1 3 2), State.slotIn_slotSet (by decide +kernel) (by decide) (by decide) (by decide), by decide +kernel⟩

/-- The hypotheses of the clause on stitchOffer: an OFFER of a set that this device neither runs nor holds is taken, and its blocks are asked for in order. -/
theorem wit_stitchOffer_own : ∃ (port : Nat) (b h : Bytes) (s : State), (b.length = 4116) ∧ (u8 b 0 = 1) ∧ (h = slice b 20 4096) ∧
  (u32 h 4092 = crc32c (h.take 4092)) ∧ (s.upd.job = none) ∧ ((stitchId b) ≠ s.runId) ∧ (s.ownSet (stitchId b) = none) :=
  ⟨5, (([1] ++ List.replicate 19 0) ++ (List.replicate 4092 0 ++ bytesLE 4 (crc32c (List.replicate 4092 0)))), (List.replicate 4092 0 ++ bytesLE 4 (crc32c (List.replicate 4092 0))), { State.reset with nor := [(0x20, [1]), (0x2000, [1])] }, by simp [bytesLE_length, -List.reduceReplicate], by decide +kernel, (slice_append (by decide) (by simp [bytesLE_length, -List.reduceReplicate])).symm, u32_sealed (by simp [-List.reduceReplicate]), by decide +kernel, by decide +kernel, by decide +kernel⟩

/-- The hypotheses of the clause on stitchRequest: a REQUEST for the header of a set held is answered with it. -/
theorem wit_stitchRequest_head : ∃ (port g : Nat) (b : Bytes) (s : State), (s.ownSet (stitchId b) = some g) ∧ (u8 b 0 = 2) ∧
  (u32 b 16 ≠ 0) ∧ (u32 b 16 ≤ 4096) ∧ (u16 b 2 = 0xFFFF) :=
  ⟨5, 0, ([2, 0, 255, 255] ++ setIdB (List.replicate 6 0 ++ [1, 0] ++ List.replicate 64 0 ++ [9] ++ List.replicate 100 0) ++ [0, 0, 0, 0, 1, 0, 0, 0]), ((State.reset.stoMod (fun x => { x with map := [(luaOf 2 0, 1)], units := [(0, { data := List.replicate 6 0 ++ [1, 0] ++ List.replicate 64 0 ++ [9] ++ List.replicate 100 0 })] })).updMod (fun u => { u with verified := [0] })), by decide +kernel⟩

/-- The hypotheses of the clause on stitchRequest: a REQUEST for a block of it is answered with the block. -/
theorem wit_stitchRequest_own : ∃ (port g : Nat) (b : Bytes) (s : State), (s.ownSet (stitchId b) = some g) ∧ (u8 b 0 = 2) ∧ (u32 b 16 = 1) ∧
  (u16 b 2 < u16 (s.stgRd g 0) 6) ∧ (u32 b 12 < u32 (setEntry (s.stgRd g 0) (u16 b 2)) 8) :=
  ⟨5, 0, ([2, 0, 0, 0] ++ setIdB (List.replicate 6 0 ++ [1, 0] ++ List.replicate 64 0 ++ [9] ++ List.replicate 100 0) ++ [0, 0, 0, 0, 1, 0, 0, 0]), ((State.reset.stoMod (fun x => { x with map := [(luaOf 2 0, 1)], units := [(0, { data := List.replicate 6 0 ++ [1, 0] ++ List.replicate 64 0 ++ [9] ++ List.replicate 100 0 })] })).updMod (fun u => { u with verified := [0] })), by decide +kernel⟩

/-- The hypotheses of the clause on stitchBlock: a BLOCK that checks is kept, its place is noted, and the staging slot no longer counts as verified. -/
theorem wit_stitchBlock_own : ∃ (port : Nat) (b : Bytes) (q : Stitch) (s : State), (s.upd.stitch = some q) ∧ (port = q.port) ∧
  (u8 b 0 = 3) ∧ ((stitchId b) = setIdB q.header) ∧ (u16 b 2 < u16 q.header 6) ∧ (u32 b 12 < u32 (setEntry q.header (u16 b 2)) 8) ∧
  (b.length = 4116) ∧ (blkOk (slice b 20 4096) = true) :=
  ⟨5, (([3, 0, 0, 0] ++ setIdB (List.replicate 6 0 ++ [1, 0] ++ List.replicate 64 0 ++ [9] ++ List.replicate 100 0) ++ List.replicate 8 0) ++ (List.replicate 4092 0 ++ bytesLE 4 (crc32c (List.replicate 4092 0)))), { port := 5, stg := 0, header := List.replicate 6 0 ++ [1, 0] ++ List.replicate 64 0 ++ [9] ++ List.replicate 100 0 }, (State.reset.updMod (fun u => { u with stitch := some { port := 5, stg := 0, header := List.replicate 6 0 ++ [1, 0] ++ List.replicate 64 0 ++ [9] ++ List.replicate 100 0 } })), by decide +kernel, by decide +kernel, by decide +kernel, by decide +kernel, by decide +kernel, by decide +kernel, by rw [List.length_append, (show (([3, 0, 0, 0] ++ setIdB (List.replicate 6 0 ++ [1, 0] ++ List.replicate 64 0 ++ [9] ++ List.replicate 100 0) ++ List.replicate 8 0 : Bytes)).length = 20 by decide +kernel)]; simp [bytesLE_length, -List.reduceReplicate], by rw [slice_append (p := [3, 0, 0, 0] ++ setIdB (List.replicate 6 0 ++ [1, 0] ++ List.replicate 64 0 ++ [9] ++ List.replicate 100 0) ++ List.replicate 8 0) (by decide +kernel) (by simp [bytesLE_length, -List.reduceReplicate])]; exact blkOk_sealed (by simp [-List.reduceReplicate])⟩

/-- The hypotheses of the clause on stitchDone: a set received whole that verifies is answered with DONE and counts as verified; one that does not is left to ABORT. -/
theorem wit_stitchDone_own : ∃ (q : Stitch) (s : State), (s.upd.stitch = some q) ∧ (stitchWhole q = true) ∧ (s.upd.job = none) :=
  ⟨{ port := 5, stg := 0, header := [7] }, (State.reset.updMod (fun u => { u with stitch := some { port := 5, stg := 0, header := [7] } })), by decide +kernel⟩

/-- The hypotheses of the clause on stitchAbort: a set received whole that fails a check is answered with ABORT and its code. -/
theorem wit_stitchAbort_own : ∃ (q : Stitch) (s : State), (s.upd.stitch = some q) ∧ (stitchWhole q = true) ∧ (s.upd.job = none) :=
  ⟨{ port := 5, stg := 0, header := [7] }, (State.reset.updMod (fun u => { u with stitch := some { port := 5, stg := 0, header := [7] } })), by decide +kernel⟩

/-- The hypotheses of the clause on uartDataFrame: the data of a good frame reads back at its offset, and ACK answers under its sequence number. -/
theorem wit_uartDataFrame_own : ∃ (b : Bytes) (s : State), (s.uartOn = true) ∧ (uartGood b = true) ∧ (u8 b 1 = 1) ∧ (∀ x ∈ b, x < 256) :=
  ⟨([0xA5, 1, 7, 0, 0, 0x10, 0, 0, 1, 0, 0, 0, 0x55] ++ bytesLE 4 (crc32c [0xA5, 1, 7, 0, 0, 0x10, 0, 0, 1, 0, 0, 0, 0x55])), (State.reset.setF Reg.UPD_RCV_STAT Fld.UPD_RCV_STAT_MODE 1), by decide +kernel⟩

/-- The hypotheses of the clause on uartEndFrame: the end of a delivery has the set checked; its result shows and goes out as a RESULT frame. -/
theorem wit_uartEndFrame_own : ∃ (b : Bytes) (bad : Bool) (e i : Nat) (s : State), (s.uartOn = true) ∧ (uartGood b = true) ∧ (u8 b 1 = 2) ∧
  (s.setVerify (s.rcvRd (u32 b 4)) none = some (e, i)) ∧ (e < 16) :=
  ⟨([0xA5, 2, 7, 0, 0, 0x10, 0, 0, 0, 0, 0, 0] ++ bytesLE 4 (crc32c [0xA5, 2, 7, 0, 0, 0x10, 0, 0, 0, 0, 0, 0])), false, 11, 0, (State.reset.setF Reg.UPD_RCV_STAT Fld.UPD_RCV_STAT_MODE 1), by decide +kernel⟩

/-- The hypotheses of the clause on uartRxTimeout: a gap starts the hunt for a frame and does nothing else. -/
theorem wit_uartRxTimeout_own : ∃ (s : State), (s.uartOn = true) :=
  ⟨(State.reset.setF Reg.UPD_RCV_STAT Fld.UPD_RCV_STAT_MODE 1), by decide +kernel⟩

/-- The hypotheses of the clause on rcvGo: a set that cannot be written ends with result 13 and its path. -/
theorem wit_rcvGo_own : ∃ (init len : Nat) (s : State), (s.rcvMode = true) ∧ (init = 8) ∧ (len < 2 ^ 25) :=
  ⟨8, 4096, (State.reset.setF Reg.UPD_RCV_STAT Fld.UPD_RCV_STAT_MODE 1), by decide +kernel⟩

/-- The hypotheses of the clause on rcvGo: a set that checks is copied to trial, CYCLES returns to 0, and the device restarts. -/
theorem wit_rcvGo_trial : ∃ (init len : Nat) (s : State), (s.rcvMode = true) ∧ (init = 7) ∧ (len < 2 ^ 25) ∧ (s.pins.pfail = true) :=
  ⟨7, 4096, { (State.reset.setF Reg.UPD_RCV_STAT Fld.UPD_RCV_STAT_MODE 1) with pins := { State.reset.pins with pfail := true } }, by decide +kernel⟩

/-- The hypotheses of the clause on pairMessageReceive: SLOT: the standby takes the entry and no other, and sends CONFIRM. -/
theorem wit_pairMessageReceive_own : ∃ (b : Bytes) (s : State), (1 ≤ s.pairState) ∧ (s.noGrant 9 3 = false) ∧ (b.length = 20 + u16 b 2) ∧
  (u32 b (16 + u16 b 2) = crc32c (b.take (16 + u16 b 2))) ∧ (un b 8 8 = s.pair.rxSeq + 1) ∧ (u8 b 0 = 3) ∧
  (s.pairState = 2 ∨ s.pairState = 3) ∧ (u16 b 2 = 40) :=
  ⟨(pairMsg 3 0 5 ([0, 0, 0, 0, 9, 0, 0, 0] ++ List.replicate 8 7 ++ List.replicate 24 1)), ((State.reset.setF Reg.SMP_PAIR_STAT Fld.SMP_PAIR_STAT_STATE 3).pairMod (fun p => { p with rxSeq := 4 })), by decide +kernel⟩

/-- The hypotheses of the clause on pairMessageReceive: STATUS: the link is up, and the partner's state is known. -/
theorem wit_pairMessageReceive_stat : ∃ (b : Bytes) (s : State), (1 ≤ s.pairState) ∧ (s.noGrant 9 3 = false) ∧ (b.length = 20 + u16 b 2) ∧
  (u32 b (16 + u16 b 2) = crc32c (b.take (16 + u16 b 2))) ∧ (un b 8 8 = s.pair.rxSeq + 1) ∧ (u8 b 0 = 1) ∧ (u8 b 17 ≠ s.pairRole) ∧
  (s.pairState = 3) ∧ (s.pairRole ≠ 0) :=
  ⟨(pairMsg 1 0 5 ([4, 2] ++ List.replicate 12 0)), ({ (State.reset.setF Reg.SMP_PAIR_STAT Fld.SMP_PAIR_STAT_STATE 3) with hoop := { State.reset.hoop with pairRole := 1 } }.pairMod (fun p => { p with rxSeq := 4 })), by decide +kernel⟩

/-- The hypotheses of the clause on mirrorTimeout: a confirmation that stays away is the loss of the link: commits are held, and a grant is needed. -/
theorem wit_mirrorTimeout_own : ∃ (s : State), (s.mustConfirm = true) ∧ (s.pair.sent.any (fun e => confirmed e.2.1) = true) ∧
  (s.pair.released = false) ∧ (s.smp.fifo.length < 256) :=
  ⟨(((State.reset.setF Reg.SMP_PAIR_STAT Fld.SMP_PAIR_STAT_STATE 4).setF Reg.SMP_PAIR_STAT Fld.SMP_PAIR_STAT_LINK 1).pairMod (fun p => { p with peerState := 3, sent := [(2, 2, [])] })), by decide +kernel⟩

/-- The hypotheses of the clause on bootPfailHoldEnd: the boot ROM goes on: with recovery asked for, by the directory or by BOOT_RCV_N, recovery mode runs and the request is spent. -/
theorem wit_bootPfailHoldEnd_own : ∃ (c : Nat) (x y : Bool) (s : State), (s.pins.bootWait = some (c, x, y)) ∧ (s.pins.pfail = false) ∧
  (s.rcvReq = true ∨ s.pins.rcv = true) :=
  ⟨2, false, false, { State.reset with pins := { State.reset.pins with bootWait := some (2, false, false), rcv := true } }, by decide +kernel⟩

/-- The hypotheses of the clause on samplerReport: a report below severity 7 enters the FIFO, and nothing else follows from it. -/
theorem wit_samplerReport : ∃ (code sev path : Nat) (data : Bytes) (s : State), (code < 65536) ∧ (sev < 7) ∧ (path < 65536) ∧
  (s.smp.fifo.length < 256) :=
  ⟨0x5001, 4, 0x5000, [1], State.reset, by decide +kernel⟩

/-- The hypotheses of the clause on samplerReport: one that finds 256 waiting is lost, tallied and counted under its severity. -/
theorem wit_samplerReport_lost : ∃ (code sev path : Nat) (data : Bytes) (s : State), (sev < 7) ∧ (256 ≤ s.smp.fifo.length) :=
  ⟨0x5001, 4, 0x5000, [1], (State.reset.smpMod (fun p => { p with fifo := List.replicate 256 { code := 0x5001, sev := 2, opsec := 5, pcc := 1, path := 0x5000, data := [] } })), by decide +kernel⟩

/-- The hypotheses of the clause on samplerLostSynth: at 128 or fewer one record tells of the losses, at the highest severity lost. -/
theorem wit_samplerLostSynth : ∃ (s : State), (s.smp.fifo.length ≤ 128) ∧ (0 < s.smp.tally.total) :=
  ⟨(State.reset.smpMod (fun p => { p with tally := { total := 3, high := 4 } })), by decide +kernel⟩

/-- The hypotheses of the clause on samplerLostSynth: and not otherwise. -/
theorem wit_samplerLostSynth_none : ∃ (s : State), (128 < s.smp.fifo.length ∨ s.smp.tally.total = 0) :=
  ⟨State.reset, by decide +kernel⟩

/-- The hypotheses of the clause on samplerFifoTake: a report like the last record within REPEAT_WIN is absorbed: REPEAT goes up, no number is used. -/
theorem wit_samplerFifoTake_abs : ∃ (e : SmpEntry) (r : List SmpEntry) (i : Nat) (s : State), (s.smp.fifo = e :: r) ∧
  (s.getF Reg.SMP_CTL Fld.SMP_CTL_MIN_SEV ≤ e.sev) ∧ (s.absorbs e = some i) :=
  ⟨{ code := 0x5001, sev := 2, opsec := 5, pcc := 1, path := 0x5000, data := [] }, [], 0, (((State.reset.smpMod (fun p => { p with fifo := [{ code := 0x5001, sev := 2, opsec := 5, pcc := 1, path := 0x5000, data := [] }], last := some 0 }))).smpPut 0 { code := 0x5001, sev := 2, opsec := 5, pcc := 1, path := 0x5000, data := [], seq := 7 }), by decide +kernel⟩

/-- The hypotheses of the clause on samplerFifoTake: any other takes a slot and the next sequence number. -/
theorem wit_samplerFifoTake_new : ∃ (e : SmpEntry) (r : List SmpEntry) (i : Nat) (s : State), (s.smp.fifo = e :: r) ∧
  (s.getF Reg.SMP_CTL Fld.SMP_CTL_MIN_SEV ≤ e.sev) ∧ (s.absorbs e = none) ∧ (s.smpPick e.sev = some i) ∧ (e.code ≠ 0) :=
  ⟨{ code := 0x5001, sev := 2, opsec := 5, pcc := 1, path := 0x5000, data := [] }, [], 0, (State.reset.smpMod (fun p => { p with fifo := [{ code := 0x5001, sev := 2, opsec := 5, pcc := 1, path := 0x5000, data := [] }] })), by decide +kernel⟩

/-- The hypotheses of the clause on samplerRdSel: a slot is copied whole to the read buffer. -/
theorem wit_samplerRdSel : ∃ (slot w : Nat) (s : State), (slot < 8192) ∧ (w < 8) :=
  ⟨8191, 7, State.reset, by decide +kernel⟩

/-- The hypotheses of the clause on mirrorUnitWrite: nothing is mirrored before the store is at PHASE 6. -/
theorem wit_mirrorUnitWrite : ∃ (s : State), (s.mirrorOn = false) :=
  ⟨State.reset, by decide +kernel⟩

/-- The hypotheses of the clause on mirrorUnitWrite: after it the open unit has no change left. -/
theorem wit_mirrorUnitWrite_on : ∃ (s : State), (s.mirrorOn = true) :=
  ⟨(State.reset.setPhase 6), by decide +kernel⟩

/-- The hypotheses of the clause on hoopWatchdogExpire: without a hoop that runs unkicked there is no timeout. -/
theorem wit_hoopWatchdogExpire_none : ∃ (s : State), (s.ladder.hoopRun = false ∨ s.getF Reg.SMP_RCV_CTL Fld.SMP_RCV_CTL_HWDOG_S = 0 ∨ s.ladder.hwd ≠ 0) :=
  ⟨State.reset, by decide +kernel⟩

/-- The hypotheses of the clause on hoopWatchdogExpire: the hoop watchdog takes step 2: the device restarts. -/
theorem wit_hoopWatchdogExpire : ∃ (s : State), (s.ladder.hoopRun = true) ∧ (s.getF Reg.SMP_RCV_CTL Fld.SMP_RCV_CTL_HWDOG_S ≠ 0) ∧
  (s.ladder.hwd = 0) ∧ (s.pins.pfail = true) ∧ (s.getF Reg.CHIP_RECOV_STAT Fld.CHIP_RECOV_STAT_STEP = 0) ∧ (s.escLeft = 0) ∧
  (s.ao.stepOpen = false) :=
  ⟨{ { State.reset with pins := { State.reset.pins with pfail := true } } with ladder := { { State.reset with pins := { State.reset.pins with pfail := true } }.ladder with hoopRun := true } }, by decide +kernel⟩

/-- The hypotheses of the clause on fieldWatchdogExpire: the field watchdog takes step 1 on region CO. -/
theorem wit_fieldWatchdogExpire : ∃ (s : State), (s.ladder.fieldRun = true) ∧ (s.getF Reg.SMP_RCV_CTL Fld.SMP_RCV_CTL_FWDOG_S ≠ 0) ∧
  (s.ladder.fwd = 0) ∧ (s.getF Reg.CHIP_RECOV_STAT Fld.CHIP_RECOV_STAT_STEP = 0) ∧ (s.escLeft = 0) ∧ (s.ao.stepOpen = false) :=
  ⟨{ State.reset with ladder := { State.reset.ladder with fieldRun := true } }, by decide +kernel⟩

/-- The hypotheses of the clause on hoopWdogKick: a kick by the hoop reloads the hoop watchdog. -/
theorem wit_hoopWdogKick : ∃ (init key : Nat) (s : State), (key = 0x4B49) ∧ (isHoop init = true) :=
  ⟨0, 0x4B49, State.reset, by decide +kernel⟩

/-- The hypotheses of the clause on hoopWdogKick: by another initiator it is refused and counted. -/
theorem wit_hoopWdogKick_fw : ∃ (init key : Nat) (s : State), (key = 0x4B49) ∧ (isHoop init = false) :=
  ⟨1, 0x4B49, State.reset, by decide +kernel⟩

/-- The hypotheses of the clause on hoopWdogKick: a wrong KEY is ignored. -/
theorem wit_hoopWdogKick_key : ∃ (init key : Nat) (s : State), (key ≠ 0x4B49) :=
  ⟨0, 0, State.reset, by decide +kernel⟩

/-- The hypotheses of the clause on fieldWdogKick: any initiator kicks the field watchdog. -/
theorem wit_fieldWdogKick : ∃ (init key : Nat) (s : State), (key = 0x4B49) :=
  ⟨3, 0x4B49, State.reset, by decide +kernel⟩

/-- The hypotheses of the clause on ladderStepRequest: the hoop asks for step 3: a power cycle is requested. -/
theorem wit_ladderStepRequest : ∃ (init key act : Nat) (s : State), (key = 0x4B49) ∧ (isHoop init = true) ∧ (act = 3) ∧ (s.ao.cycles < 3) ∧
  (s.getF Reg.CHIP_RECOV_STAT Fld.CHIP_RECOV_STAT_STEP = 0) ∧ (s.escLeft = 0) ∧ (s.ao.stepOpen = false) :=
  ⟨0, 0x4B49, 3, State.reset, by decide +kernel⟩

/-- The hypotheses of the clause on ladderStepRequest: after three power cycles step 4 is taken in place of step 3: recovery is requested too. -/
theorem wit_ladderStepRequest_four : ∃ (init key act : Nat) (s : State), (key = 0x4B49) ∧ (isHoop init = true) ∧ (act = 3 ∨ act = 4) ∧
  (s.ao.cycles = 3) ∧ (s.getF Reg.CHIP_RECOV_STAT Fld.CHIP_RECOV_STAT_STEP = 0) ∧ (s.escLeft = 0) ∧ (s.ao.stepOpen = false) :=
  ⟨0, 0x4B49, 3, (State.reset.aoMod (fun a => { a with cycles := 3 })), by decide +kernel⟩

/-- The hypotheses of the clause on ladderStepRequest: a trigger while a step runs goes one step further. -/
theorem wit_ladderStepRequest_esc : ∃ (init key act : Nat) (s : State), (key = 0x4B49) ∧ (isHoop init = true) ∧ (act = 2) ∧
  (s.getF Reg.CHIP_RECOV_STAT Fld.CHIP_RECOV_STAT_STEP = 1) ∧ (s.ao.lastStep = 2) ∧ (s.ao.cycles < 3) :=
  ⟨0, 0x4B49, 2, ((State.reset.aoMod (fun a => { a with lastStep := 2 })).setF Reg.CHIP_RECOV_STAT Fld.CHIP_RECOV_STAT_STEP 1), by decide +kernel⟩

/-- The hypotheses of the clause on ladderStepRequest: no other initiator may ask. -/
theorem wit_ladderStepRequest_fw : ∃ (init key act : Nat) (s : State), (key = 0x4B49) ∧ (isHoop init = false) ∧ (2 ≤ act) ∧ (act ≤ 4) :=
  ⟨1, 0x4B49, 4, State.reset, by decide +kernel⟩

/-- The hypotheses of the clause on regionResetDone: no step 1, no end. -/
theorem wit_regionResetDone_none : ∃ (fail : Bool) (s : State), (s.ladder.region = 0) :=
  ⟨false, State.reset, by decide +kernel⟩

/-- The hypotheses of the clause on regionResetDone: step 1 ends: grants resume and the escalation window opens. -/
theorem wit_regionResetDone : ∃ (fail : Bool) (s : State), (fail = false) ∧ (s.ladder.region = 9) :=
  ⟨false, { State.reset with ladder := { State.reset.ladder with region := 9 } }, by decide +kernel⟩

/-- The hypotheses of the clause on powerCycleTimeout: without a request there is no timeout. -/
theorem wit_powerCycleTimeout_none : ∃ (clk : Nat) (v : Option Nat) (s : State), (s.ao.pwrReq = false ∨ s.ao.stepOpen = false ∨ s.pins.reset = true) :=
  ⟨7, none, State.reset, by decide +kernel⟩

/-- The hypotheses of the clause on powerCycleTimeout: with power still there the device resets itself, the request still driven. -/
theorem wit_powerCycleTimeout : ∃ (clk : Nat) (v : Option Nat) (s : State), (s.ao.pwrReq = true) ∧ (s.ao.stepOpen = true) ∧
  (s.pins.reset = false) ∧ (s.pins.pfail = true) :=
  ⟨7, none, { (State.reset.aoMod (fun a => { a with pwrReq := true, stepOpen := true })) with pins := { State.reset.pins with pfail := true } }, by decide +kernel⟩

/-- The hypotheses of the clause on ponrstRise: PONRST_N high: a power cycle is counted; with PFAIL_N low the boot ROM waits. -/
theorem wit_ponrstRise : ∃ (away clk : Nat) (v : Option Nat) (rcv : Bool) (s : State), (s.pins.pfail = true) :=
  ⟨0, 7, none, false, { State.reset with pins := { State.reset.pins with pfail := true } }, by decide +kernel⟩

/-- The hypotheses of the clause on warmReset: WARM_N is ignored while PONRST_N is low. -/
theorem wit_warmReset_held : ∃ (v : Option Nat) (rcv : Bool) (s : State), (s.pins.reset = true) :=
  ⟨none, false, { State.reset with pins := { State.reset.pins with reset := true } }, by decide +kernel⟩

/-- The hypotheses of the clause on warmReset: a warm reset keeps the Sampler's log and the clocks, and clears the rest. -/
theorem wit_warmReset : ∃ (v : Option Nat) (rcv : Bool) (s : State), (s.pins.reset = false) ∧ (s.pins.pfail = true) :=
  ⟨none, false, { State.reset with pins := { State.reset.pins with pfail := true } }, by decide +kernel⟩

/-- The hypotheses of the clause on bootPfailHoldEnd: the boot ROM goes on only when it waited and PFAIL_N is high. -/
theorem wit_bootPfailHoldEnd : ∃ (s : State), (s.pins.bootWait = none ∨ s.pins.pfail = true) :=
  ⟨State.reset, by decide +kernel⟩

/-- The hypotheses of the clause on pfailFall: PFAIL_N already low: nothing more follows. -/
theorem wit_pfailFall_low : ∃ (erasing : Nat) (s : State), (s.pins.pfail = true) :=
  ⟨0, { State.reset with pins := { State.reset.pins with pfail := true } }, by decide +kernel⟩

/-- The hypotheses of the clause on pfailFall: PFAIL_N falls: the device holds, yields, stops an activation and closes a seal session. -/
theorem wit_pfailFall : ∃ (erasing : Nat) (s : State), (s.pins.pfail = false) :=
  ⟨0, State.reset, by decide +kernel⟩

/-- The hypotheses of the clause on pfailRise: PFAIL_N rises: a store that has flushed is at PHASE 6 again. -/
theorem wit_pfailRise : ∃ (s : State), (s.pins.pfail = true) ∧ (s.phase = 8) ∧ (s.totEn = false) :=
  ⟨{ (State.reset.setPhase 8) with pins := { State.reset.pins with pfail := true } }, by decide +kernel⟩

/-- The hypotheses of the clause on pairEnWrite: EN at 0 leaves the pair. -/
theorem wit_pairEnWrite : ∃ (en : Bool) (s : State), (en = false) :=
  ⟨false, ((State.reset.setF Reg.SMP_PAIR_STAT Fld.SMP_PAIR_STAT_STATE 4).setF Reg.SMP_PAIR_STAT Fld.SMP_PAIR_STAT_HOLD 1), by decide +kernel⟩

/-- The hypotheses of the clause on pairEnWrite: a device without a pair role or of the wrong grade refuses, with a record. -/
theorem wit_pairEnWrite_ref : ∃ (en : Bool) (s : State), (en = true) ∧ (s.pairAble = false) ∧ (s.smp.fifo.length < 256) :=
  ⟨true, State.reset, by decide +kernel⟩

/-- The hypotheses of the clause on pairEnWrite: one that may starts. -/
theorem wit_pairEnWrite_go : ∃ (en : Bool) (s : State), (en = true) ∧ (s.pairAble = true) ∧ (s.pairState = 0) :=
  ⟨true, { (State.reset.setF Reg.CHIP_ID Fld.CHIP_ID_GRADE 1) with hoop := { State.reset.hoop with pairRole := 1 } }, by decide +kernel⟩

/-- The hypotheses of the clause on pairStatusSend: STATUS goes out under the next MSEQ. -/
theorem wit_pairStatusSend : ∃ (s : State), (s.pairState ≠ 0) ∧ (s.noGrant 9 3 = false) :=
  ⟨(State.reset.setF Reg.SMP_PAIR_STAT Fld.SMP_PAIR_STAT_STATE 3), by decide +kernel⟩

/-- The hypotheses of the clause on pairStatusSend: outside a pair nothing is sent. -/
theorem wit_pairStatusSend_off : ∃ (s : State), (s.pairState = 0) :=
  ⟨State.reset, by decide +kernel⟩

/-- The hypotheses of the clause on pairStatusTimeout: a link that is down is not lost again. -/
theorem wit_pairStatusTimeout_none : ∃ (s : State), (s.pairLink = false) :=
  ⟨State.reset, by decide +kernel⟩

/-- The hypotheses of the clause on pairStatusTimeout: an active device that loses the link holds its commits and needs a grant. -/
theorem wit_pairStatusTimeout : ∃ (s : State), (s.pairLink = true) ∧ (s.pairState = 4) ∧ (s.pair.released = false) ∧
  (s.smp.fifo.length < 256) :=
  ⟨((State.reset.setF Reg.SMP_PAIR_STAT Fld.SMP_PAIR_STAT_STATE 4).setF Reg.SMP_PAIR_STAT Fld.SMP_PAIR_STAT_LINK 1), by decide +kernel⟩

/-- The hypotheses of the clause on pairStatusTimeout: one whose partner has released goes on alone. -/
theorem wit_pairStatusTimeout_rel : ∃ (s : State), (s.pairLink = true) ∧ (s.pairState = 4) ∧ (s.pair.released = true) :=
  ⟨{ ((State.reset.setF Reg.SMP_PAIR_STAT Fld.SMP_PAIR_STAT_STATE 4).setF Reg.SMP_PAIR_STAT Fld.SMP_PAIR_STAT_LINK 1) with pair := { State.reset.pair with released := true } }, by decide +kernel⟩

/-- The hypotheses of the clause on pairStatusTimeout: a syncing device becomes STALE. -/
theorem wit_pairStatusTimeout_sync : ∃ (s : State), (s.pairLink = true) ∧ (s.pairState = 2) :=
  ⟨((State.reset.setF Reg.SMP_PAIR_STAT Fld.SMP_PAIR_STAT_STATE 2).setF Reg.SMP_PAIR_STAT Fld.SMP_PAIR_STAT_LINK 1), by decide +kernel⟩

/-- The hypotheses of the clause on mirrorTimeout: without a commit that waits for CONFIRM there is no timeout. -/
theorem wit_mirrorTimeout : ∃ (s : State), (s.mustConfirm = false ∨ s.pair.sent = []) :=
  ⟨State.reset, by decide +kernel⟩

/-- The hypotheses of the clause on bothHolding: when both hold, device B releases. -/
theorem wit_bothHolding : ∃ (s : State), (s.pairHold = true) ∧ (s.pairRole = 2) :=
  ⟨{ ((State.reset.setF Reg.SMP_PAIR_STAT Fld.SMP_PAIR_STAT_STATE 4).setF Reg.SMP_PAIR_STAT Fld.SMP_PAIR_STAT_HOLD 1) with hoop := { State.reset.hoop with pairRole := 2 } }, by decide +kernel⟩

/-- The hypotheses of the clause on bothHolding: and the other goes on. -/
theorem wit_bothHolding_a : ∃ (s : State), (s.pairHold = true) ∧ (s.pairRole ≠ 2) :=
  ⟨((State.reset.setF Reg.SMP_PAIR_STAT Fld.SMP_PAIR_STAT_STATE 4).setF Reg.SMP_PAIR_STAT Fld.SMP_PAIR_STAT_HOLD 1), by decide +kernel⟩

/-- The hypotheses of the clause on pairMessageReceive: a message with a bad check is dropped. -/
theorem wit_pairMessageReceive_bad : ∃ (b : Bytes) (s : State), (b.length ≠ 20 + u16 b 2 ∨ u32 b (16 + u16 b 2) ≠ crc32c (b.take (16 + u16 b 2))) :=
  ⟨[1], (State.reset.setF Reg.SMP_PAIR_STAT Fld.SMP_PAIR_STAT_STATE 3), by decide +kernel⟩

/-- The hypotheses of the clause on pairMessageReceive: one already received has no effect again. -/
theorem wit_pairMessageReceive_again : ∃ (b : Bytes) (s : State), (1 ≤ s.pairState) ∧ (s.noGrant 9 3 = false) ∧ (b.length = 20 + u16 b 2) ∧
  (u32 b (16 + u16 b 2) = crc32c (b.take (16 + u16 b 2))) ∧ (2 ≤ u8 b 0) ∧ (un b 8 8 ≤ s.pair.rxSeq) :=
  ⟨(pairMsg 3 0 4 []), ((State.reset.setF Reg.SMP_PAIR_STAT Fld.SMP_PAIR_STAT_STATE 3).pairMod (fun p => { p with rxSeq := 4 })), by decide +kernel⟩

/-- The hypotheses of the clause on pairMessageReceive: one after a gap is not taken: a resend is asked for. -/
theorem wit_pairMessageReceive_gap : ∃ (b : Bytes) (s : State), (1 ≤ s.pairState) ∧ (s.noGrant 9 3 = false) ∧ (b.length = 20 + u16 b 2) ∧
  (u32 b (16 + u16 b 2) = crc32c (b.take (16 + u16 b 2))) ∧ (2 ≤ u8 b 0) ∧ (s.pair.rxSeq + 1 < un b 8 8) :=
  ⟨(pairMsg 3 0 6 []), ((State.reset.setF Reg.SMP_PAIR_STAT Fld.SMP_PAIR_STAT_STATE 3).pairMod (fun p => { p with rxSeq := 4 })), by decide +kernel⟩

/-- The hypotheses of the clause on pairMessageReceive: RELEASE tells that the partner no longer holds. -/
theorem wit_pairMessageReceive_rel : ∃ (b : Bytes) (s : State), (1 ≤ s.pairState) ∧ (s.noGrant 9 3 = false) ∧ (b.length = 20 + u16 b 2) ∧
  (u32 b (16 + u16 b 2) = crc32c (b.take (16 + u16 b 2))) ∧ (u8 b 0 = 8) ∧ (un b 8 8 = s.pair.rxSeq + 1) :=
  ⟨(pairMsg 8 0 5 []), ((State.reset.setF Reg.SMP_PAIR_STAT Fld.SMP_PAIR_STAT_STATE 3).pairMod (fun p => { p with rxSeq := 4 })), by decide +kernel⟩

/-- The hypotheses of the clause on pairMessageReceive: CONFIRM ends the wait of what it covers. -/
theorem wit_pairMessageReceive_conf : ∃ (b : Bytes) (s : State), (1 ≤ s.pairState) ∧ (s.noGrant 9 3 = false) ∧ (b.length = 20 + u16 b 2) ∧
  (u32 b (16 + u16 b 2) = crc32c (b.take (16 + u16 b 2))) ∧ (u8 b 0 = 7) ∧ (un b 8 8 = s.pair.rxSeq + 1) :=
  ⟨(pairMsg 7 0 5 (bytesLE 8 2)), ((State.reset.setF Reg.SMP_PAIR_STAT Fld.SMP_PAIR_STAT_STATE 4).pairMod (fun p => { p with rxSeq := 4, sent := [(2, 2, []), (3, 2, [])] })), by decide +kernel⟩

/-- The hypotheses of the clause on pairSenseStable: PAIR_SENSE_N high without a reason starts no takeover. -/
theorem wit_pairSenseStable_none : ∃ (s : State), (s.pairReason = 0) :=
  ⟨State.reset, by decide +kernel⟩

/-- The hypotheses of the clause on pairSenseStable: with one, PAIR_HOLD_N is driven, and the device is not active yet. -/
theorem wit_pairSenseStable : ∃ (s : State), (s.pairEn = true) ∧ (s.pairAble = true) ∧ (s.pairHold = false) ∧ (s.pair.taking = 0) ∧
  (s.pairReason ≠ 0) :=
  ⟨{ ((((State.reset.setF Reg.SMP_PAIR_STAT Fld.SMP_PAIR_STAT_STATE 3).setF Reg.SMP_PAIR_STAT Fld.SMP_PAIR_STAT_LINK 1).setF Reg.CHIP_ID Fld.CHIP_ID_GRADE 1).setF Reg.SMP_PAIR_CTL Fld.SMP_PAIR_CTL_EN 1) with hoop := { State.reset.hoop with pairRole := 1 } }, by decide +kernel⟩

/-- The hypotheses of the clause on takeoverSample: PAIR_SENSE_N low a millisecond later: the takeover is given up. -/
theorem wit_takeoverSample : ∃ (low : Bool) (s : State), (s.pair.taking ≠ 0) ∧ (low = true) :=
  ⟨true, (((State.reset.setF Reg.SMP_PAIR_STAT Fld.SMP_PAIR_STAT_STATE 3).setF Reg.SMP_PAIR_STAT Fld.SMP_PAIR_STAT_HOLD 1).pairMod (fun p => { p with taking := 2 })), by decide +kernel⟩

/-- The hypotheses of the clause on takeoverSample: still high: the device is active in a new epoch. -/
theorem wit_takeoverSample_act : ∃ (low : Bool) (s : State), (s.pair.taking ≠ 0) ∧ (s.pair.taking ≠ 3) ∧ (s.pair.taking < 8) ∧
  (low = false) ∧ (s.smp.fifo.length < 256) :=
  ⟨false, ((((State.reset.setF Reg.SMP_PAIR_STAT Fld.SMP_PAIR_STAT_STATE 3).setF Reg.SMP_PAIR_STAT Fld.SMP_PAIR_STAT_HOLD 1).setF Reg.SMP_PAIR_STAT Fld.SMP_PAIR_STAT_LINK 1).pairMod (fun p => { p with taking := 2 })), by decide +kernel⟩

/-- The hypotheses of the clause on witnessInstall: a grant lets an active device that holds its commits go on alone in the granted epoch. -/
theorem wit_witnessInstall : ∃ (exp : Nat) (s : State), (exp < 2 ^ 32) ∧ (s.pairState = 4) ∧ (s.pair.held = true) ∧ (s.ao.epoch < s.witEp) ∧
  ((s.wrN Reg.SMP_PAIR_WIT_EXP exp).witAhead = true) :=
  ⟨1000, ((((State.reset.setF Reg.SMP_PAIR_STAT Fld.SMP_PAIR_STAT_STATE 4).pairMod (fun p => { p with held := true }))).wrN Reg.SMP_PAIR_WIT_EP 5), by decide +kernel⟩

/-- The hypotheses of the clause on witnessWaitExpire: a device that has its grant waits no more. -/
theorem wit_witnessWaitExpire_none : ∃ (s : State), (s.pair.granted = true) :=
  ⟨(State.reset.pairMod (fun p => { p with granted := true })), by decide +kernel⟩

/-- The hypotheses of the clause on witnessWaitExpire: without a grant a device alone releases. -/
theorem wit_witnessWaitExpire : ∃ (s : State), (s.pair.granted = false) ∧ (s.pairState = 5) :=
  ⟨((State.reset.setF Reg.SMP_PAIR_STAT Fld.SMP_PAIR_STAT_STATE 5).setF Reg.SMP_PAIR_STAT Fld.SMP_PAIR_STAT_HOLD 1), by decide +kernel⟩

/-- The hypotheses of the clause on witnessExpire: a grant that runs out without renewal ends the time alone. -/
theorem wit_witnessExpire : ∃ (s : State), (s.pairState = 5) ∧ (s.pair.granted = true) ∧ (s.witAhead = false) :=
  ⟨(((State.reset.setF Reg.SMP_PAIR_STAT Fld.SMP_PAIR_STAT_STATE 5).setF Reg.SMP_PAIR_STAT Fld.SMP_PAIR_STAT_HOLD 1).pairMod (fun p => { p with granted := true })), by decide +kernel⟩

/-- The hypotheses of the clause on witnessExpire: one that lies ahead does not. -/
theorem wit_witnessExpire_ahead : ∃ (s : State), (s.witAhead = true) :=
  ⟨(State.reset.wrN Reg.SMP_PAIR_WIT_EXP 1000), by decide +kernel⟩

/-- The hypotheses of the clause on pairYield: YIELD sends RELEASE, lets PAIR_HOLD_N go and leaves the device STALE. -/
theorem wit_pairYield : ∃ (s : State), (s.pairHold = true) :=
  ⟨((State.reset.setF Reg.SMP_PAIR_STAT Fld.SMP_PAIR_STAT_STATE 4).setF Reg.SMP_PAIR_STAT Fld.SMP_PAIR_STAT_HOLD 1), by decide +kernel⟩

/-- The hypotheses of the clause on pairYield: a device that does not hold has nothing to yield. -/
theorem wit_pairYield_none : ∃ (s : State), (s.pairHold = false) :=
  ⟨State.reset, by decide +kernel⟩

/-- The hypotheses of the clause on pairStartTimeout: START without a partner needs a grant. -/
theorem wit_pairStartTimeout : ∃ (s : State), (s.pairState = 1) ∧ (s.pairLink = false) :=
  ⟨(State.reset.setF Reg.SMP_PAIR_STAT Fld.SMP_PAIR_STAT_STATE 1), by decide +kernel⟩

/-- The hypotheses of the clause on resyncStart: no resynchronisation without the link. -/
theorem wit_resyncStart_none : ∃ (s : State), (s.pairLink = false) :=
  ⟨State.reset, by decide +kernel⟩

/-- The hypotheses of the clause on resyncStart: a STALE device takes the epoch of its active partner and syncs. -/
theorem wit_resyncStart : ∃ (s : State), (s.pairLink = true) ∧ (s.pairState = 6) ∧ (s.peerHolds = true) :=
  ⟨(((State.reset.setF Reg.SMP_PAIR_STAT Fld.SMP_PAIR_STAT_STATE 6).setF Reg.SMP_PAIR_STAT Fld.SMP_PAIR_STAT_LINK 1).setF Reg.SMP_PAIR_STAT Fld.SMP_PAIR_STAT_PEER_ACTIVE 1), by decide +kernel⟩

/-- The hypotheses of the clause on resyncPhaseDone: with the end of phase 2 it is a standby, history still pending. -/
theorem wit_resyncPhaseDone : ∃ (s : State), (s.syncPhase = 2) ∧ (s.pairState = 2) :=
  ⟨((State.reset.setF Reg.SMP_PAIR_STAT Fld.SMP_PAIR_STAT_STATE 2).setF Reg.SMP_PAIR_SYNC Fld.SMP_PAIR_SYNC_PHASE 2), by decide +kernel⟩

/-- The hypotheses of the clause on resyncPhaseDone: with the end of phase 3 nothing is pending. -/
theorem wit_resyncPhaseDone_end : ∃ (s : State), (s.syncPhase = 3) :=
  ⟨(State.reset.setF Reg.SMP_PAIR_SYNC Fld.SMP_PAIR_SYNC_PHASE 3), by decide +kernel⟩

/-- The hypotheses of the clause on samplerFifoTake: a report of severity below MIN_SEV adds one to SMP_LOST_CNT of its severity; the log, the sequence number and SEV_HIGH stay. -/
theorem wit_samplerFifoTake : ∃ (e : SmpEntry) (r : List SmpEntry) (s : State), (s.smp.fifo = e :: r) ∧
  (e.sev < s.getF Reg.SMP_CTL Fld.SMP_CTL_MIN_SEV) :=
  ⟨{ code := 0x5001, sev := 0, opsec := 5, pcc := 1, path := 0x5000, data := [] }, [], (State.reset.smpMod (fun p => { p with fifo := [{ code := 0x5001, sev := 0, opsec := 5, pcc := 1, path := 0x5000, data := [] }] })), by decide +kernel⟩

/-- The hypotheses of the clause on samplerFifoTake: an accepted report of severity at or above IRQ_SEV sets SEV_HIGH, whether it becomes a record or is absorbed. -/
theorem wit_samplerFifoTake_high : ∃ (e : SmpEntry) (r : List SmpEntry) (s : State), (s.smp.fifo = e :: r) ∧
  (s.getF Reg.SMP_CTL Fld.SMP_CTL_MIN_SEV ≤ e.sev) ∧ (s.getF Reg.SMP_CTL Fld.SMP_CTL_IRQ_SEV ≤ e.sev) :=
  ⟨{ code := 0x5001, sev := 4, opsec := 5, pcc := 1, path := 0x5000, data := [] }, [], (State.reset.smpMod (fun p => { p with fifo := [{ code := 0x5001, sev := 4, opsec := 5, pcc := 1, path := 0x5000, data := [] }] })), by decide +kernel⟩

/-- The hypotheses of the clause on progWrite: while the channel is idle or in error, the write sets the active pointer, which SHU_CH_c_PC shows. -/
theorem wit_progWrite : ∃ (c v : Nat) (s : State), (c < 32) ∧ (v < 2 ^ 32) ∧ (s.chState c = 0 ∨ s.chState c = 5) :=
  ⟨31, 0xFFFFFFFF, State.reset, by decide +kernel⟩

/-- The hypotheses of the clause on progWrite: otherwise it sets the shadow pointer and SHADOW_VALID, in place of any shadow not yet taken. -/
theorem wit_progWrite_run : ∃ (c v : Nat) (s : State), (c < 32) ∧ (v < 2 ^ 32) ∧ (s.chState c ≠ 0) ∧ (s.chState c ≠ 5) :=
  ⟨3, 77, ((State.reset.chanMod 3 (fun k => { k with shadow := 9 })).setF (Reg.SHU_CH_STAT 3) Fld.SHU_CH_STAT_STATE 2), by decide +kernel⟩

/-- The hypotheses of the clause on samplerSwRecord: a field core writes codes 0x7800 to 0x7FFF, under 0x703F and 64 for each core. -/
theorem wit_samplerSwRecord : ∃ (init sev code : Nat) (s : State), (1 ≤ init ∧ init ≤ 4 ∧ 0x7800 ≤ code ∧ code ≤ 0x7FFF) ∧ (sev < 7) ∧
  (s.smp.fifo.length < 256) :=
  ⟨4, 0, 0x7FFF, State.reset, by decide +kernel⟩

/-- The hypotheses of the clause on samplerSwRecord: the hoop writes codes 0x8800 to 0x8FFF, under 0x803F. -/
theorem wit_samplerSwRecord_hoop : ∃ (init sev code : Nat) (s : State), (init = 0 ∧ 0x8800 ≤ code ∧ code ≤ 0x8FFF) ∧ (sev < 7) ∧
  (s.smp.fifo.length < 256) :=
  ⟨0, 6, 0x8800, State.reset, by decide +kernel⟩

/-- The hypotheses of the clause on samplerSwRecord: at any severity it is the report of those fields, the ladder of severity 7 included. -/
theorem wit_samplerSwRecord_same : ∃ (init sev code : Nat) (s : State), (sev < 8) ∧ ((1 ≤ init ∧ init ≤ 4 ∧ 0x7800 ≤ code ∧
  code ≤ 0x7FFF) ∨ (init = 0 ∧ 0x8800 ≤ code ∧ code ≤ 0x8FFF)) :=
  ⟨0, 7, 0x8FFF, State.reset, by decide +kernel⟩

/-- The hypotheses of the clause on samplerSwRecord: a write of any other code is ignored and sets SW_REFUSED. -/
theorem wit_samplerSwRecord_refused : ∃ (init sev code : Nat) (s : State), (¬ (1 ≤ init ∧ init ≤ 4 ∧ 0x7800 ≤ code ∧ code ≤ 0x7FFF)) ∧
  (¬ (init = 0 ∧ 0x8800 ≤ code ∧ code ≤ 0x8FFF)) :=
  ⟨1, 2, 0x8800, State.reset, by decide +kernel⟩

end Sys2Proof.Tests
end

/-! # Frames and the invariant (00_scope.md)

What each command keeps is stated once per command in the K files of Laws; here those lemmas are gathered into one statement about
`exec`, from which the invariant of a step and the frame of every command follow. -/

section

namespace Sys2Proof.Machine

/-- A choice between two outcomes keeps what both keep. -/
theorem OutKeeps.ite {L : List Part} {s : State} {c : Prop} [Decidable c] {a b : Host.Outcome State Fault Refusal}
    (ha : OutKeeps L s a) (hb : OutKeeps L s b) : OutKeeps L s (if c then a else b) := by
  split
  · exact ha
  · exact hb

/-- The parts that the reception of an air frame may touch. -/
abbrev airRxParts : List Part :=
  [.dram, .fab, .ports, .ink, .time, .intr, .ao, .smp, .ladder, .out, .draws, .win 0, .win 4, .win 6, .win 11, .win 16]

/-- What a good air frame leaves of its sender: the link table entry, the contact and the link quality, if it names a sender. -/
theorem Keeps.airHeard {s t : State} (h : Keeps airRxParts s t) (n a mean low level : Nat) (info : Bytes → Bytes) (c : Prop)
    [Decidable c] :
    Keeps airRxParts s
      (if c then
        ((((((t.ltHeard n a mean low info).contact n a).setF (Reg.PORT_LINK_Q n) Fld.PORT_LINK_Q_SNR_LAST mean).setF
          (Reg.PORT_LINK_Q n) Fld.PORT_LINK_Q_LEVEL_LAST level).setF (Reg.PORT_LINK_Q n) Fld.PORT_LINK_Q_LINK_SRC a).raiseF
          (Reg.PORT_LINK_Q n) Fld.PORT_LINK_Q_VALID)
      else t) := by
  split
  · exact .raiseF (.setF (.setF (.setF (.contact (.ltHeard h)) _ _ _) _ _ _) _ _ _) _ _
  · exact h

/-- The reception of an air frame: a frame dropped on the way counts at most; a good one is noted for its sender, and its type
decides what more it does. -/
theorem Keeps.execAirFrameReceive {s : State} {n : Nat} {psdu : Bytes} {fcs2 phr : Bool} {mcs : Option Nat} {snr : Nat × Nat}
    {level : Nat} : OutKeeps airRxParts s (execAirFrameReceive n psdu fcs2 phr mcs snr level s) := by
  have same : Keeps airRxParts s s := .refl _ _
  unfold Machine.execAirFrameReceive
  dsimp only
  refine .ite ?drained (.ite (.ok same) (.ite (.ok (.bump same _)) (.ite (.ok (.bump same _)) (.ite (.ok (.bump same _)) ?whole))))
  case drained =>
    refine .ok ?_
    split
    · exact .rxDrain same
    · exact same
  case whole =>
    cases airParse _ with
    | none => exact .ok (.bump same _)
    | some m =>
      refine .ite (.ok same) ?_
      have ok := Keeps.bump same (Reg.PORT_AIR_RX_OK_CNT n)
      split
      · exact .ite (.ok (.beaconIn (ok.airHeard ..))) (.ok (ok.airHeard ..))
      · exact .ok (.airAcked (ok.airHeard ..))
      · exact .ite (.ok (.airDataIn (ok.airHeard ..))) (.ok (ok.airHeard ..))

/-- Every command keeps the invariant, lowers no count, and touches only the parts of its frame. -/
theorem exec_keeps : ∀ (c : Instr) (s : State), OutKeeps (touches c) s (exec c s)
  | .registerWrite .., _ => .all Keeps.execRegisterWrite
  | .unassignedAccess .., _ => .all Keeps.execUnassignedAccess
  | .cellError .., _ => .all Keeps.execCellError
  | .blockRetry .., _ => .all Keeps.execBlockRetry
  | .handshakeTimeout .., _ => .all Keeps.execHandshakeTimeout
  | .substitutionComplete .., _ => .all Keeps.execSubstitutionComplete
  | .paceWindowEnd .., _ => Keeps.execPaceWindowEnd
  | .governorPeriodEnd .., _ => Keeps.execGovernorPeriodEnd
  | .governorSettleEnd .., _ => Keeps.execGovernorSettleEnd
  | .clockLoss .., _ => .all Keeps.execClockLoss
  | .timeBaseReturn, _ => Keeps.execTimeBaseReturn
  | .frameCommit .., _ => Keeps.execFrameCommit
  | .loaderLoad .., _ => Keeps.execLoaderLoad
  | .loaderReprickBlock .., _ => Keeps.execLoaderReprickBlock
  | .loaderRestorePinSet .., _ => Keeps.execLoaderRestorePinSet
  | .loaderReprickRegion .., _ => Keeps.execLoaderReprickRegion
  | .loaderAbort, _ => Keeps.execLoaderAbort
  | .loaderVerifyDone .., _ => Keeps.execLoaderVerifyDone
  | .loaderDrainEnd, _ => Keeps.execLoaderDrainEnd
  | .loaderWriteDone .., _ => .all Keeps.execLoaderWriteDone
  | .loaderSelfTestDone .., _ => .all Keeps.execLoaderSelfTestDone
  | .spareSelfTest .., _ => .all Keeps.execSpareSelfTest
  | .readbackStart .., _ => Keeps.execReadbackStart
  | .readbackDone, _ => Keeps.execReadbackDone
  | .linePreambleDetect .., _ => Keeps.execLinePreambleDetect
  | .lineHeaderReceive .., _ => Keeps.execLineHeaderReceive
  | .lineSymbolReceive .., _ => Keeps.execLineSymbolReceive
  | .lineFrameDecode .., _ => Keeps.execLineFrameDecode
  | .lineRxDeadlineMiss .., _ => Keeps.execLineRxDeadlineMiss
  | .lineTxDeadlineMiss .., _ => Keeps.execLineTxDeadlineMiss
  | .laneAligned .., _ => Keeps.execLaneAligned
  | .laneLoss .., _ => Keeps.execLaneLoss
  | .contentionSlot .., _ => Keeps.execContentionSlot
  | .lineTxEnd .., _ => Keeps.execLineTxEnd
  | .responseSend .., _ => Keeps.execResponseSend
  | .responseWindowEnd .., _ => Keeps.execResponseWindowEnd
  | .lineScheduledLaunch .., _ => Keeps.execLineScheduledLaunch
  | .reassemblyTimeout .., _ => Keeps.execReassemblyTimeout
  | .lineTxPacketTake .., _ => Keeps.execLineTxPacketTake
  | .airCycleStart .., _ => Keeps.execAirCycleStart
  | .airBackoffExpire .., _ => Keeps.execAirBackoffExpire
  | .airCcaDone .., _ => Keeps.execAirCcaDone
  | .airEnhAckSend .., _ => Keeps.execAirEnhAckSend
  | .airAckTimeout .., _ => Keeps.execAirAckTimeout
  | .airScheduledLaunch .., _ => Keeps.execAirScheduledLaunch
  | .airFrameReceive .., _ => Keeps.execAirFrameReceive
  | .floodRelaySend .., _ => Keeps.execFloodRelaySend
  | .airRxDeadlineMiss .., _ => Keeps.execAirRxDeadlineMiss
  | .airTxDeadlineMiss .., _ => Keeps.execAirTxDeadlineMiss
  | .rendezvousWindowOpen .., _ => Keeps.execRendezvousWindowOpen
  | .rendezvousWindowEnd .., _ => Keeps.execRendezvousWindowEnd
  | .wakeTrainStart .., _ => Keeps.execWakeTrainStart
  | .wakeFrameSend .., _ => Keeps.execWakeFrameSend
  | .memberBeaconMiss .., _ => Keeps.execMemberBeaconMiss
  | .memberSearchRound .., _ => Keeps.execMemberSearchRound
  | .memberScanTimeout .., _ => Keeps.execMemberScanTimeout
  | .airTxPacketTake .., _ => Keeps.execAirTxPacketTake
  | .portBobRxRead .., _ => Keeps.execPortBobRxRead
  | .portBobTxWrite .., _ => Keeps.execPortBobTxWrite
  | .portEnable .., _ => Keeps.execPortEnable
  | .portDisable .., _ => Keeps.execPortDisable
  | .portRxReset .., _ => Keeps.execPortRxReset
  | .portTxReset .., _ => Keeps.execPortTxReset
  | .portRxSinkOff .., _ => Keeps.execPortRxSinkOff
  | .descFetch .., _ => Keeps.execDescFetch
  | .descCopy .., _ => Keeps.execDescCopy
  | .descComplete .., _ => Keeps.execDescComplete
  | .casCommaAlign .., _ => Keeps.execCasCommaAlign
  | .casHelloTimer .., _ => Keeps.execCasHelloTimer
  | .casHelloReceive .., _ => Keeps.execCasHelloReceive
  | .casLinkDown .., _ => Keeps.execCasLinkDown
  | .casFrameReceive .., _ => Keeps.execCasFrameReceive
  | .casCreditReceive .., _ => Keeps.execCasCreditReceive
  | .casCreditSend .., _ => Keeps.execCasCreditSend
  | .casFrameSend .., _ => Keeps.execCasFrameSend
  | .casCommitTimeout .., _ => Keeps.execCasCommitTimeout
  | .casResultSend .., _ => Keeps.execCasResultSend
  | .intakeGrant .., _ => Keeps.execIntakeGrant
  | .keyDeriveDone, _ => Keeps.execKeyDeriveDone
  | .lanePassDone .., _ => Keeps.execLanePassDone
  | .fwRingWrite, _ => Keeps.execFwRingWrite
  | .slotRead .., _ => Keeps.execSlotRead
  | .slotWrite .., _ => Keeps.execSlotWrite
  | .slotWriteCtr .., _ => Keeps.execSlotWriteCtr
  | .slotRoll .., _ => Keeps.execSlotRoll
  | .slotClear .., _ => Keeps.execSlotClear
  | .slotOpComplete, _ => Keeps.execSlotOpComplete
  | .intakeEnable, _ => Keeps.execIntakeEnable
  | .intakeDisable, _ => Keeps.execIntakeDisable
  | .tableRebuildDone, _ => Keeps.execTableRebuildDone
  | .keyCacheFlush, _ => Keeps.execKeyCacheFlush
  | .keyCacheFlushDone, _ => Keeps.execKeyCacheFlushDone
  | .menderBatch .., _ => Keeps.execMenderBatch
  | .menderBatchDone .., _ => Keeps.execMenderBatchDone
  | .classSelect .., _ => Keeps.execClassSelect
  | .classDataAccess .., _ => Keeps.execClassDataAccess
  | .classCommit, _ => Keeps.execClassCommit
  | .classInstall, _ => Keeps.execClassInstall
  | .freezeDue, _ => Keeps.execFreezeDue
  | .freezeCapture, _ => Keeps.execFreezeCapture
  | .freezeClose, _ => Keeps.execFreezeClose
  | .darnerSnapshot, _ => Keeps.execDarnerSnapshot
  | .darnerEnable, _ => Keeps.execDarnerEnable
  | .darnerDisable, _ => Keeps.execDarnerDisable
  | .storeStart .., _ => Keeps.execStoreStart
  | .storeRestoreDone, _ => Keeps.execStoreRestoreDone
  | .storeStop, _ => Keeps.execStoreStop
  | .recordUnitProgram, _ => Keeps.execRecordUnitProgram
  | .nandProgramDone .., _ => Keeps.execNandProgramDone
  | .nandReadDone .., _ => Keeps.execNandReadDone
  | .nandEraseDone .., _ => Keeps.execNandEraseDone
  | .gcStart, _ => Keeps.execGcStart
  | .relocCopyDone, _ => Keeps.execRelocCopyDone
  | .relocVerifyDone .., _ => Keeps.execRelocVerifyDone
  | .relocIntentDone, _ => Keeps.execRelocIntentDone
  | .foldStart .., _ => Keeps.execFoldStart
  | .wearLevelMove, _ => Keeps.execWearLevelMove
  | .checkpointStart, _ => Keeps.execCheckpointStart
  | .checkpointDone, _ => Keeps.execCheckpointDone
  | .storeFlushDone, _ => Keeps.execStoreFlushDone
  | .channelEvacuate .., _ => Keeps.execChannelEvacuate
  | .evacuationDone, _ => Keeps.execEvacuationDone
  | .channelRejoin .., _ => Keeps.execChannelRejoin
  | .rejoinDone .., _ => Keeps.execRejoinDone
  | .ringRead .., _ => Keeps.execRingRead
  | .ringWrite .., _ => Keeps.execRingWrite
  | .ringTrim .., _ => Keeps.execRingTrim
  | .ringFlush .., _ => Keeps.execRingFlush
  | .recTailWrite .., _ => Keeps.execRecTailWrite
  | .modulatorFault .., _ => Keeps.execModulatorFault
  | .modulatorFaultClear .., _ => Keeps.execModulatorFaultClear
  | .metrologySample .., _ => Keeps.execMetrologySample
  | .metrologyBlockPublish .., _ => Keeps.execMetrologyBlockPublish
  | .sealOpened, _ => Keeps.execSealOpened
  | .sealClosed, _ => Keeps.execSealClosed
  | .sealSpend, _ => Keeps.execSealSpend
  | .sealEnd, _ => Keeps.execSealEnd
  | .calCommit .., _ => Keeps.execCalCommit
  | .sessionTimeout, _ => Keeps.execSessionTimeout
  | .calDataAccess .., _ => Keeps.execCalDataAccess
  | .totEnable, _ => Keeps.execTotEnable
  | .pcalLoad .., _ => Keeps.execPcalLoad
  | .pcalCancel, _ => Keeps.execPcalCancel
  | .taiMinuteBoundary, _ => Keeps.execTaiMinuteBoundary
  | .billingForce, _ => Keeps.execBillingForce
  | .stateRecordPeriodic, _ => Keeps.execStateRecordPeriodic
  | .totRestoration, _ => Keeps.execTotRestoration
  | .billSnap, _ => Keeps.execBillSnap
  | .billDataRead, _ => Keeps.execBillDataRead
  | .taiSet .., _ => Keeps.execTaiSet
  | .leapSecond, _ => Keeps.execLeapSecond
  | .cmpFire .., _ => Keeps.execCmpFire
  | .cmpOutputEnd .., _ => Keeps.execCmpOutputEnd
  | .ppsOutPulse, _ => Keeps.execPpsOutPulse
  | .ppsInEdge .., _ => Keeps.execPpsInEdge
  | .ptpOffsetWrite .., _ => Keeps.execPtpOffsetWrite
  | .pairTimeSample .., _ => Keeps.execPairTimeSample
  | .holdoverTimeout, _ => Keeps.execHoldoverTimeout
  | .rtcReload, _ => Keeps.execRtcReload
  | .schedRead, _ => Keeps.execSchedRead
  | .txtsPop .., _ => Keeps.execTxtsPop
  | .afeAdjStore .., _ => Keeps.execAfeAdjStore
  | .servoSrcChange .., _ => Keeps.execServoSrcChange
  | .uplinkRxFrame .., _ => Keeps.execUplinkRxFrame
  | .uplinkTxDesc .., _ => Keeps.execUplinkTxDesc
  | .sessionOpen .., _ => Keeps.execSessionOpen
  | .sessionResume .., _ => Keeps.execSessionResume
  | .sessionClose .., _ => Keeps.execSessionClose
  | .sessionSync .., _ => Keeps.execSessionSync
  | .sessionDoorbell .., _ => Keeps.execSessionDoorbell
  | .tlsRecordReceive .., _ => Keeps.execTlsRecordReceive
  | .tlsRecordTransmit .., _ => Keeps.execTlsRecordTransmit
  | .resultMessageSend .., _ => Keeps.execResultMessageSend
  | .batchClose .., _ => Keeps.execBatchClose
  | .batchSend .., _ => Keeps.execBatchSend
  | .dayBoundary, _ => Keeps.execDayBoundary
  | .manifestSigned .., _ => Keeps.execManifestSigned
  | .handshakeSign .., _ => Keeps.execHandshakeSign
  | .roleBind .., _ => Keeps.execRoleBind
  | .cosemRequest .., _ => .all Keeps.execCosemRequest
  | .shuttleGo .., _ => Keeps.execShuttleGo
  | .shuttleAbort .., _ => Keeps.execShuttleAbort
  | .shuttleArm .., _ => Keeps.execShuttleArm
  | .shuttleTriggerStart .., _ => Keeps.execShuttleTriggerStart
  | .shuttleDisable, _ => Keeps.execShuttleDisable
  | .shuttleEnd .., _ => Keeps.execShuttleEnd
  | .move .., _ => .all Keeps.execMove
  | .movec .., _ => .all Keeps.execMovec
  | .loop .., _ => Keeps.execLoop
  | .wait .., _ => Keeps.execWait
  | .waitTimeout .., _ => Keeps.execWaitTimeout
  | .signal .., _ => Keeps.execSignal
  | .stamp .., _ => .all Keeps.execStamp
  | .progWrite .., _ => Keeps.execProgWrite
  | .shuttleBusError .., _ => Keeps.execShuttleBusError
  | .shuttleResume, _ => Keeps.execShuttleResume
  | .eventSet .., _ => Keeps.execEventSet
  | .eventClear .., _ => Keeps.execEventClear
  | .intClaim .., _ => Keeps.execIntClaim
  | .intComplete .., _ => Keeps.execIntComplete
  | .intFlush .., _ => Keeps.execIntFlush
  | .holdOffExpire .., _ => Keeps.execHoldOffExpire
  | .coreWake .., _ => Keeps.execCoreWake
  | .intSwSet .., _ => Keeps.execIntSwSet
  | .intSwClear .., _ => Keeps.execIntSwClear
  | .ndlInfo .., _ => Keeps.execNdlInfo
  | .ndlGenerate .., _ => Keeps.execNdlGenerate
  | .ndlUnwrap .., _ => Keeps.execNdlUnwrap
  | .ndlDestroy .., _ => Keeps.execNdlDestroy
  | .ndlSign .., _ => Keeps.execNdlSign
  | .ndlHmac .., _ => Keeps.execNdlHmac
  | .ndlQuote .., _ => Keeps.execNdlQuote
  | .ndlPubkey .., _ => Keeps.execNdlPubkey
  | .ndlDecap .., _ => Keeps.execNdlDecap
  | .ndlOpComplete .., _ => Keeps.execNdlOpComplete
  | .vaultEraseDone, _ => Keeps.execVaultEraseDone
  | .cntDomainIdentity, _ => Keeps.execCntDomainIdentity
  | .cntRollbackFloor .., _ => Keeps.execCntRollbackFloor
  | .cntPairRoleLock .., _ => Keeps.execCntPairRoleLock
  | .cntDebugOpen, _ => Keeps.execCntDebugOpen
  | .cntChangeDone .., _ => Keeps.execCntChangeDone
  | .changeLogReconcile, _ => Keeps.execChangeLogReconcile
  | .updVerify .., _ => Keeps.execUpdVerify
  | .updActivateLive .., _ => Keeps.execUpdActivateLive
  | .updActivateNextStart .., _ => Keeps.execUpdActivateNextStart
  | .updStepDone .., _ => .all Keeps.execUpdStepDone
  | .updCommit .., _ => Keeps.execUpdCommit
  | .updRevert .., _ => .all Keeps.execUpdRevert
  | .updRecoveryRequest, _ => Keeps.execUpdRecoveryRequest
  | .trialTimeout .., _ => .all Keeps.execTrialTimeout
  | .stitchOffer .., _ => Keeps.execStitchOffer
  | .stitchRequest .., _ => Keeps.execStitchRequest
  | .stitchBlock .., _ => Keeps.execStitchBlock
  | .stitchDone, _ => Keeps.execStitchDone
  | .stitchAbort, _ => Keeps.execStitchAbort
  | .uartDataFrame .., _ => Keeps.execUartDataFrame
  | .uartEndFrame .., _ => .all Keeps.execUartEndFrame
  | .uartRxTimeout, _ => Keeps.execUartRxTimeout
  | .rcvGo .., _ => .all Keeps.execRcvGo
  | .samplerReport .., _ => .all Keeps.execSamplerReport
  | .samplerFifoTake, _ => Keeps.execSamplerFifoTake
  | .samplerLostSynth, _ => Keeps.execSamplerLostSynth
  | .mirrorUnitWrite, _ => Keeps.execMirrorUnitWrite
  | .samplerSwRecord .., _ => .all Keeps.execSamplerSwRecord
  | .samplerClear, _ => Keeps.execSamplerClear
  | .samplerRdSel .., _ => Keeps.execSamplerRdSel
  | .samplerRdData, _ => Keeps.execSamplerRdData
  | .hoopWatchdogExpire, _ => .all Keeps.execHoopWatchdogExpire
  | .fieldWatchdogExpire, _ => .all Keeps.execFieldWatchdogExpire
  | .hoopWdogKick .., _ => Keeps.execHoopWdogKick
  | .fieldWdogKick .., _ => Keeps.execFieldWdogKick
  | .ladderStepRequest .., _ => .all Keeps.execLadderStepRequest
  | .regionResetDone .., _ => .all Keeps.execRegionResetDone
  | .powerCycleTimeout .., _ => .all Keeps.execPowerCycleTimeout
  | .cyclesReset, _ => Keeps.execCyclesReset
  | .pairStatusSend, _ => Keeps.execPairStatusSend
  | .pairMessageReceive .., _ => Keeps.execPairMessageReceive
  | .mirrorTimeout, _ => Keeps.execMirrorTimeout
  | .pairYield, _ => Keeps.execPairYield
  | .pairSenseStable, _ => Keeps.execPairSenseStable
  | .takeoverSample .., _ => Keeps.execTakeoverSample
  | .pairStatusTimeout, _ => Keeps.execPairStatusTimeout
  | .witnessInstall .., _ => Keeps.execWitnessInstall
  | .witnessWaitExpire, _ => Keeps.execWitnessWaitExpire
  | .witnessExpire, _ => Keeps.execWitnessExpire
  | .bothHolding, _ => Keeps.execBothHolding
  | .pairStartTimeout, _ => Keeps.execPairStartTimeout
  | .resyncStart, _ => Keeps.execResyncStart
  | .resyncPhaseDone, _ => Keeps.execResyncPhaseDone
  | .ponrstRise .., _ => .all Keeps.execPonrstRise
  | .ponrstFall, _ => .all Keeps.execPonrstFall
  | .warmReset .., _ => .all Keeps.execWarmReset
  | .pfailFall .., _ => Keeps.execPfailFall
  | .pfailRise, _ => Keeps.execPfailRise
  | .clockRestored .., _ => Keeps.execClockRestored
  | .uplinkLinkChange .., _ => Keeps.execUplinkLinkChange
  | .vbatDip, _ => Keeps.execVbatDip
  | .pairEnWrite .., _ => Keeps.execPairEnWrite
  | .bootPfailHoldEnd, _ => .all Keeps.execBootPfailHoldEnd
  | .interconnectError .., _ => .all Keeps.execInterconnectError
  | .ppsOutFall, _ => Keeps.execPpsOutFall
  | .airTxEnd .., _ => Keeps.execAirTxEnd
  | .msixUnmask .., _ => Keeps.execMsixUnmask

/-- Every step keeps the invariant: a tick on an empty queue, else the command at its front. -/
theorem step_wf {s t : State} (hs : s.Wf) (h : step s = .next t) : t.Wf := by
  unfold step at h
  split at h
  · cases h
    exact (Keeps.tick (Keeps.refl Part.rest s)).wf hs
  · exact (exec_keeps _ _ t h).wf hs

/-! ## The state after reset. -/

theorem reset_countsOk : State.reset.hoop.countsOk := by
  have zeros : ∀ k, [0, 0, 0, 0].getD k 0 = 0 := by
    intro k
    match k with
    | 0 | 1 | 2 | 3 | _ + 4 => rfl
  refine ⟨by decide, by decide, by decide, by decide, rfl, fun k => ?_, fun k => ?_⟩
  · exact (zeros k).trans_le (by decide)
  · exact ((zeros k).trans (zeros k).symm).le

theorem reset_wf : State.reset.Wf := ⟨canon_nil _, canon_nil _, reset_countsOk, Nat.zero_le _⟩

/-! ## Timed comparisons. -/

/-- R8: the sign bit of the difference of two counters decides a comparison. -/
theorem fired_iff (now t : Word) : fired now.toNat t.toNat = decide (0 ≤ (now - t).toInt) := by
  have hn := now.isLt
  have ht := t.isLt
  have hd : (now - t).toNat = (now.toNat + 2 ^ 32 - t.toNat % 2 ^ 32) % 2 ^ 32 := by
    rw [BitVec.toNat_sub, Nat.mod_eq_of_lt ht]
    omega
  unfold fired
  rw [← hd, BitVec.toInt_eq_toNat_cond]
  congr 1
  split <;> simp only [eq_iff_iff] <;> omega

end Sys2Proof.Machine

open Sys2Proof Sys2Proof.Machine

/-- Settles O4: nothing is listed after reset, and no entry of a counted setting is programmed. -/
theorem resetIsWellFormed : Obligations.ResetIsWellFormed := reset_wf

/-- Settles O5, by evaluation of the registers' rows at reset. -/
theorem resetValuesStand : Obligations.ResetValuesStand := by
  unfold Obligations.ResetValuesStand
  decide

/-- Settles O6, from what each command and the tick keep. -/
theorem stepKeepsWellFormed : Obligations.StepKeepsWellFormed := fun _ _ => step_wf

/-- Settles O8, from what each command keeps. -/
theorem commandsTouchTheirPartsOnly : Obligations.CommandsTouchTheirPartsOnly := fun c s t h => (exec_keeps c s t h).only

/-- Settles O14: the comparison is the sign of the 32-bit difference. -/
theorem timeComparisonsFireAsSigned : Obligations.TimeComparisonsFireAsSigned := fired_iff

end

/-! # Fields of written words (R13, R15, R522)

A write reads the written word through the fields of its register only, and each field is merged on its own. -/

section

namespace Sys2Proof.Machine

/-! ## Fields of a word, bit by bit. -/

/-- A range of no width: writing it changes nothing. -/
theorem fput_of_hi_lt_lo (f : BitRange) (w : Word) (v : Nat) (h : f.hi < f.lo) : fput f w v = w := by
  have hw : f.hi + 1 - f.lo = 0 := by omega
  rw [fput, bwidth, hw]
  simp only [Nat.pow_zero, Nat.sub_self, Nat.zero_mul, Nat.mod_one]
  exact (BitVec.or_zero).trans BitVec.and_allOnes

/-- A write to one field leaves two words that agree on a field in agreement there. -/
theorem fget_fput_congr (f g : BitRange) (x : Nat) {a b : Word} (h : fget g a = fget g b) :
    fget g (fput f a x) = fget g (fput f b x) := by
  by_cases hl : f.lo ≤ f.hi
  · apply Nat.eq_of_testBit_eq
    intro i
    have hi := congrArg (Nat.testBit · i) h
    simp only [fget_testBit] at hi ⊢
    by_cases h32 : g.lo + i < 32
    · rw [fput_getLsbD f a x _ h32 hl, fput_getLsbD f b x _ h32 hl]
      split
      · rfl
      · exact hi
    · rw [BitVec.getLsbD_of_ge _ _ (by omega), BitVec.getLsbD_of_ge _ _ (by omega)]
  · rw [fput_of_hi_lt_lo f a x (by omega), fput_of_hi_lt_lo f b x (by omega), h]

/-- Words that agree on a range agree on every bit of it. -/
theorem bit_congr_of_fget {f : BitRange} {v w : Word} (h : fget f v = fget f w) {i : Nat} (hl : f.lo ≤ i) (hh : i ≤ f.hi) :
    bit v i = bit w i := by
  have hi := congrArg (Nat.testBit · (i - f.lo)) h
  have hw : i - f.lo < bwidth f := by unfold bwidth; omega
  simp only [fget_testBit, hw, decide_true, Bool.true_and, Nat.add_sub_cancel' hl] at hi
  exact hi

/-- Words that agree on every bit of a range agree on the range. -/
theorem fget_congr_of_bit {g : BitRange} {v w : Word} (h : ∀ i, g.lo ≤ i → i ≤ g.hi → bit v i = bit w i) : fget g v = fget g w := by
  apply Nat.eq_of_testBit_eq
  intro i
  rw [fget_testBit, fget_testBit]
  by_cases hi : i < bwidth g
  · have hh : g.lo + i ≤ g.hi := by unfold bwidth at hi; omega
    simp only [hi, decide_true, Bool.true_and]
    exact h _ (Nat.le_add_right _ _) hh
  · simp [hi]

/-! ## Words that agree on the fields of a register. -/

/-- Do v and w agree on every field of register k? -/
def Agree (k : Nat) (v w : Word) : Prop := ∀ f, f ∈ regFields k → fget f.bits v = fget f.bits w

/-- Does some field of register k hold the whole range g? -/
def covered (k : Nat) (g : BitRange) : Bool := (regFields k).any (fun f => decide (f.lo ≤ g.lo ∧ g.hi ≤ f.hi))

namespace Agree

variable {k : Nat} {v w : Word}

theorem fld (h : Agree k v w) (g : BitRange) (hc : covered k g = true) : fget g v = fget g w := by
  obtain ⟨f, hf, hfg⟩ := List.any_eq_true.mp hc
  obtain ⟨hlo, hhi⟩ := of_decide_eq_true hfg
  exact fget_congr_of_bit fun i hl hh => bit_congr_of_fget (h f hf) (hlo.trans hl) (hh.trans hhi)

theorem bit (h : Agree k v w) (i : Nat) (hc : covered k ⟨i, i⟩ = true) : Machine.bit v i = Machine.bit w i :=
  bit_congr_of_fget (h.fld ⟨i, i⟩ hc) (Nat.le_refl i) (Nat.le_refl i)

/-- A register that is one field takes the whole word. -/
theorem eq (h : Agree k v w) (hc : covered k ⟨31, 0⟩ = true) : v = w := by
  apply BitVec.eq_of_getLsbD_eq
  intro i hi
  exact bit_congr_of_fget (h.fld ⟨31, 0⟩ hc) (Nat.zero_le i) (Nat.le_of_lt_succ hi)

theorem fput (h : Agree k v w) (f : BitRange) (x : Nat) : Agree k (fput f v x) (Machine.fput f w x) :=
  fun g hg => fget_fput_congr f g.bits x (h g hg)

/-- The same writes of fields keep the agreement. -/
theorem foldl {α : Type} (h : Agree k v w) (l : List α) (g : Word → α → Word)
    (hg : ∀ a b e, Agree k a b → Agree k (g a e) (g b e)) : Agree k (l.foldl g v) (l.foldl g w) := by
  induction l generalizing v w with
  | nil => exact h
  | cons e r ih => exact ih (hg _ _ e h)

/-- The split of R521 reads fields only. -/
theorem splitFields_eq (h : Agree k v w) (s : State) : s.splitFields k v = s.splitFields k w := by
  refine List.filter_congr fun f hf => ?_
  rw [h f hf]

theorem splitWord (h : Agree k v w) (s : State) : Agree k (s.splitWord k v) (s.splitWord k w) :=
  h.foldl _ _ fun a b f hab => by
    split
    · exact hab.fput f.bits _
    · exact hab

/-- The merged word reads fields only. -/
theorem merged_eq (h : Agree k v w) (s : State) : s.merged k v = s.merged k w := by
  unfold State.merged
  have hk := h.foldl (s.keptFields k) (fun a r => Machine.fput r a (fget r (s.base k))) (fun _ _ r hab => hab.fput r _)
  refine List.foldl_ext _ _ _ fun a f hf => ?_
  simp only [mergeField, hk f hf]

end Agree

/-! ## The rows that port windows and arrays of registers lie in. -/

theorem tableOf_port {k : Nat} (h : 0x100000 ≤ k) (h' : k < 0x140000) : Reg.tableOf k = (Reg.portTable, k % 0x1000) := by
  have hq : (k - 0x100000) / 0x40000 = 0 := by omega
  simp only [Reg.tableOf, Nat.not_lt.mpr h, if_false, hq]

/-- The common registers of every port have the fields of port 0's. -/
theorem covered_port {k : Nat} (g : BitRange) (h : 0x100000 ≤ k) (h' : k < 0x140000) :
    covered k g = covered (0x100000 + k % 0x1000) g := by
  have ho : (0x100000 + k % 0x1000) % 0x1000 = k % 0x1000 := by omega
  unfold covered regFields Reg.specOf
  rw [tableOf_port h h', tableOf_port (k := 0x100000 + k % 0x1000) (by omega) (by omega), ho]

/-- Between the window and the first key of a personality no register lies. -/
theorem lt_of_specOf_port {k : Nat} (hs : (Reg.specOf k).isSome = true) (h : 0x100000 ≤ k) (h' : k < 0x1000000) : k < 0x140000 := by
  by_contra hk
  have : Reg.tableOf k = ([], k) := by
    unfold Reg.tableOf
    rw [if_neg (Nat.not_lt.mpr h)]
    split <;> first | omega | rfl
  simp [Reg.specOf, this] at hs

end Sys2Proof.Machine

end

/-! # A write reads the fields of its register only (R13)

For each block, what a write starts is the same for words that agree on the register's fields. -/

section

namespace Sys2Proof.Machine

variable {k : Nat} {v w : Word} (s : State) (init : Nat) (m : Word) (x : Nat)

theorem actPort_congr (h : Agree k v w) (hs : (Reg.specOf k).isSome = true) : s.actPort k v m = s.actPort k w m := by
  have cov : ∀ o g, k = 0x100000 + (k % 0x1000000 - 0x100000) / 0x1000 * 0x1000 + o → o < 0x1000 →
      covered (0x100000 + o) g = true → covered k g = true := by
    intro o g hk ho hc
    have hlt := lt_of_specOf_port hs (by omega) (by omega)
    rwa [covered_port g (by omega) hlt, show k % 0x1000 = o by omega]
  unfold State.actPort
  refine ite_congr rfl (fun hk => ?ctl) fun _ => ite_congr rfl (fun hk => ?tx) fun _ => ite_congr rfl (fun hk => ?stat) fun _ => rfl
  case ctl =>
    rw [h.bit 23 (cov _ _ hk (by decide) (by decide)), h.bit 24 (cov _ _ hk (by decide) (by decide)),
      h.bit 27 (cov _ _ hk (by decide) (by decide)), h.bit 30 (cov _ _ hk (by decide) (by decide)),
      h.bit 31 (cov _ _ hk (by decide) (by decide))]
  case tx => rw [h.eq (cov _ _ hk (by decide) (by decide))]
  case stat => rw [h.bit 4 (cov _ _ hk (by decide) (by decide))]

/-- A completion takes the low ten bits of what is written. -/
theorem execIntComplete_congr (t : Nat) {a b : Nat} (h : a % 1024 = b % 1024) : execIntComplete t init a = execIntComplete t init b := by
  funext s
  simp only [execIntComplete, h]

theorem covered_of_row {n b c : Nat} {g : BitRange} (hk : k = b + c * (x % n)) (hs : (Reg.specOf k).isSome = true) (hn : 0 < n)
    (hc : ∀ i < n, (Reg.specOf (b + c * i)).isSome = true → covered (b + c * i) g = true) : covered k g = true := by
  rw [hk] at hs ⊢
  exact hc _ (Nat.mod_lt x hn) hs

theorem actInt_congr (h : Agree k v w) (hs : (Reg.specOf k).isSome = true) : s.actInt init k v m = s.actInt init k w m := by
  unfold State.actInt
  refine ite_congr rfl (fun _ => rfl) fun _ => ite_congr rfl (fun hk => ?sw) fun _ => ite_congr rfl (fun hk => ?ctl) fun _ =>
    ite_congr rfl (fun hk => ?complete) fun _ => rfl
  case sw => subst hk; rw [h.bit 31 (by decide), h.fld Fld.INT_SW_SRC (by decide)]
  case ctl => rw [h.bit 30 (covered_of_row _ hk hs (by decide) (by decide))]
  case complete =>
    have hw : v.toNat % 1024 = w.toNat % 1024 := by
      simpa [fget, bwidth] using h.fld ⟨9, 0⟩ (covered_of_row _ hk hs (by decide) (by decide))
    rw [execIntComplete_congr init _ hw]

theorem actTime_congr (h : Agree k v w) : s.actTime k v m = s.actTime k w m := by
  unfold State.actTime
  refine ite_congr rfl (fun hk => ?ctl) fun _ => ite_congr rfl (fun _ => rfl) fun _ => ite_congr rfl (fun hk => ?ofs) fun _ =>
    ite_congr rfl (fun hk => ?afe) fun _ => rfl
  case ctl => subst hk; rw [h.bit 31 (by decide)]
  case ofs => subst hk; rw [h.eq (by decide)]
  case afe =>
    subst hk
    rw [h.bit 25 (by decide), h.fld Fld.TU_AFE_ADJ_PORT (by decide), h.fld Fld.TU_AFE_ADJ_TX_ADJ (by decide),
      h.fld Fld.TU_AFE_ADJ_RX_ADJ (by decide)]

theorem actShu_congr (h : Agree k v w) (hs : (Reg.specOf k).isSome = true) : s.actShu k v m = s.actShu k w m := by
  unfold State.actShu
  refine ite_congr rfl (fun hk => ?ctl) fun _ => ite_congr rfl (fun hk => ?evt) fun _ => ite_congr rfl (fun hk => ?ch) fun _ =>
    ite_congr rfl (fun hk => ?prog) fun _ => rfl
  case ctl => subst hk; rw [h.bit 31 (by decide), h.bit 30 (by decide)]
  case evt => subst hk; rw [h.bit 31 (by decide), h.fld Fld.SHU_EVT_CMD_EVENT (by decide)]
  case ch => rw [h.bit 30 (covered_of_row _ hk hs (by decide) (by decide)), h.bit 31 (covered_of_row _ hk hs (by decide) (by decide))]
  case prog => rw [h.eq (covered_of_row _ hk hs (by decide) (by decide))]

theorem actSmp_congr (h : Agree k v w) : s.actSmp init k v m = s.actSmp init k w m := by
  unfold State.actSmp
  refine ite_congr rfl (fun hk => ?ctl) fun _ => ite_congr rfl (fun hk => ?sel) fun _ => ite_congr rfl (fun hk => ?sw) fun _ =>
    ite_congr rfl (fun hk => ?wdog) fun _ => ite_congr rfl (fun hk => ?pair) fun _ => ite_congr rfl (fun hk => ?wit) fun _ => rfl
  case ctl => subst hk; rw [h.bit 23 (by decide)]
  case sel => subst hk; rw [h.fld Fld.SMP_RD_SEL_SLOT (by decide), h.fld Fld.SMP_RD_SEL_WORD (by decide)]
  case sw => subst hk; rw [h.bit 31 (by decide), h.fld Fld.SMP_SW_CMD_SEV (by decide), h.fld Fld.SMP_SW_CMD_CODE (by decide)]
  case wdog => subst hk; rw [h.fld Fld.SMP_RCV_WDOG_KEY (by decide), h.fld Fld.SMP_RCV_WDOG_ACT (by decide)]
  case pair => subst hk; rw [h.bit 30 (by decide)]
  case wit => subst hk; rw [h.eq (by decide)]

theorem actNdl_congr (h : Agree k v w) : s.actNdl k v m x = s.actNdl k w m x := by
  have go : k = Reg.NDL_CMD ∨ k = Reg.NDL_CNT_CMD → bit v 31 = bit w 31 := by
    rintro (rfl | rfl)
    · exact h.bit 31 (by decide)
    · exact h.bit 31 (by decide)
  unfold State.actNdl
  refine ite_congr (propext (and_congr_right fun hk => by rw [go (.inl hk)])) (fun hk => ?cmd) fun _ =>
    ite_congr (propext (and_congr_right fun hk => by rw [go (.inr hk)])) (fun hk => ?cnt) fun _ => rfl
  case cmd =>
    obtain ⟨rfl, -⟩ := hk
    rw [h.fld Fld.NDL_CMD_OP (by decide), h.fld Fld.NDL_CMD_SLOT (by decide), h.fld Fld.NDL_CMD_PARAM (by decide)]
  case cnt =>
    obtain ⟨rfl, -⟩ := hk
    rw [h.fld Fld.NDL_CNT_CMD_KIND (by decide), h.fld Fld.NDL_CNT_CMD_VALUE (by decide), h.fld Fld.NDL_CNT_CMD_SETTING (by decide)]

theorem actInk_congr (h : Agree k v w) : s.actInk k v m x = s.actInk k w m x := by
  unfold State.actInk
  refine ite_congr rfl (fun hk => ?ctl) fun _ => ite_congr rfl (fun hk => ?slot) fun _ => ite_congr rfl (fun hk => ?kc) fun _ =>
    ite_congr rfl (fun _ => rfl) fun _ => ite_congr rfl (fun hk => ?sel) fun _ => ite_congr rfl (fun hk => ?data) fun _ => rfl
  case ctl => subst hk; rw [h.bit 31 (by decide)]
  case slot => subst hk; rw [h.bit 31 (by decide), h.fld Fld.INK_SLOT_CMD_OP (by decide), h.fld Fld.INK_SLOT_CMD_SLOT (by decide)]
  case kc => subst hk; rw [h.bit 31 (by decide)]
  case sel =>
    subst hk
    rw [h.bit 31 (by decide), h.fld Fld.MND_CLASS_SEL_CLASS (by decide), h.fld Fld.MND_CLASS_SEL_WORD (by decide)]
  case data => subst hk; rw [h.eq (by decide)]

theorem actDrn_congr (h : Agree k v w) : s.actDrn k v m = s.actDrn k w m := by
  unfold State.actDrn
  refine ite_congr rfl (fun hk => ?ctl) fun _ => rfl
  case ctl => subst hk; rw [h.bit 31 (by decide)]

theorem actTot_congr (h : Agree k v w) : s.actTot k v m x = s.actTot k w m x := by
  unfold State.actTot
  refine ite_congr rfl (fun hk => ?ctl) fun _ => ite_congr rfl (fun hk => ?session) fun _ => ite_congr rfl (fun hk => ?cal) fun _ =>
    ite_congr rfl (fun _ => rfl) fun _ => ite_congr rfl (fun hk => ?bill) fun _ => ite_congr rfl (fun hk => ?snap) fun _ =>
    ite_congr rfl (fun hk => ?pcal) fun _ => rfl
  case ctl => subst hk; rw [h.bit 31 (by decide)]
  case session => subst hk; rw [h.bit 31 (by decide), h.bit 30 (by decide), h.bit 29 (by decide)]
  case cal => subst hk; rw [h.eq (by decide)]
  case bill => subst hk; rw [h.bit 31 (by decide)]
  case snap => subst hk; rw [h.bit 31 (by decide)]
  case pcal => subst hk; rw [h.bit 31 (by decide), h.bit 30 (by decide)]

theorem actSto_congr (h : Agree k v w) : s.actSto k v m x = s.actSto k w m x := by
  unfold State.actSto
  refine ite_congr rfl (fun hk => ?ctl) fun _ => ite_congr rfl (fun hk => ?ch) fun _ => ite_congr rfl (fun hk => ?ckpt) fun _ =>
    ite_congr rfl (fun hk => ?tail) fun _ => rfl
  case ctl => subst hk; rw [h.bit 31 (by decide)]
  case ch => subst hk; rw [h.bit 31 (by decide), h.bit 30 (by decide)]
  case ckpt => subst hk; rw [h.bit 0 (by decide)]
  case tail => subst hk; rw [h.eq (by decide)]

theorem actUpl_congr (h : Agree k v w) : s.actUpl k v m = s.actUpl k w m := by
  unfold State.actUpl
  refine ite_congr rfl (fun hk => ?cmd) fun _ => ite_congr rfl (fun hk => ?bell) fun _ => rfl
  case cmd => subst hk; rw [h.bit 31 (by decide), h.fld Fld.UPL_SESS_CMD_SESSION (by decide), h.fld Fld.UPL_SESS_CMD_OP (by decide)]
  case bell =>
    subst hk
    rw [h.fld Fld.UPL_DOORBELL_SESSION (by decide), h.fld Fld.UPL_DOORBELL_WHICH (by decide), h.fld Fld.UPL_DOORBELL_VALUE (by decide)]

theorem actUpd_congr (h : Agree k v w) : s.actUpd init k v m x = s.actUpd init k w m x := by
  unfold State.actUpd
  refine ite_congr rfl (fun hk => ?ctl) fun _ => ite_congr rfl (fun hk => ?rcv) fun _ => ite_congr rfl (fun hk => ?prk) fun _ =>
    ite_congr rfl (fun hk => ?rb) fun _ => rfl
  case ctl => subst hk; rw [h.bit 31 (by decide), h.fld Fld.UPD_CTL_STG (by decide), h.fld Fld.UPD_CTL_OP (by decide)]
  case rcv => subst hk; rw [h.bit 31 (by decide)]
  case prk => subst hk; rw [h.bit 31 (by decide), h.bit 30 (by decide), h.bit 8 (by decide), h.fld Fld.UPD_PRK_CTL_OP (by decide)]
  case rb => subst hk; rw [h.bit 31 (by decide), h.fld Fld.UPD_PRK_RB_SEL_PATH (by decide)]

theorem regAct_congr (h : Agree k v w) (hs : (Reg.specOf k).isSome = true) : s.regAct init k v m x = s.regAct init k w m x := by
  unfold State.regAct
  rw [actPort_congr s m h hs, actInt_congr s init m h hs, actTime_congr s m h, actShu_congr s m h hs, actSmp_congr s init m h,
    actNdl_congr s m x h, actInk_congr s m x h, actDrn_congr s m h, actTot_congr s m x h, actSto_congr s m x h, actUpl_congr s m h,
    actUpd_congr s init m x h]

/-- A write after the firewall reads the register's fields only. -/
theorem regPut_congr (h : Agree k v w) (hs : (Reg.specOf k).isSome = true) : s.regPut init k v x = s.regPut init k w x := by
  unfold State.regPut
  rw [h.merged_eq s]
  dsimp only
  rw [regAct_congr _ init _ x h hs, regAct_congr s init _ x h hs]

/-- An offset that names a register names one that has a row. -/
theorem specOf_of_regKey {s : State} {off : Nat} (h : s.regKey off = some k) : (Reg.specOf k).isSome = true := by
  unfold State.regKey at h
  split at h
  · cases h
  · extract_lets key at h
    split at h
    · cases h
    · obtain ⟨r, hr, rfl⟩ := Option.map_eq_some_iff.mp h
      rw [hr]; rfl

theorem regWrite_congr {off : Nat} (hk : s.regKey off = some k) (h : Agree k v w) :
    s.regWrite init off v x = s.regWrite init off w x := by
  have hs := specOf_of_regKey hk
  unfold State.regWrite
  rw [hk]
  dsimp only
  rw [h.splitFields_eq, regPut_congr s init x h hs, regPut_congr s init x (h.splitWord s) hs,
    regPut_congr (s.fwReg init off) init x (h.splitWord s) hs]

end Sys2Proof.Machine

open Sys2Proof Sys2Proof.Machine

/-- Settles O12: what a write reads of its word it reads through the register's fields. -/
theorem reservedBitsOfWritesAreIgnored : Obligations.ReservedBitsOfWritesAreIgnored := by
  unfold Obligations.ReservedBitsOfWritesAreIgnored
  intro init off v v' x k s hk h
  exact congrArg ok (regWrite_congr s init x hk h)

end

/-! # Fields after a write (R15, R522) -/

section

namespace Sys2Proof.Machine

/-! ## Rows of the register tables. -/

/-- Fields that lie within a word, apart from each other. -/
def FieldsOk (l : List FieldSpec) : Prop :=
  (∀ f ∈ l, f.lo ≤ f.hi ∧ f.hi < 32) ∧ l.Pairwise (fun f g => g.hi < f.lo ∨ f.hi < g.lo)

/-- The tables of the blocks and of the port windows. -/
def regTables : List (List RegSpec) :=
  [Reg.chipTable, Reg.intTable, Reg.tuTable, Reg.shuTable, Reg.smpTable, Reg.ndlTable, Reg.inkTable, Reg.drnTable, Reg.totTable,
    Reg.stoTable, Reg.uplTable, Reg.updTable, Reg.portTable, Reg.lnTable, Reg.airTable, Reg.casTable]

theorem regTables_fieldsOk : ∀ t ∈ regTables, ∀ r ∈ t, FieldsOk r.fields := by
  unfold FieldsOk
  decide +kernel

theorem tableOf_mem (k : Nat) : (Reg.tableOf k).1 = [] ∨ (Reg.tableOf k).1 ∈ regTables := by
  unfold Reg.tableOf
  split <;> split <;> simp [regTables]

/-- The fields of every register lie within its word, apart from each other. -/
theorem regFields_ok (k : Nat) : FieldsOk (regFields k) := by
  unfold regFields
  cases hs : Reg.specOf k with
  | none => exact ⟨by simp, .nil⟩
  | some r =>
    have hr : r ∈ (Reg.tableOf k).1 := List.mem_of_find?_eq_some hs
    rcases tableOf_mem k with he | hm
    · simp [he] at hr
    · exact regTables_fieldsOk _ hm r hr

/-! ## Field by field. -/

/-- Does each turn of a fold over fields write its own field or nothing? -/
def WritesOwnField (step : Word → FieldSpec → Word) : Prop := ∀ a f, step a f = a ∨ ∃ x, step a f = fput f.bits a x

section

variable {step : Word → FieldSpec → Word} (hs : WritesOwnField step)

include hs

theorem fget_step_ne (a : Word) {f g : FieldSpec} (hf : f.lo ≤ f.hi) (hg : g.hi < 32) (hd : g.hi < f.lo ∨ f.hi < g.lo) :
    fget g.bits (step a f) = fget g.bits a := by
  rcases hs a f with he | ⟨x, he⟩
  · rw [he]
  · rw [he, fget_fput_ne f.bits g.bits a x hf hg hd]

/-- Turns on fields apart from g leave g. -/
theorem fget_foldl_ne (a : Word) {g : FieldSpec} (hg : g.hi < 32) (l : List FieldSpec)
    (hl : ∀ f ∈ l, f.lo ≤ f.hi ∧ (g.hi < f.lo ∨ f.hi < g.lo)) : fget g.bits (l.foldl step a) = fget g.bits a := by
  induction l generalizing a with
  | nil => rfl
  | cons f r ih =>
    obtain ⟨hf, hd⟩ := hl f List.mem_cons_self
    rw [List.foldl_cons, ih _ fun e he => hl e (List.mem_cons_of_mem f he), fget_step_ne hs a hf hg hd]

/-- After the fold a field shows what its own turn made of it. -/
theorem fget_foldl_of_mem (w : Word) {l : List FieldSpec} (h : FieldsOk l) {f : FieldSpec} (hf : f ∈ l) :
    ∃ a, fget f.bits a = fget f.bits w ∧ fget f.bits (l.foldl step w) = fget f.bits (step a f) := by
  obtain ⟨l₁, l₂, rfl⟩ := List.append_of_mem hf
  obtain ⟨hr, hp⟩ := h
  obtain ⟨-, hp₂, hp₁⟩ := List.pairwise_append.mp hp
  have h32 := (hr f hf).2
  refine ⟨l₁.foldl step w, ?_, ?_⟩
  · exact fget_foldl_ne hs w h32 l₁ fun e he => ⟨(hr e (List.mem_append_left _ he)).1, hp₁ e he f List.mem_cons_self⟩
  · rw [List.foldl_append, List.foldl_cons]
    exact fget_foldl_ne hs _ h32 l₂ fun e he =>
      ⟨(hr e (List.mem_append_right _ (List.mem_cons_of_mem f he))).1, ((List.pairwise_cons.mp hp₂).1 e he).symm⟩

end

theorem writesOwnField_mergeField (old v : Word) : WritesOwnField (mergeField old v) := by
  intro a f
  cases hacc : f.acc with
  | ro | w1s | wo | rwhGo | rwlGo | rwl => exact .inl (by simp only [mergeField, hacc])
  | w1c | rw | rws | rwh | rwhRing0 | rwLock => exact .inr ⟨_, by unfold mergeField; rw [hacc]⟩
  | cnt0 =>
    by_cases hv : fget f.bits v = 0
    · exact .inr ⟨0, by simp only [mergeField, hacc, hv, if_true]⟩
    · exact .inl (by simp only [mergeField, hacc, hv, if_false])

theorem fget_lt (f : BitRange) (w : Word) : fget f w < 2 ^ bwidth f := Nat.mod_lt _ (Nat.two_pow_pos _)

/-- A field read from one word and written in another reads there as it was. -/
theorem fget_fput_of_lt {f : BitRange} (a : Word) {x : Nat} (h : f.hi < 32) (hl : f.lo ≤ f.hi) (hx : x < 2 ^ bwidth f) :
    fget f (fput f a x) = x := by
  rw [fget_fput f a x h hl, Nat.mod_eq_of_lt hx]

/-- Where every field of a register takes writes, a field of the merged word is what its own merge makes of the field as it was. -/
theorem exists_fget_merged {s : State} {k : Nat} (v : Word) {f : FieldSpec} (hk : s.keptFields k = []) (hf : f ∈ regFields k) :
    ∃ a, fget f.bits a = fget f.bits (s.base k) ∧ fget f.bits (s.merged k v) = fget f.bits (mergeField (s.base k) v a f) := by
  simp only [State.merged, hk, List.foldl_nil]
  exact fget_foldl_of_mem (writesOwnField_mergeField (s.base k) v) (s.base k) (regFields_ok k) hf

section

variable {s : State} {k : Nat} (v : Word) {f : FieldSpec} (hk : s.keptFields k = []) (hf : f ∈ regFields k)

include hk hf

theorem fget_merged_ro (ha : f.acc = .ro) : fget f.bits (s.merged k v) = fget f.bits (s.base k) := by
  obtain ⟨a, he, hm⟩ := exists_fget_merged v hk hf
  simp only [hm, mergeField, ha, he]

theorem fget_merged_rw (ha : f.acc = .rw ∨ f.acc = .rws ∨ f.acc = .rwh) : fget f.bits (s.merged k v) = fget f.bits v := by
  obtain ⟨a, -, hm⟩ := exists_fget_merged v hk hf
  obtain ⟨hl, h32⟩ := (regFields_ok k).1 f hf
  have put := fget_fput_of_lt a h32 hl (fget_lt f.bits v)
  rcases ha with ha | ha | ha <;> simp only [hm, mergeField, ha, put]

theorem fget_merged_w1c (ha : f.acc = .w1c) :
    fget f.bits (s.merged k v) = fget f.bits (s.base k) - (fget f.bits (s.base k) &&& fget f.bits v) := by
  obtain ⟨a, -, hm⟩ := exists_fget_merged v hk hf
  obtain ⟨hl, h32⟩ := (regFields_ok k).1 f hf
  simp only [hm, mergeField, ha]
  exact fget_fput_of_lt a h32 hl ((Nat.sub_le _ _).trans_lt (fget_lt _ _))

theorem fget_merged_cnt0 (ha : f.acc = .cnt0) :
    fget f.bits (s.merged k v) = if fget f.bits v = 0 then 0 else fget f.bits (s.base k) := by
  obtain ⟨a, he, hm⟩ := exists_fget_merged v hk hf
  obtain ⟨hl, h32⟩ := (regFields_ok k).1 f hf
  simp only [hm, mergeField, ha]
  split
  · exact fget_fput_of_lt a h32 hl (Nat.two_pow_pos _)
  · exact he

end

end Sys2Proof.Machine

open Sys2Proof Sys2Proof.Machine

/-- Settles O13: no two fields of a row overlap, so each is merged on its own. -/
theorem accessCodesDecideFields : Obligations.AccessCodesDecideFields := by
  unfold Obligations.AccessCodesDecideFields
  exact fun k v f s hk hf => ⟨fget_merged_ro v hk hf, fget_merged_rw v hk hf, fget_merged_w1c v hk hf, fget_merged_cnt0 v hk hf⟩

end

/-! # Writes to chip registers and accesses that no register takes (R11, R15, R30, R521–R523) -/

section

namespace Sys2Proof.Machine

/-! ## Registers outside what an operation touches. -/

/-- A register whose window an operation does not touch keeps its word. -/
theorem Keeps.raw_eq {L : List Part} {s t : State} (h : Keeps L s t) (j : Nat) (hj : Part.win (window j) ∉ L := by decide) :
    t.raw j = s.raw j := h.only (.win _) hj j rfl

theorem State.num_wrN (s : State) (k : Nat) {v : Nat} (hv : v < 2 ^ 32) : (s.wrN k v).num k = v := by
  simp only [State.num, State.raw_wrN_same, BitVec.toNat_ofNat, Nat.mod_eq_of_lt hv]

theorem State.num_of_raw {s t : State} {k : Nat} (h : t.raw k = s.raw k) : t.num k = s.num k := congrArg BitVec.toNat h

theorem State.fifo_report (s : State) (code sev path : Nat) (data : Bytes) (h : s.smp.fifo.length < 256) :
    (s.report code sev path data).smp.fifo = s.smp.fifo ++ [s.entry code sev path data] := by
  rw [State.report_room s code sev path data h]
  rfl

/-! ## Refused and unassigned accesses. -/

theorem raw_fwReg_ne (s : State) (init off : Nat) {k : Nat} (hw : window k = 0) (h1 : k ≠ Reg.CHIP_FW_VIOL_CNT)
    (h2 : k ≠ Reg.CHIP_FW_LAST) : (s.fwReg init off).raw k = s.raw k := by
  unfold State.fwReg State.fwRefuse
  dsimp only
  rw [((Keeps.refl [.smp, .win 4] _).report _ _ _ _).raw_eq k (by rw [hw]; decide), State.raw_wrN_ne _ _ h2, State.raw_bump_ne _ h1]

theorem num_fwReg_cnt (s : State) (init off : Nat) :
    (s.fwReg init off).num Reg.CHIP_FW_VIOL_CNT = min (s.num Reg.CHIP_FW_VIOL_CNT + 1) 0xFFFFFFFF := by
  unfold State.fwReg State.fwRefuse
  dsimp only
  rw [State.num_of_raw (((Keeps.refl [.smp, .win 4] _).report _ _ _ _).raw_eq _), State.num_of_raw (State.raw_wrN_ne _ _ (by decide)),
    State.num_bump]

/-- CHIP_FW_LAST names initiator, region and offset; every region code is below 16. -/
theorem num_fwReg_last (s : State) (init off : Nat) (hr : offRegion off < 16) :
    (s.fwReg init off).num Reg.CHIP_FW_LAST = (init % 16) * 2 ^ 28 + offRegion off * 2 ^ 24 + off % 2 ^ 23 := by
  unfold State.fwReg State.fwRefuse
  dsimp only
  rw [State.num_of_raw (((Keeps.refl [.smp, .win 4] _).report _ _ _ _).raw_eq _), State.num_wrN]
  · simp [Nat.mod_eq_of_lt hr]
  · simp only [Bool.toNat_false]
    omega

theorem fifo_fwReg (s : State) (init off : Nat) (h : s.smp.fifo.length < 256) :
    (s.fwReg init off).smp.fifo.length = s.smp.fifo.length + 1 := by
  unfold State.fwReg State.fwRefuse
  dsimp only
  rw [State.fifo_report, State.wrN_smp, State.bump_smp, List.length_append, List.length_singleton]
  rwa [State.wrN_smp, State.bump_smp]

theorem hoop_fwReg (s : State) (init off : Nat) : (s.fwReg init off).hoop = s.hoop :=
  (Keeps.fwReg (Keeps.refl [.smp, .win 0, .win 4] s)).only .hoop (by decide)

theorem offRegion_of_hoopOffset {off : Nat} (h : hoopOffset off = true) : offRegion off < 16 := by
  have hd : off / 0x10000 = 5 ∨ off / 0x10000 = 1 ∨ off / 0x10000 = 11 := by
    have := of_decide_eq_true h
    omega
  have hl : ¬ 0x100000 ≤ off := by omega
  rcases hd with hd | hd | hd <;> simp [offRegion, hl, hd]

theorem num_badReg_cnt (s : State) (init off : Nat) (write : Bool) :
    (s.badReg init write off).num Reg.CHIP_BADREG_CNT = min (s.num Reg.CHIP_BADREG_CNT + 1) 0xFFFFFFFF := by
  unfold State.badReg
  rw [State.num_of_raw (State.raw_wrN_ne _ _ (by decide)), State.num_bump]

theorem num_badReg_last (s : State) (init off : Nat) (write : Bool) :
    (s.badReg init write off).num Reg.CHIP_BADREG_LAST = (init % 16) * 2 ^ 28 + write.toNat * 2 ^ 27 + off % 2 ^ 21 := by
  unfold State.badReg
  rw [State.num_wrN]
  have := Bool.toNat_le write
  omega

/-! ## Chip registers: no action, no condition. -/

section Chip

variable {k : Nat} (hk : k < 0x010000) (s : State)

include hk

theorem window_chip : window k = 0 := by unfold window; omega

theorem regAct_chip (init : Nat) (v m : Word) (x : Nat) : s.regAct init k v m x = s.wr k m := by
  have hq : k / 0x10000 = 0 := by omega
  simp only [State.regAct, show ¬ 0x100000 ≤ k by omega, if_false, hq]

theorem writeShut_chip : s.writeShut k = false := by
  have hq : k / 0x10000 = 0 := by omega
  have hq' : k / 0x1000000 = 0 := by omega
  simp only [State.writeShut, show ¬ 0x100000 ≤ k by omega, if_false, hq, hq']

theorem rangeOk_chip (w : Word) : s.rangeOk k w = true := by
  have hq : k / 0x10000 = 0 := by omega
  have hq' : k / 0x1000000 = 0 := by omega
  simp only [State.rangeOk, show ¬ 0x100000 ≤ k by omega, if_false, hq, hq']

theorem chip_ne (j : Nat) (hj : 0x010000 ≤ j := by decide) : k ≠ j := by omega

theorem regPut_chip (init : Nat) (v : Word) (x : Nat) : s.regPut init k v x = s.wr k (s.merged k v) := by
  simp only [State.regPut, writeShut_chip hk, rangeOk_chip hk, regAct_chip hk, show ¬ 0x100000 ≤ k by omega, if_false, Bool.not_true,
    Bool.or_self, Bool.false_eq_true]

theorem keptFields_chip : s.keptFields k = [] := by
  have hn : (k % 0x1000000 - 0x100000) / 0x1000 = 0 := by omega
  have ne : ∀ j, 0x010000 ≤ j → k ≠ j := fun j hj => chip_ne hk j hj
  have notch : ¬ Reg.PORT_LN_NOTCH 0 0 ≤ k := fun h => absurd (h.trans_lt hk) (by decide)
  unfold State.keptFields
  dsimp only
  rw [hn, if_neg fun h => ne (Reg.PORT_CTL 0) (by decide) h.1, if_neg fun h => ne (Reg.PORT_LN_CFG 0) (by decide) h.1,
    if_neg fun h => notch h.2.1, if_neg fun h => ne (Reg.PORT_AIR_SELF 0) (by decide) h.1,
    if_neg fun h => ne Reg.INK_CTL (by decide) h.1, if_neg fun h => ne Reg.DRN_FRZ_CTL (by decide) h.1,
    if_neg fun h => ne Reg.STO_SLC (by decide) h.1,
    if_neg fun h => h.1.elim (ne (Reg.UPL_RXR 0) (by decide)) (ne (Reg.UPL_TXR 0) (by decide)),
    if_neg fun h => h.1.elim (ne (Reg.UPL_RXR 1) (by decide)) (ne (Reg.UPL_TXR 1) (by decide))]

end Chip

/-! ## What the split of R521 keeps. -/

/-- A hoop-only field that starts nothing takes its present value in the split word. -/
theorem fget_splitWord {k : Nat} {f : FieldSpec} (s : State) (v : Word) (hf : f ∈ regFields k) (hh : s.hoopField k f = true)
    (hg : goField f.acc = false) : fget f.bits (s.splitWord k v) = fget f.bits (s.view k) := by
  obtain ⟨hl, h32⟩ := (regFields_ok k).1 f hf
  have own : WritesOwnField fun a f => if s.hoopField k f = true then
      fput f.bits a (if goField f.acc = true then 0 else fget f.bits (s.view k)) else a := by
    intro a e
    dsimp only
    split
    · exact .inr ⟨_, rfl⟩
    · exact .inl rfl
  obtain ⟨a, -, ha⟩ := fget_foldl_of_mem own v (regFields_ok k) hf
  rw [State.splitWord, ha, if_pos hh, hg, if_neg Bool.false_ne_true, fget_fput_of_lt a h32 hl (fget_lt _ _)]

/-- Chip registers have no action, ring or lock fields. -/
theorem acc_chip : ∀ r ∈ Reg.chipTable, ∀ f ∈ r.fields, f.acc = .ro ∨ f.acc = .w1c ∨ f.acc = .rw ∨ f.acc = .rwh := by decide

theorem acc_of_hoopField_chip {k : Nat} (hk : k < 0x010000) {s : State} {f : FieldSpec} (hf : f ∈ regFields k)
    (hh : s.hoopField k f = true) : f.acc = .rwh := by
  have ht : (Reg.tableOf k).1 = Reg.chipTable := by
    have hq : k / 0x10000 = 0 := by omega
    simp only [Reg.tableOf, show k < 0x100000 by omega, if_true, hq]
  unfold regFields at hf
  split at hf
  · cases hf
  · next r hr =>
    have hm : r ∈ Reg.chipTable := ht ▸ List.mem_of_find?_eq_some hr
    rcases acc_chip r hm f hf with h | h | h | h
    · simp [State.hoopField, h] at hh
    · simp [State.hoopField, h] at hh
    · simp [State.hoopField, h] at hh
    · exact h

/-- Of the chip registers only CHIP_GOV_STAT shows more than is stored, and none of its fields is hoop-only. -/
theorem view_chip {k : Nat} (hk : k < 0x010000) (s : State) (hne : k ≠ Reg.CHIP_GOV_STAT) : s.view k = s.raw k := by
  have hq : k / 0x10000 = 0 := by omega
  simp only [State.view, show ¬ 0x100000 ≤ k by omega, if_false, hq, State.viewChip, hne]

/-- A chip register's hoop-only fields survive a write of another initiator's. -/
theorem fget_merged_splitWord_chip {k : Nat} (hk : k < 0x010000) {s t : State} (v : Word) (ht : t.raw k = s.raw k) {f : FieldSpec}
    (hf : f ∈ regFields k) (hh : s.hoopField k f = true) : fget f.bits (t.merged k (s.splitWord k v)) = fget f.bits (s.raw k) := by
  have hacc := acc_of_hoopField_chip hk hf hh
  have hne : k ≠ Reg.CHIP_GOV_STAT := by
    rintro rfl
    have ro : ∀ f ∈ regFields Reg.CHIP_GOV_STAT, f.acc = .ro := by decide
    simp [ro f hf] at hacc
  rw [fget_merged_rw _ (keptFields_chip hk t) hf (.inr (.inr hacc)), fget_splitWord s v hf hh (by rw [hacc]; rfl), view_chip hk s hne]

/-! ## Whole writes. -/

section Write

variable {s : State} {init off k : Nat} {v : Word} {x : Nat}

theorem regWrite_fw (hr : s.pins.reset = false) (ho : hoopOffset off = true) (hi : isHoop init = false) :
    s.regWrite init off v x = s.fwReg init off := by
  simp [State.regWrite, hr, ho, hi]

/-- A write that reaches its register: as it is from the hoop, split for other initiators. -/
theorem regWrite_reg (hr : s.pins.reset = false) (ho : hoopOffset off = false) (hk : s.regKey off = some k)
    (hc : s.rcvShuts init k = false) (hne : k ≠ Reg.TOT_CAL_DATA) :
    s.regWrite init off v x = if isHoop init then s.regPut init k v x
      else if (s.splitFields k v).isEmpty then s.regPut init k (s.splitWord k v) x
      else (s.fwReg init off).regPut init k (s.splitWord k v) x := by
  simp only [State.regWrite, hr, ho, hk, hc, hne, Bool.false_and, Bool.false_eq_true, if_false]

/-- A hoop's write that its register does not take leaves the state. -/
theorem regWrite_shut (hk : s.regKey off = some k) (hs : s.writeShut k = true ∨ s.rangeOk k (s.merged k v) = false)
    (hi : isHoop init = true) : s.regWrite init off v x = s := by
  have hp : s.regPut init k v x = s := by
    unfold State.regPut
    rcases hs with h | h <;> simp [h]
  simp [State.regWrite, hi, hk, hp]

end Write

end Sys2Proof.Machine

open Sys2Proof Sys2Proof.Machine

/-- Settles O15: chip registers have neither actions nor conditions, so a write leaves the merged word, and a refused or unassigned
access its counter and record. -/
theorem registerWritesActAsTheirCodesSay : Obligations.RegisterWritesActAsTheirCodesSay := by
  unfold Obligations.RegisterWritesActAsTheirCodesSay
  refine ⟨?chip, ?shut, ?fw, ?split, ?unassigned⟩
  case chip =>
    intro init off k v x s hr ho hk hc he _ _ hlt
    refine ⟨_, rfl, ?_⟩
    rw [regWrite_reg hr ho hk hc (chip_ne hlt Reg.TOT_CAL_DATA), he, if_pos rfl, regPut_chip hlt, regPut_chip hlt]
    split <;> rfl
  case shut =>
    intro init off k v x s hk hs hi
    exact ⟨_, rfl, regWrite_shut hk hs hi⟩
  case fw =>
    intro init off v x s hr ho hi hroom
    refine ⟨_, rfl, ?_⟩
    rw [regWrite_fw hr ho hi]
    exact ⟨num_fwReg_cnt s init off, num_fwReg_last s init off (offRegion_of_hoopOffset ho), hoop_fwReg s init off,
      fifo_fwReg s init off hroom⟩
  case split =>
    intro init off k v x s hr ho hi hk hc he hlt _ h1 h2 _
    refine ⟨_, rfl, ?_⟩
    rw [regWrite_reg hr ho hk hc (chip_ne hlt Reg.TOT_CAL_DATA), hi, he, if_neg Bool.false_ne_true, if_neg Bool.false_ne_true,
      regPut_chip hlt]
    refine ⟨?_, fun f hf hh => ?_⟩
    · rw [State.num_of_raw (State.raw_wr_ne _ _ h1.symm), num_fwReg_cnt]
    · rw [State.raw_wr_same]
      exact fget_merged_splitWord_chip hlt (word v) (raw_fwReg_ne s init off (window_chip hlt) h1 h2) hf hh
  case unassigned =>
    intro init off size write s hr ho hk hb
    have ht : execUnassignedAccess init off size write s = ok ((if write then s else s.answer 0).badReg init write off) := by
      cases write <;> simp [execUnassignedAccess, hr, ho, hk, hb]
    refine ⟨_, ht, rfl, ?_, ?_⟩
    · rw [num_badReg_cnt]
      split <;> rfl
    · rw [num_badReg_last]

end

/-! # The Time Unit (R350–R369) -/

section

namespace Sys2Proof.Machine

/-! ## Registers and fields after updates elsewhere. -/

@[simp] theorem State.answer_busData (s : State) (w : Word) : (s.answer w).busData = w := rfl

theorem State.getF_of_raw {s t : State} {k : Nat} (h : t.raw k = s.raw k) (f : BitRange) : t.getF k f = s.getF k f :=
  congrArg (fget f) h

theorem State.isF_of_raw {s t : State} {k : Nat} (h : t.raw k = s.raw k) (f : BitRange) : t.isF k f = s.isF k f := by
  simp only [State.isF, State.getF_of_raw h]

/-- A field of a register that holds it, after another field of the register was written. -/
theorem State.isF_setF_ne (s : State) (k : Nat) {f g : BitRange} (v : Nat) (hd : g.hi < f.lo ∨ f.hi < g.lo := by decide)
    (hl : f.lo ≤ f.hi := by decide) (hg : g.hi < 32 := by decide) : (s.setF k f v).isF k g = s.isF k g := by
  simp only [State.isF, State.getF_setF_ne s k v hd hl hg]

/-! ## Steps of TAI (R353, R354). -/

/-- What a step of TAI touches beside the Time Unit. -/
abbrev stepParts : List Part := [.dram, .ports, .drn, .sto, .tot, .smp, .draws, .win 4, .win 7, .win 8, .win 9]

/-- In the Time Unit a step moves TAI, counts and raises its flag; what follows it is outside. -/
theorem timeStep_keeps (s : State) (d : Int) :
    ∃ u, Keeps stepParts u (s.timeStep d) ∧ u.time.tai = ((s.time.tai : Int) + d).toNat ∧
      ∀ k, k ≠ Reg.TU_STEP_CNT → k ≠ Reg.TU_INT_STAT → u.raw k = s.raw k := by
  unfold State.timeStep
  dsimp only
  have hn : Keeps [.draws] s (s.near d (2 ^ 32)).2 := .near (.refl _ s)
  generalize s.near d (2 ^ 32) = r at hn ⊢
  refine ⟨_, .each' (.drnStep (.when' (.report (.refl _ (State.raiseF (State.bump (State.tuMod r.2 _) _) _ _)) _ _ _ _) _
    fun _ h => .totStep h)) _ fun n u h => ?_, ?_, fun k h1 h2 => ?_⟩
  · split
    · exact .airStep h
    · exact h
  · rw [State.raiseF_time, State.bump_time, State.tuMod_time, hn.only .time (by decide)]
  · rw [State.raw_raiseF_ne _ _ h2, State.raw_bump_ne _ h1, State.tuMod_raw]
    exact hn.raw_eq k (by simp)

theorem tai_taiChange (s : State) (d : Int) : (s.taiChange d).time.tai = ((s.time.tai : Int) + d).toNat := by
  unfold State.taiChange
  split
  · rfl
  · obtain ⟨u, hk, hu, -⟩ := timeStep_keeps s d
    rw [hk.only .time (by decide), hu]

/-- A change of TAI leaves the Time Unit's other registers. -/
theorem raw_taiChange (s : State) (d : Int) {k : Nat} (hw : window k = 2) (h1 : k ≠ Reg.TU_STEP_CNT) (h2 : k ≠ Reg.TU_INT_STAT) :
    (s.taiChange d).raw k = s.raw k := by
  unfold State.taiChange
  split
  · rfl
  · obtain ⟨u, hk, -, hu⟩ := timeStep_keeps s d
    rw [hk.raw_eq k (by rw [hw]; decide), hu k h1 h2]

theorem drnPlan_keeps (s : State) : Keeps [.drn, .win 7] s s.drnPlan := .drnPlan (.refl _ s)

theorem time_taiBecomesValid (s : State) : s.taiBecomesValid.time = s.time := (Keeps.taiBecomesValid (.refl [.drn, .win 2, .win 7] s)).only .time (by decide)

theorem taiValid_taiBecomesValid (s : State) : s.taiBecomesValid.taiValid = true := by
  unfold State.taiBecomesValid
  split
  · assumption
  · unfold State.taiValid
    rw [State.isF_of_raw ((drnPlan_keeps _).raw_eq _), State.isF_raiseF _ _ Fld.TU_STAT_TAI_VALID]

theorem raw_taiBecomesValid (s : State) {k : Nat} (hw : window k = 2) (hk : k ≠ Reg.TU_STAT) : s.taiBecomesValid.raw k = s.raw k := by
  unfold State.taiBecomesValid
  split
  · rfl
  · rw [(drnPlan_keeps _).raw_eq k (by rw [hw]; decide), State.raw_raiseF_ne _ _ hk]

/-! ## SET (R355). -/

/-- The staged seconds. -/
abbrev State.stagedSec (s : State) : Nat := s.num Reg.TU_TAI_S_LO + s.getF Reg.TU_TAI_S_HI Fld.TU_TAI_S_HI_SEC_HI * 2 ^ 32

/-- The staged ns. -/
abbrev State.stagedNs (s : State) : Nat := s.getF Reg.TU_TAI_NS Fld.TU_TAI_NS_NS

/-- The change of TAI that SET makes: the staged time, less the present one unless REL is 1. -/
def State.setBy (s : State) : Int :=
  if s.isF Reg.TU_CTL Fld.TU_CTL_REL then signed 48 s.stagedSec * 2 ^ 32 + ((taiOf 0 s.stagedNs : Nat) : Int)
  else (taiOf s.stagedSec s.stagedNs : Nat) - (s.time.tai : Int)

/-- The last steps of SET, with the servo's source as it was: QUAL, a first sample to come, and the count. -/
def State.setEnd (t : State) (src : Nat) : State :=
  (if src = 0 then t.setQual 2 else (t.setQual 3).tuMod (fun x => { x with first := true, lastSmp := none })).bump Reg.TU_SET_CNT

theorem taiSet_eq (s : State) : s.taiSet = (s.taiChange s.setBy).taiBecomesValid.setEnd s.tuSrc := rfl

section SetEnd

variable (t : State) (src : Nat)

/-- TAI and every register but TU_STAT stand before the count. -/
theorem exists_setEnd : ∃ u : State, t.setEnd src = u.bump Reg.TU_SET_CNT ∧ u.time.tai = t.time.tai ∧ (src ≠ 0 → u.time.first = true) ∧
    ∀ k, u.raw k = (t.setQual (if src = 0 then 2 else 3)).raw k := by
  by_cases h : src = 0
  · exact ⟨t.setQual 2, by rw [State.setEnd, if_pos h], rfl, fun hn => absurd h hn, fun k => by rw [if_pos h]⟩
  · exact ⟨(t.setQual 3).tuMod (fun x => { x with first := true, lastSmp := none }), by rw [State.setEnd, if_neg h], rfl, fun _ => rfl, fun k => by rw [State.tuMod_raw, if_neg h]⟩

theorem tai_setEnd : (t.setEnd src).time.tai = t.time.tai := by
  obtain ⟨u, hu, ht, -⟩ := exists_setEnd t src
  rw [hu, State.bump_time, ht]

theorem first_setEnd (h : src ≠ 0) : (t.setEnd src).time.first = true := by
  obtain ⟨u, hu, -, hf, -⟩ := exists_setEnd t src
  rw [hu, State.bump_time, hf h]

theorem raw_setEnd {k : Nat} (h3 : k ≠ Reg.TU_STAT) (h4 : k ≠ Reg.TU_SET_CNT) : (t.setEnd src).raw k = t.raw k := by
  obtain ⟨u, hu, -, -, hr⟩ := exists_setEnd t src
  rw [hu, State.raw_bump_ne _ h4, hr, State.setQual, State.raw_setF_ne _ _ _ h3]

theorem num_setEnd_cnt : (t.setEnd src).num Reg.TU_SET_CNT = min (t.num Reg.TU_SET_CNT + 1) 0xFFFFFFFF := by
  obtain ⟨u, hu, -, -, hr⟩ := exists_setEnd t src
  have h := (hr Reg.TU_SET_CNT).trans (State.raw_setF_ne t Fld.TU_STAT_QUAL _ (by decide))
  rw [hu, State.num_bump, State.num_of_raw h]

theorem raw_setEnd_stat : (t.setEnd src).raw Reg.TU_STAT = (t.setQual (if src = 0 then 2 else 3)).raw Reg.TU_STAT := by
  obtain ⟨u, hu, -, -, hr⟩ := exists_setEnd t src
  rw [hu, State.raw_bump_ne _ (by decide), hr]

theorem taiValid_setEnd : (t.setEnd src).taiValid = t.taiValid := by
  rw [State.taiValid, State.isF_of_raw (raw_setEnd_stat t src), State.setQual,
    State.isF_setF_ne t Reg.TU_STAT (f := Fld.TU_STAT_QUAL) (g := Fld.TU_STAT_TAI_VALID), State.taiValid]

theorem qual_setEnd : (t.setEnd src).getF Reg.TU_STAT Fld.TU_STAT_QUAL = if src = 0 then 2 else 3 := by
  rw [State.getF_of_raw (raw_setEnd_stat t src), State.setQual, State.getF_setF t Reg.TU_STAT Fld.TU_STAT_QUAL]
  split <;> rfl

end SetEnd

/-! The command TAI_SET first puts REL in TU_CTL. -/

section Rel

variable (s : State) (rel : Bool)

/-- The state with REL as the command writes it. -/
abbrev State.withRel : State := s.setF Reg.TU_CTL Fld.TU_CTL_REL rel.toNat

/-- What the command leaves when it changes TAI by d. -/
def State.setDone (d : Int) : State := ((s.withRel rel).taiChange d).taiBecomesValid.setEnd s.tuSrc

theorem isF_withRel : (s.withRel rel).isF Reg.TU_CTL Fld.TU_CTL_REL = rel := by
  rw [State.isF, State.getF_setF _ _ Fld.TU_CTL_REL]
  cases rel <;> rfl

theorem stagedSec_withRel : (s.withRel rel).stagedSec = s.stagedSec := by
  have h := State.raw_setF_ne s (k := Reg.TU_CTL) (j := Reg.TU_TAI_S_LO) Fld.TU_CTL_REL rel.toNat (by decide)
  have h' := State.getF_setF_key s (k := Reg.TU_CTL) (j := Reg.TU_TAI_S_HI) Fld.TU_CTL_REL Fld.TU_TAI_S_HI_SEC_HI rel.toNat (by decide)
  rw [State.stagedSec, State.num_of_raw h, h']

theorem stagedNs_withRel : (s.withRel rel).stagedNs = s.stagedNs := State.getF_setF_key _ _ _ _ (by decide)

theorem tuSrc_withRel : (s.withRel rel).tuSrc = s.tuSrc := State.getF_setF_key _ _ _ _ (by decide)

theorem setBy_withRel : (s.withRel rel).setBy = if rel then signed 48 s.stagedSec * 2 ^ 32 + ((taiOf 0 s.stagedNs : Nat) : Int)
    else (taiOf s.stagedSec s.stagedNs : Nat) - (s.time.tai : Int) := by
  rw [State.setBy, isF_withRel, stagedSec_withRel, stagedNs_withRel, State.setF_time]

theorem execTaiSet_eq : execTaiSet rel s = .next (s.setDone rel (s.withRel rel).setBy) := by
  unfold execTaiSet State.setDone
  rw [taiSet_eq, tuSrc_withRel]

variable (d : Int)

theorem tai_setDone : (s.setDone rel d).time.tai = ((s.time.tai : Int) + d).toNat := by
  rw [State.setDone, tai_setEnd, time_taiBecomesValid, tai_taiChange, State.setF_time]

theorem taiValid_setDone : (s.setDone rel d).taiValid = true := by
  rw [State.setDone, taiValid_setEnd, taiValid_taiBecomesValid]

/-- Registers of the Time Unit that neither SET nor a step of TAI writes. -/
theorem raw_taiChange_valid {k : Nat} (hw : window k = 2) (h1 : k ≠ Reg.TU_STEP_CNT) (h2 : k ≠ Reg.TU_INT_STAT)
    (h3 : k ≠ Reg.TU_STAT) : ((s.withRel rel).taiChange d).taiBecomesValid.raw k = (s.withRel rel).raw k := by
  rw [raw_taiBecomesValid _ hw h3, raw_taiChange _ d hw h1 h2]

theorem isF_rel_setDone : (s.setDone rel d).isF Reg.TU_CTL Fld.TU_CTL_REL = rel := by
  have h := raw_taiChange_valid s rel d (k := Reg.TU_CTL) rfl (by decide) (by decide) (by decide)
  rw [State.setDone, State.isF_of_raw ((raw_setEnd _ _ (by decide) (by decide)).trans h), isF_withRel]

theorem num_setDone_cnt : (s.setDone rel d).num Reg.TU_SET_CNT = min (s.num Reg.TU_SET_CNT + 1) 0xFFFFFFFF := by
  have h := raw_taiChange_valid s rel d (k := Reg.TU_SET_CNT) rfl (by decide) (by decide) (by decide)
  rw [State.setDone, num_setEnd_cnt, State.num_of_raw (h.trans (State.raw_setF_ne s Fld.TU_CTL_REL rel.toNat (by decide)))]

end Rel

/-! ## Comparators (R356). -/

theorem event_eventSet (s : State) (e : Nat) : (s.eventSet e).event e = true := by
  have hb : e % 32 < 32 := Nat.mod_lt _ (by decide)
  unfold State.eventSet
  split
  · next h =>
    have hne : Reg.SHU_EVT (e / 32) ≠ Reg.SHU_EVT_LOST_CNT := by
      have : e / 32 % 4 < 4 := Nat.mod_lt _ (by decide)
      show 0x030010 + 4 * (e / 32 % 4) ≠ 0x030020
      omega
    rw [State.event, State.raw_bump_ne _ hne]
    exact h
  · rw [State.event, State.raw_raiseBit_same, bit_setBit _ _ _ _ hb, if_pos rfl]

/-- The state after comparator k has set its flag, its event and its output. -/
def State.cmpFired (s : State) (k : Nat) : State :=
  let t := (s.raiseBit Reg.TU_INT_STAT k).eventSet (32 + k)
  let out := s.getF (Reg.TU_CMP_CTL k) Fld.TU_CMP_CTL_OUT
  if out = 1 then t.evtHigh 0 k else if out = 2 then t.evtHigh 1 k else t

section Fire

variable (s : State) {k : Nat}

theorem execCmpFire_of_fired (hk : k < 8) (he : s.isF (Reg.TU_CMP_CTL k) Fld.TU_CMP_CTL_EN = true)
    (hf : fired s.now (s.num (Reg.TU_CMP_T k)) = true) :
    execCmpFire k s = .next (if s.isF (Reg.TU_CMP_CTL k) Fld.TU_CMP_CTL_PERIODIC then
        (s.cmpFired k).wrN (Reg.TU_CMP_T k) ((s.num (Reg.TU_CMP_T k) + s.num (Reg.TU_CMP_PER k)) % 2 ^ 32)
      else (s.cmpFired k).setF (Reg.TU_CMP_CTL k) Fld.TU_CMP_CTL_EN 0) := if_pos ⟨hk, he, hf⟩

/-- Beyond flag and event a firing changes no register. -/
theorem raw_cmpFired_event (j : Nat) : (s.cmpFired k).raw j = ((s.raiseBit Reg.TU_INT_STAT k).eventSet (32 + k)).raw j := by
  unfold State.cmpFired State.evtHigh
  dsimp only
  split
  · rw [State.tuMod_raw]
  · split
    · rw [State.tuMod_raw]
    · rfl

/-- A firing writes no register of the Time Unit but its flag. -/
theorem raw_cmpFired {j : Nat} (hj : window j = 2) : (s.cmpFired k).raw j = (s.raiseBit Reg.TU_INT_STAT k).raw j :=
  (raw_cmpFired_event s j).trans ((Keeps.eventSet (.refl [.win 3] _)).raw_eq j (by rw [hj]; decide))

theorem bit_cmpFired (hk : k < 8) : bit ((s.cmpFired k).raw Reg.TU_INT_STAT) k = true := by
  rw [raw_cmpFired s rfl, State.raw_raiseBit_same, bit_setBit _ _ _ _ (hk.trans (by decide)), if_pos rfl]

theorem event_cmpFired : (s.cmpFired k).event (32 + k) = true := by
  rw [State.event, raw_cmpFired_event]
  exact event_eventSet _ (32 + k)

theorem evt0_cmpFired (h : s.getF (Reg.TU_CMP_CTL k) Fld.TU_CMP_CTL_OUT = 1) : (s.cmpFired k).time.evt0.isSome = true := by
  simp [State.cmpFired, h, State.evtHigh]

theorem evt1_cmpFired (h : s.getF (Reg.TU_CMP_CTL k) Fld.TU_CMP_CTL_OUT = 2) : (s.cmpFired k).time.evt1.isSome = true := by
  simp [State.cmpFired, h, State.evtHigh]

end Fire

theorem window_evt (e : Nat) : window (Reg.SHU_EVT (e / 32)) = 3 := by
  have : e / 32 % 4 < 4 := Nat.mod_lt _ (by decide)
  show min ((0x030010 + 4 * (e / 32 % 4)) / 0x10000) 16 = 3
  omega

/-- Event flags stand in the Shuttle's window, outside what is written elsewhere. -/
theorem event_of_win {s t : State} {k : Nat} (hk : window k ≠ 3) (h : ∀ j, j ≠ k → t.raw j = s.raw j) (e : Nat) :
    t.event e = s.event e := by
  unfold State.event
  rw [h _ fun he => hk (he ▸ window_evt e)]

/-- The registers of a comparator lie in the Time Unit's window, apart from each other and from the flags. -/
theorem cmp_keys (k : Nat) : window (Reg.TU_CMP_T k) = 2 ∧ window (Reg.TU_CMP_CTL k) = 2 ∧ Reg.TU_CMP_T k ≠ Reg.TU_CMP_CTL k ∧
    Reg.TU_INT_STAT ≠ Reg.TU_CMP_T k ∧ Reg.TU_INT_STAT ≠ Reg.TU_CMP_CTL k := by
  have h : k % 8 < 8 := Nat.mod_lt _ (by decide)
  unfold window
  refine ⟨?_, ?_, ?_, ?_, ?_⟩
  · show min ((0x020100 + 16 * (k % 8)) / 0x10000) 16 = 2
    omega
  · show min ((0x020108 + 16 * (k % 8)) / 0x10000) 16 = 2
    omega
  · show 0x020100 + 16 * (k % 8) ≠ 0x020108 + 16 * (k % 8)
    omega
  · show 0x020080 ≠ 0x020100 + 16 * (k % 8)
    omega
  · show 0x020080 ≠ 0x020108 + 16 * (k % 8)
    omega

section Fire

variable (s : State) {k : Nat} (hk : k < 8) (he : s.isF (Reg.TU_CMP_CTL k) Fld.TU_CMP_CTL_EN = true)
  (hf : fired s.now (s.num (Reg.TU_CMP_T k)) = true)

include hk he hf

/-- A periodic comparator fires and moves its target on. -/
theorem execCmpFire_periodic (hp : s.isF (Reg.TU_CMP_CTL k) Fld.TU_CMP_CTL_PERIODIC = true) :
    Runs (.cmpFire k) s (fun t => t.num (Reg.TU_CMP_T k) = (s.num (Reg.TU_CMP_T k) + s.num (Reg.TU_CMP_PER k)) % 2 ^ 32 ∧
      bit (t.raw Reg.TU_INT_STAT) k = true ∧ t.event (32 + k) = true ∧ t.isF (Reg.TU_CMP_CTL k) Fld.TU_CMP_CTL_EN = true ∧
      (s.getF (Reg.TU_CMP_CTL k) Fld.TU_CMP_CTL_OUT = 1 → t.time.evt0.isSome = true) ∧
      (s.getF (Reg.TU_CMP_CTL k) Fld.TU_CMP_CTL_OUT = 2 → t.time.evt1.isSome = true)) := by
  obtain ⟨hwt, hw, hne, hi, hi'⟩ := cmp_keys k
  refine ⟨_, execCmpFire_of_fired s hk he hf, ?_⟩
  rw [if_pos hp]
  have hctl := (State.raw_wrN_ne (s.cmpFired k) ((s.num (Reg.TU_CMP_T k) + s.num (Reg.TU_CMP_PER k)) % 2 ^ 32) hne.symm).trans
    ((raw_cmpFired s hw).trans (State.raw_raiseBit_ne s k hi'.symm))
  refine ⟨State.num_wrN _ _ (Nat.mod_lt _ (by decide)), ?_, ?_, (State.isF_of_raw hctl _).trans he, fun ho => ?_, fun ho => ?_⟩
  · rw [State.raw_wrN_ne _ _ hi, bit_cmpFired s hk]
  · rw [event_of_win (by rw [hwt]; decide) fun _ => State.raw_wrN_ne _ _, event_cmpFired]
  · rw [State.wrN_time, evt0_cmpFired s ho]
  · rw [State.wrN_time, evt1_cmpFired s ho]

/-- A comparator that is not periodic fires and stops. -/
theorem execCmpFire_single (hp : s.isF (Reg.TU_CMP_CTL k) Fld.TU_CMP_CTL_PERIODIC = false) :
    Runs (.cmpFire k) s (fun t => t.isF (Reg.TU_CMP_CTL k) Fld.TU_CMP_CTL_EN = false ∧ bit (t.raw Reg.TU_INT_STAT) k = true ∧
      t.event (32 + k) = true ∧ t.num (Reg.TU_CMP_T k) = s.num (Reg.TU_CMP_T k)) := by
  obtain ⟨hw, hwc, hne, hi, hi'⟩ := cmp_keys k
  refine ⟨_, execCmpFire_of_fired s hk he hf, ?_⟩
  rw [hp, if_neg Bool.false_ne_true]
  refine ⟨?_, ?_, ?_, ?_⟩
  · rw [State.isF, State.getF_setF _ _ Fld.TU_CMP_CTL_EN]
    rfl
  · rw [State.raw_setF_ne _ _ _ hi', bit_cmpFired s hk]
  · rw [event_of_win (by rw [hwc]; decide) fun _ => State.raw_setF_ne _ _ _, event_cmpFired]
  · rw [State.num_of_raw (State.raw_setF_ne _ _ _ hne), State.num_of_raw (raw_cmpFired s hw),
      State.num_of_raw (State.raw_raiseBit_ne s k hi.symm)]

end Fire

end Sys2Proof.Machine

open Sys2Proof Sys2Proof.Machine

/-- Settles O38: clause by clause, from what SET, a firing and the commands on the Time Unit's own state leave. -/
theorem timeIsSetAndComparatorsFire : Obligations.TimeIsSetAndComparatorsFire := by
  unfold Obligations.TimeIsSetAndComparatorsFire
  refine ⟨?absolute, ?relative, ?leap, ?noLeap, ?reload, ?noReload, ?dip, ?cycles, ?sched, ?txts, ?afe, ?periodic, ?single, ?ahead,
    ?fall, ?rise, ?low, ?down⟩
  case absolute =>
    intro s
    refine ⟨_, execTaiSet_eq s false, ?_, taiValid_setDone .., qual_setEnd .., first_setEnd _ _, isF_rel_setDone .., num_setDone_cnt ..⟩
    rw [tai_setDone, setBy_withRel, if_neg Bool.false_ne_true, add_sub_cancel, Int.toNat_natCast]
  case relative =>
    intro s
    refine ⟨_, execTaiSet_eq s true, ?_, taiValid_setDone .., isF_rel_setDone .., num_setDone_cnt ..⟩
    rw [tai_setDone, setBy_withRel, if_pos rfl]
  case leap =>
    intro s ha hf
    refine ⟨_, if_pos ⟨ha, hf⟩, ?_, ?_, State.isF_raiseF _ _ Fld.TU_INT_STAT_LEAP, rfl⟩
    · rw [State.getF_of_raw (State.raw_raiseF_ne _ _ (by decide)), State.getF_of_raw (State.raw_wrN_ne _ _ (by decide)),
        State.getF_setF _ _ Fld.TU_UTC_CUR]
      exact Nat.mod_eq_of_lt (fget_lt Fld.TU_UTC_NEXT _)
    · rw [State.num_of_raw (State.raw_raiseF_ne _ _ (by decide)), State.num_wrN _ _ (by decide)]
  case noLeap => exact fun s h => ⟨_, if_neg fun hn => hn.1 h, rfl⟩
  case reload =>
    intro s hv ht
    exact ⟨_, congrArg ok (if_pos ⟨hv, ht⟩), rfl, rfl⟩
  case noReload =>
    intro s hv
    exact ⟨_, rfl, if_neg (by simp [hv])⟩
  case dip => exact fun s => ⟨_, rfl, rfl, rfl, rfl⟩
  case cycles => exact fun s h => ⟨_, congrArg ok (if_pos h), rfl, rfl⟩
  case sched => exact fun s => ⟨_, rfl, rfl, rfl, rfl, rfl⟩
  case txts =>
    intro u a b r s hu hq
    refine ⟨_, rfl, ?_⟩
    interval_cases u
    · have hq : s.time.txtsA = (a, b) :: r := hq
      simp [State.txts, State.txtsPop, hq]
    · have hq : s.time.txtsB = (a, b) :: r := hq
      simp [State.txts, State.txtsPop, hq]
  case afe =>
    intro port tx rx s hp ht hr
    refine ⟨_, rfl, ?_, fun p hne => ?_⟩
    · simp only [State.afeStore, State.tuMod_time, tget_tset, Nat.mod_eq_of_lt hp, Nat.mod_eq_of_lt ht, Nat.mod_eq_of_lt hr, if_true]
    · simp only [State.afeStore, State.tuMod_time, tget_tset, Nat.mod_eq_of_lt hp, hne, if_false, State.setF_time]
  case periodic => exact fun k s hk he hf hp => execCmpFire_periodic s hk he hf hp
  case single => exact fun k s hk he hf hp => execCmpFire_single s hk he hf hp
  case ahead => exact fun k s _ hf => ⟨_, if_neg fun h => by simp [hf] at h, rfl⟩
  case fall =>
    intro b s hb
    refine ⟨_, rfl, ?_⟩
    interval_cases b
    · exact ⟨rfl, rfl⟩
    · exact ⟨rfl, rfl⟩
  case rise =>
    intro s he hv hl
    exact ⟨_, if_pos (by simp [he, hv, hl]), rfl, rfl⟩
  case low => exact fun s hv => ⟨_, if_neg (by simp [hv]), rfl⟩
  case down => exact fun s => ⟨_, rfl, rfl, rfl⟩

end

/-! # Messages on the pair link (R488, R489) -/

section

namespace Sys2Proof.Machine

/-- What a CONFIRM taken in order leaves confirmed: the eight bytes of its BODY, a byte past the BODY's end counting as 0. -/
theorem confirmed_of_confirm {b : Bytes} {s t : State} (hp : 1 ≤ s.pairState) (hg : s.noGrant 9 3 = false)
    (hl : b.length = 20 + u16 b 2) (hc : u32 b (16 + u16 b 2) = crc32c (b.take (16 + u16 b 2))) (h7 : u8 b 0 = 7)
    (hq : un b 8 8 = s.pair.rxSeq + 1) (ht : execPairMessageReceive b s = .next t) :
    t.pair.confirmed = max s.pair.confirmed (un (slice b 16 (u16 b 2)) 0 8) := by
  have taken : ¬ (s.pairState = 0 ∨ s.noGrant 9 3 ∨ b.length ≠ 20 + u16 b 2 ∨ u32 b (16 + u16 b 2) ≠ crc32c (b.take (16 + u16 b 2))) := by
    simp [Nat.one_le_iff_ne_zero.mp hp, hg, hl, ← hc]
  rw [execPairMessageReceive, if_neg taken] at ht
  simp only [h7, hq, Nat.reduceEqDiff, decide_false, Bool.false_and, Bool.not_false, Bool.true_and, if_false, ne_eq, not_true_eq_false,
    Nat.not_succ_le_self, Bool.false_eq_true] at ht
  obtain rfl := Host.Outcome.next.inj ht
  rfl

/-- A CONFIRM under MSEQ 1 without a BODY, in epoch 0: the header, then the check. -/
def bareConfirm : Bytes := [7, 0, 0, 0, 0, 0, 0, 0, 1, 0, 0, 0, 0, 0, 0, 0, 213, 43, 176, 222]

theorem check_bareConfirm : u32 bareConfirm (16 + u16 bareConfirm 2) = crc32c (bareConfirm.take (16 + u16 bareConfirm 2)) := by
  have range8 : List.range 8 = [0, 1, 2, 3, 4, 5, 6, 7] := rfl
  simp [bareConfirm, u32, u16, u8, crc32c, crcLo, crcByteLo, crcStepLo, range8]

/-- The CONFIRM covers nothing, but its check stands where a BODY would. -/
theorem body_bareConfirm : un (slice bareConfirm 16 (u16 bareConfirm 2)) 0 8 = 0 ∧ un bareConfirm 16 8 = 3736087509 := ⟨rfl, rfl⟩

/-- After reset, a pair in START. -/
def startedPair : State := State.reset.setF Reg.SMP_PAIR_STAT Fld.SMP_PAIR_STAT_STATE 1

theorem pairState_startedPair : startedPair.pairState = 1 := State.getF_setF _ _ Fld.SMP_PAIR_STAT_STATE 1

theorem noGrant_startedPair : startedPair.noGrant 9 3 = false := by decide

end Sys2Proof.Machine

open Sys2Proof Sys2Proof.Machine

/-- Refutes O57: a CONFIRM without a BODY confirms nothing, but the clause on CONFIRM reads the MSEQ that it covers from bytes 16 to 23
whatever the BODY's length, and there stands the message's check. -/
theorem not_pairDevicesHandOver : ¬ Obligations.PairDevicesHandOver := by
  unfold Obligations.PairDevicesHandOver
  rintro ⟨-, -, -, -, -, -, -, -, -, -, -, -, -, -, -, -, hconfirm, -⟩
  have hp : 1 ≤ startedPair.pairState := pairState_startedPair.ge
  obtain ⟨t, ht, -, claimed, -⟩ := hconfirm bareConfirm startedPair hp noGrant_startedPair rfl check_bareConfirm rfl rfl
  have modelled := confirmed_of_confirm hp noGrant_startedPair rfl check_bareConfirm rfl rfl ht
  obtain ⟨hbody, hpast⟩ := body_bareConfirm
  rw [claimed, hbody, hpast] at modelled
  exact absurd modelled (by decide)

end

/-! # Governor and ticks; errors, pace and ring entries that the statements leave out (01_fabric.md) -/

section

-- Proofs are elaborated in turn: every thread that waits for another takes its stack from the memory a compile may use.
set_option Elab.async false

namespace Sys2Proof.Machine

/-! ## The governor's requests (R37, R40) -/

section Governor

variable {s : State}

theorem govClamp_within {v : Nat} (h : s.govClamp v ≠ s.vset) : s.vmin ≤ s.govClamp v ∧ s.govClamp v ≤ s.vmax := by
  unfold State.govClamp at h ⊢
  split at h
  · next hlim =>
    rw [if_pos hlim]
    omega
  · exact absurd rfl h

/-- A step of R37 ends within the limits: only the clamp moves VSET. -/
theorem govNext_within (h : s.govNext ≠ s.vset) : s.vmin ≤ s.govNext ∧ s.govNext ≤ s.vmax := by
  unfold State.govNext at h ⊢
  dsimp only at h ⊢
  split_ifs at h ⊢ with hold up down
  · exact absurd rfl h
  · exact govClamp_within h
  · exact govClamp_within h
  · exact absurd rfl h

theorem out_modeCheck (s : State) (v : Option Nat) : (s.modeCheck v).out = s.out :=
  (Keeps.modeCheck (.refl [.fab, .smp, .win 0, .win 4] s)).only .out (by decide)

theorem out_pmbusFail (s : State) : s.pmbusFail.out = s.out :=
  (Keeps.pmbusFail (.refl [.smp, .win 0, .win 4] s)).only .out (by decide)

/-- VOUT_COMMAND for the voltage that R37 gives. -/
abbrev State.govCommand (s : State) : Out :=
  .pmbus (s.getF Reg.CHIP_GOV_PMB Fld.CHIP_GOV_PMB_ADDR) (s.getF Reg.CHIP_GOV_PMB Fld.CHIP_GOV_PMB_PAGE) 0x21 (s.voutCmd s.govNext)

/-- The end of a period sends a command for a new voltage, or nothing. -/
theorem out_execGovernorPeriodEnd {ack : Option Nat} {t : State} (h : execGovernorPeriodEnd ack s = .next t) :
    t.out = s.out ∨ s.govNext ≠ s.vset ∧ t.out = s.out ++ [s.govCommand] := by
  unfold execGovernorPeriodEnd at h
  dsimp only at h
  split at h
  · cases h
    exact .inl rfl
  · split at h
    · split at h
      · cases h
        exact .inl (out_modeCheck _ _)
      · split at h
        · cases h
          exact .inl rfl
        · next moves =>
          split at h
          · cases h
            exact .inl (out_pmbusFail _)
          · refine .inr ⟨moves, ?_⟩
            split at h
            · cases h
              rfl
            · cases h
              exact out_pmbusFail _
    · cases h
      exact .inl rfl

end Governor

/-! ## A tick of time (R43, R349; log entries 1 and 164) -/

section Tick

variable (s : State)

/-- What a tick touches once both clocks have advanced. -/
abbrev afterClocks : List Part := [.fab, .ports, .ink, .intr, .ladder, .out, .win 6, .win 11]

/-- Out of reset a tick advances both clocks and goes on without the Time Unit. -/
theorem tick_keeps (h : s.pins.reset = false) : Keeps afterClocks (s.aoTick.clockTick s.clockSteps) s.tick := by
  unfold State.tick
  simp only [h, Bool.false_eq_true, if_false]
  exact .msixAll (.when' (.when' (.isolateEnd (.holdTick (.refl _ _))) _ fun _ k => .ladderTick k) _ fun _ k => .forget (.rateTick k))

theorem pending_tick : s.tick.pending = s.pending :=
  (Keeps.tick (.refl Part.rest s)).only .pending (by decide)

theorem time_tick (h : s.pins.reset = false) : s.tick.time = (s.clockTick s.clockSteps).time := by
  have ao : s.aoTick.time = s.time := (Keeps.aoTick (.refl [.ao] s)).only .time (by decide)
  rw [(tick_keeps s h).only .time (by decide)]
  simp only [State.clockTick, State.tuMod_time, ao]

/-- An edge counts for no period, one or two. -/
theorem rtcTrim_le : s.rtcTrim.2 ≤ 2 := by
  unfold State.rtcTrim
  dsimp only
  split_ifs <;> simp

theorem clockSteps_running (h : s.tbLost = false) : s.clockSteps = 1 := by simp [State.clockSteps, h]

theorem clockSteps_lost (h : s.tbLost = true) : s.clockSteps = 32 * (if s.rtcEdge then s.rtcTrim.2 else 0) := by
  simp only [State.clockSteps, h, if_true, mul_ite, mul_zero]

end Tick

/-! ## Errors and pace of a region that the ladder resets (R22, R35, R482) -/

/-- Region 7 in step 1 of the ladder, with block 0 pricked and quarantined. -/
def resettingFieldCores : State :=
  { State.reset with ladder := { region := 7 }, fab := { built := [(blockPath 7 0, { kind := 1 })] } }.raiseBit (Reg.CHIP_QUAR 7) 0

/-- A region that the ladder resets has no window. -/
theorem execPaceWindowEnd_of_reset {s : State} {r : Nat} (count ref : Nat) (h : s.ladder.region = r) :
    execPaceWindowEnd r count ref s = ok s := by
  unfold execPaceWindowEnd
  exact if_neg fun ⟨_, _, _, hr⟩ => hr h

/-- Quarantine is entered once: the handshake error of a block that is in it raises no flag of its region. -/
theorem errStat_resettingFieldCores : bit ((resettingFieldCores.errNever 0x7000).raw Reg.CHIP_ERR_STAT) 7 = false := by decide

/-! ## The firmware ring's last entry (R215, R220) -/

/-- An entry of the firmware's own. -/
def firmwareItem : FwItem := { kind := 0, data := [1, 2, 3] }

/-- A copy of a rejected frame (R215). -/
def rejectedCopy : FwItem := { kind := 6, code := 2 }

/-- The ring of 1,024 entries that stands after reset, with one entry left; an item waits for it, and behind it a copy. -/
def almostFullRing : State :=
  (State.reset.inkMod (fun i => { i with fwq := [firmwareItem, rejectedCopy] })).setF Reg.INK_FW_HEAD Fld.INK_FW_HEAD_PROD 1023

/-- The item fills the ring, and a full ring drops the copy. -/
theorem fwRingWrite_almostFullRing :
    (almostFullRing.did execFwRingWrite).fwFull = true ∧ (almostFullRing.did execFwRingWrite).ink.fwq = [] := by decide

end Sys2Proof.Machine

open Sys2Proof Sys2Proof.Machine

/-- Settles O11: a command goes out for a new voltage only, and a new voltage comes from the clamp to both pairs of limits. -/
theorem governorRequestsStayWithinLimits : Obligations.GovernorRequestsStayWithinLimits := by
  unfold Obligations.GovernorRequestsStayWithinLimits
  intro ack s t h
  obtain same | ⟨moves, sent⟩ := out_execGovernorPeriodEnd h
  · exact .inl same
  · obtain ⟨lo, hi⟩ := govNext_within moves
    unfold State.vmin at lo
    unfold State.vmax at hi
    exact .inr ⟨_, _, _, sent, by omega, by omega, by omega, by omega⟩

/-- Settles O2: both clocks advance by the tick's steps, one with the time base and 32 for each counted period without it. -/
theorem emptyQueueTicks : Obligations.EmptyQueueTicks := by
  unfold Obligations.EmptyQueueTicks
  intro s empty running
  refine ⟨s.tick, by simp [step, empty], (pending_tick s).trans empty, fun base => ?_, fun lost => ?_⟩
  · rw [time_tick s running, clockSteps_running s base]
    exact ⟨rfl, by simp [State.clockTick]⟩
  · rw [time_tick s running, clockSteps_lost s lost]
    refine ⟨if s.rtcEdge then s.rtcTrim.2 else 0, ?_, fun edge => if_neg (by simp [edge]), rfl, rfl⟩
    split
    · exact rtcTrim_le s
    · exact Nat.zero_le 2

/-- Refutes O16: a block that is quarantined already may err while its region is reset, and is not quarantined again, so that no flag
of CHIP_ERR_STAT comes up. -/
theorem not_cellErrorsAreCountedOrLatched : ¬ Obligations.CellErrorsAreCountedOrLatched := by
  unfold Obligations.CellErrorsAreCountedOrLatched
  rintro ⟨-, -, -, -, quarantined, -⟩
  obtain ⟨t, ht, -, -, flag⟩ := quarantined 0x7000 resettingFieldCores (by decide) (by decide) (by decide) (by decide) (by decide)
    (by decide) (by decide)
  cases (show ok (resettingFieldCores.errNever 0x7000) = .next t from ht)
  rw [show 0x7000 / 0x1000 = 7 from rfl, errStat_resettingFieldCores] at flag
  exact Bool.false_ne_true flag

/-- Refutes O17: while the ladder resets region 7 no window of it ends, so that its pace stays 0, whatever was counted. -/
theorem not_paceGovernorAndClocksWork : ¬ Obligations.PaceGovernorAndClocksWork := by
  unfold Obligations.PaceGovernorAndClocksWork
  rintro ⟨window, -⟩
  obtain ⟨t, ht, quotient, -⟩ := window 7 1 1 resettingFieldCores (by decide) (by decide) (by decide) (by decide)
  cases (execPaceWindowEnd_of_reset 1 1 (r := 7) rfl).symm.trans ht
  exact absurd quotient (by decide)

/-- Refutes O28: a write that takes the ring's last entry drops the copies of rejected frames that wait behind its item, so that
fewer items are left than the clause on FW_RING_WRITE says. -/
theorem not_lanesCheckFramesAndCommit : ¬ Obligations.LanesCheckFramesAndCommit := by
  unfold Obligations.LanesCheckFramesAndCommit
  rintro ⟨written, -⟩
  obtain ⟨t, ht, -, -, left⟩ := written firmwareItem [rejectedCopy] almostFullRing rfl (by decide) rfl (by decide)
  have after : almostFullRing.did execFwRingWrite = t := by
    unfold State.did
    rw [show execFwRingWrite almostFullRing = .next t from ht]
  obtain ⟨-, dropped⟩ := fwRingWrite_almostFullRing
  rw [after] at dropped
  rw [dropped] at left
  exact absurd left (by decide)

end

/-! # Structure readback after a failed re-pricking (R64, R74) -/

section

namespace Sys2Proof.Machine

/-- A run of writes to other registers leaves a register as it was. -/
theorem State.raw_each {α : Type} {k : Nat} {f : α → State → State} (hf : ∀ a u, (f a u).raw k = u.raw k) (s : State) (l : List α) :
    (s.each l f).raw k = s.raw k := by
  induction l generalizing s with
  | nil => rfl
  | cons a l ih => exact (ih (f a s)).trans (hf a s)

/-- A readback shows the structure ID that stands in the cells (R74); a hash left open by cells written in part does not touch it. -/
theorem structId_readbackDone {s : State} {p : Nat} (h : s.fab.readback = some p) :
    Runs .readbackDone s (fun t => t.num Reg.UPD_PRK_RB_ID = (s.cellsAt (p / 64 * 64 + 63)).1.structId % 2 ^ 32) := by
  have hashes (b : Built) (k : Nat) (u : State) :
      (u.wrN (Reg.UPD_PRK_RB_HASH k) (u32 b.hash (4 * k))).raw Reg.UPD_PRK_RB_ID = u.raw Reg.UPD_PRK_RB_ID :=
    u.raw_wrN_ne _ (show 0x0B0834 ≠ 0x0B0840 + 4 * (k % 8) by omega)
  refine ⟨s.did execReadbackDone, ?_, ?_⟩
  · show execReadbackDone s = _
    simp only [State.did, execReadbackDone, h]
  · simp only [State.did, execReadbackDone, h, ok, State.num, State.raw_each (hashes _)]
    rw [State.raw_wrN_ne _ _ (by decide), State.raw_wrN_ne _ _ (by decide), State.raw_wrN_same]
    split <;> exact BitVec.toNat_ofNat ..

/-- Block 0 of region 7 holds structure 1, has been re-pricked with structure 2, and is in its self-test. -/
def selfTestingBlock : State :=
  { State.reset with
    fab := {
      built := [(blockPath 7 0, { kind := 2, structId := 1 })]
      job := some { op := 1, region := 7, block := 0, built := { kind := 2, structId := 2 } } } }.setPrk 5

/-- Its self-test fails, and a readback of it begins. -/
def readFailedBlock : State :=
  (selfTestingBlock.did (execLoaderSelfTestDone true)).did (execReadbackStart (blockPath 7 0))

theorem readback_readFailedBlock : readFailedBlock.fab.readback = some (blockPath 7 0) := by decide

/-- The structure in service before stays the block's, and what was written stays in its cells. -/
theorem structIds_readFailedBlock : (readFailedBlock.builtAt (blockPath 7 0)).structId = 1 ∧
    (readFailedBlock.cellsAt (blockPath 7 0)).1.structId = 2 := by decide

end Sys2Proof.Machine

open Sys2Proof Sys2Proof.Machine

/-- Refutes O18: the clause on READBACK_DONE has the registers show what the block held in service, but after a re-pricking that failed
its self-test the cells hold what was written, and R74 reads the cells. -/
theorem not_loaderOperationsRun : ¬ Obligations.LoaderOperationsRun := by
  unfold Obligations.LoaderOperationsRun
  rintro ⟨-, -, -, -, -, -, -, -, -, -, -, -, -, -, -, readbackDone⟩
  obtain ⟨t, ht, -, -, claimed, -⟩ := readbackDone _ _ readback_readFailedBlock
  obtain ⟨u, hu, shown⟩ := structId_readbackDone readback_readFailedBlock
  obtain rfl := Host.Outcome.next.inj (ht.symm.trans hu)
  obtain ⟨inService, inCells⟩ := structIds_readFailedBlock
  have paths : blockPath 7 0 / 64 * 64 + 63 = blockPath 7 0 := rfl
  rw [claimed, paths, inService, inCells] at shown
  exact absurd shown (by decide)

end

/-! # Line ports: deadlines, lanes, and the two commands that end where a queue's pointers differ (R83, R97–R107, R134, R179) -/

section

-- Proofs are elaborated in turn: every thread that waits for another takes its stack from the memory a compile may use.
set_option Elab.async false

namespace Sys2Proof.Machine

/-! ## A port and its registers after updates elsewhere -/

theorem Keeps.port_eq {L : List Part} {s t : State} (h : Keeps L s t) (n : Nat) (hL : Part.ports ∉ L := by decide) : t.port n = s.port n :=
  State.port_congr (h.only .ports hL) n

section Port

variable (s : State) (n m k : Nat)

@[simp] theorem State.port_setF (f : BitRange) (v : Nat) : (s.setF k f v).port n = s.port n := State.port_congr rfl _

@[simp] theorem State.port_raiseF (f : BitRange) : (s.raiseF k f).port n = s.port n := State.port_congr rfl _

@[simp] theorem State.port_bumpN (a : Nat) : (s.bumpN k a).port n = s.port n := State.port_congr rfl _

@[simp] theorem State.port_bump : (s.bump k).port n = s.port n := State.port_congr rfl _

@[simp] theorem State.port_emit (o : Out) : (s.emit o).port n = s.port n := State.port_congr rfl _

@[simp] theorem State.port_laneErr (l : List Nat) : (s.laneErr n l).port m = s.port m := State.port_congr rfl _

@[simp] theorem State.port_lnEmit (i lag : Nat) (xs : List Int) : (s.lnEmit n i xs lag).port m = s.port m := State.port_congr rfl _

@[simp] theorem State.port_report (code sev path : Nat) (data : Bytes) : (s.report code sev path data).port n = s.port n :=
  ((Keeps.refl [.smp, .win 4] s).report code sev path data).port_eq n

@[simp] theorem State.port_shortfall : (s.shortfall n).port m = s.port m :=
  (Keeps.shortfall (.refl [.fab, .smp, .win 4, .win 16] s)).port_eq m

@[simp] theorem State.port_lnMod (f : LineState → LineState) : (s.lnMod n f).port n = { s.port n with line := f (s.ln n) } := by
  simp [State.lnMod, State.ln]

@[simp] theorem State.raw_portMod (f : PortState → PortState) : (s.portMod n f).raw k = s.raw k := rfl

@[simp] theorem State.raw_lnMod (f : LineState → LineState) : (s.lnMod n f).raw k = s.raw k := rfl

@[simp] theorem State.raw_emit (o : Out) : (s.emit o).raw k = s.raw k := rfl

theorem State.isF_setF_zero (f : BitRange) (h : f.hi < 32 := by decide) (hl : f.lo ≤ f.hi := by decide) :
    (s.setF k f 0).isF k f = false := by
  simp [State.isF, State.getF_setF s k f 0 h hl]

/-- The registers of ports lie outside the Sampler's window. -/
theorem State.raw_report_port {k : Nat} (hk : 0x100000 ≤ k) (code sev path : Nat) (data : Bytes) :
    (s.report code sev path data).raw k = s.raw k :=
  ((Keeps.refl [.smp, .win 4] s).report code sev path data).only (.win 16) (by decide) k (by unfold window; omega)

end Port

/-! ## Reports of an operation (R470) -/

/-- What an operation reports is stamped as at its start, when the clocks of the report and the Sampler stay as they are. -/
theorem Keeps.fifo_report {L : List Part} {s u : State} (h : Keeps L s u) (code sev path : Nat) (data : Bytes)
    (room : s.smp.fifo.length < 256) (hs : Part.smp ∉ L := by decide) (ha : Part.ao ∉ L := by decide) (hw : Part.win 4 ∉ L := by decide) :
    (u.report code sev path data).smp.fifo = s.smp.fifo ++ [s.entry code sev path data] := by
  have smp : u.smp = s.smp := h.only .smp hs
  have ao : u.ao = s.ao := h.only .ao ha
  have stat : u.raw Reg.SMP_STAT = s.raw Reg.SMP_STAT := h.raw_eq _ hw
  rw [State.fifo_report u code sev path data (by rwa [smp]), smp]
  simp only [State.entry, ao, State.isF_of_raw stat]

/-- A port's path is that of the block that carries it, which PORT_PERSONA tells. -/
theorem State.portPath_of_raw {s t : State} {n : Nat} (h : t.raw (Reg.PORT_PERSONA n) = s.raw (Reg.PORT_PERSONA n)) :
    t.portPath n = s.portPath n := by
  simp only [State.portPath, State.portBlk, State.isF_of_raw h]

/-! ## Pace shortfalls (R107) -/

section Shortfall

variable (s : State) (n : Nat)

/-- A shortfall raises one flag among the registers of ports. -/
theorem State.raw_shortfall {k : Nat} (hk : 0x100000 ≤ k) (hi : k ≠ Reg.PORT_INT_STAT n) : (s.shortfall n).raw k = s.raw k :=
  (State.raw_report_port _ hk _ _ _ _).trans (State.raw_raiseF_ne _ _ hi)

theorem State.fab_shortfall : (s.shortfall n).fab.shortfall = true :=
  congrArg FabState.shortfall (((Keeps.refl [.smp, .win 4] _).report _ _ _ _).only .fab (by decide))

/-- The shortfall of an operation is recorded for the block that carries the port. -/
theorem Keeps.fifo_shortfall {s u : State} {n : Nat} (h : Keeps [.ports, .win 16] s u)
    (hp : u.raw (Reg.PORT_PERSONA n) = s.raw (Reg.PORT_PERSONA n)) (room : s.smp.fifo.length < 256) :
    Logged s (u.shortfall n) (portRegion n * 0x1000 + 0x100) 2 (s.portPath n) [n] := by
  have flagged : Keeps [.fab, .ports, .win 16] s
      ({ u with fab := { u.fab with shortfall := true } }.raiseF (Reg.PORT_INT_STAT n) Fld.PORT_INT_STAT_SHORTFALL) :=
    Keeps.raiseF (.f_fab (.mono h (by decide))) _ _ (Part.win_port (by decide))
  rw [← State.portPath_of_raw hp]
  exact flagged.fifo_report _ _ _ _ room

end Shortfall

/-! ## Keys of a port's registers (R10, R136, R171) -/

theorem portBase_ne_lnBase {n o p : Nat} (ho : o < 0x1000 := by decide) : Reg.portBase n + o ≠ Reg.lnBase n + p := by
  unfold Reg.portBase Reg.lnBase; omega

theorem portBase_ne_airBase {n o p : Nat} (ho : o < 0x1000 := by decide) : Reg.portBase n + o ≠ Reg.airBase n + p := by
  unfold Reg.portBase Reg.airBase; omega

theorem le_portBase (n o : Nat) : 0x100000 ≤ Reg.portBase n + o := by unfold Reg.portBase; omega

theorem le_lnBase (n o : Nat) : 0x100000 ≤ Reg.lnBase n + o := by unfold Reg.lnBase; omega

/-! ## Symbols (R93, R97) -/

section Symbol

variable (r : LineRx) (q nsym : Nat)

/-- Soft values that are stored end a symbol. -/
theorem LineRx.sym_push (ilv : Nat) (l : List (Int × Bool)) : (r.push nsym ilv q l).sym = r.sym + 1 := by
  unfold LineRx.push
  dsimp only
  split <;> rfl

theorem LineRx.sym_erase (ref : Carriers) : (r.erase q nsym ref).sym = r.sym + 1 := by
  unfold LineRx.erase
  split
  · rfl
  · exact LineRx.sym_push ..

theorem LineRx.prevErased_erase (ref : Carriers) : (r.erase q nsym ref).prevErased = true := by
  unfold LineRx.erase
  split <;> rfl

theorem State.rx_lnErase (s : State) (n : Nat) (ref : Carriers) :
    ((s.lnErase n ref).ln n).rx.sym = (s.ln n).rx.sym + 1 ∧ ((s.lnErase n ref).ln n).rx.prevErased = true := by
  simp [State.lnErase, State.ln, LineRx.sym_erase, LineRx.prevErased_erase]

theorem State.raw_lnErase (s : State) {n k : Nat} (ref : Carriers) (hk : k ≠ Reg.PORT_LN_SYM_ERASED_CNT n) :
    (s.lnErase n ref).raw k = s.raw k :=
  State.raw_bump_ne _ hk

end Symbol

/-! ## TX_EN and align bursts (R103, R104) -/

section Burst

variable (s : State) (n : Nat)

/-- An align burst goes out at most, and it is owed no more. -/
theorem State.port_alignBurst : (s.alignBurst n).port n = { s.port n with burst := ((s.alignBurst n).port n).burst } := by
  unfold State.alignBurst
  split
  · rw [State.port_emit, State.port_portMod_same]
  · rfl

@[simp] theorem State.raw_alignBurst (k : Nat) : (s.alignBurst n).raw k = s.raw k := by
  unfold State.alignBurst
  split <;> rfl

@[simp] theorem State.smp_alignBurst : (s.alignBurst n).smp = s.smp :=
  (Keeps.alignBurst (.refl [.ports, .out] s)).only .smp (by decide)

/-- TX_EN is low after a transmission, nothing is on the wire, and the receive path is deaf for RX_HOLDOFF; the queues stay. -/
theorem State.port_lnFall (x : LineTx) (i : Nat) (xs : List Int) :
    (s.lnFall n x i xs).port n = { s.port n with
      txen := false, burst := ((s.lnFall n x i xs).port n).burst
      line := { s.ln n with tx := none, slot := 0, deaf := some (s.now, usTicks x.holdoff), idleAt := some s.now } } := by
  unfold State.lnFall
  simp only [State.port_lnMod, State.ln]
  rw [State.port_alignBurst]
  simp only [State.txOff, State.port_setF, State.port_portMod_same, State.port_lnEmit]

theorem State.isF_lnFall_txActive (x : LineTx) (i : Nat) (xs : List Int) :
    (s.lnFall n x i xs).isF (Reg.PORT_STAT n) Fld.PORT_STAT_TX_ACTIVE = false := by
  rw [State.isF_of_raw (t := s.lnFall n x i xs) (s := (s.lnEmit n i xs x.lag).txOff n) (by simp [State.lnFall])]
  exact State.isF_setF_zero _ _ _

end Burst

/-! ## Transmit queues whose pointer copies differ (R134, R179) -/

section Queue

variable (s : State) (n : Nat)

/-- A packet whose outcome is known leaves its queue, and no other does. -/
theorem State.txq_txDone (id code : Nat) :
    ((s.txDone n id code).port n).txq = (s.port n).txq.filter (fun x => decide (x.id ≠ id)) := by
  unfold State.txDone
  split
  next none =>
    refine (List.filter_eq_self.mpr fun x hx => ?_).symm
    simpa using List.find?_eq_none.mp none x hx
  next k _ =>
    dsimp only
    cases k.desc
    · simp
    · rw [(Keeps.descDone (.refl [.dram, .win 16] _)).port_eq n]
      simp

theorem State.txq_each_txDone (code : Nat) (ids : List Nat) :
    ((s.each ids (fun id u => u.txDone n id code)).port n).txq = (s.port n).txq.filter (fun x => decide (x.id ∉ ids)) := by
  induction ids generalizing s with
  | nil => simp [State.each]
  | cons id ids ih =>
    refine (ih (s.txDone n id code)).trans ?_
    rw [State.txq_txDone, List.filter_filter]
    exact List.filter_congr fun x _ => by simp [Bool.and_comm]

theorem State.txq_txClear (code : Nat) : ((s.txClear n code).port n).txq = [] := by
  unfold State.txClear
  dsimp only
  rw [State.port_setF, State.port_portMod_same]
  refine (State.txq_each_txDone _ n code _).trans (List.filter_eq_nil_iff.mpr fun x hx => ?_)
  simpa using ⟨x, hx, rfl⟩

/-- The copies of the transmit queue's pointers differ, and no mismatch was found in the last second. -/
def State.firstMismatch : Prop := (s.port n).txPtr.same = false ∧ (s.port n).lastMis = none

variable {s n}

/-- The first mismatch in a transmit queue completes every packet of it, whatever its outcome was to be. -/
theorem State.firstMismatch.txq_txEnd (h : s.firstMismatch n) (id code : Nat) : ((s.txEnd n id code).port n).txq = [] := by
  obtain ⟨differ, first⟩ := h
  have cleared : ((s.ptrFault n true).port n).txq = [] := by
    unfold State.ptrFault
    simp only [first, if_true]
    rw [State.when_false, State.port_portMod_same]
    dsimp only
    rw [State.port_report, State.port_raiseF, State.txq_txClear]
  have found : s.ptrCheck n true = s.ptrFault n true := if_neg fun same => Bool.false_ne_true (differ.symm.trans same)
  rw [State.txEnd, State.txq_txDone, found, cleared, List.filter_nil]

theorem State.firstMismatch.lnMod (h : s.firstMismatch n) (f : LineState → LineState) : (s.lnMod n f).firstMismatch n := by
  rwa [State.firstMismatch, State.port_lnMod]

theorem State.firstMismatch.lnFall (h : s.firstMismatch n) (x : LineTx) (i : Nat) (xs : List Int) :
    (s.lnFall n x i xs).firstMismatch n := by
  rwa [State.firstMismatch, State.port_lnFall]

theorem State.firstMismatch.ltSent (h : s.firstMismatch n) (a : Nat) : (s.ltSent n a).firstMismatch n := by
  rwa [State.firstMismatch, (Keeps.ltSent (.refl [.dram] s)).port_eq n]

/-- A packet that is complete with its last segment takes the other packets with it when the pointers are found to differ. -/
theorem State.firstMismatch.txq_lnSegDone (h : s.firstMismatch n) {j : LineJob} (last : j.segs.length ≤ j.seg + 1) (code : Nat) :
    ((s.lnSegDone n j code).port n).txq = [] := by
  have whole : ¬ j.seg + 1 < j.segs.length := by omega
  rw [State.lnSegDone, if_neg whole, State.lnDone, State.when]
  split
  · rw [State.port_bump]
    exact (h.lnMod _).txq_txEnd _ _
  · exact (h.lnMod _).txq_txEnd _ _

end Queue

/-! ## Missed deadlines (R105, R106) -/

theorem runs_lineRxDeadlineMiss {port : Nat} {s : State} (due : s.lnSymDue port = true) (room : s.smp.fifo.length < 256) :
    Runs (.lineRxDeadlineMiss port) s (fun t => (t.ln port).rx.sym = (s.ln port).rx.sym + 1 ∧ (t.ln port).rx.prevErased = true ∧
      t.num (Reg.PORT_LN_PACE_SHORT_CNT port) = min (s.num (Reg.PORT_LN_PACE_SHORT_CNT port) + 1) 0xFFFFFFFF ∧ t.fab.shortfall = true ∧
      Logged s t (portRegion port * 0x1000 + 0x100) 2 (s.portPath port) [port]) := by
  let u := (s.lnErase port []).bump (Reg.PORT_LN_PACE_SHORT_CNT port)
  have rx : (u.shortfall port).ln port = (s.lnErase port []).ln port := by
    rw [State.ln, State.port_shortfall, State.port_bump, State.ln]
  obtain ⟨sym, erased⟩ := s.rx_lnErase port []
  have kept : Keeps [.ports, .win 16] s u := .bump (.lnErase (.refl _ s)) _ (Part.win_port (by decide))
  have persona : u.raw (Reg.PORT_PERSONA port) = s.raw (Reg.PORT_PERSONA port) := by
    rw [State.raw_bump_ne _ portBase_ne_lnBase, State.raw_lnErase _ _ portBase_ne_lnBase]
  have count : s.num (Reg.PORT_LN_PACE_SHORT_CNT port) = (s.lnErase port []).num (Reg.PORT_LN_PACE_SHORT_CNT port) :=
    (State.num_of_raw (State.raw_lnErase s [] (by simp))).symm
  refine ⟨u.shortfall port, ?_, ?_, ?_, ?_, State.fab_shortfall u port, kept.fifo_shortfall persona room⟩
  · show execLineRxDeadlineMiss port s = _
    exact if_pos due
  · rw [rx, sym]
  · rw [rx, erased]
  · rw [State.num_of_raw (State.raw_shortfall u port (le_lnBase ..) (Ne.symm portBase_ne_lnBase)), count]
    exact State.num_bump _ _

/-- A payload symbol that is not ready goes as zeros; symbols of the payload are counted from 4 on. -/
theorem runs_lineTxDeadlineMiss_payload {port sym : Nat} {x : LineTx} {s : State} (payload : 4 ≤ sym) (tx : (s.ln port).tx = some x)
    (room : s.smp.fifo.length < 256) :
    Runs (.lineTxDeadlineMiss port sym) s (fun t =>
      t.num (Reg.PORT_LN_PACE_SHORT_CNT port) = min (s.num (Reg.PORT_LN_PACE_SHORT_CNT port) + 1) 0xFFFFFFFF ∧
      t.fab.shortfall = true ∧ ((t.ln port).tx = some { x with missed := (sym - 4) :: x.missed }) ∧
      Logged s t (portRegion port * 0x1000 + 0x100) 2 (s.portPath port) [port]) := by
  let u := (s.lnMod port (fun l => { l with tx := some { x with missed := (sym - 4) :: x.missed } })).bump (Reg.PORT_LN_PACE_SHORT_CNT port)
  have kept : Keeps [.ports, .win 16] s u := .bump (.lnMod (.refl _ s)) _ (Part.win_port (by decide))
  have persona : u.raw (Reg.PORT_PERSONA port) = s.raw (Reg.PORT_PERSONA port) := State.raw_bump_ne _ portBase_ne_lnBase
  refine ⟨u.shortfall port, ?_, ?_, State.fab_shortfall u port, ?_, kept.fifo_shortfall persona room⟩
  · show execLineTxDeadlineMiss port sym s = _
    simp only [execLineTxDeadlineMiss, tx]
    exact if_neg (by omega)
  · rw [State.num_of_raw (State.raw_shortfall u port (le_lnBase ..) (Ne.symm portBase_ne_lnBase))]
    exact State.num_bump _ _
  · simp [u, State.ln]

/-- A response whose header symbol is not ready ends; a packet's frame comes back as not sent besides. -/
theorem runs_lineTxDeadlineMiss_header {port sym : Nat} {x : LineTx} {s : State} (header : sym < 4) (tx : (s.ln port).tx = some x)
    (response : x.id = none) :
    Runs (.lineTxDeadlineMiss port sym) s (fun t => (t.ln port).tx = none ∧ (t.port port).txen = false ∧
      t.isF (Reg.PORT_STAT port) Fld.PORT_STAT_TX_ACTIVE = false ∧ t.fab.shortfall = true) := by
  let xs := (s.lnWave port x).take (s.lnSamples port x.lead + headSamples (s.lnPlan port) sym) ++
    List.replicate ((s.lnPlan port).n / 8 + (s.lnPlan port).n) 0
  let u := s.lnFall port x 0 xs
  have low : (u.shortfall port).port port = u.port port := State.port_shortfall u port port
  refine ⟨u.shortfall port, ?_, ?_, ?_, ?_, State.fab_shortfall u port⟩
  · show execLineTxDeadlineMiss port sym s = _
    simp only [execLineTxDeadlineMiss, tx, header, if_true, response, Option.bind_none]
    rfl
  · rw [State.ln, low, State.port_lnFall]
  · rw [low, State.port_lnFall]
  · rw [State.isF_of_raw (State.raw_shortfall u port (le_portBase ..) (by simp))]
    exact s.isF_lnFall_txActive port x 0 xs

/-! ## Alignment (R103) -/

/-- The counter of odd control codes is a register of the port's personality. -/
theorem State.raw_laneErr (s : State) (n : Nat) (l : List Nat) {o : Nat} (ho : o < 0x1000) :
    (s.laneErr n l).raw (Reg.portBase n + o) = s.raw (Reg.portBase n + o) := by
  unfold State.laneErr
  split
  · exact State.raw_bumpN_ne _ _ (portBase_ne_lnBase ho)
  · exact State.raw_bumpN_ne _ _ (portBase_ne_airBase ho)

theorem runs_laneAligned {port : Nat} {words : List Nat} {s : State} (user : s.laneUser port = true) (aligned : alignedBy words = true) :
    Runs (.laneAligned (port, words)) s (fun t => t.portLink port = true) := by
  refine ⟨_, if_pos (by rw [user, aligned]; rfl), ?_⟩
  exact (State.isF_of_raw (State.raw_alignBurst ..) _).trans (State.isF_raiseF _ _ _)

section LaneLoss

variable (s : State) (n : Nat) (words : List Nat)

/-- What the registers of a port show once its lane is lost. -/
def State.laneLost : State :=
  (((s.laneErr n words).setF (Reg.PORT_STAT n) Fld.PORT_STAT_LINK 0).raiseF (Reg.PORT_INT_STAT n) Fld.PORT_INT_STAT_LINK_LOSS).bump
    (if s.persona n = 1 then Reg.PORT_LN_LANE_LOSS_CNT n else Reg.PORT_AIR_LANE_LOSS_CNT n)

theorem State.raw_laneLost {o : Nat} (ho : o < 0x1000) : (s.laneLost n words).raw (Reg.portBase n + o) =
    (((s.laneErr n words).setF (Reg.PORT_STAT n) Fld.PORT_STAT_LINK 0).raiseF (Reg.PORT_INT_STAT n) Fld.PORT_INT_STAT_LINK_LOSS).raw
      (Reg.portBase n + o) := by
  unfold State.laneLost
  split
  · exact State.raw_bump_ne _ (portBase_ne_lnBase ho)
  · exact State.raw_bump_ne _ (portBase_ne_airBase ho)

theorem State.portLink_laneLost : (s.laneLost n words).portLink n = false :=
  (State.isF_of_raw ((s.raw_laneLost n words (by decide)).trans (State.raw_raiseF_ne _ _ (by simp))) _).trans (State.isF_setF_zero _ _ _)

theorem State.isF_laneLost : (s.laneLost n words).isF (Reg.PORT_INT_STAT n) Fld.PORT_INT_STAT_LINK_LOSS = true :=
  (State.isF_of_raw (s.raw_laneLost n words (by decide)) _).trans (State.isF_raiseF _ _ _)

theorem Keeps.laneLost : Keeps [.win 16] s (s.laneLost n words) :=
  .bump (.raiseF (.setF (.laneErr (.refl _ s)) _ _ _ (Part.win_port (by decide))) _ _ (Part.win_port (by decide))) _
    (by split <;> exact Part.win_port (by decide))

/-- The loss is reported, and the next align burst goes out as soon as TX_EN is low. -/
def State.laneLostDone : State :=
  (((s.laneLost n words).report (portRegion n * 0x1000 + 0x102) 3 (s.portPath n) [n]).portMod n
    (fun p => { p with burst := true })).alignBurst n

theorem State.raw_laneLostDone (o : Nat) : (s.laneLostDone n words).raw (Reg.portBase n + o) = (s.laneLost n words).raw (Reg.portBase n + o) := by
  unfold State.laneLostDone
  rw [State.raw_alignBurst, State.raw_portMod, State.raw_report_port _ (le_portBase ..)]

theorem runs_laneLoss (user : s.laneUser n = true) (link : s.portLink n = true) (lost : lostBy words = true)
    (room : s.smp.fifo.length < 256) :
    Runs (.laneLoss n words) s (fun t => t.portLink n = false ∧ t.isF (Reg.PORT_INT_STAT n) Fld.PORT_INT_STAT_LINK_LOSS = true ∧
      Logged s t (portRegion n * 0x1000 + 0x102) 3 (s.portPath n) [n]) := by
  refine ⟨s.laneLostDone n words, if_pos (by rw [user, link, lost]; rfl), ?_, ?_, ?_⟩
  · exact (State.isF_of_raw (s.raw_laneLostDone n words _) _).trans (s.portLink_laneLost n words)
  · exact (State.isF_of_raw (s.raw_laneLostDone n words _) _).trans (s.isF_laneLost n words)
  · exact (congrArg SmpState.fifo (State.smp_alignBurst _ n)).trans ((Keeps.laneLost s n words).fifo_report _ _ _ _ room)

end LaneLoss

/-! ## The end of a transmission whose queue has lost its pointers (R102, R134, R179) -/

/-- A frame that asks for no response ends while the copies of its queue's pointers differ: the queue is emptied. -/
theorem runs_lineTxEnd_of_mismatch {port first : Nat} {x : LineTx} {j : LineJob} {s : State} (tx : (s.ln port).tx = some x)
    (noAck : x.ack = false) (job : x.id.bind (s.ln port).job = some j) (last : j.segs.length ≤ j.seg + 1) (h : s.firstMismatch port) :
    Runs (.lineTxEnd port first) s (fun t => (t.port port).txq = []) := by
  let u := (s.lnFall port x first (s.lnWave port x)).lnMod port (fun l => { l with reserved := x.ack, await := if x.ack then x.id else none })
  have complete : execLineTxEnd port first s = ok ((u.ltSent port (pktLink j.prefixBytes j.route)).lnSegDone port j 1) := by
    simp only [execLineTxEnd, tx, job]
    exact if_neg (by rw [noAck]; exact Bool.false_ne_true)
  exact ⟨_, complete, (((h.lnFall _ _ _).lnMod _).ltSent _).txq_lnSegDone last 1⟩

/-- A line port, enabled and with its link up. -/
def linePort5 : State :=
  ((State.reset.setF (Reg.PORT_PERSONA 5) Fld.PORT_PERSONA_PERSONA 1).setF (Reg.PORT_CTL 5) Fld.PORT_CTL_EN 1).setF (Reg.PORT_STAT 5)
    Fld.PORT_STAT_LINK 1

/-- Pointer copies that differ: copy B is not copy A inverted. -/
def splitPtr : QCopies := { b := {} }

/-- The only segment of packet 0 is on the wire and asks for no response; packet 1 waits; the transmit queue's copies differ. -/
def sendingPort : PortState := {
  txq := [{ id := 0, bytes := List.replicate 41 0, taken := true }, { id := 1, bytes := List.replicate 41 0 }]
  nextId := 2, txPtr := splitPtr, txen := true
  line := { tx := some { id := some 0 }, jobs := [{ prefixBytes := List.replicate 40 0, segs := [[0]] }] } }

def sendingAtMismatch : State := linePort5.portMod 5 (fun _ => sendingPort)

theorem port_sendingAtMismatch : sendingAtMismatch.port 5 = sendingPort := State.port_portMod_same ..

theorem ln_sendingAtMismatch : sendingAtMismatch.ln 5 = sendingPort.line := congrArg PortState.line port_sendingAtMismatch

theorem firstMismatch_sendingAtMismatch : sendingAtMismatch.firstMismatch 5 := by
  rw [State.firstMismatch, port_sendingAtMismatch]
  decide

/-! ## A header that fails as the port's block is quarantined (R23, R83, R120, R179) -/

/-- The four header symbols of a frame are in, and spell no acceptable header. The port waits for the response to the last attempt at
packet 0; the transmit queue's copies differ, for the second time within 1 s. -/
def badHeaderAtMismatch : State :=
  linePort5.portMod 5 (fun p => { p with
    txq := [{ id := 0, bytes := [0, 1] ++ List.replicate 39 0, taken := true }]
    nextId := 1, txPtr := splitPtr, lastMis := some 0, mis := true
    line := {
      rx := { phase := 1, sym := 4, head := List.replicate 108 8 }
      jobs := [{ prefixBytes := [0, 1] ++ List.replicate 38 0, segs := [[0]], attempt := 2 }], await := some 0, reserved := true } })

theorem lnHears_badHeaderAtMismatch : badHeaderAtMismatch.lnHears 5 = true := by decide

/-- The header's fields are all 0, and a frame of length 0 is none. -/
theorem lnHdrGood_badHeaderAtMismatch : badHeaderAtMismatch.lnHdrGood 5 (headDecode (List.replicate 108 8)) = false := by decide +kernel

/-- The missing response ends the packet, whose pop finds the mismatch that quarantines the block, and its reception is dropped. -/
theorem phase_badHeaderAtMismatch : ((badHeaderAtMismatch.did (execLineHeaderReceive 5 [])).ln 5).rx.phase = 0 := by decide +kernel

end Sys2Proof.Machine

open Sys2Proof Sys2Proof.Machine

/-- Settles O20, clause by clause, from what a pace shortfall, the fall of TX_EN and the loss of a lane leave. -/
theorem lineDeadlinesAndLanes : Obligations.LineDeadlinesAndLanes := by
  unfold Obligations.LineDeadlinesAndLanes
  exact ⟨fun _ _ => runs_lineRxDeadlineMiss, fun _ _ _ _ => runs_lineTxDeadlineMiss_payload, fun _ _ _ _ => runs_lineTxDeadlineMiss_header,
    fun _ _ _ => runs_laneAligned, fun n words s => runs_laneLoss s n words⟩

/-- Refutes O19: the clause on a header that fails has the medium ignored, but where the packet that waited for its response fails with
it, and the pop of that packet finds the second pointer mismatch within 1 s, the port's block is quarantined and receives nothing. -/
theorem not_lineReceptionFollowsTheFrame : ¬ Obligations.LineReceptionFollowsTheFrame := by
  unfold Obligations.LineReceptionFollowsTheFrame
  rintro ⟨-, -, badHeader, -⟩
  obtain ⟨t, ht, ignored, -⟩ := badHeader 5 _ [] badHeaderAtMismatch (by decide) lnHears_badHeaderAtMismatch (by decide) (by decide) rfl
    lnHdrGood_badHeaderAtMismatch
  have after : badHeaderAtMismatch.did (execLineHeaderReceive 5 []) = t := by
    unfold State.did
    rw [show execLineHeaderReceive 5 [] badHeaderAtMismatch = .next t from ht]
  have dropped := phase_badHeaderAtMismatch
  rw [after, ignored] at dropped
  exact absurd dropped (by decide)

/-- Refutes O21: the clause on the last segment of a packet that asks for no response has that packet leave the queue alone, but where
its pop finds that the pointer copies differ, R179 completes every packet of the queue. -/
theorem not_lineMacSharesTheMedium : ¬ Obligations.LineMacSharesTheMedium := by
  unfold Obligations.LineMacSharesTheMedium
  rintro ⟨-, -, -, -, lastSegment, -⟩
  have tx : (sendingAtMismatch.ln 5).tx = some { id := some 0 } := by rw [ln_sendingAtMismatch]; rfl
  have job : (some 0).bind (sendingAtMismatch.ln 5).job = some { prefixBytes := List.replicate 40 0, segs := [[0]] } := by
    rw [ln_sendingAtMismatch]
    decide
  obtain ⟨t, ht, left, -⟩ := lastSegment 5 0 _ _ _ sendingAtMismatch tx rfl job (by decide) (by rw [port_sendingAtMismatch]; rfl)
  obtain ⟨u, hu, emptied⟩ := runs_lineTxEnd_of_mismatch (first := 0) tx rfl job (by decide) firstMismatch_sendingAtMismatch
  obtain rfl := Host.Outcome.next.inj (ht.symm.trans hu)
  rw [emptied, port_sendingAtMismatch] at left
  exact absurd left (by decide)

end

/-! # Air ports: rendezvous windows, wake-up trains and members; what the end of a packet leaves of registers (R155–R164, R179) -/

section

-- Proofs are elaborated in turn: every thread that waits for another takes its stack from the memory a compile may use.
set_option Elab.async false

namespace Sys2Proof.Machine

/-! ## Registers that the end of a packet leaves (R24, R70, R179)

A packet's outcome may find the queue's pointer copies apart, and so empty queues and quarantine blocks. Of the registers of ports all
that writes PORT_STAT, PORT_PERSONA, PORT_INT_STAT and PORT_LN_CLIP_CNT only, whatever the port. -/

theorem State.raw_when {k : Nat} {f : State → State} (hf : ∀ u : State, (f u).raw k = u.raw k) (s : State) (c : Bool) :
    (s.when c f).raw k = s.raw k := by
  cases c
  · rfl
  · exact hf s

/-- A register of a port that operations on queues and blocks leave. -/
structure BeyondQueues (k : Nat) : Prop where
  port : 0x100000 ≤ k
  stat (n : Nat) : k ≠ Reg.PORT_STAT n
  persona (n : Nat) : k ≠ Reg.PORT_PERSONA n
  flags (n : Nat) : k ≠ Reg.PORT_INT_STAT n
  clips (n : Nat) : k ≠ Reg.PORT_LN_CLIP_CNT n

namespace BeyondQueues

variable {k : Nat} (hk : BeyondQueues k)

include hk

/-- What touches no register of a port leaves this one. -/
theorem raw_of_keeps {L : List Part} {s t : State} (h : Keeps L s t) (hL : Part.win 16 ∉ L := by decide) : t.raw k = s.raw k :=
  h.only (.win 16) hL k (by have := hk.port; unfold window; omega)

variable (s : State) (n : Nat)

theorem raw_report (code sev path : Nat) (data : Bytes) : (s.report code sev path data).raw k = s.raw k :=
  State.raw_report_port s hk.port code sev path data

theorem raw_lnEmit (i lag : Nat) (xs : List Int) : (s.lnEmit n i xs lag).raw k = s.raw k := by
  unfold State.lnEmit
  exact State.raw_bumpN_ne _ _ (hk.clips n)

theorem raw_lineStop (sent : LineTx → Nat) : (s.lineStop n sent).raw k = s.raw k := by
  unfold State.lineStop
  split
  · rfl
  · rw [State.raw_portMod, hk.raw_lnEmit]

theorem raw_descDone (i code : Nat) : (s.descDone n i code).raw k = s.raw k := by
  unfold State.descDone
  dsimp only
  rw [State.raw_when (fun u => State.raw_raiseF_ne u _ (hk.flags n)), hk.raw_of_keeps (.wrMem (.refl [.dram] s) _ _)]

theorem raw_txDone (id code : Nat) : (s.txDone n id code).raw k = s.raw k := by
  unfold State.txDone
  split
  · rfl
  · dsimp only
    split
    · rfl
    · exact hk.raw_descDone _ n _ code

theorem raw_txClear (code : Nat) : (s.txClear n code).raw k = s.raw k := by
  unfold State.txClear
  rw [State.raw_setF_ne _ _ _ (hk.stat n), State.raw_portMod, State.raw_each (fun id u => hk.raw_txDone u n id code), hk.raw_lineStop]

theorem raw_txCut : (s.txCut n).raw k = s.raw k := by
  unfold State.txCut
  rw [State.raw_setF_ne _ _ _ (hk.stat n), State.raw_portMod, hk.raw_of_keeps (.casAbort (.refl [.ports, .out] _)), hk.raw_lineStop]

theorem raw_rxClear : (s.rxClear n).raw k = s.raw k := hk.raw_of_keeps (.rxClear (.refl [.ports] s))

theorem raw_drainCount (f : BitRange) (i : Nat) : (s.drainCount f i).raw k = s.raw k :=
  hk.raw_of_keeps (.drainCount (.refl [.win 11] s))

/-- The receive queue of a failed port block is lost, or loses the packet that was being read, or passes to intake. -/
theorem raw_substQueues : (s.substQueues n).raw k = s.raw k := by
  unfold State.substQueues
  dsimp only
  rw [hk.raw_txClear, hk.raw_drainCount, State.raw_portMod]
  split
  · rw [hk.raw_report, hk.raw_rxClear]
  · split
    · split
      · split
        · rfl
        · exact (State.raw_bumpF_ne _ _ (hk.stat n)).trans
            (hk.raw_of_keeps (.rxPop (.refl [.fab, .ports, .ink, .time, .intr, .ao, .ladder, .out, .win 6, .win 11] s)))
      · rfl
    · rw [hk.raw_drainCount]
      exact hk.raw_of_keeps (.passAll (.refl [.fab, .ports, .ink, .time, .intr, .ao, .ladder, .out, .win 6, .win 11] s))

theorem raw_fabMod (f : FabState → FabState) : (s.fabMod f).raw k = s.raw k := hk.raw_of_keeps (.fabMod (.refl [.fab] s))

theorem raw_prkIdle : s.prkIdle.raw k = s.raw k := hk.raw_of_keeps (.prkIdle (.refl [.win 11] s))

theorem raw_noSpare (r b path : Nat) : (s.noSpare r b path).raw k = s.raw k :=
  hk.raw_of_keeps (.noSpare (.refl [.smp, .win 0, .win 4] s))

theorem raw_substBegin : (s.substBegin n).raw k = s.raw k := by
  have queues (f : FabState → FabState) :
      ((((s.preempt (!s.spareSuits n)).wrN Reg.UPD_PRK_DRAIN_STAT 0).substQueues n).fabMod f).raw k = s.raw k := by
    rw [hk.raw_fabMod, hk.raw_substQueues, hk.raw_of_keeps (.wrN (.preempt (.refl [.fab, .win 11] s)) _ _)]
  unfold State.substBegin
  dsimp only
  split
  · rw [hk.raw_prkIdle, queues]
  · exact queues _

theorem raw_spareIn (r b x path : Nat) : (s.spareIn r b x path).raw k = s.raw k := by
  unfold State.spareIn
  split
  · exact hk.raw_substBegin s _
  · have kept : Keeps [.smp, .win 0, .win 4] s ((s.spareSet r (s.spareIdx r x) true b).report (r * 0x1000 + 3) 3 path [x, b]) :=
      .report (.spareSet (.refl _ s)) _ _ _ _
    dsimp only
    split
    · exact hk.raw_of_keeps (.wr (.mono (.setRegion kept) (L := [.smp, .win 0, .win 4, .win 6]) (by decide)) _ _)
    · exact hk.raw_of_keeps (.setRegion kept)

theorem raw_prkBlockFail (r b : Nat) : (s.prkBlockFail r b).raw k = s.raw k := hk.raw_of_keeps (.prkBlockFail (.refl [.fab, .win 11] s))

theorem ne_low {j : Nat} (hj : j < 0x100000) : k ≠ j := by
  have := hk.port
  omega

theorem ne_quar (r : Nat) : k ≠ Reg.CHIP_QUAR r := hk.ne_low (by unfold Reg.CHIP_QUAR; omega)

theorem raw_quarantine (r b c : Nat) : (s.quarantine r b c).raw k = s.raw k := by
  have marked (act pool spare : Bool) (i : Nat) :
      (((((s.prkBlockFail r b).raiseBit (Reg.CHIP_QUAR r) b).when act (fun u => u.spareSet r i false 0)).when pool
        (fun u => u.wr Reg.INK_POOL (setBit (u.raw Reg.INK_POOL) b false))).when spare
        (fun u => u.wr Reg.UPD_PRK_SPARE_STAT (setBit (u.raw Reg.UPD_PRK_SPARE_STAT) (8 * (r - 1) + 7) false))).raw k = s.raw k := by
    rw [State.raw_when (fun u => u.raw_wr_ne _ (hk.ne_low (by decide))), State.raw_when (fun u => u.raw_wr_ne _ (hk.ne_low (by decide))),
      State.raw_when (fun u => hk.raw_of_keeps (.spareSet (.refl [.win 0] u))), State.raw_raiseBit_ne _ _ (hk.ne_quar r),
      hk.raw_prkBlockFail]
  unfold State.quarantine
  split
  · exact hk.raw_prkBlockFail s r b
  · dsimp only
    rw [hk.raw_report, State.raw_raiseBit_ne _ _ (hk.ne_low (by decide))]
    split
    · exact marked ..
    · split
      · exact (hk.raw_spareIn ..).trans (marked ..)
      · exact (hk.raw_noSpare ..).trans (marked ..)

theorem raw_portHalt : (s.portHalt n).raw k = s.raw k := by
  unfold State.portHalt
  rw [State.raw_setF_ne _ _ _ (hk.stat n), State.raw_portMod, hk.raw_txCut]

theorem raw_portReport (r b c : Nat) : (s.portReport r b c).raw k = s.raw k := by
  unfold State.portReport
  dsimp only
  repeat' split
  all_goals simp only [hk.raw_noSpare, State.raw_setF_ne _ _ _ (hk.persona _), hk.raw_prkIdle, hk.raw_fabMod, hk.raw_quarantine, hk.raw_portHalt]

theorem raw_neverRetried (path : Nat) : (s.neverRetried path).raw k = s.raw k := by
  unfold State.neverRetried
  dsimp only
  rw [hk.raw_portReport, hk.raw_of_keeps (.errRecord (.refl [.smp, .win 4] _))]

theorem raw_ptrFault (tx : Bool) : (s.ptrFault n tx).raw k = s.raw k := by
  unfold State.ptrFault
  dsimp only
  rw [State.raw_when (fun u => hk.raw_neverRetried u _), State.raw_portMod, hk.raw_report, State.raw_raiseF_ne _ _ (hk.flags n)]
  split
  · rw [hk.raw_txClear, hk.raw_txCut]
  · exact hk.raw_rxClear s n

theorem raw_ptrCheck (tx : Bool) : (s.ptrCheck n tx).raw k = s.raw k := by
  unfold State.ptrCheck
  split
  · rfl
  · exact hk.raw_ptrFault s n tx

theorem raw_txEnd (id code : Nat) : (s.txEnd n id code).raw k = s.raw k := (hk.raw_txDone _ n id code).trans (hk.raw_ptrCheck s n true)

end BeyondQueues

/-! ## The air state of a port, and frames that go out -/

section Air

variable (s : State) (n : Nat)

@[simp] theorem State.port_arMod (f : AirState → AirState) : (s.arMod n f).port n = { s.port n with air := f (s.ar n) } :=
  State.port_portMod_same ..

@[simp] theorem State.ar_arMod (f : AirState → AirState) : (s.arMod n f).ar n = f (s.ar n) := congrArg PortState.air (s.port_arMod n f)

@[simp] theorem State.raw_arMod (f : AirState → AirState) (k : Nat) : (s.arMod n f).raw k = s.raw k := rfl

@[simp] theorem State.ar_bump (k : Nat) : (s.bump k).ar n = s.ar n := congrArg PortState.air (s.port_bump n k)

/-- A frame on the air is the port's transmission, and leaves the rest of the air state. -/
theorem State.ar_airSend (b : Bytes) (kind id : Nat) : (s.airSend n b kind id).ar n = { s.ar n with tx := some (kind, id) } := by
  unfold State.airSend
  rw [State.ar_arMod, State.ar_bump]
  simp [State.ar, State.txOn]

/-- What goes out for a frame PORT_AIR_CFG tells. -/
theorem State.airOut_of_raw {s t : State} {n : Nat} (h : t.raw (Reg.PORT_AIR_CFG n) = s.raw (Reg.PORT_AIR_CFG n)) (b : Bytes) :
    t.airOut n b = s.airOut n b := by
  simp only [State.airOut, State.airPhr, State.isF_of_raw h, State.getF_of_raw h]

theorem State.out_airSend (b : Bytes) (kind id : Nat) : (s.airSend n b kind id).out = s.out ++ [s.airOut n b] := rfl

end Air

/-! ## Rendezvous windows (R156, R158, R161) -/

section Window

variable (s : State) (n a : Nat)

/-- A meter's window opens, in place of one that is open still. -/
def State.windowOpened (g tr : Nat) : State :=
  s.arMod n (fun x => { x with
    windows := x.windows.filter (fun w => decide (w.addr ≠ a)) ++
      [{ addr := a, g := g, opens := tr - usTicks g, tr := tr, closes := tr + usTicks g + s.airShr n + 1, contact := false }] })

/-- A meter's window closes. -/
def State.windowClosed : State :=
  s.arMod n (fun x => { x with windows := x.windows.filter (fun y => decide (y.addr ≠ a)) })

variable {s n a}

theorem execRendezvousWindowOpen_eq {e : Bytes} {tr g : Nat} (entry : s.rdvEntry n a = some e) (on : s.airOn n = true)
    (sleeper : 0 < u8 e 2) (next : s.rdvTr n e s.taiTick = tr) (width : s.rdvWidth n a e tr = some g)
    (near : tr ≤ s.taiTick + usTicks g) : execRendezvousWindowOpen n a s = ok (s.windowOpened n a g tr) := by
  subst next
  simp only [execRendezvousWindowOpen, entry, width]
  refine if_neg ?_
  rintro (off | awake | far)
  · rw [on] at off
    exact absurd off (by decide)
  · omega
  · omega

/-- A window closes that the port did not block by its own transmissions. -/
theorem execRendezvousWindowEnd_eq {tx : Nat} {w : RdvWindow} (window : (s.ar n).windows.find? (fun x => decide (x.addr = a)) = some w)
    (free : 4 * tx ≤ 2 * w.g + (s.airNs n 0).1 / 1000) : execRendezvousWindowEnd n a tx s =
      if w.contact then ok (s.windowClosed n a)
      else match s.rdvEntry n a with
        | none => ok (s.windowClosed n a)
        | some e => if u8 e 6 % 4 = 3 then ok (s.windowClosed n a) else ok ((s.windowClosed n a).rdvMiss n a e w.tr) := by
  simp only [execRendezvousWindowEnd, window]
  exact if_neg (Nat.not_lt.mpr free)

end Window

theorem runs_rendezvousWindowOpen {port addr tr g : Nat} {e : Bytes} {s : State} (entry : s.rdvEntry port addr = some e)
    (on : s.airOn port = true) (sleeper : 0 < u8 e 2) (next : s.rdvTr port e s.taiTick = tr) (width : s.rdvWidth port addr e tr = some g)
    (near : tr ≤ s.taiTick + usTicks g) :
    Runs (.rendezvousWindowOpen port addr) s (fun t => (t.ar port).windows.map (fun w => (w.addr, w.g, w.tr, w.opens, w.contact)) =
      ((s.ar port).windows.filter (fun w => decide (w.addr ≠ addr))).map (fun w => (w.addr, w.g, w.tr, w.opens, w.contact)) ++
        [(addr, g, tr, tr - usTicks g, false)]) := by
  refine ⟨_, execRendezvousWindowOpen_eq entry on sleeper next width near, ?_⟩
  simp [State.windowOpened]

theorem runs_rendezvousWindowEnd_contact {port addr tx : Nat} {w : RdvWindow} {s : State}
    (window : (s.ar port).windows.find? (fun x => decide (x.addr = addr)) = some w) (contact : w.contact = true)
    (free : 4 * tx ≤ 2 * w.g + (s.airNs port 0).1 / 1000) :
    Runs (.rendezvousWindowEnd port addr tx) s (fun t =>
      (t.ar port).windows = (s.ar port).windows.filter (fun y => decide (y.addr ≠ addr)) ∧
      t.num (Reg.PORT_AIR_RDV_MISS_CNT port) = s.num (Reg.PORT_AIR_RDV_MISS_CNT port)) := by
  refine ⟨s.windowClosed port addr, ?_, ?_, rfl⟩
  · exact (execRendezvousWindowEnd_eq window free).trans (if_pos contact)
  · rw [State.windowClosed, State.ar_arMod]

section Miss

variable (s : State) (n a : Nat)

theorem le_airBase (o : Nat) : 0x100000 ≤ Reg.airBase n + o := by unfold Reg.airBase; omega

theorem beyondQueues_rdvMissCnt : BeyondQueues (Reg.PORT_AIR_RDV_MISS_CNT n) where
  port := by unfold Reg.PORT_AIR_RDV_MISS_CNT Reg.airBase; omega
  stat m := by unfold Reg.PORT_AIR_RDV_MISS_CNT Reg.PORT_STAT Reg.airBase Reg.portBase; omega
  persona m := by unfold Reg.PORT_AIR_RDV_MISS_CNT Reg.PORT_PERSONA Reg.airBase Reg.portBase; omega
  flags m := by unfold Reg.PORT_AIR_RDV_MISS_CNT Reg.PORT_INT_STAT Reg.airBase Reg.portBase; omega
  clips m := by unfold Reg.PORT_AIR_RDV_MISS_CNT Reg.PORT_LN_CLIP_CNT Reg.airBase Reg.lnBase; omega

/-- A step of the escalation writes PORT_AIR_ESC and a flag among the registers of ports. -/
theorem BeyondQueues.raw_escalate {k : Nat} (hk : BeyondQueues k) (step first : Nat) (esc : k ≠ Reg.PORT_AIR_ESC n) :
    (s.escalate n a step first).raw k = s.raw k := by
  unfold State.escalate
  dsimp only
  rw [hk.raw_report, State.raw_raiseF_ne _ _ (hk.flags n), State.raw_setF_ne _ _ _ esc, State.raw_setF_ne _ _ _ esc,
    State.raw_setF_ne _ _ _ esc]

theorem State.isF_escalate (step first : Nat) :
    (s.escalate n a step first).isF (Reg.PORT_INT_STAT n) Fld.PORT_INT_STAT_ESCALATION = true := by
  unfold State.escalate
  dsimp only
  rw [State.isF_of_raw (State.raw_report_port _ (le_portBase ..) ..)]
  exact State.isF_raiseF ..

/-- A missed rendezvous counts once, whatever becomes of the packets held for a meter that is given up. -/
theorem State.num_rdvMiss (e : Bytes) (tr : Nat) : (s.rdvMiss n a e tr).num (Reg.PORT_AIR_RDV_MISS_CNT n) =
    min (s.num (Reg.PORT_AIR_RDV_MISS_CNT n) + 1) 0xFFFFFFFF := by
  have hk := beyondQueues_rdvMissCnt n
  have givenUp (u : State) : ((u.each (u.heldFor n a) (fun k v =>
      (v.arMod n (fun x => { x with jobs := x.jobs.filter (fun y => decide (y.id ≠ k.id)) })).txEnd n k.id 6)).bump
        (Reg.PORT_AIR_UNREACH_CNT n)).raw (Reg.PORT_AIR_RDV_MISS_CNT n) = u.raw (Reg.PORT_AIR_RDV_MISS_CNT n) := by
    rw [State.raw_bump_ne _ (by simp), State.raw_each (fun k v => by rw [hk.raw_txEnd, State.raw_arMod])]
  refine (State.num_of_raw ?_).trans (s.num_bump _)
  unfold State.rdvMiss
  dsimp only
  rw [hk.raw_escalate _ _ _ _ _ (by simp), State.raw_when givenUp, hk.raw_of_keeps (.rdvPut (.refl [.dram] _))]

end Miss

theorem runs_rendezvousWindowEnd_miss {port addr tx : Nat} {w : RdvWindow} {e : Bytes} {s : State}
    (window : (s.ar port).windows.find? (fun x => decide (x.addr = addr)) = some w) (silent : w.contact = false)
    (free : 4 * tx ≤ 2 * w.g + (s.airNs port 0).1 / 1000) (entry : s.rdvEntry port addr = some e) (sought : u8 e 6 % 4 ≠ 3) :
    Runs (.rendezvousWindowEnd port addr tx) s (fun t =>
      t.num (Reg.PORT_AIR_RDV_MISS_CNT port) = min (s.num (Reg.PORT_AIR_RDV_MISS_CNT port) + 1) 0xFFFFFFFF ∧
      t.isF (Reg.PORT_INT_STAT port) Fld.PORT_INT_STAT_ESCALATION = true) := by
  refine ⟨(s.windowClosed port addr).rdvMiss port addr e w.tr, ?_, State.num_rdvMiss .., State.isF_escalate ..⟩
  refine (execRendezvousWindowEnd_eq window free).trans ?_
  rw [silent, entry]
  exact if_neg sought

/-! ## Wake-up trains (R159, R160) -/

theorem runs_wakeTrainStart {port addr len tr : Nat} {e : Bytes} {s : State} (entry : s.rdvEntry port addr = some e)
    (idle : s.trainOn port = none) (on : s.airOn port = true) (sleeper : 0 < u8 e 2) (sought : u8 e 6 % 4 ≠ 3)
    (length : s.airF port (Reg.PORT_AIR_WAKE port) Fld.PORT_AIR_WAKE_WUT_LEN * 2 ^ 20 = len)
    (next : s.rdvTr port e (s.taiTick + len - s.airSlot port) = tr) (near : tr ≤ s.taiTick + len) (calls : s.rdvTrain port e tr = true) :
    Runs (.wakeTrainStart port addr) s (fun t => (t.ar port).train = some (addr, tr) ∧
      t.num (Reg.PORT_AIR_WUT_SENT_CNT port) = min (s.num (Reg.PORT_AIR_WUT_SENT_CNT port) + 1) 0xFFFFFFFF) := by
  refine ⟨(s.arMod port (fun x => { x with train := some (addr, tr) })).bump (Reg.PORT_AIR_WUT_SENT_CNT port), ?_, ?_, State.num_bump ..⟩
  · show execWakeTrainStart port addr s = _
    simp only [execWakeTrainStart, entry, idle, length, next]
    exact if_pos ⟨on, sleeper, sought, near, calls⟩
  · rw [State.ar_bump, State.ar_arMod]

theorem runs_wakeFrameSend {port a tr : Nat} {s : State} (train : s.trainOn port = some (a, tr)) (low : s.airLow port = true)
    (pos : s.airSlot port ≤ s.airPos port) :
    Runs (.wakeFrameSend port) s (fun t => (t.ar port).tx = some (6, 0) ∧ (t.ar port).macSeq = ((s.ar port).macSeq + 1) % 256 ∧
      t.out = s.out ++ [s.airOut port (s.airData port false false (s.ar port).macSeq a
        ([7 * 32] ++ bytesLE 2 (s.rdvMs (usTicks (s.airLead port) + s.airShr port) tr)))]) := by
  let u := s.arMod port (fun x => { x with macSeq := ((s.ar port).macSeq + 1) % 256 })
  let frame := s.airData port false false (s.ar port).macSeq a
    ([7 * 32] ++ bytesLE 2 (s.rdvMs (usTicks (s.airLead port) + s.airShr port) tr))
  refine ⟨u.airSend port frame 6 0, ?_, ?_, ?_, ?_⟩
  · show execWakeFrameSend port s = _
    simp only [execWakeFrameSend, train]
    exact if_pos (by rw [low, decide_eq_true pos]; rfl)
  · rw [State.ar_airSend]
  · rw [State.ar_airSend, State.ar_arMod]
  · rw [State.out_airSend, State.airOut_of_raw (s := s) (s.raw_arMod port _ _)]
    rfl

/-! ## Members (R162, R163) -/

section Member

variable {port : Nat} {s : State} (on : s.airOn port = true) (member : s.persona port = 3)

include on member

theorem runs_memberBeaconMiss_early (sync : s.airSync port = 2) (few : s.getF (Reg.PORT_AIR_SYNC_STAT port) Fld.PORT_AIR_SYNC_STAT_MISSED < 2) :
    Runs (.memberBeaconMiss port) s (fun t =>
      t.num (Reg.PORT_AIR_BCN_MISS_CNT port) = min (s.num (Reg.PORT_AIR_BCN_MISS_CNT port) + 1) 0xFFFFFFFF ∧
      t.getF (Reg.PORT_AIR_SYNC_STAT port) Fld.PORT_AIR_SYNC_STAT_MISSED =
        s.getF (Reg.PORT_AIR_SYNC_STAT port) Fld.PORT_AIR_SYNC_STAT_MISSED + 1 ∧
      t.airSync port = 2) := by
  have third : s.getF (Reg.PORT_AIR_SYNC_STAT port) Fld.PORT_AIR_SYNC_STAT_MISSED + 1 < 3 := by omega
  refine ⟨(s.bump (Reg.PORT_AIR_BCN_MISS_CNT port)).setF (Reg.PORT_AIR_SYNC_STAT port) Fld.PORT_AIR_SYNC_STAT_MISSED
    (min (s.getF (Reg.PORT_AIR_SYNC_STAT port) Fld.PORT_AIR_SYNC_STAT_MISSED + 1) 3), ?_, ?_, ?_, ?_⟩
  · exact (if_pos ⟨on, member, sync⟩).trans (if_pos third)
  · rw [State.num_of_raw (State.raw_setF_ne _ _ _ (by simp)), State.num_bump]
  · rw [State.getF_setF _ _ Fld.PORT_AIR_SYNC_STAT_MISSED, Nat.min_eq_left (by omega)]
    exact Nat.mod_eq_of_lt (show _ < 4 by omega)
  · rw [State.airSync, State.getF_setF_ne, State.getF_of_raw (State.raw_bump_ne _ (by simp))]
    exact sync

/-- The state of a member whose third beacon in a row is missed, before the loss is recorded. -/
def State.syncLost (s : State) (n : Nat) : State :=
  (((((s.bump (Reg.PORT_AIR_BCN_MISS_CNT n)).setF (Reg.PORT_AIR_SYNC_STAT n) Fld.PORT_AIR_SYNC_STAT_MISSED 3).setF
    (Reg.PORT_AIR_SYNC_STAT n) Fld.PORT_AIR_SYNC_STAT_STATE 3).setF (Reg.PORT_AIR_SYNC_STAT n)
    Fld.PORT_AIR_SYNC_STAT_ROUND 1).raiseF (Reg.PORT_INT_STAT n) Fld.PORT_INT_STAT_SYNC_LOST).arMod n
    (fun a => { a with lostAt := s.time.tai, scanned := false })

theorem runs_memberBeaconMiss_third (sync : s.airSync port = 2)
    (missed : s.getF (Reg.PORT_AIR_SYNC_STAT port) Fld.PORT_AIR_SYNC_STAT_MISSED = 2) :
    Runs (.memberBeaconMiss port) s (fun t => t.airSync port = 3 ∧
      t.isF (Reg.PORT_INT_STAT port) Fld.PORT_INT_STAT_SYNC_LOST = true) := by
  refine ⟨(s.syncLost port).syncReport port 3, ?_, ?_, ?_⟩
  · show execMemberBeaconMiss port s = _
    simp only [execMemberBeaconMiss, missed]
    exact if_pos ⟨on, member, sync⟩
  · rw [State.airSync, State.syncReport, State.getF_of_raw (State.raw_report_port _ (le_airBase ..) ..), State.syncLost,
      State.getF_of_raw (State.raw_arMod ..), State.getF_of_raw (State.raw_raiseF_ne _ _ (Ne.symm portBase_ne_airBase)),
      State.getF_setF_ne, State.getF_setF _ _ Fld.PORT_AIR_SYNC_STAT_STATE]
    rfl
  · rw [State.syncReport, State.isF_of_raw (State.raw_report_port _ (le_portBase ..) ..), State.syncLost, State.isF_of_raw (State.raw_arMod ..),
      State.isF_raiseF _ _ Fld.PORT_INT_STAT_SYNC_LOST]

theorem runs_memberSearchRound (lost : s.airSync port = 3) (narrow : s.beaconAlways port = false) :
    Runs (.memberSearchRound port) s (fun t =>
      t.num (Reg.PORT_AIR_BCN_MISS_CNT port) = min (s.num (Reg.PORT_AIR_BCN_MISS_CNT port) + 1) 0xFFFFFFFF ∧
      t.getF (Reg.PORT_AIR_SYNC_STAT port) Fld.PORT_AIR_SYNC_STAT_ROUND =
        min (s.getF (Reg.PORT_AIR_SYNC_STAT port) Fld.PORT_AIR_SYNC_STAT_ROUND + 1) 15) := by
  refine ⟨(s.bump (Reg.PORT_AIR_BCN_MISS_CNT port)).setF (Reg.PORT_AIR_SYNC_STAT port) Fld.PORT_AIR_SYNC_STAT_ROUND
    (min (s.getF (Reg.PORT_AIR_SYNC_STAT port) Fld.PORT_AIR_SYNC_STAT_ROUND + 1) 15), ?_, ?_, ?_⟩
  · exact (if_pos ⟨on, member, lost⟩).trans (if_neg (by rw [narrow]; exact Bool.false_ne_true))
  · rw [State.num_of_raw (State.raw_setF_ne _ _ _ (by simp)), State.num_bump]
  · rw [State.getF_setF _ _ Fld.PORT_AIR_SYNC_STAT_ROUND]
    exact Nat.mod_eq_of_lt (show _ < 16 by omega)

theorem runs_memberScanTimeout (lost : s.airSync port = 3) (wide : s.beaconAlways port = true) (first : (s.ar port).scanned = false)
    (room : s.smp.fifo.length < 256) :
    Runs (.memberScanTimeout port) s (fun t => Logged s t (portRegion port * 0x1000 + 0x104) 4 (s.portPath port)
      ([port, 3] ++ bytesLE 3 (s.getF (Reg.PORT_AIR_SYNC_STAT port) Fld.PORT_AIR_SYNC_STAT_LOST_S))) := by
  let u := s.arMod port (fun a => { a with scanned := true })
  have kept : Keeps [.ports] s u := .arMod (.refl _ s)
  refine ⟨u.syncReport port 4, if_pos ⟨on, member, lost, wide, first⟩, ?_⟩
  have sync : u.airSync port = 3 := lost
  rw [State.syncReport, sync]
  exact kept.fifo_report _ _ _ _ room

end Member

end Sys2Proof.Machine

open Sys2Proof Sys2Proof.Machine

/-- Settles O24, clause by clause; the counter of missed rendezvous stands even where the packets of a meter that is given up find their
queue's pointers apart. -/
theorem sleepingMetersAndMembers : Obligations.SleepingMetersAndMembers := by
  unfold Obligations.SleepingMetersAndMembers
  exact ⟨fun _ _ _ _ _ _ => runs_rendezvousWindowOpen, fun _ _ _ _ _ => runs_rendezvousWindowEnd_contact,
    fun _ _ _ _ _ _ => runs_rendezvousWindowEnd_miss, fun _ _ _ _ _ _ => runs_wakeTrainStart, fun _ _ _ _ => runs_wakeFrameSend,
    fun _ _ => runs_memberBeaconMiss_early, fun _ _ => runs_memberBeaconMiss_third, fun _ _ => runs_memberSearchRound,
    fun _ _ => runs_memberScanTimeout⟩

end

/-! # Air ports: a beacon offset written within a cycle, and an Enh-Ack missing where sync is lost (R145, R150, R164, R171) -/

section

namespace Sys2Proof.Machine

/-! ## Cycle starts (R145, R171) -/

@[simp] theorem State.raw_draw (s : State) (k : Nat) : s.draw.raw k = s.raw k := rfl

/-- A frame that goes out changes PORT_STAT and its counter among the registers. -/
theorem State.raw_airSend (s : State) {n k : Nat} (b : Bytes) (kind id : Nat) (stat : k ≠ Reg.PORT_STAT n)
    (count : k ≠ Reg.PORT_AIR_TX_FRAME_CNT n) : (s.airSend n b kind id).raw k = s.raw k := by
  unfold State.airSend State.txOn
  rw [State.raw_arMod, State.raw_bump_ne _ count, State.raw_emit, State.raw_setF_ne _ _ _ stat, State.raw_portMod]

/-- A coordinator port numbers the cycle that starts with the registers as they stand, which come into force with it. -/
theorem runs_airCycleStart {port : Nat} {s : State} (receiving : Bool) (on : s.airOn port = true) (coordinator : s.persona port = 2) :
    Runs (.airCycleStart port receiving) s (fun t => t.num (Reg.PORT_AIR_CYCLE_NO port) = (s.airTake port).cycleNo port) := by
  have numbered : ((s.airTake port).wrN (Reg.PORT_AIR_CYCLE_NO port) ((s.airTake port).cycleNo port)).num (Reg.PORT_AIR_CYCLE_NO port) =
      (s.airTake port).cycleNo port := State.num_wrN _ _ (Nat.mod_lt _ (by decide))
  have taken : (s.airTake port).persona port = 2 := coordinator
  show ∃ t, execAirCycleStart port receiving s = .next t ∧ _
  simp only [execAirCycleStart, on, taken, if_true, true_and]
  split
  · refine ⟨_, rfl, (State.num_of_raw ?_).trans numbered⟩
    rw [State.raw_when (fun u => State.raw_bump_ne u (by simp)), State.raw_bump_ne _ (by simp),
      State.raw_airSend _ _ _ _ (Ne.symm portBase_ne_airBase) (by simp), State.raw_draw, State.beaconCut, State.raw_arMod, State.raw_arMod]
  · exact ⟨_, rfl, numbered⟩

/-- An air coordinator port, enabled, with the reset values of its registers in force. -/
def airPort5 : State :=
  ((State.reset.setF (Reg.PORT_PERSONA 5) Fld.PORT_PERSONA_PERSONA 2).setF (Reg.PORT_CTL 5) Fld.PORT_CTL_EN 1).airTake 5

/-- Software has written a beacon offset of one tick since, and TAI is at the start of cycle 1 by the offset of 0 in force. -/
def offsetWritten : State :=
  { airPort5.setF (Reg.PORT_AIR_BCN_OFS 5) Fld.PORT_AIR_BCN_OFS_OFS 1 with time := { airPort5.time with tai := 2 ^ 32 } }

theorem cycleNo_offsetWritten : offsetWritten.cycleNo 5 = 1 ∧ (offsetWritten.airTake 5).cycleNo 5 = 0 := by decide +kernel

theorem on_offsetWritten : offsetWritten.airOn 5 = true ∧ offsetWritten.persona 5 = 2 ∧ offsetWritten.mayTransmit = true := by decide

/-! ## Missing Enh-Acks (R150, R164) -/

/-- The job put in the place of the one of its packet is that packet's job. -/
theorem find?_replaced {l : List AirJob} {j : AirJob} (h : ∃ x ∈ l, x.id = j.id) :
    (l.map (fun x => if x.id = j.id then j else x)).find? (fun x => decide (x.id = j.id)) = some j := by
  induction l with
  | nil => simp at h
  | cons x l ih =>
    by_cases same : x.id = j.id
    · simp [same]
    · obtain ⟨y, hy, id⟩ := h
      have rest : y ∈ l := (List.mem_cons.mp hy).resolve_left (fun e => same (e ▸ id))
      simpa [same] using ih ⟨y, rest, id⟩

theorem State.job_arJob (s : State) (n : Nat) {j : AirJob} (h : ∃ x ∈ (s.ar n).jobs, x.id = j.id) :
    ((s.arJob n j).ar n).job j.id = some j := by
  rw [State.arJob, State.ar_arMod]
  exact find?_replaced h

/-- A member that has lost sync keeps the packet with its attempt count. -/
theorem runs_airAckTimeout_of_lost {port : Nat} {j : AirJob} {s : State}
    (job : (s.ar port).jobs.find? (fun x => decide (x.phase = 3)) = some j) (member : s.persona port = 3) (lost : s.airSync port = 3) :
    Runs (.airAckTimeout port) s (fun t => ((t.ar port).job j.id).map (fun x => (x.attempt, x.phase)) = some (j.attempt, 0)) := by
  let u := s.bump (Reg.PORT_AIR_TX_NOACK_CNT port)
  have persona : u.persona port = 3 := (State.getF_of_raw (State.raw_bump_ne _ portBase_ne_airBase) _).trans member
  have sync : u.airSync port = 3 := (State.getF_of_raw (State.raw_bump_ne _ (by simp)) _).trans lost
  have waits : ∃ x ∈ (u.ar port).jobs, x.id = j.id := ⟨j, by rw [State.ar_bump]; exact List.mem_of_find?_eq_some job, rfl⟩
  refine ⟨u.arJob port { j with phase := 0 }, ?_, ?_⟩
  · show execAirAckTimeout port s = _
    simp only [execAirAckTimeout, job]
    exact congrArg ok (if_pos ⟨persona, sync⟩)
  · exact congrArg (Option.map (fun x : AirJob => (x.attempt, x.phase))) (u.job_arJob port (j := { j with phase := 0 }) waits)

/-- The first attempt at a packet of retry limit 1. -/
def firstAttempt : AirJob := { prefixBytes := [0, 1] ++ List.replicate 38 0, phase := 3 }

/-- It waits for its Enh-Ack at a member that has lost sync. -/
def waitingAtLoss : State :=
  ((State.reset.setF (Reg.PORT_PERSONA 5) Fld.PORT_PERSONA_PERSONA 3).setF (Reg.PORT_AIR_SYNC_STAT 5) Fld.PORT_AIR_SYNC_STAT_STATE 3).arMod 5
    (fun a => { a with jobs := [firstAttempt] })

theorem jobs_waitingAtLoss : (waitingAtLoss.ar 5).jobs.find? (fun x => decide (x.phase = 3)) = some firstAttempt := by
  rw [waitingAtLoss, State.ar_arMod]
  rfl

theorem lost_waitingAtLoss : waitingAtLoss.persona 5 = 3 ∧ waitingAtLoss.airSync 5 = 3 := by decide

end Sys2Proof.Machine

open Sys2Proof Sys2Proof.Machine

/-- Refutes O22: the clause on the start of a cycle numbers it with the beacon offset in force before, but the offset that software has
written comes into force with the cycle (R171), and puts the cycle's start elsewhere in TAI. -/
theorem not_airChannelAccess : ¬ Obligations.AirChannelAccess := by
  unfold Obligations.AirChannelAccess
  rintro ⟨cycleStart, -⟩
  obtain ⟨on, coordinator, may⟩ := on_offsetWritten
  obtain ⟨before, after⟩ := cycleNo_offsetWritten
  obtain ⟨t, ht, claimed, -⟩ := cycleStart 5 false offsetWritten on coordinator may
  obtain ⟨u, hu, shown⟩ := runs_airCycleStart false on coordinator
  obtain rfl := Host.Outcome.next.inj (ht.symm.trans hu)
  rw [claimed, before, after] at shown
  exact absurd shown (by decide)

/-- Refutes O23: the clause on a missing Enh-Ack has the attempt counted and a new one contend, but a member that has lost sync keeps the
packet with its attempt count (R164). -/
theorem not_airFramesAreAnswered : ¬ Obligations.AirFramesAreAnswered := by
  unfold Obligations.AirFramesAreAnswered
  rintro ⟨-, -, -, -, ackTimeout, -⟩
  obtain ⟨member, lost⟩ := lost_waitingAtLoss
  obtain ⟨t, ht, -, claimed⟩ := ackTimeout 5 firstAttempt waitingAtLoss jobs_waitingAtLoss (by decide) rfl
  obtain ⟨u, hu, kept⟩ := runs_airAckTimeout_of_lost jobs_waitingAtLoss member lost
  obtain rfl := Host.Outcome.next.inj (ht.symm.trans hu)
  rw [claimed] at kept
  exact absurd kept (by decide)

end

/-! # Port queues and cascade links: an index wider than its field, and a frame given up where the pointers differ (R179, R183, R184,
R195) -/

section

namespace Sys2Proof.Machine

/-! ## CONS (R183, R184) -/

section Cons

variable (s : State) (n : Nat)

/-- CONS holds 12 bits of the index that follows. -/
theorem State.cons_consNext :
    (s.consNext n).cons n = (s.cons n + 1) % 2 ^ s.getF (Reg.PORT_DESC_BASE n) Fld.PORT_DESC_BASE_RING_LOG2 % 2 ^ 12 :=
  State.getF_setF s (Reg.PORT_DESC_HEAD n) Fld.PORT_DESC_HEAD_CONS _

variable {s n}

theorem State.ptrCheck_of_same {tx : Bool} (same : (s.ptrs n tx).same = true) : s.ptrCheck n tx = s := if_pos same

/-- Without LOOP nothing returns into the receive queue. -/
theorem State.loopRun_of_noLoop (straight : s.portLoop n = false) (k : Nat) : s.loopRun n k = s := by
  cases k with
  | zero => rfl
  | succ k => simp [State.loopRun, straight]

/-- Where the pointer copies agree and LOOP = 0, a whole packet enters the transmit queue, and that is all. -/
theorem State.txPush_eq_txEnter (same : (s.ptrs n true).same = true) (straight : s.portLoop n = false) (b : Bytes) (desc : Option Nat) :
    s.txPush n b desc = s.txEnter n b desc := by
  have loop : (s.txEnter n b desc).portLoop n = false := straight
  rw [State.txPush, State.ptrCheck_of_same same, State.loopRun_of_noLoop loop]

end Cons

/-- A packet copied from its buffer advances CONS, modulo the ring and within its field. -/
theorem runs_descCopy {port : Nat} {d : Bytes} {s : State} (fetched : (s.port port).desc = some d) (room : chunks (u16 d 8) ≤ s.txFree port)
    (same : (s.ptrs port true).same = true) (straight : s.portLoop port = false) :
    Runs (.descCopy port false) s (fun t => t.cons port =
      (s.cons port + 1) % 2 ^ s.getF (Reg.PORT_DESC_BASE port) Fld.PORT_DESC_BASE_RING_LOG2 % 2 ^ 12) := by
  let u := s.portMod port (fun p => { p with desc := none })
  let b := s.rdMem (un d 0 8 % 2 ^ 36) (u16 d 8)
  have copies : (u.ptrs port true).same = true := by
    simpa [u, State.ptrs] using same
  have loop : u.portLoop port = false := straight
  refine ⟨(u.txEnter port b (some (s.cons port))).consNext port, ?_, State.cons_consNext ..⟩
  show execDescCopy port false s = _
  simp only [execDescCopy, fetched]
  rw [← State.txPush_eq_txEnter copies loop]
  exact if_neg (Nat.not_lt.mpr room)

/-- A line port whose ring has 2^13 descriptors. The one at index 4095, for a packet of 4 bytes, is fetched. -/
def ringBeyondCons : State :=
  ((linePort5.setF (Reg.PORT_DESC_BASE 5) Fld.PORT_DESC_BASE_RING_LOG2 13).setF (Reg.PORT_DESC_HEAD 5) Fld.PORT_DESC_HEAD_CONS 4095).portMod 5
    (fun p => { p with desc := some [0, 16, 0, 0, 0, 0, 0, 0, 4, 0, 128, 0, 0, 0, 0, 0] })

theorem room_ringBeyondCons : chunks 4 ≤ ringBeyondCons.txFree 5 ∧ (ringBeyondCons.ptrs 5 true).same = true ∧
    ringBeyondCons.portLoop 5 = false := by decide

theorem cons_ringBeyondCons : ringBeyondCons.cons 5 = 4095 ∧
    ringBeyondCons.getF (Reg.PORT_DESC_BASE 5) Fld.PORT_DESC_BASE_RING_LOG2 = 13 := by decide

/-! ## A frame whose resends are used up (R179, R195) -/

/-- A frame is given up while the copies of its queue's pointers differ: the queue is emptied. -/
theorem runs_casCommitTimeout_of_mismatch {port cseq : Nat} {k : TxPkt} {s : State}
    (sent : (s.port port).txq.find? (fun x => x.held && decide (x.cseq = some cseq)) = some k)
    (usedUp : s.getF (Reg.PORT_CAS_CFG port) Fld.PORT_CAS_CFG_MAX_RESEND ≤ k.resends) (h : s.firstMismatch port) :
    Runs (.casCommitTimeout port cseq) s (fun t => (t.port port).txq = []) := by
  refine ⟨s.txEnd port k.id 3, ?_, h.txq_txEnd _ _⟩
  show execCasCommitTimeout port cseq s = _
  simp only [execCasCommitTimeout, sent]
  exact if_neg (Nat.not_lt.mpr usedUp)

/-- The oldest frame has gone out under CSEQ 0 and has been resent as often as MAX_RESEND can say. -/
def sentFrame : TxPkt := { bytes := casFrame 0 0 0 0 [], taken := true, held := true, cseq := some 0, resends := 15 }

/-- It waits for its result on a cascade port with another frame behind it; the transmit queue's copies differ. -/
def cascadeAtMismatch : State :=
  (((State.reset.setF (Reg.PORT_PERSONA 5) Fld.PORT_PERSONA_PERSONA 4).setF (Reg.PORT_CTL 5) Fld.PORT_CTL_EN 1).setF (Reg.PORT_CAS_STAT 5)
    Fld.PORT_CAS_STAT_STATE 3).portMod 5 (fun p => { p with
      txq := [sentFrame, { id := 1, bytes := casFrame 0 0 0 0 [] }], nextId := 2, txPtr := splitPtr, cas := { nextSeq := 1 } })

theorem txq_cascadeAtMismatch : (cascadeAtMismatch.port 5).txq = [sentFrame, { id := 1, bytes := casFrame 0 0 0 0 [] }] := by
  rw [cascadeAtMismatch, State.port_portMod_same]

theorem firstMismatch_cascadeAtMismatch : cascadeAtMismatch.firstMismatch 5 := by
  rw [State.firstMismatch, cascadeAtMismatch, State.port_portMod_same]
  decide

theorem usedUp_cascadeAtMismatch :
    cascadeAtMismatch.getF (Reg.PORT_CAS_CFG 5) Fld.PORT_CAS_CFG_MAX_RESEND ≤ sentFrame.resends := by decide

end Sys2Proof.Machine

open Sys2Proof Sys2Proof.Machine

/-- Refutes O25: the clause on DESC_COPY takes CONS for a field of 16 bits, but it has 12, so that past index 4095 of a ring of 2^13
descriptors, which the clause does not exclude, CONS shows 0 and not 4096. -/
theorem not_portQueuesMovePackets : ¬ Obligations.PortQueuesMovePackets := by
  unfold Obligations.PortQueuesMovePackets
  rintro ⟨-, -, -, -, -, -, -, -, -, -, -, descCopy, -⟩
  have fetched : (ringBeyondCons.port 5).desc = some [0, 16, 0, 0, 0, 0, 0, 0, 4, 0, 128, 0, 0, 0, 0, 0] := by
    rw [ringBeyondCons, State.port_portMod_same]
  obtain ⟨room, same, straight⟩ := room_ringBeyondCons
  obtain ⟨index, log2⟩ := cons_ringBeyondCons
  obtain ⟨t, ht, -, -, claimed⟩ := descCopy 5 _ ringBeyondCons fetched room same straight
  obtain ⟨u, hu, shown⟩ := runs_descCopy fetched room same straight
  obtain rfl := Host.Outcome.next.inj (ht.symm.trans hu)
  rw [claimed, index, log2] at shown
  exact absurd shown (by decide)

/-- Refutes O26: the clause on a frame whose resends are used up has that frame leave the queue alone, but where its pop finds that the
pointer copies differ, R179 completes every packet of the queue. -/
theorem not_cascadeLinksCarryFrames : ¬ Obligations.CascadeLinksCarryFrames := by
  unfold Obligations.CascadeLinksCarryFrames
  rintro ⟨-, -, -, -, -, -, -, -, -, -, givenUp, -⟩
  have sent : (cascadeAtMismatch.port 5).txq.find? (fun x => x.held && decide (x.cseq = some 0)) = some sentFrame := by
    rw [txq_cascadeAtMismatch]
    rfl
  have packet : (cascadeAtMismatch.port 5).pkt sentFrame.id = some sentFrame := by
    rw [PortState.pkt, txq_cascadeAtMismatch]
    rfl
  obtain ⟨t, ht, left⟩ := givenUp 5 0 sentFrame cascadeAtMismatch sent packet usedUp_cascadeAtMismatch
  obtain ⟨u, hu, emptied⟩ := runs_casCommitTimeout_of_mismatch sent usedUp_cascadeAtMismatch firstMismatch_cascadeAtMismatch
  obtain rfl := Host.Outcome.next.inj (ht.symm.trans hu)
  rw [emptied, txq_cascadeAtMismatch] at left
  exact absurd left (by decide)

end

/-! # Intake: a protect request whose index is wider than CONS (R200, R221, R222) -/

section

namespace Sys2Proof.Machine

/-! ## What a key asked for leaves (R211, R212) -/

section Keys

variable (s : State) (n g : Nat)

/-- A key asked for is counted as a hit or a miss, and no other register changes. -/
theorem State.raw_keyAsk (dir : Bool) {k : Nat} (hit : k ≠ Reg.INK_KC_HIT_CNT) (miss : k ≠ Reg.INK_KC_MISS_CNT) :
    (s.keyAsk n g dir).1.raw k = s.raw k := by
  unfold State.keyAsk
  dsimp only
  split
  · rw [State.raw_bump_ne _ hit, State.inkMod_raw]
  · rw [State.raw_bump_ne _ miss]
    refine State.raw_when (fun u => ?_) _ _
    exact u.inkMod_raw _ k

/-- Of intake it changes the cache and the derivations. -/
theorem State.ink_keyAsk (dir : Bool) : ∃ kc deriv, (s.keyAsk n g dir).1.ink = { s.ink with kc := kc, deriv := deriv } := by
  unfold State.keyAsk
  dsimp only
  split
  · exact ⟨_, _, rfl⟩
  · cases s.derivRuns (s.keyTag n g dir)
    · exact ⟨_, _, rfl⟩
    · exact ⟨_, _, rfl⟩

theorem State.raw_protKey {k : Nat} (hit : k ≠ Reg.INK_KC_HIT_CNT) (miss : k ≠ Reg.INK_KC_MISS_CNT) :
    (s.protKey n g).1.raw k = s.raw k := by
  unfold State.protKey
  split
  · exact s.raw_keyAsk n g true hit miss
  · rfl

theorem State.ink_protKey : ∃ kc deriv, (s.protKey n g).1.ink = { s.ink with kc := kc, deriv := deriv } := by
  unfold State.protKey
  split
  · exact s.ink_keyAsk n g true
  · exact ⟨_, _, rfl⟩

end Keys

/-! ## A grant to the port pool (R200, R221) -/

section Grants

variable {s : State} {l i : Nat}

@[simp] theorem State.laneJobs_setLane (s : State) (l : Nat) (j : List LaneJob) : (s.setLane l j).laneJobs l = j :=
  tget_tset_same ..

theorem State.ringPass_of_notReady {n : Nat} (idle : s.ringReady n = false) (k : Nat) : s.ringPass n k = s := by
  cases k with
  | zero => rfl
  | succ k => simp [State.ringPass, idle]

/-- Where no port has a packet that needs no lane, nothing goes straight to the firmware ring. -/
theorem State.ringPassAll_of_noneReady (idle : ∀ n ∈ List.range 64, s.ringReady n = false) : s.ringPassAll = s := by
  have fixed : ∀ ports : List Nat, (∀ n ∈ ports, s.ringReady n = false) →
      s.each ports (fun n t => t.ringPass n (t.port n).rxq.length) = s := by
    intro ports
    induction ports with
    | nil => intro _; rfl
    | cons n rest ih =>
      intro none
      rw [State.each, List.foldl_cons, State.ringPass_of_notReady (none n List.mem_cons_self)]
      exact ih fun m hm => none m (List.mem_cons_of_mem n hm)
  exact fixed _ idle

/-- The protect request at index i is no longer in its ring; a frame of a port comes next. -/
def State.protTaken (s : State) (i : Nat) : State :=
  (s.setF Reg.INK_PROT_HEAD Fld.INK_PROT_HEAD_CONS
    ((i + 1) % 2 ^ s.getF Reg.INK_PROT_BASE_LO Fld.INK_PROT_BASE_LO_PRING_LOG2)).inkMod (fun x => { x with rrProt := false })

/-- A protect request that need not wait leaves its ring and enters lane l. -/
theorem State.grantProtect_of_free (free : s.mustHold (u32 (s.rdMem (s.protA i) 32) 0 % 2 ^ 20) (s.ahead none) = false) :
    ∃ n g j, s.grantProtect l i = ((s.protTaken i).protKey n g).1.setLane l (((s.protTaken i).protKey n g).1.laneJobs l ++ [j]) :=
  have waits : (s.protTaken i).mustHold (u32 (s.rdMem (s.protA i) 32) 0 % 2 ^ 20) (s.ahead none) = false := free
  ⟨_, _, _, if_neg (Bool.eq_false_iff.mp waits)⟩

/-- CONS holds 12 bits of the index that follows, and the lane has one job more. -/
theorem State.grantProtect_leaves (free : s.mustHold (u32 (s.rdMem (s.protA i) 32) 0 % 2 ^ 20) (s.ahead none) = false) :
    (s.grantProtect l i).getF Reg.INK_PROT_HEAD Fld.INK_PROT_HEAD_CONS =
      (i + 1) % 2 ^ s.getF Reg.INK_PROT_BASE_LO Fld.INK_PROT_BASE_LO_PRING_LOG2 % 2 ^ 12 ∧
    ((s.grantProtect l i).laneJobs l).length = (s.laneJobs l).length + 1 ∧ (s.grantProtect l i).ink.rrProt = false := by
  obtain ⟨n, g, j, granted⟩ := State.grantProtect_of_free (l := l) free
  obtain ⟨kc, deriv, ink⟩ := (s.protTaken i).ink_protKey n g
  have jobs : ((s.protTaken i).protKey n g).1.laneJobs l = s.laneJobs l := by
    rw [State.laneJobs, ink]
    rfl
  rw [granted]
  refine ⟨?_, ?_, congrArg InkState.rrProt ink⟩
  · calc fget Fld.INK_PROT_HEAD_CONS (((s.protTaken i).protKey n g).1.raw Reg.INK_PROT_HEAD)
        = (s.protTaken i).getF Reg.INK_PROT_HEAD Fld.INK_PROT_HEAD_CONS :=
          congrArg _ ((s.protTaken i).raw_protKey n g (by decide) (by decide))
      _ = _ := State.getF_setF s Reg.INK_PROT_HEAD Fld.INK_PROT_HEAD_CONS _
  · rw [State.laneJobs_setLane, jobs, List.length_append, List.length_singleton]

/-- A lane of the port pool with room takes the next protect request where nothing else waits for it. -/
theorem execIntakeGrant_protect (err : Bool) (grants : s.inkGrants = true) (idle : ∀ n ∈ List.range 64, s.ringReady n = false)
    (serves : s.laneServes l = true) (room : (s.laneJobs l).length < 2) (pool : bit (s.raw Reg.INK_POOL) l = false)
    (back : s.ink.back = []) (ready : s.protReady = some i) (port : s.nextPort = none) :
    execIntakeGrant l err s = .next (s.grantProtect l i) := by
  have grant : s.grantPort l err = s.grantProtect l i := by
    simp only [State.grantPort, back, List.find?_nil, port, ready]
  simp [execIntakeGrant, grants, State.ringPassAll_of_noneReady idle, serves, room, pool, grant]

/-- The clause on protect requests as the model has it: CONS keeps 12 bits. -/
theorem runs_intakeGrant_protect (err : Bool) (grants : s.inkGrants = true) (idle : ∀ n ∈ List.range 64, s.ringReady n = false)
    (serves : s.laneServes l = true) (room : (s.laneJobs l).length < 2) (pool : bit (s.raw Reg.INK_POOL) l = false)
    (back : s.ink.back = []) (ready : s.protReady = some i) (port : s.nextPort = none)
    (free : s.mustHold (u32 (s.rdMem (s.protA i) 32) 0 % 2 ^ 20) (s.ahead none) = false) :
    Runs (.intakeGrant l err) s (fun t => t.getF Reg.INK_PROT_HEAD Fld.INK_PROT_HEAD_CONS =
      (i + 1) % 2 ^ s.getF Reg.INK_PROT_BASE_LO Fld.INK_PROT_BASE_LO_PRING_LOG2 % 2 ^ 12 ∧
      (t.laneJobs l).length = (s.laneJobs l).length + 1 ∧ t.ink.rrProt = false) :=
  ⟨_, execIntakeGrant_protect err grants idle serves room pool back ready port, State.grantProtect_leaves free⟩

end Grants

/-! ## A ring beyond CONS -/

/-- Intake runs with lane 3 in service. The protect ring has 2^13 descriptors, more than PRING_LOG2 can be written to say (R221), and the
one at index 4095 is ready. -/
def protRingBeyondCons : State :=
  ((((((State.reset.setF Reg.INK_CTL Fld.INK_CTL_EN 1).build (blockPath 5 3) { kind := 2 }).setF Reg.INK_PROT_HEAD Fld.INK_PROT_HEAD_PROD 1).setF
    Reg.INK_PROT_HEAD Fld.INK_PROT_HEAD_CONS 4095).setF Reg.INK_PROT_BASE_LO Fld.INK_PROT_BASE_LO_PRING_LOG2 13).wrMem (32 * 4095 + 6) [128])

theorem laneFree_protRingBeyondCons : protRingBeyondCons.inkGrants = true ∧ (∀ n ∈ List.range 64, protRingBeyondCons.ringReady n = false) ∧
    protRingBeyondCons.laneServes 3 = true ∧ (protRingBeyondCons.laneJobs 3).length < 2 ∧
    bit (protRingBeyondCons.raw Reg.INK_POOL) 3 = false ∧ protRingBeyondCons.ink.back = [] := by decide +kernel

theorem requestWaits_protRingBeyondCons : protRingBeyondCons.protReady = some 4095 ∧ protRingBeyondCons.nextPort = none ∧
    protRingBeyondCons.mustHold (u32 (protRingBeyondCons.rdMem (protRingBeyondCons.protA 4095) 32) 0 % 2 ^ 20)
      (protRingBeyondCons.ahead none) = false := by decide +kernel

theorem log2_protRingBeyondCons : protRingBeyondCons.getF Reg.INK_PROT_BASE_LO Fld.INK_PROT_BASE_LO_PRING_LOG2 = 13 := by decide +kernel

end Sys2Proof.Machine

open Sys2Proof Sys2Proof.Machine

/-- Refutes O27: the clause on protect requests has CONS at 4096 after index 4095 of a ring of 2^13 descriptors, which it does not exclude,
but CONS has 12 bits and shows 0. A register write cannot give PRING_LOG2 a value above 12 (R221); up to there the clause agrees with
`runs_intakeGrant_protect`. -/
theorem not_intakeGrantsWork : ¬ Obligations.IntakeGrantsWork := by
  unfold Obligations.IntakeGrantsWork
  rintro ⟨-, -, -, protect, -⟩
  obtain ⟨grants, idle, serves, room, pool, back⟩ := laneFree_protRingBeyondCons
  obtain ⟨ready, port, free⟩ := requestWaits_protRingBeyondCons
  obtain ⟨t, ht, claimed, -⟩ := protect 3 4095 false protRingBeyondCons grants idle serves room pool back ready port free
  obtain ⟨u, hu, shown, -⟩ := runs_intakeGrant_protect false grants idle serves room pool back ready port free
  obtain rfl := Host.Outcome.next.inj (ht.symm.trans hu)
  rw [claimed, log2_protRingBeyondCons] at shown
  exact absurd shown (by decide)

end

/-! # The store: what its operations leave, page by page and unit by unit; a copy whose target was closed, and a trim with every fine map
in use (R281–R318) -/

section

-- Proofs are elaborated in turn: every thread that waits for another takes its stack from the memory a compile may use.
set_option Elab.async false

namespace Sys2Proof.Machine

/-! ## Registers of the store that placing units leaves

Placing units sets flags in STO_STAT and STO_INT_STAT, and counts pads and erases. -/

theorem State.phase_setPhase (s : State) (v : Nat) (hv : v < 16) : (s.setPhase v).phase = v :=
  (s.getF_setF Reg.STO_STAT Fld.STO_STAT_PHASE v).trans (Nat.mod_eq_of_lt hv)

theorem State.raw_setPhase (s : State) (v : Nat) {k : Nat} (hk : k ≠ Reg.STO_STAT) : (s.setPhase v).raw k = s.raw k :=
  s.raw_setF_ne _ v hk

/-- What each step of a loop leaves, the loop leaves. -/
theorem State.apply_each {α β : Type} (g : State → β) {f : α → State → State} (hf : ∀ a u, g (f a u) = g u) (s : State) (l : List α) :
    g (s.each l f) = g s := by
  induction l generalizing s with
  | nil => rfl
  | cons a l ih => exact (ih (f a s)).trans (hf a s)

/-- The counters that placing units, pads and anchors advances. -/
abbrev placeCounters : List Nat := [Reg.STO_PAD_UNITS_CNT, Reg.STO_ERASE_CNT]

/-- PHASE and READY stay, and so does every register of the store but flags, the counters of placing, and those in X. -/
structure RegsSteady (X : List Nat) (s t : State) : Prop where
  phase : t.phase = s.phase
  ready : t.isF Reg.STO_INT_STAT Fld.STO_INT_STAT_READY = s.isF Reg.STO_INT_STAT Fld.STO_INT_STAT_READY
  raw : ∀ k, window k = 9 → k ∉ Reg.STO_STAT :: Reg.STO_INT_STAT :: placeCounters → k ∉ X → t.raw k = s.raw k

namespace RegsSteady

variable {X : List Nat} {s t : State}

theorem refl (X : List Nat) (s : State) : RegsSteady X s s := ⟨rfl, rfl, fun _ _ _ _ => rfl⟩

theorem trans {u : State} (h : RegsSteady X s t) (g : RegsSteady X t u) : RegsSteady X s u :=
  ⟨g.phase.trans h.phase, g.ready.trans h.ready, fun k w f x => (g.raw k w f x).trans (h.raw k w f x)⟩

theorem mono {Y : List Nat} (h : RegsSteady X s t) (hXY : X ⊆ Y) : RegsSteady Y s t :=
  ⟨h.phase, h.ready, fun k w f x => h.raw k w f (fun hk => x (hXY hk))⟩

theorem of_raw (h : ∀ k, window k = 9 → t.raw k = s.raw k) : RegsSteady X s t :=
  ⟨State.getF_of_raw (h _ (by decide)) _, State.isF_of_raw (h _ (by decide)) _, fun k w _ _ => h k w⟩

/-- A write to a register that may differ. -/
theorem wr {k : Nat} (w : Word) (hk : k ∈ X ∨ k ∈ placeCounters) (hs : Reg.STO_STAT ≠ k) (hi : Reg.STO_INT_STAT ≠ k) :
    RegsSteady X s (s.wr k w) where
  phase := State.getF_of_raw (s.raw_wr_ne w hs) _
  ready := State.isF_of_raw (s.raw_wr_ne w hi) _
  raw j _ hf hx := by
    refine s.raw_wr_ne w (fun e => ?_)
    subst e
    rcases hk with hk | hk
    · exact hx hk
    · exact hf (List.mem_cons_of_mem _ (List.mem_cons_of_mem _ hk))

/-- A flag of STO_STAT beside PHASE. -/
theorem setStat (f : BitRange) (v : Nat) (hf : f.hi < 28) (hl : f.lo ≤ f.hi) : RegsSteady X s (s.setF Reg.STO_STAT f v) where
  phase := State.getF_setF_ne s _ v (.inr hf) hl
  ready := State.isF_of_raw (s.raw_setF_ne f v (by decide)) _
  raw j _ hj _ := s.raw_setF_ne f v (fun e => hj (e ▸ List.mem_cons_self))

/-- A flag of STO_INT_STAT other than READY. -/
theorem raiseInt (f : BitRange) (hf : 0 < f.lo) (hl : f.lo ≤ f.hi) : RegsSteady X s (s.raiseF Reg.STO_INT_STAT f) where
  phase := State.getF_of_raw (s.raw_raiseF_ne f (by decide)) _
  ready := State.isF_setF_ne s _ 1 (.inl hf) hl
  raw j _ hj _ := s.raw_raiseF_ne f (fun e => hj (e ▸ List.mem_cons_of_mem _ List.mem_cons_self))

end RegsSteady

/-! ## Opening and closing superblocks (R284, R285) -/

/-- Of the store's tables only those of superblocks differ, and entries may have joined the journal. -/
structure Opens (s t : State) : Prop extends RegsSteady [] s t where
  sto : ∃ sbs no new, t.sto = { s.sto with sbs := sbs, closeNo := no, jpend := s.sto.jpend ++ new }

namespace Opens

variable {s0 s : State}

theorem refl (s : State) : Opens s s := ⟨.refl _ s, s.sto.sbs, s.sto.closeNo, [], by rw [List.append_nil]⟩

theorem jour (h : Opens s0 s) (e : JEntry) : Opens s0 (s.jour e) := by
  obtain ⟨sbs, no, new, hs⟩ := h.sto
  refine ⟨h.toRegsSteady.trans (.of_raw fun _ _ => rfl), sbs, no, new ++ [e], ?_⟩
  rw [State.jour, State.stoMod, hs, List.append_assoc]

theorem sbMod (h : Opens s0 s) (b : Nat) (f : SBlk → SBlk) : Opens s0 (s.sbMod b f) := by
  obtain ⟨sbs, no, new, hs⟩ := h.sto
  refine ⟨h.toRegsSteady.trans (.of_raw fun _ _ => rfl), tmod sbDflt sbs b f, no, new, ?_⟩
  rw [State.sbMod, State.stoMod, hs]

theorem closeSb (h : Opens s0 s) (b : Nat) : Opens s0 (s.closeSb b) := by
  obtain ⟨sbs, no, new, hs⟩ := h.sto
  refine ⟨h.toRegsSteady.trans (.of_raw fun _ _ => rfl), (s.closeSb b).sto.sbs, no + 1, new, ?_⟩
  simp only [State.closeSb, hs]

theorem regs {t : State} (h : Opens s0 s) (g : RegsSteady [] s t) (hs : t.sto = s.sto) : Opens s0 t :=
  ⟨h.toRegsSteady.trans g, hs ▸ h.sto⟩

theorem when (h : Opens s0 s) (c : Bool) {f : State → State} (hf : ∀ u, Opens s0 u → Opens s0 (f u)) : Opens s0 (s.when c f) := by
  cases c
  · exact h
  · exact hf s h

theorem openAt (h : Opens s0 s) (b stream : Nat) (slc : Bool) (mask : Nat) : Opens s0 (s.openAt b stream slc mask) := by
  unfold State.openAt
  refine ((((h.sbMod b _).jour _).when _ fun u hu => ?_).when _ fun u hu => ?_)
  · exact hu.regs (.setStat Fld.STO_STAT_NOPARITY 1 (by decide) (by decide)) rfl
  · exact hu.regs (.raiseInt Fld.STO_INT_STAT_LOW_FREE (by decide) (by decide)) rfl

theorem openNext (h : Opens s0 s) (stream n : Nat) : Opens s0 (s.openNext stream n) := by
  induction n generalizing s with
  | zero => exact h
  | succ n ih =>
    unfold State.openNext
    split
    · exact h
    · dsimp only
      split
      · exact ih (h.sbMod _ _)
      · exact h.openAt _ _ _ _

theorem readySb (h : Opens s0 s) (stream : Nat) : Opens s0 (s.readySb stream) := by
  unfold State.readySb
  split
  · exact h.openNext stream 64
  · split
    · exact h
    · exact (h.closeSb _).openNext stream 64

end Opens

/-- A unit placed is held back, or takes the next offset of a superblock made ready for it. -/
theorem State.place_cases (s : State) (stream : Nat) (u : SUnit) :
    (∃ t, Opens s t ∧ s.place stream u = (t, 0)) ∨
      ∃ t b, Opens s t ∧ s.place stream u = (t.putAt b u, locOf b (t.sb b).next + 1) := by
  have ready := (Opens.refl s).readySb stream
  unfold State.place
  dsimp only
  split
  · left
    split
    · exact ⟨_, ready.regs (.setStat Fld.STO_STAT_FULL 1 (by decide) (by decide)) rfl, rfl⟩
    · exact ⟨_, ready, rfl⟩
  · exact .inr ⟨_, _, ready, rfl⟩

/-! ## Compacting a coarse unit (R288) -/

/-- The state with a superblock of the relocation stream that has room for a coarse unit. -/
def State.compactReady (s : State) : State :=
  match s.openSb 2 with
  | none => s.openNext 2 64
  | some b => if s.sbCap (s.sb b) - (s.sb b).next < 256 then (s.closeSb b).openNext 2 64 else s

/-- Unit k of coarse unit cu moves to the relocation stream, a zero unit in the place of one unmapped or lost. -/
def State.compactUnit (cu k : Nat) (s : State) : State :=
  let lua := cu * 256 + k
  let old := s.mapOf lua
  let x : SUnit := if old = 0 ∨ old = lostMark then { lua := lua, kind := 0, data := List.replicate 4096 0, copy := true }
    else { s.unitAt (old - 1) with copy := true, srcSb := (old - 1) / 2 ^ 17 }
  let (v, l) := s.place 2 { x with prog := false }
  if l = 0 then v else (v.mapRaw lua l).jour (.map lua l)

theorem State.compactUnit_eq (s : State) (cu k : Nat) : ∃ x, State.compactUnit cu k s = if (s.place 2 x).2 = 0 then (s.place 2 x).1 else
    ((s.place 2 x).1.mapRaw (cu * 256 + k) (s.place 2 x).2).jour (.map (cu * 256 + k) (s.place 2 x).2) := ⟨_, rfl⟩

/-- Every unit of coarse unit cu has moved. -/
def State.compactMoved (s : State) (cu : Nat) : State := s.compactReady.each (List.range 256) (State.compactUnit cu)

theorem State.compact_eq (s : State) (cu : Nat) :
    s.compact cu = (match (s.compactMoved cu).openSb 2 with
      | none => s.compactMoved cu
      | some b => (s.compactMoved cu).stripeClose b).stoMod
        (fun x => { x with fmaps := x.fmaps.filter (fun e => decide (e.1 ≠ cu)) }) := by
  unfold State.compact State.compactMoved State.compactReady
  generalize List.range 256 = units
  cases s.openSb 2 with
  | none => rfl
  | some b => rfl

theorem State.compactReady_of_none {s : State} (none : s.openSb 2 = none) : s.compactReady = s.openNext 2 64 := by
  rw [State.compactReady, none]

theorem Opens.compactReady (s : State) : Opens s s.compactReady := by
  unfold State.compactReady
  split
  · exact (Opens.refl s).openNext 2 64
  · split
    · exact ((Opens.refl s).closeSb _).openNext 2 64
    · exact .refl s

/-! ## What placing, mapping and closing stripes leave of the store (R287–R291) -/

/-- What placing units does not touch of the store: the pass, bad blocks, gathered records, and the journal. -/
def StoState.kept (x : StoState) : Option (Nat × Nat) × List (Nat × Nat) × List Bytes × List (Nat × List JEntry) × List JEntry :=
  (x.pass, x.badBlks, x.recs, x.jlog, x.jpend)

/-- Beside the registers: the pass and the bad blocks stay, the records gathered stay while STO_REC_HEAD does, and no journal entry is
programmed or dropped. -/
structure Steady (X : List Nat) (s t : State) : Prop extends RegsSteady X s t where
  pass : t.sto.pass = s.sto.pass
  bad : t.sto.badBlks = s.sto.badBlks
  recs : Reg.STO_REC_HEAD ∉ X → t.sto.recs = s.sto.recs
  jlog : t.sto.jlog = s.sto.jlog
  jpend : s.sto.jpend <+: t.sto.jpend

namespace Steady

variable {X : List Nat} {s0 s : State}

theorem refl (X : List Nat) (s : State) : Steady X s s := ⟨.refl X s, rfl, rfl, fun _ => rfl, rfl, List.prefix_rfl⟩

theorem trans {t u : State} (h : Steady X s t) (g : Steady X t u) : Steady X s u :=
  ⟨h.toRegsSteady.trans g.toRegsSteady, g.pass.trans h.pass, g.bad.trans h.bad, fun x => (g.recs x).trans (h.recs x),
    g.jlog.trans h.jlog, h.jpend.trans g.jpend⟩

/-- An update of registers alone. -/
theorem regs {t : State} (h : Steady X s0 s) (g : RegsSteady X s t) (hs : t.sto = s.sto) : Steady X s0 t :=
  h.trans ⟨g, hs ▸ rfl, hs ▸ rfl, fun _ => hs ▸ rfl, hs ▸ rfl, hs ▸ List.prefix_rfl⟩

/-- An update of what placing units may touch. -/
theorem sto {t : State} (h : Steady X s0 s) (hr : t.regs = s.regs := by rfl) (hk : t.sto.kept = s.sto.kept := by rfl) :
    Steady X s0 t := by
  simp only [StoState.kept, Prod.mk.injEq] at hk
  obtain ⟨pass, bad, recs, jlog, jpend⟩ := hk
  exact h.trans ⟨.of_raw fun k _ => State.raw_congr hr k, pass, bad, fun _ => recs, jlog, jpend ▸ List.prefix_rfl⟩

/-- An operation outside the store. -/
theorem outside {L : List Part} {t : State} (h : Steady X s0 s) (g : Keeps L s t) (hs : Part.sto ∉ L := by decide)
    (hw : Part.win 9 ∉ L := by decide) : Steady X s0 t :=
  h.regs (.of_raw (g.only (.win 9) hw)) (g.only .sto hs)

theorem opens {t : State} (h : Steady X s0 s) (g : Opens s t) : Steady X s0 t := by
  obtain ⟨sbs, no, new, hs⟩ := g.sto
  refine h.trans ⟨g.toRegsSteady.mono (List.nil_subset X), ?_, ?_, fun _ => ?_, ?_, ?_⟩
  all_goals rw [hs]
  exact List.prefix_append _ _

theorem when (h : Steady X s0 s) (c : Bool) {f : State → State} (hf : ∀ u, Steady X s0 u → Steady X s0 (f u)) :
    Steady X s0 (s.when c f) := by
  cases c
  · exact h
  · exact hf s h

theorem each {α : Type} (h : Steady X s0 s) (l : List α) {f : α → State → State} (hf : ∀ a u, Steady X s0 u → Steady X s0 (f a u)) :
    Steady X s0 (s.each l f) := by
  induction l generalizing s with
  | nil => exact h
  | cons a l ih => exact ih (hf a s h)

theorem stoMod {f : StoState → StoState} (h : Steady X s0 s) (hk : (f s.sto).kept = s.sto.kept) : Steady X s0 (s.stoMod f) := h.sto rfl hk

theorem fmaps (h : Steady X s0 s) (f : StoState → List (Nat × Nat)) :
    Steady X s0 (s.stoMod (fun x => { x with fmaps := f x })) := h.sto

theorem bump (h : Steady X s0 s) (k : Nat) (hk : k ∈ X ∨ k ∈ placeCounters) (hs : Reg.STO_STAT ≠ k := by decide)
    (hi : Reg.STO_INT_STAT ≠ k := by decide) : Steady X s0 (s.bump k) := h.regs (.wr _ hk hs hi) rfl

theorem jour (h : Steady X s0 s) (e : JEntry) : Steady X s0 (s.jour e) := h.opens ((Opens.refl s).jour e)

theorem sbMod (h : Steady X s0 s) (b : Nat) (f : SBlk → SBlk) : Steady X s0 (s.sbMod b f) := h.sto

theorem mapRaw (h : Steady X s0 s) (lua v : Nat) : Steady X s0 (s.mapRaw lua v) := h.sto

theorem wrMem (h : Steady X s0 s) (a : Nat) (b : Bytes) : Steady X s0 (s.wrMem a b) := h.sto

theorem putAt (h : Steady X s0 s) (b : Nat) (u : SUnit) : Steady X s0 (s.putAt b u) := h.sto

theorem place (h : Steady X s0 s) (stream : Nat) (u : SUnit) : Steady X s0 (s.place stream u).1 := by
  rcases s.place_cases stream u with ⟨t, opened, e⟩ | ⟨t, b, opened, e⟩
  · rw [e]
    exact h.opens opened
  · rw [e]
    exact (h.opens opened).putAt b u

theorem padWith (h : Steady X s0 s) (b n : Nat) : Steady X s0 (s.padWith b n) := by
  induction n generalizing s with
  | zero => exact h
  | succ n ih => exact ih ((h.putAt b _).bump _ (.inr (by decide)))

theorem parityDone (h : Steady X s0 s) (b p : Nat) : Steady X s0 (s.parityDone b p) := h.sto

theorem programSb (h : Steady X s0 s) (b : Nat) : Steady X s0 (s.programSb b) := by
  unfold State.programSb
  dsimp only
  split
  · exact h.sto
  · exact Steady.each h.sto _ fun p _ hu => hu.parityDone b p

theorem stripeClose (h : Steady X s0 s) (b : Nat) : Steady X s0 (s.stripeClose b) := (h.padWith b _).programSb b

/-- A unit that moves takes its place, its map entry and a MAP entry, or is held back. -/
theorem placeMapped (h : Steady X s0 s) (stream lua : Nat) (x : SUnit) {f : State → Nat → State}
    (hf : ∀ v l, Steady X s0 v → Steady X s0 (f v l)) :
    Steady X s0 (if (s.place stream x).2 = 0 then (s.place stream x).1 else (f (s.place stream x).1 (s.place stream x).2).jour
      (.map lua (s.place stream x).2)) := by
  split
  · exact h.place stream x
  · exact (hf _ _ (h.place stream x)).jour _

theorem compactUnit (h : Steady X s0 s) (cu k : Nat) : Steady X s0 (State.compactUnit cu k s) :=
  h.placeMapped 2 _ _ fun _ _ hv => hv.mapRaw _ _

/-- Once a superblock is ready for it, a compaction only moves units. -/
theorem compact_ready (X : List Nat) (s : State) (cu : Nat) : Steady X s.compactReady (s.compact cu) := by
  have moved : Steady X s.compactReady (s.compactMoved cu) := (Steady.refl X _).each _ fun k _ hu => hu.compactUnit cu k
  rw [State.compact_eq]
  refine fmaps ?_ _
  split
  · exact moved
  · exact moved.stripeClose _

theorem compact (h : Steady X s0 s) (cu : Nat) : Steady X s0 (s.compact cu) :=
  (h.opens (Opens.compactReady s)).trans (compact_ready X s cu)

/-- With every fine map in use, a coarse unit that needs one has another compacted (R288). -/
theorem fmapNew (h : Steady X s0 s) (cu : Nat) : Steady X s0 (s.fmapNew cu) := by
  unfold State.fmapNew
  dsimp only
  refine wrMem (fmaps ?_ _) _ _
  split
  · exact h
  · split
    · exact h
    · exact h.compact _

theorem fmapSync (h : Steady X s0 s) (cu : Nat) {f : Nat → State → State} (hf : ∀ i u, Steady X s0 u → Steady X s0 (f i u)) :
    Steady X s0 (s.fmapSync cu f) := by
  unfold State.fmapSync
  dsimp only
  split
  · exact h.stoMod rfl
  · split
    · exact hf _ _ (h.stoMod rfl)
    · exact h.fmapNew cu

theorem mapSet (h : Steady X s0 s) (lua v : Nat) : Steady X s0 (s.mapSet lua v) := by
  unfold State.mapSet
  exact (h.mapRaw lua v).fmapSync _ fun _ _ hu => hu.wrMem _ _

theorem sysPut (h : Steady X s0 s) (kind no : Nat) (data : Bytes) : Steady X s0 (s.sysPut kind no data).1 := by
  unfold State.sysPut
  dsimp only
  split
  · exact h
  · exact (h.place 3 _).mapRaw _ _

end Steady

/-! ## Journal units (R305) -/

/-- Entries that wait, and entries programmed. -/
def State.journal (s : State) : List JEntry := s.sto.jpend ++ s.sto.jlog.flatMap (fun u => u.2)

theorem jUnit_prefix (l : List JEntry) (room : Nat) : jUnit l room <+: l := by
  induction l generalizing room with
  | nil => exact List.prefix_rfl
  | cons e l ih =>
    unfold jUnit
    split
    · exact List.cons_prefix_cons.mpr ⟨rfl, ih _⟩
    · exact List.nil_prefix

/-- The state with one more journal unit of entries u, the first that waited. -/
def State.jUnitDone (s : State) (u : List JEntry) : State :=
  s.stoMod (fun x => { x with jlog := x.jlog ++ [(x.jseq, u)], jseq := x.jseq + 1, jpend := x.jpend.drop u.length })

/-- Nothing is programmed, or one unit of the entries that have waited longest. -/
theorem State.jProgram_cases (s : State) :
    s.jProgram = s ∨ ∃ u no data, u <+: s.sto.jpend ∧ s.jProgram = (s.sysPut 2 no data).1.jUnitDone u := by
  unfold State.jProgram
  dsimp only
  split
  · exact .inl rfl
  · split
    · exact .inl rfl
    · exact .inr ⟨_, _, _, (jUnit_prefix _ _).trans (List.takeWhile_prefix _), rfl⟩

section Journal

variable (s : State)

/-- Whatever each journal unit keeps, draining the journal keeps. -/
theorem State.jDrain_induct {P : State → Prop} (hP : ∀ t, P t → P t.jProgram) (n : Nat) (h : P s) : P (s.jDrain n) := by
  induction n generalizing s with
  | zero => exact h
  | succ n ih =>
    unfold State.jDrain
    split
    · exact h
    · exact ih _ (hP s h)

theorem State.regs_jProgram (X : List Nat) : RegsSteady X s s.jProgram := by
  rcases s.jProgram_cases with e | ⟨u, no, data, -, e⟩
  · rw [e]
    exact .refl X s
  · rw [e]
    exact ((Steady.refl X s).sysPut 2 no data).toRegsSteady.trans (.of_raw fun _ _ => rfl)

theorem State.regs_jDrain (X : List Nat) (n : Nat) : RegsSteady X s (s.jDrain n) :=
  s.jDrain_induct (fun t h => h.trans (t.regs_jProgram X)) n (.refl X s)

theorem State.recs_jProgram : s.jProgram.sto.recs = s.sto.recs := by
  rcases s.jProgram_cases with e | ⟨u, no, data, -, e⟩
  · rw [e]
  · rw [e]
    exact ((Steady.refl [] s).sysPut 2 no data).recs (by decide)

variable {s}

/-- An entry that is programmed stays in the journal. -/
theorem State.mem_journal_jProgram {e : JEntry} (h : e ∈ s.journal) : e ∈ s.jProgram.journal := by
  rcases s.jProgram_cases with done | ⟨u, no, data, ⟨rest, waiting⟩, done⟩
  · rwa [done]
  · have put := (Steady.refl [] s).sysPut 2 no data
    obtain ⟨new, joined⟩ := put.jpend
    simp only [State.journal, ← waiting, List.mem_append, List.mem_flatMap] at h
    simp only [done, State.journal, State.jUnitDone, State.stoMod, ← joined, ← waiting, put.jlog, List.append_assoc, List.drop_left,
      List.mem_append, List.flatMap_append, List.flatMap_singleton, List.mem_flatMap]
    exact h.elim (fun h => h.elim (fun taken => .inr (.inr (.inr taken))) .inl) fun before => .inr (.inr (.inl before))

theorem State.mem_journal_jDrain {e : JEntry} (n : Nat) (h : e ∈ s.journal) : e ∈ (s.jDrain n).journal :=
  s.jDrain_induct (P := fun t => e ∈ t.journal) (fun _ => State.mem_journal_jProgram) n h

variable (s)

/-- A flush ends with SHUT (R311). -/
theorem State.shut_flushJournal : (s.flushJournal.sto.jpend ++ s.flushJournal.sto.jlog.flatMap (fun u => u.2)).contains .shut = true :=
  List.contains_iff_mem.mpr (State.mem_journal_jDrain _ (List.mem_append_left _ (List.mem_append_right _ List.mem_cons_self)))

theorem State.regs_flushJournal (X : List Nat) : RegsSteady X s s.flushJournal :=
  ((Steady.refl X s).jour .shut).toRegsSteady.trans (State.regs_jDrain _ X _)

/-! A unit of the system partition counts as programmed at once, so that no unit programmed becomes one that is not. -/

variable {s}

theorem Opens.unitAt {t : State} (h : Opens s t) (loc : Nat) : t.unitAt loc = s.unitAt loc := by
  obtain ⟨sbs, no, new, hs⟩ := h.sto
  rw [State.unitAt, hs]
  rfl

theorem State.prog_place {loc : Nat} (h : (s.unitAt loc).prog = true) (stream : Nat) {u : SUnit} (hu : u.prog = true) :
    ((s.place stream u).1.unitAt loc).prog = true := by
  rcases s.place_cases stream u with ⟨t, opened, e⟩ | ⟨t, b, opened, e⟩
  · rwa [e, opened.unitAt]
  · rw [e]
    simp only [State.unitAt, State.putAt, State.stoMod, State.sbMod, tget_tset]
    split
    · exact hu
    · exact (congrArg SUnit.prog (opened.unitAt loc)).trans h

theorem State.prog_jProgram {loc : Nat} (h : (s.unitAt loc).prog = true) : (s.jProgram.unitAt loc).prog = true := by
  rcases s.jProgram_cases with e | ⟨u, no, data, -, e⟩
  · rwa [e]
  · rw [e]
    show ((s.sysPut 2 no data).1.unitAt loc).prog = true
    unfold State.sysPut
    dsimp only
    split
    · exact h
    · exact State.prog_place h 3 rfl

theorem State.prog_jDrain {loc : Nat} (n : Nat) (h : (s.unitAt loc).prog = true) : ((s.jDrain n).unitAt loc).prog = true :=
  s.jDrain_induct (P := fun t => (t.unitAt loc).prog = true) (fun _ => State.prog_jProgram) n h

end Journal

/-! ## Record units, lost units and retired blocks (R289, R297, R298) -/

namespace Steady

variable {X : List Nat} {s0 s : State}

theorem setStat (h : Steady X s0 s) (f : BitRange) (v : Nat) (hf : f.hi < 28 := by decide) (hl : f.lo ≤ f.hi := by decide) :
    Steady X s0 (s.setF Reg.STO_STAT f v) := h.regs (.setStat f v hf hl) rfl

theorem raiseInt (h : Steady X s0 s) (f : BitRange) (hf : 0 < f.lo := by decide) (hl : f.lo ≤ f.hi := by decide) :
    Steady X s0 (s.raiseF Reg.STO_INT_STAT f) := h.regs (.raiseInt f hf hl) rfl

theorem wr (h : Steady X s0 s) (k : Nat) (w : Word) (hk : k ∈ X) (hs : Reg.STO_STAT ≠ k := by decide)
    (hi : Reg.STO_INT_STAT ≠ k := by decide) : Steady X s0 (s.wr k w) := h.regs (.wr w (.inl hk) hs hi) rfl

/-- A report is made outside the store. -/
theorem report (h : Steady X s0 s) (code sev path : Nat) (data : Bytes) : Steady X s0 (s.report code sev path data) :=
  h.outside ((Keeps.refl [.smp, .win 4] s).report code sev path data)

/-- A record unit leaves the records gathered; STO_REC_HEAD is among the registers that may differ. -/
theorem recUnitPut (h : Steady X s0 s) (stream : Nat) (hX : Reg.STO_REC_HEAD ∈ X) : Steady X s0 (s.recUnitPut stream) := by
  have taken : ∀ t : State, Steady X s0 t → Steady X s0 (t.stoMod (fun x => { x with dseq := x.dseq + 1, recs := [] })) :=
    fun t ht => ht.trans ⟨.of_raw fun _ _ => rfl, rfl, rfl, fun e => absurd hX e, rfl, List.prefix_rfl⟩
  unfold State.recUnitPut
  dsimp only
  generalize (if s.partUnits 0 = 0 then 0 else s.num Reg.STO_REC_HEAD % s.partUnits 0) = fine
  split
  · exact h
  · split
    · exact h.setStat _ 1
    · split
      · exact h.place _ _
      · exact (((taken _ (h.place _ _)).mapSet _ _).jour _).wr _ _ hX

theorem unitLost (h : Steady X s0 s) (lua : Nat) (hX : Reg.STO_LOST_CNT ∈ X) : Steady X s0 (s.unitLost lua) :=
  ((((h.mapSet lua lostMark).jour _).bump _ (.inl hX)).raiseInt _).report _ _ _ _

theorem anchorErase (h : Steady X s0 s) (d : Nat) (l : List Nat) : Steady X s0 (s.anchorErase d l) :=
  h.each l fun _ _ hu => (hu.stoMod rfl).bump _ (.inr (by decide))

theorem anchorPut (h : Steady X s0 s) (c : Nat) : Steady X s0 (s.anchorPut c) := by
  unfold State.anchorPut
  split
  · exact h.sto
  · refine when (Steady.sto (h.when _ fun u hu => ?_)) _ fun u hu => ?_
    · exact hu.anchorErase _ _
    · exact hu.anchorErase _ _

/-- NOPARITY shows how many dies are left, and channels may get new anchors (R284, R308). -/
theorem dieChange (h : Steady X s0 s) : Steady X s0 s.dieChange := by
  refine (h.setStat Fld.STO_STAT_NOPARITY _).each _ fun c u hu => ?_
  split
  · exact hu.anchorPut c
  · exact hu

/-- A block retired joins the bad ones; its die may be retired with it. -/
theorem blkRetire {d b reason : Nat} (good : s.blkBad d b = false) :
    Steady [Reg.STO_DIE_STAT] (s.stoMod (fun x => { x with badBlks := x.badBlks ++ [(d, b)] })) (s.blkRetire d b reason) := by
  unfold State.blkRetire
  rw [if_neg (Bool.eq_false_iff.mp good)]
  refine dieChange ?_
  have retired := (Steady.refl [Reg.STO_DIE_STAT] (s.stoMod (fun x => { x with badBlks := x.badBlks ++ [(d, b)] }))).jour (.bad d b reason)
  split
  · exact (retired.wr Reg.STO_DIE_STAT _ (by decide)).raiseInt _
  · exact retired

theorem pageRewrite (h : Steady X s0 s) (d b p : Nat) : Steady X s0 (s.pageRewrite d b p) := by
  unfold State.pageRewrite
  refine each (stoMod ((h.opens ((Opens.refl s).closeSb b)).sbMod _ _) rfl) _ fun e u hu => ?_
  exact hu.placeMapped _ _ _ fun v l hv => hv.mapSet _ _

end Steady

/-! ## Restoring the store's tables (R309, R312, R330) -/

/-- A unit of a partition is counted in STO_HOST_UNITS_CNT. -/
theorem Steady.storePut {X : List Nat} {s0 s : State} (h : Steady X s0 s) (part fine : Nat) (data : Bytes)
    (hX : Reg.STO_HOST_UNITS_CNT ∈ X) : Steady X s0 (s.storePut part fine data) := by
  unfold State.storePut
  dsimp only
  split
  · exact h.place _ _
  · exact ((((h.place 1 _).stoMod rfl).mapSet _ _).jour _).bump _ (.inl hX)

/-- The registers that replay writes (R312): the record positions, and what it counts. -/
abbrev replayRegs : List Nat := [Reg.STO_REC_HEAD, Reg.STO_REC_TAIL, Reg.STO_LOST_CNT, Reg.STO_GC_RESUME_CNT]

namespace Steady

variable {s0 s : State}

theorem sbErased (h : Steady replayRegs s0 s) (b mask : Nat) : Steady replayRegs s0 (s.sbErased b mask) :=
  (h.stoMod rfl).regs (.wr (k := Reg.STO_ERASE_CNT) _ (.inr (by decide)) (by decide) (by decide)) rfl

theorem sbFree (h : Steady replayRegs s0 s) (b : Nat) : Steady replayRegs s0 (s.sbFree b) := h.sto

theorem intentResolve (h : Steady replayRegs s0 s) (x : Nat × Nat × Nat × Nat × Nat) : Steady replayRegs s0 (s.intentResolve x) := by
  obtain ⟨i, src, tgt, t0, t1⟩ := x
  unfold State.intentResolve
  dsimp only
  refine bump (jour (sbFree (sbErased (each h _ fun e u hu => ?_) _ _) _) _) _ (.inl (by decide))
  split
  · exact hu
  · split
    · exact hu.mapSet _ _
    · split
      · split
        · exact hu.place 2 _
        · exact (hu.place 2 _).mapSet _ _
      · split
        · exact (hu.stoMod rfl).mapSet _ _
        · exact hu.unitLost _ (by decide)

theorem openResolve (h : Steady replayRegs s0 s) (b : Nat) : Steady replayRegs s0 (s.openResolve b) := by
  have closed := h.opens ((Opens.refl s).closeSb b)
  unfold State.openResolve
  dsimp only
  split
  · exact closed
  · exact closed.each _ fun e u hu => hu.placeMapped _ _ _ fun v l hv => hv.mapSet _ _

theorem mapSettle (h : Steady replayRegs s0 s) (start : Nat) : Steady replayRegs s0 (s.mapSettle start) := by
  unfold State.mapSettle
  refine each (each h _ fun e u hu => ?_) _ fun e u hu => hu.mapRaw _ _
  split
  · exact hu
  · split
    · exact hu
    · exact hu.mapRaw _ _

theorem fmapRebuild (h : Steady replayRegs s0 s) : Steady replayRegs s0 s.fmapRebuild := by
  refine h.each _ fun cu u hu => ?_
  split
  · exact hu
  · exact hu.fmapNew cu

end Steady

/-- No journal entry carries a checkpoint pass. -/
theorem pass_mapEntry (x : StoState) (r : MapRun) (e : JEntry) : (mapEntry x r e).1.pass = x.pass := by
  unfold mapEntry
  split
  case h_2 => split <;> rfl
  all_goals rfl

theorem pass_mapEntries (es : List JEntry) (a : StoState × MapRun) : (es.foldl (fun a e => mapEntry a.1 a.2 e) a).1.pass = a.1.pass := by
  induction es generalizing a with
  | nil => rfl
  | cons e es ih => exact (ih _).trans (pass_mapEntry a.1 a.2 e)

/-- Replay resumes no checkpoint pass. -/
theorem State.pass_storeReplay (s : State) : s.storeReplay.sto.pass = none := by
  suffices h : ∃ x : StoState, x.pass = none ∧ Steady replayRegs { s with sto := x } s.storeReplay by
    obtain ⟨x, none, steady⟩ := h
    exact steady.pass.trans none
  unfold State.storeReplay
  refine ⟨_, ?_, Steady.when (.setStat (.each (.each (.fmapRebuild (.mapSettle (.stoMod (.wr (.wr (.stoMod (.outside (.refl _ _)
    (Keeps.tabRestore (.refl [.dram, .msm, .win 6] _))) rfl) _ _ ?_) _ _ ?_) rfl) _)) _ fun x u hu => ?_) _ fun b u hu => ?_) _ _) _ fun u hu => ?_⟩
  · exact pass_mapEntries _ _
  · decide
  · decide
  · exact hu.intentResolve x
  · exact hu.openResolve b
  · exact hu.report _ _ _ _

/-! ## Units that take their state from the store (R330)

Once it is ready, the totaliser takes its state from the legal mirror, to which waiting events and a record may be added. -/

namespace Steady

variable {s0 s : State}

theorem evtPut (h : Steady [Reg.STO_HOST_UNITS_CNT] s0 s) (b : Bytes) : Steady [Reg.STO_HOST_UNITS_CNT] s0 (s.evtPut b) :=
  (h.storePut 3 _ _ (by decide)).outside ((Keeps.totMod (.refl [.tot, .win 8] _)).wrN _ _)

theorem evtDrain (h : Steady [Reg.STO_HOST_UNITS_CNT] s0 s) : Steady [Reg.STO_HOST_UNITS_CNT] s0 s.evtDrain := by
  unfold State.evtDrain
  split
  · exact Steady.each h.sto _ fun r _ hu => hu.evtPut r
  · exact h

theorem legalAppend (h : Steady [Reg.STO_HOST_UNITS_CNT] s0 s) (type param old new : Nat) :
    Steady [Reg.STO_HOST_UNITS_CNT] s0 (s.legalAppend type param old new) := by
  unfold State.legalAppend
  dsimp only
  split
  · exact (h.storePut 3 _ _ (by decide)).outside (Keeps.logCount (Keeps.totMod (.refl [.tot, .win 8] _)))
  · exact h

theorem totRestore (h : Steady [Reg.STO_HOST_UNITS_CNT] s0 s) : Steady [Reg.STO_HOST_UNITS_CNT] s0 s.totRestore := by
  unfold State.totRestore
  dsimp only
  refine when ?_ _ fun u hu => hu.legalAppend _ _ _ _
  have drained : ∀ f n a p e, Steady [Reg.STO_HOST_UNITS_CNT] s0
      (((((s.totMod f).logCount n).wrN Reg.TOT_ACAL_ID a).setF Reg.TOT_PCAL_CTL Fld.TOT_PCAL_CTL_PRESENT p).wrN Reg.TOT_EVT_PROD e).evtDrain :=
    fun f n a p e => (h.outside ((((Keeps.logCount (Keeps.totMod (.refl [.tot, .win 8] s))).wrN _ _).setF _ _ _).wrN _ _)).evtDrain
  split
  · exact drained _ _ _ _ _
  · exact (drained _ _ _ _ _).outside (Keeps.stateLoad (.refl [.tot, .win 8] _))

end Steady

theorem State.restored_drnPlan (s : State) : s.drnPlan.isF Reg.DRN_STAT Fld.DRN_STAT_RESTORED = s.isF Reg.DRN_STAT Fld.DRN_STAT_RESTORED :=
  State.isF_setF_ne _ Reg.DRN_STAT _

theorem State.restored_drnRestore (s : State) : s.drnRestore.isF Reg.DRN_STAT Fld.DRN_STAT_RESTORED = true :=
  (State.restored_drnPlan _).trans (State.isF_raiseF _ _ Fld.DRN_STAT_RESTORED)

/-! ## The store starts (R281, R286) -/

section Start

variable {s : State}

theorem State.dieState_setDie_same (s : State) {i v : Nat} (hi : i < 16) (hv : v < 4) : (s.setDie i v).dieState i = v := by
  have width : bwidth ⟨2 * i + 1, 2 * i⟩ = 2 := by simp only [bwidth]; omega
  refine (s.getF_setF Reg.STO_DIE_STAT ⟨2 * i + 1, 2 * i⟩ v (by show 2 * i + 1 < 32; omega) (Nat.le_succ _)).trans ?_
  rw [width]
  exact Nat.mod_eq_of_lt hv

theorem State.dieState_setDie_ne (s : State) {i j : Nat} (v : Nat) (hj : j < 16) (h : j ≠ i) : (s.setDie i v).dieState j = s.dieState j :=
  s.getF_setF_ne Reg.STO_DIE_STAT v (by simp only; omega) (Nat.le_succ _) (by show 2 * j + 1 < 32; omega)

/-- A die identified has a state, and the log may have a record of it; one that does not answer is absent, or off with its channel. -/
theorem State.dieIdentify_sets (s : State) (i : Nat) (gone : Bool) : ∃ v, (gone = true → v = 0 ∨ v = 3) ∧
    Keeps [.smp, .win 4] (s.setDie i v) (s.dieIdentify i gone) := by
  have same : ∀ v, Keeps [.smp, .win 4] (s.setDie i v) (s.setDie i v) := fun v => .refl _ _
  unfold State.dieIdentify
  dsimp only
  split
  · exact ⟨0, fun _ => .inl rfl, same 0⟩
  · split
    · exact ⟨3, fun _ => .inr rfl, same 3⟩
    · split
      · exact ⟨0, fun _ => .inl rfl, (same 0).report _ _ _ _⟩
      next answers => exact ⟨_, fun gone => absurd gone answers, same _⟩

theorem State.raw_dieIdentify (s : State) (i : Nat) (gone : Bool) {k : Nat} (hw : Part.win (window k) ∉ [.smp, .win 4])
    (hk : k ≠ Reg.STO_DIE_STAT) : (s.dieIdentify i gone).raw k = s.raw k := by
  obtain ⟨v, -, sets⟩ := s.dieIdentify_sets i gone
  exact (sets.raw_eq k hw).trans (s.raw_setF_ne _ v hk)

theorem State.dieState_dieIdentify (s : State) {i : Nat} (hi : i < 16) (j : Nat) (gone : Bool) (absent : j = i → gone = true)
    (h : j = i ∨ s.dieState i ≠ 1) : (s.dieIdentify j gone).dieState i ≠ 1 := by
  obtain ⟨v, none, sets⟩ := s.dieIdentify_sets j gone
  rw [State.dieState, State.getF_of_raw (sets.raw_eq Reg.STO_DIE_STAT)]
  by_cases same : j = i
  · subst same
    rcases none (absent rfl) with rfl | rfl
    · exact (s.dieState_setDie_same hi (by decide)).trans_ne (by decide)
    · exact (s.dieState_setDie_same hi (by decide)).trans_ne (by decide)
  · exact (s.dieState_setDie_ne v hi (Ne.symm same)).trans_ne (h.resolve_left same)

/-- Every die of a list identified; `absent` is the mask of dies that do not answer. -/
def State.diesIdentified (s : State) (absent : Nat) (l : List Nat) : State :=
  s.each l (fun i u => u.dieIdentify i (decide (absent / 2 ^ i % 2 = 1)))

/-- A die that does not answer is not active once it has been identified. -/
theorem State.dieState_diesIdentified {absent i : Nat} (hi : i < 16) (gone : absent / 2 ^ i % 2 = 1) (l : List Nat) (s : State)
    (h : i ∈ l ∨ s.dieState i ≠ 1) : (s.diesIdentified absent l).dieState i ≠ 1 := by
  induction l generalizing s with
  | nil => exact h.resolve_left List.not_mem_nil
  | cons j l ih =>
    refine ih (s.dieIdentify j _) ?_
    by_cases later : i ∈ l
    · exact .inl later
    · refine .inr (s.dieState_dieIdentify hi j _ (by rintro rfl; simpa using gone) ?_)
      exact h.imp_left fun mem => ((List.mem_cons.mp mem).resolve_right later).symm

/-- The store as STORE_START leaves it before it checks the layout: EN, dies, channels, LOGICAL and NOPARITY. -/
def State.storeFound (s : State) (absent : Nat) : State :=
  let t := (s.raiseF Reg.STO_CTL Fld.STO_CTL_EN).diesIdentified absent (List.range 16)
  let t := t.each [0, 1] (fun c u => u.chShow c (if u.chPresent c then u.chanSt c else 0))
  let t := t.setF Reg.STO_LOGICAL Fld.STO_LOGICAL_COARSE t.logical
  t.setF Reg.STO_STAT Fld.STO_STAT_NOPARITY (decide (t.activeDies.length < 3)).toNat

theorem State.storeStart_cases (off : s.phase = 0) (absent : Nat) :
    s.storeStart absent = (s.storeFound absent).raiseF Reg.STO_STAT Fld.STO_STAT_CFG_ERR ∨
    ∃ slow lim, s.storeStart absent = (((s.storeFound absent).setF Reg.STO_STAT Fld.STO_STAT_CFG_ERR 0).setPhase 1).when slow
      (fun u => u.setF Reg.STO_DIRTY Fld.STO_DIRTY_DIRTY_MAX lim) := by
  rw [State.storeStart, if_neg (not_not.mpr off)]
  by_cases refused : (!(s.storeFound absent).layoutOk ||
      (((s.storeFound absent).anchorDie 0).isNone && ((s.storeFound absent).anchorDie 1).isNone)) = true
  · exact .inl (if_pos refused)
  · exact .inr ⟨_, _, if_neg refused⟩

theorem State.raw_diesIdentified (s : State) (absent : Nat) (l : List Nat) {k : Nat} (hw : Part.win (window k) ∉ [.smp, .win 4])
    (hk : k ≠ Reg.STO_DIE_STAT) : (s.diesIdentified absent l).raw k = s.raw k :=
  State.raw_each (fun i u => u.raw_dieIdentify i _ hw hk) _ _

theorem State.raw_chShow (s : State) (c v : Nat) {k : Nat} (hk : k ≠ Reg.STO_CH_CTL) : (s.chShow c v).raw k = s.raw k :=
  s.raw_setF_ne _ v hk

/-- Channels and LOGICAL, and NOPARITY of STO_STAT, come after the dies. -/
theorem State.raw_storeFound (s : State) (absent : Nat) {k : Nat} (hc : k ≠ Reg.STO_CH_CTL) (hl : k ≠ Reg.STO_LOGICAL)
    (hs : k ≠ Reg.STO_STAT) : (s.storeFound absent).raw k =
      ((s.raiseF Reg.STO_CTL Fld.STO_CTL_EN).diesIdentified absent (List.range 16)).raw k := by
  unfold State.storeFound
  dsimp only
  rw [State.raw_setF_ne _ _ _ hs, State.raw_setF_ne _ _ _ hl]
  exact State.raw_each (fun c u => u.raw_chShow c _ hc) _ _

theorem State.phase_storeFound (s : State) (absent : Nat) : (s.storeFound absent).phase = s.phase := by
  unfold State.storeFound
  dsimp only
  refine (State.getF_setF_ne _ Reg.STO_STAT _).trans (State.getF_of_raw ?_ _)
  rw [State.raw_setF_ne _ _ _ (by decide), State.raw_each (fun c u => u.raw_chShow c _ (by decide)),
    State.raw_diesIdentified _ _ _ (by decide) (by decide), State.raw_raiseF_ne _ _ (by decide)]

theorem State.storeFound_leaves (s : State) (absent : Nat) : (s.storeFound absent).isF Reg.STO_CTL Fld.STO_CTL_EN = true ∧
    ∀ i, i < 16 → absent / 2 ^ i % 2 = 1 → (s.storeFound absent).dieState i ≠ 1 := by
  constructor
  · rw [State.isF_of_raw (s.raw_storeFound absent (by decide) (by decide) (by decide)),
      State.isF_of_raw (State.raw_diesIdentified _ _ _ (by decide) (by decide))]
    exact s.isF_raiseF Reg.STO_CTL Fld.STO_CTL_EN
  · intro i hi gone
    rw [State.dieState, State.getF_of_raw (s.raw_storeFound absent (by decide) (by decide) (by decide))]
    exact State.dieState_diesIdentified hi gone _ _ (.inl (List.mem_range.mpr hi))

/-- PHASE goes to 1, or CFG_ERR is set; the registers beside STO_STAT and STO_DIRTY are as the store was found. -/
theorem State.storeStart_leaves (off : s.phase = 0) (absent : Nat) :
    (((s.storeStart absent).phase = 1 ∧ (s.storeStart absent).isF Reg.STO_STAT Fld.STO_STAT_CFG_ERR = false) ∨
      ((s.storeStart absent).phase = 0 ∧ (s.storeStart absent).isF Reg.STO_STAT Fld.STO_STAT_CFG_ERR = true)) ∧
    ∀ k, k ≠ Reg.STO_STAT → k ≠ Reg.STO_DIRTY → (s.storeStart absent).raw k = (s.storeFound absent).raw k := by
  rcases State.storeStart_cases off absent with refused | ⟨slow, lim, starts⟩
  · rw [refused]
    refine ⟨.inr ⟨?_, State.isF_raiseF _ Reg.STO_STAT Fld.STO_STAT_CFG_ERR⟩, fun k hs _ => State.raw_raiseF_ne _ _ hs⟩
    exact ((s.storeFound absent).getF_setF_ne Reg.STO_STAT 1).trans ((s.phase_storeFound absent).trans off)
  · rw [starts]
    have stat : ∀ u : State, (u.when slow (fun u => u.setF Reg.STO_DIRTY Fld.STO_DIRTY_DIRTY_MAX lim)).raw Reg.STO_STAT =
        u.raw Reg.STO_STAT := fun u => u.raw_when (fun v => v.raw_setF_ne _ lim (by decide)) slow
    refine ⟨.inl ⟨?_, ?_⟩, fun k hs hd => ?_⟩
    · exact (State.getF_of_raw (stat _) _).trans (State.phase_setPhase _ 1 (by decide))
    · rw [State.isF_of_raw (stat _)]
      exact (State.isF_setF_ne _ Reg.STO_STAT 1).trans ((s.storeFound absent).isF_setF_zero Reg.STO_STAT Fld.STO_STAT_CFG_ERR)
    · rw [State.raw_when (fun v => v.raw_setF_ne _ lim hd), State.raw_setPhase _ 1 hs, State.raw_setF_ne _ _ _ hs]

theorem runs_storeStart (off : s.phase = 0) (absent : Nat) : Runs (.storeStart absent) s (fun t =>
    t.isF Reg.STO_CTL Fld.STO_CTL_EN = true ∧
    ((t.phase = 1 ∧ t.isF Reg.STO_STAT Fld.STO_STAT_CFG_ERR = false) ∨ (t.phase = 0 ∧ t.isF Reg.STO_STAT Fld.STO_STAT_CFG_ERR = true)) ∧
    (∀ i, i < 16 → absent / 2 ^ i % 2 = 1 → t.dieState i ≠ 1)) := by
  obtain ⟨phase, kept⟩ := State.storeStart_leaves off absent
  obtain ⟨en, dies⟩ := s.storeFound_leaves absent
  refine ⟨s.storeStart absent, rfl, ?_, phase, fun i hi gone => ?_⟩
  · rw [State.isF_of_raw (kept _ (by decide) (by decide)), en]
  · rw [State.dieState, State.getF_of_raw (kept _ (by decide) (by decide))]
    exact dies i hi gone

end Start

/-! ## The store has restored its tables (R309, R312, R330) -/

section Restored

variable {s : State}

/-- Channel c as replay left it: its evacuation goes on, and STO_CH_CTL shows it. -/
def State.chanRestored (c : Nat) (s : State) : State :=
  (s.when (decide (s.chanSt c = 2)) (fun v => v.stoMod (fun x => { x with evac := some c }))).chShow c
    (if s.chPresent c then s.chanSt c else 0)

theorem State.pass_chanRestored (c : Nat) (s : State) : (s.chanRestored c).sto.pass = s.sto.pass := by
  unfold State.chanRestored
  cases decide (s.chanSt c = 2)
  · rfl
  · rfl

/-- The store after replay: channels shown, PHASE 6 and READY. -/
def State.storeReady (s : State) : State :=
  ((s.storeReplay.each [0, 1] State.chanRestored).setPhase 6).raiseF Reg.STO_INT_STAT Fld.STO_INT_STAT_READY

/-- Intake and the Darner have their tables. -/
def State.tablesReady (s : State) : State := (s.storeReady.dieChange.raiseF Reg.INK_STAT Fld.INK_STAT_RESTORED).drnRestore

theorem execStoreRestoreDone_eq (low : 1 ≤ s.phase) (high : s.phase ≤ 5) :
    exec .storeRestoreDone s = .next s.tablesReady.smpRestore.totRestore.uplRestore :=
  if_pos ⟨low, high⟩

theorem State.storeReady_leaves (s : State) : s.storeReady.phase = 6 ∧
    s.storeReady.isF Reg.STO_INT_STAT Fld.STO_INT_STAT_READY = true ∧ s.storeReady.sto.pass = none := by
  refine ⟨?_, State.isF_raiseF _ Reg.STO_INT_STAT Fld.STO_INT_STAT_READY, ?_⟩
  · exact (State.getF_of_raw (State.raw_raiseF_ne _ _ (by decide)) _).trans (State.phase_setPhase _ 6 (by decide))
  · exact (State.apply_each (fun u => u.sto.pass) State.pass_chanRestored s.storeReplay [0, 1]).trans s.pass_storeReplay

/-- Of the store, restoring the other units changes what the totaliser's records write. -/
theorem State.steady_restored (s : State) :
    Steady [Reg.STO_HOST_UNITS_CNT] s.storeReady s.tablesReady.smpRestore.totRestore.uplRestore := by
  have tables : Steady [Reg.STO_HOST_UNITS_CNT] s.storeReady s.tablesReady :=
    (Steady.refl _ s.storeReady).dieChange.outside (Keeps.drnRestore (Keeps.raiseF (.refl [.dram, .drn, .win 6, .win 7] _) _ _))
  have samples := tables.outside (Keeps.smpRestore (.refl [.ao, .smp, .draws, .win 4] _))
  exact samples.totRestore.outside (Keeps.uplRestore (.refl [.upl, .win 10] _))

theorem State.keeps_restored (s : State) : Keeps [.dram, .ao, .smp, .draws, .win 4, .sto, .tot, .win 8, .win 9, .upl, .win 10] s
    s.smpRestore.totRestore.uplRestore := .uplRestore (.totRestore (.smpRestore (.refl _ s)))

theorem runs_storeRestoreDone (low : 1 ≤ s.phase) (high : s.phase ≤ 5) : Runs .storeRestoreDone s (fun t => t.phase = 6 ∧
    t.isF Reg.STO_INT_STAT Fld.STO_INT_STAT_READY = true ∧ t.isF Reg.INK_STAT Fld.INK_STAT_RESTORED = true ∧
    t.isF Reg.DRN_STAT Fld.DRN_STAT_RESTORED = true ∧ t.sto.pass = none) := by
  have steady := s.steady_restored
  obtain ⟨phase, ready, pass⟩ := s.storeReady_leaves
  have intake : Keeps [.dram, .drn, .win 7] (s.storeReady.dieChange.raiseF Reg.INK_STAT Fld.INK_STAT_RESTORED) s.tablesReady :=
    .drnRestore (.refl _ _)
  have rest := s.tablesReady.keeps_restored
  refine ⟨_, execStoreRestoreDone_eq low high, steady.phase.trans phase, steady.ready.trans ready, ?_, ?_, steady.pass.trans pass⟩
  · rw [State.isF_of_raw (rest.raw_eq _), State.isF_of_raw (intake.raw_eq _)]
    exact State.isF_raiseF _ Reg.INK_STAT Fld.INK_STAT_RESTORED
  · rw [State.isF_of_raw (rest.raw_eq _)]
    exact State.restored_drnRestore _

end Restored

/-! ## The store flushes and stops (R290, R309, R311) -/

section Flush

variable {s : State}

/-- A flush that ends is counted. -/
theorem State.flushCnt_flushJournal (s : State) :
    (s.flushJournal.bump Reg.STO_FLUSH_CNT).num Reg.STO_FLUSH_CNT = min (s.num Reg.STO_FLUSH_CNT + 1) 0xFFFFFFFF := by
  have cnt : s.flushJournal.raw Reg.STO_FLUSH_CNT = s.raw Reg.STO_FLUSH_CNT :=
    (s.regs_flushJournal []).raw _ (by decide) (by decide) (by decide)
  rw [State.num_bump, State.num_of_raw cnt]

theorem runs_storeFlushDone_off (flushing : s.phase = 7) (off : s.pins.pfail = true) : Runs .storeFlushDone s (fun t => t.phase = 8 ∧
    t.num Reg.STO_FLUSH_CNT = min (s.num Reg.STO_FLUSH_CNT + 1) 0xFFFFFFFF ∧
    (t.sto.jpend ++ t.sto.jlog.flatMap (fun u => u.2)).contains .shut = true) := by
  have low := Keeps.txenLow (.refl [.ports, .out, .win 16] ((s.flushJournal.bump Reg.STO_FLUSH_CNT).setPhase 8))
  refine ⟨_, by simp [exec, execStoreFlushDone, flushing, off]; rfl, ?_, ?_, ?_⟩
  · exact (State.getF_of_raw (low.raw_eq _) _).trans (State.phase_setPhase _ 8 (by decide))
  · rw [State.num_of_raw (low.raw_eq _), State.num_of_raw (State.raw_setPhase _ 8 (by decide)), State.flushCnt_flushJournal]
  · rw [low.only .sto (by decide)]
    exact s.shut_flushJournal

theorem runs_storeFlushDone_on (flushing : s.phase = 7) (on : s.pins.pfail = false) : Runs .storeFlushDone s (fun t => t.phase = 6 ∧
    t.num Reg.STO_FLUSH_CNT = min (s.num Reg.STO_FLUSH_CNT + 1) 0xFFFFFFFF) := by
  refine ⟨_, by simp [exec, execStoreFlushDone, flushing, on]; rfl, State.phase_setPhase _ 6 (by decide), ?_⟩
  rw [State.num_of_raw (State.raw_setPhase _ 6 (by decide)), State.flushCnt_flushJournal]

/-- Until the journal is drained, a flush changes PHASE, ends the pass, and does what placing units and the last record unit do. -/
theorem State.steady_flushStart (running : s.phase = 6) (erasing : Nat) :
    Steady [Reg.STO_REC_HEAD] ((s.setPhase 7).stoMod (fun x => { x with pass := none })) (s.flushStart erasing) := by
  unfold State.flushStart
  rw [if_pos running]
  refine (((Steady.opens (.refl _ _) ((Opens.refl _).openAt _ 4 _ _)).each _ fun e u hu => ?_).recUnitPut 4 (by decide)).stripeClose _
  split
  · exact ((hu.putAt _ _).mapSet _ _).jour _
  · exact hu

theorem runs_storeStop (running : s.phase = 6) : Runs .storeStop s (fun t => t.phase = 0 ∧
    t.isF Reg.STO_CTL Fld.STO_CTL_EN = false ∧ (t.sto.jpend ++ t.sto.jlog.flatMap (fun u => u.2)).contains .shut = true) := by
  let off := s.setF Reg.STO_CTL Fld.STO_CTL_EN 0
  have still : off.phase = 6 := (State.getF_of_raw (s.raw_setF_ne _ 0 (by decide)) _).trans running
  refine ⟨((off.flushStart 0).flushJournal).setPhase 0, by simp [exec, execStoreStop, running, off],
    State.phase_setPhase _ 0 (by decide), ?_, State.shut_flushJournal _⟩
  have en : (((off.flushStart 0).flushJournal).setPhase 0).raw Reg.STO_CTL = off.raw Reg.STO_CTL := by
    rw [State.raw_setPhase _ 0 (by decide), (State.regs_flushJournal _ []).raw _ (by decide) (by decide) (by decide),
      (State.steady_flushStart still 0).raw _ (by decide) (by decide) (by decide)]
    exact State.raw_setPhase off 7 (by decide)
  exact (State.isF_of_raw en _).trans (s.isF_setF_zero Reg.STO_CTL Fld.STO_CTL_EN)

/-- A unit that finds a superblock open is placed. -/
theorem State.place_of_open {stream b : Nat} (ready : (s.readySb stream).openSb stream = some b) (u : SUnit) :
    ∃ t, Opens s t ∧ s.place stream u = (t.putAt b u, locOf b (t.sb b).next + 1) :=
  ⟨_, (Opens.refl s).readySb stream, by simp [State.place, ready]⟩

/-- The records gathered leave as a unit; STO_REC_HEAD counts it. -/
theorem State.recUnitPut_leaves {stream : Nat} (gathered : s.sto.recs ≠ [])
    (room : s.partUnits 0 = 0 ∨ (s.num Reg.STO_REC_HEAD + 2 ^ 32 - s.num Reg.STO_REC_TAIL) % 2 ^ 32 ≠ s.partUnits 0)
    (ready : ((s.readySb stream).openSb stream).isSome = true) : (s.recUnitPut stream).sto.recs = [] ∧
    (s.recUnitPut stream).num Reg.STO_REC_HEAD = (s.num Reg.STO_REC_HEAD + 1) % 2 ^ 32 := by
  obtain ⟨b, ready⟩ := Option.isSome_iff_exists.mp ready
  have notFull : ¬ ((s.num Reg.STO_REC_HEAD + 2 ^ 32 - s.num Reg.STO_REC_TAIL) % 2 ^ 32 = s.partUnits 0 ∧ s.partUnits 0 ≠ 0) := by
    omega
  unfold State.recUnitPut
  rw [if_neg (by simpa using gathered), if_neg notFull]
  dsimp only
  generalize (if s.partUnits 0 = 0 then 0 else s.num Reg.STO_REC_HEAD % s.partUnits 0) = fine
  obtain ⟨t, -, placed⟩ := State.place_of_open ready
    { lua := luaOf 0 fine, dseq := s.sto.dseq, kind := 1, data := recUnit s.sto.recs s.sto.firstTai }
  rw [placed]
  exact ⟨(((Steady.refl [] _).mapSet _ _).jour _).recs (by decide), State.num_wrN _ _ (Nat.mod_lt _ (by decide))⟩

theorem runs_recordUnitProgram (running : s.phase = 6) (gathered : s.sto.recs ≠ [])
    (room : s.partUnits 0 = 0 ∨ (s.num Reg.STO_REC_HEAD + 2 ^ 32 - s.num Reg.STO_REC_TAIL) % 2 ^ 32 ≠ s.partUnits 0)
    (ready : ((s.readySb 0).openSb 0).isSome = true) : Runs .recordUnitProgram s (fun t => t.sto.recs = [] ∧
    t.num Reg.STO_REC_HEAD = (s.num Reg.STO_REC_HEAD + 1) % 2 ^ 32) := by
  obtain ⟨taken, advanced⟩ := State.recUnitPut_leaves gathered room ready
  have head : (s.recUnitPut 0).jProgram.raw Reg.STO_REC_HEAD = (s.recUnitPut 0).raw Reg.STO_REC_HEAD :=
    (State.regs_jProgram _ []).raw _ (by decide) (by decide) (by decide)
  refine ⟨(s.recUnitPut 0).jProgram, by simp [exec, execRecordUnitProgram, running], (State.recs_jProgram _).trans taken, ?_⟩
  exact (State.num_of_raw head).trans advanced

end Flush

/-! ## Pages are programmed and read, blocks erased (R296, R297, R298, R302) -/

section Pages

variable {s : State}

theorem tget_map_val {α : Type} (d : Nat → α) (f : Nat → α → α) (t : Tbl α) (k : Nat) (h : ∃ v, (k, v) ∈ t) :
    tget d (t.map (fun e => (e.1, f e.1 e.2))) k = f k (tget d t k) := by
  induction t with
  | nil => obtain ⟨v, hv⟩ := h; cases hv
  | cons e r ih =>
    obtain ⟨j, w⟩ := e
    by_cases hj : j = k
    · simp [tget, hj]
    · obtain ⟨v, hv⟩ := h
      have rest : ∃ v, (k, v) ∈ r := ⟨v, by simpa [Ne.symm hj] using hv⟩
      simp [tget, hj, ih rest]

/-- The state in which units of page p of die d of superblock b count as programmed. -/
def State.pageProgrammed (s : State) (d b p : Nat) : State :=
  s.stoMod (fun q => { q with units := q.units.map (fun e =>
    if ((s.pageUnits d b p).map (·.1)).contains e.1 then (e.1, { e.2 with prog := true }) else e) })

/-- What that makes of a unit at a location. -/
def State.unitProgrammed (s : State) (d b p loc : Nat) (u : SUnit) : SUnit :=
  if ((s.pageUnits d b p).map (·.1)).contains loc then { u with prog := true } else u

theorem State.units_pageProgrammed (d b p : Nat) : (s.pageProgrammed d b p).sto.units =
    s.sto.units.map (fun e => (e.1, s.unitProgrammed d b p e.1 e.2)) := by
  refine List.map_congr_left fun e _ => ?_
  unfold State.unitProgrammed
  split <;> rfl

theorem State.prog_pageProgrammed {d b p : Nat} {e : Nat × SUnit} (he : e ∈ s.pageUnits d b p) :
    ((s.pageProgrammed d b p).unitAt e.1).prog = true := by
  have stands : ∃ v, (e.1, v) ∈ s.sto.units := ⟨e.2, List.mem_of_mem_filter (List.mem_of_mem_filter he)⟩
  have here : ((s.pageUnits d b p).map (·.1)).contains e.1 = true := List.contains_iff_mem.mpr (List.mem_map_of_mem he)
  rw [State.unitAt, State.units_pageProgrammed, tget_map_val _ _ _ _ stands, State.unitProgrammed, if_pos here]

theorem runs_nandProgramDone {d b p : Nat} (die : (diesOf (s.sb b).mask).contains d = true) (used : (s.sb b).state ≠ 0) :
    Runs (.nandProgramDone d b p false) s (fun t => ∀ e, e ∈ s.pageUnits d b p → (t.unitAt e.1).prog = true) := by
  let t := (if s.parityDie d b then (s.pageProgrammed d b p).parityDone b p else s.pageProgrammed d b p).emit (.nand d b p (s.rawPage d b p))
  have units : t.sto.units = (s.pageProgrammed d b p).sto.units := by
    simp only [t]
    split <;> rfl
  refine ⟨if t.phase = 6 then t.jDrain t.sto.jpend.length else t, ?_, fun e he => ?_⟩
  · simp only [exec, execNandProgramDone, die, used, or_self, if_false, Bool.not_true, Bool.false_eq_true]
    rfl
  · have prog : (t.unitAt e.1).prog = true := by
      rw [State.unitAt, units]
      exact State.prog_pageProgrammed he
    split
    · exact State.prog_jDrain _ prog
    · exact prog

theorem runs_nandProgramDone_fail {d b p : Nat} (die : (diesOf (s.sb b).mask).contains d = true) (used : (s.sb b).state ≠ 0)
    (noReloc : s.sto.reloc = none) (good : s.blkBad d b = false) (room : s.smp.fifo.length < 256) :
    Runs (.nandProgramDone d b p true) s (fun t => t.blkBad d b = true ∧
      t.num Reg.STO_PROG_FAIL_CNT = min (s.num Reg.STO_PROG_FAIL_CNT + 1) 0xFFFFFFFF ∧
      Logged s t 0x6102 3 (blockPath 6 (1 + d / 8)) ([d] ++ bytesLE 2 b)) := by
  let failed := ((s.blkRetire d b 2).bump Reg.STO_PROG_FAIL_CNT).failRecord d b
  have retired := Steady.blkRetire (reason := 2) good
  have rewritten := (Steady.refl [] failed).pageRewrite d b p
  have outside : Keeps [.sto, .win 9] s ((s.blkRetire d b 2).bump Reg.STO_PROG_FAIL_CNT) := (Keeps.blkRetire (.refl _ s)).bump _
  have reported : Keeps [.smp, .win 4] ((s.blkRetire d b 2).bump Reg.STO_PROG_FAIL_CNT) failed := (Keeps.refl _ _).report _ _ _ _
  refine ⟨failed.pageRewrite d b p, ?_, ?_, ?_, ?_⟩
  · simp [exec, execNandProgramDone, List.contains_iff_mem.mp die, used, noReloc, failed]
  · rw [State.blkBad, rewritten.bad, reported.only .sto (by decide)]
    exact List.contains_iff_mem.mpr (retired.bad ▸ List.mem_append_right _ List.mem_cons_self)
  · rw [State.num_of_raw (rewritten.raw _ (by decide) (by decide) (by decide)), State.num_of_raw (reported.raw_eq _), State.num_bump,
      State.num_of_raw (retired.raw _ (by decide) (by decide) (by decide))]
    rfl
  · have smp := (Keeps.pageRewrite (.refl [.dram, .sto, .win 9] failed) (d := d) (b := b) (p := p)).only .smp (by decide)
    exact (congrArg SmpState.fifo smp).trans (outside.fifo_report _ _ _ _ room)

/-! A codeword that a retry level or parity recovers is counted; nothing else of the store changes but a superblock queued. -/

theorem runs_nandReadDone_corrected {loc corr : Nat} (retry rebuilt : Bool) (some : corr ≠ 0) :
    Runs (.nandReadDone loc corr false retry rebuilt) s (fun t => t.num Reg.STO_ECC_CORR_CNT =
      min (s.num Reg.STO_ECC_CORR_CNT + 1) 0xFFFFFFFF ∧ t.sto = s.sto) :=
  ⟨s.bump Reg.STO_ECC_CORR_CNT, by simp [exec, execNandReadDone, some], s.num_bump _, rfl⟩

theorem runs_nandReadDone_retried (loc corr : Nat) (rebuilt : Bool) :
    Runs (.nandReadDone loc corr true true rebuilt) s (fun t => t.num Reg.STO_RETRY_CNT = min (s.num Reg.STO_RETRY_CNT + 1) 0xFFFFFFFF ∧
      t.sto = s.sto) :=
  ⟨s.bump Reg.STO_RETRY_CNT, by simp [exec, execNandReadDone], s.num_bump _, rfl⟩

@[simp] theorem State.sb_sbMod_same (s : State) (b : Nat) (f : SBlk → SBlk) : (s.sbMod b f).sb b = f (s.sb b) :=
  tget_tset_same ..

theorem runs_nandReadDone_rebuilt {loc : Nat} (corr : Nat) (parity : s.hasParity loc = true) :
    Runs (.nandReadDone loc corr true false true) s (fun t => t.num Reg.STO_REBUILD_CNT = min (s.num Reg.STO_REBUILD_CNT + 1) 0xFFFFFFFF ∧
      (t.sb (loc / 2 ^ 17)).queued = true ∧ t.sto.map = s.sto.map) := by
  refine ⟨((s.bump Reg.STO_RETRY_CNT).bump Reg.STO_REBUILD_CNT).sbMod (loc / 2 ^ 17) (fun b => { b with queued := true }), ?_, ?_, ?_, rfl⟩
  · simp [exec, execNandReadDone, parity]
  · show ((s.bump Reg.STO_RETRY_CNT).bump Reg.STO_REBUILD_CNT).num Reg.STO_REBUILD_CNT = _
    rw [State.num_bump, State.num_of_raw (s.raw_bump_ne (by decide))]
  · rw [State.sb_sbMod_same]

/-! An erase is counted for its block and for the store; the last one of a relocation frees its source. -/

/-- Superblock b is free once its units are out. -/
theorem State.sb_sbFree (s : State) (b : Nat) : (s.sbFree b).sb b = sbDflt b := by
  simp [State.sb, State.sbFree, State.stoMod, tget_tdel]

/-- The state in which the block of superblock b on die d has been erased once more. -/
def State.blkErased (s : State) (d b : Nat) : State :=
  (s.stoMod (fun x => { x with ecs := tmod (fun _ => 0) x.ecs (d * 8192 + b) (· + 1) })).bump Reg.STO_ERASE_CNT

theorem State.ec_blkErased (s : State) (d i b : Nat) : (s.blkErased d b).ec i b = s.ec i b + (decide (i = d)).toNat := by
  have counts : (s.blkErased d b).ec i b = if i * 8192 + b = d * 8192 + b then s.ec d b + 1 else s.ec i b :=
    tget_tset (fun _ => 0) s.sto.ecs (d * 8192 + b) (i * 8192 + b) (s.ec d b + 1)
  rw [counts]
  by_cases h : i = d
  · simp [h]
  · rw [if_neg (by omega)]
    simp [h]

theorem State.eraseCnt_blkErased (s : State) (d b : Nat) :
    (s.blkErased d b).num Reg.STO_ERASE_CNT = min (s.num Reg.STO_ERASE_CNT + 1) 0xFFFFFFFF := State.num_bump _ _

theorem State.raw_gcTrack (s : State) (k : Nat) : s.gcTrack.raw k = s.raw k := rfl

theorem runs_nandEraseDone_last {d : Nat} {r : Reloc} (reloc : s.sto.reloc = some r) (erases : r.phase = 4) (last : r.erasing = 2 ^ d) :
    Runs (.nandEraseDone d false) s (fun t => t.sto.reloc = none ∧ (t.sb r.src).state = 0 ∧
      t.num Reg.STO_ERASE_CNT = min (s.num Reg.STO_ERASE_CNT + 1) 0xFFFFFFFF ∧
      t.sto.jpend = s.sto.jpend ++ [.done r.iseq r.src ((diesOf (s.sb r.src).mask).map (fun i => s.ec i r.src + (decide (i = d)).toNat))] ∧
      t.isF Reg.STO_STAT Fld.STO_STAT_FULL = false) := by
  let erased := s.blkErased d r.src
  let freed := ((erased.sbFree r.src).jour
    (.done r.iseq r.src ((diesOf (erased.sb r.src).mask).map (fun i => erased.ec i r.src)))).stoMod (fun x => { x with reloc := none })
  have counts := funext fun i => s.ec_blkErased d i r.src
  refine ⟨(freed.setF Reg.STO_STAT Fld.STO_STAT_FULL 0).gcTrack, ?_, rfl, ?_, ?_, ?_, ?_⟩
  · simp [exec, execNandEraseDone, reloc, erases, last, State.when]
    rfl
  · exact congrArg SBlk.state (State.sb_sbFree erased r.src)
  · have cnt : freed.raw Reg.STO_ERASE_CNT = erased.raw Reg.STO_ERASE_CNT := rfl
    rw [State.num_of_raw (State.raw_gcTrack _ _), State.num_of_raw (freed.raw_setF_ne _ 0 (by decide)), State.num_of_raw cnt]
    exact s.eraseCnt_blkErased d r.src
  · rw [← counts]
    rfl
  · exact (State.isF_of_raw (State.raw_gcTrack _ _) _).trans (freed.isF_setF_zero Reg.STO_STAT Fld.STO_STAT_FULL)

end Pages

/-! ## A unit is lost (R288, R297)

Its map entry needs a fine map, for which another coarse unit may be compacted, but none that has a lost unit. -/

theorem mem_of_tget_ne {α : Type} {d : Nat → α} {t : Tbl α} {k : Nat} (h : tget d t k ≠ d k) : (k, tget d t k) ∈ t := by
  induction t with
  | nil => exact absurd rfl h
  | cons e r ih =>
    obtain ⟨j, v⟩ := e
    unfold tget at h ⊢
    split at h
    next same => simp [same]
    next other => simpa [other] using .inr (ih h)

section Lost

variable {s t : State}

theorem Opens.map (h : Opens s t) : t.sto.map = s.sto.map := by
  obtain ⟨sbs, no, new, hs⟩ := h.sto
  rw [hs]

theorem State.map_place (s : State) (stream : Nat) (u : SUnit) : (s.place stream u).1.sto.map = s.sto.map := by
  rcases s.place_cases stream u with ⟨t, opened, e⟩ | ⟨t, b, opened, e⟩
  · rw [e, opened.map]
  · rw [e]
    exact opened.map

theorem State.map_padWith (s : State) (b n : Nat) : (s.padWith b n).sto.map = s.sto.map := by
  induction n generalizing s with
  | zero => rfl
  | succ n ih => exact ih _

theorem State.map_programSb (s : State) (b : Nat) : (s.programSb b).sto.map = s.sto.map := by
  unfold State.programSb
  dsimp only
  split
  · rfl
  · exact State.apply_each (fun u => u.sto.map) (f := fun p u => u.parityDone b p) (fun _ _ => rfl) _ _

theorem State.map_stripeClose (s : State) (b : Nat) : (s.stripeClose b).sto.map = s.sto.map :=
  (State.map_programSb _ b).trans (s.map_padWith b _)

theorem State.mapOf_mapRaw (s : State) (lua v k : Nat) : (s.mapRaw lua v).mapOf k = if k = lua then v else s.mapOf k :=
  tget_tset ..

theorem State.mapOf_fmaps (s : State) (f : StoState → List (Nat × Nat)) (k : Nat) :
    (s.stoMod (fun x => { x with fmaps := f x })).mapOf k = s.mapOf k := rfl

theorem State.mapOf_wrMem (s : State) (a : Nat) (b : Bytes) (k : Nat) : (s.wrMem a b).mapOf k = s.mapOf k := rfl

theorem State.mapOf_of_map {lua : Nat} (h : t.sto.map = s.sto.map) : t.mapOf lua = s.mapOf lua := by
  rw [State.mapOf, h]
  rfl

/-- Units of another coarse unit stay where they are. -/
theorem State.mapOf_compactUnit {cu lua k : Nat} (other : cu ≠ lua / 256) (hk : k < 256) (s : State) :
    (State.compactUnit cu k s).mapOf lua = s.mapOf lua := by
  obtain ⟨x, moves⟩ := s.compactUnit_eq cu k
  rw [moves]
  split
  · exact State.mapOf_of_map (s.map_place 2 x)
  · refine (State.mapOf_mapRaw _ _ _ _).trans ?_
    rw [if_neg (by omega), State.mapOf_of_map (s.map_place 2 x)]

theorem State.mapOf_compact {cu lua : Nat} (other : cu ≠ lua / 256) (s : State) : (s.compact cu).mapOf lua = s.mapOf lua := by
  have moved : (s.compactMoved cu).mapOf lua = s.mapOf lua := by
    have each : ∀ (l : List Nat) (u : State), (∀ k ∈ l, k < 256) → (u.each l (State.compactUnit cu)).mapOf lua = u.mapOf lua := by
      intro l
      induction l with
      | nil => exact fun _ _ => rfl
      | cons k l ih =>
        intro u hl
        obtain ⟨hk, hl⟩ := List.forall_mem_cons.mp hl
        exact (ih _ hl).trans (State.mapOf_compactUnit other hk u)
    exact (each _ _ fun k => List.mem_range.mp).trans (State.mapOf_of_map (Opens.compactReady s).map)
  rw [State.compact_eq, State.mapOf_fmaps]
  split
  · exact moved
  · exact (State.mapOf_of_map (State.map_stripeClose _ _)).trans moved

/-- The coarse unit that is compacted for a fine map has no lost unit. -/
theorem State.mapOf_fmapNew {cu lua : Nat} (lost : s.hasLost (lua / 256) = true) : (s.fmapNew cu).mapOf lua = s.mapOf lua := by
  unfold State.fmapNew
  dsimp only
  rw [State.mapOf_wrMem, State.mapOf_fmaps]
  split
  · rfl
  · split
    · rfl
    next e victim =>
      have kept : s.hasLost e.1 = false := by simpa using List.find?_some victim
      exact s.mapOf_compact (fun same => by simp [same, lost] at kept)

theorem State.hasLost_of_mapOf {lua : Nat} (lost : s.mapOf lua = lostMark) : s.hasLost (lua / 256) = true := by
  have entry : (lua, s.mapOf lua) ∈ s.sto.map := mem_of_tget_ne (d := fun _ => 0) (by
    show s.mapOf lua ≠ 0
    rw [lost]
    decide)
  exact List.any_eq_true.mpr ⟨_, entry, by simp [lost]⟩

theorem State.mapOf_mapSet_lost (s : State) (lua : Nat) : (s.mapSet lua lostMark).mapOf lua = lostMark := by
  have set : (s.mapRaw lua lostMark).mapOf lua = lostMark := (s.mapOf_mapRaw ..).trans (if_pos rfl)
  unfold State.mapSet State.fmapSync
  dsimp only
  split
  · exact set
  · split
    · exact set
    · exact (State.mapOf_fmapNew (State.hasLost_of_mapOf set)).trans set

/-- LOST in the map, a counter and a flag. -/
theorem State.unitLost_leaves (s : State) (lua : Nat) : (s.unitLost lua).mapOf lua = lostMark ∧
    (s.unitLost lua).num Reg.STO_LOST_CNT = min (s.num Reg.STO_LOST_CNT + 1) 0xFFFFFFFF ∧
    (s.unitLost lua).isF Reg.STO_INT_STAT Fld.STO_INT_STAT_LOST = true := by
  let entered := (s.mapSet lua lostMark).jour (.lost (lua / 2 ^ 29) (lua % 2 ^ 29))
  let flagged := (entered.bump Reg.STO_LOST_CNT).raiseF Reg.STO_INT_STAT Fld.STO_INT_STAT_LOST
  have reported : Keeps [.smp, .win 4] flagged (s.unitLost lua) := (Keeps.refl _ _).report _ _ _ _
  have cnt : entered.raw Reg.STO_LOST_CNT = s.raw Reg.STO_LOST_CNT :=
    (((Steady.refl [] s).mapSet lua lostMark).jour _).raw _ (by decide) (by decide) (by decide)
  refine ⟨?_, ?_, ?_⟩
  · exact (State.mapOf_of_map (congrArg StoState.map (reported.only .sto (by decide)))).trans (s.mapOf_mapSet_lost lua)
  · rw [State.num_of_raw (reported.raw_eq _), State.num_of_raw (State.raw_raiseF_ne _ _ (by decide)), State.num_bump, State.num_of_raw cnt]
  · exact (State.isF_of_raw (reported.raw_eq _) _).trans (State.isF_raiseF _ _ _)

theorem runs_nandReadDone_lost {loc : Nat} (corr : Nat) (mapped : s.mapOf (s.unitAt loc).lua = loc + 1) :
    Runs (.nandReadDone loc corr true false false) s (fun t => t.num Reg.STO_RETRY_CNT = min (s.num Reg.STO_RETRY_CNT + 1) 0xFFFFFFFF ∧
      t.num Reg.STO_LOST_CNT = min (s.num Reg.STO_LOST_CNT + 1) 0xFFFFFFFF ∧ t.mapOf (s.unitAt loc).lua = lostMark ∧
      t.isF Reg.STO_INT_STAT Fld.STO_INT_STAT_LOST = true) := by
  let bad := (s.bump Reg.STO_RETRY_CNT).stoMod (fun q => { q with
    units := tmod (fun _ => ({} : SUnit)) q.units loc (fun w => { w with bad := true }) })
  have retry : (bad.unitLost (s.unitAt loc).lua).raw Reg.STO_RETRY_CNT = bad.raw Reg.STO_RETRY_CNT :=
    ((Steady.refl [Reg.STO_LOST_CNT] bad).unitLost _ (by decide)).raw _ (by decide) (by decide) (by decide)
  have cnt : bad.raw Reg.STO_LOST_CNT = s.raw Reg.STO_LOST_CNT := s.raw_bump_ne (by decide)
  obtain ⟨map, lost, flag⟩ := bad.unitLost_leaves (s.unitAt loc).lua
  refine ⟨bad.unitLost (s.unitAt loc).lua, by simp [exec, execNandReadDone, mapped, bad], ?_, ?_, map, flag⟩
  · exact (State.num_of_raw retry).trans (s.num_bump Reg.STO_RETRY_CNT)
  · rw [lost, State.num_of_raw cnt]

end Lost

/-! ## A relocation whose target has been closed (R302, R314)

Its copies have no place in a closed superblock, so it starts again with another target. -/

theorem State.phase_relocStart {s : State} (none : s.sto.reloc = none) (b why : Nat) :
    ∀ r ∈ (s.relocStart b why).sto.reloc, r.phase = 1 := by
  unfold State.relocStart
  dsimp only
  split
  · simp [none]
  · rintro r ⟨⟩
    rfl

/-- Copies end at a closed target with the relocation at its start, or with none. -/
theorem runs_relocCopyDone_of_closed {r : Reloc} {s : State} (reloc : s.sto.reloc = some r) (copying : r.phase = 1)
    (closed : (s.sb r.tgt).state ≠ 1) : Runs .relocCopyDone s (fun t => ∀ r' ∈ t.sto.reloc, r'.phase = 1) := by
  refine ⟨(s.stoMod (fun x => { x with reloc := none })).relocStart r.src r.why, ?_, State.phase_relocStart rfl _ _⟩
  simp [exec, execRelocCopyDone, reloc, copying, closed]

/-- A relocation of superblock 2, which has one mapped unit, into superblock 3. -/
def relocClosedTarget : Reloc :=
  { src := 2, tgt := 3, t0 := 0, t1 := 0, phase := 1, iseq := 0, why := 0, fails := 0, erasing := 0 }

/-- Both superblocks are closed, as the evacuation of channel 0 leaves them. -/
def copiesOfClosedTarget : State :=
  (State.reset.setF Reg.STO_STAT Fld.STO_STAT_PHASE 6).stoMod (fun x => { x with
    sbs := [(2, { state := 2, stream := 1, mask := 7, next := 1 }), (3, { state := 2, stream := 2, mask := 7 })],
    units := [(locOf 2 0, { lua := 3, kind := 0, prog := true })], map := [(3, locOf 2 0 + 1)],
    reloc := some relocClosedTarget, evac := some 0 })

theorem copies_copiesOfClosedTarget :
    (∀ e, e ∈ copiesOfClosedTarget.validUnits relocClosedTarget.src → e.2.bad = false) ∧
    (copiesOfClosedTarget.validUnits relocClosedTarget.src).length ≤
      copiesOfClosedTarget.sbCap (copiesOfClosedTarget.sb relocClosedTarget.tgt) - (copiesOfClosedTarget.sb relocClosedTarget.tgt).next ∧
    (copiesOfClosedTarget.sb relocClosedTarget.tgt).state = 2 := by decide +kernel

/-! ## A trim with every fine map in use (R288, R317)

A coarse unit without a fine map that is trimmed in part needs one; with none free another coarse unit is compacted, which may open a
superblock. OPEN then follows TRIM in the journal. -/

section FullFineMaps

variable {s : State} {cu : Nat}

/-- A coarse unit that is left mapped in part and has no fine map gets one. -/
theorem State.fmapSync_of_none {f : Nat → State → State} (partly : s.isCoarse (cu * 256) = false)
    (mapped : s.sto.map.any (fun e => decide (e.1 / 256 = cu)) = true) (none : ∀ e ∈ s.sto.fmaps, e.1 ≠ cu) :
    s.fmapSync cu f = s.fmapNew cu := by
  have noMap : s.sto.fmaps.find? (fun e => decide (e.1 = cu)) = Option.none :=
    List.find?_eq_none.mpr fun e he => by simpa using none e he
  simp [State.fmapSync, partly, mapped, noMap]

/-- With every fine map in use, and no superblock open for the relocation stream, what opening one journals goes before all else. -/
theorem State.jpend_fmapNew_of_full {e : Nat × Nat} (full : s.sto.fmaps.length = 65536)
    (victim : s.sto.fmaps.find? (fun e => !s.hasLost e.1) = some e) (none : s.openSb 2 = none) :
    (s.openNext 2 64).sto.jpend <+: (s.fmapNew cu).sto.jpend := by
  have compacts : (s.fmapNew cu).sto.jpend = (s.compact e.1).sto.jpend := by
    simp [State.fmapNew, full, victim, State.stoMod]
  rw [compacts, ← State.compactReady_of_none none]
  exact (Steady.compact_ready [] s e.1).jpend

/-- The state whose map no longer holds n units of partition p from first on; TRIM waits in the journal. -/
def State.trimmed (s : State) (p first n : Nat) : State :=
  (s.stoMod (fun x => { x with map := x.map.filter (fun e => decide (e.1 < luaOf p first ∨ luaOf p first + n ≤ e.1)) })).jour
    (.trim p first n)

/-- A trim that touches one coarse unit. -/
theorem State.trimUnits_of_one {p first n : Nat} (start : luaOf p first / 256 = cu) (last : (luaOf p first + n - 1) / 256 = cu) :
    ∃ f, s.trimUnits p first n = (s.trimmed p first n).fmapSync cu f := by
  have coarse : (List.range ((luaOf p first + n - 1) / 256 + 1 - luaOf p first / 256)).map (· + luaOf p first / 256) = [cu] := by
    simp [start, last]
  rw [State.trimUnits, coarse, State.each, List.foldl_cons, List.foldl_nil]
  exact ⟨_, rfl⟩

/-- A trim of part of a coarse unit without a fine map, with all of them in use, journals what opening a superblock does. -/
theorem State.jpend_trimUnits_of_full {p first n : Nat} {e : Nat × Nat} (start : luaOf p first / 256 = cu)
    (last : (luaOf p first + n - 1) / 256 = cu) (partly : (s.trimmed p first n).isCoarse (cu * 256) = false)
    (mapped : (s.trimmed p first n).sto.map.any (fun e => decide (e.1 / 256 = cu)) = true) (none : ∀ e ∈ s.sto.fmaps, e.1 ≠ cu)
    (full : s.sto.fmaps.length = 65536) (victim : s.sto.fmaps.find? (fun e => !(s.trimmed p first n).hasLost e.1) = some e)
    (closed : (s.trimmed p first n).openSb 2 = Option.none) :
    ((s.trimmed p first n).openNext 2 64).sto.jpend <+: (s.trimUnits p first n).sto.jpend := by
  obtain ⟨f, trims⟩ := State.trimUnits_of_one start last (s := s)
  rw [trims, State.fmapSync_of_none partly mapped none]
  exact State.jpend_fmapNew_of_full full victim closed

end FullFineMaps

/-- A descriptor of one TRIM of unit 0 of partition 2. -/
def trimDescriptor : Bytes := [3, 2, 0x80, 0, 0, 0, 0, 0, 1, 0, 0, 0, 0, 0, 0, 0, 0, 0x10, 0, 0, 0, 0, 0, 0] ++ List.replicate 8 0

/-- Fine maps of 65,536 coarse units from number 2^23 on. -/
def fullFineMaps : List (Nat × Nat) := (2 ^ 23, 0) :: (List.range' 1 65535).map (fun i => (2 ^ 23 + i, i))

theorem length_fullFineMaps : fullFineMaps.length = 65536 := by
  rw [fullFineMaps, List.length_cons, List.length_map, List.length_range']

theorem not_mem_fullFineMaps : ∀ e ∈ fullFineMaps, e.1 ≠ 2 ^ 22 := by
  intro e he
  obtain rfl | he := List.mem_cons.mp he
  · decide
  · obtain ⟨i, -, rfl⟩ := List.mem_map.mp he
    show 2 ^ 23 + i ≠ 2 ^ 22
    omega

/-- Ring 0 holds the descriptor. Its unit is the first of coarse unit 2^22, which lies in order in superblock 2 and needs no fine map; other
coarse units have them all. -/
@[irreducible] def trimWithFullFineMaps : State :=
  ((((((((State.reset.setF Reg.STO_STAT Fld.STO_STAT_PHASE 6).setF Reg.STO_DIE_STAT ⟨31, 0⟩ 0x55555555).setF Reg.STO_CH_CTL
    Fld.STO_CH_CTL_STATE_0 1).setF Reg.STO_CH_CTL Fld.STO_CH_CTL_STATE_1 1).wrMem 0 trimDescriptor).setF
    (Reg.STO_RING_HEAD 0) Fld.STO_RING_HEAD_PROD 1).setF (Reg.STO_RING_LO 0) Fld.STO_RING_LO_RING_LOG2 4).setF
    (Reg.STO_PART_SIZE 2) Fld.STO_PART_SIZE_SIZE 1).stoMod (fun x => { x with
      map := (List.range 256).map (fun k => (luaOf 2 k, locOf 2 k + 1)), fmaps := fullFineMaps,
      sbs := [(2, { state := 2, stream := 1, mask := 0xFFFF, next := 256 })] })

theorem fmaps_trimWithFullFineMaps : trimWithFullFineMaps.sto.fmaps = fullFineMaps := by
  rw [trimWithFullFineMaps]
  rfl

theorem ready_trimWithFullFineMaps : trimWithFullFineMaps.ringNext 0 = some trimDescriptor ∧
    trimWithFullFineMaps.ringCheck 0 trimDescriptor true = 0 ∧ trimWithFullFineMaps.sto.jpend = [] := by decide +kernel

/-- Without its first unit the coarse unit is mapped in part; no unit of the first coarse unit with a fine map is lost. -/
theorem partly_trimWithFullFineMaps : (trimWithFullFineMaps.trimmed 2 0 1).isCoarse (2 ^ 22 * 256) = false ∧
    (trimWithFullFineMaps.trimmed 2 0 1).sto.map.any (fun e => decide (e.1 / 256 = 2 ^ 22)) = true ∧
    (trimWithFullFineMaps.trimmed 2 0 1).hasLost (2 ^ 23) = false := by decide +kernel

theorem opens_trimWithFullFineMaps : (trimWithFullFineMaps.trimmed 2 0 1).openSb 2 = none ∧
    ((trimWithFullFineMaps.trimmed 2 0 1).openNext 2 64).sto.jpend.length = 2 := by decide +kernel

theorem jpend_trimWithFullFineMaps : 2 ≤ (trimWithFullFineMaps.trimUnits 2 0 1).sto.jpend.length := by
  obtain ⟨partly, mapped, kept⟩ := partly_trimWithFullFineMaps
  obtain ⟨closed, opened⟩ := opens_trimWithFullFineMaps
  have victim : fullFineMaps.find? (fun e => !(trimWithFullFineMaps.trimmed 2 0 1).hasLost e.1) = some (2 ^ 23, 0) :=
    List.find?_cons_of_pos (by rw [kept]; rfl)
  have longer := State.jpend_trimUnits_of_full (s := trimWithFullFineMaps) (cu := 2 ^ 22) (by decide) (by decide) partly mapped
    (fmaps_trimWithFullFineMaps ▸ not_mem_fullFineMaps) (fmaps_trimWithFullFineMaps ▸ length_fullFineMaps)
    (fmaps_trimWithFullFineMaps ▸ victim) closed
  exact opened.ge.trans longer.length_le

/-- A trim that no check refuses leaves in the store what trimming its units leaves. -/
theorem runs_ringTrim {k : Nat} {d : Bytes} {s : State} (ring : k < 2) (next : s.ringNext k = some d) (op : u8 d 0 = 3)
    (serves : s.ringCheck k d true = 0) :
    Runs (.ringTrim k) s (fun t => t.sto = (s.trimUnits (u8 d 1) (u32 d 4) (u32 d 8)).sto) := by
  have done : exec (.ringTrim k) s = .next ((s.trimUnits (u8 d 1) (u32 d 4) (u32 d 8)).ringDone k 0) := by
    simp [exec, execRingTrim, Nat.mod_eq_of_lt ring, State.ringRun, next, op, serves]
  exact ⟨_, done, (Keeps.ringDone (.refl [.dram, .win 9] _)).only .sto (by decide)⟩

end Sys2Proof.Machine

open Sys2Proof Sys2Proof.Machine

/-- Settles O32: a clause for each of the commands, as its completion leaves the store. -/
theorem storeRunsAndItsPages : Obligations.StoreRunsAndItsPages := by
  unfold Obligations.StoreRunsAndItsPages
  refine ⟨fun absent s off => runs_storeStart off absent, fun s low high => ?_, fun s => runs_storeStop, fun s => runs_recordUnitProgram,
    fun s => runs_storeFlushDone_off, fun s => runs_storeFlushDone_on, fun d b p s => runs_nandProgramDone,
    fun d b p s => runs_nandProgramDone_fail, fun loc corr retry rebuilt s => runs_nandReadDone_corrected retry rebuilt,
    fun loc corr s => runs_nandReadDone_lost corr, fun loc corr rebuilt s => runs_nandReadDone_retried loc corr rebuilt,
    fun loc corr s => runs_nandReadDone_rebuilt corr, fun d r s => runs_nandEraseDone_last⟩
  obtain ⟨t, ht, phase, ready, intake, darner, pass⟩ := runs_storeRestoreDone low high
  exact ⟨t, ht, phase, ready, intake, darner, fun _ => pass⟩

/-- Refutes O33: the clause on copies has them all in the target, of which it does not say that it is open. A target that has been closed
meanwhile, as an evacuation does (R314), takes no copies: the relocation starts again, and does not go on to verify. -/
theorem not_relocationsRunTheirPhases : ¬ Obligations.RelocationsRunTheirPhases := by
  unfold Obligations.RelocationsRunTheirPhases
  rintro ⟨-, -, -, -, copied, -⟩
  obtain ⟨good, room, closed⟩ := copies_copiesOfClosedTarget
  obtain ⟨t, ht, verifies, -⟩ := copied relocClosedTarget copiesOfClosedTarget rfl rfl (by decide) good room
  obtain ⟨u, hu, restarts⟩ := runs_relocCopyDone_of_closed (s := copiesOfClosedTarget) rfl rfl (by rw [closed]; decide)
  obtain rfl := Host.Outcome.next.inj (ht.symm.trans hu)
  obtain ⟨r, reloc, fields⟩ := Option.map_eq_some_iff.mp verifies
  have start := restarts r reloc
  simp [start] at fields

/-- Refutes O34: the clause on trims has TRIM as the one entry that joins the journal. A unit trimmed out of a coarse unit that has no fine
map makes it need one, and with all 65,536 in use another coarse unit is compacted (R288), which here opens a superblock: OPEN and the
MAP entries of the units moved follow TRIM. The clause on writes excludes this, the one on trims does not. -/
theorem not_checkpointsChannelsAndRingCommands : ¬ Obligations.CheckpointsChannelsAndRingCommands := by
  unfold Obligations.CheckpointsChannelsAndRingCommands
  rintro ⟨-, -, -, -, -, -, -, -, -, -, -, -, trim, -⟩
  obtain ⟨next, serves, empty⟩ := ready_trimWithFullFineMaps
  obtain ⟨t, ht, -, claimed, -⟩ := trim 0 trimDescriptor trimWithFullFineMaps (by decide) next (by decide) serves
  obtain ⟨u, hu, leaves⟩ := runs_ringTrim (by decide) next (by decide) serves
  obtain rfl := Host.Outcome.next.inj (ht.symm.trans hu)
  have journal : 2 ≤ t.sto.jpend.length := leaves ▸ jpend_trimWithFullFineMaps
  rw [claimed, empty] at journal
  exact absurd journal (by decide)

end

/-! # The totaliser: its seal, sessions and calibration, and a maximum demand beyond 32 bits (R324–R345) -/

section

-- Proofs are elaborated in turn: every thread that waits for another takes its stack from the memory a compile may use.
set_option Elab.async false

namespace Sys2Proof.Machine

section Mirror

variable (s : State)

/-! ## The block, its mirror and E_VALID (R51, R324, R333) -/

/-- In a state where the totaliser is pricked, a write to a register of it does what the register starts. -/
theorem State.onTot_of_exists {s : State} (built : s.exists_ 8 3 = true) (off : Nat) (f : Host.Outcome State Fault Refusal) :
    s.onTot off f = f := if_pos built

theorem State.legalOpen_of_phase {s : State} (running : s.phase = 6) : s.legalOpen = true := decide_eq_true (.inl running)

theorem State.keeps_legalPut (fine off : Nat) (b : Bytes) : Keeps [.dram, .sto, .win 9] s (s.legalPut fine off b) :=
  .legalPut (.refl _ s)

theorem State.tot_legalPut (fine off : Nat) (b : Bytes) : (s.legalPut fine off b).tot = s.tot :=
  (s.keeps_legalPut fine off b).only .tot (by decide)

theorem State.raw_legalPut (fine off : Nat) (b : Bytes) {k : Nat} (hw : window k = 8) : (s.legalPut fine off b).raw k = s.raw k :=
  (s.keeps_legalPut fine off b).raw_eq k (by rw [hw]; decide)

theorem State.phase_legalPut (fine off : Nat) (b : Bytes) : (s.legalPut fine off b).phase = s.phase :=
  ((Steady.refl [Reg.STO_HOST_UNITS_CNT] s).storePut 3 fine _ (by decide)).phase

theorem State.phase_sync : s.sync.phase = s.phase :=
  (((Steady.refl [Reg.STO_REC_HEAD] s).recUnitPut 0 (by decide)).each _ fun e _ hu => hu.programSb e.1).toRegsSteady.trans
    (State.regs_jDrain _ _ _) |>.phase

theorem State.raw_totValid {k : Nat} (hk : k ≠ Reg.TOT_STAT := by decide) : s.totValid.raw k = s.raw k := s.raw_setF_ne _ _ hk

/-- The other fields of TOT_STAT stay. -/
theorem State.isF_totValid {f : BitRange} (hf : f.hi < 31 := by decide) : s.totValid.isF Reg.TOT_STAT f = s.isF Reg.TOT_STAT f :=
  s.isF_setF_ne Reg.TOT_STAT _ (.inl hf) (by decide) (hf.trans (by decide))

/-- No energy is valid in a session. -/
theorem State.eValid_totValid_of_session {s : State} (opened : s.session = true) : s.totValid.eValid = false := by
  have off : decide (s.totEn = true ∧ 8000 ≤ s.tot.good ∧ s.getF Reg.TOT_STAT Fld.TOT_STAT_CH_FAULT = 0 ∧ s.session = false ∧
      s.tot.stopped = false) = false := by simp [opened]
  rw [State.eValid, State.totValid, off]
  exact s.isF_setF_zero Reg.TOT_STAT Fld.TOT_STAT_E_VALID

/-! ## Metrology events (R345) -/

theorem State.keeps_totEvt (kind eflags data : Nat) : Keeps [.dram, .sto, .tot, .win 8, .win 9] s (s.totEvt kind eflags data) :=
  .totEvt (.refl _ s)

/-- An event is written or waits. -/
theorem State.tot_totEvt (kind eflags data : Nat) : ∃ n q, (s.totEvt kind eflags data).tot = { s.tot with evtTotal := n, evq := q } ∧
    n + q.length = s.tot.evtTotal + s.tot.evq.length + 1 := by
  unfold State.totEvt
  dsimp only
  split
  · exact ⟨s.tot.evtTotal + 1, s.tot.evq, congrArg (fun x : TotState => { x with evtTotal := s.tot.evtTotal + 1 }) (s.tot_legalPut ..),
      by omega⟩
  · exact ⟨_, _, rfl, by rw [List.length_append, List.length_singleton]; omega⟩

/-- Of the totaliser's registers an event advances TOT_EVT_PROD alone. -/
theorem State.raw_totEvt (kind eflags data : Nat) {k : Nat} (hw : window k = 8 := by decide) (hk : k ≠ Reg.TOT_EVT_PROD := by decide) :
    (s.totEvt kind eflags data).raw k = s.raw k := by
  unfold State.totEvt
  dsimp only
  split
  · exact (State.raw_wrN_ne _ _ hk).trans (s.raw_legalPut _ _ _ hw)
  · rfl

theorem State.phase_totEvt (kind eflags data : Nat) : (s.totEvt kind eflags data).phase = s.phase := by
  unfold State.totEvt
  dsimp only
  split
  · exact ((Steady.refl _ s).evtPut _).phase
  · rfl

/-! ## Records of the legal log (R330) -/

/-- LOG_USED and LOG_FULL show the number of records; what else the totaliser's registers show stays, but LOG_FULL of TOT_INT_STAT. -/
theorem State.raw_logCount (n : Nat) {k : Nat} (hk : k ≠ Reg.TOT_INT_STAT) : (s.logCount n).raw k =
    ((s.setF Reg.TOT_SEAL_STAT Fld.TOT_SEAL_STAT_LOG_USED n).setF Reg.TOT_STAT Fld.TOT_STAT_LOG_FULL (decide (1022 ≤ n)).toNat).raw k := by
  unfold State.logCount State.when
  dsimp only
  split
  · exact State.raw_raiseF_ne _ _ hk
  · rfl

theorem State.tot_logCount (n : Nat) : (s.logCount n).tot = s.tot := (Keeps.logCount (.refl [.win 8] s)).only .tot (by decide)

/-- Another field of TOT_STAT. -/
theorem State.isF_logCount (n : Nat) {f : BitRange} (hf : f.hi < 28 ∨ 28 < f.lo) (top : f.hi < 32) :
    (s.logCount n).isF Reg.TOT_STAT f = s.isF Reg.TOT_STAT f := by
  rw [State.isF_of_raw (s.raw_logCount n (by decide)), State.isF_setF_ne _ _ _ hf (by decide) top]
  exact State.isF_of_raw (s.raw_setF_ne _ _ (by decide)) f

theorem State.sealStat_logCount (n : Nat) :
    (s.logCount n).raw Reg.TOT_SEAL_STAT = (s.setF Reg.TOT_SEAL_STAT Fld.TOT_SEAL_STAT_LOG_USED n).raw Reg.TOT_SEAL_STAT :=
  (s.raw_logCount n (by decide)).trans (State.raw_setF_ne _ _ _ (by decide))

theorem State.logUsed_logCount {n : Nat} (hn : n < 2048) : (s.logCount n).logUsed = n :=
  (State.getF_of_raw (s.sealStat_logCount n) _).trans
    ((s.getF_setF Reg.TOT_SEAL_STAT Fld.TOT_SEAL_STAT_LOG_USED n).trans (Nat.mod_eq_of_lt hn))

theorem State.err_logCount (n : Nat) :
    (s.logCount n).getF Reg.TOT_SEAL_STAT Fld.TOT_SEAL_STAT_ERR = s.getF Reg.TOT_SEAL_STAT Fld.TOT_SEAL_STAT_ERR :=
  (State.getF_of_raw (s.sealStat_logCount n) _).trans (s.getF_setF_ne Reg.TOT_SEAL_STAT _)

/-- A record of a TYPE in the mirror, counted; its hash is kept for the next one, and of a commit the CRC of the set. -/
def State.recorded (type new : Nat) (r : Bytes) : State :=
  ((s.legalPut (s.logUsed / 64) (64 * (s.logUsed % 64)) r).totMod (fun t => { t with
    logHash := sha256 r, calCrc := if type = 2 then some new else t.calCrc })).logCount (s.logUsed + 1)

/-- Nothing is written, or a record. -/
theorem State.legalAppend_cases (type param old new : Nat) :
    s.legalAppend type param old new = s ∨ ∃ r, s.legalAppend type param old new = s.recorded type new r := by
  unfold State.legalAppend
  dsimp only
  split
  · exact .inr ⟨_, rfl⟩
  · exact .inl rfl

theorem State.legalAppend_of_room {s : State} (running : s.phase = 6) (room : s.logUsed < 1024) (type param old new : Nat) :
    ∃ r, s.legalAppend type param old new = s.recorded type new r := ⟨_, if_pos ⟨room, State.legalOpen_of_phase running⟩⟩

theorem State.keeps_recorded (type new : Nat) (r : Bytes) : Keeps [.dram, .sto, .tot, .win 8, .win 9] s (s.recorded type new r) :=
  .logCount (.totMod (.legalPut (.refl _ s)))

theorem State.tot_recorded (type new : Nat) (r : Bytes) : (s.recorded type new r).tot =
    { s.tot with logHash := sha256 r, calCrc := if type = 2 then some new else s.tot.calCrc } := by
  rw [State.recorded, State.tot_logCount, State.totMod_tot, State.tot_legalPut]

theorem State.isF_recorded (type new : Nat) (r : Bytes) {f : BitRange} (hf : f.hi < 28 ∨ 28 < f.lo := by decide)
    (top : f.hi < 32 := by decide) : (s.recorded type new r).isF Reg.TOT_STAT f = s.isF Reg.TOT_STAT f :=
  (State.isF_logCount _ _ hf top).trans (State.isF_of_raw (s.raw_legalPut _ _ _ (by decide)) f)

theorem State.err_recorded (type new : Nat) (r : Bytes) : (s.recorded type new r).getF Reg.TOT_SEAL_STAT Fld.TOT_SEAL_STAT_ERR =
    s.getF Reg.TOT_SEAL_STAT Fld.TOT_SEAL_STAT_ERR :=
  (State.err_logCount _ _).trans (State.getF_of_raw (s.raw_legalPut _ _ _ (by decide)) _)

theorem State.logUsed_recorded {s : State} (room : s.logUsed < 1024) (type new : Nat) (r : Bytes) :
    (s.recorded type new r).logUsed = s.logUsed + 1 := State.logUsed_logCount _ (by omega)

theorem State.isF_legalAppend (type param old new : Nat) {f : BitRange} (hf : f.hi < 28 ∨ 28 < f.lo := by decide)
    (top : f.hi < 32 := by decide) : (s.legalAppend type param old new).isF Reg.TOT_STAT f = s.isF Reg.TOT_STAT f := by
  rcases s.legalAppend_cases type param old new with e | ⟨r, e⟩
  · rw [e]
  · rw [e, State.isF_recorded _ _ _ _ hf top]

theorem State.live_legalAppend (type param old new : Nat) : (s.legalAppend type param old new).tot.live = s.tot.live := by
  rcases s.legalAppend_cases type param old new with e | ⟨r, e⟩
  · rw [e]
  · rw [e, State.tot_recorded]

end Mirror

section Sessions

variable {s : State}

/-! ## Sessions end (R330) -/

/-- Of TOT_STAT, the end of a session clears SESSION and shows E_VALID anew; SEAL_OPEN stays. -/
theorem State.sessionDrop_leaves (opened : s.session = true) : s.sessionDrop.session = false ∧
    s.sessionDrop.isF Reg.TOT_INT_STAT Fld.TOT_INT_STAT_SESSION = true ∧
    s.sessionDrop.isF Reg.TOT_STAT Fld.TOT_STAT_SEAL_OPEN = s.isF Reg.TOT_STAT Fld.TOT_STAT_SEAL_OPEN ∧
    s.sessionDrop.logUsed = s.logUsed ∧ s.sessionDrop.tot = { s.tot with staging := List.replicate 128 0 } := by
  let shut := (s.setF Reg.TOT_STAT Fld.TOT_STAT_SESSION 0).totMod (fun t => { t with staging := List.replicate 128 0 })
  let told := shut.raiseF Reg.TOT_INT_STAT Fld.TOT_INT_STAT_SESSION
  have ends : s.sessionDrop = told.totValid := if_pos opened
  have stat : told.raw Reg.TOT_STAT = (s.setF Reg.TOT_STAT Fld.TOT_STAT_SESSION 0).raw Reg.TOT_STAT := shut.raw_raiseF_ne _ (by decide)
  rw [ends]
  refine ⟨?_, ?_, ?_, ?_, rfl⟩
  · exact told.isF_totValid.trans ((State.isF_of_raw stat _).trans (s.isF_setF_zero Reg.TOT_STAT Fld.TOT_STAT_SESSION))
  · exact (State.isF_of_raw told.raw_totValid _).trans (shut.isF_raiseF Reg.TOT_INT_STAT Fld.TOT_INT_STAT_SESSION)
  · exact told.isF_totValid.trans ((State.isF_of_raw stat _).trans (s.isF_setF_ne Reg.TOT_STAT 0))
  · exact State.getF_of_raw (told.raw_totValid.trans ((shut.raw_raiseF_ne _ (by decide)).trans (s.raw_setF_ne _ _ (by decide)))) _

/-- A session closes with its record, if the log takes it. -/
theorem State.sessionClose_leaves (opened : s.session = true) (type : Nat) : (s.sessionClose type).session = false ∧
    (s.sessionClose type).isF Reg.TOT_INT_STAT Fld.TOT_INT_STAT_SESSION = true ∧
    (s.sessionClose type).isF Reg.TOT_STAT Fld.TOT_STAT_SEAL_OPEN = s.isF Reg.TOT_STAT Fld.TOT_STAT_SEAL_OPEN ∧
    (s.sessionClose type).tot.staging = List.replicate 128 0 ∧ (s.sessionClose type).tot.live = s.tot.live ∧
    (s.phase = 6 → s.logUsed < 1024 → (s.sessionClose type).logUsed = s.logUsed + 1) := by
  let logged := s.legalAppend type 0 s.liveCrc s.liveCrc
  have closes : s.sessionClose type = logged.sessionDrop := if_pos opened
  have still : logged.session = true := (s.isF_legalAppend ..).trans opened
  obtain ⟨session, told, shows, used, tot⟩ := State.sessionDrop_leaves still
  rw [closes, tot]
  refine ⟨session, told, shows.trans (s.isF_legalAppend ..), rfl, s.live_legalAppend .., fun running room => used.trans ?_⟩
  obtain ⟨r, records⟩ := State.legalAppend_of_room running room type 0 s.liveCrc s.liveCrc
  exact (congrArg State.logUsed records).trans (State.logUsed_recorded room ..)

theorem runs_sealEnd (built : s.exists_ 8 3 = true) (opened : s.session = true) (running : s.phase = 6) (room : s.logUsed < 1024) :
    Runs .sealEnd s (fun t => t.session = false ∧ t.tot.staging = List.replicate 128 0 ∧ t.tot.live = s.tot.live ∧
      t.logUsed = s.logUsed + 1 ∧ t.isF Reg.TOT_INT_STAT Fld.TOT_INT_STAT_SESSION = true) := by
  obtain ⟨session, told, -, staging, live, used⟩ := State.sessionClose_leaves opened 4
  have ends : exec .sealEnd s = .next (s.sessionClose 4) := (State.onTot_of_exists built _ _).trans (congrArg ok (if_pos opened))
  exact ⟨_, ends, session, staging, live, used running room, told⟩

theorem State.raw_sealErr (s : State) (e : Nat) {k : Nat} (hk : k ≠ Reg.TOT_SEAL_STAT := by decide) : (s.sealErr e).raw k = s.raw k :=
  s.raw_setF_ne _ _ hk


theorem State.err_sealErr (s : State) {e : Nat} (he : e < 16) :
    (s.sealErr e).getF Reg.TOT_SEAL_STAT Fld.TOT_SEAL_STAT_ERR = e :=
  (s.getF_setF Reg.TOT_SEAL_STAT Fld.TOT_SEAL_STAT_ERR e).trans (Nat.mod_eq_of_lt he)

theorem runs_sealEnd_none (built : s.exists_ 8 3 = true) (none : s.session = false) :
    Runs .sealEnd s (fun t => t.getF Reg.TOT_SEAL_STAT Fld.TOT_SEAL_STAT_ERR = 7 ∧ t.tot = s.tot) := by
  have ends : exec .sealEnd s = .next (s.sealErr 7) :=
    (State.onTot_of_exists built _ _).trans (congrArg ok (if_neg (Bool.eq_false_iff.mp none)))
  exact ⟨_, ends, s.err_sealErr (by decide), rfl⟩

theorem runs_sessionTimeout (opened : s.session = true) (running : s.phase = 6) (room : s.logUsed < 1024) :
    Runs .sessionTimeout s (fun t => t.session = false ∧ t.tot.staging = List.replicate 128 0 ∧ t.logUsed = s.logUsed + 1) := by
  obtain ⟨session, -, -, staging, -, used⟩ := State.sessionClose_leaves opened 5
  exact ⟨s.sessionClose 5, rfl, session, staging, used running room⟩

end Sessions

section Seal

variable {s : State}

/-! ## The seal opens and closes (R326, R327) -/

/-- SEAL_OPEN shows the seal open or closed. -/
def State.sealShown (s : State) (opened : Bool) : State :=
  (s.aoMod (fun a => { a with sealOpen := opened })).setF Reg.TOT_STAT Fld.TOT_STAT_SEAL_OPEN opened.toNat

theorem State.isF_sealShown (s : State) (opened : Bool) :
    (s.sealShown opened).isF Reg.TOT_STAT Fld.TOT_STAT_SEAL_OPEN = opened := by
  cases opened
  · exact State.isF_setF_zero _ Reg.TOT_STAT Fld.TOT_STAT_SEAL_OPEN
  · exact State.isF_raiseF _ Reg.TOT_STAT Fld.TOT_STAT_SEAL_OPEN

theorem State.raw_sealShown (s : State) (opened : Bool) {k : Nat} (hk : k ≠ Reg.TOT_STAT := by decide) :
    (s.sealShown opened).raw k = s.raw k := State.raw_setF_ne _ _ _ hk

theorem State.session_sealShown (s : State) (opened : Bool) : (s.sealShown opened).session = s.session :=
  State.isF_setF_ne _ Reg.TOT_STAT _

/-- The event, the record, the count and the flag of a tamper. -/
theorem State.tamper_leaves (s : State) (room : s.smp.fifo.length < 256) :
    s.tamper.isF Reg.TOT_STAT Fld.TOT_STAT_SEAL_OPEN = s.isF Reg.TOT_STAT Fld.TOT_STAT_SEAL_OPEN ∧
    s.tamper.num Reg.TOT_TAMPER_CNT = min (s.num Reg.TOT_TAMPER_CNT + 1) 0xFFFFFFFF ∧
    s.tamper.isF Reg.TOT_INT_STAT Fld.TOT_INT_STAT_SEAL_OPENED = true ∧
    s.tamper.tot.evtTotal + s.tamper.tot.evq.length = s.tot.evtTotal + s.tot.evq.length + 1 ∧
    Logged s s.tamper 0x8100 5 (blockPath 8 3) [] := by
  let event := s.totEvt 7 0 0
  let told := event.report 0x8100 5 (blockPath 8 3) []
  have reports : Keeps [.smp, .win 4] event told := (Keeps.refl _ _).report _ _ _ _
  have same {k : Nat} (hw : window k = 8) (hk : k ≠ Reg.TOT_EVT_PROD) : told.raw k = s.raw k :=
    (reports.raw_eq k (by rw [hw]; decide)).trans (s.raw_totEvt 7 0 0 hw hk)
  obtain ⟨n, q, tot, adds⟩ := s.tot_totEvt 7 0 0
  have kept : s.tamper.tot = event.tot := reports.only .tot (by decide)
  refine ⟨?_, ?_, State.isF_raiseF _ Reg.TOT_INT_STAT Fld.TOT_INT_STAT_SEAL_OPENED, ?_, ?_⟩
  · refine State.isF_of_raw ?_ _
    exact (State.raw_raiseF_ne _ _ (by decide)).trans ((State.raw_bump_ne _ (by decide)).trans (same (by decide) (by decide)))
  · calc s.tamper.num Reg.TOT_TAMPER_CNT = (told.bump Reg.TOT_TAMPER_CNT).num Reg.TOT_TAMPER_CNT :=
          State.num_of_raw (State.raw_raiseF_ne _ _ (by decide))
      _ = _ := by rw [State.num_bump, State.num_of_raw (same (by decide) (by decide))]
  · rw [kept, tot]
    exact adds
  · exact (s.keeps_totEvt 7 0 0).fifo_report 0x8100 5 (blockPath 8 3) [] room

theorem runs_sealOpened_tamper (shut : s.ao.sealOpen = false) (on : s.pins.reset = false) (none : s.session = false)
    (room : s.smp.fifo.length < 256) : Runs .sealOpened s (fun t => t.ao.sealOpen = true ∧
      t.isF Reg.TOT_STAT Fld.TOT_STAT_SEAL_OPEN = true ∧ t.num Reg.TOT_TAMPER_CNT = min (s.num Reg.TOT_TAMPER_CNT + 1) 0xFFFFFFFF ∧
      t.isF Reg.TOT_INT_STAT Fld.TOT_INT_STAT_SEAL_OPENED = true ∧
      t.tot.evtTotal + t.tot.evq.length = s.tot.evtTotal + s.tot.evq.length + 1 ∧ Logged s t 0x8100 5 (blockPath 8 3) []) := by
  have opens : exec .sealOpened s = .next (s.sealShown true).tamper := by
    simp [exec, execSealOpened, shut, on, none, State.sealShown]
  obtain ⟨shows, count, told, event, logged⟩ := (s.sealShown true).tamper_leaves room
  have ao : (s.sealShown true).tamper.ao = (s.sealShown true).ao :=
    (Keeps.tamper (.refl [.dram, .sto, .tot, .smp, .win 4, .win 8, .win 9] _)).only .ao (by decide)
  have entry : (s.sealShown true).entry 0x8100 5 (blockPath 8 3) [] = s.entry 0x8100 5 (blockPath 8 3) [] := by
    have stat := State.isF_of_raw (s.raw_sealShown true (k := Reg.SMP_STAT)) Fld.SMP_STAT_PROVISIONAL
    rw [State.entry, stat]
    rfl
  refine ⟨_, opens, congrArg AoState.sealOpen ao, shows.trans (s.isF_sealShown true), ?_, told, event, ?_⟩
  · rw [count, State.num_of_raw (s.raw_sealShown true)]
  · exact logged.trans (congrArg (s.smp.fifo ++ [·]) entry)

theorem runs_sealOpened_session (shut : s.ao.sealOpen = false) (on : s.pins.reset = false) (opened : s.session = true) :
    Runs .sealOpened s (fun t => t.isF Reg.TOT_STAT Fld.TOT_STAT_SEAL_OPEN = true ∧
      t.num Reg.TOT_TAMPER_CNT = s.num Reg.TOT_TAMPER_CNT ∧ t.smp = s.smp ∧ t.tot = s.tot) :=
  ⟨s.sealShown true, by simp [exec, execSealOpened, shut, on, opened, State.sealShown], s.isF_sealShown true,
    State.num_of_raw (s.raw_sealShown true), rfl, rfl⟩

theorem runs_sealClosed (up : s.ao.sealOpen = true) (on : s.pins.reset = false) (opened : s.session = true) :
    Runs .sealClosed s (fun t => t.ao.sealOpen = false ∧ t.isF Reg.TOT_STAT Fld.TOT_STAT_SEAL_OPEN = false ∧ t.session = false ∧
      t.tot.staging = List.replicate 128 0 ∧ (s.phase = 6 ∧ s.logUsed < 1024 → t.logUsed = s.logUsed + 1)) := by
  let event := (s.sealShown false).totEvt 8 0 0
  have stat : event.raw Reg.TOT_STAT = (s.sealShown false).raw Reg.TOT_STAT := State.raw_totEvt _ 8 0 0
  have used : event.logUsed = s.logUsed := State.getF_of_raw ((State.raw_totEvt _ 8 0 0).trans (s.raw_sealShown false)) _
  have phase : event.phase = s.phase := (State.phase_totEvt _ 8 0 0).trans (State.getF_of_raw (s.raw_sealShown false) _)
  have still : event.session = true := (State.isF_of_raw stat _).trans ((s.session_sealShown false).trans opened)
  have closes : exec .sealClosed s = .next (event.sessionClose 3) := by
    simp [exec, execSealClosed, up, on, event, State.sealShown]
  have ao : (event.sessionClose 3).ao = (s.sealShown false).ao :=
    (Keeps.sessionClose (State.keeps_totEvt _ 8 0 0)).only .ao (by decide)
  obtain ⟨session, -, shows, staging, -, logged⟩ := State.sessionClose_leaves still 3
  refine ⟨_, closes, congrArg AoState.sealOpen ao, ?_, session, staging, fun ⟨running, room⟩ => ?_⟩
  · exact shows.trans ((State.isF_of_raw stat _).trans (s.isF_sealShown false))
  · rw [logged (phase.trans running) (used ▸ room), used]

/-! ## SPEND (R328, R329) -/

/-- Whatever forbids it, SPEND shows why and is counted, and nothing else of the totaliser or the hoop changes. -/
theorem runs_sealSpend_refused {e : Nat} (built : s.exists_ 8 3 = true) (why : s.spendErr = e) (he : e ≠ 0 ∧ e < 16) :
    Runs .sealSpend s (fun t => t.getF Reg.TOT_SEAL_STAT Fld.TOT_SEAL_STAT_ERR = e ∧
      t.num Reg.TOT_REFUSE_CNT = min (s.num Reg.TOT_REFUSE_CNT + 1) 0xFFFFFFFF ∧ t.session = s.session ∧ t.hoop = s.hoop ∧
      t.tot = s.tot) := by
  obtain ⟨some, small⟩ := he
  have refuses : exec .sealSpend s = .next ((s.sealErr e).bump Reg.TOT_REFUSE_CNT) :=
    (State.onTot_of_exists built _ _).trans (by rw [why, if_pos some])
  refine ⟨_, refuses, ?_, ?_, ?_, rfl, rfl⟩
  · exact (State.getF_of_raw (State.raw_bump_ne _ (by decide)) _).trans (s.err_sealErr small)
  · rw [State.num_bump, State.num_of_raw (s.raw_sealErr e)]
  · exact State.isF_of_raw ((State.raw_bump_ne _ (by decide)).trans (s.raw_sealErr e)) _

theorem State.keeps_unsealSpent (s : State) : Keeps [.dram, .sto, .smp, .win 4, .win 5, .win 9]
    (s.hoopMod (fun h => { h with unsealUsed := h.unsealUsed + 1 })) s.unsealSpend := .cntLog (.refl _ _)

/-- The change log takes its record from the store. -/
theorem State.phase_unsealSpend (s : State) : s.unsealSpend.phase = s.phase := by
  suffices h : Steady [Reg.STO_HOST_UNITS_CNT] s s.unsealSpend from h.phase
  refine Steady.report ?_ _ _ _ _
  have spent : Steady [Reg.STO_HOST_UNITS_CNT] s (s.hoopMod (fun h => { h with unsealUsed := h.unsealUsed + 1 })) := (Steady.refl _ s).sto
  unfold State.chgAppend
  dsimp only
  split
  · exact (spent.storePut 4 _ _ (by decide)).outside (Keeps.setF (.refl [.win 5] _) _ _ _)
  · exact spent

theorem runs_sealSpend (built : s.exists_ 8 3 = true) (up : s.ao.sealOpen = true) (none : s.session = false) (room : s.logUsed ≤ 1021)
    (running : s.phase = 6) (left : 0 < s.cntLeft 5 0) : Runs .sealSpend s (fun t => t.session = true ∧ t.tot.staging = s.tot.live ∧
      t.tot.sessAt = s.ao.opsec ∧ t.hoop.unsealUsed = s.hoop.unsealUsed + 1 ∧
      t.getF Reg.TOT_SEAL_STAT Fld.TOT_SEAL_STAT_ERR = 0 ∧ t.eValid = false ∧
      t.isF Reg.TOT_INT_STAT Fld.TOT_INT_STAT_SESSION = true ∧ t.logUsed = s.logUsed + 1) := by
  have why : s.spendErr = 0 := by
    simp [State.spendErr, up, none, running, Nat.not_lt.mpr room, Nat.pos_iff_ne_zero.mp left]
  let spent := s.unsealSpend.sealErr 0
  have used : spent.logUsed = s.logUsed :=
    (State.getF_setF_ne _ Reg.TOT_SEAL_STAT _).trans (State.getF_of_raw (s.keeps_unsealSpent.raw_eq _) _)
  have phase : spent.phase = 6 := (State.getF_of_raw (State.raw_sealErr _ 0) _).trans (s.phase_unsealSpend.trans running)
  have tot : spent.tot = s.tot := s.keeps_unsealSpent.only .tot (by decide)
  obtain ⟨r, records⟩ := State.legalAppend_of_room phase (by omega) 1 0 s.liveCrc s.liveCrc
  let logged := spent.recorded 1 s.liveCrc r
  let begun := (logged.setF Reg.TOT_STAT Fld.TOT_STAT_SESSION 1).totMod (fun x => { x with staging := x.live, sessAt := s.ao.opsec })
  let told := begun.raiseF Reg.TOT_INT_STAT Fld.TOT_INT_STAT_SESSION
  have spends : exec .sealSpend s = .next told.totValid := by
    refine (State.onTot_of_exists built _ _).trans ?_
    rw [why, if_neg (fun e => e rfl)]
    exact congrArg (fun u : State => ok (((u.setF Reg.TOT_STAT Fld.TOT_STAT_SESSION 1).totMod (fun x => { x with
      staging := x.live, sessAt := s.ao.opsec })).raiseF Reg.TOT_INT_STAT Fld.TOT_INT_STAT_SESSION).totValid) records
  have session : told.session = true :=
    (State.isF_of_raw (begun.raw_raiseF_ne _ (by decide)) _).trans (logged.isF_raiseF Reg.TOT_STAT Fld.TOT_STAT_SESSION)
  have stat : told.totValid.raw Reg.TOT_SEAL_STAT = logged.raw Reg.TOT_SEAL_STAT :=
    told.raw_totValid.trans ((begun.raw_raiseF_ne _ (by decide)).trans (logged.raw_setF_ne _ _ (by decide)))
  have hoop : told.totValid.hoop = s.unsealSpend.hoop := (spent.keeps_recorded 1 s.liveCrc r).only .hoop (by decide)
  have copy : logged.tot.live = s.tot.live := by rw [State.tot_recorded, tot]
  refine ⟨_, spends, told.isF_totValid.trans session, copy, rfl, ?_, ?_, State.eValid_totValid_of_session session, ?_, ?_⟩
  · rw [hoop, s.keeps_unsealSpent.only .hoop (by decide)]
    rfl
  · exact (State.getF_of_raw stat _).trans ((spent.err_recorded ..).trans (State.err_sealErr _ (by decide)))
  · exact (State.isF_of_raw told.raw_totValid _).trans (begun.isF_raiseF Reg.TOT_INT_STAT Fld.TOT_INT_STAT_SESSION)
  · rw [State.logUsed, State.getF_of_raw stat]
    exact (State.logUsed_recorded (by omega) ..).trans (congrArg (· + 1) used)

/-! ## Calibration (R326, R329, R332) -/

/-- A set becomes the live one; the billing set and the sub-interval are marked, and ERR is 0. -/
def State.calTaken (s : State) (set : Bytes) : State :=
  ((s.totMod (fun x => { x with live := set, subIrr := true })).billFlag 3).sealErr 0

theorem State.logUsed_calTaken (s : State) (set : Bytes) : (s.calTaken set).logUsed = s.logUsed :=
  State.getF_setF_ne ((s.totMod (fun x => { x with live := set, subIrr := true })).billFlag 3) Reg.TOT_SEAL_STAT 0

theorem runs_calCommit (built : s.exists_ 8 3 = true) (opened : s.session = true) (valid : calSetOk s.tot.staging = true)
    (room : s.logUsed < 1023) (running : s.phase = 6) : Runs (.calCommit false) s (fun t => t.tot.live = s.tot.staging ∧
      t.tot.subIrr = true ∧ t.tot.flags = s.tot.flags ||| 8 ∧ t.tot.calCrc = some (calWord s.tot.staging 31) ∧
      t.getF Reg.TOT_SEAL_STAT Fld.TOT_SEAL_STAT_ERR = 0 ∧ t.logUsed = s.logUsed + 1) := by
  let saved := (s.legalPut s.calOther 0 s.tot.staging).sync
  have saves : Keeps [.dram, .sto, .win 9] s saved := .sync (s.keeps_legalPut ..)
  have used : saved.logUsed = s.logUsed := State.getF_of_raw (saves.raw_eq _) _
  have phase : saved.phase = 6 := (State.phase_sync _).trans ((s.phase_legalPut ..).trans running)
  obtain ⟨r, records⟩ := State.legalAppend_of_room phase (by omega) 2 (calDiff s.tot.staging s.tot.live) s.liveCrc (calWord s.tot.staging 31)
  let logged := (saved.recorded 2 (calWord s.tot.staging 31) r).sync
  have syncs : Keeps [.dram, .sto, .win 9] (saved.recorded 2 (calWord s.tot.staging 31) r) logged := .sync (.refl _ _)
  have tot : logged.tot = { s.tot with logHash := sha256 r, calCrc := some (calWord s.tot.staging 31) } := by
    rw [syncs.only .tot (by decide), State.tot_recorded, saves.only .tot (by decide)]
    rfl
  have commits : exec (.calCommit false) s = .next (logged.calTaken s.tot.staging) := by
    refine (State.onTot_of_exists built _ _).trans ?_
    simp [opened, valid, Nat.not_le.mpr room, State.legalOpen_of_phase running, State.calTaken, logged, ← records, saved]
  refine ⟨_, commits, rfl, rfl, ?_, ?_, State.err_sealErr _ (by decide), ?_⟩
  · show logged.tot.flags ||| 8 = _
    rw [tot]
  · show logged.tot.calCrc = _
    rw [tot]
  · have counts : (saved.recorded 2 (calWord s.tot.staging 31) r).logUsed = saved.logUsed + 1 := State.logUsed_recorded (by omega) ..
    have same : logged.logUsed = (saved.recorded 2 (calWord s.tot.staging 31) r).logUsed := State.getF_of_raw (syncs.raw_eq _) _
    rw [State.logUsed_calTaken, same, counts, used]

theorem runs_calCommit_invalid (fail : Bool) (built : s.exists_ 8 3 = true) (opened : s.session = true)
    (invalid : calSetOk s.tot.staging = false) : Runs (.calCommit fail) s (fun t =>
      t.getF Reg.TOT_SEAL_STAT Fld.TOT_SEAL_STAT_ERR = 6 ∧ t.tot = s.tot) := by
  have refuses : exec (.calCommit fail) s = .next (s.sealErr 6) := by
    refine (State.onTot_of_exists built _ _).trans ?_
    simp [opened, invalid]
  exact ⟨_, refuses, s.err_sealErr (by decide), rfl⟩

/-- WORD moves to the next of the 32 words. -/
theorem State.word_calNext (s : State) (w : Nat) :
    (s.setF Reg.TOT_CAL_SEL Fld.TOT_CAL_SEL_WORD (w + 1)).getF Reg.TOT_CAL_SEL Fld.TOT_CAL_SEL_WORD = (w + 1) % 32 :=
  s.getF_setF Reg.TOT_CAL_SEL Fld.TOT_CAL_SEL_WORD (w + 1)

theorem runs_calDataAccess_write (x : Nat) (built : s.exists_ 8 3 = true) (opened : s.session = true)
    (staging : s.isF Reg.TOT_CAL_SEL Fld.TOT_CAL_SEL_TARGET = false) : Runs (.calDataAccess (some x)) s (fun t =>
      t.tot.staging = overlay s.tot.staging (4 * s.getF Reg.TOT_CAL_SEL Fld.TOT_CAL_SEL_WORD) (bytesLE 4 x) ∧
      t.tot.live = s.tot.live ∧
      t.getF Reg.TOT_CAL_SEL Fld.TOT_CAL_SEL_WORD = (s.getF Reg.TOT_CAL_SEL Fld.TOT_CAL_SEL_WORD + 1) % 32) :=
  ⟨(s.totMod (fun t => { t with
      staging := overlay t.staging (4 * s.getF Reg.TOT_CAL_SEL Fld.TOT_CAL_SEL_WORD) (bytesLE 4 x) })).setF
      Reg.TOT_CAL_SEL Fld.TOT_CAL_SEL_WORD (s.getF Reg.TOT_CAL_SEL Fld.TOT_CAL_SEL_WORD + 1),
    by simp [exec, execCalDataAccess, built, staging, opened], rfl, rfl, State.word_calNext _ _⟩

theorem runs_calDataAccess_read (built : s.exists_ 8 3 = true) (live : s.isF Reg.TOT_CAL_SEL Fld.TOT_CAL_SEL_TARGET = true) :
    Runs (.calDataAccess none) s (fun t =>
      t.busData = word (calWord s.tot.live (s.getF Reg.TOT_CAL_SEL Fld.TOT_CAL_SEL_WORD)) ∧ t.tot = s.tot ∧
      t.getF Reg.TOT_CAL_SEL Fld.TOT_CAL_SEL_WORD = (s.getF Reg.TOT_CAL_SEL Fld.TOT_CAL_SEL_WORD + 1) % 32) :=
  ⟨(s.answer (word (calWord s.tot.live (s.getF Reg.TOT_CAL_SEL Fld.TOT_CAL_SEL_WORD)))).setF Reg.TOT_CAL_SEL Fld.TOT_CAL_SEL_WORD
      (s.getF Reg.TOT_CAL_SEL Fld.TOT_CAL_SEL_WORD + 1),
    by simp [exec, execCalDataAccess, built, live], rfl, rfl, State.word_calNext _ _⟩

end Seal

section Demand

variable {s : State}

/-! ## Minutes without a calendar (R335, R339, R341) -/

/-- No calendar gives no billing boundaries. -/
theorem State.billsDue_of_noCalendar (none : s.tot.acal = []) (a b : Nat) : s.billsDue a b = s := by
  rw [State.billsDue, none]
  rfl

theorem State.rateSet_of_noCalendar (none : s.tot.acal = []) (m : Nat) : s.rateSet m = s := if_pos (.inr none)

theorem State.acal_subClose (s : State) (e : Nat) (irr : Bool) : (s.subClose e irr).tot.acal = s.tot.acal := by
  unfold State.subClose
  dsimp only
  split <;> rfl

/-- Where a sub-interval ends and no calendar is active or waits, it closes and the next one opens. -/
theorem State.totMinute_of_noCalendar (none : s.tot.acal = []) (waits : s.isF Reg.TOT_PCAL_CTL Fld.TOT_PCAL_CTL_PRESENT = false) {m : Nat}
    (last : s.demSub ≠ 0 ∧ m % s.demSub = 0) : s.totMinute m = (s.subClose m false).subOpen m false := by
  have still : (s.subClose m false).tot.acal = [] := (s.acal_subClose m false).trans none
  have later : (s.subClose m false).calDue m = false := by
    rw [State.calDue, State.isF_of_raw ((Keeps.subClose (.refl [.tot, .draws] s)).raw_eq _), waits, Bool.false_and]
  simp only [State.totMinute, last, decide_true, State.when_true, State.billsDue_of_noCalendar still, later, State.when_false,
    State.rateSet_of_noCalendar still, ne_eq, not_true_eq_false, decide_false, not_false_eq_true, and_self]

/-! ## A maximum demand of more than 32 bits (R339; log entry 71) -/

/-- A+ of the last sub-intervals, that in progress before the others. -/
def State.subRing (s : State) : List (Nat × Bool) := ((s.tot.subE, s.tot.subIrr) :: s.tot.ring).take 15

/-- The demand, in W, of the window that the sub-interval in progress completes. -/
def State.windowDemand (s : State) : Nat := ((s.subRing.take s.demN).map (·.1)).sum * 60 / (1000 * s.demN * s.demSub)

/-- A demand above the maximum so far that does not fit 32 bits makes the maximum a free value, which does. -/
theorem State.mdW_subClose_of_wide {e : Nat} (due : e % (s.demN * s.demSub) = 0) (complete : s.demN ≤ min (s.tot.winCnt + 1) 15)
    (rises : s.tot.mdW < s.windowDemand) (wide : 2 ^ 32 ≤ s.windowDemand) : (s.subClose e false).tot.mdW < 2 ^ 32 := by
  have free : (s.subClose e false).tot.mdW = s.drawn (2 ^ 32) := by
    simp only [State.windowDemand, State.subRing] at rises wide
    simp only [State.subClose, Bool.or_false, due, complete, rises, Nat.not_lt.mpr wide, decide_true, Bool.or_true, and_self, Bool.and_self,
      if_true, if_false]
  rw [free]
  exact Nat.mod_lt _ (by decide)

theorem runs_taiMinuteBoundary_wide (runs : s.totRuns = true) (last : s.demSub ≠ 0 ∧ s.taiMin % s.demSub = 0) (none : s.tot.acal = [])
    (waits : s.isF Reg.TOT_PCAL_CTL Fld.TOT_PCAL_CTL_PRESENT = false) (due : s.taiMin % (s.demN * s.demSub) = 0)
    (complete : s.demN ≤ min (s.tot.winCnt + 1) 15) (rises : s.tot.mdW < s.windowDemand) (wide : 2 ^ 32 ≤ s.windowDemand) :
    Runs .taiMinuteBoundary s (fun t => t.tot.mdW < 2 ^ 32) :=
  ⟨_, congrArg ok ((if_pos runs).trans (State.totMinute_of_noCalendar none waits last)), State.mdW_subClose_of_wide due complete rises wide⟩

end Demand

/-- The block runs without a calendar, with sub-intervals of 15 minutes and one in each window. The maximum demand stands one above what
32 bits hold, and the sub-interval in progress, which ends now, has drawn more. -/
def demandBeyond32Bits : State :=
  (((((State.reset.setF Reg.TOT_CTL Fld.TOT_CTL_EN 1).setF Reg.TU_STAT Fld.TU_STAT_TAI_VALID 1).setF Reg.TOT_DEM Fld.TOT_DEM_DEM_SUB
    15).setF Reg.TOT_DEM Fld.TOT_DEM_DEM_N 1).totMod (fun x => { x with fresh := false, mdW := 2 ^ 32, subE := 2 ^ 48 }))

theorem runs_demandBeyond32Bits : demandBeyond32Bits.totRuns = true ∧
    (demandBeyond32Bits.demSub ≠ 0 ∧ demandBeyond32Bits.taiMin % demandBeyond32Bits.demSub = 0) ∧ demandBeyond32Bits.tot.acal = [] ∧
    demandBeyond32Bits.isF Reg.TOT_PCAL_CTL Fld.TOT_PCAL_CTL_PRESENT = false := by decide +kernel

theorem rises_demandBeyond32Bits : demandBeyond32Bits.taiMin % (demandBeyond32Bits.demN * demandBeyond32Bits.demSub) = 0 ∧
    demandBeyond32Bits.demN ≤ min (demandBeyond32Bits.tot.winCnt + 1) 15 ∧
    demandBeyond32Bits.tot.mdW < demandBeyond32Bits.windowDemand ∧ 2 ^ 32 ≤ demandBeyond32Bits.windowDemand := by decide +kernel

end Sys2Proof.Machine

open Sys2Proof Sys2Proof.Machine

/-- Settles O36: a clause for each of the commands, as its completion leaves the totaliser. -/
theorem sealSessionsAndCalibration : Obligations.SealSessionsAndCalibration := by
  unfold Obligations.SealSessionsAndCalibration
  refine ⟨fun s => runs_sealOpened_tamper, fun s => runs_sealOpened_session, fun s => runs_sealClosed, fun s => runs_sealSpend,
    fun s built shut => ?_, fun s built up none room running left => ?_, fun s => runs_sealEnd, fun s => runs_sealEnd_none,
    fun s => runs_sessionTimeout, fun s => runs_calCommit, fun fail s => runs_calCommit_invalid fail,
    fun x s => runs_calDataAccess_write x, fun s => runs_calDataAccess_read⟩
  · exact runs_sealSpend_refused built (by simp [State.spendErr, shut]) (by decide)
  · obtain ⟨t, ht, err, count, session, hoop, -⟩ := runs_sealSpend_refused (e := 2) built
      (by simp [State.spendErr, up, none, running, Nat.not_lt.mpr room, left]) (by decide)
    exact ⟨t, ht, err, count, session.trans none, hoop⟩

/-- Refutes O37: the clause on the end of a sub-interval has the maximum demand never fall, but a new maximum of more than 32 bits is stored
as a free value of 32 bits (log entry 71). From a maximum above 32 bits, which the clause does not exclude though no command leaves one, it
falls whatever the free value. -/
theorem not_billingAndCalendars : ¬ Obligations.BillingAndCalendars := by
  unfold Obligations.BillingAndCalendars
  rintro ⟨minute, -⟩
  obtain ⟨runs, ⟨split, last⟩, none, waits⟩ := runs_demandBeyond32Bits
  obtain ⟨due, complete, rises, wide⟩ := rises_demandBeyond32Bits
  obtain ⟨t, ht, -, -, -, -, -, claimed⟩ := minute demandBeyond32Bits runs split last none waits
  obtain ⟨u, hu, fits⟩ := runs_taiMinuteBoundary_wide runs ⟨split, last⟩ none waits due complete rises wide
  obtain rfl := Host.Outcome.next.inj (ht.symm.trans hu)
  exact absurd (claimed.trans_lt fits) (lt_irrefl _)

end

/-! # The servo and its sources (R359–R365) -/

section

namespace Sys2Proof.Machine

theorem unsigned_lt (w : Nat) (i : Int) : unsigned w i < 2 ^ w := by
  have pos : (0 : Int) < (2 ^ w : Nat) := by exact_mod_cast Nat.two_pow_pos w
  exact (Int.toNat_lt (Int.emod_nonneg i pos.ne')).mpr (Int.emod_lt_of_pos i pos)

theorem natAbs_clampI_le {m : Int} (h : 0 ≤ m) (i : Int) : (clampI (-m) m i).natAbs ≤ m.natAbs := by
  unfold clampI
  omega

theorem near_keeps (s : State) (num : Int) (den : Nat) : Keeps [.draws] s (s.near num den).2 := .near (.refl _ s)

/-! ## What a step counts (R354). -/

/-- A step is counted and shown, leaves the servo's integral, and goes on outside the Time Unit. -/
theorem timeStep_keeps_counted (s : State) (d : Int) : ∃ (r : State) (f : TimeState → TimeState), Keeps [.draws] s r ∧
    (∀ x, (f x).i = x.i) ∧
    Keeps stepParts (((r.tuMod f).bump Reg.TU_STEP_CNT).raiseF Reg.TU_INT_STAT Fld.TU_INT_STAT_STEP) (s.timeStep d) := by
  unfold State.timeStep
  dsimp only
  have drawn := near_keeps s d (2 ^ 32)
  generalize s.near d (2 ^ 32) = r at drawn ⊢
  refine ⟨r.2, _, drawn, ?integral, .each' (.drnStep (.when' (.report (.refl _ _) _ _ _ _) _ fun _ h => .totStep h)) _ fun n u h => ?step⟩
  case step =>
    split
    · exact .airStep h
    · exact h
  case integral => exact fun _ => rfl

section TimeStep

variable (s : State) (d : Int)

theorem num_timeStep_cnt : (s.timeStep d).num Reg.TU_STEP_CNT = min (s.num Reg.TU_STEP_CNT + 1) 0xFFFFFFFF := by
  obtain ⟨r, f, drawn, -, step⟩ := timeStep_keeps_counted s d
  rw [State.num_of_raw (step.raw_eq _), State.num_of_raw (State.raw_raiseF_ne _ _ (by decide)), State.num_bump,
    State.num_of_raw (State.tuMod_raw ..), State.num_of_raw (drawn.raw_eq _)]

theorem isF_timeStep : (s.timeStep d).isF Reg.TU_INT_STAT Fld.TU_INT_STAT_STEP = true := by
  obtain ⟨r, f, -, -, step⟩ := timeStep_keeps_counted s d
  rw [State.isF_of_raw (step.raw_eq _), State.isF_raiseF _ _ Fld.TU_INT_STAT_STEP]

theorem integral_timeStep : (s.timeStep d).time.i = s.time.i := by
  obtain ⟨r, f, drawn, same, step⟩ := timeStep_keeps_counted s d
  rw [step.only .time (by decide), State.raiseF_time, State.bump_time, State.tuMod_time, same,
    drawn.only .time (by decide)]

theorem raw_timeStep {k : Nat} (hw : window k = 2) (h1 : k ≠ Reg.TU_STEP_CNT) (h2 : k ≠ Reg.TU_INT_STAT) :
    (s.timeStep d).raw k = s.raw k := by
  obtain ⟨u, step, -, same⟩ := timeStep_keeps s d
  rw [step.raw_eq k (by rw [hw]; decide), same k h1 h2]

end TimeStep

theorem qual_taiBecomesValid (s : State) :
    s.taiBecomesValid.getF Reg.TU_STAT Fld.TU_STAT_QUAL = s.getF Reg.TU_STAT Fld.TU_STAT_QUAL := by
  unfold State.taiBecomesValid
  split
  · rfl
  · rw [State.getF_of_raw ((drnPlan_keeps _).raw_eq _), State.raiseF,
      State.getF_setF_ne s Reg.TU_STAT (f := Fld.TU_STAT_TAI_VALID) (g := Fld.TU_STAT_QUAL)]

theorem servo_taiBecomesValid (s : State) : s.taiBecomesValid.servo = s.servo :=
  State.getF_of_raw (raw_taiBecomesValid s rfl (by decide)) _

/-! ## STATE and QUAL after a sample (R364). -/

section ServoGood

variable (s : State) (good : Nat)

theorem time_servoGood : (s.servoGood good).time = s.time := (Keeps.servoGood (.refl [.win 2] s)).only .time (by decide)

theorem raw_servoGood {k : Nat} (hi : k ≠ Reg.TU_INT_STAT) (hv : k ≠ Reg.TU_SERVO_STAT) (hs : k ≠ Reg.TU_STAT) :
    (s.servoGood good).raw k = s.raw k := by
  unfold State.servoGood
  dsimp only
  split
  · rw [State.setQual, State.raw_setF_ne _ _ _ hs, State.setServo, State.raw_setF_ne _ _ _ hv,
      State.raw_when (fun u => State.raw_raiseF_ne u _ hi), State.setGood, State.raw_setF_ne _ _ _ hv]
  · rw [State.setQual, State.raw_setF_ne _ _ _ hs, State.setServo, State.raw_setF_ne _ _ _ hv, State.setGood,
      State.raw_setF_ne _ _ _ hv]

/-- STATE and QUAL are written last, whatever came before. -/
theorem exists_servoGood : ∃ u : State, s.servoGood good = (u.setServo (if good = 8 then 2 else 1)).setQual (if good = 8 then 4 else 3) := by
  unfold State.servoGood
  split
  · exact ⟨_, rfl⟩
  · exact ⟨_, rfl⟩

theorem servo_servoGood : (s.servoGood good).servo = if good = 8 then 2 else 1 := by
  obtain ⟨u, hu⟩ := exists_servoGood s good
  rw [hu, State.servo, State.setQual, State.getF_setF_key _ _ _ _ (by decide), State.setServo,
    State.getF_setF u Reg.TU_SERVO_STAT Fld.TU_SERVO_STAT_STATE]
  split <;> rfl

theorem qual_servoGood : (s.servoGood good).getF Reg.TU_STAT Fld.TU_STAT_QUAL = if good = 8 then 4 else 3 := by
  obtain ⟨u, hu⟩ := exists_servoGood s good
  rw [hu, State.setQual, State.getF_setF _ Reg.TU_STAT Fld.TU_STAT_QUAL]
  split <;> rfl

end ServoGood

/-! ## What the servo makes of a sample (R364). -/

/-- The servo's integral and correction are set, and TU_FREQ shows the correction. -/
def State.withRate (s : State) (i f : Int) : State :=
  (s.tuMod (fun x => { x with i := i, f := f })).wrN Reg.TU_FREQ (unsigned 32 (-f))

/-- GOOD after a sample that corrects the rate. -/
def State.goodAfter (s : State) (th : Int) : Nat :=
  if th.natAbs ≤ s.getF Reg.TU_SERVO Fld.TU_SERVO_LOCK_NS then min (s.getF Reg.TU_SERVO_STAT Fld.TU_SERVO_STAT_GOOD + 1) 8 else 0

/-- A sample so far off that the time steps: beyond STEP_US, and the first one or STEP_EN is 1. -/
abbrev State.stepDue (s : State) (first : Bool) (th : Int) : Prop :=
  s.getF Reg.TU_SERVO Fld.TU_SERVO_STEP_US * 1000 < th.natAbs ∧ (s.isF Reg.TU_SERVO Fld.TU_SERVO_STEP_EN ∨ first = true)

theorem fmax_nonneg (s : State) : 0 ≤ s.fmax := by
  unfold State.fmax
  omega

section ServoStep

variable {s : State} {first : Bool} {th : Int} (tau : Nat)

theorem servoStep_of_stepDue (due : s.stepDue first th) :
    ∃ r d, Keeps [.draws] s r ∧ s.servoStep first th tau = (r.servoGood 0).timeStep d := by
  rw [State.servoStep, if_pos due]
  exact ⟨_, _, near_keeps s (-th * 2 ^ 32) 1000000000, rfl⟩

theorem servoStep_of_first (due : ¬ s.stepDue first th) (waits : first = true ∧ s.tuSrc = 1) :
    s.servoStep first th tau = s.servoGood 0 := by
  rw [State.servoStep, if_neg due, if_pos waits]

theorem servoStep_of_corrects (due : ¬ s.stepDue first th) (waits : ¬ (first = true ∧ s.tuSrc = 1)) :
    ∃ r i f, Keeps [.draws] s r ∧ i.natAbs ≤ s.fmax.natAbs ∧ f.natAbs ≤ s.fmax.natAbs ∧
      s.servoStep first th tau = (r.withRate i f).servoGood (s.goodAfter th) := by
  rw [State.servoStep, if_neg due, if_neg waits]
  exact ⟨_, _, _, (near_keeps s _ _).trans (near_keeps _ _ _), natAbs_clampI_le (fmax_nonneg s) _, natAbs_clampI_le (fmax_nonneg s) _, rfl⟩

/-- Registers of the Time Unit that no sample writes but for the counts of samples. -/
theorem raw_servoStep (s : State) (first : Bool) (th : Int) {k : Nat} (hw : window k = 2)
    (hk : k ∉ [Reg.TU_INT_STAT, Reg.TU_SERVO_STAT, Reg.TU_STAT, Reg.TU_STEP_CNT, Reg.TU_FREQ]) :
    (s.servoStep first th tau).raw k = s.raw k := by
  simp only [List.mem_cons, List.not_mem_nil, or_false, not_or] at hk
  obtain ⟨hi, hv, hs, hc, hf⟩ := hk
  have drawn {r : State} (h : Keeps [.draws] s r) : r.raw k = s.raw k := h.raw_eq k (by simp)
  by_cases due : s.stepDue first th
  · obtain ⟨r, d, hr, step⟩ := servoStep_of_stepDue tau due
    rw [step, raw_timeStep _ _ hw hc hi, raw_servoGood _ _ hi hv hs, drawn hr]
  by_cases waits : first = true ∧ s.tuSrc = 1
  · rw [servoStep_of_first tau due waits, raw_servoGood _ _ hi hv hs]
  · obtain ⟨r, i, f, hr, -, -, step⟩ := servoStep_of_corrects tau due waits
    rw [step, raw_servoGood _ _ hi hv hs, State.withRate, State.raw_wrN_ne _ _ hf, State.tuMod_raw, drawn hr]

end ServoStep

/-! ## A sample (R362, R364). -/

/-- The count of samples and LAST_OFS are written, and the sample is the last one taken. -/
def State.sampled (s : State) (th : Int) : State :=
  ((s.bump Reg.TU_SAMPLE_CNT).setF Reg.TU_SERVO_STAT Fld.TU_SERVO_STAT_LAST_OFS
    (unsigned 24 (clampI (-8388608) 8388607 th))).tuMod (fun x => { x with first := false, lastSmp := some x.sched })

section Sample

variable (s : State) (th : Int) (tau : Nat)

theorem servoSample_eq : s.servoSample th tau = ((s.sampled th).servoStep s.time.first th tau).taiBecomesValid := rfl

theorem raw_sampled {k : Nat} (hc : k ≠ Reg.TU_SAMPLE_CNT) (hv : k ≠ Reg.TU_SERVO_STAT) : (s.sampled th).raw k = s.raw k := by
  rw [State.sampled, State.tuMod_raw, State.raw_setF_ne _ _ _ hv, State.raw_bump_ne _ hc]

theorem getF_sampled_servo (f : BitRange) : (s.sampled th).getF Reg.TU_SERVO f = s.getF Reg.TU_SERVO f :=
  State.getF_of_raw (raw_sampled s th (by decide) (by decide)) f

theorem good_sampled : (s.sampled th).getF Reg.TU_SERVO_STAT Fld.TU_SERVO_STAT_GOOD = s.getF Reg.TU_SERVO_STAT Fld.TU_SERVO_STAT_GOOD := by
  rw [State.sampled, State.getF_of_raw (State.tuMod_raw ..),
    State.getF_setF_ne _ Reg.TU_SERVO_STAT (f := Fld.TU_SERVO_STAT_LAST_OFS) (g := Fld.TU_SERVO_STAT_GOOD),
    State.getF_of_raw (State.raw_bump_ne _ (by decide))]

theorem fmax_sampled : (s.sampled th).fmax = s.fmax := by rw [State.fmax, getF_sampled_servo, State.fmax]

theorem goodAfter_sampled : (s.sampled th).goodAfter th = s.goodAfter th := by
  rw [State.goodAfter, getF_sampled_servo, good_sampled, State.goodAfter]

theorem stepDue_sampled (first : Bool) : (s.sampled th).stepDue first th ↔ s.stepDue first th := by
  simp only [State.stepDue, State.isF, getF_sampled_servo]

theorem num_servoSample_cnt : (s.servoSample th tau).num Reg.TU_SAMPLE_CNT = min (s.num Reg.TU_SAMPLE_CNT + 1) 0xFFFFFFFF := by
  rw [servoSample_eq, State.num_of_raw (raw_taiBecomesValid _ rfl (by decide)),
    State.num_of_raw (raw_servoStep tau _ _ _ rfl (by decide)), State.sampled, State.num_of_raw (State.tuMod_raw ..),
    State.num_of_raw (State.raw_setF_ne _ _ _ (by decide)), State.num_bump]

theorem num_servoSample_bad : (s.servoSample th tau).num Reg.TU_PPS_BAD_CNT = s.num Reg.TU_PPS_BAD_CNT := by
  rw [servoSample_eq, State.num_of_raw (raw_taiBecomesValid _ rfl (by decide)),
    State.num_of_raw (raw_servoStep tau _ _ _ rfl (by decide)), State.num_of_raw (raw_sampled s th (by decide) (by decide))]

theorem taiValid_servoSample : (s.servoSample th tau).taiValid = true := taiValid_taiBecomesValid _

/-- What a sample leaves that corrects the rate and not the time. -/
def Corrects (t : State) : Prop :=
  t.time.i.natAbs ≤ s.fmax.natAbs ∧ t.time.f.natAbs ≤ s.fmax.natAbs ∧ t.num Reg.TU_FREQ = unsigned 32 (-t.time.f) ∧
    t.time.tai = s.time.tai

variable {s th}

theorem servoSample_corrects (later : s.time.first = false)
    (near : th.natAbs ≤ s.getF Reg.TU_SERVO Fld.TU_SERVO_STEP_US * 1000) :
    ∃ r i f, Keeps [.draws] (s.sampled th) r ∧ i.natAbs ≤ s.fmax.natAbs ∧ f.natAbs ≤ s.fmax.natAbs ∧
      s.servoSample th tau = ((r.withRate i f).servoGood (s.goodAfter th)).taiBecomesValid := by
  have due : ¬ (s.sampled th).stepDue s.time.first th := by
    rw [stepDue_sampled]
    exact fun h => absurd h.1 near.not_gt
  obtain ⟨r, i, f, drawn, hi, hf, step⟩ := servoStep_of_corrects tau due (by simp [later])
  rw [fmax_sampled] at hi hf
  exact ⟨r, i, f, drawn, hi, hf, by rw [servoSample_eq, step, goodAfter_sampled]⟩

theorem corrects_servoSample (later : s.time.first = false)
    (near : th.natAbs ≤ s.getF Reg.TU_SERVO Fld.TU_SERVO_STEP_US * 1000) : Corrects s (s.servoSample th tau) := by
  obtain ⟨r, i, f, drawn, hi, hf, sample⟩ := servoSample_corrects tau later near
  have time : (s.servoSample th tau).time = { r.time with i := i, f := f } := by
    rw [sample, time_taiBecomesValid, time_servoGood, State.withRate, State.wrN_time, State.tuMod_time]
  have freq : (s.servoSample th tau).num Reg.TU_FREQ = unsigned 32 (-f) := by
    rw [sample, State.num_of_raw (raw_taiBecomesValid _ rfl (by decide)),
      State.num_of_raw (raw_servoGood _ _ (by decide) (by decide) (by decide)), State.withRate,
      State.num_wrN _ _ (unsigned_lt 32 _)]
  have tai : r.time.tai = s.time.tai := by
    rw [show r.time = (s.sampled th).time from drawn.only .time (by decide)]
    rfl
  rw [Corrects, time, freq]
  exact ⟨hi, hf, rfl, tai⟩

theorem locks_servoSample (later : s.time.first = false)
    (near : th.natAbs ≤ s.getF Reg.TU_SERVO Fld.TU_SERVO_STEP_US * 1000) :
    (s.servoSample th tau).servo = (if s.goodAfter th = 8 then 2 else 1) ∧
      (s.servoSample th tau).getF Reg.TU_STAT Fld.TU_STAT_QUAL = if s.goodAfter th = 8 then 4 else 3 := by
  obtain ⟨r, i, f, -, -, -, sample⟩ := servoSample_corrects tau later near
  rw [sample, servo_taiBecomesValid, servo_servoGood, qual_taiBecomesValid, qual_servoGood]
  exact ⟨rfl, rfl⟩

theorem goodAfter_eighth (good : th.natAbs ≤ s.getF Reg.TU_SERVO Fld.TU_SERVO_LOCK_NS)
    (seven : s.getF Reg.TU_SERVO_STAT Fld.TU_SERVO_STAT_GOOD = 7) : s.goodAfter th = 8 := by
  rw [State.goodAfter, if_pos good, seven]
  rfl

theorem goodAfter_beyond (off : s.getF Reg.TU_SERVO Fld.TU_SERVO_LOCK_NS < th.natAbs) : s.goodAfter th = 0 :=
  if_neg off.not_ge

/-- A first sample beyond STEP_US steps the time, and the servo acquires. -/
theorem servoSample_steps (first : s.time.first = true) (far : s.getF Reg.TU_SERVO Fld.TU_SERVO_STEP_US * 1000 < th.natAbs) :
    ∃ r d, Keeps [.draws] (s.sampled th) r ∧ s.servoSample th tau = ((r.servoGood 0).timeStep d).taiBecomesValid := by
  obtain ⟨r, d, drawn, step⟩ := servoStep_of_stepDue tau ((stepDue_sampled s th _).mpr ⟨far, .inr first⟩)
  exact ⟨r, d, drawn, by rw [servoSample_eq, step]⟩

end Sample

/-! ## The commands. -/

section Commands

variable {s : State}

theorem ptpOffset_of_sample (v : Nat) (src : s.tuSrc = 1) (base : s.tbLost = false) :
    ∃ tau, s.ptpOffset v = s.servoSample (signed 32 v) tau := by
  rw [State.ptpOffset, if_pos ⟨src, base⟩]
  exact ⟨_, rfl⟩

theorem runs_ptpOffsetWrite_corrects (v : Nat) (src : s.tuSrc = 1) (later : s.time.first = false) (base : s.tbLost = false)
    (near : (signed 32 v).natAbs ≤ s.getF Reg.TU_SERVO Fld.TU_SERVO_STEP_US * 1000) :
    Runs (.ptpOffsetWrite v) s (fun t => t.num Reg.TU_SAMPLE_CNT = min (s.num Reg.TU_SAMPLE_CNT + 1) 0xFFFFFFFF ∧ Corrects s t ∧
      t.servo = (if s.goodAfter (signed 32 v) = 8 then 2 else 1) ∧
      t.getF Reg.TU_STAT Fld.TU_STAT_QUAL = if s.goodAfter (signed 32 v) = 8 then 4 else 3) := by
  obtain ⟨tau, sample⟩ := ptpOffset_of_sample v src base
  exact ⟨_, congrArg ok sample, num_servoSample_cnt .., corrects_servoSample tau later near, locks_servoSample tau later near⟩

theorem runs_ptpOffsetWrite_steps (v : Nat) (src : s.tuSrc = 1) (base : s.tbLost = false)
    (far : s.getF Reg.TU_SERVO Fld.TU_SERVO_STEP_US * 1000 < (signed 32 v).natAbs) (first : s.time.first = true) :
    Runs (.ptpOffsetWrite v) s (fun t => t.num Reg.TU_SAMPLE_CNT = min (s.num Reg.TU_SAMPLE_CNT + 1) 0xFFFFFFFF ∧
      t.num Reg.TU_STEP_CNT = min (s.num Reg.TU_STEP_CNT + 1) 0xFFFFFFFF ∧ t.isF Reg.TU_INT_STAT Fld.TU_INT_STAT_STEP = true ∧
      t.time.i = s.time.i ∧ t.servo = 1 ∧ t.getF Reg.TU_STAT Fld.TU_STAT_QUAL = 3) := by
  obtain ⟨tau, sample⟩ := ptpOffset_of_sample v src base
  refine ⟨_, congrArg ok sample, num_servoSample_cnt .., ?_⟩
  obtain ⟨r, d, drawn, step⟩ := servoSample_steps tau first far
  rw [step, time_taiBecomesValid, servo_taiBecomesValid, qual_taiBecomesValid]
  refine ⟨?count, ?flag, ?integral, ?servo, ?qual⟩
  case count =>
    rw [State.num_of_raw (raw_taiBecomesValid _ rfl (by decide)), num_timeStep_cnt,
      State.num_of_raw (raw_servoGood _ _ (by decide) (by decide) (by decide)), State.num_of_raw (drawn.raw_eq _),
      State.num_of_raw (raw_sampled s _ (by decide) (by decide))]
  case flag => rw [State.isF_of_raw (raw_taiBecomesValid _ rfl (by decide)), isF_timeStep]
  case integral =>
    have same : r.time = (s.sampled (signed 32 v)).time := drawn.only .time (by decide)
    rw [integral_timeStep, time_servoGood, same]
    rfl
  case servo =>
    rw [State.servo, State.getF_of_raw (raw_timeStep _ _ rfl (by decide) (by decide))]
    exact servo_servoGood r 0
  case qual => rw [State.getF_of_raw (raw_timeStep _ _ rfl (by decide) (by decide)), qual_servoGood, if_neg (by decide)]

theorem runs_ppsInEdge_discarded (sub : Nat) {p : Nat} (base : s.tbLost = false) (src : s.tuSrc = 2) (last : s.time.lastPps = some p)
    (off : 100000 < (((s.taiInNs + sub : Nat) : Int) - p - 1000000000).natAbs) :
    Runs (.ppsInEdge sub) s (fun t => t.num Reg.TU_PPS_BAD_CNT = min (s.num Reg.TU_PPS_BAD_CNT + 1) 0xFFFFFFFF ∧
      t.isF Reg.TU_INT_STAT Fld.TU_INT_STAT_PPS_BAD = true ∧ t.num Reg.TU_SAMPLE_CNT = s.num Reg.TU_SAMPLE_CNT ∧
      t.time.lastPps = some (s.taiInNs + sub) ∧ t.time.i = s.time.i) := by
  have run : execPpsInEdge sub s = .next (((s.tuMod (fun v => { v with lastPps := some (s.taiInNs + sub) })).bump
      Reg.TU_PPS_BAD_CNT).raiseF Reg.TU_INT_STAT Fld.TU_INT_STAT_PPS_BAD) := by
    simp only [execPpsInEdge, base, src, last, off, ne_eq, not_true_eq_false, Bool.false_eq_true, decide_true, if_false, if_true]
  refine ⟨_, run, ?_, State.isF_raiseF _ _ Fld.TU_INT_STAT_PPS_BAD, ?_, rfl, rfl⟩
  · rw [State.num_of_raw (State.raw_raiseF_ne _ _ (by decide)), State.num_bump, State.num_of_raw (State.tuMod_raw ..)]
  · rw [State.num_of_raw (State.raw_raiseF_ne _ _ (by decide)), State.num_of_raw (State.raw_bump_ne _ (by decide)),
      State.num_of_raw (State.tuMod_raw ..)]

theorem runs_ppsInEdge_first (sub : Nat) (base : s.tbLost = false) (src : s.tuSrc = 2) (fresh : s.time.lastPps = none) :
    Runs (.ppsInEdge sub) s (fun t => t.num Reg.TU_SAMPLE_CNT = min (s.num Reg.TU_SAMPLE_CNT + 1) 0xFFFFFFFF ∧
      t.num Reg.TU_PPS_BAD_CNT = s.num Reg.TU_PPS_BAD_CNT ∧ t.taiValid = true) := by
  have run : ∃ th, execPpsInEdge sub s =
      .next ((s.tuMod (fun v => { v with lastPps := some (s.taiInNs + sub) })).servoSample th (2 ^ 20)) := by
    simp only [execPpsInEdge, base, src, fresh, ne_eq, not_true_eq_false, Bool.false_eq_true, if_false]
    exact ⟨_, rfl⟩
  obtain ⟨th, run⟩ := run
  exact ⟨_, run, num_servoSample_cnt .., num_servoSample_bad .., taiValid_servoSample ..⟩

theorem runs_pairTimeSample_corrects (v : Nat) (src : s.tuSrc = 3) (taken : s.pairSamples = true) (later : s.time.first = false)
    (base : s.tbLost = false) (near : (signed 32 v).natAbs ≤ s.getF Reg.TU_SERVO Fld.TU_SERVO_STEP_US * 1000) :
    Runs (.pairTimeSample v) s (fun t => t.num Reg.TU_SAMPLE_CNT = min (s.num Reg.TU_SAMPLE_CNT + 1) 0xFFFFFFFF ∧ Corrects s t) :=
  ⟨_, if_pos ⟨src, taken, base⟩, num_servoSample_cnt .., corrects_servoSample _ later near⟩

theorem runs_holdoverTimeout (runs : s.servo = 1 ∨ s.servo = 2) :
    Runs .holdoverTimeout s (fun t => t.servo = 3 ∧ t.getF Reg.TU_STAT Fld.TU_STAT_QUAL = 5 ∧
      t.num Reg.TU_FREQ = unsigned 32 (-s.time.i) ∧ t.num Reg.TU_SRC_LOSS_CNT = min (s.num Reg.TU_SRC_LOSS_CNT + 1) 0xFFFFFFFF ∧
      t.isF Reg.TU_INT_STAT Fld.TU_INT_STAT_HOLDOVER = true ∧ t.time = s.time) := by
  have shown {k : Nat} (hi : k ≠ Reg.TU_INT_STAT) (hc : k ≠ Reg.TU_SRC_LOSS_CNT) :
      ((s.holdover.bump Reg.TU_SRC_LOSS_CNT).raiseF Reg.TU_INT_STAT Fld.TU_INT_STAT_HOLDOVER).raw k = s.holdover.raw k := by
    rw [State.raw_raiseF_ne _ _ hi, State.raw_bump_ne _ hc]
  refine ⟨_, if_pos runs, ?servo, ?qual, ?freq, ?count, State.isF_raiseF _ _ Fld.TU_INT_STAT_HOLDOVER, rfl⟩
  case servo =>
    rw [State.servo, State.getF_of_raw (shown (by decide) (by decide)), State.holdover, State.getF_of_raw (State.raw_wrN_ne _ _ (by decide)),
      State.setQual, State.getF_setF_key _ _ _ _ (by decide), State.setServo, State.getF_setF s Reg.TU_SERVO_STAT Fld.TU_SERVO_STAT_STATE]
    rfl
  case qual =>
    rw [State.getF_of_raw (shown (by decide) (by decide)), State.holdover, State.getF_of_raw (State.raw_wrN_ne _ _ (by decide)),
      State.setQual, State.getF_setF _ Reg.TU_STAT Fld.TU_STAT_QUAL]
    rfl
  case freq =>
    rw [State.num_of_raw (shown (by decide) (by decide)), State.holdover, State.num_wrN _ _ (unsigned_lt 32 _)]
  case count =>
    have before : s.holdover.raw Reg.TU_SRC_LOSS_CNT = s.raw Reg.TU_SRC_LOSS_CNT := by
      rw [State.holdover, State.raw_wrN_ne _ _ (by decide), State.setQual, State.raw_setF_ne _ _ _ (by decide), State.setServo,
        State.raw_setF_ne _ _ _ (by decide)]
    rw [State.num_of_raw (State.raw_raiseF_ne _ _ (by decide)), State.num_bump, State.num_of_raw before]

/-! ## A change of SRC (R363). -/

theorem servo_setServo (s : State) (v : Nat) : (s.setServo v).servo = v % 4 :=
  State.getF_setF s Reg.TU_SERVO_STAT Fld.TU_SERVO_STAT_STATE v

theorem raw_setServo (s : State) (v : Nat) {k : Nat} (hv : k ≠ Reg.TU_SERVO_STAT) : (s.setServo v).raw k = s.raw k :=
  State.raw_setF_ne _ _ _ hv

theorem raw_setQual (s : State) (q : Nat) {k : Nat} (hs : k ≠ Reg.TU_STAT) : (s.setQual q).raw k = s.raw k := State.raw_setF_ne _ _ _ hs

theorem raw_holdover (s : State) {k : Nat} (hv : k ≠ Reg.TU_SERVO_STAT) (hs : k ≠ Reg.TU_STAT) (hf : k ≠ Reg.TU_FREQ) :
    s.holdover.raw k = s.raw k := by
  rw [State.holdover, State.raw_wrN_ne _ _ hf, raw_setQual _ _ hs, raw_setServo _ _ hv]

/-- With any SRC the servo starts again; what SRC decides is written outside its state and outside TU_SERVO. -/
theorem srcChanged_restarts (s : State) :
    s.srcChanged.time = { s.time with first := true, lastSmp := none } ∧ s.srcChanged.raw Reg.TU_SERVO = s.raw Reg.TU_SERVO := by
  unfold State.srcChanged State.pairHoldover
  dsimp only
  split
  · exact ⟨rfl, raw_setServo _ _ (by decide)⟩
  split
  · split
    · exact ⟨rfl, raw_holdover _ (by decide) (by decide) (by decide)⟩
    · exact ⟨rfl, rfl⟩
  · constructor
    · unfold State.when
      split <;> rfl
    · rw [State.raw_when (fun u => raw_setQual u 3 (by decide)), raw_setServo _ _ (by decide), State.tuMod_raw]

theorem servo_srcChanged_of_none (free : s.tuSrc = 0) : s.srcChanged.servo = 0 := by
  rw [State.srcChanged, if_pos free]
  exact servo_setServo _ 0

theorem servo_srcChanged_of_ptp_pps (src : s.tuSrc = 1 ∨ s.tuSrc = 2) : s.srcChanged.servo = 1 := by
  rw [State.srcChanged, if_neg (by omega), if_neg (by omega), State.servo,
    State.getF_of_raw (State.raw_when (fun u => raw_setQual u 3 (by decide)) ..)]
  exact servo_setServo _ 1

theorem runs_servoSrcChange {src : Nat} (lt : src < 4) (changes : src ≠ s.tuSrc) :
    Runs (.servoSrcChange src) s (fun t => t.tuSrc = src ∧ t.time.first = true ∧ t.time.lastSmp = none ∧ (src = 0 → t.servo = 0) ∧
      (src = 1 ∨ src = 2 → t.servo = 1) ∧ t.time.tai = s.time.tai) := by
  have written : (s.setF Reg.TU_SERVO Fld.TU_SERVO_SRC src).tuSrc = src :=
    (State.getF_setF s Reg.TU_SERVO Fld.TU_SERVO_SRC src).trans (Nat.mod_eq_of_lt lt)
  obtain ⟨time, servo⟩ := srcChanged_restarts (s.setF Reg.TU_SERVO Fld.TU_SERVO_SRC src)
  refine ⟨_, if_neg (by rwa [Nat.mod_eq_of_lt lt]), (State.getF_of_raw servo _).trans written, ?_, ?_,
    fun h => servo_srcChanged_of_none (written.trans h), fun h => servo_srcChanged_of_ptp_pps (by rwa [written]), ?_⟩
  · rw [time]
  · rw [time]
  · rw [time, State.setF_time]

end Commands

end Sys2Proof.Machine

open Sys2Proof Sys2Proof.Machine

/-- Settles O39: a clause for each of the commands, from what a sample, a lapse of samples and a change of SRC leave. -/
theorem servoSamplesAndSources : Obligations.ServoSamplesAndSources := by
  unfold Obligations.ServoSamplesAndSources
  refine ⟨fun v s src later base near => ?_, fun v s => runs_ptpOffsetWrite_steps v,
    fun v s src => ⟨_, congrArg ok (if_neg fun h => src h.1), rfl⟩, fun sub p s => runs_ppsInEdge_discarded sub,
    fun sub s => runs_ppsInEdge_first sub, fun v s => runs_pairTimeSample_corrects v,
    fun v s alone => ⟨_, if_neg (by simp [alone]), rfl⟩, fun s => runs_holdoverTimeout, fun src s => runs_servoSrcChange⟩
  obtain ⟨t, ht, count, ⟨i, f, freq, tai⟩, servo, qual⟩ := runs_ptpOffsetWrite_corrects v src later base near
  refine ⟨t, ht, count, i, f, freq, tai, fun locked => ?_, fun off => ?_⟩
  · rw [servo, qual, goodAfter_eighth locked.1 locked.2]
    exact ⟨rfl, rfl⟩
  · rw [servo, qual, goodAfter_beyond off]
    exact ⟨rfl, rfl⟩

end

/-! # COSEM requests (R390–R394) -/

section

namespace Sys2Proof.Machine

section Requests

variable {s : State} {n w carrier : Nat}

/-- A request of one item that does not conflict: the item takes effect, or is denied. -/
theorem execCosemRequest_single {i : CosemItem} (clear : s.cosemMay n w i.1 i.2.2.1 = true → s.cosemConflict carrier i = 0) :
    execCosemRequest n w carrier [i] s =
      .next (if s.cosemMay n w i.1 i.2.2.1 then s.cosemApply n i else s.cosemDeny n) := by
  have found : [i].find? (fun j => s.cosemMay n w j.1 j.2.2.1 && decide (s.cosemConflict carrier j ≠ 0)) = none := by
    rw [List.find?_cons_of_neg (by simpa using clear), List.find?_nil]
  simp only [execCosemRequest, found]
  rfl

/-- A request with an item that conflicts is refused whole. -/
theorem execCosemRequest_conflict {items : List CosemItem}
    (conflicts : items.any (fun i => s.cosemMay n w i.1 i.2.2.1 && decide (s.cosemConflict carrier i ≠ 0)) = true) :
    ∃ what, execCosemRequest n w carrier items s = .next ((s.uplConflict what).cosemSay n 2 []) := by
  obtain ⟨i, hi⟩ := Option.isSome_iff_exists.mp (List.find?_isSome.mpr (List.any_eq_true.mp conflicts))
  exact ⟨obisBytes i.1 ++ [s.cosemConflict carrier i], by simp only [execCosemRequest, hi]⟩

end Requests

/-! ## Refusals (R393, R394). -/

/-- A refusal is counted and shown in the uplinks' registers, and reported. -/
theorem uplConflict_keeps (s : State) (what : Bytes) : Keeps [.smp, .win 4]
    ((s.bump Reg.UPL_CONFLICT_CNT).raiseF Reg.UPL_INT_STAT Fld.UPL_INT_STAT_CONFLICT) (s.uplConflict what) :=
  .report (.refl _ _) _ _ _ _

theorem num_uplConflict_cnt (s : State) (what : Bytes) :
    (s.uplConflict what).num Reg.UPL_CONFLICT_CNT = min (s.num Reg.UPL_CONFLICT_CNT + 1) 0xFFFFFFFF := by
  rw [State.num_of_raw ((uplConflict_keeps s what).raw_eq _), State.num_of_raw (State.raw_raiseF_ne _ _ (by decide)), State.num_bump]

theorem isF_uplConflict (s : State) (what : Bytes) :
    (s.uplConflict what).isF Reg.UPL_INT_STAT Fld.UPL_INT_STAT_CONFLICT = true := by
  rw [State.isF_of_raw ((uplConflict_keeps s what).raw_eq _), State.isF_raiseF _ _ Fld.UPL_INT_STAT_CONFLICT]

theorem raw_cosemSay (s : State) (n r : Nat) (b : Bytes) (k : Nat) : (s.cosemSay n r b).raw k = s.raw k := rfl

/-! ## Setting the clock (R355, R392). -/

/-- The state with TAI second v staged, for SET to apply. -/
def State.clockStaged (s : State) (v : Nat) : State :=
  ((s.wrN Reg.TU_TAI_S_LO v).wrN Reg.TU_TAI_S_HI (v / 2 ^ 32)).wrN Reg.TU_TAI_NS 0

section Clock

variable (s : State) {v : Nat}

theorem stagedSec_clockStaged (hv : v < 2 ^ 48) : (s.clockStaged v).stagedSec = v := by
  have lo : (s.clockStaged v).num Reg.TU_TAI_S_LO = v % 2 ^ 32 := by
    rw [State.clockStaged, State.num_of_raw (State.raw_wrN_ne _ _ (by decide)), State.num_of_raw (State.raw_wrN_ne _ _ (by decide)),
      State.num, State.raw_wrN_same, BitVec.toNat_ofNat]
  have hi : (s.clockStaged v).getF Reg.TU_TAI_S_HI Fld.TU_TAI_S_HI_SEC_HI = v / 2 ^ 32 := by
    rw [State.clockStaged, State.getF_of_raw (State.raw_wrN_ne _ _ (by decide)), State.getF, State.raw_wrN_same]
    simp [fget, bwidth]
    omega
  rw [State.stagedSec, lo, hi]
  omega

theorem stagedNs_clockStaged : (s.clockStaged v).stagedNs = 0 := by
  rw [State.stagedNs, State.getF, State.clockStaged, State.raw_wrN_same]
  rfl

/-- Setting the clock stages the second, and is SET. -/
theorem clockSet_eq (rel : Bool) :
    s.clockSet v rel = (s.clockStaged v).setDone rel ((s.clockStaged v).withRel rel).setBy :=
  Host.Outcome.next.inj (execTaiSet_eq (s.clockStaged v) rel)

theorem tai_clockSet (hv : v < 2 ^ 48) : (s.clockSet v false).time.tai = v * 2 ^ 32 := by
  rw [clockSet_eq, tai_setDone, setBy_withRel, if_neg Bool.false_ne_true, stagedSec_clockStaged s hv, stagedNs_clockStaged,
    add_sub_cancel, Int.toNat_natCast, taiOf, Nat.zero_mul, Nat.zero_add, Nat.div_eq_of_lt (by decide), Nat.add_zero]

theorem taiValid_clockSet : (s.clockSet v false).taiValid = true := by rw [clockSet_eq, taiValid_setDone]

theorem num_clockSet_cnt : (s.clockSet v false).num Reg.TU_SET_CNT = min (s.num Reg.TU_SET_CNT + 1) 0xFFFFFFFF := by
  have staged : (s.clockStaged v).raw Reg.TU_SET_CNT = s.raw Reg.TU_SET_CNT := by
    rw [State.clockStaged, State.raw_wrN_ne _ _ (by decide), State.raw_wrN_ne _ _ (by decide), State.raw_wrN_ne _ _ (by decide)]
  rw [clockSet_eq, num_setDone_cnt, State.num_of_raw staged]

theorem clockSet_keeps : Keeps [.dram, .ports, .drn, .sto, .tot, .time, .smp, .draws, .win 2, .win 4, .win 7, .win 8, .win 9] s
    (s.clockSet v false) := .clockSet (.refl _ s)

theorem cosemRow_clock : cosemRow 0x10000FF = some 3 := by decide

theorem cosemConflict_clock (carrier : Nat) (idle : s.upd.job = none) : s.cosemConflict carrier (0x10000FF, 0, 1, v) = 0 := by
  simp [State.cosemConflict, cosemRow_clock, idle]

theorem cosemConflict_read (carrier obj idx v : Nat) : s.cosemConflict carrier (obj, idx, 0, v) = 0 := by
  simp [State.cosemConflict]

theorem cosemAct_clock : s.cosemAct (0x10000FF, 0, 1, v) = (s.answer 0).clockSet v false := rfl

end Clock

section Commands

variable {s : State} (n w carrier : Nat)

theorem runs_cosemRequest_clock {v : Nat} (may : s.cosemMay n w 0x10000FF 1 = true) (idle : s.upd.job = none) (hv : v < 2 ^ 48) :
    Runs (.cosemRequest n w carrier [(0x10000FF, 0, 1, v)]) s (fun t => t.time.tai = v * 2 ^ 32 ∧ t.taiValid = true ∧ t.busData = 0 ∧
      t.out = s.out ++ [.cosem n 0 []] ∧ t.num Reg.TU_SET_CNT = min (s.num Reg.TU_SET_CNT + 1) 0xFFFFFFFF) := by
  have kept := clockSet_keeps (s.answer 0) (v := v)
  have result : ((s.answer 0).clockSet v false).busData = 0 := kept.only .busData (by decide)
  have out : ((s.answer 0).clockSet v false).out = s.out := kept.only .out (by decide)
  have applied : s.cosemApply n (0x10000FF, 0, 1, v) = ((s.answer 0).clockSet v false).cosemSay n 0 [] := by
    rw [State.cosemApply, if_neg one_ne_zero, cosemAct_clock]
    dsimp only
    rw [result]
    rfl
  refine ⟨_, (execCosemRequest_single fun _ => cosemConflict_clock s carrier idle).trans
    (congrArg ok ((if_pos may).trans applied)), tai_clockSet _ hv, ?_, rfl, congrArg (· ++ _) out, ?_⟩
  · rw [State.taiValid, State.isF_of_raw (raw_cosemSay ..)]
    exact taiValid_clockSet _
  · rw [State.num_of_raw (raw_cosemSay ..)]
    exact num_clockSet_cnt _

theorem runs_cosemRequest_denied (obj idx a v : Nat) (denied : s.cosemMay n w obj a = false) :
    Runs (.cosemRequest n w carrier [(obj, idx, a, v)]) s (fun t => t.num Reg.UPL_DENIED_CNT = min (s.num Reg.UPL_DENIED_CNT + 1) 0xFFFFFFFF ∧
      t.busData = 3 ∧ t.out = s.out ++ [.cosem n 3 []] ∧ t.tot = s.tot ∧ t.time = s.time ∧ t.sto = s.sto ∧ t.fab = s.fab ∧ t.upd = s.upd) :=
  ⟨s.cosemDeny n, (execCosemRequest_single fun may => absurd (denied.symm.trans may) Bool.false_ne_true).trans
    (congrArg ok (if_neg (by simp [denied]))), State.num_bump s _, rfl, rfl, rfl, rfl, rfl, rfl, rfl⟩

theorem runs_cosemRequest_conflict {items : List CosemItem}
    (conflicts : items.any (fun i => s.cosemMay n w i.1 i.2.2.1 && decide (s.cosemConflict carrier i ≠ 0)) = true) :
    Runs (.cosemRequest n w carrier items) s (fun t => t.num Reg.UPL_CONFLICT_CNT = min (s.num Reg.UPL_CONFLICT_CNT + 1) 0xFFFFFFFF ∧
      t.isF Reg.UPL_INT_STAT Fld.UPL_INT_STAT_CONFLICT = true ∧ t.busData = 2 ∧ t.tot = s.tot ∧ t.time = s.time ∧ t.sto = s.sto ∧
      t.fab = s.fab ∧ t.upd = s.upd) := by
  obtain ⟨what, refused⟩ := execCosemRequest_conflict conflicts
  have kept : Keeps [.busData, .out, .smp, .win 4, .win 10] s ((s.uplConflict what).cosemSay n 2 []) :=
    .cosemSay (.report (.raiseF (.bump (.refl _ s) _) _ _) _ _ _ _)
  refine ⟨_, refused, ?_, ?_, rfl, kept.only .tot (by decide), kept.only .time (by decide), kept.only .sto (by decide),
    kept.only .fab (by decide), kept.only .upd (by decide)⟩
  · rw [State.num_of_raw (raw_cosemSay ..), num_uplConflict_cnt]
  · rw [State.isF_of_raw (raw_cosemSay ..), isF_uplConflict]

theorem runs_cosemRequest_read (obj idx v : Nat) (may : s.cosemMay n w obj 0 = true) :
    Runs (.cosemRequest n w carrier [(obj, idx, 0, v)]) s
      (fun t => t = { s with busData := 0, out := s.out ++ [.cosem n 0 (s.cosemValue obj idx)] }) :=
  ⟨_, (execCosemRequest_single fun _ => cosemConflict_read s carrier obj idx v).trans (congrArg ok ((if_pos may).trans (if_pos rfl))), rfl⟩

end Commands

end Sys2Proof.Machine

open Sys2Proof Sys2Proof.Machine

/-- Settles O47: a clause for each way that a request ends. -/
theorem cosemRequestsRespectRightsAndConflicts : Obligations.CosemRequestsRespectRightsAndConflicts := by
  unfold Obligations.CosemRequestsRespectRightsAndConflicts
  exact ⟨fun n w carrier v s => runs_cosemRequest_clock n w carrier,
    fun n w carrier obj idx a v s => runs_cosemRequest_denied n w carrier obj idx a v,
    fun n w carrier items s => runs_cosemRequest_conflict n w carrier,
    fun n w carrier obj idx v s => runs_cosemRequest_read n w carrier obj idx v⟩

end

/-! # Transmission under PAUSE (R370, R371) -/

section

namespace Sys2Proof.Machine

/-- While a received PAUSE holds an uplink, its descriptors stay where they are. -/
theorem execUplinkTxDesc_of_paused {s : State} {u : Nat} (held : s.paused u = true) : execUplinkTxDesc u s = .next s :=
  if_pos (.inr (.inr (.inl held)))

/-- A ready transmit descriptor without offloads, of 60 bytes at 0x1000. -/
def descriptor60 : Bytes := [0, 0x10, 0, 0, 0, 0, 0, 0, 60, 0, 128]

/-- After reset, uplink A's MAC is enabled and its link is up. A ring of 256 transmit descriptors stands at address 0, with one of them
ready; then a PAUSE of the most quanta is received. -/
def uplinkAPaused : State :=
  (((((State.reset.setF Reg.UPL_CTL Fld.UPL_CTL_MAC_EN_A 1).setF Reg.UPL_STAT Fld.UPL_STAT_A_UP 1).setF (Reg.UPL_TXR 0)
    Fld.UPL_TXR_RING_LOG2 8).setF (Reg.UPL_TXH 0) Fld.UPL_TXH_PROD 1).wrMem 0 descriptor60).pauseTake 0 0xFFFF

theorem paused_uplinkAPaused : uplinkAPaused.macOn 0 = true ∧ uplinkAPaused.paused 0 = true := by decide +kernel

theorem ring_uplinkAPaused : uplinkAPaused.getF (Reg.UPL_TXH 0) Fld.UPL_TXH_CONS ≠ uplinkAPaused.getF (Reg.UPL_TXH 0) Fld.UPL_TXH_PROD ∧
    uplinkAPaused.getF (Reg.UPL_TXR 0) Fld.UPL_TXR_RING_LOG2 ≤ 12 := by decide +kernel

theorem desc_uplinkAPaused : uplinkAPaused.rdMem (uplinkAPaused.txDescA 0 (uplinkAPaused.getF (Reg.UPL_TXH 0) Fld.UPL_TXH_CONS)) 32 =
    padTo 32 descriptor60 := by decide +kernel

theorem frame_uplinkAPaused : ptpAt (uplinkAPaused.rdMem (un (padTo 32 descriptor60) 0 8 % 2 ^ 36) (u16 (padTo 32 descriptor60) 8)) = none := by
  decide +kernel

end Sys2Proof.Machine

open Sys2Proof Sys2Proof.Machine

/-- Refutes O42: the clause on a descriptor without offloads has its bytes sent whether or not a PAUSE holds the uplink, but PAUSE is
honoured (R370), so that nothing goes out while it lasts. -/
theorem not_uplinkFramesAndLinks : ¬ Obligations.UplinkFramesAndLinks := by
  unfold Obligations.UplinkFramesAndLinks
  rintro ⟨-, -, sends, -⟩
  obtain ⟨on, held⟩ := paused_uplinkAPaused
  obtain ⟨ready, log2⟩ := ring_uplinkAPaused
  obtain ⟨t, ht, sent, -⟩ := sends 0 (padTo 32 descriptor60) _ uplinkAPaused (by decide) on ready desc_uplinkAPaused.symm (by decide) log2
    (by decide) (by decide) (by decide) (by decide) rfl frame_uplinkAPaused
  obtain rfl := Host.Outcome.next.inj (ht.symm.trans (execUplinkTxDesc_of_paused held))
  exact absurd (List.self_eq_append_right.mp sent) (List.cons_ne_nil _ _)

end

/-! # Record-engine sessions (R376–R378) -/

section

namespace Sys2Proof.Machine

/-! ## Sessions after updates. -/

section Sessions

variable (s : State) (n : Nat)

/-- States with one table of sessions have the same sessions. -/
theorem usess_congr {s t : State} (h : t.upl.sess = s.upl.sess) (m : Nat) : t.usess m = s.usess m := by rw [State.usess, h, State.usess]

theorem usess_sessMod (m : Nat) (f : USess → USess) : (s.sessMod n f).usess m = if m = n then f (s.usess n) else s.usess m := by
  simp only [State.usess, State.sessMod, State.uplMod, tmod]
  exact tget_tset _ _ _ _ _

theorem usess_ctxWrite (m : Nat) : (s.ctxWrite n).usess m = s.usess m := rfl

section Keys

variable {s n} (rx : (s.usess n).rxSeq < 2 ^ 24) (tx : (s.usess n).txSeq < 2 ^ 24)

include rx tx

/-- While both sequence numbers are below 2^24, a new one is at most announced (R378). -/
theorem keyLook_of_below (v : Nat) : s.keyLook n v =
    s.when (decide (v = 2 ^ 23)) (fun u => u.raiseF Reg.UPL_INT_STAT Fld.UPL_INT_STAT_KEY_LIMIT) :=
  if_neg (by omega)

theorem keyLook_of_low {v : Nat} (hv : v ≠ 2 ^ 23) : s.keyLook n v = s := by
  rw [keyLook_of_below rx tx, decide_eq_false hv, State.when_false]

end Keys

end Sessions

/-! ## The end of a session operation (R377). -/

/-- The operation of UPL_SESS_CMD is done. -/
theorem sessEnd_done (s : State) : (s.sessEnd 0).isF Reg.UPL_SESS_STAT Fld.UPL_SESS_STAT_DONE = true ∧
    (s.sessEnd 0).getF Reg.UPL_SESS_STAT Fld.UPL_SESS_STAT_CODE = 0 :=
  ⟨State.isF_raiseF _ _ Fld.UPL_SESS_STAT_DONE, (State.getF_setF_ne _ _ 1).trans (State.getF_setF _ _ Fld.UPL_SESS_STAT_CODE 0)⟩

/-- The operation of UPL_SESS_CMD is refused. -/
theorem sessEnd_refused (s : State) {code : Nat} (nonzero : code ≠ 0) (fits : code < 16) :
    (s.sessEnd code).isF Reg.UPL_SESS_STAT Fld.UPL_SESS_STAT_ERR = true ∧
      (s.sessEnd code).getF Reg.UPL_SESS_STAT Fld.UPL_SESS_STAT_CODE = code := by
  rw [State.sessEnd, if_neg nonzero]
  exact ⟨State.isF_raiseF _ _ Fld.UPL_SESS_STAT_ERR,
    (State.getF_setF_ne _ _ 1).trans ((State.getF_setF _ _ Fld.UPL_SESS_STAT_CODE code).trans (Nat.mod_eq_of_lt fits))⟩

theorem usess_sessEnd (s : State) (code m : Nat) : (s.sessEnd code).usess m = s.usess m := rfl

/-! ## Roles (R376). -/

section Roles

/-- Nibble i of a register of roles. -/
def nibble (i : Nat) : BitRange := ⟨4 * i + 3, 4 * i⟩

theorem bwidth_nibble (i : Nat) : bwidth (nibble i) = 4 := by simp only [bwidth, nibble]; omega

theorem role_eq_getF (s : State) (n : Nat) : s.role n = s.getF (Reg.UPL_ROLE (n / 8)) (nibble (n % 8)) := by
  rw [State.role, State.getF, fget, bwidth_nibble, nibble, pow_mul]
  rfl

theorem setRole_eq_setF (s : State) (n v : Nat) : s.setRole n v = s.setF (Reg.UPL_ROLE (n / 8)) (nibble (n % 8)) v := rfl

theorem role_setRole_same (s : State) (n : Nat) {v : Nat} (hv : v < 16) : (s.setRole n v).role n = v := by
  rw [role_eq_getF, setRole_eq_setF, State.getF_setF _ _ _ _ (by simp only [nibble]; omega) (by simp only [nibble]; omega), bwidth_nibble]
  exact Nat.mod_eq_of_lt hv

/-- The sessions of the chip have each a nibble of their own: in one register, or in two. -/
theorem role_setRole_ne (s : State) {n m v : Nat} (hn : n < 64) (hm : m < 64) (h : m ≠ n) : (s.setRole n v).role m = s.role m := by
  rw [role_eq_getF, role_eq_getF, setRole_eq_setF]
  by_cases one : m / 8 = n / 8
  · rw [one]
    exact State.getF_setF_ne _ _ v (by simp only [nibble]; omega) (by simp only [nibble]; omega) (by simp only [nibble]; omega)
  · exact State.getF_setF_key _ _ _ v (by simp only [Reg.UPL_ROLE]; omega)

theorem role_ctxWrite (s : State) (n m : Nat) : (s.ctxWrite n).role m = s.role m := rfl

/-- The end of an operation leaves the roles alone. -/
theorem role_sessEnd (s : State) (code n : Nat) : (s.sessEnd code).role n = s.role n := by
  have elsewhere : Reg.UPL_ROLE (n / 8) ≠ Reg.UPL_SESS_STAT := by simp only [Reg.UPL_ROLE, Reg.UPL_SESS_STAT]; omega
  rw [role_eq_getF, role_eq_getF]
  exact (State.getF_setF_key _ _ _ _ elsewhere).trans (State.getF_setF_key _ _ _ _ elsewhere)

end Roles

/-! ## A session that closes (R378). -/

/-- What is left of a session that closed. -/
def USess.closed (q : USess) : USess := { q with st := 0, err := 7, inBuf := [], outBuf := [] }

theorem usess_sessClose (s : State) (n m : Nat) : (s.sessClose n).usess m = if m = n then (s.usess n).closed else s.usess m := by
  have sess : (s.sessClose n).upl.sess = (s.sessMod n USess.closed).upl.sess := rfl
  rw [usess_congr sess, usess_sessMod]

theorem role_sessClose (s : State) (n : Nat) : (s.sessClose n).role n = 7 := by
  rw [State.sessClose, role_ctxWrite, role_setRole_same _ n (by decide)]

/-! ## Memory that was written. -/

/-- States with one memory read the same bytes. -/
theorem rdMem_congr {s t : State} (h : t.dram = s.dram) (a n : Nat) : t.rdMem a n = s.rdMem a n := by
  simp only [State.rdMem, State.rdByte, h]

theorem bytesLE_lt (n v : Nat) : ∀ x ∈ bytesLE n v, x < 256 := by
  intro x hx
  obtain ⟨i, -, rfl⟩ := List.mem_map.mp hx
  exact Nat.mod_lt _ (by decide)

/-- What was just written reads back. -/
theorem rdMem_wrMem_within (s : State) (a : Nat) {b : Bytes} {o n : Nat} (inside : o + n ≤ b.length) (octets : ∀ x ∈ b, x < 256) :
    (s.wrMem a b).rdMem (a + o) n = slice b o n := by
  refine List.ext_getElem (by simp [State.rdMem, slice]; omega) fun i hi _ => ?_
  have hn : i < n := by simpa [State.rdMem] using hi
  have written : a ≤ a + o + i ∧ a + o + i < a + b.length := by omega
  simp only [State.rdMem, slice, List.getElem_map, List.getElem_range, List.getElem_take, List.getElem_drop, State.rdByte_wrMem,
    if_pos written]
  rw [show a + o + i - a = o + i by omega, List.getD_eq_getElem _ _ (by omega), Nat.mod_eq_of_lt (octets _ (List.getElem_mem _))]

/-- The engine's sequence numbers in session n's context, as they were just written back. -/
theorem rdMem_ctxWrite_seq (s : State) (n : Nat) : (s.ctxWrite n).rdMem (s.ctxA n + 40) 8 = bytesLE 8 (s.usess n).rxSeq ∧
    (s.ctxWrite n).rdMem (s.ctxA n + 48) 8 = bytesLE 8 (s.usess n).txSeq := by
  have rx := bytesLE_length 8 (s.usess n).rxSeq
  have tx := bytesLE_length 8 (s.usess n).txSeq
  have octets : ∀ x ∈ bytesLE 8 (s.usess n).rxSeq ++ bytesLE 8 (s.usess n).txSeq, x < 256 := fun x hx =>
    (List.mem_append.mp hx).elim (bytesLE_lt _ _ x) (bytesLE_lt _ _ x)
  have length : (bytesLE 8 (s.usess n).rxSeq ++ bytesLE 8 (s.usess n).txSeq).length = 16 := by rw [List.length_append, rx, tx]
  constructor
  · refine (rdMem_wrMem_within _ (s.ctxA n + 40) (o := 0) (by omega) octets).trans ?_
    rw [slice, List.drop_zero, List.take_left' rx]
  · refine (rdMem_wrMem_within _ (s.ctxA n + 40) (o := 8) (by omega) octets).trans ?_
    rw [slice, List.drop_left' rx, List.take_of_length_le tx.le]

/-! ## The commands on sessions (R376–R378). -/

/-- Session n becomes what f makes of it, its context is written back, and the operation is done. -/
def State.sessTake (s : State) (n : Nat) (f : USess → USess) : State := ((s.sessMod n f).ctxWrite n).sessEnd 0

theorem usess_sessTake (s : State) (n : Nat) (f : USess → USess) (m : Nat) :
    (s.sessTake n f).usess m = if m = n then f (s.usess n) else s.usess m := by
  rw [State.sessTake, usess_sessEnd, usess_ctxWrite, usess_sessMod]

/-- A session whose context has low sequence numbers is not stopped for them as it takes the context. -/
theorem keyLook_sessTake (s : State) (n : Nat) {d : Bytes} {f : USess → USess} {q : USess} (takes : f (s.usess n) = ctxRead d q)
    (rx : un d 40 8 < 2 ^ 24) (tx : un d 48 8 < 2 ^ 24) : (s.sessTake n f).keyLook n 0 = s.sessTake n f := by
  have taken : (s.sessTake n f).usess n = ctxRead d q := (usess_sessTake s n f n).trans ((if_pos rfl).trans takes)
  exact keyLook_of_low (by rw [taken]; exact rx) (by rw [taken]; exact tx) (by decide)

section Commands

variable {s : State} {n : Nat}

theorem execSessionOpen_ingest (hn : n < 64) (closed : (s.usess n).st = 0) (good : ctxGood (s.rdMem (s.ctxA n) 128) = true)
    (room : s.sessOpenCount < 32) (bound : s.role n ≠ 7) (ingest : u8 (s.rdMem (s.ctxA n) 128) 1 = 0) :
    execSessionOpen n s = .next ((s.sessTake n fun _ => ctxRead (s.rdMem (s.ctxA n) 128) {}).keyLook n 0) := by
  simp only [execSessionOpen, Nat.mod_eq_of_lt hn, closed, good, if_neg (Nat.not_le.mpr room), bound, ingest]
  rfl

theorem execSessionOpen_notClosed (hn : n < 64) (busy : (s.usess n).st ≠ 0) : execSessionOpen n s = .next (s.sessEnd 3) := by
  simp [execSessionOpen, Nat.mod_eq_of_lt hn, busy]

theorem execSessionOpen_noRole (hn : n < 64) (closed : (s.usess n).st = 0) (good : ctxGood (s.rdMem (s.ctxA n) 128) = true)
    (room : s.sessOpenCount < 32) (unbound : s.role n = 7) : execSessionOpen n s = .next (s.sessEnd 5) := by
  simp [execSessionOpen, Nat.mod_eq_of_lt hn, closed, good, Nat.not_le.mpr room, unbound]

theorem execSessionResume_stopped (hn : n < 64) (stopped : (s.usess n).st = 2) (good : ctxGood (s.rdMem (s.ctxA n) 128) = true) :
    execSessionResume n s = .next ((s.sessTake n (ctxRead (s.rdMem (s.ctxA n) 128))).keyLook n 0) := by
  simp [execSessionResume, Nat.mod_eq_of_lt hn, stopped, good, State.sessTake]

theorem execSessionResume_notStopped (hn : n < 64) (other : (s.usess n).st ≠ 2) : execSessionResume n s = .next (s.sessEnd 2) := by
  simp [execSessionResume, Nat.mod_eq_of_lt hn, other]

theorem execSessionClose_some (hn : n < 64) (used : (s.usess n).st ≠ 0) : execSessionClose n s = .next ((s.sessClose n).sessEnd 0) := by
  simp [execSessionClose, Nat.mod_eq_of_lt hn, used]

theorem execSessionSync_some (hn : n < 64) (used : (s.usess n).st ≠ 0) : execSessionSync n s = .next ((s.ctxWrite n).sessEnd 0) := by
  simp [execSessionSync, Nat.mod_eq_of_lt hn, used]

theorem runs_sessionOpen {d : Bytes} (hn : n < 64) (hd : d = s.rdMem (s.ctxA n) 128) (closed : (s.usess n).st = 0) (good : ctxGood d = true)
    (room : s.sessOpenCount < 32) (bound : s.role n ≠ 7) (ingest : u8 d 1 = 0) (rx : un d 40 8 < 2 ^ 24) (tx : un d 48 8 < 2 ^ 24) :
    Runs (.sessionOpen n) s (fun t => (t.usess n).st = 1 ∧ (t.usess n).err = 0 ∧ (t.usess n).rxKey = slice d 56 16 ∧
      (t.usess n).txKey = slice d 84 16 ∧ (t.usess n).rxSeq = un d 40 8 ∧ (∀ m, m < 64 → m ≠ n → t.usess m = s.usess m) ∧
      t.isF Reg.UPL_SESS_STAT Fld.UPL_SESS_STAT_DONE = true ∧ t.getF Reg.UPL_SESS_STAT Fld.UPL_SESS_STAT_CODE = 0) := by
  subst hd
  refine ⟨_, (execSessionOpen_ingest hn closed good room bound ingest).trans (congrArg ok (keyLook_sessTake s n rfl rx tx)), ?_⟩
  dsimp only
  rw [usess_sessTake, if_pos rfl]
  exact ⟨rfl, rfl, rfl, rfl, rfl, fun m _ other => (usess_sessTake s n _ m).trans (if_neg other), sessEnd_done _⟩

theorem runs_sessionResume {d : Bytes} (hn : n < 64) (hd : d = s.rdMem (s.ctxA n) 128) (stopped : (s.usess n).st = 2)
    (good : ctxGood d = true) (rx : un d 40 8 < 2 ^ 24) (tx : un d 48 8 < 2 ^ 24) :
    Runs (.sessionResume n) s (fun t => (t.usess n).st = 1 ∧ (t.usess n).rxKey = slice d 56 16 ∧
      (t.usess n).inBuf = (s.usess n).inBuf ∧ (∀ m, m < 64 → m ≠ n → t.usess m = s.usess m) ∧
      t.isF Reg.UPL_SESS_STAT Fld.UPL_SESS_STAT_DONE = true ∧ t.getF Reg.UPL_SESS_STAT Fld.UPL_SESS_STAT_CODE = 0) := by
  subst hd
  refine ⟨_, (execSessionResume_stopped hn stopped good).trans (congrArg ok (keyLook_sessTake s n rfl rx tx)), ?_⟩
  dsimp only
  rw [usess_sessTake, if_pos rfl]
  exact ⟨rfl, rfl, rfl, fun m _ other => (usess_sessTake s n _ m).trans (if_neg other), sessEnd_done _⟩

theorem runs_sessionClose (hn : n < 64) (used : (s.usess n).st ≠ 0) : Runs (.sessionClose n) s (fun t => (t.usess n).st = 0 ∧
    (t.usess n).err = 7 ∧ (t.usess n).inBuf = [] ∧ (t.usess n).outBuf = [] ∧
    (t.upl.results = s.upl.results.filter (fun r => decide (r.1 ≠ n))) ∧ t.role n = 7 ∧
    (∀ m, m < 64 → m ≠ n → t.usess m = s.usess m) ∧ t.isF Reg.UPL_SESS_STAT Fld.UPL_SESS_STAT_DONE = true ∧
    t.getF Reg.UPL_SESS_STAT Fld.UPL_SESS_STAT_CODE = 0) := by
  refine ⟨_, execSessionClose_some hn used, ?_⟩
  have self : ((s.sessClose n).sessEnd 0).usess n = (s.usess n).closed := by rw [usess_sessEnd, usess_sessClose, if_pos rfl]
  have others (m : Nat) (other : m ≠ n) : ((s.sessClose n).sessEnd 0).usess m = s.usess m := by
    rw [usess_sessEnd, usess_sessClose, if_neg other]
  dsimp only
  rw [self, role_sessEnd, role_sessClose]
  exact ⟨rfl, rfl, rfl, rfl, rfl, rfl, fun m _ => others m, sessEnd_done _⟩

theorem runs_sessionSync (hn : n < 64) (used : (s.usess n).st ≠ 0) : Runs (.sessionSync n) s (fun t => t.upl = s.upl ∧
    t.rdMem (s.ctxA n + 40) 8 = bytesLE 8 (s.usess n).rxSeq ∧ t.rdMem (s.ctxA n + 48) 8 = bytesLE 8 (s.usess n).txSeq ∧
    t.isF Reg.UPL_SESS_STAT Fld.UPL_SESS_STAT_DONE = true ∧ t.getF Reg.UPL_SESS_STAT Fld.UPL_SESS_STAT_CODE = 0) := by
  obtain ⟨rx, tx⟩ := rdMem_ctxWrite_seq s n
  have memory (a : Nat) : ((s.ctxWrite n).sessEnd 0).rdMem a 8 = (s.ctxWrite n).rdMem a 8 := rdMem_congr rfl a 8
  exact ⟨_, execSessionSync_some hn used, rfl, (memory _).trans rx, (memory _).trans tx, sessEnd_done _⟩

theorem runs_sessionDoorbell (which v : Nat) (hn : n < 64) (opened : (s.usess n).st = 1) :
    Runs (.sessionDoorbell n which v) s (fun t => ((t.usess n).rxWr = if which = 0 then v % 2 ^ 24 else (s.usess n).rxWr) ∧
      ((t.usess n).txRd = if which = 0 then (s.usess n).txRd else v % 2 ^ 24) ∧
      (∀ m, m < 64 → m ≠ n → t.usess m = s.usess m)) := by
  refine ⟨s.doorbell n which v, by rw [exec, execSessionDoorbell, Nat.mod_eq_of_lt hn], ?_⟩
  dsimp only
  rw [State.doorbell, if_pos opened, usess_sessMod, if_pos rfl]
  refine ⟨?_, ?_, fun m _ other => (usess_sessMod s n m _).trans (if_neg other)⟩ <;> split <;> rfl

theorem runs_roleBind (r : Nat) (hn : n < 64) (hr : r ≤ 5) : Runs (.roleBind n r true) s (fun t => t.role n = r ∧
    (∀ m, m < 64 → m ≠ n → t.role m = s.role m)) :=
  ⟨s.setRole n r, if_pos ⟨rfl, hr, hn⟩, role_setRole_same s n (by omega), fun _ hm other => role_setRole_ne s hn hm other⟩

end Commands

end Sys2Proof.Machine

open Sys2Proof Sys2Proof.Machine

/-- Settles O40: a clause for each way that an operation on a session ends. -/
theorem sessionsOpenCloseAndResume : Obligations.SessionsOpenCloseAndResume := by
  unfold Obligations.SessionsOpenCloseAndResume
  refine ⟨fun n d s => runs_sessionOpen, fun n s hn busy => ?_, fun n s hn closed good room unbound => ?_,
    fun n d s => runs_sessionResume, fun n s hn other => ?_, fun n s => runs_sessionClose, fun n s => runs_sessionSync,
    fun n which v s => runs_sessionDoorbell which v, fun n content s key => ?_, fun n r s => runs_roleBind r,
    fun n r s => ⟨s, rfl, rfl⟩⟩
  · obtain ⟨err, code⟩ := sessEnd_refused s (code := 3) (by decide) (by decide)
    exact ⟨_, execSessionOpen_notClosed hn busy, err, code, rfl⟩
  · obtain ⟨err, code⟩ := sessEnd_refused s (code := 5) (by decide) (by decide)
    exact ⟨_, execSessionOpen_noRole hn closed good room unbound, err, code, rfl⟩
  · obtain ⟨err, code⟩ := sessEnd_refused s (code := 2) (by decide) (by decide)
    exact ⟨_, execSessionResume_notStopped hn other, err, code, rfl⟩
  · exact ⟨_, if_neg (by simpa using key), rfl⟩

end

/-! # The record engine (R378) -/

section

namespace Sys2Proof.Machine

/-! ## A record that leaves. -/

/-- Bytes after the header of session q's next record: at most 16,384 of plaintext, the content type and the tag. -/
def USess.recLen (q : USess) : Nat := (q.outBuf.take 16384).length + 17

/-- Session q's next record. -/
def USess.nextRec (q : USess) : Bytes :=
  let h := [23, 3, 3] ++ bytesBE 2 q.recLen
  let sealed := gcmSeal 16 q.txKey (recNonce q.txIv q.txSeq) h (q.outBuf.take 16384 ++ [23])
  h ++ sealed.1 ++ sealed.2

/-- Session q after a record with `len` bytes after its header has left. -/
def USess.recOut (len : Nat) (q : USess) : USess :=
  { q with outBuf := q.outBuf.drop 16384, txWr := (q.txWr + 5 + len) % 2 ^ 24, txSeq := q.txSeq + 1 }

/-- Session n's next record stands in its transmit ring, and TX_DONE of the session's uplink comes up. -/
def State.recSent (s : State) (n : Nat) : State :=
  let q := s.usess n
  let t := (s.ringWrite q.txBase q.ringLog q.txWr q.nextRec).sessMod n (USess.recOut q.recLen)
  (t.wrMem (t.ctxA n + 32) (bytesLE 4 (t.usess n).txWr)).raiseBit Reg.UPL_INT_STAT (8 + q.uplink)

theorem usess_ringWrite (s : State) (base log off : Nat) (b : Bytes) (m : Nat) : (s.ringWrite base log off b).usess m = s.usess m := rfl

theorem usess_recSent (s : State) (n m : Nat) :
    (s.recSent n).usess m = if m = n then (s.usess n).recOut (s.usess n).recLen else s.usess m := by
  have unread (t : State) (a i : Nat) (c : Bytes) : ((t.wrMem a c).raiseBit Reg.UPL_INT_STAT i).usess m = t.usess m := rfl
  rw [State.recSent, unread, usess_sessMod, usess_ringWrite, usess_ringWrite]

theorem txSeq_recSent (s : State) (n : Nat) : ((s.recSent n).usess n).txSeq = (s.usess n).txSeq + 1 := by
  rw [usess_recSent, if_pos rfl]
  rfl

/-- TX_DONE comes up where UPL_INT_STAT has a bit for the uplink. -/
theorem bit_recSent {s : State} {n : Nat} (has : (s.usess n).uplink < 24) :
    bit ((s.recSent n).raw Reg.UPL_INT_STAT) (8 + (s.usess n).uplink) = true := by
  rw [State.recSent, State.raw_raiseBit_same, bit_setBit _ _ _ _ (by omega), if_pos rfl]

/-- A bit of UPL_INT_STAT stays up when KEY_LIMIT does or does not come up. -/
theorem bit_when_keyLimit {s : State} {i : Nat} (up : bit (s.raw Reg.UPL_INT_STAT) i = true) (c : Bool) :
    bit ((s.when c (fun u => u.raiseF Reg.UPL_INT_STAT Fld.UPL_INT_STAT_KEY_LIMIT)).raw Reg.UPL_INT_STAT) i = true := by
  cases c with
  | false => exact up
  | true =>
    have raised : bit (setBit (s.raw Reg.UPL_INT_STAT) 1 true) i = true := by rw [bit_setBit _ _ _ _ (by decide), up, ite_self]
    rwa [State.when_true, State.raw_raiseF_same]

theorem usess_when_keyLimit (s : State) (c : Bool) (m : Nat) :
    (s.when c (fun u => u.raiseF Reg.UPL_INT_STAT Fld.UPL_INT_STAT_KEY_LIMIT)).usess m = s.usess m := by
  cases c <;> rfl

section Transmit

variable {s : State} {n : Nat} (runs : s.uplEn = true) (granted : s.noGrant 9 5 = false) (hn : n < 64) (opened : (s.usess n).st = 1)
  (waiting : (s.usess n).outBuf ≠ []) (room : 5 + (((s.usess n).outBuf.take 16384).length + 17) ≤
    2 ^ (s.usess n).ringLog - ((s.usess n).txWr + 2 ^ 24 - (s.usess n).txRd) % 2 ^ 24)

include runs granted hn opened waiting room

/-- Where the ring has room for it, a record leaves. -/
theorem execTlsRecordTransmit_sends :
    execTlsRecordTransmit n s = .next ((s.recSent n).keyLook n ((s.usess n).txSeq + 1)) := by
  refine (if_pos ⟨runs, granted, hn, opened, waiting, room⟩).trans ?_
  rw [← txSeq_recSent]
  rfl

theorem runs_tlsRecordTransmit (tx : (s.usess n).txSeq + 1 < 2 ^ 24) (rx : (s.usess n).rxSeq < 2 ^ 24) (has : (s.usess n).uplink < 24) :
    Runs (.tlsRecordTransmit n) s (fun t => (t.usess n).outBuf = (s.usess n).outBuf.drop 16384 ∧
      (t.usess n).txSeq = (s.usess n).txSeq + 1 ∧
      (t.usess n).txWr = ((s.usess n).txWr + 5 + (((s.usess n).outBuf.take 16384).length + 17)) % 2 ^ 24 ∧
      bit (t.raw Reg.UPL_INT_STAT) (8 + (s.usess n).uplink) = true ∧ (t.usess n).st = 1 ∧
      (∀ m, m < 64 → m ≠ n → t.usess m = s.usess m)) := by
  have self := (usess_recSent s n n).trans (if_pos rfl)
  refine ⟨_, execTlsRecordTransmit_sends runs granted hn opened waiting room, ?_⟩
  dsimp only
  rw [keyLook_of_below (by rw [self]; exact rx) (by rw [self]; exact tx), usess_when_keyLimit, self]
  refine ⟨rfl, rfl, rfl, bit_when_keyLimit (bit_recSent has) _, opened, fun m _ other => ?_⟩
  rw [usess_when_keyLimit, usess_recSent, if_neg other]

end Transmit

/-! ## A session of an uplink that the chip does not have. -/

/-- Session 2 is open with two bytes to send, and its uplink has the number 24. -/
def sessionOfUplink24 : State :=
  (State.reset.setF Reg.UPL_CTL Fld.UPL_CTL_EN 1).sessMod 2 (fun q => { q with st := 1, uplink := 24, outBuf := [1, 2] })

theorem runs_sessionOfUplink24 : sessionOfUplink24.uplEn = true ∧ sessionOfUplink24.noGrant 9 5 = false := by decide +kernel

theorem usess_sessionOfUplink24 : sessionOfUplink24.usess 2 = { st := 1, uplink := 24, outBuf := [1, 2] } := by decide +kernel

end Sys2Proof.Machine

open Sys2Proof Sys2Proof.Machine

/-- Refutes O41: the clause on a record that leaves has bit 8 + UPLINK of UPL_INT_STAT come up, of which it does not say that the register
has it. In the state here an open session has UPLINK 24, which no valid context gives it (R377), and a word of 32 bits has no bit 32. Up to
UPLINK 23 the clause agrees with `runs_tlsRecordTransmit`. -/
theorem not_recordsBatchesAndManifests : ¬ Obligations.RecordsBatchesAndManifests := by
  unfold Obligations.RecordsBatchesAndManifests
  rintro ⟨-, -, transmits, -⟩
  obtain ⟨runs, granted⟩ := runs_sessionOfUplink24
  have q := usess_sessionOfUplink24
  obtain ⟨t, -, -, -, -, up, -⟩ := transmits 2 sessionOfUplink24 runs granted (by decide) (by rw [q]) (by rw [q]; decide)
    (by rw [q]; decide) (by rw [q]; decide) (by rw [q]; decide)
  rw [q, bit, BitVec.getLsbD_of_ge _ _ (by decide)] at up
  exact Bool.false_ne_true up

end

/-! # Steps: the command at the front runs, the queue keeps its order, no count falls, and every command completes -/

section

-- Proofs are elaborated in turn: every thread that waits for another takes its stack from the memory a compile may use.
set_option Elab.async false

namespace Sys2Proof.Machine

/-! ## The queue (95_what_each_step_holds.md) -/

theorem step_cons {c : Instr} {r : List Instr} {s : State} (front : s.pending = c :: r) : step s = exec c { s with pending := r } := by
  rw [step, front]

theorem touches_sub_rest (c : Instr) : Part.sub (touches c) Part.rest = true := by
  cases c <;> rfl

theorem pending_exec {c : Instr} {s t : State} (h : exec c s = .next t) : t.pending = s.pending :=
  (exec_keeps c s t h).only .pending fun listed => absurd (Part.sub_mem (touches_sub_rest c) listed) (by decide)

/-! ## Floors and programmed entries (R442) -/

theorem step_noLower {s t : State} (h : step s = .next t) : NoLower s t := by
  unfold step at h
  split at h
  · cases h
    exact (Keeps.tick (Keeps.refl Part.rest s)).low
  · exact (exec_keeps _ _ t h).low

/-! ## Completion: a meaning is a tree of conditions whose leaves are next states. -/

/-- The outcome is a next state. -/
inductive Completes : Host.Outcome State Fault Refusal → Prop
  | next (s : State) : Completes (.next s)

theorem Completes.exists {o : Host.Outcome State Fault Refusal} : Completes o → ∃ t, o = .next t
  | .next t => ⟨t, rfl⟩

theorem Completes.onBlock {s : State} {there : Bool} {off : Nat} {o : Host.Outcome State Fault Refusal} (h : Completes o) :
    Completes (s.onBlock there off o) := by
  unfold State.onBlock
  split
  · exact h
  · exact .next _

theorem exec_completes (c : Instr) (s : State) : Completes (exec c s) := by
  cases c
  all_goals
    dsimp only [exec]
    delta State.onPort State.onMender State.onTot
      execAfeAdjStore execAirAckTimeout execAirBackoffExpire execAirCcaDone execAirCycleStart execAirEnhAckSend execAirFrameReceive
      execAirRxDeadlineMiss execAirScheduledLaunch execAirTxDeadlineMiss execAirTxEnd execAirTxPacketTake execBatchClose execBatchSend
      execBillDataRead execBillSnap execBillingForce execBlockRetry execBootPfailHoldEnd execBothHolding execCalCommit execCalDataAccess
      execCasCommaAlign execCasCommitTimeout execCasCreditReceive execCasCreditSend execCasFrameReceive execCasFrameSend execCasHelloReceive
      execCasHelloTimer execCasLinkDown execCasResultSend execCellError execChangeLogReconcile execChannelEvacuate execChannelRejoin
      execCheckpointDone execCheckpointStart execClassCommit execClassDataAccess execClassInstall execClassSelect execClockLoss
      execClockRestored execCmpFire execCmpOutputEnd execCntChangeDone execCntDebugOpen execCntDomainIdentity execCntPairRoleLock
      execCntRollbackFloor execContentionSlot execCoreWake execCosemRequest execCyclesReset execDarnerDisable execDarnerEnable
      execDarnerSnapshot execDayBoundary execDescComplete execDescCopy execDescFetch execEvacuationDone execEventClear execEventSet
      execFieldWatchdogExpire execFieldWdogKick execFloodRelaySend execFoldStart execFrameCommit execFreezeCapture execFreezeClose
      execFreezeDue execFwRingWrite execGcStart execGovernorPeriodEnd execGovernorSettleEnd execHandshakeSign execHandshakeTimeout
      execHoldOffExpire execHoldoverTimeout execHoopWatchdogExpire execHoopWdogKick execIntClaim execIntComplete execIntFlush execIntSwClear
      execIntSwSet execIntakeDisable execIntakeEnable execIntakeGrant execInterconnectError execKeyCacheFlush execKeyCacheFlushDone
      execKeyDeriveDone execLadderStepRequest execLaneAligned execLaneLoss execLanePassDone execLeapSecond execLineFrameDecode
      execLineHeaderReceive execLinePreambleDetect execLineRxDeadlineMiss execLineScheduledLaunch execLineSymbolReceive
      execLineTxDeadlineMiss execLineTxEnd execLineTxPacketTake execLoaderAbort execLoaderDrainEnd execLoaderLoad execLoaderReprickBlock
      execLoaderReprickRegion execLoaderRestorePinSet execLoaderSelfTestDone execLoaderVerifyDone execLoaderWriteDone execLoop
      execManifestSigned execMemberBeaconMiss execMemberScanTimeout execMemberSearchRound execMenderBatch execMenderBatchDone
      execMetrologyBlockPublish execMetrologySample execMirrorTimeout execMirrorUnitWrite execModulatorFault execModulatorFaultClear
      execMove execMovec execMsixUnmask execNandEraseDone execNandProgramDone execNandReadDone execNdlDecap execNdlDestroy execNdlGenerate
      execNdlHmac execNdlInfo execNdlOpComplete execNdlPubkey execNdlQuote execNdlSign execNdlUnwrap execPaceWindowEnd execPairEnWrite
      execPairMessageReceive execPairSenseStable execPairStartTimeout execPairStatusSend execPairStatusTimeout execPairTimeSample
      execPairYield execPcalCancel execPcalLoad execPfailFall execPfailRise execPonrstFall execPonrstRise execPortBobRxRead
      execPortBobTxWrite execPortDisable execPortEnable execPortRxReset execPortRxSinkOff execPortTxReset execPowerCycleTimeout
      execPpsInEdge execPpsOutFall execPpsOutPulse execProgWrite execPtpOffsetWrite execRcvGo execReadbackDone execReadbackStart
      execReassemblyTimeout execRecTailWrite execRecordUnitProgram execRegionResetDone execRegisterWrite execRejoinDone execRelocCopyDone
      execRelocIntentDone execRelocVerifyDone execRendezvousWindowEnd execRendezvousWindowOpen execResponseSend execResponseWindowEnd
      execResultMessageSend execResyncPhaseDone execResyncStart execRingFlush execRingRead execRingTrim execRingWrite execRoleBind
      execRtcReload execSamplerClear execSamplerFifoTake execSamplerLostSynth execSamplerRdData execSamplerRdSel execSamplerReport
      execSamplerSwRecord execSchedRead execSealClosed execSealEnd execSealOpened execSealSpend execServoSrcChange execSessionClose
      execSessionDoorbell execSessionOpen execSessionResume execSessionSync execSessionTimeout execShuttleAbort execShuttleArm
      execShuttleBusError execShuttleDisable execShuttleEnd execShuttleGo execShuttleResume execShuttleTriggerStart execSignal execSlotClear
      execSlotOpComplete execSlotRead execSlotRoll execSlotWrite execSlotWriteCtr execSpareSelfTest execStamp execStateRecordPeriodic
      execStitchAbort execStitchBlock execStitchDone execStitchOffer execStitchRequest execStoreFlushDone execStoreRestoreDone
      execStoreStart execStoreStop execSubstitutionComplete execTableRebuildDone execTaiMinuteBoundary execTaiSet execTakeoverSample
      execTimeBaseReturn execTlsRecordReceive execTlsRecordTransmit execTotEnable execTotRestoration execTrialTimeout execTxtsPop
      execUartDataFrame execUartEndFrame execUartRxTimeout execUnassignedAccess execUpdActivateLive execUpdActivateNextStart execUpdCommit
      execUpdRecoveryRequest execUpdRevert execUpdStepDone execUpdVerify execUplinkLinkChange execUplinkRxFrame execUplinkTxDesc
      execVaultEraseDone execVbatDip execWait execWaitTimeout execWakeFrameSend execWakeTrainStart execWarmReset execWearLevelMove
      execWitnessExpire execWitnessInstall execWitnessWaitExpire
    repeat' first
      | with_reducible exact .next _
      | with_reducible apply Completes.onBlock
      | split
      | dsimp only

end Sys2Proof.Machine

open Sys2Proof Sys2Proof.Machine

/-- Settles O1: it is how a step is defined on a queue that is not empty. -/
theorem stepRunsFrontCommand : Obligations.StepRunsFrontCommand := fun _ _ _ => step_cons

/-- Settles O3: the table's rows have no bits, so that the decoder answers none for every word. -/
theorem tableWordsSpellNoCommand : Obligations.TableWordsSpellNoCommand := fun _ _ _ => ⟨rfl, rfl⟩

/-- Settles O7, from what each command and the tick keep. -/
theorem stepNeverLowersACount : Obligations.StepNeverLowersACount := fun _ _ => step_noLower

/-- Settles O9, arm by arm. -/
theorem everyCommandCompletes : Obligations.EveryCommandCompletes := fun c s => (exec_completes c s).exists

/-- Settles O10: the queue is a part that no command touches. -/
theorem stepServesInOrder : Obligations.StepServesInOrder := fun _ _ _ _ front h => pending_exec ((step_cons front).symm.trans h)

end

/-! # The Shuttle: program pointers, moves and stamps (R399–R407) -/

section

-- Proofs are elaborated in turn: every thread that waits for another takes its stack from the memory a compile may use.
set_option Elab.async false

namespace Sys2Proof.Machine

/-! ## Channels and their registers after updates elsewhere -/

section Channel

variable (s : State) (c d : Nat)

theorem chan_chanMod (f : ShuChan → ShuChan) : (s.chanMod c f).chan d = if d = c then f (s.chan c) else s.chan d :=
  tget_tset ..

theorem chan_congr {s t : State} (h : t.shu = s.shu) (c : Nat) : t.chan c = s.chan c := by rw [State.chan, h, State.chan]

theorem chState_congr {s t : State} {c : Nat} (h : t.raw (Reg.SHU_CH_STAT c) = s.raw (Reg.SHU_CH_STAT c)) : t.chState c = s.chState c :=
  State.getF_of_raw h _

theorem chPc_congr {s t : State} {c : Nat} (h : t.raw (Reg.SHU_CH_PC c) = s.raw (Reg.SHU_CH_PC c)) : t.chPc c = s.chPc c :=
  State.num_of_raw h

theorem chPc_setPc {v : Nat} : (s.setPc c v).chPc c = v % 2 ^ 32 := by
  rw [State.chPc, State.setPc, State.num, State.raw_wrN_same, BitVec.toNat_ofNat]

theorem stat_ne_pc : Reg.SHU_CH_STAT d ≠ Reg.SHU_CH_PC c := by unfold Reg.SHU_CH_STAT Reg.SHU_CH_PC; omega

theorem stat_ne_prog : Reg.SHU_CH_STAT d ≠ Reg.SHU_CH_PROG c := by unfold Reg.SHU_CH_STAT Reg.SHU_CH_PROG; omega

theorem pc_ne_prog : Reg.SHU_CH_PC d ≠ Reg.SHU_CH_PROG c := by unfold Reg.SHU_CH_PC Reg.SHU_CH_PROG; omega

end Channel

/-! ## Program pointers (R406) -/

section Pointers

variable {s : State} {c v : Nat} (hc : c < 32) (hv : v < 2 ^ 32)

theorem execProgWrite_of_channel (hc : c < 32) : execProgWrite c v s = .next (s.progWrite c v) := congrArg ok (if_pos hc)

/-- The state in which a pointer's write has been taken and its lateness shown. -/
def State.progShown (s : State) (c v : Nat) : State :=
  (s.wrN (Reg.SHU_CH_PROG c) v).setF (Reg.SHU_CH_STAT c) Fld.SHU_CH_STAT_SHADOW_LATE
    ((s.chan c).handing && decide (s.chState c ≠ 0 ∧ s.chState c ≠ 5)).toNat

theorem progWrite_active (rests : s.chState c = 0 ∨ s.chState c = 5) :
    s.progWrite c v = ((s.progShown c v).chanMod c (fun k => { k with active := v % 2 ^ 32 })).setPc c v := if_pos rests

theorem progWrite_shadow (runs : ¬ (s.chState c = 0 ∨ s.chState c = 5)) : s.progWrite c v =
    ((s.progShown c v).chanMod c (fun k => { k with shadow := v % 2 ^ 32 })).raiseF (Reg.SHU_CH_STAT c) Fld.SHU_CH_STAT_SHADOW_VALID :=
  if_neg runs

theorem getF_progShown {f : BitRange} (hf : f.hi < 29 ∨ 29 < f.lo) (top : f.hi < 32) :
    (s.progShown c v).getF (Reg.SHU_CH_STAT c) f = s.getF (Reg.SHU_CH_STAT c) f :=
  (State.getF_setF_ne _ _ _ hf (by decide) top).trans (State.getF_of_raw (State.raw_wrN_ne _ _ (stat_ne_prog c c)) f)

theorem chPc_progShown : (s.progShown c v).chPc c = s.chPc c :=
  State.num_of_raw ((State.raw_setF_ne _ _ _ (stat_ne_pc c c).symm).trans (State.raw_wrN_ne _ _ (pc_ne_prog c c)))

include hc hv

theorem runs_progWrite_active (rests : s.chState c = 0 ∨ s.chState c = 5) : Runs (.progWrite c v) s (fun t =>
    (t.chan c).active = v ∧ t.chPc c = v ∧ (t.chan c).shadow = (s.chan c).shadow ∧ t.chState c = s.chState c ∧
    t.isF (Reg.SHU_CH_STAT c) Fld.SHU_CH_STAT_SHADOW_VALID = s.isF (Reg.SHU_CH_STAT c) Fld.SHU_CH_STAT_SHADOW_VALID) := by
  refine ⟨_, execProgWrite_of_channel hc, ?_⟩
  have chan : (s.progWrite c v).chan c = { s.chan c with active := v } := by
    rw [progWrite_active rests, Nat.mod_eq_of_lt hv]
    exact (chan_congr (State.wrN_shu ..) c).trans ((chan_chanMod (s.progShown c v) c c _).trans (if_pos rfl))
  have stat : (s.progWrite c v).raw (Reg.SHU_CH_STAT c) = (s.progShown c v).raw (Reg.SHU_CH_STAT c) := by
    rw [progWrite_active rests]
    exact State.raw_wrN_ne _ _ (stat_ne_pc c c)
  refine ⟨by rw [chan], ?_, by rw [chan], ?_, ?_⟩
  · rw [progWrite_active rests, chPc_setPc, Nat.mod_eq_of_lt hv]
  · exact (chState_congr stat).trans (getF_progShown (by decide) (by decide))
  · rw [State.isF_of_raw stat, State.isF, getF_progShown (by decide) (by decide), State.isF]

theorem runs_progWrite_shadow (notIdle : s.chState c ≠ 0) (noError : s.chState c ≠ 5) : Runs (.progWrite c v) s (fun t =>
    (t.chan c).shadow = v ∧ t.isF (Reg.SHU_CH_STAT c) Fld.SHU_CH_STAT_SHADOW_VALID = true ∧ (t.chan c).active = (s.chan c).active ∧
    t.chPc c = s.chPc c ∧ t.chState c = s.chState c) := by
  refine ⟨_, execProgWrite_of_channel hc, ?_⟩
  have eq : s.progWrite c v = _ := progWrite_shadow (not_or.mpr ⟨notIdle, noError⟩)
  have chan : (s.progWrite c v).chan c = { s.chan c with shadow := v } := by
    rw [eq, Nat.mod_eq_of_lt hv]
    exact (chan_congr (State.raiseF_shu ..) c).trans ((chan_chanMod (s.progShown c v) c c _).trans (if_pos rfl))
  refine ⟨by rw [chan], ?_, by rw [chan], ?_, ?_⟩
  · rw [eq]
    exact State.isF_raiseF _ _ _
  · rw [eq, ← chPc_progShown (s := s) (v := v)]
    refine chPc_congr ?_
    rw [State.raw_raiseF_ne _ _ (stat_ne_pc c c).symm, State.chanMod_raw]
  · rw [eq, State.chState, State.raiseF, State.getF_setF_ne, State.chanMod_getF, getF_progShown (by decide) (by decide), State.chState]

end Pointers

end Sys2Proof.Machine

open Sys2Proof Sys2Proof.Machine

/-- Settles O59: a clause for each of the two states of the channel. -/
theorem programWritesActByChannelState : Obligations.ProgramWritesActByChannelState := by
  unfold Obligations.ProgramWritesActByChannelState
  exact ⟨fun c v s => runs_progWrite_active, fun c v s => runs_progWrite_shadow⟩

end

/-! # The Shuttle: moves and stamps (R399–R405) -/

section

-- Proofs are elaborated in turn: every thread that waits for another takes its stack from the memory a compile may use.
set_option Elab.async false

namespace Sys2Proof.Machine

/-! ## Channels that go on, and channels that an error halts (R399, R405) -/

section Channel

variable (s : State) (c : Nat)

theorem chk_ne_pc : Reg.SHU_CH_CHK c ≠ Reg.SHU_CH_PC c := by unfold Reg.SHU_CH_CHK Reg.SHU_CH_PC; omega

theorem stat_ne_chk (d : Nat) : Reg.SHU_CH_STAT d ≠ Reg.SHU_CH_CHK c := by unfold Reg.SHU_CH_STAT Reg.SHU_CH_CHK; omega

theorem chPc_chNext : (s.chNext c).chPc c = (s.chPc c + 1) % 2 ^ 32 := chPc_setPc s c

theorem chState_chNext (d : Nat) : (s.chNext c).chState d = s.chState d := chState_congr (State.raw_wrN_ne _ _ (stat_ne_pc c d))

theorem chk_chNext : (s.chNext c).num (Reg.SHU_CH_CHK c) = s.num (Reg.SHU_CH_CHK c) :=
  State.num_of_raw (State.raw_wrN_ne _ _ (chk_ne_pc c))

theorem chan_chNext (d : Nat) : (s.chNext c).chan d = s.chan d := chan_congr (State.wrN_shu ..) d

/-- A channel halted by an error shows its code, and its PC and memory stay. -/
theorem chError_leaves {code : Nat} (hcode : code < 8) : (s.chError c code).chState c = 5 ∧
    (s.chError c code).getF (Reg.SHU_CH_STAT c) Fld.SHU_CH_STAT_ERR = code ∧ (s.chError c code).chPc c = s.chPc c ∧
    (s.chError c code).dram = s.dram := by
  have closed : Keeps [.fab, .ports, .ink, .time, .shu, .intr, .ao, .ladder, .out, .win 6, .win 11] s (s.chClose c) :=
    .chClose (.refl _ s)
  have win : window (Reg.SHU_CH_PC c) = 3 := by unfold window Reg.SHU_CH_PC; omega
  have state : ((s.chClose c).setCh c 5).chState c = 5 := State.getF_setF ..
  refine ⟨(State.getF_setF_ne ..).trans state, (State.getF_setF ..).trans (Nat.mod_eq_of_lt hcode), chPc_congr ?_, ?_⟩
  · rw [State.chError, State.raw_setF_ne _ _ _ (stat_ne_pc c c).symm, State.setCh, State.raw_setF_ne _ _ _ (stat_ne_pc c c).symm]
    exact closed.raw_eq _ (by rw [win]; decide)
  · exact closed.only .dram (by decide)

end Channel

/-! ## An instruction whose turn it is (R399) -/

/-- Channel c has fetched an instruction, with which a hand-over ends (R407). -/
def State.fetched (s : State) (c : Nat) : State := s.chanMod c (fun k => { k with handing := false })

theorem chk_fetched (s : State) (c : Nat) : ((s.fetched c).chan c).chk = (s.chan c).chk := by
  rw [State.fetched, chan_chanMod, if_pos rfl]

section Instruction

variable {s : State} {c : Nat} (hc : c < 32) (on : s.shuOn = true) (runs : s.chState c = 2)

include hc on runs

theorem shuIns_of_op {op : Nat} (is : insOp (s.chIns c) = op) (legal : op < 7) (f : Bytes → State → State) :
    s.shuIns c op 2 2 f = f (s.chIns c) (s.fetched c) := by
  rw [State.shuIns, if_pos ⟨hc, on, .inl runs⟩]
  dsimp only
  rw [if_neg (by omega), if_neg (by omega)]
  rfl

section Moves

variable {movec : Bool} (is : insOp (s.chIns c) = if movec then 2 else 1)

include is

theorem move_eq : s.move c movec =
    if (s.fetched c).moveErr c (s.chIns c) (moveJob (s.chIns c) movec) ≠ 0 then
      (s.fetched c).chError c ((s.fetched c).moveErr c (s.chIns c) (moveJob (s.chIns c) movec))
    else if (s.fetched c).moveWaits (moveJob (s.chIns c) movec) then s.fetched c
    else (s.fetched c).moveRun c (moveJob (s.chIns c) movec) :=
  shuIns_of_op hc on runs is (by split <;> decide) _

theorem move_refused {e : Nat} (code : (s.fetched c).moveErr c (s.chIns c) (moveJob (s.chIns c) movec) = e) (he : e ≠ 0) :
    s.move c movec = (s.fetched c).chError c e := by
  rw [move_eq hc on runs is, code, if_pos he]

theorem move_runs (code : (s.fetched c).moveErr c (s.chIns c) (moveJob (s.chIns c) movec) = 0)
    (memory : spaceOf (moveJob (s.chIns c) movec).dst ≠ 2) :
    s.move c movec = (s.fetched c).moveRun c (moveJob (s.chIns c) movec) := by
  have free : (s.fetched c).moveWaits (moveJob (s.chIns c) movec) = false := decide_eq_false fun h => memory h.1
  rw [move_eq hc on runs is, code, if_neg (by decide), free, if_neg (by decide)]

/-- A refused move leaves the channel halted with the code of the refusal. -/
theorem move_refused_leaves {e : Nat} (code : (s.fetched c).moveErr c (s.chIns c) (moveJob (s.chIns c) movec) = e) (he : e ≠ 0 ∧ e < 8) :
    (s.move c movec).chState c = 5 ∧ (s.move c movec).getF (Reg.SHU_CH_STAT c) Fld.SHU_CH_STAT_ERR = e ∧
    (s.move c movec).chPc c = s.chPc c ∧ (s.move c movec).dram = s.dram := by
  rw [move_refused hc on runs is code he.1]
  exact chError_leaves (s.fetched c) c he.2

end Moves

end Instruction

/-! ## Codes of a move (R400, R405) -/

section Codes

variable {s : State} {c : Nat} {b : Bytes} {j : MoveJob}

theorem moveErr_of_empty (empty : j.len = 0) : s.moveErr c b j = 1 := if_pos (.inl empty)

variable (some' : j.len ≠ 0) (flags : ¬ (j.chk.isNone ∧ 2 ≤ insFlags b))

include some' flags

theorem moveErr_of_source (bad : spaceOk j.src j.len false = false) : s.moveErr c b j = 2 := by
  rw [State.moveErr, if_neg (not_or.mpr ⟨some', flags⟩), if_pos (by rw [bad]; rfl)]

variable (src : spaceOk j.src j.len false = true) (dst : spaceOk j.dst j.total true = true)

include src dst

theorem moveErr_of_noCheck (none : s.noCheck c j = true) : s.moveErr c b j = 5 := by
  rw [State.moveErr, if_neg (not_or.mpr ⟨some', flags⟩), if_neg (by rw [src, dst]; decide), if_pos none]

theorem moveErr_of_memory (checks : s.noCheck c j = false) (memory : spaceOf j.dst ≠ 2) : s.moveErr c b j = 0 := by
  rw [State.moveErr, if_neg (not_or.mpr ⟨some', flags⟩), if_neg (by rw [src, dst]; decide), if_neg (by rw [checks]; decide), if_neg memory]

end Codes

theorem spaceOk_dram {a n : Nat} {dst : Bool} (dram : spaceOf a = 0) (within : a + n ≤ 2 ^ 36) : spaceOk a n dst = true := by
  have off : spaceOff a ≤ a := Nat.mod_le ..
  simp only [spaceOk, dram, decide_eq_true_eq]
  omega

theorem spaceOk_sram {a n : Nat} {dst : Bool} (sram : spaceOf a = 1) (within : spaceOff a + n ≤ 0x80000) : spaceOk a n dst = true := by
  simp only [spaceOk, sram, within, decide_true]

theorem spaceOff_dram {a : Nat} (dram : spaceOf a = 0) : spaceOff a = a := by
  unfold spaceOf at dram; unfold spaceOff; omega

/-! ## The Shuttle SRAM (R400) -/

section Sram

variable (s : State) (a : Nat) {b : Bytes} (octets : ∀ x ∈ b, x < 256)

/-- The state whose DRAM is the Shuttle SRAM: what holds of memory written and read holds of the SRAM. -/
def State.ofSram (s : State) : State := { s with dram := s.shu.sram }

theorem sramRd_eq (n : Nat) : s.sramRd a n = s.ofSram.rdMem a n := rfl

theorem sramRd_sramWr (x n : Nat) : (s.sramWr a b).sramRd x n = (s.ofSram.wrMem a b).rdMem x n := rfl

theorem rdMem_lt (n : Nat) : ∀ x ∈ s.rdMem a n, x < 256 := by
  intro x hx
  obtain ⟨i, -, rfl⟩ := List.mem_map.mp hx
  exact BitVec.isLt _

theorem length_rdMem (n : Nat) : (s.rdMem a n).length = n := by simp [State.rdMem]

include octets in
theorem rdMem_wrMem_same : (s.wrMem a b).rdMem a b.length = b := by
  have all := rdMem_wrMem_within s a (o := 0) (n := b.length) (by omega) octets
  rwa [Nat.add_zero, slice, List.drop_zero, List.take_length] at all

theorem rdByte_wrMem_outside {x : Nat} (outside : x < a ∨ a + b.length ≤ x) : (s.wrMem a b).rdByte x = s.rdByte x := by
  rw [State.rdByte_wrMem, if_neg (by omega)]

include octets in
theorem sramRd_sramWr_same : (s.sramWr a b).sramRd a b.length = b := rdMem_wrMem_same s.ofSram a octets

theorem sramRd_sramWr_outside {x : Nat} (outside : x < a ∨ a + b.length ≤ x) : (s.sramWr a b).sramRd x 1 = s.sramRd x 1 := by
  rw [sramRd_sramWr, sramRd_eq, State.rdMem, State.rdMem]
  refine List.map_congr_left fun i hi => rdByte_wrMem_outside s.ofSram a ?_
  have : i = 0 := by simpa using hi
  omega

end Sram

/-! ## A move from memory to memory runs (R400, R402) -/

section Run

variable {s u : State} {c : Nat} {j : MoveJob} {d : Bytes} (reads : s.moveRead j.src j.len = (s, d, none))
  (apart : spaceOf j.src ≠ spaceOf j.dst) (writes : s.moveWrite c j.dst d j.eop = (u, none)) (bare : j.append = false)

include reads apart writes bare

theorem moveRun_of_plain (plain : j.chk = none) : s.moveRun c j = u.chNext c := by
  have whole : overlaps j.src j.dst j.len = false := decide_eq_false fun h => apart h.1
  simp only [State.moveRun, reads, whole, bare, plain, if_neg Bool.false_ne_true, writes]

theorem moveRun_of_reset (checks : j.chk = some (0, true)) : s.moveRun c j =
    ((u.chanMod c (fun k => { k with chk := some (0, d) })).wrN (Reg.SHU_CH_CHK c) (u32 (bytesLE 4 (crc32c d)) 0)).chNext c := by
  have whole : overlaps j.src j.dst j.len = false := decide_eq_false fun h => apart h.1
  simp only [State.moveRun, reads, whole, bare, checks, if_neg Bool.false_ne_true, writes]
  rfl

end Run

theorem moveRead_dram (s : State) {a : Nat} (n : Nat) (dram : spaceOf a = 0) : s.moveRead a n = (s, s.rdMem a n, none) := by
  simp only [State.moveRead, dram, spaceOff_dram dram]

theorem moveRead_sram (s : State) {a : Nat} (n : Nat) (sram : spaceOf a = 1) :
    s.moveRead a n = (s, s.sramRd (spaceOff a) n, none) := by
  simp only [State.moveRead, sram]

theorem moveWrite_dram (s : State) (c : Nat) {a : Nat} (b : Bytes) (eop : Bool) (dram : spaceOf a = 0) :
    s.moveWrite c a b eop = (s.wrMem a b, none) := by
  simp only [State.moveWrite, dram, spaceOff_dram dram]

theorem moveWrite_sram (s : State) (c : Nat) {a : Nat} (b : Bytes) (eop : Bool) (sram : spaceOf a = 1) :
    s.moveWrite c a b eop = (s.sramWr (spaceOff a) b, none) := by
  simp only [State.moveWrite, sram]

/-! ## Instruction words (R399) -/

theorem moveJob_plain {b : Bytes} (flags : insFlags b = 0) :
    moveJob b false = { len := u24 b 1, src := un b 4 6, dst := un b 10 6, eop := false, chk := none, append := false } := by
  simp [moveJob, flags]

theorem moveJob_reset {b : Bytes} (flags : insFlags b = 4) :
    moveJob b true = { len := u24 b 1, src := un b 4 6, dst := un b 10 6, eop := false, chk := some (0, true), append := false } := by
  simp [moveJob, flags]

theorem moveJob_running {b : Bytes} (flags : insFlags b = 0) :
    moveJob b true = { len := u24 b 1, src := un b 4 6, dst := un b 10 6, eop := false, chk := some (0, false), append := false } := by
  simp [moveJob, flags]

/-- A STAMP with destination a. -/
def stampWord (a : Nat) : Bytes := [0x60, 0, 0, 0] ++ bytesLE 6 a ++ List.replicate 6 0

theorem stampWord_fields {a : Nat} (ha : a < 2 ^ 48) : insOp (stampWord a) = 6 ∧ insFlags (stampWord a) = 0 ∧ un (stampWord a) 4 6 = a ∧
    zeroFrom (stampWord a) 1 3 = true ∧ zeroFrom (stampWord a) 10 15 = true := by
  refine ⟨by simp [stampWord, insOp, u8], by simp [stampWord, insFlags, u8], ?_, by simp [stampWord, zeroFrom, u8, List.range_succ], ?_⟩
  · simp [stampWord, un, u8, bytesLE, List.range_succ]
    omega
  · simp [stampWord, zeroFrom, u8, bytesLE, List.range_succ]

/-! ## The commands -/

theorem move_of_memory {s : State} {c : Nat} {movec : Bool} {j : MoveJob} (hc : c < 32) (on : s.shuOn = true) (runs : s.chState c = 2)
    (op : insOp (s.chIns c) = if movec then 2 else 1) (job : moveJob (s.chIns c) movec = j) (some' : j.len ≠ 0)
    (flags : ¬ (j.chk.isNone ∧ 2 ≤ insFlags (s.chIns c))) (src : spaceOk j.src j.len false = true) (dst : spaceOk j.dst j.total true = true)
    (checks : (s.fetched c).noCheck c j = false) (memory : spaceOf j.dst ≠ 2) : s.move c movec = (s.fetched c).moveRun c j := by
  subst job
  exact move_runs hc on runs op (moveErr_of_memory some' flags src dst checks memory) memory

section Commands

variable {s : State} {c : Nat} {b : Bytes} (hc : c < 32) (on : s.shuOn = true) (runs : s.chState c = 2) (word : b = s.chIns c)

include hc on runs word

theorem runs_move_refused {e : Nat} (op : insOp b = 1) (code : (s.fetched c).moveErr c b (moveJob b false) = e) (he : e ≠ 0 ∧ e < 8) :
    Runs (.move c) s (fun t => t.chState c = 5 ∧ t.getF (Reg.SHU_CH_STAT c) Fld.SHU_CH_STAT_ERR = e ∧ t.chPc c = s.chPc c ∧
    t.dram = s.dram) := by
  subst word
  exact ⟨_, rfl, move_refused_leaves hc on runs (movec := false) op code he⟩

theorem runs_move_dram_sram (op : insOp b = 1) (flags : insFlags b = 0) (len : u24 b 1 ≠ 0) (src : spaceOf (un b 4 6) = 0)
    (dst : spaceOf (un b 10 6) = 1) (within : un b 4 6 + u24 b 1 ≤ 2 ^ 36) (room : spaceOff (un b 10 6) + u24 b 1 ≤ 0x80000) :
    Runs (.move c) s (fun t => t.chState c = 2 ∧ t.chPc c = (s.chPc c + 1) % 2 ^ 32 ∧
    t.sramRd (spaceOff (un b 10 6)) (u24 b 1) = s.rdMem (un b 4 6) (u24 b 1) ∧
    (∀ a, a < spaceOff (un b 10 6) ∨ spaceOff (un b 10 6) + u24 b 1 ≤ a → t.sramRd a 1 = s.sramRd a 1) ∧ t.dram = s.dram ∧ (∀ d, d < 32 →
    d ≠ c → t.chState d = s.chState d)) := by
  subst word
  have memory : spaceOf (un (s.chIns c) 10 6) ≠ 2 := by rw [dst]; decide
  have apart : spaceOf (un (s.chIns c) 4 6) ≠ spaceOf (un (s.chIns c) 10 6) := by rw [src, dst]; decide
  have done : s.move c false =
      ((s.fetched c).sramWr (spaceOff (un (s.chIns c) 10 6)) (s.rdMem (un (s.chIns c) 4 6) (u24 (s.chIns c) 1))).chNext c :=
    (move_of_memory hc on runs (movec := false) op (moveJob_plain flags) len (by omega) (spaceOk_dram src within) (spaceOk_sram dst room) rfl memory).trans
      (moveRun_of_plain (moveRead_dram _ _ src) apart (moveWrite_sram _ _ _ _ dst) rfl rfl)
  have octets := rdMem_lt s (un (s.chIns c) 4 6) (u24 (s.chIns c) 1)
  have length := length_rdMem s (un (s.chIns c) 4 6) (u24 (s.chIns c) 1)
  refine ⟨_, congrArg ok done, (chState_chNext _ c c).trans runs, chPc_chNext _ c, ?_, fun a out => ?_, rfl,
    fun d _ _ => chState_chNext _ c d⟩
  · have written := sramRd_sramWr_same (s.fetched c) (spaceOff (un (s.chIns c) 10 6)) octets
    rwa [length] at written
  · exact sramRd_sramWr_outside (s.fetched c) _ (by rwa [length])

theorem runs_move_sram_dram (op : insOp b = 1) (flags : insFlags b = 0) (len : u24 b 1 ≠ 0) (src : spaceOf (un b 4 6) = 1)
    (dst : spaceOf (un b 10 6) = 0) (within : spaceOff (un b 4 6) + u24 b 1 ≤ 0x80000) (room : un b 10 6 + u24 b 1 ≤ 2 ^ 36) :
    Runs (.move c) s (fun t => t.chState c = 2 ∧ t.chPc c = (s.chPc c + 1) % 2 ^ 32 ∧
    t.rdMem (un b 10 6) (u24 b 1) = s.sramRd (spaceOff (un b 4 6)) (u24 b 1) ∧ (∀ a, a < un b 10 6 ∨ un b 10 6 + u24 b 1 ≤ a →
    t.rdByte a = s.rdByte a) ∧ t.shu.sram = s.shu.sram) := by
  subst word
  have memory : spaceOf (un (s.chIns c) 10 6) ≠ 2 := by rw [dst]; decide
  have apart : spaceOf (un (s.chIns c) 4 6) ≠ spaceOf (un (s.chIns c) 10 6) := by rw [src, dst]; decide
  have done : s.move c false =
      ((s.fetched c).wrMem (un (s.chIns c) 10 6) (s.sramRd (spaceOff (un (s.chIns c) 4 6)) (u24 (s.chIns c) 1))).chNext c :=
    (move_of_memory hc on runs (movec := false) op (moveJob_plain flags) len (by omega) (spaceOk_sram src within) (spaceOk_dram dst room) rfl memory).trans
      (moveRun_of_plain (moveRead_sram _ _ src) apart (moveWrite_dram _ _ _ _ dst) rfl rfl)
  have octets := rdMem_lt s.ofSram (spaceOff (un (s.chIns c) 4 6)) (u24 (s.chIns c) 1)
  have length := length_rdMem s.ofSram (spaceOff (un (s.chIns c) 4 6)) (u24 (s.chIns c) 1)
  rw [← sramRd_eq] at octets length
  refine ⟨_, congrArg ok done, (chState_chNext _ c c).trans runs, chPc_chNext _ c, ?_, fun a out => ?_, rfl⟩
  · have written := rdMem_wrMem_same (s.fetched c) (un (s.chIns c) 10 6) octets
    rwa [length] at written
  · exact rdByte_wrMem_outside (s.fetched c) _ (by rwa [length])

theorem runs_movec_reset (op : insOp b = 2) (flags : insFlags b = 4) (len : u24 b 1 ≠ 0) (src : spaceOf (un b 4 6) = 0)
    (dst : spaceOf (un b 10 6) = 1) (within : un b 4 6 + u24 b 1 ≤ 2 ^ 36) (room : spaceOff (un b 10 6) + u24 b 1 ≤ 0x80000) :
    Runs (.movec c) s (fun t => t.chState c = 2 ∧ t.chPc c = (s.chPc c + 1) % 2 ^ 32 ∧
    t.sramRd (spaceOff (un b 10 6)) (u24 b 1) = s.rdMem (un b 4 6) (u24 b 1) ∧
    t.num (Reg.SHU_CH_CHK c) = crc32c (s.rdMem (un b 4 6) (u24 b 1)) % 2 ^ 32 ∧ (t.chan c).chk = some (0, s.rdMem (un b 4 6) (u24 b 1))) := by
  subst word
  have memory : spaceOf (un (s.chIns c) 10 6) ≠ 2 := by rw [dst]; decide
  have apart : spaceOf (un (s.chIns c) 4 6) ≠ spaceOf (un (s.chIns c) 10 6) := by rw [src, dst]; decide
  obtain ⟨d, hd⟩ : ∃ d, d = s.rdMem (un (s.chIns c) 4 6) (u24 (s.chIns c) 1) := ⟨_, rfl⟩
  have done : s.move c true = (((((s.fetched c).sramWr (spaceOff (un (s.chIns c) 10 6)) d).chanMod c
      (fun k => { k with chk := some (0, d) })).wrN (Reg.SHU_CH_CHK c) (u32 (bytesLE 4 (crc32c d)) 0)).chNext c) := by
    rw [hd]
    exact (move_of_memory hc on runs (movec := true) op (moveJob_reset flags) len (by simp) (spaceOk_dram src within)
      (spaceOk_sram dst room) rfl memory).trans (moveRun_of_reset (moveRead_dram _ _ src) apart (moveWrite_sram _ _ _ _ dst) rfl rfl)
  have octets : ∀ x ∈ d, x < 256 := by rw [hd]; exact rdMem_lt _ _ _
  have length : d.length = u24 (s.chIns c) 1 := by rw [hd, length_rdMem]
  rw [← hd]
  refine ⟨_, congrArg ok done, ?_, ?_, ?_, ?_, ?_⟩
  · exact (chState_chNext _ c c).trans ((chState_congr (State.raw_wrN_ne _ _ (stat_ne_chk c c))).trans runs)
  · rw [chPc_chNext, chPc_congr (State.raw_wrN_ne _ _ (chk_ne_pc c).symm)]
    rfl
  · have written := sramRd_sramWr_same (s.fetched c) (spaceOff (un (s.chIns c) 10 6)) octets
    rwa [length] at written
  · have sum : u32 (bytesLE 4 (crc32c d)) 0 = crc32c d := u32_append (d := []) rfl (crc32c_lt d)
    rw [chk_chNext, State.num_wrN _ _ (by rw [sum]; exact crc32c_lt d), sum,
      Nat.mod_eq_of_lt (crc32c_lt d)]
  · rw [chan_chNext, chan_congr (State.wrN_shu ..), chan_chanMod, if_pos rfl]

theorem runs_movec_noCheck (op : insOp b = 2) (flags : insFlags b = 0) (len : u24 b 1 ≠ 0) (src : spaceOk (un b 4 6) (u24 b 1) false = true)
    (dst : spaceOk (un b 10 6) (u24 b 1) true = true) (none : (s.chan c).chk = none) :
    Runs (.movec c) s (fun t => t.chState c = 5 ∧ t.getF (Reg.SHU_CH_STAT c) Fld.SHU_CH_STAT_ERR = 5 ∧ t.chPc c = s.chPc c ∧
    t.dram = s.dram) := by
  subst word
  have lacks : (s.fetched c).noCheck c (moveJob (s.chIns c) true) = true := by
    rw [moveJob_running flags, State.noCheck, chk_fetched, none]
    rfl
  rw [moveJob_running flags] at lacks
  refine ⟨_, rfl, move_refused_leaves hc on runs (movec := true) op ?_ (by decide)⟩
  rw [moveJob_running flags]
  exact moveErr_of_noCheck len (by simp) src dst lacks

end Commands

section Stamp

variable {s : State} {c a : Nat} (hc : c < 32) (on : s.shuOn = true) (runs : s.chState c = 2) (word : stampWord a = s.chIns c)

include hc on runs word

theorem execStamp_eq (ha : a < 2 ^ 48) : execStamp c s = .next (
    if 2 ≤ spaceOf a ∨ spaceOk a 4 true = false then (s.fetched c).chError c 2
    else ((s.fetched c).moveWrite c a (bytesLE 4 s.now) false).1.chNext c) := by
  obtain ⟨op, flags, dst, low, high⟩ := stampWord_fields ha
  rw [word] at op flags dst low high
  refine congrArg ok ((shuIns_of_op hc on runs op (by decide) _).trans ?_)
  simp only [flags, dst, low, high]
  rfl

theorem runs_stamp_dram (within : a + 4 ≤ 2 ^ 36) : Runs (.stamp c) s (fun t => t.chState c = 2 ∧
    t.chPc c = (s.chPc c + 1) % 2 ^ 32 ∧ t.rdMem a 4 = bytesLE 4 s.now ∧ (∀ x, x < a ∨ a + 4 ≤ x → t.rdByte x = s.rdByte x)) := by
  have dram : spaceOf a = 0 := by unfold spaceOf; omega
  have legal : ¬ (2 ≤ spaceOf a ∨ spaceOk a 4 true = false) := by
    rw [dram, spaceOk_dram dram within]
    decide
  have done := execStamp_eq hc on runs word (by omega)
  rw [if_neg legal, moveWrite_dram _ _ _ _ dram] at done
  have length := bytesLE_length 4 s.now
  refine ⟨_, done, (chState_chNext _ c c).trans runs, chPc_chNext _ c, ?_, fun x out => ?_⟩
  · have written := rdMem_wrMem_same (s.fetched c) a (bytesLE_lt 4 s.now)
    rwa [length] at written
  · exact rdByte_wrMem_outside (s.fetched c) a (by rwa [length])

theorem runs_stamp_refused (ha : a < 2 ^ 48) (other : 2 ≤ spaceOf a) : Runs (.stamp c) s (fun t => t.chState c = 5 ∧
    t.getF (Reg.SHU_CH_STAT c) Fld.SHU_CH_STAT_ERR = 2 ∧ t.chPc c = s.chPc c ∧ t.dram = s.dram) := by
  have done := execStamp_eq hc on runs word ha
  rw [if_pos (.inl other)] at done
  exact ⟨_, done, chError_leaves (s.fetched c) c (by decide)⟩

end Stamp

end Sys2Proof.Machine

open Sys2Proof Sys2Proof.Machine

/-- Settles O44: a clause for each pair of spaces that a move joins, and for each refusal. -/
theorem shuttleMovesData : Obligations.ShuttleMovesData := by
  unfold Obligations.ShuttleMovesData
  refine ⟨fun c b s => runs_move_dram_sram, fun c b s => runs_move_sram_dram, fun c b s hc on runs word op len => ?_,
    fun c b s hc on runs word op flags len src => ?_, fun c b s => runs_movec_reset, fun c b s => runs_movec_noCheck,
    fun c a b s hc on runs word eq => ?_, fun c a b s hc on runs word eq => ?_⟩
  · exact runs_move_refused hc on runs word op (moveErr_of_empty len) (by decide)
  · exact runs_move_refused hc on runs word op (moveErr_of_source len (fun h => absurd h.2 (by omega)) (by simp only [moveJob, spaceOk, src]; rfl))
      (by decide)
  · exact runs_stamp_dram hc on runs (eq.symm.trans word)
  · exact runs_stamp_refused hc on runs (eq.symm.trans word)

end

/-! # The Sampler: reports, the log, the read buffer and the NAND mirror (R470–R479) -/

section

-- Proofs are elaborated in turn: every thread that waits for another takes its stack from the memory a compile may use.
set_option Elab.async false

namespace Sys2Proof.Machine

/-- A field reads as the value just written where it has room for it. -/
theorem State.getF_setF_of_lt (s : State) (k : Nat) (f : BitRange) {v : Nat} (hv : v < 2 ^ bwidth f) (h : f.hi < 32 := by decide)
    (hl : f.lo ≤ f.hi := by decide) : (s.setF k f v).getF k f = v := (s.getF_setF k f v h hl).trans (Nat.mod_eq_of_lt hv)

/-! ## Reports of severity below 7 (R470, R476, R479) -/

section Reports

variable {s : State} (code : Nat) {sev : Nat} (path : Nat) (data : Bytes)

theorem reportAct_of_below (below : sev < 7) : s.reportAct code sev path data = s.report code sev path data := by
  rw [State.reportAct, decide_eq_false (by omega), State.when_false]

theorem logged_report (room : s.smp.fifo.length < 256) : Logged s (s.report code sev path data) code sev path data :=
  State.fifo_report s code sev path data room

theorem raw_report_of_room (room : s.smp.fifo.length < 256) (k : Nat) : (s.report code sev path data).raw k = s.raw k := by
  rw [State.report_room s code sev path data room, State.raw_congr (State.smpMod_regs ..)]

/-- A report that finds 256 waiting is only tallied and counted. -/
theorem report_of_full (full : 256 ≤ s.smp.fifo.length) (hs : sev < 8) : (s.report code sev path data).smp.fifo = s.smp.fifo ∧
    (s.report code sev path data).smp.tally.total = s.smp.tally.total + 1 ∧
    (s.report code sev path data).num (0x040040 + 4 * sev) = min (s.num (0x040040 + 4 * sev) + 1) 0xFFFFFFFF := by
  rw [State.report, if_neg (by omega), Nat.mod_eq_of_lt hs]
  exact ⟨rfl, rfl, State.num_bump ..⟩

theorem execSamplerReport_eq (hc : code < 65536) (hs : sev < 8) (hp : path < 65536) :
    execSamplerReport code sev path data s = .next (s.reportAct code sev path data) := by
  rw [execSamplerReport, Nat.mod_eq_of_lt hc, Nat.mod_eq_of_lt hs, Nat.mod_eq_of_lt hp]

theorem runs_samplerReport (hc : code < 65536) (below : sev < 7) (hp : path < 65536) (room : s.smp.fifo.length < 256) :
    Runs (.samplerReport code sev path data) s (fun t => Logged s t code sev path data ∧ t.ladder = s.ladder ∧ t.ao = s.ao) := by
  refine ⟨_, execSamplerReport_eq code path data hc (by omega) hp, ?_⟩
  rw [reportAct_of_below _ _ _ below]
  have kept : Keeps [.smp, .win 4] s (s.report code sev path data) := .report (.refl _ s) ..
  exact ⟨logged_report code path data room, kept.only .ladder (by decide), kept.only .ao (by decide)⟩

theorem runs_samplerReport_full (below : sev < 7) (full : 256 ≤ s.smp.fifo.length) :
    Runs (.samplerReport code sev path data) s (fun t => t.smp.fifo = s.smp.fifo ∧ t.smp.tally.total = s.smp.tally.total + 1 ∧
    t.num (0x040040 + 4 * sev) = min (s.num (0x040040 + 4 * sev) + 1) 0xFFFFFFFF) := by
  refine ⟨_, rfl, ?_⟩
  rw [Nat.mod_eq_of_lt (by omega : sev < 8), reportAct_of_below _ _ _ below]
  exact report_of_full _ _ _ full (by omega)

end Reports

/-! ## Records of firmware (R479) -/

section Firmware

variable {s : State} {init sev code : Nat}

theorem swRecord_core (core : 1 ≤ init ∧ init ≤ 4 ∧ 0x7800 ≤ code ∧ code ≤ 0x7FFF) (hs : sev < 8) :
    s.swRecord init sev code = s.reportAct code sev (0x703F + 64 * (init - 1)) s.swData := by
  rw [State.swRecord, if_pos core, Nat.mod_eq_of_lt hs]

theorem swRecord_hoop (hoop : init = 0 ∧ 0x8800 ≤ code ∧ code ≤ 0x8FFF) (hs : sev < 8) :
    s.swRecord init sev code = s.reportAct code sev 0x803F s.swData := by
  rw [State.swRecord, if_neg (by omega), if_pos hoop, Nat.mod_eq_of_lt hs]

theorem swRecord_refused (core : ¬ (1 ≤ init ∧ init ≤ 4 ∧ 0x7800 ≤ code ∧ code ≤ 0x7FFF))
    (hoop : ¬ (init = 0 ∧ 0x8800 ≤ code ∧ code ≤ 0x8FFF)) :
    s.swRecord init sev code = s.raiseF Reg.SMP_INT_STAT Fld.SMP_INT_STAT_SW_REFUSED := by
  rw [State.swRecord, if_neg core, if_neg hoop]

/-- A record that a writer owns enters the FIFO, and SMP_INT_STAT stays. -/
theorem runs_samplerSwRecord_logged {path : Nat} (below : sev < 7) (room : s.smp.fifo.length < 256)
    (owns : s.swRecord init sev code = s.reportAct code sev path s.swData) :
    Runs (.samplerSwRecord init sev code) s (fun t => Logged s t code sev path s.swData ∧
    t.num Reg.SMP_INT_STAT = s.num Reg.SMP_INT_STAT) := by
  refine ⟨_, congrArg ok (owns.trans (reportAct_of_below _ _ _ below)), logged_report _ _ _ room, ?_⟩
  exact State.num_of_raw (raw_report_of_room _ _ _ room _)

theorem runs_samplerSwRecord_asReport (hs : sev < 8) (owns : (1 ≤ init ∧ init ≤ 4 ∧ 0x7800 ≤ code ∧ code ≤ 0x7FFF) ∨
    (init = 0 ∧ 0x8800 ≤ code ∧ code ≤ 0x8FFF)) : Runs (.samplerSwRecord init sev code) s (fun t => Host.Outcome.next t =
    exec (.samplerReport code sev (if init = 0 then 0x803F else 0x703F + 64 * (init - 1)) s.swData) s) := by
  refine ⟨_, rfl, ?_⟩
  rcases owns with core | hoop
  · rw [if_neg (by omega), swRecord_core core hs]
    exact (execSamplerReport_eq _ _ _ (by omega) hs (by omega)).symm
  · rw [if_pos hoop.1, swRecord_hoop hoop hs]
    exact (execSamplerReport_eq _ _ _ (by omega) hs (by decide)).symm

theorem runs_samplerSwRecord_refused (core : ¬ (1 ≤ init ∧ init ≤ 4 ∧ 0x7800 ≤ code ∧ code ≤ 0x7FFF))
    (hoop : ¬ (init = 0 ∧ 0x8800 ≤ code ∧ code ≤ 0x8FFF)) : Runs (.samplerSwRecord init sev code) s (fun t =>
    t.isF Reg.SMP_INT_STAT Fld.SMP_INT_STAT_SW_REFUSED = true ∧ t.smp = s.smp ∧ t.ladder = s.ladder ∧ t.ao = s.ao) :=
  ⟨_, congrArg ok (swRecord_refused core hoop), State.isF_raiseF .., rfl, rfl, rfl⟩

end Firmware

/-! ## The losses' record (R476) -/

theorem runs_samplerLostSynth {s : State} (few : s.smp.fifo.length ≤ 128) (lost : 0 < s.smp.tally.total) :
    Runs .samplerLostSynth s (fun t => t.smp.fifo.length = s.smp.fifo.length + 1 ∧
    (t.smp.fifo.getLast?.map (fun (e : SmpEntry) => (e.code, e.sev)) = some (1, s.smp.tally.high)) ∧ t.smp.tally.total = 0 ∧
    t.isF Reg.SMP_INT_STAT Fld.SMP_INT_STAT_LOST = true) := by
  refine ⟨_, if_pos ⟨few, lost⟩, ?_, ?_, rfl, State.isF_raiseF ..⟩
  · simp
  · simp

theorem runs_samplerLostSynth_not {s : State} (other : 128 < s.smp.fifo.length ∨ s.smp.tally.total = 0) :
    Runs .samplerLostSynth s (fun t => t = s) := ⟨s, if_neg (by omega), rfl⟩

/-! ## Records of the log (R469, R471, R472, R474) -/

section Take

variable {s : State} {e : SmpEntry} {r : List SmpEntry}

theorem smpSlot_congr {s t : State} (h : t.smp.slots = s.smp.slots) (i : Nat) : t.smpSlot i = s.smpSlot i := by
  rw [State.smpSlot, h, State.smpSlot]

theorem smp_smpMirror (s : State) (i : Nat) : (s.smpMirror i).smp = s.smp :=
  (Keeps.smpMirror (.refl [.pair, .out] s)).only .smp (by decide)

theorem ao_smpMirror (s : State) (i : Nat) : (s.smpMirror i).ao = s.ao := (Keeps.smpMirror (.refl [.pair, .out] s)).only .ao (by decide)

theorem raw_smpMirror (s : State) (i k : Nat) : (s.smpMirror i).raw k = s.raw k :=
  (Keeps.smpMirror (.refl [.pair, .out] s)).raw_eq k (by simp)

/-- The state of an accepted entry before its record: SEV_HIGH is up where IRQ_SEV asks for it. -/
def State.accepted (s : State) (e : SmpEntry) : State :=
  s.when (decide (s.getF Reg.SMP_CTL Fld.SMP_CTL_IRQ_SEV ≤ e.sev)) (fun u => u.raiseF Reg.SMP_INT_STAT Fld.SMP_INT_STAT_SEV_HIGH)

theorem accepted_leaves (s : State) (e : SmpEntry) : (s.accepted e).smp = s.smp ∧ (s.accepted e).ao = s.ao ∧
    ∀ k, k ≠ Reg.SMP_INT_STAT → (s.accepted e).raw k = s.raw k := by
  unfold State.accepted State.when
  split
  · exact ⟨rfl, rfl, fun k hk => State.raw_raiseF_ne _ _ hk⟩
  · exact ⟨rfl, rfl, fun _ _ => rfl⟩

/-- An absorbed entry adds one to REPEAT of the record that absorbs it. -/
def State.absorbed (s : State) (i : Nat) : State :=
  ((s.smpPut i { s.smpSlot i with rep := (s.smpSlot i).rep + 1 }).smpMod (fun p => { p with dirty := p.dirty || s.mirrorOn })).smpMirror i

theorem smpTake_below (below : e.sev < s.getF Reg.SMP_CTL Fld.SMP_CTL_MIN_SEV) : s.smpTake e = s.bump (0x040040 + 4 * (e.sev % 8)) :=
  if_pos below

theorem absorbs_congr {t : State} (slots : t.smp.slots = s.smp.slots) (last : t.smp.last = s.smp.last)
    (ctl : t.raw Reg.SMP_CTL = s.raw Reg.SMP_CTL) (e : SmpEntry) : t.absorbs e = s.absorbs e := by
  simp only [State.absorbs, last, smpSlot_congr slots, State.getF_of_raw ctl]

theorem smpPick_congr {t : State} (slots : t.smp.slots = s.smp.slots) (ctl : t.raw Reg.SMP_CTL = s.raw Reg.SMP_CTL) (sev : Nat) :
    t.smpPick sev = s.smpPick sev := by
  simp only [State.smpPick, State.smpUsed, slots, State.isF_of_raw ctl]

theorem absorbs_accepted (s : State) (e : SmpEntry) : (s.accepted e).absorbs e = s.absorbs e := by
  obtain ⟨smp, -, regs⟩ := accepted_leaves s e
  exact absorbs_congr (congrArg _ smp) (congrArg _ smp) (regs _ (by decide)) e

theorem smpTake_absorbed {i : Nat} (taken : s.getF Reg.SMP_CTL Fld.SMP_CTL_MIN_SEV ≤ e.sev) (absorbs : s.absorbs e = some i) :
    s.smpTake e = (s.accepted e).absorbed i := by
  have absorbs' := (absorbs_accepted s e).trans absorbs
  unfold State.accepted at absorbs'
  rw [State.smpTake, if_neg (Nat.not_lt.mpr taken)]
  simp only [absorbs']
  rfl

theorem smpTake_new (taken : s.getF Reg.SMP_CTL Fld.SMP_CTL_MIN_SEV ≤ e.sev) (other : s.absorbs e = none) :
    s.smpTake e = (s.accepted e).smpNew e := by
  have other' := (absorbs_accepted s e).trans other
  unfold State.accepted at other'
  rw [State.smpTake, if_neg (Nat.not_lt.mpr taken)]
  simp only [other']
  rfl

/-! A new record (R471, R474) -/

/-- The log with entry e as a new record in slot i, before what a full log or a gap in the mirror counts. -/
def State.recordPut (s : State) (e : SmpEntry) (i : Nat) : State :=
  (((s.aoMod (fun a => { a with seq := s.ao.seq + 1 })).smpPut i
    { code := e.code, sev := e.sev, opsec := e.opsec, pcc := e.pcc, path := e.path, data := e.data, seq := s.ao.seq }).smpMod
      (fun p => { p with last := some i, dirty := p.dirty || s.mirrorOn })).smpMirror i

theorem smpNew_of_pick {i : Nat} (pick : s.smpPick e.sev = some i) : ∃ gap full, s.smpNew e =
    ((s.recordPut e i).when gap (fun u => u.bump Reg.SMP_MIRROR_GAP_CNT)).when full State.smpFull := by
  rw [State.smpNew, pick]
  exact ⟨_, _, rfl⟩

theorem smpNew_of_none (none : s.smpPick e.sev = none) : ∃ full, s.smpNew e = (s.bump Reg.SMP_DROP_CNT).when full State.smpFull := by
  rw [State.smpNew, none]
  exact ⟨_, rfl⟩

theorem isF_smpFull (s : State) {f : BitRange} (hf : f.hi < 2 ∨ 2 < f.lo) (top : f.hi < 32) :
    s.smpFull.isF Reg.SMP_INT_STAT f = s.isF Reg.SMP_INT_STAT f := by
  unfold State.smpFull
  split
  · rfl
  · rw [State.raiseF, State.isF_setF_ne _ _ _ hf (by decide) top]
    exact State.isF_of_raw (State.raw_setF_ne _ _ _ (by decide)) f

theorem isF_when_smpFull (s : State) (c : Bool) {f : BitRange} (hf : f.hi < 2 ∨ 2 < f.lo) (top : f.hi < 32) :
    (s.when c State.smpFull).isF Reg.SMP_INT_STAT f = s.isF Reg.SMP_INT_STAT f := by
  cases c
  · rfl
  · exact isF_smpFull s hf top

theorem sevHigh_smpNew (s : State) (e : SmpEntry) :
    (s.smpNew e).isF Reg.SMP_INT_STAT Fld.SMP_INT_STAT_SEV_HIGH = s.isF Reg.SMP_INT_STAT Fld.SMP_INT_STAT_SEV_HIGH := by
  rcases pick : s.smpPick e.sev with _ | i
  · obtain ⟨full, eq⟩ := smpNew_of_none pick
    rw [eq, isF_when_smpFull _ _ (by decide) (by decide)]
    exact State.isF_of_raw (State.raw_bump_ne _ (by decide)) _
  · obtain ⟨gap, full, eq⟩ := smpNew_of_pick pick
    rw [eq, isF_when_smpFull _ _ (by decide) (by decide)]
    refine State.isF_of_raw ?_ _
    rw [State.raw_when (fun u => State.raw_bump_ne u (by decide))]
    exact raw_smpMirror ..

theorem keeps_counted (s : State) (gap full : Bool) :
    Keeps [.win 4] s ((s.when gap (fun u => u.bump Reg.SMP_MIRROR_GAP_CNT)).when full State.smpFull) :=
  .when' (.when' (.refl _ s) _ fun _ h => h.bump _) _ fun _ h => .smpFull h

theorem smpNew_leaves {i : Nat} (pick : s.smpPick e.sev = some i) : ((s.smpNew e).smpSlot i).seq = s.ao.seq ∧
    ((s.smpNew e).smpSlot i).code = e.code ∧ (s.smpNew e).ao.seq = s.ao.seq + 1 ∧ (s.smpNew e).smp.last = some i := by
  obtain ⟨gap, full, eq⟩ := smpNew_of_pick pick
  have kept := keeps_counted (s.recordPut e i) gap full
  rw [← eq] at kept
  have smp := (show (s.smpNew e).smp = (s.recordPut e i).smp from kept.only .smp (by decide)).trans (smp_smpMirror ..)
  have ao := (show (s.smpNew e).ao = (s.recordPut e i).ao from kept.only .ao (by decide)).trans (ao_smpMirror ..)
  have slot : (s.smpNew e).smpSlot i =
      { code := e.code, sev := e.sev, opsec := e.opsec, pcc := e.pcc, path := e.path, data := e.data, seq := s.ao.seq } := by
    rw [State.smpSlot, smp]
    exact tget_tset_same ..
  exact ⟨by rw [slot], by rw [slot], by rw [ao]; rfl, by rw [smp]; rfl⟩

theorem absorbed_leaves (s : State) (i : Nat) : ((s.absorbed i).smpSlot i) = { s.smpSlot i with rep := (s.smpSlot i).rep + 1 } ∧
    (s.absorbed i).ao = s.ao ∧ (s.absorbed i).smp.last = s.smp.last ∧ (s.absorbed i).raw Reg.SMP_INT_STAT = s.raw Reg.SMP_INT_STAT := by
  have smp : (s.absorbed i).smp = _ := smp_smpMirror ..
  refine ⟨?_, ao_smpMirror .., by rw [smp]; rfl, raw_smpMirror ..⟩
  rw [State.smpSlot, smp]
  exact tget_tset_same ..

/-! SAMPLER_FIFO_TAKE -/

/-- The state whose oldest waiting report has been taken off the FIFO. -/
def State.popped (s : State) (r : List SmpEntry) : State := s.smpMod (fun p => { p with fifo := r })

theorem runs_samplerFifoTake {P : State → Prop} (waits : s.smp.fifo = e :: r) (leaves : P ((s.popped r).smpTake e)) :
    Runs .samplerFifoTake s P := by
  refine ⟨_, ?_, leaves⟩
  rw [exec, execSamplerFifoTake, waits]
  rfl

theorem absorbs_popped (s : State) (r : List SmpEntry) (e : SmpEntry) : (s.popped r).absorbs e = s.absorbs e := absorbs_congr rfl rfl rfl e

theorem runs_samplerFifoTake_below (waits : s.smp.fifo = e :: r) (below : e.sev < s.getF Reg.SMP_CTL Fld.SMP_CTL_MIN_SEV) :
    Runs .samplerFifoTake s (fun t => t.num (0x040040 + 4 * e.sev) = min (s.num (0x040040 + 4 * e.sev) + 1) 0xFFFFFFFF ∧
    t.smp.slots = s.smp.slots ∧ t.smp.last = s.smp.last ∧ t.ao.seq = s.ao.seq ∧ t.num Reg.SMP_INT_STAT = s.num Reg.SMP_INT_STAT ∧
    t.smp.fifo = r) := by
  have hs : e.sev < 8 := below.trans (fget_lt Fld.SMP_CTL_MIN_SEV _)
  refine runs_samplerFifoTake waits ?_
  rw [smpTake_below (s := s.popped r) below, Nat.mod_eq_of_lt hs]
  refine ⟨State.num_bump .., rfl, rfl, rfl, State.num_of_raw ((State.raw_bump_ne _ ?_).trans rfl), rfl⟩
  unfold Reg.SMP_INT_STAT
  omega

theorem runs_samplerFifoTake_high (waits : s.smp.fifo = e :: r) (taken : s.getF Reg.SMP_CTL Fld.SMP_CTL_MIN_SEV ≤ e.sev)
    (high : s.getF Reg.SMP_CTL Fld.SMP_CTL_IRQ_SEV ≤ e.sev) :
    Runs .samplerFifoTake s (fun t => t.isF Reg.SMP_INT_STAT Fld.SMP_INT_STAT_SEV_HIGH = true) := by
  refine runs_samplerFifoTake waits ?_
  have up : ((s.popped r).accepted e).isF Reg.SMP_INT_STAT Fld.SMP_INT_STAT_SEV_HIGH = true := by
    rw [State.accepted, decide_eq_true (by exact high), State.when_true]
    exact State.isF_raiseF ..
  rcases absorbs : (s.popped r).absorbs e with _ | i
  · rw [smpTake_new (s := s.popped r) taken absorbs, sevHigh_smpNew, up]
  · rw [smpTake_absorbed (s := s.popped r) taken absorbs, State.isF_of_raw (absorbed_leaves _ i).2.2.2, up]

theorem runs_samplerFifoTake_absorbed {i : Nat} (waits : s.smp.fifo = e :: r) (taken : s.getF Reg.SMP_CTL Fld.SMP_CTL_MIN_SEV ≤ e.sev)
    (absorbs : s.absorbs e = some i) : Runs .samplerFifoTake s (fun t => (t.smpSlot i).rep = (s.smpSlot i).rep + 1 ∧ t.ao.seq = s.ao.seq ∧
    t.smp.last = s.smp.last ∧ (t.smpSlot i).seq = (s.smpSlot i).seq) := by
  refine runs_samplerFifoTake waits ?_
  rw [smpTake_absorbed (s := s.popped r) taken ((absorbs_popped ..).trans absorbs)]
  obtain ⟨slot, ao, last, -⟩ := absorbed_leaves ((s.popped r).accepted e) i
  obtain ⟨smp, ao', -⟩ := accepted_leaves (s.popped r) e
  have old : ((s.popped r).accepted e).smpSlot i = s.smpSlot i := smpSlot_congr (congrArg SmpState.slots smp) i
  rw [slot, ao, last, old, ao', smp]
  exact ⟨rfl, rfl, rfl, rfl⟩

theorem runs_samplerFifoTake_new {i : Nat} (waits : s.smp.fifo = e :: r) (taken : s.getF Reg.SMP_CTL Fld.SMP_CTL_MIN_SEV ≤ e.sev)
    (other : s.absorbs e = none) (pick : s.smpPick e.sev = some i) : Runs .samplerFifoTake s (fun t => (t.smpSlot i).seq = s.ao.seq ∧
    (t.smpSlot i).code = e.code ∧ t.ao.seq = s.ao.seq + 1 ∧ t.smp.last = some i) := by
  refine runs_samplerFifoTake waits ?_
  rw [smpTake_new (s := s.popped r) taken ((absorbs_popped ..).trans other)]
  obtain ⟨smp, ao, regs⟩ := accepted_leaves (s.popped r) e
  have pick' : ((s.popped r).accepted e).smpPick e.sev = some i :=
    (smpPick_congr (congrArg SmpState.slots smp) (regs _ (by decide)) _).trans pick
  have leaves := smpNew_leaves pick'
  rwa [ao] at leaves

end Take

/-! ## The read buffer, CLEAR and the NAND mirror (R474, R475) -/

theorem runs_samplerClear (s : State) : Runs .samplerClear s (fun t => t.smp.slots = [] ∧ t.smpUsed = 0 ∧ t.smp.last = none ∧
    t.isF Reg.SMP_STAT Fld.SMP_STAT_FULL = false ∧ t.ao.seq = s.ao.seq) := by
  refine ⟨_, rfl, rfl, rfl, rfl, ?_, rfl⟩
  rw [State.isF_of_raw (State.raw_bumpN_ne _ _ (by decide))]
  exact State.isF_setF_zero _ _ _

theorem runs_samplerRdSel {s : State} {slot w : Nat} (hs : slot < 8192) (hw : w < 8) : Runs (.samplerRdSel slot w) s (fun t =>
    t.smp.rdBuf = smpBytes (s.smpSlot slot) ∧ t.getF Reg.SMP_RD_SEL Fld.SMP_RD_SEL_WORD = w ∧
    t.getF Reg.SMP_RD_SEL Fld.SMP_RD_SEL_SLOT = slot ∧ t.smp.slots = s.smp.slots) := by
  refine ⟨_, rfl, ?_, ?_, ?_, rfl⟩
  · rw [Nat.mod_eq_of_lt hs]
    rfl
  · exact (State.smpMod_getF ..).trans (State.getF_setF_of_lt _ _ Fld.SMP_RD_SEL_WORD hw)
  · exact (State.smpMod_getF ..).trans ((State.getF_setF_ne ..).trans (State.getF_setF_of_lt _ _ Fld.SMP_RD_SEL_SLOT hs))

theorem runs_samplerRdData (s : State) : Runs .samplerRdData s (fun t =>
    t.busData = word (u32 s.smp.rdBuf (4 * (s.getF Reg.SMP_RD_SEL Fld.SMP_RD_SEL_WORD))) ∧ t.smp = s.smp) := ⟨_, rfl, rfl, rfl⟩

/-- The mirror writes units of the log and leaves the log as it is. -/
theorem mirrorFlush_leaves {s : State} (on : s.isF Reg.SMP_CTL Fld.SMP_CTL_MIRROR_EN = true) :
    s.mirrorFlush.smp = { s.smp with dirty := false } := by
  unfold State.mirrorFlush
  rw [on, Bool.true_and]
  split
  · have units : Keeps [.dram, .sto, .win 4, .win 9] s (State.mirrorWrite (s.when (decide (s.ao.seq = s.mirrorNext ∧ 0 < s.ao.seq)) fun u =>
        u.storePut 1 (mirrorUnit (u.ao.seq - 1)) (u.mirrorBytes (u.ao.seq - 1))) 8193) :=
      .mirrorWrite (.when' (.refl _ s) _ fun _ h => .storePut h)
    exact congrArg (fun p : SmpState => { p with dirty := false }) (units.only .smp (by decide))
  · next clean =>
    rw [← Bool.eq_false_iff.mpr clean]

theorem runs_mirrorUnitWrite {s : State} (on : s.mirrorOn = true) :
    Runs .mirrorUnitWrite s (fun t => t.smp.dirty = false ∧ t.smp.slots = s.smp.slots ∧ t.ao = s.ao) := by
  have smp := mirrorFlush_leaves (Bool.and_eq_true_iff.mp on).1
  refine ⟨_, congrArg ok (if_pos on), by rw [smp], by rw [smp], ?_⟩
  exact (Keeps.mirrorFlush (.refl [.dram, .sto, .smp, .win 4, .win 9] s)).only .ao (by decide)

theorem runs_mirrorUnitWrite_not {s : State} (off : s.mirrorOn = false) : Runs .mirrorUnitWrite s (fun t => t = s) :=
  ⟨s, congrArg ok (if_neg (Bool.eq_false_iff.mp off)), rfl⟩

end Sys2Proof.Machine

open Sys2Proof Sys2Proof.Machine

/-- Settles O58: a report below MIN_SEV is counted; one that is accepted raises SEV_HIGH before it becomes a record or is absorbed. -/
theorem reportsBelowMinSevAreCountedOnly : Obligations.ReportsBelowMinSevAreCountedOnly := by
  unfold Obligations.ReportsBelowMinSevAreCountedOnly
  exact ⟨fun e r s => runs_samplerFifoTake_below, fun e r s => runs_samplerFifoTake_high⟩

/-- Settles O60: a clause for each writer, one for the report that either makes, and one for the refusal. -/
theorem firmwareWritesItsOwnRecordsOnly : Obligations.FirmwareWritesItsOwnRecordsOnly := by
  unfold Obligations.FirmwareWritesItsOwnRecordsOnly
  refine ⟨fun init sev code s core below room => ?_, fun init sev code s hoop below room => ?_,
    fun init sev code s => runs_samplerSwRecord_asReport, fun init sev code s => runs_samplerSwRecord_refused⟩
  · exact runs_samplerSwRecord_logged below room (swRecord_core core (by omega))
  · exact runs_samplerSwRecord_logged below room (swRecord_hoop hoop (by omega))

/-- Settles O55: a clause for each of the Sampler's commands, and for each way that a report or an entry goes. -/
theorem samplerKeepsItsLog : Obligations.SamplerKeepsItsLog := by
  unfold Obligations.SamplerKeepsItsLog
  exact ⟨fun code sev path data s hc below hp => runs_samplerReport code path data hc below hp,
    fun code sev path data s => runs_samplerReport_full code path data,
    fun s => runs_samplerLostSynth, fun s => runs_samplerLostSynth_not,
    fun e r i s => runs_samplerFifoTake_absorbed, fun e r i s waits taken other pick _ => runs_samplerFifoTake_new waits taken other pick,
    runs_samplerClear, fun slot w s => runs_samplerRdSel, runs_samplerRdData, fun s => runs_mirrorUnitWrite_not,
    fun s => runs_mirrorUnitWrite⟩

end

/-! # The NOR's directory; slots, directories, messages and pins that the statements leave out (15_hoop.md, 16_update.md, 17_sampler_recovery.md) -/

section

-- Proofs are elaborated in turn: every thread that waits for another takes its stack from the memory a compile may use.
set_option Elab.async false

namespace Sys2Proof.Machine

/-! ## What rests on the NOR alone (R455, R456) -/

theorem State.norPage_congr {s t : State} (h : s.nor = t.nor) (p : Nat) : s.norPage p = t.norPage p := by
  rw [State.norPage, State.norPage, h]

theorem State.dirBest_congr {s t : State} (h : s.nor = t.nor) : s.dirBest = t.dirBest := by
  simp only [State.dirBest, State.norPage_congr h]

theorem State.dir_congr {s t : State} (h : s.nor = t.nor) : s.dir = t.dir := by
  simp only [State.dir, State.dirBest_congr h, State.norPage_congr h]

theorem State.rcvReq_congr {s t : State} (h : s.nor = t.nor) : s.rcvReq = t.rcvReq := by
  rw [State.rcvReq, State.rcvReq, State.dir_congr h]

/-- A write of the directory does the same to equal contents. -/
theorem State.nor_dirWrite_congr {s t : State} (h : s.nor = t.nor) (f : Bytes → Bytes) : (s.dirWrite f).nor = (t.dirWrite f).nor := by
  simp only [State.dirWrite, State.norErase, State.norPut, State.dir_congr h, State.dirBest_congr h, h]

theorem State.nor_updDone (s : State) : s.updDone.nor = s.nor := (Keeps.updDone (.refl [.upd, .win 11] s)).only .nor (by decide)

/-- s with an operation taken in UPD_CTL. -/
def State.updTaken (s : State) (op stg : Nat) : State := (s.setF Reg.UPD_CTL Fld.UPD_CTL_OP op).setF Reg.UPD_CTL Fld.UPD_CTL_STG stg

theorem keeps_updTaken (s : State) (op stg : Nat) : Keeps [.win 11] s (s.updTaken op stg) := by
  unfold State.updTaken
  exact Keeps.setF (Keeps.setF (.refl _ s) Reg.UPD_CTL _ _) Reg.UPD_CTL _ _

/-- GO is not ignored while nothing is under way outside recovery mode (R454, R468). -/
theorem State.updGo_of_idle {s : State} (hb : s.isF Reg.UPD_STAT Fld.UPD_STAT_BUSY = false)
    (hm : s.isF Reg.UPD_RCV_STAT Fld.UPD_RCV_STAT_MODE = false) (op stg : Nat) (f : State → State) :
    s.updGo op stg f = f (s.updTaken op stg) := by
  simp [State.updGo, hb, hm, State.updTaken]

/-- OP 6 leaves the NOR as setting RCV_REQ does. -/
theorem State.nor_updRecoveryRequest {s t : State} (hb : s.isF Reg.UPD_STAT Fld.UPD_STAT_BUSY = false)
    (hm : s.isF Reg.UPD_RCV_STAT Fld.UPD_RCV_STAT_MODE = false) (ht : execUpdRecoveryRequest s = .next t) : t.nor = (s.setRcvReq 1).nor := by
  rw [execUpdRecoveryRequest, State.updGo_of_idle hb hm] at ht
  obtain rfl := Host.Outcome.next.inj ht
  rw [State.nor_updDone]
  exact State.nor_dirWrite_congr ((keeps_updTaken s 6 0).only .nor (by decide)) _

/-! ## O51: two entries for one slot -/

/-- After reset, with an argument for a new identity and two entries for slot 3: the first is FIXED and is the slot's, the second is not. -/
def slotListedTwice : State :=
  (State.reset.hoopMod (fun h => { h with slots := [(3, { attr := 2 ^ 19, key := [1] }), (3, {})] })).wrN (Reg.NDL_CNT_ARG 0) 5

theorem fixed_slotListedTwice : attrBit (slotListedTwice.ndl 3).attr 19 = true := by decide +kernel

/-- The change overwrites slot 3 for the sake of the second entry. -/
theorem emptied_slotListedTwice {t : State} (ht : execCntDomainIdentity slotListedTwice = .next t) : t.ndl 3 = {} := by
  obtain rfl := Host.Outcome.next.inj ht
  decide +kernel

/-! ## O52: a directory page that ends before RCV_REQ -/

/-- A NOR page of ten bytes that counts as a directory copy: MAGIC, FORMAT, and four bytes that make its CRC-32C 0, which is what stands past
its end. -/
def shortPage : Bytes := [0x53, 0x44, 0x49, 0x52, 1, 0, 160, 50, 199, 138]

/-- After reset, with that page as copy 0 of the directory, which it is by its checks. -/
def shortDirectory : State := { State.reset with nor := [(0, shortPage)] }

theorem dirBest_shortDirectory : shortDirectory.dirBest = some 0 := by decide +kernel

/-- RCV_REQ is clear where neither page has 1 in its place. -/
theorem rcvReq_of_pages {s : State} (h0 : u8 (s.norPage (dirPage 0)) 112 ≠ 1) (h1 : u8 (s.norPage (dirPage 1)) 112 ≠ 1) :
    s.rcvReq = false := by
  have zero : u8 (List.replicate 4096 0) 112 = 0 := by decide +kernel
  unfold State.rcvReq State.dir
  cases hb : s.dirBest with
  | none => exact decide_eq_false fun claimed => absurd (claimed.symm.trans zero) (by decide)
  | some i =>
    by_cases hi : i = 0
    · simpa [hi] using h0
    · simpa [dirPage, hi] using h1

/-- The short copy has no room for RCV_REQ, so that setting it leaves it clear: the new copy is filled up with blank bytes. -/
theorem rcvReq_shortDirectory : (shortDirectory.setRcvReq 1).rcvReq = false := by
  have pages : u8 ((shortDirectory.setRcvReq 1).norPage 0) 112 = 255 ∧ u8 ((shortDirectory.setRcvReq 1).norPage 0x10) 112 = 255 := by
    decide +kernel
  exact rcvReq_of_pages (by rw [dirPage, if_pos rfl, pages.1]; decide) (by rw [dirPage, if_neg (by decide), pages.2]; decide)

/-! ## O54: a STATUS without a body -/

theorem State.pair_when {f : State → State} (hf : ∀ u : State, (f u).pair = u.pair) (s : State) (c : Bool) : (s.when c f).pair = s.pair := by
  cases c
  · rfl
  · exact hf s

/-- What a standby's partner is shown to be in by a STATUS of another role. -/
theorem peerState_statusIn {s : State} {b : Bytes} (hp : s.pairState = 3) (hr : u8 b 1 ≠ s.pairRole) :
    (s.statusIn b).pair.peerState = u8 b 0 := by
  unfold State.statusIn
  simp only [if_neg hr, hp, Nat.reduceEqDiff, false_and, or_self, if_false]
  rw [State.setF_pair, State.pair_when fun u => (Keeps.report (.refl [.smp, .win 4] u) _ _ _ _).only .pair (by decide)]
  rfl

/-- What a STATUS taken in order by a standby leaves as the partner's state: the first byte of its BODY, 0 where the BODY is empty. -/
theorem peerState_of_status {b : Bytes} {s t : State} (hp : s.pairState = 3) (hg : s.noGrant 9 3 = false)
    (hl : b.length = 20 + u16 b 2) (hc : u32 b (16 + u16 b 2) = crc32c (b.take (16 + u16 b 2))) (h1 : u8 b 0 = 1)
    (hq : un b 8 8 = s.pair.rxSeq + 1) (hr : u8 (slice b 16 (u16 b 2)) 1 ≠ s.pairRole) (ht : execPairMessageReceive b s = .next t) :
    t.pair.peerState = u8 (slice b 16 (u16 b 2)) 0 := by
  have taken : ¬ (s.pairState = 0 ∨ s.noGrant 9 3 ∨ b.length ≠ 20 + u16 b 2 ∨ u32 b (16 + u16 b 2) ≠ crc32c (b.take (16 + u16 b 2))) := by
    simp [hp, hg, hl, ← hc]
  rw [execPairMessageReceive, if_neg taken] at ht
  simp only [h1, hq, Nat.not_succ_le_self, decide_false, Bool.and_false, ne_eq, not_true_eq_false, if_false, 
    Bool.false_eq_true, State.pairHandle, one_ne_zero] at ht
  obtain rfl := Host.Outcome.next.inj ht
  exact peerState_statusIn hp hr

/-- A STATUS under MSEQ 1 without a BODY, in epoch 0: the header, then the check. -/
def bareStatus : Bytes := [1, 0, 0, 0, 0, 0, 0, 0, 1, 0, 0, 0, 0, 0, 0, 0, 51, 234, 64, 249]

theorem check_bareStatus : u32 bareStatus (16 + u16 bareStatus 2) = crc32c (bareStatus.take (16 + u16 bareStatus 2)) := by decide +kernel

/-- After reset, device A of a pair in STANDBY. -/
def standbyA : State := (State.reset.hoopMod (fun h => { h with pairRole := 1 })).setF Reg.SMP_PAIR_STAT Fld.SMP_PAIR_STAT_STATE 3

theorem pairState_standbyA : standbyA.pairState = 3 := State.getF_setF _ _ Fld.SMP_PAIR_STAT_STATE 3

/-! ## O56: what the NOR was given to do without the time base -/

/-- After reset, with the time base lost since the NOR was blank, and a page that has been given to the NOR since then (R43). -/
def pageHeldBack : State := { State.reset with nor := [(0x20, [1])], norHeld := some [] }

end Sys2Proof.Machine

open Sys2Proof Sys2Proof.Machine

/-- Refutes O51: the clause on a new domain identity says of every FIXED slot that it stays, but a change overwrites each slot that has an
entry which is not FIXED, and the state here has a second entry for slot 3 behind the FIXED one. -/
theorem not_vaultsAndCountedChangesComplete : ¬ Obligations.VaultsAndCountedChangesComplete := by
  unfold Obligations.VaultsAndCountedChangesComplete
  rintro ⟨-, -, -, identity, -⟩
  obtain ⟨t, ht, -, -, stays, -⟩ := identity slotListedTwice (by decide +kernel) (by decide +kernel) (by decide +kernel) (by decide +kernel)
    (by decide +kernel) (by decide +kernel)
  have kept := stays 3 fixed_slotListedTwice
  rw [emptied_slotListedTwice ht] at kept
  exact absurd kept (by decide +kernel)

/-- Refutes O52: OP 6 is said to leave RCV_REQ set whatever the directory's pages are, but a page too short to hold RCV_REQ, whose CRC-32C
checks all the same, keeps it clear. -/
theorem not_updatesRunToTheirEnd : ¬ Obligations.UpdatesRunToTheirEnd := by
  unfold Obligations.UpdatesRunToTheirEnd
  rintro ⟨-, -, -, -, -, -, -, recovery, -⟩
  have busy : shortDirectory.isF Reg.UPD_STAT Fld.UPD_STAT_BUSY = false := by decide +kernel
  have mode : shortDirectory.isF Reg.UPD_RCV_STAT Fld.UPD_RCV_STAT_MODE = false := by decide +kernel
  obtain ⟨t, ht, asked, -⟩ := recovery shortDirectory busy mode
  rw [State.rcvReq_congr (State.nor_updRecoveryRequest busy mode ht), rcvReq_shortDirectory] at asked
  exact Bool.false_ne_true asked

/-- Refutes O54: a STATUS without a BODY shows the partner's state as 0, but the clause on STATUS reads the state from byte 16 whatever the
BODY's length, and there stands the message's check. -/
theorem not_pairMessagesAndStartsComplete : ¬ Obligations.PairMessagesAndStartsComplete := by
  unfold Obligations.PairMessagesAndStartsComplete
  rintro ⟨-, status, -⟩
  have hg : standbyA.noGrant 9 3 = false := by decide +kernel
  obtain ⟨t, ht, -, -, claimed, -⟩ := status bareStatus standbyA (by rw [pairState_standbyA]; decide) hg rfl check_bareStatus rfl rfl
    (by decide +kernel) pairState_standbyA (by decide +kernel)
  have modelled := peerState_of_status pairState_standbyA hg rfl check_bareStatus rfl rfl (by decide +kernel) ht
  exact absurd (claimed.symm.trans modelled) (by decide +kernel)

/-- Refutes O56: PONRST_N low is said to leave the NOR as it is, but what the NOR was given to do while the time base was lost has not reached
it (R43), and is lost with the rest. -/
theorem not_ladderAndPowerPinsTakeTheirSteps : ¬ Obligations.LadderAndPowerPinsTakeTheirSteps := by
  unfold Obligations.LadderAndPowerPinsTakeTheirSteps
  rintro ⟨-, -, -, -, -, -, -, -, -, -, -, -, -, -, -, fall, -⟩
  obtain ⟨t, ht, -, -, -, -, -, nor⟩ := fall pageHeldBack
  obtain rfl := Host.Outcome.next.inj ht
  exact absurd nor (by decide +kernel)

end

/-! # Gathering: claims, completions, software sources and vectors (14_shuttle_gathering.md) -/

section

-- Proofs are elaborated in turn: every thread that waits for another takes its stack from the memory a compile may use.
set_option Elab.async false

namespace Sys2Proof.Machine

/-! ## What a look at the vectors leaves (R417) -/

/-- s with other vectors up, other messages pending and another output. -/
def State.vectors (s : State) (up pend : List Nat) (out : List Out) : State :=
  { s with intr := { s.intr with up := up, msixPend := pend }, out := out }

theorem State.msixLook_eq_vectors (s : State) (v : Nat) : ∃ up pend out, s.msixLook v = s.vectors up pend out := by
  unfold State.msixLook State.msixSend
  split
  · exact ⟨_, _, _, rfl⟩
  · split <;> exact ⟨_, _, _, rfl⟩
  · split
    · split <;> exact ⟨_, _, _, rfl⟩
    · exact ⟨_, _, _, rfl⟩

theorem State.msixSend_eq_vectors (s : State) (v : Nat) : ∃ up pend out, s.msixSend v = s.vectors up pend out := by
  unfold State.msixSend
  split <;> exact ⟨_, _, _, rfl⟩

/-- Vectors that are up, pending messages and the output are all that a look at the vectors can change. -/
theorem State.msixAll_eq_vectors (s : State) : ∃ up pend out, s.msixAll = s.vectors up pend out := by
  unfold State.msixAll
  split
  · exact ⟨_, _, _, rfl⟩
  next configured =>
    clear configured
    generalize List.range 16 = l
    induction l generalizing s with
    | nil => exact ⟨_, _, _, rfl⟩
    | cons v l ih =>
      obtain ⟨u, p, o, look⟩ := s.msixLook_eq_vectors v
      obtain ⟨u', p', o', rest⟩ := ih (s.msixLook v)
      exact ⟨u', p', o', rest.trans (look ▸ rfl)⟩

/-- What ignores vectors, pending messages and output ignores a look at the vectors. -/
theorem State.apply_msixAll {β : Sort*} (f : State → β) (hf : ∀ (u : State) up pend out, f (u.vectors up pend out) = f u) (s : State) :
    f s.msixAll = f s := by
  obtain ⟨up, pend, out, h⟩ := s.msixAll_eq_vectors
  rw [h, hf]

@[simp] theorem State.stack_msixAll (s : State) (g : Nat) : s.msixAll.stack g = s.stack g :=
  State.apply_msixAll (fun u => u.stack g) (fun _ _ _ _ => rfl) s

@[simp] theorem State.stks_msixAll (s : State) : s.msixAll.intr.stks = s.intr.stks :=
  State.apply_msixAll (fun u => u.intr.stks) (fun _ _ _ _ => rfl) s

@[simp] theorem State.latch_msixAll (s : State) : s.msixAll.intr.latch = s.intr.latch :=
  State.apply_msixAll (fun u => u.intr.latch) (fun _ _ _ _ => rfl) s

@[simp] theorem State.vecMask_msixAll (s : State) : s.msixAll.intr.vecMask = s.intr.vecMask :=
  State.apply_msixAll (fun u => u.intr.vecMask) (fun _ _ _ _ => rfl) s

@[simp] theorem State.claimed_msixAll (s : State) (n : Nat) : s.msixAll.claimed n = s.claimed n :=
  State.apply_msixAll (fun u => u.claimed n) (fun _ _ _ _ => rfl) s

@[simp] theorem State.holdLeft_msixAll (s : State) (g : Nat) : s.msixAll.holdLeft g = s.holdLeft g :=
  State.apply_msixAll (fun u => u.holdLeft g) (fun _ _ _ _ => rfl) s

@[simp] theorem State.pend_msixAll (s : State) (n : Nat) : s.msixAll.pend n = s.pend n :=
  State.apply_msixAll (fun u => u.pend n) (fun _ _ _ _ => rfl) s

@[simp] theorem State.busData_msixAll (s : State) : s.msixAll.busData = s.busData :=
  State.apply_msixAll (fun u => u.busData) (fun _ _ _ _ => rfl) s

@[simp] theorem State.isF_msixAll (s : State) (k : Nat) (f : BitRange) : s.msixAll.isF k f = s.isF k f :=
  State.apply_msixAll (fun u => u.isF k f) (fun _ _ _ _ => rfl) s

@[simp] theorem State.smp_msixAll (s : State) : s.msixAll.smp = s.smp := State.apply_msixAll (fun u => u.smp) (fun _ _ _ _ => rfl) s

/-! ## Stacks and hold-offs (R413, R415, R418) -/

/-- s with stack r for target g. -/
def State.stackSet (s : State) (g : Nat) (r : List (Nat × Nat)) : State :=
  s.intMod (fun i => { i with stks := tset (fun _ => []) i.stks g r })

theorem State.stack_of_stks {s t : State} {g : Nat} {r : List (Nat × Nat)} (h : t.intr.stks = tset (fun _ => []) s.intr.stks g r) (j : Nat) :
    t.stack j = if j = g then r else s.stack j := by
  rw [State.stack, h, tget_tset]
  rfl

theorem State.holdLeft_of_hold {s t : State} {g v : Nat} (h : t.intr.hold = tset (fun _ => 0) s.intr.hold g v) (j : Nat) :
    t.holdLeft j = if j = g then v else s.holdLeft j := by
  rw [State.holdLeft, h, tget_tset]
  rfl

theorem mem_tput {α : Type} (t : Tbl α) (k : Nat) (v : α) : (k, v) ∈ tput t k v := by
  induction t with
  | nil => simp [tput]
  | cons e r ih =>
    obtain ⟨j, w⟩ := e
    unfold tput
    split
    · exact List.mem_cons_self
    · split
      · exact List.mem_cons_self
      · exact List.mem_cons_of_mem _ ih

theorem mem_tset {α : Type} [DecidableEq α] {d : Nat → α} {v : α} {k : Nat} (t : Tbl α) (h : v ≠ d k) : (k, v) ∈ tset d t k v := by
  rw [tset, if_neg h]
  exact mem_tput t k v

/-- What a claim of source n makes of the state, before the vectors are looked at. -/
def State.claimTake (s : State) (g n : Nat) : State :=
  (s.intMod (fun i => { i with
    latch := i.latch.filter (fun x => decide (x ≠ n))
    stks := tset (fun _ => []) i.stks g ((n, s.srcPri n) :: s.stack g)
    hold := tset (fun _ => 0) i.hold (n / 16) (s.getF (Reg.INT_HOLD (n / 16)) Fld.INT_HOLD_HOLD) })).answer (word (s.srcPri n * 2 ^ 16 + n))

theorem execIntClaim_of_best {g init n : Nat} {s : State} (hg : g < 21) (open_ : tgtOpen g init = true) (best : s.best g = some n) :
    execIntClaim g init s = ok (s.claimTake g n).msixAll := by
  simp [execIntClaim, show ¬ 21 ≤ g by omega, open_, best, State.claimTake]

theorem runs_intClaim {g init n : Nat} {s : State} (hg : g < 21) (open_ : tgtOpen g init = true) (best : s.best g = some n) :
    Runs (.intClaim g init) s (fun t => t.busData = word (s.srcPri n * 2 ^ 16 + n) ∧ t.stack g = (n, s.srcPri n) :: s.stack g ∧
      (t.intr.latch = s.intr.latch.filter (fun x => decide (x ≠ n))) ∧
      t.holdLeft (n / 16) = s.getF (Reg.INT_HOLD (n / 16)) Fld.INT_HOLD_HOLD ∧ t.claimed n = true ∧ (∀ h, h < 21 → h ≠ g →
      t.stack h = s.stack h)) := by
  have stack (h : Nat) : (s.claimTake g n).stack h = if h = g then (n, s.srcPri n) :: s.stack g else s.stack h := State.stack_of_stks rfl h
  have claimed : (s.claimTake g n).claimed n = true :=
    List.any_eq_true.mpr ⟨_, mem_tset (d := fun _ => []) _ (List.cons_ne_nil _ _), by simp⟩
  refine ⟨_, execIntClaim_of_best hg open_ best, ?_, ?_, ?_, ?_, ?_, fun h _ other => ?_⟩
  · exact State.busData_msixAll _
  · rw [State.stack_msixAll, stack, if_pos rfl]
  · exact State.latch_msixAll _
  · rw [State.holdLeft_msixAll]
    exact (State.holdLeft_of_hold rfl _).trans (if_pos rfl)
  · rw [State.claimed_msixAll, claimed]
  · rw [State.stack_msixAll, stack, if_neg other]

theorem runs_intClaim_none {g init : Nat} {s : State} (hg : g < 21) (open_ : tgtOpen g init = true) (best : s.best g = none) :
    Runs (.intClaim g init) s (fun t => t.busData = 0x3FF ∧ t.intr = s.intr) := by
  refine ⟨s.answer 0x3FF, ?_, rfl, rfl⟩
  change execIntClaim g init s = _
  simp [execIntClaim, show ¬ 21 ≤ g by omega, open_, best]

theorem runs_intClaim_refused {init : Nat} {s : State} (other : isHoop init = false) :
    Runs (.intClaim 0 init) s (fun t => t.busData = 0 ∧ t.intr = s.intr ∧
      t.num Reg.CHIP_FW_VIOL_CNT = min (s.num Reg.CHIP_FW_VIOL_CNT + 1) 0xFFFFFFFF) := by
  refine ⟨(s.fwReg init (Reg.INT_CLAIM 0)).answer 0, ?_, rfl, (Keeps.fwReg (.refl [.smp, .win 0, .win 4] s)).only .intr (by decide),
    num_fwReg_cnt s init _⟩
  change execIntClaim 0 init s = _
  simp [execIntClaim, tgtOpen, other]

/-! ## Completions and FLUSH (R415, R416) -/

/-- s with its top taken off the stack of target g, and a message for a source that waits behind it. -/
def State.completeTop (s : State) (g : Nat) (r : List (Nat × Nat)) : State :=
  let u := s.stackSet g r
  if 5 ≤ g ∧ (u.best g).isSome then
    (u.intMod (fun i => { i with up := (g - 5) :: i.up.filter (fun x => decide (x ≠ g - 5)) })).msixSend (g - 5)
  else u

theorem State.completeTop_eq_vectors (s : State) (g : Nat) (r : List (Nat × Nat)) :
    ∃ up pend out, s.completeTop g r = (s.stackSet g r).vectors up pend out := by
  unfold State.completeTop
  dsimp only
  split
  · obtain ⟨u, p, o, h⟩ := ((s.stackSet g r).intMod
      (fun i => { i with up := (g - 5) :: i.up.filter (fun x => decide (x ≠ g - 5)) })).msixSend_eq_vectors (g - 5)
    exact ⟨u, p, o, h⟩
  · exact ⟨_, _, _, rfl⟩

theorem State.intr_stackErr (s : State) (g v : Nat) : (s.stackErr g v).intr = s.intr := by
  unfold State.stackErr State.report
  split <;> rfl

/-- A report is stamped alike after a flag outside SMP_STAT comes up. -/
theorem State.entry_raiseF (s : State) {k : Nat} (f : BitRange) (hk : k ≠ Reg.SMP_STAT) (code sev path : Nat) (data : Bytes) :
    (s.raiseF k f).entry code sev path data = s.entry code sev path data := by
  rw [State.entry, State.entry, State.raiseF_ao, State.isF_of_raw (s.raw_raiseF_ne f hk.symm)]

theorem execIntComplete_top {g init v p : Nat} {r : List (Nat × Nat)} {s : State} (hg : g < 21) (open_ : tgtOpen g init = true)
    (hv : v < 512) (top : s.stack g = (v, p) :: r) : execIntComplete g init v s = ok (s.completeTop g r).msixAll := by
  simp [execIntComplete, show ¬ 21 ≤ g by omega, open_, Nat.mod_eq_of_lt (show v < 1024 by omega), show v ≠ 0x3FF by omega, top,
    State.completeTop, State.stackSet]

theorem execIntComplete_other {g init v : Nat} {s : State} (hg : g < 21) (open_ : tgtOpen g init = true) (hv : v < 512)
    (other : (s.stack g).head?.map (fun (x : Nat × Nat) => x.1) ≠ some v) : execIntComplete g init v s = ok (s.stackErr g v).msixAll := by
  have lim : ¬ 21 ≤ g := by omega
  have mod : v % 1024 = v := Nat.mod_eq_of_lt (by omega)
  have notAll : v ≠ 0x3FF := by omega
  cases top : s.stack g with
  | nil => simp [execIntComplete, lim, open_, mod, notAll, top]
  | cons x r =>
    have differs : x.1 ≠ v := fun h => other (by simp [top, h])
    simp [execIntComplete, lim, open_, mod, notAll, top, differs]

theorem runs_intComplete {g init v p : Nat} {r : List (Nat × Nat)} {s : State} (hg : g < 21) (open_ : tgtOpen g init = true)
    (hv : v < 512) (top : s.stack g = (v, p) :: r) :
    Runs (.intComplete g init v) s (fun t => t.stack g = r ∧ (∀ h, h < 21 → h ≠ g → t.stack h = s.stack h) ∧
      t.isF (Reg.INT_TGT_STAT g) Fld.INT_TGT_STAT_STACK_FAULT = s.isF (Reg.INT_TGT_STAT g) Fld.INT_TGT_STAT_STACK_FAULT) := by
  obtain ⟨up, pend, out, shape⟩ := s.completeTop_eq_vectors g r
  have stack (h : Nat) : ((s.stackSet g r).vectors up pend out).stack h = if h = g then r else s.stack h := State.stack_of_stks rfl h
  refine ⟨_, execIntComplete_top hg open_ hv top, ?_, fun h _ other => ?_, ?_⟩
  · rw [State.stack_msixAll, shape, stack, if_pos rfl]
  · rw [State.stack_msixAll, shape, stack, if_neg other]
  · rw [State.isF_msixAll, shape]
    rfl

theorem runs_intComplete_other {g init v : Nat} {s : State} (hg : g < 21) (open_ : tgtOpen g init = true) (hv : v < 512)
    (other : (s.stack g).head?.map (fun (x : Nat × Nat) => x.1) ≠ some v) (room : s.smp.fifo.length < 256) :
    Runs (.intComplete g init v) s (fun t => t.intr.stks = s.intr.stks ∧ t.isF (Reg.INT_TGT_STAT g) Fld.INT_TGT_STAT_STACK_FAULT = true ∧
      Logged s t 0x7101 4 (blockPath 7 6) (g :: bytesLE 2 v)) := by
  have behind : (s.raiseF (Reg.INT_TGT_STAT g) Fld.INT_TGT_STAT_STACK_FAULT).smp.fifo.length < 256 := by rwa [State.raiseF_smp]
  refine ⟨_, execIntComplete_other hg open_ hv other, ?_, ?_, ?_⟩
  · rw [State.stks_msixAll, State.intr_stackErr]
  · rw [State.isF_msixAll, State.stackErr, State.isF_of_raw (raw_report_of_room _ _ _ behind _)]
    exact State.isF_raiseF s _ Fld.INT_TGT_STAT_STACK_FAULT
  · rw [Logged, State.smp_msixAll, State.stackErr, State.fifo_report _ _ _ _ _ behind, State.raiseF_smp,
      State.entry_raiseF _ _ (by unfold Reg.INT_TGT_STAT Reg.SMP_STAT; omega)]

theorem runs_intFlush {g init : Nat} {s : State} (hg : g < 21) (open_ : tgtOpen g init = true) :
    Runs (.intFlush g init) s (fun t => t.stack g = [] ∧ (∀ h, h < 21 → h ≠ g → t.stack h = s.stack h) ∧
      t.intr.latch = s.intr.latch) := by
  have flush : execIntFlush g init s = ok (s.intFlush g).msixAll := by simp [execIntFlush, show ¬ 21 ≤ g by omega, open_]
  have stack (h : Nat) : (s.intFlush g).stack h = if h = g then [] else s.stack h := State.stack_of_stks rfl h
  refine ⟨_, flush, ?_, fun h _ other => ?_, State.latch_msixAll _⟩
  · rw [State.stack_msixAll, stack, if_pos rfl]
  · rw [State.stack_msixAll, stack, if_neg other]

theorem runs_holdOffExpire (g : Nat) (s : State) :
    Runs (.holdOffExpire g) s (fun t => t.holdLeft g = 0 ∧ t.intr.stks = s.intr.stks ∧
      (∀ h, h < 32 → h ≠ g → t.holdLeft h = s.holdLeft h)) := by
  refine ⟨_, rfl, ?_, State.stks_msixAll _, fun h _ other => ?_⟩
  · rw [State.holdLeft_msixAll]
    exact (State.holdLeft_of_hold (s := s) (v := 0) rfl g).trans (if_pos rfl)
  · rw [State.holdLeft_msixAll]
    exact (State.holdLeft_of_hold (s := s) (v := 0) rfl h).trans (if_neg other)

/-! ## Cores that wait (R419) -/

/-- The targets that sleep after the core of target g has been looked at. -/
def State.sleepAfter (s : State) (g : Nat) (wfi : Bool) : List Nat :=
  let others := s.intr.sleep.filter (fun x => decide (x ≠ g))
  if (wfi || s.intr.sleep.contains g) ∧ s.wakes g = false then g :: others else others

theorem execCoreWake_of_core {g : Nat} {wfi : Bool} {s : State} (hg : g < 5) :
    execCoreWake g wfi s = ok (s.intMod (fun i => { i with sleep := s.sleepAfter g wfi })) := by
  rw [execCoreWake, if_neg (by omega)]
  rfl

theorem runs_coreWake {g : Nat} {wfi : Bool} {s : State} (hg : g < 5) (wakes : s.wakes g = true) :
    Runs (.coreWake g wfi) s (fun t => t.intr.sleep.contains g = false ∧ t.intr.stks = s.intr.stks) := by
  refine ⟨_, execCoreWake_of_core hg, ?_, rfl⟩
  show (s.sleepAfter g wfi).contains g = false
  simp [State.sleepAfter, wakes]

theorem runs_coreWake_sleeps {g : Nat} {s : State} (hg : g < 5) (none : s.wakes g = false) :
    Runs (.coreWake g true) s (fun t => t.intr.sleep.contains g = true ∧ (∀ h, h < 5 → h ≠ g →
      t.intr.sleep.contains h = s.intr.sleep.contains h)) := by
  have sleeps : s.sleepAfter g true = g :: s.intr.sleep.filter (fun x => decide (x ≠ g)) := by simp [State.sleepAfter, none]
  refine ⟨_, execCoreWake_of_core hg, ?_, fun h _ other => ?_⟩
  · show (s.sleepAfter g true).contains g = true
    simp [sleeps]
  · show (s.sleepAfter g true).contains h = s.intr.sleep.contains h
    rw [Bool.eq_iff_iff]
    simp [sleeps, other]

/-! ## Software sources (R411) -/

theorem State.pend_of_software {n : Nat} (s : State) (hn : 160 ≤ n) : s.pend n = s.intr.latch.contains n := by
  unfold State.pend
  rw [if_pos hn]

theorem runs_intSwSet {n : Nat} {s : State} (low : 160 ≤ n) (high : n < 512) :
    Runs (.intSwSet n) s (fun t => t.pend n = true ∧ t.intr.stks = s.intr.stks) := by
  refine ⟨_, if_pos ⟨low, high⟩, ?_, State.stks_msixAll _⟩
  rw [State.pend_msixAll, State.pend_of_software _ low]
  simp [State.intMod]

theorem runs_intSwSet_hardware {n : Nat} {s : State} (hardware : n < 160) : Runs (.intSwSet n) s (fun t => t = s) :=
  ⟨_, if_neg (by omega), rfl⟩

theorem runs_intSwClear {n : Nat} {s : State} (low : 160 ≤ n) (high : n < 512) :
    Runs (.intSwClear n) s (fun t => t.pend n = false ∧ t.intr.stks = s.intr.stks) := by
  refine ⟨_, if_pos ⟨low, high⟩, ?_, State.stks_msixAll _⟩
  rw [State.pend_msixAll, State.pend_of_software _ low]
  simp [State.intMod]

/-! ## Vectors unmasked (R417) -/

/-- Vector v is up, has a source, and nothing withholds its messages. -/
structure Unmasked (v : Nat) (s : State) : Prop where
  best : (s.best (5 + v)).isSome = true
  up : v ∈ s.intr.up
  sends : s.withheld v = false

/-- A message of vector w concerns no other vector, and only adds to the output. -/
theorem State.msixSend_other {v w : Nat} (other : v ≠ w) (s : State) :
    ∃ pend out, s.msixSend w = s.vectors s.intr.up pend (s.out ++ out) ∧ (v ∈ pend ↔ v ∈ s.intr.msixPend) := by
  unfold State.msixSend
  split
  · refine ⟨_, [], by rw [List.append_nil]; rfl, ?_⟩
    simp [other]
  · refine ⟨_, [.msix w], rfl, ?_⟩
    simp [other]

/-- A look at vector w tells of another vector neither that it is up nor that it is not, leaves its pending bit, and only adds to the
output. -/
theorem State.msixLook_other {v w : Nat} (other : v ≠ w) (s : State) :
    ∃ up pend out, s.msixLook w = s.vectors up pend (s.out ++ out) ∧ (v ∈ up ↔ v ∈ s.intr.up) ∧
      (v ∈ pend ↔ v ∈ s.intr.msixPend) := by
  unfold State.msixLook
  split
  · refine ⟨_, _, [], by rw [List.append_nil]; rfl, ?_, ?_⟩ <;> simp [other]
  · obtain ⟨pend, out, sent, same⟩ := State.msixSend_other other (s.intMod (fun i => { i with up := w :: i.up }))
    exact ⟨_, pend, out, sent, by simp [State.intMod, other], same⟩
  · split
    · obtain ⟨pend, out, sent, same⟩ := State.msixSend_other other s
      exact ⟨_, pend, out, sent, Iff.rfl, same⟩
    · exact ⟨_, _, [], by rw [List.append_nil]; rfl, Iff.rfl, Iff.rfl⟩

theorem Unmasked.of_vectors {v : Nat} {s : State} (h : Unmasked v s) {up pend : List Nat} {out : List Out} (hup : v ∈ up) :
    Unmasked v (s.vectors up pend out) := ⟨h.best, hup, h.sends⟩

/-- A look at a vector that nothing withholds any longer: the message that is pending goes out, and its bit clears. -/
theorem Unmasked.look {v : Nat} {s : State} (h : Unmasked v s) :
    ∃ pend out, s.msixLook v = s.vectors s.intr.up pend (s.out ++ out) ∧ v ∉ pend ∧ (v ∈ s.intr.msixPend → .msix v ∈ out) := by
  obtain ⟨n, best⟩ := Option.isSome_iff_exists.mp h.best
  have up : s.intr.up.contains v = true := List.contains_iff_mem.mpr h.up
  simp only [State.msixLook, best, up]
  by_cases pend : v ∈ s.intr.msixPend
  · rw [if_pos ⟨List.contains_iff_mem.mpr pend, h.sends⟩, State.msixSend, h.sends]
    exact ⟨_, [.msix v], rfl, by simp, fun _ => List.mem_singleton_self _⟩
  · rw [if_neg fun c => pend (List.contains_iff_mem.mp c.1)]
    exact ⟨_, [], by rw [List.append_nil]; rfl, pend, fun c => absurd c pend⟩

/-- Looks at vectors with v among them send v's pending message. -/
theorem Unmasked.looks {v : Nat} {l : List Nat} {s : State} (h : Unmasked v s) :
    ∃ out, (s.each l (fun w t => t.msixLook w)).out = s.out ++ out ∧
      (v ∈ (s.each l (fun w t => t.msixLook w)).intr.msixPend → v ∈ s.intr.msixPend ∧ v ∉ l) ∧
      (v ∈ l → v ∈ s.intr.msixPend → .msix v ∈ out) := by
  induction l generalizing s with
  | nil => exact ⟨[], (List.append_nil _).symm, fun p => ⟨p, List.not_mem_nil⟩, fun c => absurd c List.not_mem_nil⟩
  | cons w l ih =>
    show ∃ out, ((s.msixLook w).each l _).out = _ ∧ (v ∈ ((s.msixLook w).each l _).intr.msixPend → _) ∧ _
    by_cases other : v = w
    · subst other
      obtain ⟨pend, o, look, cleared, sent⟩ := h.look
      obtain ⟨out, rest, clear, -⟩ := ih (look ▸ h.of_vectors h.up)
      rw [look] at rest clear ⊢
      refine ⟨o ++ out, rest.trans (List.append_assoc _ _ _), fun p => absurd (clear p).1 cleared, fun _ p => ?_⟩
      exact List.mem_append_left _ (sent p)
    · obtain ⟨up, pend, o, look, sameUp, samePend⟩ := State.msixLook_other other s
      obtain ⟨out, rest, clear, sent⟩ := ih (look ▸ h.of_vectors (sameUp.mpr h.up))
      rw [look] at rest clear sent ⊢
      refine ⟨o ++ out, rest.trans (List.append_assoc _ _ _), fun p => ?_, fun mem p => ?_⟩
      · obtain ⟨hp, hl⟩ := clear p
        exact ⟨samePend.mp hp, by simp [other, hl]⟩
      · exact List.mem_append_right _ (sent ((List.mem_cons.mp mem).resolve_left other) (samePend.mpr p))

/-- Vectors are looked at as soon as a source is configured, and only a configured one is best. -/
theorem State.msixAll_of_best {s : State} {g : Nat} (h : (s.best g).isSome = true) :
    s.msixAll = s.each (List.range 16) (fun w t => t.msixLook w) := by
  refine if_neg fun empty => ?_
  rw [State.best, List.isEmpty_iff.mp empty] at h
  exact Bool.false_ne_true h

theorem runs_msixUnmask {v : Nat} {s : State} (hv : v < 16) (fn : s.intr.fnMask = false) (mask : s.tgtMask (5 + v) = false)
    (pend : s.intr.msixPend.contains v = true) (up : s.intr.up.contains v = true) (best : (s.best (5 + v)).isSome = true) :
    Runs (.msixUnmask v) s (fun t => (t.out.drop s.out.length).contains (.msix v) = true ∧ t.intr.msixPend.contains v = false ∧
      t.intr.vecMask.contains v = false) := by
  obtain ⟨u, hu⟩ : ∃ u, u = s.intMod (fun i => { i with vecMask := i.vecMask.filter (fun x => decide (x ≠ v)) }) := ⟨_, rfl⟩
  have run : execMsixUnmask v s = ok u.msixAll := by simp [execMsixUnmask, hv, hu]
  have vecMask : u.intr.vecMask.contains v = false := by simp [hu, State.intMod]
  have unmasked : Unmasked v u := by
    refine ⟨by rw [hu]; exact best, by rw [hu]; exact List.contains_iff_mem.mp up, ?_⟩
    have fnU : u.intr.fnMask = false := by rw [hu]; exact fn
    have maskU : u.tgtMask (5 + v) = false := by rw [hu]; exact mask
    rw [State.withheld, fnU, maskU, vecMask]
    rfl
  have pendU : v ∈ u.intr.msixPend := by rw [hu]; exact List.contains_iff_mem.mp pend
  have mem : v ∈ List.range 16 := List.mem_range.mpr hv
  have same : u.out = s.out := by rw [hu]; rfl
  obtain ⟨out, appended, clear, sent⟩ := unmasked.looks (l := List.range 16)
  rw [← State.msixAll_of_best unmasked.best] at appended clear
  refine ⟨_, run, ?_, ?_, ?_⟩
  · rw [appended, same, List.drop_left, List.contains_iff_mem]
    exact sent mem pendU
  · rw [Bool.eq_false_iff, Ne, List.contains_iff_mem]
    exact fun p => (clear p).2 mem
  · rw [State.vecMask_msixAll, vecMask]

end Sys2Proof.Machine

open Sys2Proof Sys2Proof.Machine

/-- Settles O46: a look at the vectors after each command changes vectors, pending messages and output only, so that each clause is about what
the command does to stacks, latches, hold-offs and sleep; a message that was withheld goes out at the look at its vector. -/
theorem interruptsAreClaimedAndCompleted : Obligations.InterruptsAreClaimedAndCompleted := by
  unfold Obligations.InterruptsAreClaimedAndCompleted
  refine ⟨?_, ?_, ?_, ?_, ?_, ?_, ?_, ?_, ?_, ?_, ?_, ?_, ?_⟩
  · exact fun g init n s hg open_ best => runs_intClaim hg open_ best
  · exact fun g init s hg open_ best => runs_intClaim_none hg open_ best
  · exact fun init s other => runs_intClaim_refused other
  · exact fun g init v p r s hg open_ hv top => runs_intComplete hg open_ hv top
  · exact fun g init v s hg open_ hv other room => runs_intComplete_other hg open_ hv other room
  · exact fun g init s hg open_ => runs_intFlush hg open_
  · exact fun g s => runs_holdOffExpire g s
  · exact fun g wfi s hg wakes => runs_coreWake hg wakes
  · exact fun g s hg none => runs_coreWake_sleeps hg none
  · exact fun n s low high => runs_intSwSet low high
  · exact fun n s hardware => runs_intSwSet_hardware hardware
  · exact fun n s low high => runs_intSwClear low high
  · exact fun v s hv fn mask pend up best => runs_msixUnmask hv fn mask pend up best

end

/-! # Updates verified, activated and relayed, and recovery mode (16_update.md) -/

section

-- Proofs are elaborated in turn: every thread that waits for another takes its stack from the memory a compile may use.
set_option Elab.async false

namespace Sys2Proof.Machine

/-! ## What an operation on other parts leaves of a set's checks -/

section

variable {L : List Part} {s t : State}

theorem Keeps.vkey_eq (h : Keeps L s t) (hw : Part.win 5 ∉ L := by decide) : t.vkey = s.vkey := by
  have key (k : Nat) : t.num (Reg.NDL_VKEY k) = s.num (Reg.NDL_VKEY k) :=
    State.num_of_raw (h.only (.win 5) hw _ (by unfold window Reg.NDL_VKEY; omega))
  simp only [State.vkey, key]

/-- The verdict on a set rests on the key, the floors and the fabric. -/
theorem Keeps.setVerify_eq (h : Keeps L s t) (rd : Nat → Bytes) (run : Option (List RunCont)) (hw : Part.win 5 ∉ L := by decide)
    (hh : Part.hoop ∉ L := by decide) (hf : Part.fab ∉ L := by decide) : t.setVerify rd run = s.setVerify rd run := by
  have floor (k : Nat) : t.floor k = s.floor k := congrArg (fun x : HoopState => x.floors.getD k 0) (h.only .hoop hh)
  have there (r : Nat) : t.regionThere r = s.regionThere r := congrArg (fun x : FabState => x.built.any (fun e => decide (e.1 / 0x1000 = r)))
    (h.only .fab hf)
  simp only [State.setVerify, State.entryCheck, h.vkey_eq hw, State.aboveFloor, floor, there]

theorem Keeps.stgRd_eq (h : Keeps L s t) (g : Nat) (hs : Part.sto ∉ L := by decide) (hw : Part.win 9 ∉ L := by decide) :
    t.stgRd g = s.stgRd g := by
  have sto : t.sto = s.sto := h.only .sto hs
  have size : t.partUnits 2 = s.partUnits 2 := congrArg (· * 256) (State.getF_of_raw (h.raw_eq (Reg.STO_PART_SIZE 2) hw) _)
  funext j
  unfold State.stgRd State.storeGet State.mapOf State.unitAt
  rw [sto, size]

theorem Keeps.slotIn_eq (h : Keeps L s t) (st : Nat) (hn : Part.nor ∉ L := by decide) : t.slotIn st = s.slotIn st := by
  unfold State.slotIn State.slotSt
  rw [State.dir_congr (h.only .nor hn)]

theorem Keeps.phase_eq (h : Keeps L s t) (hw : Part.win 9 ∉ L := by decide) : t.phase = s.phase :=
  State.getF_of_raw (h.raw_eq Reg.STO_STAT hw) _

theorem Keeps.session_eq (h : Keeps L s t) (hw : Part.win 8 ∉ L := by decide) : t.session = s.session :=
  State.isF_of_raw (h.raw_eq Reg.TOT_STAT hw) _

theorem Keeps.hoChanged_eq (h : Keeps L s t) (g : Nat) (hu : Part.upd ∉ L := by decide) (hs : Part.sto ∉ L := by decide)
    (hw : Part.win 9 ∉ L := by decide) : t.hoChanged g = s.hoChanged g := by
  rw [State.hoChanged, State.hoChanged, h.stgRd_eq g hs hw, show t.upd = s.upd from h.only .upd hu]

end

/-! ## How an operation of UPD_CTL ends (R454) -/

/-- UPD_STAT and UPD_INT_STAT show a failure with its code, and nothing is under way. -/
structure UpdFailed (t : State) (err : Nat) : Prop where
  fail : t.isF Reg.UPD_STAT Fld.UPD_STAT_FAIL = true
  err : t.getF Reg.UPD_STAT Fld.UPD_STAT_ERR = err
  idle : t.isF Reg.UPD_STAT Fld.UPD_STAT_BUSY = false
  flag : t.isF Reg.UPD_INT_STAT Fld.UPD_INT_STAT_FAIL = true
  job : t.upd.job = none

/-- They show that the operation is done. -/
structure UpdEnded (t : State) : Prop where
  done : t.isF Reg.UPD_STAT Fld.UPD_STAT_DONE = true
  err : t.getF Reg.UPD_STAT Fld.UPD_STAT_ERR = 0
  idle : t.isF Reg.UPD_STAT Fld.UPD_STAT_BUSY = false
  flag : t.isF Reg.UPD_INT_STAT Fld.UPD_INT_STAT_DONE = true

theorem upd_updFail (s : State) (err item : Nat) : (s.updFail err item).upd = { s.upd with job := none } := rfl

theorem upd_updDone (s : State) : s.updDone.upd = { s.upd with job := none } := rfl

/-- BUSY and STEP fall with the end of an operation. -/
theorem idle_updIdle (s : State) : s.updIdle.isF Reg.UPD_STAT Fld.UPD_STAT_BUSY = false := by
  rw [State.updIdle, State.isF_setF_ne _ _ (f := Fld.UPD_STAT_STEP) (g := Fld.UPD_STAT_BUSY)]
  exact State.isF_setF_zero _ _ Fld.UPD_STAT_BUSY

theorem failed_updFail (s : State) {err : Nat} (item : Nat) (he : err < 16) : UpdFailed (s.updFail err item) err := by
  have stat (f : BitRange) : (s.updFail err item).getF Reg.UPD_STAT f = (((s.updIdle.raiseF Reg.UPD_STAT Fld.UPD_STAT_FAIL).setF Reg.UPD_STAT
      Fld.UPD_STAT_ERR err).setF Reg.UPD_STAT Fld.UPD_STAT_ERR_ITEM item).getF Reg.UPD_STAT f :=
    State.getF_of_raw (State.raw_raiseF_ne _ _ (by decide)) f
  have flag (f : BitRange) : (s.updFail err item).isF Reg.UPD_STAT f = (((s.updIdle.raiseF Reg.UPD_STAT Fld.UPD_STAT_FAIL).setF Reg.UPD_STAT
      Fld.UPD_STAT_ERR err).setF Reg.UPD_STAT Fld.UPD_STAT_ERR_ITEM item).isF Reg.UPD_STAT f := by simp only [State.isF, stat]
  refine ⟨?_, ?_, ?_, State.isF_raiseF _ _ Fld.UPD_INT_STAT_FAIL, rfl⟩
  · rw [flag, State.isF_setF_ne _ _ (f := Fld.UPD_STAT_ERR_ITEM) (g := Fld.UPD_STAT_FAIL),
      State.isF_setF_ne _ _ (f := Fld.UPD_STAT_ERR) (g := Fld.UPD_STAT_FAIL)]
    exact State.isF_raiseF _ _ Fld.UPD_STAT_FAIL
  · rw [stat, State.getF_setF_ne _ _ (f := Fld.UPD_STAT_ERR_ITEM) (g := Fld.UPD_STAT_ERR)]
    exact State.getF_setF_of_lt _ _ Fld.UPD_STAT_ERR he
  · rw [flag, State.isF_setF_ne _ _ (f := Fld.UPD_STAT_ERR_ITEM) (g := Fld.UPD_STAT_BUSY),
      State.isF_setF_ne _ _ (f := Fld.UPD_STAT_ERR) (g := Fld.UPD_STAT_BUSY), State.raiseF,
      State.isF_setF_ne _ _ (f := Fld.UPD_STAT_FAIL) (g := Fld.UPD_STAT_BUSY), idle_updIdle]

theorem ended_updDone (s : State) : UpdEnded s.updDone := by
  have stat (f : BitRange) : s.updDone.getF Reg.UPD_STAT f =
      ((s.updIdle.raiseF Reg.UPD_STAT Fld.UPD_STAT_DONE).setF Reg.UPD_STAT Fld.UPD_STAT_ERR 0).getF Reg.UPD_STAT f :=
    State.getF_of_raw (State.raw_raiseF_ne _ _ (by decide)) f
  have flag (f : BitRange) : s.updDone.isF Reg.UPD_STAT f =
      ((s.updIdle.raiseF Reg.UPD_STAT Fld.UPD_STAT_DONE).setF Reg.UPD_STAT Fld.UPD_STAT_ERR 0).isF Reg.UPD_STAT f := by
    simp only [State.isF, stat]
  refine ⟨?_, ?_, ?_, State.isF_raiseF _ _ Fld.UPD_INT_STAT_DONE⟩
  · rw [flag, State.isF_setF_ne _ _ (f := Fld.UPD_STAT_ERR) (g := Fld.UPD_STAT_DONE)]
    exact State.isF_raiseF _ _ Fld.UPD_STAT_DONE
  · rw [stat]
    exact State.getF_setF_of_lt _ _ Fld.UPD_STAT_ERR (by decide)
  · rw [flag, State.isF_setF_ne _ _ (f := Fld.UPD_STAT_ERR) (g := Fld.UPD_STAT_BUSY), State.raiseF,
      State.isF_setF_ne _ _ (f := Fld.UPD_STAT_DONE) (g := Fld.UPD_STAT_BUSY), idle_updIdle]

theorem nor_updFail (s : State) (err item : Nat) : (s.updFail err item).nor = s.nor :=
  (Keeps.updFail (.refl [.upd, .win 11] s)).only .nor (by decide)

theorem hoop_updFail (s : State) (err item : Nat) : (s.updFail err item).hoop = s.hoop :=
  (Keeps.updFail (.refl [.upd, .win 11] s)).only .hoop (by decide)

/-! ## VERIFY (R454) -/

theorem State.updGo_ignored {s : State} (h : s.isF Reg.UPD_STAT Fld.UPD_STAT_BUSY = true ∨ s.isF Reg.UPD_RCV_STAT Fld.UPD_RCV_STAT_MODE = true)
    (op stg : Nat) (f : State → State) : s.updGo op stg f = s := by
  exact if_pos (Bool.or_eq_true_iff.mpr h)

section

variable {s : State} (idle : s.isF Reg.UPD_STAT Fld.UPD_STAT_BUSY = false) (normal : s.isF Reg.UPD_RCV_STAT Fld.UPD_RCV_STAT_MODE = false)
include idle normal

theorem runs_updVerify_unread (stg : Nat) :
    Runs (.updVerify stg true) s (fun t => UpdFailed t 10 ∧ t.upd.verified = s.upd.verified) := by
  have upd : (s.updTaken 1 (stg % 2)).upd = s.upd := (keeps_updTaken s 1 (stg % 2)).only .upd (by decide)
  refine ⟨_, congrArg ok (State.updGo_of_idle idle normal 1 _ _), failed_updFail _ _ (by decide), ?_⟩
  show (s.updTaken 1 (stg % 2)).upd.verified = s.upd.verified
  rw [upd]

theorem runs_updVerify_failed {stg e i : Nat} (hs : stg < 2) (he : e < 16) (verdict : s.setVerify (s.stgRd stg) (some s.upd.run) = some (e, i)) :
    Runs (.updVerify stg false) s (fun t => UpdFailed t e ∧ t.upd.verified = s.upd.verified) := by
  have taken := keeps_updTaken s 1 stg
  have upd : (s.updTaken 1 stg).upd = s.upd := taken.only .upd (by decide)
  have run : execUpdVerify stg false s = ok ((s.updTaken 1 stg).updFail e i) := by
    rw [execUpdVerify, Nat.mod_eq_of_lt hs, State.updGo_of_idle idle normal, State.updVerify, taken.stgRd_eq, upd, taken.setVerify_eq, verdict]
    rfl
  refine ⟨_, run, failed_updFail _ _ he, ?_⟩
  rw [upd_updFail, upd]

end

/-! ## ACTIVATE (R458) -/

/-- s with the copy of an activation begun. -/
def State.activateBegin (s : State) (op g : Nat) : State :=
  (((s.slotSet s.spareSlot 1 0).norErase (norSlot s.spareSlot) norSlotPages).updMod (fun u => { u with
    job := some { op := op, stg := g, old := u.run } })).raiseF Reg.UPD_STAT Fld.UPD_STAT_BUSY |>.setF Reg.UPD_STAT Fld.UPD_STAT_STEP 2

/-- May an activation begin? -/
structure MayActivate (s : State) (op g : Nat) : Prop where
  verified : s.upd.verified.contains g = true
  session : s.session = false
  phase : s.phase = 6
  trial : s.slotIn 3 = none
  hoop : op = 2 → s.hoChanged g = false

theorem MayActivate.begins {s : State} {op g : Nat} (h : MayActivate s op g) : s.activate op g = s.activateBegin op g := by
  have hoop : (decide (op = 2) && s.hoChanged g) = false := by
    by_cases live : op = 2
    · rw [h.hoop live, Bool.and_false]
    · simp [live]
  simp [State.activate, List.contains_iff_mem.mp h.verified, h.session, h.phase, h.trial, hoop, State.activateBegin]

theorem MayActivate.of_keeps {s t : State} {op g : Nat} (h : MayActivate s op g) (k : Keeps [.win 11] s t) : MayActivate t op g where
  verified := by rw [show t.upd = s.upd from k.only .upd (by decide), h.verified]
  session := by rw [k.session_eq, h.session]
  phase := by rw [k.phase_eq, h.phase]
  trial := by rw [k.slotIn_eq, h.trial]
  hoop := fun live => by rw [k.hoChanged_eq, h.hoop live]

theorem upd_activateBegin (s : State) (op g : Nat) :
    (s.activateBegin op g).upd = { s.upd with job := some { op := op, stg := g, old := s.upd.run } } := by
  have nor : ((s.slotSet s.spareSlot 1 0).norErase (norSlot s.spareSlot) norSlotPages).upd = s.upd :=
    (Keeps.norErase (Keeps.slotSet (.refl [.nor] s))).only .upd (by decide)
  rw [← nor]
  rfl

theorem busy_activateBegin (s : State) (op g : Nat) : (s.activateBegin op g).isF Reg.UPD_STAT Fld.UPD_STAT_BUSY = true := by
  rw [State.activateBegin, State.isF_setF_ne _ _ (f := Fld.UPD_STAT_STEP) (g := Fld.UPD_STAT_BUSY)]
  exact State.isF_raiseF _ _ Fld.UPD_STAT_BUSY

theorem step_activateBegin (s : State) (op g : Nat) : (s.activateBegin op g).getF Reg.UPD_STAT Fld.UPD_STAT_STEP = 2 :=
  State.getF_setF_of_lt _ _ Fld.UPD_STAT_STEP (by decide)

/-- An activation that may begin, live or for the next start. -/
theorem activate_updTaken {s : State} {op g : Nat} (may : MayActivate s op g) :
    ∃ t, (s.updTaken op g).activate op g = t ∧ (t.upd.job = some { op := op, stg := g, old := s.upd.run }) ∧
      t.isF Reg.UPD_STAT Fld.UPD_STAT_BUSY = true ∧ t.getF Reg.UPD_STAT Fld.UPD_STAT_STEP = 2 ∧ t.upd.run = s.upd.run := by
  have taken := keeps_updTaken s op g
  have upd : (s.updTaken op g).upd = s.upd := taken.only .upd (by decide)
  refine ⟨_, (may.of_keeps taken).begins, ?_, busy_activateBegin _ _ _, step_activateBegin _ _ _, ?_⟩ <;> rw [upd_activateBegin, upd]

/-- One that may not is refused with code 7. -/
theorem activate_refused {s : State} {op g : Nat}
    (why : s.upd.verified.contains g = false ∨ s.session = true ∨ s.phase ≠ 6 ∨ (s.slotIn 3).isSome = true ∨
      (op = 2 ∧ s.hoChanged g = true)) :
    s.activate op g = s.updFail 7 0 := by
  have refuse : (!s.upd.verified.contains g || s.session || decide (s.phase ≠ 6) || (s.slotIn 3).isSome ||
      (decide (op = 2) && s.hoChanged g)) = true := by
    rcases why with h | h | h | h | ⟨live, h⟩
    · simp only [h, Bool.not_false, Bool.true_or]
    · simp only [h, Bool.or_true, Bool.true_or]
    · simp only [h, ne_eq, not_false_eq_true, decide_true, Bool.or_true, Bool.true_or]
    · simp only [h, Bool.or_true, Bool.true_or]
    · simp only [h, live, decide_true, Bool.and_self, Bool.or_true]
  rw [State.activate, refuse]
  rfl

/-! ## The steps of an activation, COMMIT, REVERT (R458–R460) -/

theorem runs_updStepDone_failed {err item : Nat} {bad : Bool} {j : UpdJob} {s : State} (job : s.upd.job = some j) (base : s.tbLost = false)
    (step : s.updStep = 2) (h0 : 0 < err) (h1 : err < 16) :
    Runs (.updStepDone err item bad) s (fun t => UpdFailed t err ∧ t.upd.run = s.upd.run) := by
  have run : execUpdStepDone err item bad s = ok (s.updFail err item) := by
    simp [execUpdStepDone, job, base, step, Nat.pos_iff_ne_zero.mp h0]
  exact ⟨_, run, failed_updFail _ _ h1, rfl⟩

/-- COMMIT and REVERT without a slot in trial are refused with code 7. -/
theorem failed_withoutTrial (s : State) (op : Nat) :
    UpdFailed ((s.updTaken op 0).updFail 7 0) 7 ∧ ((s.updTaken op 0).updFail 7 0).nor = s.nor ∧
      ((s.updTaken op 0).updFail 7 0).hoop = s.hoop ∧ ((s.updTaken op 0).updFail 7 0).upd.run = s.upd.run := by
  have taken := keeps_updTaken s op 0
  refine ⟨failed_updFail _ _ (by decide), (nor_updFail _ _ _).trans (taken.only .nor (by decide)),
    (hoop_updFail _ _ _).trans (taken.only .hoop (by decide)), ?_⟩
  rw [upd_updFail, show (s.updTaken op 0).upd = s.upd from taken.only .upd (by decide)]

theorem execUpdCommit_withoutTrial {s : State} (idle : s.isF Reg.UPD_STAT Fld.UPD_STAT_BUSY = false)
    (normal : s.isF Reg.UPD_RCV_STAT Fld.UPD_RCV_STAT_MODE = false) (none : s.slotIn 3 = none) (fail : Bool) :
    execUpdCommit fail s = ok ((s.updTaken 4 0).updFail 7 0) := by
  rw [execUpdCommit, State.updGo_of_idle idle normal, State.updCommit, (keeps_updTaken s 4 0).slotIn_eq, none]

theorem execUpdRevert_withoutTrial {s : State} (idle : s.isF Reg.UPD_STAT Fld.UPD_STAT_BUSY = false)
    (normal : s.isF Reg.UPD_RCV_STAT Fld.UPD_RCV_STAT_MODE = false) (none : s.slotIn 3 = none) (bad : Bool) :
    execUpdRevert bad s = ok ((s.updTaken 5 0).updFail 7 0) := by
  rw [execUpdRevert, State.updGo_of_idle idle normal, (keeps_updTaken s 5 0).slotIn_eq, none]

theorem runs_trialTimeout_none {s : State} (none : s.slotIn 3 = none) (bad : Bool) : Runs (.trialTimeout bad) s (fun t => t = s) := by
  refine ⟨s, ?_, rfl⟩
  change execTrialTimeout bad s = ok s
  rw [execTrialTimeout, none]

theorem runs_updRecoveryRequest {s : State} (idle : s.isF Reg.UPD_STAT Fld.UPD_STAT_BUSY = false)
    (normal : s.isF Reg.UPD_RCV_STAT Fld.UPD_RCV_STAT_MODE = false) :
    Runs .updRecoveryRequest s (fun t => UpdEnded t ∧ t.nor = (s.setRcvReq 1).nor ∧ t.upd.run = s.upd.run) := by
  have run : execUpdRecoveryRequest s = ok (((s.updTaken 6 0).setRcvReq 1).updDone) := congrArg ok (State.updGo_of_idle idle normal 6 0 _)
  have kept : Keeps [.nor, .win 11] s ((s.updTaken 6 0).setRcvReq 1) := .setRcvReq ((keeps_updTaken s 6 0).mono (by decide))
  refine ⟨_, run, ended_updDone _, State.nor_updRecoveryRequest idle normal run, ?_⟩
  rw [upd_updDone, show ((s.updTaken 6 0).setRcvReq 1).upd = s.upd from kept.only .upd (by decide)]

/-! ## Chain-stitch relay (R461, R462) -/

theorem runs_stitchOffer_busy {port : Nat} {b : Bytes} {s : State} (len : b.length = 4116) (op : u8 b 0 = 1) (job : s.upd.job.isSome = true) :
    Runs (.stitchOffer port b) s (fun t => t = { s with out := s.out ++ [.stitch port 5 (stitchMsg 5 7 0xFFFF (stitchId b) 0 0 [])] }) := by
  refine ⟨s.stitchSay port 5 (stitchMsg 5 7 0xFFFF (stitchId b) 0 0 []), ?_, rfl⟩
  change execStitchOffer port b s = _
  simp [execStitchOffer, len, op, job]

theorem runs_stitchRequest_foreign {port : Nat} {b : Bytes} {s : State} (own : s.ownSet (stitchId b) = none) :
    Runs (.stitchRequest port b) s (fun t => t = s) := by
  refine ⟨s, ?_, rfl⟩
  change execStitchRequest port b s = _
  rw [execStitchRequest, own]

/-- A BLOCK of the transfer under way, for a block that the set has. -/
structure StitchBlockFits (port : Nat) (b : Bytes) (q : Stitch) : Prop where
  port : port = q.port
  op : u8 b 0 = 3
  set : stitchId b = setIdB q.header
  entry : u16 b 2 < u16 q.header 6
  block : u32 b 12 < u32 (setEntry q.header (u16 b 2)) 8

theorem StitchBlockFits.taken {port : Nat} {b : Bytes} {q : Stitch} (h : StitchBlockFits port b q) :
    ¬ (u8 b 0 ≠ 3 ∨ port ≠ q.port ∨ stitchId b ≠ setIdB q.header ∨ u16 q.header 6 ≤ u16 b 2 ∨
      u32 (setEntry q.header (u16 b 2)) 8 ≤ u32 b 12) := by
  have entry := h.entry
  have block := h.block
  simp only [h.op, h.port, h.set, ne_eq, not_true_eq_false, false_or]
  omega

theorem runs_stitchBlock_bad {port : Nat} {b : Bytes} {q : Stitch} {s : State} (transfer : s.upd.stitch = some q)
    (fits : StitchBlockFits port b q) (len : b.length ≠ 4116) :
    Runs (.stitchBlock port b) s (fun t => t = { s with out := s.out ++
      [.stitch port 2 (stitchMsg 2 0 (u16 b 2) (stitchId b) (u32 b 12) 1 [])] }) := by
  refine ⟨s.stitchSay port 2 (stitchMsg 2 0 (u16 b 2) (stitchId b) (u32 b 12) 1 []), ?_, rfl⟩
  change execStitchBlock port b s = _
  rw [execStitchBlock, transfer]
  dsimp only
  rw [if_neg fits.taken, if_pos (Or.inl len)]

theorem runs_stitchBlock_none {port : Nat} {b : Bytes} {s : State} (transfer : s.upd.stitch = none) :
    Runs (.stitchBlock port b) s (fun t => t = s) := by
  refine ⟨s, ?_, rfl⟩
  change execStitchBlock port b s = _
  rw [execStitchBlock, transfer]

theorem runs_stitchDone_partial {q : Stitch} {s : State} (transfer : s.upd.stitch = some q) (whole : stitchWhole q = false) :
    Runs .stitchDone s (fun t => t = s) := by
  refine ⟨s, ?_, rfl⟩
  change execStitchDone s = _
  simp [execStitchDone, transfer, whole]

theorem runs_stitchAbort_busy {q : Stitch} {s : State} (transfer : s.upd.stitch = some q) (job : s.upd.job.isSome = true) :
    Runs .stitchAbort s (fun t => t.upd.stitch = none ∧
      t.out = s.out ++ [.stitch q.port 5 (stitchMsg 5 7 0xFFFF (setIdB q.header) 0 0 [])] ∧ t.upd.job = s.upd.job) := by
  refine ⟨(s.updMod (fun u => { u with stitch := none })).stitchSay q.port 5 (stitchMsg 5 7 0xFFFF (setIdB q.header) 0 0 []), ?_, rfl, rfl, rfl⟩
  change execStitchAbort s = _
  simp [execStitchAbort, transfer, job]

/-! ## ROM recovery (R465–R467) -/

theorem Keeps.rcvRd_eq {L : List Part} {s t : State} (h : Keeps L s t) (len : Nat) (hd : Part.dram ∉ L := by decide) :
    t.rcvRd len = s.rcvRd len := by
  funext i
  exact congrArg (padTo 4096) (rdMem_congr (h.only .dram hd) _ _)

/-- What UPD_RCV_STAT shows of a set that came by a path. -/
structure RcvShown (t : State) (path e : Nat) : Prop where
  result : t.getF Reg.UPD_RCV_STAT Fld.UPD_RCV_STAT_RESULT = e
  path : t.getF Reg.UPD_RCV_STAT Fld.UPD_RCV_STAT_PATH = path
  done : t.isF Reg.UPD_RCV_STAT Fld.UPD_RCV_STAT_DONE = true

theorem shown_rcvResult (s : State) {path : Nat} (e : Nat) (hp : path < 4) : RcvShown (s.rcvResult path e) path (e % 16) := by
  refine ⟨?_, ?_, State.isF_raiseF _ _ Fld.UPD_RCV_STAT_DONE⟩
  · rw [State.rcvResult, State.raiseF, State.getF_setF_ne _ _ (f := Fld.UPD_RCV_STAT_DONE) (g := Fld.UPD_RCV_STAT_RESULT)]
    exact State.getF_setF _ _ Fld.UPD_RCV_STAT_RESULT e
  · rw [State.rcvResult, State.raiseF, State.getF_setF_ne _ _ (f := Fld.UPD_RCV_STAT_DONE) (g := Fld.UPD_RCV_STAT_PATH),
      State.getF_setF_ne _ _ (f := Fld.UPD_RCV_STAT_RESULT) (g := Fld.UPD_RCV_STAT_PATH)]
    exact State.getF_setF_of_lt _ _ Fld.UPD_RCV_STAT_PATH hp

theorem rcvMode_rcvResult (s : State) (path e : Nat) : (s.rcvResult path e).rcvMode = s.rcvMode := by
  rw [State.rcvMode, State.rcvResult, State.raiseF, State.isF_setF_ne _ _ (f := Fld.UPD_RCV_STAT_DONE) (g := Fld.UPD_RCV_STAT_MODE),
    State.isF_setF_ne _ _ (f := Fld.UPD_RCV_STAT_RESULT) (g := Fld.UPD_RCV_STAT_MODE),
    State.isF_setF_ne _ _ (f := Fld.UPD_RCV_STAT_PATH) (g := Fld.UPD_RCV_STAT_MODE)]
  rfl

theorem keeps_rcvResult (s : State) (path e : Nat) : Keeps [.win 11] s (s.rcvResult path e) := .rcvResult (.refl _ s)

/-- A set that fails a check is not copied. -/
theorem rcvRun_failed {s : State} {len e i : Nat} (verdict : s.setVerify (s.rcvRd len) none = some (e, i)) (path : Nat) (bad : Bool)
    (say : State → Nat → State) : s.rcvRun path len bad say = say (s.rcvResult path e) e := by
  unfold State.rcvRun
  simp only [verdict]

/-- s with a length written for the set to take. -/
def State.rcvTaken (s : State) (len : Nat) : State := s.setF Reg.UPD_RCV_CTL Fld.UPD_RCV_CTL_LEN len

theorem keeps_rcvTaken (s : State) (len : Nat) : Keeps [.win 11] s (s.rcvTaken len) := .setF (.refl _ s) Reg.UPD_RCV_CTL _ _

theorem rcvMode_rcvTaken (s : State) (len : Nat) : (s.rcvTaken len).rcvMode = s.rcvMode :=
  State.isF_of_raw (s.raw_setF_ne _ _ (by decide)) _

theorem execRcvGo_of_mode {s : State} (mode : s.rcvMode = true) {len : Nat} (hl : len < 2 ^ 25) (init : Nat) (bad : Bool) :
    execRcvGo init len bad s = ok ((s.rcvTaken len).rcvRun (if init = 8 then 3 else 1) len bad (fun t _ => t)) := by
  rw [execRcvGo, mode, Nat.mod_eq_of_lt hl]
  rfl

theorem runs_rcvGo_off {s : State} (mode : s.rcvMode = false) (init len : Nat) (bad : Bool) : Runs (.rcvGo init len bad) s (fun t => t = s) := by
  refine ⟨s, ?_, rfl⟩
  change execRcvGo init len bad s = _
  rw [execRcvGo, mode]
  rfl

/-- A set that fails a check, delivered over PCIe or the pair link. -/
theorem execRcvGo_failed {s : State} (mode : s.rcvMode = true) {len e i : Nat} (hl : len < 2 ^ 25)
    (verdict : s.setVerify (s.rcvRd len) none = some (e, i)) (init : Nat) (bad : Bool) :
    execRcvGo init len bad s = ok ((s.rcvTaken len).rcvResult (if init = 8 then 3 else 1) e) := by
  have taken := keeps_rcvTaken s len
  rw [execRcvGo_of_mode mode hl, rcvRun_failed (by rw [taken.rcvRd_eq, taken.setVerify_eq, verdict])]

theorem runs_rcvGo_failed {s : State} (mode : s.rcvMode = true) {len e i : Nat} (hl : len < 2 ^ 25)
    (verdict : s.setVerify (s.rcvRd len) none = some (e, i)) (he : e < 16) (bad : Bool) :
    Runs (.rcvGo 7 len bad) s (fun t => RcvShown t 1 e ∧ t.nor = s.nor ∧ t.rcvMode = true) := by
  refine ⟨_, execRcvGo_failed mode hl verdict 7 bad, ?_, ?_, ?_⟩
  · have shown := shown_rcvResult (s.rcvTaken len) e (show 1 < 4 by decide)
    rwa [Nat.mod_eq_of_lt he] at shown
  · exact ((keeps_rcvTaken s len).trans (keeps_rcvResult _ 1 e)).only .nor (by decide)
  · rw [rcvMode_rcvResult, rcvMode_rcvTaken, mode]

/-! ## The recovery console (R466) -/

theorem runs_uartDataFrame_bad {b : Bytes} {s : State} (on : s.uartOn = true) (sync : u8 b 0 = 0xA5) (bad : uartGood b = false) :
    Runs (.uartDataFrame b) s (fun t => t.upd.hunt = true ∧ t.dram = s.dram ∧ t.out.length = s.out.length + 1) := by
  refine ⟨(s.updMod (fun u => { u with hunt := false })).uartBad b, ?_, rfl, rfl, ?_⟩
  · change execUartDataFrame b s = _
    simp [execUartDataFrame, on, sync, bad]
  · exact List.length_append

/-- A good frame begins with 0xA5. -/
theorem sync_of_uartGood {b : Bytes} (good : uartGood b = true) : u8 b 0 = 0xA5 := (of_decide_eq_true good).1

theorem execUartDataFrame_good {b : Bytes} {s : State} (on : s.uartOn = true) (good : uartGood b = true) (data : u8 b 1 = 1) :
    execUartDataFrame b s =
      ok (((s.updMod (fun u => { u with hunt := false })).wrMem (u32 b 4) (slice b 12 (u16 b 8))).uartSay 0x81 b) := by
  simp [execUartDataFrame, on, sync_of_uartGood good, good, data]

theorem runs_uartDataFrame {b : Bytes} {s : State} (on : s.uartOn = true) (good : uartGood b = true) (data : u8 b 1 = 1) :
    Runs (.uartDataFrame b) s (fun t => t.upd.hunt = false ∧ t.dram = (s.wrMem (u32 b 4) (slice b 12 (u16 b 8))).dram ∧
      t.out.length = s.out.length + 1) :=
  ⟨_, execUartDataFrame_good on good data, rfl, rfl, List.length_append⟩

theorem runs_uartEndFrame_silent {b : Bytes} {bad : Bool} {s : State} (h : s.uartOn = false ∨ u8 b 0 ≠ 0xA5) :
    Runs (.uartEndFrame b bad) s (fun t => t = s) := by
  refine ⟨s, if_pos ?_, rfl⟩
  rcases h with off | sync
  · exact Or.inl (by rw [off]; rfl)
  · exact Or.inr sync

theorem execUartRxTimeout_on {s : State} (on : s.uartOn = true) : execUartRxTimeout s = ok (s.updMod (fun u => { u with hunt := true })) := by
  rw [execUartRxTimeout, on]
  rfl

end Sys2Proof.Machine

open Sys2Proof Sys2Proof.Machine

/-- Settles O50: what an operation refuses or begins, its end in UPD_STAT, and what relay and recovery leave undone, a clause for each. -/
theorem updatesAreVerifiedActivatedAndRelayed : Obligations.UpdatesAreVerifiedActivatedAndRelayed := by
  unfold Obligations.UpdatesAreVerifiedActivatedAndRelayed
  refine ⟨?_, ?_, ?_, ?_, ?_, ?_, ?_, ?_, ?_, ?_, ?_, ?_, ?_, ?_, ?_, ?_, ?_, ?_, ?_, ?_, ?_, ?_, ?_, ?_⟩
  · exact fun stg err s ignored => ⟨s, congrArg ok (State.updGo_ignored ignored _ _ _), rfl⟩
  · intro stg s idle normal
    obtain ⟨t, run, ended, kept⟩ := runs_updVerify_unread idle normal stg
    exact ⟨t, run, ended.fail, ended.err, ended.idle, ended.flag, ended.job, kept⟩
  · intro stg e i s hs he idle normal verdict
    obtain ⟨t, run, ended, kept⟩ := runs_updVerify_failed idle normal hs he verdict
    exact ⟨t, run, ended.fail, ended.err, ended.idle, ended.flag, ended.job, kept⟩
  · intro stg s hs idle normal verified session phase trial hoop
    obtain ⟨t, begun, shows⟩ := activate_updTaken (op := 2) ⟨verified, session, phase, trial, fun _ => hoop⟩
    exact ⟨t, by rw [exec, execUpdActivateLive, State.updGo_of_idle idle normal, Nat.mod_eq_of_lt hs, begun], shows⟩
  · intro stg s hs idle normal why
    have taken := keeps_updTaken s 2 stg
    have upd : (s.updTaken 2 stg).upd = s.upd := taken.only .upd (by decide)
    have refused : (s.updTaken 2 stg).activate 2 stg = (s.updTaken 2 stg).updFail 7 0 := by
      refine activate_refused ?_
      rw [upd, taken.session_eq, taken.phase_eq, taken.slotIn_eq, taken.hoChanged_eq]
      simpa only [true_and] using why
    have ended := failed_updFail (s.updTaken 2 stg) 0 (show 7 < 16 by decide)
    refine ⟨_, by rw [exec, execUpdActivateLive, State.updGo_of_idle idle normal, Nat.mod_eq_of_lt hs, refused], ended.fail, ended.err,
      ended.idle, ended.flag, ended.job, ?_, (nor_updFail _ _ _).trans (taken.only .nor (by decide))⟩
    rw [upd_updFail, upd]
  · intro stg s hs idle normal verified session phase trial
    obtain ⟨t, begun, shows⟩ := activate_updTaken (op := 3) ⟨verified, session, phase, trial, fun live => absurd live (by decide)⟩
    exact ⟨t, by rw [exec, execUpdActivateNextStart, State.updGo_of_idle idle normal, Nat.mod_eq_of_lt hs, begun], shows⟩
  · intro err item bad j s job base step h0 h1
    obtain ⟨t, run, ended, kept⟩ := runs_updStepDone_failed job base step h0 h1
    exact ⟨t, run, ended.fail, ended.err, ended.idle, ended.flag, ended.job, kept⟩
  · exact fun err item bad s job => ⟨s, by rw [exec, execUpdStepDone, job], rfl⟩
  · intro fail s idle normal none
    obtain ⟨ended, nor, hoop, -⟩ := failed_withoutTrial s 4
    exact ⟨_, execUpdCommit_withoutTrial idle normal none fail, ended.fail, ended.err, ended.idle, ended.flag, ended.job, nor, hoop⟩
  · intro bad s idle normal none
    obtain ⟨ended, nor, -, running⟩ := failed_withoutTrial s 5
    exact ⟨_, execUpdRevert_withoutTrial idle normal none bad, ended.fail, ended.err, ended.idle, ended.flag, ended.job, nor, running⟩
  · exact fun bad s none => runs_trialTimeout_none none bad
  · intro s idle normal
    obtain ⟨t, run, ended, nor, running⟩ := runs_updRecoveryRequest idle normal
    exact ⟨t, run, ended.done, ended.err, ended.idle, ended.flag, nor, running⟩
  · exact fun port b s len op job => runs_stitchOffer_busy len op job
  · exact fun port b s own => runs_stitchRequest_foreign own
  · exact fun port b q s transfer hp op set entry block len => runs_stitchBlock_bad transfer ⟨hp, op, set, entry, block⟩ len
  · exact fun port b s transfer => runs_stitchBlock_none transfer
  · exact fun q s transfer whole => runs_stitchDone_partial transfer whole
  · exact fun q s transfer job => runs_stitchAbort_busy transfer job
  · exact fun init len bad s mode => runs_rcvGo_off mode init len bad
  · rintro init len e i bad s mode rfl hl verdict he
    obtain ⟨t, run, shown, nor, on⟩ := runs_rcvGo_failed mode hl verdict he bad
    exact ⟨t, run, shown.result, shown.path, shown.done, nor, on⟩
  · exact fun b s on sync bad => runs_uartDataFrame_bad on sync bad
  · exact fun b s on good data => runs_uartDataFrame on good data
  · exact fun b bad s silent => runs_uartEndFrame_silent silent
  · exact fun s on => ⟨_, execUartRxTimeout_on on, rfl, rfl⟩

end

/-! # Sets relayed and sets delivered in recovery mode (16_update.md) -/

section

-- Proofs are elaborated in turn: every thread that waits for another takes its stack from the memory a compile may use.
set_option Elab.async false

namespace Sys2Proof.Machine

/-! ## Pages of the NOR and copies of the directory (R455, R456) -/

theorem tget_filter_out {α : Type} (d : Nat → α) (p : Nat → Bool) (t : Tbl α) {k : Nat} (h : p k = false) :
    tget d (t.filter (fun e => p e.1)) k = d k := by
  induction t with
  | nil => rfl
  | cons e r ih =>
    rw [List.filter_cons]
    split
    next kept =>
      obtain ⟨j, v⟩ := e
      rw [tget, if_neg fun same => by rw [show j = k from same, h] at kept; exact Bool.false_ne_true kept, ih]
    next => exact ih

theorem State.norPage_norErase (s : State) {p n q : Nat} (h : q < p ∨ p + n ≤ q) : (s.norErase p n).norPage q = s.norPage q :=
  Keeps.tget_filter _ _ (fun k => decide (k < p ∨ p + n ≤ k)) q (decide_eq_true h)

theorem State.norPage_norErase_within (s : State) {p n q : Nat} (h : p ≤ q) (h' : q < p + n) : (s.norErase p n).norPage q = norBlank :=
  tget_filter_out (fun _ => norBlank) (fun k => decide (k < p ∨ p + n ≤ k)) s.nor (decide_eq_false (by omega))

theorem State.norPage_norPut_same (s : State) (p : Nat) (b : Bytes) : (s.norPut p b).norPage p = b ++ List.replicate (4096 - b.length) 255 :=
  tget_tset_same _ _ _ _

/-- The copy that a write of the directory goes to. -/
def State.dirTarget (s : State) : Nat := match s.dirBest with
  | none => 0
  | some i => 1 - i

/-- What a write of the directory puts there, without its CRC. -/
def State.dirImage (s : State) (f : Bytes → Bytes) : Bytes :=
  bytesLE 4 0x52494453 ++ [1, 0, 0, 0] ++ bytesLE 8 (un s.dir 8 8 + 1) ++ slice (f s.dir) 16 4076

theorem State.dirWrite_eq (s : State) (f : Bytes → Bytes) :
    s.dirWrite f = ((s.norErase (dirPage s.dirTarget) 16).norPut (dirPage s.dirTarget)
      (s.dirImage f ++ bytesLE 4 (crc32c (s.dirImage f)))).norErase (dirPage (1 - s.dirTarget)) 16 := rfl

theorem State.dirTarget_cases (s : State) : s.dirTarget = 0 ∨ s.dirTarget = 1 := by
  unfold State.dirTarget
  split
  · exact Or.inl rfl
  · omega

theorem State.length_dirImage (s : State) (f : Bytes → Bytes) : (s.dirImage f).length = 16 + min 4076 ((f s.dir).length - 16) := by
  simp only [State.dirImage, List.length_append, bytesLE_length, slice, List.length_take, List.length_drop, List.length_cons, List.length_nil]

/-- The two copies after a write of the directory: one as written, the other blank. -/
theorem State.pages_dirWrite (s : State) (f : Bytes → Bytes) :
    (s.dirWrite f).norPage (dirPage s.dirTarget) = s.dirImage f ++ bytesLE 4 (crc32c (s.dirImage f)) ++
        List.replicate (4096 - ((s.dirImage f).length + 4)) 255 ∧
      (s.dirWrite f).norPage (dirPage (1 - s.dirTarget)) = norBlank := by
  rw [s.dirWrite_eq]
  constructor
  · rw [State.norPage_norErase _ (by rcases s.dirTarget_cases with h | h <;> simp [dirPage, h]), State.norPage_norPut_same, List.length_append,
      bytesLE_length]
  · exact State.norPage_norErase_within _ (Nat.le_refl _) (by omega)

/-- Whatever the pages were, a directory that has been written is 4 KiB long. -/
theorem State.length_dir_dirWrite (s : State) (f : Bytes → Bytes) : (s.dirWrite f).dir.length = 4096 := by
  obtain ⟨written, blank⟩ := s.pages_dirWrite f
  have size := s.length_dirImage f
  have h0 : ((s.dirWrite f).norPage (dirPage s.dirTarget)).length = 4096 := by
    rw [written]
    simp only [List.length_append, List.length_replicate, bytesLE_length]
    omega
  have h1 : ((s.dirWrite f).norPage (dirPage (1 - s.dirTarget))).length = 4096 := by
    rw [blank]
    exact List.length_replicate
  have both (i : Nat) : ((s.dirWrite f).norPage (dirPage i)).length = 4096 := by
    rcases s.dirTarget_cases with h | h <;> rw [h] at h0 h1 <;> by_cases hi : i = 0 <;> simp_all [dirPage]
  unfold State.dir
  split
  · exact List.length_replicate
  · exact both _

/-- A directory of 4 KiB as changed: the copy written is the directory. -/
theorem State.dir_dirWrite_full (s : State) {f : Bytes → Bytes} (hf : (f s.dir).length = 4096) :
    (s.dirWrite f).dir = s.dirImage f ++ bytesLE 4 (crc32c (s.dirImage f)) := by
  obtain ⟨written, blank⟩ := s.pages_dirWrite f
  have size : (s.dirImage f).length = 4092 := by rw [s.length_dirImage, hf]; rfl
  rw [size, List.replicate_zero, List.append_nil] at written
  have valid : dirOk (s.dirImage f ++ bytesLE 4 (crc32c (s.dirImage f))) = true := by
    refine decide_eq_true ⟨?_, ?_, u32_sealed size⟩
    · simp [State.dirImage, u32, u16, u8, bytesLE, List.range_succ]
    · simp [State.dirImage, u16, u8, bytesLE, List.range_succ]
  have invalid : dirOk norBlank = false := by decide +kernel
  have best : (s.dirWrite f).dirBest = some s.dirTarget := by
    unfold State.dirBest
    rcases s.dirTarget_cases with h | h <;> rw [h] at written blank ⊢
    · rw [written, show dirPage 1 = dirPage (1 - 0) from rfl, blank, valid, invalid]
      rfl
    · rw [written, show dirPage 0 = dirPage (1 - 1) from rfl, blank, valid, invalid]
      rfl
  simp only [State.dir, best, written]

/-- Bytes 16 to 4,091 of it are those of the change. -/
theorem State.u8_dir_dirWrite (s : State) {f : Bytes → Bytes} (hf : (f s.dir).length = 4096) {k : Nat} (hk : k < 4076) :
    u8 (s.dirWrite f).dir (16 + k) = u8 (f s.dir) (16 + k) := by
  rw [s.dir_dirWrite_full hf, State.dirImage, List.append_assoc]
  have header : (bytesLE 4 0x52494453 ++ [1, 0, 0, 0] ++ bytesLE 8 (un s.dir 8 8 + 1)).length = 16 := by simp [bytesLE_length]
  have behind := u8_append (bytesLE 4 0x52494453 ++ [1, 0, 0, 0] ++ bytesLE 8 (un s.dir 8 8 + 1))
    (slice (f s.dir) 16 4076 ++ bytesLE 4 (crc32c (s.dirImage f))) k
  rw [header] at behind
  refine behind.trans ?_
  unfold u8 slice
  rw [List.getD_eq_getElem?_getD, List.getD_eq_getElem?_getD, List.getElem?_append_left (by simp [hf]; omega), List.getElem?_take, if_pos hk,
    List.getElem?_drop]

theorem length_overlay (b : Bytes) (o : Nat) (c : Bytes) (h : o + c.length ≤ b.length) : (overlay b o c).length = b.length := by
  simp only [overlay, List.length_append, List.length_take, List.length_drop]
  omega

theorem u8_overlay_first {b : Bytes} {o x : Nat} {c : Bytes} (h : o < b.length) : u8 (overlay b o (x :: c)) o = x % 256 := by
  unfold u8 overlay
  rw [List.getD_eq_getElem?_getD, List.append_assoc, List.getElem?_append_right (by simp), List.length_take, Nat.min_eq_left (by omega),
    Nat.sub_self, List.getElem?_append_left (by simp; omega), List.getElem?_take, if_pos (by omega)]
  rfl

/-- A slot's STATE is the one it was set to, in a directory of 4 KiB. -/
theorem State.slotSt_slotSet_same {s : State} {i : Nat} (st tries : Nat) (full : s.dir.length = 4096) (hi : i < 2) :
    (s.slotSet i st tries).slotSt i = st % 256 := by
  have room : 16 + 48 * i + 2 ≤ s.dir.length := by omega
  unfold State.slotSt State.slotSet
  rw [s.u8_dir_dirWrite (f := fun b => overlay b (16 + 48 * i) [st, tries]) ((length_overlay _ _ _ room).trans full) (by omega)]
  exact u8_overlay_first (by omega)

theorem State.slotSt_congr {s t : State} (h : s.nor = t.nor) (i : Nat) : s.slotSt i = t.slotSt i := by
  rw [State.slotSt, State.slotSt, State.dir_congr h]

/-! ## Messages that a loop sends -/

theorem State.each_emit {α : Type} (s : State) (l : List α) (f : α → Out) :
    s.each l (fun x u => u.emit (f x)) = { s with out := s.out ++ l.map f } := by
  induction l generalizing s with
  | nil => exact congrArg (fun o => { s with out := o }) (List.append_nil s.out).symm
  | cons x l ih =>
    refine (ih (s.emit (f x))).trans (congrArg (fun o => { s with out := o }) ?_)
    exact List.append_assoc _ _ _

/-! ## Chain-stitch relay (R461, R462) -/

/-- The staging slot that a set on offer goes to. -/
def State.offerSlot (s : State) : Nat := if setIdB (s.stgRd 0 0) = s.runId then 1 else 0

/-- s with the header of a set on offer stored and its transfer begun. -/
def State.offerTake (s : State) (port : Nat) (h : Bytes) : State :=
  (s.storePut 2 (s.stgUnit s.offerSlot) h).updMod (fun u => { u with
    verified := u.verified.filter (fun x => decide (x ≠ s.offerSlot)), stitch := some { port := port, stg := s.offerSlot, header := h } })

theorem runs_stitchOffer {port : Nat} {b : Bytes} {s : State} (len : b.length = 4116) (op : u8 b 0 = 1)
    (crc : u32 (slice b 20 4096) 4092 = crc32c ((slice b 20 4096).take 4092)) (job : s.upd.job = none) (other : stitchId b ≠ s.runId)
    (own : s.ownSet (stitchId b) = none) :
    Runs (.stitchOffer port b) s (fun t => (t.upd.stitch.map (fun q => (q.port, q.header, q.got)) = some (port, slice b 20 4096, [])) ∧
      (t.out = s.out ++ (stitchAsks (slice b 20 4096)).map (fun x => .stitch port 2 (stitchMsg 2 0 x.1 (stitchId b) x.2.1 x.2.2 []))) ∧
      t.upd.job = none ∧ t.upd.run = s.upd.run) := by
  have stored : Keeps [.dram, .sto, .win 9] s (s.storePut 2 (s.stgUnit s.offerSlot) (slice b 20 4096)) := .storePut (.refl _ s)
  have upd : (s.storePut 2 (s.stgUnit s.offerSlot) (slice b 20 4096)).upd = s.upd := stored.only .upd (by decide)
  have out : (s.offerTake port (slice b 20 4096)).out = s.out := stored.only .out (by decide)
  have run : execStitchOffer port b s = ok ((s.offerTake port (slice b 20 4096)).each (stitchAsks (slice b 20 4096))
      (fun x u => u.emit (.stitch port 2 (stitchMsg 2 0 x.1 (stitchId b) x.2.1 x.2.2 [])))) := by
    simp only [execStitchOffer, len, op, job, other, own, crc, ne_eq, not_true_eq_false, or_self, if_false, Option.isSome_none,
      Bool.false_eq_true]
    rfl
  rw [State.each_emit] at run
  have pending : (s.offerTake port (slice b 20 4096)).upd.job = none := by
    show (s.storePut 2 (s.stgUnit s.offerSlot) (slice b 20 4096)).upd.job = none
    rw [upd, job]
  have running : (s.offerTake port (slice b 20 4096)).upd.run = s.upd.run := by
    show (s.storePut 2 (s.stgUnit s.offerSlot) (slice b 20 4096)).upd.run = s.upd.run
    rw [upd]
  exact ⟨_, run, rfl, by rw [out], pending, running⟩

theorem runs_stitchRequest_header {port g : Nat} {b : Bytes} {s : State} (own : s.ownSet (stitchId b) = some g) (op : u8 b 0 = 2)
    (h0 : u32 b 16 ≠ 0) (h1 : u32 b 16 ≤ 4096) (index : u16 b 2 = 0xFFFF) :
    Runs (.stitchRequest port b) s (fun t => t = { s with out := s.out ++
      [.stitch port 3 (stitchMsg 3 0 0xFFFF (stitchId b) 0 1 (s.stgRd g 0))] }) := by
  refine ⟨s.stitchSay port 3 (stitchMsg 3 0 0xFFFF (stitchId b) 0 1 (s.stgRd g 0)), ?_, rfl⟩
  change execStitchRequest port b s = _
  simp [execStitchRequest, own, op, h0, Nat.not_lt.mpr h1, index]

theorem u8_lt (b : Bytes) (o : Nat) : u8 b o < 256 := Nat.mod_lt _ (by decide)

theorem u16_lt (b : Bytes) (o : Nat) : u16 b o < 65536 := by
  have low := u8_lt b o
  have high := u8_lt b (o + 1)
  unfold u16
  omega

theorem runs_stitchRequest_block {port g : Nat} {b : Bytes} {s : State} (own : s.ownSet (stitchId b) = some g) (op : u8 b 0 = 2)
    (one : u32 b 16 = 1) (entry : u16 b 2 < u16 (s.stgRd g 0) 6) (block : u32 b 12 < u32 (setEntry (s.stgRd g 0) (u16 b 2)) 8) :
    Runs (.stitchRequest port b) s (fun t => t = { s with out := s.out ++
      [.stitch port 3 (stitchMsg 3 0 (u16 b 2) (stitchId b) (u32 b 12) 1 (s.stgRd g (u32 (setEntry (s.stgRd g 0) (u16 b 2)) 4 + u32 b 12)))] }) := by
  have index : u16 b 2 ≠ 0xFFFF := by have := u16_lt (s.stgRd g 0) 6; omega
  have count : min 1 (u32 (setEntry (s.stgRd g 0) (u16 b 2)) 8 - u32 b 12) = 1 := by omega
  refine ⟨s.stitchSay port 3 (stitchMsg 3 0 (u16 b 2) (stitchId b) (u32 b 12) 1
    (s.stgRd g (u32 (setEntry (s.stgRd g 0) (u16 b 2)) 4 + u32 b 12))), ?_, rfl⟩
  change execStitchRequest port b s = _
  simp [execStitchRequest, own, op, one, index, entry, count, State.each]

/-- s with a block of a transfer kept. -/
def State.blockKeep (s : State) (q : Stitch) (u : Nat) (d : Bytes) : State :=
  (s.storePut 2 (s.stgUnit q.stg + u) d).updMod (fun x => { x with
    verified := x.verified.filter (fun g => decide (g ≠ q.stg))
    stitch := some { q with got := if q.got.contains u then q.got else u :: q.got } })

theorem execStitchBlock_kept {port : Nat} {b : Bytes} {q : Stitch} {s : State} (transfer : s.upd.stitch = some q)
    (fits : StitchBlockFits port b q) (len : b.length = 4116) (good : blkOk (slice b 20 4096) = true) :
    execStitchBlock port b s = ok (s.blockKeep q (u32 (setEntry q.header (u16 b 2)) 4 + u32 b 12) (slice b 20 4096)) := by
  rw [execStitchBlock, transfer]
  dsimp only
  rw [if_neg fits.taken, if_neg (by simp [len, good])]
  rfl

theorem runs_stitchBlock {port : Nat} {b : Bytes} {q : Stitch} {s : State} (transfer : s.upd.stitch = some q)
    (fits : StitchBlockFits port b q) (len : b.length = 4116) (good : blkOk (slice b 20 4096) = true) :
    Runs (.stitchBlock port b) s (fun t =>
      (t.upd.stitch.any (fun x => x.got.contains (u32 (setEntry q.header (u16 b 2)) 4 + u32 b 12)) = true) ∧
      (t.upd.stitch.map (fun x => (x.port, x.stg, x.header)) = some (q.port, q.stg, q.header)) ∧ t.upd.verified.contains q.stg = false ∧
      t.out = s.out) := by
  refine ⟨_, execStitchBlock_kept transfer fits len good, ?_, rfl, ?_, ?_⟩
  · show (if q.got.contains _ then q.got else _ :: q.got).contains _ = true
    split
    next held => exact held
    next => simp
  · show (List.filter (fun g => decide (g ≠ q.stg)) _).contains q.stg = false
    simp
  · exact (Keeps.storePut (.refl [.dram, .sto, .win 9] s)).only .out (by decide)

/-- The end of a transfer with a message to its sender. -/
def State.stitchEnd (s : State) (q : Stitch) (op code : Nat) : State :=
  (s.updMod (fun u => { u with stitch := none })).stitchSay q.port op (stitchMsg op code 0xFFFF (setIdB q.header) 0 0 [])

theorem updVerify_passed {s : State} {g : Nat} (verdict : s.setVerify (s.stgRd g) (some s.upd.run) = none) :
    s.updVerify g false =
      (s.updMod (fun u => { u with verified := if u.verified.contains g then u.verified else g :: u.verified })).updDone := by
  rw [State.updVerify, verdict]
  rfl

theorem updVerify_failed {s : State} {g e i : Nat} (verdict : s.setVerify (s.stgRd g) (some s.upd.run) = some (e, i)) :
    s.updVerify g false = s.updFail e i := by
  rw [State.updVerify, verdict]
  rfl

theorem runs_stitchDone {q : Stitch} {s : State} (transfer : s.upd.stitch = some q) (whole : stitchWhole q = true) (job : s.upd.job = none) :
    Runs .stitchDone s (fun t => (s.setVerify (s.stgRd q.stg) (some s.upd.run) = none → t.upd.stitch = none ∧
      t.upd.verified.contains q.stg = true ∧ t.out = s.out ++ [.stitch q.port 4 (stitchMsg 4 0 0xFFFF (setIdB q.header) 0 0 [])]) ∧
      (s.setVerify (s.stgRd q.stg) (some s.upd.run) ≠ none → t = s)) := by
  by_cases verdict : s.setVerify (s.stgRd q.stg) (some s.upd.run) = none
  · have run : execStitchDone s = ok ((s.updVerify q.stg false).stitchEnd q 4 0) := by
      simp [execStitchDone, transfer, whole, job, verdict, State.stitchEnd]
    refine ⟨_, run, fun _ => ⟨rfl, ?_, ?_⟩, fun h => absurd verdict h⟩
    · rw [updVerify_passed verdict]
      show (if s.upd.verified.contains q.stg then s.upd.verified else q.stg :: s.upd.verified).contains q.stg = true
      split
      next held => exact held
      next => simp
    · rw [updVerify_passed verdict]
      rfl
  · exact ⟨s, by rw [exec]; simp [execStitchDone, transfer, verdict], fun h => absurd h verdict, fun _ => rfl⟩

theorem runs_stitchAbort {q : Stitch} {s : State} (transfer : s.upd.stitch = some q) (whole : stitchWhole q = true) (job : s.upd.job = none) :
    Runs .stitchAbort s (fun t => ∀ e i, s.setVerify (s.stgRd q.stg) (some s.upd.run) = some (e, i) → t.upd.stitch = none ∧
      t.upd.verified = s.upd.verified ∧ t.out = s.out ++ [.stitch q.port 5 (stitchMsg 5 e 0xFFFF (setIdB q.header) 0 0 [])]) := by
  cases verdict : s.setVerify (s.stgRd q.stg) (some s.upd.run) with
  | none => exact ⟨s, by rw [exec]; simp [execStitchAbort, transfer, whole, job, verdict], fun _ _ h => absurd h (by simp)⟩
  | some x =>
    obtain ⟨e, i⟩ := x
    have run : execStitchAbort s = ok ((s.updFail e i).stitchEnd q 5 e) := by
      simp [execStitchAbort, transfer, whole, job, verdict, State.stitchEnd, updVerify_failed verdict]
    refine ⟨_, run, ?_⟩
    rintro e' i' same
    obtain ⟨rfl, rfl⟩ := Prod.mk.inj (Option.some.inj same)
    exact ⟨rfl, rfl, rfl⟩

/-! ## Sets delivered on the console (R466) -/

theorem length_of_uartGood {b : Bytes} (good : uartGood b = true) : (slice b 12 (u16 b 8)).length = u16 b 8 := by
  obtain ⟨-, -, length, -⟩ := of_decide_eq_true good
  rw [slice, List.length_take, List.length_drop]
  omega

theorem mem_of_mem_slice {b : Bytes} {o n x : Nat} (h : x ∈ slice b o n) : x ∈ b := List.mem_of_mem_drop (List.mem_of_mem_take h)

theorem runs_uartDataFrame_reads {b : Bytes} {s : State} (on : s.uartOn = true) (good : uartGood b = true) (data : u8 b 1 = 1)
    (octets : ∀ x ∈ b, x < 256) :
    Runs (.uartDataFrame b) s (fun t => t.rdMem (u32 b 4) (u16 b 8) = slice b 12 (u16 b 8) ∧ t.nor = s.nor ∧
      (∃ off, t.out = s.out ++ [.uart (uartFrame 0x81 (u16 b 2) off)])) := by
  have written := rdMem_wrMem_same (s.updMod (fun u => { u with hunt := false })) (u32 b 4) (b := slice b 12 (u16 b 8))
    (fun x h => octets x (mem_of_mem_slice h))
  rw [length_of_uartGood good] at written
  exact ⟨_, execUartDataFrame_good on good data, written, rfl, _, rfl⟩

/-- s with the end of a delivery acknowledged. -/
def State.deliveryAck (s : State) (b : Bytes) : State := (s.updMod (fun u => { u with hunt := false })).uartSay 0x81 b

theorem keeps_deliveryAck (s : State) (b : Bytes) : Keeps [.upd, .out, .draws] s (s.deliveryAck b) :=
  .uartSay (.updMod (.refl _ s))

theorem execUartEndFrame_good {b : Bytes} {bad : Bool} {s : State} (on : s.uartOn = true) (good : uartGood b = true) (ends : u8 b 1 = 2) :
    execUartEndFrame b bad s =
      ok ((s.deliveryAck b).rcvRun 2 (u32 b 4) bad (fun u e => u.emit (.uart (uartFrame 0x83 (u16 b 2) e)))) := by
  simp [execUartEndFrame, on, sync_of_uartGood good, good, ends, State.deliveryAck]

theorem runs_uartEndFrame_failed {b : Bytes} {bad : Bool} {e i : Nat} {s : State} (on : s.uartOn = true) (good : uartGood b = true)
    (ends : u8 b 1 = 2) (verdict : s.setVerify (s.rcvRd (u32 b 4)) none = some (e, i)) (he : e < 16) :
    Runs (.uartEndFrame b bad) s (fun t => RcvShown t 2 e ∧ t.nor = s.nor ∧
      t.out.drop (s.out.length + 1) = [.uart (uartFrame 0x83 (u16 b 2) e)]) := by
  have acked := keeps_deliveryAck s b
  obtain ⟨u, hu⟩ : ∃ u, u = (s.deliveryAck b).rcvResult 2 e := ⟨_, rfl⟩
  have showing : Keeps [.win 11] (s.deliveryAck b) u := hu ▸ keeps_rcvResult _ 2 e
  have run : execUartEndFrame b bad s = ok (u.emit (.uart (uartFrame 0x83 (u16 b 2) e))) := by
    rw [execUartEndFrame_good on good ends, rcvRun_failed (by rw [acked.rcvRd_eq, acked.setVerify_eq, verdict]), hu]
  have shown : RcvShown u 2 e := by
    have result := shown_rcvResult (s.deliveryAck b) e (show 2 < 4 by decide)
    rwa [Nat.mod_eq_of_lt he, ← hu] at result
  have nor : u.nor = s.nor := (show u.nor = (s.deliveryAck b).nor from showing.only .nor (by decide)).trans (acked.only .nor (by decide))
  obtain ⟨x, ack⟩ : ∃ x, (s.deliveryAck b).out = s.out ++ [x] := ⟨_, rfl⟩
  have out : u.out = s.out ++ [x] := (show _ = (s.deliveryAck b).out from showing.only .out (by decide)).trans ack
  refine ⟨_, run, ⟨shown.result, shown.path, shown.done⟩, nor, ?_⟩
  show (u.out ++ [_]).drop (s.out.length + 1) = _
  rw [out]
  exact List.drop_left' (by simp)

/-! ## A set that checks in recovery mode (R467) -/

/-- The NOR slot that a set delivered in recovery mode goes to. -/
def State.rcvSlot (s : State) : Nat := if s.slotSt 0 = 4 then 1 else 0

/-- s with that slot copying and its pages erased. -/
def State.rcvErase (s : State) : State := (s.slotSet s.rcvSlot 1 0).norErase (norSlot s.rcvSlot) norSlotPages

/-- s with the set copied, in trial, and its result shown. -/
def State.rcvCopy (s : State) (path len : Nat) : State :=
  ((s.rcvErase.slotCopy s.rcvSlot (s.rcvRd len)).slotTrial s.rcvSlot).rcvResult path 0

theorem rcvSlot_lt (s : State) : s.rcvSlot < 2 := by
  unfold State.rcvSlot
  split <;> decide

theorem rcvRun_unwritten {s : State} {len : Nat} (verdict : s.setVerify (s.rcvRd len) none = none) (path : Nat) (say : State → Nat → State) :
    s.rcvRun path len true say = say (s.rcvErase.rcvResult path 13) 13 := by
  unfold State.rcvRun
  simp only [verdict]
  rfl

theorem rcvRun_copied {s : State} {len : Nat} (verdict : s.setVerify (s.rcvRd len) none = none) (path : Nat) (say : State → Nat → State) :
    s.rcvRun path len false say =
      ((say (s.rcvCopy path len) 0).aoMod (fun a => { a with cycles := 0 })).warmRestart 2 false true := by
  unfold State.rcvRun
  simp only [verdict]
  rfl

theorem keeps_rcvErase (s : State) : Keeps [.nor] s s.rcvErase := .norErase (.slotSet (.refl _ s))

theorem runs_rcvGo_unwritten {s : State} (mode : s.rcvMode = true) {len : Nat} (hl : len < 2 ^ 25) :
    Runs (.rcvGo 8 len true) s (fun t => (s.setVerify (s.rcvRd len) none = none → RcvShown t 3 13 ∧ t.rcvMode = true) ∧
      (∀ e i, s.setVerify (s.rcvRd len) none = some (e, i) → t.getF Reg.UPD_RCV_STAT Fld.UPD_RCV_STAT_RESULT = e % 16 ∧ t.nor = s.nor)) := by
  have taken := keeps_rcvTaken s len
  cases verdict : s.setVerify (s.rcvRd len) none with
  | some x =>
    obtain ⟨e, i⟩ := x
    refine ⟨_, execRcvGo_failed mode hl verdict 8 true, fun h => absurd h (by simp), ?_⟩
    rintro e' i' same
    obtain ⟨rfl, rfl⟩ := Prod.mk.inj (Option.some.inj same)
    exact ⟨(shown_rcvResult (s.rcvTaken len) e (show 3 < 4 by decide)).result,
      (taken.trans (keeps_rcvResult _ 3 e)).only .nor (by decide)⟩
  | none =>
    have run : execRcvGo 8 len true s = ok ((s.rcvTaken len).rcvErase.rcvResult 3 13) := by
      rw [execRcvGo_of_mode mode hl, rcvRun_unwritten (by rw [taken.rcvRd_eq, taken.setVerify_eq, verdict])]
      rfl
    refine ⟨_, run, fun _ => ⟨shown_rcvResult _ 13 (by decide), ?_⟩, fun _ _ h => absurd h (by simp)⟩
    rw [rcvMode_rcvResult]
    exact (State.isF_of_raw ((keeps_rcvErase _).raw_eq Reg.UPD_RCV_STAT) _).trans ((rcvMode_rcvTaken s len).trans mode)

/-- A NOR slot goes to trial, whatever the directory was before the copy. -/
theorem State.slotSt_slotTrial {s : State} {i : Nat} (full : s.dir.length = 4096) (hi : i < 2) : (s.slotTrial i).slotSt i = 3 := by
  have raised : Keeps [.win 11] (s.slotSet i 3 (s.getF Reg.UPD_TRIAL Fld.UPD_TRIAL_TRIES)) (s.slotTrial i) :=
    .raiseF (.refl _ _) Reg.UPD_INT_STAT Fld.UPD_INT_STAT_TRIAL
  rw [State.slotSt_congr (raised.only .nor (by decide)), State.slotSt_slotSet_same _ _ full hi]

theorem length_dir_slotCopy (s : State) (i : Nat) (rd : Nat → Bytes) : (s.slotCopy i rd).dir.length = 4096 := by
  unfold State.slotCopy
  exact State.length_dir_dirWrite _ _

theorem slotSt_rcvCopy (s : State) (path len : Nat) : (s.rcvCopy path len).slotSt s.rcvSlot = 3 := by
  unfold State.rcvCopy
  rw [State.slotSt_congr ((keeps_rcvResult _ path 0).only .nor (by decide))]
  exact State.slotSt_slotTrial (length_dir_slotCopy _ _ _) (rcvSlot_lt s)

/-! ## The restart (R502, R506, R508) -/

/-- The vault is loaded without an erase while PFAIL_N is low. -/
theorem nor_vaultLoad {s : State} (low : s.pins.pfail = true) : s.vaultLoad.nor = s.nor := by
  unfold State.vaultLoad
  split
  · exact (Keeps.report (.refl [.smp, .win 4] s) _ _ _ _).only .nor (by decide)
  · simp only [low, Bool.not_true, State.when_false]
    exact (Keeps.vaultRecs (.refl [.hoop] s)).only .nor (by decide)

theorem State.nor_when {f : State → State} (hf : ∀ u : State, (f u).nor = u.nor) (s : State) (c : Bool) : (s.when c f).nor = s.nor := by
  cases c
  · rfl
  · exact hf s

theorem nor_hoopStart {s : State} (low : s.pins.pfail = true) : (s.hoopStart false).nor = s.nor := by
  unfold State.hoopStart
  dsimp only
  rw [State.nor_when fun u => (Keeps.report (.refl [.smp, .win 4] u) _ _ _ _).only .nor (by decide), State.hoopMod_nor]
  split
  · rfl
  · exact (show _ = _ from (Keeps.deviceKeys (.refl [.hoop, .win 5] _)).only .nor (by decide)).trans (nor_vaultLoad low)

/-- The seal's start leaves the count of power cycles. -/
theorem cycles_sealStart (s : State) : s.sealStart.ao.cycles = s.ao.cycles := by
  obtain ⟨t, ht⟩ : ∃ t, t = s.setF Reg.TOT_STAT Fld.TOT_STAT_SEAL_OPEN s.ao.sealOpen.toNat := ⟨_, rfl⟩
  have shape : s.sealStart = (t.when t.ao.sealLate State.tamper).aoMod (fun a => { a with sealLate := false }) := by rw [ht]; rfl
  have tampered : Keeps [.dram, .sto, .tot, .smp, .win 4, .win 8, .win 9] t (t.when t.ao.sealLate State.tamper) :=
    .when' (.refl _ t) _ fun _ k => .tamper k
  rw [shape]
  show (t.when t.ao.sealLate State.tamper).ao.cycles = _
  rw [show (t.when t.ao.sealLate State.tamper).ao = t.ao from tampered.only .ao (by decide), ht, State.setF_ao]

/-- What a restart without an answer from the governor leaves of a device whose PFAIL_N is low. -/
theorem warmTo_leaves {s : State} (low : s.pins.pfail = true) :
    (s.warmTo none).nor = s.nor ∧ (s.warmTo none).ao.cycles = s.ao.cycles ∧ (s.warmTo none).pins.pfail = true := by
  obtain ⟨r, hr⟩ : ∃ r, r = (s.resetTo false).pairRestart := ⟨_, rfl⟩
  have restart : Keeps [.time, .smp, .win 2, .win 4] (s.resetTo false) r := hr ▸ .pairRestart (.refl _ _)
  have pins : r.pins = (s.resetTo false).pins := restart.only .pins (by decide)
  have nor : r.nor = s.nor := restart.only .nor (by decide)
  have ao : r.ao = s.ao := restart.only .ao (by decide)
  have lowR : r.pins.pfail = true := by rw [pins]; exact low
  have warm : s.warmTo none = (r.hoopStart false).sealStart := by rw [hr]; rfl
  have hoop : Keeps [.hoop, .nor, .smp, .win 4, .win 5] r (r.hoopStart false) := .hoopStart (.refl _ r)
  have started : Keeps [.dram, .sto, .tot, .ao, .smp, .win 4, .win 8, .win 9] (r.hoopStart false) (r.hoopStart false).sealStart :=
    .sealStart (.refl _ _)
  rw [warm]
  refine ⟨?_, ?_, ?_⟩
  · rw [show (r.hoopStart false).sealStart.nor = _ from started.only .nor (by decide), nor_hoopStart lowR, nor]
  · rw [cycles_sealStart, show (r.hoopStart false).ao = _ from hoop.only .ao (by decide), ao]
  · rw [show (r.hoopStart false).sealStart.pins = _ from started.only .pins (by decide),
      show (r.hoopStart false).pins = _ from hoop.only .pins (by decide), lowR]

/-- With PFAIL_N low the boot ROM waits. -/
theorem bootStart_waits {s : State} (low : s.pins.pfail = true) (cause : Nat) (bad rcv : Bool) :
    s.bootStart cause bad rcv = { s with pins := { s.pins with bootWait := some (cause, bad, rcv) } } := if_pos low

theorem warmRestart_waits {s : State} (low : s.pins.pfail = true) (cause : Nat) (bad rcv : Bool) :
    (s.warmRestart cause bad rcv).nor = s.nor ∧ (s.warmRestart cause bad rcv).ao.cycles = s.ao.cycles ∧
      (s.warmRestart cause bad rcv).pins.bootWait.isSome = true := by
  obtain ⟨nor, cycles, still⟩ := warmTo_leaves low
  rw [State.warmRestart, bootStart_waits still]
  generalize s.warmTo none = w at nor cycles
  exact ⟨nor, cycles, rfl⟩

theorem runs_rcvGo_copied {s : State} (mode : s.rcvMode = true) {len : Nat} (hl : len < 2 ^ 25) (low : s.pins.pfail = true) :
    Runs (.rcvGo 7 len false) s (fun t => s.setVerify (s.rcvRd len) none = none → t.slotSt (if s.slotSt 0 = 4 then 1 else 0) = 3 ∧
      t.ao.cycles = 0 ∧ t.pins.bootWait.isSome = true) := by
  refine ⟨_, execRcvGo_of_mode mode hl 7 false, fun verdict => ?_⟩
  have taken := keeps_rcvTaken s len
  obtain ⟨u, hu⟩ : ∃ u, u = ((s.rcvTaken len).rcvCopy 1 len).aoMod (fun a => { a with cycles := 0 }) := ⟨_, rfl⟩
  have run : (s.rcvTaken len).rcvRun (if 7 = 8 then 3 else 1) len false (fun t _ => t) = u.warmRestart 2 false true := by
    rw [rcvRun_copied (by rw [taken.rcvRd_eq, taken.setVerify_eq, verdict]), hu]
    rfl
  have slot : (if s.slotSt 0 = 4 then 1 else 0) = (s.rcvTaken len).rcvSlot := by
    rw [State.rcvSlot, State.slotSt_congr (taken.only .nor (by decide))]
  have copied : Keeps [.nor, .win 11] s ((s.rcvTaken len).rcvCopy 1 len) :=
    .rcvResult (.slotTrial (.slotCopy (.norErase (.slotSet (taken.mono (by decide))))))
  have lowU : u.pins.pfail = true := by
    rw [hu, State.aoMod_pins, show ((s.rcvTaken len).rcvCopy 1 len).pins = s.pins from copied.only .pins (by decide), low]
  obtain ⟨nor, cycles, waits⟩ := warmRestart_waits lowU 2 false true
  rw [run, slot]
  refine ⟨?_, ?_, waits⟩
  · rw [State.slotSt_congr nor, hu, State.slotSt_congr (State.aoMod_nor _ _), slotSt_rcvCopy]
  · rw [cycles, hu]
    rfl

end Sys2Proof.Machine

open Sys2Proof Sys2Proof.Machine

/-- Settles O53: the relay's answers follow from what a set holds; a delivery's result is that of its checks, and after a copy the directory that
was written has its 4 KiB, so that the slot's STATE reads back through the restart. -/
theorem relayAndRecoveryRunToTheirEnd : Obligations.RelayAndRecoveryRunToTheirEnd := by
  unfold Obligations.RelayAndRecoveryRunToTheirEnd
  refine ⟨?_, ?_, ?_, ?_, ?_, ?_, ?_, ?_, ?_, ?_, ?_⟩
  · rintro port b h s len op rfl crc job other own
    exact runs_stitchOffer len op crc job other own
  · exact fun port g b s own op h0 h1 index => runs_stitchRequest_header own op h0 h1 index
  · exact fun port g b s own op one entry block => runs_stitchRequest_block own op one entry block
  · exact fun port b q s transfer hp op set entry block len good => runs_stitchBlock transfer ⟨hp, op, set, entry, block⟩ len good
  · exact fun q s transfer whole job => runs_stitchDone transfer whole job
  · exact fun q s transfer whole job => runs_stitchAbort transfer whole job
  · exact fun b s on good data octets => runs_uartDataFrame_reads on good data octets
  · intro b bad e i s on good ends verdict he
    obtain ⟨t, run, shown, nor, out⟩ := runs_uartEndFrame_failed (bad := bad) on good ends verdict he
    exact ⟨t, run, shown.result, shown.path, shown.done, nor, out⟩
  · exact fun s on => ⟨_, execUartRxTimeout_on on, rfl⟩
  · rintro init len s mode rfl hl
    obtain ⟨t, run, unwritten, failed⟩ := runs_rcvGo_unwritten mode hl
    refine ⟨t, run, fun verdict => ?_, failed⟩
    obtain ⟨shown, on⟩ := unwritten verdict
    exact ⟨shown.result, shown.path, shown.done, on⟩
  · rintro init len s mode rfl hl low
    exact runs_rcvGo_copied mode hl low

end
